-- ==== Sys2Proof/Word.lean ====
section
/-!
DEFINITION. The word types of the DW-24 and their plainest arithmetic (spec/00_scope.md R5, R12): a word is 64
bits, bit 0 is the least significant, `x[hi:lo]` is an unsigned slice and `sext` reads two's complement.
-/

namespace Sys2Proof

/-- A word of 64 bits. -/
abbrev W64 := BitVec 64
/-- An instruction word of 32 bits (spec/07 R169). -/
abbrev W32 := BitVec 32
/-- A byte. -/
abbrev Byte := BitVec 8

/-- `x[hi:lo]` of a word, as a natural number (spec/00 R12). -/
def slice (x : W64) (hi lo : Nat) : Nat := (x.toNat / 2 ^ lo) % 2 ^ (hi + 1 - lo)

/-- Bit `i` of a word. -/
def bit (x : W64) (i : Nat) : Bool := x.getLsbD i

/-- `x` read as an `n`-bit two's-complement integer (spec/00 R12). -/
def sext (x n : Nat) : Int :=
  if x % 2 ^ n < 2 ^ (n - 1) then (x % 2 ^ n : Nat) else (x % 2 ^ n : Nat) - (2 ^ n : Nat)

/-- An integer as a word, modulo 2^64. -/
def wordOfInt (i : Int) : W64 := BitVec.ofInt 64 i

/-- `sat(v, lo, hi)` (spec/00 R12). -/
def satInt (v lo hi : Int) : Int := if v < lo then lo else if hi < v then hi else v

/-- A natural number as a word, modulo 2^64. -/
def wordOfNat (n : Nat) : W64 := BitVec.ofNat 64 n

/-- A Boolean as bit `i` of a natural number. -/
def bitAt (b : Bool) (i : Nat) : Nat := if b then 2 ^ i else 0

/-- ⌈a / b⌉. -/
def ceilDiv (a b : Nat) : Nat := (a + b - 1) / b

end Sys2Proof
end

