-- ==== Sys2Proof/Machine/Sparse.lean ====
section
/-!
DEFINITION. Sparse maps from natural numbers: a list of key and value pairs in ONE canonical form (keys strictly
rising, no value equal to what an unlisted key reads as). Memory, register files and buffers are held so.
-/

namespace Sys2Proof

/-- A sparse map, keys to values. -/
abbrev Sparse (α : Type) := List (Nat × α)

/-- What key `k` holds: the listed value, or `dflt`. -/
def spGet {α : Type} (dflt : α) : Sparse α → Nat → α
  | [], _ => dflt
  | (j, v) :: m, k => if j = k then v else spGet dflt m k

/-- Set key `k` to `v`, keeping the canonical form: the default is never listed. -/
def spSet {α : Type} [DecidableEq α] (dflt : α) : Sparse α → Nat → α → Sparse α
  | [], k, v => if v = dflt then [] else [(k, v)]
  | (j, w) :: m, k, v =>
    if k < j then (if v = dflt then (j, w) :: m else (k, v) :: (j, w) :: m)
    else if k = j then (if v = dflt then m else (k, v) :: m)
    else (j, w) :: spSet dflt m k v

/-- Every key of the map is above `lo`, keys rise strictly and no value is the default of its key. -/
def spWfFrom {α : Type} [DecidableEq α] (dflt : Nat → α) : Option Nat → Sparse α → Bool
  | _, [] => true
  | lo, (j, v) :: m => (match lo with | none => true | some l => decide (l < j)) && decide (v ≠ dflt j) && spWfFrom dflt (some j) m

/-- The canonical form, where the default depends on the key. -/
def spWfBy {α : Type} [DecidableEq α] (dflt : Nat → α) (m : Sparse α) : Bool := spWfFrom dflt none m
/-- The canonical form. -/
def spWf {α : Type} [DecidableEq α] (dflt : α) (m : Sparse α) : Bool := spWfBy (fun _ => dflt) m

/-- Set the keys `k, k+1, …` to the listed values. -/
def spSetList {α : Type} [DecidableEq α] (dflt : α) (m : Sparse α) (k : Nat) : List α → Sparse α
  | [] => m
  | v :: vs => spSetList dflt (spSet dflt m k v) (k + 1) vs

/-- The values at `k, …, k + n - 1`. -/
def spGetList {α : Type} (dflt : α) (m : Sparse α) (k : Nat) : Nat → List α
  | 0 => []
  | n + 1 => spGet dflt m k :: spGetList dflt m (k + 1) n

/-- Set the keys `k, …, k + n - 1` to one value. -/
def spFill {α : Type} [DecidableEq α] (dflt : α) (m : Sparse α) (k : Nat) (v : α) : Nat → Sparse α
  | 0 => m
  | n + 1 => spFill dflt (spSet dflt m k v) (k + 1) v n

/-- The map whose keys `k, k+1, …` hold the listed values. -/
def spOfList {α : Type} [DecidableEq α] (dflt : α) (k : Nat) : List α → Sparse α
  | [] => []
  | v :: vs => if v = dflt then spOfList dflt (k + 1) vs else (k, v) :: spOfList dflt (k + 1) vs

/-- A little-endian natural number from bytes (spec/00 R5). -/
def natOfBytes : List Byte → Nat
  | [] => 0
  | b :: bs => b.toNat + 256 * natOfBytes bs

/-- The `n` bytes of a natural number, lowest first (spec/00 R5). -/
def bytesOfNat (x : Nat) : Nat → List Byte
  | 0 => []
  | n + 1 => BitVec.ofNat 8 x :: bytesOfNat (x / 256) n

/-- The elements of a list that a condition holds for, with the first one removed: what is found and what is left. -/
def takeFirst {α : Type} (p : α → Bool) : List α → Option (α × List α)
  | [] => none
  | x :: xs =>
    if p x then some (x, xs)
    else match takeFirst p xs with
      | none => none
      | some (y, ys) => some (y, x :: ys)

/-- Replace the elements a condition picks by their image. -/
def mapWhere {α : Type} (p : α → Bool) (f : α → α) (xs : List α) : List α := xs.map fun x => if p x then f x else x

end Sys2Proof
end

