-- ==== Sys2Proof/Machine/Crypto.lean ====
section
/-!
DEFINITION. SHA-256 (FIPS 180-4) and the verification of ECDSA signatures over P-256 (FIPS 186), which spec/16 R358 and R359 name and
do not write out (log 7). Big-endian throughout.
-/

namespace Sys2Proof.Machine

open Sys2Proof

/-! ### SHA-256 -/

/-- The largest `k`-th root of `n` of at most `b` bits above `r`, bit by bit. -/
def rootFrom (k n : Nat) : Nat → Nat → Nat
  | 0, r => r
  | b + 1, r => rootFrom k n b (if (r + 2 ^ b) ^ k ≤ n then r + 2 ^ b else r)
/-- The first 32 bits of the fraction of the `k`-th root of a number below 2^12. -/
def rootFraction (k p : Nat) : W32 := BitVec.ofNat 32 (rootFrom k (p * 2 ^ (32 * k)) 38 0)
/-- The first 64 primes: every composite number below 312 has a divisor below 18. -/
def firstPrimes : List Nat := (List.range' 2 310).filter fun n => (List.range' 2 16).all fun d => n % d ≠ 0 || n = d
/-- The 64 round constants come from cube roots, the 8 words of the first hash value from square roots. -/
def shaK : List W32 := firstPrimes.map (rootFraction 3)
def shaInit : List W32 := (firstPrimes.take 8).map (rootFraction 2)

/-- A natural number from bytes, and the `n` bytes of one, highest first. -/
def natOfBytesBe (bs : List Byte) : Nat := natOfBytes bs.reverse
def bytesBe (x n : Nat) : List Byte := (bytesOfNat x n).reverse
/-- The `n` words of a block. -/
def beWords : Nat → List Byte → List W32
  | 0, _ => []
  | n + 1, bs => BitVec.ofNat 32 (natOfBytesBe (bs.take 4)) :: beWords n (bs.drop 4)
/-- The message schedule, newest word first. -/
def shaSchedule : Nat → List W32 → List W32
  | 0, ws => ws
  | n + 1, ws =>
    let s0 := let x := ws.getD 14 0; x.rotateRight 7 ^^^ x.rotateRight 18 ^^^ (x >>> 3)
    let s1 := let x := ws.getD 1 0; x.rotateRight 17 ^^^ x.rotateRight 19 ^^^ (x >>> 10)
    shaSchedule n ((ws.getD 15 0 + s0 + ws.getD 6 0 + s1) :: ws)
/-- One round. -/
def shaRound (h : List W32) (kw : W32 × W32) : List W32 :=
  let a := h.getD 0 0
  let e := h.getD 4 0
  let s1 := e.rotateRight 6 ^^^ e.rotateRight 11 ^^^ e.rotateRight 25
  let ch := (e &&& h.getD 5 0) ^^^ (~~~e &&& h.getD 6 0)
  let t1 := h.getD 7 0 + s1 + ch + kw.1 + kw.2
  let s0 := a.rotateRight 2 ^^^ a.rotateRight 13 ^^^ a.rotateRight 22
  let maj := (a &&& h.getD 1 0) ^^^ (a &&& h.getD 2 0) ^^^ (h.getD 1 0 &&& h.getD 2 0)
  [t1 + s0 + maj, a, h.getD 1 0, h.getD 2 0, h.getD 3 0 + t1, e, h.getD 5 0, h.getD 6 0]
/-- One block. -/
def shaBlock (h : List W32) (bs : List Byte) : List W32 :=
  let ws := (shaSchedule 48 (beWords 16 bs).reverse).reverse
  ((shaK.zip ws).foldl shaRound h).zipWith (· + ·) h
def shaBlocks : Nat → List W32 → List Byte → List W32
  | 0, h, _ => h
  | n + 1, h, bs => shaBlocks n (shaBlock h (bs.take 64)) (bs.drop 64)
/-- SHA-256: 32 bytes. -/
def sha256 (bs : List Byte) : List Byte :=
  let n := bs.length
  let z := (119 - n % 64) % 64
  let m := bs ++ [0x80#8] ++ List.replicate z 0 ++ bytesBe (8 * n) 8
  (shaBlocks (m.length / 64) shaInit m).flatMap fun w => bytesBe w.toNat 4

/-! ### P-256 -/

def p256P : Nat := 0xFFFFFFFF00000001000000000000000000000000FFFFFFFFFFFFFFFFFFFFFFFF
def p256N : Nat := 0xFFFFFFFF00000000FFFFFFFFFFFFFFFFBCE6FAADA7179E84F3B9CAC2FC632551
def p256B : Nat := 0x5AC635D8AA3A93E7B3EBBD55769886BC651D06B0CC53B0F63BCE3C3E27D2604B
def p256G : Nat × Nat :=
  (0x6B17D1F2E12C4247F8BCE6E563A440F277037D812DEB33A0F4A13945D898C296, 0x4FE342E2FE1A7F9B8EE7EB4A7C0F9E162BCE33576B315ECECBB6406837BF51F5)

/-- `b ^ e` modulo `m`, by the low `k` bits of `e`. -/
def powMod (m : Nat) : Nat → Nat → Nat → Nat
  | 0, _, _ => 1
  | k + 1, b, e => (if e % 2 = 1 then b else 1) * powMod m k (b * b % m) (e / 2) % m
/-- The inverse modulo a prime. -/
def invMod (m a : Nat) : Nat := powMod m 256 (a % m) (m - 2)
/-- A point in Jacobian coordinates: x is X / Z ^ 2 and y is Y / Z ^ 3, all modulo the prime; Z is 0 at infinity. -/
structure Point where
  x : Nat
  y : Nat
  z : Nat
/-- Sum, product and difference of residues. -/
def addP (a b : Nat) : Nat := (a + b) % p256P
def mulP (a b : Nat) : Nat := a * b % p256P
def subP (a b : Nat) : Nat := (a + p256P - b) % p256P
/-- Twice a point. -/
def pointDouble (p : Point) : Point :=
  let q := mulP p.y p.y
  let s := mulP 4 (mulP p.x q)
  let z := mulP p.z p.z
  let m := mulP 3 (mulP (subP p.x z) (addP p.x z))
  let x := subP (mulP m m) (mulP 2 s)
  { x, y := subP (mulP m (subP s x)) (mulP 8 (mulP q q)), z := mulP 2 (mulP p.y p.z) }
/-- Sum of two points. -/
def pointAdd (p q : Point) : Point :=
  if p.z = 0 then q
  else if q.z = 0 then p
  else
    let zp := mulP p.z p.z
    let zq := mulP q.z q.z
    let u := mulP p.x zq
    let v := mulP p.y (mulP q.z zq)
    let h := subP (mulP q.x zp) u
    let r := subP (mulP q.y (mulP p.z zp)) v
    if h = 0 then (if r = 0 then pointDouble p else { x := 1, y := 1, z := 0 })
    else
      let hh := mulP h h
      let a := mulP u hh
      let x := subP (subP (mulP r r) (mulP h hh)) (mulP 2 a)
      { x, y := subP (mulP r (subP a x)) (mulP v (mulP h hh)), z := mulP h (mulP p.z q.z) }
/-- `k` times a point, by the low `n` bits of `k`. -/
def pointMul : Nat → Nat → Point → Point
  | 0, _, _ => { x := 1, y := 1, z := 0 }
  | n + 1, k, p => if k % 2 = 1 then pointAdd p (pointMul n (k / 2) (pointDouble p)) else pointMul n (k / 2) (pointDouble p)
/-- A public key lies on the curve. -/
def onCurve (x y : Nat) : Bool :=
  x < p256P && y < p256P && y * y % p256P = (x * x * x + (p256P - 3) * x + p256B) % p256P
/-- The signature (r, s) over a digest verifies under a public key: 64 bytes each, and 32 of digest. -/
def ecdsaVerify (key digest sig : List Byte) : Bool :=
  let x := natOfBytesBe (key.take 32)
  let y := natOfBytesBe (key.drop 32)
  let r := natOfBytesBe (sig.take 32)
  let t := natOfBytesBe (sig.drop 32)
  if !(onCurve x y && 0 < r && r < p256N && 0 < t && t < p256N) then false
  else
    let w := invMod p256N t
    let e := natOfBytesBe digest
    let p := pointAdd (pointMul 256 (e * w % p256N) { x := p256G.1, y := p256G.2, z := 1 }) (pointMul 256 (r * w % p256N) { x, y, z := 1 })
    p.z ≠ 0 && mulP p.x (invMod p256P (mulP p.z p.z)) % p256N = r

end Sys2Proof.Machine
end

