-- ==== Sys2Proof/Machine/Flags.lean ====
section
/-!
DEFINITION. Number formats, the one rounding, and the flags it raises (spec/06 R147-R155). A value is exact until
`roundTo` rounds it once, to nearest with ties to even.
-/

namespace Sys2Proof.Machine

open Sys2Proof

/-! ### Sticky flags (Table 6.4) -/

abbrev Flags := BitVec 5
def flagNX : Flags := 0b10000#5
def flagUF : Flags := 0b01000#5
def flagOF : Flags := 0b00100#5
def flagDZ : Flags := 0b00010#5
def flagNV : Flags := 0b00001#5
/-- A flag when a condition holds. -/
def flagIf (b : Bool) (f : Flags) : Flags := if b then f else 0

/-! ### Formats (Table 6.2) -/

/-- A binary floating-point format: exponent and mantissa widths, bias, and the codes of its special values. -/
structure FpFormat where
  expBits : Nat
  manBits : Nat
  bias : Int
  /-- An all-ones exponent means infinities and NaNs, as IEEE 754. -/
  ieee : Bool
  /-- The encoding 0x7F/0xFF alone is NaN (E4M3). -/
  nanTop : Bool
  /-- The largest finite magnitude, as its bits without sign. -/
  maxBits : Nat
  /-- Beyond the range: saturate (E5M2, E4M3, E2M1) or infinity. -/
  saturates : Bool
  /-- The default NaN; none for E2M1. -/
  nan : Option Nat
deriving DecidableEq, Repr

def FpFormat.width (f : FpFormat) : Nat := 1 + f.expBits + f.manBits

def fp32 : FpFormat := { expBits := 8, manBits := 23, bias := 127, ieee := true, nanTop := false, maxBits := 0x7F7FFFFF, saturates := false, nan := some 0x7FC00000 }
def bf16 : FpFormat := { expBits := 8, manBits := 7, bias := 127, ieee := true, nanTop := false, maxBits := 0x7F7F, saturates := false, nan := some 0x7FC0 }
def fp16 : FpFormat := { expBits := 5, manBits := 10, bias := 15, ieee := true, nanTop := false, maxBits := 0x7BFF, saturates := false, nan := some 0x7E00 }
def e4m3 : FpFormat := { expBits := 4, manBits := 3, bias := 7, ieee := false, nanTop := true, maxBits := 0x7E, saturates := true, nan := some 0x7F }
def e5m2 : FpFormat := { expBits := 5, manBits := 2, bias := 15, ieee := true, nanTop := false, maxBits := 0x7B, saturates := true, nan := some 0x7E }
def e2m1 : FpFormat := { expBits := 2, manBits := 1, bias := 1, ieee := false, nanTop := false, maxBits := 0x7, saturates := true, nan := none }

/-- The format of the codes 0x2 to 0x7; MX codes give their element format (Table 6.1). -/
def fpOf (code : Nat) : FpFormat :=
  match code with
  | 2 => fp32 | 3 => bf16 | 4 => fp16 | 5 => e4m3 | 6 => e5m2 | 7 => e2m1 | 8 => e4m3 | 9 => e5m2 | _ => e2m1

/-! ### Values -/

/-- An exact value: a NaN, an infinity, or (−1)^neg · num/den · 2^exp. -/
inductive Val where
  | nan (signalling : Bool)
  | inf (neg : Bool)
  | fin (neg : Bool) (num den : Nat) (exp : Int)
deriving DecidableEq, Repr

def Val.zero (neg : Bool) : Val := .fin neg 0 1 0
/-- The value of an integer. -/
def Val.ofInt (i : Int) : Val := .fin (i < 0) i.natAbs 1 0
def Val.isNan : Val → Bool
  | .nan _ => true
  | _ => false
def Val.isSig : Val → Bool
  | .nan s => s
  | _ => false
def Val.isInf : Val → Bool
  | .inf _ => true
  | _ => false
def Val.isZero : Val → Bool
  | .fin _ n _ _ => n = 0
  | _ => false
def Val.neg : Val → Bool
  | .nan _ => false
  | .inf n => n
  | .fin n _ _ _ => n

/-- The value that bits have in a format (R148). -/
def fpDecode (f : FpFormat) (bits : Nat) : Val :=
  let m := bits % 2 ^ f.manBits
  let e := bits / 2 ^ f.manBits % 2 ^ f.expBits
  let neg := bits / 2 ^ (f.manBits + f.expBits) % 2 = 1
  if f.ieee && e = 2 ^ f.expBits - 1 then
    if m = 0 then .inf neg else .nan (m < 2 ^ (f.manBits - 1))
  else if f.nanTop && bits % 2 ^ (f.manBits + f.expBits) = 2 ^ (f.manBits + f.expBits) - 1 then .nan false
  else if e = 0 then .fin neg m 1 (1 - f.bias - f.manBits)
  else .fin neg (2 ^ f.manBits + m) 1 (e - f.bias - f.manBits)

/-! ### Rounding (R152) -/

/-- num/den · 2^sh, as a quotient and whether anything is left, rounded to nearest with ties to even. -/
def divRound (num den : Nat) (sh : Int) : Nat × Bool :=
  let n := if 0 ≤ sh then num * 2 ^ sh.toNat else num
  let d := if 0 ≤ sh then den else den * 2 ^ (-sh).toNat
  let q := n / d
  let r := n % d
  (if 2 * r > d || (2 * r = d && q % 2 = 1) then q + 1 else q, r ≠ 0)

/-- ⌊log2 (num/den)⌋ for positive numbers. -/
def ratLog2 (num den : Nat) : Int :=
  let a : Int := (Nat.log2 num : Int) - Nat.log2 den
  let ge := if 0 ≤ a then den * 2 ^ a.toNat ≤ num else den ≤ num * 2 ^ (-a).toNat
  if ge then a else a - 1

/-- q · 2^u exceeds the magnitude that bits have in a format. -/
def exceeds (f : FpFormat) (q : Nat) (u : Int) : Bool :=
  match fpDecode f f.maxBits with
  | .fin _ m _ e => if u ≤ e then m * 2 ^ (e - u).toNat < q else m < q * 2 ^ (u - e).toNat
  | _ => false

/-- The bits of q · 2^u, which the format can hold. -/
def fpPack (f : FpFormat) (neg : Bool) (q : Nat) (u : Int) : Nat :=
  let sign := bitAt neg (f.manBits + f.expBits)
  if q = 0 then sign
  else
    let (q, u) := if 2 ^ (f.manBits + 1) ≤ q then (q / 2, u + 1) else (q, u)
    if q < 2 ^ f.manBits then sign + q else sign + (u + f.manBits + f.bias).toNat * 2 ^ f.manBits + (q - 2 ^ f.manBits)

/-- What a format delivers for an infinite value (Table 6.5). -/
def fpInf (f : FpFormat) (neg : Bool) : Nat × Flags :=
  let sign := bitAt neg (f.manBits + f.expBits)
  if f.ieee then (sign + (2 ^ f.expBits - 1) * 2 ^ f.manBits, 0) else (sign + f.maxBits, flagOF ||| flagNX)

/-- What a format delivers beyond its range (Table 6.5). -/
def fpOver (f : FpFormat) (neg : Bool) : Nat × Flags :=
  let sign := bitAt neg (f.manBits + f.expBits)
  (if f.saturates then sign + f.maxBits else sign + (2 ^ f.expBits - 1) * 2 ^ f.manBits, flagOF ||| flagNX)

/-- The default NaN of a format; E2M1 gives +0 with NV (Table 6.5). -/
def fpNan (f : FpFormat) : Nat × Flags :=
  match f.nan with
  | some n => (n, 0)
  | none => (0, flagNV)

/-- Round a value once to a format, with the flags of Table 6.4 and Table 6.5. -/
def roundTo (f : FpFormat) (v : Val) : Nat × Flags :=
  match v with
  | .nan _ => fpNan f
  | .inf neg => fpInf f neg
  | .fin neg num den exp =>
    if num = 0 then (bitAt neg (f.manBits + f.expBits), 0)
    else
      let e := ratLog2 num den + exp
      let emin := 1 - f.bias
      let u := max e emin - f.manBits
      let (q, inexact) := divRound num den (exp - u)
      if exceeds f q u then fpOver f neg
      else
        let (q1, _) := divRound num den (exp - (e - f.manBits))
        let tiny := e < emin && !(e = emin - 1 && q1 = 2 ^ (f.manBits + 1))
        (fpPack f neg q u, flagIf inexact flagNX ||| flagIf (tiny && inexact) flagUF)

/-- Round to an integer, to nearest with ties to even: the integer and whether it is inexact. -/
def roundInt (neg : Bool) (num den : Nat) (exp : Int) : Int × Bool :=
  let (q, inexact) := divRound num den exp
  (if neg then -(q : Int) else q, inexact)

/-- Convert to an integer range (Table 6.5, integer row). -/
def toIntRange (lo hi : Int) (v : Val) : Int × Flags :=
  match v with
  | .nan _ => (0, flagNV)
  | .inf neg => (if neg then lo else hi, flagNV)
  | .fin neg num den exp =>
    let (i, inexact) := roundInt neg num den exp
    if i < lo then (lo, flagNV) else if hi < i then (hi, flagNV) else (i, flagIf inexact flagNX)

/-! ### Elements of a format code (Table 6.1) -/

/-- The value of an element of the codes 0x0 to 0x7. -/
def elemDecode (code bits : Nat) : Val :=
  match code with
  | 0 => .ofInt (sext bits 8)
  | 1 => .ofInt (sext bits 32)
  | _ => fpDecode (fpOf code) bits

/-- Convert an element between the codes 0x0 to 0x7 (R155): a conversion to the same format copies bits and raises nothing. -/
def convert (dst src bits : Nat) : Nat × Flags :=
  if dst = src then (bits, 0)
  else
    let v := elemDecode src bits
    let sig := flagIf v.isSig flagNV
    match dst with
    | 0 => let (i, fl) := toIntRange (-128) 127 v; ((i % 256).toNat, fl)
    | 1 => let (i, fl) := toIntRange (-2147483648) 2147483647 v; ((i % 4294967296).toNat, fl)
    | _ => let (b, fl) := roundTo (fpOf dst) v; (b, fl ||| sig)

/-! ### Exact arithmetic -/

/-- The sum of two finite values; an exact zero of opposite signs is +0 (R152). -/
def addFin (n1 : Bool) (a1 d1 : Nat) (e1 : Int) (n2 : Bool) (a2 d2 : Nat) (e2 : Int) : Val :=
  let e := min e1 e2
  let x : Int := (a1 * 2 ^ (e1 - e).toNat * d2 : Nat)
  let y : Int := (a2 * 2 ^ (e2 - e).toNat * d1 : Nat)
  let t := (if n1 then -x else x) + (if n2 then -y else y)
  if t = 0 then .zero (n1 && n2) else .fin (t < 0) t.natAbs (d1 * d2) e

def valAdd : Val → Val → Val × Flags
  | .nan s, b => (.nan false, flagIf (s || b.isSig) flagNV)
  | _, .nan s => (.nan false, flagIf s flagNV)
  | .inf a, .inf b => if a = b then (.inf a, 0) else (.nan false, flagNV)
  | .inf a, .fin .. => (.inf a, 0)
  | .fin .., .inf b => (.inf b, 0)
  | .fin n1 a1 d1 e1, .fin n2 a2 d2 e2 => (addFin n1 a1 d1 e1 n2 a2 d2 e2, 0)

/-- Negate a value that is not a NaN. -/
def valNeg : Val → Val
  | .nan s => .nan s
  | .inf n => .inf !n
  | .fin n a d e => .fin (!n) a d e

def valSub (a b : Val) : Val × Flags := valAdd a (valNeg b)

def valMul : Val → Val → Val × Flags
  | .nan s, b => (.nan false, flagIf (s || b.isSig) flagNV)
  | _, .nan s => (.nan false, flagIf s flagNV)
  | .inf a, .inf b => (.inf (a != b), 0)
  | .inf a, .fin n x _ _ => if x = 0 then (.nan false, flagNV) else (.inf (a != n), 0)
  | .fin n x _ _, .inf a => if x = 0 then (.nan false, flagNV) else (.inf (a != n), 0)
  | .fin n1 a1 d1 e1, .fin n2 a2 d2 e2 => (.fin (n1 != n2) (a1 * a2) (d1 * d2) (e1 + e2), 0)

/-- a · b + c with one rounding to come. -/
def valFma (a b c : Val) : Val × Flags :=
  let (p, f1) := valMul a b
  let (r, f2) := valAdd p c
  (r, f1 ||| f2)

def valDiv : Val → Val → Val × Flags
  | .nan s, b => (.nan false, flagIf (s || b.isSig) flagNV)
  | _, .nan s => (.nan false, flagIf s flagNV)
  | .inf _, .inf _ => (.nan false, flagNV)
  | .inf a, .fin n .. => (.inf (a != n), 0)
  | .fin n .., .inf b => (.zero (n != b), 0)
  | .fin n1 a1 d1 e1, .fin n2 a2 d2 e2 =>
    if a2 = 0 then (if a1 = 0 then (.nan false, flagNV) else (.inf (n1 != n2), flagDZ))
    else (.fin (n1 != n2) (a1 * d2) (d1 * a2) (e1 - e2), 0)

/-- ⌊√n⌋, one bit of the root for each unit of fuel, from bit `k` down. -/
def isqrtFrom (n : Nat) : Nat → Nat → Nat
  | 0, r => r
  | k + 1, r => let t := r + 2 ^ k; isqrtFrom n k (if t * t ≤ n then t else r)
def isqrt (n : Nat) : Nat := isqrtFrom n (Nat.log2 n / 2 + 1) 0

/-- A magnitude known to lie in r..r+1 units of 2^e: the unit itself, or its middle when it is not exact. With enough bits in r
the middle rounds as the exact value does. -/
def sticky (neg : Bool) (r : Nat) (exact : Bool) (e : Int) : Val :=
  if exact then .fin neg r 1 e else .fin neg (2 * r + 1) 1 (e - 1)

/-- Bits of precision of a root before the one rounding. -/
def rootBits : Nat := 64

/-- √v, of a value with denominator 1 (R195). -/
def valSqrt : Val → Val × Flags
  | .nan s => (.nan false, flagIf s flagNV)
  | .inf true => (.nan false, flagNV)
  | .inf false => (.inf false, 0)
  | .fin n a _ e =>
    if a = 0 then (.zero n, 0)
    else if n then (.nan false, flagNV)
    else
      let (a, e) := if e % 2 = 0 then (a, e) else (2 * a, e - 1)
      let x := a * 2 ^ (2 * rootBits)
      let r := isqrt x
      (sticky false r (r * r = x) (e / 2 - rootBits), 0)

/-- Order of two values that are not NaNs: a < b, with −0 equal to +0. -/
def valLt : Val → Val → Bool
  | .nan _, _ => false
  | _, .nan _ => false
  | .inf a, .inf b => a && !b
  | .inf a, .fin .. => a
  | .fin .., .inf b => !b
  | .fin n1 a1 d1 e1, .fin n2 a2 d2 e2 =>
    let e := min e1 e2
    let x : Int := (a1 * 2 ^ (e1 - e).toNat * d2 : Nat)
    let y : Int := (a2 * 2 ^ (e2 - e).toNat * d1 : Nat)
    decide ((if n1 then -x else x) < (if n2 then -y else y))
def valEq (a b : Val) : Bool := !a.isNan && !b.isNan && !valLt a b && !valLt b a

end Sys2Proof.Machine
end

