-- ==== Sys2Proof/Machine/FloatOps.lean ====
section
/-!
DEFINITION. Floating-point operations on the bits of elements (spec/06 R152-R161, spec/08 R195-R197, spec/10 R246, R247).
-/

namespace Sys2Proof.Machine

open Sys2Proof

/-- Round an exact result, keeping the flags of the operation. -/
def finish (f : FpFormat) (r : Val × Flags) : Nat × Flags :=
  let (b, fl) := roundTo f r.1
  (b, r.2 ||| fl)

def fpAdd (f : FpFormat) (a b : Nat) : Nat × Flags := finish f (valAdd (fpDecode f a) (fpDecode f b))
def fpSub (f : FpFormat) (a b : Nat) : Nat × Flags := finish f (valSub (fpDecode f a) (fpDecode f b))
def fpMul (f : FpFormat) (a b : Nat) : Nat × Flags := finish f (valMul (fpDecode f a) (fpDecode f b))
def fpDiv (f : FpFormat) (a b : Nat) : Nat × Flags := finish f (valDiv (fpDecode f a) (fpDecode f b))
def fpFma (f : FpFormat) (a b c : Nat) : Nat × Flags := finish f (valFma (fpDecode f a) (fpDecode f b) (fpDecode f c))
def fpSqrt (f : FpFormat) (a : Nat) : Nat × Flags := finish f (valSqrt (fpDecode f a))

/-- a orders before b, with −0 below +0. -/
def fpBefore (a b : Val) : Bool := valLt a b || (valEq a b && a.neg && !b.neg)

/-- The smaller or larger; the default NaN if either is NaN (R195). -/
def fpMinMax (f : FpFormat) (larger : Bool) (a b : Nat) : Nat × Flags :=
  let x := fpDecode f a
  let y := fpDecode f b
  if x.isNan || y.isNan then ((fpNan f).1, flagIf (x.isSig || y.isSig) flagNV)
  else if larger then (if fpBefore x y then b else a, 0)
  else (if fpBefore y x then b else a, 0)

/-- The magnitude, or the negation; NaN gives the default NaN (R195). -/
def fpAbs (f : FpFormat) (a : Nat) : Nat × Flags :=
  let x := fpDecode f a
  if x.isNan then ((fpNan f).1, flagIf x.isSig flagNV) else (a % 2 ^ (f.width - 1), 0)
def fpNeg (f : FpFormat) (a : Nat) : Nat × Flags :=
  let x := fpDecode f a
  if x.isNan then ((fpNan f).1, flagIf x.isSig flagNV)
  else (if a / 2 ^ (f.width - 1) % 2 = 1 then a % 2 ^ (f.width - 1) else a % 2 ^ (f.width - 1) + 2 ^ (f.width - 1), 0)

/-- The compares (R196). -/
def fpCmpEq (f : FpFormat) (a b : Nat) : Bool × Flags :=
  let x := fpDecode f a
  let y := fpDecode f b
  (valEq x y, flagIf (x.isSig || y.isSig) flagNV)
def fpCmpLt (f : FpFormat) (a b : Nat) : Bool × Flags :=
  let x := fpDecode f a
  let y := fpDecode f b
  (valLt x y, flagIf (x.isNan || y.isNan) flagNV)
def fpCmpLe (f : FpFormat) (a b : Nat) : Bool × Flags :=
  let x := fpDecode f a
  let y := fpDecode f b
  (valLt x y || valEq x y, flagIf (x.isNan || y.isNan) flagNV)

/-- FTOI (R197). -/
def fpToI64 (a : Nat) : W64 × Flags :=
  let (i, fl) := toIntRange (-2 ^ 63) (2 ^ 63 - 1) (fpDecode fp32 a)
  (wordOfInt i, fl)
/-- ITOF (R197). -/
def i64ToFp (a : W64) : Nat × Flags := roundTo fp32 (.ofInt (sext a.toNat 64))

/-! ### Transcendentals (R160, Table 6.6) -/

def valRcp : Val → Val × Flags
  | .nan s => (.nan false, flagIf s flagNV)
  | .inf n => (.zero n, 0)
  | .fin n a d e => if a = 0 then (.inf n, flagDZ) else (.fin n d a (-e), 0)

/-- 1/√v, of a value with denominator 1. -/
def valRsq : Val → Val × Flags
  | .nan s => (.nan false, flagIf s flagNV)
  | .inf true => (.nan false, flagNV)
  | .inf false => (.zero false, 0)
  | .fin n a _ e =>
    if a = 0 then (.inf n, flagDZ)
    else if n then (.nan false, flagNV)
    else
      let (a, e) := if e % 2 = 0 then (a, e) else (2 * a, e - 1)
      let k := 2 * rootBits + 2 * (Nat.log2 a / 2 + 1)
      let r := isqrt (2 ^ k / a)
      (sticky false r (r * r * a = 2 ^ k) (-(e / 2) - (k / 2 : Nat)), 0)

/-- Bits of the fixed point in which 2^x and log2 x are computed before the one rounding. -/
def expBits : Nat := 256

/-- The product of 2^(2^−j) over the set bits of a fraction, most significant first: `bits` from bit j on, `root` = 2^(2^−j). -/
def exp2Bits : List Bool → Nat → Nat → Nat
  | [], _, acc => acc
  | b :: bs, root, acc => exp2Bits bs (isqrt (root * 2 ^ expBits)) (if b then acc * root / 2 ^ expBits else acc)

/-- The bits of F below 2^k, most significant first. -/
def fracBits (F : Nat) : Nat → List Bool
  | 0 => []
  | k + 1 => F.testBit k :: fracBits F k

/-- 2^v: exact for an integer; otherwise irrational, and given by its leading 128 fraction bits. -/
def valExp2 : Val → Val × Flags
  | .nan s => (.nan false, flagIf s flagNV)
  | .inf true => (.zero false, 0)
  | .inf false => (.inf false, 0)
  | .fin n a _ e =>
    let k := (-e).toNat
    let a := if 0 ≤ e then a * 2 ^ (min e.toNat 16) else a
    let i : Int := if n then -((a + 2 ^ k - 1) / 2 ^ k : Nat) else (a / 2 ^ k : Nat)
    let F : Nat := if n then ((a + 2 ^ k - 1) / 2 ^ k) * 2 ^ k - a else a % 2 ^ k
    let i := if i < -1000 then -1000 else if 1000 < i then 1000 else i
    if F = 0 then (.fin false 1 1 i, 0)
    else
      let root := isqrt (2 * 2 ^ (2 * expBits))
      let acc := exp2Bits (fracBits F k) root (2 ^ expBits)
      (sticky false (acc / 2 ^ 128) false (i - 128), 0)

/-- Fraction bits of a base-2 logarithm, by repeated squaring of y in 1..2 with 2^`logBits` as 1. -/
def logBits : Nat := 400
def log2Bits : Nat → Nat → Nat → Nat
  | 0, _, acc => acc
  | k + 1, y, acc =>
    let y := y * y / 2 ^ logBits
    if 2 ^ (logBits + 1) ≤ y then log2Bits k (y / 2) (2 * acc + 1) else log2Bits k y (2 * acc)

/-- log2 v, of a value with denominator 1. -/
def valLog2 : Val → Val × Flags
  | .nan s => (.nan false, flagIf s flagNV)
  | .inf true => (.nan false, flagNV)
  | .inf false => (.inf false, 0)
  | .fin n a _ e =>
    if a = 0 then (.inf true, flagDZ)
    else if n then (.nan false, flagNV)
    else
      let l := Nat.log2 a
      let i : Int := l + e
      if a = 2 ^ l then (.ofInt i, 0)
      else
        let F := log2Bits 130 (a * 2 ^ (logBits - l)) 0
        let t : Int := i * 2 ^ 130 + F
        if t < 0 then (sticky true (t.natAbs - 1) false (-130), 0) else (sticky false t.natAbs false (-130), 0)

def fpRcp (a : Nat) : Nat × Flags := finish fp32 (valRcp (fpDecode fp32 a))
def fpRsq (a : Nat) : Nat × Flags := finish fp32 (valRsq (fpDecode fp32 a))
def fpExp2 (a : Nat) : Nat × Flags := finish fp32 (valExp2 (fpDecode fp32 a))
def fpLog2 (a : Nat) : Nat × Flags := finish fp32 (valLog2 (fpDecode fp32 a))

/-! ### Sums over rows -/

/-- Combine adjacent pairs, level by level (R159); the fuel is the number of levels. -/
def pairUp {α : Type} (f : α → α → α) : List α → List α
  | a :: b :: xs => f a b :: pairUp f xs
  | xs => xs
def treeReduce {α : Type} (f : α → α → α) : Nat → List α → List α
  | 0, xs => xs
  | n + 1, xs => treeReduce f n (pairUp f xs)

/-- The exact sum of values, with NV for ∞ − ∞ (R161). -/
def valSum (vs : List Val) : Val × Flags :=
  vs.foldl (fun acc v => let (r, fl) := valAdd acc.1 v; (r, acc.2 ||| fl)) (.zero false, 0)

/-- A masked reduction of one element position (R161): the valid contributors, n and k. It adds them in their order, so that NV of two
infinities beside a NaN depends on it (log 40). -/
def maskedReduce (f : FpFormat) (mean : Bool) (n : Nat) (xs : List Val) : Nat × Flags :=
  match xs with
  | [] => (0, 0)
  | x :: rest =>
    let (v, fl) := rest.foldl (fun acc y => let (r, g) := valAdd acc.1 y; (r, acc.2 ||| g)) (x, flagIf x.isSig flagNV)
    let v := match v with
      | .fin neg num den e => if mean then Val.fin neg num (den * xs.length) e else Val.fin neg (num * n) (den * xs.length) e
      | w => w
    finish f (v, fl)

end Sys2Proof.Machine
end

