-- ==== Sys2Proof/Config.lean ====
section
/-!
DEFINITION. What the specification leaves to the implementation, to the factory or open: free values, which no proof
can evaluate, and the numbers of the part (spec/00, spec/01, spec/03).
-/

namespace Sys2Proof.Config

open Sys2Proof

/-- The value that a word with three or more bits in error reads as (spec/21 R405), one for each reading. -/
opaque freeWord : Nat → W64
/-- Its tag. -/
opaque freeTag : Nat → BitVec 4
/-- The near frame that is retired when the scrub count of a bank of a die has come to a number (spec/21 R412): which frames a bank
holds is the stack's own. -/
opaque bankFrame : Nat → Nat → Nat → Nat
/-- The bank in which a near frame of a die lies (spec/21 R412). -/
opaque bankOf : Nat → Nat → Nat
/-- The PC at which the firmware column starts context 0 of a tenant's cores (spec/02 R44), by tenant. -/
opaque supervisorEntry : Nat → W64
/-- The digest of Oahel's root key in the module's fuses (spec/16 R358). -/
opaque rootHash : List Byte
/-- The device's public identity key, and its signature over a digest (spec/16 R359). -/
opaque identityKey : List Byte
opaque identitySign : List Byte → List Byte
/-- The configuration table that the factory puts into boot storage, signed with Oahel's key (spec/00 R17). -/
opaque factoryTable : List Byte
/-- The digest of the firmware image (spec/16 R359). -/
opaque firmwareDigest : List Byte

/-- Cores, clusters, slices and dies of a module (spec/01 R18). -/
def coresPerDie : Nat := 4352
def dies : Nat := 24
def slicesPerDie : Nat := 32
/-- Bytes of an AB, a PS window and a WB (spec/03 Table 3.1). -/
def abBytes : Nat := 24576
def psWindow : Nat := 512
def wbBytes : Nat := 262144
/-- Entries of a wait list, of an overflow area, and those kept for completion notices (spec/04 R122, R125; spec/22 R422). -/
def waitList : Nat := 1024
def overflow : Nat := 65280
def overflowOthers : Nat := 64256
/-- Slots of a trap queue, and those open to records of classes 0 to 2 (spec/19 R380). -/
def trapSlots : Nat := 4096
def trapOpen : Nat := 4080
/-- Translation-cache entries of a slice (spec/03 R97). -/
def tlbEntries : Nat := 16384
/-- 64-bit words of a cluster's instruction cache (spec/01 R18). -/
def icacheWords : Nat := 8192
/-- Join records of a die (spec/02 R66). -/
def joinRecords : Nat := 4096
/-- How far the `CYCLES` of a die's stop-tree root is from the machine's cycle (spec/19 Table 19.5; log 6). -/
opaque rootSkew : Nat → BitVec 64
/-- Near frames of a die (64 GiB), and far frames of a half of the module: half of 4 TiB (spec/00 Table 0.2). -/
def nearFrames : Nat := 1048576
def farFrames : Nat := 33554432
/-- DP pages and near frames of each die that hold its polder, its DPIT and its trap queue (spec/03 R98; log 8): the lowest ones. -/
def heldPages : Nat := 4096
/-- Translation tables lie from here up in the DP space of a die (log 8): its top 16 GiB. -/
def tableBase : Nat := (4194304 - 262144) * 65536

end Sys2Proof.Config
end

