-- ==== Sys2Proof/Machine/Formats.lean ====
section
/-!
DEFINITION. The operand fields of each instruction format (spec/07 Tables 7.2 to 7.5), one structure per format.
`u` is the binding-time mark of word 0 bit 29 (R171). A literal is the 64-bit value of R172.
-/

namespace Sys2Proof

/-- Format "no fields" (RETT, NOP; RET uses the register format with every field reserved). -/
structure NoneFmt where
  u : Bool
deriving DecidableEq, Repr

/-- Register format: D, A, B, and the literal that replaces B's value (Table 7.3). -/
structure RegFmt where
  u : Bool
  d : BitVec 7
  a : BitVec 7
  b : BitVec 7
  lit : Option W64
deriving DecidableEq, Repr

/-- Immediate format: D, A, IMM, and the literal that replaces IMM (Table 7.3). -/
structure ImmFmt where
  u : Bool
  d : BitVec 7
  a : BitVec 7
  imm : BitVec 8
  lit : Option W64
deriving DecidableEq, Repr

/-- Compare format: destination predicate QD, A, B, and the literal that replaces B's value (Table 7.3). -/
structure CmpFmt where
  u : Bool
  q : BitVec 3
  a : BitVec 7
  b : BitVec 7
  lit : Option W64
deriving DecidableEq, Repr

/-- Branch format (Table 7.3). -/
structure BrFmt where
  u : Bool
  pred : BitVec 3
  neg : Bool
  off : BitVec 18
deriving DecidableEq, Repr

/-- Loop format (Table 7.3). -/
structure LoopFmt where
  u : Bool
  c : BitVec 7
  off : BitVec 15
deriving DecidableEq, Repr

/-- Test format (Table 7.3). -/
structure TestFmt where
  u : Bool
  tile : Bool
  bitNo : BitVec 6
  sense : Bool
  off : BitVec 14
deriving DecidableEq, Repr

/-- Global memory format: the literal is a signed displacement (Table 7.3). -/
structure GmFmt where
  u : Bool
  d : BitVec 7
  a : BitVec 7
  ord : BitVec 2
  scope : BitVec 4
  sz : BitVec 2
  lit : Option W64
deriving DecidableEq, Repr

/-- Local memory format (Table 7.3). -/
structure LmFmt where
  u : Bool
  d : BitVec 7
  ptr : BitVec 3
  inc : Bool
  sz : BitVec 2
deriving DecidableEq, Repr

/-- Request format: the literal has the layout of Table 7.4. -/
structure ReqFmt where
  u : Bool
  d : BitVec 7
  a : BitVec 7
  b : BitVec 7
  l : Bool
  lit : Option W64
deriving DecidableEq, Repr

/-- Vector format (Table 7.5): word 0 RD, RA, RB, word 1 PRED, NEG, FMT, FMT2, word 2 pointers. -/
structure VecFmt where
  u : Bool
  rd : BitVec 7
  ra : BitVec 7
  rb : BitVec 7
  pred : BitVec 3
  neg : Bool
  fmt : BitVec 4
  fmt2 : BitVec 4
  pd : BitVec 3
  id : Bool
  pa : BitVec 3
  ia : Bool
  pb : BitVec 3
  ib : Bool
  lit : Option W64
deriving DecidableEq, Repr

/-- Matrix format (Table 7.5). -/
structure MatFmt where
  u : Bool
  rd : BitVec 7
  ra : BitVec 7
  rb : BitVec 7
  scope : BitVec 4
  pred : BitVec 3
  neg : Bool
  expi : BitVec 10
  t : Bool
  pa : BitVec 3
  fmta : BitVec 4
  fmtb : BitVec 4
  lit : Option W64
deriving DecidableEq, Repr

/-- Copy format (Table 7.5); the form is in MINOR, which the constructor carries. -/
structure CopyFmt where
  u : Bool
  rd : BitVec 7
  ra : BitVec 7
  rb : BitVec 7
  scope : BitVec 4
  pred : BitVec 3
  neg : Bool
  treg : BitVec 7
  lossy : Bool
  xreg : BitVec 7
  ptr : BitVec 3
  pl : Bool
  lit : Option W64
deriving DecidableEq, Repr

/-- Layout format (Table 7.5). -/
structure LayFmt where
  u : Bool
  rd : BitVec 7
  ra : BitVec 7
  rb : BitVec 7
  scope : BitVec 4
  pred : BitVec 3
  neg : Bool
  treg : BitVec 7
  desc : BitVec 7
  lit : Option W64
deriving DecidableEq, Repr

/-- Collective format (Table 7.5). -/
structure ColFmt where
  u : Bool
  rd : BitVec 7
  ra : BitVec 7
  rb : BitVec 7
  scope : BitVec 4
  pred : BitVec 3
  neg : Bool
  treg : BitVec 7
  lossy : Bool
  vsn : BitVec 8
  ptr : BitVec 3
  pi : Bool
  lit : Option W64
deriving DecidableEq, Repr

end Sys2Proof
end

