-- ==== Sys2Proof/Machine/Messages.lean ====
section
/-!
DEFINITION. What travels in the machine: requests to home slices, their replies, engine operations, tasks, commands.
These are the arguments of the events of spec/opcode_table.json (spec/95).
-/

namespace Sys2Proof

/-- The atomics of Table 9.3 (spec/09 R229). -/
inductive AmoOp where
  | add | and | or | xor | min | max | minu | maxu | swap
deriving DecidableEq, Repr

/-- A completion notice or a bound barrier arrival (spec/11 R266, R267). -/
structure Notice where
  tenant : Nat
  va : W64
  dp : Nat
  /-- The operation's number. -/
  num : W64
  scope : BitVec 4
  core : Nat
  pc : W64
  orig : W64
  iter : W64
  unit : Nat
  launch : Nat
  /-- A tier prefetch arrives relaxed (R144). -/
  relaxed : Bool
  /-- It came from an engine of another module. -/
  remote : Bool
deriving DecidableEq, Repr

/-- Who in another module sent a request: a context by its number there, an engine operation, or the firmware column or an engine that asks
for no reply. -/
inductive RemoteAgent where
  | context (gid : Nat)
  | engine (op : Nat)
  | other
deriving DecidableEq, Repr

/-- A requester in another module, as a station carries it (spec/04 R122; spec/05 R129): its physical module, the agent there, the station
by which its request came and by which the reply goes back, and the number of its request at that station. -/
structure Requester where
  phys : Nat
  agent : RemoteAgent
  station : Nat
  tag : Nat
deriving DecidableEq, Repr

/-- The start of a lossy transfer at the receiving station: what R275 and R345 need to end it. -/
structure LossyHead where
  tenant : Nat
  /-- Destination and mask, as local addresses. -/
  dst : W64
  mask : W64
  blocks : Nat
  notice : Notice
  toBarrier : Bool
  /-- The physical module whose copy unit performs the copy: with the operation's number it names the transfer. -/
  copier : Nat
deriving DecidableEq, Repr

/-- What a one-word request asks of the word's home slice (spec/09; spec/04 Table 4.2; spec/11 R265, R266). -/
inductive ReqKind where
  /-- A load of `w` bytes, sign-extended or not (R224). -/
  | load (w : Nat) (signed : Bool)
  /-- A store of `w` bytes (R224). -/
  | store (w : Nat)
  | amo (op : AmoOp)
  | cas
  | ldtag
  | mkobj (type : Nat)
  | rmobj
  | ldFe | stEf
  | ctrAdd | ctrTake | ctrWait
  | barArrive | barSync | barWait | barJoin | barWdraw
  /-- The root of a plan withdraws the member on a core of a module from the group barrier (spec/22 R429). -/
  | memberGone (phys core : Nat)
  | lkAcq | lkTry | lkRel
  | qpush | qpop | qpushT | qpopT
  | cndWait | cndSignal | cndBcast
  /-- A completion notice; its number is the operand (R266). -/
  | notice
  /-- The number request of an engine operation, and the arrival of one bound to a barrier (spec/11 R265, R267). -/
  | number | arrive
  /-- A requester in another module takes its parked request back (spec/02 R58, spec/19 R383): the request with the same tag. -/
  | withdraw
  /-- From an engine of another module: a word with its poison, a write of a word's low `bits` or of poison, pages to be made near, blocks to
  be sent in the lossy class (spec/11 R272, R278; spec/12 R292; spec/15 R345; spec/21 R414). -/
  | engineLoad
  | engineStore (bits : Nat) (poison : Bool)
  | prefTier (pages : Nat)
  | lossyFetch (head : LossyHead) (xfer : Nat)
deriving DecidableEq, Repr

/-- A request of this kind may park at its slice (spec/04 Table 4.2). -/
def ReqKind.parks : ReqKind → Bool
  | .ldFe | .stEf | .ctrTake | .ctrWait | .barSync | .barWait | .lkAcq | .qpush | .qpop | .cndWait | .notice => true
  | _ => false

/-- What a firmware wait on a counter is for (spec/14 R438). -/
inductive FwWait where
  /-- Predecessor `k` of launch `lid`. -/
  | pred (lid k : Nat)
  /-- The previous phase of the phase whose counter is at `phase`. -/
  | prevPhase (tenant : Nat) (phase : W64)
  /-- A graph of the phase whose counter is at `phase`. -/
  | graphOf (tenant : Nat) (graph phase : W64)
  /-- A phase of the job whose counter is at `job`. -/
  | phaseOf (tenant : Nat) (phase job : W64)
  /-- A launch of the graph whose counter is at `graph`. -/
  | launchOf (lid : Nat) (graph : W64)
deriving DecidableEq, Repr

/-- Who sent a request, and so who gets the reply (spec/04 R122). -/
inductive Origin where
  /-- Incarnation `gen` of the context with number 16·core + context. -/
  | ctx (gid gen : Nat)
  /-- Engine operation `id`. -/
  | op (id : Nat)
  /-- A requester in another module, through a fabric station. -/
  | remote (q : Requester)
  /-- The firmware column (none) or the launch unit of a die; requests with one tag are in order. -/
  | fw (tag : Nat) (die : Option Nat)
  /-- A wait of the firmware column (spec/14 R438). -/
  | fwWait (w : FwWait)
  /-- The sluice itself, which waits for the phase of a group barrier in which a dead member had arrived (spec/22 R429). -/
  | withdrawal
  /-- An engine's completion notice or arrival, to which there is no reply (spec/11 R266, R267). -/
  | silent
deriving DecidableEq, Repr

/-- The incarnation that sent a request. -/
def Origin.gen? : Origin → Option Nat
  | .ctx _ gen => some gen
  | _ => none

/-- What the reply does at the requester. -/
inductive Use where
  /-- An acknowledgement: no register. -/
  | ack
  /-- A deposit into register `d`. -/
  | reg (d : Nat)
  /-- A deposit into register `d` that also ORs its bits 4:0 into the sticky flags (R236). -/
  | regFlags (d : Nat)
  /-- The two deposits of a try form (R235). -/
  | pair (d : Nat)
  /-- The second of these deposits. -/
  | pairHigh (d : Nat)
  /-- The grant of the trigger of operation `op` (R276). -/
  | trigger (op d : Nat)
  /-- The load and the store of one word of BLK (R204). -/
  | blkLoad (d a b : Nat)
  | blkStore (d a b : Nat)
  /-- The reply to JOIN (R208): the record, die·4096 + index, and word 0 of the instruction. -/
  | join (rec : Nat) (w0 : W64)
  /-- The return value of a CALLAT task (R65): the context does not park on it. -/
  | value (d : Nat)
  /-- MDRAIN's flag write (R49, R261), after which operation `op` ends. -/
  | drainFlags (op : Nat)
  /-- The completion word of COLL.GET, operation `op`, which completes with it (spec/11 Table 11.2). -/
  | getWord (op d : Nat)
  /-- The answer to the number request of operation `op` (spec/11 R265): the number, 0 for a barrier, or the reason it is refused. -/
  | number (op : Nat)
  /-- The placement answer of a SPAWN: predicate `q` (R63). -/
  | placed (q : Nat) (childPc : W64)
deriving DecidableEq, Repr

/-- A one-word request (spec/01 R28; spec/04 R122). -/
structure Request where
  kind : ReqKind
  tenant : Nat
  /-- The address formed, in either form of R92. -/
  va : W64
  /-- The device-physical address, once translated (R93). -/
  dp : Nat
  /-- The join record die·4096 + index that a JOIN names (R68). -/
  join : Option Nat
  /-- The operand, or the data of a store. -/
  data : W64
  /-- The expected value of AMO.CAS. -/
  cmp : W64
  ord : BitVec 2
  scope : BitVec 4
  src : Origin
  use : Use
  /-- The die whose translation slice serves the request (R95). -/
  die : Nat
  /-- The requesting core. -/
  core : Nat
  /-- The PC of the requesting instruction, and the next PC. -/
  pc : W64
  next : W64
  /-- The number that a parked context waits for. -/
  rid : Nat
  /-- Already acknowledged at the translation slice (R131). -/
  early : Bool
  /-- Waits for the tenant's earlier stores (R52, R97). -/
  fence : Bool
  /-- Forwarding words passed, and the address of the last one (R116). -/
  hops : Nat
  via : Option W64 := none
  /-- Of a completion notice or a bound arrival: what its record names. -/
  notice : Option Notice := none
deriving DecidableEq, Repr

/-- A reply or deposit on its way to a context (spec/02 R49). -/
structure Reply where
  gid : Nat
  gen : Nat
  rid : Nat
  use : Use
  data : W64
  /-- The success bit of a try form (R235). -/
  ok : Bool
  /-- Where the context goes on. -/
  next : W64
  /-- For a grant: the object, and the grant's place among those of the object (spec/04 R118, R119). -/
  grant : Option (Nat × Nat) := none
  /-- The requester of a grant that is no context of this module. -/
  dest : Option Origin := none
deriving DecidableEq, Repr

/-- The access of a queue operation to its ring word (spec/04 R115). -/
structure RingAccess where
  req : Request
  /-- Slot address, as a local address. -/
  ring : W64
  push : Bool
  /-- The queue header as the sluice found it. -/
  header : W64
  /-- The request had parked and lay in the polder (R119). -/
  polder : Bool
deriving DecidableEq, Repr

/-- A task of a core's task queue (spec/02 R64). -/
structure Task where
  pc : W64
  s0 : W64
  s1 : W64
  s2 : W64
  s3 : W64
  /-- The caller: its context, incarnation and destination register. -/
  gid : Nat
  gen : Nat
  d : Nat
  rid : Nat
  tenant : Nat
  launch : Option Nat
  unit : Nat
  launchId : Nat
  o : List W32
  e : List W32
deriving DecidableEq, Repr

/-- A SPAWN offer (spec/02 R63). -/
structure SpawnMsg where
  /-- The core or the radius as the instruction names it. -/
  place : W64
  /-- The cores still to be tried, in order. -/
  cores : List Nat
  /-- The allotment, in registers. -/
  regs : Nat
  q : Nat
  task : Task
  next : W64
deriving DecidableEq, Repr

/-- A unit packet (spec/02 R61). -/
structure UnitPacket where
  lid : Nat
  die : Nat
  unit : Nat
deriving DecidableEq, Repr

/-- What a cancel names (spec/02 R57): an object by its counter's address, or one unit of a launch. -/
structure CancelTarget where
  tenant : Nat
  ctr : W64
  unit : Option Nat
deriving DecidableEq, Repr

/-- A command taken from a queue slot: 16 words (spec/14 R314, R319). -/
structure Command where
  tenant : Nat
  queue : Nat
  slot : Nat
  words : List W64
deriving DecidableEq, Repr

/-- What a context sends out of its core, one copy for a coupled pair (spec/19 R385). -/
inductive Outbound where
  | request (r : Request)
  | spawn (m : SpawnMsg)
  | task (core : Nat) (t : Task)
  | cancel (gid gen : Nat) (c : CancelTarget)
  /-- FORK of context `gid`: T, the recruits wanted, body and continuation PC. -/
  | fork (gid t want : Nat) (body cont : W64)
  /-- An engine operation, by its number. -/
  | engine (gid op : Nat)
  /-- The return value of a CALLAT task (R65). -/
  | result (m : Reply)
deriving DecidableEq, Repr

/-- An item owed to migrated state (spec/02 R72). -/
inductive Item where
  | reply (m : Reply)
  | ack (r : Request)
  | fault (r : Request) (cause : Nat) (addr : W64)
  | late (r : Request)
  /-- Rows for AB line `line` from operation `op`, by AB offset; `last` with the operation's last write. -/
  | fill (op line : Nat) (data : List (Nat × Byte)) (last : Bool)
  | task (t : Task)
  | slotFree (gid gen : Nat)
deriving DecidableEq, Repr

/-- The local arrays of R417. -/
inductive LocalArray where
  /-- The word at DP address `dp` in the instruction cache of a cluster. -/
  | icache (cluster dp : Nat)
  /-- Register file, AB, PS or CB of a core. -/
  | core (core : Nat)
  | wb (cluster : Nat)
  | specLookup (die entry : Nat)
  | specFetch (gid : Nat)
deriving DecidableEq, Repr

/-- An RDMA access by a host (spec/16 R350). -/
structure RdmaMsg where
  port : Nat
  qpn : Nat
  key : Nat
  /-- Tenant virtual address, and the bytes (WRITE) or their count (READ). -/
  va : W64
  bytes : List Byte
  count : Nat
deriving DecidableEq, Repr

/-- A row of 32 bytes or a marker in a router stream (spec/15 R340, R341). -/
inductive StreamItem where
  | row (bytes : List Byte)
  | marker (word : W64)
  /-- A down row of the lossy class, of the block with this number, that the station dropped at its link check (R344, R346). -/
  | lostRow (num : Nat)
  /-- The place of a block of lossy rows that has not been judged yet, by its number, and a row of a judged one, none for a lost one: they lie
  at the station and in no slot (R345, R346). -/
  | block (num : Nat)
  | judged (bytes : Option (List Byte))
  /-- A repair marker naming a set, for a dead entry (R428). -/
  | repair (set dead : Nat)
  /-- News of a dead entry, for the routers above it or below it; a cut-off router's word to those below (R428, R430). -/
  | death (dead : Nat)
  | cut
deriving DecidableEq, Repr

/-- A row on its way to a router: its 32 bytes, and, in the lossy class, the number of its block (spec/15 R340, R346). -/
structure RowFlit where
  bytes : List Byte
  block : Option Nat := none
deriving DecidableEq, Repr

/-- Registers that only the firmware column reaches and that have no row of their own (spec/00 R8). -/
inductive DevReg where
  /-- `WLQ` of a tenant at slice 32·die + slice (Table 4.3). -/
  | wlq (slice tenant : Nat)
  /-- A format-window word: 0 FWA, 1 FWB, 2 FWS (Table 3.8). -/
  | fwin (tenant window word : Nat)
  /-- A remap entry (Table 15.2). -/
  | remap (tenant index : Nat)
  /-- A DPIT entry of a die (Table 3.7). -/
  | dpit (die page : Nat)
  /-- A route-table entry: from, to, the route's dies (R389). -/
  | route (src dst : Nat) (path : List Nat)
deriving DecidableEq, Repr

/-- A lossy notice or close (spec/15 R344): the transfer and the blocks it names, and whether it is the close of a COPY. A notice of a plan's down
rows gives the number of the rows of its block and their CRC-32C too (R346). -/
structure LossyNotice where
  xfer : Nat := 0
  blocks : List Nat
  close : Bool := false
  rows : Nat := 0
  crc : W32 := 0
deriving DecidableEq, Repr

/-- What a notice of the lossy class belongs to: a COPY, or the down rows of a stream (spec/15 R344, R346). -/
inductive LossyOf where
  | copy (h : LossyHead)
  | rows (core vsn : Nat)
deriving DecidableEq, Repr

end Sys2Proof
end

