-- ==== Sys2Proof/Syntax.lean ====
section
/-!
DEFINITION. The instructions and events of the DW-24, one constructor per row of spec/opcode_table.json, in
order: the 118 base and 56 extended instructions of spec/07 R178 and R179, then the machine's other
indivisible steps (spec/95), which carry the message they act on.
-/

namespace Sys2Proof

/-- One step of the machine: an instruction, or an event. -/
inductive Instr where
  /-- ADD (R192): Adds two registers modulo 2^64 into D. -/
  | add (f : RegFmt)
  /-- SUB (R192): Subtracts register B from register A modulo 2^64 into D. -/
  | sub (f : RegFmt)
  /-- MUL (R192): Writes the low 64 bits of the product into D. -/
  | mul (f : RegFmt)
  /-- MULH (R192): Writes the high 64 bits of the signed 128-bit product into D. -/
  | mulh (f : RegFmt)
  /-- MULHU (R192): Writes the high 64 bits of the unsigned product into D. -/
  | mulhu (f : RegFmt)
  /-- DIV (R193): Signed division truncating towards zero, with defined results for a zero divisor and overflow. -/
  | div (f : RegFmt)
  /-- DIVU (R192): Unsigned division; a zero divisor gives all ones. -/
  | divu (f : RegFmt)
  /-- REM (R193): Signed remainder taking the sign of the dividend. -/
  | rem (f : RegFmt)
  /-- REMU (R192): Unsigned remainder; a zero divisor returns the dividend. -/
  | remu (f : RegFmt)
  /-- AND (R192): Bitwise AND of two registers into D. -/
  | and (f : RegFmt)
  /-- OR (R192): Bitwise OR of two registers into D. -/
  | or (f : RegFmt)
  /-- XOR (R192): Bitwise XOR of two registers into D. -/
  | xor (f : RegFmt)
  /-- ANDN (R192): Writes a AND NOT b into D. -/
  | andn (f : RegFmt)
  /-- SHL (R192): Shifts left by b[5:0] modulo 2^64. -/
  | shl (f : RegFmt)
  /-- SHR (R192): Logical shift right by b[5:0]. -/
  | shr (f : RegFmt)
  /-- SAR (R192): Arithmetic shift right by b[5:0]. -/
  | sar (f : RegFmt)
  /-- ROL (R192): Rotates left by b[5:0] bits. -/
  | rol (f : RegFmt)
  /-- MIN (R192): Writes the signed smaller of two registers. -/
  | min (f : RegFmt)
  /-- MAX (R192): Writes the signed larger of two registers. -/
  | max (f : RegFmt)
  /-- MINU (R192): Writes the unsigned smaller of two registers. -/
  | minu (f : RegFmt)
  /-- MAXU (R192): Writes the unsigned larger of two registers. -/
  | maxu (f : RegFmt)
  /-- CLZ (R192): Counts leading zero bits of A. -/
  | clz (f : RegFmt)
  /-- CTZ (R192): Counts trailing zero bits of A. -/
  | ctz (f : RegFmt)
  /-- POPC (R192): Counts one bits of A. -/
  | popc (f : RegFmt)
  /-- ADDI (R192): Adds a sign-extended immediate to A. -/
  | addi (f : ImmFmt)
  /-- ANDI (R192): ANDs A with a sign-extended immediate. -/
  | andi (f : ImmFmt)
  /-- ORI (R192): ORs A with a sign-extended immediate. -/
  | ori (f : ImmFmt)
  /-- XORI (R192): XORs A with a sign-extended immediate. -/
  | xori (f : ImmFmt)
  /-- SHLI (R192): Shifts A left by an immediate count. -/
  | shli (f : ImmFmt)
  /-- SHRI (R192): Logical shift right of A by an immediate count. -/
  | shri (f : ImmFmt)
  /-- SARI (R192): Arithmetic shift right of A by an immediate count. -/
  | sari (f : ImmFmt)
  /-- MOVI (R192): Writes a sign-extended immediate into D. -/
  | movi (f : ImmFmt)
  /-- MOV (R192): Copies register A into D. -/
  | mov (f : RegFmt)
  /-- CMPEQ (R194): Sets a predicate to a = b. -/
  | cmpeq (f : CmpFmt)
  /-- CMPNE (R194): Sets a predicate to a ≠ b. -/
  | cmpne (f : CmpFmt)
  /-- CMPLT (R194): Sets a predicate to signed a < b. -/
  | cmplt (f : CmpFmt)
  /-- CMPLTU (R194): Sets a predicate to unsigned a < b. -/
  | cmpltu (f : CmpFmt)
  /-- CMPLE (R194): Sets a predicate to signed a ≤ b. -/
  | cmple (f : CmpFmt)
  /-- CMPLEU (R194): Sets a predicate to unsigned a ≤ b. -/
  | cmpleu (f : CmpFmt)
  /-- CMOV (R194): Copies A into D when the named predicate differs from the negate bit. -/
  | cmov (f : ImmFmt)
  /-- FADD (R195): FP32 addition rounded once, raising flags. -/
  | fadd (f : RegFmt)
  /-- FSUB (R195): FP32 subtraction rounded once. -/
  | fsub (f : RegFmt)
  /-- FMUL (R195): FP32 multiplication rounded once. -/
  | fmul (f : RegFmt)
  /-- FDIV (R195): FP32 division rounded once. -/
  | fdiv (f : RegFmt)
  /-- FMA (R195): FP32 fused multiply-add a·b + d with one rounding. -/
  | fma (f : RegFmt)
  /-- FSQRT (R195): FP32 square root rounded once. -/
  | fsqrt (f : RegFmt)
  /-- FMIN (R195): Smaller of two FP32 values, with −0 below +0. -/
  | fmin (f : RegFmt)
  /-- FMAX (R195): Larger of two FP32 values. -/
  | fmax (f : RegFmt)
  /-- FCMPEQ (R196): Sets a predicate to FP32 equality. -/
  | fcmpeq (f : CmpFmt)
  /-- FCMPLT (R196): Sets a predicate to FP32 a < b. -/
  | fcmplt (f : CmpFmt)
  /-- FCMPLE (R196): Sets a predicate to FP32 a ≤ b. -/
  | fcmple (f : CmpFmt)
  /-- FCVT (R197): Converts between floating-point formats named in IMM. -/
  | fcvt (f : ImmFmt)
  /-- FTOI (R197): Converts FP32 to a saturated 64-bit integer. -/
  | ftoi (f : RegFmt)
  /-- ITOF (R197): Converts a signed 64-bit integer to FP32. -/
  | itof (f : RegFmt)
  /-- FABS (R195): Clears the FP32 sign bit. -/
  | fabs (f : RegFmt)
  /-- FNEG (R195): Inverts the FP32 sign bit. -/
  | fneg (f : RegFmt)
  /-- BR (R199): Branches to PC + 4·OFF when the predicate differs from NEG. -/
  | br (f : BrFmt)
  /-- CALL (R199): Sets LINK to PC + 4 and branches to the target. -/
  | call (f : BrFmt)
  /-- CALLR (R199): Sets LINK to PC + 4 and jumps to the address in A. -/
  | callr (f : RegFmt)
  /-- JMPR (R199): Jumps to the address in A. -/
  | jmpr (f : RegFmt)
  /-- RET (R200): Returns to LINK, or with LINK = 0 ends the context's work. -/
  | ret (f : NoneFmt)
  /-- LOOP (R201): Decrements the count register and branches while it exceeds 1. -/
  | loop (f : LoopFmt)
  /-- REP (R202): Executes the following body once per slot while the count in D is non-zero. -/
  | rep (f : RegFmt)
  /-- BLK (R204): Moves b words one at a time from a to d by relaxed loads and stores. -/
  | blk (f : RegFmt)
  /-- SPAWN (R205): Offers a child PC to a named or nearby core, or calls it in place. -/
  | spawn (f : RegFmt)
  /-- CALLAT (R206): Sends a task to the task queue of a named core, with a reply to D. -/
  | callat (f : RegFmt)
  /-- FORK (R207): Divides a trip count over recruited contexts with a join record. -/
  | fork (f : RegFmt)
  /-- JOIN (R208): Decrements a join counter; the last participant continues. -/
  | join (f : RegFmt)
  /-- CANCEL (R209): Cancels the launch, graph, phase or job whose counter is at a. -/
  | cancel (f : RegFmt)
  /-- CANCELU (R209): Cancels one unit of a launch. -/
  | cancelu (f : RegFmt)
  /-- TSTB (R210): Branches on a bit of a tile status word. -/
  | tstb (f : TestFmt)
  /-- LD_GLOBAL (R224): Zero-extending load of a global word. -/
  | ldGlobal (f : GmFmt)
  /-- LDS_GLOBAL (R224): Sign-extending load of a global word. -/
  | ldsGlobal (f : GmFmt)
  /-- ST_GLOBAL (R224): Store to a global word as one read-modify-write. -/
  | stGlobal (f : GmFmt)
  /-- LD_LOCAL (R225): Zero-extending load from the AB or PS through a pointer. -/
  | ldLocal (f : LmFmt)
  /-- LDS_LOCAL (R225): Sign-extending load from the AB or PS through a pointer. -/
  | ldsLocal (f : LmFmt)
  /-- ST_LOCAL (R225): Store to the AB or PS through a pointer. -/
  | stLocal (f : LmFmt)
  /-- LD_FE (R227): Sends a load-when-full-then-empty request to a plain word's home sluice. -/
  | ldFe (f : GmFmt)
  /-- ST_EF (R227): Sends a store-when-empty-then-full request to a plain word's home sluice. -/
  | stEf (f : GmFmt)
  /-- AMO_ADD (R229): Atomic add returning the old value. -/
  | amoAdd (f : ReqFmt)
  /-- AMO_AND (R229): Atomic AND returning the old value. -/
  | amoAnd (f : ReqFmt)
  /-- AMO_OR (R229): Atomic OR returning the old value. -/
  | amoOr (f : ReqFmt)
  /-- AMO_XOR (R229): Atomic XOR returning the old value. -/
  | amoXor (f : ReqFmt)
  /-- AMO_MIN (R229): Atomic signed minimum returning the old value. -/
  | amoMin (f : ReqFmt)
  /-- AMO_MAX (R229): Atomic signed maximum returning the old value. -/
  | amoMax (f : ReqFmt)
  /-- AMO_MINU (R229): Atomic unsigned minimum returning the old value. -/
  | amoMinu (f : ReqFmt)
  /-- AMO_MAXU (R229): Atomic unsigned maximum returning the old value. -/
  | amoMaxu (f : ReqFmt)
  /-- AMO_SWAP (R229): Atomic swap returning the old value. -/
  | amoSwap (f : ReqFmt)
  /-- AMO_CAS (R230): Compare-and-swap with the expected value taken from D. -/
  | amoCas (f : ReqFmt)
  /-- MKOBJ (R232): Asks the home sluice to make a plain word a typed object. -/
  | mkobj (f : ReqFmt)
  /-- RMOBJ (R233): Asks the home sluice to make a typed word plain and return its data. -/
  | rmobj (f : ReqFmt)
  /-- QPUSH_T (R235): Try-push onto a queue, depositing the result in D and D + 1. -/
  | qpushT (f : ReqFmt)
  /-- QPOP_T (R235): Try-pop from a queue, depositing the result in D and D + 1. -/
  | qpopT (f : ReqFmt)
  /-- LDTAG (R228): Reads the 4 tag bits of a word. -/
  | ldtag (f : GmFmt)
  /-- CTR_ADD (R234): Sends CTR.ADD to a counter. -/
  | ctrAdd (f : ReqFmt)
  /-- CTR_TAKE (R234): Sends CTR.TAKE to a counter. -/
  | ctrTake (f : ReqFmt)
  /-- CTR_WAIT (R234): Sends CTR.WAIT to a counter. -/
  | ctrWait (f : ReqFmt)
  /-- BAR_ARRIVE (R236): Sends an arrival to a phased barrier. -/
  | barArrive (f : ReqFmt)
  /-- BAR_SYNC (R236): Sends an arrival that waits for the phase to complete. -/
  | barSync (f : ReqFmt)
  /-- BAR_WAIT (R234): Waits until a barrier's phase differs from the operand. -/
  | barWait (f : ReqFmt)
  /-- BAR_JOIN (R234): Joins a phased barrier as a participant. -/
  | barJoin (f : ReqFmt)
  /-- BAR_WDRAW (R236): Withdraws a participant from a phased barrier. -/
  | barWdraw (f : ReqFmt)
  /-- LK_ACQ (R234): Draws a ticket and waits for the lock. -/
  | lkAcq (f : ReqFmt)
  /-- LK_TRY (R235): Tries to take a free lock without parking. -/
  | lkTry (f : ReqFmt)
  /-- LK_REL (R234): Releases a ticket lock. -/
  | lkRel (f : ReqFmt)
  /-- QPUSH (R234): Pushes an entry onto a queue, parking when full. -/
  | qpush (f : ReqFmt)
  /-- QPOP (R234): Pops an entry from a queue, parking when empty. -/
  | qpop (f : ReqFmt)
  /-- CND_WAIT (R234): Waits on a condition past a seen generation. -/
  | cndWait (f : ReqFmt)
  /-- CND_SIGNAL (R234): Signals a condition, waking the oldest waiter. -/
  | cndSignal (f : ReqFmt)
  /-- CND_BCAST (R234): Broadcasts a condition, waking every waiter. -/
  | cndBcast (f : ReqFmt)
  /-- SYSR (R211): Reads a SYS register into D. -/
  | sysr (f : ImmFmt)
  /-- SYSW (R211): Writes register A to a SYS register. -/
  | sysw (f : ImmFmt)
  /-- START (R213): Context 0 starts, resumes or halts another context of its core. -/
  | start (f : RegFmt)
  /-- REAP (R214): Context 0 returns a Stopped context to Idle. -/
  | reap (f : RegFmt)
  /-- PAIR (R215): Couples or uncouples an even/odd pair of cores as a checked pair. -/
  | pair (f : ImmFmt)
  /-- TRAP (R216): Raises a software trap with a cause code. -/
  | trap (f : ImmFmt)
  /-- RETT (R217): Ends a trap handler and resumes the trapped context. -/
  | rett (f : NoneFmt)
  /-- NOP (R218): Changes nothing but the PC. -/
  | nop (f : NoneFmt)
  /-- VADD (R246): Element-wise addition of two AB rows. -/
  | vadd (f : VecFmt)
  /-- VSUB (R246): Element-wise subtraction of two AB rows. -/
  | vsub (f : VecFmt)
  /-- VMUL (R246): Element-wise multiplication of two AB rows. -/
  | vmul (f : VecFmt)
  /-- VFMA (R246): Element-wise fused multiply-add into the destination row. -/
  | vfma (f : VecFmt)
  /-- VDIV (R246): Element-wise division. -/
  | vdiv (f : VecFmt)
  /-- VSQRT (R246): Element-wise square root. -/
  | vsqrt (f : VecFmt)
  /-- VMIN (R247): Element-wise minimum. -/
  | vmin (f : VecFmt)
  /-- VMAX (R247): Element-wise maximum. -/
  | vmax (f : VecFmt)
  /-- VABS (R247): Element-wise absolute value. -/
  | vabs (f : VecFmt)
  /-- VNEG (R247): Element-wise negation. -/
  | vneg (f : VecFmt)
  /-- VRCP (R160): Element-wise FP32 reciprocal rounded once. -/
  | vrcp (f : VecFmt)
  /-- VRSQ (R160): Element-wise FP32 reciprocal square root. -/
  | vrsq (f : VecFmt)
  /-- VEXP2 (R160): Element-wise FP32 power of two. -/
  | vexp2 (f : VecFmt)
  /-- VLOG2 (R160): Element-wise FP32 base-2 logarithm. -/
  | vlog2 (f : VecFmt)
  /-- VADDS (R246): Element-wise saturating integer addition. -/
  | vadds (f : VecFmt)
  /-- VSUBS (R246): Element-wise saturating integer subtraction. -/
  | vsubs (f : VecFmt)
  /-- VAND (R246): 256-bit AND of two rows. -/
  | vand (f : VecFmt)
  /-- VOR (R246): 256-bit OR of two rows. -/
  | vor (f : VecFmt)
  /-- VXOR (R246): 256-bit XOR of two rows. -/
  | vxor (f : VecFmt)
  /-- VSHL (R247): Element-wise left shift by a scalar count. -/
  | vshl (f : VecFmt)
  /-- VSHR (R247): Element-wise logical right shift. -/
  | vshr (f : VecFmt)
  /-- VSAR (R247): Element-wise arithmetic right shift. -/
  | vsar (f : VecFmt)
  /-- VCMPEQ (R246): Element-wise equality mask. -/
  | vcmpeq (f : VecFmt)
  /-- VCMPLT (R246): Element-wise less-than mask. -/
  | vcmplt (f : VecFmt)
  /-- VCMPLE (R246): Element-wise less-or-equal mask. -/
  | vcmple (f : VecFmt)
  /-- VSEL (R246): Bitwise select using the old destination row as mask. -/
  | vsel (f : VecFmt)
  /-- VSHUF (R247): Element shuffle by index row. -/
  | vshuf (f : VecFmt)
  /-- VBCAST (R246): Broadcasts a scalar into every element of a row. -/
  | vbcast (f : VecFmt)
  /-- VMOV (R246): Copies one row to another. -/
  | vmov (f : VecFmt)
  /-- VCVT (R248): Converts part of a row between element formats. -/
  | vcvt (f : VecFmt)
  /-- VQMX (R249): Quantises source rows into an MX format with scale bytes in D. -/
  | vqmx (f : VecFmt)
  /-- VQB4 (R250): Quantises 64 values into QB4 codes with q in D. -/
  | vqb4 (f : VecFmt)
  /-- VREDSUM (R251): Pairwise-tree sum of a row into a scalar. -/
  | vredsum (f : VecFmt)
  /-- VREDMIN (R251): Minimum reduction of a row. -/
  | vredmin (f : VecFmt)
  /-- VREDMAX (R251): Maximum reduction of a row. -/
  | vredmax (f : VecFmt)
  /-- VREDM_SUM (R252): Masked rescaled sum over valid contributor rows. -/
  | vredmSum (f : VecFmt)
  /-- VREDM_MEAN (R252): Masked mean over valid contributor rows. -/
  | vredmMean (f : VecFmt)
  /-- MZERO (R254): Clears a tile, sets its exponent and clears its QB4 record. -/
  | mzero (f : MatFmt)
  /-- MMA (R258): Sends a matrix multiply-accumulate into a tile and parks until performed. -/
  | mma (f : MatFmt)
  /-- MMA_S (R259): Matrix multiply-accumulate skipping octets per a bitmap. -/
  | mmaS (f : MatFmt)
  /-- MDRAIN (R261): Issues a drain of a tile into AB rows bound to a timeline counter. -/
  | mdrain (f : MatFmt)
  /-- COPY (R270): Issues a linear copy between global memory and a local buffer or global memory. -/
  | copy (f : CopyFmt)
  /-- COPY_STR (R271): Issues a strided copy. -/
  | copyStr (f : CopyFmt)
  /-- COPY_GTH (R271): Issues a gather copy through an index list. -/
  | copyGth (f : CopyFmt)
  /-- COPY_SCT (R271): Issues a scatter copy through an index list. -/
  | copySct (f : CopyFmt)
  /-- COPY_TRG (R276): Issues a linear copy that fires on a trigger counter threshold. -/
  | copyTrg (f : CopyFmt)
  /-- COPY_STR_TRG (R276): Issues a triggered strided copy. -/
  | copyStrTrg (f : CopyFmt)
  /-- COPY_GTH_TRG (R276): Issues a triggered gather copy. -/
  | copyGthTrg (f : CopyFmt)
  /-- COPY_SCT_TRG (R276): Issues a triggered scatter copy. -/
  | copySctTrg (f : CopyFmt)
  /-- PREF_TIER (R278): Asks the tier engines to promote a run of pages. -/
  | prefTier (f : CopyFmt)
  /-- LAYOUT (R290): Issues a tensor reorder from global memory to global memory. -/
  | layout (f : LayFmt)
  /-- LAYOUT_AB (R290): Issues a tensor reorder from the issuing core's AB to global memory. -/
  | layoutAb (f : LayFmt)
  /-- COLL_OPEN (R279): Installs the core's router entry for a plan on a virtual stream. -/
  | collOpen (f : ColFmt)
  /-- COLL_PUT (R279): Sends AB rows into the collective stream. -/
  | collPut (f : ColFmt)
  /-- COLL_GET (R281): Receives result rows into the AB with a completion word. -/
  | collGet (f : ColFmt)
  /-- COLL_MARK (R341): Sends a marker word into the collective stream. -/
  | collMark (f : ColFmt)
  /-- PARKED_INSTRUCTION_RESUME (R42): A parked instruction is re-examined in full at its resumption slot and may park again. -/
  | parkedInstructionResume (gid : Nat)
  /-- DEPOSIT (R49): A reply, return value or answer is written into a context's register at the end of a cycle, setting it full and rejoining the context. -/
  | deposit (m : Reply)
  /-- STORE_ACKNOWLEDGEMENT (R131): A store's acknowledgement arrives and the parked context rejoins. -/
  | storeAcknowledgement (r : Request)
  /-- FAULT_REPLY (R395): A slice refusal restores the request's registers and stops the context. -/
  | faultReply (r : Request) (cause : Nat) (addr : W64)
  /-- LATE_FAULT_NOTICE (R395): A refused early-acknowledged store stops its context as a late trap. -/
  | lateFaultNotice (r : Request)
  /-- TRANSLATION_LOOKUP (R95): A request reaches its translation slice, hits or walks the table and is forwarded to its home slice. -/
  | translationLookup (r : Request)
  /-- HOME_SLICE_LOAD (R224): The home slice performs a load as one read event and replies. -/
  | homeSliceLoad (r : Request)
  /-- HOME_SLICE_STORE (R90): The home slice performs a store as one read-modify-write event. -/
  | homeSliceStore (r : Request)
  /-- HOME_SLICE_AMO (R229): The home slice performs an atomic as one event and replies with the old value. -/
  | homeSliceAmo (r : Request)
  /-- HOME_SLICE_LDTAG (R228): The home slice reads a word's tags and replies. -/
  | homeSliceLdtag (r : Request)
  /-- SLUICE_LD_FE (R227): The sluice performs or parks a load-when-full on a plain word. -/
  | sluiceLdFe (r : Request)
  /-- SLUICE_ST_EF (R227): The sluice performs or parks a store-when-empty on a plain word. -/
  | sluiceStEf (r : Request)
  /-- SLUICE_MKOBJ (R106): The sluice types a plain word and writes its initial data. -/
  | sluiceMkobj (r : Request)
  /-- SLUICE_RMOBJ (R106): The sluice returns a typed word to plain and replies with its data. -/
  | sluiceRmobj (r : Request)
  /-- SLUICE_CTR_ADD (R110): The sluice adds to a counter and re-examines its parked requests. -/
  | sluiceCtrAdd (r : Request)
  /-- SLUICE_CTR_TAKE (R110): The sluice takes from a counter or parks the request. -/
  | sluiceCtrTake (r : Request)
  /-- SLUICE_CTR_WAIT (R110): The sluice replies when VALUE reaches the threshold or parks the request. -/
  | sluiceCtrWait (r : Request)
  /-- SLUICE_BAR_ARRIVE (R111): The sluice counts an arrival and completes the phase when all have arrived. -/
  | sluiceBarArrive (r : Request)
  /-- SLUICE_BAR_SYNC (R111): The sluice counts an arrival and parks the request until its phase completes. -/
  | sluiceBarSync (r : Request)
  /-- SLUICE_BAR_WAIT (R110): The sluice replies once PHASE differs from the operand, or parks. -/
  | sluiceBarWait (r : Request)
  /-- SLUICE_BAR_JOIN (R112): The sluice raises EXPECTED by one. -/
  | sluiceBarJoin (r : Request)
  /-- SLUICE_BAR_WDRAW (R111): The sluice lowers EXPECTED and may complete the phase. -/
  | sluiceBarWdraw (r : Request)
  /-- SLUICE_LK_ACQ (R110): The sluice draws a ticket and grants or parks it. -/
  | sluiceLkAcq (r : Request)
  /-- SLUICE_LK_TRY (R110): The sluice draws a ticket only if the lock is free. -/
  | sluiceLkTry (r : Request)
  /-- SLUICE_LK_REL (R114): The sluice advances SERVING past abandoned tickets and grants the next. -/
  | sluiceLkRel (r : Request)
  /-- SLUICE_QPUSH (R115): The sluice writes an entry to the ring and advances TAIL, or parks. -/
  | sluiceQpush (r : Request)
  /-- SLUICE_QPOP (R115): The sluice reads the entry at HEAD and advances it, or parks. -/
  | sluiceQpop (r : Request)
  /-- SLUICE_QPUSH_T (R110): The sluice pushes if room exists, else replies failure. -/
  | sluiceQpushT (r : Request)
  /-- SLUICE_QPOP_T (R110): The sluice pops if an entry exists, else replies failure. -/
  | sluiceQpopT (r : Request)
  /-- RING_WORD_ACCESS (R115): The sluice's one-word access to a queue ring word completes at its home slice. -/
  | ringWordAccess (ra : RingAccess)
  /-- SLUICE_CND_WAIT (R110): The sluice replies if GEN moved, else parks the waiter. -/
  | sluiceCndWait (r : Request)
  /-- SLUICE_CND_SIGNAL (R110): The sluice advances GEN and grants the oldest waiter. -/
  | sluiceCndSignal (r : Request)
  /-- SLUICE_CND_BCAST (R110): The sluice advances GEN and grants every waiter. -/
  | sluiceCndBcast (r : Request)
  /-- SLUICE_FORWARD (R116): A request on a forwarding word is sent on to its target. -/
  | sluiceForward (r : Request)
  /-- POLDER_ENTRY_READ (R119): A granted entry lying in the polder is read before its reply is sent. -/
  | polderEntryRead (m : Reply)
  /-- NUMBER_REQUEST (R265): The home slice increments ISSUED and numbers an engine operation, or refuses an unfit binding. -/
  | numberRequest (op : Nat)
  /-- COMPLETION_NOTICE (R266): A completion notice sets VALUE to j when VALUE = j − 1, or parks, or is discarded. -/
  | completionNotice (n : Notice)
  /-- BOUND_BARRIER_ARRIVAL (R267): A completed operation bound to a barrier arrives at it. -/
  | boundBarrierArrival (n : Notice)
  /-- TRIGGER_FIRE (R277): A granted pending trigger hands its copy to the copy unit. -/
  | triggerFire (op : Nat)
  /-- COPY_OPERATION (R272): The copy unit moves the copy's words and then sends its notice or arrival. -/
  | copyOperation (op : Nat) (remote : List (Option W64))
  /-- PREF_TIER_OPERATION (R278): The tier engines promote the named pages and the operation completes. -/
  | prefTierOperation (op : Nat)
  /-- LAYOUT_OPERATION (R292): The layout engine checks the descriptor, moves elements and sends completion. -/
  | layoutOperation (op : Nat) (remote : List (Option W64))
  /-- MATRIX_MZERO_PERFORM (R254): The matrix engine clears a tile in its turn. -/
  | matrixMzeroPerform (op : Nat)
  /-- MATRIX_MMA_PERFORM (R164): The matrix engine adds an MMA's chunks to the tile with renormalisation and releases the context. -/
  | matrixMmaPerform (op : Nat)
  /-- MATRIX_DRAIN_PERFORM (R261): The engine converts a tile into AB rows and advances the timeline counter. -/
  | matrixDrainPerform (op : Nat)
  /-- FIRMWARE_COUNTER_WAIT_GRANT (R438): A firmware wait on a counter is granted and the dependent object may begin. -/
  | firmwareCounterWaitGrant (w : FwWait)
  /-- DISPATCH_PASS (R324): The firmware column visits a tenant's pending launches by priority and releases or offers them. -/
  | dispatchPass (tenant : Nat)
  /-- LAUNCH_PACKET (R308): A die's launch unit takes a launch packet and asks its specialiser. -/
  | launchPacket (die lid : Nat)
  /-- SPECIALISER_EVALUATION (R308): The specialiser finishes evaluating a kernel into residual code or records generic. -/
  | specialiserEvaluation (die lid : Nat)
  /-- PLACEMENT_PACKET (R61): A unit packet walks the mesh until a core takes it. -/
  | placementPacket (p : UnitPacket)
  /-- PLACEMENT_RETRY (R62): A returned unit walks again after a context on the die returns to Idle. -/
  | placementRetry (die : Nat)
  /-- CANCEL_APPLY (R58): The launch unit applies a cancel to the object and its contents. -/
  | cancelApply (c : CancelTarget)
  /-- SPAWN_REQUEST (R63): A spawn offer reaches a core, which places the child or passes it on. -/
  | spawnRequest (m : SpawnMsg)
  /-- CALLAT_TASK_ARRIVAL (R64): A CALLAT task reaches its target, which accepts it or sends a full answer. -/
  | callatTaskArrival (core : Nat) (t : Task)
  /-- TASK_QUEUE_SLOT_FREE (R64): A target's slot-free notice reaches a recorded caller, which resends its task. -/
  | taskQueueSlotFree (gid gen : Nat)
  /-- TASK_START (R65): A core starts the oldest queued task when a context is available. -/
  | taskStart (core : Nat)
  /-- FORWARDED_ITEM (R72): A reply, deposit or fill owed to migrated state arrives at the source and is redirected. -/
  | forwardedItem (core : Nat) (item : Item)
  /-- TIER_PROMOTION (R99): A far page reaching HOTTHR is promoted, demoting a page first if needed. -/
  | tierPromotion (page : Nat)
  /-- TIER_BLOCK_MOVE (R101): A home slice copies a block and switches it to its new frame as one event. -/
  | tierBlockMove (page block : Nat)
  /-- GANG_STOP (R382): A stop tree halts every core of a partition across dies. -/
  | gangStop (tenant cause die : Nat)
  /-- PARTITION_FAULT (R384): The firmware column reaps the partition, cancels its objects and restarts context 0. -/
  | partitionFault (tenant cause : Nat)
  /-- CHECKED_PAIR_MISMATCH (R385): Differing messages of a checked pair stop the unit and replace it once. -/
  | checkedPairMismatch (gid : Nat)
  /-- STATION_HANDOFF (R333): A global request is translated through the remap table as it is handed to a station. -/
  | stationHandoff (r : Request)
  /-- ROUTER_INSTALL (R338): A router installs its plan entry and reserves its slots. -/
  | routerInstall (op : Nat)
  /-- ROUTER_ROW_ARRIVAL (R340): A row arrives in a router slot and is summed when all active inputs hold it. -/
  | routerRowArrival (core vsn port : Nat) (row : RowFlit)
  /-- ROUTER_SLOT_FREE_NOTICE (R339): A slot-free notice lets a router send its next row. -/
  | routerSlotFreeNotice (core vsn entry port : Nat) (lossy : Bool)
  /-- ROUTER_MARKER (R341): A marker on every active input moves the router's port set. -/
  | routerMarker (core vsn port : Nat) (item : StreamItem)
  /-- ROUTER_MEMBER_DEATH (R428): A router detecting a dead neighbour repairs, drops or is cut off. -/
  | routerMemberDeath (core vsn entry : Nat)
  /-- CALLAT_ACCEPTANCE (R64): The target's acceptance reaches the CALLAT caller, which rejoins with its destination register still empty. -/
  | callatAcceptance (gid gen : Nat)
  /-- CANCEL_ACCEPTANCE (R209): The launch unit's acceptance of a cancel reaches the issuing context, which rejoins. -/
  | cancelAcceptance (gid gen : Nat) (c : CancelTarget)
  /-- MIGRATION_INSTALLED (R73): The destination reports the state installed and applies held items. -/
  | migrationInstalled
  /-- ILLEGAL_INSTRUCTION (R391): An encoding that is not an instruction raises cause 0x01. -/
  | illegalInstruction
  /-- ISSUE_SLOT (R38): In each cycle the owning context issues if Ready; otherwise the slot serves deposits and forwarding. -/
  | issueSlot
  /-- POLDER_MOVE (R126): In an idle sluice cycle the tenant's oldest polder entry moves onto the wait list. -/
  | polderMove
  /-- LOSSWIN_EXPIRY (R345): A block not arrived LOSSWIN cycles after its notice is written as zeros and marked lost. -/
  | losswinExpiry
  /-- HOST_LAUNCH (R320): The firmware column takes a LAUNCH command, checks it and enters it in the pending list. -/
  | hostLaunch
  /-- HOST_GRAPH (R319): The firmware column takes a GRAPH command. -/
  | hostGraph
  /-- HOST_PHASE (R319): The firmware column takes a PHASE command. -/
  | hostPhase
  /-- HOST_JOB (R319): The firmware column takes a JOB command. -/
  | hostJob
  /-- HOST_CANCEL (R57): A host CANCEL command cancels the object whose counter it names. -/
  | hostCancel
  /-- HOST_CANCELU (R57): A host CANCELU command cancels one unit. -/
  | hostCancelu
  /-- MAP (R352): Maps pages on allowed home dies after clearing them. -/
  | map
  /-- UNMAP (R352): Removes mappings and completes after translation caches drop them. -/
  | unmap
  /-- FWIN (R352): Writes a format window. -/
  | fwin
  /-- QREG (R352): Registers a command queue with the scanner. -/
  | qreg
  /-- QUNREG (R352): Unregisters a command queue. -/
  | qunreg
  /-- REMAP (R334): Rewrites a remap table entry of this module. -/
  | remap
  /-- ATTEST (R359): Writes a signed attestation report and sends a KIND 0x05 record. -/
  | attest
  /-- CFGSTAGE (R352): Verifies and stores a configuration table image for the next reset. -/
  | cfgstage
  /-- UNKNOWN_COMMAND (R386): A command with an unknown CMD is not performed and is reported. -/
  | unknownCommand
  /-- QUEUE_SCAN (R316): The scanner reads a queue's WIDX when its polling interval expires. -/
  | queueScan
  /-- IDLE_REPORT_DEFERRAL_END (R324): At the end of a 1,024-cycle interval deferred idle reports start one pass. -/
  | idleReportDeferralEnd
  /-- TIER_EPOCH (R99): Every 2^20 cycles the tier engine halves every access count. -/
  | tierEpoch
  /-- TRAP_RECORD_WRITE (R380): A record waiting for room is written once the trap queue has room. -/
  | trapRecordWrite
  /-- CHECKED_PAIR_TIMEOUT (R385): A message waiting over 1,024 cycles for its partner is a mismatch. -/
  | checkedPairTimeout
  /-- EVENT_RECORD_WRITE (R353): The device writes an event record and then EVW by RDMA WRITE. -/
  | eventRecordWrite
  /-- PEER_TIMEOUT (R425): A request without reply for PEERTMO marks the peer dead and fails its requests. -/
  | peerTimeout
  /-- PEER_PROBE (R425): A station probes a peer every PEERTMO ÷ 4 cycles while a request is parked there. -/
  | peerProbe
  /-- MODULE_RESET (R355): After power good the module resets and runs bring-up steps in order. -/
  | moduleReset
  /-- LOSSY_BLOCK_ARRIVAL (R345): A receiving station writes a lossy block that arrives whole with a correct CRC. -/
  | lossyBlockArrival (h : LossyHead) (xfer block : Nat) (data : List (Option W64)) (crc : W32)
  /-- LOSSY_BLOCK_NOTICE (R344): A reliable notice or close naming lossy blocks reaches the receiving station. -/
  | lossyBlockNotice (h : LossyOf) (n : LossyNotice)
  /-- MIGRATION_START (R69): The firmware column orders a core's state moved and the source sets up forwarding. -/
  | migrationStart (src dst : Nat)
  /-- MIGRATION_ABANDON (R431): A failed destination makes the firmware column abandon the migration. -/
  | migrationAbandon (src : Nat)
  /-- STACK_REFRESH (R416): Refresh preempts a burst at a beat boundary when the postponement limit is reached. -/
  | stackRefresh (die : Nat)
  /-- FRAME_RETIREMENT (R412): The memory manager moves a page off a failing frame and retires it. -/
  | frameRetirement
  /-- FAR_CONTROLLER_FAILURE (R413): A far-tier controller stops answering and its pages are recovered or poisoned. -/
  | farControllerFailure (ctrl : Nat)
  /-- LOCAL_ARRAY_UNCORRECTABLE (R417): An uncorrectable local array error drops a line or raises cause 0x12. -/
  | localArrayUncorrectable (a : LocalArray)
  /-- TRAP_QUEUE_READ (R380): The firmware column reads a trap queue record, freeing room. -/
  | trapQueueRead (die : Nat)
  /-- FIREWALL_REFUSAL (R387): A message no firewall rule admits is dropped and reported. -/
  | firewallRefusal (owner : Option Nat) (into : Bool) (cls : Nat) (dp : Nat)
  /-- RDMA_WRITE (R350): An admitted RDMA WRITE is performed word by word in arrival order. -/
  | rdmaWrite (m : RdmaMsg)
  /-- RDMA_READ (R350): An admitted RDMA READ is performed on tenant memory. -/
  | rdmaRead (m : RdmaMsg)
  /-- FABRIC_REQUEST_IN (R330): A request from another module enters through a station and goes to translation. -/
  | fabricRequestIn (r : Request)
  /-- PEER_PROBE_ANSWER (R425): A dead peer answering a probe is cleared and tenants get KIND 0x0B. -/
  | peerProbeAnswer (phys : Nat)
  /-- POWER_MEASUREMENT (R361): Every 80,000 cycles input power is measured and rotations gated or released. -/
  | powerMeasurement (watts : Nat) (loaded : List Nat)
  /-- THERMAL_EVENT (R390): Die temperature crossing 100 or 115 °C gates rotations or removes the die. -/
  | thermalEvent (die celsius : Nat)
  /-- XVAL_READ (R183): Context 0 reads a register of a Stopped context through XVAL. -/
  | xvalRead (d : BitVec 7)
  /-- XVAL_WRITE (R183): Context 0 writes a register of a Stopped context through XVAL. -/
  | xvalWrite (v : W64)
  /-- STKSCRUB_WRITE (R406): A write of BANK selects a stack bank whose count appears within 1 ms. -/
  | stkscrubWrite (die bank : Nat)
  /-- SLECC_READ (R407): A read of SLECC returns and clears the slice's error counts. -/
  | sleccRead (slice : Nat)
  /-- LBECC_READ (R407): A read of LBECC returns and clears the core's correction count. -/
  | lbeccRead (core : Nat)
  /-- SPSTAT_READ (R432): A read of SPSTAT returns and clears the specialiser counts. -/
  | spstatRead (die : Nat)
  /-- FATALSTAT_WRITE (R381): A write of one to OVF clears the latched fatal cause. -/
  | fatalstatWrite (die : Nat) (v : W64)
  /-- DPMAP_WRITE (R424): A write of ones clears dead-peer bits. -/
  | dpmapWrite (k : Nat) (v : W64)
  /-- REGISTER_WRITE (R8): A write to a register without its own row sets its writable fields. -/
  | registerWrite (reg : DevReg) (v : W64)
deriving DecidableEq, Repr

end Sys2Proof
end

