-- ==== Sys2Proof/Machine/State.lean ====
section
/-!
DEFINITION. The state of one DW-24 module, as plain data (INVENTORY.md lists each piece with the rule that names it).
Storage that exists in many copies is held as sparse maps keyed by flat numbers: a context is 16·core + context, a scalar
register 1,024·core + physical number, an AB byte 24,576·core + offset, a PS byte 8,192·core + offset, an AB line
192·core + line, a tile 2·core + tile, a WB byte 262,144·cluster + offset (a cluster is 544·die + 16·cy + cx), a slice
32·die + slice, a DP page is DP address bits 47:16. What an unlisted key reads as is the reset value of that storage.
-/

namespace Sys2Proof.Machine

open Sys2Proof

/-- Why a step stops the machine. -/
inductive Fault where
  /-- An access names a device-physical address whose home die, bits 47:43, is above 23 or whose bits 42:38 are not zero:
  no slice holds such a word (spec/03 R93). Raised by the memory and sluice steps. Safe: the
  spec gives no such word. -/
  | noHomeSlice
deriving DecidableEq, Repr

/-- Why a step has no meaning. -/
inductive Refusal where
  /-- The instruction with this mnemonic of spec/opcode_table.json has no meaning yet. Raised by exec's arms alone. Safe. -/
  | notModelled (mnemonic : String)
deriving DecidableEq, Repr

/-! ### Contexts and cores -/

/-- Context states (spec/02 R41, Table 2.1). -/
inductive Mode where
  | idle | ready | parked | stopped | inTransit
deriving DecidableEq, Repr

/-- What a parked context awaits (Table 2.2). -/
inductive Park where
  | nothing
  /-- Context 0 before the firmware column starts it (R44). -/
  | firmware
  /-- The physical scalar register with this number is empty. -/
  | register (phys : Nat)
  /-- The AB line with this number is empty. -/
  | line (line : Nat)
  /-- The reply or acknowledgement of request `rid`. -/
  | reply (rid : Nat)
  /-- The matrix engine's operation (R253). -/
  | matrix (op : Nat)
  /-- The placement answer of a SPAWN (R63). -/
  | placement
  /-- CALLAT's acceptance (R64), and where the context then goes on. -/
  | callat (next : W64)
  /-- The launch unit's acceptance of a cancel (R209), and where the context then goes on. -/
  | cancel (next : W64)
  /-- The last awaited deposit of ended work (R55). -/
  | deposits
  /-- Its own earlier relaxed stores, still on their way (spec/05 R143). -/
  | stores
  /-- The event came while the context was Stopped: it goes on here when resumed (spec/08 R213). -/
  | done (next : W64)
deriving DecidableEq, Repr

/-- The work a context holds (spec/08 R200). -/
inductive Work where
  | none | unit | child | participant | started | supervisor
  /-- A CALLAT task, with its caller, the caller's incarnation and register. -/
  | task (gid gen d : Nat)
deriving DecidableEq, Repr

/-- A stop that takes effect at the context's next slot (spec/02 R58, R70; spec/08 R213). -/
inductive StopDue where
  | none | halt | cancel
deriving DecidableEq, Repr

/-- A late trap that is due at a context's next slot (spec/20 R395): the refused store's word, its origin PC and iteration. -/
structure LateStop where
  addr : W64
  orig : W64
  iter : W64
deriving DecidableEq, Repr

/-- One context. -/
structure Ctx where
  mode : Mode
  park : Park
  pc : W64
  /-- `RFBASE`.BASE and `RFLIMIT`.LIMIT (Tables 2.3, 2.4). -/
  base : Nat
  limit : Nat
  /-- `p0` to `p7` (Table 3.2). -/
  ptrs : Vector W64 8
  /-- Bit k is `qk`; `q0` reads true whatever bit 0 holds (spec/07 R181). -/
  preds : BitVec 8
  /-- `STATUS`.FLAGS and `STATUS`.INH (Table 7.10). -/
  flags : BitVec 5
  inh : Bool
  link : W64
  /-- `id.unit`, `id.launch`, `id.o0`-`id.o3`, `id.e0`-`id.e3`. -/
  unit : BitVec 24
  launch : W32
  o : List W32
  e : List W32
  work : Work
  /-- The live launch the work belongs to, by the model's own number (R56). -/
  lid : Option Nat
  /-- The incarnation of the context: the model's own number (log 5). -/
  gen : Nat
  stop : StopDue
  /-- The late traps of refused stores, in the order in which their notices were written (spec/20 R395). -/
  late : List LateStop
  /-- Rotations in which the context does not issue (spec/03 R80). -/
  rot : Nat
  /-- The words of the instruction that parked on a register or a line: what its first issue decided stands (spec/20 R393). -/
  again : List W32
deriving DecidableEq, Repr

/-- A context that holds no work; context 0 is never Idle (R41) and holds registers 0 to 31 (R46). -/
def Ctx.rest (gid : Nat) : Ctx :=
  { mode := if gid % 16 = 0 then .parked else .idle
    park := if gid % 16 = 0 then .firmware else .nothing
    pc := 0, base := 0, limit := if gid % 16 = 0 then 32 else 0
    ptrs := Vector.replicate 8 0, preds := 0, flags := 0, inh := false, link := 0
    unit := 0, launch := 0, o := [0, 0, 0, 0], e := [0, 0, 0, 0]
    work := if gid % 16 = 0 then .supervisor else .none
    lid := none, gen := 0, stop := .none, late := [], rot := 0, again := [] }

/-- A trap-queue record (Table 19.3), with what handler entry loads (Table 19.2). -/
structure TrapRec where
  tenant : Nat
  ctx : Nat
  cls : Nat
  async : Bool
  late : Bool
  swcode : Nat
  cause : Nat
  core : Nat
  pc : W64
  addr : W64
  orig : W64
  iter : W64
  unit : Nat
  launch : Nat
  cyc : W64
  /-- Saved `STATUS`[31:0] of the trapped context. -/
  sstat : Nat
  /-- The incarnation of the trapped context. -/
  gen : Nat
  /-- For a gang-stop record, the words of Table 19.5 at 0x08 to 0x30. -/
  words : List W64
  /-- W when the record was written. -/
  seq : W64
deriving DecidableEq, Repr

/-- A trap of a core that has not entered the handler: its record, the die whose queue takes it, and whether it is written
(R375, R380). -/
structure PendingTrap where
  trap : TrapRec
  die : Nat
  written : Bool
deriving DecidableEq, Repr

/-- A forwarding entry (spec/02 R72): where the state went, whether it is installed, the incarnations that moved, each with its
context on the source, its context on the destination and the state in which it stopped, the engine operations that still fill the
AB, and the items held. -/
structure Forward where
  dst : Nat
  installed : Bool
  moved : List (Nat × Nat × Nat × Mode)
  owedOps : List Nat
  held : List Item
deriving DecidableEq, Repr

/-- One core's registers and queues. -/
structure Core where
  /-- `CYCLES` is the module clock plus this (R75). -/
  skew : W64
  handler : W64
  trapPc : W64
  trapCause : W64
  trapAddr : W64
  trapOrig : W64
  trapIter : W64
  /-- `XCTX`[3:0] and `XSEL` (spec/07 R183). -/
  xctx : BitVec 4
  xerr : Bool
  xempty : Bool
  xclass : BitVec 2
  xnum : BitVec 8
  /-- Context 0's PC, mode, park and parked words when the handler was entered (spec/19 R376, R378). -/
  savedPc : W64
  savedMode : Mode
  savedPark : Park
  savedAgain : List W32
  /-- The incarnation of the context whose trap is being handled. -/
  trapGen : Nat
  pending : List PendingTrap
  /-- The task queue, oldest first, and the recorded callers with their tasks (R64). -/
  tasks : List Task
  callers : List Task
  fwd : Option Forward
  /-- Coupled with the other core of its even/odd pair (spec/08 R215). -/
  paired : Bool
  /-- Halted by the stop tree (R382). -/
  halted : Bool
  /-- Since the halt: deposits, wake-ups and fills dropped; sluice requests withdrawn; engine operations stopped (Table 19.5). -/
  dropped : Nat
  withdrawn : Nat
  stoppedOps : Nat
  /-- `CYCLES` when the stop tree halted the core (Table 19.5). -/
  haltCyc : W64
  /-- `LBECC`.CECNT (Table 21.3), and the words of its local arrays with one bit in error that have not been read yet (spec/21 R417). -/
  lbecc : Nat
  upsets : Nat
  /-- A coupled core's outbound messages that await their partners, with the cycle and the context (spec/19 R385). -/
  pairOut : List (Nat × Nat × Outbound)
deriving DecidableEq, Repr

/-- A core at reset. -/
def Core.init : Core :=
  { skew := 0, handler := 0, trapPc := 0, trapCause := 0, trapAddr := 0, trapOrig := 0, trapIter := 0, xctx := 0, xerr := false
    xempty := false, xclass := 0, xnum := 0, savedPc := 0, savedMode := .parked, savedPark := .firmware, savedAgain := [], trapGen := 0, pending := []
    tasks := [], callers := [], fwd := none, paired := false, halted := false, dropped := 0, withdrawn := 0, stoppedOps := 0, haltCyc := 0, lbecc := 0, upsets := 0, pairOut := [] }

/-- A tile element (spec/06 R162, Table 6.7). -/
structure Elem where
  spec : BitVec 2
  m : Int
deriving DecidableEq, Repr

/-- An accumulator tile with its status word (Table 6.8) and QB4 record (spec/10 R254). -/
structure Tile where
  elems : Sparse Elem
  /-- The shared exponent E. -/
  exp : Int
  /-- Status bits 10:0, and RENORMS. -/
  bits : BitVec 11
  renorms : Nat
  qb4set : Bool
  plainset : Bool
  scales : List W32
deriving DecidableEq, Repr

/-- A tile at reset. -/
def Tile.init : Tile := { elems := [], exp := 0, bits := 0, renorms := 0, qb4set := false, plainset := false, scales := List.replicate 64 0 }

/-- The contexts, cores and local buffers. -/
structure Cpu where
  ctxs : Sparse Ctx
  cores : Sparse Core
  regs : Sparse W64
  /-- Full/empty bits: `true` is empty (R49). -/
  regEmpty : Sparse Bool
  ab : Sparse Byte
  /-- The operations that emptied a line and have not written their part (R81); 0 stands for stopped ones (spec/19 R383). -/
  abEmpty : Sparse (List Nat)
  ps : Sparse Byte
  wb : Sparse Byte
  tiles : Sparse Tile
deriving DecidableEq, Repr

/-! ### Global memory -/

/-- A translation-cache entry (spec/03 R97): slice, tenant, VA[51:16], DP bits 47:16, WR. -/
structure TlbEntry where
  slice : Nat
  tenant : Nat
  vpn : Nat
  page : Nat
  wr : Bool
deriving DecidableEq, Repr

/-- A word in a cluster's instruction cache, by DP address (spec/01 R18; log 36). -/
structure CodeWord where
  cluster : Nat
  dp : Nat
  v : W64
deriving DecidableEq, Repr

/-- A format window (Table 3.8). -/
structure FWin where
  fwa : W64
  fwb : W64
  fws : W64
deriving DecidableEq, Repr

/-- Global memory, translation and tiers. -/
structure Mem where
  /-- The data bytes, by DP address. -/
  bytes : List Host.Cell
  /-- The 4 tag bits of a word, by DP address of the word; unlisted: plain and full (spec/16 R355 step 3). -/
  tags : Sparse (BitVec 4)
  /-- Bits in error of a word's stored form, and of its clean copy, or of the second copy of a word of the DPIT, the translation tables, the
  polder or the trap queue (spec/21 R405, R408, R412). -/
  upsets : Sparse Nat
  copyUpsets : Sparse Nat
  /-- Translation caches, most recently used first. -/
  tlb : List TlbEntry
  /-- The clusters' instruction caches, the latest fill first (spec/03 R105). -/
  icache : List CodeWord
  /-- Format windows, by 16·tenant + window. -/
  fwins : Sparse FWin
  /-- DPIT entries, by DP page (Table 3.7), each as its difference from what the entry is at reset, and access counts (R99). -/
  dpit : Sparse W64
  counts : Sparse Nat
  /-- Blocks of a page already switched to its new frame during a move (R101). -/
  moved : Sparse (List Nat)
  /-- Retired frames: near by 2^20·die + frame, far by 2^26·half + frame (R412). -/
  nearRetired : List Nat
  farRetired : List Nat
  /-- `SLECC` of a slice: CECNT and UECNT (Table 21.2). -/
  slecc : Sparse (Nat × Nat)
  /-- `STKSCRUB`.BANK of a die, and the stacks' own counts by 4,096·die + bank (Table 21.1). -/
  stkBank : Sparse Nat
  stkCounts : Sparse Nat
  /-- Far-tier controllers out of service (R413). -/
  farDown : List Nat
  /-- The frames that the memory manager has to retire, first one first: the DP page that holds one, whether it is a far frame, and its number
  (R412). -/
  failing : List (Nat × Bool × Nat)
  /-- Dies of which both copies of a word of the DPIT, the translation tables, the polder or the trap queue are lost, before its partitions
  have been charged (R412). -/
  lostDies : List Nat
deriving DecidableEq, Repr

/-! ### Sluices -/

/-- A parked request (spec/04 R122): where it parks, its sequence number, the ticket of an LK.ACQ, the phase of a BAR.SYNC,
and whether it lies in the polder (R124). -/
structure Parked where
  slice : Nat
  dp : Nat
  seq : W32
  req : Request
  ticket : W32
  phase : BitVec 16
  polder : Bool
  /-- The completion notice that parks, for its record (spec/22 R421). -/
  notice : Option Notice
  /-- A cancel has withdrawn the LK.ACQ: its ticket stays on the list, marked (R114). -/
  abandoned : Bool := false
deriving DecidableEq, Repr

/-- The sluices of the module. -/
structure Sluices where
  /-- Parked requests, oldest first at each slice. -/
  parked : List Parked
  /-- Arrival sequence numbers, by slice (R117). -/
  seqs : Sparse W32
  /-- Incarnations whose work a cancel has ended: their requests do not park (spec/02 R58). -/
  cancelled : List Nat
  /-- Requests of other modules that their requesters have taken back. -/
  takenBack : List Requester
  /-- Freed wait-list entries, by slice and tenant, into which a polder entry is about to move (R126). -/
  moves : List (Nat × Nat)
  /-- Queue headers with a ring access outstanding (R115). -/
  busy : List Nat
  /-- `WLQ`.QUOTA by 16·slice + tenant (Table 4.3) where it was written; unlisted: the configuration table's. -/
  quota : Sparse (Option Nat)
deriving DecidableEq, Repr

/-! ### Engines -/

/-- What an operation is bound to (spec/11 R265, R267; spec/22 R420). -/
inductive Binding where
  /-- MZERO and MMA are bound to nothing. -/
  | unbound
  /-- The number request has not been answered. -/
  | pending
  | counter (num : W64)
  | barrier
  | refused (swcode : Nat)
deriving DecidableEq, Repr

/-- One end of a copy: a global address, or an offset in the AB of the core or the WB of its cluster (spec/11 R270, R271). -/
inductive CopyEnd where
  | global (va : W64)
  | ab (off : Nat)
  | wb (off : Nat)
deriving DecidableEq, Repr

/-- The forms of COPY (Table 11.1). -/
inductive CopyForm where
  | linear | strided | gather | scatter
deriving DecidableEq, Repr

/-- The captured operands of an engine operation (spec/11 R268). -/
inductive OpWork where
  /-- The last argument: scales that go along into the WB, each with its source, WB offset and bytes (R274). -/
  | copy (form : CopyForm) (dst src : CopyEnd) (len x : W64) (lossy : Bool) (scales : List (W64 × Nat × Nat))
  | prefTier (va : W64) (pages : Nat)
  /-- Source: a global address, or an AB offset with LEN. -/
  | layout (dst : W64) (src : CopyEnd) (abLen : Nat) (extents desc : W64)
  | mzero (tile : Nat) (e : Int)
  /-- The skip bitmap's WB offset, and the PC at which the context goes on. -/
  | mma (tile a0 fmta fmtb k b0 : Nat) (skip : Option Nat) (next : W64)
  | drain (tile d0 fmt : Nat)
  | collOpen (vsn : Nat) (plan : W64) (combine : Nat)
  | collPut (vsn off len : Nat)
  | collGet (vsn off len d : Nat) (lossy : Bool)
  | collMark (vsn : Nat) (word : W64)
deriving DecidableEq, Repr

/-- How far an operation has come. -/
inductive OpState where
  /-- Handed to its engine, or waiting for it. -/
  | issued
  /-- A pending trigger whose grant has not been written (R276). -/
  | trigWait
  /-- A pending trigger whose wait has been refused: the deposit of 0 is on its way (spec/22 R420). -/
  | trigRefused
  /-- A pending trigger whose grant has been written (R277). -/
  | trigGranted
  /-- Waiting for the other module: remote words asked for, or `n` acknowledgements owed. -/
  | remote (n : Nat)
  /-- A triggered copy that waits for `n` answers of other modules, which make its pages there near first (spec/11 R277). -/
  | promoting (n : Nat)
  /-- A lossy copy whose blocks have left: the other module's station ends it (spec/15 R345). -/
  | handedOver
  /-- A collective operation at the router, with the rows done. -/
  | rows (n : Nat)
  /-- A drain of whose rows and flag write one has been made (spec/10 R261). -/
  | half
  /-- It is over but for the last fill, which follows the AB to where it has moved (spec/02 R72). -/
  | ended
deriving DecidableEq, Repr

/-- An outstanding engine operation, with the record fields of R403. -/
structure EngOp where
  id : Nat
  work : OpWork
  gid : Nat
  gen : Nat
  /-- The issuing core, and the core whose AB it uses (the destination after a migration). -/
  core : Nat
  abCore : Nat
  tenant : Nat
  pc : W64
  orig : W64
  iter : W64
  unit : Nat
  launch : Nat
  scope : BitVec 4
  bindVa : W64
  binding : Binding
  state : OpState
  /-- The trigger counter and the register of a triggered COPY. -/
  trigReg : Nat
  /-- AB lines it emptied. -/
  lines : List Nat
  /-- The index list or the extents and descriptor words, once read; of a tier prefetch, the pages whose promotion was abandoned. -/
  got : Option (List Nat)
  /-- Blocks that a COLL.GET lost, one bit each, or the rows of a COLL.PUT that have left the local slots; LOSS and GBROKEN of the
  completion word (spec/11 Table 11.3). -/
  valid : Nat
  loss : Bool
  broken : Bool
  /-- The model's request number at its issue, by which the earlier stores of its context are told (spec/05 R131, R140), and the cycle
  of its issue (spec/10 R253). -/
  rid : Nat
  cycle : Nat
  /-- A LAYOUT has come to its engine, in the cycle that `cycle` then gives (spec/12 R292); other modules have made a triggered copy's pages near
  (spec/11 R277). -/
  arrived : Bool
deriving DecidableEq, Repr

/-- A pending trigger of a context (spec/11 R276). -/
def EngOp.pending (o : EngOp) : Bool := o.state = .trigWait || o.state = .trigRefused || o.state = .trigGranted

/-- A lossy transfer at its receiving station (spec/15 R344, R345). -/
structure Lossy where
  xfer : Nat
  head : LossyHead
  /-- Blocks written as delivered, and as lost. -/
  delivered : List Nat
  lost : List Nat
  /-- Blocks that a notice or close has named, with the cycle (R345). -/
  named : List (Nat × Nat)
  /-- The lowest word written poisoned (spec/21 R414). -/
  poison : Option W64
deriving DecidableEq, Repr

/-- A plan entry (Table 15.4): physical module of the router, LOCAL, core, the set words. -/
structure PlanEntry where
  phys : Nat
  isLocal : Bool
  core : Nat
  sets : List W64
deriving DecidableEq, Repr

/-- A block of a plan's down rows at its receiving station (spec/15 R345, R346): its number on its hop, the rows that have come, none for one
that was dropped, and, once its notice has come, how many rows it has, their CRC-32C and the cycle of the notice. -/
structure RowBlock where
  num : Nat
  rows : List (Option (List Byte))
  named : Option (Nat × W32 × Nat)
deriving DecidableEq, Repr

/-- A marker that an entry has sent up and whose down marker has not come (spec/15 R341): the set of the segment that it ended, its LEAVE, and
whether it is a repair marker (spec/22 R428). -/
structure SentMark where
  set : Nat
  leave : Bool
  repair : Bool
deriving DecidableEq, Repr

/-- A free slot at a receiver (spec/15 R339, R346): the entry and its port, the set in which the receiver gave notice, whether the notice was
marked lossy. -/
structure Credit where
  entry : Nat
  port : Nat
  set : Nat
  lossy : Bool
deriving DecidableEq, Repr

/-- A router's entry for one stream (spec/15 R336-R342). Input ports: 0 to 3 children, 4 down, 5 local. -/
structure Stream where
  core : Nat
  vsn : Nat
  tenant : Nat
  entries : List PlanEntry
  /-- Own index in the plan, and the number of port sets. -/
  me : Nat
  sets : Nat
  gbar : W64
  combine : Nat
  /-- The current up set and down set. -/
  up : Nat
  down : Nat
  /-- The local input is active upwards, downwards; the markers sent up whose down markers have not come (R341). -/
  localUp : Bool
  localDown : Bool
  leaving : List SentMark
  /-- Entries whose routers have reserved their slots (R338). -/
  ready : List Nat
  /-- Entries known dead: those whose boundary has not come yet, and those whose inputs are dropped (spec/22 R428). -/
  deaths : List Nat
  dropped : List Nat
  /-- Items held, in arrival order, each with its port. -/
  inputs : List (Nat × StreamItem)
  /-- Free slots at receivers (R339). -/
  credits : List Credit
  /-- Free slots of the local input. -/
  localFree : Nat
  /-- Entries that the down item at the head has been sent to; 0xFFF is the core. -/
  served : List Nat
  /-- Rows sent up and not known to be held by the parent's router: the parent's entry, and whether the core has a part in the row (spec/11
  R279). -/
  sent : List (Nat × Bool)
  /-- The own markers that moved the entry on from sets in which it is absent: the set and the marker, for the down set to follow (R342). -/
  own : List (Nat × W64)
  /-- The rows of the current block sent to an entry below in the lossy class, and the blocks sent to it before (R346). -/
  blockRows : List (Nat × List (List Byte))
  blocksSent : List (Nat × Nat)
  /-- The blocks of lossy rows that have begun to come and have not been judged, first one first, and how many have begun to come (R345, R346). -/
  blocksIn : List RowBlock
  blocksSeen : Nat
  /-- Rows of the current segment sent up. -/
  rowsUp : Nat
  upClosed : Bool
  /-- Cut off (spec/22 R428): the slots are free, and the operations end without effect. -/
  broken : Bool
  /-- The COLL.OPEN that installed it, for records. -/
  opened : EngOp
deriving DecidableEq, Repr

/-- The engines. -/
structure Engines where
  ops : List EngOp
  nextOp : Nat
  lossy : List Lossy
  streams : List Stream
  /-- COLL.OPEN operations that wait for router slots (R338). -/
  waitOpen : List Nat
  /-- Routers heard of before the own entry is installed: core, VSN and entry. -/
  early : List (Nat × Nat × Nat)
deriving DecidableEq, Repr

/-! ### Dies -/

/-- A FORK join record (spec/02 R66, spec/08 R207). -/
structure JoinRec where
  value : W64
  pc : W64
  saved : List W64
  link : W64
  tenant : Nat
  /-- The work that the last participant goes on with. -/
  work : Work
deriving DecidableEq, Repr

/-- A back-map record (spec/13 R312): offset of a residual instruction, its length, origin PC, unroll iterations, innermost
first. `cont` marks a continuation into generic code (R304). -/
structure BackMap where
  off : Nat
  len : Nat
  orig : W64
  iters : List Nat
  cont : Bool
deriving DecidableEq, Repr

/-- The key of a specialisation (spec/13 Table 13.2), without the read set. -/
structure SpecKey where
  code : W64
  version : W64
  tenant : Nat
  config : W64
  mask : Nat
  seeds : List W64
deriving DecidableEq, Repr

/-- A specialisation-cache entry (spec/13 R307, R309, R310). -/
structure SpecEntry where
  index : Nat
  key : SpecKey
  reads : List (W64 × W64)
  generic : Bool
  code : List Byte
  map : List BackMap
deriving DecidableEq, Repr

/-- One die: trap queue, launch unit, specialiser, join pool, stop tree. -/
structure Die where
  /-- Records written and not read, and W and R (R380). -/
  traps : List TrapRec
  w : W64
  r : W64
  /-- `FATALSTAT` (Table 19.4). -/
  fatal : W64
  joins : Sparse (Option JoinRec)
  /-- The cache's entries, most recently used first; the keys under evaluation. -/
  spec : List SpecEntry
  evaluating : List (SpecKey × Nat)
  /-- `SPSTAT` (Table 22.3). -/
  spLast : BitVec 3
  spFalls : Nat
  spKept : Nat
  /-- Units that no core took (R62). -/
  waiting : List UnitPacket
  /-- Removed from every partition: above 115 °C, or by a failed link (R390, R388). -/
  removedHeat : Bool
  removedLink : Bool
  /-- Its cores leave whole rotations unissued for power, for heat (spec/16 R361, spec/19 R390). -/
  gatedPower : Bool
  gatedHeat : Bool
deriving DecidableEq, Repr

/-- A die at reset. -/
def Die.init : Die :=
  { traps := [], w := 0, r := 0, fatal := 0, joins := [], spec := [], evaluating := [], spLast := 0, spFalls := 0, spKept := 0
    waiting := [], removedHeat := false, removedLink := false, gatedPower := false, gatedHeat := false }

/-! ### Firmware column and hosts -/

/-- One die's share of a launch (spec/14 R322): units from `base`, `count` of them, the next to place, and the entry PC. -/
structure Share where
  die : Nat
  base : Nat
  count : Nat
  next : Nat
  entry : Option W64
  /-- The code of the kernel as the launch unit took it (spec/03 R105), from the header's address. -/
  code : List Byte
deriving DecidableEq, Repr

/-- Where a launch stands. -/
inductive LaunchState where
  /-- Predecessors or its phase have not advanced. -/
  | blocked
  /-- In the pending list (R324). -/
  | pending
  | released
  | advanced
deriving DecidableEq, Repr

/-- A launch (Table 14.3). -/
structure Launch where
  lid : Nat
  tenant : Nat
  /-- The command's 16 words. -/
  words : List W64
  /-- `id.launch`. -/
  id : W32
  state : LaunchState
  /-- Counters still waited for (predecessors). -/
  waits : Nat
  age : Nat
  shares : List Share
  live : Nat
  retired : Nat
  reaped : Bool
  partialDone : Bool
  cancelled : Bool
  /-- Units placed again after a checked-pair mismatch (spec/19 R385), and units cancelled before they were placed. -/
  replaced : List Nat
  skip : List Nat
deriving DecidableEq, Repr

/-- The levels above a launch (spec/02 R52). -/
inductive Level where
  | graph | phase | job
deriving DecidableEq, Repr

/-- A graph, phase or job (spec/14 R319). -/
structure Obj where
  level : Level
  tenant : Nat
  ctr : W64
  parent : W64
  members : Nat
  done : Nat
  /-- A phase has begun (R54); true for the other levels. -/
  begun : Bool
  partialDone : Bool
  reaped : Bool
  cancelled : Bool
  advanced : Bool
deriving DecidableEq, Repr

/-- A registered command queue (spec/14 R314, R316). -/
structure Queue where
  tenant : Nat
  num : Nat
  block : W64
  /-- WIDX at the scanner's last read, and the polling interval I. -/
  widx : Nat
  interval : Nat
  /-- The last read, on the scanner's counter. -/
  lastRead : Nat
  /-- Index of the next slot to take; work found. -/
  ridx : Nat
  ready : Bool
deriving DecidableEq, Repr

/-- An RDMA window (spec/16 R350). -/
structure Window where
  base : W64
  key : Nat
  pages : Nat
deriving DecidableEq, Repr

/-- An event record before SEQ and DROPPED are set (Table 16.3). -/
structure EventRec where
  kind : Nat
  ctr : W64
  statusw : W64
  detail : List W64
  /-- The requests of the firmware column with tags below this one come before it (spec/16 R354). -/
  after : Nat
deriving DecidableEq, Repr

/-- A tenant (Table 16.2). -/
structure Tenant where
  num : Nat
  /-- Clusters of the partition. -/
  clusters : List Nat
  quota : Nat
  /-- DP address of the level-1 translation table (spec/03 R96). -/
  l1 : Nat
  /-- Supervisor entry PC with which context 0 of its cores is started. -/
  supervisor : W64
  windows : List Window
  evPort : Nat
  evQpn : Nat
  evExp : Nat
  evrAddr : W64
  evBase : W64
  evwAddr : W64
  evrKey : Nat
  /-- Records written, records held, records discarded since the last one written (R353, R354). -/
  evw : Nat
  held : List EventRec
  evDropped : Nat
  /-- LAUNCH commands taken (spec/14 R320). -/
  launches : Nat
  /-- The last pass that idle reports started, and whether a report is deferred (R324). -/
  lastIdle : Option Nat
  deferred : Bool
  /-- The remap table, by logical number: its entries, V and PHYS (Table 15.2); unlisted: 0. -/
  remap : Sparse W64
deriving DecidableEq, Repr

/-- A firewall rule (Table 16.10). -/
structure FwRule where
  dirOut : Bool
  cls : Nat
  lo : Nat
  hi : Nat
deriving DecidableEq, Repr

/-- The parameters of the configuration table (Tables 16.8, 16.9, 16.12, 16.13). -/
structure Params where
  width : Nat
  roleMap : Nat
  sprev : Nat
  losswin : Nat
  hotthr : Nat
  physid : Nat
  peertmo : Nat
  retthr : Nat
  powercap : Nat
  ethernet : List (Nat × Nat)
  owners : List (Nat × Nat)
  rules : List FwRule
deriving DecidableEq, Repr

/-- The parameters before a table is loaded: the factory values that Table 16.9 gives, else 0. -/
def Params.none : Params :=
  { width := 0, roleMap := 0, sprev := 0, losswin := 4096, hotthr := 32, physid := 0, peertmo := 8000000, retthr := 64, powercap := 0
    ethernet := [], owners := [], rules := [] }

/-- A mapping or remap command whose counter has not advanced yet: the pages it has unmapped, or the requests handed to a station
under the old entry (spec/03 R97, spec/15 R334). -/
structure Settling where
  tenant : Nat
  ctr : W64
  pages : List Nat
  reqs : List Request
  /-- Engine operations that had messages under the old entry. -/
  ops : List Nat
deriving DecidableEq, Repr

/-- The firmware column's objects. -/
structure Firmware where
  params : Params
  tenants : List Tenant
  launches : List Launch
  nextLid : Nat
  objs : List Obj
  queues : List Queue
  /-- The tenant and queue served last (spec/14 R317), and whether a command is being served. -/
  lastTenant : Nat
  lastQueue : List (Nat × Nat)
  serving : Bool
  /-- The command that the firmware column has taken. -/
  command : Command
  settling : List Settling
  /-- DP pages that are mapped or still settling, and those that hold translation tables (log 8). -/
  pages : List Nat
  tables : List Nat
  /-- `DPMAP0`-`DPMAP15` (Table 22.2). -/
  dpmap : List W64
  /-- What the column last read from a register, and the words of the trap record that it last read. -/
  readData : W64
  readRecord : List W64
  /-- Refused RDMA accesses whose key names no tenant, by port (spec/19 R387). -/
  rdmaRefused : Sparse Nat
  /-- Route-table entries the firmware column has written: between dies by 24·from + to, to I/O dies by 576 + 4·die + I/O die (spec/19
  R389). -/
  routes : Sparse (List Nat)
  /-- `STKSCRUB` counts at the last retirement, by 4,096·die + bank (spec/21 R412). -/
  lastRetire : Sparse Nat
deriving DecidableEq, Repr

/-- What the module has sent outwards. -/
inductive Outward where
  /-- A request handed to a station, with the physical module it goes to (spec/15 R330, R333). -/
  | request (station phys : Nat) (r : Request)
  /-- A reply or refusal to a remote requester. -/
  | reply (q : Requester) (data : W64) (ok : Bool)
  | refusal (q : Requester) (cause : Nat) (addr : W64)
  /-- An engine's words for another module: the operation, the address, the words, none for a word to be written poisoned (spec/21
  R414); and a request for words. -/
  | words (station phys op : Nat) (va : W64) (data : List (Option W64))
  | fetch (station phys op : Nat) (va : W64) (count : Nat)
  /-- The low bits of a word that a layout covers only in part (spec/12 R292). -/
  | part (station phys op : Nat) (va : W64) (bits : Nat) (data : Option W64)
  /-- Blocks asked for from another module in the lossy class (spec/15 R345), and pages to be made near there (spec/11 R278). -/
  | lossyFetch (station phys : Nat) (h : LossyHead) (xfer : Nat) (va : W64)
  | prefTier (station phys op : Nat) (va : W64) (pages : Nat)
  /-- A lossy block with its CRC-32C, a notice or close. -/
  | block (station phys : Nat) (h : LossyHead) (xfer block : Nat) (data : List (Option W64)) (crc : W32)
  | blockNotice (phys : Nat) (h : LossyHead) (n : LossyNotice)
  /-- A router's item for a router of another module; a row of the lossy class with the number of its block. -/
  | stream (phys core vsn port : Nat) (item : StreamItem) (block : Option Nat)
  /-- The reliable notice after a block of a plan's lossy rows: its number, how many there were, and their CRC-32C (spec/15 R344, R346). -/
  | rowNotice (phys core vsn num rows : Nat) (crc : W32)
  /-- A router's slot-free notice from an entry for one of its ports; port 6 says that its slots are reserved. -/
  | slotFree (phys core vsn entry port : Nat) (lossy : Bool)
  | probe (station phys : Nat)
  /-- A parked request of a core is withdrawn at the other module (spec/02 R58, spec/19 R383). -/
  | withdraw (station phys : Nat) (r : Request)
  /-- A core of a plan has halted (spec/22 R428): to the router of a neighbouring entry. -/
  | memberDeath (phys core vsn entry : Nat)
  /-- An RDMA WRITE towards a host, the words of an RDMA READ, a NAK (spec/16 R349). -/
  | rdmaWrite (port qpn key : Nat) (addr : W64) (data : List Byte)
  | rdmaData (port qpn : Nat) (data : List Byte)
  | rdmaAck (port qpn : Nat)
  | rdmaNak (port qpn : Nat)
deriving DecidableEq, Repr

/-- Fabric stations and host ports. -/
structure Fabric where
  /-- What was sent outwards, newest first. -/
  out : List Outward
  /-- Requests handed to a station and not answered: the cycle, the peer, the request (spec/22 R425). -/
  waiting : List (Nat × Nat × Request)
  /-- Probes not answered: the cycle and the peer; the last probe of a peer. -/
  probes : List (Nat × Nat)
  /-- Engine operations that wait for a peer: the cycle, the operation, the peer and the address there. -/
  opPeers : List (Nat × Nat × Nat × W64)
  /-- Stations and Ethernet ports in service (spec/22 R426). -/
  stationDown : List Nat
  portDown : List Nat
deriving DecidableEq, Repr

/-- Boot storage, fuses and bring-up (spec/16 R355-R358). -/
structure Boot where
  /-- The current step of Table 16.4; 7 when bring-up has ended. -/
  step : Nat
  fusedEpoch : Nat
  /-- The owner key hash, and the hash that a table has authorised. -/
  owner : Option (List Byte)
  authorised : Option (List Byte)
  /-- Boot storage: the staged image and the last accepted one. -/
  staged : Option (List Byte)
  accepted : Option (List Byte)
  running : Option (List Byte)
  /-- The links that will fail to train: die-to-die by number, perimeter, UALink station, Ethernet port (an input). -/
  failD2d : List Nat
  failPerimeter : List Nat
  failStation : List Nat
  failPort : List Nat
  /-- UALink stations attached at another switch port than the table's PHYSID, with that port (spec/15 R329; an input). -/
  otherPorts : List (Nat × Nat)
  /-- Die-to-die links that are down. -/
  down : List Nat
  downPerimeter : List Nat
deriving DecidableEq, Repr

/-! ### The schedule -/

/-- A step in flight: the moment it is due, and the step. -/
structure Pending where
  due : Nat
  ev : Instr
deriving DecidableEq, Repr

/-- The slot in progress: the context, the length of its instruction in bytes (0 inside REP), word 0, all its words, and
whether it issued before and parked on a register or line. -/
structure Slot where
  gid : Nat
  len : Nat
  w0 : W32
  words : List W32
  again : Bool
deriving DecidableEq, Repr

/-- What serves once in a cycle: a core's port for deposits (spec/02 R49), a slice's sluice (spec/04 R117). -/
inductive Port where
  | core (core : Nat)
  | sluice (slice : Nat)
deriving DecidableEq, Repr

/-- What orders the machine's steps (log 4). -/
structure Sched where
  /-- The module's cycle number, from which every local counter is read. -/
  now : Nat
  /-- The schedule: which candidate the next step takes; empty: the first. -/
  choices : List Nat
  /-- The machine's steps in flight, oldest first. -/
  agenda : List Pending
  /-- Contexts whose slot of this cycle has not come yet. -/
  slots : List Nat
  slot : Slot
  /-- The ports that have served in this cycle. -/
  used : List Port
  /-- Counters of fresh numbers: free values, incarnations, requests, firmware requests. -/
  fresh : Nat
  gens : Nat
  rids : Nat
  fwTags : Nat
deriving DecidableEq, Repr

/-- The state of the module. -/
structure State where
  cpu : Cpu
  mem : Mem
  sluice : Sluices
  eng : Engines
  dies : Sparse Die
  fw : Firmware
  fab : Fabric
  boot : Boot
  sched : Sched
deriving DecidableEq, Repr

/-- The module right after power is good (spec/16 R355): the first step is MODULE_RESET. -/
def State.reset : State :=
  { cpu := { ctxs := [], cores := [], regs := [], regEmpty := [], ab := [], abEmpty := [], ps := [], wb := [], tiles := [] }
    mem := { bytes := [], tags := [], upsets := [], copyUpsets := [], tlb := [], icache := [], fwins := [], dpit := [], counts := [], moved := []
             nearRetired := [], farRetired := [], slecc := [], stkBank := [], stkCounts := [], farDown := [], failing := [], lostDies := [] }
    sluice := { parked := [], seqs := [], cancelled := [], takenBack := [], moves := [], busy := [], quota := [] }
    eng := { ops := [], nextOp := 1, lossy := [], streams := [], waitOpen := [], early := [] }
    dies := []
    fw := { params := Params.none, tenants := [], launches := [], nextLid := 1, objs := [], queues := [], lastTenant := 0
            lastQueue := [], serving := false, command := { tenant := 0, queue := 0, slot := 0, words := [] }, settling := [], pages := [], tables := [], dpmap := List.replicate 16 0, readData := 0, readRecord := []
            rdmaRefused := [], routes := [], lastRetire := [] }
    fab := { out := [], waiting := [], probes := [], opPeers := [], stationDown := [], portDown := [] }
    boot := { step := 0, fusedEpoch := 0, owner := none, authorised := none, staged := none, accepted := some Config.factoryTable, running := none
              failD2d := [], failPerimeter := [], failStation := [], failPort := [], otherPorts := [], down := [], downPerimeter := [] }
    sched := { now := 0, choices := [], agenda := [{ due := 0, ev := .moduleReset }], slots := [], slot := { gid := 0, len := 0, w0 := 0, words := [], again := false }, used := []
               fresh := 0, gens := 1, rids := 1, fwTags := 1 } }

end Sys2Proof.Machine
end

