-- ==== Sys2Proof/Machine/Access.lean ====
section
/-!
DEFINITION. Reading and writing the parts of the state: coordinates, contexts, registers, local buffers, messages.
-/

namespace Sys2Proof.Machine

open Sys2Proof

/-! ### Coordinates (spec/01 R19-R21) -/

def coreOf (gid : Nat) : Nat := gid / 16
def ctxNo (gid : Nat) : Nat := gid % 16
def dieOf (core : Nat) : Nat := core / 4352
def idX (core : Nat) : Nat := core % 4352 % 64
def idY (core : Nat) : Nat := core % 4352 / 64
/-- The cluster of a core: 544·die + 16·cy + cx. -/
def clusterOf (core : Nat) : Nat := 544 * dieOf core + 16 * (idY core / 2) + idX core / 4
/-- The index of a core in its cluster. -/
def indexInCluster (core : Nat) : Nat := 4 * (idY core % 2) + idX core % 4
/-- The quadrant of a core, over the module. -/
def quadrantOf (core : Nat) : Nat := 4 * dieOf core + 2 * (idY core / 34) + idX core / 32
/-- The other core of an even/odd pair. -/
def partnerOf (core : Nat) : Nat := if idX core % 2 = 0 then core + 1 else core - 1
/-- The core with die, column and row. -/
def coreAt (die x y : Nat) : Nat := 4352 * die + 64 * y + x
/-- The cores of a cluster, in ascending index. -/
def coresOfCluster (cl : Nat) : List Nat :=
  (List.range 8).map fun i => coreAt (cl / 544) (4 * (cl % 544 % 16) + i % 4) (2 * (cl % 544 / 16) + i / 4)
/-- Mesh distance of two cores of one die. -/
def distance (c d : Nat) : Nat := Int.natAbs ((idX c : Int) - idX d) + Int.natAbs ((idY c : Int) - idY d)

/-! ### Contexts, cores, dies -/

/-- The context is context 0 of its core. -/
def isCtx0 (gid : Nat) : Bool := gid % 16 = 0

def State.ctx (s : State) (gid : Nat) : Ctx := spGet (Ctx.rest gid) s.cpu.ctxs gid
def State.setCtx (s : State) (gid : Nat) (c : Ctx) : State :=
  { s with cpu := { s.cpu with ctxs := spSet (Ctx.rest gid) s.cpu.ctxs gid c } }
def State.updCtx (s : State) (gid : Nat) (f : Ctx → Ctx) : State := s.setCtx gid (f (s.ctx gid))
def State.core (s : State) (core : Nat) : Core := spGet Core.init s.cpu.cores core
def State.updCore (s : State) (core : Nat) (f : Core → Core) : State :=
  { s with cpu := { s.cpu with cores := spSet Core.init s.cpu.cores core (f (s.core core)) } }
def State.die (s : State) (d : Nat) : Die := spGet Die.init s.dies d
def State.updDie (s : State) (d : Nat) (f : Die → Die) : State := { s with dies := spSet Die.init s.dies d (f (s.die d)) }

/-- The context whose slot is in progress, and its core. -/
def State.gid (s : State) : Nat := s.sched.slot.gid
def State.cur (s : State) : Ctx := s.ctx s.gid
def State.here (s : State) : Nat := coreOf s.gid
def State.updCur (s : State) (f : Ctx → Ctx) : State := s.updCtx s.gid f

/-- `CYCLES` of a core (spec/02 R75). -/
def State.cyclesOf (s : State) (core : Nat) : W64 := wordOfNat s.sched.now + (s.core core).skew
/-- The contexts that a piece of work runs in: one, or the same one of both cores of a coupled pair (spec/08 R215). -/
def State.both (s : State) (gid : Nat) : List Nat :=
  if (s.core (coreOf gid)).paired && !isCtx0 gid then [gid, 16 * partnerOf (coreOf gid) + ctxNo gid] else [gid]


/-- An incarnation is among those that a forwarding entry is for, and where it is now (spec/02 R72). -/
def Forward.has (f : Forward) (gen : Nat) : Bool := f.moved.any (·.1 = gen)
def Forward.now (f : Forward) (gen : Nat) : Option Nat := (f.moved.find? (·.1 = gen)).map (·.2.2.1)

/-! ### Scalar registers (spec/02 R46, R49) -/

/-- Allotted registers of a context. -/
def Ctx.count (c : Ctx) : Nat := c.limit - c.base
/-- The physical register of register `n` of a context. -/
def State.regKey (s : State) (gid n : Nat) : Nat := 1024 * coreOf gid + (s.ctx gid).base + n
def State.regAt (s : State) (gid n : Nat) : W64 := spGet 0 s.cpu.regs (s.regKey gid n)
def State.emptyAt (s : State) (gid n : Nat) : Bool := spGet false s.cpu.regEmpty (s.regKey gid n)
/-- Write a physical register. -/
def State.setPhys (s : State) (key : Nat) (v : W64) : State := { s with cpu := { s.cpu with regs := spSet 0 s.cpu.regs key v } }
def State.setEmpty (s : State) (key : Nat) (e : Bool) : State :=
  { s with cpu := { s.cpu with regEmpty := spSet false s.cpu.regEmpty key e } }
def State.setRegAt (s : State) (gid n : Nat) (v : W64) : State := s.setPhys (s.regKey gid n) v

/-- Register `n` of the context in the slot. -/
def State.reg (s : State) (n : BitVec 7) : W64 := s.regAt s.gid n.toNat
def State.writeReg (s : State) (n : BitVec 7) (v : W64) : State := s.setRegAt s.gid n.toNat v
def State.markEmpty (s : State) (gid n : Nat) : State := s.setEmpty (s.regKey gid n) true

/-! ### Predicates, pointers, flags -/

/-- `qk`; `q0` reads true (spec/07 R181). -/
def Ctx.pred (c : Ctx) (k : BitVec 3) : Bool := k.toNat = 0 || c.preds.getLsbD k.toNat
/-- Write `qk`; a write to `q0` is discarded. -/
def Ctx.setPred (c : Ctx) (k : BitVec 3) (b : Bool) : Ctx :=
  if k.toNat = 0 then c
  else { c with preds := if b then c.preds ||| (1#8 <<< k.toNat) else c.preds &&& ~~~(1#8 <<< k.toNat) }
/-- Pointer `k`, and writing it. -/
def Ctx.ptrAt (c : Ctx) (k : Nat) : W64 := c.ptrs[k % 8]
def Ctx.setPtr (c : Ctx) (k : Nat) (v : W64) : Ctx := { c with ptrs := c.ptrs.set (k % 8) v }
def Ctx.ptr (c : Ctx) (n : BitVec 3) : W64 := c.ptrAt n.toNat
/-- BUF, STRIDE and OFFSET of a pointer (Table 3.2). -/
def ptrBuf (p : W64) : Nat := slice p 63 61
def ptrOffset (p : W64) : Nat := slice p 17 0
/-- The pointer after one `+` (spec/03 R78). -/
def ptrNext (p : W64) : W64 :=
  let o := ((ptrOffset p : Int) + sext (slice p 47 32) 16) % 2 ^ 18
  (p &&& ~~~(0x3FFFF#64)) ||| wordOfInt o
def Ctx.advancePtr (c : Ctx) (n : BitVec 3) (inc : Bool) : Ctx :=
  if inc then c.setPtr n.toNat (ptrNext (c.ptr n)) else c
/-- OR flags into `STATUS`.FLAGS (spec/06 R154). -/
def State.orFlags (s : State) (gid : Nat) (fl : BitVec 5) : State := s.updCtx gid fun c => { c with flags := c.flags ||| fl }

/-! ### Local buffers -/

def State.abByte (s : State) (core off : Nat) : Byte := spGet 0 s.cpu.ab (24576 * core + off)
def State.abBytes (s : State) (core off n : Nat) : List Byte := spGetList 0 s.cpu.ab (24576 * core + off) n
def State.setAb (s : State) (core off : Nat) (bs : List Byte) : State :=
  { s with cpu := { s.cpu with ab := spSetList 0 s.cpu.ab (24576 * core + off) bs } }
def State.psBytes (s : State) (gid off n : Nat) : List Byte :=
  spGetList 0 s.cpu.ps (8192 * coreOf gid + 512 * ctxNo gid + off) n
def State.setPs (s : State) (gid off : Nat) (bs : List Byte) : State :=
  { s with cpu := { s.cpu with ps := spSetList 0 s.cpu.ps (8192 * coreOf gid + 512 * ctxNo gid + off) bs } }
def State.wbBytes (s : State) (cl off n : Nat) : List Byte := spGetList 0 s.cpu.wb (262144 * cl + off) n
def State.setWb (s : State) (cl off : Nat) (bs : List Byte) : State :=
  { s with cpu := { s.cpu with wb := spSetList 0 s.cpu.wb (262144 * cl + off) bs } }
/-- The operations that keep a line empty (spec/03 R81). -/
def State.lineHolders (s : State) (core line : Nat) : List Nat := spGet [] s.cpu.abEmpty (192 * core + line)
def State.setLine (s : State) (core line : Nat) (ops : List Nat) : State :=
  { s with cpu := { s.cpu with abEmpty := spSet [] s.cpu.abEmpty (192 * core + line) ops } }
/-- The lines of `n` bytes at an AB offset. -/
def linesOf (off n : Nat) : List Nat := if n = 0 then [] else List.range' (off / 128) ((off + n - 1) / 128 + 1 - off / 128)
/-- The first empty line of a list. -/
def State.emptyLine (s : State) (core : Nat) (ls : List Nat) : Option Nat := ls.find? fun l => s.lineHolders core l ≠ []
/-- Empty lines for an operation. -/
def State.emptyLines (s : State) (core op : Nat) (ls : List Nat) : State :=
  ls.foldl (fun s l => s.setLine core l (op :: s.lineHolders core l)) s

def State.tile (s : State) (core t : Nat) : Tile := spGet Tile.init s.cpu.tiles (2 * core + t)
def State.setTile (s : State) (core t : Nat) (x : Tile) : State :=
  { s with cpu := { s.cpu with tiles := spSet Tile.init s.cpu.tiles (2 * core + t) x } }

/-! ### Steps in flight -/

/-- Put a step in flight, due after `d` cycles. -/
def State.postIn (s : State) (d : Nat) (ev : Instr) : State :=
  { s with sched := { s.sched with agenda := s.sched.agenda ++ [{ due := s.sched.now + d, ev }] } }
def State.post (s : State) (ev : Instr) : State := s.postIn 0 ev
def State.postAll (s : State) (evs : List Instr) : State := evs.foldl State.post s
/-- Send something out of the module. -/
def State.emit (s : State) (o : Outward) : State := { s with fab := { s.fab with out := o :: s.fab.out } }
/-- A fresh request number, firmware tag, free-value number. -/
def State.newRid (s : State) : Nat × State := (s.sched.rids, { s with sched := { s.sched with rids := s.sched.rids + 1 } })
def State.newTag (s : State) : Nat × State := (s.sched.fwTags, { s with sched := { s.sched with fwTags := s.sched.fwTags + 1 } })
def State.newGen (s : State) : Nat × State := (s.sched.gens, { s with sched := { s.sched with gens := s.sched.gens + 1 } })

/-! ### What a step in flight carries -/

/-- The context and incarnation that a message in flight is addressed to. -/
def addressee : Instr → Option (Nat × Nat)
  | .deposit m => (match m.use, m.dest with | .number _, _ => none | _, some _ => none | _, none => some (m.gid, m.gen))
  | .storeAcknowledgement r | .faultReply r _ _ | .lateFaultNotice r => (match r.src with | .ctx g n => some (g, n) | _ => none)
  | .callatAcceptance g n | .taskQueueSlotFree g n => some (g, n)
  | _ => none
/-- The request on its way to a translation slice, a station or a home slice. -/
def requestOf : Instr → Option Request
  | .translationLookup r | .stationHandoff r | .homeSliceLoad r | .homeSliceStore r | .homeSliceAmo r | .homeSliceLdtag r
  | .sluiceLdFe r | .sluiceStEf r | .sluiceMkobj r | .sluiceRmobj r | .sluiceCtrAdd r | .sluiceCtrTake r | .sluiceCtrWait r
  | .sluiceBarArrive r | .sluiceBarSync r | .sluiceBarWait r | .sluiceBarJoin r | .sluiceBarWdraw r | .sluiceLkAcq r | .sluiceLkTry r
  | .sluiceLkRel r | .sluiceQpush r | .sluiceQpop r | .sluiceQpushT r | .sluiceQpopT r | .sluiceCndWait r | .sluiceCndSignal r
  | .sluiceCndBcast r | .sluiceForward r => some r
  | _ => none
/-- The request has been translated. -/
def translated : Instr → Bool
  | .translationLookup _ | .stationHandoff _ => false
  | ev => (requestOf ev).isSome
/-- The DP address that a step in flight was translated to. -/
def dpOf : Instr → Option Nat
  | .completionNotice n | .boundBarrierArrival n => some n.dp
  | .ringWordAccess ra => some ra.req.dp
  | ev => if translated ev then (requestOf ev).map (·.dp) else none

/-- A request of the firmware column, with its tag. -/
def fwRequestOf (ev : Instr) : Option (Request × Nat) :=
  match requestOf ev with
  | some r => (match r.src with | .fw t _ => some (r, t) | _ => none)
  | none => none
/-- A grant's object and place. -/
def grantOf : Instr → Option (Nat × Nat)
  | .deposit m | .polderEntryRead m => m.grant
  | _ => none
/-- An earlier store that has been acknowledged already, on its way or refused with its late fault notice on the way: the incarnation and
the request's number (spec/05 R131; spec/20 R395). -/
def earlyStoreOf : Instr → Option (Nat × Nat)
  | .lateFaultNotice r | .forwardedItem _ (.late r) => (match r.src with | .ctx _ n => some (n, r.rid) | _ => none)
  | .homeSliceStore r => (match r.src with | .ctx _ n => if r.early then some (n, r.rid) else none | _ => none)
  | _ => none
/-- The early stores of the machine that have not been performed, those among them whose late fault notices are held for moved state
(spec/02 R72). -/
def State.earlyStores (s : State) : List (Nat × Nat) :=
  s.sched.agenda.filterMap (fun p => earlyStoreOf p.ev) ++ s.cpu.cores.flatMap fun k =>
    match k.2.fwd with
    | some f => f.held.filterMap fun i => earlyStoreOf (.forwardedItem k.1 i)
    | none => []
/-- The stores that an engine operation's context issued before it have been performed (spec/05 R140). -/
def State.storesDone (s : State) (o : EngOp) : Bool := s.earlyStores.all fun e => !(e.1 = o.gen && decide (e.2 < o.rid))

/-! ### Stations (spec/15 R330; spec/22 R426) -/

/-- The station by which a request leaves: that of its address, or the next one in service. -/
def State.stationFor (s : State) (a : W64) : Nat :=
  (((List.range 32).map fun i => (slice a 12 8 + i) % 32).find? fun n => !s.fab.stationDown.contains n).getD (slice a 12 8)

/-- The die by which requests from an I/O die enter (R95), and that of a station's I/O die (spec/01 R24). -/
def entryDie (io : Nat) : Nat := [0, 5, 18, 23].getD io 0
def stationDie (st : Nat) : Nat := entryDie (st / 8)

/-! ### Tenants -/

/-- The tenant whose partition holds a core's cluster; 16 for none. -/
def State.tenantOf (s : State) (core : Nat) : Nat :=
  match s.fw.tenants.find? (fun t => t.clusters.contains (clusterOf core)) with
  | some t => t.num
  | none => 16
def State.tenant? (s : State) (t : Nat) : Option Tenant := s.fw.tenants.find? (fun x => x.num = t)
def State.updTenant (s : State) (t : Nat) (f : Tenant → Tenant) : State :=
  { s with fw := { s.fw with tenants := mapWhere (fun x => x.num = t) f s.fw.tenants } }
/-- A core takes work of its tenant: its die is not removed (spec/19 R388, R390). -/
def State.coreUsable (s : State) (core : Nat) : Bool := !(s.die (dieOf core)).removedHeat && !(s.die (dieOf core)).removedLink

/-! ### Engine operations and launches -/

def State.op? (s : State) (id : Nat) : Option EngOp := s.eng.ops.find? (fun o => o.id = id)
def State.updOp (s : State) (id : Nat) (f : EngOp → EngOp) : State :=
  { s with eng := { s.eng with ops := mapWhere (fun o => o.id = id) f s.eng.ops } }
def State.dropOp (s : State) (id : Nat) : State := { s with eng := { s.eng with ops := s.eng.ops.filter (fun o => o.id ≠ id) } }
def State.launch? (s : State) (lid : Nat) : Option Launch := s.fw.launches.find? (fun l => l.lid = lid)
def State.updLaunch (s : State) (lid : Nat) (f : Launch → Launch) : State :=
  { s with fw := { s.fw with launches := mapWhere (fun l => l.lid = lid) f s.fw.launches } }

end Sys2Proof.Machine
end

