-- ==== Sys2Proof/Machine/Memory.lean ====
section
/-!
DEFINITION. Global memory: words with tags at their home slices, error correction, the two tiers, addresses and
translation (spec/03 R87-R101, spec/21 R405-R410).
-/

namespace Sys2Proof.Machine

open Sys2Proof

/-! ### Device-physical addresses (spec/03 R93) -/

/-- The address has a home: a die up to 23 and bits 42:38 zero. -/
def dpValid (dp : Nat) : Bool := dp < 2 ^ 48 && dp / 2 ^ 43 < 24 && dp / 2 ^ 38 % 32 = 0
def homeDie (dp : Nat) : Nat := dp / 2 ^ 43
/-- The home slice, over the module. -/
def homeSlice (dp : Nat) : Nat := 32 * homeDie dp + dp / 256 % 32
def pageOf (dp : Nat) : Nat := dp / 65536
def wordAt (dp : Nat) : Nat := dp / 8 * 8
/-- The die of a DP page, and the first byte of a die's page. -/
def dieOfPage (page : Nat) : Nat := page / 2 ^ 27
def dpPage (die page : Nat) : Nat := die * 2 ^ 27 + page

/-! ### Words and tags -/

def State.memByte (s : State) (a : Nat) : Byte := spGet 0 s.mem.bytes a
def State.memBytes (s : State) (a n : Nat) : List Byte := spGetList 0 s.mem.bytes a n
/-- The 64 data bits of the word at `dp`, a multiple of 8. -/
def State.memWord (s : State) (dp : Nat) : W64 := wordOfNat (natOfBytes (s.memBytes dp 8))
def State.memTag (s : State) (dp : Nat) : BitVec 4 := spGet 8#4 s.mem.tags dp
/-- The type of a word (Table 3.3), and its full/empty bit. -/
def State.memType (s : State) (dp : Nat) : Nat := (s.memTag dp).toNat % 8
def State.memFull (s : State) (dp : Nat) : Bool := (s.memTag dp).getLsbD 3
/-- A tag from a type and a full bit. -/
def mkTag (type : Nat) (full : Bool) : BitVec 4 := BitVec.ofNat 4 (type % 8 + bitAt full 3)

/-- Bytes at a DP address. -/
def State.putBytes (s : State) (a : Nat) (bs : List Byte) : State := { s with mem := { s.mem with bytes := spSetList 0 s.mem.bytes a bs } }
def State.putTag (s : State) (dp : Nat) (t : BitVec 4) : State := { s with mem := { s.mem with tags := spSet 8#4 s.mem.tags dp t } }
/-- The whole word with its tag. -/
def State.putWord (s : State) (dp : Nat) (v : W64) (t : BitVec 4) : State := (s.putBytes dp (bytesOfNat v.toNat 8)).putTag dp t

/-! ### The DPIT (Table 3.7) -/

/-- The pages that the polder, the DPIT and the trap queue of a die hold (R98; spec/04 R125; spec/19 R380; log 8). -/
def heldPage (page : Nat) : Bool := page % 2 ^ 27 < Config.heldPages
/-- Where a join record and an overflow entry of a slice lie in their die's polder (spec/04 Table 4.4); their contents are `Die.joins` and
the parked requests of `Sluices`. -/
def polderJoin (rec : Nat) : Nat := 64 * rec
def polderOverflow (sl entry : Nat) : Nat := 0x40000 + 0x1FE000 * (sl % 32) + 32 * entry
/-- Where the DPIT entry of a page and the slot of a trap record lie in their die's held pages (log 8). -/
def dpitAddr (page : Nat) : Nat := dieOfPage page * 2 ^ 43 + 0x4000000 + 8 * (page % 2 ^ 22)
def trapSlot (die : Nat) (n : W64) : Nat := die * 2 ^ 43 + 0x6000000 + 64 * (n.toNat % 4096)
/-- The word is one of the DPIT, the translation tables, the polder or the trap queue of its die (spec/21 R412; log 8). -/
def State.structureWord (s : State) (dp : Nat) : Bool := heldPage (pageOf dp) || Config.tableBase ≤ dp % 2 ^ 43 || s.fw.tables.contains (pageOf dp)
/-- What a page's entry is at reset: a held page is pinned to the near frame of its number. -/
def dpitAtReset (page : Nat) : W64 := if heldPage page then wordOfNat (2 ^ 63 + 2 ^ 60 + page % 2 ^ 27) else 0
/-- The entry of a page. -/
def State.dpit (s : State) (page : Nat) : W64 := spGet 0 s.mem.dpit page ^^^ dpitAtReset page
def State.setDpit (s : State) (page : Nat) (e : W64) : State := { s with mem := { s.mem with dpit := spSet 0 s.mem.dpit page (e ^^^ dpitAtReset page) } }
/-- The entries that are not as at reset, by page. -/
def State.dpitEntries (s : State) : List (Nat × W64) := s.mem.dpit.map fun (p : Nat × W64) => (p.1, p.2 ^^^ dpitAtReset p.1)
def dpitValid (e : W64) : Bool := bit e 63
/-- The page is backed in the far tier. -/
def dpitFar (e : W64) : Bool := bit e 62
def dpitClean (e : W64) : Bool := bit e 61
def dpitPin (e : W64) : Bool := bit e 60
def dpitMove (e : W64) : Bool := bit e 59
def dpitOther (e : W64) : Nat := slice e 57 32
def dpitFrame (e : W64) : Nat := slice e 25 0
def mkDpit (valid far clean pin move : Bool) (other frame : Nat) : W64 :=
  wordOfNat (bitAt valid 63 + bitAt far 62 + bitAt clean 61 + bitAt pin 60 + bitAt move 59 + other % 2 ^ 26 * 2 ^ 32 + frame % 2 ^ 26)

/-- The frames that a page holds, as (far?, frame): its own, and its clean copy or the frame that it is moving to (log 13). -/
def framesOf (e : W64) : List (Bool × Nat) :=
  if dpitValid e then (dpitFar e, dpitFrame e) :: (if dpitClean e || dpitMove e then [(!dpitFar e, dpitOther e)] else []) else []
/-- The least number that a list does not hold. -/
def leastFree (used : List Nat) : Nat := ((List.range (used.length + 1)).find? fun n => !used.contains n).getD used.length
/-- The lowest free near frame of a die, not retired (log 8). -/
def State.freeNear (s : State) (die : Nat) : Option Nat :=
  let used := (s.dpitEntries.filter fun p => dieOfPage p.1 = die).flatMap fun p => (framesOf p.2).filterMap fun f => if f.1 then none else some f.2
  let all := used ++ (s.mem.nearRetired.filter (· / 2 ^ 20 = die)).map (· % 2 ^ 20)
  let n := Config.heldPages + leastFree ((all.filter (Config.heldPages ≤ ·)).map (· - Config.heldPages))
  if n < Config.nearFrames then some n else none
/-- The far-tier controller that holds a far frame of a half of the module (spec/01 R24; log 13). -/
def farController (half frame : Nat) : Nat := 2 * half + frame % 2
/-- The lowest free far frame of a die's half of the module, not retired, on a controller in service (spec/01 R24). -/
def State.freeFar (s : State) (die : Nat) : Option Nat :=
  let used := (s.dpitEntries.filter fun p => dieOfPage p.1 / 12 = die / 12).flatMap fun p => (framesOf p.2).filterMap fun f => if f.1 then some f.2 else none
  let used := used ++ (s.mem.farRetired.filter (· / 2 ^ 26 = die / 12)).map (· % 2 ^ 26)
  match (List.range (2 * used.length + 2)).find? fun n => !used.contains n && !s.mem.farDown.contains (farController (die / 12) n) with
  | some n => if n < Config.farFrames then some n else none
  | none => none

/-! ### What every access does to its page and its word -/

/-- The access count of the page rises; a far page that reaches HOTTHR is promoted (spec/03 R99). -/
def State.countAccess (s : State) (dp : Nat) : State :=
  let p := pageOf dp
  if dpitValid (s.dpit p) then
    let n := min (spGet 0 s.mem.counts p + 1) 255
    let s := { s with mem := { s.mem with counts := spSet 0 s.mem.counts p n } }
    if dpitFar (s.dpit p) && !dpitMove (s.dpit p) && s.fw.params.hotthr ≤ n && !s.sched.agenda.any (fun q => q.ev = .tierPromotion p) then
      s.post (.tierPromotion p)
    else s
  else s

/-- The blocks of a page that are in its new frame; 256 stands for a change to one of them during the move. -/
def State.movedBlocks (s : State) (page : Nat) : List Nat := spGet [] s.mem.moved page
def State.setMoved (s : State) (page : Nat) (bs : List Nat) : State := { s with mem := { s.mem with moved := spSet [] s.mem.moved page bs } }
/-- The first change to a page with a clean copy frees the copy; a change to a page in motion leaves no clean copy behind
(spec/03 R100). -/
def State.releaseClean (s : State) (dp : Nat) : State :=
  let e := s.dpit (pageOf dp)
  if dpitMove e && (s.movedBlocks (pageOf dp)).contains (dp % 65536 / 256) then
    if (s.movedBlocks (pageOf dp)).contains 256 then s else s.setMoved (pageOf dp) (s.movedBlocks (pageOf dp) ++ [256])
  else if dpitClean e then s.setDpit (pageOf dp) (mkDpit (dpitValid e) (dpitFar e) false (dpitPin e) (dpitMove e) 0 (dpitFrame e)) else s

/-- A frame that a page of a die holds is retired: a far frame of the die's half, or a near frame, from which the corrections of its bank
count anew (spec/21 R412). -/
def State.retireFrame (s : State) (die : Nat) (far : Bool) (frame : Nat) : State :=
  if far then { s with mem := { s.mem with farRetired := (die / 12 * 2 ^ 26 + frame) :: s.mem.farRetired } }
  else
    let b := 4096 * die + Config.bankOf die frame % 4096
    { s with mem := { s.mem with nearRetired := (die * 2 ^ 20 + frame) :: s.mem.nearRetired }
             fw := { s.fw with lastRetire := spSet 0 s.fw.lastRetire b (spGet 0 s.mem.stkCounts b) } }
/-- The words in error of a page's clean copy are those of the page from now on. -/
def State.takeCopyUpsets (s : State) (page : Nat) : State :=
  let mine (m : Sparse Nat) : Sparse Nat := m.filter fun p => pageOf p.1 = page
  let gone (m : Sparse Nat) : Sparse Nat := (mine m).foldl (fun m p => spSet 0 m p.1 0) m
  { s with mem := { s.mem with
      upsets := (mine s.mem.copyUpsets).foldl (fun m p => spSet 0 m p.1 p.2) (gone s.mem.upsets)
      copyUpsets := gone s.mem.copyUpsets } }
/-- The page of `dp` goes over to its clean copy, and its failing frame is retired (spec/21 R408). -/
def State.switchToClean (s : State) (dp : Nat) : State :=
  let p := pageOf dp
  let e := s.dpit p
  ((s.setDpit p (mkDpit (dpitValid e) (!dpitFar e) false (dpitPin e) (dpitMove e) 0 (dpitOther e))).takeCopyUpsets p).retireFrame (dieOfPage p)
    (dpitFar e) (dpitFrame e)

/-- Count a correction or a detection in `SLECC` (spec/21 R407). -/
def State.countEcc (s : State) (dp : Nat) (ce ue : Nat) : State :=
  let c := spGet (0, 0) s.mem.slecc (homeSlice dp)
  { s with mem := { s.mem with slecc := spSet (0, 0) s.mem.slecc (homeSlice dp) (min (c.1 + ce) (2 ^ 32 - 1), min (c.2 + ue) (2 ^ 16 - 1)) } }

/-- The word's stored form is sound again, and with it its second copy. -/
def State.mendWord (s : State) (dp : Nat) : State := { s with mem := { s.mem with upsets := spSet 0 s.mem.upsets dp 0 } }
def State.clearUpset (s : State) (dp : Nat) : State :=
  { s with mem := { s.mem with upsets := spSet 0 s.mem.upsets dp 0, copyUpsets := spSet 0 s.mem.copyUpsets dp 0 } }

/-- The frame in which the word at `dp` stands: that of its page, or, for a block that has moved, the one it is moving to (R101). -/
def State.frameAt (s : State) (dp : Nat) : Bool × Nat :=
  let e := s.dpit (pageOf dp)
  if dpitMove e && (s.movedBlocks (pageOf dp)).contains (dp % 65536 / 256) then (!dpitFar e, dpitOther e) else (dpitFar e, dpitFrame e)
/-- The memory manager hears of the failing frame of a word (spec/21 R412). -/
def State.reportFrame (s : State) (dp : Nat) : State :=
  let f := (pageOf dp, s.frameAt dp)
  if dpitValid (s.dpit (pageOf dp)) && !s.mem.failing.contains f then
    { s with mem := { s.mem with failing := s.mem.failing ++ [f] } }.post .frameRetirement
  else s

/-- A word of the DPIT, the tables, the polder or the trap queue is read, from its second copy where the first is uncorrectable: the manager
then rebuilds the first on a fresh frame, and the loss of both stops every partition of the die (spec/21 R412; log 32). -/
def State.readStructure (s : State) (dp : Nat) : State :=
  match spGet 0 s.mem.upsets dp with
  | 0 => s
  | 1 => (s.mendWord dp).countEcc dp 1 0
  | _ =>
    let c := spGet 0 s.mem.copyUpsets dp
    let s := (s.clearUpset dp).countEcc dp (if c = 1 then 1 else 0) 1
    if c < 2 then s.reportFrame dp else { s with mem := { s.mem with lostDies := s.mem.lostDies ++ [homeDie dp] } }.post .frameRetirement

/-- The slice decodes the word as it reads it (spec/21 R405, R408): one bit in error is corrected and written back; two are
served from the clean copy or poison the word; more give a free value (log 6). -/
def State.decodeWord (s : State) (dp : Nat) : State :=
  if s.structureWord dp then s.readStructure dp
  else match spGet 0 s.mem.upsets dp with
  | 0 => s
  | 1 => (s.mendWord dp).countEcc dp 1 0
  | 2 =>
    let c := spGet 0 s.mem.copyUpsets dp
    if dpitClean (s.dpit (pageOf dp)) && c < 2 then ((s.countEcc dp c 1).switchToClean dp).clearUpset dp
    else (((s.countEcc dp 0 1).putWord dp 0 (mkTag 7 true)).clearUpset dp).reportFrame dp
  | _ =>
    let n := s.sched.fresh
    let s := { s with sched := { s.sched with fresh := n + 1 } }
    (s.putWord dp (Config.freeWord n) (Config.freeTag n)).clearUpset dp

/-- A slice begins an access to a word: its page's DPIT entry is read, the access is counted, and the word is decoded. -/
def State.open (s : State) (dp : Nat) : State := ((s.readStructure (dpitAddr (pageOf dp))).countAccess dp).decodeWord dp

/-- A slice writes a word and its tag. -/
def State.commit (s : State) (dp : Nat) (v : W64) (t : BitVec 4) : State := ((s.releaseClean dp).putWord dp v t).clearUpset dp

/-- An engine writes the low `k` bits of a word, or poison: a plain word keeps its tag (spec/03 R89); a poisoned one becomes plain and full
when it is written whole, and stays poisoned, with its other bits zero, when it is not (spec/21 R409, R410); a typed word is left. -/
def State.engineCommit (s : State) (w : Nat) (v : W64) (k : Nat) (poison : Bool) : State :=
  let low := v.toNat % 2 ^ k
  if poison then s.commit w 0 (mkTag 7 true)
  else if s.memType w = 7 then s.commit w (wordOfNat low) (mkTag (if k < 64 then 7 else 0) true)
  else s.commit w (wordOfNat (low + (s.memWord w).toNat / 2 ^ k * 2 ^ k)) (s.memTag w)
/-- The word with `w` bytes at offset `o` replaced by the low bytes of `v` (spec/03 R90). -/
def mergeWord (old : W64) (o w : Nat) (v : W64) : W64 :=
  let bs := bytesOfNat old.toNat 8
  wordOfNat (natOfBytes (bs.take o ++ bytesOfNat v.toNat w ++ bs.drop (o + w)))
/-- The `w` bytes at offset `o` of a word, zero- or sign-extended (spec/09 R224). -/
def extractWord (v : W64) (o w : Nat) (signed : Bool) : W64 :=
  let x := v.toNat / 2 ^ (8 * o) % 2 ^ (8 * w)
  if signed then wordOfInt (sext x (8 * w)) else wordOfNat x

/-! ### Addresses (spec/03 R92) -/

def isGlobal (a : W64) : Bool := bit a 63
/-- Bit 52 set, or bits 62:53 non-zero in a local address (spec/20 R394). -/
def malformed (a : W64) : Bool := bit a 52 || (!isGlobal a && slice a 62 53 ≠ 0)
def logicalOf (a : W64) : Nat := slice a 62 53
def vaOf (a : W64) : Nat := slice a 51 0

/-- Where an address of a tenant is served. -/
inductive Served where
  | here
  | peer (phys : Nat)
  /-- No valid remap entry, or a peer marked dead (spec/22 R426). -/
  | dead
deriving DecidableEq, Repr

/-- The dead-peer bit of a physical accelerator (spec/22 R424). -/
def State.peerDead (s : State) (phys : Nat) : Bool := bit (s.fw.dpmap.getD (phys / 64) 0) (phys % 64)

/-- The writable fields of a remap entry (spec/15 Table 15.2), and the physical accelerator that a valid one names. -/
def remapFields (v : W64) : W64 := wordOfNat (bitAt (bit v 63) 63 + slice v 9 0)
def remapPhys (e : W64) : Option Nat := if bit e 63 then some (slice e 9 0) else none
/-- A remap table keeps to spec/15 R332: exactly one valid entry names this module, and no two valid entries name one module. -/
def remapOk (m : Sparse W64) (phys : Nat) : Bool :=
  let vals := m.filterMap fun e => remapPhys e.2
  vals.Nodup && vals.contains phys
/-- A tenant's remap entry (spec/15 R331). -/
def State.remap (s : State) (tenant l : Nat) : Option Nat :=
  match s.tenant? tenant with
  | none => none
  | some t => remapPhys (spGet 0 t.remap l)

def State.served (s : State) (tenant : Nat) (a : W64) : Served :=
  if isGlobal a then
    match s.remap tenant (logicalOf a) with
    | none => .dead
    | some p => if p = s.fw.params.physid then .here else if s.peerDead p then .dead else .peer p
  else .here

/-! ### Translation (spec/03 R95-R97) -/

/-- What a walk finds. -/
inductive Xlat where
  | ok (dp : Nat) (wr : Bool)
  /-- Cause 0x08 (spec/21 R415). -/
  | fault
deriving DecidableEq, Repr

def entryValid (e : W64) : Bool := bit e 63
def entryKind (e : W64) : Nat := slice e 62 61
def entryWr (e : W64) : Bool := bit e 60
/-- The DP address that TARGET names. -/
def entryTarget (e : W64) : Nat := slice e 47 16 * 65536

/-- The page a last-level entry maps. -/
def pageEntry (e : W64) (off : Nat) : Xlat :=
  if dpValid (entryTarget e + off) then .ok (entryTarget e + off) (entryWr e) else .fault

/-- A table word is read by its home slice. -/
def State.entryAt (s : State) (a : Nat) : State × W64 := (s.open a, (s.open a).memWord a)

/-- Level 3: 64 KiB pages. -/
def State.walk3 (s : State) (table va : Nat) : State × Xlat :=
  let (s, e) := s.entryAt (table + 8 * (va / 2 ^ 16 % 32))
  (s, if entryValid e && entryKind e = 1 then pageEntry e (va % 2 ^ 16) else .fault)

/-- Level 2: a next table or a 2 MiB page. -/
def State.walk2 (s : State) (table va : Nat) : State × Xlat :=
  let (s, e) := s.entryAt (table + 8 * (va / 2 ^ 21 % 2 ^ 16))
  if !entryValid e then (s, .fault)
  else match entryKind e with
    | 0 => s.walk3 (entryTarget e) va
    | 2 => (s, if slice e 20 16 = 0 then pageEntry e (va % 2 ^ 21) else .fault)
    | _ => (s, .fault)

/-- The walk of a tenant's translation table (R95, R96). A kind that R415 does not list at its level (a table at level 3, a page at level 1), and
a page of no die, fault as the kinds that it lists do (log 38). -/
def State.walk (s : State) (tenant va : Nat) : State × Xlat :=
  match s.tenant? tenant with
  | none => (s, .fault)
  | some t =>
    let (s, e) := s.entryAt (t.l1 + 8 * (va / 2 ^ 37))
    if entryValid e && entryKind e = 0 then s.walk2 (entryTarget e) va else (s, .fault)

/-- Where a tenant's address leads as its table stands; an agent that writes needs WR (spec/21 R415): the DP address, or the cause. -/
def State.reach (s : State) (tenant : Nat) (a : W64) (write : Bool) : Except Nat Nat :=
  match (s.walk tenant (vaOf a)).2 with
  | .fault => .error 0x08
  | .ok dp wr => if write && !wr then .error 0x09 else .ok dp

/-- The translation slice of a requester's die (spec/03 R95). -/
def xlatSlice (die : Nat) (a : W64) : Nat := 32 * die + vaOf a / 65536 % 32

/-- A hit in a slice's share, moved to the front (least recently used last). -/
def State.tlbHit (s : State) (sl tenant vpn : Nat) : Option (TlbEntry × State) :=
  match takeFirst (fun e : TlbEntry => e.slice = sl && e.tenant = tenant && e.vpn = vpn) s.mem.tlb with
  | none => none
  | some (e, rest) => some (e, { s with mem := { s.mem with tlb := e :: rest } })

/-- Drop the least recently used entries of a slice past its share. -/
def tlbTrim (sl : Nat) : Nat → List TlbEntry → List TlbEntry
  | _, [] => []
  | n, e :: es => if e.slice = sl then (if n = 0 then tlbTrim sl 0 es else e :: tlbTrim sl (n - 1) es) else e :: tlbTrim sl n es

def State.tlbFill (s : State) (e : TlbEntry) : State := { s with mem := { s.mem with tlb := tlbTrim e.slice Config.tlbEntries (e :: s.mem.tlb) } }

/-- Translate at a slice: the cache, or a walk that fills it (spec/03 R95). -/
def State.lookup (s : State) (sl tenant : Nat) (a : W64) : Xlat × State :=
  let vpn := vaOf a / 65536
  match s.tlbHit sl tenant vpn with
  | some (e, s') => (.ok (e.page * 65536 + vaOf a % 65536) e.wr, s')
  | none =>
    match s.walk tenant (vaOf a) with
    | (s, .fault) => (.fault, s)
    | (s, .ok dp wr) => (.ok dp wr, s.tlbFill { slice := sl, tenant, vpn, page := pageOf dp, wr })

/-- An agent on a die names a word by a tenant address: its translation slice gives the DP address, or the cause of a fault (spec/01 R31,
R95; spec/21 R415). -/
def State.xlat (s : State) (die tenant : Nat) (a : W64) (write : Bool) : State × Except Nat Nat :=
  match s.lookup (xlatSlice die a) tenant a with
  | (.fault, s) => (s, .error 0x08)
  | (.ok dp wr, s) => (s, if write && !wr then .error 0x09 else .ok dp)
/-- An agent's read of a word, carried out by the word's home slice: translated, counted, decoded; the data and the tag, or none where nothing
is mapped. -/
def State.look (s : State) (die tenant : Nat) (a : W64) : State × Option (W64 × BitVec 4) :=
  match s.xlat die tenant a false with
  | (s, .error _) => (s, none)
  | (s, .ok dp) => let s := s.open (wordAt dp); (s, some (s.memWord (wordAt dp), s.memTag (wordAt dp)))

end Sys2Proof.Machine
end

