-- ==== Sys2Proof/Machine/Life.lean ====
section
/-!
DEFINITION. The life of work: allotments, starting a context, ending its work, live counts and completion counters
(spec/02 R46-R48, R52-R56, R65; spec/14 R324).
-/

namespace Sys2Proof.Machine

open Sys2Proof

/-! ### Allotments (spec/02 R46, R47) -/

/-- The register blocks that contexts 1 to 15 of a core hold. -/
def State.blocks (s : State) (core : Nat) : List (Nat × Nat) :=
  (List.range' 1 15).filterMap fun i =>
    let c := s.ctx (16 * core + i)
    if c.mode = .idle then none else some (c.base, c.limit)
/-- A block of `n` registers fits at `b`. -/
def fits (bs : List (Nat × Nat)) (b n : Nat) : Bool := b + n ≤ 1024 && bs.all fun p => b + n ≤ p.1 || p.2 ≤ b
/-- The lowest base at or above 32 where `n` contiguous free registers lie. -/
def lowestBase (bs : List (Nat × Nat)) (n : Nat) : Option Nat :=
  (32 :: bs.map (·.2)).foldl (fun best b => if fits bs b n then (match best with | none => some b | some x => some (min x b)) else best) none
/-- The Idle contexts 1 to 15 of a core, in ascending order; of a coupled pair, those Idle on both cores (spec/08 R215). -/
def State.idleCtxs (s : State) (core : Nat) : List Nat :=
  (List.range' 1 15).filter fun i => (s.both (16 * core + i)).all fun g => (s.ctx g).mode = .idle
/-- How many allotments of `n` registers a core could start at once, up to `most` (spec/14 R326). -/
def placesIn (n : Nat) : Nat → List (Nat × Nat) → Nat
  | 0, _ => 0
  | k + 1, bs => match lowestBase bs n with
    | none => 0
    | some b => 1 + placesIn n k ((b, b + n) :: bs)

/-- The identity registers a context inherits (R56). -/
structure Ident where
  unit : BitVec 24
  launch : W32
  o : List W32
  e : List W32
  lid : Option Nat
deriving DecidableEq, Repr

/-- No identity. -/
def Ident.none : Ident := { unit := 0, launch := 0, o := [0, 0, 0, 0], e := [0, 0, 0, 0], lid := Option.none }
/-- The identity of a context. -/
def Ctx.ident (c : Ctx) : Ident := { unit := c.unit, launch := c.launch, o := c.o, e := c.e, lid := c.lid }

/-- Start a context (R48): its block zero and full, seeds in `s0` to `s3`, predicates false, pointers zero, `LINK` zero, and its sticky flags
clear (log 40). -/
def State.startOne (s : State) (gid base n : Nat) (pc : W64) (seeds : List W64) (work : Work) (id : Ident) : State :=
  let (g, s) := s.newGen
  let k := 1024 * coreOf gid + base
  let s := { s with cpu := { s.cpu with
    regs := spSetList 0 (spFill 0 s.cpu.regs k 0 n) k (seeds.take n)
    regEmpty := spFill false s.cpu.regEmpty k false n } }
  s.setCtx gid { Ctx.rest gid with mode := .ready, park := .nothing, pc, base, limit := base + n, unit := id.unit, launch := id.launch, o := id.o
                                   e := id.e, lid := id.lid, work, gen := g }

/-- Start a context of a core; a coupled pair runs it on both cores (spec/08 R215). -/
def State.startCtx (s : State) (gid base n : Nat) (pc : W64) (seeds : List W64) (work : Work) (id : Ident) : State :=
  let s := s.startOne gid base n pc seeds work id
  if (s.core (coreOf gid)).paired && idX (coreOf gid) % 2 = 0 then
    s.startOne (16 * partnerOf (coreOf gid) + ctxNo gid) base n pc seeds work { id with lid := none }
  else s

/-- State is on its way to the core (R69). -/
def State.receives (s : State) (core : Nat) : Bool :=
  s.cpu.cores.any fun k => match k.2.fwd with | some f => !f.installed && f.dst / 2 = core / 2 | none => false
/-- A core can take new work: its die is in service, it holds no forwarding entry, awaits no migrating state, is not halted, and is
not the odd core of a coupled pair (R62, R69, R72, spec/08 R215); a SPAWN that names the odd core finds no room there (log 40). -/
def State.takesWork (s : State) (core : Nat) : Bool :=
  s.coreUsable core && (s.core core).fwd.isNone && !s.receives core && !(s.core core).halted && !((s.core core).paired && idX core % 2 = 1)

/-! ### Records to the host (spec/16 R353, R354) -/

/-- Hold a record until it can be written, `room` of the records at hand being on their way to the ring: the 65th held is discarded, or the
oldest held one of another kind in the place of a partition fault or a fatal record. -/
def holdRecord (room : Nat) (r : EventRec) (t : Tenant) : Tenant :=
  if room + 64 ≤ t.held.length then
    if r.kind = 3 || r.kind = 4 then
      match takeFirst (fun h : EventRec => h.kind ≠ 3 && h.kind ≠ 4) (t.held.drop room) with
      | none => { t with held := t.held ++ [r] }
      | some (_, rest) => { t with held := t.held.take room ++ rest ++ [r], evDropped := t.evDropped + 1 }
    else { t with evDropped := t.evDropped + 1 }
  else { t with held := t.held ++ [r] }

/-- Send a tenant an event record: the firmware column writes it, or holds it, as it finds the ring. -/
def State.event (s : State) (tenant kind : Nat) (ctr statusw : W64) (detail : List W64) : State :=
  (s.updTenant tenant fun t => { t with held := t.held ++ [{ kind, ctr, statusw, detail, after := s.sched.fwTags }] }).post .eventRecordWrite

/-! ### The firewall of the firmware column (spec/01 R26; spec/14 R318; spec/16 Tables 16.10, 16.11; spec/19 R387; log 24) -/

/-- A rule admits a message; a class that carries no DP address is matched as address 0 (spec/16 Tables 16.10, 16.11). -/
def FwRule.admits (r : FwRule) (into : Bool) (cls dp : Nat) : Bool :=
  let a := if [0, 2, 5].contains cls then dp else 0
  r.dirOut = !into && r.cls = cls && decide (r.lo ≤ a) && decide (a ≤ r.hi)
def State.admits (s : State) (into : Bool) (cls dp : Nat) : Bool := s.fw.params.rules.any fun r => r.admits into cls dp
/-- A message of the firmware column is dropped at the boundary, and every tenant hears of it: KIND 0x04. The column lies on die 0. -/
def State.firewallDrop (s : State) : State := s.fw.tenants.foldl (fun s t => s.event t.num 0x04 0 0 [(s.die 0).fatal, 0]) s
/-- A message of the column crosses the boundary, and `f` is what it does; or it is dropped there. -/
def State.cross (s : State) (into : Bool) (cls dp : Nat) (f : State → State) : State := if s.admits into cls dp then f s else s.firewallDrop
/-- The column writes, or tells a slice to write, at a DP address: its store goes out, and the acknowledgement comes in. -/
def State.fwStore (s : State) (dp : Nat) (f : State → State) : State := s.cross false 0 dp fun s => (f s).cross true 1 0 id
/-- The word's DP address; none where the tenant maps nothing there. -/
def State.dpFor (s : State) (tenant : Nat) (a : W64) : Option Nat := match s.reach tenant a false with | .ok dp => some dp | .error _ => none
/-- The firmware column's request to a word passes: class 0, or class 2 for a sluice request. -/
def State.letsOut (s : State) (r : Request) : Bool :=
  match s.dpFor r.tenant r.va with
  | some dp => s.admits false (match r.kind with | .load .. | .store _ => 0 | _ => 2) dp
  | none => true
/-- The firmware column sends a request. -/
def State.fwPost (s : State) (r : Request) : State := if s.letsOut r then s.post (.translationLookup r) else s.firewallDrop
/-- The firmware column reads the word at a DP address: the load goes out, the home slice performs it, the reply comes in; none where a message
is dropped. -/
def State.fwOpen (s : State) (dp : Nat) : State × Option (W64 × BitVec 4) :=
  if !s.admits false 0 dp then (s.firewallDrop, none)
  else
    let s := s.open (wordAt dp)
    if !s.admits true 1 0 then (s.firewallDrop, none) else (s, some (s.memWord (wordAt dp), s.memTag (wordAt dp)))
/-- The same of a tenant's word; none too where nothing is mapped. -/
def State.fwLook (s : State) (tenant : Nat) (a : W64) : State × Option (W64 × BitVec 4) :=
  match s.xlat 0 tenant a false with
  | (s, .error _) => (s, none)
  | (s, .ok dp) => s.fwOpen dp
/-- What the column makes of a word: its data, or 0 where it gets no reply (log 24). -/
def State.fwRead (s : State) (tenant : Nat) (a : W64) : State × W64 := let (s, x) := s.fwLook tenant a; (s, (x.map (·.1)).getD 0)
/-- `n` words from an address. -/
def State.fwWords (s : State) (tenant : Nat) (a : W64) : Nat → State × List W64
  | 0 => (s, [])
  | n + 1 =>
    let (s, v) := s.fwRead tenant a
    let (s, vs) := s.fwWords tenant (a + 8) n
    (s, v :: vs)

/-! ### Requests of the firmware column and the launch units -/

/-- A request of the firmware column: served in the order of one tag, after the tenant's earlier stores. -/
def fwRequest (tag tenant : Nat) (kind : ReqKind) (va data : W64) : Request :=
  { kind, tenant, va, dp := 0, join := none, data, cmp := 0, ord := 0b10#2, scope := 5#4, src := .fw tag none, use := .ack, die := 0, core := 0
    pc := 0, next := 0, rid := 0, early := false, fence := true, hops := 0 }

/-- A request of the firmware column (none), or of a die's launch unit. -/
def State.agentPost (s : State) (unit : Option Nat) (r : Request) : State :=
  match unit with
  | none => s.fwPost r
  | some die => s.post (.translationLookup { r with die, src := match r.src with | .fw t _ => .fw t (some die) | o => o })
/-- A completion counter advances once, after its status word is written (R52), by the firmware column or by a die's launch unit; a dispatch
pass follows (spec/14 R324). -/
def State.advanceBy (s : State) (unit : Option Nat) (tenant : Nat) (ctr status : W64) : State :=
  let (tag, s) := s.newTag
  ((s.agentPost unit (fwRequest tag tenant (.store 8) (ctr + 8) status)).agentPost unit (fwRequest tag tenant .ctrAdd ctr 1)).post (.dispatchPass tenant)
def State.advanceCounter (s : State) (tenant : Nat) (ctr status : W64) : State := s.advanceBy none tenant ctr status

/-- A counter without status word advances once, by a launch unit: a launch's retire counter (R52). -/
def State.advanceRetire (s : State) (die tenant : Nat) (ctr : W64) : State :=
  let (tag, s) := s.newTag
  (s.agentPost (some die) (fwRequest tag tenant .ctrAdd ctr 1)).post (.dispatchPass tenant)

/-- A firmware wait: CTR.WAIT at threshold 1 and module scope (spec/14 R438). -/
def State.fwWaitFor (s : State) (tenant : Nat) (ctr : W64) (w : FwWait) : State :=
  s.fwPost { fwRequest 0 tenant .ctrWait ctr 1 with ord := 0b01#2, src := .fwWait w, fence := false }

/-- The status word of Table 2.7. -/
def statusWord (retired : Nat) (part reaped cancelled : Bool) : W64 :=
  wordOfNat (min retired 0xFFFFFFFF * 2 ^ 32 + bitAt part 2 + bitAt reaped 1 + bitAt cancelled 0)

/-! ### Parked requests that leave their lists (R58; spec/04 R114, R121, R126) -/

/-- A parked request leaves its list; a freed wait-list entry lets the tenant's oldest polder entry at the slice move (R126). -/
def State.unpark (s : State) (p : Parked) : State :=
  let s := { s with sluice := { s.sluice with parked := s.sluice.parked.filter fun q => !(q.slice = p.slice && q.seq = p.seq && q.dp = p.dp) } }
  if !p.polder && s.sluice.parked.any (fun q => q.slice = p.slice && q.polder && q.req.tenant = p.req.tenant) then
    { s with sluice := { s.sluice with moves := s.sluice.moves ++ [(p.slice, p.req.tenant)] } }.post .polderMove
  else s
/-- A parked request is taken away: WAITING of its condition falls; the ticket of an LK.ACQ stays on the list, marked abandoned (R114). -/
def State.withdraw (s : State) (p : Parked) : State :=
  match p.req.kind with
  | .lkAcq =>
    let hit (q : Parked) : Bool := q.slice = p.slice && q.seq = p.seq && q.dp = p.dp
    { s with sluice := { s.sluice with parked := mapWhere hit (fun q => { q with abandoned := true }) s.sluice.parked } }
  | .cndWait =>
    let s := s.unpark p
    let v := s.memWord p.dp
    if s.memType p.dp = 5 && slice v 31 0 ≠ 0 then s.commit p.dp (v - 1) (s.memTag p.dp) else s
  | _ => s.unpark p
/-- Every parked request that a condition picks is withdrawn. -/
def State.withdrawAll (s : State) (f : Parked → Bool) : State := (s.sluice.parked.filter fun p => !p.abandoned && f p).foldl State.withdraw s
/-- Requests that may be parked in other modules are withdrawn there. -/
def State.withdrawAway (s : State) (f : Request → Bool) : State :=
  let hit (w : Nat × Nat × Request) : Bool := w.2.2.kind.parks && f w.2.2
  let s := (s.fab.waiting.filter hit).foldl (fun s w => s.emit (.withdraw (s.stationFor w.2.2.va) w.2.1 w.2.2)) s
  { s with fab := { s.fab with waiting := s.fab.waiting.filter fun w => !hit w } }

/-! ### Commands that wait for requests to end (spec/03 R97, spec/15 R334) -/

/-- Whether the requests that a command waits for have ended: those in flight or parked on its pages, and those at a station. -/
def State.settled (s : State) (x : Settling) : Bool :=
  (x.pages = [] || !((s.sluice.parked.any fun p => !p.abandoned && x.pages.contains (pageOf p.dp)) ||
      s.sched.agenda.any fun p => match dpOf p.ev with | some dp => x.pages.contains (pageOf dp) | none => false)) &&
    (x.reqs.all fun r => !s.fab.waiting.any fun w => w.2.2 = r) && x.ops.all fun o => !s.eng.ops.any fun p => p.id = o
/-- Commands whose requests have all ended advance their counters, and their pages and frames are free. -/
def State.settle (s : State) : State :=
  match s.fw.settling with
  | [] => s
  | xs =>
    let done := xs.filter s.settled
    let s := { s with fw := { s.fw with settling := xs.filter (fun x => !s.settled x)
                                        pages := s.fw.pages.filter fun p => !done.any fun x => x.pages.contains p } }
    let s := (s.sluice.parked.filter fun p => p.abandoned && done.any fun x => x.pages.contains (pageOf p.dp)).foldl State.unpark s
    let s := { s with mem := { s.mem with icache := s.mem.icache.filter fun e => !done.any fun x => x.pages.contains (pageOf e.dp) } }
    let s := (done.flatMap (·.pages)).foldl (fun s p => s.fwStore (dpitAddr p) fun s => (s.setDpit p 0).setMoved p []) s
    done.foldl (fun s x => s.advanceCounter x.tenant x.ctr 0) s
/-- The requests of cancelled work are withdrawn, here and in other modules; those on their way will not park (R58). -/
def State.withdrawOf (s : State) (gens : List Nat) : State :=
  let mine (r : Request) : Bool := match r.src.gen? with | some n => gens.contains n | none => false
  let s := (s.withdrawAll fun p => mine p.req).withdrawAway mine
  { s with sluice := { s.sluice with cancelled := gens ++ s.sluice.cancelled } }

/-! ### Dispatch passes (spec/14 R324) -/

/-- The launch unit reports that a context of a tenant's partition has returned to Idle: a notice of class 3, which the firewall may drop
(log 24). -/
def State.idleReport (s : State) (tenant : Nat) : State :=
  match s.tenant? tenant with
  | none => s
  | some t => s.cross true 3 0 fun s =>
    match t.lastIdle with
    | some l =>
      if s.sched.now < l + 1024 then
        if t.deferred then s
        else (s.updTenant tenant fun t => { t with deferred := true }).postIn (l + 1024 - s.sched.now) .idleReportDeferralEnd
      else (s.updTenant tenant fun t => { t with lastIdle := some s.sched.now }).post (.dispatchPass tenant)
    | none => (s.updTenant tenant fun t => { t with lastIdle := some s.sched.now }).post (.dispatchPass tenant)

/-! ### Launches (spec/02 R52, R56) -/

def Launch.word (l : Launch) (off : Nat) : W64 := l.words.getD (off / 8) 0
def Launch.lctr (l : Launch) : W64 := l.word 0x08
def Launch.n (l : Launch) : Nat := (l.word 0x18).toNat
def Launch.rctr (l : Launch) : Bool := bit (l.word 0) 21
/-- Every unit of every share has been placed. -/
def Launch.placed (l : Launch) : Bool := l.shares.all fun sh => sh.count ≤ sh.next

/-- Units of a launch that no core has taken yet wait at some die (R62). -/
def State.unitsWait (s : State) (lid : Nat) : Bool := s.dies.any fun d => d.2.waiting.any fun (p : UnitPacket) => p.lid = lid
/-- A launch whose last live unit is gone, with every unit placed or cancelled, advances its counter: by the launch unit of a die, or, with none,
by the firmware column. -/
def State.checkLaunch (s : State) (unit : Option Nat) (lid : Nat) : State :=
  match s.launch? lid with
  | none => s
  | some l =>
    if l.state = .released && l.live = 0 && ((l.placed && !s.unitsWait lid) || l.cancelled) then
      let s := s.updLaunch lid fun l => { l with state := .advanced }
      let s := s.advanceBy unit l.tenant l.lctr (statusWord l.retired l.partialDone l.reaped l.cancelled)
      if l.word 0x70 = 0 then s else s.post (.firmwareCounterWaitGrant (.launchOf lid (l.word 0x70)))
    else s

/-- One more live unit, child, recruit or task (R56). -/
def State.liveUp (s : State) (lid : Option Nat) (n : Nat) : State :=
  match lid with
  | none => s
  | some l => s.updLaunch l fun x => { x with live := x.live + n }

/-- How work ends. -/
inductive EndKind where
  | retired | reaped | cancelled
deriving DecidableEq, Repr

/-- One live unit, child, recruit or task of a die fewer; a unit advances the retire counter and is counted (R52, R55, Table 2.7). -/
def State.liveDown (s : State) (die : Nat) (c : Ctx) (how : EndKind) : State :=
  match c.lid with
  | none => s
  | some lid =>
    let unit := c.work = .unit
    let s := s.updLaunch lid fun x => { x with
      live := x.live - 1
      retired := x.retired + (if unit && how = .retired then 1 else 0)
      reaped := x.reaped || (unit && how = .reaped) }
    let s := match s.launch? lid with
      | none => s
      | some l => if unit && l.rctr then s.advanceRetire die l.tenant (l.lctr + 16) else s
    s.checkLaunch (some die) lid

/-- The pending triggers of a context fire at once, their parked waits withdrawn (spec/11 R277). -/
def State.fireTriggers (s : State) (gid gen : Nat) : State :=
  let mine := s.eng.ops.filter fun o => o.gid = gid && o.gen = gen && o.pending
  let ids := mine.map (·.id)
  let isTrig (r : Request) : Bool := match r.use with | .trigger op _ => ids.contains op | _ => false
  let s := if ids = [] then s else ((s.sluice.parked.filter fun p => isTrig p.req).foldl State.unpark s).withdrawAway isTrig
  mine.foldl (fun s o => (s.updOp o.id fun o => { o with state := .trigGranted }).post (.triggerFire o.id)) s

/-- What follows when a context has returned to Idle: waiting tasks and units, and the report to the firmware column. -/
def State.nowIdle (s : State) (gid : Nat) : State :=
  let core := coreOf gid
  let s := if (s.core core).tasks = [] then s else s.post (.taskStart core)
  let again (p : UnitPacket) : Bool := match s.launch? p.lid with | some l => l.replaced.contains p.unit | none => false
  let due := s.dies.filter fun d => d.2.waiting ≠ [] && (d.1 = dieOf core || d.2.waiting.any again)
  let s := s.postAll (due.map fun d => .placementRetry d.1)
  s.idleReport (s.tenantOf core)

/-- Messages of a context that await their partners are forgotten, and with them the operations that never left the core
(spec/19 R385). -/
def State.dropUnsent (s : State) (gid : Nat) : State :=
  let core := coreOf gid
  let unsent := (s.core core).pairOut.filterMap fun x => if x.2.1 = ctxNo gid then (match x.2.2 with | .engine _ op => some op | _ => none) else none
  let s := s.updCore core fun k => { k with pairOut := k.pairOut.filter fun (x : Nat × Nat × Outbound) => x.2.1 ≠ ctxNo gid }
  if unsent = [] then s
  else
    let s := { s with
      eng := { s.eng with ops := s.eng.ops.filter fun o => !unsent.contains o.id }
      cpu := { s.cpu with abEmpty := (s.cpu.abEmpty.map fun (p : Nat × List Nat) => (p.1, p.2.filter fun o => !unsent.contains o)).filter fun p => p.2 ≠ [] } }
    s.postAll ((List.range 16).map fun i => .parkedInstructionResume (16 * core + i))

/-- A context without work: its pointers, predicates, flags and identity keep their values until it is started again (R41, R48). -/
def Ctx.idled (c : Ctx) : Ctx :=
  { c with mode := .idle, park := .nothing, base := 0, limit := 0, work := .none, lid := none, gen := 0, stop := .none, late := [], rot := 0, again := [] }
/-- Take a context's work away and return it to Idle, its registers freed. -/
def State.toIdle (s : State) (gid : Nat) : State :=
  let c := s.ctx gid
  let s := { s with cpu := { s.cpu with regEmpty := spFill false s.cpu.regEmpty (1024 * coreOf gid + c.base) false c.count } }
  (s.setCtx gid c.idled).nowIdle gid

/-- The deposit owed to the caller of a task that ends (spec/02 R65, spec/08 R214). -/
def resultFor (c : Ctx) (v : W64) : Option Reply :=
  match c.work with
  | .task g gen d => some { gid := g, gen, rid := 0, use := .value d, data := v, ok := true, next := 0 }
  | _ => none
/-- The caller of a reaped task gets 0, from the even core of a coupled pair. -/
def State.answerReaped (s : State) (gid : Nat) : State :=
  match resultFor (s.ctx gid) 0 with
  | some m => if (s.core (coreOf gid)).paired && idX (coreOf gid) % 2 = 1 then s else s.post (.deposit m)
  | none => s

/-- End a context's work: by RET or JOIN, by REAP, or by a cancel (R55, R58, R65; spec/08 R214). The messages that a context has sent before it
retires still wait for their partners (spec/19 R385). The join record of a fork that loses a participant stays in use (log 38). -/
def State.endWork (s : State) (gid : Nat) (how : EndKind) : State :=
  let c := s.ctx gid
  let s := match how with
    | .retired => s
    | .reaped => ((s.answerReaped gid).fireTriggers gid c.gen).dropUnsent gid
    | .cancelled => (s.fireTriggers gid c.gen).dropUnsent gid
  (s.liveDown (dieOf (coreOf gid)) c how).toIdle gid

/-- Some register of the context awaits a deposit (R55). -/
def State.awaitsDeposit (s : State) (gid : Nat) : Bool := (List.range (s.ctx gid).count).any fun n => s.emptyAt gid n

end Sys2Proof.Machine
end

