-- ==== Sys2Proof/Machine/Fork.lean ====
section
/-!
DEFINITION. Cores that take work, in the orders of spec/02 R61, R63 and R66; the effect of FORK (spec/08 R207).
-/

namespace Sys2Proof.Machine

open Sys2Proof

/-- The core whose coordinates a context reads: work on a coupled pair runs at the even core's (spec/08 R215). -/
def State.seenCore (s : State) (gid : Nat) : Nat :=
  let core := coreOf gid
  if (s.core core).paired && !isCtx0 gid && idX core % 2 = 1 then partnerOf core else core
/-- The cores whose local buffers an engine writes for a core. -/
def State.bothCores (s : State) (core : Nat) : List Nat := if (s.core core).paired then [core, partnerOf core] else [core]

/-- The core lies in the tenant's partition, from which a hot die or one with a failed link is removed (spec/19 R388, R390). -/
def State.inPartition (s : State) (tenant core : Nat) : Bool :=
  s.coreUsable core && core < Config.coresPerDie * Config.dies &&
    (match s.tenant? tenant with | some t => t.clusters.contains (clusterOf core) | none => false)

/-- The cores of a die at distance `r` from (x, y), in ascending y, then x (spec/02 R61). -/
def ring (die x y r : Nat) : List Nat :=
  (List.range 68).flatMap fun (j : Nat) =>
    let dy := Int.natAbs ((j : Int) - y)
    if r < dy then []
    else
      let dx := r - dy
      let left := if dx ≤ x then [coreAt die (x - dx) j] else []
      let right := if dx ≠ 0 && x + dx < 64 then [coreAt die (x + dx) j] else []
      left ++ right

/-! ### FORK (R207; spec/02 R66) -/

/-- The cores that a FORK searches: its own, its cluster, its quadrant, its die. -/
def forkTree (core : Nat) : List Nat :=
  let cl := (coresOfCluster (clusterOf core)).filter (· ≠ core)
  let die := (List.range Config.coresPerDie).map (dieOf core * Config.coresPerDie + ·)
  let rest := die.filter fun c => clusterOf c ≠ clusterOf core
  core :: cl ++ rest.filter (fun c => quadrantOf c = quadrantOf core) ++ rest.filter fun c => quadrantOf c ≠ quadrantOf core

/-- Recruit up to `want` contexts of one core; the recruits come with their bases, newest first. -/
def State.recruitFrom (s : State) (core regs : Nat) (pc : W64) (id : Ident) : Nat → List Nat → State × List Nat
  | 0, got => (s, got)
  | n + 1, got =>
    match s.idleCtxs core, lowestBase (s.blocks core) regs with
    | i :: _, some b => (s.startCtx (16 * core + i) b regs pc [] .participant id).recruitFrom core regs pc id n ((16 * core + i) :: got)
    | _, _ => (s, got)
/-- Recruit along a list of cores, up to `want` in all; a core with a forwarding entry, or to which state migrates, gives none (log 38). -/
def State.recruit (s : State) (tenant regs want : Nat) (pc : W64) (id : Ident) : List Nat → List Nat → State × List Nat
  | [], got => (s, got)
  | c :: cs, got =>
    if want ≤ got.length then (s, got)
    else if s.inPartition tenant c && s.takesWork c then
      let (s, got) := s.recruitFrom c regs pc id (want - got.length) got
      s.recruit tenant regs want pc id cs got
    else s.recruit tenant regs want pc id cs got

/-- The first free join record of a die's pool. -/
def State.freeRecord (s : State) (die : Nat) : Option Nat :=
  let n := leastFree ((s.die die).joins.map (·.1))
  if n < Config.joinRecords then some n else none
/-- A join handle (spec/02 Table 2.8). -/
def joinHandle (die rec : Nat) : W64 := wordOfNat (0x3F * 2 ^ 56 + die * 2 ^ 16 + rec)

/-- First index and count of participant `i` of `p` (R66). -/
def forkRange (t p i : Nat) : Nat × Nat :=
  let q := t / p
  let r := t % p
  (i * q + min i r, if i < r then q + 1 else q)

/-- Set register `n` of a context, on both cores of a coupled pair (spec/08 R215). -/
def State.setBoth (s : State) (gid n : Nat) (v : W64) : State := (s.both gid).foldl (fun s g => s.setRegAt g n v) s

/-- A participant's `s0` to `s2`. -/
def State.giveRange (s : State) (gid t p i : Nat) (h : W64) : State :=
  let (first, n) := forkRange t p i
  ((s.setBoth gid 0 (wordOfNat first)).setBoth gid 1 (wordOfNat n)).setBoth gid 2 h

/-- The forker goes on at the body. -/
def State.forkGo (s : State) (gid : Nat) (link body : W64) : State :=
  (s.both gid).foldl (fun s g => s.updCtx g fun c => { c with link, pc := body, mode := .ready, park := .nothing }) s

/-- The forker alone runs the whole range. -/
def State.forkAlone (s : State) (gid t : Nat) (body cont : W64) : State :=
  (((s.setBoth gid 0 0).setBoth gid 1 (wordOfNat t)).setBoth gid 2 0).forkGo gid cont body

/-- A FORK of `want` recruits or fewer: a record, recruits, ranges; with `want` = 0, or no record or context, the forker alone. -/
def State.forkOut (s : State) (gid t want : Nat) (body cont : W64) : State :=
  let core := coreOf gid
  let die := dieOf core
  match s.freeRecord die with
  | none => s.forkAlone gid t body cont
  | some rec =>
    let c := s.ctx gid
    let saved := (List.range' 4 4).map (s.regAt gid)
    let (s', got) := s.recruit (s.tenantOf core) c.count want body c.ident (forkTree core) []
    match got.reverse with
    | [] => s.forkAlone gid t body cont
    | gs =>
      let p := gs.length + 1
      let h := joinHandle die rec
      let s := s'.liveUp c.lid gs.length
      let s := s.updDie die fun d => { d with joins := spSet none d.joins rec (some { value := wordOfNat p, pc := cont, saved, link := c.link
                                                                                      tenant := s.tenantOf core, work := c.work }) }
      let s := (gs.zipIdx 1).foldl (fun s g => s.giveRange g.1 t p g.2 h) s
      (s.giveRange gid t p 0 h).forkGo gid 0 body

end Sys2Proof.Machine
end

