-- ==== Sys2Proof/Machine/Ops.lean ====
section
/-!
DEFINITION. The operations that meanings share: checks in the order of spec/20 Table 20.2, taking a trap and returning
from one (spec/19 R375-R381), requests and their replies, event records.
-/

namespace Sys2Proof.Machine

open Sys2Proof

/-! ### Records to the host (spec/16 R354) -/

/-- The release of the completion that a record reports has been performed (spec/16 R354). -/
def State.recordReady (s : State) (tenant : Nat) (r : EventRec) : Bool :=
  s.sched.agenda.all fun p => match fwRequestOf p.ev with | some q => !(q.1.tenant = tenant && decide (q.2 < r.after)) | none => true

/-! ### The trap queue (spec/19 R380, R381) -/

/-- The class of a cause (Table 19.1) when a context other than context 0 raises it. -/
def causeClass (cause : Nat) : Nat :=
  match cause with
  | 0x08 => 0
  | 0x0D => 1
  | 0x07 | 0x12 | 0x13 | 0x14 | 0x20 => 3
  | _ => 2

/-- Records written and not read. -/
def Die.held (d : Die) : Nat := (d.w - d.r).toNat
/-- The queue has room for a record of a class. -/
def Die.room (d : Die) (cls : Nat) : Bool := d.held < (if cls = 3 then Config.trapSlots else Config.trapOpen)

/-- The eight words of a record in its slot (Table 19.3; Table 19.5 for a gang stop). -/
def TrapRec.slotWords (t : TrapRec) : List W64 :=
  wordOfNat (t.tenant % 16 * 2 ^ 60 + t.ctx * 2 ^ 56 + t.cls * 2 ^ 54 + bitAt t.async 53 + bitAt t.late 52 + t.swcode % 256 * 2 ^ 40 +
      t.cause % 256 * 2 ^ 32 + t.core) ::
    (if t.words = [] then [t.pc, t.addr, t.orig, t.iter, wordOfNat (t.unit % 2 ^ 24 * 2 ^ 32 + t.launch % 2 ^ 32), t.cyc] else t.words) ++ [t.seq]
/-- The words of a slot of a die's trap queue. -/
def trapWords (die : Nat) (n : W64) : List Nat := (List.range 8).map fun i => trapSlot die n + 8 * i
/-- Write a record, and with it the slot's words; the firmware column tells the tenant of a translation fault (spec/21 R415). -/
def State.writeRecord (s : State) (die : Nat) (t : TrapRec) : State :=
  let s := (trapWords die (s.die die).w).foldl State.clearUpset s
  let s := s.updDie die fun d => { d with traps := d.traps ++ [{ t with seq := d.w }], w := d.w + 1 }
  if t.cause = 0x08 then s.event t.tenant 0x09 0 0 [t.addr, wordOfNat (t.core + t.ctx * 2 ^ 32)] else s

/-- `FATALSTAT` (Table 19.4). -/
def fatalWord (t : TrapRec) : W64 := wordOfNat (2 ^ 63 + t.cause * 2 ^ 40 + t.tenant % 16 * 2 ^ 36 + t.core)

/-- A class 3 record is written while the berm has room, else latched (R381). -/
def State.bermRecord (s : State) (die : Nat) (t : TrapRec) : State :=
  if (s.die die).room 3 then s.writeRecord die t
  else
    let s := if bit (s.die die).fatal 63 then s else s.updDie die fun d => { d with fatal := fatalWord t }
    s.event t.tenant 0x04 0 0 [(s.die die).fatal, wordOfNat die]
/-- A class 3 record, which stops the partition (R381, R382). -/
def State.fatalRecord (s : State) (die : Nat) (t : TrapRec) : State := (s.bermRecord die t).post (.gangStop t.tenant t.cause die)

/-- A record of a lower class, or an asynchronous one: it waits at its core while the queue has no room (R380). -/
def State.asyncRecord (s : State) (die : Nat) (t : TrapRec) : State :=
  if (s.die die).room t.cls then s.writeRecord die t
  else (s.updCore t.core fun c => { c with pending := c.pending ++ [{ trap := t, die, written := false }] }).post .trapRecordWrite

/-- A record with nothing filled in. -/
def TrapRec.blank : TrapRec :=
  { tenant := 0, ctx := 0, cls := 2, async := true, late := false, swcode := 0, cause := 0, core := 0, pc := 0, addr := 0, orig := 0, iter := 0
    unit := 0, launch := 0, cyc := 0, sstat := 0, gen := 0, words := [], seq := 0 }

/-- A class 3 record that no instruction raised: asynchronous, of no context; what the specification does not state of it is free (log 6). -/
def State.openRecord (s : State) (tenant cause : Nat) : TrapRec × State :=
  let n := s.sched.fresh
  let w (k : Nat) : W64 := Config.freeWord (n + k)
  ({ TrapRec.blank with
      tenant, cls := 3, cause, core := slice (w 0) 16 0, pc := w 1, addr := w 2, orig := w 3, iter := w 4, unit := slice (w 5) 23 0
      launch := slice (w 5) 63 32, cyc := w 6 },
   { s with sched := { s.sched with fresh := n + 7 } })

/-- The record of an engine operation (spec/20 R403). -/
def State.engineFault (s : State) (o : EngOp) (cause sw : Nat) (addr : W64) : State :=
  s.asyncRecord (dieOf o.core) { TrapRec.blank with tenant := o.tenant, swcode := sw, cause, core := o.core, pc := o.pc, addr, orig := o.orig
                                                    iter := o.iter, unit := o.unit, launch := o.launch, cyc := s.cyclesOf o.core }

/-! ### Residual addresses (spec/13 R311, R312) -/

def isResidual (pc : W64) : Bool := bit pc 63
def resDie (pc : W64) : Nat := slice pc 52 48
def resEntry (pc : W64) : Nat := slice pc 40 32
def resOffset (pc : W64) : Nat := slice pc 15 0
/-- The residual address of an offset. -/
def residualPc (die entry off : Nat) : W64 := wordOfNat (2 ^ 63 + die * 2 ^ 48 + entry * 2 ^ 32 + off)
/-- The entry that a residual address names. -/
def State.specEntry (s : State) (pc : W64) : Option SpecEntry :=
  (s.die (resDie pc)).spec.find? fun e => e.index = resEntry pc && !e.generic
/-- The back-map record of a residual PC. -/
def State.backMap (s : State) (pc : W64) : Option BackMap :=
  match s.specEntry pc with
  | none => none
  | some e => e.map.find? fun b => b.off = resOffset pc
/-- `TRAPITER` (Table 13.5). -/
def iterWord (its : List Nat) : W64 :=
  wordOfNat (its.length * 2 ^ 56 + (its.zipIdx.map fun p => p.1 * 2 ^ (8 * p.2)).foldl (· + ·) 0)
/-- `TRAPORIG` and `TRAPITER` of a PC. -/
def State.origin (s : State) (pc : W64) : W64 × W64 :=
  if isResidual pc then
    match s.backMap pc with
    | some b => (b.orig, iterWord b.iters)
    | none => (pc, 0)
  else (pc, 0)

/-! ### Taking a trap (spec/19 R375-R377) -/

/-- `TRAPCAUSE` (Table 19.2). -/
def causeWord (t : TrapRec) : W64 :=
  wordOfNat (t.sstat * 2 ^ 32 + t.ctx * 2 ^ 28 + t.cls * 2 ^ 26 + bitAt t.late 25 + t.swcode * 2 ^ 8 + t.cause)

/-- Context 0 of a core enters the handler for a trap, or, with `HANDLER` = 0, the trapped context is reaped. -/
def State.enterHandler (s : State) (core : Nat) (t : TrapRec) : State :=
  let g0 := 16 * core
  if (s.core core).handler = 0 then
    let c := s.ctx (g0 + t.ctx)
    if c.mode = .stopped && c.gen = t.gen then s.endWork (g0 + t.ctx) .reaped else s
  else
    let c0 := s.ctx g0
    let s := s.updCore core fun k => { k with
      savedPc := c0.pc, savedMode := c0.mode, savedPark := c0.park, savedAgain := c0.again, trapGen := t.gen
      trapPc := t.pc, trapCause := causeWord t, trapAddr := t.addr, trapOrig := t.orig, trapIter := t.iter }
    s.setCtx g0 { c0 with pc := (s.core core).handler, inh := true, mode := .ready, park := .nothing, again := [] }

/-- A record that enters no handler (spec/19 R374, R385). -/
def TrapRec.noEntry (t : TrapRec) : Bool := t.async || t.cause = 0x11
/-- Pending traps of a core whose records are written enter in order, while no handler runs (R375). -/
def State.enterPending (s : State) (core : Nat) : Nat → State
  | 0 => s
  | n + 1 =>
    if (s.ctx (16 * core)).inh then s
    else match takeFirst (fun p : PendingTrap => !p.trap.noEntry) (s.core core).pending with
      | none => s
      | some (p, rest) =>
        if !p.written then s
        else ((s.updCore core fun k => { k with pending := rest }).enterHandler core p.trap).enterPending core n

/-- A trap of context `gid` at `pc` (R375): the context stops, the record is written or waits, and context 0 enters the
handler or the trap is pending. A trap of context 0 is of class 3 (R374). `trapPc` is what `TRAPPC` receives. -/
def State.takeTrap (s : State) (gid cause sw : Nat) (addr trapPc orig iter : W64) (late : Bool) : State :=
  let core := coreOf gid
  let c := s.ctx gid
  let t : TrapRec := { tenant := s.tenantOf core, ctx := ctxNo gid, cls := if isCtx0 gid then 3 else causeClass cause, async := false, late
                       swcode := sw, cause, core, pc := trapPc, addr, orig, iter, unit := c.unit.toNat, launch := c.launch.toNat
                       cyc := s.cyclesOf core, sstat := c.flags.toNat, gen := c.gen, words := [], seq := 0 }
  let s := s.setCtx gid { c with mode := .stopped, stop := .none }
  if t.cls = 3 then s.fatalRecord (dieOf core) t
  else
    let room := (s.die (dieOf core)).room t.cls
    let s := if room then s.writeRecord (dieOf core) t else s.post .trapRecordWrite
    let s := s.updCore core fun k => { k with pending := k.pending ++ [{ trap := t, die := dieOf core, written := room }] }
    s.enterPending core (s.core core).pending.length

/-- The instruction in the slot raises a trap (R375, R376); poison that a coupled pair fetches is a mismatch (spec/21 R411). -/
def State.raiseSw (s : State) (cause sw : Nat) (addr trapPc : W64) : State :=
  let c := s.cur
  let (o, it) := s.origin c.pc
  if cause = 0x0A && (s.core s.here).paired && !isCtx0 s.gid then s.post (.checkedPairMismatch s.gid)
  else (s.updCur fun c => { c with park := .nothing }).takeTrap s.gid cause sw addr trapPc o it false
def State.raise (s : State) (cause : Nat) (addr : W64) : State := s.raiseSw cause 0 addr s.cur.pc
/-- `TRAPADDR` for the causes that hold word 0 of the instruction. -/
def State.word0 (s : State) : W64 := wordOfNat s.sched.slot.w0.toNat

/-! ### Returning from a trap (spec/19 R378; spec/08 R213, R217) -/

/-- The context hands out its granted triggers again (spec/11 R277). -/
def State.fireGranted (s : State) (gid : Nat) : State :=
  s.postAll ((s.eng.ops.filter fun o => o.gid = gid && o.gen = (s.ctx gid).gen && o.state = .trigGranted).map fun o => .triggerFire o.id)

/-- A Stopped context returns to the state it held when it stopped. -/
def State.resume (s : State) (gid : Nat) : State :=
  let c := s.ctx gid
  let s := match c.park with
    | .done n => s.setCtx gid { c with mode := .ready, park := .nothing, pc := n }
    | .nothing => s.setCtx gid { c with mode := .ready }
    | .register _ | .line _ | .stores | .deposits => (s.setCtx gid { c with mode := .parked }).post (.parkedInstructionResume gid)
    | _ => s.setCtx gid { c with mode := .parked }
  s.fireGranted gid

/-- Context 0 goes back to the point that trap entry recorded. -/
def State.leaveHandler (s : State) (core : Nat) : State :=
  let g0 := 16 * core
  let k := s.core core
  let c := { s.ctx g0 with inh := false, pc := k.savedPc, mode := k.savedMode, park := k.savedPark, again := k.savedAgain }
  match k.savedPark with
  | .done n => s.setCtx g0 { c with mode := .ready, park := .nothing, pc := n }
  | .register _ | .line _ | .stores => (s.setCtx g0 c).post (.parkedInstructionResume g0)
  | _ => s.setCtx g0 c

/-- Return from the handler of a core: context CTX gets its saved status and goes on at `TRAPPC`, unless its work was taken
away; then the next pending trap enters. -/
def State.returnFromTrap (s : State) (core : Nat) : State :=
  let k := s.core core
  let gid := 16 * core + slice k.trapCause 31 28
  let c := s.ctx gid
  let s :=
    if c.mode = .stopped && c.gen = k.trapGen && !isCtx0 gid then
      let s := s.setCtx gid { c with flags := BitVec.ofNat 5 (slice k.trapCause 36 32) }
      if bit k.trapCause 25 && k.trapPc = c.pc && c.park ≠ .nothing then s.resume gid
      else (s.updCtx gid fun c => { c with pc := k.trapPc, mode := .ready, park := .nothing, again := [] }).fireGranted gid
    else s
  let s := s.leaveHandler core
  s.enterPending core (s.core core).pending.length

/-! ### Checks and effects (spec/20 R393) -/

/-- What one check of Table 20.2 says. -/
inductive Check where
  | ok
  /-- The predicate is false: the instruction ends with no effect (R177). -/
  | skip
  | trap (cause : Nat) (addr : W64)
  | park (p : Park)
deriving DecidableEq, Repr

/-- The first check that does not pass. -/
def Check.first : List Check → Check
  | [] => .ok
  | .ok :: cs => Check.first cs
  | c :: _ => c

/-- A trap unless a condition holds. -/
def Check.need (b : Bool) (cause : Nat) (addr : W64) : Check := if b then .ok else .trap cause addr

/-- The PC moves past the instruction (inside REP it stays). -/
def State.next (s : State) : State := s.updCur fun c => { c with pc := c.pc + wordOfNat s.sched.slot.len }

/-- The words kept by a context that parks on a register or a line (spec/20 R393). -/
def Park.keeps (ws : List W32) : Park → List W32
  | .register _ | .line _ => ws
  | _ => []
/-- The context in the slot parks. -/
def State.parkOn (s : State) (p : Park) : State := s.updCur fun c => { c with mode := .parked, park := p, again := p.keeps s.sched.slot.words }

/-- An instruction makes its checks in order, and then has its effect, or takes the trap, parks or is passed over. -/
def State.perform (s : State) (cs : List Check) (effect : State → State) : Host.Outcome State Fault Refusal :=
  .next (match Check.first cs with
    | .ok => effect s
    | .skip => s.next
    | .trap cause addr => s.raise cause addr
    | .park p => s.parkOn p)

/-! ### Requests from contexts (spec/09 R220-R222) -/

/-- Two messages of a checked pair are equal bit for bit (spec/19 R385). -/
def sameRequest (r q : Request) : Bool :=
  r.kind = q.kind && r.tenant = q.tenant && r.va = q.va && r.join = q.join && r.data = q.data && r.cmp = q.cmp && r.ord = q.ord && r.scope = q.scope &&
    r.pc = q.pc
def sameTask (t u : Task) : Bool := t.pc = u.pc && t.s0 = u.s0 && t.s1 = u.s1 && t.s2 = u.s2 && t.s3 = u.s3 && t.d = u.d
/-- Two operations of the pair's engines ask for the same. -/
def sameOp (o p : EngOp) : Bool := o.work = p.work && o.pc = p.pc && o.scope = p.scope && o.bindVa = p.bindVa && o.trigReg = p.trigReg
def State.sameOut (s : State) : Outbound → Outbound → Bool
  | .request r, .request q => sameRequest r q
  | .spawn m, .spawn n => m.place = n.place && m.cores = n.cores && m.regs = n.regs && m.q = n.q && m.next = n.next && sameTask m.task n.task
  | .task c t, .task d u => c = d && sameTask t u
  | .cancel _ _ c, .cancel _ _ d => c = d
  | .fork _ t w b c, .fork _ t' w' b' c' => t = t' && w = w' && b = b' && c = c'
  | .engine _ o, .engine _ p => (match s.op? o, s.op? p with | some x, some y => sameOp x y | _, _ => false)
  | .result m, .result n => m.gid = n.gid && m.use = n.use && m.data = n.data
  | _, _ => false

/-- Send a request on its way: to its translation slice, or to a station; a JOIN straight to the record's slice (R68). -/
def State.route (s : State) (r : Request) : State :=
  match r.join with
  | some _ => s.post (.sluiceCtrAdd r)
  | none =>
    match s.served r.tenant r.va with
    | .here => s.post (.translationLookup r)
    | .peer _ => s.post (.stationHandoff r)
    | .dead => s.post (.faultReply r 0x0C r.va)

/-- A collective operation's stream, where it has one. -/
def vsnOf : OpWork → Option Nat
  | .collPut v _ _ | .collGet v _ _ _ _ | .collMark v _ => some v
  | _ => none
/-- The state of a core has come to another, in at most `n` moves (spec/02 R73). -/
def State.movesTo (s : State) (dst : Nat) : Nat → Nat → Bool
  | 0, _ => false
  | n + 1, c => match (s.core c).fwd with | some f => f.dst = dst || s.movesTo dst n f.dst | none => false
/-- The router that serves a core for a stream: the even core's of a coupled pair, or that of the core which the state has moved from
and where the stream is open (spec/15 R343). -/
def State.routerOf (s : State) (core vsn : Nat) : Nat :=
  let c := if (s.core core).paired && idX core % 2 = 1 then partnerOf core else core
  if s.eng.streams.any (fun st => st.core = c && st.vsn = vsn) then c
  else match s.eng.streams.find? (fun st => st.vsn = vsn && s.movesTo c s.cpu.cores.length st.core) with
    | some st => st.core
    | none => c
/-- The router looks at its core's own operations again. -/
def State.kick (s : State) (op : Nat) : State :=
  match s.op? op with
  | none => s
  | some o =>
    match vsnOf o.work with
    | some v => s.post (.routerSlotFreeNotice (s.routerOf o.core v) v 0xFFF 4 false)
    | none => s

/-- The binding of an operation is known. -/
def State.bind (s : State) (op : Nat) (b : Binding) : State :=
  (s.updOp op fun o => if o.binding = .pending then { o with binding := b } else o).kick op

/-- An engine takes an operation over: its number is asked for first where it is bound (spec/11 R265). -/
def State.handOver (s : State) (op : Nat) : State :=
  match s.op? op with
  | none => s
  | some o =>
    let s := if o.binding = .pending then s.post (.numberRequest op) else s
    match o.work with
    | .copy .. => if o.pending then s else s.post (.copyOperation op [])
    | .prefTier .. => s.post (.prefTierOperation op)
    | .layout .. => s.post (.layoutOperation op [])
    | .mzero .. => s.post (.matrixMzeroPerform op)
    | .mma .. => s.post (.matrixMmaPerform op)
    | .drain .. => s.post (.matrixDrainPerform op)
    | .collOpen .. => s.post (.routerInstall op)
    | _ => s

/-- One copy of a message leaves. -/
def State.deliver (s : State) : Outbound → State
  | .request r => s.route r
  | .spawn m => s.post (.spawnRequest m)
  | .task core t => s.post (.callatTaskArrival core t)
  | .cancel gid gen c => s.post (.cancelAcceptance gid gen c)
  | .fork gid t want body cont => s.forkOut gid t want body cont
  | .engine _ op => s.handOver op
  | .result m => s.post (.deposit m)

/-- The operation that both cores of a pair asked for goes on under one number, their AB lines with it. -/
def State.mergeOps (s : State) (keep drop : Nat) : State :=
  ({ s with cpu := { s.cpu with abEmpty := s.cpu.abEmpty.map fun (p : Nat × List Nat) => (p.1, p.2.map fun o => if o = drop then keep else o) } }).dropOp drop

/-- A coupled core's message waits for its partner's, up to 1,024 cycles; equal messages leave as one, the even core's (spec/19 R385). -/
def State.sendPaired (s : State) (gid : Nat) (o : Outbound) : State :=
  let core := coreOf gid
  let p := partnerOf core
  match takeFirst (fun x : Nat × Nat × Outbound => x.2.1 = ctxNo gid) (s.core p).pairOut with
  | some ((since, _, q), rest) =>
    if s.sched.now ≤ since + 1024 && s.sameOut o q then
      let s := s.updCore p fun k => { k with pairOut := rest }
      let (even, odd) := if idX core % 2 = 0 then (o, q) else (q, o)
      (match even, odd with | .engine _ a, .engine _ b => s.mergeOps a b | _, _ => s).deliver even
    else (s.updCore core fun k => { k with pairOut := k.pairOut ++ [(s.sched.now, ctxNo gid, o)] }).post (.checkedPairMismatch gid)
  | none => (s.updCore core fun k => { k with pairOut := k.pairOut ++ [(s.sched.now, ctxNo gid, o)] }).postIn 1025 .checkedPairTimeout

/-- A context sends a message out of its core. Context 0 is no piece of work of a pair, so its messages leave alone (log 10). -/
def State.sendOut (s : State) (gid : Nat) (o : Outbound) : State :=
  if (s.core (coreOf gid)).paired && !isCtx0 gid then s.sendPaired gid o else s.deliver o
def State.send (s : State) (r : Request) : State :=
  match r.src with
  | .ctx gid _ => s.sendOut gid (.request r)
  | _ => s.route r

/-- The registers a request marks empty (R222, R235). -/
def regsOfUse : Use → List Nat
  | .reg d | .regFlags d | .value d => [d]
  | .pair d => [d, d + 1]
  | .trigger _ d => [d]
  | _ => []

/-- The context in the slot issues a request and parks for its reply; the PC moves on when the reply comes. -/
def State.issueRequest (s : State) (kind : ReqKind) (va data cmp : W64) (ord : BitVec 2) (scope : BitVec 4) (use : Use)
    (join : Option Nat) : State :=
  let c := s.cur
  let (rid, s) := s.newRid
  let r : Request := { kind, tenant := s.tenantOf s.here, va, dp := 0, join, data, cmp, ord, scope, src := .ctx s.gid c.gen, use
                       die := dieOf s.here, core := s.here, pc := c.pc, next := c.pc + wordOfNat s.sched.slot.len, rid, early := false
                       fence := false, hops := 0 }
  let s := (regsOfUse use).foldl (fun s d => s.markEmpty s.gid d) s
  (s.parkOn (.reply rid)).send r

/-! ### Replies (spec/02 R49; spec/20 R395; spec/22 R418) -/

/-- The deposit that answers a context's request. -/
def replyTo (r : Request) (gid gen : Nat) (v : W64) (ok : Bool) : Reply :=
  { gid, gen, rid := r.rid, use := r.use, data := v, ok, next := r.next }

/-- The reason that an engine's record gives (spec/21 Table 21.6; spec/22 Table 22.4). -/
def reasonOf (cause : Nat) : Nat :=
  match cause with
  | 0x08 => 0x21
  | 0x09 => 0x22
  | 0x0A => 0x20
  | 0x0C => 0x52
  | _ => 0x40
/-- The record of a notice or arrival that is discarded (spec/22 R421, R422). -/
def State.noticeRecord (s : State) (n : Notice) (sw : Nat) : State :=
  s.asyncRecord (if n.remote then homeDie n.dp else dieOf n.core)
    { TrapRec.blank with tenant := n.tenant, swcode := sw, cause := 0x10, core := n.core, pc := n.pc, addr := n.va, orig := n.orig, iter := n.iter,
                         unit := n.unit, launch := n.launch, cyc := s.cyclesOf n.core }

/-- The request that carries a notice or an arrival to its word, as number `rid` (R266, R267; spec/03 R95). -/
def carryNotice (n : Notice) (rid : Nat) (kind : ReqKind) : Request :=
  { kind, tenant := n.tenant, va := n.va, dp := 0, join := none, data := n.num, cmp := 0, ord := if n.relaxed then 0b00#2 else 0b10#2, scope := n.scope
    src := .silent, use := .ack, die := dieOf n.core, core := n.core, pc := n.pc, next := 0, rid, early := false, fence := false, hops := 0
    notice := some n }

/-- The withdrawal of a dead member, when its phase has completed (spec/22 R429). -/
def State.withdrawNow (s : State) (r : Request) : State := s.post (.sluiceBarWdraw { r with kind := .barWdraw, data := 0, src := .silent, ord := 0b10#2 })
/-- A performed request is answered. -/
def State.answer (s : State) (r : Request) (v : W64) (ok : Bool) : State :=
  match r.src with
  | .ctx gid gen =>
    if r.early then s
    else if r.use = .ack then s.post (.storeAcknowledgement r)
    else s.post (.deposit (replyTo r gid gen v ok))
  | .op _ => s.post (.storeAcknowledgement r)
  | .remote q => s.emit (.reply q v ok)
  | .fw _ none => s.cross true 1 0 id
  | .fw _ (some _) | .silent => s
  | .fwWait w => s.post (.firmwareCounterWaitGrant w)
  | .withdrawal => s.withdrawNow r

/-- The trigger wait of a triggered copy is refused (spec/22 R420): a deposit of 0; the copy unit refuses the copy. -/
def State.refuseTrigger (s : State) (r : Request) (gid gen op : Nat) : State :=
  let s := s.updOp op fun o => { o with state := .trigRefused, binding := match o.binding with | .refused sw => .refused sw | _ => .refused 0x51 }
  s.post (.deposit (replyTo r gid gen 0 false))

/-- A wait of the firmware column has been refused: the word is no counter yet (spec/14 R321), and the column asks again (log 37). The refusal,
and the new request, cross its boundary. -/
def State.askAgain (s : State) (r : Request) : State :=
  s.cross true 1 0 fun s => if s.letsOut r then s.postIn 1024 (.translationLookup { r with dp := 0, hops := 0 }) else s.firewallDrop

/-- A refused request: a fault reply, or a late fault notice for a store already acknowledged (R395); a refusal carried back
to a remote requester; for an engine, its operation's fault, a notice's record among them (spec/22 R418; log 41). -/
def State.refuse (s : State) (r : Request) (cause : Nat) (addr : W64) : State :=
  match r.src with
  | .ctx gid gen =>
    match r.use with
    | .trigger op _ => s.refuseTrigger r gid gen op
    | _ => if r.early then s.post (.lateFaultNotice r) else s.post (.faultReply r cause addr)
  | .op id => (match s.op? id with
      | none => s
      | some o => s.engineFault o 0x10 0x40 addr)
  | .remote q => s.emit (.refusal q cause addr)
  | .fw _ none => s.cross true 1 0 id
  | .fw _ (some _) | .withdrawal => s
  | .silent => (match r.notice with | some n => s.noticeRecord n (reasonOf cause) | none => s)
  | .fwWait _ => s.askAgain r

/-! ### Work that retires (spec/02 R55, R65; spec/08 R214) -/

/-- A context retires: a task's return value goes to its caller, from a coupled pair as one message. -/
def State.retire (s : State) (gid : Nat) : State :=
  (match resultFor (s.ctx gid) (s.regAt gid 0) with
  | some m => s.sendOut gid (.result m)
  | none => s).endWork gid .retired

/-- The tenant that a wait of the firmware column is for. -/
def State.waitTenant (s : State) : FwWait → Option Nat
  | .pred lid _ | .launchOf lid _ => (s.launch? lid).map (·.tenant)
  | .prevPhase t _ | .graphOf t _ _ | .phaseOf t _ _ => some t

end Sys2Proof.Machine
end

