-- ==== Sys2Proof/Machine/Operands.lean ====
section
/-!
DEFINITION. Operand forms and the checks on them, in the terms of spec/20 Table 20.2: registers named, sources full,
addresses aligned, targets, local buffers, destinations full, peers.
-/

namespace Sys2Proof.Machine

open Sys2Proof

/-- What a meaning answers. -/
abbrev Result := Host.Outcome State Fault Refusal

/-! ### Registers -/

/-- The register that supplies B, or none where a literal replaces it (spec/07 R172). -/
def regB (b : BitVec 7) : Option W64 → List (BitVec 7)
  | none => [b]
  | some _ => []

/-- The value of B: the literal, or the register. -/
def State.opB (s : State) (b : BitVec 7) : Option W64 → W64
  | none => s.reg b
  | some l => l

/-- Step 3: every register named lies below the allotment. -/
def State.chkAllot (s : State) (rs : List Nat) : Check := Check.need (rs.all fun r => decide (r < s.cur.count)) 0x02 s.word0

/-- Step 6: every source register is full; the first empty one parks the context. -/
def State.chkFull (s : State) (rs : List Nat) : Check :=
  match rs.find? fun r => s.emptyAt s.gid r with
  | none => .ok
  | some r => .park (.register (s.regKey s.gid r))

/-- Step 10: every register that is written or marked empty is full. -/
def State.chkDest (s : State) (rs : List Nat) : Check := Check.need (rs.all fun r => !s.emptyAt s.gid r) 0x03 s.word0

/-- Register numbers of fields. -/
def nums (rs : List (BitVec 7)) : List Nat := rs.map BitVec.toNat

/-- Step 5: the predicate of an extended instruction; a parked instruction that issues again keeps what it decided (R393). -/
def State.chkPred (s : State) (q : BitVec 3) (neg : Bool) : Check :=
  if s.sched.slot.again || s.cur.pred q != neg then .ok else .skip

/-- Step 9: an operand value. -/
def State.chkValue (s : State) (good : Bool) : Check := Check.need good 0x01 s.word0

/-- The form of most scalar instructions: sources and destinations, then an effect on registers. -/
def State.registerOp (s : State) (srcs dsts : List (BitVec 7)) (effect : State → State) : Result :=
  s.perform [s.chkAllot (nums (dsts ++ srcs)), s.chkFull (nums srcs), s.chkDest (nums dsts)] fun s => (effect s).next

/-! ### Addresses and targets (spec/20 R394) -/

/-- Step 7: a global address, aligned to `w` bytes. -/
def chkAddr (a : W64) (w : Nat) : Check := Check.need (!malformed a && a.toNat % w = 0) 0x04 a
/-- Step 7: a target PC, a local address. -/
def chkTarget (a : W64) : Check := Check.need (a.toNat % 4 = 0 && !bit a 63 && !malformed a) 0x04 a
/-- Step 7: a child or body PC; one with bit 63 set is judged where it is fetched (R396). -/
def chkPc (a : W64) : Check := Check.need (a.toNat % 4 = 0 && (bit a 63 || !malformed a)) 0x04 a
/-- Step 11: the address names no peer marked dead. -/
def State.chkPeer (s : State) (a : W64) : Check := Check.need (s.served (s.tenantOf s.here) a ≠ .dead) 0x0C a

/-! ### Local buffers (spec/03 R77-R81) -/

/-- Step 8: `n` bytes at an AB offset lie in the AB. -/
def chkAb (off n : Nat) : Check := Check.need (off + n ≤ Config.abBytes) 0x05 (wordOfNat off)
/-- Step 12: the AB lines touched are full. -/
def State.chkLines (s : State) (ls : List Nat) : Check :=
  match s.emptyLine s.here ls with
  | none => .ok
  | some l => .park (.line l)

/-! ### PCs that registers receive (spec/08 R198) -/

/-- The generic PC of the instruction in the slot. -/
def State.genericPc (s : State) : W64 := (s.origin s.cur.pc).1

/-- Go to a PC. -/
def State.jump (s : State) (pc : W64) : State := s.updCur fun c => { c with pc }
/-- `LINK` := PC + 4, in generic terms. -/
def State.link (s : State) : State := let pc := s.genericPc; s.updCur fun c => { c with link := pc + 4 }
/-- PC + 4·sext(OFF, w). -/
def relTarget (pc : W64) {w : Nat} (off : BitVec w) : W64 := pc + wordOfInt (4 * sext off.toNat w)

/-- An immediate, sign-extended, or the literal used whole (spec/07 R173). -/
def immValue (imm : BitVec 8) : Option W64 → W64
  | none => wordOfInt (sext imm.toNat 8)
  | some l => l

/-- The low 32 bits, as a natural number. -/
def low32 (x : W64) : Nat := x.toNat % 2 ^ 32

end Sys2Proof.Machine
end

