-- ==== Sys2Proof/Machine/Engine.lean ====
section
/-!
DEFINITION. What engine operations share: their issue, the AB lines they fill, their completion and their faults
(spec/03 R81; spec/11 R265-R269, R282; spec/20 R403; spec/22 R420).
-/

namespace Sys2Proof.Machine

open Sys2Proof

/-! ### Issue (R268) -/

/-- The outstanding operations of a context; a coupled pair's operation is both contexts' once its messages have met. -/
def State.opsOf (s : State) (gid : Nat) : List EngOp :=
  let core := coreOf gid
  let waiting (id : Nat) : Bool := (s.core (partnerOf core)).pairOut.any fun x => match x.2.2 with | .engine _ op => op = id | _ => false
  s.eng.ops.filter fun o => o.gid = gid || ((s.both gid).contains o.gid && !waiting o.id)

/-- The context in the slot issues an operation: its operands are captured, its destination lines emptied, and it leaves the
core (R268). `trig` is the register of a trigger's grant. -/
def State.newOp (s : State) (work : OpWork) (scope : BitVec 4) (bindVa : W64) (binding : Binding) (lines : List Nat) (trig : Option Nat) : Nat × State :=
  let c := s.cur
  let (o, it) := s.origin c.pc
  let id := s.eng.nextOp
  let (rid, s) := s.newRid
  let op : EngOp := { id, work, gid := s.gid, gen := c.gen, core := s.here, abCore := s.here, tenant := s.tenantOf s.here, pc := c.pc, orig := o
                      iter := it, unit := c.unit.toNat, launch := c.launch.toNat, scope, bindVa, binding
                      state := if trig.isSome then .trigWait else .issued, trigReg := trig.getD 0, lines, got := none, valid := 0, loss := false
                      broken := false, rid, cycle := s.sched.now, arrived := false }
  (id, { s with eng := { s.eng with ops := s.eng.ops ++ [op], nextOp := id + 1 } }.emptyLines s.here id lines)

/-- Issue an operation that is bound to the word at `bindVa`. -/
def State.issueOp (s : State) (work : OpWork) (scope : BitVec 4) (bindVa : W64) (lines : List Nat) : State :=
  let (id, s) := s.newOp work scope bindVa .pending lines none
  s.sendOut s.gid (.engine s.gid id)

/-! ### AB lines (spec/03 R81) -/

/-- The contexts that wait for a line are re-examined. -/
def State.wakeLine (s : State) (core line : Nat) : State :=
  if s.lineHolders core line ≠ [] then s
  else s.postAll (((List.range 16).filter fun i => (s.ctx (16 * core + i)).park = .line line).map fun i => .parkedInstructionResume (16 * core + i))

/-- An operation has written its part of a line. -/
def State.releaseLine (s : State) (core op line : Nat) : State :=
  (s.setLine core line ((s.lineHolders core line).filter fun x => x ≠ op && x ≠ 0)).wakeLine core line
/-- All its lines, on both cores of a coupled pair. -/
def State.releaseLines (s : State) (o : EngOp) : State :=
  (s.bothCores o.abCore).foldl (fun s c => o.lines.foldl (fun s l => s.releaseLine c o.id l) s) s

/-- Bytes written into the AB that an operation fills. -/
def State.writeAb (s : State) (core off : Nat) (bs : List Byte) : State := (s.bothCores core).foldl (fun s c => s.setAb c off bs) s

/-! ### Other modules (spec/15 R330; spec/22 R425) -/

/-- The parts into which the 256-byte blocks of memory cut `n` words from an address on: the first word's number, and how many there are. -/
def stripes (a : W64) (n : Nat) : List (Nat × Nat) :=
  let o := vaOf a / 8 % 32
  (List.range (if n = 0 then 0 else (o + n + 31) / 32)).map fun k => (32 * k - o, min n (32 * (k + 1) - o) - (32 * k - o))
/-- Each part leaves by the station of its block. -/
def State.emitWords (s : State) (phys op : Nat) (a : W64) (ws : List (Option W64)) : State :=
  (stripes a ws.length).foldl (fun s p =>
    let b := a + wordOfNat (8 * p.1)
    s.emit (.words (s.stationFor b) phys op b ((ws.drop p.1).take p.2))) s
def State.emitFetch (s : State) (phys op : Nat) (a : W64) (n : Nat) : State :=
  (stripes a n).foldl (fun s p => let b := a + wordOfNat (8 * p.1); s.emit (.fetch (s.stationFor b) phys op b p.2)) s

/-- An operation waits for another module: for `n` acknowledgements, or, with 0, for words. -/
def State.awaitPeer (s : State) (op phys n : Nat) (addr : W64) : State :=
  let s := s.updOp op fun o => { o with state := .remote n }
  { s with fab := { s.fab with opPeers := s.fab.opPeers.filter (fun (x : Nat × Nat × Nat × W64) => x.2.1 ≠ op) ++ [(s.sched.now, op, phys, addr)] } }.postIn s.fw.params.peertmo .peerTimeout

/-! ### Completion (spec/11 R266, R267) -/

/-- The notice or arrival of an operation: a release, but for the barrier arrival of a tier prefetch, which is relaxed (spec/05 R140, R144). -/
def noticeFor (o : EngOp) (num : W64) : Notice :=
  { tenant := o.tenant, va := o.bindVa, dp := 0, num, scope := o.scope, core := o.core, pc := o.pc, orig := o.orig, iter := o.iter, unit := o.unit
    launch := o.launch, relaxed := (match o.work, o.binding with | .prefTier .., .barrier => true | _, _ => false), remote := false }
/-- A completed operation sends its notice or its arrival. -/
def State.notify (s : State) (o : EngOp) : State :=
  let (rid, s) := s.newRid
  match o.binding with
  | .counter num => s.route (carryNotice (noticeFor o num) rid .notice)
  | .barrier => s.route (carryNotice (noticeFor o 0) rid .arrive)
  | _ => s

/-- An operation has ended: it leaves the list, with its lines full. -/
def State.endOp (s : State) (o : EngOp) : State := (s.releaseLines o).dropOp o.id
/-- It completes: its lines are full, its notice or arrival is sent. -/
def State.complete (s : State) (o : EngOp) : State := (s.endOp o).notify o
/-- One of the two ends of a drain has come, its last row or its flag write: with the second it completes (spec/10 R261). -/
def State.drainEnd (s : State) (id : Nat) : State :=
  match s.op? id with
  | none => s
  | some o => if o.state = .half then s.complete o else s.updOp id fun o => { o with state := .half }
/-- An operation has made its last write: its lines are full, and it completes; a drain once its flags are written too. -/
def State.finishOp (s : State) (o : EngOp) : State :=
  match o.work with
  | .drain .. => (s.releaseLines o).drainEnd o.id
  | _ => s.complete o
/-- The operation's AB lies on a core whose state has moved: fills go by the forwarding entry (spec/02 R72). -/
def State.fillsMove (s : State) (o : EngOp) : Bool :=
  match (s.core o.abCore).fwd with
  | some f => f.installed && f.owedOps.contains o.id
  | none => false
/-- ADDR of an operation's record: of a LAYOUT the descriptor's address, whatever failed (spec/20 R403; spec/21 R414). -/
def recordAddr (o : EngOp) (addr : W64) : W64 :=
  match o.work with
  | .layout _ _ _ _ desc => desc
  | _ => addr
/-- It fails: its lines are filled with their bytes as they stand, where they have moved to if they have, a record is written, no notice is sent
(spec/20 R403, spec/21 R414, spec/22 R420). -/
def State.failOp (s : State) (o : EngOp) (sw : Nat) (addr : W64) : State :=
  (if s.fillsMove o then
    (s.updOp o.id fun o => { o with binding := .refused sw, state := .ended }).post (.forwardedItem o.abCore (.fill o.id 0 [] true))
  else s.endOp o).engineFault o 0x10 sw (recordAddr o addr)

/-- The bytes of a line, as a fill. -/
def fillItem (op : Nat) (last : Bool) (w : Nat × List Byte) : Item :=
  .fill op (w.1 / 128) (w.2.zipIdx.map fun p => (w.1 + p.2, p.1)) last
/-- The items of an operation's writes, the last one marked. -/
def fillItems (op : Nat) : List (Nat × List Byte) → List Item
  | [] => [.fill op 0 [] true]
  | [w] => [fillItem op true w]
  | w :: ws => fillItem op false w :: fillItems op ws

/-- The operation writes AB rows and completes. -/
def State.deliverAb (s : State) (o : EngOp) (ws : List (Nat × List Byte)) : State :=
  if s.fillsMove o then s.postAll ((fillItems o.id ws).map fun i => .forwardedItem o.abCore i)
  else (ws.foldl (fun s w => s.writeAb o.abCore w.1 w.2) s).finishOp o

/-- An engine takes an operation over: its binding may have been refused (spec/22 R420); one that is over is let be. -/
def State.takeOp (s : State) (op : Nat) (f : EngOp → State → State) : State :=
  match s.op? op with
  | none => s
  | some o =>
    if o.state = .ended then s
    else match o.binding with
    | .refused sw => s.failOp o sw o.bindVa
    | _ => f o s

end Sys2Proof.Machine
end

