-- ==== Sys2Proof/Machine/Replies.lean ====
section
/-!
DEFINITION. What comes back to a core: deposits, acknowledgements, fault replies, late fault notices (spec/02 R42, R49-R51;
spec/05 R131; spec/20 R395; spec/08 R208, R213).
-/

namespace Sys2Proof.Machine

open Sys2Proof

/-! ### Where it goes -/

/-- The incarnation has moved away from its core (spec/02 R72). -/
def State.movedAway (s : State) (gid gen : Nat) : Bool :=
  match (s.core (coreOf gid)).fwd with
  | some f => f.moved.any (·.1 = gen)
  | none => false
/-- A message for an incarnation of a context: forwarded, dropped and counted by a halted core (spec/19 R383), discarded where the work is gone,
or applied. -/
def State.toContext (s : State) (gid gen : Nat) (item : Item) (f : State → State) : State :=
  if s.movedAway gid gen then s.post (.forwardedItem (coreOf gid) item)
  else if (s.core (coreOf gid)).halted then s.updCore (coreOf gid) fun k => { k with dropped := k.dropped + 1 }
  else if (s.ctx gid).gen ≠ gen then s
  else f s

/-! ### Requests handed to a station (spec/15 R334) -/

/-- A request has its reply. -/
def State.stationDone (s : State) (src : Origin) (rid : Nat) : State :=
  match s.fab.waiting with
  | [] => s
  | ws => State.settle { s with fab := { s.fab with waiting := ws.filter fun w => !(w.2.2.src = src && w.2.2.rid = rid) } }

/-! ### Rejoining (spec/02 R42) -/

/-- The event that a context awaits has come: it goes on at `next`, at once or, if Stopped, when it is resumed, or, in transit, when
its state is installed; context 0 in its handler goes on there when it leaves it. -/
def State.rejoin (s : State) (g : Nat) (awaits : Park → Bool) (next : W64) : State :=
  let c := s.ctx g
  if c.mode = .parked && awaits c.park then s.setCtx g { c with mode := .ready, park := .nothing, pc := next }
  else if c.mode = .stopped && awaits c.park then s.setCtx g { c with park := .done next }
  else if c.mode = .inTransit && awaits c.park then s.setCtx g { c with park := .nothing, pc := next }
  else if isCtx0 g && c.inh && awaits (s.core (coreOf g)).savedPark then s.updCore (coreOf g) fun k => { k with savedPark := .done next }
  else s

/-- The reply that a context waits for; the mirror of a coupled pair's context waits under a number of its own. -/
def awaitsReply (rid : Nat) (own : Bool) : Park → Bool
  | .reply n => !own || n = rid
  | _ => false

/-- Where a context that waits for an acceptance goes on. -/
def awaitsAnswer : Park → Option W64
  | .callat n | .cancel n => some n
  | _ => none
/-- The target's acceptance (R64), or the launch unit's (spec/08 R209), has come. -/
def State.rejoinAnswer (s : State) (g : Nat) : State :=
  let c := s.ctx g
  match awaitsAnswer (if isCtx0 g && c.inh then (s.core (coreOf g)).savedPark else c.park) with
  | some n => s.rejoin g (fun q => (awaitsAnswer q).isSome) n
  | none => s
/-- An acceptance: a reply to no request. -/
def acceptReply (gid gen : Nat) : Reply := { gid, gen, rid := 0, use := .ack, data := 0, ok := true, next := 0 }

/-! ### Registers (R49, R50) -/

/-- A deposit fills a register; what waits for it is re-examined. -/
def State.fillReg (s : State) (g d : Nat) (v : W64) : State :=
  let k := s.regKey g d
  let s := (s.setPhys k v).setEmpty k false
  let c := s.ctx g
  if c.park = .register k || (isCtx0 g && (s.core (coreOf g)).savedPark = .register k) then s.post (.parkedInstructionResume g)
  else if c.park = .deposits && !s.awaitsDeposit g then s.post (.parkedInstructionResume g)
  else s

/-! ### BLK and JOIN -/

/-- The context waits, where it waited for the reply `old`, for that of `rid` from now on: itself, or context 0 once it leaves its handler. -/
def State.awaitNow (s : State) (g old rid : Nat) (own : Bool) : State :=
  let c := s.ctx g
  if awaitsReply old own c.park then s.setCtx g { c with park := .reply rid } else s.updCore (coreOf g) fun k => { k with savedPark := .reply rid }

/-- The store of BLK's word (spec/08 R204): never acknowledged early. -/
def State.blkStoreAt (s : State) (g : Nat) (m : Reply) (d a b : Nat) : State :=
  let core := coreOf g
  let (rid, s) := s.newRid
  (s.awaitNow g m.rid rid (decide (g = m.gid))).sendOut g (.request
    { kind := .store 8, tenant := s.tenantOf core, va := s.regAt g d, dp := 0, join := none, data := m.data, cmp := 0, ord := 0, scope := 0
      src := .ctx g (s.ctx g).gen, use := .blkStore d a b, die := dieOf core, core, pc := m.next, next := m.next, rid, early := false, fence := false
      hops := 0 })
/-- Both cores of a coupled pair send it (spec/19 R385). -/
def State.blkStore (s : State) (m : Reply) (d a b : Nat) : State := (s.both m.gid).foldl (fun s g => s.blkStoreAt g m d a b) s
/-- BLK's word has been stored: the registers move on to the next word. -/
def State.blkNext (s : State) (g d a b : Nat) : State :=
  ((s.setRegAt g d (s.regAt g d + 8)).setRegAt g a (s.regAt g a + 8)).setRegAt g b (s.regAt g b - 1)

/-- The last participant of a fork goes on as the unit (R67): `s4` to `s7`, `LINK` and the work come from the record. -/
def State.joinLast (s : State) (g rid : Nat) (own : Bool) (j : JoinRec) : State :=
  let s := ((List.range' 4 4).zip j.saved).foldl (fun s p => s.setRegAt g p.1 p.2) s
  (s.updCtx g fun c => { c with link := j.link, work := j.work }).rejoin g (awaitsReply rid own) j.pc
/-- A trap at the JOIN that the context waits on. -/
def State.joinTrap (s : State) (g cause : Nat) (w0 : W64) : State :=
  let c := s.ctx g
  let (o, it) := s.origin c.pc
  (s.setCtx g { c with park := .nothing }).takeTrap g cause 0 w0 c.pc o it false
/-- A participant that is not the last retires (R67); context 0 has no work to end. -/
def State.joinOther (s : State) (g rid : Nat) (own : Bool) (w0 : W64) : State :=
  let c := s.ctx g
  if !awaitsReply rid own c.park then s
  else if isCtx0 g then s.joinTrap g 0x01 w0
  else (s.setCtx g { c with park := .deposits, work := .participant }).post (.parkedInstructionResume g)
def State.setJoin (s : State) (key : Nat) (j : Option JoinRec) : State :=
  s.updDie (key / 4096) fun d => { d with joins := spSet none d.joins (key % 4096) j }
/-- The reply to JOIN, which holds the counter's value before it: the last participant frees the record; one of whose `s4` to
`s7` awaits a deposit collides there, and its JOIN has not taken place (log 12). -/
def State.joinReply (s : State) (m : Reply) (key : Nat) (w0 : W64) : State :=
  let gs := s.both m.gid
  let own (g : Nat) : Bool := g = m.gid
  match spGet none (s.die (key / 4096)).joins (key % 4096) with
  | none => s
  | some j =>
    if m.data ≠ 1 then gs.foldl (fun s g => s.joinOther g m.rid (own g) w0) s
    else if gs.any fun g => (List.range' 4 4).any fun n => s.emptyAt g n then
      gs.foldl (fun s g => s.joinTrap g 0x03 w0) (s.setJoin key (some { j with value := 1 }))
    else gs.foldl (fun s g => s.joinLast g m.rid (own g) j) (s.setJoin key none)

/-! ### Deposits (R49) -/

/-- The grant of a trigger is written: the copy fires if its context is Ready or Parked (spec/11 R277). -/
def State.triggerGranted (s : State) (g op : Nat) : State :=
  let s := s.updOp op fun o => { o with state := if o.pending then .trigGranted else o.state }
  if (s.ctx g).mode = .ready || (s.ctx g).mode = .parked then s.post (.triggerFire op) else s

/-- The context waits for the reply to a request. -/
def State.awaits (s : State) (g rid : Nat) (own : Bool) : Bool :=
  awaitsReply rid own (s.ctx g).park || (isCtx0 g && (s.ctx g).inh && awaitsReply rid own (s.core (coreOf g)).savedPark)
/-- A reply that comes late, after the peer was marked dead, is discarded (spec/22 R425); the grant of a trigger whose wait has been refused is
one. -/
def State.expects (s : State) (g : Nat) (m : Reply) : Bool :=
  match m.use with
  | .trigger op _ => (match s.op? op with | some o => o.state = (if m.ok then .trigWait else .trigRefused) | none => true)
  | .reg _ | .regFlags _ | .pair _ | .pairHigh _ | .blkLoad .. | .blkStore .. | .join .. => s.awaits g m.rid (decide (g = m.gid))
  | _ => true

/-- A deposit is written into one context. -/
def State.fillAt (s : State) (g : Nat) (m : Reply) : State :=
  let own : Bool := g = m.gid
  let on (s : State) : State := s.rejoin g (awaitsReply m.rid own) m.next
  match m.use with
  | .ack => if m.rid = 0 then s.rejoinAnswer g else on s
  | .reg d => on (s.fillReg g d m.data)
  | .regFlags d => on ((s.fillReg g d m.data).orFlags g (m.data.extractLsb' 0 5))
  | .pair d => s.fillReg g d m.data
  | .pairHigh d => on (s.fillReg g (d + 1) (if m.ok then 1 else 0))
  | .trigger op d => let s := s.fillReg g d m.data; if own then s.triggerGranted g op else s
  | .blkLoad .. => s
  | .blkStore d a b => on (s.blkNext g d a b)
  | .join .. => s
  | .value d => s.fillReg g d m.data
  | .drainFlags _ => s.orFlags g (m.data.extractLsb' 0 5)
  | .getWord _ d => s.fillReg g d m.data
  | .number _ => s
  | .placed q childPc =>
    let isPlacement (p : Park) : Bool := p = .placement
    let c := s.ctx g
    let link := (s.origin c.pc).1 + (m.next - c.pc)
    let s := s.setCtx g (c.setPred (BitVec.ofNat 3 q) m.ok)
    if m.ok then s.rejoin g isPlacement m.next
    else (s.updCtx g fun c => { c with link }).rejoin g isPlacement childPc

/-- The same, where the context waits for it. -/
def State.depositAt (s : State) (g : Nat) (m : Reply) : State := if s.expects g m then s.fillAt g m else s

/-- The answer of another module to a number request (spec/11 R265, R267). -/
def State.bindAnswer (s : State) (op : Nat) (m : Reply) : State :=
  s.bind op (if !m.ok then .refused (m.data.toNat % 256) else if m.data = 0 then .barrier else .counter m.data)

/-- A reply for a context: it is written and the context goes on; a try form's second register follows in a later cycle (spec/09 R235),
and BLK's word is stored. -/
def State.takeReply (s : State) (m : Reply) : State :=
  if !s.expects m.gid m then s
  else
    let s := (s.both m.gid).foldl (fun s g => s.depositAt g m) s
    match m.use with
    | .pair d => s.postIn 1 (.deposit { m with use := .pairHigh d })
    | .blkLoad d a b => s.blkStore m d a b
    | .join key w0 => s.joinReply m key w0
    | _ => s
/-- An operation that completes with a write of its context: a drain's flag write (spec/10 R261), COLL.GET's completion word (spec/11 Table
11.2). -/
def State.writeEnds (s : State) : Use → State
  | .drainFlags op => s.drainEnd op
  | .getWord op _ => (match s.op? op with | some o => s.finishOp o | none => s)
  | _ => s
/-- A reply for an incarnation at a context. What it ends has ended once it is here, though the work be gone. -/
def State.takeDeposit (s : State) (gid : Nat) (m : Reply) : State :=
  let t := s.toContext gid m.gen (.reply m) fun s => s.takeReply { m with gid }
  if s.movedAway gid m.gen then t else t.writeEnds m.use
/-- The requester that a reply is for. -/
def replyFor (m : Reply) : Origin :=
  match m.dest, m.use with
  | some o, _ => o
  | none, .number op => .op op
  | none, _ => .ctx m.gid m.gen
/-- The request that a reply answers has been refused for its dead peer (spec/22 R425). -/
def State.tooLate (s : State) (m : Reply) : Bool :=
  m.rid ≠ 0 && s.sched.agenda.any fun p => match p.ev with | .faultReply r _ _ => r.src = replyFor m && r.rid = m.rid | _ => false
/-- DEPOSIT (R49); to a requester outside, the reply leaves the slice. -/
def execDeposit (m : Reply) (s : State) : Result :=
  let s' := s.stationDone (replyFor m) m.rid
  .next (if s.tooLate m then s'
    else match m.dest, m.use with
    | some (.remote q), _ => s'.emit (.reply q m.data m.ok)
    | some (.fwWait w), _ => s'.post (.firmwareCounterWaitGrant w)
    | some _, _ => s'
    | none, .number op => s'.bindAnswer op m
    | none, _ => s'.takeDeposit m.gid m)
/-- An acknowledgement for a context. -/
def State.takeAck (s : State) (gid : Nat) (r : Request) : State :=
  (s.both gid).foldl (fun s g => s.rejoin g (awaitsReply r.rid (decide (g = gid))) r.next) s
/-- Another module has made a page of a triggered copy near, of the `n` asked for; with the last one the copy goes on (spec/11 R277). -/
def State.pageAnswered (s : State) (o : EngOp) (n : Nat) (va : W64) : State :=
  let s := { s with fab := { s.fab with opPeers := s.fab.opPeers.filter fun (x : Nat × Nat × Nat × W64) => !(x.2.1 = o.id && x.2.2.2 = va) } }
  if 1 < n then s.updOp o.id fun o => { o with state := .promoting (n - 1) }
  else (s.updOp o.id fun o => { o with state := .issued, arrived := true }).post (.copyOperation o.id [])
/-- STORE_ACKNOWLEDGEMENT (R131): the context goes on; for an engine, one of the words that it wrote into another module is
acknowledged, and with the last one the operation completes. -/
def execStoreAcknowledgement (r : Request) (s : State) : Result :=
  let s := s.stationDone r.src r.rid
  .next (match r.src with
    | .ctx gid gen => s.toContext gid gen (.ack r) fun s => s.takeAck gid r
    | .op id =>
      (match s.op? id with
      | none => s
      | some o =>
        match o.state with
        | .remote (n + 2) => s.updOp id fun o => { o with state := .remote (n + 1) }
        | .promoting n => s.pageAnswered o n r.va
        | .handedOver => s.endOp o
        | _ => s.finishOp o)
    | .remote q => s.emit (.reply q 0 true)
    | _ => s)

/-! ### Refusals (spec/20 R395) -/

/-- A refusal reaches one context: the registers that the request marked empty are full again, and the context traps at the
request's instruction; poison met by a coupled pair is a mismatch (spec/21 R411). -/
def State.refusedAt (s : State) (g : Nat) (r : Request) (own : Bool) (cause : Nat) (addr : W64) : State :=
  let s := (regsOfUse r.use).foldl (fun s d => s.setEmpty (s.regKey g d) false) s
  let c := s.ctx g
  let pc := if isCtx0 g && c.inh then (s.core (coreOf g)).savedPc else c.pc
  let (o, it) := s.origin pc
  if cause = 0x0A && (s.core (coreOf g)).paired && !isCtx0 g then (if own then s.post (.checkedPairMismatch g) else s)
  else (s.setCtx g { c with park := .nothing }).takeTrap g cause 0 addr pc o it false

/-- A refusal for a context. -/
def State.takeFault (s : State) (gid gen : Nat) (r : Request) (cause : Nat) (addr : W64) : State :=
  match r.use with
  | .trigger op _ => s.refuseTrigger r gid gen op
  | _ => if r.rid ≠ 0 && !s.awaits gid r.rid true then s else (s.both gid).foldl (fun s g => s.refusedAt g r (decide (g = gid)) cause addr) s
/-- FAULT_REPLY (R395). For an engine's access to another module it is the operation's fault (spec/22 R418). -/
def execFaultReply (r : Request) (cause : Nat) (addr : W64) (s : State) : Result :=
  let s := s.stationDone r.src r.rid
  .next (match r.src with
    | .ctx gid gen => s.toContext gid gen (.fault r cause addr) fun s => s.takeFault gid gen r cause addr
    | .op id =>
      (match s.op? id with
      | none => s
      | some o =>
        if o.binding = .pending then s.bind id (.refused (reasonOf cause))
        else s.failOp o (reasonOf cause) addr)
    | .remote q => s.emit (.refusal q cause addr)
    | .silent => (match r.notice with | some n => s.noticeRecord n (reasonOf cause) | none => s)
    | .fwWait _ => s.askAgain r
    | _ => s)
/-- The refused store's context stops: at its next slot if it is Ready, one late trap in a slot, else as it stands. `TRAPADDR` gets the
word's address (spec/22 R418). -/
def State.lateAt (s : State) (g : Nat) (r : Request) : State :=
  let (o, it) := s.origin r.pc
  let c := s.ctx g
  let a := r.va &&& ~~~7#64
  match c.mode with
  | .ready => s.setCtx g { c with late := c.late ++ [{ addr := a, orig := o, iter := it }] }
  | .parked | .stopped => s.takeTrap g 0x0B 0 a c.pc o it true
  | _ => s
/-- A late fault notice for a context. -/
def State.takeLate (s : State) (gid : Nat) (r : Request) : State := (s.both gid).foldl (fun s g => s.lateAt g r) s
/-- LATE_FAULT_NOTICE (R395). -/
def execLateFaultNotice (r : Request) (s : State) : Result :=
  .next (match r.src with
    | .ctx gid gen => s.toContext gid gen (.late r) fun s => s.takeLate gid r
    | _ => s)

end Sys2Proof.Machine
end

