-- ==== Sys2Proof/Machine/Slices.lean ====
section
/-!
DEFINITION. Requests at translation slices, and ordinary accesses at home slices (spec/03 R89-R97; spec/09 R224-R231;
spec/20 R393, R395; spec/21 R405-R415).
-/

namespace Sys2Proof.Machine

open Sys2Proof

/-- A home-slice step on the word that a request names; no slice is home to an address outside R93's layout. -/
def atHome (dp : Nat) (s : State) : Host.Outcome State Fault Refusal := if dpValid dp then .next s else .fault .noHomeSlice

/-! ### Records that slices write (spec/21 R410; spec/22 R421, R422) -/

/-- An asynchronous record of a request, in the queue of the die that is home to the word. -/
def State.sliceRecord (s : State) (r : Request) (cause sw : Nat) (addr : W64) : State :=
  let (o, it) := s.origin r.pc
  let id : Nat × Nat := match r.src with
    | .ctx gid gen => if (s.ctx gid).gen = gen then ((s.ctx gid).unit.toNat, (s.ctx gid).launch.toNat) else (0, 0)
    | _ => (0, 0)
  s.asyncRecord (homeDie r.dp) { TrapRec.blank with tenant := r.tenant, swcode := sw, cause, core := r.core, pc := r.pc, addr, orig := o, iter := it,
                                                     unit := id.1, launch := id.2, cyc := s.cyclesOf r.core }

/-! ### Translation (spec/03 R95-R97; spec/20 R393 step 13) -/

/-- The kinds that need WR (spec/20 Table 20.5). -/
def needsWr : ReqKind → Bool
  | .load .. | .ldtag | .ldFe | .engineLoad => false
  | _ => true

/-- The completion notice or arrival that a request carries to its word. -/
def noticeOf (r : Request) : Notice :=
  let n : Notice := r.notice.getD { tenant := r.tenant, va := r.va, dp := 0, num := r.data, scope := r.scope, core := r.core, pc := r.pc, orig := r.pc
                                    iter := 0, unit := 0, launch := 0, relaxed := !r.ord.getLsbD 1, remote := true }
  { n with dp := r.dp, remote := match r.src with | .silent => n.remote | _ => true }

/-- The step that a translated request takes at its home slice. A number request of a remote engine is performed as it
arrives there. -/
def homeStep (r : Request) : Instr :=
  match r.kind with
  | .load .. => .homeSliceLoad r
  | .store _ => .homeSliceStore r
  | .amo _ | .cas => .homeSliceAmo r
  | .ldtag => .homeSliceLdtag r
  | .mkobj _ => .sluiceMkobj r
  | .rmobj => .sluiceRmobj r
  | .ldFe => .sluiceLdFe r
  | .stEf => .sluiceStEf r
  | .ctrAdd => .sluiceCtrAdd r
  | .ctrTake => .sluiceCtrTake r
  | .ctrWait => .sluiceCtrWait r
  | .barArrive => .sluiceBarArrive r
  | .barSync => .sluiceBarSync r
  | .barWait => .sluiceBarWait r
  | .barJoin => .sluiceBarJoin r
  | .barWdraw | .memberGone .. => .sluiceBarWdraw r
  | .lkAcq => .sluiceLkAcq r
  | .lkTry => .sluiceLkTry r
  | .lkRel => .sluiceLkRel r
  | .qpush => .sluiceQpush r
  | .qpop => .sluiceQpop r
  | .qpushT => .sluiceQpushT r
  | .qpopT => .sluiceQpopT r
  | .cndWait => .sluiceCndWait r
  | .cndSignal => .sluiceCndSignal r
  | .cndBcast => .sluiceCndBcast r
  | .notice => .completionNotice (noticeOf r)
  | .arrive => .boundBarrierArrival (noticeOf r)
  | .engineLoad => .homeSliceLoad r
  | .engineStore .. => .homeSliceStore r
  | .number | .withdraw | .prefTier _ | .lossyFetch .. => .homeSliceLdtag r

/-- A relaxed store of a context of this module is acknowledged here (spec/05 R131); BLK's are not (spec/08 R204). -/
def ackedEarly (r : Request) : Bool :=
  match r.src, r.kind, r.use with
  | .ctx .., .store _, .ack => !r.ord.getLsbD 1
  | _, _, _ => false

/-- A translated request goes on to its home slice. -/
def State.sendHome (s : State) (r : Request) : State :=
  if ackedEarly r then (s.post (.storeAcknowledgement r)).post (homeStep { r with early := true }) else s.post (homeStep r)

/-- TRANSLATION_LOOKUP (R95): a hit or a walk, the checks of R415, and the request goes to its home slice. -/
def execTranslationLookup (r : Request) (s : State) : Host.Outcome State Fault Refusal :=
  let (x, s) := s.lookup (xlatSlice r.die r.va) r.tenant r.va
  .next (match x with
    | .fault => s.refuse r 0x08 r.va
    | .ok dp wr => if needsWr r.kind && !wr then s.refuse r 0x09 r.va else s.sendHome { r with dp })

/-! ### Loads, stores, atomics (spec/09 R224-R231; spec/21 R409, R410) -/

/-- HOME_SLICE_LOAD (R224): the bytes of a plain or typed word; a poisoned word is refused. An engine of another module reads the word with its
poison (spec/11 R272, spec/21 R414). Memory holds one value of a word for all agents (log 35). -/
def execHomeSliceLoad (r : Request) (s : State) : Host.Outcome State Fault Refusal :=
  let w := wordAt r.dp
  let s := s.open w
  atHome r.dp (match r.kind with
    | .load n signed =>
      if s.memType w = 7 then s.refuse r 0x0A r.va
      else s.answer r (extractWord (s.memWord w) (r.dp % 8) n signed) true
    | .engineLoad => s.answer r (if s.memType w = 7 then 0 else s.memWord w) (s.memType w ≠ 7)
    | _ => s)

/-- A store of `n` bytes at the word: merged under R90; over poison under R409 and R410; refused with the word's address on a typed word
(R107; spec/22 R418). -/
def State.storeWord (s : State) (r : Request) (n : Nat) : State :=
  let w := wordAt r.dp
  let a := r.va &&& ~~~7#64
  match s.memType w with
  | 0 => (s.commit w (mergeWord (s.memWord w) (r.dp % 8) n r.data) (s.memTag w)).answer r 0 true
  | 7 =>
    if n = 8 then (s.commit w r.data (mkTag 0 true)).answer r 0 true
    else ((s.commit w (mergeWord 0 (r.dp % 8) n r.data) (mkTag 7 true)).sliceRecord r 0x0A 0x30 a).answer r 0 true
  | _ => s.refuse r 0x0B a

/-- HOME_SLICE_STORE (R90): one read-modify-write event; an engine's write of another module as `engineCommit` says. -/
def execHomeSliceStore (r : Request) (s : State) : Host.Outcome State Fault Refusal :=
  let s := s.open (wordAt r.dp)
  atHome r.dp (match r.kind with
    | .store n => s.storeWord r n
    | .engineStore k poison =>
      let w := wordAt r.dp
      if s.memType w ≠ 0 && s.memType w ≠ 7 then s.refuse r 0x0B r.va
      else
        let s' := (s.engineCommit w r.data k poison).answer r 0 true
        if s.memType w = 7 && !poison && k < 64 then s'.sliceRecord r 0x0A 0x30 r.va else s'
    | _ => s)

/-- The new value of an AMO (spec/09 Table 9.3). -/
def amoResult (op : AmoOp) (v n : W64) : W64 :=
  match op with
  | .add => v + n
  | .and => v &&& n
  | .or => v ||| n
  | .xor => v ^^^ n
  | .min => if v.toInt ≤ n.toInt then v else n
  | .max => if v.toInt ≤ n.toInt then n else v
  | .minu => if v.toNat ≤ n.toNat then v else n
  | .maxu => if v.toNat ≤ n.toNat then n else v
  | .swap => n

/-- HOME_SLICE_AMO (R229, R230): the old value is the reply; a CAS that fails writes nothing. -/
def execHomeSliceAmo (r : Request) (s : State) : Host.Outcome State Fault Refusal :=
  let w := wordAt r.dp
  let s := s.open w
  let v := s.memWord w
  atHome r.dp (match s.memType w with
    | 0 =>
      match r.kind with
      | .amo op => (s.commit w (amoResult op v r.data) (s.memTag w)).answer r v true
      | .cas => (if v = r.cmp then s.commit w r.data (s.memTag w) else s).answer r v true
      | _ => s
    | 7 => s.refuse r 0x0A r.va
    | _ => s.refuse r 0x0B r.va)

/-! ### Number requests (spec/11 R264, R265, R267; spec/22 R420) -/

/-- The home slice takes the number request for the word at `dp`: a counter's issue word rises, a barrier needs no number. -/
def State.numberAt (s : State) (dp : Nat) : Binding × State :=
  let s := s.open dp
  match s.memType dp with
  | 1 =>
    if dp % 16 ≠ 0 then (.refused 0x42, s)
    else
      let s := s.open (dp + 8)
      let i := s.memWord (dp + 8)
      if s.memType (dp + 8) ≠ 0 || i.toNat < (s.memWord dp).toNat then (.refused 0x42, s)
      else (.counter (i + 1), s.commit (dp + 8) (i + 1) (s.memTag (dp + 8)))
  | 2 => (.barrier, s)
  | _ => (.refused 0x41, s)

/-- HOME_SLICE_LDTAG (R228): the tag bits; it also serves the number request of an engine in another module, whose answer is
the number, 0 for a barrier, or the reason. -/
def execHomeSliceLdtag (r : Request) (s : State) : Host.Outcome State Fault Refusal :=
  let w := wordAt r.dp
  atHome r.dp (match r.kind with
    | .number =>
      let (b, s) := s.numberAt w
      match b with
      | .counter num => s.answer r num true
      | .refused sw => s.answer r (wordOfNat sw) false
      | _ => s.answer r 0 true
    | _ =>
      let s := s.open w
      s.answer r (wordOfNat (s.memTag w).toNat) true)

/-- The number request of operation `op`, to another module. -/
def numberRequestOf (s : State) (o : EngOp) : Request :=
  { kind := .number, tenant := o.tenant, va := o.bindVa, dp := 0, join := none, data := 0, cmp := 0, ord := 0, scope := o.scope, src := .op o.id
    use := .number o.id, die := dieOf o.core, core := o.core, pc := o.pc, next := 0, rid := s.sched.rids, early := false, fence := false, hops := 0 }

/-- NUMBER_REQUEST (R265): translated at the issuing core's die and performed at the word's home slice, here or in the module
that the address names. -/
def execNumberRequest (op : Nat) (s : State) : Host.Outcome State Fault Refusal :=
  .next (match s.op? op with
    | none => s
    | some o =>
      match s.served o.tenant o.bindVa with
      | .dead => s.bind op (.refused 0x52)
      | .peer _ => s.post (.stationHandoff (numberRequestOf s o))
      | .here =>
        let (x, s) := s.lookup (xlatSlice (dieOf o.core) o.bindVa) o.tenant o.bindVa
        match x with
        | .fault => s.bind op (.refused 0x21)
        | .ok dp wr =>
          if !wr then s.bind op (.refused 0x22)
          else
            let (b, s) := s.numberAt (wordAt dp)
            s.bind op b)

end Sys2Proof.Machine
end

