-- ==== Sys2Proof/Machine/Sluice.lean ====
section
/-!
DEFINITION. Sluices: typed words, operations performed or parked, wake-up, queues' ring words, the polder, notices
(spec/04; spec/11 R266, R267; spec/22 R418-R423).
-/

namespace Sys2Proof.Machine

open Sys2Proof

/-! ### Word layouts (spec/04 Table 4.1) -/

def barWord (phase expected arrived flags : Nat) : W64 :=
  wordOfNat (phase % 2 ^ 16 * 2 ^ 48 + expected % 2 ^ 16 * 2 ^ 32 + arrived % 2 ^ 16 * 2 ^ 16 + flags % 2 ^ 16)
def pairWord (high low : Nat) : W64 := wordOfNat (high % 2 ^ 32 * 2 ^ 32 + low % 2 ^ 32)
def queueWord (cap tail head : Nat) : W64 := wordOfNat (cap % 32 * 2 ^ 59 + tail % 2 ^ 28 * 2 ^ 28 + head % 2 ^ 28)
def queueCap (v : W64) : Nat := slice v 63 59
def queueTail (v : W64) : Nat := slice v 55 28
def queueHead (v : W64) : Nat := slice v 27 0
/-- Entries now in the queue. -/
def queueLen (v : W64) : Nat := (queueTail v + 2 ^ 28 - queueHead v) % 2 ^ 28

/-- The initial data that MKOBJ writes. -/
def initialWord (type : Nat) (n : W64) : W64 :=
  match type with
  | 1 => n
  | 2 => barWord 0 (slice n 15 0) 0 0
  | 4 => queueWord (slice n 4 0) 0 0
  | 6 => wordOfNat (slice n 63 3 * 8)
  | _ => 0

/-- The type that a request's operation belongs to; 0 for the full/empty pair. -/
def typeOf : ReqKind → Nat
  | .ctrAdd | .ctrTake | .ctrWait | .notice => 1
  | .barArrive | .barSync | .barWait | .barJoin | .barWdraw | .memberGone .. | .arrive => 2
  | .lkAcq | .lkTry | .lkRel => 3
  | .qpush | .qpop | .qpushT | .qpopT => 4
  | .cndWait | .cndSignal | .cndBcast => 5
  | _ => 0

/-! ### What the sluice decides (spec/04 Table 4.2) -/

/-- The decision on a request that finds its word as it stands. -/
inductive Verdict where
  /-- Performed: the word afterwards, its full/empty bit, the reply, the success bit. -/
  | perform (v : W64) (full : Bool) (reply : W64) (ok : Bool)
  /-- It parks; the word afterwards. -/
  | park (v : W64)
  /-- A queue operation that goes on to its ring word. -/
  | ring (push : Bool)
  | misuse
  /-- A completion notice that can never be performed. -/
  | discard
deriving DecidableEq, Repr

/-- The flag bits of a barrier request (spec/04 R111): the core put the sticky flags into bits 4:0 (spec/09 R236). -/
def requestFlags (n : W64) : Nat := slice n 15 0

/-- An arrival (`arr` = 1) or withdrawal (`wd` = 1): the word afterwards, and the FLAGACC of a completed phase. -/
def barrierStep (v : W64) (arr wd flags : Nat) : W64 × Option Nat :=
  let phase := slice v 63 48
  let expected := (slice v 47 32 + 2 ^ 16 - wd) % 2 ^ 16
  let arrived := (slice v 31 16 + arr) % 2 ^ 16
  let acc := slice v 15 0 ||| flags
  if expected ≤ arrived then (barWord (phase + 1) expected 0 0, some acc) else (barWord phase expected arrived acc, none)

/-- SERVING after one LK.REL, past abandoned tickets; `n` bounds the skips. -/
def skipTickets (ab : List W32) : Nat → W32 → W32
  | 0, t => t
  | n + 1, t => if ab.contains t then skipTickets ab n (t + 1) else t

/-- Table 4.2 for a request that arrives. -/
def State.judge (s : State) (dp : Nat) (r : Request) : Verdict :=
  let v := s.memWord dp
  let full := s.memFull dp
  let n := r.data
  let hi := slice v 63 32
  let lo := slice v 31 0
  let phaseWord (p : Nat) : W64 := wordOfNat (p * 2 ^ 48)
  match r.kind with
  | .ldFe => if full then .perform v false v true else .park v
  | .stEf => if full then .park v else .perform n true 0 true
  | .ctrAdd => .perform (v + n) true v true
  | .ctrTake => if n.toNat ≤ v.toNat then .perform (v - n) true v true else .park v
  | .ctrWait => if n.toNat ≤ v.toNat then .perform v true v true else .park v
  | .notice => if v = n - 1 then .perform n true 0 true else if n.toNat ≤ v.toNat then .discard else .park v
  | .barArrive | .arrive => .perform (barrierStep v 1 0 (requestFlags n)).1 true (phaseWord (slice v 63 48)) true
  | .barSync =>
    match barrierStep v 1 0 (requestFlags n) with
    | (v', some acc) => .perform v' true (phaseWord (slice v 63 48) + wordOfNat acc) true
    | (v', none) => .park v'
  | .barWait => if slice v 63 48 ≠ slice n 15 0 then .perform v true v true else .park v
  | .barJoin => if slice v 47 32 = 65535 then .misuse else .perform (v + wordOfNat (2 ^ 32)) true v true
  | .barWdraw => if slice v 47 32 = 0 then .misuse else .perform (barrierStep v 0 1 (requestFlags n)).1 true v true
  | .lkAcq => if hi = lo then .perform (pairWord (hi + 1) lo) true (wordOfNat hi) true else .park (pairWord (hi + 1) lo)
  | .lkTry => if hi = lo then .perform (pairWord (hi + 1) lo) true (wordOfNat hi) true else .perform v true v false
  | .lkRel =>
    if hi = lo then .misuse
    else
      let ab := (s.sluice.parked.filter fun p => p.dp = dp && p.abandoned).map (·.ticket)
      let t := skipTickets ab ab.length (BitVec.ofNat 32 (lo + 1))
      .perform (pairWord hi t.toNat) true (wordOfNat t.toNat) true
  | .qpush => if queueLen v < 2 ^ queueCap v then .ring true else .park v
  | .qpop => if 0 < queueLen v then .ring false else .park v
  | .qpushT => if queueLen v < 2 ^ queueCap v then .ring true else .perform v true v false
  | .qpopT => if 0 < queueLen v then .ring false else .perform v true v false
  | .cndWait => if hi ≠ slice n 31 0 then .perform v true (wordOfNat hi) true else .park (pairWord hi (lo + 1))
  | .cndSignal => .perform (pairWord (hi + 1) (lo - min lo 1)) true (wordOfNat ((hi + 1) % 2 ^ 32)) true
  | .cndBcast => .perform (pairWord (hi + 1) 0) true (wordOfNat ((hi + 1) % 2 ^ 32)) true
  | _ => .misuse

/-! ### Parking (spec/04 R117, R122-R124; spec/22 R422) -/

/-- `WLQ`.QUOTA of a tenant at a slice, as it is read (Table 4.3); values above 1,024 act as 1,024. -/
def State.quotaWord (s : State) (sl tenant : Nat) : Nat :=
  match spGet none s.sluice.quota (16 * sl + tenant) with
  | some q => q
  | none => ((s.tenant? tenant).map (·.quota)).getD 0
def State.quotaAt (s : State) (sl tenant : Nat) : Nat := min 1024 (s.quotaWord sl tenant)
/-- USED and POLDERED. -/
def State.usedAt (s : State) (sl tenant : Nat) : Nat := s.sluice.parked.countP fun p => p.slice = sl && p.req.tenant = tenant && !p.polder
def State.polderedAt (s : State) (sl tenant : Nat) : Nat := s.sluice.parked.countP fun p => p.slice = sl && p.req.tenant = tenant && p.polder
/-- `WLQ` as the firmware column reads it. -/
def State.wlq (s : State) (sl tenant : Nat) : W64 :=
  wordOfNat (s.polderedAt sl tenant * 2 ^ 32 + s.usedAt sl tenant * 2 ^ 16 + s.quotaWord sl tenant)

/-- The slice's wait list has room for a tenant's request. -/
def State.listRoom (s : State) (sl tenant : Nat) : Bool :=
  s.usedAt sl tenant < s.quotaAt sl tenant && s.sluice.parked.countP (fun p => p.slice = sl && !p.polder) < Config.waitList
/-- Where a request that parks goes: the wait list, the polder (true), or nowhere. -/
def State.parkPlace (s : State) (sl tenant : Nat) (notice : Bool) : Option Bool :=
  if s.listRoom sl tenant then some false
  else if s.sluice.parked.countP (fun p => p.slice = sl && p.polder) < (if notice then Config.overflow else Config.overflowOthers) then some true
  else none

/-- The request has been taken back on its way: a cancel has ended its requester's work, another module withdraws it (spec/02 R58), or its core
has been halted (spec/19 R383). -/
def State.takenBack (s : State) (r : Request) : Bool :=
  match r.src with
  | .ctx g n => s.sluice.cancelled.contains n || (s.core (coreOf g)).halted
  | .remote q => s.sluice.takenBack.contains q
  | _ => false
/-- A halted core's request is withdrawn, and the core counts it (spec/19 Table 19.5). -/
def State.countWithdrawn (s : State) (r : Request) : State :=
  match r.src with
  | .ctx g _ => if (s.core (coreOf g)).halted then s.updCore (coreOf g) fun k => { k with withdrawn := k.withdrawn + 1 } else s
  | _ => s

/-- Put a request on the wait list or into the polder, under the slice's next sequence number. -/
def State.enlist (s : State) (dp : Nat) (r : Request) (polder : Bool) (ticket : W32) (phase : BitVec 16) (notice : Option Notice) : State :=
  let sl := homeSlice dp
  let q := spGet 0 s.sluice.seqs sl
  { s with sluice := { s.sluice with
      seqs := spSet 0 s.sluice.seqs sl (q + 1)
      parked := s.sluice.parked ++ [{ slice := sl, dp, seq := q, req := r, ticket, phase, polder, notice }] } }

/-- A request that found no room: refused, with the record of R422; a trigger's wait follows R420. -/
def State.noRoom (s : State) (r : Request) : State :=
  match r.use with
  | .trigger .. => s.refuse r 0x0B r.va
  | _ => (s.sliceRecord r 0x0B 0x50 r.va).refuse r 0x0B r.va

/-- The word changes under a request that parks, and the request is enlisted; that of cancelled work is withdrawn at once, its arrival or its
ticket staying (spec/02 R58, spec/04 R114). -/
def State.parkAt (s : State) (dp : Nat) (r : Request) (v : W64) : State :=
  let ticket := BitVec.ofNat 32 (slice (s.memWord dp) 63 32)
  let phase := BitVec.ofNat 16 (slice (s.memWord dp) 63 48)
  match s.parkPlace (homeSlice dp) r.tenant false with
  | none => s.noRoom r
  | some pol =>
    let q := spGet 0 s.sluice.seqs (homeSlice dp)
    let t := (if v = s.memWord dp then s else s.commit dp v (s.memTag dp)).enlist dp r pol ticket phase none
    if s.takenBack r then (t.withdrawAll fun p => p.dp = dp && p.seq = q).countWithdrawn r else t

/-! ### Grants (spec/04 R118, R119) -/

/-- The reply to a granted request: to a context's register, or to the requester outside. -/
def grantReply (r : Request) (v : W64) (ok : Bool) : Reply :=
  match r.src with
  | .ctx gid gen => replyTo r gid gen v ok
  | o => { gid := 0, gen := 0, rid := r.rid, use := .ack, data := v, ok, next := 0, dest := some o }
/-- The reply of a granted request, after those of the object's earlier grants, one in a cycle; an entry in the polder is read first. A dead
member's withdrawal that waited for its phase is made now. -/
def State.grant (s : State) (dp : Nat) (polder : Bool) (r : Request) (v : W64) (ok : Bool) : State :=
  if r.src = .withdrawal then s.withdrawNow r
  else
    let before := s.sched.agenda.countP fun p => match grantOf p.ev with | some (o, _) => o = dp | none => false
    let (n, s) := s.newRid
    let m := { grantReply r v ok with grant := some (dp, n) }
    s.postIn before (if polder then .polderEntryRead m else .deposit m)

/-- The request that a parked notice stands for. -/
def noticeRequest (n : Notice) (kind : ReqKind) : Request := { carryNotice n 0 kind with dp := n.dp }

/-- A queue operation sends its access to the ring word; the queue is served no further until it completes (R115). Of a ring base that is no
local address aligned to 8, bits 51:3 count (log 38), and of a typed one its data (log 40); with a poisoned one the request is refused (spec/21
R409). -/
def State.ringAccess (s : State) (dp : Nat) (r : Request) (push polder : Bool) : State :=
  let s := s.open (dp + 8)
  if s.memType (dp + 8) = 7 then s.refuse r 0x0B (r.va + 8)
  else
    let v := s.memWord dp
    let i := (if push then queueTail v else queueHead v) % 2 ^ queueCap v
    let a := wordOfNat (vaOf (s.memWord (dp + 8) + wordOfNat (8 * i)))
    let s := { s with sluice := { s.sluice with busy := dp :: s.sluice.busy } }
    s.post (.ringWordAccess { req := { r with dp }, ring := a, push, header := v, polder })

/-- The parked operations of which a younger one waits for an older one. -/
def fifoKind : ReqKind → Bool
  | .ctrTake | .qpush | .qpop | .ldFe | .stEf => true
  | _ => false

/-- What R118 makes of a parked request: the reply it gets with the word afterwards, or nothing yet. `fin` is the phase that
the operation completed, with its FLAGACC; `signalled` counts the condition waits that it grants. -/
inductive Wake where
  | still
  | grant (v : W64) (full : Bool) (reply : W64)
  | ring (push : Bool)
  | discard
deriving DecidableEq, Repr

def State.wakeOf (s : State) (fin : Option (Nat × Nat)) (signalled : Nat) (p : Parked) : Wake :=
  let v := s.memWord p.dp
  if s.memType p.dp ≠ typeOf p.req.kind then .still
  else
    match p.req.kind with
    | .barSync =>
      match fin with
      | some (ph, acc) => if p.phase.toNat = ph then .grant v true (wordOfNat (ph * 2 ^ 48 + acc)) else .still
      | none => .still
    | .cndWait => if 0 < signalled then .grant v true (wordOfNat (slice v 63 32)) else .still
    | .lkAcq => if slice v 31 0 = p.ticket.toNat then .grant v true (wordOfNat p.ticket.toNat) else .still
    | _ =>
      match s.judge p.dp p.req with
      | .perform v full reply _ => .grant v full reply
      | .ring push => .ring push
      | .discard => .discard
      | _ => .still

/-- One pass over the parked requests of an object, in sequence order; true if the word has changed. -/
def State.wakePass (fin : Option (Nat × Nat)) : List Parked → List ReqKind → Nat → Bool → State → State × Bool
  | [], _, _, ch, s => (s, ch)
  | p :: ps, blocked, sig, ch, s =>
    if p.abandoned || blocked.contains p.req.kind || s.sluice.busy.contains p.dp then wakePass fin ps blocked sig ch s
    else
      let same := s.memWord p.dp
      match s.wakeOf fin sig p with
      | .still => wakePass fin ps (if fifoKind p.req.kind then p.req.kind :: blocked else blocked) sig ch s
      | .grant v full reply =>
        let s := (s.unpark p).countAccess p.dp
        let moved := v ≠ same || full ≠ s.memFull p.dp
        let s := if moved then s.commit p.dp v (mkTag (s.memType p.dp) full) else s
        let s := if p.notice.isSome then s else s.grant p.dp p.polder p.req reply true
        wakePass fin ps blocked (if p.req.kind = .cndWait then sig - 1 else sig) (ch || moved) s
      | .ring push => wakePass fin ps blocked sig ch ((s.unpark p).ringAccess p.dp p.req push p.polder)
      | .discard =>
        let s := s.unpark p
        wakePass fin ps blocked sig ch (match p.notice with | some n => s.noticeRecord n 0x43 | none => s)

/-- The parked requests of an object. -/
def State.parkedAt (s : State) (dp : Nat) : List Parked := s.sluice.parked.filter fun p => p.dp = dp
/-- Passes over an object's parked requests until none changes it. -/
def State.wake (dp : Nat) (fin : Option (Nat × Nat)) (sig : Nat) : Nat → State → State
  | 0, s => s
  | n + 1, s =>
    match State.wakePass fin (s.parkedAt dp) [] sig false s with
    | (s, true) => wake dp none 0 n s
    | (s, false) => s
/-- After an operation has changed an object (R118). -/
def State.changed (s : State) (dp : Nat) (fin : Option (Nat × Nat)) (sig : Nat) : State :=
  State.wake dp fin sig ((s.parkedAt dp).length + 1) s

/-- The phase that an arrival or withdrawal completes, with its FLAGACC. -/
def completed (kind : ReqKind) (v n : W64) : Option (Nat × Nat) :=
  match kind with
  | .barArrive | .arrive | .barSync => (barrierStep v 1 0 (requestFlags n)).2.map fun a => (slice v 63 48, a)
  | .barWdraw => (barrierStep v 0 1 (requestFlags n)).2.map fun a => (slice v 63 48, a)
  | _ => none
/-- The condition waits that a request grants. -/
def signals (kind : ReqKind) (v : W64) : Nat :=
  match kind with
  | .cndSignal => 1
  | .cndBcast => slice v 31 0
  | _ => 0

/-- Abandoned tickets that SERVING has passed leave the list (R114). -/
def State.clearTickets (s : State) (dp : Nat) (old new : W64) : State :=
  let from_ := slice old 31 0
  let passed (t : W32) : Bool := (t.toNat + 2 ^ 32 - from_) % 2 ^ 32 < (slice new 31 0 + 2 ^ 32 - from_) % 2 ^ 32
  (s.sluice.parked.filter fun p => p.dp = dp && p.abandoned && passed p.ticket).foldl State.unpark s

/-- A request is performed: the word changes, the requester is answered, the parked requests are examined. -/
def State.performAt (s : State) (dp : Nat) (r : Request) (v : W64) (full : Bool) (reply : W64) (ok : Bool) : State :=
  let old := s.memWord dp
  let moved := v ≠ old || full ≠ s.memFull dp
  let s := if moved then s.commit dp v (mkTag (s.memType dp) full) else s
  let s := if r.kind = .lkRel then s.clearTickets dp old v else s
  let s := s.answer r reply ok
  if moved then s.changed dp (completed r.kind old r.data) (signals r.kind old) else s

/-! ### A request at its sluice (R116-R119; R418) -/

/-- What the sluice decides on a request is done. -/
def State.carryOut (s : State) (dp : Nat) (r : Request) : State :=
  match s.judge dp r with
  | .perform v full reply ok => s.performAt dp r v full reply ok
  | .park v =>
    let moved := v ≠ s.memWord dp
    let s' := s.parkAt dp r v
    if moved then s'.changed dp none 0 else s'
  | .ring push => s.ringAccess dp r push false
  | .misuse | .discard => s.refuse r 0x0B r.va

/-- A parked BAR.SYNC of a core of a module. -/
def State.syncOf (s : State) (dp phys core : Nat) (p : Parked) : Bool :=
  p.dp = dp && p.req.kind = .barSync && p.req.core = core &&
    (match p.req.src with | .ctx .. => phys = s.fw.params.physid | .remote q => q.phys = phys | _ => false)
/-- The root of a plan withdraws a dead member from its group barrier (spec/22 R429): a parked BAR.SYNC of the member is discarded, and the
withdrawal waits for the phase in which it has arrived; else the barrier is withdrawn from at once. -/
def State.memberGone (s : State) (dp : Nat) (r : Request) (phys core : Nat) : State :=
  let now := { r with kind := .barWdraw, data := 0 }
  match s.sluice.parked.find? (s.syncOf dp phys core) with
  | none => s.carryOut dp now
  | some p =>
    let s := s.withdraw p
    match s.parkPlace (homeSlice dp) r.tenant false with
    | none => s.carryOut dp now
    | some pol => s.enlist dp { now with kind := .barWait, data := wordOfNat p.phase.toNat, src := .withdrawal, dp } pol 0 0 none

/-- The sluice serves a request on the word at `dp`. -/
def State.serve (s : State) (dp : Nat) (r : Request) : State :=
  let s := s.open dp
  let t := s.memType dp
  let need := typeOf r.kind
  if t = 6 && need ≠ 0 then s.post (.sluiceForward r)
  else if t = 7 && need = 0 then s.refuse r 0x0A r.va
  else if t ≠ need then s.refuse r 0x0B r.va
  else match r.kind with
    | .memberGone phys core => s.memberGone dp r phys core
    | _ => s.carryOut dp r

/-- A join record's counter (spec/02 R66-R68; spec/08 R208): refused unless the record is live and the tenant's. -/
def State.serveJoin (s : State) (r : Request) (key : Nat) : State :=
  let die := key / 4096
  let rec_ := key % 4096
  match spGet none (s.die die).joins rec_ with
  | none => s.refuse r 0x0B r.va
  | some j =>
    if j.tenant ≠ r.tenant then s.refuse r 0x0B r.va
    else (s.updDie die fun d => { d with joins := spSet none d.joins rec_ (some { j with value := j.value - 1 }) }).answer r j.value true

/-- A sluice step on the request's word. -/
def State.sluiceStep (s : State) (r : Request) : Host.Outcome State Fault Refusal := atHome r.dp (s.serve (wordAt r.dp) r)

/-- SLUICE_LD_FE (R227). -/
def execSluiceLdFe (r : Request) (s : State) : Host.Outcome State Fault Refusal := s.sluiceStep { r with kind := .ldFe }
/-- SLUICE_ST_EF (R227). -/
def execSluiceStEf (r : Request) (s : State) : Host.Outcome State Fault Refusal := s.sluiceStep { r with kind := .stEf }
/-- SLUICE_CTR_ADD (R110); with a join record in the place of a word, the decrement of JOIN (spec/08 R208). -/
def execSluiceCtrAdd (r : Request) (s : State) : Host.Outcome State Fault Refusal :=
  match r.join with
  | some key => .next (s.serveJoin r key)
  | none => s.sluiceStep { r with kind := .ctrAdd }
/-- SLUICE_CTR_TAKE (R110). -/
def execSluiceCtrTake (r : Request) (s : State) : Host.Outcome State Fault Refusal := s.sluiceStep { r with kind := .ctrTake }
/-- SLUICE_CTR_WAIT (R110). -/
def execSluiceCtrWait (r : Request) (s : State) : Host.Outcome State Fault Refusal := s.sluiceStep { r with kind := .ctrWait }
/-- SLUICE_BAR_ARRIVE (R111). -/
def execSluiceBarArrive (r : Request) (s : State) : Host.Outcome State Fault Refusal := s.sluiceStep { r with kind := .barArrive }
/-- SLUICE_BAR_SYNC (R111). -/
def execSluiceBarSync (r : Request) (s : State) : Host.Outcome State Fault Refusal := s.sluiceStep { r with kind := .barSync }
/-- SLUICE_BAR_WAIT (R110). -/
def execSluiceBarWait (r : Request) (s : State) : Host.Outcome State Fault Refusal := s.sluiceStep { r with kind := .barWait }
/-- SLUICE_BAR_JOIN (R112). -/
def execSluiceBarJoin (r : Request) (s : State) : Host.Outcome State Fault Refusal := s.sluiceStep { r with kind := .barJoin }
/-- SLUICE_BAR_WDRAW (R111, R112); of a plan's root, for a dead member (spec/22 R429). -/
def execSluiceBarWdraw (r : Request) (s : State) : Host.Outcome State Fault Refusal :=
  s.sluiceStep { r with kind := match r.kind with | .memberGone phys core => .memberGone phys core | _ => .barWdraw }
/-- SLUICE_LK_ACQ (R110). -/
def execSluiceLkAcq (r : Request) (s : State) : Host.Outcome State Fault Refusal := s.sluiceStep { r with kind := .lkAcq }
/-- SLUICE_LK_TRY (R110). -/
def execSluiceLkTry (r : Request) (s : State) : Host.Outcome State Fault Refusal := s.sluiceStep { r with kind := .lkTry }
/-- SLUICE_LK_REL (R113, R114). -/
def execSluiceLkRel (r : Request) (s : State) : Host.Outcome State Fault Refusal := s.sluiceStep { r with kind := .lkRel }
/-- SLUICE_QPUSH (R115). -/
def execSluiceQpush (r : Request) (s : State) : Host.Outcome State Fault Refusal := s.sluiceStep { r with kind := .qpush }
/-- SLUICE_QPOP (R115). -/
def execSluiceQpop (r : Request) (s : State) : Host.Outcome State Fault Refusal := s.sluiceStep { r with kind := .qpop }
/-- SLUICE_QPUSH_T (R110). -/
def execSluiceQpushT (r : Request) (s : State) : Host.Outcome State Fault Refusal := s.sluiceStep { r with kind := .qpushT }
/-- SLUICE_QPOP_T (R110). -/
def execSluiceQpopT (r : Request) (s : State) : Host.Outcome State Fault Refusal := s.sluiceStep { r with kind := .qpopT }
/-- SLUICE_CND_WAIT (R110). -/
def execSluiceCndWait (r : Request) (s : State) : Host.Outcome State Fault Refusal := s.sluiceStep { r with kind := .cndWait }
/-- SLUICE_CND_SIGNAL (R110). -/
def execSluiceCndSignal (r : Request) (s : State) : Host.Outcome State Fault Refusal := s.sluiceStep { r with kind := .cndSignal }
/-- SLUICE_CND_BCAST (R110). -/
def execSluiceCndBcast (r : Request) (s : State) : Host.Outcome State Fault Refusal := s.sluiceStep { r with kind := .cndBcast }

/-- SLUICE_MKOBJ (R106, R109): a plain word becomes typed and full, with its initial data. -/
def execSluiceMkobj (r : Request) (s : State) : Host.Outcome State Fault Refusal :=
  let w := wordAt r.dp
  let s := s.open w
  atHome r.dp (match r.kind with
    | .mkobj t =>
      if s.memType w ≠ 0 || (t = 4 && 16 < slice r.data 4 0) then s.refuse r 0x0B r.va
      else (s.commit w (initialWord t r.data) (mkTag t true)).answer r 0 true
    | _ => s)

/-- SLUICE_RMOBJ (R106): a typed word with nothing parked becomes plain; its data is the reply. Abandoned tickets go with it (log 34). -/
def execSluiceRmobj (r : Request) (s : State) : Host.Outcome State Fault Refusal :=
  let w := wordAt r.dp
  let s := s.open w
  atHome r.dp (
    if s.memType w = 0 || s.memType w = 7 || (s.parkedAt w).any (!·.abandoned) then s.refuse r 0x0B r.va
    else
      let v := s.memWord w
      let s := (s.parkedAt w).foldl State.unpark s
      (s.commit w v (mkTag 0 true)).answer r v true)

/-! ### Forwarding words (R116; spec/22 R418, R426) -/

/-- SLUICE_FORWARD (R116): at most four words are passed; a target that is no address of R92's forms is refused as a malformed
address (log 11). -/
def execSluiceForward (r : Request) (s : State) : Host.Outcome State Fault Refusal :=
  let w := wordAt r.dp
  let t := wordOfNat (slice (s.memWord w) 63 3 * 8)
  let q := { r with va := t, dp := 0, hops := r.hops + 1, via := some r.va }
  atHome r.dp (
    if s.memType w ≠ 6 then s.serve w r
    else if 4 ≤ r.hops then s.refuse r 0x0B r.va
    else if malformed t then s.refuse r 0x04 t
    else match s.served r.tenant t with
      | .dead => s.refuse r 0x0C r.va
      | .peer _ => s.post (.stationHandoff q)
      | .here => s.post (.translationLookup { q with die := homeDie w }))

/-! ### Ring words (R115; spec/22 R423) -/

/-- The header is served again, and its parked requests are examined. -/
def State.ringDone (s : State) (dp : Nat) : State :=
  State.changed { s with sluice := { s.sluice with busy := s.sluice.busy.erase dp } } dp none 0
/-- TAIL or HEAD advances. -/
def advanced (push : Bool) (v : W64) : W64 :=
  if push then queueWord (queueCap v) (queueTail v + 1) (queueHead v) else queueWord (queueCap v) (queueTail v) (queueHead v + 1)

/-- The access reached its ring word. A poisoned word is consumed by a pop, and overwritten by a push. -/
def State.ringPerform (s : State) (ra : RingAccess) (rdp : Nat) : State :=
  let dp := wordAt ra.req.dp
  let w := wordAt rdp
  let s := s.open w
  let t := s.memType w
  let head (s : State) : State := s.commit dp (advanced ra.push ra.header) (mkTag 4 true)
  if ra.push then
    if t ≠ 0 && t ≠ 7 then (s.refuse ra.req 0x0B ra.ring).ringDone dp
    else
      let s := s.commit w ra.req.data (if t = 0 then s.memTag w else mkTag 0 true)
      ((head s).grant dp ra.polder ra.req 0 true).ringDone dp
  else if t = 7 then ((head s).refuse ra.req 0x0A ra.ring).ringDone dp
  else ((head s).grant dp ra.polder ra.req (s.memWord w) true).ringDone dp

/-- RING_WORD_ACCESS (R115): translated and performed as a core's access is (R423). -/
def execRingWordAccess (ra : RingAccess) (s : State) : Host.Outcome State Fault Refusal :=
  let dp := wordAt ra.req.dp
  let (x, s) := s.lookup (xlatSlice (homeDie dp) ra.ring) ra.req.tenant ra.ring
  atHome ra.req.dp (match x with
    | .fault => (s.refuse ra.req 0x08 ra.ring).ringDone dp
    | .ok rdp wr => if ra.push && !wr then (s.refuse ra.req 0x09 ra.ring).ringDone dp else s.ringPerform ra rdp)

/-! ### The polder (R119, R126) -/

/-- POLDER_ENTRY_READ (R119): the entry has been read, and its reply leaves. -/
def execPolderEntryRead (m : Reply) (s : State) : Host.Outcome State Fault Refusal := .next (s.post (.deposit m))

/-- A tenant's oldest polder entry at a slice moves onto the wait list, where there is room. -/
def State.polderEntryMoves (s : State) (sl tenant : Nat) : State :=
  match takeFirst (fun p : Parked => p.polder && p.slice = sl && p.req.tenant = tenant) s.sluice.parked with
  | some (p, _) =>
    if s.listRoom sl tenant then
      let hit (q : Parked) : Bool := q.slice = sl && q.seq = p.seq && q.dp = p.dp
      { s with sluice := { s.sluice with parked := mapWhere hit (fun q => { q with polder := false }) s.sluice.parked } }
    else s
  | none => s
/-- POLDER_MOVE (R126): the first freed wait-list entry takes a polder entry of its tenant at its slice. -/
def execPolderMove (s : State) : Host.Outcome State Fault Refusal :=
  .next (match s.sluice.moves with
    | [] => s
    | m :: ms => { s with sluice := { s.sluice with moves := ms } }.polderEntryMoves m.1 m.2)

/-! ### Notices and bound arrivals (spec/11 R266, R267; spec/22 R421, R422) -/

/-- COMPLETION_NOTICE (R266): performed when VALUE = j − 1; it parks while VALUE is below, and is discarded otherwise. -/
def execCompletionNotice (n : Notice) (s : State) : Host.Outcome State Fault Refusal :=
  let w := wordAt n.dp
  let s := s.open w
  let r := noticeRequest n .notice
  atHome n.dp (
    if s.memType w ≠ 1 then s.noticeRecord n 0x41
    else match s.judge w r with
      | .perform v full reply ok => s.performAt w r v full reply ok
      | .park _ =>
        (match s.parkPlace (homeSlice w) n.tenant true with
        | some pol => s.enlist w r pol 0 0 (some n)
        | none => s.noticeRecord n 0x44)
      | _ => s.noticeRecord n 0x43)

/-- BOUND_BARRIER_ARRIVAL (R267): BAR.ARRIVE with operand 0. -/
def execBoundBarrierArrival (n : Notice) (s : State) : Host.Outcome State Fault Refusal :=
  let w := wordAt n.dp
  let s := s.open w
  let r := { noticeRequest n .arrive with data := 0 }
  atHome n.dp (
    if s.memType w ≠ 2 then s.noticeRecord n 0x41
    else match s.judge w r with
      | .perform v full reply ok => s.performAt w r v full reply ok
      | _ => s)

end Sys2Proof.Machine
end

