-- ==== Sys2Proof/WellFormed.lean ====
section
/-!
DEFINITION. Well-formed instructions: the encoding checks of spec/20 Tables 20.1 and 20.4 to 20.7 on the operand
fields (R391, R392), apart from the allotment and privilege, which the core makes (R393 steps 3 and 4). The checks on
reserved bits that no operand field holds are the decoder's.
-/

namespace Sys2Proof

/-- Why words are not an instruction (spec/20 R391); every reason is cause 0x01 when a context meets it. -/
inductive DecodeError where
  /-- Fewer words than LEN says. -/
  | truncated
  /-- An unassigned major opcode. -/
  | opcode
  /-- A MINOR value that the instruction does not assign. -/
  | minor
  /-- A non-zero reserved field. -/
  | reservedField
  /-- A literal where none is permitted, or a non-zero field that a literal replaces. -/
  | literal
  | orderCode
  | scopeCode
  | formatCode
  | lossy
  | sysNumber
  | objectType
  | sameRegisters
  | copyEnds
  | part
  /-- An event: a step that has no encoding. -/
  | event
deriving DecidableEq, Repr

/-- The first reason in a list of checks. -/
def firstError : List (Option DecodeError) → Option DecodeError
  | [] => none
  | some e :: _ => some e
  | none :: cs => firstError cs

/-- Reject for a reason when a condition holds. -/
def reject (e : DecodeError) (bad : Bool) : Option DecodeError := if bad then some e else none

/-- A literal needs the field it replaces to be zero (R172). -/
def literalField {w : Nat} (lit : Option W64) (field : BitVec w) : Option DecodeError :=
  match lit with
  | none => none
  | some _ => reject .literal (field.toNat ≠ 0)

/-- A field an instruction does not use is reserved (R173). -/
def unused {w : Nat} (used : Bool) (field : BitVec w) : Option DecodeError :=
  reject .reservedField (!used && field.toNat ≠ 0)

/-- The floating-point codes 0x2 to 0x7 (R197). -/
def isFp (c : Nat) : Bool := 2 ≤ c && c ≤ 7
/-- "F7" of Table 10.2. -/
def isF7 (c : Nat) : Bool := c ≤ 6
/-- "FP5" of Table 10.2. -/
def isFP5 (c : Nat) : Bool := 2 ≤ c && c ≤ 6
/-- FP32 alone. -/
def isFP32 (c : Nat) : Bool := c = 2
/-- I8 and I32. -/
def isInt (c : Nat) : Bool := c ≤ 1
/-- A field that must be zero. -/
def isZero (c : Nat) : Bool := c = 0
/-- The codes of VCVT (R248). -/
def isConv (c : Nat) : Bool := c ≤ 7
/-- The codes of VQMX (R249). -/
def isMx (c : Nat) : Bool := 8 ≤ c && c ≤ 10
/-- FP32, BF16 and FP16. -/
def isFp3 (c : Nat) : Bool := 2 ≤ c && c ≤ 4
/-- QB4. -/
def isQb4 (c : Nat) : Bool := c = 11
/-- No check here. -/
def anyFmt (_ : Nat) : Bool := true
/-- The formats of MDRAIN (R261). -/
def isDrain (c : Nat) : Bool := 1 ≤ c && c ≤ 6

/-- Bits per element of a format code (Table 6.1, Table 10.1). -/
def fmtBits (c : Nat) : Nat :=
  match c with
  | 0 => 8 | 1 => 32 | 2 => 32 | 3 => 16 | 4 => 16 | 5 => 8 | 6 => 8 | 7 => 4 | 8 => 8 | 9 => 8 | 10 => 4 | _ => 4

/-- r of R248. -/
def cvtRatio (f g : Nat) : Nat := max (fmtBits f) (fmtBits g) / min (fmtBits f) (fmtBits g)

/-- The pairs (f, g) of R251. -/
def redSumPair (f g : Nat) : Bool :=
  (g = 2 && f = 2) || (g = 3 && (f = 3 || f = 2)) || (g = 4 && (f = 4 || f = 2)) || (g = 0 && f ≤ 1) || (g = 1 && f = 1)

/-- The six 8-bit floating-point formats of Table 10.4. -/
def isFp8 (c : Nat) : Bool := 5 ≤ c && c ≤ 10
/-- BF16 and FP16. -/
def isFp16 (c : Nat) : Bool := c = 3 || c = 4

/-- The format pairs of Table 10.4. -/
def mmaPair (a b : Nat) : Bool :=
  (a = 0 && (b = 0 || b = 11)) || (isFp8 a && isFp8 b) || (isFp16 a && (isFp16 b || isFp8 b)) || (isFp8 a && isFp16 b)

/-- The SYS numbers of Table 7.9. -/
def sysAssigned (n : Nat) : Bool :=
  n ≤ 4 || (8 ≤ n && n ≤ 0x0D) || (0x10 ≤ n && n ≤ 0x15) || (0x18 ≤ n && n ≤ 0x28) || (0x30 ≤ n && n ≤ 0x32)

/-- Register format: which of D, A and B are used, and whether a literal may replace B (R173, R191). -/
def RegFmt.check (f : RegFmt) (d a b lit : Bool) : Option DecodeError :=
  firstError [reject .literal (!lit && f.lit.isSome), unused d f.d, unused a f.a, unused b f.b, literalField f.lit f.b]

/-- Immediate format (R173, R191). -/
def ImmFmt.check (f : ImmFmt) (d a lit : Bool) : Option DecodeError :=
  firstError [reject .literal (!lit && f.lit.isSome), unused d f.d, unused a f.a, literalField f.lit f.imm]

/-- Compare format. -/
def CmpFmt.check (f : CmpFmt) : Option DecodeError := literalField f.lit f.b

/-- Global memory format: the ORD value it does not take beside 0b11 (Table 9.1), and whether SZ must be 0b11. -/
def GmFmt.check (f : GmFmt) (noOrd : BitVec 2) (double : Bool) : Option DecodeError :=
  firstError [reject .orderCode (f.ord = noOrd || f.ord = 0b11#2), reject .scopeCode (10 < f.scope.toNat),
    reject .reservedField (double && f.sz ≠ 0b11#2)]

/-- The IMM, ORD and SCOPE of a request literal (Table 7.4). -/
def litImm (l : W64) : Nat := slice l 63 8
def litOrd (l : W64) : BitVec 2 := l.extractLsb' 6 2
def litScope (l : W64) : BitVec 4 := l.extractLsb' 2 4

/-- Request format (R174); `op` says whether the instruction takes an operand. -/
def ReqFmt.check (f : ReqFmt) (op : Bool) : Option DecodeError :=
  match f.lit with
  | none => firstError [reject .literal f.l, unused op f.b]
  | some l => firstError [reject .reservedField (slice l 1 0 ≠ 0), reject .scopeCode (10 < (litScope l).toNat),
      reject .literal (!f.l && litImm l ≠ 0), reject .literal (f.l && f.b.toNat ≠ 0),
      reject .reservedField (!op && (f.l || f.b.toNat ≠ 0 || litImm l ≠ 0))]

/-- Vector format: which registers and pointers are used, and the accepted FMT and FMT2 (R243, R245). -/
def VecFmt.check (f : VecFmt) (rd ra rb pd pa pb : Bool) (fs f2s : Nat → Bool) : Option DecodeError :=
  firstError [reject .literal (!ra && f.lit.isSome), unused rd f.rd, unused ra f.ra, unused rb f.rb, literalField f.lit f.ra,
    unused pd f.pd, reject .reservedField (!pd && f.id), unused pa f.pa, reject .reservedField (!pa && f.ia),
    unused pb f.pb, reject .reservedField (!pb && f.ib), reject .formatCode (!fs f.fmt.toNat), reject .formatCode (!f2s f.fmt2.toNat)]

/-- Matrix format: which registers are used. -/
def MatFmt.check (f : MatFmt) (rd ra rb lit : Bool) : Option DecodeError :=
  firstError [reject .literal (!lit && f.lit.isSome), unused rd f.rd, unused ra f.ra, unused rb f.rb, literalField f.lit f.ra]

/-- Copy format: the ends (R270) and the scope (R269). -/
def CopyFmt.check (f : CopyFmt) : Option DecodeError :=
  firstError [literalField f.lit f.rb, reject .scopeCode (10 < f.scope.toNat), reject .copyEnds (f.rd.toNat = 0 && f.ra.toNat = 0),
    reject .reservedField (f.rd.toNat ≠ 0 && f.ra.toNat ≠ 0 && (f.ptr.toNat ≠ 0 || f.pl))]

/-- Collective format: which of RD, RA and the pointer are used. -/
def ColFmt.check (f : ColFmt) (rd ra ptr : Bool) : Option DecodeError :=
  firstError [literalField f.lit f.rb, reject .scopeCode (10 < f.scope.toNat), unused rd f.rd, unused ra f.ra, unused ptr f.ptr,
    reject .reservedField (!ptr && f.pi)]

/-- The first encoding check that an instruction fails; an event has no encoding. -/
def Instr.check : Instr → Option DecodeError
  | .add f => f.check true true true true
  | .sub f => f.check true true true true
  | .mul f => f.check true true true true
  | .mulh f => f.check true true true true
  | .mulhu f => f.check true true true true
  | .div f => f.check true true true true
  | .divu f => f.check true true true true
  | .rem f => f.check true true true true
  | .remu f => f.check true true true true
  | .and f => f.check true true true true
  | .or f => f.check true true true true
  | .xor f => f.check true true true true
  | .andn f => f.check true true true true
  | .shl f => f.check true true true true
  | .shr f => f.check true true true true
  | .sar f => f.check true true true true
  | .rol f => f.check true true true true
  | .min f => f.check true true true true
  | .max f => f.check true true true true
  | .minu f => f.check true true true true
  | .maxu f => f.check true true true true
  | .clz f => f.check true true false false
  | .ctz f => f.check true true false false
  | .popc f => f.check true true false false
  | .addi f => f.check true true true
  | .andi f => f.check true true true
  | .ori f => f.check true true true
  | .xori f => f.check true true true
  | .shli f => firstError [f.check true true false, reject .reservedField (64 ≤ f.imm.toNat)]
  | .shri f => firstError [f.check true true false, reject .reservedField (64 ≤ f.imm.toNat)]
  | .sari f => firstError [f.check true true false, reject .reservedField (64 ≤ f.imm.toNat)]
  | .movi f => f.check true false true
  | .mov f => f.check true true false false
  | .cmpeq f => f.check
  | .cmpne f => f.check
  | .cmplt f => f.check
  | .cmpltu f => f.check
  | .cmple f => f.check
  | .cmpleu f => f.check
  | .cmov f => firstError [f.check true true false, reject .reservedField (16 ≤ f.imm.toNat)]
  | .fadd f => f.check true true true true
  | .fsub f => f.check true true true true
  | .fmul f => f.check true true true true
  | .fdiv f => f.check true true true true
  | .fma f => f.check true true true true
  | .fsqrt f => f.check true true false false
  | .fmin f => f.check true true true true
  | .fmax f => f.check true true true true
  | .fcmpeq f => f.check
  | .fcmplt f => f.check
  | .fcmple f => f.check
  | .fcvt f => firstError [f.check true true false, reject .formatCode (!(isFp (f.imm.toNat / 16) && isFp (f.imm.toNat % 16)))]
  | .ftoi f => f.check true true false false
  | .itof f => f.check true true false false
  | .fabs f => f.check true true false false
  | .fneg f => f.check true true false false
  | .br _ => none
  | .call f => reject .reservedField (f.pred.toNat ≠ 0 || f.neg)
  | .callr f => f.check false true false false
  | .jmpr f => f.check false true false false
  | .ret _ => none
  | .loop _ => none
  | .rep f => f.check true false false false
  | .blk f => firstError [f.check true true true false, reject .sameRegisters (f.d = f.a || f.d = f.b || f.a = f.b)]
  | .spawn f => firstError [f.check true true true true, reject .reservedField (8 ≤ f.d.toNat)]
  | .callat f => f.check true true true true
  | .fork f => f.check false true true true
  | .join f => f.check false true false false
  | .cancel f => f.check false true false false
  | .cancelu f => f.check false true true true
  | .tstb _ => none
  | .ldGlobal f => f.check 0b10#2 false
  | .ldsGlobal f => f.check 0b10#2 false
  | .stGlobal f => f.check 0b01#2 false
  | .ldLocal _ => none
  | .ldsLocal _ => none
  | .stLocal _ => none
  | .ldFe f => f.check 0b10#2 true
  | .stEf f => f.check 0b01#2 true
  | .amoAdd f => f.check true
  | .amoAnd f => f.check true
  | .amoOr f => f.check true
  | .amoXor f => f.check true
  | .amoMin f => f.check true
  | .amoMax f => f.check true
  | .amoMinu f => f.check true
  | .amoMaxu f => f.check true
  | .amoSwap f => f.check true
  | .amoCas f => f.check true
  | .mkobj f => firstError [f.check true, reject .objectType (f.d.toNat = 0 || 7 ≤ f.d.toNat)]
  | .rmobj f => f.check false
  | .qpushT f => f.check true
  | .qpopT f => f.check false
  | .ldtag f => f.check 0b10#2 true
  | .ctrAdd f => f.check true
  | .ctrTake f => f.check true
  | .ctrWait f => f.check true
  | .barArrive f => f.check true
  | .barSync f => f.check true
  | .barWait f => f.check true
  | .barJoin f => f.check false
  | .barWdraw f => f.check true
  | .lkAcq f => f.check false
  | .lkTry f => f.check false
  | .lkRel f => f.check false
  | .qpush f => f.check true
  | .qpop f => f.check false
  | .cndWait f => f.check true
  | .cndSignal f => f.check false
  | .cndBcast f => f.check false
  | .sysr f => firstError [f.check true false false, reject .sysNumber (!sysAssigned f.imm.toNat)]
  | .sysw f => firstError [f.check false true false, reject .sysNumber (!sysAssigned f.imm.toNat)]
  | .start f => f.check true true true false
  | .reap f => f.check true true false false
  | .pair f => firstError [f.check true false false, reject .reservedField (2 ≤ f.imm.toNat)]
  | .trap f => f.check false true false
  | .rett _ => none
  | .nop _ => none
  | .vadd f => f.check false false false true true true isF7 isZero
  | .vsub f => f.check false false false true true true isF7 isZero
  | .vmul f => f.check false false false true true true isF7 isZero
  | .vfma f => f.check false false false true true true isF7 isZero
  | .vdiv f => f.check false false false true true true isFP5 isZero
  | .vsqrt f => f.check false false false true true false isFP5 isZero
  | .vmin f => f.check false false false true true true isF7 isZero
  | .vmax f => f.check false false false true true true isF7 isZero
  | .vabs f => f.check false false false true true false isF7 isZero
  | .vneg f => f.check false false false true true false isF7 isZero
  | .vrcp f => f.check false false false true true false isFP32 isZero
  | .vrsq f => f.check false false false true true false isFP32 isZero
  | .vexp2 f => f.check false false false true true false isFP32 isZero
  | .vlog2 f => f.check false false false true true false isFP32 isZero
  | .vadds f => f.check false false false true true true isInt isZero
  | .vsubs f => f.check false false false true true true isInt isZero
  | .vand f => f.check false false false true true true isZero isZero
  | .vor f => f.check false false false true true true isZero isZero
  | .vxor f => f.check false false false true true true isZero isZero
  | .vshl f => f.check false true false true true false isInt isZero
  | .vshr f => f.check false true false true true false isInt isZero
  | .vsar f => f.check false true false true true false isInt isZero
  | .vcmpeq f => f.check false false false true true true isF7 isZero
  | .vcmplt f => f.check false false false true true true isF7 isZero
  | .vcmple f => f.check false false false true true true isF7 isZero
  | .vsel f => f.check false false false true true true isZero isZero
  | .vshuf f => f.check false false false true true true isF7 isZero
  | .vbcast f => f.check false true false true false false isF7 isZero
  | .vmov f => f.check false false false true true false isZero isZero
  | .vcvt f => firstError [f.check true false false true true false isConv isConv, reject .reservedField (8 ≤ f.rd.toNat), reject .part (cvtRatio f.fmt.toNat f.fmt2.toNat ≤ f.rd.toNat)]
  | .vqmx f => f.check true false false true true false isMx isFp3
  | .vqb4 f => f.check true true false true true false isQb4 isFp3
  | .vredsum f => firstError [f.check true false false false true false anyFmt anyFmt, reject .formatCode (!redSumPair f.fmt.toNat f.fmt2.toNat)]
  | .vredmin f => firstError [f.check true false false false true false anyFmt anyFmt, reject .formatCode (!(redSumPair f.fmt.toNat f.fmt2.toNat && f.fmt = f.fmt2))]
  | .vredmax f => firstError [f.check true false false false true false anyFmt anyFmt, reject .formatCode (!(redSumPair f.fmt.toNat f.fmt2.toNat && f.fmt = f.fmt2))]
  | .vredmSum f => f.check true true true true true false isFp3 isZero
  | .vredmMean f => f.check true true true true true false isFp3 isZero
  | .mzero f => firstError [f.check false false false false, reject .reservedField (f.pa.toNat ≠ 0 || f.fmta.toNat ≠ 0 || f.fmtb.toNat ≠ 0), reject .scopeCode (f.scope.toNat ≠ 0)]
  | .mma f => firstError [f.check false true true true, reject .formatCode (!mmaPair f.fmta.toNat f.fmtb.toNat), reject .reservedField (f.expi.toNat ≠ 0), reject .scopeCode (f.scope.toNat ≠ 0)]
  | .mmaS f => firstError [f.check true true true true, reject .formatCode (!mmaPair f.fmta.toNat f.fmtb.toNat), reject .reservedField (f.expi.toNat ≠ 0), reject .scopeCode (f.scope.toNat ≠ 0)]
  | .mdrain f => firstError [f.check false true false true, reject .formatCode (!isDrain f.fmta.toNat || f.fmtb.toNat ≠ 0), reject .reservedField (f.expi.toNat ≠ 0), reject .scopeCode (10 < f.scope.toNat)]
  | .copy f => firstError [f.check, reject .lossy (f.lossy && (f.rd.toNat = 0 || f.ra.toNat = 0)), reject .reservedField (!f.lossy && f.xreg.toNat ≠ 0)]
  | .copyStr f => firstError [f.check, reject .lossy f.lossy]
  | .copyGth f => firstError [f.check, reject .lossy f.lossy, reject .copyEnds (f.ra.toNat = 0)]
  | .copySct f => firstError [f.check, reject .lossy f.lossy, reject .copyEnds (f.rd.toNat = 0)]
  | .copyTrg f => firstError [f.check, reject .lossy (f.lossy && (f.rd.toNat = 0 || f.ra.toNat = 0)), reject .reservedField (!f.lossy && f.xreg.toNat ≠ 0)]
  | .copyStrTrg f => firstError [f.check, reject .lossy f.lossy]
  | .copyGthTrg f => firstError [f.check, reject .lossy f.lossy, reject .copyEnds (f.ra.toNat = 0)]
  | .copySctTrg f => firstError [f.check, reject .lossy f.lossy, reject .copyEnds (f.rd.toNat = 0)]
  | .prefTier f => firstError [literalField f.lit f.rb, reject .scopeCode (10 < f.scope.toNat), reject .lossy f.lossy,
      reject .reservedField (f.rd.toNat ≠ 0 || f.xreg.toNat ≠ 0 || f.ptr.toNat ≠ 0 || f.pl)]
  | .layout f => firstError [literalField f.lit f.rb, reject .scopeCode (10 < f.scope.toNat)]
  | .layoutAb f => firstError [literalField f.lit f.rb, reject .scopeCode (10 < f.scope.toNat)]
  | .collOpen f => firstError [f.check false true false, reject .lossy f.lossy]
  | .collPut f => firstError [f.check false false true, reject .lossy f.lossy]
  | .collGet f => f.check true false true
  | .collMark f => firstError [f.check false false false, reject .lossy f.lossy]
  | .parkedInstructionResume _ => some .event
  | .deposit _ => some .event
  | .storeAcknowledgement _ => some .event
  | .faultReply _ _ _ => some .event
  | .lateFaultNotice _ => some .event
  | .translationLookup _ => some .event
  | .homeSliceLoad _ => some .event
  | .homeSliceStore _ => some .event
  | .homeSliceAmo _ => some .event
  | .homeSliceLdtag _ => some .event
  | .sluiceLdFe _ => some .event
  | .sluiceStEf _ => some .event
  | .sluiceMkobj _ => some .event
  | .sluiceRmobj _ => some .event
  | .sluiceCtrAdd _ => some .event
  | .sluiceCtrTake _ => some .event
  | .sluiceCtrWait _ => some .event
  | .sluiceBarArrive _ => some .event
  | .sluiceBarSync _ => some .event
  | .sluiceBarWait _ => some .event
  | .sluiceBarJoin _ => some .event
  | .sluiceBarWdraw _ => some .event
  | .sluiceLkAcq _ => some .event
  | .sluiceLkTry _ => some .event
  | .sluiceLkRel _ => some .event
  | .sluiceQpush _ => some .event
  | .sluiceQpop _ => some .event
  | .sluiceQpushT _ => some .event
  | .sluiceQpopT _ => some .event
  | .ringWordAccess _ => some .event
  | .sluiceCndWait _ => some .event
  | .sluiceCndSignal _ => some .event
  | .sluiceCndBcast _ => some .event
  | .sluiceForward _ => some .event
  | .polderEntryRead _ => some .event
  | .numberRequest _ => some .event
  | .completionNotice _ => some .event
  | .boundBarrierArrival _ => some .event
  | .triggerFire _ => some .event
  | .copyOperation _ _ => some .event
  | .prefTierOperation _ => some .event
  | .layoutOperation _ _ => some .event
  | .matrixMzeroPerform _ => some .event
  | .matrixMmaPerform _ => some .event
  | .matrixDrainPerform _ => some .event
  | .firmwareCounterWaitGrant _ => some .event
  | .dispatchPass _ => some .event
  | .launchPacket _ _ => some .event
  | .specialiserEvaluation _ _ => some .event
  | .placementPacket _ => some .event
  | .placementRetry _ => some .event
  | .cancelApply _ => some .event
  | .spawnRequest _ => some .event
  | .callatTaskArrival _ _ => some .event
  | .taskQueueSlotFree _ _ => some .event
  | .taskStart _ => some .event
  | .forwardedItem _ _ => some .event
  | .tierPromotion _ => some .event
  | .tierBlockMove _ _ => some .event
  | .gangStop _ _ _ => some .event
  | .partitionFault _ _ => some .event
  | .checkedPairMismatch _ => some .event
  | .stationHandoff _ => some .event
  | .routerInstall _ => some .event
  | .routerRowArrival _ _ _ _ => some .event
  | .routerSlotFreeNotice _ _ _ _ _ => some .event
  | .routerMarker _ _ _ _ => some .event
  | .routerMemberDeath _ _ _ => some .event
  | .callatAcceptance _ _ => some .event
  | .cancelAcceptance _ _ _ => some .event
  | .illegalInstruction => some .event
  | .issueSlot => some .event
  | .polderMove => some .event
  | .losswinExpiry => some .event
  | .hostLaunch => some .event
  | .hostGraph => some .event
  | .hostPhase => some .event
  | .hostJob => some .event
  | .hostCancel => some .event
  | .hostCancelu => some .event
  | .map => some .event
  | .unmap => some .event
  | .fwin => some .event
  | .qreg => some .event
  | .qunreg => some .event
  | .remap => some .event
  | .attest => some .event
  | .cfgstage => some .event
  | .unknownCommand => some .event
  | .queueScan => some .event
  | .idleReportDeferralEnd => some .event
  | .tierEpoch => some .event
  | .trapRecordWrite => some .event
  | .checkedPairTimeout => some .event
  | .eventRecordWrite => some .event
  | .peerTimeout => some .event
  | .peerProbe => some .event
  | .moduleReset => some .event
  | .lossyBlockArrival _ _ _ _ _ => some .event
  | .lossyBlockNotice _ _ => some .event
  | .migrationStart _ _ => some .event
  | .migrationInstalled => some .event
  | .migrationAbandon _ => some .event
  | .stackRefresh _ => some .event
  | .frameRetirement => some .event
  | .farControllerFailure _ => some .event
  | .localArrayUncorrectable _ => some .event
  | .trapQueueRead _ => some .event
  | .firewallRefusal _ _ _ _ => some .event
  | .rdmaWrite _ => some .event
  | .rdmaRead _ => some .event
  | .fabricRequestIn _ => some .event
  | .peerProbeAnswer _ => some .event
  | .powerMeasurement _ _ => some .event
  | .thermalEvent _ _ => some .event
  | .xvalRead _ => some .event
  | .xvalWrite _ => some .event
  | .stkscrubWrite _ _ => some .event
  | .sleccRead _ => some .event
  | .lbeccRead _ => some .event
  | .spstatRead _ => some .event
  | .fatalstatWrite _ _ => some .event
  | .dpmapWrite _ _ => some .event
  | .registerWrite _ _ => some .event

/-- A well-formed instruction. -/
def Instr.wellFormed (i : Instr) : Bool := i.check.isNone

end Sys2Proof
end

