-- ==== Sys2Proof/Machine/MemoryOps.lean ====
section
/-!
DEFINITION. Global and local memory, full/empty, atomic and sluice instructions (spec/09).
-/

namespace Sys2Proof.Machine

open Sys2Proof

/-- w of SZ (spec/07 R173). -/
def sizeOf2 (sz : BitVec 2) : Nat := 2 ^ sz.toNat

/-- The address of the global memory format (R220). -/
def State.gmAddr (s : State) (f : GmFmt) : W64 := s.reg f.a + f.lit.getD 0

/-- The checks of a global access: registers named, sources, address of `w` bytes, destination, peer (spec/20 Table 20.2). -/
def State.globalChecks (s : State) (named srcs dsts : List Nat) (a : W64) (w : Nat) : List Check :=
  [s.chkAllot named, s.chkFull srcs, chkAddr a w, s.chkDest dsts, s.chkPeer a]

/-- A global load: `sD` := the reply. -/
def State.gmLoad (s : State) (f : GmFmt) (kind : ReqKind) (w : Nat) : Result :=
  s.perform (s.globalChecks (nums [f.d, f.a]) (nums [f.a]) (nums [f.d]) (s.gmAddr f) w) fun s =>
    s.issueRequest kind (s.gmAddr f) 0 0 f.ord f.scope (.reg f.d.toNat) none
/-- A global store: D is the data (spec/07 R175). -/
def State.gmStore (s : State) (f : GmFmt) (kind : ReqKind) (w : Nat) : Result :=
  s.perform (s.globalChecks (nums [f.d, f.a]) (nums [f.a, f.d]) [] (s.gmAddr f) w) fun s =>
    s.issueRequest kind (s.gmAddr f) (s.reg f.d) 0 f.ord f.scope .ack none

/-! ### The request format (spec/07 R174) -/

/-- n: register B, or the literal's immediate. -/
def State.reqOperand (s : State) (f : ReqFmt) : W64 :=
  match f.lit with
  | some l => if f.l then wordOfInt (sext (litImm l) 56) else s.reg f.b
  | none => s.reg f.b
def reqOrd (f : ReqFmt) : BitVec 2 := (f.lit.map litOrd).getD 0
def reqScope (f : ReqFmt) : BitVec 4 := (f.lit.map litScope).getD 0
/-- The operand's register, where the instruction has an operand and takes it from one. -/
def reqSrc (op : Bool) (f : ReqFmt) : List (BitVec 7) := if op && !f.l then [f.b] else []

/-- A request on the word at A with one deposit into D. -/
def State.wordRequest (s : State) (f : ReqFmt) (kind : ReqKind) (op : Bool) : Result :=
  s.perform (s.globalChecks (nums (f.d :: f.a :: reqSrc op f)) (nums (f.a :: reqSrc op f)) (nums [f.d]) (s.reg f.a) 8) fun s =>
    s.issueRequest kind (s.reg f.a) (if op then s.reqOperand f else 0) 0 (reqOrd f) (reqScope f) (.reg f.d.toNat) none
/-- A try form: deposits into D and D + 1 (R235). -/
def State.tryRequest (s : State) (f : ReqFmt) (kind : ReqKind) (op : Bool) : Result :=
  s.perform (s.globalChecks (nums (f.d :: f.a :: reqSrc op f) ++ [f.d.toNat + 1]) (nums (f.a :: reqSrc op f)) [f.d.toNat, f.d.toNat + 1] (s.reg f.a) 8) fun s =>
    s.issueRequest kind (s.reg f.a) (if op then s.reqOperand f else 0) 0 (reqOrd f) (reqScope f) (.pair f.d.toNat) none
/-- The operand of a barrier request: with FLAGS = 1 the sticky flags join it (R236, spec/04 R111). -/
def State.barOperand (s : State) (f : ReqFmt) : W64 :=
  let n := s.reqOperand f
  if bit n 16 then wordOfNat (slice n 16 0) ||| wordOfNat s.cur.flags.toNat else wordOfNat (slice n 15 0)
/-- A barrier request with the operand of Table 9.5. -/
def State.barRequest (s : State) (f : ReqFmt) (kind : ReqKind) (merge : Bool) : Result :=
  s.perform (s.globalChecks (nums (f.d :: f.a :: reqSrc true f)) (nums (f.a :: reqSrc true f)) (nums [f.d]) (s.reg f.a) 8) fun s =>
    s.issueRequest kind (s.reg f.a) (s.barOperand f) 0 (reqOrd f) (reqScope f)
      (if merge && bit (s.reqOperand f) 16 then .regFlags f.d.toNat else .reg f.d.toNat) none

/-! ### Local accesses (R225) -/

/-- The local buffer check: AB, or the context's PS window. -/
def chkBuffer (buf off w : Nat) : Check :=
  Check.need ((buf = 0 && off + w ≤ Config.abBytes) || (buf = 1 && off + w ≤ Config.psWindow)) 0x05 (wordOfNat off)
/-- The AB lines that `w` bytes of a buffer touch. -/
def bufLines (buf off w : Nat) : List Nat := if buf = 0 then linesOf off w else []
def State.localRead (s : State) (buf off w : Nat) : List Byte := if buf = 0 then s.abBytes s.here off w else s.psBytes s.gid off w
def State.localWrite (s : State) (buf off : Nat) (bs : List Byte) : State := if buf = 0 then s.setAb s.here off bs else s.setPs s.gid off bs

/-- The checks of a local access. -/
def State.localChecks (s : State) (f : LmFmt) (srcs dsts : List Nat) : List Check :=
  let p := s.cur.ptr f.ptr
  let w := sizeOf2 f.sz
  [s.chkAllot (nums [f.d]), s.chkFull srcs, Check.need (ptrOffset p % w = 0) 0x04 (wordOfNat (ptrOffset p)),
   chkBuffer (ptrBuf p) (ptrOffset p) w, s.chkDest dsts, s.chkLines (bufLines (ptrBuf p) (ptrOffset p) w)]
/-- A local load, zero- or sign-extending. -/
def State.localLoad (s : State) (f : LmFmt) (signed : Bool) : Result :=
  s.perform (s.localChecks f [] (nums [f.d])) fun s =>
    let p := s.cur.ptr f.ptr
    let w := sizeOf2 f.sz
    let v := natOfBytes (s.localRead (ptrBuf p) (ptrOffset p) w)
    ((s.writeReg f.d (if signed then wordOfInt (sext v (8 * w)) else wordOfNat v)).updCur fun c => c.advancePtr f.ptr f.inc).next

/-! ### The instructions -/

/-- LD, global (R224): zero-extending. -/
def execLdGlobal (f : GmFmt) (s : State) : Result := s.gmLoad f (.load (sizeOf2 f.sz) false) (sizeOf2 f.sz)
/-- LDS, global (R224): sign-extending. -/
def execLdsGlobal (f : GmFmt) (s : State) : Result := s.gmLoad f (.load (sizeOf2 f.sz) true) (sizeOf2 f.sz)
/-- ST, global (R224). -/
def execStGlobal (f : GmFmt) (s : State) : Result := s.gmStore f (.store (sizeOf2 f.sz)) (sizeOf2 f.sz)
/-- LD, local (R225): zero-extending. -/
def execLdLocal (f : LmFmt) (s : State) : Result := s.localLoad f false
/-- LDS, local (R225): sign-extending. -/
def execLdsLocal (f : LmFmt) (s : State) : Result := s.localLoad f true
/-- ST, local (R225). -/
def execStLocal (f : LmFmt) (s : State) : Result :=
  s.perform (s.localChecks f (nums [f.d]) []) fun s =>
    let p := s.cur.ptr f.ptr
    ((s.localWrite (ptrBuf p) (ptrOffset p) (bytesOfNat (s.reg f.d).toNat (sizeOf2 f.sz))).updCur fun c => c.advancePtr f.ptr f.inc).next
/-- LD.FE (R227). -/
def execLdFe (f : GmFmt) (s : State) : Result := s.gmLoad f .ldFe 8
/-- ST.EF (R227). -/
def execStEf (f : GmFmt) (s : State) : Result := s.gmStore f .stEf 8
/-- LDTAG (R228). -/
def execLdtag (f : GmFmt) (s : State) : Result := s.gmLoad f .ldtag 8
/-- AMO.ADD (R229). -/
def execAmoAdd (f : ReqFmt) (s : State) : Result := s.wordRequest f (.amo .add) true
/-- AMO.AND (R229). -/
def execAmoAnd (f : ReqFmt) (s : State) : Result := s.wordRequest f (.amo .and) true
/-- AMO.OR (R229). -/
def execAmoOr (f : ReqFmt) (s : State) : Result := s.wordRequest f (.amo .or) true
/-- AMO.XOR (R229). -/
def execAmoXor (f : ReqFmt) (s : State) : Result := s.wordRequest f (.amo .xor) true
/-- AMO.MIN (R229). -/
def execAmoMin (f : ReqFmt) (s : State) : Result := s.wordRequest f (.amo .min) true
/-- AMO.MAX (R229). -/
def execAmoMax (f : ReqFmt) (s : State) : Result := s.wordRequest f (.amo .max) true
/-- AMO.MINU (R229). -/
def execAmoMinu (f : ReqFmt) (s : State) : Result := s.wordRequest f (.amo .minu) true
/-- AMO.MAXU (R229). -/
def execAmoMaxu (f : ReqFmt) (s : State) : Result := s.wordRequest f (.amo .maxu) true
/-- AMO.SWAP (R229). -/
def execAmoSwap (f : ReqFmt) (s : State) : Result := s.wordRequest f (.amo .swap) true
/-- AMO.CAS (R230): D is read at issue as the expected value, before it is marked empty. -/
def execAmoCas (f : ReqFmt) (s : State) : Result :=
  s.perform (s.globalChecks (nums (f.d :: f.a :: reqSrc true f)) (nums (f.a :: f.d :: reqSrc true f)) (nums [f.d]) (s.reg f.a) 8) fun s =>
    s.issueRequest .cas (s.reg f.a) (s.reqOperand f) (s.reg f.d) (reqOrd f) (reqScope f) (.reg f.d.toNat) none
/-- MKOBJ (R232): D[2:0] is the type; a queue header is aligned to 16. -/
def execMkobj (f : ReqFmt) (s : State) : Result :=
  let t := f.d.toNat % 8
  s.perform (s.globalChecks (nums (f.a :: reqSrc true f)) (nums (f.a :: reqSrc true f)) [] (s.reg f.a) (if t = 4 then 16 else 8)) fun s =>
    s.issueRequest (.mkobj t) (s.reg f.a) (s.reqOperand f) 0 (reqOrd f) (reqScope f) .ack none
/-- RMOBJ (R233). -/
def execRmobj (f : ReqFmt) (s : State) : Result := s.wordRequest f .rmobj false
/-- ctrAdd (R234), spec/04 Table 4.2. -/
def execCtrAdd (f : ReqFmt) (s : State) : Result := s.wordRequest f .ctrAdd true
/-- ctrTake (R234), spec/04 Table 4.2. -/
def execCtrTake (f : ReqFmt) (s : State) : Result := s.wordRequest f .ctrTake true
/-- ctrWait (R234), spec/04 Table 4.2. -/
def execCtrWait (f : ReqFmt) (s : State) : Result := s.wordRequest f .ctrWait true
/-- barWait (R234), spec/04 Table 4.2. -/
def execBarWait (f : ReqFmt) (s : State) : Result := s.wordRequest f .barWait true
/-- barJoin (R234), spec/04 Table 4.2. -/
def execBarJoin (f : ReqFmt) (s : State) : Result := s.wordRequest f .barJoin false
/-- lkAcq (R234), spec/04 Table 4.2. -/
def execLkAcq (f : ReqFmt) (s : State) : Result := s.wordRequest f .lkAcq false
/-- lkRel (R234), spec/04 Table 4.2. -/
def execLkRel (f : ReqFmt) (s : State) : Result := s.wordRequest f .lkRel false
/-- qpush (R234), spec/04 Table 4.2. -/
def execQpush (f : ReqFmt) (s : State) : Result := s.wordRequest f .qpush true
/-- qpop (R234), spec/04 Table 4.2. -/
def execQpop (f : ReqFmt) (s : State) : Result := s.wordRequest f .qpop false
/-- cndWait (R234), spec/04 Table 4.2. -/
def execCndWait (f : ReqFmt) (s : State) : Result := s.wordRequest f .cndWait true
/-- cndSignal (R234), spec/04 Table 4.2. -/
def execCndSignal (f : ReqFmt) (s : State) : Result := s.wordRequest f .cndSignal false
/-- cndBcast (R234), spec/04 Table 4.2. -/
def execCndBcast (f : ReqFmt) (s : State) : Result := s.wordRequest f .cndBcast false
/-- BAR.ARRIVE (R234, R236). -/
def execBarArrive (f : ReqFmt) (s : State) : Result := s.barRequest f .barArrive false
/-- BAR.SYNC (R234, R236): with FLAGS = 1 it merges the reply's flags. -/
def execBarSync (f : ReqFmt) (s : State) : Result := s.barRequest f .barSync true
/-- BAR.WDRAW (R234, R236). -/
def execBarWdraw (f : ReqFmt) (s : State) : Result := s.barRequest f .barWdraw false
/-- LK.TRY (R235). -/
def execLkTry (f : ReqFmt) (s : State) : Result := s.tryRequest f .lkTry false
/-- QPUSH.T (R235). -/
def execQpushT (f : ReqFmt) (s : State) : Result := s.tryRequest f .qpushT true
/-- QPOP.T (R235). -/
def execQpopT (f : ReqFmt) (s : State) : Result := s.tryRequest f .qpopT false

end Sys2Proof.Machine
end

