-- ==== Sys2Proof/Decode.lean ====
section
/-!
DEFINITION. Decoding, from the instruction words of spec/07 (Tables 7.1 to 7.7), total on any words and rejecting by
name; and the encoder, written from the same tables. Words are 32 bits, in address order (R169).
-/

namespace Sys2Proof

/-- A field of an instruction word: `n` bits from bit `lo`. -/
def field (w : W32) (lo n : Nat) : BitVec n := w.extractLsb' lo n

/-- A one-bit field. -/
def flag (w : W32) (i : Nat) : Bool := w.getLsbD i

/-- One bit. -/
def bit1 (b : Bool) : BitVec 1 := BitVec.ofBool b

/-- Answer `x` unless reserved bits are set. -/
def unlessReserved {α : Type} (bad : Bool) (x : α) : Except DecodeError α :=
  if bad then .error .reservedField else .ok x

/-! ### The base formats (Table 7.3) -/

def RegFmt.ofWord (w : W32) (lit : Option W64) : Except DecodeError RegFmt :=
  unlessReserved (flag w 7) { u := flag w 29, d := field w 15 7, a := field w 8 7, b := field w 0 7, lit }

def ImmFmt.ofWord (w : W32) (lit : Option W64) : Except DecodeError ImmFmt :=
  .ok { u := flag w 29, d := field w 15 7, a := field w 8 7, imm := field w 0 8, lit }

def CmpFmt.ofWord (w : W32) (lit : Option W64) : Except DecodeError CmpFmt :=
  unlessReserved (flag w 7 || field w 18 4 ≠ 0#4) { u := flag w 29, q := field w 15 3, a := field w 8 7, b := field w 0 7, lit }

/-- A format that names no literal (R191). -/
def noLiteral {α : Type} (lit : Option W64) (x : Except DecodeError α) : Except DecodeError α :=
  match lit with
  | none => x
  | some _ => .error .literal

def BrFmt.ofWord (w : W32) (lit : Option W64) : Except DecodeError BrFmt :=
  noLiteral lit (.ok { u := flag w 29, pred := field w 19 3, neg := flag w 18, off := field w 0 18 })

def LoopFmt.ofWord (w : W32) (lit : Option W64) : Except DecodeError LoopFmt :=
  noLiteral lit (.ok { u := flag w 29, c := field w 15 7, off := field w 0 15 })

def TestFmt.ofWord (w : W32) (lit : Option W64) : Except DecodeError TestFmt :=
  noLiteral lit (.ok { u := flag w 29, tile := flag w 21, bitNo := field w 15 6, sense := flag w 14, off := field w 0 14 })

def GmFmt.ofWord (w : W32) (lit : Option W64) : Except DecodeError GmFmt :=
  .ok { u := flag w 29, d := field w 15 7, a := field w 8 7, ord := field w 6 2, scope := field w 2 4, sz := field w 0 2, lit }

def LmFmt.ofWord (w : W32) (lit : Option W64) : Except DecodeError LmFmt :=
  noLiteral lit (unlessReserved (field w 0 9 ≠ 0#9)
    { u := flag w 29, d := field w 15 7, ptr := field w 12 3, inc := flag w 11, sz := field w 9 2 })

def ReqFmt.ofWord (w : W32) (lit : Option W64) : Except DecodeError ReqFmt :=
  .ok { u := flag w 29, d := field w 15 7, a := field w 8 7, b := field w 1 7, l := flag w 0, lit }

def NoneFmt.ofWord (w : W32) (lit : Option W64) : Except DecodeError NoneFmt :=
  noLiteral lit (unlessReserved (field w 0 22 ≠ 0#22) { u := flag w 29 })

/-! ### The extended formats (Table 7.5) -/

/-- Word 0 bit 0 is reserved in every extended instruction. -/
def VecFmt.ofWords (w0 w1 w2 : W32) (lit : Option W64) : Except DecodeError VecFmt :=
  if field w1 16 4 ≠ 0#4 then .error .scopeCode
  else if field w1 14 2 ≠ 0#2 then .error .orderCode
  else unlessReserved (flag w0 0 || field w1 0 2 ≠ 0#2 || field w2 0 20 ≠ 0#20)
    { u := flag w0 29, rd := field w0 15 7, ra := field w0 8 7, rb := field w0 1 7, pred := field w1 11 3, neg := flag w1 10,
      fmt := field w1 6 4, fmt2 := field w1 2 4, pd := field w2 29 3, id := flag w2 28, pa := field w2 25 3, ia := flag w2 24,
      pb := field w2 21 3, ib := flag w2 20, lit }

def MatFmt.ofWords (w0 w1 w2 : W32) (lit : Option W64) : Except DecodeError MatFmt :=
  if field w1 14 2 ≠ 0#2 then .error .orderCode
  else unlessReserved (flag w0 0 || field w2 0 20 ≠ 0#20)
    { u := flag w0 29, rd := field w0 15 7, ra := field w0 8 7, rb := field w0 1 7, scope := field w1 16 4, pred := field w1 11 3,
      neg := flag w1 10, expi := field w1 0 10, t := flag w2 31, pa := field w2 28 3, fmta := field w2 24 4, fmtb := field w2 20 4, lit }

def CopyFmt.ofWords (w0 w1 w2 : W32) (lit : Option W64) : Except DecodeError CopyFmt :=
  if field w1 14 2 ≠ 0#2 then .error .orderCode
  else unlessReserved (flag w0 0 || field w1 0 2 ≠ 0#2 || field w2 0 21 ≠ 0#21)
    { u := flag w0 29, rd := field w0 15 7, ra := field w0 8 7, rb := field w0 1 7, scope := field w1 16 4, pred := field w1 11 3,
      neg := flag w1 10, treg := field w1 3 7, lossy := flag w1 2, xreg := field w2 25 7, ptr := field w2 22 3, pl := flag w2 21, lit }

def LayFmt.ofWords (w0 w1 w2 : W32) (lit : Option W64) : Except DecodeError LayFmt :=
  if field w1 14 2 ≠ 0#2 then .error .orderCode
  else unlessReserved (flag w0 0 || field w1 0 3 ≠ 0#3 || field w2 0 25 ≠ 0#25)
    { u := flag w0 29, rd := field w0 15 7, ra := field w0 8 7, rb := field w0 1 7, scope := field w1 16 4, pred := field w1 11 3,
      neg := flag w1 10, treg := field w1 3 7, desc := field w2 25 7, lit }

def ColFmt.ofWords (w0 w1 w2 : W32) (lit : Option W64) : Except DecodeError ColFmt :=
  if field w1 14 2 ≠ 0#2 then .error .orderCode
  else unlessReserved (flag w0 0 || field w1 0 2 ≠ 0#2 || field w2 0 20 ≠ 0#20)
    { u := flag w0 29, rd := field w0 15 7, ra := field w0 8 7, rb := field w0 1 7, scope := field w1 16 4, pred := field w1 11 3,
      neg := flag w1 10, treg := field w1 3 7, lossy := flag w1 2, vsn := field w2 24 8, ptr := field w2 21 3, pi := flag w2 20, lit }

/-! ### The opcode maps (Tables 7.6 and 7.7) -/

/-- The base space, by OP. -/
def decodeBase (op : Nat) (w : W32) (lit : Option W64) : Except DecodeError Instr :=
  match op with
  | 0x00 => (.add <$> RegFmt.ofWord w lit)
  | 0x01 => (.sub <$> RegFmt.ofWord w lit)
  | 0x02 => (.mul <$> RegFmt.ofWord w lit)
  | 0x03 => (.mulh <$> RegFmt.ofWord w lit)
  | 0x04 => (.mulhu <$> RegFmt.ofWord w lit)
  | 0x05 => (.div <$> RegFmt.ofWord w lit)
  | 0x06 => (.divu <$> RegFmt.ofWord w lit)
  | 0x07 => (.rem <$> RegFmt.ofWord w lit)
  | 0x08 => (.remu <$> RegFmt.ofWord w lit)
  | 0x09 => (.and <$> RegFmt.ofWord w lit)
  | 0x0A => (.or <$> RegFmt.ofWord w lit)
  | 0x0B => (.xor <$> RegFmt.ofWord w lit)
  | 0x0C => (.andn <$> RegFmt.ofWord w lit)
  | 0x0D => (.shl <$> RegFmt.ofWord w lit)
  | 0x0E => (.shr <$> RegFmt.ofWord w lit)
  | 0x0F => (.sar <$> RegFmt.ofWord w lit)
  | 0x10 => (.rol <$> RegFmt.ofWord w lit)
  | 0x11 => (.min <$> RegFmt.ofWord w lit)
  | 0x12 => (.max <$> RegFmt.ofWord w lit)
  | 0x13 => (.minu <$> RegFmt.ofWord w lit)
  | 0x14 => (.maxu <$> RegFmt.ofWord w lit)
  | 0x15 => (.clz <$> RegFmt.ofWord w lit)
  | 0x16 => (.ctz <$> RegFmt.ofWord w lit)
  | 0x17 => (.popc <$> RegFmt.ofWord w lit)
  | 0x18 => (.addi <$> ImmFmt.ofWord w lit)
  | 0x19 => (.andi <$> ImmFmt.ofWord w lit)
  | 0x1A => (.ori <$> ImmFmt.ofWord w lit)
  | 0x1B => (.xori <$> ImmFmt.ofWord w lit)
  | 0x1C => (.shli <$> ImmFmt.ofWord w lit)
  | 0x1D => (.shri <$> ImmFmt.ofWord w lit)
  | 0x1E => (.sari <$> ImmFmt.ofWord w lit)
  | 0x1F => (.movi <$> ImmFmt.ofWord w lit)
  | 0x20 => (.mov <$> RegFmt.ofWord w lit)
  | 0x21 => (.cmpeq <$> CmpFmt.ofWord w lit)
  | 0x22 => (.cmpne <$> CmpFmt.ofWord w lit)
  | 0x23 => (.cmplt <$> CmpFmt.ofWord w lit)
  | 0x24 => (.cmpltu <$> CmpFmt.ofWord w lit)
  | 0x25 => (.cmple <$> CmpFmt.ofWord w lit)
  | 0x26 => (.cmpleu <$> CmpFmt.ofWord w lit)
  | 0x27 => (.cmov <$> ImmFmt.ofWord w lit)
  | 0x28 => (.fadd <$> RegFmt.ofWord w lit)
  | 0x29 => (.fsub <$> RegFmt.ofWord w lit)
  | 0x2A => (.fmul <$> RegFmt.ofWord w lit)
  | 0x2B => (.fdiv <$> RegFmt.ofWord w lit)
  | 0x2C => (.fma <$> RegFmt.ofWord w lit)
  | 0x2D => (.fsqrt <$> RegFmt.ofWord w lit)
  | 0x2E => (.fmin <$> RegFmt.ofWord w lit)
  | 0x2F => (.fmax <$> RegFmt.ofWord w lit)
  | 0x30 => (.fcmpeq <$> CmpFmt.ofWord w lit)
  | 0x31 => (.fcmplt <$> CmpFmt.ofWord w lit)
  | 0x32 => (.fcmple <$> CmpFmt.ofWord w lit)
  | 0x33 => (.fcvt <$> ImmFmt.ofWord w lit)
  | 0x34 => (.ftoi <$> RegFmt.ofWord w lit)
  | 0x35 => (.itof <$> RegFmt.ofWord w lit)
  | 0x36 => (.fabs <$> RegFmt.ofWord w lit)
  | 0x37 => (.fneg <$> RegFmt.ofWord w lit)
  | 0x38 => (.br <$> BrFmt.ofWord w lit)
  | 0x39 => (.call <$> BrFmt.ofWord w lit)
  | 0x3A => (.callr <$> RegFmt.ofWord w lit)
  | 0x3B => (.jmpr <$> RegFmt.ofWord w lit)
  | 0x3C => (.ret <$> NoneFmt.ofWord w lit)
  | 0x3D => (.loop <$> LoopFmt.ofWord w lit)
  | 0x3E => (.rep <$> RegFmt.ofWord w lit)
  | 0x3F => (.blk <$> RegFmt.ofWord w lit)
  | 0x40 => (.spawn <$> RegFmt.ofWord w lit)
  | 0x41 => (.callat <$> RegFmt.ofWord w lit)
  | 0x42 => (.fork <$> RegFmt.ofWord w lit)
  | 0x43 => (.join <$> RegFmt.ofWord w lit)
  | 0x44 => (.cancel <$> RegFmt.ofWord w lit)
  | 0x45 => (.cancelu <$> RegFmt.ofWord w lit)
  | 0x46 => (.tstb <$> TestFmt.ofWord w lit)
  | 0x50 => (.ldGlobal <$> GmFmt.ofWord w lit)
  | 0x51 => (.ldsGlobal <$> GmFmt.ofWord w lit)
  | 0x52 => (.stGlobal <$> GmFmt.ofWord w lit)
  | 0x53 => (.ldLocal <$> LmFmt.ofWord w lit)
  | 0x54 => (.ldsLocal <$> LmFmt.ofWord w lit)
  | 0x55 => (.stLocal <$> LmFmt.ofWord w lit)
  | 0x56 => (.ldFe <$> GmFmt.ofWord w lit)
  | 0x57 => (.stEf <$> GmFmt.ofWord w lit)
  | 0x58 => (.amoAdd <$> ReqFmt.ofWord w lit)
  | 0x59 => (.amoAnd <$> ReqFmt.ofWord w lit)
  | 0x5A => (.amoOr <$> ReqFmt.ofWord w lit)
  | 0x5B => (.amoXor <$> ReqFmt.ofWord w lit)
  | 0x5C => (.amoMin <$> ReqFmt.ofWord w lit)
  | 0x5D => (.amoMax <$> ReqFmt.ofWord w lit)
  | 0x5E => (.amoMinu <$> ReqFmt.ofWord w lit)
  | 0x5F => (.amoMaxu <$> ReqFmt.ofWord w lit)
  | 0x60 => (.amoSwap <$> ReqFmt.ofWord w lit)
  | 0x61 => (.amoCas <$> ReqFmt.ofWord w lit)
  | 0x62 => (.mkobj <$> ReqFmt.ofWord w lit)
  | 0x63 => (.rmobj <$> ReqFmt.ofWord w lit)
  | 0x64 => (.qpushT <$> ReqFmt.ofWord w lit)
  | 0x65 => (.qpopT <$> ReqFmt.ofWord w lit)
  | 0x66 => (.ldtag <$> GmFmt.ofWord w lit)
  | 0x68 => (.ctrAdd <$> ReqFmt.ofWord w lit)
  | 0x69 => (.ctrTake <$> ReqFmt.ofWord w lit)
  | 0x6A => (.ctrWait <$> ReqFmt.ofWord w lit)
  | 0x6B => (.barArrive <$> ReqFmt.ofWord w lit)
  | 0x6C => (.barSync <$> ReqFmt.ofWord w lit)
  | 0x6D => (.barWait <$> ReqFmt.ofWord w lit)
  | 0x6E => (.barJoin <$> ReqFmt.ofWord w lit)
  | 0x6F => (.barWdraw <$> ReqFmt.ofWord w lit)
  | 0x70 => (.lkAcq <$> ReqFmt.ofWord w lit)
  | 0x71 => (.lkTry <$> ReqFmt.ofWord w lit)
  | 0x72 => (.lkRel <$> ReqFmt.ofWord w lit)
  | 0x73 => (.qpush <$> ReqFmt.ofWord w lit)
  | 0x74 => (.qpop <$> ReqFmt.ofWord w lit)
  | 0x75 => (.cndWait <$> ReqFmt.ofWord w lit)
  | 0x76 => (.cndSignal <$> ReqFmt.ofWord w lit)
  | 0x77 => (.cndBcast <$> ReqFmt.ofWord w lit)
  | 0x78 => (.sysr <$> ImmFmt.ofWord w lit)
  | 0x79 => (.sysw <$> ImmFmt.ofWord w lit)
  | 0x7A => (.start <$> RegFmt.ofWord w lit)
  | 0x7B => (.reap <$> RegFmt.ofWord w lit)
  | 0x7C => (.pair <$> ImmFmt.ofWord w lit)
  | 0x7D => (.trap <$> ImmFmt.ofWord w lit)
  | 0x7E => (.rett <$> NoneFmt.ofWord w lit)
  | 0x7F => (.nop <$> NoneFmt.ofWord w lit)
  | _ => .error .opcode

/-- MINOR (word 1 bits 31:20), when the instruction assigns exactly `v`. -/
def withMinor {α : Type} (minor v : Nat) (x : Except DecodeError α) : Except DecodeError α :=
  if minor = v then x else .error .minor

/-- The extended space, by OP and MINOR. -/
def decodeExt (op minor : Nat) (w0 w1 w2 : W32) (lit : Option W64) : Except DecodeError Instr :=
  match op with
  | 0x00 => withMinor minor 0 (.vadd <$> VecFmt.ofWords w0 w1 w2 lit)
  | 0x01 => withMinor minor 0 (.vsub <$> VecFmt.ofWords w0 w1 w2 lit)
  | 0x02 => withMinor minor 0 (.vmul <$> VecFmt.ofWords w0 w1 w2 lit)
  | 0x03 => withMinor minor 0 (.vfma <$> VecFmt.ofWords w0 w1 w2 lit)
  | 0x04 => withMinor minor 0 (.vdiv <$> VecFmt.ofWords w0 w1 w2 lit)
  | 0x05 => withMinor minor 0 (.vsqrt <$> VecFmt.ofWords w0 w1 w2 lit)
  | 0x06 => withMinor minor 0 (.vmin <$> VecFmt.ofWords w0 w1 w2 lit)
  | 0x07 => withMinor minor 0 (.vmax <$> VecFmt.ofWords w0 w1 w2 lit)
  | 0x08 => withMinor minor 0 (.vabs <$> VecFmt.ofWords w0 w1 w2 lit)
  | 0x09 => withMinor minor 0 (.vneg <$> VecFmt.ofWords w0 w1 w2 lit)
  | 0x0A => withMinor minor 0 (.vrcp <$> VecFmt.ofWords w0 w1 w2 lit)
  | 0x0B => withMinor minor 0 (.vrsq <$> VecFmt.ofWords w0 w1 w2 lit)
  | 0x0C => withMinor minor 0 (.vexp2 <$> VecFmt.ofWords w0 w1 w2 lit)
  | 0x0D => withMinor minor 0 (.vlog2 <$> VecFmt.ofWords w0 w1 w2 lit)
  | 0x0E => withMinor minor 0 (.vadds <$> VecFmt.ofWords w0 w1 w2 lit)
  | 0x0F => withMinor minor 0 (.vsubs <$> VecFmt.ofWords w0 w1 w2 lit)
  | 0x10 => withMinor minor 0 (.vand <$> VecFmt.ofWords w0 w1 w2 lit)
  | 0x11 => withMinor minor 0 (.vor <$> VecFmt.ofWords w0 w1 w2 lit)
  | 0x12 => withMinor minor 0 (.vxor <$> VecFmt.ofWords w0 w1 w2 lit)
  | 0x13 => withMinor minor 0 (.vshl <$> VecFmt.ofWords w0 w1 w2 lit)
  | 0x14 => withMinor minor 0 (.vshr <$> VecFmt.ofWords w0 w1 w2 lit)
  | 0x15 => withMinor minor 0 (.vsar <$> VecFmt.ofWords w0 w1 w2 lit)
  | 0x16 => withMinor minor 0 (.vcmpeq <$> VecFmt.ofWords w0 w1 w2 lit)
  | 0x17 => withMinor minor 0 (.vcmplt <$> VecFmt.ofWords w0 w1 w2 lit)
  | 0x18 => withMinor minor 0 (.vcmple <$> VecFmt.ofWords w0 w1 w2 lit)
  | 0x19 => withMinor minor 0 (.vsel <$> VecFmt.ofWords w0 w1 w2 lit)
  | 0x1A => withMinor minor 0 (.vshuf <$> VecFmt.ofWords w0 w1 w2 lit)
  | 0x1B => withMinor minor 0 (.vbcast <$> VecFmt.ofWords w0 w1 w2 lit)
  | 0x1C => withMinor minor 0 (.vmov <$> VecFmt.ofWords w0 w1 w2 lit)
  | 0x1D => withMinor minor 0 (.vcvt <$> VecFmt.ofWords w0 w1 w2 lit)
  | 0x1E => withMinor minor 0 (.vqmx <$> VecFmt.ofWords w0 w1 w2 lit)
  | 0x1F => withMinor minor 0 (.vqb4 <$> VecFmt.ofWords w0 w1 w2 lit)
  | 0x20 => withMinor minor 0 (.vredsum <$> VecFmt.ofWords w0 w1 w2 lit)
  | 0x21 => withMinor minor 0 (.vredmin <$> VecFmt.ofWords w0 w1 w2 lit)
  | 0x22 => withMinor minor 0 (.vredmax <$> VecFmt.ofWords w0 w1 w2 lit)
  | 0x23 => withMinor minor 0 (.vredmSum <$> VecFmt.ofWords w0 w1 w2 lit)
  | 0x24 => withMinor minor 0 (.vredmMean <$> VecFmt.ofWords w0 w1 w2 lit)
  | 0x40 => withMinor minor 0 (.mzero <$> MatFmt.ofWords w0 w1 w2 lit)
  | 0x41 => withMinor minor 0 (.mma <$> MatFmt.ofWords w0 w1 w2 lit)
  | 0x42 => withMinor minor 0 (.mmaS <$> MatFmt.ofWords w0 w1 w2 lit)
  | 0x43 => withMinor minor 0 (.mdrain <$> MatFmt.ofWords w0 w1 w2 lit)
  | 0x50 =>
    match minor with
    | 0 => (.copy <$> CopyFmt.ofWords w0 w1 w2 lit)
    | 1 => (.copyStr <$> CopyFmt.ofWords w0 w1 w2 lit)
    | 2 => (.copyGth <$> CopyFmt.ofWords w0 w1 w2 lit)
    | 3 => (.copySct <$> CopyFmt.ofWords w0 w1 w2 lit)
    | 16 => (.copyTrg <$> CopyFmt.ofWords w0 w1 w2 lit)
    | 17 => (.copyStrTrg <$> CopyFmt.ofWords w0 w1 w2 lit)
    | 18 => (.copyGthTrg <$> CopyFmt.ofWords w0 w1 w2 lit)
    | 19 => (.copySctTrg <$> CopyFmt.ofWords w0 w1 w2 lit)
    | _ => .error .minor
  | 0x51 => withMinor minor 0 (.prefTier <$> CopyFmt.ofWords w0 w1 w2 lit)
  | 0x60 =>
    match minor with
    | 0 => (.layout <$> LayFmt.ofWords w0 w1 w2 lit)
    | 1 => (.layoutAb <$> LayFmt.ofWords w0 w1 w2 lit)
    | _ => .error .minor
  | 0x64 => withMinor minor 0 (.collOpen <$> ColFmt.ofWords w0 w1 w2 lit)
  | 0x65 => withMinor minor 0 (.collPut <$> ColFmt.ofWords w0 w1 w2 lit)
  | 0x66 => withMinor minor 0 (.collGet <$> ColFmt.ofWords w0 w1 w2 lit)
  | 0x67 => withMinor minor 0 (.collMark <$> ColFmt.ofWords w0 w1 w2 lit)
  | _ => .error .opcode

/-- An instruction that passes its encoding checks, or the first check it fails. -/
def checked (n : Nat) (x : Except DecodeError Instr) : Except DecodeError (Instr × Nat) :=
  match x with
  | .error e => .error e
  | .ok i =>
    match i.check with
    | some e => .error e
    | none => .ok (i, n)

/-- The number of words that word 0 says an instruction has (Table 7.1). -/
def wordCount (w0 : W32) : Nat :=
  match (field w0 30 2).toNat with
  | 0 => 1
  | 1 => 3
  | 2 => 3
  | _ => 5

/-- Decode the instruction at the head of a list of words: the instruction and how many words it takes. -/
def decode (ws : List W32) : Except DecodeError (Instr × Nat) :=
  match ws with
  | [] => .error .truncated
  | w0 :: rest =>
    let op := (field w0 22 7).toNat
    match (field w0 30 2).toNat, rest with
    | 0, _ => checked 1 (decodeBase op w0 none)
    | 1, lo :: hi :: _ => checked 3 (decodeBase op w0 (some (hi ++ lo)))
    | 2, w1 :: w2 :: _ => checked 3 (decodeExt op (field w1 20 12).toNat w0 w1 w2 none)
    | 3, w1 :: w2 :: lo :: hi :: _ => checked 5 (decodeExt op (field w1 20 12).toNat w0 w1 w2 (some (hi ++ lo)))
    | _, _ => .error .truncated

/-! ### Encoding -/

/-- The words of a literal, low half first (R169). -/
def litWords : Option W64 → List W32
  | none => []
  | some v => [v.extractLsb' 0 32, v.extractLsb' 32 32]

/-- LEN of a base instruction (Table 7.1). -/
def baseLen (lit : Option W64) : BitVec 2 := if lit.isSome then 0b01#2 else 0b00#2

/-- LEN of an extended instruction (Table 7.1). -/
def extLen (lit : Option W64) : BitVec 2 := if lit.isSome then 0b11#2 else 0b10#2

def RegFmt.words (f : RegFmt) (op : BitVec 7) : List W32 :=
  (baseLen f.lit ++ bit1 f.u ++ op ++ f.d ++ f.a ++ 0#1 ++ f.b : W32) :: litWords f.lit

def ImmFmt.words (f : ImmFmt) (op : BitVec 7) : List W32 :=
  (baseLen f.lit ++ bit1 f.u ++ op ++ f.d ++ f.a ++ f.imm : W32) :: litWords f.lit

def CmpFmt.words (f : CmpFmt) (op : BitVec 7) : List W32 :=
  (baseLen f.lit ++ bit1 f.u ++ op ++ 0#4 ++ f.q ++ f.a ++ 0#1 ++ f.b : W32) :: litWords f.lit

def BrFmt.words (f : BrFmt) (op : BitVec 7) : List W32 :=
  [(0#2 ++ bit1 f.u ++ op ++ f.pred ++ bit1 f.neg ++ f.off : W32)]

def LoopFmt.words (f : LoopFmt) (op : BitVec 7) : List W32 :=
  [(0#2 ++ bit1 f.u ++ op ++ f.c ++ f.off : W32)]

def TestFmt.words (f : TestFmt) (op : BitVec 7) : List W32 :=
  [(0#2 ++ bit1 f.u ++ op ++ bit1 f.tile ++ f.bitNo ++ bit1 f.sense ++ f.off : W32)]

def GmFmt.words (f : GmFmt) (op : BitVec 7) : List W32 :=
  (baseLen f.lit ++ bit1 f.u ++ op ++ f.d ++ f.a ++ f.ord ++ f.scope ++ f.sz : W32) :: litWords f.lit

def LmFmt.words (f : LmFmt) (op : BitVec 7) : List W32 :=
  [(0#2 ++ bit1 f.u ++ op ++ f.d ++ f.ptr ++ bit1 f.inc ++ f.sz ++ 0#9 : W32)]

def ReqFmt.words (f : ReqFmt) (op : BitVec 7) : List W32 :=
  (baseLen f.lit ++ bit1 f.u ++ op ++ f.d ++ f.a ++ f.b ++ bit1 f.l : W32) :: litWords f.lit

def NoneFmt.words (f : NoneFmt) (op : BitVec 7) : List W32 :=
  [(0#2 ++ bit1 f.u ++ op ++ 0#22 : W32)]

/-- Word 0 of an extended instruction (R176). -/
def extWord0 (lit : Option W64) (u : Bool) (op rd ra rb : BitVec 7) : W32 :=
  (extLen lit ++ bit1 u ++ op ++ rd ++ ra ++ rb ++ 0#1 : W32)

/-- Word 1 of an extended instruction (Table 7.5 (a)). -/
def extWord1 (minor : BitVec 12) (scope : BitVec 4) (pred : BitVec 3) (neg : Bool) (low : BitVec 10) : W32 :=
  (minor ++ scope ++ 0#2 ++ pred ++ bit1 neg ++ low : W32)

def VecFmt.words (f : VecFmt) (op : BitVec 7) : List W32 :=
  extWord0 f.lit f.u op f.rd f.ra f.rb :: extWord1 0 0 f.pred f.neg (f.fmt ++ f.fmt2 ++ 0#2) ::
    (f.pd ++ bit1 f.id ++ f.pa ++ bit1 f.ia ++ f.pb ++ bit1 f.ib ++ 0#20 : W32) :: litWords f.lit

def MatFmt.words (f : MatFmt) (op : BitVec 7) : List W32 :=
  extWord0 f.lit f.u op f.rd f.ra f.rb :: extWord1 0 f.scope f.pred f.neg f.expi ::
    (bit1 f.t ++ f.pa ++ f.fmta ++ f.fmtb ++ 0#20 : W32) :: litWords f.lit

def CopyFmt.words (f : CopyFmt) (op : BitVec 7) (minor : BitVec 12) : List W32 :=
  extWord0 f.lit f.u op f.rd f.ra f.rb :: extWord1 minor f.scope f.pred f.neg (f.treg ++ bit1 f.lossy ++ 0#2) ::
    (f.xreg ++ f.ptr ++ bit1 f.pl ++ 0#21 : W32) :: litWords f.lit

def LayFmt.words (f : LayFmt) (op : BitVec 7) (minor : BitVec 12) : List W32 :=
  extWord0 f.lit f.u op f.rd f.ra f.rb :: extWord1 minor f.scope f.pred f.neg (f.treg ++ 0#3) ::
    (f.desc ++ 0#25 : W32) :: litWords f.lit

def ColFmt.words (f : ColFmt) (op : BitVec 7) : List W32 :=
  extWord0 f.lit f.u op f.rd f.ra f.rb :: extWord1 0 f.scope f.pred f.neg (f.treg ++ bit1 f.lossy ++ 0#2) ::
    (f.vsn ++ f.ptr ++ bit1 f.pi ++ 0#20 : W32) :: litWords f.lit

/-- The words of an instruction; an event has none. -/
def encode : Instr → Option (List W32)
  | .add f => some (f.words 0x00#7)
  | .sub f => some (f.words 0x01#7)
  | .mul f => some (f.words 0x02#7)
  | .mulh f => some (f.words 0x03#7)
  | .mulhu f => some (f.words 0x04#7)
  | .div f => some (f.words 0x05#7)
  | .divu f => some (f.words 0x06#7)
  | .rem f => some (f.words 0x07#7)
  | .remu f => some (f.words 0x08#7)
  | .and f => some (f.words 0x09#7)
  | .or f => some (f.words 0x0A#7)
  | .xor f => some (f.words 0x0B#7)
  | .andn f => some (f.words 0x0C#7)
  | .shl f => some (f.words 0x0D#7)
  | .shr f => some (f.words 0x0E#7)
  | .sar f => some (f.words 0x0F#7)
  | .rol f => some (f.words 0x10#7)
  | .min f => some (f.words 0x11#7)
  | .max f => some (f.words 0x12#7)
  | .minu f => some (f.words 0x13#7)
  | .maxu f => some (f.words 0x14#7)
  | .clz f => some (f.words 0x15#7)
  | .ctz f => some (f.words 0x16#7)
  | .popc f => some (f.words 0x17#7)
  | .addi f => some (f.words 0x18#7)
  | .andi f => some (f.words 0x19#7)
  | .ori f => some (f.words 0x1A#7)
  | .xori f => some (f.words 0x1B#7)
  | .shli f => some (f.words 0x1C#7)
  | .shri f => some (f.words 0x1D#7)
  | .sari f => some (f.words 0x1E#7)
  | .movi f => some (f.words 0x1F#7)
  | .mov f => some (f.words 0x20#7)
  | .cmpeq f => some (f.words 0x21#7)
  | .cmpne f => some (f.words 0x22#7)
  | .cmplt f => some (f.words 0x23#7)
  | .cmpltu f => some (f.words 0x24#7)
  | .cmple f => some (f.words 0x25#7)
  | .cmpleu f => some (f.words 0x26#7)
  | .cmov f => some (f.words 0x27#7)
  | .fadd f => some (f.words 0x28#7)
  | .fsub f => some (f.words 0x29#7)
  | .fmul f => some (f.words 0x2A#7)
  | .fdiv f => some (f.words 0x2B#7)
  | .fma f => some (f.words 0x2C#7)
  | .fsqrt f => some (f.words 0x2D#7)
  | .fmin f => some (f.words 0x2E#7)
  | .fmax f => some (f.words 0x2F#7)
  | .fcmpeq f => some (f.words 0x30#7)
  | .fcmplt f => some (f.words 0x31#7)
  | .fcmple f => some (f.words 0x32#7)
  | .fcvt f => some (f.words 0x33#7)
  | .ftoi f => some (f.words 0x34#7)
  | .itof f => some (f.words 0x35#7)
  | .fabs f => some (f.words 0x36#7)
  | .fneg f => some (f.words 0x37#7)
  | .br f => some (f.words 0x38#7)
  | .call f => some (f.words 0x39#7)
  | .callr f => some (f.words 0x3A#7)
  | .jmpr f => some (f.words 0x3B#7)
  | .ret f => some (f.words 0x3C#7)
  | .loop f => some (f.words 0x3D#7)
  | .rep f => some (f.words 0x3E#7)
  | .blk f => some (f.words 0x3F#7)
  | .spawn f => some (f.words 0x40#7)
  | .callat f => some (f.words 0x41#7)
  | .fork f => some (f.words 0x42#7)
  | .join f => some (f.words 0x43#7)
  | .cancel f => some (f.words 0x44#7)
  | .cancelu f => some (f.words 0x45#7)
  | .tstb f => some (f.words 0x46#7)
  | .ldGlobal f => some (f.words 0x50#7)
  | .ldsGlobal f => some (f.words 0x51#7)
  | .stGlobal f => some (f.words 0x52#7)
  | .ldLocal f => some (f.words 0x53#7)
  | .ldsLocal f => some (f.words 0x54#7)
  | .stLocal f => some (f.words 0x55#7)
  | .ldFe f => some (f.words 0x56#7)
  | .stEf f => some (f.words 0x57#7)
  | .amoAdd f => some (f.words 0x58#7)
  | .amoAnd f => some (f.words 0x59#7)
  | .amoOr f => some (f.words 0x5A#7)
  | .amoXor f => some (f.words 0x5B#7)
  | .amoMin f => some (f.words 0x5C#7)
  | .amoMax f => some (f.words 0x5D#7)
  | .amoMinu f => some (f.words 0x5E#7)
  | .amoMaxu f => some (f.words 0x5F#7)
  | .amoSwap f => some (f.words 0x60#7)
  | .amoCas f => some (f.words 0x61#7)
  | .mkobj f => some (f.words 0x62#7)
  | .rmobj f => some (f.words 0x63#7)
  | .qpushT f => some (f.words 0x64#7)
  | .qpopT f => some (f.words 0x65#7)
  | .ldtag f => some (f.words 0x66#7)
  | .ctrAdd f => some (f.words 0x68#7)
  | .ctrTake f => some (f.words 0x69#7)
  | .ctrWait f => some (f.words 0x6A#7)
  | .barArrive f => some (f.words 0x6B#7)
  | .barSync f => some (f.words 0x6C#7)
  | .barWait f => some (f.words 0x6D#7)
  | .barJoin f => some (f.words 0x6E#7)
  | .barWdraw f => some (f.words 0x6F#7)
  | .lkAcq f => some (f.words 0x70#7)
  | .lkTry f => some (f.words 0x71#7)
  | .lkRel f => some (f.words 0x72#7)
  | .qpush f => some (f.words 0x73#7)
  | .qpop f => some (f.words 0x74#7)
  | .cndWait f => some (f.words 0x75#7)
  | .cndSignal f => some (f.words 0x76#7)
  | .cndBcast f => some (f.words 0x77#7)
  | .sysr f => some (f.words 0x78#7)
  | .sysw f => some (f.words 0x79#7)
  | .start f => some (f.words 0x7A#7)
  | .reap f => some (f.words 0x7B#7)
  | .pair f => some (f.words 0x7C#7)
  | .trap f => some (f.words 0x7D#7)
  | .rett f => some (f.words 0x7E#7)
  | .nop f => some (f.words 0x7F#7)
  | .vadd f => some (f.words 0x00#7)
  | .vsub f => some (f.words 0x01#7)
  | .vmul f => some (f.words 0x02#7)
  | .vfma f => some (f.words 0x03#7)
  | .vdiv f => some (f.words 0x04#7)
  | .vsqrt f => some (f.words 0x05#7)
  | .vmin f => some (f.words 0x06#7)
  | .vmax f => some (f.words 0x07#7)
  | .vabs f => some (f.words 0x08#7)
  | .vneg f => some (f.words 0x09#7)
  | .vrcp f => some (f.words 0x0A#7)
  | .vrsq f => some (f.words 0x0B#7)
  | .vexp2 f => some (f.words 0x0C#7)
  | .vlog2 f => some (f.words 0x0D#7)
  | .vadds f => some (f.words 0x0E#7)
  | .vsubs f => some (f.words 0x0F#7)
  | .vand f => some (f.words 0x10#7)
  | .vor f => some (f.words 0x11#7)
  | .vxor f => some (f.words 0x12#7)
  | .vshl f => some (f.words 0x13#7)
  | .vshr f => some (f.words 0x14#7)
  | .vsar f => some (f.words 0x15#7)
  | .vcmpeq f => some (f.words 0x16#7)
  | .vcmplt f => some (f.words 0x17#7)
  | .vcmple f => some (f.words 0x18#7)
  | .vsel f => some (f.words 0x19#7)
  | .vshuf f => some (f.words 0x1A#7)
  | .vbcast f => some (f.words 0x1B#7)
  | .vmov f => some (f.words 0x1C#7)
  | .vcvt f => some (f.words 0x1D#7)
  | .vqmx f => some (f.words 0x1E#7)
  | .vqb4 f => some (f.words 0x1F#7)
  | .vredsum f => some (f.words 0x20#7)
  | .vredmin f => some (f.words 0x21#7)
  | .vredmax f => some (f.words 0x22#7)
  | .vredmSum f => some (f.words 0x23#7)
  | .vredmMean f => some (f.words 0x24#7)
  | .mzero f => some (f.words 0x40#7)
  | .mma f => some (f.words 0x41#7)
  | .mmaS f => some (f.words 0x42#7)
  | .mdrain f => some (f.words 0x43#7)
  | .copy f => some (f.words 0x50#7 0x000#12)
  | .copyStr f => some (f.words 0x50#7 0x001#12)
  | .copyGth f => some (f.words 0x50#7 0x002#12)
  | .copySct f => some (f.words 0x50#7 0x003#12)
  | .copyTrg f => some (f.words 0x50#7 0x010#12)
  | .copyStrTrg f => some (f.words 0x50#7 0x011#12)
  | .copyGthTrg f => some (f.words 0x50#7 0x012#12)
  | .copySctTrg f => some (f.words 0x50#7 0x013#12)
  | .prefTier f => some (f.words 0x51#7 0x000#12)
  | .layout f => some (f.words 0x60#7 0x000#12)
  | .layoutAb f => some (f.words 0x60#7 0x001#12)
  | .collOpen f => some (f.words 0x64#7)
  | .collPut f => some (f.words 0x65#7)
  | .collGet f => some (f.words 0x66#7)
  | .collMark f => some (f.words 0x67#7)
  | .parkedInstructionResume _ => none
  | .deposit _ => none
  | .storeAcknowledgement _ => none
  | .faultReply _ _ _ => none
  | .lateFaultNotice _ => none
  | .translationLookup _ => none
  | .homeSliceLoad _ => none
  | .homeSliceStore _ => none
  | .homeSliceAmo _ => none
  | .homeSliceLdtag _ => none
  | .sluiceLdFe _ => none
  | .sluiceStEf _ => none
  | .sluiceMkobj _ => none
  | .sluiceRmobj _ => none
  | .sluiceCtrAdd _ => none
  | .sluiceCtrTake _ => none
  | .sluiceCtrWait _ => none
  | .sluiceBarArrive _ => none
  | .sluiceBarSync _ => none
  | .sluiceBarWait _ => none
  | .sluiceBarJoin _ => none
  | .sluiceBarWdraw _ => none
  | .sluiceLkAcq _ => none
  | .sluiceLkTry _ => none
  | .sluiceLkRel _ => none
  | .sluiceQpush _ => none
  | .sluiceQpop _ => none
  | .sluiceQpushT _ => none
  | .sluiceQpopT _ => none
  | .ringWordAccess _ => none
  | .sluiceCndWait _ => none
  | .sluiceCndSignal _ => none
  | .sluiceCndBcast _ => none
  | .sluiceForward _ => none
  | .polderEntryRead _ => none
  | .numberRequest _ => none
  | .completionNotice _ => none
  | .boundBarrierArrival _ => none
  | .triggerFire _ => none
  | .copyOperation _ _ => none
  | .prefTierOperation _ => none
  | .layoutOperation _ _ => none
  | .matrixMzeroPerform _ => none
  | .matrixMmaPerform _ => none
  | .matrixDrainPerform _ => none
  | .firmwareCounterWaitGrant _ => none
  | .dispatchPass _ => none
  | .launchPacket _ _ => none
  | .specialiserEvaluation _ _ => none
  | .placementPacket _ => none
  | .placementRetry _ => none
  | .cancelApply _ => none
  | .spawnRequest _ => none
  | .callatTaskArrival _ _ => none
  | .taskQueueSlotFree _ _ => none
  | .taskStart _ => none
  | .forwardedItem _ _ => none
  | .tierPromotion _ => none
  | .tierBlockMove _ _ => none
  | .gangStop _ _ _ => none
  | .partitionFault _ _ => none
  | .checkedPairMismatch _ => none
  | .stationHandoff _ => none
  | .routerInstall _ => none
  | .routerRowArrival _ _ _ _ => none
  | .routerSlotFreeNotice _ _ _ _ _ => none
  | .routerMarker _ _ _ _ => none
  | .routerMemberDeath _ _ _ => none
  | .callatAcceptance _ _ => none
  | .cancelAcceptance _ _ _ => none
  | .illegalInstruction => none
  | .issueSlot => none
  | .polderMove => none
  | .losswinExpiry => none
  | .hostLaunch => none
  | .hostGraph => none
  | .hostPhase => none
  | .hostJob => none
  | .hostCancel => none
  | .hostCancelu => none
  | .map => none
  | .unmap => none
  | .fwin => none
  | .qreg => none
  | .qunreg => none
  | .remap => none
  | .attest => none
  | .cfgstage => none
  | .unknownCommand => none
  | .queueScan => none
  | .idleReportDeferralEnd => none
  | .tierEpoch => none
  | .trapRecordWrite => none
  | .checkedPairTimeout => none
  | .eventRecordWrite => none
  | .peerTimeout => none
  | .peerProbe => none
  | .moduleReset => none
  | .lossyBlockArrival _ _ _ _ _ => none
  | .lossyBlockNotice _ _ => none
  | .migrationStart _ _ => none
  | .migrationInstalled => none
  | .migrationAbandon _ => none
  | .stackRefresh _ => none
  | .frameRetirement => none
  | .farControllerFailure _ => none
  | .localArrayUncorrectable _ => none
  | .trapQueueRead _ => none
  | .firewallRefusal _ _ _ _ => none
  | .rdmaWrite _ => none
  | .rdmaRead _ => none
  | .fabricRequestIn _ => none
  | .peerProbeAnswer _ => none
  | .powerMeasurement _ _ => none
  | .thermalEvent _ _ => none
  | .xvalRead _ => none
  | .xvalWrite _ => none
  | .stkscrubWrite _ _ => none
  | .sleccRead _ => none
  | .lbeccRead _ => none
  | .spstatRead _ => none
  | .fatalstatWrite _ _ => none
  | .dpmapWrite _ _ => none
  | .registerWrite _ _ => none

/-- The 32-bit words of an instruction whose bits are `w`, the first word lowest: five words, the longest instruction. -/
def tableWords (w : Nat) : List W32 :=
  [BitVec.ofNat 32 w, BitVec.ofNat 32 (w >>> 32), BitVec.ofNat 32 (w >>> 64), BitVec.ofNat 32 (w >>> 96), BitVec.ofNat 32 (w >>> 128)]

/-- The bits of an instruction as spec/opcode_table.json numbers them, those from `nbits` up taken as zero. -/
def tableBits (nbits w : Nat) : Nat := w % 2 ^ nbits

/-- What the decoder reads from an instruction whose bits are `w`, of which the table gives `nbits`. -/
def decodeTableWord (nbits w : Nat) : Option Instr :=
  match decode (tableWords (tableBits nbits w)) with
  | .ok (i, _) => some i
  | .error _ => none

end Sys2Proof
end

