-- ==== Sys2Proof/Machine/Fetch.lean ====
section
/-!
DEFINITION. Instruction fetch: generic code through the tenant's translation, residual code from the specialisation cache
(spec/20 R396; spec/13 R304, R310, R311; spec/03 R105).
-/

namespace Sys2Proof.Machine

open Sys2Proof

/-- The code that the context's launch reads: the kernel's address and the bytes its launch unit took (spec/03 R105). -/
def State.snapshot (s : State) (gid : Nat) : Option (Nat × List Byte) :=
  match (s.ctx gid).lid with
  | none => none
  | some lid =>
    match s.launch? lid with
    | none => none
    | some l =>
      match (l.shares.filter fun sh => sh.die = dieOf (coreOf gid)) ++ l.shares with
      | [] => none
      | sh :: _ => some (vaOf (l.word 0x10), sh.code)

/-- What the instruction cache of a context's cluster holds of a word. -/
def State.cached (s : State) (gid dp : Nat) : Option W64 :=
  (s.mem.icache.find? fun e => e.cluster = clusterOf (coreOf gid) && e.dp = dp).map (·.v)
/-- Four code bytes at DP address `dp`: as the cluster's instruction cache holds them, else as memory does (R105; log 36). -/
def State.liveCode (s : State) (gid dp : Nat) : List Byte :=
  match s.cached gid (wordAt dp) with
  | some v => ((bytesOfNat v.toNat 8).drop (dp % 8)).take 4
  | none => s.memBytes dp 4
/-- Four code bytes at a virtual address: as the launch took them, or, outside what it took, as `liveCode` gives them. -/
def State.codeBytes (s : State) (gid va dp : Nat) : List Byte :=
  match s.snapshot gid with
  | some (k, code) => if k ≤ va && va + 4 ≤ k + code.length then (code.drop (va - k)).take 4 else s.liveCode gid dp
  | none => s.liveCode gid dp

/-- One instruction word of generic code, or the cause and address of what fails (R396). -/
def State.genericWord (s : State) (gid : Nat) (pc : W64) : Except (Nat × W64) W32 :=
  if malformed pc || pc.toNat % 4 ≠ 0 then .error (0x04, pc)
  else match s.reach (s.tenantOf (coreOf gid)) pc false with
    | .error c => .error (c, pc)
    | .ok dp => if s.memType (wordAt dp) = 7 && (s.cached gid (wordAt dp)).isNone then .error (0x0A, pc)
                else .ok (BitVec.ofNat 32 (natOfBytes (s.codeBytes gid (vaOf pc) dp)))

/-- `n` words of generic code, up to the first that fails. -/
def State.genericWords (s : State) (gid : Nat) (pc : W64) : Nat → Except (Nat × W64) (List W32)
  | 0 => .ok []
  | n + 1 =>
    match s.genericWord gid pc with
    | .error e => .error e
    | .ok w =>
      match s.genericWords gid (pc + 4) n with
      | .error e => .error e
      | .ok ws => .ok (w :: ws)

/-- The words of the generic instruction at a PC. -/
def State.fetchGeneric (s : State) (gid : Nat) (pc : W64) : Except (Nat × W64) (List W32) :=
  match s.genericWord gid pc with
  | .error e => .error e
  | .ok w => s.genericWords gid pc (wordCount w)

/-- The words that bytes hold. -/
def wordsOfBytes : Nat → List Byte → List W32
  | 0, _ => []
  | n + 1, bs => BitVec.ofNat 32 (natOfBytes (bs.take 4)) :: wordsOfBytes n (bs.drop 4)

/-- The residual address has no reserved bit set (Table 13.4). -/
def residualForm (pc : W64) : Bool := pc = residualPc (resDie pc) (resEntry pc) (resOffset pc)

/-- What stands at a residual address: instruction words, or a continuation into generic code (spec/13 R304). -/
inductive Fetched where
  | words (ws : List W32)
  | goOn (pc : W64)
deriving DecidableEq, Repr

/-- Fetch at a residual address (R396). -/
def State.fetchResidual (s : State) (gid : Nat) (pc : W64) : Except (Nat × W64) Fetched :=
  match s.specEntry pc with
  | none => .error (0x04, pc)
  | some e =>
    if !residualForm pc || e.key.tenant ≠ s.tenantOf (coreOf gid) || e.code.length ≤ resOffset pc then .error (0x04, pc)
    else match e.map.find? fun b => b.off = resOffset pc with
      | none => .error (0x04, pc)
      | some b => if b.cont then .ok (.goOn b.orig) else .ok (.words (wordsOfBytes (b.len / 4) (e.code.drop b.off)))

/-- Fetch at a PC. -/
def State.fetch (s : State) (gid : Nat) (pc : W64) : Except (Nat × W64) Fetched :=
  if isResidual pc then s.fetchResidual gid pc
  else match s.fetchGeneric gid pc with
    | .error e => .error e
    | .ok ws => .ok (.words ws)

/-- The oldest words of a cluster beyond its instruction cache's size go (log 36). -/
def icacheTrim (cl : Nat) : Nat → List CodeWord → List CodeWord
  | _, [] => []
  | n, e :: es => if e.cluster = cl then (if n = 0 then icacheTrim cl 0 es else e :: icacheTrim cl (n - 1) es) else e :: icacheTrim cl n es
/-- A word enters the instruction cache of a context's cluster. -/
def State.fillIcache (s : State) (gid dp : Nat) : State :=
  let cl := clusterOf (coreOf gid)
  { s with mem := { s.mem with icache := icacheTrim cl Config.icacheWords ({ cluster := cl, dp, v := s.memWord dp } :: s.mem.icache) } }
/-- The code word that holds a PC is in the cluster's instruction cache, or comes there through its translation slice and its home slice; a
poisoned word does not (spec/01 R28, R31; R105). -/
def State.fetchWord (s : State) (gid : Nat) (pc : W64) : State :=
  match s.reach (s.tenantOf (coreOf gid)) pc false with
  | .error _ => s
  | .ok dp =>
    if (s.cached gid (wordAt dp)).isSome then s
    else
      let (s, _) := s.look (dieOf (coreOf gid)) (s.tenantOf (coreOf gid)) pc
      if s.memType (wordAt dp) = 7 then s else s.fillIcache gid (wordAt dp)
/-- Fetch brings the words of the generic instruction at a PC into the cluster's instruction cache. -/
def State.openCode (s : State) (gid : Nat) (pc : W64) : State :=
  if isResidual pc || malformed pc || pc.toNat % 4 ≠ 0 then s
  else
    let s := s.fetchWord gid pc
    match s.genericWord gid pc with
    | .error _ => s
    | .ok w => (List.range (wordCount w)).foldl (fun s i => s.fetchWord gid (pc + wordOfNat (4 * i))) s

/-- The slot of a context with its instruction's words. -/
def slotOf (gid : Nat) (ws : List W32) (again : Bool) : Slot :=
  { gid, len := 4 * ws.length, w0 := ws.headD 0, words := ws, again }
def State.withSlot (s : State) (sl : Slot) : State := { s with sched := { s.sched with slot := sl } }

end Sys2Proof.Machine
end

