-- ==== Sys2Proof/Machine/Vector.lean ====
section
/-!
DEFINITION. Vector instructions: rows of the AB, element operations, conversion, quantisation, reductions (spec/10 R241-R252;
spec/06 R155-R161).
-/

namespace Sys2Proof.Machine

open Sys2Proof

/-! ### Rows and their elements (R241, R243) -/

/-- Bits per element of a format code (Table 10.1). -/
def elemWidth (code : Nat) : Nat := fmtBits code

/-- The `n` elements of width `w` of a row, lowest first. -/
def rowElems (w n x : Nat) : List Nat := (List.range n).map fun i => x / 2 ^ (w * i) % 2 ^ w
/-- The row that holds elements of width `w`. -/
def rowOf (w : Nat) : List Nat → Nat
  | [] => 0
  | x :: xs => x % 2 ^ w + 2 ^ w * rowOf w xs
/-- The row, or rows, at an AB offset. -/
def State.rows (s : State) (off n : Nat) : Nat := natOfBytes (s.abBytes s.here off (32 * n))

/-- A pointer operand: the pointer, its `+`, and the rows it covers. -/
structure RowPtr where
  ptr : BitVec 3
  inc : Bool
  rows : Nat

def RowPtr.off (p : RowPtr) (c : Ctx) : Nat := ptrOffset (c.ptr p.ptr)
/-- The rows that an operand covers, by number. -/
def RowPtr.rowList (p : RowPtr) (c : Ctx) : List Nat := List.range' (p.off c / 32) p.rows

/-- The extra rotations of R80: k distinct rows in one bank cost k − 1; the costs of several banks add (log 38). -/
def extraRotations (rows : List Nat) : Nat :=
  let ds := rows.eraseDups
  ((List.range 3).map fun b => ds.countP (fun r => r / 4 % 3 = b) - 1).sum

/-- What a vector instruction writes: its row at PD, its scalar destination, its flags. -/
structure VecOut where
  row : Option Nat
  scalar : Option W64
  flags : Flags

/-- Steps 7 and 8 for pointers (spec/20 R394, R401). -/
def State.chkAlign (s : State) (p : RowPtr) : Check := Check.need (p.off s.cur % 32 = 0) 0x04 (wordOfNat (p.off s.cur))
def State.chkRows (s : State) (p : RowPtr) : Check :=
  Check.need (ptrBuf (s.cur.ptr p.ptr) = 0 && (p.rows = 0 || p.off s.cur + 32 * p.rows ≤ Config.abBytes)) 0x05 (wordOfNat (p.off s.cur))

/-- The effect of a vector instruction (R242): everything is read before anything is written; then the pointers advance, and
rows in one bank cost rotations (R80). -/
def State.vecEffect (s : State) (rd : BitVec 7) (pd : BitVec 3) (ps : List RowPtr) (rows : List Nat) (out : VecOut) : State :=
  let off := ptrOffset (s.cur.ptr pd)
  let s := match out.row with | some x => s.setAb s.here off (bytesOfNat x 32) | none => s
  let s := match out.scalar with | some v => s.writeReg rd v | none => s
  let s := s.orFlags s.gid out.flags
  (s.updCur fun c => { ps.foldl (fun c p => c.advancePtr p.ptr p.inc) c with rot := extraRotations rows }).next

/-- A vector instruction: its registers, its pointers, a value check, its effect. Of two pointers that fail one check the record names the first
one listed (log 40). -/
def State.vecOp (s : State) (f : VecFmt) (dsts srcs : List (BitVec 7)) (ps : List RowPtr) (good : Bool) (out : State → VecOut) : Result :=
  let rows := ps.flatMap fun p => p.rowList s.cur
  s.perform ([s.chkAllot (nums (dsts ++ srcs)), s.chkPred f.pred f.neg, s.chkFull (nums srcs)] ++ ps.map s.chkAlign ++ ps.map s.chkRows ++
      [s.chkValue good, s.chkDest (nums dsts), s.chkLines (rows.map (· / 4))])
    fun s => s.vecEffect f.rd f.pd ps rows (out s)

def ptrD (f : VecFmt) : RowPtr := { ptr := f.pd, inc := f.id, rows := 1 }
def ptrA (f : VecFmt) : RowPtr := { ptr := f.pa, inc := f.ia, rows := 1 }
def ptrB (f : VecFmt) : RowPtr := { ptr := f.pb, inc := f.ib, rows := 1 }
/-- The register that gives a, unless a literal does. -/
def vecSrcA (f : VecFmt) : List (BitVec 7) := regB f.ra f.lit

/-- The rows at PA and PB, and the old row at PD. -/
def State.rowA (s : State) (f : VecFmt) : Nat := s.rows (ptrOffset (s.cur.ptr f.pa)) 1
def State.rowB (s : State) (f : VecFmt) : Nat := s.rows (ptrOffset (s.cur.ptr f.pb)) 1
def State.rowD (s : State) (f : VecFmt) : Nat := s.rows (ptrOffset (s.cur.ptr f.pd)) 1

/-! ### Element-wise instructions (R246, R247) -/

/-- Join element results with their flags. -/
def joinElems (w : Nat) (rs : List (Nat × Flags)) : VecOut :=
  { row := some (rowOf w (rs.map (·.1))), scalar := none, flags := rs.foldl (fun fl r => fl ||| r.2) 0 }
/-- Elements of a format code. -/
def elemsOf (code x : Nat) : List Nat := rowElems (elemWidth code) (256 / elemWidth code) x

/-- d[i] := g(a[i]). -/
def State.vec1 (s : State) (f : VecFmt) (srcs : List (BitVec 7)) (g : State → Nat → Nat × Flags) : Result :=
  s.vecOp f [] srcs [ptrD f, ptrA f] true fun s => joinElems (elemWidth f.fmt.toNat) ((elemsOf f.fmt.toNat (s.rowA f)).map (g s))
/-- d[i] := g(a[i], b[i]). -/
def State.vec2 (s : State) (f : VecFmt) (g : Nat → Nat → Nat × Flags) : Result :=
  s.vecOp f [] [] [ptrD f, ptrA f, ptrB f] true fun s =>
    joinElems (elemWidth f.fmt.toNat) (List.zipWith g (elemsOf f.fmt.toNat (s.rowA f)) (elemsOf f.fmt.toNat (s.rowB f)))
/-- Whole rows. -/
def State.vecRow (s : State) (f : VecFmt) (ps : List RowPtr) (g : State → Nat) : Result :=
  s.vecOp f [] [] ps true fun s => { row := some (g s), scalar := none, flags := 0 }

/-- An integer result of `w` bits. -/
def wrapTo (w : Nat) (i : Int) : Nat := (i % (2 ^ w : Nat)).toNat
/-- An integer operation in the integer codes, a floating-point one in the others. -/
def byKind (code : Nat) (g : Int → Int → Int) (h : FpFormat → Nat → Nat → Nat × Flags) (a b : Nat) : Nat × Flags :=
  let w := elemWidth code
  if code < 2 then (wrapTo w (g (sext a w) (sext b w)), 0) else h (fpOf code) a b
def byKind1 (code : Nat) (g : Int → Int) (h : FpFormat → Nat → Nat × Flags) (a : Nat) : Nat × Flags :=
  let w := elemWidth code
  if code < 2 then (wrapTo w (g (sext a w)), 0) else h (fpOf code) a
/-- All ones where a compare holds. -/
def cmpElem (code : Nat) (g : Int → Int → Bool) (h : FpFormat → Nat → Nat → Bool × Flags) (a b : Nat) : Nat × Flags :=
  let w := elemWidth code
  let r := if code < 2 then (g (sext a w) (sext b w), 0) else h (fpOf code) a b
  (if r.1 then 2 ^ w - 1 else 0, r.2)
/-- Saturating integer elements. -/
def satElem (code : Nat) (g : Int → Int → Int) (a b : Nat) : Nat × Flags :=
  let w := elemWidth code
  (wrapTo w (satInt (g (sext a w) (sext b w)) (-(2 ^ (w - 1) : Nat)) ((2 ^ (w - 1) : Nat) - 1)), 0)
/-- The value of RA or the literal. -/
def State.vecA (s : State) (f : VecFmt) : W64 := s.opB f.ra f.lit
/-- The shift count c := a[5:0]. -/
def State.vecCount (s : State) (f : VecFmt) : Nat := slice (s.vecA f) 5 0
/-- An element of VSHUF. -/
def shufElem (w : Nat) (as : List Nat) (j : Nat) : Nat := if 2 ^ (w - 1) ≤ j then 0 else as.getD (j % (256 / w)) 0

/-- VADD (R246). -/
def execVadd (f : VecFmt) (s : State) : Result := s.vec2 f (byKind f.fmt.toNat (· + ·) fpAdd)

/-- VSUB (R246). -/
def execVsub (f : VecFmt) (s : State) : Result := s.vec2 f (byKind f.fmt.toNat (· - ·) fpSub)

/-- VMUL (R246). -/
def execVmul (f : VecFmt) (s : State) : Result := s.vec2 f (byKind f.fmt.toNat (· * ·) fpMul)

/-- VFMA (R246): a · b + old d, one rounding. -/
def execVfma (f : VecFmt) (s : State) : Result := 
  s.vecOp f [] [] [ptrD f, ptrA f, ptrB f] true fun s =>
    let code := f.fmt.toNat
    let w := elemWidth code
    let step (p : Nat × Nat) (c : Nat) : Nat × Flags :=
      if code < 2 then (wrapTo w (sext p.1 w * sext p.2 w + sext c w), 0) else fpFma (fpOf code) p.1 p.2 c
    joinElems w (List.zipWith step ((elemsOf code (s.rowA f)).zip (elemsOf code (s.rowB f))) (elemsOf code (s.rowD f)))

/-- VDIV (R246). -/
def execVdiv (f : VecFmt) (s : State) : Result := s.vec2 f (fpDiv (fpOf f.fmt.toNat))

/-- VSQRT (R246). -/
def execVsqrt (f : VecFmt) (s : State) : Result := s.vec1 f [] fun _ => fpSqrt (fpOf f.fmt.toNat)

/-- VMIN (R247). -/
def execVmin (f : VecFmt) (s : State) : Result := s.vec2 f (byKind f.fmt.toNat min (fun p => fpMinMax p false))

/-- VMAX (R247). -/
def execVmax (f : VecFmt) (s : State) : Result := s.vec2 f (byKind f.fmt.toNat max (fun p => fpMinMax p true))

/-- VABS (R247). -/
def execVabs (f : VecFmt) (s : State) : Result := s.vec1 f [] fun _ => byKind1 f.fmt.toNat (fun i => if i < 0 then -i else i) fpAbs

/-- VNEG (R247). -/
def execVneg (f : VecFmt) (s : State) : Result := s.vec1 f [] fun _ => byKind1 f.fmt.toNat (fun i => -i) fpNeg

/-- VRCP (R246, R160). -/
def execVrcp (f : VecFmt) (s : State) : Result := s.vec1 f [] fun _ => fpRcp

/-- VRSQ (R246, R160). -/
def execVrsq (f : VecFmt) (s : State) : Result := s.vec1 f [] fun _ => fpRsq

/-- VEXP2 (R246, R160). -/
def execVexp2 (f : VecFmt) (s : State) : Result := s.vec1 f [] fun _ => fpExp2

/-- VLOG2 (R246, R160). -/
def execVlog2 (f : VecFmt) (s : State) : Result := s.vec1 f [] fun _ => fpLog2

/-- VADDS (R246). -/
def execVadds (f : VecFmt) (s : State) : Result := s.vec2 f (satElem f.fmt.toNat (· + ·))

/-- VSUBS (R246). -/
def execVsubs (f : VecFmt) (s : State) : Result := s.vec2 f (satElem f.fmt.toNat (· - ·))

/-- VAND (R246). -/
def execVand (f : VecFmt) (s : State) : Result := s.vecRow f [ptrD f, ptrA f, ptrB f] fun s => s.rowA f &&& s.rowB f

/-- VOR (R246). -/
def execVor (f : VecFmt) (s : State) : Result := s.vecRow f [ptrD f, ptrA f, ptrB f] fun s => s.rowA f ||| s.rowB f

/-- VXOR (R246). -/
def execVxor (f : VecFmt) (s : State) : Result := s.vecRow f [ptrD f, ptrA f, ptrB f] fun s => s.rowA f ^^^ s.rowB f

/-- VSHL (R247). -/
def execVshl (f : VecFmt) (s : State) : Result := s.vec1 f (vecSrcA f) fun s x => (x * 2 ^ s.vecCount f % 2 ^ elemWidth f.fmt.toNat, 0)

/-- VSHR (R247). -/
def execVshr (f : VecFmt) (s : State) : Result := s.vec1 f (vecSrcA f) fun s x => (x / 2 ^ s.vecCount f, 0)

/-- VSAR (R247). -/
def execVsar (f : VecFmt) (s : State) : Result := s.vec1 f (vecSrcA f) fun s x => (wrapTo (elemWidth f.fmt.toNat) (sext x (elemWidth f.fmt.toNat) / (2 ^ s.vecCount f : Nat)), 0)

/-- VCMPEQ (R247). -/
def execVcmpeq (f : VecFmt) (s : State) : Result := s.vec2 f (cmpElem f.fmt.toNat (fun a b => a = b) fpCmpEq)

/-- VCMPLT (R247). -/
def execVcmplt (f : VecFmt) (s : State) : Result := s.vec2 f (cmpElem f.fmt.toNat (fun a b => a < b) fpCmpLt)

/-- VCMPLE (R247). -/
def execVcmple (f : VecFmt) (s : State) : Result := s.vec2 f (cmpElem f.fmt.toNat (fun a b => a ≤ b) fpCmpLe)

/-- VSEL (R246). -/
def execVsel (f : VecFmt) (s : State) : Result := 
  s.vecRow f [ptrD f, ptrA f, ptrB f] fun s => (s.rowD f &&& s.rowA f) ||| ((s.rowD f ^^^ (2 ^ 256 - 1)) &&& s.rowB f)

/-- VSHUF (R247). -/
def execVshuf (f : VecFmt) (s : State) : Result := 
  s.vecRow f [ptrD f, ptrA f, ptrB f] fun s =>
    let w := elemWidth f.fmt.toNat
    rowOf w ((elemsOf f.fmt.toNat (s.rowB f)).map (shufElem w (elemsOf f.fmt.toNat (s.rowA f))))

/-- VBCAST (R246). -/
def execVbcast (f : VecFmt) (s : State) : Result := 
  s.vecOp f [] (vecSrcA f) [ptrD f] true fun s =>
    let w := elemWidth f.fmt.toNat
    { row := some (rowOf w (List.replicate (256 / w) (s.vecA f).toNat)), scalar := none, flags := 0 }

/-- VMOV (R246). -/
def execVmov (f : VecFmt) (s : State) : Result := s.vecRow f [ptrD f, ptrA f] fun s => s.rowA f

/-! ### Conversion and quantisation (R248-R250) -/

/-- PART of VCVT, in the RD field. -/
def cvtPart (f : VecFmt) : Nat := f.rd.toNat % 8
/-- VCVT's result row. -/
def cvtRow (wd ws dst src part old x : Nat) : VecOut :=
  let k := 256 / max ws wd
  if wd < ws then
    let rs := (rowElems ws k x).map (convert dst src)
    let olds := rowElems wd (256 / wd) old
    { row := some (rowOf wd (olds.take (part * k) ++ rs.map (·.1) ++ olds.drop (part * k + k))), scalar := none
      flags := rs.foldl (fun fl r => fl ||| r.2) 0 }
  else joinElems wd (((rowElems ws (256 / ws) x).drop (part * k)).take k |>.map (convert dst src))

/-- |v| as a fraction over 2^200, for finite v of a source format: exact, since no source reaches below 2^−149. -/
def Val.mag (v : Val) : Nat :=
  match v with
  | .fin _ n _ e => n * 2 ^ (e + 200).toNat
  | _ => 0

/-- The largest exponent of an MX element format (R156). -/
def mxEmax (code : Nat) : Int := match code with | 8 => 8 | 9 => 15 | _ => 2
/-- The scale byte of a block (R156). -/
def mxScale (code : Nat) (vs : List Val) : Nat :=
  let a := (vs.map Val.mag).foldl max 0
  if a = 0 then 0 else (satInt ((Nat.log2 a : Int) - 200 - mxEmax code + 127) 0 254).toNat
/-- v / 2^(x − 127). -/
def unscale (x : Nat) : Val → Val
  | .fin n a d e => .fin n a d (e - ((x : Int) - 127))
  | v => v
/-- A block of 32 values in an MX format: scale, codes, flags (R156; spec/20 R404); a block with a NaN raises NV alone (log 39). -/
def quantMx (code : Nat) (vs : List Val) : Nat × List Nat × Flags :=
  if vs.any Val.isNan then (0xFF, vs.map fun _ => 0, flagNV)
  else
    let x := mxScale code vs
    let rs := vs.map fun v => roundTo (fpOf code) (unscale x v)
    (x, rs.map (·.1), rs.foldl (fun fl r => fl ||| r.2) 0)

/-- The magnitude table of QB4 (R150). -/
def qb4Mag : List Nat := [5, 16, 27, 40, 53, 69, 90, 127]
/-- The index of the nearest magnitude, lower on a tie: |v| = a, one unit of the table is `u`, both in one scale. -/
def qb4Nearest (a u : Nat) : Nat :=
  let dist (i : Nat) : Nat := Int.natAbs ((a : Int) - qb4Mag.getD i 0 * u)
  (List.range 8).foldl (fun b i => if dist i < dist b then i else b) 0
/-- A block of 64 values in QB4 under a group scale S (R157): q, codes, flags. Magnitudes are compared as multiples of
2^−200 / (127 · 255). NaN and infinities take index 7 with q = 0 too (log 39). -/
def quantQb4 (S : Val) (vs : List Val) : Nat × List Nat × Flags :=
  let s := S.mag
  let a := ((vs.filter fun v => !v.isInf).map Val.mag).foldl max 0
  let q := min 255 (divRound (255 * a) s 0).1
  let u := q * s
  let one (v : Val) : Nat × Flags :=
    match v with
    | .nan _ => (7, flagNV)
    | .inf n => (bitAt n 3 + 7, flagNV)
    | .fin n .. =>
      let m := v.mag * (127 * 255)
      let i := qb4Nearest m u
      (bitAt n 3 + i, flagIf (qb4Mag.getD i 0 * u ≠ m) flagNX)
  let rs := vs.map one
  (q, rs.map (·.1), rs.foldl (fun fl r => fl ||| r.2) 0)

/-- The values at PA of a format, `n` of them. -/
def State.valuesAt (s : State) (f : VecFmt) (n : Nat) : List Val :=
  let w := elemWidth f.fmt2.toNat
  (rowElems w n (s.rows (ptrOffset (s.cur.ptr f.pa)) (n * w / 256))).map (elemDecode f.fmt2.toNat)

/-- VCVT (R248). -/
def execVcvt (f : VecFmt) (s : State) : Result :=
  let wd := elemWidth f.fmt.toNat
  let ws := elemWidth f.fmt2.toNat
  s.vecOp f [] [] [ptrD f, ptrA f] true fun s => cvtRow wd ws f.fmt.toNat f.fmt2.toNat (cvtPart f) (s.rowD f) (s.rowA f)

/-- VQMX (R249). -/
def execVqmx (f : VecFmt) (s : State) : Result :=
  let blocks := if f.fmt.toNat = 10 then 2 else 1
  let w := elemWidth f.fmt2.toNat
  s.vecOp f [f.rd] [] [ptrD f, { ptrA f with rows := 32 * blocks * w / 256 }] true fun s =>
    let vs := s.valuesAt f (32 * blocks)
    let bs := (List.range blocks).map fun j => quantMx f.fmt.toNat ((vs.drop (32 * j)).take 32)
    { row := some (rowOf (elemWidth f.fmt.toNat) (bs.flatMap fun b => b.2.1))
      scalar := some (wordOfNat (rowOf 8 (bs.map (·.1)))), flags := bs.foldl (fun fl b => fl ||| b.2.2) 0 }

/-- VQB4 (R250): S must be finite and above 0. -/
def execVqb4 (f : VecFmt) (s : State) : Result :=
  let w := elemWidth f.fmt2.toNat
  let S (s : State) : Val := fpDecode fp32 (low32 (s.vecA f))
  let good : Bool := match S s with | .fin n a _ _ => !n && a ≠ 0 | _ => false
  s.vecOp f [f.rd] (vecSrcA f) [ptrD f, { ptrA f with rows := 64 * w / 256 }] good fun s =>
    let (q, codes, fl) := quantQb4 (S s) (s.valuesAt f 64)
    { row := some (rowOf 4 codes), scalar := some (wordOfNat q), flags := fl }


/-! ### Reductions (R251, R252) -/

/-- An integer reduction: exact, then wrapped and sign-extended. -/
def redInt (wf : Nat) (i : Int) : W64 := wordOfInt (sext (wrapTo wf i) wf)
/-- The pairwise tree over values with the flags they have raised (R159). -/
def redTree (g : Val → Val → Val × Flags) (vs : List Val) : Val × Flags :=
  let r := treeReduce (fun (x y : Val × Flags) => let (v, fl) := g x.1 y.1; (v, x.2 ||| y.2 ||| fl)) 6 (vs.map fun v => (v, 0))
  r.headD (.zero false, 0)
/-- One addition of the tree, rounded to the result format. -/
def redAdd (p : FpFormat) (x y : Val) : Val × Flags := let (b, fl) := finish p (valAdd x y); (fpDecode p b, fl)
/-- The smaller or larger, as FMIN and FMAX choose. -/
def redPick (larger : Bool) (x y : Val) : Val × Flags :=
  if x.isNan || y.isNan then (.nan false, flagIf (x.isSig || y.isSig) flagNV)
  else if larger then (if fpBefore x y then y else x, 0)
  else (if fpBefore y x then y else x, 0)
/-- A reduction of the row at PA to the scalar D. -/
def State.reduce (s : State) (f : VecFmt) (gi : List Int → Int) (g : FpFormat → Val → Val → Val × Flags) : Result :=
  let code := f.fmt.toNat
  let w := elemWidth f.fmt2.toNat
  s.vecOp f [f.rd] [] [ptrA f] true fun s =>
    let xs := rowElems w (256 / w) (s.rowA f)
    if code < 2 then { row := none, scalar := some (redInt (elemWidth code) (gi (xs.map fun x => sext x w))), flags := 0 }
    else
      let (v, fl) := redTree (g (fpOf code)) (xs.map (elemDecode f.fmt2.toNat))
      let (b, fl2) := roundTo (fpOf code) v
      { row := none, scalar := some (wordOfNat b), flags := fl ||| fl2 }

/-- VREDSUM (R251). -/
def execVredsum (f : VecFmt) (s : State) : Result := s.reduce f List.sum redAdd

/-- VREDMIN (R251). -/
def execVredmin (f : VecFmt) (s : State) : Result := s.reduce f (fun xs => xs.foldl min (xs.headD 0)) fun _ => redPick false

/-- VREDMAX (R251). -/
def execVredmax (f : VecFmt) (s : State) : Result := s.reduce f (fun xs => xs.foldl max (xs.headD 0)) fun _ => redPick true

/-- VREDM.SUM and VREDM.MEAN (R252, R161), with the order of checks of spec/20 R401; PD is checked before PA (log 40). -/
def State.maskedOp (s : State) (f : VecFmt) (mean : Bool) : Result :=
  let a := s.vecA f
  let n := slice a 6 0
  let cs := slice a 31 16
  let base := ptrOffset (s.cur.ptr f.pa)
  let valid := (List.range n).filter fun j => bit (s.reg f.rb) j
  let offs := valid.map fun j => base + j * cs
  let pa : RowPtr := { ptrA f with rows := 0 }
  let rows := ptrOffset (s.cur.ptr f.pd) / 32 :: offs.map (· / 32)
  s.perform [s.chkAllot (nums (f.rd :: f.rb :: vecSrcA f)), s.chkPred f.pred f.neg, s.chkFull (nums (f.rb :: vecSrcA f)), s.chkAlign (ptrD f), s.chkAlign pa,
      s.chkRows (ptrD f), s.chkRows pa, s.chkValue (n ≤ 64), Check.need (cs % 32 = 0) 0x04 s.word0,
      (match offs.find? fun o => Config.abBytes < o + 32 with | some o => .trap 0x05 (wordOfNat o) | none => .ok),
      s.chkDest (nums [f.rd]), s.chkLines (rows.map (· / 4))] fun s =>
    let w := elemWidth f.fmt.toNat
    let contribs := offs.map fun o => rowElems w (256 / w) (s.rows o 1)
    let rs := (List.range (256 / w)).map fun i =>
      maskedReduce (fpOf f.fmt.toNat) mean n (contribs.map fun es => elemDecode f.fmt.toNat (es.getD i 0))
    let k := valid.length
    let out := joinElems w rs
    s.vecEffect f.rd f.pd [ptrD f, ptrA f] rows { out with scalar := some (wordOfNat (k * 2 ^ 8 + (if k = 0 then 0 else 1))) }

/-- VREDM.SUM (R252). -/
def execVredmSum (f : VecFmt) (s : State) : Result := s.maskedOp f false

/-- VREDM.MEAN (R252). -/
def execVredmMean (f : VecFmt) (s : State) : Result := s.maskedOp f true

end Sys2Proof.Machine
end

