-- ==== Sys2Proof/Machine/Repeat.lean ====
section
/-!
DEFINITION. REP (spec/08 R202, R203; spec/20 R397, R399).
-/

namespace Sys2Proof.Machine

open Sys2Proof

/-- The meaning of an instruction that REP may repeat: a vector instruction or a local access. -/
def repeatable : Instr → Option (State → Result)
  | .vadd f => some (execVadd f)
  | .vsub f => some (execVsub f)
  | .vmul f => some (execVmul f)
  | .vfma f => some (execVfma f)
  | .vdiv f => some (execVdiv f)
  | .vsqrt f => some (execVsqrt f)
  | .vmin f => some (execVmin f)
  | .vmax f => some (execVmax f)
  | .vabs f => some (execVabs f)
  | .vneg f => some (execVneg f)
  | .vrcp f => some (execVrcp f)
  | .vrsq f => some (execVrsq f)
  | .vexp2 f => some (execVexp2 f)
  | .vlog2 f => some (execVlog2 f)
  | .vadds f => some (execVadds f)
  | .vsubs f => some (execVsubs f)
  | .vand f => some (execVand f)
  | .vor f => some (execVor f)
  | .vxor f => some (execVxor f)
  | .vshl f => some (execVshl f)
  | .vshr f => some (execVshr f)
  | .vsar f => some (execVsar f)
  | .vcmpeq f => some (execVcmpeq f)
  | .vcmplt f => some (execVcmplt f)
  | .vcmple f => some (execVcmple f)
  | .vsel f => some (execVsel f)
  | .vshuf f => some (execVshuf f)
  | .vbcast f => some (execVbcast f)
  | .vmov f => some (execVmov f)
  | .vcvt f => some (execVcvt f)
  | .vqmx f => some (execVqmx f)
  | .vqb4 f => some (execVqb4 f)
  | .vredsum f => some (execVredsum f)
  | .vredmin f => some (execVredmin f)
  | .vredmax f => some (execVredmax f)
  | .vredmSum f => some (execVredmSum f)
  | .vredmMean f => some (execVredmMean f)
  | .ldLocal f => some (execLdLocal f)
  | .ldsLocal f => some (execLdsLocal f)
  | .stLocal f => some (execStLocal f)
  | _ => none
/-- The scalar register that such an instruction names as its destination. -/
def bodyDest : Instr → Option (BitVec 7)
  | .vqmx f | .vqb4 f | .vredsum f | .vredmin f | .vredmax f | .vredmSum f | .vredmMean f => some f.rd
  | .ldLocal f | .ldsLocal f => some f.d
  | _ => none
/-- Its opcode lies in R202's set, whatever its other fields hold. -/
def bodyOpcode (w0 : W32) : Bool :=
  let op := (field w0 22 7).toNat
  if field w0 31 1 = 1 then op ≤ 0x24 else 0x53 ≤ op && op ≤ 0x55

/-- The words of the body: those kept when a repetition parked, or those that stand after REP. -/
def State.bodyWords (s : State) : Except (Nat × W64) (List W32) :=
  match s.sched.slot.words.drop 1 with
  | [] => (match s.fetch s.gid (s.cur.pc + 4) with
      | .ok (.words ws) => .ok ws
      | .ok (.goOn _) => .error (0x04, s.cur.pc + 4)
      | .error e => .error e)
  | ws => .ok ws

/-- Past REP and its body. -/
def State.pastBody (s : State) (ws : List W32) : State := s.updCur fun c => { c with pc := c.pc + wordOfNat (4 + 4 * ws.length) }

/-- One repetition has been performed: D counts down, unless the body parked or trapped. -/
def State.repDone (s : State) (d : BitVec 7) (n : W64) (ws : List W32) : State :=
  if s.cur.mode = .ready then
    let s := s.writeReg d (n - 1)
    if n = 1 then s.pastBody ws else s
  else s

/-- One issue of REP with the body's meaning, or with none where its encoding is illegal. A body that parked keeps what its predicate decided
(spec/20 R393). -/
def State.repeatOnce (s : State) (d : BitVec 7) (ws : List W32) (body : Option (State → Result)) : Result :=
  let n := s.reg d
  if n = 0 then .next (s.pastBody ws)
  else
    let s := s.withSlot { s.sched.slot with len := 0, w0 := ws.headD 0, words := s.sched.slot.words.take 1 ++ ws, again := s.sched.slot.again && s.sched.slot.words.drop 1 ≠ [] }
    match body with
    | none => .next (s.raise 0x01 s.word0)
    | some run =>
      match run s with
      | .next s => .next (s.repDone d n ws)
      | .fault r => .fault r
      | .refused r => .refused r

/-- REP (R202). A body outside its set, or one that names D as its destination, is illegal at REP's issue; a body that its own
entry makes illegal traps with its own word (R397). -/
def execRep (f : RegFmt) (s : State) : Result :=
  match s.bodyWords with
  | .error e => .next (s.raise e.1 e.2)
  | .ok ws =>
    let body : Option Instr := match decode ws with | .ok (i, _) => some i | .error _ => none
    let dest := match body with | some i => bodyDest i | none => none
    let run := match body with | some i => repeatable i | none => none
    match Check.first [s.chkValue (bodyOpcode (ws.headD 0) && dest ≠ some f.d), s.chkAllot (nums [f.d]), s.chkFull (nums [f.d])] with
    | .ok => s.repeatOnce f.d ws run
    | .skip => .next s
    | .trap cause addr => .next (s.raise cause addr)
    | .park p => .next ((s.withSlot { s.sched.slot with words := s.sched.slot.words.take 1 }).parkOn p)

end Sys2Proof.Machine
end

