-- ==== Sys2Proof/Machine/Scalar.lean ====
section
/-!
DEFINITION. Scalar integer and floating-point instructions, compares and select (spec/08 R192-R197).
-/

namespace Sys2Proof.Machine

open Sys2Proof

/-- Register format with A and B (R192): d := g(a, b). -/
def State.binary (s : State) (f : RegFmt) (g : W64 → W64 → W64) : Result :=
  s.registerOp (f.a :: regB f.b f.lit) [f.d] fun s => s.writeReg f.d (g (s.reg f.a) (s.opB f.b f.lit))
/-- Register format with A alone: d := g(a). -/
def State.unary (s : State) (f : RegFmt) (g : W64 → W64) : Result :=
  s.registerOp [f.a] [f.d] fun s => s.writeReg f.d (g (s.reg f.a))
/-- Immediate format with A: d := g(a, k). -/
def State.immediate (s : State) (f : ImmFmt) (g : W64 → W64 → W64) : Result :=
  s.registerOp [f.a] [f.d] fun s => s.writeReg f.d (g (s.reg f.a) (immValue f.imm f.lit))
/-- Compare format: q[QD] := g(a, b) (R194). -/
def State.compare (s : State) (f : CmpFmt) (g : W64 → W64 → Bool) : Result :=
  s.registerOp (f.a :: regB f.b f.lit) [] fun s => s.updCur fun c => c.setPred f.q (g (s.reg f.a) (s.opB f.b f.lit))
/-- A scalar floating-point result: bits 31:0, the rest zero, and its flags (R195). -/
def State.writeFp (s : State) (d : BitVec 7) (r : Nat × Flags) : State := (s.writeReg d (wordOfNat r.1)).orFlags s.gid r.2
def State.fpBinary (s : State) (f : RegFmt) (g : Nat → Nat → Nat × Flags) : Result :=
  s.registerOp (f.a :: regB f.b f.lit) [f.d] fun s => s.writeFp f.d (g (low32 (s.reg f.a)) (low32 (s.opB f.b f.lit)))
def State.fpUnary (s : State) (f : RegFmt) (g : Nat → Nat × Flags) : Result :=
  s.registerOp [f.a] [f.d] fun s => s.writeFp f.d (g (low32 (s.reg f.a)))
def State.fpCompare (s : State) (f : CmpFmt) (g : Nat → Nat → Bool × Flags) : Result :=
  s.registerOp (f.a :: regB f.b f.lit) [] fun s =>
    let r := g (low32 (s.reg f.a)) (low32 (s.opB f.b f.lit))
    (s.updCur fun c => c.setPred f.q r.1).orFlags s.gid r.2

/-! ### The functions of Table 8.1 -/

/-- The shift count of the register forms, b[5:0]. -/
def count6 (b : W64) : Nat := b.toNat % 64
/-- Signed division and remainder, truncating towards zero (R193). -/
def divRem (a b : W64) : Int × Int :=
  let sa := a.toInt
  let sb := b.toInt
  if sb = 0 then (-1, sa) else (Int.tdiv sa sb, Int.tmod sa sb)
def mulHigh (a b : W64) : W64 := wordOfInt ((a.toInt * b.toInt) / 2 ^ 64)
def mulHighU (a b : W64) : W64 := wordOfNat (a.toNat * b.toNat / 2 ^ 64)
def divU (a b : W64) : W64 := if b = 0 then BitVec.allOnes 64 else a / b
def remU (a b : W64) : W64 := if b = 0 then a else a % b
/-- Zero bits above the highest one bit, of the low `n` bits. -/
def leadingZeros (a : W64) : Nat → Nat
  | 0 => 0
  | n + 1 => if bit a n then 0 else 1 + leadingZeros a n
/-- Zero bits from bit `i` up, over `n` bits. -/
def trailingZeros (a : W64) (i : Nat) : Nat → Nat
  | 0 => 0
  | n + 1 => if bit a i then 0 else 1 + trailingZeros a (i + 1) n
def popCount (a : W64) : Nat := ((List.range 64).filter fun i => bit a i).length
def minS (a b : W64) : W64 := if a.toInt ≤ b.toInt then a else b
def maxS (a b : W64) : W64 := if a.toInt ≤ b.toInt then b else a
def minU (a b : W64) : W64 := if a.toNat ≤ b.toNat then a else b
def maxU (a b : W64) : W64 := if a.toNat ≤ b.toNat then b else a

/-! ### Integer instructions (R192) -/

/-- ADD (R192). -/
def execAdd (f : RegFmt) (s : State) : Result := s.binary f fun a b => a + b
/-- SUB (R192). -/
def execSub (f : RegFmt) (s : State) : Result := s.binary f fun a b => a - b
/-- MUL (R192). -/
def execMul (f : RegFmt) (s : State) : Result := s.binary f fun a b => a * b
/-- MULH (R192). -/
def execMulh (f : RegFmt) (s : State) : Result := s.binary f fun a b => mulHigh a b
/-- MULHU (R192). -/
def execMulhu (f : RegFmt) (s : State) : Result := s.binary f fun a b => mulHighU a b
/-- DIV (R192, R193). -/
def execDiv (f : RegFmt) (s : State) : Result := s.binary f fun a b => wordOfInt (divRem a b).1
/-- DIVU (R192). -/
def execDivu (f : RegFmt) (s : State) : Result := s.binary f fun a b => divU a b
/-- REM (R192, R193). -/
def execRem (f : RegFmt) (s : State) : Result := s.binary f fun a b => wordOfInt (divRem a b).2
/-- REMU (R192). -/
def execRemu (f : RegFmt) (s : State) : Result := s.binary f fun a b => remU a b
/-- AND (R192). -/
def execAnd (f : RegFmt) (s : State) : Result := s.binary f fun a b => a &&& b
/-- OR (R192). -/
def execOr (f : RegFmt) (s : State) : Result := s.binary f fun a b => a ||| b
/-- XOR (R192). -/
def execXor (f : RegFmt) (s : State) : Result := s.binary f fun a b => a ^^^ b
/-- ANDN (R192). -/
def execAndn (f : RegFmt) (s : State) : Result := s.binary f fun a b => a &&& ~~~b
/-- SHL (R192). -/
def execShl (f : RegFmt) (s : State) : Result := s.binary f fun a b => a <<< count6 b
/-- SHR (R192). -/
def execShr (f : RegFmt) (s : State) : Result := s.binary f fun a b => a >>> count6 b
/-- SAR (R192). -/
def execSar (f : RegFmt) (s : State) : Result := s.binary f fun a b => a.sshiftRight (count6 b)
/-- ROL (R192). -/
def execRol (f : RegFmt) (s : State) : Result := s.binary f fun a b => a.rotateLeft (count6 b)
/-- MIN (R192). -/
def execMin (f : RegFmt) (s : State) : Result := s.binary f fun a b => minS a b
/-- MAX (R192). -/
def execMax (f : RegFmt) (s : State) : Result := s.binary f fun a b => maxS a b
/-- MINU (R192). -/
def execMinu (f : RegFmt) (s : State) : Result := s.binary f fun a b => minU a b
/-- MAXU (R192). -/
def execMaxu (f : RegFmt) (s : State) : Result := s.binary f fun a b => maxU a b
/-- CLZ (R192). -/
def execClz (f : RegFmt) (s : State) : Result := s.unary f fun a => wordOfNat (leadingZeros a 64)
/-- CTZ (R192). -/
def execCtz (f : RegFmt) (s : State) : Result := s.unary f fun a => wordOfNat (trailingZeros a 0 64)
/-- POPC (R192). -/
def execPopc (f : RegFmt) (s : State) : Result := s.unary f fun a => wordOfNat (popCount a)
/-- MOV (R192). -/
def execMov (f : RegFmt) (s : State) : Result := s.unary f fun a => a
/-- ADDI (R192). -/
def execAddi (f : ImmFmt) (s : State) : Result := s.immediate f fun a k => a + k
/-- ANDI (R192). -/
def execAndi (f : ImmFmt) (s : State) : Result := s.immediate f fun a k => a &&& k
/-- ORI (R192). -/
def execOri (f : ImmFmt) (s : State) : Result := s.immediate f fun a k => a ||| k
/-- XORI (R192). -/
def execXori (f : ImmFmt) (s : State) : Result := s.immediate f fun a k => a ^^^ k
/-- SHLI (R192). -/
def execShli (f : ImmFmt) (s : State) : Result := s.immediate f fun a _ => a <<< (f.imm.toNat % 64)
/-- SHRI (R192). -/
def execShri (f : ImmFmt) (s : State) : Result := s.immediate f fun a _ => a >>> (f.imm.toNat % 64)
/-- SARI (R192). -/
def execSari (f : ImmFmt) (s : State) : Result := s.immediate f fun a _ => a.sshiftRight (f.imm.toNat % 64)
/-- MOVI (R192). -/
def execMovi (f : ImmFmt) (s : State) : Result := s.registerOp [] [f.d] fun s => s.writeReg f.d (immValue f.imm f.lit)

/-! ### Compares and select (R194) -/

/-- CMPEQ (R194). -/
def execCmpeq (f : CmpFmt) (s : State) : Result := s.compare f fun a b => decide (a = b)
/-- CMPNE (R194). -/
def execCmpne (f : CmpFmt) (s : State) : Result := s.compare f fun a b => decide (a ≠ b)
/-- CMPLT (R194). -/
def execCmplt (f : CmpFmt) (s : State) : Result := s.compare f fun a b => decide (a.toInt < b.toInt)
/-- CMPLTU (R194). -/
def execCmpltu (f : CmpFmt) (s : State) : Result := s.compare f fun a b => decide (a.toNat < b.toNat)
/-- CMPLE (R194). -/
def execCmple (f : CmpFmt) (s : State) : Result := s.compare f fun a b => decide (a.toInt ≤ b.toInt)
/-- CMPLEU (R194). -/
def execCmpleu (f : CmpFmt) (s : State) : Result := s.compare f fun a b => decide (a.toNat ≤ b.toNat)
/-- CMOV (R194): a condition that fails writes nothing and collides with nothing (R190). -/
def execCmov (f : ImmFmt) (s : State) : Result :=
  let holds := s.cur.pred (f.imm.extractLsb' 0 3) != f.imm.getLsbD 3
  s.perform [s.chkAllot (nums [f.d, f.a]), s.chkFull (nums [f.a]), if holds then s.chkDest (nums [f.d]) else .ok] fun s =>
    (if holds then s.writeReg f.d (s.reg f.a) else s).next

/-! ### Scalar floating point (R195-R197) -/

/-- FADD (R195). -/
def execFadd (f : RegFmt) (s : State) : Result := s.fpBinary f (fpAdd fp32)
/-- FSUB (R195). -/
def execFsub (f : RegFmt) (s : State) : Result := s.fpBinary f (fpSub fp32)
/-- FMUL (R195). -/
def execFmul (f : RegFmt) (s : State) : Result := s.fpBinary f (fpMul fp32)
/-- FDIV (R195). -/
def execFdiv (f : RegFmt) (s : State) : Result := s.fpBinary f (fpDiv fp32)
/-- FMIN (R195). -/
def execFmin (f : RegFmt) (s : State) : Result := s.fpBinary f (fpMinMax fp32 false)
/-- FMAX (R195). -/
def execFmax (f : RegFmt) (s : State) : Result := s.fpBinary f (fpMinMax fp32 true)
/-- FMA (R195) reads d as its third operand. -/
def execFma (f : RegFmt) (s : State) : Result :=
  s.registerOp (f.a :: f.d :: regB f.b f.lit) [f.d] fun s =>
    s.writeFp f.d (fpFma fp32 (low32 (s.reg f.a)) (low32 (s.opB f.b f.lit)) (low32 (s.reg f.d)))
/-- FSQRT (R195). -/
def execFsqrt (f : RegFmt) (s : State) : Result := s.fpUnary f (fpSqrt fp32)
/-- FABS (R195). -/
def execFabs (f : RegFmt) (s : State) : Result := s.fpUnary f (fpAbs fp32)
/-- FNEG (R195). -/
def execFneg (f : RegFmt) (s : State) : Result := s.fpUnary f (fpNeg fp32)
/-- FCMPEQ (R196). -/
def execFcmpeq (f : CmpFmt) (s : State) : Result := s.fpCompare f (fpCmpEq fp32)
/-- FCMPLT (R196). -/
def execFcmplt (f : CmpFmt) (s : State) : Result := s.fpCompare f (fpCmpLt fp32)
/-- FCMPLE (R196). -/
def execFcmple (f : CmpFmt) (s : State) : Result := s.fpCompare f (fpCmpLe fp32)
/-- FCVT (R197): from the format IMM[7:4] to the format IMM[3:0]. -/
def execFcvt (f : ImmFmt) (s : State) : Result :=
  s.registerOp [f.a] [f.d] fun s =>
    let src := f.imm.toNat / 16
    let dst := f.imm.toNat % 16
    s.writeFp f.d (convert dst src ((s.reg f.a).toNat % 2 ^ fmtBits src))
/-- FTOI (R197). -/
def execFtoi (f : RegFmt) (s : State) : Result :=
  s.registerOp [f.a] [f.d] fun s =>
    let r := fpToI64 (low32 (s.reg f.a))
    (s.writeReg f.d r.1).orFlags s.gid r.2
/-- ITOF (R197). -/
def execItof (f : RegFmt) (s : State) : Result :=
  s.registerOp [f.a] [f.d] fun s => s.writeFp f.d (i64ToFp (s.reg f.a))

end Sys2Proof.Machine
end

