-- ==== Sys2Proof/Machine/Symbolic.lean ====
section
/-!
DEFINITION. The launch specialiser's evaluation of a kernel: static values, emission, branches, loops, layout (spec/13 R297-R306,
R309; log 15). It is a function of the kernel's code, its key and the static window.
-/

namespace Sys2Proof.Machine

open Sys2Proof

/-! ### Specialisation states (R297, R302, R303) -/

/-- What the specialiser knows of a register or predicate: its static value, and whether the unit's own holds it. -/
structure Known (α : Type) where
  value : Option α
  held : Bool
deriving DecidableEq, Repr

/-- Nothing is known. -/
def Known.dynamic {α : Type} : Known α := { value := none, held := false }

/-- A specialisation state. The unroll stack has its innermost entry first. -/
structure SymState where
  pc : W64
  regs : List (Known W64)
  preds : List (Known Bool)
  stack : List (W64 × Nat)
  /-- Registers that may await a deposit, ascending (R299). -/
  await : List Nat
deriving DecidableEq, Repr

/-- Why an evaluation falls back to generic code (R309; spec/22 Table 22.3). -/
inductive Fallback where
  | size | count | depth | reads | steps | layout
deriving DecidableEq, Repr
def Fallback.code : Fallback → Nat
  | .size => 1 | .count => 2 | .depth => 3 | .reads => 4 | .steps => 5 | .layout => 6

/-- The fields of a kernel header (spec/07 Table 7.14) and its code, from the header's address on. -/
structure Kernel where
  addr : W64
  code : List Byte
deriving DecidableEq, Repr

def Kernel.word (k : Kernel) (off : Nat) : W64 := wordOfNat (natOfBytes ((k.code.drop off).take 8))
def Kernel.version (k : Kernel) : W64 := k.word 0x00
def Kernel.codeLen (k : Kernel) : Nat := slice (k.word 0x08) 47 16
def Kernel.quota (k : Kernel) : Nat := slice (k.word 0x08) 11 8
def Kernel.regs8 (k : Kernel) : Nat := slice (k.word 0x08) 4 0
def Kernel.uniform (k : Kernel) : Nat := slice (k.word 0x10) 3 0
def Kernel.swBase (k : Kernel) : W64 := k.word 0x18
def Kernel.swLen (k : Kernel) : W64 := k.word 0x20
def Kernel.entry (k : Kernel) : W64 := k.addr + 0x30

/-- The instruction words at a PC inside the kernel's code. -/
def Kernel.words (k : Kernel) (pc : W64) : Option (List W32) :=
  let o := (pc - k.addr).toNat
  let fin := min k.code.length (0x30 + k.codeLen)
  if o < 0x30 || fin < o + 4 then none
  else
    let n := wordCount (BitVec.ofNat 32 (natOfBytes ((k.code.drop o).take 4)))
    if fin < o + 4 * n then none else some (wordsOfBytes n (k.code.drop o))

/-- The state at the kernel's entry PC (R297). -/
def SymState.entry (k : Kernel) (seeds : List W64) : SymState :=
  { pc := k.entry
    regs := (List.range (8 * k.regs8)).map fun i =>
      if i < 4 then (if k.uniform.testBit i then { value := some (seeds.getD i 0), held := true } else Known.dynamic)
      else { value := some 0, held := true }
    preds := { value := some true, held := true } :: List.replicate 7 { value := some false, held := true }
    stack := [], await := [] }

def SymState.reg (st : SymState) (n : Nat) : Option W64 := (st.regs.getD n Known.dynamic).value
def SymState.pred (st : SymState) (q : Nat) : Option Bool := (st.preds.getD q Known.dynamic).value
def SymState.setReg (st : SymState) (n : Nat) (v : W64) : SymState := { st with regs := st.regs.set n { value := some v, held := false } }
def SymState.setPred (st : SymState) (q : Nat) (b : Bool) : SymState :=
  if q = 0 then st else { st with preds := st.preds.set q { value := some b, held := false } }
/-- Registers and predicates that an emitted instruction may write become dynamic (R300). -/
def SymState.forget (st : SymState) (rs qs waits : List Nat) : SymState :=
  { st with
    regs := (rs ++ waits).foldl (fun xs n => xs.set n Known.dynamic) st.regs
    preds := (qs.filter (· ≠ 0)).foldl (fun xs q => xs.set q Known.dynamic) st.preds
    await := (List.range st.regs.length).filter fun n => st.await.contains n || waits.contains n }
/-- Everything static is held (R301). -/
def SymState.hold (st : SymState) : SymState :=
  { st with regs := st.regs.map fun r => { r with held := r.value.isSome }, preds := st.preds.map fun p => { p with held := p.value.isSome } }

/-! ### Evaluation (R298, R299) -/

/-- Where an evaluated instruction writes. -/
inductive EvalDest where
  | reg (n : Nat)
  | pred (q : Nat)

/-- The scalar instructions of Table 13.1 with their meanings. -/
def evaluable : Instr → Option ((State → Result) × EvalDest)
  | .add f => some (execAdd f, .reg f.d.toNat)
  | .sub f => some (execSub f, .reg f.d.toNat)
  | .mul f => some (execMul f, .reg f.d.toNat)
  | .mulh f => some (execMulh f, .reg f.d.toNat)
  | .mulhu f => some (execMulhu f, .reg f.d.toNat)
  | .div f => some (execDiv f, .reg f.d.toNat)
  | .divu f => some (execDivu f, .reg f.d.toNat)
  | .rem f => some (execRem f, .reg f.d.toNat)
  | .remu f => some (execRemu f, .reg f.d.toNat)
  | .and f => some (execAnd f, .reg f.d.toNat)
  | .or f => some (execOr f, .reg f.d.toNat)
  | .xor f => some (execXor f, .reg f.d.toNat)
  | .andn f => some (execAndn f, .reg f.d.toNat)
  | .shl f => some (execShl f, .reg f.d.toNat)
  | .shr f => some (execShr f, .reg f.d.toNat)
  | .sar f => some (execSar f, .reg f.d.toNat)
  | .rol f => some (execRol f, .reg f.d.toNat)
  | .min f => some (execMin f, .reg f.d.toNat)
  | .max f => some (execMax f, .reg f.d.toNat)
  | .minu f => some (execMinu f, .reg f.d.toNat)
  | .maxu f => some (execMaxu f, .reg f.d.toNat)
  | .clz f => some (execClz f, .reg f.d.toNat)
  | .ctz f => some (execCtz f, .reg f.d.toNat)
  | .popc f => some (execPopc f, .reg f.d.toNat)
  | .addi f => some (execAddi f, .reg f.d.toNat)
  | .andi f => some (execAndi f, .reg f.d.toNat)
  | .ori f => some (execOri f, .reg f.d.toNat)
  | .xori f => some (execXori f, .reg f.d.toNat)
  | .shli f => some (execShli f, .reg f.d.toNat)
  | .shri f => some (execShri f, .reg f.d.toNat)
  | .sari f => some (execSari f, .reg f.d.toNat)
  | .movi f => some (execMovi f, .reg f.d.toNat)
  | .mov f => some (execMov f, .reg f.d.toNat)
  | .cmpeq f => some (execCmpeq f, .pred f.q.toNat)
  | .cmpne f => some (execCmpne f, .pred f.q.toNat)
  | .cmplt f => some (execCmplt f, .pred f.q.toNat)
  | .cmpltu f => some (execCmpltu f, .pred f.q.toNat)
  | .cmple f => some (execCmple f, .pred f.q.toNat)
  | .cmpleu f => some (execCmpleu f, .pred f.q.toNat)
  | .cmov f => some (execCmov f, .reg f.d.toNat)
  | .fadd f => some (execFadd f, .reg f.d.toNat)
  | .fsub f => some (execFsub f, .reg f.d.toNat)
  | .fmul f => some (execFmul f, .reg f.d.toNat)
  | .fdiv f => some (execFdiv f, .reg f.d.toNat)
  | .fma f => some (execFma f, .reg f.d.toNat)
  | .fsqrt f => some (execFsqrt f, .reg f.d.toNat)
  | .fmin f => some (execFmin f, .reg f.d.toNat)
  | .fmax f => some (execFmax f, .reg f.d.toNat)
  | .fcmpeq f => some (execFcmpeq f, .pred f.q.toNat)
  | .fcmplt f => some (execFcmplt f, .pred f.q.toNat)
  | .fcmple f => some (execFcmple f, .pred f.q.toNat)
  | .fcvt f => some (execFcvt f, .reg f.d.toNat)
  | .ftoi f => some (execFtoi f, .reg f.d.toNat)
  | .itof f => some (execItof f, .reg f.d.toNat)
  | .fabs f => some (execFabs f, .reg f.d.toNat)
  | .fneg f => some (execFneg f, .reg f.d.toNat)
  | _ => none

/-- A unit's state with the static values: dynamic registers are empty, or, with `full`, only those that may await a deposit are. -/
def SymState.trial (st : SymState) (full : Bool) : State :=
  let s := State.reset
  let s := s.setCtx 1 { Ctx.rest 1 with mode := .ready, park := .nothing, base := 32, limit := 32 + st.regs.length, work := .unit
                                        preds := BitVec.ofNat 8 ((st.preds.zipIdx.map fun p => bitAt (p.1.value = some true) p.2).sum) }
  let s := (st.regs.zipIdx).foldl (fun s r =>
    match r.1.value with
    | some v => s.setRegAt 1 r.2 v
    | none => if full && !st.await.contains r.2 then s else s.markEmpty 1 r.2) s
  { s with sched := { s.sched with slot := { gid := 1, len := 4, w0 := 0, words := [], again := false } } }

/-- What becomes of an instruction. -/
inductive Fold where
  /-- It is evaluated. -/
  | done (st : SymState)
  /-- Some input is not static. -/
  | emit
  /-- Evaluating it would trap, raise a flag or collide (R299). -/
  | stop

/-- The predicate that CMOV reads is static. -/
def SymState.cmovKnown (st : SymState) : Instr → Bool
  | .cmov f => (st.pred (f.imm.toNat % 8)).isSome
  | _ => true
/-- CMOV with a false condition writes nothing. -/
def SymState.cmovIdle (st : SymState) : Instr → Bool
  | .cmov f => (match st.pred (f.imm.toNat % 8) with | some b => b == f.imm.getLsbD 3 | none => false)
  | _ => false

/-- Evaluate a scalar instruction. -/
def SymState.fold (st : SymState) (i : Instr) (f : State → Result) (d : EvalDest) : Fold :=
  match f (st.trial false) with
  | .next s1 =>
    if (s1.ctx 1).mode = .parked || !st.cmovKnown i then .emit
    else match f (st.trial true) with
      | .next s =>
        if (s.ctx 1).mode ≠ .ready || (s.ctx 1).flags ≠ 0 then .stop
        else if st.cmovIdle i then .done st
        else match d with
          | .reg n => .done (st.setReg n (s.regAt 1 n))
          | .pred q => .done (st.setPred q ((s.ctx 1).pred (BitVec.ofNat 3 q)))
      | _ => .stop
  | _ => .stop

/-! ### What emitted instructions write (R300) -/

/-- Registers, predicates, and registers left awaiting a deposit. -/
def mayWrite : Instr → List Nat × List Nat × List Nat
  | .callat f => ([], [], [f.d.toNat])
  | .collGet f => ([], [], [f.rd.toNat])
  | .copyTrg f | .copyStrTrg f | .copyGthTrg f | .copySctTrg f => ([], [], [f.treg.toNat + 2])
  | .spawn f => ([], [f.d.toNat % 8], [])
  | .fork _ => ([0, 1, 2], [], [])
  | .blk f => ([f.d.toNat, f.a.toNat, f.b.toNat], [], [])
  | .rep f | .start f | .reap f => ([f.d.toNat], [], [])
  | .loop f => ([f.c.toNat], [], [])
  | .sysr f | .pair f => ([f.d.toNat], [], [])
  | .sysw f => ([], if f.imm.toNat = 0x28 then [1, 2, 3, 4, 5, 6, 7] else [], [])
  | .ldGlobal f | .ldsGlobal f | .ldFe f | .ldtag f => ([f.d.toNat], [], [])
  | .lkTry f | .qpushT f | .qpopT f => ([f.d.toNat, f.d.toNat + 1], [], [])
  | .amoAdd f | .amoAnd f | .amoOr f | .amoXor f | .amoMin f | .amoMax f | .amoMinu f | .amoMaxu f | .amoSwap f | .amoCas f | .rmobj f
  | .ctrAdd f | .ctrTake f | .ctrWait f | .barArrive f | .barSync f | .barWait f | .barJoin f | .barWdraw f | .lkAcq f | .lkRel f | .qpush f | .qpop f
  | .cndWait f | .cndSignal f | .cndBcast f => ([f.d.toNat], [], [])
  | i =>
    match evaluable i, bodyDest i with
    | some (_, .reg n), _ => ([n], [], [])
    | some (_, .pred q), _ => ([], [q], [])
    | none, some d => ([d.toNat], [], [])
    | none, none => ([], [], [])
/-- No residual instruction follows. -/
def endsPath : Instr → Bool
  | .ret _ | .jmpr _ | .callr _ | .join _ => true
  | _ => false

/-! ### Residual code -/

/-- One piece of residual code: words, the label that its offset names with the width of the field, and its back-map. An inserted BR takes
the record of what it leads to. -/
structure Residual where
  words : List W32
  target : Option Nat
  width : Nat
  orig : W64
  iters : List Nat
  cont : Bool
  inserted : Bool
  /-- What follows it in the order of emission is not reached from it. -/
  ends : Bool := false
deriving DecidableEq, Repr

/-- The evaluation so far: pieces, newest first; the states reached, each with the number of pieces before its block. -/
structure Symbolic where
  s : State
  /-- The specialiser's die. -/
  die : Nat
  pieces : List Residual
  bytes : Nat
  labels : List (SymState × Nat)
  reads : List (W64 × W64)
  taken : List (W64 × Nat)
  steps : Nat
  kept : Nat

/-- An inserted `br`, PRED 0 and NEG 0, to a label (R302). -/
def insertedBr (label : Nat) (orig : W64) (iters : List Nat) : Residual :=
  { words := ({ u := false, pred := 0, neg := false, off := 0 } : BrFmt).words 0x38#7, target := some label, width := 18, orig, iters, cont := false
    inserted := true, ends := true }

/-- A path ends with the newest piece. -/
def Symbolic.endPath (e : Symbolic) : Symbolic := { e with pieces := match e.pieces with | p :: ps => { p with ends := true } :: ps | [] => [] }
def Symbolic.add (e : Symbolic) (r : Residual) : Symbolic := { e with pieces := r :: e.pieces, bytes := e.bytes + 4 * r.words.length }
def Symbolic.label? (e : Symbolic) (st : SymState) : Option Nat := (e.labels.find? fun l => l.1.pc = st.pc && l.1 = st).map (·.2)

/-- Word 0 with U = 0. -/
def clearU (ws : List W32) : List W32 :=
  match ws with
  | w :: rest => (w &&& ~~~(0x20000000#32)) :: rest
  | [] => []
/-- Materialising instructions (R301). -/
def materialise (st : SymState) (iters : List Nat) (pc : W64) : List Residual :=
  let piece (ws : List W32) : Residual := { words := ws, target := none, width := 0, orig := pc, iters, cont := false, inserted := false }
  (st.regs.zipIdx.filterMap fun r =>
    match r.1.value with
    | some v =>
      if r.1.held then none
      else if v.toInt < -128 || 127 < v.toInt then some (piece (({ u := false, d := BitVec.ofNat 7 r.2, a := 0, imm := 0, lit := some v } : ImmFmt).words 0x1F#7))
      else some (piece (({ u := false, d := BitVec.ofNat 7 r.2, a := 0, imm := v.extractLsb' 0 8, lit := none } : ImmFmt).words 0x1F#7))
    | none => none) ++
  (st.preds.zipIdx.filterMap fun p =>
    match p.1.value with
    | some b => if p.1.held then none else some (piece (({ u := false, q := BitVec.ofNat 3 p.2, a := 0, b := 0, lit := none } : CmpFmt).words (if b then 0x21#7 else 0x22#7)))
    | none => none)
/-- Emit the materialising instructions for what follows at a PC. -/
def Symbolic.prepare (e : Symbolic) (st : SymState) : Symbolic := (materialise st (st.stack.map (·.2)) st.pc).foldl Symbolic.add e
/-- Emit the words of the instruction at the state's PC. -/
def Symbolic.emit (e : Symbolic) (st : SymState) (ws : List W32) (target : Option Nat) (width : Nat) : Symbolic :=
  (e.prepare st).add { words := clearU ws, target, width, orig := st.pc, iters := st.stack.map (·.2), cont := false, inserted := false }
/-- End a path with a continuation into generic code (R304); it takes one word (log 15). -/
def Symbolic.continue_ (e : Symbolic) (st : SymState) : Symbolic :=
  (e.prepare st).add { words := [0], target := none, width := 0, orig := st.pc, iters := st.stack.map (·.2), cont := true, inserted := false }

/-! ### Branches (R302, R303) -/

/-- The unroll stack after a resolved transfer at X, backward or not. -/
def unroll (stack : List (W64 × Nat)) (x t : W64) (taken : Bool) : Option (List (W64 × Nat)) :=
  let below := stack.dropWhile fun p => p.1 ≠ x
  if x.toNat < t.toNat then some stack
  else if !taken then some (if below = [] then stack else below.drop 1)
  else match below with
    | (_, n) :: rest => some ((x, n + 1) :: rest)
    | [] => if 7 ≤ stack.length then none else some ((x, 1) :: stack)

/-- A resolved transfer: the state afterwards, the taken resolutions counted. -/
def Symbolic.resolve (e : Symbolic) (st : SymState) (t fall : W64) (taken : Bool) : Except Fallback (Symbolic × SymState) :=
  match unroll st.stack st.pc t taken with
  | none => .error .depth
  | some stack =>
    let back := taken && t.toNat ≤ st.pc.toNat
    let n := ((e.taken.find? fun p => p.1 = st.pc).map (·.2)).getD 0
    if back && 64 ≤ n then .error .count
    else
      let e := if back then { e with taken := (st.pc, n + 1) :: e.taken.filter fun p => p.1 ≠ st.pc } else e
      .ok (e, { st with pc := if taken then t else fall, stack })

/-! ### The static window (R305) -/

/-- The window read of a load, or that it is not to be evaluated, or a fallback. -/
inductive WindowRead where
  | value (e : Symbolic) (v : W64)
  | stop (e : Symbolic)
  | full
def Symbolic.window (e : Symbolic) (k : Kernel) (tenant : Nat) (a : W64) (w : Nat) (signed : Bool) : WindowRead :=
  let inside := k.swBase ≠ 0 && k.swBase.toNat ≤ a.toNat && a.toNat + w ≤ k.swBase.toNat + k.swLen.toNat
  if isGlobal a || malformed a || a.toNat % w ≠ 0 || !inside then .stop e
  else match e.s.xlat e.die tenant a false with
    | (s, .error _) => .stop { e with s }
    | (s, .ok dp) =>
      let e := { e with s := s.open (wordAt dp) }
      if e.s.memType (wordAt dp) = 7 then .stop e
      else
        let v := e.s.memWord (wordAt dp)
        let at_ := a - wordOfNat (a.toNat % 8)
        if e.reads.any fun r => r.1 = at_ then .value e (extractWord v (a.toNat % 8) w signed)
        else if 256 ≤ e.reads.length then .full
        else .value { e with reads := e.reads ++ [(at_, v)] } (extractWord v (a.toNat % 8) w signed)

/-! ### One instruction -/

/-- Where a path goes on, and which other state is still to be followed. -/
structure Onward where
  e : Symbolic
  next : Option SymState
  later : Option SymState

/-- Emit a branch that leads both ways, or, with its outcome static, one way. -/
def Symbolic.branch (e : Symbolic) (st : SymState) (ws : List W32) (width : Nat) (t : W64) (outcome : Option Bool) (rs : List Nat) (idOf : SymState → Symbolic → Nat) :
    Except Fallback Onward :=
  let fall := st.pc + 4
  let st1 := (st.hold).forget rs [] []
  match outcome with
  | none =>
    let tgt := { st1 with pc := t }
    .ok { e := e.emit st ws (some (idOf tgt e)) width, next := some { st1 with pc := fall }, later := some tgt }
  | some taken =>
    match e.resolve st t fall taken with
    | .error x => .error x
    | .ok (e, st2) =>
      let tgt := { st1 with pc := st2.pc, stack := st2.stack }
      let e := e.emit st ws (if taken then some (idOf tgt e) else none) (if taken then width else 0)
      .ok { e := if taken then e.endPath else e, next := some tgt, later := none }

/-- Targets are numbered by their places in the list of targets met. -/
structure Walk where
  e : Symbolic
  targets : List SymState

def Walk.idOf (w : Walk) (st : SymState) : Nat × Walk :=
  match w.targets.findIdx? fun x => x = st with
  | some i => (i, w)
  | none => (w.targets.length, { w with targets := w.targets ++ [st] })

/-- The targets that a branch may name are noted first, so that its piece can hold their numbers. -/
def Walk.branch (w : Walk) (st : SymState) (ws : List W32) (width : Nat) (t : W64) (outcome : Option Bool) (rs : List Nat) : Except Fallback (Walk × Option SymState × Option SymState) :=
  match w.e.branch st ws width t outcome rs (fun _ _ => 0) with
  | .error x => .error x
  | .ok on =>
    let dest := match outcome with | none => on.later | some true => on.next | some false => none
    match dest with
    | none => .ok ({ w with e := on.e }, on.next, on.later)
    | some d =>
      let (i, w1) := w.idOf d
      match w1.e.branch st ws width t outcome rs (fun _ _ => i) with
      | .error x => .error x
      | .ok on => .ok ({ w1 with e := on.e }, if outcome = some true && (on.e.label? d).isSome then none else on.next, on.later)

/-- An instruction that is emitted and passed. -/
def Walk.pass (w : Walk) (st : SymState) (ws : List W32) (i : Option Instr) : Walk × Option SymState × Option SymState :=
  let e := w.e.emit st ws none 0
  let (rs, qs, waits) := (i.map mayWrite).getD ([], [], [])
  let st1 := { (st.hold).forget rs qs waits with pc := st.pc + wordOfNat (4 * ws.length) }
  ({ w with e }, if (i.map endsPath).getD false then none else some st1, none)

/-- The U bit of word 0. -/
def markedU (ws : List W32) : Bool := (ws.headD 0).getLsbD 29

/-- REP with its body: two instructions emitted (R301, R308). A REP whose body lies past the code runs as generic code (log 15). -/
def Walk.rep (w : Walk) (k : Kernel) (st : SymState) (ws : List W32) (i : Instr) : Walk × Option SymState × Option SymState :=
  match k.words (st.pc + wordOfNat (4 * ws.length)) with
  | none => ({ w with e := w.e.continue_ st }, none, none)
  | some body =>
    let (w, next, _) := w.pass st ws (some i)
    match next with
    | none => (w, none, none)
    | some st1 =>
      let j := match decode body with | .ok (j, _) => some j | .error _ => none
      let e := w.e.add { words := clearU body, target := none, width := 0, orig := st1.pc, iters := st.stack.map (·.2), cont := false, inserted := false }
      let (rs, qs, waits) := (j.map mayWrite).getD ([], [], [])
      ({ w with e }, some { st1.forget rs qs waits with pc := st1.pc + wordOfNat (4 * body.length) }, none)

/-- A load from the static window, or its emission. -/
def Walk.load (w : Walk) (k : Kernel) (tenant : Nat) (st : SymState) (ws : List W32) (i : Instr) (f : GmFmt) (signed : Bool) :
    Except Fallback (Walk × Option SymState × Option SymState) :=
  let stop (e : Symbolic) : Except Fallback (Walk × Option SymState × Option SymState) := .ok (({ w with e := { e with kept := e.kept + 1 } }).pass st ws (some i))
  if !markedU ws then .ok (w.pass st ws (some i))
  else if st.regs.length ≤ f.a.toNat || st.regs.length ≤ f.d.toNat then stop w.e
  else match st.reg f.a.toNat with
  | none => .ok (w.pass st ws (some i))
  | some v =>
    if st.await.contains f.d.toNat then stop w.e
    else match w.e.window k tenant (v + f.lit.getD 0) (sizeOf2 f.sz) signed with
      | .full => .error .reads
      | .stop e => stop e
      | .value e x => .ok ({ w with e }, some { st.setReg f.d.toNat x with pc := st.pc + wordOfNat (4 * ws.length) }, none)

/-- Steps that the instruction at a state takes: the instructions evaluated or emitted (R308). A CALL is neither, nor is a REP without its
body. -/
def Kernel.stepsOf (k : Kernel) (st : SymState) (ws : List W32) : Nat :=
  match decode ws with
  | .ok (.call _, _) => 0
  | .ok (.rep _, _) => if (k.words (st.pc + wordOfNat (4 * ws.length))).isSome then 2 else 0
  | _ => 1
/-- An instruction with U = 1 in the encodings of Table 13.1. -/
def tabled (ws : List W32) : Bool :=
  let w := ws.headD 0
  let op := (field w 22 7).toNat
  markedU ws && !w.getLsbD 31 && (op ≤ 0x38 || op = 0x3D || op = 0x50 || op = 0x51)

/-- One step of the evaluation at a state whose instruction words are `ws`. -/
def Walk.step (w : Walk) (k : Kernel) (tenant : Nat) (st : SymState) (ws : List W32) : Except Fallback (Walk × Option SymState × Option SymState) :=
  let marked := markedU ws
  match decode ws with
  | .error _ => .ok (({ w with e := { w.e with kept := w.e.kept + (if tabled ws then 1 else 0) } }).pass st ws none)
  | .ok (i, _) =>
    match i with
    | .call _ => .ok ({ w with e := w.e.continue_ st }, none, none)
    | .br f =>
      let t := relTarget st.pc f.off
      let outcome := (st.pred f.pred.toNat).map fun b => b != f.neg
      let bad := outcome = some true && bit t 63
      if marked && outcome.isSome && !bad then
        match w.e.resolve st t (st.pc + 4) (outcome.getD false) with
        | .error x => .error x
        | .ok (e, st) => .ok ({ w with e }, some st, none)
      else ({ w with e := { w.e with kept := w.e.kept + (if marked && bad then 1 else 0) } } : Walk).branch st ws 18 t outcome []
    | .loop f =>
      let t := relTarget st.pc f.off
      let outcome := (st.reg f.c.toNat).map fun v => decide (1 < v.toNat)
      let bad := outcome = some true && bit t 63
      (match st.reg f.c.toNat with
      | some v =>
        if marked && !bad then
          match w.e.resolve (st.setReg f.c.toNat (if 1 < v.toNat then v - 1 else 0)) t (st.pc + 4) (1 < v.toNat) with
          | .error x => .error x
          | .ok (e, st) => .ok ({ w with e }, some st, none)
        else ({ w with e := { w.e with kept := w.e.kept + (if marked then 1 else 0) } } : Walk).branch st ws 15 t outcome [f.c.toNat]
      | none =>
        ({ w with e := { w.e with kept := w.e.kept + (if marked && st.regs.length ≤ f.c.toNat then 1 else 0) } } : Walk).branch st ws 15 t none [f.c.toNat])
    | .tstb f => w.branch st ws 14 (relTarget st.pc f.off) none []
    | .rep _ => .ok (w.rep k st ws i)
    | .ldGlobal f => w.load k tenant st ws i f false
    | .ldsGlobal f => w.load k tenant st ws i f true
    | _ =>
      match (if marked then evaluable i else none) with
      | none => .ok (w.pass st ws (some i))
      | some (f, d) =>
        match st.fold i f d with
        | .done st => .ok (w, some { st with pc := st.pc + wordOfNat (4 * ws.length) }, none)
        | .emit => .ok (w.pass st ws (some i))
        | .stop => .ok (({ w with e := { w.e with kept := w.e.kept + 1 } }).pass st ws (some i))

/-! ### The whole kernel -/

/-- The bytes that residual code may take (R309). -/
def Kernel.room (k : Kernel) : Nat := min 65536 (4 * k.codeLen)
/-- The code is too long already. -/
def Symbolic.tooBig (e : Symbolic) (k : Kernel) : Bool := k.room < e.bytes

/-- Follow a path, then the states still to be followed; `n` bounds the walk. -/
def Walk.run (k : Kernel) (tenant : Nat) : Nat → Option SymState → List SymState → Walk → Except Fallback Walk × Walk
  | 0, _, _, w => (.error .steps, w)
  | _ + 1, none, [], w => (if w.e.tooBig k then .error .size else .ok w, w)
  | n + 1, none, st :: rest, w => if (w.e.label? st).isSome then Walk.run k tenant n none rest w else Walk.run k tenant n (some st) rest w
  | n + 1, some st, rest, w =>
    if w.e.tooBig k then (.error .size, w)
    else if (w.e.label? st).isSome then
      let (i, w) := w.idOf st
      Walk.run k tenant n none rest { w with e := w.e.add (insertedBr i st.pc (st.stack.map (·.2))) }
    else
      let w := { w with e := { w.e with labels := (st, w.e.pieces.length) :: w.e.labels } }
      match k.words st.pc with
      | none => Walk.run k tenant n none rest { w with e := (w.e.continue_ st).endPath }
      | some ws =>
        let w := { w with e := { w.e with steps := w.e.steps + k.stepsOf st ws } }
        if 1000000 < w.e.steps then (.error .steps, w)
        else
          match w.step k tenant st ws with
          | .error x => (.error x, w)
          | .ok (w, next, later) => Walk.run k tenant n next (rest ++ later.toList) (if next.isSome then w else { w with e := w.e.endPath })

/-! ### Layout (R302) -/

/-- Pieces with their numbers, laid out in order, each with its byte offset. -/
def offsetsFrom (o : Nat) : List (Nat × Residual) → List (Nat × Residual × Nat)
  | [] => []
  | (i, p) :: ps => (i, p, o) :: offsetsFrom (o + 4 * p.words.length) ps
/-- A word with an offset field of `width` bits. -/
def withOffset (w : W32) (width : Nat) (off : Int) : W32 := BitVec.ofNat 32 (w.toNat / 2 ^ width * 2 ^ width + (off % (2 ^ width : Nat)).toNat)
/-- The code and its back-map for one order of the pieces; none where an offset does not fit its field. `targets` gives the piece that each
label names. An inserted BR takes the record of the emitted instruction or continuation that it leads to in the end (R312). -/
def layOutAs (ps : List (Nat × Residual)) (targets : List (Option Nat)) : Option (List Byte × List BackMap) :=
  let os := offsetsFrom 0 ps
  let goal (p : Residual) : Option (Residual × Nat) :=
    ((p.target.bind fun t => targets.getD t none).bind fun i => os.find? fun q => q.1 = i).map (·.2)
  let led (n : Nat) (p : Residual) : Residual := (List.range n).foldl (fun p _ => if p.inserted then ((goal p).map (·.1)).getD p else p) p
  let piece (p : Residual) (o : Nat) : Option (List W32 × BackMap) :=
    let rec_ := led ps.length p
    let b : BackMap := { off := o, len := 4 * p.words.length, orig := rec_.orig, iters := rec_.iters, cont := p.cont }
    match p.target, goal p with
    | none, _ => some (p.words, b)
    | some _, none => none
    | some _, some q =>
      let d : Int := ((q.2 : Int) - o) / 4
      if d < -(2 ^ (p.width - 1) : Nat) || (2 ^ (p.width - 1) : Nat) ≤ d then none
      else some (match p.words with | w :: ws => withOffset w p.width d :: ws | [] => [], b)
  let all := os.map fun x => piece x.2.1 x.2.2
  if all.any Option.isNone then none
  else
    let good := all.filterMap id
    some (good.flatMap fun g => g.1.flatMap fun w => bytesOfNat w.toNat 4, good.map (·.2))
/-- The runs of pieces of which each leads on to the next. -/
def chains : List (Nat × Residual) → List (List (Nat × Residual))
  | [] => []
  | p :: ps =>
    match p.2.ends, chains ps with
    | false, c :: cs => (p :: c) :: cs
    | _, cs => [p] :: cs
/-- The pieces whose not-taken successor, the next piece, may be laid out elsewhere. -/
def splits (xs : List (Nat × Residual)) : List Nat := xs.dropLast.filterMap fun p => if p.2.ends || p.2.target.isNone then none else some p.1
/-- An inserted `br` follows each piece of `at_`, `n` pieces and `m` labels standing before: it names label `m + i`, the piece after `i`. -/
def splitAfter (n m : Nat) (at_ : List Nat) (xs : List (Nat × Residual)) : List (Nat × Residual) :=
  xs.flatMap fun p => if at_.contains p.1 then [p, (n + p.1, insertedBr (m + p.1) p.2.orig p.2.iters)] else [p]
/-- `x` at every place of a list, and every order of a list; the first is the given one. -/
def insertions {α : Type} (x : α) : List α → List (List α)
  | [] => [[x]]
  | y :: ys => (x :: y :: ys) :: (insertions x ys).map (y :: ·)
def orders {α : Type} : List α → List (List α)
  | [] => [[]]
  | x :: xs => (orders xs).flatMap (insertions x)
/-- Some layout of at most `room` bytes in which every offset fits its field (R302): the order of emission, or another order of the runs, as
they stand or parted by inserted `br`s; the first run, at the entry, stays first. -/
def layOut (room : Nat) (ps : List Residual) (targets : List (Option Nat)) : Option (List Byte × List BackMap) :=
  let xs := ps.zipIdx.map fun p => (p.2, p.1)
  let places := targets ++ (List.range ps.length).map fun i => some (i + 1)
  let fits (o : List (Nat × Residual)) : Option (List Byte × List BackMap) := (layOutAs o places).filter fun r => r.1.length ≤ room
  (fits xs).or ((splits xs).sublists.findSome? fun at_ =>
    match chains (splitAfter ps.length targets.length at_ xs) with
    | [] => none
    | c :: cs => (orders cs).findSome? fun o => fits (c ++ o.flatten))

/-- What an evaluation gives: residual code with its back-map, or a fallback; with the read set, the instructions kept and the state. -/
structure Evaluated where
  s : State
  reads : List (W64 × W64)
  kept : Nat
  result : Except Fallback (List Byte × List BackMap)

/-- Evaluate a kernel. -/
def Kernel.evaluate (k : Kernel) (die tenant : Nat) (seeds : List W64) (s : State) : Evaluated :=
  let e : Symbolic := { s, die, pieces := [], bytes := 0, labels := [], reads := [], taken := [], steps := 0, kept := 0 }
  let (r, w) := Walk.run k tenant 5000000 (some (SymState.entry k seeds)) [] { e, targets := [] }
  match r with
  | .error x => { s := w.e.s, reads := w.e.reads, kept := w.e.kept, result := .error x }
  | .ok w =>
    let ps := w.e.pieces.reverse
    match layOut k.room ps (w.targets.map w.e.label?) with
    | some x => { s := w.e.s, reads := w.e.reads, kept := w.e.kept, result := .ok x }
    | none => { s := w.e.s, reads := w.e.reads, kept := w.e.kept, result := .error .layout }

end Sys2Proof.Machine
end

