-- ==== Sys2Proof/Machine/Specialiser.lean ====
section
/-!
DEFINITION. The launch unit's packet and the specialisation cache: keys, lookup, evaluation, room, replacement (spec/13
R305-R310; spec/03 R105; spec/22 R432; log 15).
-/

namespace Sys2Proof.Machine

open Sys2Proof

/-! ### Kernels in memory (spec/07 R189) -/

/-- Words from an address on, as an agent on a die reads them, as bytes, up to the first that cannot be read or is poisoned. -/
def State.readCode (s : State) (die tenant : Nat) (a : W64) : Nat → List Byte × State
  | 0 => ([], s)
  | n + 1 =>
    match s.look die tenant a with
    | (s, none) => ([], s)
    | (s, some (v, t)) =>
      if t.toNat % 8 = 7 then ([], s)
      else
        let (rest, s) := s.readCode die tenant (a + 8) n
        (bytesOfNat v.toNat 8 ++ rest, s)
/-- A kernel's header and code, as they stand now. -/
def State.readKernel (s : State) (die tenant : Nat) (a : W64) : Kernel × State :=
  let (hd, s) := s.readCode die tenant a 6
  let k : Kernel := { addr := a, code := hd }
  if hd.length < 0x30 then (k, s)
  else
    let (body, s) := s.readCode die tenant (a + 0x30) (ceilDiv k.codeLen 8)
    ({ k with code := hd ++ body }, s)
/-- MAGIC of the header (Table 7.14). -/
def Kernel.magic (k : Kernel) : Nat := slice (k.word 0x08) 63 56

/-! ### The launch's fields (spec/14 Table 14.3) -/

def Launch.groups (l : Launch) : Nat := slice (l.word 0) 63 56
/-- The dies of DIEMASK, ascending. -/
def Launch.dies (l : Launch) : List Nat := (List.range 24).filter fun d => bit (l.word 0) (32 + d)
def Launch.hmode (l : Launch) : Bool := bit (l.word 0) 20
def Launch.radius (l : Launch) : Nat := slice (l.word 0) 15 12
def Launch.prio (l : Launch) : Nat := slice (l.word 0) 9 8
def Launch.kernelAddr (l : Launch) : W64 := l.word 0x10
def Launch.graph (l : Launch) : W64 := l.word 0x70
/-- `s0` to `s3` of every unit. -/
def Launch.seeds (l : Launch) : List W64 := (List.range 4).map fun i => l.word (0x40 + 8 * i)
/-- The effective quota (R320; spec/07 R189). -/
def Launch.quota (l : Launch) (k : Kernel) : Nat := if slice (l.word 0) 19 16 = 0 then k.quota else slice (l.word 0) 19 16
/-- The share of a die. -/
def Launch.share? (l : Launch) (die : Nat) : Option Share := l.shares.find? fun sh => sh.die = die
/-- The kernel as the launch unit of a die took it. -/
def Launch.kernel (l : Launch) (sh : Share) : Kernel := { addr := l.kernelAddr, code := sh.code }
def State.share? (s : State) (lid die : Nat) : Option Share := (s.launch? lid).bind fun l => l.share? die
/-- Change the share of a die. -/
def State.updShare (s : State) (lid die : Nat) (f : Share → Share) : State :=
  s.updLaunch lid fun l => { l with shares := mapWhere (fun sh : Share => sh.die = die) f l.shares }

/-! ### The cache (spec/13 R307, R310) -/

/-- The key of a launch on its die (Tables 13.2, 13.3), without the read set. -/
def State.keyOf (s : State) (l : Launch) (k : Kernel) : SpecKey :=
  { code := k.addr, version := k.version, tenant := l.tenant, config := wordOfNat (s.fw.params.sprev * 2 ^ 8 + k.regs8), mask := k.uniform
    seeds := (l.seeds.zipIdx.filter fun p => k.uniform.testBit p.2).map (·.1) }
/-- The specialiser reads a read set again, in its order, up to the first address that no longer reads as its value; whether there is none. -/
def State.readsHold (s : State) (die tenant : Nat) : List (W64 × W64) → State × Bool
  | [] => (s, true)
  | r :: rs =>
    match s.look die tenant r.1 with
    | (s, some (v, t)) => if v = r.2 && t.toNat % 8 ≠ 7 then s.readsHold die tenant rs else (s, false)
    | (s, none) => (s, false)
/-- The first of some entries that agrees with a key and whose read set holds. -/
def State.findSpec (s : State) (die : Nat) (key : SpecKey) : List SpecEntry → State × Option SpecEntry
  | [] => (s, none)
  | e :: es =>
    if e.key ≠ key then s.findSpec die key es
    else match s.readsHold die key.tenant e.reads with
      | (s, true) => (s, some e)
      | (s, false) => s.findSpec die key es
/-- Look a key up (R307); the entry found is the most recently used. -/
def State.specLookup (s : State) (die : Nat) (key : SpecKey) : State × Option SpecEntry :=
  match s.findSpec die key (s.die die).spec with
  | (s, none) => (s, none)
  | (s, some e) => (s.updDie die fun d => { d with spec := e :: d.spec.filter fun x => x.index ≠ e.index }, some e)

/-- Granules of 4 KiB that an entry takes; at least one (log 15). -/
def SpecEntry.granules (e : SpecEntry) : Nat := max 1 (ceilDiv (e.code.length + 8 * e.map.length + 16 * e.reads.length) 4096)
/-- An address lies in an entry of a die. -/
def inEntry (die idx : Nat) (pc : W64) : Bool := isResidual pc && resDie pc = die && resEntry pc = idx
/-- Some context has its PC or its `TRAPPC` in the entry, or units that start there are still to be placed (log 15). -/
def State.entryInUse (s : State) (die idx : Nat) : Bool :=
  (s.cpu.ctxs.any fun c => inEntry die idx c.2.pc) || (s.cpu.cores.any fun k => inEntry die idx k.2.trapPc || inEntry die idx k.2.savedPc) ||
    s.fw.launches.any fun l => l.state = .released && l.shares.any fun sh => match sh.entry with
      | some pc => inEntry die idx pc && (sh.next < sh.count || (s.die sh.die).waiting.any fun p => p.lid = l.lid)
      | none => false
/-- Remove the least recently used entry that is not in use; the list has its least recently used entry first. -/
def State.evict (s : State) (die : Nat) : List SpecEntry → Option (List SpecEntry)
  | [] => none
  | e :: es => if s.entryInUse die e.index then (s.evict die es).map (e :: ·) else some es
/-- Make room for an entry, removing as many as that takes; none where no room can be made. -/
def State.makeRoom (s : State) (die need : Nat) : Nat → List SpecEntry → Option (List SpecEntry)
  | 0, _ => none
  | n + 1, lru =>
    if lru.length < 512 && (lru.map SpecEntry.granules).sum + need ≤ 1024 then some lru
    else match s.evict die lru with
      | none => none
      | some lru => s.makeRoom die need n lru
/-- Enter a result; its index is the lowest free one (log 8). -/
def State.specInsert (s : State) (die : Nat) (e : SpecEntry) : Option (Nat × State) :=
  match s.makeRoom die e.granules 513 (s.die die).spec.reverse with
  | none => none
  | some lru =>
    let idx := leastFree (lru.map (·.index))
    some (idx, s.updDie die fun d => { d with spec := { e with index := idx } :: lru.reverse })

/-! ### Evaluation and its record (spec/13 R308, R309; spec/22 R432) -/

/-- `SPSTAT`'s counts after an evaluation. -/
def State.countSpec (s : State) (die kept : Nat) (fall : Option Nat) : State :=
  s.updDie die fun d => { d with
    spKept := min (d.spKept + kept) (2 ^ 32 - 1)
    spFalls := min (d.spFalls + (if fall.isSome then 1 else 0)) (2 ^ 16 - 1)
    spLast := match fall with | some r => BitVec.ofNat 3 r | none => d.spLast }

/-- Evaluate a kernel for a key and enter the result: the entry PC for the launch's units. -/
def State.evaluateKernel (s : State) (die : Nat) (key : SpecKey) (k : Kernel) (seeds : List W64) : W64 × State :=
  let r := k.evaluate die key.tenant seeds s
  match r.result with
  | .error why =>
    let s := r.s.countSpec die r.kept (some why.code)
    match s.specInsert die { index := 0, key, reads := r.reads, generic := true, code := [], map := [] } with
    | none => (k.entry, s)
    | some (_, s) => (k.entry, s)
  | .ok (code, map) =>
    let s := r.s.countSpec die r.kept none
    match s.specInsert die { index := 0, key, reads := r.reads, generic := false, code, map } with
    | none => (k.entry, s)
    | some (idx, s) => (residualPc die idx 0, s)

/-- The entry PC that a cache entry gives. -/
def SpecEntry.start (e : SpecEntry) (die : Nat) (k : Kernel) : W64 := if e.generic then k.entry else residualPc die e.index 0
/-- Look up, or evaluate. -/
def State.specialise (s : State) (die : Nat) (key : SpecKey) (k : Kernel) (seeds : List W64) : W64 × State :=
  match s.specLookup die key with
  | (s, some e) => (e.start die k, s)
  | (s, none) => s.evaluateKernel die key k seeds

/-- The specialiser has answered: the launch unit sends the first unit of its share (R61). -/
def State.specAnswer (s : State) (die lid : Nat) (pc : W64) : State :=
  let s := s.updShare lid die fun sh => { sh with entry := some pc }
  match (s.launch? lid).bind fun l => l.share? die with
  | none => s
  | some sh => s.post (.placementPacket { lid, die, unit := sh.base })

/-- A launch asks a die's specialiser for its key: answered at once, or under evaluation, its own or an earlier one. -/
def State.askSpec (s : State) (die lid : Nat) (key : SpecKey) (k : Kernel) : State :=
  match s.specLookup die key with
  | (s, some e) => s.specAnswer die lid (e.start die k)
  | (s, none) =>
    let busy := (s.die die).evaluating.any fun p => p.1 = key
    let s := s.updDie die fun d => { d with evaluating := d.evaluating ++ [(key, lid)] }
    if busy then s else s.post (.specialiserEvaluation die lid)

/-- LAUNCH_PACKET (R308; spec/03 R105): the code is taken as it stands; a hit is answered at once, a launch whose key is under
evaluation waits, and any other is evaluated. -/
def execLaunchPacket (die lid : Nat) (s : State) : Result :=
  .next (match s.launch? lid with
    | none => s
    | some l =>
      if l.cancelled then s
      else match l.share? die with
        | none => s
        | some _ =>
          let (k, s) := s.readKernel die l.tenant l.kernelAddr
          let s := s.updShare lid die fun sh => { sh with code := k.code }
          s.askSpec die lid (s.keyOf l k) k)

/-- The evaluation for a launch ends; launches that waited for the same key look up again (R308, R309). -/
def State.endEvaluation (s : State) (die lid : Nat) : State :=
  match s.launch? lid with
  | none => s
  | some l =>
    match l.share? die with
    | none => s
    | some sh =>
      let k := l.kernel sh
      let key := s.keyOf l k
      let others := ((s.die die).evaluating.filter fun p => p.1 = key && p.2 ≠ lid).map (·.2)
      let s := s.updDie die fun d => { d with evaluating := d.evaluating.filter fun p => p.1 ≠ key }
      let (pc, s) := s.specialise die key k l.seeds
      (s.specAnswer die lid pc).postAll (others.map fun o => .specialiserEvaluation die o)
/-- SPECIALISER_EVALUATION (R308): an evaluation that a gang's lookup has waited for has ended already. -/
def execSpecialiserEvaluation (die lid : Nat) (s : State) : Result := .next (if (s.share? lid die).any (·.entry.isNone) then s.endEvaluation die lid else s)
/-- A gang's lookup: an evaluation of its key for another launch ends first (R308). -/
def State.specialiseGang (s : State) (die : Nat) (key : SpecKey) (k : Kernel) (seeds : List W64) : W64 × State :=
  let s := match (s.die die).evaluating.find? fun p => p.1 = key with
    | some p => s.endEvaluation die p.2
    | none => s
  s.specialise die key k seeds

end Sys2Proof.Machine
end

