-- ==== Sys2Proof/Machine/Placement.lean ====
section
/-!
DEFINITION. Where work starts: unit packets, waiting units, gangs, dispatch passes (spec/02 R61, R62; spec/14 R322-R327); SPAWN
children and CALLAT tasks (spec/02 R63-R65).
-/

namespace Sys2Proof.Machine

open Sys2Proof

/-! ### A unit (spec/14 R322, R323) -/

/-- `id.o`d and `id.e`d of unit `u` in one dimension, from its tile coordinate. -/
def tileSpan (x t coord : Nat) : Nat × Nat := if t = 0 then (0, x) else (coord * t, min t (x - coord * t))
/-- Tiles along a dimension. -/
def tilesAlong (x t : Nat) : Nat := if t = 0 then 1 else ceilDiv x t
/-- The four spans of unit `u`, dimension by dimension. -/
def tileSpans (u : Nat) : List (Nat × Nat) → List (Nat × Nat)
  | [] => []
  | (x, t) :: ds => tileSpan x t (u % tilesAlong x t) :: tileSpans (u / tilesAlong x t) ds
/-- Extents and tile sizes of a launch. -/
def Launch.dims (l : Launch) : List (Nat × Nat) :=
  [(slice (l.word 0x20) 31 0, slice (l.word 0x30) 15 0), (slice (l.word 0x20) 63 32, slice (l.word 0x30) 31 16),
   (slice (l.word 0x28) 31 0, slice (l.word 0x30) 47 32), (slice (l.word 0x28) 63 32, slice (l.word 0x30) 63 48)]
/-- The identity registers of unit `u` (R323). -/
def Launch.ident (l : Launch) (u : Nat) : Ident :=
  let spans := if u < ((l.dims).map fun d => tilesAlong d.1 d.2).foldl (· * ·) 1 then tileSpans u l.dims else [(0, 0), (0, 0), (0, 0), (0, 0)]
  { unit := BitVec.ofNat 24 u, launch := l.id, o := spans.map fun p => BitVec.ofNat 32 p.1, e := spans.map fun p => BitVec.ofNat 32 p.2
    lid := some l.lid }

/-! ### The walk (spec/02 R61, R62) -/

/-- The coordinates that a packet passes, from (31, 0) to the hint, along x and then along y. -/
def walkTo (hx hy : Nat) : List (Nat × Nat) :=
  (if hx ≤ 31 then ((List.range' hx (32 - hx)).reverse.map fun x => (x, 0)) else ((List.range' 31 (hx - 30)).map fun x => (x, 0))) ++
    (List.range' 1 hy).map fun y => (hx, y)
/-- The cores that a packet visits, in order. -/
def walkCores (die hx hy h : Nat) : List Nat :=
  ((walkTo hx hy).filter fun p => p.2 < 68).map (fun p => coreAt die p.1 p.2) ++ (List.range' 1 h).flatMap fun r => ring die hx hy r
/-- Mesh distance of a core from a coordinate. -/
def distanceTo (core x y : Nat) : Nat := Int.natAbs ((idX core : Int) - x) + Int.natAbs ((idY core : Int) - y)
/-- The tenant's cores on a die, in ascending `id.y`, then `id.x`. -/
def State.coresOn (s : State) (tenant die : Nat) : List Nat :=
  ((List.range Config.coresPerDie).map (die * Config.coresPerDie + ·)).filter (s.inPartition tenant)
/-- The hint of the unit at index `v` of its die (R322). -/
def State.hintOf (s : State) (l : Launch) (die v : Nat) : Nat × Nat :=
  if l.hmode then
    let cs := s.coresOn l.tenant die
    let c := cs.getD (v * slice (l.word 0x38) 31 16 % max 1 cs.length) 0
    (idX c, idY c)
  else (slice (l.word 0x38) 5 0, slice (l.word 0x38) 14 8)

/-- Units of a launch that a core holds. -/
def State.unitsOn (s : State) (lid core : Nat) : Nat :=
  (List.range' 1 15).countP fun i => (s.ctx (16 * core + i)).lid = some lid && (s.ctx (16 * core + i)).work = .unit
/-- The context and base in which a core would start a context of `n` registers. -/
def State.roomFor (s : State) (core n : Nat) : Option (Nat × Nat) :=
  match s.idleCtxs core, lowestBase (s.blocks core) n with
  | i :: _, some b => some (16 * core + i, b)
  | _, _ => none
/-- The core takes a unit (R62). -/
def State.takesUnit (s : State) (l : Launch) (k : Kernel) (hx hy core : Nat) : Bool :=
  s.takesWork core && s.inPartition l.tenant core && distanceTo core hx hy ≤ l.radius && s.unitsOn l.lid core < l.quota k &&
    (s.roomFor core (8 * k.regs8)).isSome
/-- A unit starts on a core, unless a cancel has removed it. REGS8 outside 1 to 16, for which spec/02 R46 gives no outcome, is used as it is
(log 38). -/
def State.startUnit (s : State) (l : Launch) (k : Kernel) (pc : W64) (u core : Nat) : State :=
  match (if l.skip.contains u then none else s.roomFor core (8 * k.regs8)) with
  | none => s
  | some (gid, b) => (s.startCtx gid b (8 * k.regs8) pc l.seeds .unit (l.ident u)).liveUp (some l.lid) 1
/-- The coupled pairs of a tenant's partition that have room for a unit, by their even cores (spec/19 R385). -/
def State.freePairs (s : State) (tenant n : Nat) : List Nat :=
  ((s.cpu.cores.filter fun k => k.2.paired && idX k.1 % 2 = 0).map (·.1)).filter fun c =>
    s.inPartition tenant c && s.takesWork c && (s.roomFor c n).isSome
/-- A unit packet walks; none where no core takes it. A unit placed again after a mismatch goes to any coupled pair. -/
def State.walkUnit (s : State) (l : Launch) (sh : Share) (u : Nat) : Option State :=
  let k := l.kernel sh
  let (hx, hy) := s.hintOf l sh.die (u - sh.base)
  let core :=
    if l.replaced.contains u then (s.freePairs l.tenant (8 * k.regs8)).head?
    else (walkCores sh.die hx hy l.radius).find? (s.takesUnit l k hx hy)
  match core with
  | none => none
  | some core =>
    let (pc, s) := if l.replaced.contains u then s.specialise sh.die (s.keyOf l k) k l.seeds else (sh.entry.getD k.entry, s)
    some (s.startUnit l k pc u core)

/-! ### Holds (spec/14 R327) -/

/-- A pending gang of AGE 8 holds launch `x` back at a die of its own; a gang of AGE 8 is held only by one that the pass visits before it. -/
def State.heldAt (s : State) (x : Launch) (die : Nat) : Bool :=
  s.fw.launches.any fun g =>
    g.lid ≠ x.lid && g.tenant = x.tenant && g.state = .pending && g.groups ≠ 0 && g.age = 8 && x.prio ≤ g.prio && g.dies.contains die &&
      !(x.groups ≠ 0 && x.age = 8 && g.prio = x.prio && x.lid < g.lid)
/-- It holds the launch's release: they share a die. -/
def State.held (s : State) (x : Launch) : Bool := x.dies.any (s.heldAt x)

/-! ### Packets and waiting units -/

/-- The next unit of a share leaves the launch unit. -/
def State.nextUnit (s : State) (lid die : Nat) : State :=
  let s := s.updShare lid die fun sh => { sh with next := sh.next + 1 }
  match (s.launch? lid).bind fun l => l.share? die with
  | none => s
  | some sh => if sh.next < sh.count then s.post (.placementPacket { lid, die, unit := sh.base + sh.next }) else s.checkLaunch (some die) lid

/-- PLACEMENT_PACKET (R61): a core takes the unit, or it waits at its die; then the next unit leaves. -/
def execPlacementPacket (p : UnitPacket) (s : State) : Result :=
  .next (match s.launch? p.lid with
    | none => s
    | some l =>
      match l.share? p.die with
      | none => s
      | some sh =>
        if l.cancelled then s
        else
          let s :=
            if l.skip.contains p.unit then s
            else match (if s.heldAt l p.die then none else s.walkUnit l sh p.unit) with
              | some s => s
              | none => s.updDie p.die fun d => { d with waiting := d.waiting ++ [p] }
          s.nextUnit p.lid p.die)

/-- The waiting units of a die walk again, in order; those that no core takes wait on. -/
def State.retryUnits (s : State) (die : Nat) : List UnitPacket → State
  | [] => s
  | p :: ps =>
    let keep (s : State) : State := s.updDie die fun d => { d with waiting := d.waiting ++ [p] }
    let s := match s.launch? p.lid with
      | none => s
      | some l =>
        match l.share? die with
        | none => s
        | some sh => if s.heldAt l die then keep s else (match s.walkUnit l sh p.unit with | some s => s | none => keep s)
    s.retryUnits die ps
/-- PLACEMENT_RETRY (R62). -/
def execPlacementRetry (die : Nat) (s : State) : Result :=
  let ps := (s.die die).waiting
  .next ((s.updDie die fun d => { d with waiting := [] }).retryUnits die ps)

/-! ### Gangs (spec/14 R326) -/

/-- m_c: how many allotments a core could start at once. -/
def State.coreRoom (s : State) (core regs : Nat) : Nat :=
  if s.takesWork core then placesIn regs (s.idleCtxs core).length (s.blocks core) else 0
/-- The tenant's clusters of a die, ascending, that can take a group of `size` units. -/
def State.qualifying (s : State) (tenant die regs q size : Nat) : List Nat :=
  match s.tenant? tenant with
  | none => []
  | some t => ((List.range 544).map (die * 544 + ·)).filter fun cl =>
      t.clusters.contains cl && size ≤ ((coresOfCluster cl).map fun c => min q (s.coreRoom c regs)).sum
/-- Place the units from `u` on, `left` of them, on the cores of a cluster, each core up to its own limit. -/
def State.fillCluster (s : State) (l : Launch) (k : Kernel) (pc : W64) (q : Nat) : List Nat → Nat → Nat → State
  | [], _, _ => s
  | c :: cs, u, left =>
    let m := min left (min q (s.coreRoom c (8 * k.regs8)))
    let s := (List.range m).foldl (fun s i => s.startUnit l k pc (u + i) c) s
    s.fillCluster l k pc q cs (u + m) (left - m)
/-- Offer a gang to one die. -/
def State.offerGang (s : State) (l : Launch) (die : Nat) : Option State :=
  let (k, s) := s.readKernel die l.tenant l.kernelAddr
  let size := l.n / l.groups
  let q := l.quota k
  let cls := s.qualifying l.tenant die (8 * k.regs8) q size
  if cls.length < l.groups then none
  else
    let (pc, s) := s.specialiseGang die (s.keyOf l k) k l.seeds
    let sh : Share := { die, base := 0, count := l.n, next := l.n, entry := some pc, code := k.code }
    let s := s.updLaunch l.lid fun l => { l with state := .released, shares := [sh] }
    some ((((cls.take l.groups).zipIdx).foldl (fun s p => s.fillCluster l k pc q (coresOfCluster p.1) (p.2 * size) size) s).checkLaunch (some die) l.lid)
/-- Offer a gang to its dies in order, up to the first that places it (R325). -/
def State.offerDies (s : State) (l : Launch) : List Nat → Option State
  | [] => none
  | d :: ds => match s.offerGang l d with | some s => some s | none => s.offerDies l ds

/-! ### Dispatch passes (spec/14 R324, R325) -/

/-- The shares of an ordinary launch (R322). -/
def sharesOf (n m : Nat) : List (Nat × Nat) → List Share
  | [] => []
  | (die, i) :: ds =>
    let c := n / m + (if i < n % m then 1 else 0)
    let rest := sharesOf n m ds
    if c = 0 then rest else { die, base := i * (n / m) + min i (n % m), count := c, next := 0, entry := none, code := [] } :: rest
/-- Launch packets pass the firewall (class 4, R318). -/
def State.packetsPass (s : State) : Bool := s.admits false 4 0
/-- Release a launch: its packets go to its dies, or are dropped at the boundary. -/
def State.release (s : State) (l : Launch) : State :=
  let shares := sharesOf l.n l.dies.length l.dies.zipIdx
  let s := s.updLaunch l.lid fun l => { l with state := .released, shares }
  if s.packetsPass then s.postAll (shares.map fun sh => .launchPacket sh.die l.lid) else shares.foldl (fun s _ => s.firewallDrop) s
/-- A gang was not placed. -/
def State.ageGang (s : State) (lid : Nat) : State := s.updLaunch lid fun l => { l with age := min (l.age + 1) 8 }
/-- The units waiting at the dies of a gang walk again when it has been placed or cancelled: its hold has ended (R327). -/
def State.endHold (s : State) (l : Launch) : State :=
  if l.groups ≠ 0 && l.age = 8 then s.postAll ((l.dies.filter fun d => (s.die d).waiting ≠ []).map .placementRetry) else s
/-- One launch of the pass. -/
def State.visit (s : State) (lid : Nat) : State :=
  match s.launch? lid with
  | none => s
  | some l =>
    if l.state ≠ .pending then s
    else if l.groups = 0 then (if s.held l then s else s.release l)
    else if s.held l then s.ageGang lid
    else if !s.packetsPass then (l.dies.foldl (fun s _ => s.firewallDrop) s).ageGang lid
    else match s.offerDies l l.dies with
      | some s => s.endHold l
      | none => s.ageGang lid
/-- The pending launches of a tenant: PRIO from 3 down to 0, and by order of taking. -/
def State.pendingOf (s : State) (tenant : Nat) : List Nat :=
  [3, 2, 1, 0].flatMap fun p => (s.fw.launches.filter fun l => l.tenant = tenant && l.state = .pending && l.prio = p).map (·.lid)
/-- DISPATCH_PASS (R324). -/
def execDispatchPass (tenant : Nat) (s : State) : Result := .next ((s.pendingOf tenant).foldl State.visit s)
/-- IDLE_REPORT_DEFERRAL_END (R324): one pass for every tenant whose deferred reports fall due. -/
def execIdleReportDeferralEnd (s : State) : Result :=
  let due := s.fw.tenants.filter fun t => t.deferred && (match t.lastIdle with | some l => l + 1024 ≤ s.sched.now | none => true)
  .next (due.foldl (fun s t => (s.updTenant t.num fun t => { t with deferred := false, lastIdle := some s.sched.now }).post (.dispatchPass t.num)) s)

/-! ### SPAWN and CALLAT (spec/02 R63-R65) -/

/-- The launch has been cancelled. -/
def State.launchCancelled (s : State) (lid : Option Nat) : Bool :=
  match lid.bind s.launch? with
  | some l => l.cancelled
  | none => false
/-- The identity that a task's work inherits (R56). -/
def taskIdent (t : Task) : Ident := { unit := BitVec.ofNat 24 t.unit, launch := BitVec.ofNat 32 t.launchId, o := t.o, e := t.e, lid := t.launch }
/-- The answer to a SPAWN. -/
def placedReply (m : SpawnMsg) (ok : Bool) : Reply :=
  { gid := m.task.gid, gen := m.task.gen, rid := 0, use := .placed m.q m.task.pc, data := 0, ok, next := m.next }
/-- SPAWN_REQUEST (R63): the first core takes the child, or passes the offer on. -/
def execSpawnRequest (m : SpawnMsg) (s : State) : Result :=
  .next (
    if s.launchCancelled m.task.launch then s
    else match m.cores with
      | [] => s.post (.deposit (placedReply m false))
      | c :: cs =>
        match (if s.takesWork c then s.roomFor c m.regs else none) with
        | some (gid, b) =>
          let t := m.task
          ((s.startCtx gid b m.regs t.pc [t.s0, t.s1, t.s2, t.s3] .child (taskIdent t)).liveUp t.launch 1).post (.deposit (placedReply m true))
        | none => s.post (.spawnRequest { m with cores := cs }))

/-- The core whose task queue serves a core: the even one of a coupled pair (spec/08 R215). A task that names the odd core is queued there too
(log 40). -/
def State.taskCore (s : State) (core : Nat) : Nat := if (s.core core).paired && idX core % 2 = 1 then partnerOf core else core
/-- A core sends a slot-free notice to the first recorded caller that has not been sent one; `rid` 1 marks those that have. -/
def State.slotFreeNotice (s : State) (core : Nat) : State :=
  match takeFirst (fun t : Task => t.rid = 0) (s.core core).callers with
  | none => s
  | some (t, rest) => (s.updCore core fun k => { k with callers := { t with rid := 1 } :: rest }).post (.taskQueueSlotFree t.gid t.gen)
/-- A task is put into a core's queue, or its caller recorded. -/
def State.queueTask (s : State) (core : Nat) (t : Task) : State :=
  if (s.core core).tasks.length < 16 then
    ((s.updCore core fun k => { k with tasks := k.tasks ++ [t] }).post (.callatAcceptance t.gid t.gen)).post (.taskStart core)
  else s.updCore core fun k => { k with callers := k.callers ++ [t] }
/-- CALLAT_TASK_ARRIVAL (R64): to the forwarding entry of a core whose state has moved (R72); a halted core drops it. -/
def execCallatTaskArrival (core : Nat) (t : Task) (s : State) : Result :=
  let c := s.taskCore core
  .next (
    if s.launchCancelled t.launch then s
    else if (s.core c).fwd.isSome then s.post (.forwardedItem c (.task t))
    else if (s.core c).halted then s
    else s.queueTask c t)

/-- The work of an incarnation is still there. -/
def State.lives (s : State) (gid gen : Nat) : Bool :=
  (s.ctx gid).gen = gen || s.cpu.ctxs.any fun c => c.2.gen = gen && c.2.mode ≠ .idle
/-- A recorded caller's core sends its task again. A notice for a caller that has gone is passed on to the next. -/
def State.resend (s : State) (gid gen : Nat) : State :=
  let mine (t : Task) : Bool := t.gid = gid && t.gen = gen && t.rid = 1
  match s.cpu.cores.find? fun k => k.2.callers.any mine with
  | none => s
  | some (core, k) =>
    match takeFirst mine k.callers with
    | none => s
    | some (t, rest) =>
      let s := s.updCore core fun k => { k with callers := rest }
      if s.lives gid gen then s.post (.callatTaskArrival core { t with rid := 0 }) else s.slotFreeNotice core
/-- TASK_QUEUE_SLOT_FREE (R64); a notice for a caller that has moved follows it (R72). -/
def execTaskQueueSlotFree (gid gen : Nat) (s : State) : Result :=
  .next (if s.movedAway gid gen then s.post (.forwardedItem (coreOf gid) (.slotFree gid gen)) else s.resend gid gen)

/-- TASK_START (R65): the oldest task starts in the lowest Idle context with room for 32 registers, and frees its entry. -/
def execTaskStart (core : Nat) (s : State) : Result :=
  .next (match (s.core core).tasks with
    | [] => s
    | t :: rest =>
      match (if s.takesWork core then s.roomFor core 32 else none) with
      | none => s
      | some (gid, b) =>
        let s := s.updCore core fun k => { k with tasks := rest }
        let s := (s.startCtx gid b 32 t.pc [t.s0, t.s1, t.s2, t.s3] (.task t.gid t.gen t.d) (taskIdent t)).liveUp t.launch 1
        let s := s.slotFreeNotice core
        if rest = [] then s else s.post (.taskStart core))

/-- CALLAT_ACCEPTANCE (R64). -/
def execCallatAcceptance (gid gen : Nat) (s : State) : Result := .next (s.toContext gid gen (.reply (acceptReply gid gen)) fun s => s.takeReply (acceptReply gid gen))

end Sys2Proof.Machine
end

