-- ==== Sys2Proof/Machine/Objects.lean ====
section
/-!
DEFINITION. Launches, graphs, phases and jobs: what begins when, what completes, cancels (spec/02 R52-R60; spec/14 R319, R438;
spec/08 R209).
-/

namespace Sys2Proof.Machine

open Sys2Proof

/-! ### Objects above the launch (spec/14 R319) -/

/-- The object is the tenant's with this counter, and has not advanced. -/
def Obj.is (o : Obj) (tenant : Nat) (ctr : W64) : Bool := o.tenant = tenant && o.ctr = ctr && !o.advanced
def State.obj? (s : State) (tenant : Nat) (ctr : W64) : Option Obj := s.fw.objs.find? fun o => o.is tenant ctr
def State.updObj (s : State) (tenant : Nat) (ctr : W64) (f : Obj → Obj) : State :=
  { s with fw := { s.fw with objs := mapWhere (fun o : Obj => o.is tenant ctr) f s.fw.objs } }
/-- The member objects of an object that have not advanced. -/
def State.membersOf (s : State) (tenant : Nat) (ctr : W64) : List Obj :=
  s.fw.objs.filter fun o => o.tenant = tenant && o.parent = ctr && o.parent ≠ 0 && !o.advanced
/-- The launches of a graph that have not advanced. -/
def State.launchesOf (s : State) (tenant : Nat) (graph : W64) : List Launch :=
  s.fw.launches.filter fun l => l.tenant = tenant && l.graph = graph && graph ≠ 0 && l.state ≠ .advanced
/-- What the firmware column waits for on counters, or has been granted and not taken yet. -/
def State.waitsOf (s : State) : List FwWait :=
  let ofSrc (o : Origin) : Option FwWait := match o with | .fwWait w => some w | _ => none
  let ofEvent (ev : Instr) : Option FwWait := match ev with
    | .firmwareCounterWaitGrant w => some w
    | .deposit m => m.dest.bind ofSrc
    | ev => (requestOf ev).bind fun r => ofSrc r.src
  (s.sched.agenda.filterMap fun p => ofEvent p.ev) ++ s.sluice.parked.filterMap fun p => ofSrc p.req.src
/-- Such a wait is for a member of the object whose last unit has retired. -/
def State.memberOver (s : State) (tenant : Nat) (ctr : W64) : FwWait → Bool
  | .launchOf lid g => g = ctr && (match s.launch? lid with | some l => l.tenant = tenant | none => false)
  | .phaseOf t _ j => t = tenant && j = ctr
  | .graphOf t g p => t = tenant && p = ctr && (s.obj? t g).isNone && s.fw.objs.any fun o => o.tenant = t && o.ctr = g && o.advanced
  | _ => false
/-- Every member has advanced; a cancelled object waits for the members named so far, and for what they bring (Table 2.7). -/
def State.objComplete (s : State) (o : Obj) : Bool :=
  if o.cancelled then s.membersOf o.tenant o.ctr = [] && s.launchesOf o.tenant o.ctr = [] && !s.waitsOf.any (s.memberOver o.tenant o.ctr)
  else o.members ≤ o.done && o.begun

/-- An object whose members have advanced advances its counter; a phase tells its job, and a job its host (R52). -/
def State.checkObj (s : State) (tenant : Nat) (ctr : W64) : State :=
  match s.obj? tenant ctr with
  | none => s
  | some o =>
    if s.objComplete o then
      let st := statusWord 0 o.partialDone o.reaped o.cancelled
      let s := (s.updObj tenant ctr fun o => { o with advanced := true }).advanceCounter tenant ctr st
      match o.level with
      | .graph => s
      | .phase => if o.parent = 0 then s else s.post (.firmwareCounterWaitGrant (.phaseOf tenant ctr o.parent))
      | .job => s.event tenant 0x01 ctr st []
    else s

/-- One more member has advanced. -/
def State.memberDone (s : State) (tenant : Nat) (ctr : W64) (part reaped : Bool) : State :=
  (s.updObj tenant ctr fun o => { o with done := o.done + 1, partialDone := o.partialDone || part, reaped := o.reaped || reaped }).checkObj tenant ctr

/-! ### Beginning (R54, R59; spec/14 R324) -/

/-- The phase of a launch's graph has begun. -/
def State.graphBegun (s : State) (tenant : Nat) (graph : W64) : Bool :=
  match s.obj? tenant graph with
  | none => true
  | some g => (match s.obj? tenant g.parent with | some p => p.begun | none => true)
/-- A launch that waits for nothing more enters the pending list; one of no units completes once its predecessors have advanced (R53; spec/14
R321). -/
def State.tryBegin (s : State) (lid : Nat) : State :=
  match s.launch? lid with
  | none => s
  | some l =>
    if l.state = .blocked && l.waits = 0 && (l.n = 0 || s.graphBegun l.tenant l.graph) then
      if l.n = 0 then (s.updLaunch lid fun l => { l with state := .released }).checkLaunch none lid
      else s.updLaunch lid fun l => { l with state := .pending }
    else s

/-! ### Cancels (R57-R60) -/

/-- The work of a context is taken away: at its next slot, or, where it is Parked, at once, its parked requests withdrawn (R58). -/
def State.cancelCtx (s : State) (gid : Nat) : State :=
  let gs := s.both gid
  if gs.all fun g => (s.ctx g).mode = .parked then
    gs.foldl (fun s g => s.endWork g .cancelled) (s.withdrawOf (gs.map fun g => (s.ctx g).gen))
  else gs.foldl (fun s g => if (s.ctx g).mode = .parked then s else s.updCtx g fun c => { c with stop := .cancel }) s

/-- The contexts of a launch. -/
def State.ctxsOf (s : State) (lid : Nat) : List Nat := (s.cpu.ctxs.filter fun c => c.2.lid = some lid && c.2.mode ≠ .idle).map (·.1)
/-- The tasks of a launch leave a core's queue, its recorded callers and its forwarding entry; each freed entry sends a notice (R64). -/
def State.dropTasks (s : State) (lid core : Nat) : State :=
  let k := s.core core
  let freed := (k.tasks.filter fun t => t.launch = some lid).length
  let ofIt (i : Item) : Bool := match i with | .task t => t.launch = some lid | _ => false
  let s := s.updCore core fun k => { k with
    tasks := k.tasks.filter (fun t => t.launch ≠ some lid), callers := k.callers.filter (fun t => t.launch ≠ some lid)
    fwd := k.fwd.map fun f => { f with held := f.held.filter fun i => !ofIt i } }
  (List.range freed).foldl (fun s _ => s.slotFreeNotice core) s
/-- Units that wait for a core are placed no more. -/
def State.dropWaiting (s : State) (p : UnitPacket → Bool) : State :=
  (s.dies.map (·.1)).foldl (fun s d => s.updDie d fun x => { x with waiting := x.waiting.filter fun u => !p u }) s

/-- Cancel a launch (R58). Its own PARTIAL stays as it is: units are no objects with a status word (Table 2.7; log 40). -/
def State.cancelLaunch (s : State) (lid : Nat) : State :=
  match s.launch? lid with
  | none => s
  | some l =>
    if l.state = .advanced || l.cancelled then s
    else
      let started : Bool := l.state = .released
      let s := s.updLaunch lid fun l => { l with
        cancelled := true, state := .released
        shares := if started then l.shares.map fun sh => { sh with next := sh.count } else [] }
      let s := if started then s else s.endHold l
      let s := s.dropWaiting fun u => u.lid = lid
      let s := (s.cpu.cores.map (·.1)).foldl (fun s c => s.dropTasks lid c) s
      ((s.ctxsOf lid).foldl State.cancelCtx s).checkLaunch (if started then l.dies.head? else none) lid

/-- The unit has not been placed. -/
def State.unplaced (s : State) (l : Launch) (u : Nat) : Bool :=
  match l.state with
  | .blocked | .pending => u < l.n
  | .released => (l.shares.any fun sh => sh.base + sh.next ≤ u && u < sh.base + sh.count) || s.dies.any fun d => d.2.waiting.any fun w => w.lid = l.lid && w.unit = u
  | .advanced => false
/-- Cancel one unit: the context that runs it, the participants that it has become, or its placement. -/
def State.cancelUnit (s : State) (lid u : Nat) : State :=
  match s.launch? lid with
  | none => s
  | some l =>
    if l.state = .advanced || l.cancelled then s
    else
      let hit : State := s.updLaunch lid fun l => { l with partialDone := true }
      let mine (w : Work) : List Nat := (s.ctxsOf lid).filter fun g => (s.ctx g).unit.toNat = u && (s.ctx g).work = w
      match mine .unit, mine .participant with
      | g :: _, _ => hit.cancelCtx g
      | [], g :: gs => gs.foldl State.cancelCtx ((hit.updCtx g fun c => { c with work := .unit }).cancelCtx g)
      | [], [] =>
        if s.unplaced l u then ((hit.updLaunch lid fun l => { l with skip := u :: l.skip }).dropWaiting fun w => w.lid = lid && w.unit = u).checkLaunch l.dies.head? lid
        else s

/-- The last unit inside the object, which has at most `n` levels, has retired, though its counter has not advanced yet (R60). -/
def State.over (s : State) : Nat → Obj → Bool
  | 0, _ => false
  | n + 1, o =>
    o.begun && o.members ≤ o.done + s.waitsOf.countP (s.memberOver o.tenant o.ctr) + (s.membersOf o.tenant o.ctr).countP (s.over n)
/-- Mark an object cancelled, unless its last unit has retired before (R60); PARTIAL too where it holds a member that the cancel reaches
(Table 2.7; log 16). -/
def State.markCancelled (s : State) (tenant : Nat) (ctr : W64) : State :=
  match s.obj? tenant ctr with
  | none => s
  | some o =>
    if s.over 3 o then s
    else
      let part : Bool := s.launchesOf tenant ctr ≠ [] || s.membersOf tenant ctr ≠ []
      s.updObj tenant ctr fun o => { o with cancelled := true, partialDone := o.partialDone || part }
/-- Cancel a graph with its launches. -/
def State.cancelGraph (s : State) (tenant : Nat) (ctr : W64) : State :=
  let s := s.markCancelled tenant ctr
  ((s.launchesOf tenant ctr).foldl (fun s l => s.cancelLaunch l.lid) s).checkObj tenant ctr
/-- Cancel a phase with its graphs. -/
def State.cancelPhase (s : State) (tenant : Nat) (ctr : W64) : State :=
  let s := s.markCancelled tenant ctr
  ((s.membersOf tenant ctr).foldl (fun s o => s.cancelGraph tenant o.ctr) s).checkObj tenant ctr
/-- Cancel a job with its phases. -/
def State.cancelJob (s : State) (tenant : Nat) (ctr : W64) : State :=
  let s := s.markCancelled tenant ctr
  ((s.membersOf tenant ctr).foldl (fun s o => s.cancelPhase tenant o.ctr) s).checkObj tenant ctr
/-- Cancel the object of a counter, or one unit of a launch. -/
def State.applyCancel (s : State) (c : CancelTarget) : State :=
  match s.fw.launches.find? fun l => l.tenant = c.tenant && l.lctr = c.ctr && l.state ≠ .advanced with
  | some l => (match c.unit with | some u => s.cancelUnit l.lid u | none => s.cancelLaunch l.lid)
  | none =>
    if c.unit.isSome then s
    else match s.obj? c.tenant c.ctr with
      | none => s
      | some o =>
        match o.level with
        | .graph => s.cancelGraph c.tenant c.ctr
        | .phase => s.cancelPhase c.tenant c.ctr
        | .job => s.cancelJob c.tenant c.ctr
/-- CANCEL_APPLY (R58). -/
def execCancelApply (c : CancelTarget) (s : State) : Result := .next (s.applyCancel c)

/-- A word read is a counter. -/
def counterWord (x : Option (W64 × BitVec 4)) : Bool := x.any fun p => p.2.toNat % 8 = 1
/-- The firmware column reads the word at an address, to see whether it is a counter of the tenant. -/
def State.isCounter (s : State) (tenant : Nat) (a : W64) (align : Nat) : State × Bool :=
  if a.toNat % align = 0 && s.served tenant a = .here then let (s, x) := s.fwLook tenant a; (s, counterWord x) else (s, false)
/-- The local form of an address of this module. -/
def localAddr (a : W64) : W64 := wordOfNat (vaOf a)
/-- The launch unit of a die reads the word at an address: it is the completion counter of an object that the firmware column has taken (spec/02
R52). -/
def State.isCompletion (s : State) (die tenant : Nat) (a : W64) : State × Bool :=
  let (s, x) := s.look die tenant a
  (s, a.toNat % 8 = 0 && s.served tenant a = .here && counterWord x &&
    ((s.fw.launches.any fun l => l.tenant = tenant && l.lctr = localAddr a) || s.fw.objs.any fun o => o.tenant = tenant && o.ctr = localAddr a))
/-- CANCEL_ACCEPTANCE (spec/08 R209): the cancel goes to every die, and the context rejoins; a word that is no completion counter of the tenant
is refused with cause 0x0B (spec/20 Table 20.6). -/
def execCancelAcceptance (gid gen : Nat) (c : CancelTarget) (s : State) : Result :=
  .next (match s.isCompletion (dieOf (coreOf gid)) c.tenant c.ctr with
    | (s, true) => (s.post (.cancelApply { c with ctr := localAddr c.ctr })).toContext gid gen (.reply (acceptReply gid gen)) fun s => s.takeReply (acceptReply gid gen)
    | (s, false) => s.post (.faultReply { fwRequest 0 c.tenant .ctrAdd c.ctr 0 with src := .ctx gid gen } 0x0B c.ctr))

/-! ### Firmware waits (spec/14 R438) -/

/-- CANCELLED, REAPED and PARTIAL of the status word beside a counter. -/
def State.statusBits (s : State) (tenant : Nat) (ctr : W64) : State × Bool × Bool × Bool :=
  let (s, v) := s.fwRead tenant (ctr + 8)
  (s, bit v 0, bit v 1, bit v 2)
/-- The phase has begun, and with it the launches of its graphs. -/
def State.beginPhase (s : State) (tenant : Nat) (phase : W64) : State :=
  let s := s.updObj tenant phase fun o => { o with begun := true }
  let lids := (s.membersOf tenant phase).flatMap fun g => (s.launchesOf tenant g.ctr).map (·.lid)
  (lids.foldl State.tryBegin s).checkObj tenant phase
/-- An object that has advanced was cancelled, or partly. -/
def State.objPart (s : State) (tenant : Nat) (ctr : W64) : Bool :=
  s.fw.objs.any fun o => o.tenant = tenant && o.ctr = ctr && o.advanced && (o.cancelled || o.partialDone)
/-- A unit inside it was reaped. -/
def State.objReaped (s : State) (tenant : Nat) (ctr : W64) : Bool := s.fw.objs.any fun o => o.tenant = tenant && o.ctr = ctr && o.advanced && o.reaped

/-- A launch that enters the pending list when another agent's counter has advanced starts a pass; after an advance of the firmware
column's own, one follows already (R324). -/
def State.passFor (s : State) (tenant : Nat) (before : State) : State :=
  let pending (s : State) : Nat := s.fw.launches.countP fun l => l.tenant = tenant && l.state = .pending
  if pending s ≤ pending before || s.sched.agenda.any (fun p => p.ev = .dispatchPass tenant) then s else s.post (.dispatchPass tenant)

/-- A wait of the firmware column's own: its grant is a reply that crosses the boundary (spec/14 R318). -/
def crossesIn : FwWait → Bool
  | .pred .. | .prevPhase .. | .graphOf .. => true
  | _ => false
/-- What a counter was waited for goes on. -/
def State.takeWait (s : State) : FwWait → State
  | .pred lid k =>
    (match s.launch? lid with
    | none => s
    | some l =>
      match s.statusBits l.tenant (l.word (0x60 + 8 * k)) with
      | (s, true, _) => s.cancelLaunch lid
      | (s, false, _) => ((s.updLaunch lid fun l => { l with waits := l.waits - 1 }).tryBegin lid).passFor l.tenant s)
  | .prevPhase tenant phase => (s.beginPhase tenant phase).passFor tenant s
  | .graphOf tenant graph phase =>
    let (s, c, r, p) := s.statusBits tenant graph
    s.memberDone tenant phase (c || p) r
  | .phaseOf tenant phase job => s.memberDone tenant job (s.objPart tenant phase) (s.objReaped tenant phase)
  | .launchOf lid graph =>
    match s.launch? lid with
    | none => s
    | some l => s.memberDone l.tenant graph (l.cancelled || l.partialDone) l.reaped
/-- FIRMWARE_COUNTER_WAIT_GRANT (R438). -/
def execFirmwareCounterWaitGrant (w : FwWait) (s : State) : Result :=
  .next (if crossesIn w then s.cross true 1 0 fun s => s.takeWait w else s.takeWait w)

end Sys2Proof.Machine
end

