-- ==== Sys2Proof/Machine/Commands.lean ====
section
/-!
DEFINITION. Command queues, the scanner, the taking and rejecting of commands; LAUNCH, GRAPH, PHASE, JOB, CANCEL, CANCELU (spec/14
R314-R321, R438, R439; spec/19 R386).
-/

namespace Sys2Proof.Machine

open Sys2Proof

/-! ### The scanner (R316) -/

/-- A queue, by tenant and number. -/
def State.updQueue (s : State) (tenant num : Nat) (f : Queue → Queue) : State :=
  { s with fw := { s.fw with queues := mapWhere (fun q : Queue => q.tenant = tenant && q.num = num) f s.fw.queues } }
/-- The lowest (tenant, queue) of a list. -/
def firstQueue : List Queue → Option Queue
  | [] => none
  | q :: qs =>
    match firstQueue qs with
    | none => some q
    | some r => if 64 * r.tenant + r.num < 64 * q.tenant + q.num then some r else some q
/-- The scanner, on I/O die 0, reads WIDX of a queue: as an acquire at host scope (spec/01 R24). -/
def State.scanQueue (s : State) (q : Queue) : State :=
  let (s, x) := s.look (entryDie 0) q.tenant q.block
  let w := (x.map fun p => slice p.1 31 0).getD 0
  let i := if w ≠ q.widx then 800 else min (2 * q.interval) 800000
  (s.updQueue q.tenant q.num fun q => { q with widx := w, interval := i, lastRead := s.sched.now, ready := q.ready || w ≠ q.widx }).postIn i .queueScan

/-! ### Taking a command (R314, R315, R317) -/

/-- The number that follows `last` in round-robin order and satisfies a condition. -/
def roundRobin (n last : Nat) (p : Nat → Bool) : Option Nat := ((List.range n).map fun i => (last + 1 + i) % n).find? p
/-- The queue that is served next: tenants in turn, and a tenant's queues in turn. -/
def State.nextQueue (s : State) : Option Queue :=
  match roundRobin 16 s.fw.lastTenant fun t => s.fw.queues.any fun q => q.tenant = t && q.ready with
  | none => none
  | some t =>
    let last := ((s.fw.lastQueue.find? fun p => p.1 = t).map (·.2)).getD 63
    match roundRobin 64 last fun n => s.fw.queues.any fun q => q.tenant = t && q.num = n && q.ready with
    | none => none
    | some n => s.fw.queues.find? fun q => q.tenant = t && q.num = n
/-- The firmware column reads where a queue's next slot lies: BASE and CAPEXP of its block (Table 14.1). -/
def State.slotAddr (s : State) (q : Queue) : State × W64 :=
  let (s, base) := s.fwRead q.tenant (q.block + 0x10)
  let (s, cap) := s.fwRead q.tenant (q.block + 0x18)
  (s, base + wordOfNat (128 * (q.ridx % 2 ^ slice cap 4 0)))
/-- The words of a queue's slot; none where the firewall lets the column read nothing there (log 24). -/
def State.slotWords (s : State) (q : Queue) : State × Option (List W64) :=
  let (s, a) := s.slotAddr q
  let passes (i : Nat) : Bool := match s.dpFor q.tenant (a + wordOfNat (8 * i)) with
    | some dp => s.admits false 0 dp && s.admits true 1 0
    | none => true
  if (List.range 16).all passes then let (s, ws) := s.fwWords q.tenant a 16; (s, some ws) else (s.firewallDrop, none)
/-- The step that carries out a command (Tables 14.2, 16.1). -/
def commandStep (cmd : Nat) : Instr :=
  match cmd with
  | 0x01 => .hostLaunch
  | 0x02 => .hostGraph
  | 0x03 => .hostPhase
  | 0x04 => .hostJob
  | 0x05 => .hostCancel
  | 0x06 => .hostCancelu
  | 0x10 => .map
  | 0x11 => .unmap
  | 0x12 => .fwin
  | 0x13 => .qreg
  | 0x14 => .qunreg
  | 0x15 => .remap
  | 0x16 => .attest
  | 0x17 => .cfgstage
  | _ => .unknownCommand
/-- CMD of a command. -/
def cmdOf (c : Command) : Nat := slice (c.words.getD 0 0) 7 0
def wordAtOff (c : Command) (off : Nat) : W64 := c.words.getD (off / 8) 0
/-- RIDX passes the slot: a release after the firmware column's earlier writes for the tenant, and performed before the command's effects
begin (R315). -/
def State.writeRidx (s : State) (c : Command) (block : W64) : State :=
  let (tag, s) := s.newTag
  s.fwPost { fwRequest tag c.tenant (.store 4) (block + 8) (wordOfNat ((c.slot + 1) % 2 ^ 32)) with scope := 9#4 }
/-- The firmware column copies the next command, if it serves none. -/
def State.serveNext (s : State) : State :=
  if s.fw.serving then s
  else match s.nextQueue with
    | none => s
    | some q =>
      match s.slotWords q with
      | (s, none) => s.updQueue q.tenant q.num fun q => { q with ready := false }
      | (s, some ws) =>
        let c : Command := { tenant := q.tenant, queue := q.num, slot := q.ridx, words := ws }
        let r := (q.ridx + 1) % 2 ^ 32
        let s := s.updQueue q.tenant q.num fun q => { q with ridx := r, ready := decide (r ≠ q.widx) }
        ({ s with fw := { s.fw with
            serving := true, command := c, lastTenant := q.tenant
            lastQueue := (q.tenant, q.num) :: s.fw.lastQueue.filter fun p => p.1 ≠ q.tenant } }.writeRidx c q.block).post (commandStep (cmdOf c))
/-- QUEUE_SCAN (R316): the first queue whose interval has passed is read, and work found is passed on. -/
def execQueueScan (s : State) : Result :=
  .next (match firstQueue (s.fw.queues.filter fun q => q.lastRead + q.interval ≤ s.sched.now) with
    | none => s
    | some q => (s.scanQueue q).serveNext)

/-- Carry out the command that was taken; a pass over the tenant's launches follows (R324), and the next command is served. -/
def State.runCommand (s : State) (mine : Nat → Bool) (f : Command → State → State) : Result :=
  .next (
    if s.fw.serving && mine (cmdOf s.fw.command) then
      let c := s.fw.command
      let s := f c s
      ({ s with fw := { s.fw with serving := false } }.post (.dispatchPass c.tenant)).serveNext
    else s)

/-! ### Rejection (R439; spec/19 R386) -/

/-- KIND 0x02. -/
def State.commandError (s : State) (c : Command) (reason : Nat) (ctr status : W64) : State :=
  s.event c.tenant 0x02 ctr status [wordOfNat (c.queue * 2 ^ 32 + c.slot % 2 ^ 32), wordOfNat (reason * 2 ^ 8 + cmdOf c)]
/-- A command is rejected; its own completion counter, where it names one that is a counter, advances with CANCELLED = 1. -/
def State.reject (s : State) (c : Command) (reason : Nat) (ctr : Option (W64 × Nat)) : State :=
  match ctr with
  | none => s.commandError c reason 0 0
  | some (a, align) =>
    match s.isCounter c.tenant a align with
    | (s, true) => (s.advanceCounter c.tenant (localAddr a) (statusWord 0 false false true)).commandError c reason a (statusWord 0 false false true)
    | (s, false) => let (s, v) := s.fwRead c.tenant (a + 8); s.commandError c reason a v
/-- A bit outside the fields of a command is set: `used` gives the used bits of the words, by offset. -/
def reservedSet (c : Command) (used : List (Nat × W64)) : Bool :=
  (List.range 16).any fun i =>
    let m := ((used.find? fun p => p.1 = 8 * i).map (·.2)).getD 0
    c.words.getD i 0 &&& ~~~m ≠ 0
/-- All bits. -/
def allBits : W64 := BitVec.allOnes 64
/-- The bits hi to lo. -/
def bitsOf (hi lo : Nat) : W64 := wordOfNat ((2 ^ (hi + 1 - lo) - 1) * 2 ^ lo)

/-! ### LAUNCH (R320, R321) -/

/-- The bits that a LAUNCH command uses (Table 14.3). -/
def launchUsed : List (Nat × W64) :=
  [(0x00, bitsOf 63 32 ||| bitsOf 21 12 ||| bitsOf 9 0), (0x08, allBits), (0x10, allBits), (0x18, allBits), (0x20, allBits), (0x28, allBits),
   (0x30, allBits), (0x38, bitsOf 31 16 ||| bitsOf 14 8 ||| bitsOf 5 0), (0x40, allBits), (0x48, allBits), (0x50, allBits), (0x58, allBits),
   (0x60, allBits), (0x68, allBits), (0x70, allBits)]
/-- The tenant holds a cluster on a die. -/
def State.holdsDie (s : State) (tenant die : Nat) : Bool :=
  !(s.die die).removedHeat && !(s.die die).removedLink &&
    (match s.tenant? tenant with | some t => t.clusters.any fun c => c / 544 = die | none => false)
/-- Why a LAUNCH is rejected, in the order of R386's reasons as R321 lists the cases; the word at LCTR + 16 is a counter, or not. -/
def State.launchReason (s : State) (c : Command) (l : Launch) (k : Kernel) (retire : Bool) : Option Nat :=
  if 16777216 < l.n then some 3
  else if reservedSet c launchUsed then some 2
  else if l.lctr.toNat % 16 ≠ 0 || l.kernelAddr.toNat % 16 ≠ 0 || k.magic ≠ 0x1D then some 4
  else if l.n ≠ 0 && (l.dies = [] || l.dies.any fun d => !s.holdsDie l.tenant d) then some 5
  else if l.groups ≠ 0 && (l.n % l.groups ≠ 0 || 8 * l.quota k < l.n / l.groups) then some 6
  else if l.rctr && !retire then some 13
  else none
/-- The object that a command's object belongs to has been cancelled, and has perhaps advanced since. -/
def State.parentCancelled (s : State) (tenant : Nat) (ctr : W64) : Bool :=
  ctr ≠ 0 && (match s.fw.objs.reverse.find? fun o => o.tenant = tenant && o.ctr = ctr with | some o => o.cancelled | none => false)
/-- The waits for a launch's predecessors (R438). -/
def State.waitPreds (s : State) (l : Launch) : State :=
  [0, 1].foldl (fun s k => if l.word (0x60 + 8 * k) = 0 then s else s.fwWaitFor l.tenant (l.word (0x60 + 8 * k)) (.pred l.lid k)) s
/-- A launch is entered in the list. -/
def State.addLaunch (s : State) (l : Launch) : State := { s with fw := { s.fw with launches := s.fw.launches ++ [l], nextLid := s.fw.nextLid + 1 } }
/-- A LAUNCH whose header has been read is rejected, or waits for its predecessors. -/
def State.enterLaunch (s : State) (c : Command) (l : Launch) (k : Kernel) : State :=
  let (s, retire) := if l.rctr then s.isCounter l.tenant (l.lctr + 16) 8 else (s, false)
  match s.launchReason c l k retire with
  | some r =>
    let (s, counts) := if l.graph = 0 then (s, false) else s.isCounter c.tenant l.lctr 16
    let s := (s.addLaunch { l with state := .advanced, cancelled := true }).reject c r (some (l.lctr, 16))
    if counts then s.post (.firmwareCounterWaitGrant (.launchOf l.lid l.graph)) else s
  | none =>
    let s := s.addLaunch l
    if s.parentCancelled c.tenant l.graph then s.cancelLaunch l.lid else (s.waitPreds l).tryBegin l.lid
/-- The launch that a LAUNCH command makes. -/
def State.newLaunch (s : State) (c : Command) : Launch :=
  let count := ((s.tenant? c.tenant).map (·.launches)).getD 0
  let l : Launch := { lid := s.fw.nextLid, tenant := c.tenant, words := c.words, id := BitVec.ofNat 32 (c.tenant * 2 ^ 28 + count % 2 ^ 28), state := .blocked
                      waits := 0, age := 0, shares := [], live := 0, retired := 0, reaped := false, partialDone := false, cancelled := false, replaced := []
                      skip := [] }
  { l with waits := (if l.word 0x60 = 0 then 0 else 1) + (if l.word 0x68 = 0 then 0 else 1) }
/-- A LAUNCH is taken. -/
def State.takeLaunch (s : State) (c : Command) : State :=
  let l := s.newLaunch c
  let s := s.updTenant c.tenant fun t => { t with launches := t.launches + 1 }
  let (s, ws) := s.fwWords c.tenant l.kernelAddr 6
  let hd := ws.flatMap fun w => bytesOfNat w.toNat 8
  s.enterLaunch c l { addr := l.kernelAddr, code := hd }
/-- HOST_LAUNCH (R320). -/
def execHostLaunch (s : State) : Result := s.runCommand (· = 0x01) fun c s => s.takeLaunch c

/-! ### GRAPH, PHASE, JOB (R319) -/

/-- A graph, phase or job is entered; one whose container has been cancelled is cancelled with it. -/
def State.addObj (s : State) (o : Obj) : State :=
  let s' := { s with fw := { s.fw with objs := s.fw.objs ++ [o] } }
  let s' := if s.parentCancelled o.tenant o.parent then s'.markCancelled o.tenant o.ctr else s'
  s'.checkObj o.tenant o.ctr
/-- An object command: refused for a reserved bit, or for a counter that is not aligned to 8 (log 17). -/
def State.takeObj (s : State) (c : Command) (used : List (Nat × W64)) (f : State → State) : State :=
  let ctr := wordAtOff c 0x08
  if reservedSet c used then s.reject c 2 (some (ctr, 8))
  else if ctr.toNat % 8 ≠ 0 then s.reject c 4 (some (ctr, 8))
  else f s
/-- HOST_GRAPH (R319): its phase waits for the graph's counter (R438). -/
def execHostGraph (s : State) : Result :=
  s.runCommand (· = 0x02) fun c s => s.takeObj c [(0, bitsOf 7 0), (0x08, allBits), (0x10, allBits), (0x18, allBits)] fun s =>
    let ctr := wordAtOff c 0x08
    let phase := wordAtOff c 0x10
    let s := s.addObj { level := .graph, tenant := c.tenant, ctr, parent := phase, members := (wordAtOff c 0x18).toNat, done := 0, begun := true
                        partialDone := false, reaped := false, cancelled := false, advanced := false }
    if phase = 0 then s else s.fwWaitFor c.tenant ctr (.graphOf c.tenant ctr phase)
/-- HOST_PHASE (R319): it begins when the previous phase's counter has advanced. -/
def execHostPhase (s : State) : Result :=
  s.runCommand (· = 0x03) fun c s =>
    s.takeObj c [(0, bitsOf 7 0), (0x08, allBits), (0x10, allBits), (0x18, allBits), (0x20, allBits)] fun s =>
      let ctr := wordAtOff c 0x08
      let prev := wordAtOff c 0x20
      let s := s.addObj { level := .phase, tenant := c.tenant, ctr, parent := wordAtOff c 0x10, members := (wordAtOff c 0x18).toNat, done := 0
                          begun := decide (prev = 0), partialDone := false, reaped := false, cancelled := false, advanced := false }
      if prev = 0 then s else s.fwWaitFor c.tenant prev (.prevPhase c.tenant ctr)
/-- HOST_JOB (R319). -/
def execHostJob (s : State) : Result :=
  s.runCommand (· = 0x04) fun c s => s.takeObj c [(0, bitsOf 7 0), (0x08, allBits), (0x18, allBits)] fun s =>
    s.addObj { level := .job, tenant := c.tenant, ctr := wordAtOff c 0x08, parent := 0, members := (wordAtOff c 0x18).toNat, done := 0, begun := true
               partialDone := false, reaped := false, cancelled := false, advanced := false }

/-! ### CANCEL and CANCELU (spec/02 R57; R439) -/

/-- A cancel on a tenant's queue: the counter it names is another object's, so a rejection leaves it (log 17). It leaves the column as a launch
packet does (log 24). -/
def State.takeCancel (s : State) (c : Command) (used : List (Nat × W64)) (unit : Option Nat) : State :=
  let ctr := wordAtOff c 0x08
  if reservedSet c used then s.reject c 2 none
  else match s.isCounter c.tenant ctr 8 with
    | (s, false) => s.reject c 14 none
    | (s, true) => s.cross false 4 0 fun s => s.post (.cancelApply { tenant := c.tenant, ctr := localAddr ctr, unit })
/-- HOST_CANCEL. -/
def execHostCancel (s : State) : Result := s.runCommand (· = 0x05) fun c s => s.takeCancel c [(0, bitsOf 7 0), (0x08, allBits)] none
/-- HOST_CANCELU. -/
def execHostCancelu (s : State) : Result :=
  s.runCommand (· = 0x06) fun c s =>
    s.takeCancel c [(0, bitsOf 7 0), (0x08, allBits), (0x10, bitsOf 23 0)] (some (slice (wordAtOff c 0x10) 23 0))

/-- UNKNOWN_COMMAND (R386): it is not performed. -/
def execUnknownCommand (s : State) : Result := s.runCommand (fun n => commandStep n = .unknownCommand) fun c s => s.reject c 1 none

/-! ### Bytes that an agent outside the contexts writes (spec/05 R146; spec/16 R350, R359) -/

/-- The words that `n` bytes from an address lie in: the address of each word's first byte, its number in the bytes, and how many of them the
word holds. -/
def wordParts (a : W64) (n : Nat) : List (W64 × Nat × Nat) :=
  let o := a.toNat % 8
  (List.range (if n = 0 then 0 else (o + n + 7) / 8)).map fun k => (a + wordOfNat (8 * k - o), 8 * k - o, min n (8 * (k + 1) - o) - (8 * k - o))
/-- A host's bytes for one word, written as one event where the word is mapped, writable and not typed (spec/05 R146); over poison as spec/21
R409 and R410 say. -/
def State.writeForHost (s : State) (die tenant : Nat) (a : W64) (bs : List Byte) : State :=
  match s.xlat die tenant a true with
  | (s, .error _) => s
  | (s, .ok dp) =>
    let w := wordAt dp
    let s := s.open w
    let v := wordOfNat (natOfBytes bs)
    match s.memType w with
    | 0 => s.commit w (mergeWord (s.memWord w) (dp % 8) bs.length v) (s.memTag w)
    | 7 =>
      if bs.length = 8 then s.commit w v (mkTag 0 true)
      else
        let (r, s) := (s.commit w (mergeWord 0 (dp % 8) bs.length v) (mkTag 7 true)).openRecord tenant 0x0A
        s.asyncRecord (homeDie w) { r with cls := 2, swcode := 0x30, addr := a &&& ~~~7#64 }
    | _ => s
def State.writeAllForHost (s : State) (die tenant : Nat) (a : W64) (bs : List Byte) : State :=
  (wordParts a bs.length).foldl (fun s p => s.writeForHost die tenant p.1 ((bs.drop p.2.1).take p.2.2)) s

end Sys2Proof.Machine
end

