-- ==== Sys2Proof/Machine/Mapping.lean ====
section
/-!
DEFINITION. The commands of spec/16 Table 16.1 but ATTEST and CFGSTAGE: MAP, UNMAP, FWIN, QREG, QUNREG, REMAP (spec/16 R351, R352;
spec/03 R88, R96, R97, R102; spec/15 R331-R334; log 8).
-/

namespace Sys2Proof.Machine

open Sys2Proof

/-- The completion counter of a command of Table 16.1. -/
def mapCtr (c : Command) : W64 := wordAtOff c 0x70
/-- The common checks (R439), and the refusal with its counter. -/
def State.takeMap (s : State) (c : Command) (used : List (Nat × W64)) (f : State → State × Option Nat) : State :=
  let no (s : State) (r : Nat) : State := s.reject c r (some (mapCtr c, 8))
  if reservedSet c ((0, bitsOf 7 0) :: (0x70, allBits) :: used) then no s 2
  else if (mapCtr c).toNat % 8 ≠ 0 then no s 4
  else match f s with
    | (s, some r) => no s r
    | (s, none) => s
/-- The command has taken effect: its counter advances. -/
def State.done (s : State) (c : Command) : State := s.advanceCounter c.tenant (localAddr (mapCtr c)) 0

/-! ### DP pages and frames (R352; log 8) -/

/-- DP pages of a die, and those of them that MAP may take: below its table region. -/
def pagesPerDie : Nat := 4194304
def mapPagesPerDie : Nat := Config.tableBase / 65536
/-- The lowest free place of `n` pages of a die, aligned to `n`, from page `lo` on and below page `hi`, as a DP page. -/
def freePlace (used : List Nat) (die lo hi n : Nat) : Option Nat :=
  let mine := (used.filter fun p => dieOfPage p = die).map (· % 2 ^ 27 / n)
  let b := lo / n + leastFree ((mine.filter (lo / n ≤ ·)).map (· - lo / n))
  if (b + 1) * n ≤ hi then some (dpPage die (b * n)) else none
/-- A page is cleared: data 0, plain and full (spec/03 R88). -/
def State.clearPage (s : State) (page : Nat) : State :=
  let out (a : Nat) : Bool := !(decide (a / 65536 = page))
  { s with mem := { s.mem with
      bytes := s.mem.bytes.filter fun p => out p.1
      tags := s.mem.tags.filter fun p => out p.1
      upsets := s.mem.upsets.filter fun p => out p.1
      copyUpsets := s.mem.copyUpsets.filter fun p => out p.1
      counts := s.mem.counts.filter fun p => p.1 ≠ page } }
/-- A DP page takes a frame: near where the die has one, else far; its DPIT entry is written, and the page cleared with it (log 24). -/
def State.backPage (s : State) (page : Nat) : Option State :=
  (match s.freeNear (dieOfPage page), s.freeFar (dieOfPage page) with
  | some n, _ => some (mkDpit true false false false false 0 n)
  | none, some f => some (mkDpit true true false false false 0 f)
  | none, none => none).map fun e => s.fwStore (dpitAddr page) fun s => (s.setDpit page e).clearPage page
/-- Frames for `n` pages from a DP page on. -/
def State.backPages (s : State) (page : Nat) : Nat → Option State
  | 0 => some s
  | n + 1 => match s.backPage page with | none => none | some s => s.backPages (page + 1) n
/-- Take a place on one die: its pages are backed and cleared. -/
def State.takePlace (s : State) (die lo hi n : Nat) : Option (Nat × State) :=
  match freePlace (s.fw.pages ++ s.fw.tables) die lo hi n with
  | none => none
  | some page => (s.backPages page n).map fun s => (page, s)
/-- Take a place for MAP on the first die of a list that has one: the dies, in the order of the round. -/
def State.takeAny (s : State) (n : Nat) : List Nat → Option (Nat × Nat × State)
  | [] => none
  | d :: ds =>
    match s.takePlace d Config.heldPages mapPagesPerDie n with
    | some (page, s) => some (d, page, { s with fw := { s.fw with pages := s.fw.pages ++ List.range' page n } })
    | none => s.takeAny n ds
/-- The allowed dies, from the one after `last` on. -/
def dieRound (dies : List Nat) (last : Nat) : List Nat := dies.filter (last < ·) ++ dies.filter (· ≤ last)
/-- Take `k` places, in ascending die order and round robin; their pages, first place first. -/
def State.takePlaces (s : State) (n : Nat) (dies : List Nat) (last : Nat) : Nat → Option (List Nat × State)
  | 0 => some ([], s)
  | k + 1 =>
    match s.takeAny n (dieRound dies last) with
    | none => none
    | some (d, page, s) => (s.takePlaces n dies d k).map fun r => (page :: r.1, r.2)

/-! ### Translation tables (spec/03 R96) -/

/-- The firmware column reads an entry of a table; 0 where it gets no reply (log 24). -/
def State.fwEntry (s : State) (a : Nat) : State × W64 := let (s, x) := s.fwOpen a; (s, (x.map (·.1)).getD 0)
/-- It writes one. -/
def State.putEntry (s : State) (a : Nat) (e : W64) : State := s.fwStore a fun s => (s.open (wordAt a)).commit (wordAt a) e (mkTag 0 true)
/-- An entry (Table 3.6). -/
def tableEntry (kind target : Nat) (wr : Bool) : W64 := wordOfNat (2 ^ 63 + kind * 2 ^ 61 + bitAt wr 60 + target / 65536 * 65536)
/-- A table of `size` bytes, aligned to its size, or to 64 KiB where that is more: at the lowest free place of the dies' table regions, or, with
those full, of any die (log 8). -/
def State.newTable (s : State) (size : Nat) : Option (Nat × State) :=
  let n := max 1 (size / 65536)
  let from_ (lo hi : Nat) : Option (Nat × State) := (List.range 24).findSome? fun d => s.takePlace d lo hi n
  ((from_ mapPagesPerDie pagesPerDie).or (from_ Config.heldPages mapPagesPerDie)).map fun p =>
    (p.1 * 65536, { p.2 with fw := { p.2.fw with tables := p.2.fw.tables ++ List.range' p.1 n } })
/-- The next-level table behind an entry, made where there is none; none where no die has room. -/
def State.tableAt (s : State) (a size : Nat) : Option (Nat × State) :=
  match s.fwEntry a with
  | (s, e) =>
    if entryValid e && entryKind e = 0 then some (entryTarget e, s)
    else (s.newTable size).map fun p => (p.1, p.2.putEntry a (tableEntry 0 p.1 true))
/-- The address of the entry that maps a page, at level 3 or, for a 2 MiB page, level 2; tables are made on the way. -/
def State.entryFor (s : State) (t : Tenant) (va : Nat) (big : Bool) : Option (Nat × State) :=
  match s.tableAt (t.l1 + 8 * (va / 2 ^ 37)) 0x80000 with
  | none => none
  | some (l2, s) =>
    let a := l2 + 8 * (va / 2 ^ 21 % 2 ^ 16)
    if big then some (a, s) else (s.tableAt a 0x100).map fun p => (p.1 + 8 * (va / 2 ^ 16 % 32), p.2)
/-- Map one page. -/
def State.mapPage (s : State) (t : Tenant) (va page : Nat) (big wr : Bool) : Option State :=
  (s.entryFor t va big).map fun p => p.2.putEntry p.1 (tableEntry (if big then 2 else 1) (page * 65536) wr)
/-- Map pages one after another. -/
def State.mapPages (s : State) (t : Tenant) (big wr : Bool) (va : Nat) : List Nat → Option State
  | [] => some s
  | page :: ps => match s.mapPage t va page big wr with | none => none | some s => s.mapPages t big wr (va + if big then 2 ^ 21 else 65536) ps
/-- How a virtual page is mapped: its size, and the DP page. -/
def State.mapped (s : State) (t : Tenant) (va : Nat) : State × Option (Bool × Nat) :=
  let (s, e1) := s.fwEntry (t.l1 + 8 * (va / 2 ^ 37))
  if !entryValid e1 then (s, none)
  else
    let (s, e2) := s.fwEntry (entryTarget e1 + 8 * (va / 2 ^ 21 % 2 ^ 16))
    if !entryValid e2 then (s, none)
    else if entryKind e2 = 2 then (s, some (true, pageOf (entryTarget e2)))
    else
      let (s, e3) := s.fwEntry (entryTarget e2 + 8 * (va / 2 ^ 16 % 32))
      (s, if entryValid e3 then some (false, pageOf (entryTarget e3)) else none)

/-! ### MAP (R352) -/

/-- Size, count and WR of a MAP or UNMAP. -/
def mapBig (c : Command) : Bool := bit (wordAtOff c 0x10) 32
def mapCount (c : Command) : Nat := slice (wordAtOff c 0x10) 31 0
def mapSize (c : Command) : Nat := if mapBig c then 2 ^ 21 else 65536
/-- The checks on the range of a MAP or UNMAP: alignment, and the top of the space. -/
def rangeReason (c : Command) : Option Nat :=
  let va := (wordAtOff c 0x08).toNat
  if va % mapSize c ≠ 0 then some 4 else if 2 ^ 52 < va + mapCount c * mapSize c then some 15 else none
/-- The dies that MAP may use: those allowed that no failed link has removed (spec/19 R388). -/
def State.mapDies (s : State) (mask : W64) : List Nat := (List.range 24).filter fun d => bit mask d && !(s.die d).removedLink
/-- Some 64 KiB page of `n` from `va` on is mapped. -/
def State.anyMapped (s : State) (t : Tenant) (va : Nat) : Nat → State × Bool
  | 0 => (s, false)
  | n + 1 => match s.mapped t va with | (s, some _) => (s, true) | (s, none) => s.anyMapped t (va + 65536) n
/-- Map a range for a tenant: none of it where a page is mapped, or where the dies lack places; then the tables are written. The reason of a
refusal. -/
def State.mapRange (s : State) (t : Tenant) (va n : Nat) (big wr : Bool) (mask : W64) : State × Option Nat :=
  match s.anyMapped t va (if big then 32 * n else n) with
  | (s, true) => (s, some 10)
  | (s, false) =>
    match (s.takePlaces (if big then 32 else 1) (s.mapDies mask) 24 n).bind fun p => p.2.mapPages t big wr va p.1 with
    | none => (s, some 9)
    | some s => (s, none)
/-- MAP. -/
def execMap (s : State) : Result :=
  s.runCommand (· = 0x10) fun c s => s.takeMap c [(0x08, allBits), (0x10, bitsOf 33 0), (0x18, bitsOf 23 0)] fun s =>
    match rangeReason c, s.tenant? c.tenant with
    | some r, _ => (s, some r)
    | none, none => (s, some 9)
    | none, some t =>
      match s.mapRange t (wordAtOff c 0x08).toNat (mapCount c) (mapBig c) (bit (wordAtOff c 0x10) 33) (wordAtOff c 0x18) with
      | (s, some r) => (s, some r)
      | (s, none) => (s.done c, none)

/-! ### UNMAP (R352; spec/03 R97) -/

/-- The DP pages of a range, where every page of it is mapped at the size stated. -/
def State.unmapPages (s : State) (t : Tenant) (big : Bool) (va : Nat) : Nat → State × Option (List Nat)
  | 0 => (s, some [])
  | n + 1 =>
    match s.mapped t va with
    | (s, some (b, page)) =>
      if b = big then
        let (s, ps) := s.unmapPages t big (va + if big then 2 ^ 21 else 65536) n
        (s, ps.map (List.range' page (if big then 32 else 1) ++ ·))
      else (s, none)
    | (s, none) => (s, none)
/-- A table that holds no entry any more is given back, and the entry that leads to it goes (log 8); the firmware keeps count of a table's
entries. -/
def State.dropTable (s : State) (a table size : Nat) : State :=
  if s.mem.bytes.any fun p => decide (table ≤ p.1) && decide (p.1 < table + size) then s
  else
    let ps := List.range' (table / 65536) (max 1 (size / 65536))
    let s := s.putEntry a 0
    let s := ps.foldl (fun s p => s.fwStore (dpitAddr p) fun s => (s.setDpit p 0).setMoved p []) s
    { s with fw := { s.fw with tables := s.fw.tables.filter fun p => !ps.contains p } }
/-- The entry of a mapped page goes, and with it the tables that it leaves empty. -/
def State.unmapPage (s : State) (t : Tenant) (big : Bool) (va : Nat) : State :=
  let a1 := t.l1 + 8 * (va / 2 ^ 37)
  let (s, e1) := s.fwEntry a1
  let a2 := entryTarget e1 + 8 * (va / 2 ^ 21 % 2 ^ 16)
  let s :=
    if big then s.putEntry a2 0
    else
      let (s, e2) := s.fwEntry a2
      (s.putEntry (entryTarget e2 + 8 * (va / 2 ^ 16 % 32)) 0).dropTable a2 (entryTarget e2) 0x100
  s.dropTable a1 (entryTarget e1) 0x80000
/-- The entries of a range go, from the tables and from every translation cache. -/
def State.dropEntries (s : State) (t : Tenant) (big : Bool) (va : Nat) : Nat → State
  | 0 => s
  | n + 1 =>
    let size := if big then 2 ^ 21 else 65536
    let s := s.unmapPage t big va
    let gone (e : TlbEntry) : Bool := e.tenant = t.num && va ≤ e.vpn * 65536 && e.vpn * 65536 < va + size
    let s : State := { s with mem := { s.mem with tlb := s.mem.tlb.filter fun e => !gone e } }
    s.dropEntries t big (va + size) n
/-- The pages leave the tenant; the counter advances when every request translated with a dropped entry has ended. -/
def State.unmapRange (s : State) (c : Command) (t : Tenant) (ps : List Nat) : State :=
  let s := s.dropEntries t (mapBig c) (wordAtOff c 0x08).toNat (mapCount c)
  let x : Settling := { tenant := c.tenant, ctr := localAddr (mapCtr c), pages := ps, reqs := [], ops := [] }
  let s : State := { s with fw := { s.fw with settling := s.fw.settling ++ [x] } }
  s.post .unmap
/-- A later step looks again whether commands that wait have ended. -/
def State.pollSettling (s : State) : State :=
  if s.fw.settling ≠ [] then s.postIn 1 .unmap else s
/-- A step that finds no UNMAP command looks whether earlier commands have ended. -/
def State.pollUnmap (s : State) : State := s.settle.pollSettling
/-- UNMAP; bit 33 of word 0x10 is ignored. -/
def execUnmap (s : State) : Result :=
  if s.fw.serving && cmdOf s.fw.command = 0x11 then
    s.runCommand (· = 0x11) fun c s => s.takeMap c [(0x08, allBits), (0x10, bitsOf 33 0)] fun s =>
      match rangeReason c, s.tenant? c.tenant with
      | some r, _ => (s, some r)
      | none, none => (s, some 11)
      | none, some t =>
        match s.unmapPages t (mapBig c) (wordAtOff c 0x08).toNat (mapCount c) with
        | (s, none) => (s, some 11)
        | (s, some []) => (s.done c, none)
        | (s, some ps) => (s.unmapRange c t ps, none)
  else .next s.pollUnmap

/-! ### FWIN, QREG, QUNREG, REMAP (R352) -/

/-- FWIN (spec/03 R102, R103). -/
def execFwin (s : State) : Result :=
  s.runCommand (· = 0x12) fun c s =>
    s.takeMap c [(0x08, bitsOf 3 0), (0x10, bitsOf 63 60 ||| bitsOf 51 16 ||| bitsOf 0 0), (0x18, bitsOf 51 16), (0x20, bitsOf 51 3)] fun s =>
      let w : FWin := { fwa := wordAtOff c 0x10, fwb := wordAtOff c 0x18, fws := wordAtOff c 0x20 }
      (({ s with mem := { s.mem with fwins := spSet { fwa := 0, fwb := 0, fws := 0 } s.mem.fwins (16 * c.tenant + slice (wordAtOff c 0x08) 3 0) w } } : State).done c, none)

/-- A queue is registered with the scanner: I = 800 (spec/14 R316); the host has set WIDX = RIDX. -/
def State.register (s : State) (tenant num : Nat) (block : W64) : State :=
  let (s, v) := s.fwRead tenant (block + 8)
  let r := slice v 31 0
  let q : Queue := { tenant, num, block, widx := r, interval := 800, lastRead := s.sched.now, ridx := r, ready := false }
  { s with fw := { s.fw with queues := s.fw.queues ++ [q] } }.postIn 800 .queueScan
def State.registered (s : State) (tenant num : Nat) : Bool := s.fw.queues.any fun q => q.tenant = tenant && q.num = num
/-- QREG. -/
def execQreg (s : State) : Result :=
  s.runCommand (· = 0x13) fun c s => s.takeMap c [(0x08, allBits), (0x10, bitsOf 5 0)] fun s =>
    let num := slice (wordAtOff c 0x10) 5 0
    if (wordAtOff c 0x08).toNat % 64 ≠ 0 then (s, some 4)
    else if s.registered c.tenant num then (s, some 12)
    else ((s.register c.tenant num (wordAtOff c 0x08)).done c, none)
/-- QUNREG: commands not yet copied are never taken. -/
def execQunreg (s : State) : Result :=
  s.runCommand (· = 0x14) fun c s => s.takeMap c [(0x10, bitsOf 5 0)] fun s =>
    let num := slice (wordAtOff c 0x10) 5 0
    if s.registered c.tenant num then
      let qs := s.fw.queues.filter fun q => !(q.tenant = c.tenant && q.num = num)
      (({ s with fw := { s.fw with queues := qs } } : State).done c, none)
    else (s, some 12)

/-- REMAP (spec/15 R331, R334): in this module only; the counter advances when the requests handed to a station under the old entry
have their replies. -/
def execRemap (s : State) : Result :=
  s.runCommand (· = 0x15) fun c s => s.takeMap c [(0x08, bitsOf 9 0), (0x10, bitsOf 63 63 ||| bitsOf 9 0)] fun s =>
    let l := slice (wordAtOff c 0x08) 9 0
    let e := wordAtOff c 0x10
    match s.tenant? c.tenant with
    | none => (s, some 8)
    | some t =>
      let new := spSet 0 t.remap l (remapFields e)
      if !remapOk new s.fw.params.physid then (s, some 8)
      else
        let s := s.updTenant c.tenant fun t => { t with remap := new }
        let old := (s.fab.waiting.map fun w => w.2.2).filter fun r => r.tenant = c.tenant && isGlobal r.va && logicalOf r.va = l
        let ops := (s.eng.ops.filter fun o => o.tenant = c.tenant && s.fab.opPeers.any fun x => x.2.1 = o.id).map (·.id)
        if old = [] && ops = [] then (s.done c, none)
        else
          let x : Settling := { tenant := c.tenant, ctr := localAddr (mapCtr c), pages := [], reqs := old, ops }
          (({ s with fw := { s.fw with settling := s.fw.settling ++ [x] } } : State).pollSettling, none)

end Sys2Proof.Machine
end

