-- ==== Sys2Proof/Machine/Boot.lean ====
section
/-!
DEFINITION. The configuration table, its verification, bring-up, ATTEST and CFGSTAGE (spec/16 R351, R355-R359; spec/19 R388, R389;
log 3, log 18).
-/

namespace Sys2Proof.Machine

open Sys2Proof

/-! ### The table (R356, R357) -/

/-- A record: its type, LENGTH and bytes. -/
structure TableRec where
  type : Nat
  length : Nat
  bytes : List Byte
deriving DecidableEq, Repr

/-- The word at an offset of some bytes. -/
def wordIn (bs : List Byte) (off : Nat) : W64 := wordOfNat (natOfBytes ((bs.drop off).take 8))
def TableRec.word (r : TableRec) (off : Nat) : W64 := wordIn r.bytes off
/-- The records of a table, from its first record on; none where they do not end with it. -/
def tableRecs : Nat → List Byte → Option (List TableRec)
  | _, [] => some []
  | 0, _ => none
  | n + 1, bs =>
    let h := wordIn bs 0
    let len := slice h 31 0
    if bs.length < 8 || len < 8 || bs.length < len || slice h 55 32 ≠ 0 then none
    else (tableRecs n (bs.drop len)).map ({ type := slice h 63 56, length := len, bytes := bs.take len } :: ·)
/-- The records of one type. -/
def recsOf (rs : List TableRec) (type : Nat) : List TableRec := rs.filter fun r => r.type = type
/-- LENGTH by type. -/
def recLength (type : Nat) : Nat :=
  match type with
  | 0x01 => 0x38
  | 0x02 => 0x208
  | 0x03 => 0x20
  | 0x04 => 0x68
  | 0x05 => 0x88
  | 0x06 => 0x788
  | 0x07 => 0x28
  | _ => 0
/-- Every bit of a word outside the listed fields (hi, lo) is zero. -/
def onlyBits (v : W64) (fields : List (Nat × Nat)) : Bool := v &&& ~~~(fields.foldl (fun m f => m ||| bitsOf f.1 f.2) 0) = 0
/-- A number in a range. -/
def within (x lo hi : Nat) : Bool := lo ≤ x && x ≤ hi

/-- Role of firmware cluster (cx, cy) (Table 16.8). -/
def roleOf (r : TableRec) (i : Nat) : Nat := natOfBytes ((r.bytes.drop 0x10).take 40) / 2 ^ (2 * i) % 4
def columnOk (r : TableRec) : Bool :=
  let w := slice (r.word 8) 2 0
  onlyBits (r.word 8) [(2, 0)] && within w 1 4 && natOfBytes ((r.bytes.drop 0x10).take 40) < 2 ^ (68 * w) &&
    [0, 1, 2].all fun k => (List.range (34 * w)).any fun i => roleOf r i = k
/-- A rule (Table 16.10). -/
def ruleOk (a b : W64) : Bool :=
  let cls := slice a 61 58
  onlyBits a [(63, 58), (47, 0)] && onlyBits b [(47, 0)] &&
    cls < 8 && ([0, 2, 5].contains cls || (slice a 47 0 = 0 && slice b 47 0 = 0))
def rulesOk (r : TableRec) : Bool := (List.range 32).all fun k => ruleOk (r.word (8 + 16 * k)) (r.word (16 + 16 * k))
/-- Module parameters (Table 16.9). -/
def moduleOk (r : TableRec) : Bool :=
  onlyBits (r.word 8) [(63, 56), (47, 32), (23, 16), (9, 0)] && within (slice (r.word 8) 47 32) 1 65535 && within (slice (r.word 8) 23 16) 1 255 &&
    onlyBits (r.word 0x10) [(63, 32), (15, 0)] && within (slice (r.word 0x10) 63 32) 80000 80000000 && within (slice (r.word 0x10) 15 0) 1 65535 &&
    onlyBits (r.word 0x18) [(12, 0)] && within (slice (r.word 0x18) 12 0) 1 4800
def ethernetOk (r : TableRec) : Bool := (List.range 4).all fun k => onlyBits (r.word (8 + 24 * k)) [(47, 0)]
def ownersOk (r : TableRec) : Bool := (List.range 16).all fun k => onlyBits (r.word (8 + 8 * k)) [(63, 63), (9, 0)]
/-- The clusters of a tenant record, over the module. -/
def clustersIn (r : TableRec) : List Nat :=
  (List.range 24).flatMap fun d =>
    let m := natOfBytes ((r.bytes.drop (0xC8 + 72 * d)).take 72)
    ((List.range 544).filter fun b => m.testBit b).map (544 * d + ·)
/-- A tenant record (Table 16.2): reserved bits, ranges, and a first mapping that holds the queue 0 block and EVR. -/
def tenantOk (r : TableRec) : Bool :=
  let va := (r.word 0x10).toNat
  let fin := va + 65536 * slice (r.word 0x18) 31 0
  onlyBits (r.word 8) [(57, 32), (28, 24), (14, 0)] && within (slice (r.word 8) 28 24) 4 16 && va % 65536 = 0 && fin ≤ 2 ^ 52 &&
    onlyBits (r.word 0x18) [(55, 0)] && (r.word 0x20).toNat % 64 = 0 && va ≤ (r.word 0x20).toNat && (r.word 0x20).toNat + 64 ≤ fin &&
    (r.word 0x28).toNat % 8 = 0 && va ≤ (r.word 0x28).toNat && (r.word 0x28).toNat + 8 ≤ fin && (r.word 0x30).toNat % 64 = 0 && (r.word 0x38).toNat % 8 = 0 &&
    onlyBits (r.word 0x40) [(31, 0)] &&
    ((List.range 8).all fun w => onlyBits (r.word (0x48 + 16 * w)) [(63, 63), (51, 0)] && slice (r.word (0x48 + 16 * w)) 15 0 = 0) &&
    (List.range 24).all fun d => natOfBytes ((r.bytes.drop (0xC8 + 72 * d)).take 72) < 2 ^ 544
/-- A record is well formed. -/
def recOk (r : TableRec) : Bool :=
  r.length = recLength r.type &&
    (match r.type with
    | 0x01 => columnOk r
    | 0x02 => rulesOk r
    | 0x03 => moduleOk r
    | 0x04 => ethernetOk r
    | 0x05 => ownersOk r
    | 0x06 => tenantOk r
    | 0x07 => true
    | _ => false)
/-- Tenant of a tenant record. -/
def tenantNo (r : TableRec) : Nat := slice (r.word 8) 3 0
/-- Columns of the firmware column. -/
def widthIn (rs : List TableRec) : Nat := ((recsOf rs 0x01).map fun r => slice (r.word 8) 2 0).headD 0
/-- The records together satisfy R357. -/
def recsOk (rs : List TableRec) : Bool :=
  rs.all recOk && ([0x01, 0x02, 0x03, 0x04, 0x05].all fun t => (recsOf rs t).length = 1) && (recsOf rs 0x07).length ≤ 1 && (recsOf rs 0x06).length ≤ 16 &&
    ((recsOf rs 0x06).map tenantNo).Nodup && ((recsOf rs 0x06).flatMap clustersIn).Nodup &&
    (recsOf rs 0x06).all fun r => (clustersIn r).all fun c => !(decide (c < 544 && c % 16 < widthIn rs))

/-- A table's bytes and records. -/
structure Table where
  bytes : List Byte
  recs : List TableRec
deriving DecidableEq, Repr

def Table.epoch (t : Table) : Nat := (wordIn t.bytes 8).toNat
/-- SIGNER and SIG: 64 bytes each. -/
def Table.signer (t : Table) : List Byte := (t.bytes.drop 0x10).take 64
def Table.sig (t : Table) : List Byte := (t.bytes.drop 0x50).take 64
/-- The digest with SIG zero. -/
def Table.digest (t : Table) : List Byte := sha256 (t.bytes.take 0x50 ++ List.replicate 64 0 ++ t.bytes.drop 0x90)
/-- Read a table out of an image: its header, its length, its records (R356, R357). -/
def readTable (image : List Byte) : Option Table :=
  let h := wordIn image 0
  let len := slice h 31 0
  if image.length < 160 || slice h 63 32 ≠ 0x4F434647 || len < 160 || 2 ^ 20 < len || image.length < len then none
  else if wordIn image 0x90 ≠ 0 || wordIn image 0x98 ≠ 0 then none
  else
    let bs := image.take len
    match tableRecs len (bs.drop 160) with
    | none => none
    | some rs => if recsOk rs then some { bytes := bs, recs := rs } else none

/-! ### Signers (R358) -/

/-- The signer's key is the one that the fuses ask for: the owner's, or, while the owner slot is unprogrammed, Oahel's root key or
the owner key that a table signed with it has authorised. -/
def Boot.trusts (b : Boot) (hash : List Byte) : Bool :=
  match b.owner with
  | some o => hash = o
  | none => hash = Config.rootHash || b.authorised = some hash
/-- The boot ROM's judgement on an image. -/
def Boot.verify (b : Boot) (image : List Byte) : Option Table :=
  match readTable image with
  | none => none
  | some t => if b.trusts (sha256 t.signer) && b.fusedEpoch ≤ t.epoch && ecdsaVerify t.signer t.digest t.sig then some t else none
/-- An accepted table raises the fused epoch; the owner slot is programmed by the first owner table, and Oahel's own table may
authorise one. -/
def Boot.accept (b : Boot) (t : Table) : Boot :=
  let hash := sha256 t.signer
  { b with
    fusedEpoch := max b.fusedEpoch t.epoch
    owner := if b.owner.isNone && b.authorised = some hash && hash ≠ Config.rootHash then some hash else b.owner
    authorised := if hash = Config.rootHash then (match recsOf t.recs 0x07 with | r :: _ => some ((r.bytes.drop 8).take 32) | [] => b.authorised) else b.authorised
    accepted := some t.bytes, staged := none, running := some t.bytes }

/-- The parameters of a table. -/
def Table.params (t : Table) : Params :=
  let w (type off : Nat) : W64 := ((recsOf t.recs type).map fun r => r.word off).headD 0
  { width := slice (w 0x01 8) 2 0
    roleMap := natOfBytes ((((recsOf t.recs 0x01).map (·.bytes)).headD []).drop 0x10)
    sprev := slice (w 0x03 8) 63 56
    losswin := slice (w 0x03 8) 47 32
    hotthr := slice (w 0x03 8) 23 16
    physid := slice (w 0x03 8) 9 0
    peertmo := slice (w 0x03 0x10) 63 32
    retthr := slice (w 0x03 0x10) 15 0
    powercap := slice (w 0x03 0x18) 12 0
    ethernet := (List.range 4).map fun k => (slice (w 0x04 (8 + 24 * k)) 47 0, (w 0x04 (16 + 24 * k)).toNat + (w 0x04 (24 + 24 * k)).toNat * 2 ^ 64)
    owners := ((List.range 16).filter fun k => bit (w 0x05 (8 + 8 * k)) 63).map fun k => (slice (w 0x05 (8 + 8 * k)) 9 6, slice (w 0x05 (8 + 8 * k)) 5 0)
    rules := ((List.range 32).filter fun k => bit (w 0x02 (8 + 16 * k)) 63).map fun k =>
      { dirOut := bit (w 0x02 (8 + 16 * k)) 62, cls := slice (w 0x02 (8 + 16 * k)) 61 58, lo := slice (w 0x02 (8 + 16 * k)) 47 0
        hi := slice (w 0x02 (16 + 16 * k)) 47 0 } }

/-! ### Routes (spec/01 R22, R23; spec/19 R389) -/

/-- The die-to-die link from a die to the east, or to the south, by the model's numbers: 0 to 19 east-west, 20 to 37 north-south. -/
def linkEast (die : Nat) : Nat := die / 6 * 5 + die % 6
def linkSouth (die : Nat) : Nat := 20 + die
/-- The link between two neighbouring dies. -/
def linkOf (a b : Nat) : Nat := if a / 6 = b / 6 then linkEast (min a b) else linkSouth (min a b)
/-- The two dies of a link. -/
def linkEnds (l : Nat) : List Nat := if l < 20 then [l / 5 * 6 + l % 5, l / 5 * 6 + l % 5 + 1] else [l - 20, l - 20 + 6]
/-- From `a` towards `b` along dx, and along dy. -/
def alongX (a b : Nat) : List Nat :=
  let n := Int.natAbs ((b % 6 : Int) - (a % 6 : Int))
  (List.range' 1 n).map fun i => if a % 6 ≤ b % 6 then a + i else a - i
def alongY (a b : Nat) : List Nat :=
  let n := Int.natAbs ((b / 6 : Int) - (a / 6 : Int))
  (List.range' 1 n).map fun i => if a / 6 ≤ b / 6 then a + 6 * i else a - 6 * i
/-- The route along dx and then dy, and along dy and then dx: the dies after the first. -/
def routeXY (a b : Nat) : List Nat := alongX a b ++ alongY (a / 6 * 6 + b % 6) b
def routeYX (a b : Nat) : List Nat := alongY a b ++ alongX (b / 6 * 6 + a % 6) b
/-- A route crosses no down link. -/
def routeUp (down : List Nat) : Nat → List Nat → Bool
  | _, [] => true
  | a, b :: rest => !down.contains (linkOf a b) && routeUp down b rest
/-- The neighbours of a die over links in service, ascending. -/
def neighbours (down : List Nat) (a : Nat) : List Nat :=
  ((if 6 ≤ a then [a - 6] else []) ++ (if a % 6 ≠ 0 then [a - 1] else []) ++ (if a % 6 ≠ 5 then [a + 1] else []) ++ if a < 18 then [a + 6] else []).filter
    fun b => !down.contains (linkOf a b)
/-- Distances to `b` over links in service, by rounds. -/
def spread (down : List Nat) : Nat → List (Nat × Nat) → List (Nat × Nat)
  | 0, ds => ds
  | n + 1, ds =>
    let d := ((ds.map (·.2)).foldl max 0) + 1
    let new := ((ds.filter fun p => p.2 + 1 = d).flatMap fun p => neighbours down p.1).filter fun x => !ds.any fun p => p.1 = x
    spread down n (ds ++ (new.eraseDups).map fun x => (x, d))
/-- The shortest route, with the lowest-numbered neighbour at each die. -/
def shortest (down : List Nat) (ds : List (Nat × Nat)) : Nat → Nat → Option (List Nat)
  | 0, _ => none
  | n + 1, a =>
    match (ds.find? fun p => p.1 = a).map (·.2) with
    | none => none
    | some 0 => some []
    | some (k + 1) =>
      match (neighbours down a).find? fun x => ds.any fun p => p.1 = x && p.2 = k with
      | none => none
      | some x => (shortest down ds n x).map (x :: ·)
/-- The route of a die to another. -/
def routeFor (down : List Nat) (a b : Nat) : Option (List Nat) :=
  if routeUp down a (routeXY a b) then some (routeXY a b)
  else if routeUp down a (routeYX a b) then some (routeYX a b)
  else shortest down (spread down 24 [(b, 0)]) 25 a
/-- The dies on which the five perimeter links of an I/O die lie, in the order of Table 1.2 (spec/01 R22); link `i` of I/O die `k` has number
5·k + i. -/
def perimeterDies (io : Nat) : List Nat := [[0, 1, 2, 0, 6], [3, 4, 5, 5, 11], [18, 19, 20, 12, 18], [21, 22, 23, 17, 23]].getD io []
/-- Links between two dies along dx and dy. -/
def dieSteps (a b : Nat) : Nat := Int.natAbs ((a % 6 : Int) - (b % 6 : Nat)) + Int.natAbs ((a / 6 : Int) - (b / 6 : Nat))
/-- The perimeter link of an I/O die in service that is nearest to a die, the lower-numbered of two: its number and its die (spec/01 R23; R389). -/
def nearestPerimeter (down : List Nat) (io die : Nat) : Option (Nat × Nat) :=
  ((perimeterDies io).zipIdx.filter fun x => !down.contains (5 * io + x.2)).foldl (fun best x =>
    match best with
    | none => some (5 * io + x.2, x.1)
    | some b => if dieSteps die x.1 < dieSteps die b.2 then some (5 * io + x.2, x.1) else some b) none
/-- The route of a die to an I/O die: the dies that it passes, and, last, 24 + the number of its perimeter link. -/
def routeToIo (down perimeter : List Nat) (die io : Nat) : List Nat :=
  match nearestPerimeter perimeter io die with
  | none => []
  | some (l, d) => ((routeFor down die d).getD []) ++ [24 + l]
/-- The route tables that differ from R23's, by 24·from + to, and for I/O dies by 576 + 4·die + I/O die; none where some pair of dies, an I/O die
with no perimeter link in service among them, has no route. -/
def routeTables (down perimeter : List Nat) : Option (Sparse (List Nat)) :=
  if down = [] && perimeter = [] then some []
  else if (List.range 4).any fun io => (nearestPerimeter perimeter io 0).isNone then none
  else
    let all := (List.range 576).map fun i => (i, routeFor down (i / 24) (i % 24))
    if all.any fun p => p.2.isNone then none
    else some (((all.filterMap fun p => p.2.map fun r => (p.1, r)).filter fun p => p.2 ≠ routeXY (p.1 / 24) (p.1 % 24) && p.2 ≠ []) ++
      ((List.range 96).map fun i => (576 + i, routeToIo down perimeter (i / 4) (i % 4))).filter fun p =>
        p.2 ≠ routeToIo [] [] ((p.1 - 576) / 4) ((p.1 - 576) % 4) && p.2 ≠ [])
/-- The route between two dies, as the source die's table gives it (R23, R389). -/
def State.routeOf (s : State) (a b : Nat) : List Nat :=
  match s.fw.routes.find? fun p => p.1 = 24 * a + b with | some p => p.2 | none => routeXY a b
/-- The route between a die and an I/O die. -/
def State.ioRouteOf (s : State) (die io : Nat) : List Nat :=
  match s.fw.routes.find? fun p => p.1 = 576 + 4 * die + io with | some p => p.2 | none => routeToIo [] [] die io

/-! ### Tenants (R351) -/

/-- The tenant that a record creates, with the clusters of dies that no failed link has removed (spec/19 R388). The module's own logical number
in its remap table is 0 (spec/15 R332 gives none; log 40). -/
def State.tenantFrom (s : State) (r : TableRec) (l1 : Nat) : Tenant :=
  let num := tenantNo r
  { num, clusters := (clustersIn r).filter fun c => !(s.die (c / 544)).removedLink
    quota := slice (r.word 8) 14 4, l1, supervisor := Config.supervisorEntry num
    windows := ((List.range 8).filter fun w => bit (r.word (0x48 + 16 * w)) 63).map fun w =>
      { base := wordOfNat (slice (r.word (0x48 + 16 * w)) 51 0), key := slice (r.word (0x50 + 16 * w)) 63 32, pages := slice (r.word (0x50 + 16 * w)) 31 0 }
    evPort := slice (r.word 8) 57 56, evQpn := slice (r.word 8) 55 32, evExp := slice (r.word 8) 28 24, evrAddr := r.word 0x28, evBase := r.word 0x30
    evwAddr := r.word 0x38, evrKey := slice (r.word 0x40) 31 0, evw := 0, held := [], evDropped := 0, launches := 0, lastIdle := none, deferred := false
    remap := [(0, remapFields (wordOfNat (2 ^ 63 + s.fw.params.physid)))] }
/-- Context 0 of a core starts at the supervisor entry (spec/02 R44; spec/19 R384): registers zero and full, everything else as after reset. -/
def State.startSupervisor (s : State) (pc : W64) (core : Nat) : State :=
  let (g, s) := s.newGen
  let s := { s with cpu := { s.cpu with
    regs := spFill 0 s.cpu.regs (1024 * core) 0 32
    regEmpty := spFill false s.cpu.regEmpty (1024 * core) false 32 } }
  s.setCtx (16 * core) { Ctx.rest (16 * core) with mode := .ready, park := .nothing, pc, gen := g }
/-- The cores of a tenant. -/
def Tenant.cores (t : Tenant) : List Nat := t.clusters.flatMap coresOfCluster
/-- A tenant is created: its first pages, queue 0, and context 0 of each of its cores. -/
def State.createTenant (s : State) (r : TableRec) : State :=
  let (l1, s) := (s.newTable 0x40000).getD (0, s)
  let t := s.tenantFrom r l1
  let s := { s with fw := { s.fw with tenants := s.fw.tenants ++ [t] } }
  let s := (s.mapRange t (r.word 0x10).toNat (slice (r.word 0x18) 31 0) false true (wordOfNat (slice (r.word 0x18) 55 32))).1
  let s := s.register t.num 0 (r.word 0x20)
  t.cores.foldl (fun s c => s.startSupervisor t.supervisor c) s

/-! ### Bring-up (R355, Table 16.4) -/

/-- Steps in flight that come from outside the module and outlast its reset. -/
def fromOutside : Instr → Bool
  | .rdmaWrite _ | .rdmaRead _ | .fabricRequestIn _ | .lossyBlockArrival .. | .lossyBlockNotice .. | .peerProbeAnswer _ | .powerMeasurement .. | .thermalEvent ..
  | .farControllerFailure _ | .localArrayUncorrectable _ | .moduleReset => true
  | _ => false
/-- The module after reset; boot storage, fuses and what has left the module stay; every link is down until it trains (spec/19 R388). -/
def State.resetModule (s : State) : State :=
  { State.reset with
    boot := { s.boot with step := 1, running := none, down := List.range 38, downPerimeter := List.range 20 }
    fab := { State.reset.fab with out := s.fab.out, stationDown := List.range 32, portDown := List.range 4 }
    sched := { s.sched with
      now := 0, slots := []
      agenda := (s.sched.agenda.filter fun p => fromOutside p.ev).map fun p => { p with due := p.due - s.sched.now } } }
/-- A link that stays down is reported to every tenant (spec/19 R386, R388). -/
def State.linkDown (s : State) (kind link : Nat) : State :=
  s.fw.tenants.foldl (fun s t => s.event t.num 0x06 0 0 [wordOfNat (kind + link * 2 ^ 8), 0]) s
/-- Steps 3 to 6: memory, stations, of which one attached at another switch port than PHYSID stays down (spec/15 R329), ports, and the firmware
column with its tenants. -/
def State.bringUp (s : State) (t : Table) : State :=
  let s : State := { s with
    boot := { s.boot with step := 7 }
    fab := { s.fab with
      stationDown := s.boot.failStation ++ (s.boot.otherPorts.filter fun x => x.2 ≠ s.fw.params.physid && !s.boot.failStation.contains x.1).map (·.1)
      portDown := s.boot.failPort } }
  let s : State := (recsOf t.recs 0x06).foldl State.createTenant s
  let s := (s.boot.down ++ s.boot.downPerimeter.map (38 + ·)).foldl (fun (s : State) l => s.linkDown 0 l) s
  let s := s.fab.stationDown.foldl (fun (s : State) l => s.linkDown 1 l) s
  let s := s.fab.portDown.foldl (fun (s : State) l => s.linkDown 2 l) s
  s.postIn (2 ^ 20) .tierEpoch
/-- Step 2: links train; the dies of a failed link leave every partition, and the routes go round it. -/
def State.trainLinks (s : State) (t : Table) : State :=
  let s := { s with boot := { s.boot with step := 2, down := s.boot.failD2d, downPerimeter := s.boot.failPerimeter } }
  let s := (s.boot.down.flatMap linkEnds).foldl (fun s d => s.updDie d fun x => { x with removedLink := true }) s
  match routeTables s.boot.down s.boot.downPerimeter with
  | none => s
  | some rs => ({ s with fw := { s.fw with routes := rs } }).bringUp t
/-- MODULE_RESET (R355, R388): a table that does not verify is replaced by the last accepted one; with none, the module stays in step 1
with every link down. -/
def execModuleReset (s : State) : Result :=
  let s := s.resetModule
  let tried := (s.boot.staged.toList ++ s.boot.accepted.toList).filterMap s.boot.verify
  .next (match tried with
    | [] => s
    | t :: _ =>
      let s := { s with boot := s.boot.accept t }
      ({ s with fw := { s.fw with params := t.params } }).trainLinks t)

/-! ### ATTEST and CFGSTAGE (R352, R359) -/

/-- The first `n` bytes of a value, filled up with zeros. -/
def bytesTo (n : Nat) (bs : List Byte) : List Byte := (bs ++ List.replicate n 0).take n
/-- A report without its signature (Table 16.15). -/
def State.report (s : State) (nonce : List Byte) : List Byte :=
  bytesTo 32 nonce ++ bytesTo 32 (sha256 (s.boot.running.getD [])) ++ bytesTo 32 Config.firmwareDigest ++ bytesOfNat s.fw.params.physid 8 ++
    List.replicate 24 0 ++ bytesTo 64 Config.identityKey
/-- The firmware column writes bytes for a tenant, word by word; a word whose store does not pass the firewall is not written. -/
def State.writeAllForFw (s : State) (tenant : Nat) (a : W64) (bs : List Byte) : State :=
  (wordParts a bs.length).foldl (fun s p =>
    let f (s : State) : State := s.writeForHost 0 tenant p.1 ((bs.drop p.2.1).take p.2.2)
    match s.dpFor tenant p.1 with | some dp => s.fwStore dp f | none => f s) s
/-- It reads words as bytes, up to the first that it cannot read or that is poisoned. -/
def State.fwBytes (s : State) (tenant : Nat) (a : W64) : Nat → List Byte × State
  | 0 => ([], s)
  | n + 1 =>
    match s.fwLook tenant a with
    | (s, none) => ([], s)
    | (s, some (v, t)) =>
      if t.toNat % 8 = 7 then ([], s)
      else
        let (rest, s) := s.fwBytes tenant (a + 8) n
        (bytesOfNat v.toNat 8 ++ rest, s)
/-- ATTEST. -/
def execAttest (s : State) : Result :=
  s.runCommand (· = 0x16) fun c s => s.takeMap c [(0x08, allBits), (0x10, allBits)] fun s =>
    if (wordAtOff c 0x10).toNat % 64 ≠ 0 then (s, some 4)
    else
      let a := wordAtOff c 0x08
      let (s, ws) := s.fwWords c.tenant (a &&& ~~~7#64) 5
      let body := s.report (((ws.flatMap fun w => bytesOfNat w.toNat 8).drop (a.toNat % 8)).take 32)
      let s := s.writeAllForFw c.tenant (wordAtOff c 0x10) (body ++ bytesTo 64 (Config.identitySign (sha256 body)))
      ((s.done c).event c.tenant 0x05 (mapCtr c) 0 [], none)
/-- CFGSTAGE: on an owner queue, an image that verifies is stored; it takes effect at the next module reset. -/
def execCfgstage (s : State) : Result :=
  s.runCommand (· = 0x17) fun c s => s.takeMap c [(0x08, allBits), (0x10, allBits)] fun s =>
    let n := (wordAtOff c 0x10).toNat
    if !s.fw.params.owners.contains (c.tenant, c.queue) || 2 ^ 20 < n then (s, some 7)
    else
      let (bs, s) := s.fwBytes c.tenant (wordAtOff c 0x08) (ceilDiv n 8)
      match s.boot.verify (bs.take n) with
      | none => (s, some 7)
      | some t => (({ s with boot := { s.boot with staged := some t.bytes } } : State).done c, none)

end Sys2Proof.Machine
end

