-- ==== Sys2Proof/Machine/Checksum.lean ====
section
/-!
DEFINITION. CRC-32C (spec/15 R344): the Castagnoli polynomial, reflected, as the data links of the family use it (log 7).
-/

namespace Sys2Proof.Machine

open Sys2Proof

/-- One bit of the division. -/
def crcBit (c : W32) : W32 := if c.getLsbD 0 then (c >>> 1) ^^^ 0x82F63B78#32 else c >>> 1
/-- One byte. -/
def crcByte (c : W32) (b : Byte) : W32 := crcBit (crcBit (crcBit (crcBit (crcBit (crcBit (crcBit (crcBit (c ^^^ b.zeroExtend 32))))))))
/-- CRC-32C of bytes. -/
def crc32c (bs : List Byte) : W32 := bs.foldl crcByte 0xFFFFFFFF#32 ^^^ 0xFFFFFFFF#32
/-- CRC-32C of words, each in its byte order. -/
def crcWords (ws : List W64) : W32 := crc32c (ws.flatMap fun w => bytesOfNat w.toNat 8)

end Sys2Proof.Machine
end

