-- ==== Sys2Proof/Machine/Matrix.lean ====
section
/-!
DEFINITION. The matrix engine and the accumulator tiles: MZERO, MMA, MMA.S, MDRAIN and their performance
(spec/06 R162-R166; spec/10 R253-R262).
-/

namespace Sys2Proof.Machine

open Sys2Proof

/-! ### Issue (R254, R258, R259, R261) -/

def isMx (code : Nat) : Bool := code = 8 || code = 9 || code = 10
/-- Elements of a format in a row of 32 bytes. -/
def perRow (code : Nat) : Nat := 256 / fmtBits code
/-- Bytes of the A operand (R255). -/
def spanA (code k : Nat) : Nat := ceilDiv k (perRow code) * 1024 + (if isMx code then ceilDiv k 32 * 32 else 0)
/-- Bytes of the B operand (R256). -/
def spanB (code k : Nat) : Nat :=
  if k = 0 then 0
  else k * (8 * fmtBits code) + (if isMx code then ceilDiv k 32 * 64 else if code = 11 then ceilDiv k 64 * 64 + 256 else 0)
/-- Step 8 for bytes of the WB. -/
def chkWb (off n : Nat) : Check := Check.need (n = 0 || off + n ≤ Config.wbBytes) 0x05 (wordOfNat off)
/-- Step 8 for AB bytes named by a pointer. -/
def chkPtrAb (p : W64) (n : Nat) : Check := Check.need (ptrBuf p = 0 && (n = 0 || ptrOffset p + n ≤ Config.abBytes)) 0x05 (wordOfNat (ptrOffset p))
def chkOff (off w : Nat) : Check := Check.need (off % w = 0) 0x04 (wordOfNat off)

/-- The tile that T names. -/
def MatFmt.tileNo (f : MatFmt) : Nat := if f.t then 1 else 0

/-- MZERO (R254). -/
def execMzero (f : MatFmt) (s : State) : Result :=
  s.perform [s.chkPred f.pred f.neg] fun s =>
    let (id, s) := s.newOp (.mzero (MatFmt.tileNo f) (sext f.expi.toNat 10)) 0 0 .unbound [] none
    (s.handOver id).next

/-- The issue of an MMA: the context parks until the engine has performed it. Of two offsets that fail one check the record names A0's, then
B0's, then the bitmap's (log 40). -/
def State.mmaIssue (s : State) (f : MatFmt) (skip : List (BitVec 7)) : Result :=
  let a := s.opB f.ra f.lit
  let b0 := (s.reg f.rb).toNat
  let p := s.cur.ptr f.pa
  let k := slice a 15 0
  let srcs := nums (regB f.ra f.lit ++ f.rb :: skip)
  let bitmaps := skip.map fun r => (s.reg r).toNat
  s.perform ([s.chkAllot srcs, s.chkPred f.pred f.neg, s.chkFull srcs, chkOff (ptrOffset p) 32, chkOff b0 64,
      chkPtrAb p (spanA f.fmta.toNat k), chkWb b0 (spanB f.fmtb.toNat k)] ++ bitmaps.map (fun o => chkWb o (ceilDiv k 8)) ++
      [s.chkValue (slice a 63 16 = 0), s.chkLines (linesOf (ptrOffset p) (spanA f.fmta.toNat k))]) fun s =>
    let next := s.cur.pc + wordOfNat s.sched.slot.len
    let (id, s) := s.newOp (.mma (MatFmt.tileNo f) (ptrOffset p) f.fmta.toNat f.fmtb.toNat k b0 bitmaps.head? next) 0 0 .unbound [] none
    (s.parkOn (.matrix id)).handOver id

/-- MMA (R258). -/
def execMma (f : MatFmt) (s : State) : Result := s.mmaIssue f []

/-- MMA.S (R259). -/
def execMmaS (f : MatFmt) (s : State) : Result := s.mmaIssue f [f.rd]

/-- MDRAIN (R261): D0 is checked before the counter's address (log 40). -/
def execMdrain (f : MatFmt) (s : State) : Result :=
  let a := s.opB f.ra f.lit
  let p := s.cur.ptr f.pa
  let n := 256 * fmtBits f.fmta.toNat
  let srcs := nums (regB f.ra f.lit)
  s.perform [s.chkAllot srcs, s.chkPred f.pred f.neg, s.chkFull srcs, chkOff (ptrOffset p) 128, chkAddr a 8, chkPtrAb p n, s.chkPeer a] fun s =>
    (s.issueOp (.drain (MatFmt.tileNo f) (ptrOffset p) f.fmta.toNat) f.scope a (linesOf (ptrOffset p) n)).next

/-! ### Operands (R255, R256; spec/06 R163) -/

/-- The value of an E8M0 scale (R149). -/
def scaleVal (x : Nat) : Val := if x = 255 then .nan false else .fin false 1 1 ((x : Int) - 127)
/-- The value of a QB4 code before its scales. -/
def qb4Val (c : Nat) : Val := .fin (8 ≤ c) (qb4Mag.getD (c % 8) 0) 1 0
/-- The value of an element of an operand. -/
def operandVal (code c : Nat) : Val := if code = 11 then qb4Val c else if code < 2 then elemDecode code c else fpDecode (fpOf code) c

/-- Row `i` of the A operand: its K values. -/
def State.rowOfA (s : State) (core a0 code k i : Nat) : List Val :=
  let g := perRow code
  (((List.range (ceilDiv k g)).flatMap fun p =>
    rowElems (fmtBits code) g (natOfBytes (s.abBytes core (a0 + p * 1024 + i * 32) 32))).take k).map (operandVal code)
/-- The B operand: for each k, its 64 values. -/
def State.rowsOfB (s : State) (cl b0 code k : Nat) : List (List Val) :=
  let r := 8 * fmtBits code
  (List.range k).map fun j => (rowElems (fmtBits code) 64 (natOfBytes (s.wbBytes cl (b0 + j * r) r))).map (operandVal code)
/-- The block scale of row `i` of A. -/
def State.scaleA (s : State) (core a0 code k blk i : Nat) : Val :=
  if isMx code then scaleVal (s.abByte core (a0 + ceilDiv k (perRow code) * 1024 + blk * 32 + i)).toNat else .fin false 1 1 0
def State.wbByte (s : State) (cl off : Nat) : Nat := natOfBytes (s.wbBytes cl off 1)
/-- The block scale, or q, of column `n` of B. -/
def State.scaleB (s : State) (cl b0 code k blk n : Nat) : Val :=
  let off := b0 + k * (8 * fmtBits code) + blk * 64 + n
  if isMx code then scaleVal (s.wbByte cl off) else if code = 11 then .fin false (s.wbByte cl off) 1 0 else .fin false 1 1 0

/-- A chunk sum (R163), and whether a NaN operand was read: one raises NANIN alone, whatever the other operands of the chunk would raise
(log 40). -/
def chunkSum (sa sb : Val) (ab : List (Val × Val)) : Val × Bool :=
  if sa.isNan || sb.isNan || ab.any (fun p => p.1.isNan || p.2.isNan) then (.nan false, true)
  else
    let v := ab.foldl (fun acc p => (valAdd acc (valMul p.1 p.2).1).1) (.zero false)
    ((valMul (valMul v sa).1 sb).1, false)

/-- What an MMA asks for. -/
structure MmaArgs where
  core : Nat
  a0 : Nat
  fa : Nat
  fb : Nat
  k : Nat
  b0 : Nat
  skip : Option Nat

/-- The engine performs k-octet `o` (R259). -/
def State.performsOctet (s : State) (m : MmaArgs) (o : Nat) : Bool :=
  match m.skip with
  | none => true
  | some off => s.wbByte (clusterOf m.core) (off + o) ≠ 255

/-- The chunk sums of a chunk that starts at `k0`, in the order 64·i + n; none where every k is skipped. -/
def State.chunk (s : State) (m : MmaArgs) (rows : List (List Val)) (cols : List (List Val)) (k0 len : Nat) : List (Val × Bool) :=
  let keep := (List.range' k0 (min len (m.k - k0))).map fun k => s.performsOctet m (k / 8)
  let pick (xs : List Val) : List Val := (((xs.drop k0).take len).zip keep).filterMap fun p => if p.2 then some p.1 else none
  if keep.any id then
    let cl := clusterOf m.core
    let bs := (cols.map pick).zipIdx.map fun c => (c.1, s.scaleB cl m.b0 m.fb m.k (k0 / len) c.2)
    rows.zipIdx.flatMap fun r =>
      let sa := s.scaleA m.core m.a0 m.fa m.k (k0 / 32) r.2
      let xs := pick r.1
      bs.map fun b => chunkSum sa b.2 (xs.zip b.1)
  else []

/-! ### Accumulation (spec/06 R164) -/

/-- v in units of 2^E, to nearest even, and whether a fraction was lost. -/
def alignTo (e : Int) : Val → Int × Bool
  | .fin n a d x => roundInt n a d (x - e)
  | _ => (0, false)
/-- An element over the limit of R164. -/
def Elem.over (x : Elem) (t : Int) : Bool := x.spec = 0 && 2 ^ 46 < x.m.natAbs + t.natAbs
/-- An element after renormalisation by `t1`, and whether a fraction was lost. -/
def Elem.shift (x : Elem) (t1 : Int) : Elem × Bool :=
  if x.spec = 0 then let r := roundInt (x.m < 0) x.m.natAbs 1 (-t1); ({ x with m := r.1 }, r.2) else (x, false)
/-- At E = 511 an element over the limit becomes infinite; a sum of 0 counts as positive (log 39). -/
def Elem.overflow (x : Elem) (t : Int) : Elem := if x.over t then { x with spec := if x.m + t < 0 then 2 else 1 } else x
/-- v added to an element, and whether infinities of both signs met. -/
def Elem.add (x : Elem) (v : Val) (t : Int) : Elem × Bool :=
  match v with
  | .fin .. => (if x.spec = 0 then { x with m := x.m + t } else x, false)
  | .nan _ => ({ x with spec := 3 }, false)
  | .inf n =>
    let sp : BitVec 2 := if n then 2 else 1
    if x.spec = 0 then ({ x with spec := sp }, false) else if x.spec = 3 || x.spec = sp then (x, false) else ({ x with spec := 3 }, true)

/-- Bits of the status word (Table 6.8). -/
def tileNV : BitVec 11 := 1
def tileNANIN : BitVec 11 := 2
def tileINF : BitVec 11 := 4
def tileOVF : BitVec 11 := 8
def tileRENORM : BitVec 11 := 16
def tileINX : BitVec 11 := 32
def tileDRSAT : BitVec 11 := 64
def tileDRUF : BitVec 11 := 128
def tileDRINX : BitVec 11 := 256
def tileQBMIX : BitVec 11 := 512
def tileDRNV : BitVec 11 := 1024
def tileIf (b : Bool) (f : BitVec 11) : BitVec 11 := if b then f else 0

/-- An accumulation in progress: exponent, elements, status bits, renormalisations. -/
structure Accum where
  e : Int
  xs : List Elem
  bits : BitVec 11
  renorms : Nat

/-- One chunk, with fuel for the renormalisations: from −512, a rise of 8 reaches 511 in 128 steps. -/
def Accum.apply (vs : List Val) : Nat → Accum → Accum
  | 0, t => t
  | n + 1, t =>
    let ts := vs.map (alignTo t.e)
    if (t.xs.zip ts).any (fun p => p.1.over p.2.1) && t.e ≠ 511 then
      let t1 := satInt (511 - t.e) 1 8
      let ys := t.xs.map fun x => x.shift t1
      Accum.apply vs n { e := t.e + t1, xs := ys.map (·.1), renorms := min (t.renorms + 1) 0xFFFF
                         bits := t.bits ||| tileRENORM ||| tileIf (ys.any (·.2)) tileINX }
    else
      let ovf := (t.xs.zip ts).any fun p => p.1.over p.2.1
      let xs := (t.xs.zip ts).map fun p => p.1.overflow p.2.1
      let ys := (xs.zip (vs.zip ts)).map fun p => p.1.add p.2.1 p.2.2.1
      { t with xs := ys.map (·.1), bits := t.bits ||| tileIf ovf tileOVF ||| tileIf (ts.any (·.2)) tileINX ||| tileIf (ys.any (·.2)) tileNV }

/-- One chunk of an MMA (R258). -/
def Accum.chunk (t : Accum) (vs : List (Val × Bool)) : Accum :=
  if vs = [] then t
  else Accum.apply (vs.map (·.1)) 130 { t with
    bits := t.bits ||| tileIf (vs.any (·.2)) tileNANIN ||| tileIf (vs.any fun v => v.1.isNan && !v.2) tileNV }

/-- The tile after its QB4 record has been kept (R258). -/
def State.recordB (s : State) (m : MmaArgs) (t : Tile) : Tile :=
  let gb := m.b0 + m.k * 32 + ceilDiv m.k 64 * 64
  let t := if m.fb = 11 && !t.qb4set then
      { t with qb4set := true, scales := (List.range 64).map fun n => BitVec.ofNat 32 (natOfBytes (s.wbBytes (clusterOf m.core) (gb + 4 * n) 4)) }
    else t
  let t := if m.fb ≠ 11 then { t with plainset := true } else t
  if t.qb4set && t.plainset then { t with bits := t.bits ||| tileQBMIX } else t

/-- The effect of an MMA on a tile. K = 0 changes nothing. -/
def State.mmaTile (s : State) (m : MmaArgs) (t : Tile) : Tile :=
  if m.k = 0 then t
  else
    let t := s.recordB m t
    let len := if m.fb = 11 then 64 else 32
    let rows := (List.range 32).map fun i => s.rowOfA m.core m.a0 m.fa m.k i
    let bs := s.rowsOfB (clusterOf m.core) m.b0 m.fb m.k
    let cols := (List.range 64).map fun n => bs.map fun r => r.getD n (.zero false)
    let acc : Accum := { e := t.exp, xs := spGetList { spec := 0, m := 0 } t.elems 0 2048, bits := t.bits, renorms := t.renorms }
    let acc := (List.range (ceilDiv m.k len)).foldl (fun a c => a.chunk (s.chunk m rows cols (c * len) len)) acc
    { t with elems := spOfList { spec := 0, m := 0 } 0 acc.xs, exp := acc.e, renorms := acc.renorms
             bits := acc.bits ||| tileIf (acc.xs.any fun x => x.spec = 1 || x.spec = 2) tileINF }

/-! ### Performance (R253) -/

/-- MATRIX_MZERO_PERFORM (R254; spec/06 R162). -/
def execMatrixMzeroPerform (op : Nat) (s : State) : Result :=
  .next (s.takeOp op fun o s =>
    match o.work with
    | .mzero t e => (s.setTile o.core t { Tile.init with exp := e }).endOp o
    | _ => s)

/-- MATRIX_MMA_PERFORM (R258, R259, R164): the context goes on. -/
def execMatrixMmaPerform (op : Nat) (s : State) : Result :=
  .next (s.takeOp op fun o s =>
    match o.work with
    | .mma t a0 fa fb k b0 skip next =>
      let s := s.setTile o.core t (s.mmaTile { core := o.core, a0, fa, fb, k, b0, skip } (s.tile o.core t))
      let s := s.endOp o
      if (s.ctx o.gid).gen = o.gen then s.rejoin o.gid (fun p => p = .matrix op) next else s
    | _ => s)

/-- The exact value of element `x` of column `n` (spec/06 R165). -/
def Tile.value (t : Tile) (n : Nat) (x : Elem) : Val :=
  let v := if x.spec = 0 then Val.fin (x.m < 0) x.m.natAbs 1 t.exp else if x.spec = 3 then .nan false else .inf (x.spec = 2)
  if t.qb4set then
    match (valMul v (fpDecode fp32 (t.scales.getD n 0).toNat)).1 with
    | .fin neg a d e => .fin neg a (d * (127 * 255)) e
    | w => w
  else v
/-- Its conversion to the drain's format: the code and the drain bits. -/
def drainElem (code : Nat) (v : Val) : Nat × BitVec 11 :=
  let (b, fl) := if code = 1 then (let (i, fl) := toIntRange (-2147483648) 2147483647 v; ((i % 4294967296).toNat, fl)) else roundTo (fpOf code) v
  let has (f : Flags) : Bool := fl &&& f ≠ 0
  (b, tileIf (has flagNX) tileDRINX ||| tileIf (has flagUF) tileDRUF ||| tileIf (has flagOF || (has flagNV && !v.isNan)) tileDRSAT |||
      tileIf (has flagNV) tileDRNV)
/-- The sticky flags that a tile's status gives (R165). -/
def tileFlags (b : BitVec 11) : Flags :=
  flagIf (b &&& (tileNV ||| tileDRNV) ≠ 0) flagNV ||| flagIf (b &&& (tileOVF ||| tileDRSAT) ≠ 0) flagOF ||| flagIf (b &&& tileDRUF ≠ 0) flagUF |||
    flagIf (b &&& (tileINX ||| tileDRINX) ≠ 0) flagNX

/-- MATRIX_DRAIN_PERFORM (R261): the rows, the drain bits, the flags owed to the context, then the timeline counter. -/
def execMatrixDrainPerform (op : Nat) (s : State) : Result :=
  .next (s.takeOp op fun o s =>
    match o.work with
    | .drain t d0 code =>
      let x := s.tile o.core t
      let rs := ((spGetList { spec := 0, m := 0 } x.elems 0 2048).zipIdx).map fun p => drainElem code (x.value (p.2 % 64) p.1)
      let bits := x.bits ||| rs.foldl (fun b r => b ||| r.2) 0
      let s := (s.bothCores o.core).foldl (fun s c => s.setTile c t { s.tile c t with bits }) s
      let s := s.post (.deposit { gid := o.gid, gen := o.gen, rid := 0, use := .drainFlags o.id, data := wordOfNat (tileFlags bits).toNat, ok := true, next := 0 })
      s.deliverAb o [(d0, rs.flatMap fun r => bytesOfNat r.1 (fmtBits code / 8))]
    | _ => s)

end Sys2Proof.Machine
end

