-- ==== Sys2Proof/Machine/Tier.lean ====
section
/-!
DEFINITION. The tiers: promotion and demotion of pages, block moves, epochs, retirement of frames, failed far-tier
controllers, refresh (spec/03 R98-R101; spec/11 R278; spec/21 R406-R408, R412, R413, R416).
-/

namespace Sys2Proof.Machine

open Sys2Proof

/-! ### Moves (R100, R101; log 13) -/

/-- The DPIT entry with MOVE set: OTHER names the frame that the page is moving to. -/
def movingEntry (e : W64) (frame : Nat) : W64 := mkDpit true (dpitFar e) false (dpitPin e) true frame (dpitFrame e)
/-- Begin to move a page to a frame of the other tier: its 256 blocks move one by one. -/
def State.startMove (s : State) (page frame : Nat) : State :=
  ((s.setDpit page (movingEntry (s.dpit page) frame)).setMoved page []).postAll ((List.range 256).map fun b => .tierBlockMove page b)
/-- The clean copy that a page gets is sound. -/
def State.soundCopy (s : State) (page : Nat) : State :=
  { s with mem := { s.mem with copyUpsets := s.mem.copyUpsets.filter fun (p : Nat × Nat) => pageOf p.1 ≠ page || s.structureWord p.1 } }
/-- Every block has moved: a promotion keeps the far frame as a clean copy unless a moved block has changed since. -/
def State.endMove (s : State) (page : Nat) : State :=
  let e := s.dpit page
  let clean := dpitFar e && !(s.movedBlocks page).contains 256
  let s := if clean then s.soundCopy page else s
  (s.setDpit page (mkDpit true (!dpitFar e) clean (dpitPin e) false (if clean then dpitFrame e else 0) (dpitOther e))).setMoved page []
/-- A move is given up: every block is back in the old frame (spec/21 R413). -/
def State.abandonMove (s : State) (page : Nat) : State :=
  let e := s.dpit page
  if dpitMove e then (s.setDpit page (mkDpit true (dpitFar e) false (dpitPin e) false 0 (dpitFrame e))).setMoved page [] else s

/-- The slice decodes every word of a block as it copies it. -/
def State.decodeRange (s : State) (dp n : Nat) : State :=
  (s.mem.upsets.filter fun p => dp ≤ p.1 && p.1 < dp + n).foldl (fun s p => s.decodeWord p.1) s

/-- TIER_BLOCK_MOVE (R101): one block is copied and switched to its new frame. -/
def execTierBlockMove (page block : Nat) (s : State) : Result :=
  .next (
    if dpitMove (s.dpit page) && block < 256 && !(s.movedBlocks page).contains block then
      let s := s.decodeRange (page * 65536 + block * 256) 256
      let s := s.setMoved page (block :: s.movedBlocks page)
      if ((s.movedBlocks page).filter (· < 256)).length = 256 then s.endMove page else s
    else s)

/-! ### Promotion (R99) -/

/-- The pages of a die with their entries, in ascending order. -/
def State.pagesOf (s : State) (die : Nat) : List (Nat × W64) := s.dpitEntries.filter fun p => dieOfPage p.1 = die && dpitValid p.2
/-- The unpinned near page with the lowest access count, lowest page number among equals. -/
def State.coldest (s : State) (die : Nat) : Option Nat :=
  ((s.pagesOf die).filter fun p => !dpitFar p.2 && !dpitPin p.2 && !dpitMove p.2).foldl (fun best p =>
    match best with
    | none => some p.1
    | some b => if spGet 0 s.mem.counts p.1 < spGet 0 s.mem.counts b then some p.1 else some b) none

/-- One more step towards making a page near; `true` when nothing is left to do for it: it is near, or pinned, or no frame can
be had (R278). -/
def State.promote (s : State) (page : Nat) : State × Bool :=
  let e := s.dpit page
  let die := dieOfPage page
  if !dpitValid e || !dpitFar e || dpitPin e then (s, true)
  else if dpitMove e then (s, false)
  else match s.freeNear die with
    | some n => (s.startMove page n, false)
    | none =>
      if (s.pagesOf die).any (fun p => dpitMove p.2 && !dpitFar p.2) then (s, false)
      else match s.coldest die with
        | none => (s, true)
        | some q =>
          let c := s.dpit q
          if dpitClean c then
            let s := (s.setDpit q (mkDpit true true false false false 0 (dpitOther c))).takeCopyUpsets q
            (match s.freeNear die with | some n => (s.startMove page n, false) | none => (s, true))
          else match s.freeFar die with
            | none => (s, true)
            | some f => (s.startMove q f, false)

/-- TIER_PROMOTION (R99): a far page that has reached HOTTHR; where a page must be demoted first, the promotion goes on when it
has left. -/
def execTierPromotion (page : Nat) (s : State) : Result :=
  .next (match s.promote page with
    | (s, true) => s
    | (s, false) => if dpitMove (s.dpit page) then s else s.postIn 1 (.tierPromotion page))

/-- TIER_EPOCH (R99): every access count is halved, and again 2^20 cycles later. -/
def execTierEpoch (s : State) : Result :=
  .next ({ s with mem := { s.mem with counts := (s.mem.counts.map fun (p : Nat × Nat) => (p.1, p.2 / 2)).filter fun p => p.2 ≠ 0 } }.postIn (2 ^ 20) .tierEpoch)

/-- STACK_REFRESH (R416): refresh costs latency and changes nothing. -/
def execStackRefresh (_die : Nat) (s : State) : Result := .next s

/-! ### Retirement (spec/21 R412) -/

/-- The page goes to a free near frame, or, where the die has none, to its clean copy or a free far frame. Its words are read
as it moves, and the frame that it leaves is never allocated again until module reset. -/
def State.evacuate (s : State) (page : Nat) : State :=
  let e := s.dpit page
  let s := s.decodeRange (page * 65536) 65536
  let e' := s.dpit page
  if dpitFrame e' ≠ dpitFrame e || dpitFar e' ≠ dpitFar e then s
  else
    let s := s.retireFrame (dieOfPage page) (dpitFar e) (dpitFrame e)
    match s.freeNear (dieOfPage page) with
    | some n => s.setDpit page (mkDpit true false (dpitClean e && !dpitFar e) (dpitPin e) false (if dpitFar e then 0 else dpitOther e) n)
    | none =>
      if dpitClean e then (s.setDpit page (mkDpit true (!dpitFar e) false (dpitPin e) false 0 (dpitOther e))).takeCopyUpsets page
      else match s.freeFar (dieOfPage page) with
        | some f => s.setDpit page (mkDpit true true false (dpitPin e) false 0 f)
        | none => s

/-- The page that holds a frame of a die: a near one of the die, or a far one of its half of the module. -/
def State.holderOf (s : State) (die : Nat) (far : Bool) (frame : Nat) : Option Nat :=
  let p := dpPage die frame
  if heldPage p && (framesOf (s.dpit p)).contains (far, frame) then some p
  else (s.dpitEntries.find? fun p =>
    (if far then dieOfPage p.1 / 12 = die / 12 else dieOfPage p.1 = die) && (framesOf p.2).contains (far, frame)).map (·.1)
/-- A page gives its clean copy up. -/
def State.dropClean (s : State) (page : Nat) : State :=
  let e := s.dpit page
  s.setDpit page (mkDpit true (dpitFar e) false (dpitPin e) false 0 (dpitFrame e))
/-- A page's frame is retired: the page leaves it, or gives it up as a clean copy; `none` while the page is in motion. -/
def State.retireFrom (s : State) (die : Nat) (far : Bool) (frame page : Nat) : Option State :=
  let e := s.dpit page
  if dpitMove e then none
  else if dpitFar e = far && dpitFrame e = frame then some (s.evacuate page)
  else some ((s.dropClean page).retireFrame die far frame)
/-- A frame is retired, whether or not a page holds it. -/
def State.retireReported (s : State) (die : Nat) (far : Bool) (frame : Nat) : Option State :=
  (s.holderOf die far frame).elim (some (s.retireFrame die far frame)) (s.retireFrom die far frame)

/-- Both copies of a word of a die's structures are lost: a class 3 record for every partition on the die (R412). -/
def State.loseStructures (s : State) (die : Nat) : State :=
  (s.fw.tenants.filter fun t => t.clusters.any fun c => c / 544 = die).foldl (fun s t =>
    let (r, s) := s.openRecord t.num 0x12
    s.fatalRecord die r) s
/-- FRAME_RETIREMENT (R412): lost structures are charged, and the first frame reported is retired; a page in motion is moved first. -/
def execFrameRetirement (s : State) : Result :=
  let s := s.mem.lostDies.foldl State.loseStructures { s with mem := { s.mem with lostDies := [] } }
  .next (match s.mem.failing with
    | [] => s
    | f :: rest =>
      ({ s with mem := { s.mem with failing := rest } }.retireReported (dieOfPage f.1) f.2.1 f.2.2).getD (s.postIn 1 .frameRetirement))

/-! ### A far-tier controller that stops answering (spec/21 R413) -/

/-- Every word of a page is poisoned. -/
def State.poisonPage (s : State) (page : Nat) : State :=
  (List.range 8192).foldl (fun s i => (s.putWord (page * 65536 + 8 * i) 0 (mkTag 7 true)).clearUpset (page * 65536 + 8 * i)) s
/-- The promotion of a page is abandoned: a tier prefetch counts the page as having no frame obtainable (R413). -/
def State.giveUpPage (s : State) (page : Nat) : State :=
  { s with eng := { s.eng with ops := s.eng.ops.map fun o => match o.work with
      | .prefTier .. => { o with got := some (page :: o.got.getD []) }
      | _ => o } }
/-- A promotion of the page is under way. -/
def promoting (e : W64) : Bool := dpitFar e && dpitMove e
/-- A lost page is remapped to a fresh frame, filled with poison: a near one, or a far one on a controller in service; where its promotion has
been abandoned, the far one first (R413). -/
def State.remapLost (s : State) (page : Nat) (farFirst : Bool) : State :=
  let e := s.dpit page
  let s := s.poisonPage page
  let near (n : Nat) : State := s.setDpit page (mkDpit true false false (dpitPin e) false 0 n)
  let far (f : Nat) : State := s.setDpit page (mkDpit true true false (dpitPin e) false 0 f)
  match s.freeNear (dieOfPage page), s.freeFar (dieOfPage page) with
  | some n, some f => if farFirst then far f else near n
  | some n, none => near n
  | none, some f => far f
  | none, none => s
/-- What becomes of one page when controller `c` fails. A move from it or to it is abandoned; a page with a clean copy recovers as spec/21 R408
says, and a clean copy that is lost is given up. -/
def State.loseController (s : State) (c page : Nat) : State :=
  let half := dieOfPage page / 12
  let onC (far : Bool) (f : Nat) : Bool := far && farController half f = c
  let e := s.dpit page
  if !(framesOf e).any fun f => onC f.1 f.2 then s
  else
    let s := (if promoting e then s.giveUpPage page else s).abandonMove page
    let e' := s.dpit page
    if onC (dpitFar e') (dpitFrame e') then
      if dpitClean e' then s.switchToClean (page * 65536) else s.remapLost page (promoting e)
    else if dpitClean e' then (s.dropClean page).retireFrame (dieOfPage page) true (dpitOther e')
    else s

/-- FAR_CONTROLLER_FAILURE (R413). -/
def execFarControllerFailure (ctrl : Nat) (s : State) : Result :=
  let s := { s with mem := { s.mem with farDown := ctrl :: s.mem.farDown } }
  .next ((s.dpitEntries.filter fun p => dpitValid p.2).foldl (fun s p => s.loseController ctrl p.1) s)

/-! ### PREF.TIER's operation (spec/11 R278) -/

/-- The pages an operation names, as DP pages; none where one of them has no mapping, with its address. -/
def State.prefPages (s : State) (die tenant : Nat) (va : W64) : Nat → State × Except W64 (List Nat)
  | 0 => (s, .ok [])
  | n + 1 =>
    match s.xlat die tenant va false with
    | (s, .error _) => (s, .error va)
    | (s, .ok dp) =>
      match s.prefPages die tenant (va + 0x10000) n with
      | (s, .error a) => (s, .error a)
      | (s, .ok ps) => (s, .ok (pageOf dp :: ps))

/-- Promote pages; how many have more to do. -/
def State.promoteAll (s : State) (ps : List Nat) : State × Nat :=
  ps.foldl (fun acc p => let (s, done) := acc.1.promote p; (s, if done then acc.2 else acc.2 + 1)) (s, 0)

/-- PREF_TIER_OPERATION (R278): it completes when every page named is near or cannot be made near, which a page counts as
once its promotion has been abandoned (spec/21 R413). -/
def execPrefTierOperation (op : Nat) (s : State) : Result :=
  .next (s.takeOp op fun o s =>
    match o.work with
    | .prefTier va n =>
      let a := va &&& ~~~(0xFFFF#64)
      match (if n = 0 then .here else s.served o.tenant va) with
      | .dead => s.failOp o 0x52 va
      | .peer p => (match o.state with
          | .remote _ => s
          | _ => (s.emit (.prefTier (s.stationFor a) p op a n)).awaitPeer op p 1 va)
      | .here =>
        match s.prefPages (dieOf o.core) o.tenant a n with
        | (s, .error b) => s.failOp o 0x21 b
        | (s, .ok ps) =>
          match s.promoteAll (ps.filter fun p => !(o.got.getD []).contains p) with
          | (s, 0) => s.finishOp o
          | (s, _) => s.postIn 1 (.prefTierOperation op)
    | _ => s)

end Sys2Proof.Machine
end

