-- ==== Sys2Proof/Machine/Copy.lean ====
section
/-!
DEFINITION. COPY in its forms, triggered copies, PREF.TIER, the copy unit's operation, lossy transfers at the receiving
station (spec/11 R264-R278; spec/15 R344, R345; spec/21 R414).
-/

namespace Sys2Proof.Machine

open Sys2Proof

/-! ### Operands (R270, R271, Table 11.1) -/

/-- What COPY reads from its registers and pointer. -/
structure CopyArgs where
  form : CopyForm
  /-- The local end is the destination, the source, or there is none. -/
  toLocal : Bool
  fromLocal : Bool
  dst : W64
  src : W64
  len : W64
  x : W64
  ctr : W64
  buf : Nat
  off : Nat

/-- Bytes of a unit, units, source and destination strides between units of a local end. -/
def CopyArgs.unit (a : CopyArgs) : Nat := match a.form with | .linear | .strided => slice a.len 31 0 | _ => 8 * 2 ^ slice a.len 34 32
def CopyArgs.units (a : CopyArgs) : Nat :=
  match a.form with | .linear => 1 | .strided => slice a.len 63 32 | _ => slice a.len 31 0
def CopyArgs.srcStride (a : CopyArgs) : Int := match a.form with | .strided => sext (slice a.x 31 0) 32 | _ => 0
def CopyArgs.dstStride (a : CopyArgs) : Int := match a.form with | .strided => sext (slice a.x 63 32) 32 | _ => 0
/-- The step of the local end. -/
def CopyArgs.step (a : CopyArgs) : Int :=
  match a.form with | .linear => 0 | .strided => if a.fromLocal then a.srcStride else a.dstStride | _ => a.unit
/-- The operation moves no word. -/
def CopyArgs.empty (a : CopyArgs) : Bool := a.unit = 0 || a.units = 0

/-- The enabled window of a tenant that holds a virtual address (spec/03 R103). -/
def State.window (s : State) (tenant va : Nat) : Option FWin :=
  ((List.range 16).map fun i => spGet ({ fwa := 0, fwb := 0, fws := 0 } : FWin) s.mem.fwins (16 * tenant + i)).find? fun w =>
    bit w.fwa 0 && slice w.fwa 51 16 ≤ va / 65536 && va / 65536 ≤ slice w.fwb 51 16
/-- The scales that a copy into the WB carries along (R274), or what is wrong with its range: an address, or a value. -/
structure ScalePlan where
  scales : List (W64 × Nat × Nat)
  extra : Nat
  aligned : Bool
  good : Bool

/-- A copy that carries no scales. -/
def ScalePlan.none : ScalePlan := { scales := [], extra := 0, aligned := true, good := true }
/-- The plan of a copy from a window of format `f`: MX formats (codes 8 to 10) and QB4 (11) carry scales. -/
def scalePlan (w : FWin) (a : CopyArgs) : ScalePlan :=
  let f := slice w.fwa 63 60
  if f < 8 || 11 < f then ScalePlan.none
  else
    let rho := 8 * fmtBits f
    let start := slice w.fwa 51 16 * 65536
    let d := vaOf a.src - start
    let l := a.unit
    let blk := if f = 11 then 64 else 32
    let k0 := d / rho
    let k := l / rho
    let ok := d % rho = 0 && l % rho = 0 && k0 % blk = 0 && k % blk = 0
    let hi := a.src - wordOfNat (vaOf a.src)
    let base := slice w.fws 51 3 * 8
    let blocks := ceilDiv k blk * 64
    let region (o : Nat) : W64 := hi + wordOfNat (base + o)
    if f = 11 then
      let kw := (slice w.fwb 51 16 + 1 - slice w.fwa 51 16) * 65536 / rho
      let oneGroup := k = 0 || k0 / 16384 = (k0 + k - 1) / 16384
      { scales := if k = 0 then [] else [(region (k0 / 64 * 64), a.off + l, blocks), (region (ceilDiv kw 64 * 64 + 256 * (k0 / 16384)), a.off + l + blocks, 256)]
        extra := if k = 0 then 0 else blocks + 256, aligned := a.off % 64 = 0, good := ok && oneGroup }
    else
      { scales := if k = 0 then [] else [(region (k0 / 32 * 64), a.off + l, blocks)], extra := blocks, aligned := a.off % 64 = 0, good := ok }
/-- The plan for the operands: a linear copy into the WB from one of the tenant's windows (R103; a source in another module: log 34). -/
def State.scalesOf (s : State) (a : CopyArgs) : ScalePlan :=
  if a.form = .linear && a.toLocal && a.buf = 2 then
    match s.window (s.tenantOf s.here) (vaOf a.src) with
    | some w => scalePlan w a
    | none => ScalePlan.none
  else ScalePlan.none

/-- The operands of a COPY in the slot. -/
def State.copyArgs (s : State) (f : CopyFmt) (form : CopyForm) : CopyArgs :=
  let p := s.cur.ptr f.ptr
  { form, toLocal := f.rd.toNat = 0, fromLocal := f.rd.toNat ≠ 0 && f.ra.toNat = 0, dst := s.reg f.rd, src := s.reg f.ra, len := s.opB f.rb f.lit
    x := if form = .linear && !f.lossy then 0 else s.reg f.xreg, ctr := s.reg f.treg, buf := ptrBuf p, off := ptrOffset p }
/-- A local end exists. -/
def CopyArgs.local (a : CopyArgs) : Bool := a.toLocal || a.fromLocal
/-- Steps 7 and 9 hold for what is not an address. -/
def CopyArgs.wordSized (a : CopyArgs) (lossy : Bool) : Bool :=
  a.unit % 8 = 0 && a.srcStride % 8 = 0 && a.dstStride % 8 = 0 && (!lossy || a.unit % 256 = 0)
def CopyArgs.valueGood (a : CopyArgs) : Bool :=
  match a.form with
  | .linear => slice a.len 63 32 = 0
  | .strided => true
  | _ => slice a.len 63 35 = 0 && slice a.len 34 32 ≤ 5
/-- Step 8 (R271): the local bytes, scales among them. -/
def CopyArgs.inBuffer (a : CopyArgs) (extra : Nat) : Bool :=
  let size := if a.buf = 0 then Config.abBytes else Config.wbBytes
  let reach : Int := (a.units - 1 : Nat) * a.step
  (a.buf = 0 || (a.buf = 2 && !a.fromLocal)) &&
    (a.empty || (0 ≤ (a.off : Int) + min 0 reach && (a.off : Int) + max 0 reach + a.unit ≤ size && a.off + a.unit + extra ≤ Config.wbBytes))
/-- The AB lines of the local end. -/
def CopyArgs.abLines (a : CopyArgs) : List Nat :=
  if !a.local || a.buf ≠ 0 || a.empty || !a.inBuffer 0 then []
  else
    let n := if a.step = 0 then 1 else a.units
    ((List.range n).flatMap fun (j : Nat) => linesOf ((a.off : Int) + j * a.step).toNat a.unit).eraseDups

/-! ### Issue (R268, R273, R276) -/

def isCopyWork : OpWork → Bool
  | .copy .. => true
  | _ => false
/-- Copies outstanding, and triggers pending, for the context in the slot (R398). -/
def State.copiesOut (s : State) : Nat := ((s.opsOf s.gid).filter fun o => isCopyWork o.work).length
def State.triggersOut (s : State) : Nat :=
  ((s.opsOf s.gid).filter fun o => o.pending).length

/-- The wait on the trigger counter (R276): an acquire at the instruction's scope; its grant goes into register `d`. -/
def State.sendTrigger (s : State) (op d : Nat) (ctr h : W64) (scope : BitVec 4) : State :=
  let c := s.cur
  let (rid, s) := s.newRid
  (s.markEmpty s.gid d).send { kind := .ctrWait, tenant := s.tenantOf s.here, va := ctr, dp := 0, join := none, data := h, cmp := 0, ord := 0b01#2, scope
                               src := .ctx s.gid c.gen, use := .trigger op d, die := dieOf s.here, core := s.here, pc := c.pc, next := c.pc, rid
                               early := false, fence := false, hops := 0 }

/-- The captured work. -/
def CopyArgs.work (a : CopyArgs) (lossy : Bool) (scales : List (W64 × Nat × Nat)) : OpWork :=
  let here : CopyEnd := if a.buf = 2 then .wb a.off else .ab a.off
  .copy a.form (if a.toLocal then here else .global a.dst) (if a.fromLocal then here else .global a.src) a.len a.x lossy scales

/-- COPY in a form, triggered or not. -/
def State.copyIssue (s : State) (f : CopyFmt) (form : CopyForm) (trig : Bool) : Result :=
  let a := s.copyArgs f form
  let hasX : Bool := form ≠ .linear || f.lossy
  let t := f.treg.toNat
  let ends := (if a.toLocal then [] else nums [f.rd]) ++ (if a.fromLocal || f.ra.toNat = 0 then [] else nums [f.ra])
  let srcs := ends ++ nums (regB f.rb f.lit) ++ [t] ++ (if hasX then nums [f.xreg] else []) ++ (if trig then [t + 1, t + 2] else [])
  let globals := (if a.toLocal then [] else [a.dst]) ++ (if a.fromLocal then [] else [a.src])
  let index := hasX && form ≠ .strided
  let tctr := s.regAt s.gid (t + 1)
  let plan := s.scalesOf a
  let bufOk := a.inBuffer plan.extra
  s.perform ([s.chkAllot srcs, s.chkPred f.pred f.neg, s.chkFull srcs, chkAddr a.ctr 8, if trig then chkAddr tctr 8 else .ok] ++
      globals.map (fun v => chkAddr v 8) ++
      [Check.need (a.wordSized f.lossy) 0x04 s.word0, if a.local then chkOff a.off 8 else .ok, if index then chkAddr a.x (if f.lossy then 8 else 4) else .ok] ++
      (if f.lossy then globals.map (fun v => chkAddr v 256) else []) ++
      [Check.need plan.aligned 0x04 (wordOfNat a.off), if a.local then Check.need bufOk 0x05 (wordOfNat a.off) else .ok,
       s.chkValue a.valueGood, s.chkValue plan.good, s.chkValue (s.copiesOut < 16), s.chkValue (!trig || s.triggersOut < 4)] ++
      (globals ++ (if index then [a.x] else []) ++ [a.ctr] ++ (if trig then [tctr] else [])).map s.chkPeer ++
      [if a.fromLocal && !trig then s.chkLines a.abLines else .ok]) fun s =>
    let lines := if a.toLocal then a.abLines else []
    let scope := f.scope
    let h := s.regAt s.gid (t + 2)
    let s := s.updCur fun c => c.advancePtr f.ptr (a.local && f.pl)
    if trig then
      let (id, s) := s.newOp (a.work f.lossy plan.scales) scope a.ctr .pending lines (some (t + 2))
      ((s.sendOut s.gid (.engine s.gid id)).sendTrigger id (t + 2) tctr h scope).next
    else (s.issueOp (a.work f.lossy plan.scales) scope a.ctr lines).next

/-- COPY (R270). -/
def execCopy (f : CopyFmt) (s : State) : Result := s.copyIssue f .linear false
/-- COPY.STR. -/
def execCopyStr (f : CopyFmt) (s : State) : Result := s.copyIssue f .strided false
/-- COPY.GTH. -/
def execCopyGth (f : CopyFmt) (s : State) : Result := s.copyIssue f .gather false
/-- COPY.SCT. -/
def execCopySct (f : CopyFmt) (s : State) : Result := s.copyIssue f .scatter false
/-- COPY.TRG (R276). -/
def execCopyTrg (f : CopyFmt) (s : State) : Result := s.copyIssue f .linear true
/-- COPY.STR.TRG. -/
def execCopyStrTrg (f : CopyFmt) (s : State) : Result := s.copyIssue f .strided true
/-- COPY.GTH.TRG. -/
def execCopyGthTrg (f : CopyFmt) (s : State) : Result := s.copyIssue f .gather true
/-- COPY.SCT.TRG. -/
def execCopySctTrg (f : CopyFmt) (s : State) : Result := s.copyIssue f .scatter true

/-- PREF.TIER (R278). -/
def execPrefTier (f : CopyFmt) (s : State) : Result :=
  let a := s.reg f.ra
  let b := s.opB f.rb f.lit
  let t := s.reg f.treg
  let srcs := nums (f.ra :: regB f.rb f.lit ++ [f.treg])
  s.perform [s.chkAllot srcs, s.chkPred f.pred f.neg, s.chkFull srcs, chkAddr a 1, chkAddr t 8, s.chkValue (slice b 63 32 = 0), s.chkPeer a, s.chkPeer t] fun s =>
    (s.issueOp (.prefTier a (slice b 31 0)) f.scope t []).next

/-! ### Words that an engine reads and writes (R272; spec/21 R409, R414; spec/22 R418) -/

/-- Read the word at an address of this module, as an engine on a die does: its bits and whether it is poisoned, or the reason that stops the
operation. -/
def State.engineRead (s : State) (die tenant : Nat) (va : W64) : State × Except Nat (W64 × Bool) :=
  match s.xlat die tenant va false with
  | (s, .error _) => (s, .error 0x21)
  | (s, .ok dp) =>
    let s := s.open (wordAt dp)
    (s, .ok (s.memWord (wordAt dp), s.memType (wordAt dp) = 7))
/-- Write a word of this module, or poison, as an engine on a die does; a typed word is not written. -/
def State.engineWrite (s : State) (die tenant : Nat) (va v : W64) (poison : Bool) : State × Option Nat :=
  match s.xlat die tenant va true with
  | (s, .error c) => (s, some (if c = 0x09 then 0x22 else 0x21))
  | (s, .ok dp) =>
    let w := wordAt dp
    let s := s.open w
    if s.memType w ≠ 0 && s.memType w ≠ 7 then (s, some 0x40) else (s.engineCommit w v 64 poison, none)

/-- What an operation has done so far: the AB writes, the words for another module, the lowest poisoned destination, the
reason and address of a failure. -/
structure Moved where
  s : State
  ab : List (Nat × List Byte)
  out : List (Option W64)
  poisoned : Option W64
  fail : Option (Nat × W64)

/-- The lower of two addresses. -/
def lowest (a : Option W64) (b : W64) : Option W64 :=
  match a with
  | none => some b
  | some x => some (if b.toNat < x.toNat then b else x)

/-- Move a word to a place `i` bytes into a destination. -/
def Moved.put (m : Moved) (o : EngOp) (dst : CopyEnd) (remote : Bool) (v : W64) (poison : Bool) : Moved :=
  match dst with
  | .global va =>
    let noted := if poison then lowest m.poisoned va else m.poisoned
    if remote then { m with out := m.out ++ [if poison then none else some v], poisoned := noted }
    else match m.s.engineWrite (dieOf o.abCore) o.tenant va v poison with
      | (s, none) => { m with s, poisoned := noted }
      | (s, some sw) => { m with s, fail := some (sw, va) }
  | .ab off => if poison then { m with fail := some (0x20, wordOfNat off) } else { m with ab := m.ab ++ [(off, bytesOfNat v.toNat 8)] }
  | .wb off =>
    if poison then { m with fail := some (0x20, wordOfNat off) } else { m with s := m.s.setWb (clusterOf o.abCore) off (bytesOfNat v.toNat 8) }

/-- Read a word from a source and move it; a word of another module is given, none for a poisoned one. -/
def Moved.move (m : Moved) (o : EngOp) (src dst : CopyEnd) (remoteDst : Bool) (given : Option (Option W64)) : Moved :=
  match m.fail with
  | some _ => m
  | none =>
    match given, src with
    | some v, _ => m.put o dst remoteDst (v.getD 0) v.isNone
    | none, .global va => (match m.s.engineRead (dieOf o.abCore) o.tenant va with
        | (s, .error sw) => { m with s, fail := some (sw, va) }
        | (s, .ok (v, poison)) => ({ m with s } : Moved).put o dst remoteDst v poison)
    | none, .ab off => m.put o dst remoteDst (wordOfNat (natOfBytes (m.s.abBytes o.abCore off 8))) false
    | none, .wb off => m.put o dst remoteDst (wordOfNat (natOfBytes (m.s.wbBytes (clusterOf o.abCore) off 8))) false

/-! ### The units of a copy (Table 11.1) -/

/-- An end moved by a number of bytes. -/
def CopyEnd.plus (e : CopyEnd) (d : Int) : CopyEnd :=
  match e with
  | .global va => .global (va + wordOfInt d)
  | .ab off => .ab (((off : Int) + d) % 2 ^ 18).toNat
  | .wb off => .wb (((off : Int) + d) % 2 ^ 18).toNat

/-- The units: their source and destination; every one has `words` words. -/
structure CopyPlan where
  units : List (CopyEnd × CopyEnd)
  words : Nat

def copyPlan (form : CopyForm) (dst src : CopyEnd) (len x : W64) (idx : List Nat) : CopyPlan :=
  let e := 8 * 2 ^ slice len 34 32
  match form with
  | .linear => { units := if slice len 31 0 = 0 then [] else [(src, dst)], words := slice len 31 0 / 8 }
  | .strided =>
    { units := if slice len 31 0 = 0 then [] else (List.range (slice len 63 32)).map fun (j : Nat) => (src.plus (j * sext (slice x 31 0) 32), dst.plus (j * sext (slice x 63 32) 32))
      words := slice len 31 0 / 8 }
  | .gather => { units := idx.zipIdx.map fun p => (src.plus (p.1 * e : Nat), dst.plus (p.2 * e : Nat)), words := e / 8 }
  | .scatter => { units := idx.zipIdx.map fun p => (src.plus (p.2 * e : Nat), dst.plus (p.1 * e : Nat)), words := e / 8 }

/-- Its moves, word by word. -/
def CopyPlan.moves (p : CopyPlan) : List (CopyEnd × CopyEnd) :=
  p.units.flatMap fun u => (List.range p.words).map fun (i : Nat) => (u.1.plus (8 * i : Nat), u.2.plus (8 * i : Nat))

def CopyEnd.addr : CopyEnd → W64
  | .global va => va
  | .ab off | .wb off => wordOfNat off
/-- The parts in which its words leave for another module. -/
def CopyPlan.parts (p : CopyPlan) : Nat := (p.units.map fun u => (stripes u.2.addr p.words).length).sum

/-- Where an end lies. -/
def State.endAt (s : State) (tenant : Nat) : CopyEnd → Served
  | .global va => s.served tenant va
  | _ => .here
/-! ### Ends of an operation -/

/-- An operation fails after it has written part of its AB rows: they stand, wherever the rows now are. A copy has no descriptor: its record's
ADDR is the address of the word that failed (log 40). -/
def State.failWith (s : State) (o : EngOp) (ws : List (Nat × List Byte)) (sw : Nat) (addr : W64) : State :=
  if s.fillsMove o then
    let s := s.updOp o.id fun o => { o with binding := .refused sw }
    (s.postAll ((fillItems o.id ws).map fun i => .forwardedItem o.abCore i)).engineFault o 0x10 sw addr
  else (ws.foldl (fun s w => s.writeAb o.abCore w.1 w.2) s).failOp o sw addr

/-- One record for the poison that the operation has carried on (spec/21 R414). -/
def State.poisonRecord (s : State) (o : EngOp) : Option W64 → State
  | none => s
  | some a => s.engineFault o 0x0A 0x31 a

/-- The words for the units of another module leave; the operation waits for their acknowledgements. -/
def State.sendWords (s : State) (o : EngOp) (phys : Nat) (p : CopyPlan) (ws : List (Option W64)) : State :=
  let s := (p.units.zipIdx).foldl (fun s u => s.emitWords phys o.id u.1.2.addr ((ws.drop (u.2 * p.words)).take p.words)) s
  if p.units = [] then s.finishOp o else s.awaitPeer o.id phys (p.parts) ((p.units.map fun u => u.2.addr).headD 0)

/-- The end of the moves. -/
def Moved.finish (m : Moved) (o : EngOp) (p : CopyPlan) (remote : Option Nat) : State :=
  match m.fail with
  | some (sw, a) => (m.s.poisonRecord o m.poisoned).failWith o m.ab sw a
  | none =>
    let s := m.s.poisonRecord o m.poisoned
    match remote with
    | some phys => s.sendWords o phys p m.out
    | none => s.deliverAb o m.ab

/-! ### Lossy copies (R275; spec/15 R344, R345) -/

/-- The mask word `k` of a transfer of `n` blocks, those of a list lost. -/
def maskWord (n : Nat) (lost : List Nat) (k : Nat) : W64 :=
  wordOfNat (((List.range 64).map fun i => bitAt (64 * k + i < n && !lost.contains (64 * k + i)) i).foldl (· + ·) 0)
def maskWords (n : Nat) (lost : List Nat) : List W64 := (List.range (ceilDiv n 64)).map (maskWord n lost)
/-- Write words from an address up, poison for none, to the first that fails. -/
def State.engineWriteAll (s : State) (die tenant : Nat) (va : W64) : List (Option W64) → State × Option (Nat × W64)
  | [] => (s, none)
  | w :: ws =>
    match s.engineWrite die tenant va (w.getD 0) w.isNone with
    | (s, some sw) => (s, some (sw, va))
    | (s, none) => s.engineWriteAll die tenant (va + 8) ws

/-- What the receiving station needs to end a transfer on the copy's behalf. -/
def State.lossyHead (s : State) (o : EngOp) (dst mask : W64) (blocks : Nat) : LossyHead :=
  { tenant := o.tenant, dst, mask, blocks, copier := s.fw.params.physid
    notice := noticeFor o (match o.binding with | .counter num => num | _ => 0)
    toBarrier := o.binding = .barrier }

/-- The blocks of a transfer leave for another module, each with its CRC-32C, and then the close that names every block. -/
def State.sendBlocks (s : State) (phys : Nat) (h : LossyHead) (xfer : Nat) (ws : List (Option W64)) : State :=
  let s := (List.range h.blocks).foldl (fun s i =>
    let b := (ws.drop (32 * i)).take 32
    s.emit (.block (s.stationFor (h.dst + wordOfNat (256 * i))) phys h xfer i b (crcWords (b.map fun w => w.getD 0)))) s
  s.emit (.blockNotice phys h { xfer, blocks := List.range h.blocks, close := true })

/-! ### The copy unit (R272, R273) -/

/-- Words that hold an index list. -/
def indexWords (x : W64) (n : Nat) : Nat := if n = 0 then 0 else ((x.toNat % 8) / 4 + n + 1) / 2
/-- The words beside its data that a copy reads or writes: its index list, its mask, its scales. -/
def sideWords (form : CopyForm) (len x : W64) (lossy : Bool) (scales : List (W64 × Nat × Nat)) (blocks : Nat) : List W64 :=
  let words (a : W64) (n : Nat) : List W64 := (List.range n).map fun i => a + wordOfNat (8 * i)
  (match form with
    | .gather | .scatter => words (x - wordOfNat (x.toNat % 8)) (indexWords x (slice len 31 0))
    | _ => if lossy then words x (ceilDiv blocks 64) else []) ++ scales.flatMap fun r => words r.1 (r.2.2 / 8)
/-- The pages that an operation's global words lie in, by an address in each (R277). -/
def copyPages (p : CopyPlan) (more : List W64) : List W64 :=
  let ends := (p.moves.flatMap fun m => [m.1, m.2]).filterMap fun e => match e with | .global va => some va | _ => none
  ((ends ++ more).map fun va => va &&& ~~~0xFFFF#64).eraseDups
/-- The DP pages of those that lie in this module and are mapped. -/
def State.pagesHere (s : State) (die tenant : Nat) (vas : List W64) : State × List Nat :=
  (vas.filter fun va => s.served tenant va = .here).foldl (fun acc va =>
    match acc.1.xlat die tenant va false with
    | (s, .ok dp) => (s, acc.2 ++ [pageOf dp])
    | (s, .error _) => (s, acc.2)) (s, [])
/-- Those that lie in other modules, each with the module. -/
def State.pagesAway (s : State) (tenant : Nat) (vas : List W64) : List (Nat × W64) :=
  vas.filterMap fun va => match s.served tenant va with | .peer p => some (p, va) | _ => none
/-- Other modules are asked to make pages near. -/
def State.askPages (s : State) (op : Nat) (asks : List (Nat × W64)) : State :=
  let s := asks.foldl (fun s x => s.emit (.prefTier (s.stationFor x.2) x.1 op x.2 1)) s
  let s := s.updOp op fun o => { o with state := .promoting asks.length }
  { s with fab := { s.fab with
    opPeers := s.fab.opPeers.filter (fun (x : Nat × Nat × Nat × W64) => x.2.1 ≠ op) ++ asks.map fun (x : Nat × W64) => (s.sched.now, op, x.1, x.2) } }.postIn
      s.fw.params.peertmo .peerTimeout

/-- The moves of the scales, which follow the data (R274). -/
def scaleMoves (scales : List (W64 × Nat × Nat)) : List (CopyEnd × CopyEnd) :=
  scales.flatMap fun r => (List.range (r.2.2 / 8)).map fun (i : Nat) => (.global (r.1 + wordOfNat (8 * i)), .wb (r.2.1 + 8 * i))

/-- Make moves in order; `given` are the source words of another module. -/
def State.moveAll (s : State) (o : EngOp) (moves : List (CopyEnd × CopyEnd)) (remoteDst : Bool) (given : Option (List (Option W64))) : Moved :=
  (moves.zipIdx).foldl (fun m x => m.move o x.1.1 x.1.2 remoteDst (given.map fun ws => ws.getD x.2 none))
    { s, ab := [], out := [], poisoned := none, fail := none }

/-- A copy with its source at hand: in this module, or in the words given. -/
def State.copyMoves (s : State) (o : EngOp) (dst src : CopyEnd) (x : W64) (lossy : Bool) (scales : List (W64 × Nat × Nat)) (p : CopyPlan)
    (given : Option (List (Option W64))) : State :=
  match s.endAt o.tenant dst with
  | .dead => s.failWith o [] 0x52 dst.addr
  | .here =>
    let m := s.moveAll o (p.moves ++ scaleMoves scales) false given
    if lossy then
      match m.fail with
      | some _ => m.finish o p none
      | none =>
        match m.s.engineWriteAll (dieOf o.abCore) o.tenant x ((maskWords (p.words / 32 * p.units.length) []).map some) with
        | (s, some (sw, a)) => (s.poisonRecord o m.poisoned).failOp o sw a
        | (s, none) => (s.poisonRecord o m.poisoned).finishOp o
    else m.finish o p none
  | .peer q =>
    let m := s.moveAll o p.moves true given
    match m.fail with
    | some _ => m.finish o p none
    | none =>
      if lossy && s.endAt o.tenant src ≠ .peer q then
        let s := (m.s.poisonRecord o m.poisoned).sendBlocks q (s.lossyHead o dst.addr x (p.words / 32 * p.units.length)) o.id m.out
        (s.awaitPeer o.id q 1 dst.addr).updOp o.id fun o => { o with state := .handedOver }
      else if lossy then
        let n := p.words / 32 * p.units.length
        let s := (m.s.poisonRecord o m.poisoned).sendWords o q p m.out
        if n = 0 then s
        else
          let mask := maskWords n []
          (s.emitWords q o.id x (mask.map some)).awaitPeer o.id q (p.parts + (stripes x mask.length).length) x
      else m.finish o p (some q)

/-- The copy unit with the index list at hand; words that have come from another module are the source's, whatever the remap table says now
(spec/15 R333). -/
def State.copyWith (s : State) (o : EngOp) (form : CopyForm) (dst src : CopyEnd) (len x : W64) (lossy : Bool) (scales : List (W64 × Nat × Nat))
    (idx : List Nat) (given : List (Option W64)) : State :=
  let p := copyPlan form dst src len x idx
  let side := sideWords form len x lossy scales (p.words / 32 * p.units.length)
  let away := s.pagesAway o.tenant (copyPages p side)
  let waiting := if o.trigReg = 0 then (s, 0) else (let (s, ps) := s.pagesHere (dieOf o.abCore) o.tenant (copyPages p side); s.promoteAll ps)
  let s := waiting.1
  if o.trigReg ≠ 0 && !o.arrived && away ≠ [] then s.askPages o.id away
  else if waiting.2 ≠ 0 then s.postIn 1 (.copyOperation o.id given)
  else if p.units = [] then (if lossy then s.copyMoves o dst src x lossy scales p none else s.finishOp o)
  else if given ≠ [] then s.copyMoves o dst src x lossy scales p (some given)
  else match s.endAt o.tenant src with
    | .dead => s.failWith o [] 0x52 src.addr
    | .here => s.copyMoves o dst src x lossy scales p none
    | .peer q =>
      if lossy && s.endAt o.tenant dst = .here then
        (s.emit (.lossyFetch (s.stationFor src.addr) q (s.lossyHead o dst.addr x (p.words / 32)) o.id src.addr)).awaitPeer o.id q 0 src.addr
      else
        let s := p.units.foldl (fun s u => s.emitFetch q o.id u.1.addr p.words) s
        let s := scales.foldl (fun s r => s.emitFetch q o.id r.1 (r.2.2 / 8)) s
        s.awaitPeer o.id q 0 src.addr

/-- The 32-bit indices in words; `skip` is 1 where the first one lies in the upper half of its word (R272). -/
def indicesOf (skip n : Nat) (ws : List W64) : List Nat := ((ws.flatMap fun w => [slice w 31 0, slice w 63 32]).drop skip).take n
/-- Read `n` words of this module as an engine does. -/
def State.engineReadAll (s : State) (die tenant : Nat) (va : W64) : Nat → State × Except (Nat × W64) (List W64)
  | 0 => (s, .ok [])
  | n + 1 =>
    match s.engineRead die tenant va with
    | (s, .error sw) => (s, .error (sw, va))
    | (s, .ok (v, poison)) =>
      if poison then (s, .error (0x20, va))
      else match s.engineReadAll die tenant (va + 8) n with
        | (s, .error e) => (s, .error e)
        | (s, .ok vs) => (s, .ok (v :: vs))

/-- The index list of a gather or scatter is read first. -/
def State.copyIndices (s : State) (o : EngOp) (len x : W64) (given : List (Option W64)) (k : List Nat → List (Option W64) → State → State) : State :=
  let n := slice len 31 0
  let a := x - wordOfNat (x.toNat % 8)
  let skip := x.toNat % 8 / 4
  match o.got with
  | some idx => k idx given s
  | none =>
    if n = 0 then k [] given s
    else if given ≠ [] then
      if given.contains none then s.failWith o [] 0x20 x
      else
        let idx := indicesOf skip n (given.map (·.getD 0))
        k idx [] (s.updOp o.id fun o => { o with got := some idx })
    else match s.served o.tenant x with
      | .dead => s.failWith o [] 0x52 x
      | .here => (match s.engineReadAll (dieOf o.abCore) o.tenant a (indexWords x n) with
          | (s, .error (sw, _)) => s.failWith o [] sw x
          | (s, .ok ws) => k (indicesOf skip n ws) given (s.updOp o.id fun o => { o with got := some (indicesOf skip n ws) }))
      | .peer q => (s.emitFetch q o.id a (indexWords x n)).awaitPeer o.id q 0 a

/-- The AB source lines of a copy are full. -/
def State.sourceFull (s : State) (o : EngOp) (src : CopyEnd) (p : CopyPlan) : Bool :=
  match src with
  | .ab _ => (s.emptyLine o.abCore (p.units.flatMap fun u => match u.1 with | .ab off => linesOf off (8 * p.words) | _ => [])).isNone
  | _ => true

/-- COPY_OPERATION (R272). A copy whose source or index list lies in another module goes on with the words that come from there
(`remote`); a triggered copy waits for its AB source lines (R276). -/
def execCopyOperation (op : Nat) (remote : List (Option W64)) (s : State) : Result :=
  .next (s.takeOp op fun o s =>
    match o.work with
    | .copy form dst src len x lossy scales =>
      if !s.sourceFull o src (copyPlan form dst src len x (List.range (slice len 31 0))) then s.postIn 1 (.copyOperation op remote)
      else match form with
        | .gather | .scatter => s.copyIndices o len x remote fun idx given s => s.copyWith o form dst src len x lossy scales idx given
        | _ => s.copyWith o form dst src len x lossy scales [] remote
    | .collOpen _ plan _ =>
      if remote.contains none then s.failOp o 0x20 plan
      else (s.updOp op fun o => { o with got := some (o.got.getD [] ++ remote.map fun w => (w.getD 0).toNat) }).post (.routerInstall op)
    | _ => s)

/-- TRIGGER_FIRE (R277): a granted trigger of a Ready or Parked context hands its copy over, as does one whose context's work has
been taken away. -/
def execTriggerFire (op : Nat) (s : State) : Result :=
  .next (match s.op? op with
    | none => s
    | some o =>
      let c := s.ctx o.gid
      let moves := o.state = .trigGranted && (c.gen ≠ o.gen || c.mode = .ready || c.mode = .parked)
      if moves then (s.updOp op fun o => { o with state := .issued }).post (.copyOperation op []) else s)

/-! ### The receiving station (spec/15 R345) -/

/-- The notice or arrival that a station sends on a copy's behalf; a local address is one of the copying module. -/
def State.stationNotice (s : State) (h : LossyHead) : State :=
  let n := { h.notice with remote := true }
  let (rid, s) := s.newRid
  let r := { carryNotice n rid (if h.toBarrier then .arrive else .notice) with die := stationDie (s.stationFor h.dst) }
  if isGlobal n.va then s.route r else s.emit (.request (s.stationFor n.va) h.copier r)
/-- The copier's operation, as a requester at the station of the destination. -/
def State.copierOf (s : State) (h : LossyHead) (xfer : Nat) : Requester :=
  { phys := h.copier, agent := .engine xfer, station := s.stationFor h.dst, tag := xfer }
/-- The cause that carries a reason back to another module (spec/22 R418). -/
def causeOfReason (sw : Nat) : Nat :=
  match sw with
  | 0x21 => 0x08
  | 0x22 => 0x09
  | 0x20 => 0x0A
  | _ => 0x0B

/-- Two transfers at this module's stations are one: the number of one copier's operation. -/
def Lossy.same (x y : Lossy) : Bool := x.xfer = y.xfer && x.head.copier = y.head.copier
/-- A transfer at this module's stations, as it stands; a fresh one where nothing of it has come yet. -/
def State.lossyOf (s : State) (h : LossyHead) (xfer : Nat) : Lossy :=
  let fresh : Lossy := { xfer, head := h, delivered := [], lost := [], named := [], poison := none }
  (s.eng.lossy.find? fun l => l.same fresh).getD fresh
def State.setLossy (s : State) (l : Lossy) : State :=
  { s with eng := { s.eng with lossy := if s.eng.lossy.any l.same then mapWhere l.same (fun _ => l) s.eng.lossy else s.eng.lossy ++ [l] } }
/-- Blocks that are settled: written or lost. -/
def Lossy.settled (l : Lossy) (b : Nat) : Bool := l.delivered.contains b || l.lost.contains b
/-- A copy of this module, which waits for the blocks here. -/
def State.ownLossy (s : State) (l : Lossy) : Bool := l.head.copier = s.fw.params.physid
/-- The end of a transfer: an own copy completes; for another module's the station sends the notice, and the copier is told. -/
def State.doneLossy (s : State) (l : Lossy) : State :=
  if s.ownLossy l then (match s.op? l.xfer with | some o => (s.poisonRecord o l.poison).finishOp o | none => s)
  else (s.stationNotice l.head).emit (.reply (s.copierOf l.head l.xfer) 0 true)
/-- It meets a memory failure, which travels back to another module's copier (spec/22 R418). -/
def State.failLossy (s : State) (l : Lossy) (sw : Nat) (addr : W64) : State :=
  if s.ownLossy l then (match s.op? l.xfer with | some o => (s.poisonRecord o l.poison).failOp o sw addr | none => s)
  else s.emit (.refusal (s.copierOf l.head l.xfer) (causeOfReason sw) addr)
/-- When the last block is settled the mask is written, then the notice is sent. -/
def State.endLossy (s : State) (l : Lossy) : State :=
  let s := s.setLossy l
  if l.delivered.length + l.lost.length = l.head.blocks then
    match s.engineWriteAll (stationDie (s.stationFor l.head.mask)) l.head.tenant l.head.mask ((maskWords l.head.blocks l.lost).map some) with
    | (s, some (sw, a)) => s.failLossy l sw a
    | (s, none) => s.doneLossy l
  else s
/-- The first poisoned word of a block, by its address. -/
def firstPoison (a : W64) (ws : List (Option W64)) : Option W64 := (ws.findIdx? Option.isNone).map fun i => a + wordOfNat (8 * i)
/-- A block is written, as it came or as zeros. A write that fails ends the transfer without mask or notice (spec/21 R414). -/
def State.writeBlock (s : State) (l : Lossy) (b : Nat) (ws : List (Option W64)) (lost : Bool) : State :=
  let a := l.head.dst + wordOfNat (256 * b)
  match s.engineWriteAll (stationDie (s.stationFor a)) l.head.tenant a ws with
  | (s, some (sw, a)) => (s.setLossy { l with lost := (List.range l.head.blocks).filter fun i => !l.delivered.contains i }).failLossy l sw a
  | (s, none) =>
    let l := match firstPoison a ws with | some p => { l with poison := lowest l.poison p } | none => l
    s.endLossy (if lost then { l with lost := l.lost ++ [b] } else { l with delivered := l.delivered ++ [b] })

/-- What comes for an own copy that has been stopped, or has failed, is discarded (spec/19 R383). -/
def State.stray (s : State) (l : Lossy) : Bool := s.ownLossy l && (s.op? l.xfer).isNone
/-- The peer that sends an own copy's blocks has answered (spec/22 R425). -/
def State.heard (s : State) (l : Lossy) : State :=
  if s.ownLossy l then { s with fab := { s.fab with opPeers := s.fab.opPeers.filter fun x => x.2.1 ≠ l.xfer } } else s
/-- LOSSY_BLOCK_ARRIVAL (R345): a block that came whole, with the right CRC-32C, and is not settled yet; poison comes with it (spec/21 R414). -/
def execLossyBlockArrival (h : LossyHead) (xfer block : Nat) (data : List (Option W64)) (crc : W32) (s : State) : Result :=
  let l := s.lossyOf h xfer
  .next (if s.stray l then s
    else if l.settled block || l.head.blocks ≤ block || data.length ≠ 32 || crcWords (data.map (·.getD 0)) ≠ crc then s.setLossy l
    else s.writeBlock l block data false)

/-- A notice or close names blocks of a copy: from now on they may be missed, LOSSWIN cycles later (R344). -/
def State.nameBlocks (s : State) (h : LossyHead) (n : LossyNotice) : State :=
  let l := s.lossyOf h n.xfer
  let fresh := n.blocks.filter fun b => b < l.head.blocks && !l.named.any (fun x => x.1 = b)
  let l := { l with named := l.named ++ fresh.map fun b => (b, s.sched.now) }
  if s.stray l then s else
    let s := (s.setLossy l).heard l
    if n.close && l.head.blocks = 0 && h.blocks = 0 then s.endLossy l
    else if fresh.all l.settled then s else s.postIn s.fw.params.losswin .losswinExpiry

/-- The blocks of a transfer whose time is over. -/
def State.overdue (s : State) (l : Lossy) : List Nat :=
  (l.named.filter fun x => x.2 + s.fw.params.losswin ≤ s.sched.now && !l.settled x.1).map (·.1)
/-- Write the overdue blocks of a transfer as zeros. -/
def State.expire (s : State) (l : Lossy) : State :=
  (s.overdue l).foldl (fun s b => s.writeBlock (s.lossyOf l.head l.xfer) b (List.replicate 32 (some 0)) true) s

end Sys2Proof.Machine
end

