-- ==== Sys2Proof/Machine/Layout.lean ====
section
/-!
DEFINITION. The layout engine: LAYOUT, LAYOUT.AB and their operation (spec/12).
-/

namespace Sys2Proof.Machine

open Sys2Proof

/-! ### Issue (R290, R291) -/

def isLayoutWork : OpWork → Bool
  | .layout .. => true
  | _ => false
/-- LAYOUT operations outstanding for the context in the slot. -/
def State.layoutsOut (s : State) : Nat := ((s.opsOf s.gid).filter fun o => isLayoutWork o.work).length
/-- The registers of a LAYOUT. -/
def LayFmt.srcs (f : LayFmt) : List Nat := nums ([f.rd, f.ra] ++ regB f.rb f.lit ++ [f.treg, f.desc])

/-- LAYOUT with a global source (R290). -/
def execLayout (f : LayFmt) (s : State) : Result :=
  let dst := s.reg f.rd
  let src := s.reg f.ra
  let t := s.reg f.treg
  let desc := s.reg f.desc
  s.perform [s.chkAllot (LayFmt.srcs f), s.chkPred f.pred f.neg, s.chkFull (LayFmt.srcs f), chkAddr dst 8, chkAddr t 8, chkAddr desc 1, chkAddr src 8,
      s.chkValue (s.layoutsOut < 2), s.chkPeer dst, s.chkPeer desc, s.chkPeer t, s.chkPeer src] fun s =>
    (s.issueOp (.layout dst (.global src) 0 (s.opB f.rb f.lit) desc) f.scope t []).next

/-- LAYOUT.AB (R290, Table 12.3). -/
def execLayoutAb (f : LayFmt) (s : State) : Result :=
  let dst := s.reg f.rd
  let a := s.reg f.ra
  let t := s.reg f.treg
  let desc := s.reg f.desc
  let off := slice a 17 0
  let len := slice a 47 32
  s.perform [s.chkAllot (LayFmt.srcs f), s.chkPred f.pred f.neg, s.chkFull (LayFmt.srcs f), chkAddr dst 8, chkAddr t 8, chkAddr desc 1, chkOff off 32,
      chkAb off len, s.chkValue (slice a 63 48 = 0 && slice a 31 18 = 0), s.chkValue (s.layoutsOut < 2), s.chkPeer dst, s.chkPeer desc, s.chkPeer t,
      s.chkLines (linesOf off len)] fun s =>
    (s.issueOp (.layout dst (.ab off) len (s.opB f.rb f.lit) desc) f.scope t []).next

/-! ### The dimension-mapping word (R285-R288) -/

def splitOf (dmw : W64) (j : Nat) : Nat := slice dmw (35 + 4 * j) (32 + 4 * j)
def posOf (dmw : W64) (v : Nat) : Nat := slice dmw (4 * v + 3) (4 * v)
/-- The extents n0 to n3. -/
def extentsOf (e : W64) : List Nat := [slice e 15 0, slice e 31 16, slice e 47 32, slice e 63 48]

/-- A virtual dimension: its source dimension, whether it is the upper one of a split, its extent and output position. -/
structure VDim where
  src : Nat
  upper : Bool
  ext : Nat
  pos : Nat

/-- The virtual dimensions of source dimension `j` (R286). -/
def vdimsOf (dmw : W64) (j n : Nat) : List VDim :=
  let f := splitOf dmw j
  if f = 0 then [{ src := j, upper := false, ext := n, pos := posOf dmw (2 * j) }]
  else [{ src := j, upper := false, ext := 2 ^ f, pos := posOf dmw (2 * j) }, { src := j, upper := true, ext := n / 2 ^ f, pos := posOf dmw (2 * j + 1) }]
/-- Those of all source dimensions. -/
def vdims (dmw : W64) (ns : List Nat) : List VDim := ns.zipIdx.flatMap fun p => vdimsOf dmw p.2 p.1
/-- Virtual dimension `v` exists. -/
def vdimExists (dmw : W64) (r v : Nat) : Bool := v / 2 < r && (v % 2 = 0 || splitOf dmw (v / 2) ≠ 0)
/-- The DMW is valid for the extents of rank r (R287). -/
def dmwValid (dmw : W64) (ns : List Nat) : Bool :=
  let r := ns.length
  let vs := vdims dmw ns
  (List.range 8).all (fun j => j < r || splitOf dmw j = 0) && ns.zipIdx.all (fun p => p.1 % 2 ^ splitOf dmw p.2 = 0) &&
    (List.range 8).all (fun v => vdimExists dmw r v || posOf dmw v = 15) && (List.range vs.length).all (fun p => vs.countP (fun v => v.pos = p) = 1)
/-- The stride of a position: the product of the extents below it (R288). -/
def strideOf (vs : List VDim) (pos : Nat) : Nat := ((vs.filter fun v => v.pos < pos).map (·.ext)).foldl (· * ·) 1
/-- The source indices of element `k`, innermost first. -/
def indicesAt : List Nat → Nat → List Nat
  | [], _ => []
  | n :: ns, k => k % n :: indicesAt ns (k / n)
/-- The destination element of source element `k`. -/
def layoutTarget (dmw : W64) (ns : List Nat) (k : Nat) : Nat :=
  let vs := vdims dmw ns
  let is := indicesAt ns k
  (vs.map fun v =>
    let i := is.getD v.src 0
    let f := splitOf dmw v.src
    (if f = 0 then i else if v.upper then i / 2 ^ f else i % 2 ^ f) * strideOf vs v.pos).foldl (· + ·) 0

/-! ### The operation (R292, R293) -/

/-- The reason a descriptor is not performed (spec/20 Table 20.8); `abLen` is LEN of the AB form. -/
def layoutReason (ws : List W64) (ext : W64) (abLen : Option Nat) : Option Nat :=
  let w0 := ws.getD 0 0
  let r := slice w0 6 4
  let fmt := slice w0 3 0
  let ns := (extentsOf ext).take r
  let n := ns.foldl (· * ·) 1
  if slice w0 63 56 ≠ 0x4C then some 0x02
  else if r < 1 || 4 < r then some 0x03
  else if 7 < fmt then some 0x04
  else if slice w0 55 7 ≠ 0 || ws.getD 2 0 ≠ 0 || ws.getD 3 0 ≠ 0 then some 0x05
  else if !dmwValid (ws.getD 1 0) ns then some 0x06
  else match abLen with
    | some l => if l ≠ ceilDiv (n * fmtBits fmt) 8 then some 0x07 else none
    | none => none

/-- The output bits, and the destination words that take a bit of a poisoned source word. -/
def layoutBits (dmw : W64) (ns : List Nat) (w n : Nat) (src : Nat) (poisoned : List Nat) : Nat × List Nat :=
  let ts := (List.range n).map fun k => (k, layoutTarget dmw ns k)
  ((ts.map fun t => src / 2 ^ (w * t.1) % 2 ^ w * 2 ^ (w * t.2)).foldl (· + ·) 0,
   (ts.filterMap fun t => if poisoned.contains (w * t.1 / 64) then some (w * t.2 / 64) else none).eraseDups)

/-- Merge the low `k` bits into a word of this module as one event (R292); over a poisoned word as spec/21 R410 says. -/
def State.mergeBits (s : State) (o : EngOp) (va v : W64) (k : Nat) : State × Option Nat :=
  match s.xlat (dieOf o.core) o.tenant va true with
  | (s, .error c) => (s, some (if c = 0x09 then 0x22 else 0x21))
  | (s, .ok dp) =>
    let w := wordAt dp
    let s := s.open w
    let ty := s.memType w
    if ty = 7 then
      ((s.engineCommit w v k false).asyncRecord (homeDie w)
        { TrapRec.blank with tenant := o.tenant, swcode := 0x30, cause := 0x0A, core := o.core, pc := o.pc, addr := va, orig := o.orig, iter := o.iter
                             unit := o.unit, launch := o.launch, cyc := s.cyclesOf o.core }, none)
    else if ty ≠ 0 then (s, some 0x40)
    else (s.engineCommit w v k false, none)

/-- Write the output, word by word, to the first failure; the lowest destination word written poisoned. -/
def State.layoutWrite (s : State) (o : EngOp) (dst : W64) (bits : Nat) (poisoned : List Nat) (total : Nat) : Nat → Nat → Option W64 → State
  | 0, _, low => (s.poisonRecord o low).finishOp o
  | n + 1, k, low =>
    let va := dst + wordOfNat (8 * k)
    let v := wordOfNat (bits / 2 ^ (64 * k))
    let rest := total - 64 * k
    let r := if poisoned.contains k then s.engineWrite (dieOf o.core) o.tenant va 0 true
             else if 64 ≤ rest then s.engineWrite (dieOf o.core) o.tenant va v false else s.mergeBits o va v rest
    match r with
    | (s, some sw) => (s.poisonRecord o low).failOp o sw va
    | (s, none) => s.layoutWrite o dst bits poisoned total n (k + 1) (if poisoned.contains k then lowest low va else low)

/-- The output leaves for another module: whole words, and the last one's bits where it is covered in part. -/
def State.layoutSend (s : State) (o : EngOp) (phys : Nat) (dst : W64) (bits : Nat) (poisoned : List Nat) (total : Nat) : State :=
  let full := total / 64
  let word (k : Nat) : Option W64 := if poisoned.contains k then none else some (wordOfNat (bits / 2 ^ (64 * k)))
  let s := s.emitWords phys o.id dst ((List.range full).map word)
  let last := dst + wordOfNat (8 * full)
  let s := if total % 64 = 0 then s else s.emit (.part (s.stationFor last) phys o.id last (total % 64) (word full))
  let s := s.poisonRecord o ((poisoned.foldl (fun a k => lowest a (dst + wordOfNat (8 * k))) none))
  s.awaitPeer o.id phys ((stripes dst full).length + (if total % 64 = 0 then 0 else 1)) dst

/-- The source words of this module, each with whether it is poisoned, to the first failure. -/
def State.layoutSource (s : State) (o : EngOp) (va : W64) : Nat → State × Except (Nat × W64) (List (W64 × Bool))
  | 0 => (s, .ok [])
  | n + 1 =>
    match s.engineRead (dieOf o.core) o.tenant va with
    | (s, .error sw) => (s, .error (sw, va))
    | (s, .ok v) =>
      match s.layoutSource o (va + 8) n with
      | (s, .error e) => (s, .error e)
      | (s, .ok vs) => (s, .ok (v :: vs))

/-- The permutation of the source words. -/
def State.layoutMove (s : State) (o : EngOp) (dst : W64) (dmw : W64) (ns : List Nat) (w n : Nat) (src : List (W64 × Bool)) : State :=
  let bits := (src.zipIdx.map fun p => p.1.1.toNat * 2 ^ (64 * p.2)).foldl (· + ·) 0
  let bad := src.zipIdx.filterMap fun p => if p.1.2 then some p.2 else none
  let (out, poisoned) := layoutBits dmw ns w n bits bad
  match s.served o.tenant dst with
  | .dead => s.failOp o 0x52 dst
  | .peer p => s.layoutSend o p dst out poisoned (n * w)
  | .here => s.layoutWrite o dst out poisoned (n * w) (ceilDiv (n * w) 64) 0 none

/-- The engine with the descriptor at hand. -/
def State.layoutWith (s : State) (o : EngOp) (dst : W64) (src : CopyEnd) (abLen : Nat) (ext desc : W64) (ws : List W64) (given : List (Option W64)) : State :=
  let isAb : Option Nat := match src with | .ab _ => some abLen | _ => none
  match layoutReason ws ext isAb with
  | some sw => s.failOp o sw desc
  | none =>
    let ns := (extentsOf ext).take (slice (ws.getD 0 0) 6 4)
    let n := ns.foldl (· * ·) 1
    let w := fmtBits (slice (ws.getD 0 0) 3 0)
    let words := ceilDiv (n * w) 64
    if n = 0 then s.finishOp o
    else match src with
      | .ab off =>
        let xs := (List.range words).map fun k => (wordOfNat (natOfBytes (s.abBytes o.abCore (off + 8 * k) 8)), false)
        s.layoutMove o dst (ws.getD 1 0) ns w n xs
      | .wb _ => s
      | .global va =>
        if given ≠ [] then s.layoutMove o dst (ws.getD 1 0) ns w n ((List.range words).map fun k => let x := given.getD k none; (x.getD 0, x.isNone))
        else match s.served o.tenant va with
        | .dead => s.failOp o 0x52 va
        | .here => (match s.layoutSource o va words with
            | (s, .error (sw, a)) => s.failOp o sw a
            | (s, .ok xs) => s.layoutMove o dst (ws.getD 1 0) ns w n xs)
        | .peer p => (s.emitFetch p o.id va words).awaitPeer o.id p 0 va

/-- The operation reaches its engine in this cycle; the engine takes those of one cycle in the order of their cores, from the next cycle on. -/
def State.layoutArrives (s : State) (op : Nat) : State :=
  (s.updOp op fun o => { o with arrived := true, cycle := s.sched.now }).post (.layoutOperation op [])
/-- LAYOUT_OPERATION (R292): it arrives; when its engine has come to it the descriptor is read first; words of another module come in the list. A
poisoned descriptor word stops it with the reason of a poisoned source (log 40). -/
def execLayoutOperation (op : Nat) (remote : List (Option W64)) (s : State) : Result :=
  .next (s.takeOp op fun o s =>
    match o.work with
    | .layout dst src abLen ext desc =>
      if !o.arrived then s.layoutArrives op
      else if desc.toNat % 32 ≠ 0 then s.failOp o 0x01 desc
      else match o.got with
        | some ws => s.layoutWith o dst src abLen ext desc (ws.map wordOfNat) remote
        | none =>
          if remote ≠ [] then
            if remote.contains none then s.failOp o 0x20 desc
            else
              let ws := remote.map (·.getD 0)
              (s.updOp op fun o => { o with got := some (ws.map BitVec.toNat) }).layoutWith o dst src abLen ext desc ws []
          else match s.served o.tenant desc with
          | .dead => s.failOp o 0x52 desc
          | .here => (match s.engineReadAll (dieOf o.core) o.tenant desc 4 with
              | (s, .error (sw, _)) => s.failOp o sw desc
              | (s, .ok ws) => (s.updOp op fun o => { o with got := some (ws.map BitVec.toNat) }).layoutWith o dst src abLen ext desc ws remote)
          | .peer p => (s.emitFetch p op desc 4).awaitPeer op p 0 desc
    | _ => s)

end Sys2Proof.Machine
end

