-- ==== Sys2Proof/Machine/Router.lean ====
section
/-!
DEFINITION. Collective routers: plan entries, slots and slot-free notices, sums going up, results going down, markers, and
what a dead member leaves (spec/15 R336-R347; spec/11 R279-R281; spec/22 R428-R430; log 14).
-/

namespace Sys2Proof.Machine

open Sys2Proof

/-! ### The plan (R336, R337) -/

def parentField (w : W64) : Nat := slice w 63 52
def childField (w : W64) (c : Nat) : Nat := slice w (12 * c + 11) (12 * c)
/-- An entry that no plan has. -/
def PlanEntry.none : PlanEntry := { phys := 1024, isLocal := false, core := 0, sets := [] }

def Stream.entry (st : Stream) (i : Nat) : PlanEntry := st.entries.getD i PlanEntry.none
/-- The set word of an entry. -/
def Stream.word (st : Stream) (k i : Nat) : W64 := (st.entry i).sets.getD k (BitVec.allOnes 64)
def Stream.present (st : Stream) (k i : Nat) : Bool := i < st.entries.length && k < st.sets && parentField (st.word k i) ≠ 0xFFF
/-- The parent of an entry in a set; none for the root and where the entry is absent. -/
def Stream.parent (st : Stream) (k i : Nat) : Option Nat :=
  if st.present k i && parentField (st.word k i) ≠ i then some (parentField (st.word k i)) else none
/-- The child that feeds a port. -/
def Stream.child (st : Stream) (k i c : Nat) : Option Nat :=
  if st.present k i && childField (st.word k i) c ≠ 0xFFF then some (childField (st.word k i) c) else none
/-- The children of an entry in a set, with their ports. -/
def Stream.children (st : Stream) (k i : Nat) : List (Nat × Nat) := (List.range 4).filterMap fun c => (st.child k i c).map fun e => (c, e)
/-- The entry is the root of its set. -/
def Stream.isRoot (st : Stream) (k i : Nat) : Bool := st.present k i && parentField (st.word k i) = i
/-- The port by which an entry enters its parent. -/
def Stream.portAt (st : Stream) (k parent i : Nat) : Nat := (((st.children k parent).find? fun p => p.2 = i).map (·.1)).getD 0
/-- The lowest-numbered set in which an entry is present. -/
def Stream.starting (st : Stream) (i : Nat) : Nat := ((List.range st.sets).find? fun k => st.present k i).getD 0

/-- The entry that feeds a port of entry `i` in set `k`, or that will be the first to feed it: the down input takes turned rows where the entry is
root, and has no feeder there. -/
def Stream.feederOf (st : Stream) (k i p : Nat) : Option Nat :=
  let ks := List.range' k (st.sets - k)
  if p = 4 then (ks.find? fun k => st.present k i).bind fun k => st.parent k i else ks.findSome? fun k => st.child k i p
/-- The own set that a port goes by: the down set for the down input. -/
def Stream.setOf (st : Stream) (p : Nat) : Nat := if p = 4 then st.down else st.up
def Stream.feeder (st : Stream) (p : Nat) : Option Nat := st.feederOf (st.setOf p) st.me p
/-- The set into which a marker for set `k` moves an entry: one that is absent there, and whose core has no part in the stream that could send a
further marker, goes on to the next set in which it is present (R342; log 14). -/
def Stream.land (st : Stream) (part : Bool) (k : Nat) : Nat :=
  if part || st.present k st.me then k else ((List.range' k (st.sets - k)).find? fun j => st.present j st.me).getD k
/-- Slots that the router reserves (R338). -/
def Stream.slots (st : Stream) : Nat :=
  2 * ((List.range 4).countP fun c => (List.range st.sets).any fun k => (st.child k st.me c).isSome) +
    (if (List.range st.sets).any fun k => (st.parent k st.me).isSome then 2 else 0) + (if (st.entry st.me).isLocal then 2 else 0)
/-- The entries that exchange rows with this one in some set. -/
def Stream.neighbours (st : Stream) : List Nat :=
  ((List.range st.sets).flatMap fun k => (st.parent k st.me).toList ++ (st.children k st.me).map (·.2)).eraseDups

/-! ### Streams of the module -/

def State.stream? (s : State) (core vsn : Nat) : Option Stream := s.eng.streams.find? fun st => st.core = core && st.vsn = vsn
def State.setStream (s : State) (st : Stream) : State :=
  { s with eng := { s.eng with streams := mapWhere (fun x => x.core = st.core && x.vsn = st.vsn) (fun _ => st) s.eng.streams } }
def State.dropStream (s : State) (core vsn : Nat) : State :=
  { s with eng := { s.eng with streams := s.eng.streams.filter fun x => !(x.core = core && x.vsn = vsn) } }
/-- Slots of a router in use (R338). -/
def State.routerSlots (s : State) (core : Nat) : Nat := ((s.eng.streams.filter fun x => x.core = core && !x.broken).map Stream.slots).sum
/-- Installations that wait for slots are tried again. -/
def State.retryOpens (s : State) (core : Nat) : State :=
  let mine := s.eng.waitOpen.filter fun op => match s.op? op with | some o => s.routerOf o.core 256 = core | none => false
  { s with eng := { s.eng with waitOpen := s.eng.waitOpen.filter fun op => !mine.contains op } }.postAll (mine.map Instr.routerInstall)

/-- The collective operations that a router serves for a stream, oldest first, those of one kind. -/
def State.collOps (s : State) (core vsn : Nat) (f : OpWork → Bool) : List EngOp :=
  s.eng.ops.filter fun o => f o.work && vsnOf o.work = some vsn && s.routerOf o.core vsn = core
def isGet : OpWork → Bool
  | .collGet .. => true
  | _ => false
def isLossyGet : OpWork → Bool
  | .collGet _ _ _ _ lossy => lossy
  | _ => false
def isPutOrMark : OpWork → Bool
  | .collPut .. | .collMark .. => true
  | _ => false
/-- A COLL.GET whose rows have all come only waits for their fills. -/
def EngOp.rowsDone (o : EngOp) : Nat := match o.state with | .rows n => n | _ => 0
def EngOp.gathered (o : EngOp) : Bool := o.state = .half || match o.work with | .collGet _ _ len _ _ => len ≤ 32 * o.rowsDone | _ => false
/-- The oldest; one whose binding has been refused fails as the router takes it (spec/22 R420). -/
def State.oldest (s : State) (core vsn : Nat) (f : OpWork → Bool) : State × Option EngOp :=
  ((s.collOps core vsn f).filter fun o => !o.gathered).foldl (fun acc o =>
    match acc.2 with
    | some _ => acc
    | none =>
      match o.binding with
      | .refused sw => (acc.1.failOp o sw o.bindVa, none)
      | _ => (acc.1, some o)) (s, none)
def EngOp.bound (o : EngOp) : Bool := o.binding ≠ .pending
/-- The router may take the operation up: it is bound, and the stores that its context issued before are performed (spec/05 R140, spec/11
R268). -/
def State.opReady (s : State) (o : EngOp) : Bool := o.bound && s.storesDone o

/-! ### Sending (R339, R346) -/

/-- A free slot of a receiver is taken: whether its notice was marked lossy. -/
def Stream.takeCredit (st : Stream) (e p : Nat) : Option (Bool × Stream) :=
  match takeFirst (fun c : Credit => c.entry = e && c.port = p) st.credits with
  | some (c, rest) => some (c.lossy, { st with credits := rest })
  | none => none
def Stream.hasCredit (st : Stream) (e p : Nat) : Bool := st.credits.any fun c => c.entry = e && c.port = p
/-- An item goes to a port of an entry's router; a row of the lossy class with the number of its block. -/
def State.toEntry (s : State) (st : Stream) (e p : Nat) (item : StreamItem) (block : Option Nat) : State :=
  let x := st.entry e
  if x.phys = s.fw.params.physid then
    match item with
    | .row bs => s.post (.routerRowArrival x.core st.vsn p { bytes := bs })
    | _ => s.post (.routerMarker x.core st.vsn p item)
  else s.emit (.stream x.phys x.core st.vsn p item block)
/-- The core has a `.lossy` COLL.GET outstanding, and nothing lies below its router. -/
def State.lossyDown (s : State) (st : Stream) (e p : Nat) : Bool :=
  p = 4 && (st.entry e).phys ≠ s.fw.params.physid && st.children st.down st.me = [] &&
    (s.collOps st.core st.vsn isGet).any fun o => match o.work with | .collGet _ _ _ _ l => l | _ => false
/-- A notice to an entry's router: one slot of the own port `p` is free, in the own set, or, with 6, the own slots are reserved. -/
def State.notice (s : State) (st : Stream) (e p : Nat) : State :=
  let x := st.entry e
  let n := if p < 6 then p + 8 * st.setOf p else p
  if x.phys = s.fw.params.physid then s.post (.routerSlotFreeNotice x.core st.vsn st.me n false)
  else s.emit (.slotFree x.phys x.core st.vsn st.me n (s.lossyDown st e p))
/-- The item lies at the station and in no slot (R345). -/
def atStation : StreamItem → Bool
  | .block _ | .judged _ => true
  | _ => false
/-- Items that lie in a port's slots, and items on their way there. -/
def Stream.held (st : Stream) (p : Nat) : Nat := st.inputs.countP fun x => x.1 = p && !atStation x.2
def State.coming (s : State) (st : Stream) (p : Nat) : Bool :=
  s.sched.agenda.any fun x => match x.ev with
    | .routerRowArrival c v q _ | .routerMarker c v q _ => c = st.core && v = st.vsn && q = p
    | _ => false
/-- All the free slots of a port are offered to its feeder. -/
def State.offer (s : State) (st : Stream) (p : Nat) : State :=
  match st.feeder p with
  | some e => if st.ready.contains e then (List.range (2 - st.held p)).foldl (fun s _ => s.notice st e p) s else s
  | none => s
/-- A slot of a port has become free. -/
def State.freed (s : State) (st : Stream) (p : Nat) : State :=
  if p = 5 then s.post (.routerSlotFreeNotice st.core st.vsn 0xFFF 5 false)
  else match st.feeder p with
    | some e => s.notice st e p
    | none => s
/-- The own entry feeds a port of entry `e` in a set, or will be the first to. -/
def Stream.feeds (st : Stream) (k e p : Nat) : Bool := st.feederOf (max k (st.setOf p)) e p = some st.me
/-- A set changes: ports whose feeder changes are offered to the new one; the others give notice of the slots just freed. Free slots at
receivers that have another feeder now are forgotten, and blocks of lossy rows are counted anew on a new hop. -/
def State.moved (s : State) (old new : Stream) (ps freedPorts : List Nat) : State × Stream :=
  let new := { new with
    credits := new.credits.filter fun c => new.feeds c.set c.entry c.port
    blocksSent := new.blocksSent.filter fun b => new.feeds 0 b.1 4
    blocksSeen := if old.feeder 4 = new.feeder 4 then new.blocksSeen else 0 }
  (ps.foldl (fun s p =>
    if p = 5 || old.feeder p = new.feeder p then (if freedPorts.contains p then s.freed new p else s) else s.offer new p) s, new)

/-! ### Sums (spec/11 R280) -/

/-- One addition of two rows. -/
def combineRows (code : Nat) (a b : List Byte) : List Byte :=
  let w := if code = 1 || code = 4 then 16 else 32
  let xs := rowElems w (256 / w) (natOfBytes a)
  let ys := rowElems w (256 / w) (natOfBytes b)
  let f (x y : Nat) : Nat :=
    match code with
    | 0 => (fpAdd fp32 x y).1
    | 1 => (fpAdd bf16 x y).1
    | 2 => (x + y) % 2 ^ 32
    | 3 => (fpMinMax fp32 true x y).1
    | 4 => (fpMinMax bf16 true x y).1
    | _ => if sext x 32 < sext y 32 then y else x
  bytesOfNat (rowOf w (List.zipWith f xs ys)) 32
/-- The sum of rows in the order in which they came. -/
def sumRows (code : Nat) : List (List Byte) → List Byte
  | [] => List.replicate 32 0
  | r :: rs => rs.foldl (combineRows code) r

/-! ### COLL.GET's end (spec/11 R281) -/

/-- The completion word (Table 11.3). -/
def getWord (o : EngOp) (len : Nat) : W64 :=
  let rows := len / 32
  let blocks := ceilDiv rows 8
  let got (b : Nat) : Bool := min (8 * b + 8) rows ≤ o.rowsDone && !(o.valid.testBit b)
  let low := ((List.range (min blocks 31)).map fun b => bitAt (got b) b).sum
  let top := bitAt (decide (31 < blocks) && ((List.range blocks).drop 31).all got) 31
  wordOfNat ((low + top) * 2 ^ 32 + bitAt o.loss 1 + bitAt o.broken 0)
/-- The completion word is deposited, and with it the operation completes. -/
def State.finishGet (s : State) (op : Nat) : State :=
  match s.op? op with
  | none => s
  | some o =>
    match o.work with
    | .collGet _ _ len d _ =>
      (s.updOp op fun o => { o with state := .half }).post
        (.deposit { gid := o.gid, gen := o.gen, rid := 0, use := .getWord op d, data := getWord o len, ok := true, next := 0 })
    | _ => s
/-- The rows have all been written: at a core whose state has moved, the last fill ends the operation. -/
def State.endGet (s : State) (o : EngOp) : State := if s.fillsMove o then s.post (.forwardedItem o.abCore (.fill o.id 0 [] true)) else s.finishGet o.id

/-- The lines of an operation that lie in `n` bytes from an offset are full. -/
def State.releaseSpan (s : State) (o : EngOp) (off n : Nat) : State :=
  (s.bothCores o.abCore).foldl (fun s c => (linesOf off n).foldl (fun s l => s.releaseLine c o.id l) s) s
/-- The bytes of a row; none for one that was lost. -/
def rowBytes : StreamItem → Option (List Byte)
  | .row bs | .judged (some bs) => some bs
  | _ => none
/-- One result row for the oldest COLL.GET. A line is full when its last row is written; of a `.lossy` one a whole block at a time: a row that
was lost makes zeros of all the rows of its block (R281; spec/15 R346). -/
def State.getRow (s : State) (o : EngOp) (off len : Nat) (lossy : Bool) (item : StreamItem) : State :=
  let n := o.rowsDone
  let gone : Bool := (rowBytes item).isNone || (lossy && o.valid.testBit (n / 8))
  let first := if gone && lossy then n / 8 * 8 else n
  let bs := if gone then List.replicate (32 * (n + 1 - first)) 0 else (rowBytes item).getD []
  let unit := if lossy then 256 else 128
  let upto := off + 32 * (n + 1)
  let last := 32 * (n + 1) = len
  let s := s.updOp o.id fun o => { o with state := .rows (n + 1), loss := o.loss || (gone && lossy), valid := if gone then o.valid ||| 2 ^ (n / 8) else o.valid }
  let s :=
    if s.fillsMove o then
      (List.range (bs.length / 32)).foldl (fun s i => s.post (.forwardedItem o.abCore (fillItem o.id false (off + 32 * (first + i), (bs.drop (32 * i)).take 32)))) s
    else
      let s := s.writeAb o.abCore (off + 32 * first) bs
      if last || upto % unit = 0 then s.releaseSpan o ((upto - 1) / unit * unit) ((upto - 1) % unit + 1) else s
  if last then (match s.op? o.id with | some o => s.endGet o | none => s) else s

/-! ### Death of a member (spec/22 R428, R429) -/

/-- The lowest set above the current one in which this entry is present and the dead one is not. -/
def Stream.repairSet (st : Stream) (dead : Nat) : Option Nat :=
  (List.range' (st.up + 1) (st.sets - (st.up + 1))).find? fun k => st.present k st.me && !st.present k dead

/-- GBAR counts the dead member no longer: the root's request goes to the barrier's sluice, wherever that is (R429). -/
def State.withdrawMember (s : State) (st : Stream) (dead : Nat) : State :=
  let x := st.entry dead
  let (rid, s) := s.newRid
  s.route { kind := .memberGone x.phys x.core, tenant := st.tenant, va := st.gbar, dp := 0, join := none, data := 0, cmp := 0, ord := 0b10#2, scope := 5#4
            src := .silent, use := .ack, die := dieOf st.core, core := st.core, pc := st.opened.pc, next := 0, rid, early := false, fence := false, hops := 0 }
/-- The tenant hears of it (KIND 0x0C), and the group barrier is withdrawn from. -/
def State.memberDied (s : State) (st : Stream) (dead : Nat) (set : Option Nat) : State :=
  let x := match set with | some k => k % 4 * 2 ^ 32 | none => 0xF * 2 ^ 32
  let s := s.event st.tenant 0x0C 0 0 [wordOfNat (st.vsn * 2 ^ 48 + dead), wordOfNat (st.rowsUp + x)]
  if st.gbar ≠ 0 && (st.entry dead).isLocal then s.withdrawMember st dead else s
/-- An entry's router lives. -/
def State.entryLives (s : State) (st : Stream) (dead i : Nat) : Bool :=
  let x := st.entry i
  i ≠ dead && (if x.phys = s.fw.params.physid then !(s.core x.core).halted else x.phys < 1024 && !s.peerDead x.phys)
/-- The record for a dead root comes from the lowest-numbered live entry. -/
def State.rootDied (s : State) (st : Stream) (dead : Nat) (set : Option Nat) : State :=
  if (st.isRoot st.up dead || st.isRoot st.down dead) && (List.range st.entries.length).find? (s.entryLives st dead) = some st.me then s.memberDied st dead set else s

/-- Every operation of a stream that is cut off ends: COLL.GET with GBROKEN, the others without effect. -/
def State.endBroken (s : State) (core vsn : Nat) : State :=
  (s.collOps core vsn fun _ => true).foldl (fun s o =>
    if !s.opReady o then s
    else match o.binding, o.work with
      | .refused sw, _ => s.failOp o sw o.bindVa
      | _, .collGet .. => if o.broken || o.state = .half then s else let s := s.updOp o.id fun o => { o with broken := true }; (match s.op? o.id with | some o => s.endGet o | none => s)
      | _, _ => s.finishOp o) s
/-- COLL.OPEN completes when the routers that this one sends to have reserved their slots (R338). -/
def State.checkOpen (s : State) (st : Stream) : State :=
  let k := st.starting st.me
  let needed := (st.parent k st.me).toList ++ (st.children k st.me).map (·.2)
  if st.broken || needed.all fun e => st.ready.contains e then
    match s.op? st.opened.id with
    | some o => s.finishOp o
    | none => s
  else s
/-- A row, kept or lost. -/
def isRowItem : StreamItem → Bool
  | .row _ | .judged _ => true
  | _ => false
/-- Down rows in the router's slots are still the core's: its COLL.GETs take them (R428). -/
def State.takeRest (s : State) (st : Stream) : State :=
  let rest := (st.inputs.filter fun x => x.1 = 4).map (·.2)
  ((if st.served.contains 0xFFF then rest.drop 1 else rest).takeWhile isRowItem).foldl (fun s i =>
    match s.oldest st.core st.vsn isGet with
    | (s, some o) => (match o.work with | .collGet _ off len _ lossy => if s.opReady o && (st.entry st.me).isLocal && st.localDown then s.getRow o off len lossy i else s | _ => s)
    | (s, none) => s) s
/-- The router is cut off: its slots are free, its operations end, the routers below hear of it. -/
def State.cutOff (s : State) (st : Stream) (news : StreamItem) : State :=
  let st' := { st with broken := true, inputs := [], credits := [], served := [] }
  let s := (s.takeRest st).setStream st'
  let s := (st.children st.down st.me).foldl (fun s c => s.toEntry st c.2 4 news none) s
  ((s.checkOpen st').endBroken st.core st.vsn).retryOpens st.core

/-! ### Up (R340, R341) -/

/-- The ports of the active up inputs. -/
def Stream.active (st : Stream) : List Nat :=
  (if (st.entry st.me).isLocal && st.localUp then [5] else []) ++
    ((st.children st.up st.me).filter fun c => !st.dropped.contains c.2).map (·.1)
/-- The item that stands first at a port. -/
def Stream.head (st : Stream) (p : Nat) : Option StreamItem := (st.inputs.find? fun x => x.1 = p).map (·.2)
/-- The first items of some ports are taken. -/
def Stream.pop (st : Stream) (ps : List Nat) : Stream :=
  { st with inputs := ps.foldl (fun xs p => match takeFirst (fun x : Nat × StreamItem => x.1 = p) xs with | some (_, ys) => ys | none => xs) st.inputs }
/-- The rows at the head of some ports, in the order in which they came. -/
def Stream.headRows (st : Stream) (ps : List Nat) : List (List Byte) :=
  ((st.inputs.zipIdx).filterMap fun x =>
    match x.1.2 with
    | .row bs => if ps.contains x.1.1 && !((st.inputs.take x.2).any fun y => y.1 = x.1.1) then some bs else none
    | _ => none)
def markerWord : StreamItem → Option W64
  | .marker w => some w
  | _ => none

/-- Where the up stream goes: the parent's port, or, at the root, the own down input. -/
inductive UpTo where
  | parent (e p : Nat)
  | root
  /-- No slot is free there. -/
  | blocked
/-- The sums of the up set may be treated as down rows: the entry is the root there, and in every set whose down rows are still to come. -/
def Stream.turns (st : Stream) : Bool := st.isRoot st.up st.me && st.leaving.all fun m => st.isRoot m.set st.me
def Stream.upTo (st : Stream) : UpTo :=
  match st.parent st.up st.me with
  | some e => if st.hasCredit e (st.portAt st.up e st.me) then .parent e (st.portAt st.up e st.me) else .blocked
  | none => if st.turns && st.held 4 < 2 then .root else .blocked
/-- An item goes up. -/
def State.sendUp (s : State) (st : Stream) (dest : UpTo) (item : StreamItem) : State × Stream :=
  match dest with
  | .parent e p => (s.toEntry st e p item none, ((st.takeCredit e p).map (·.2)).getD st)
  | .root => (s, { st with inputs := st.inputs ++ [(4, item)] })
  | .blocked => (s, st)

/-- A row of the core's oldest COLL.PUT is held by the next router, or a marker of its COLL.MARK has left: the operation completes with its
last one (R279). -/
def State.leftLocal (s : State) (st : Stream) (hasPart marker : Bool) : State :=
  if !hasPart then s
  else
    let mine := s.collOps st.core st.vsn fun w => match w with | .collMark .. => marker | .collPut .. => !marker | _ => false
    match mine.find? fun o => o.valid < o.rowsDone with
    | none => s
    | some o =>
      let s := s.updOp o.id fun o => { o with valid := o.valid + 1 }
      let all : Bool := match o.work with | .collPut _ _ len => decide (len / 32 ≤ o.valid + 1) | _ => true
      if all then s.finishOp o else s

/-- A router finds the stream's rows and markers at odds (R430). -/
def State.planMismatch (s : State) (st : Stream) : State :=
  let a := match st.opened.work with | .collOpen _ plan _ => plan | _ => 0
  (s.engineFault st.opened 0x10 0x60 a).cutOff st .cut

/-- A repair marker goes up, and the router moves its up set. -/
def State.repairUp (s : State) (st : Stream) (dest : UpTo) (set dead : Nat) (freedPorts : List Nat) : State :=
  let s := if st.isRoot st.up st.me then s.memberDied st dead (some set) else s.rootDied st dead (some set)
  let (s, st1) := s.sendUp st dest (.repair set dead)
  let (s, st2) := s.moved st1 { st1 with up := set, rowsUp := 0, leaving := st1.leaving ++ [{ set := st1.up, leave := false, repair := true }] } [0, 1, 2, 3, 5]
    freedPorts
  s.setStream st2

/-- Word of a dead member whose input is dropped: at the root it is told, else it goes up. -/
def State.tellDeath (s : State) (st : Stream) (dead : Nat) : State :=
  if st.isRoot st.up st.me then s.memberDied st dead none
  else match st.parent st.up st.me with
    | some e => s.toEntry st e (st.portAt st.up e st.me) (.death dead) none
    | none => s
/-- A dead child whose row boundary has come: repair, or drop; one that a set change has left behind meanwhile is told of all the same (R428). -/
def State.deathUp (s : State) (st : Stream) : Option State :=
  let isChild (d : Nat) : Option (Nat × Nat) := (st.children st.up st.me).find? fun c => c.2 = d
  match st.deaths.find? fun d => match isChild d with
      | some c => st.head c.1 = none && !s.coming st c.1
      | none => true with
  | none => none
  | some d =>
    let rest := { st with deaths := st.deaths.filter (· ≠ d), dropped := d :: st.dropped }
    match (if (isChild d).isSome then st.repairSet d else none) with
    | some k => (match st.upTo with
        | .blocked => none
        | dest => some (s.repairUp rest dest k d []))
    | none => some ((s.setStream rest).tellDeath st d)

/-- A repair marker from below. -/
def State.repairFromBelow (s : State) (st : Stream) (p set dead : Nat) : Option State :=
  if set ≤ st.up then some ((s.setStream (st.pop [p])).freed st p)
  else match st.upTo with
    | .blocked => none
    | dest => some (s.repairUp (st.pop [p]) dest set dead [p])

/-- Rows, or markers, on every active up input. -/
def State.upAll (s : State) (st : Stream) (ps : List Nat) (heads : List StreamItem) : Option State :=
  match st.upTo with
  | .blocked => none
  | dest =>
    if heads.all isRowItem then
      let (s, st1) := s.sendUp (st.pop ps) dest (.row (sumRows st.combine (st.headRows ps)))
      let mine := ps.contains 5
      let (sent, here) := match dest with | .parent e _ => (st1.sent ++ [(e, mine)], false) | _ => (st1.sent, mine)
      let s := s.setStream { st1 with rowsUp := st1.rowsUp + 1, sent }
      some (ps.foldl (fun s p => s.freed st1 p) (s.leftLocal st1 here false))
    else
      let ws := heads.filterMap markerWord
      let w := ws.headD 0
      let same (v : W64) : Bool := bit v 63 = bit w 63 && (bit w 63 || slice v 1 0 = slice w 1 0)
      if !ws.all same || (!bit w 63 && st.sets ≤ slice w 1 0) then some (s.planMismatch st)
      else
        let leave := (match st.head 5 with | some (.marker v) => ps.contains 5 && bit v 62 | _ => false)
        let (s, st1) := s.sendUp (st.pop ps) dest (.marker (w &&& ~~~(0x4000000000000000#64)))
        let localUp := st1.localUp && !leave
        let st2 := { st1 with leaving := st1.leaving ++ [{ set := st1.up, leave, repair := false }], localUp, rowsUp := 0, upClosed := bit w 63
                              up := if bit w 63 then st1.up else st1.land ((st1.entry st1.me).isLocal && localUp) (slice w 1 0) }
        let (s, st3) := s.moved st1 st2 [0, 1, 2, 3, 5] ps
        some ((s.setStream st3).leftLocal st3 (ps.contains 5) true)

/-- An entry that is absent from its up set relays nothing: its core's own marker alone moves it on, and its down set after it (R342; log 14). -/
def State.absentStep (s : State) (st : Stream) : Option State :=
  match st.head 5 with
  | some (.marker w) =>
    if !((st.entry st.me).isLocal && st.localUp) then none
    else if !bit w 63 && st.sets ≤ slice w 1 0 then some (s.planMismatch st)
    else
      let old := st.pop [5]
      let (s, new) := s.moved old { old with
        leaving := st.leaving ++ [{ set := st.up, leave := bit w 62, repair := false }], localUp := !bit w 62, rowsUp := 0, upClosed := bit w 63
        own := st.own ++ [(st.up, w)], up := if bit w 63 then st.up else st.land (!bit w 62) (slice w 1 0) } [0, 1, 2, 3, 5] [5]
      some ((s.setStream new).leftLocal new true true)
  | _ => none
/-- One step of the up stream. -/
def State.upStep (s : State) (st : Stream) : Option State :=
  if st.upClosed then none
  else if !st.present st.up st.me then s.absentStep st
  else match s.deathUp st with
    | some s => some s
    | none =>
      let ps := st.active
      match ps.findSome? fun p => match st.head p with | some (.repair k d) => some (p, k, d) | _ => none with
      | some (p, k, d) => s.repairFromBelow st p k d
      | none =>
        let heads := ps.filterMap st.head
        if heads.any isRowItem && heads.any (fun i => (markerWord i).isSome) then some (s.planMismatch st)
        else if ps = [] || heads.length ≠ ps.length then none
        else s.upAll st ps heads

/-! ### Down (R340, R341) -/

/-- The entries below that a down item goes to. -/
def Stream.below (st : Stream) : List Nat :=
  ((st.children st.down st.me).map (·.2)).filter fun e => !st.dropped.contains e && !st.deaths.contains e

/-- Blocks sent to an entry on this hop. -/
def Stream.sentBlocks (st : Stream) (e : Nat) : Nat := ((st.blocksSent.find? fun b => b.1 = e).map (·.2)).getD 0
/-- The block of lossy rows to an entry ends: its reliable notice follows, with the CRC-32C of its bytes (spec/15 R344, R346). -/
def State.endRows (s : State) (st : Stream) (e : Nat) : State × Stream :=
  match st.blockRows.find? fun b => b.1 = e with
  | none => (s, st)
  | some (_, rows) =>
    let x := st.entry e
    (s.emit (.rowNotice x.phys x.core st.vsn (st.sentBlocks e) rows.length (crc32c rows.flatten)),
     { st with blockRows := st.blockRows.filter fun b => b.1 ≠ e
               blocksSent := (e, st.sentBlocks e + 1) :: st.blocksSent.filter fun b => b.1 ≠ e })
/-- A down item leaves for an entry; lossy rows make blocks of 8. -/
def State.sendDown (s : State) (st : Stream) (e : Nat) (item : StreamItem) (lossy : Bool) : State × Stream :=
  match lossy, item with
  | true, .row bs =>
    let rows := ((st.blockRows.find? fun b => b.1 = e).map (·.2)).getD [] ++ [bs]
    let s := s.toEntry st e 4 item (some (st.sentBlocks e))
    let st := { st with blockRows := (e, rows) :: st.blockRows.filter fun b => b.1 ≠ e }
    if rows.length = 8 then s.endRows st e else (s, st)
  | _, _ =>
    let (s, st) := s.endRows st e
    (s.toEntry st e 4 item none, st)
/-- The head of the down input goes to one entry below that has a free slot. -/
def State.downServe (s : State) (st : Stream) (item : StreamItem) : Option State :=
  match st.below.find? fun e => !st.served.contains e && st.hasCredit e 4 with
  | none => none
  | some e =>
    match st.takeCredit e 4 with
    | none => none
    | some (lossy, st1) =>
      let item := match item with | .judged bs => .row (bs.getD (List.replicate 32 0)) | i => i
      let (s, st2) := s.sendDown st1 e item lossy
      some (s.setStream { st2 with served := e :: st2.served })
/-- The core takes a down row. -/
def Stream.coreServed (st : Stream) : Bool := !((st.entry st.me).isLocal && st.localDown) || st.served.contains 0xFFF
def State.downLocal (s : State) (st : Stream) (item : StreamItem) : Option State :=
  if st.coreServed then none
  else match s.oldest st.core st.vsn isGet with
    | (s, some o) =>
      if !s.opReady o then none
      else (match o.work with
        | .collGet _ off len _ lossy => some ((s.setStream { st with served := 0xFFF :: st.served }).getRow o off len lossy item)
        | _ => none)
    | (_, none) => none

/-- A marker has passed the down stream: the down set moves, or the stream is closed. -/
def State.passDown (s : State) (st : Stream) (w : W64) (freedPorts : List Nat) : State :=
  let localDown := st.localDown && !(match st.leaving with | m :: _ => m.leave | [] => false)
  let st1 := { st with leaving := st.leaving.drop 1, localDown }
  if bit w 63 then (s.dropStream st.core st.vsn).retryOpens st.core
  else
    let (s, st2) := s.moved st1 { st1 with down := st1.land ((st1.entry st1.me).isLocal && localDown) (slice w 1 0) } [4] freedPorts
    s.setStream st2
/-- A down marker has gone to every entry below. -/
def State.downMarker (s : State) (st : Stream) (w : W64) : State := s.passDown { st.pop [4] with served := [] } w [4]
/-- The down set of an entry that is absent from it follows the own markers. -/
def State.absentDown (s : State) (st : Stream) : Option State :=
  match st.own with
  | (k, w) :: rest => if st.present st.down st.me || k ≠ st.down then none else some (s.passDown { st with own := rest } w [])
  | [] => none
/-- A repair set connects the entry: it is present there, or in a later set from which the dead entry is absent. -/
def Stream.reconnects (st : Stream) (set dead : Nat) : Bool :=
  st.present set st.me || (List.range' set (st.sets - set)).any fun k => st.present k st.me && !st.present k dead
/-- A repair marker has gone to every entry below: the router moves to the set it names, or is cut off where no set connects it; markers sent up
before it are no longer awaited (R428). -/
def State.downRepair (s : State) (st : Stream) (set dead : Nat) : State :=
  let known := st.dropped.contains dead
  let s := if known then s else s.rootDied st dead (some set)
  let passed := match st.leaving.findIdx? (·.repair) with | some i => i + 1 | none => st.leaving.length
  let st1 := { st.pop [4] with
    served := [], dropped := if known then st.dropped else dead :: st.dropped, leaving := st.leaving.drop passed
    localDown := st.localDown && !(st.leaving.take passed).any (·.leave) }
  if !st.reconnects set dead then s.cutOff st1 (.death dead)
  else
    let (s, st2) := s.moved st1 { st1 with down := set, up := max st1.up set, rowsUp := if st1.up < set then 0 else st1.rowsUp } [0, 1, 2, 3, 4] [4]
    s.setStream st2

/-- What stands first at the down input goes on. -/
def State.downHead (s : State) (st : Stream) : Option State :=
  match st.head 4 with
  | none => none
  | some item =>
    match (if (match item with | .block _ => true | _ => false) then none else s.downServe st item) with
    | some s => some s
    | none =>
      let all := st.below.all st.served.contains
      match item with
      | .row _ | .judged _ =>
        (match s.downLocal st item with
        | some s => some s
        | none =>
          if !(all && st.coreServed) then none
          else
            let s := s.setStream { st.pop [4] with served := [] }
            some (if atStation item then s else s.freed st 4))
      | .block _ => none
      | .marker w => if all then some (s.downMarker st w) else none
      | .repair k d => if all then some (s.downRepair st k d) else none
      | _ => some (s.setStream (st.pop [4]))

/-- One step of the down stream. -/
def State.downStep (s : State) (st : Stream) : Option State :=
  match s.absentDown st with
  | some s => some s
  | none => s.downHead st

/-! ### The local input (spec/11 R279, R280) -/

/-- The rows of a COLL.PUT, read once. -/
def State.putRows (s : State) (o : EngOp) (off len : Nat) : List Nat := (List.range (len / 32)).map fun i => natOfBytes (s.abBytes o.abCore (off + 32 * i) 32)
/-- The oldest COLL.PUT or COLL.MARK with something left fills a free local slot. -/
def State.feedStep (s : State) (st : Stream) : Option State :=
  let waiting (o : EngOp) : Bool := match o.work with | .collPut _ _ len => o.rowsDone < len / 32 || len = 0 | .collMark .. => o.rowsDone = 0 | _ => false
  match (s.collOps st.core st.vsn isPutOrMark).find? waiting with
  | none => none
  | some o =>
    if !s.opReady o then none
    else match o.binding, o.work with
      | .refused sw, _ => some (s.failOp o sw o.bindVa)
      | _, .collPut _ off len =>
        if len = 0 then some (s.finishOp o)
        else if st.localFree = 0 then none
        else
          let rows := o.got.getD (s.putRows o off len)
          let n := o.rowsDone
          let s := s.updOp o.id fun o => { o with got := some rows, state := .rows (n + 1) }
          some ((s.setStream { st with localFree := st.localFree - 1 }).post (.routerRowArrival st.core st.vsn 5 { bytes := bytesOfNat (rows.getD n 0) 32 }))
      | _, .collMark _ w =>
        if st.localFree = 0 then none
        else
          let s := s.updOp o.id fun o => { o with state := .rows 1 }
          some ((s.setStream { st with localFree := st.localFree - 1 }).post (.routerMarker st.core st.vsn 5 (.marker w)))
      | _, _ => none
/-- A COLL.GET of no rows completes at once (R281). -/
def State.emptyGet (s : State) (st : Stream) : Option State :=
  match (s.collOps st.core st.vsn isGet).find? fun o => s.opReady o && o.state ≠ .half && o.rowsDone = 0 && (match o.work with | .collGet _ _ len _ _ => len = 0 | _ => false) with
  | some o => (match o.binding with | .refused sw => some (s.failOp o sw o.bindVa) | _ => some ((s.updOp o.id fun o => { o with state := .rows 1 }).endGet o))
  | none => none

/-! ### The router at work -/

/-- One step of the router. -/
def State.routerStep (s : State) (st : Stream) : Option State :=
  match s.emptyGet st with
  | some s => some s
  | none =>
    match s.feedStep st with
    | some s => some s
    | none =>
      match s.upStep st with
      | some s => some s
      | none => s.downStep st
/-- Steps until nothing can be done. -/
def State.pump (core vsn : Nat) : Nat → State → State
  | 0, s => s
  | n + 1, s =>
    match s.stream? core vsn with
    | none => s
    | some st =>
      if st.broken then s.endBroken core vsn
      else match s.routerStep st with
        | some s => State.pump core vsn n s
        | none => s
/-- The router of a core works on a stream. -/
def State.work (s : State) (core vsn : Nat) : State := State.pump core vsn (1024 + s.eng.ops.length) s

/-- Apply a change to a stream that is installed and not cut off, and let the router work. -/
def State.onStream (s : State) (core vsn : Nat) (f : Stream → State → State) : State :=
  match s.stream? core vsn with
  | none => s
  | some st => (if st.broken then s else f st s).work core vsn

/-- A row that has come up lies in a slot: its sender hears of it, with 7 for a port (spec/11 R279). -/
def State.rowHeld (s : State) (st : Stream) (port : Nat) : State :=
  if 4 ≤ port then s else match st.feeder port with | some e => s.notice st e 7 | none => s

/-! ### Blocks of lossy rows at the receiving station (R344-R346) -/

/-- Blocks up to number `num` have begun to come: each has its place behind the items before it. -/
def Stream.seeBlock (st : Stream) (num : Nat) : Stream :=
  let ns := List.range' st.blocksSeen (num + 1 - st.blocksSeen)
  { st with
    inputs := st.inputs ++ ns.map fun n => (4, .block n)
    blocksIn := st.blocksIn ++ ns.map fun n => { num := n, rows := [], named := none }
    blocksSeen := max st.blocksSeen (num + 1) }
/-- A block has been judged: its rows stand in its place. -/
def Stream.placeBlock (st : Stream) (num : Nat) (rows : List (Option (List Byte))) : Stream :=
  { st with
    inputs := st.inputs.flatMap fun (x : Nat × StreamItem) => if x = (4, .block num) then rows.map fun r => (4, .judged r) else [x]
    blocksIn := st.blocksIn.filter fun b => b.num ≠ num }
/-- A block that its notice has named is judged: whole, with the right CRC-32C, it is taken; else it is lost once LOSSWIN cycles are over. The slots
of rows that never came are free. -/
def State.judgeBlock (s : State) (st : Stream) (b : RowBlock) : State :=
  match b.named with
  | none => s
  | some (n, crc, t) =>
    if b.rows.length = n && b.rows.all Option.isSome && crc32c (b.rows.flatMap (·.getD [])) = crc then s.setStream (st.placeBlock b.num b.rows)
    else if t + s.fw.params.losswin ≤ s.sched.now then
      let st := st.placeBlock b.num (List.replicate n none)
      (List.range (n - b.rows.length)).foldl (fun s _ => s.freed st 4) (s.setStream st)
    else s
/-- A block changes, and is judged; one that is judged already is let be. -/
def State.onBlock (s : State) (st : Stream) (num : Nat) (f : RowBlock → RowBlock) : State :=
  let st := st.seeBlock num
  match st.blocksIn.find? fun b => b.num = num with
  | none => s.setStream st
  | some b =>
    let st := { st with blocksIn := mapWhere (fun x : RowBlock => x.num = num) (fun _ => f b) st.blocksIn }
    (s.setStream st).judgeBlock st (f b)
/-- A row of a block, or a flit of one that the station has dropped, has come: it lies at the station, and its slot is free. -/
def State.lossyRow (s : State) (st : Stream) (num : Nat) (r : Option (List Byte)) : State :=
  let fresh : Bool := st.blocksSeen ≤ num || st.blocksIn.any fun b => b.num = num
  let s := s.onBlock st num fun b => { b with rows := b.rows ++ [r] }
  if fresh then s.freed st 4 else s
/-- The notice after a block. -/
def State.nameRows (s : State) (core vsn num rows : Nat) (crc : W32) : State :=
  (s.onStream core vsn fun st s => s.onBlock st num fun b => { b with named := some (b.named.getD (rows, crc, s.sched.now)) }).postIn
    s.fw.params.losswin .losswinExpiry
/-- The blocks of a stream whose time is over are lost. -/
def State.expireRows (s : State) (core vsn : Nat) : State :=
  s.onStream core vsn fun st s => st.blocksIn.foldl (fun s b =>
    match s.stream? core vsn with | some st => s.judgeBlock st b | none => s) s
/-- LOSSY_BLOCK_NOTICE (R344, R346): of a copy, or of a plan's down rows. -/
def execLossyBlockNotice (h : LossyOf) (n : LossyNotice) (s : State) : Result :=
  .next (match h with
    | .copy h => s.nameBlocks h n
    | .rows core vsn => n.blocks.foldl (fun s num => s.nameRows core vsn num n.rows n.crc) s)
/-- LOSSWIN_EXPIRY (R345). -/
def execLosswinExpiry (s : State) : Result :=
  let s := s.eng.lossy.foldl State.expire s
  .next (s.eng.streams.foldl (fun s st => s.expireRows st.core st.vsn) s)

/-- ROUTER_ROW_ARRIVAL (R340). -/
def execRouterRowArrival (core vsn port : Nat) (row : RowFlit) (s : State) : Result :=
  .next (s.onStream core vsn fun st s =>
    match row.block with
    | some num => s.lossyRow st num (some row.bytes)
    | none => (s.setStream { st with inputs := st.inputs ++ [(port, .row row.bytes)] }).rowHeld st port)

/-- The oldest row sent to an entry is held there, or the entry is dead: no word of it will come (log 14). -/
def State.sentRow (s : State) (core vsn entry : Nat) : State :=
  match s.stream? core vsn with
  | none => s
  | some st =>
    match takeFirst (fun x : Nat × Bool => x.1 = entry) st.sent with
    | none => s
    | some ((_, mine), rest) => (s.setStream { st with sent := rest }).leftLocal st mine false
/-- An entry is dead (R428): the parent repairs or drops at its boundary; a router below repairs or is cut off. -/
def State.entryDead (s : State) (st : Stream) (dead : Nat) : State :=
  if st.deaths.contains dead || st.dropped.contains dead then s
  else if st.parent st.up st.me = some dead || st.isRoot st.up dead || st.parent st.down st.me = some dead then
    match st.repairSet dead with
    | some k =>
      let s := s.rootDied st dead (some k)
      s.setStream { st with dropped := dead :: st.dropped, inputs := st.inputs ++ [(4, .repair k dead)] }
    | none => (s.rootDied st dead none).cutOff st (.death dead)
  else if (st.children st.up st.me).any (fun c => c.2 = dead) then s.setStream { st with deaths := st.deaths ++ [dead] }
  else s.setStream { st with dropped := dead :: st.dropped }
/-- News of a dead entry from above: the path to the root passes through it. -/
def State.pathDead (s : State) (st : Stream) (dead : Nat) : State :=
  match st.repairSet dead with
  | some k => (s.rootDied st dead (some k)).setStream { st with dropped := dead :: st.dropped, inputs := st.inputs ++ [(4, .repair k dead)] }
  | none => (s.rootDied st dead none).cutOff st (.death dead)
/-- ROUTER_MARKER (R341): a marker in a slot; repair and lost rows come the same way, and news of a death is heeded at once. -/
def execRouterMarker (core vsn port : Nat) (item : StreamItem) (s : State) : Result :=
  .next (s.onStream core vsn fun st s =>
    match item with
    | .death d => if port = 4 then s.pathDead st d else s.tellDeath st d
    | .cut => s.cutOff st .cut
    | .lostRow num => s.lossyRow st num none
    | _ => if atStation item then s else s.setStream { st with inputs := st.inputs ++ [(port, item)] })

/-- The entry's router has reserved its slots; its free slots are offered by both sides. -/
def State.entryReady (s : State) (st : Stream) (e : Nat) : State :=
  let st := { st with ready := e :: st.ready }
  let s := s.setStream st
  let s := [0, 1, 2, 3, 4].foldl (fun s p => if st.feeder p = some e then s.offer st p else s) s
  s.checkOpen st
def State.remember (s : State) (core vsn entry : Nat) : State := { s with eng := { s.eng with early := s.eng.early ++ [(core, vsn, entry)] } }

/-- ROUTER_SLOT_FREE_NOTICE (R339): from an entry's router for one of its ports, plus 8 times the set that its router is in (6: its slots are
reserved; 7: it holds a row); one for a set in which another feeds the port comes too late; from the own core (0xFFF), a local slot is free (port 5), or an operation of the core is ready (port 4). -/
def execRouterSlotFreeNotice (core vsn entry port : Nat) (lossy : Bool) (s : State) : Result :=
  .next (
    if port = 6 then
      match s.stream? core vsn with
      | some st => if st.broken || st.ready.contains entry then s.remember core vsn entry else (s.entryReady st entry).work core vsn
      | none => s.remember core vsn entry
    else s.onStream core vsn fun st s =>
      if entry = 0xFFF then (if port = 5 then s.setStream { st with localFree := st.localFree + 1 } else s)
      else if port = 7 then s.sentRow core vsn entry
      else
        let c : Credit := { entry, port := port % 8, set := port / 8, lossy }
        if st.feeds c.set c.entry c.port && st.credits.countP (fun x => x.entry = c.entry && x.port = c.port) < 2 then
          s.setStream { st with credits := st.credits ++ [c] }
        else s)

/-- ROUTER_MEMBER_DEATH (R428). -/
def execRouterMemberDeath (core vsn entry : Nat) (s : State) : Result :=
  .next (s.onStream core vsn fun st s =>
    let s := s.entryDead st entry
    (List.range st.sent.length).foldl (fun s _ => s.sentRow core vsn entry) s)

end Sys2Proof.Machine
end

