-- ==== Sys2Proof/Machine/System.lean ====
section
/-!
DEFINITION. System instructions and the SYS registers (spec/07 R181-R184, spec/08 R211-R218).
-/

namespace Sys2Proof.Machine

open Sys2Proof

/-! ### The SYS registers (spec/07 Table 7.9) -/

/-- `STATUS` (Table 7.10). -/
def Ctx.statusWord (c : Ctx) : W64 := wordOfNat (bitAt c.inh 8 + c.flags.toNat)
/-- `PREDS`: bit 0 reads 1. -/
def Ctx.predsWord (c : Ctx) : W64 := wordOfNat (c.preds.toNat / 2 * 2 + 1)
/-- `XSEL` (Table 7.16). -/
def Core.xsel (k : Core) : W64 := wordOfNat (bitAt k.xerr 17 + bitAt k.xempty 16 + k.xclass.toNat * 2 ^ 8 + k.xnum.toNat)
/-- The writable bits of a pointer (spec/03 Table 3.2). -/
def pointerBits (v : W64) : W64 := wordOfNat (slice v 63 61 * 2 ^ 61 + slice v 47 32 * 2 ^ 32 + slice v 17 0)
/-- The writable bits of `TRAPCAUSE` (spec/19 Table 19.2). -/
def trapCauseBits (v : W64) : W64 := wordOfNat (slice v 63 25 * 2 ^ 25 + slice v 15 0)

/-- Access marked "—" for contexts 1 to 15. -/
def sysPrivileged (n : Nat) : Bool := (0x08 ≤ n && n ≤ 0x0D) || (0x30 ≤ n && n ≤ 0x32)

/-- A SYS register of a context, other than `XVAL`. -/
def State.sysRead (s : State) (gid n : Nat) : W64 :=
  let c := s.ctx gid
  let k := s.core (coreOf gid)
  match n with
  | 0x00 => c.statusWord
  | 0x01 => c.link
  | 0x02 => s.cyclesOf (coreOf gid)
  | 0x03 => wordOfNat c.base
  | 0x04 => wordOfNat c.limit
  | 0x08 => k.handler
  | 0x09 => k.trapPc
  | 0x0A => k.trapCause
  | 0x0B => k.trapAddr
  | 0x0C => k.trapOrig
  | 0x0D => k.trapIter
  | 0x10 => wordOfNat c.unit.toNat
  | 0x11 => wordOfNat c.launch.toNat
  | 0x12 => wordOfNat (s.seenCore gid)
  | 0x13 => wordOfNat (idX (s.seenCore gid))
  | 0x14 => wordOfNat (idY (s.seenCore gid))
  | 0x15 => wordOfNat (ctxNo gid)
  | 0x18 | 0x19 | 0x1A | 0x1B => wordOfNat (c.o.getD (n - 0x18) 0).toNat
  | 0x1C | 0x1D | 0x1E | 0x1F => wordOfNat (c.e.getD (n - 0x1C) 0).toNat
  | 0x20 | 0x21 | 0x22 | 0x23 | 0x24 | 0x25 | 0x26 | 0x27 => c.ptrAt (n - 0x20)
  | 0x28 => c.predsWord
  | 0x30 => wordOfNat k.xctx.toNat
  | 0x31 => k.xsel
  | _ => 0

/-- Write a SYS register of a context, other than `XVAL`; a read-only register does not change (R211). -/
def State.sysWrite (s : State) (gid n : Nat) (v : W64) : State :=
  let core := coreOf gid
  match n with
  | 0x00 => s.updCtx gid fun c => { c with flags := v.extractLsb' 0 5 }
  | 0x01 => s.updCtx gid fun c => { c with link := v }
  | 0x08 => s.updCore core fun k => { k with handler := v }
  | 0x09 => s.updCore core fun k => { k with trapPc := v }
  | 0x0A => s.updCore core fun k => { k with trapCause := trapCauseBits v }
  | 0x0B => s.updCore core fun k => { k with trapAddr := v }
  | 0x0C => s.updCore core fun k => { k with trapOrig := v }
  | 0x0D => s.updCore core fun k => { k with trapIter := v }
  | 0x20 | 0x21 | 0x22 | 0x23 | 0x24 | 0x25 | 0x26 | 0x27 => s.updCtx gid fun c => c.setPtr (n - 0x20) (pointerBits v)
  | 0x28 => s.updCtx gid fun c => { c with preds := v.extractLsb' 0 8 &&& 0xFE#8 }
  | 0x30 => s.updCore core fun k => { k with xctx := v.extractLsb' 0 4 }
  | 0x31 => s.updCore core fun k => { k with xclass := v.extractLsb' 8 2, xnum := v.extractLsb' 0 8 }
  | _ => s

/-! ### `XVAL` (R183) -/

/-- Set ERR and EMPTY for an access through `XVAL`. -/
def State.xflags (s : State) (err empty : Bool) : State := s.updCore s.here fun k => { k with xerr := err, xempty := empty }

/-- The context that `XCTX` names. -/
def State.xtarget (s : State) : Nat := 16 * s.here + (s.core s.here).xctx.toNat
/-- The access is refused. -/
def State.xrefused (s : State) : Bool :=
  let k := s.core s.here
  let n := k.xnum.toNat
  k.xctx = 0 || (s.ctx s.xtarget).mode ≠ .stopped ||
    (match k.xclass.toNat with
      | 0 => (s.ctx s.xtarget).count ≤ n
      | 1 => 7 < n
      | 2 => false
      | _ => !sysAssigned n || sysPrivileged n)

/-- Read through `XVAL`: the value, and the state with ERR and EMPTY set. -/
def State.xvalRead (s : State) : W64 × State :=
  let k := s.core s.here
  let g := s.xtarget
  let n := k.xnum.toNat
  if s.xrefused then (0, s.xflags true false)
  else match k.xclass.toNat with
    | 0 => (s.regAt g n, s.xflags false (s.emptyAt g n))
    | 1 => ((s.ctx g).ptrAt n, s.xflags false false)
    | 2 => ((s.ctx g).predsWord, s.xflags false false)
    | _ => (s.sysRead g n, s.xflags false false)

/-- Write through `XVAL`; a register that awaits a deposit is refused. -/
def State.xvalWrite (s : State) (v : W64) : State :=
  let k := s.core s.here
  let g := s.xtarget
  let n := k.xnum.toNat
  if s.xrefused || (k.xclass.toNat = 0 && s.emptyAt g n) then s.xflags true false
  else match k.xclass.toNat with
    | 0 => (s.setRegAt g n v).xflags false false
    | 1 => (s.sysWrite g (0x20 + n) v).xflags false false
    | 2 => (s.sysWrite g 0x28 v).xflags false false
    | _ => (s.sysWrite g n v).xflags false false

/-- XVAL_READ (R183): context 0 reads `XVAL` into register `d`. -/
def execXvalRead (d : BitVec 7) (s : State) : Result :=
  s.perform [s.chkAllot (nums [d]), s.chkDest (nums [d])] fun s => let (v, s) := s.xvalRead; (s.writeReg d v).next
/-- XVAL_WRITE (R183): context 0 writes a value to `XVAL`. -/
def execXvalWrite (v : W64) (s : State) : Result := .next (s.xvalWrite v).next

/-! ### SYSR and SYSW (R211) -/

/-- Step 4: an access marked "—". -/
def State.chkSys (s : State) (n : Nat) : Check := Check.need (isCtx0 s.gid || !sysPrivileged n) 0x06 s.word0

/-- SYSR (R211). -/
def execSysr (f : ImmFmt) (s : State) : Result :=
  let n := f.imm.toNat
  s.perform [s.chkAllot (nums [f.d]), s.chkSys n, s.chkDest (nums [f.d])] fun s =>
    if n = 0x32 then let (v, s) := s.xvalRead; (s.writeReg f.d v).next
    else (s.writeReg f.d (s.sysRead s.gid n)).next
/-- SYSW (R211). -/
def execSysw (f : ImmFmt) (s : State) : Result :=
  let n := f.imm.toNat
  s.perform [s.chkAllot (nums [f.a]), s.chkSys n, s.chkFull (nums [f.a])] fun s =>
    (if n = 0x32 then s.xvalWrite (s.reg f.a) else s.sysWrite s.gid n (s.reg f.a)).next

/-! ### Context 0's instructions (R212-R217) -/

/-- Step 4: START, REAP and PAIR are for context 0. -/
def State.chkCtx0 (s : State) : Check := Check.need (isCtx0 s.gid) 0x06 s.word0

/-- The context of this core with a number, on the even core of a coupled pair. -/
def State.sibling (s : State) (n : Nat) : Nat :=
  let core := s.here
  if (s.core core).paired && idX core % 2 = 1 then 16 * partnerOf core + n else 16 * core + n

/-- What START finds and does (R213): the result for d, and the state. -/
def State.startAction (s : State) (a b : W64) : W64 × State :=
  let g := s.sibling (slice a 3 0)
  let mode := (s.ctx g).mode
  match slice a 17 16 with
  | 0 =>
    if mode ≠ .idle then (1, s)
    else match lowestBase (s.blocks (coreOf g)) (8 * slice a 12 8) with
      | none => (2, s)
      | some base => (0, s.startCtx g base (8 * slice a 12 8) b [] .started .none)
  | 1 => if mode ≠ .stopped then (1, s) else (0, (s.both g).foldl State.resume s)
  | _ =>
    if mode ≠ .ready && mode ≠ .parked then (1, s)
    else (0, (s.both g).foldl (fun s g => s.updCtx g fun c => { c with stop := if c.stop = .none then .halt else c.stop }) s)

/-- The operand of START is well formed (Table 8.4). -/
def startOk (a : W64) : Bool :=
  slice a 63 18 = 0 && slice a 15 13 = 0 && slice a 7 4 = 0 && slice a 17 16 ≠ 3 && slice a 3 0 ≠ 0 &&
    (slice a 17 16 ≠ 0 || (1 ≤ slice a 12 8 && slice a 12 8 ≤ 16))

/-- START (R212, R213): B is read in MODE 0 only. -/
def execStart (f : RegFmt) (s : State) : Result :=
  let a := s.reg f.a
  s.perform [s.chkAllot (nums [f.d, f.a, f.b]), s.chkCtx0, s.chkFull (nums [f.a]),
      s.chkFull (if slice a 17 16 = 0 then nums [f.b] else []), s.chkValue (startOk a), s.chkDest (nums [f.d])] fun s =>
    let (r, s) := s.startAction a (s.reg f.b)
    (s.writeReg f.d r).next

/-- REAP (R214). -/
def execReap (f : RegFmt) (s : State) : Result :=
  s.perform [s.chkAllot (nums [f.d, f.a]), s.chkCtx0, s.chkFull (nums [f.a]), s.chkDest (nums [f.d])] fun s =>
    let g := s.sibling (slice (s.reg f.a) 3 0)
    if (s.ctx g).mode = .stopped && !isCtx0 g then (((s.both g).foldl (fun s g => s.endWork g .reaped) s).writeReg f.d 0).next
    else (s.writeReg f.d 1).next

/-- Contexts 1 to 15 are Idle, no forwarding entry, no task (R215). -/
def State.pairFree (s : State) (core : Nat) : Bool :=
  (s.idleCtxs core).length = 15 && (s.core core).fwd.isNone && (s.core core).tasks = []

/-- PAIR (R215). -/
def execPair (f : ImmFmt) (s : State) : Result :=
  s.perform [s.chkAllot (nums [f.d]), s.chkCtx0, s.chkDest (nums [f.d])] fun s =>
    let want := f.imm.getLsbD 0
    let p := partnerOf s.here
    if (s.core s.here).paired = want then (s.writeReg f.d 0).next
    else if s.pairFree s.here && s.pairFree p then
      let s := (s.updCore s.here fun k => { k with paired := want }).updCore p fun k => { k with paired := want }
      (s.writeReg f.d 0).next
    else (s.writeReg f.d 1).next

/-- TRAP (R216): cause 0x0D with IMM and register A; `TRAPPC` is PC + 4. -/
def execTrap (f : ImmFmt) (s : State) : Result :=
  s.perform [s.chkAllot (nums [f.a]), s.chkFull (nums [f.a])] fun s => s.raiseSw 0x0D f.imm.toNat (s.reg f.a) (s.cur.pc + 4)

/-- RETT (R217; spec/19 R378): illegal outside a handler. With reserved saved status set it is a trap of class 3, and context 0 returns to the
point that trap entry recorded all the same. -/
def execRett (_ : NoneFmt) (s : State) : Result :=
  s.perform [s.chkValue (isCtx0 s.gid), s.chkValue s.cur.inh] fun s =>
    if slice (s.core s.here).trapCause 63 37 = 0 then s.returnFromTrap s.here else (s.raise 0x07 s.word0).leaveHandler s.here

/-- NOP (R218). -/
def execNop (_ : NoneFmt) (s : State) : Result := .next s.next

end Sys2Proof.Machine
end

