-- ==== Sys2Proof/Machine/Collective.lean ====
section
/-!
DEFINITION. COLL.OPEN, COLL.PUT, COLL.GET, COLL.MARK, and the installation of a plan's entry (spec/11 R279-R281; spec/15 R336-R338;
spec/22 R430).
-/

namespace Sys2Proof.Machine

open Sys2Proof

/-! ### Issue (R279; spec/20 Table 20.7) -/

/-- Collective operations outstanding at the core's router (spec/20 R398); a coupled pair's count once. -/
def State.collOut (s : State) : List EngOp :=
  let core := s.here
  let waiting (id : Nat) : Bool := (s.core (partnerOf core)).pairOut.any fun x => match x.2.2 with | .engine _ op => op = id | _ => false
  s.eng.ops.filter fun o => (match o.work with | .collOpen .. => true | w => (vsnOf w).isSome) &&
    (o.core = core || (((s.both s.gid).map coreOf).contains o.core && !waiting o.id))
/-- The core's router holds the stream. -/
def State.vsnOpen (s : State) (vsn : Nat) : Bool := (s.stream? (s.routerOf s.here vsn) vsn).isSome
/-- The stream is open, or an installation for it is under way. -/
def State.vsnTaken (s : State) (vsn : Nat) : Bool :=
  (match s.stream? (s.routerOf s.here vsn) vsn with | some st => !st.broken | none => false) ||
    s.collOut.any fun o => match o.work with | .collOpen v _ _ => v = vsn | _ => false

/-- A collective instruction: its registers, its addresses, its local bytes, its values, its peers, its lines; then its operation. -/
def State.collIssue (s : State) (f : ColFmt) (dsts srcs : List (BitVec 7)) (addrs : List Check) (range : Check) (values : List Bool) (peers : List W64)
    (lines : Check) (effect : State → State) : Result :=
  let t := s.reg f.treg
  s.perform ([s.chkAllot (nums (dsts ++ srcs ++ [f.treg])), s.chkPred f.pred f.neg, s.chkFull (nums (srcs ++ [f.treg]))] ++ addrs ++ [chkAddr t 8, range] ++
      values.map s.chkValue ++ [s.chkValue (s.collOut.length < 64), s.chkDest (nums dsts)] ++ (peers ++ [t]).map s.chkPeer ++ [lines]) fun s => (effect s).next

/-- COLL.OPEN (R279). -/
def execCollOpen (f : ColFmt) (s : State) : Result :=
  let plan := s.reg f.ra
  let b := s.opB f.rb f.lit
  s.collIssue f [] (f.ra :: regB f.rb f.lit) [chkAddr plan 32] .ok [!s.vsnTaken f.vsn.toNat, b.toNat < 6] [plan] .ok fun s =>
    s.issueOp (.collOpen f.vsn.toNat plan b.toNat) f.scope (s.reg f.treg) []

/-- The AB rows of a transfer: a pointer into the AB, aligned, inside. -/
def State.collRows (s : State) (f : ColFmt) : W64 × Nat := (s.opB f.rb f.lit, ptrOffset (s.cur.ptr f.ptr))
def collAlign (off : Nat) (lossy : Bool) : Check := Check.need (off % (if lossy then 256 else 32) = 0) 0x04 (wordOfNat off)
def State.collRange (s : State) (f : ColFmt) (off : Nat) (len : W64) : Check :=
  Check.need (ptrBuf (s.cur.ptr f.ptr) = 0 && (len = 0 || off + len.toNat ≤ Config.abBytes)) 0x05 (wordOfNat off)

/-- COLL.PUT (R279, R280). -/
def execCollPut (f : ColFmt) (s : State) : Result :=
  let (len, off) := s.collRows f
  s.collIssue f [] (regB f.rb f.lit) [collAlign off false] (s.collRange f off len) [s.vsnOpen f.vsn.toNat, len.toNat % 32 = 0] []
    (s.chkLines (linesOf off len.toNat)) fun s =>
    (s.updCur fun c => c.advancePtr f.ptr f.pi).issueOp (.collPut f.vsn.toNat off len.toNat) f.scope (s.reg f.treg) []

/-- COLL.GET (R279, R281): D is empty until the completion word comes. -/
def execCollGet (f : ColFmt) (s : State) : Result :=
  let (len, off) := s.collRows f
  s.collIssue f [f.rd] (regB f.rb f.lit) [collAlign off f.lossy] (s.collRange f off len)
    [s.vsnOpen f.vsn.toNat, len.toNat % 32 = 0 && (!f.lossy || len.toNat ≤ 8192)] [] .ok fun s =>
    ((s.updCur fun c => c.advancePtr f.ptr f.pi).markEmpty s.gid f.rd.toNat).issueOp (.collGet f.vsn.toNat off len.toNat f.rd.toNat f.lossy) f.scope
      (s.reg f.treg) (linesOf off len.toNat)

/-- COLL.MARK (R279; spec/15 R341). -/
def execCollMark (f : ColFmt) (s : State) : Result :=
  s.collIssue f [] (regB f.rb f.lit) [] .ok [s.vsnOpen f.vsn.toNat] [] .ok fun s =>
    s.issueOp (.collMark f.vsn.toNat (s.opB f.rb f.lit)) f.scope (s.reg f.treg) []

/-! ### The plan record (spec/15 R336-R338; spec/22 R430) -/

def planSets (h : W64) : Nat := slice h 17 16 + 1
def planCount (h : W64) : Nat := slice h 11 0
/-- An entry of a record's words, its accelerator translated once (R338). -/
def State.planEntry (s : State) (tenant sets : Nat) (ws : List W64) (i : Nat) : PlanEntry :=
  let e := (ws.drop (4 + 8 * i)).take 8
  let w := e.headD 0
  { phys := (s.remap tenant (slice w 63 54)).getD 1024, isLocal := bit w 32, core := slice w 16 0, sets := (e.drop 1).take sets }

/-- Every present entry reaches the root: `n` steps up. -/
def Stream.reachesRoot (st : Stream) (k : Nat) : Nat → Nat → Bool
  | 0, i => st.isRoot k i
  | n + 1, i => st.isRoot k i || (match st.parent k i with | some p => st.reachesRoot k n p | none => false)
/-- The present entries of a set form one tree with one root (R337). -/
def Stream.isTree (st : Stream) (k : Nat) : Bool :=
  let es := (List.range st.entries.length).filter (st.present k)
  es.countP (st.isRoot k) = 1 &&
    es.all (fun i => st.isRoot k i || (match st.parent k i with
      | some p => st.present k p && (st.children k p).countP (fun c => c.2 = i) = 1
      | none => false)) &&
    es.all (fun i => (st.children k i).all fun c => st.present k c.2 && st.parent k c.2 = some i) &&
    es.all fun i => st.reachesRoot k es.length i

/-- The stream that a plan record gives an operation's core; none where the record is not valid (R430). -/
def State.planStream (s : State) (o : EngOp) (core vsn combine : Nat) (ws : List W64) : Option Stream :=
  let h := ws.headD 0
  let entries := (List.range (planCount h)).map (s.planEntry o.tenant (planSets h) ws)
  if slice h 63 56 ≠ 0x50 || slice h 55 48 ≠ vsn then none
  else match entries.findIdx? fun e => e.core = core && e.phys = s.fw.params.physid with
    | none => none
    | some me =>
      let st : Stream := { core, vsn, tenant := o.tenant, entries, me, sets := planSets h, gbar := ws.getD 1 0, combine, up := 0, down := 0, localUp := true
                           localDown := true, leaving := [], ready := [], deaths := [], dropped := [], inputs := [], credits := [], localFree := 2, served := []
                           sent := [], own := [], blockRows := [], blocksSent := [], blocksIn := [], blocksSeen := 0, rowsUp := 0, upClosed := false, broken := false, opened := o }
      let k := st.starting me
      if (List.range (planSets h)).all st.isTree then some { st with up := k, down := k } else none

/-- The router installs the entry, or waits for free slots (R338). -/
def State.installStream (s : State) (o : EngOp) (st : Stream) : State :=
  if 128 < s.routerSlots st.core + st.slots then { s with eng := { s.eng with waitOpen := s.eng.waitOpen ++ [o.id] } }
  else
    let known := (s.eng.early.filter fun x => x.1 = st.core && x.2.1 = st.vsn).map (·.2.2)
    let s := s.dropStream st.core st.vsn
    let s := { s with eng := { s.eng with streams := s.eng.streams ++ [st], early := s.eng.early.filter fun x => !(x.1 = st.core && x.2.1 = st.vsn) } }
    let s := st.neighbours.foldl (fun s e => s.notice st e 6) s
    let s := known.eraseDups.foldl (fun s e => match s.stream? st.core st.vsn with | some st => s.entryReady st e | none => s) s
    (match s.stream? st.core st.vsn with | some st => s.checkOpen st | none => s).work st.core st.vsn

/-- The record's words are at hand: its header, or all of it. -/
def State.planWords (s : State) (o : EngOp) (vsn : Nat) (plan : W64) (combine : Nat) (ws : List W64) : State :=
  let core := s.routerOf o.core 256
  match s.planStream o core vsn combine ws with
  | some st => s.installStream o st
  | none => s.failOp o 0x61 plan
/-- The router reads the plan record, first its header. -/
def State.readPlan (s : State) (o : EngOp) (vsn : Nat) (plan : W64) (combine : Nat) : State :=
  let have_ := (o.got.getD []).map wordOfNat
  let want := if have_ = [] then 4 else 4 + 8 * planCount (have_.headD 0)
  let bad := have_ ≠ [] && (slice (have_.headD 0) 63 56 ≠ 0x50 || slice (have_.headD 0) 55 48 ≠ vsn)
  if bad || (have_ ≠ [] && want ≤ have_.length) then s.planWords o vsn plan combine have_
  else match s.served o.tenant plan with
    | .dead => s.failOp o 0x52 plan
    | .peer p => (s.emitFetch p o.id (plan + wordOfNat (8 * have_.length)) (want - have_.length)).awaitPeer o.id p 0 plan
    | .here =>
      match s.engineReadAll (dieOf o.core) o.tenant plan 4 with
      | (s, .error (sw, a)) => s.failOp o sw a
      | (s, .ok hs) =>
        if slice (hs.headD 0) 63 56 ≠ 0x50 || slice (hs.headD 0) 55 48 ≠ vsn then s.failOp o 0x61 plan
        else match s.engineReadAll (dieOf o.core) o.tenant (plan + 32) (8 * planCount (hs.headD 0)) with
        | (s, .error (sw, a)) => s.failOp o sw a
        | (s, .ok es) => s.planWords o vsn plan combine (hs ++ es)

/-- ROUTER_INSTALL (R338). -/
def execRouterInstall (op : Nat) (s : State) : Result :=
  .next (s.takeOp op fun o s =>
    match o.work with
    | .collOpen vsn plan combine => s.readPlan o vsn plan combine
    | _ => s)

end Sys2Proof.Machine
end

