-- ==== Sys2Proof/Machine/Schedule.lean ====
section
/-!
DEFINITION. Which step comes next: the slots of the cycle, the steps in flight that may be taken, or the next cycle
(spec/02 R38-R42; spec/05 R130, R131, R140; log 4).
-/

namespace Sys2Proof.Machine

open Sys2Proof

/-! ### What a step in flight carries -/

/-- The engine operation that an engine is about to perform. -/
def engineOf : Instr → Option Nat
  | .copyOperation op _ | .prefTierOperation op | .layoutOperation op _ | .matrixMzeroPerform op | .matrixMmaPerform op
  | .matrixDrainPerform op | .routerInstall op => some op
  | _ => none
def isStoreKind : ReqKind → Bool
  | .store _ => true
  | _ => false
/-- What reaches a collective router, by core and stream: it keeps its order. -/
def routerOfStep : Instr → Option (Nat × Nat)
  | .routerRowArrival c v _ _ | .routerSlotFreeNotice c v _ _ _ | .routerMarker c v _ _ | .routerMemberDeath c v _ => some (c, v)
  | .lossyBlockNotice (.rows c v) _ => some (c, v)
  | _ => none
/-- A store on its way for a tenant. -/
def storeOf (ev : Instr) : Option Nat :=
  match requestOf ev with
  | some r => if isStoreKind r.kind then some r.tenant else none
  | none => none

/-! ### Steps that keep the places of the agenda -/

/-- The module and the address of the word that an address names: a word of this module has one place under its two names (spec/03 R92,
spec/15 R332). -/
def State.placeOf (s : State) (tenant : Nat) (a : W64) : Option Nat × Nat :=
  match s.served tenant a with
  | .here => (some s.fw.params.physid, vaOf a)
  | .peer p => (some p, vaOf a)
  | .dead => (none, a.toNat)
/-- Two addresses of a tenant name places in one block of `n` bytes. -/
def State.samePlace (s : State) (tenant n : Nat) (a b : W64) : Bool :=
  let x := s.placeOf tenant a
  let y := s.placeOf tenant b
  x.1 = y.1 && x.2 / n = y.2 / n
/-- Two operations belong to one incarnation. -/
def State.sameIssuer (s : State) (a b : Nat) : Bool :=
  match s.op? a, s.op? b with
  | some x, some y => x.gen = y.gen
  | _, _ => false
/-- Two requests of one requester to one word keep their order (R130), requests of the firmware column with one tag, and the number requests
of one context to one module (spec/11 R265). -/
def State.sameLine (s : State) (e l : Request) : Bool :=
  match e.src, l.src with
  | .fw a _, .fw b _ => a = b
  | .silent, _ => false
  | .remote p, .remote q => p.phys = q.phys && p.agent = q.agent && p.agent ≠ .other && s.samePlace e.tenant 8 e.va l.va
  | .op a, .op b => if e.kind = .number && l.kind = .number then s.sameIssuer a b else a = b && s.samePlace e.tenant 8 e.va l.va
  | a, b => a = b && e.tenant = l.tenant && s.samePlace e.tenant 8 e.va l.va
/-- A context's number requests keep their order, and follow its accesses to the counter's words (spec/11 R265, spec/05 R130). -/
def State.numberAfter (s : State) (e : Instr) (op : Nat) : Bool :=
  match s.op? op with
  | none => false
  | some o =>
    (match e with | .numberRequest q => s.sameIssuer q op | _ => false) ||
      (match requestOf e with | some r => r.src.gen? = some o.gen && s.samePlace o.tenant 16 r.va o.bindVa | none => false)

/-- An earlier step in flight that a later one must not pass. -/
def State.holdsBack (s : State) (e l : Instr) : Bool :=
  (match requestOf e, requestOf l with
    | some a, some b => s.sameLine a b || (b.fence && storeOf e = some b.tenant)
    | _, _ => false) ||
  (match engineOf l with
    | some op => e = .numberRequest op
    | none => false) ||
  (match l with
    | .numberRequest op => s.numberAfter e op
    | _ => false) ||
  (match routerOfStep e, routerOfStep l with | some a, some b => a = b | _, _ => false) ||
  (match e, l with
    | .forwardedItem a _, .forwardedItem b _ => a = b
    | .rdmaWrite a, .rdmaWrite b | .rdmaWrite a, .rdmaRead b | .rdmaRead a, .rdmaWrite b | .rdmaRead a, .rdmaRead b => a.port = b.port && a.qpn = b.qpn
    | _, _ => false)

/-! ### Steps that come first wherever they stand in the agenda -/

/-- A store of a context that it issued before has not been performed: releases, engine operations and work that it creates wait
(spec/05 R131, R140, R143): R131 holds every release back, whatever its scope (log 35). MZERO and MMA touch no global word and do not
wait (spec/03 R86). -/
def State.storeFirst (s : State) (gen rid : Nat) (l : Instr) : Bool :=
  (match requestOf l with
    | some b => b.ord.getLsbD 1 && b.src.gen? = some gen
    | none => false) ||
  (match l with
    | .matrixMzeroPerform _ | .matrixMmaPerform _ => false
    | _ => match engineOf l with
      | some op => (match s.op? op with | some o => o.gen = gen && rid < o.rid | none => false)
      | none => false) ||
  (match l with
    | .spawnRequest m => m.task.gen = gen
    | .callatTaskArrival _ t => t.gen = gen
    | .routerSlotFreeNotice c v 0xFFF 4 _ =>
      s.eng.ops.any fun o => o.gen = gen && rid < o.rid && o.state = .issued && vsnOf o.work = some v && s.routerOf o.core v = c
    | .parkedInstructionResume g => (s.ctx g).park = .stores && (s.ctx g).gen = gen
    | _ => false)
/-- The release of RIDX (spec/14 R315). -/
def isRidx (r : Request) : Bool := r.kind = .store 4
/-- The object whose counter is at `m` is a member of the one whose counter is at `p` (spec/02 R52, R54). -/
def State.memberOf (s : State) (tenant : Nat) (m p : W64) : Bool :=
  s.fw.launches.any (fun l => l.tenant = tenant && l.lctr = m && l.word 0x70 = p) ||
    s.fw.objs.any fun o => o.tenant = tenant && o.ctr = m && o.parent = p
/-- A firmware request that comes before another of its tenant: a status word before a later advance, the units' retire counter before
the launch's words, a member's advance before that of the object around it (spec/02 R52), and everything earlier before the release of RIDX. -/
def State.fwFirst (s : State) (a b : Request × Nat) : Bool :=
  a.1.tenant = b.1.tenant && decide (a.2 < b.2) &&
    ((isStoreKind a.1.kind && b.1.kind = .ctrAdd) || a.1.va = b.1.va + 16 || a.1.va = b.1.va + 8 || isRidx b.1 ||
      [a.1.va, a.1.va - 8].any fun m => s.memberOf a.1.tenant m b.1.va || s.memberOf a.1.tenant m (b.1.va - 8))
/-- The steps that carry out a command. -/
def isCommand : Instr → Bool
  | .hostLaunch | .hostGraph | .hostPhase | .hostJob | .hostCancel | .hostCancelu | .map | .unmap | .fwin | .qreg | .qunreg | .remap
  | .attest | .cfgstage | .unknownCommand => true
  | _ => false
/-- The advance of a member comes before what its parent makes of it (spec/02 R52). -/
def State.memberFirst (s : State) (a : Request) : FwWait → Bool
  | .launchOf lid _ => (match s.launch? lid with | some l => a.tenant = l.tenant && (a.va = l.lctr || a.va = l.lctr + 8) | none => false)
  | .phaseOf t phase _ => a.tenant = t && (a.va = phase || a.va = phase + 8)
  | _ => false
/-- Work of a waiting task starts before other work is placed on its core (spec/02 R65). -/
def State.taskFirst (s : State) (core : Nat) : Instr → Bool
  | .placementPacket p => p.die = dieOf core
  | .placementRetry d => d = dieOf core
  | .spawnRequest m => m.cores.head? = some core
  | .dispatchPass t => s.tenantOf core = t
  | _ => false
/-- A step that comes before another one. -/
def State.precedes (s : State) (e l : Instr) : Bool :=
  (match fwRequestOf e, fwRequestOf l with | some a, some b => s.fwFirst a b | _, _ => false) ||
  (match fwRequestOf e with | some a => isRidx a.1 && isCommand l | none => false) ||
  (match fwRequestOf e, l with | some a, .firmwareCounterWaitGrant w => s.memberFirst a.1 w | _, _ => false) ||
  (match grantOf e, grantOf l with | some a, some b => a.1 = b.1 && decide (a.2 < b.2) | _, _ => false) ||
  (match e with | .taskStart c => s.taskFirst c l | _ => false)

/-! ### Engines that take their operations in order (spec/10 R253, spec/12 R292) -/

def isMatrix : OpWork → Bool
  | .mzero .. | .mma .. | .drain .. => true
  | _ => false
def isLayout : OpWork → Bool
  | .layout .. => true
  | _ => false
/-- Operation `x` has reached the engine before `y`: in an earlier cycle (a matrix operation in that of its issue, a layout in that of its
arrival), or from a lower core of its unit in the same cycle. -/
def reachedBefore (x y : EngOp) : Bool := decide (x.cycle < y.cycle) || (x.cycle = y.cycle && decide (x.core < y.core)) ||
  (x.cycle = y.cycle && x.core = y.core && decide (x.id < y.id))
/-- No operation that its engine is yet to take, among those that a condition picks, has reached it before `o`. -/
def State.firstAt (s : State) (o : EngOp) (at_ : EngOp → Bool) : Bool :=
  s.eng.ops.all fun x => !(at_ x && (x.state = .issued || x.state = .remote 0) && reachedBefore x o)
/-- The matrix engine of the cluster can take operation `o`: every earlier one has been taken, and no core of the cluster still issues in this
cycle. -/
def State.matrixTakes (s : State) (o : EngOp) : Bool :=
  (s.sched.slots.all fun g => clusterOf (coreOf g) ≠ clusterOf o.core) &&
    s.firstAt o fun x => isMatrix x.work && clusterOf x.core = clusterOf o.core
/-- The layout engine of the quadrant can take operation `o`, which has arrived in an earlier cycle. -/
def State.layoutTakes (s : State) (o : EngOp) : Bool :=
  decide (o.cycle < s.sched.now) && s.firstAt o fun x => isLayout x.work && x.arrived && quadrantOf x.core = quadrantOf o.core
/-- An operation can be performed: it is numbered, and its engine has come to it; a layout that has not arrived yet can arrive. -/
def State.opTakes (s : State) (o : EngOp) : Bool :=
  o.binding ≠ .pending && (!isMatrix o.work || s.matrixTakes o) && (!isLayout o.work || !o.arrived || s.layoutTakes o)

/-! ### Ports that serve once in a cycle -/

/-- The incarnation that an item owed to moved state is for, where it is written at the end of a cycle, and the context it was addressed to. -/
def itemFor : Item → Option (Nat × Nat)
  | .reply m => some (m.gid, m.gen)
  | .fault r _ _ | .late r => (match r.src with | .ctx g n => some (g, n) | _ => none)
  | _ => none
/-- The context in which a step is written at the end of the cycle: a deposit, a fault reply, a late fault notice, arriving or forwarded
(spec/02 R49, R73; spec/20 R395). -/
def State.depositOf (s : State) : Instr → Option Nat
  | .deposit m => (match m.use, m.dest with
    | .number _, _ => none
    | _, some _ => none
    | _, none => if s.movedAway m.gid m.gen then none else some m.gid)
  | .faultReply r _ _ | .lateFaultNotice r => (match r.src with | .ctx g n => if s.movedAway g n then none else some g | _ => none)
  | .forwardedItem c i =>
    (match (s.core c).fwd, itemFor i with
    | some f, some (_, n) => if f.installed then (f.now n).bind fun g => if s.movedAway g n then none else some g else none
    | none, some (g, _) => some g
    | _, none => none)
  | _ => none
/-- The sluice that performs a request: an operation on a typed word, MKOBJ, RMOBJ, a notice or arrival, the counter of a join record at its
place in the polder (spec/04 R117; spec/02 R68). -/
def sluiceOf : Instr → Option Nat
  | .sluiceForward r | .sluiceMkobj r | .sluiceRmobj r => some (homeSlice r.dp)
  | .completionNotice n | .boundBarrierArrival n => some (homeSlice n.dp)
  | .sluiceCtrAdd r => some (match r.join with | some key => homeSlice (key / 4096 * 2 ^ 43 + polderJoin (key % 4096)) | none => homeSlice r.dp)
  | ev => match requestOf ev with
    | some r => if translated ev && (typeOf r.kind ≠ 0 || r.kind = .ldFe || r.kind = .stEf) then some (homeSlice r.dp) else none
    | none => none
/-- The ports that a step takes; a polder entry moves in a cycle in which its sluice performs nothing (spec/04 R126). -/
def State.portsOf (s : State) (ev : Instr) : List Port :=
  (match s.depositOf ev with | some g => (s.both g).map fun g => .core (coreOf g) | none => []) ++
    (match sluiceOf ev with | some sl => [.sluice sl] | none => []) ++
    (match ev with | .polderMove => (s.sluice.moves.take 1).map fun m => .sluice m.1 | _ => [])
/-- They have not served in this cycle; a core writes after its issue (spec/02 R49). -/
def State.portsFree (s : State) (ev : Instr) : Bool :=
  (s.portsOf ev).all fun p => !s.sched.used.contains p && (match p with | .core c => s.sched.slots.all fun g => coreOf g ≠ c | .sluice _ => true)

/-! ### What can be taken -/

/-- An advance of a completion counter of a tenant, or what has waited for one, is on its way: the pass that it starts (spec/14 R324)
comes after it. -/
def State.advancing (s : State) (tenant : Nat) : Bool :=
  s.sched.agenda.any fun p =>
    match p.ev with
    | .firmwareCounterWaitGrant w => s.waitTenant w = some tenant
    | .deposit m | .polderEntryRead m => (match m.dest with | some (.fwWait w) => s.waitTenant w = some tenant | _ => false)
    | ev => decide (p.due ≤ s.sched.now) &&
      (match requestOf ev with
      | some r => r.tenant = tenant && (match r.src with | .fw .. | .fwWait _ => true | _ => false)
      | none => false)
/-- Some tenant's oldest record can be written. -/
def State.recordsReady (s : State) : Bool :=
  s.fw.tenants.all (fun t => t.held = []) || s.fw.tenants.any fun t => match t.held with | r :: _ => s.recordReady t.num r | [] => false
/-- The step itself can be taken: its time has come, its queue is not at its ring (spec/04 R115), its operation's engine has come to it, its
ports are free. -/
def State.canTake (s : State) (p : Pending) : Bool :=
  p.due ≤ s.sched.now && s.portsFree p.ev &&
  (match requestOf p.ev with | some r => !(translated p.ev && s.sluice.busy.contains r.dp) | none => true) &&
  (match engineOf p.ev with
    | some op => (match s.op? op with | some o => s.opTakes o | none => true)
    | none => true) &&
  (match p.ev with
    | .dispatchPass t => !s.advancing t
    | .eventRecordWrite => s.recordsReady
    | _ => true)

/-- The step can be taken now, the steps before it in the agenda being `before`. -/
def State.mayTake (s : State) (before : List Instr) (p : Pending) : Bool :=
  s.canTake p && before.all (fun e => !s.holdsBack e p.ev) && (s.sched.agenda.all fun q => !s.precedes q.ev p.ev) &&
    s.earlyStores.all fun e => !s.storeFirst e.1 e.2 p.ev
/-- The positions of the steps in flight that can be taken. -/
def State.eligibleFrom (s : State) (before : List Instr) (i : Nat) : List Pending → List Nat
  | [] => []
  | p :: ps =>
    let rest := s.eligibleFrom (before ++ [p.ev]) (i + 1) ps
    if s.mayTake before p then i :: rest else rest
def State.eligible (s : State) : List Nat := s.eligibleFrom [] 0 s.sched.agenda
/-- The first of them. -/
def State.firstEligible (s : State) (before : List Instr) (i : Nat) : List Pending → Option Nat
  | [] => none
  | p :: ps => if s.mayTake before p then some i else s.firstEligible (before ++ [p.ev]) (i + 1) ps
/-- A step that takes place in the cycle in which it becomes possible: the return to Ready at the end of a cycle (spec/02 R42), an MZERO that
finds its engine free (spec/10 R253). -/
def mustNow : Instr → Bool
  | .parkedInstructionResume _ | .matrixMzeroPerform _ => true
  | _ => false

/-! ### The turn -/

/-- What comes next. -/
inductive Turn where
  /-- The slot at a position of the cycle's slots. -/
  | slot (i : Nat)
  /-- The step in flight at a position. -/
  | event (i : Nat)
  /-- The next cycle. -/
  | cycle
deriving DecidableEq, Repr

/-- The schedule decides among the slots of the cycle, the steps in flight and, once every slot has been served, the next cycle; with
nothing said, slots come first, then steps in flight, oldest first (log 4). -/
def State.turn (s : State) : Turn :=
  match s.sched.choices with
  | [] =>
    if s.sched.slots ≠ [] then .slot 0
    else match s.firstEligible [] 0 s.sched.agenda with
      | some i => .event i
      | none => .cycle
  | n :: _ =>
    let k := s.sched.slots.length
    let es := s.eligible
    let due : Bool := es.any fun i => match s.sched.agenda[i]? with | some p => mustNow p.ev | none => false
    let m := n % (k + es.length + (if k = 0 && !due then 1 else 0))
    if m < k then .slot m else if m < k + es.length then .event (es.getD (m - k) 0) else .cycle

/-- What the next step executes: an instruction or event in a state, or a stop or fetch fault already carried out. -/
inductive Begin where
  | run (i : Instr) (s : State)
  | done (s : State)

/-- A stop that falls due at a context's slot (spec/02 R58, R70; spec/08 R213; spec/20 R395); one in a slot. -/
def State.takeStop (s : State) (gid : Nat) : State :=
  let c := s.ctx gid
  match c.stop with
  | .none =>
    (match c.late with
    | [] => s
    | l :: ls => (s.setCtx gid { c with late := ls }).takeTrap gid 0x0B 0 l.addr c.pc l.orig l.iter true)
  | .halt => s.setCtx gid { c with mode := .stopped, stop := .none }
  | .cancel =>
    let gs := s.both gid
    gs.foldl (fun s g => s.endWork g .cancelled) (s.withdrawOf (gs.map fun g => (s.ctx g).gen))

/-- Decode and run the words of the context in the slot; words that are no instruction run as ILLEGAL_INSTRUCTION. -/
def State.runWords (s : State) (gid : Nat) (ws : List W32) (again : Bool) : Begin :=
  let s := s.withSlot (slotOf gid ws again)
  match decode ws with
  | .error _ => .run .illegalInstruction s
  | .ok (i, _) => .run i s

/-- The fetch of the context in the slot failed (R396). -/
def State.fetchFault (s : State) (gid : Nat) (e : Nat × W64) : State :=
  (s.withSlot (slotOf gid [] false)).raise e.1 e.2

/-- Fetch and run the instruction of a context. -/
def State.issue (s : State) (gid : Nat) : Begin :=
  let c := s.ctx gid
  if c.again ≠ [] then (s.setCtx gid { c with again := [] }).runWords gid c.again true
  else
    let s := s.openCode gid c.pc
    match s.fetch gid c.pc with
    | .error e => .done (s.fetchFault gid e)
    | .ok (.words ws) => s.runWords gid ws false
    | .ok (.goOn pc) =>
      let s := (s.updCtx gid fun c => { c with pc }).openCode gid pc
      match s.fetchGeneric gid pc with
      | .error e => .done (s.fetchFault gid e)
      | .ok ws => s.runWords gid ws false

/-- A stop falls due at the context's slot; of state in transit, where it is installed (R70, R74). -/
def Ctx.stopDue (c : Ctx) : Bool := (c.stop ≠ .none || c.late ≠ []) && c.mode ≠ .inTransit && c.mode ≠ .idle
/-- The slot of a context: a stop that is due, nothing, or an instruction. -/
def State.runSlot (s : State) (gid : Nat) : Begin :=
  if (s.ctx gid).stopDue then .done (s.takeStop gid)
  else if (s.ctx gid).mode ≠ .ready || (s.core (coreOf gid)).halted then .done s
  else s.issue gid

def State.begin (s : State) : Begin :=
  let t := s.turn
  let s := { s with sched := { s.sched with choices := s.sched.choices.drop 1 } }
  match t with
  | .slot i => ({ s with sched := { s.sched with slots := s.sched.slots.eraseIdx i } }).runSlot (s.sched.slots.getD i 0)
  | .event i =>
    match s.sched.agenda[i]? with
    | none => .run .issueSlot s
    | some p => .run p.ev { s with sched := { s.sched with agenda := s.sched.agenda.eraseIdx i, used := s.portsOf p.ev ++ s.sched.used } }
  | .cycle => .run .issueSlot s

/-! ### The next cycle -/

/-- A core of a gated die issues in every other rotation (spec/16 R361, spec/19 R390). -/
def State.rotationOpen (s : State) (core : Nat) : Bool :=
  let d := s.die (dieOf core)
  !(d.gatedPower || d.gatedHeat) || (s.cyclesOf core).toNat / 16 % 2 = 0

/-- The context owns the cycle: it issues, or a stop of it falls due (R38, R40). -/
def State.ownsCycle (s : State) (gid : Nat) : Bool :=
  let c := s.ctx gid
  let core := coreOf gid
  (s.cyclesOf core).toNat % 16 = ctxNo gid && !(s.core core).halted && s.rotationOpen core &&
    (c.stopDue || (c.mode = .ready && c.rot = 0))

/-- Words of local arrays with one bit in error are corrected in place and counted in `LBECC` (spec/21 R407, R417). -/
def Core.corrected (k : Core) : Core := { k with lbecc := min (k.lbecc + k.upsets) (2 ^ 32 - 1), upsets := 0 }
/-- ISSUE_SLOT (spec/02 R38): the next cycle; the contexts that own it and may issue get their slots. A context that owes
rotations for bank conflicts (spec/03 R80) passes one. -/
def execIssueSlot (s : State) : Result :=
  let s := { s with sched := { s.sched with now := s.sched.now + 1, used := [] } }
  let s := (s.cpu.cores.filter (·.2.upsets ≠ 0)).foldl (fun s k => s.updCore k.1 Core.corrected) s
  let all := s.cpu.ctxs.map (·.1)
  let due := all.filter s.ownsCycle
  let owing := all.filter fun g => (s.ctx g).mode = .ready && (s.ctx g).rot ≠ 0 && (s.cyclesOf (coreOf g)).toNat % 16 = ctxNo g
  let s := owing.foldl (fun s g => s.updCtx g fun c => { c with rot := c.rot - 1 }) s
  .next { s with sched := { s.sched with slots := s.sched.slots ++ due } }

/-- ILLEGAL_INSTRUCTION (spec/20 R391): cause 0x01 with word 0. -/
def execIllegalInstruction (s : State) : Result := .next (s.raise 0x01 s.word0)

/-- PARKED_INSTRUCTION_RESUME (spec/02 R42): what a parked instruction waits for has come, so it issues again; it is
re-examined in full there. -/
def execParkedInstructionResume (gid : Nat) (s : State) : Result :=
  let c := s.ctx gid
  .next (match c.mode, c.park with
    | .parked, .register k => if spGet false s.cpu.regEmpty k then s else s.setCtx gid { c with mode := .ready, park := .nothing }
    | .parked, .line l => if s.lineHolders (coreOf gid) l = [] then s.setCtx gid { c with mode := .ready, park := .nothing } else s
    | .parked, .stores => s.setCtx gid { c with mode := .ready, park := .nothing }
    | .parked, .deposits => if s.awaitsDeposit gid then s else s.retire gid
    | _, _ => s)

end Sys2Proof.Machine
end

