-- ==== Sys2Proof/Machine/Control.lean ====
section
/-!
DEFINITION. Transfer of control, counted repetition, work creation, cancel, tile status test (spec/08 R198-R210; spec/02
R57, R63-R68).
-/

namespace Sys2Proof.Machine

open Sys2Proof

/-! ### Branches and calls (R199-R201) -/

/-- A relative target must be a generic PC (spec/20 R394); in residual code, the generic PC that the target stands for (spec/13 R313). -/
def State.chkRel (s : State) (t : W64) : Check :=
  if isResidual s.cur.pc then (match s.backMap t with | some b => if bit b.orig 63 then chkTarget b.orig else .ok | none => .ok) else chkTarget t

/-- BR (R199). -/
def execBr (f : BrFmt) (s : State) : Result :=
  let t := relTarget s.cur.pc f.off
  let taken := s.cur.pred f.pred != f.neg
  s.perform [if taken then s.chkRel t else .ok] fun s => if taken then s.jump t else s.next
/-- CALL (R199). -/
def execCall (f : BrFmt) (s : State) : Result :=
  let t := relTarget s.cur.pc f.off
  s.perform [s.chkRel t] fun s => s.link.jump t
/-- CALLR (R199). -/
def execCallr (f : RegFmt) (s : State) : Result :=
  s.perform [s.chkAllot (nums [f.a]), s.chkFull (nums [f.a]), chkTarget (s.reg f.a)] fun s => s.link.jump (s.reg f.a)
/-- JMPR (R199). -/
def execJmpr (f : RegFmt) (s : State) : Result :=
  s.perform [s.chkAllot (nums [f.a]), s.chkFull (nums [f.a]), chkTarget (s.reg f.a)] fun s => s.jump (s.reg f.a)

/-- Some relaxed store of the context is still on its way, or its late fault notice is (spec/05 R131, R143; spec/20 R395). -/
def State.storing (s : State) (gid : Nat) : Bool := s.earlyStores.any fun e => e.1 = (s.ctx gid).gen
/-- Wait for them. -/
def State.awaitStores (s : State) : State := (s.parkOn .stores).post (.parkedInstructionResume s.gid)

/-- RET or JOIN ends the context's work: not before its awaited deposits have arrived and its stores been performed (R200;
spec/02 R55; spec/05 R143). A CALLAT task too waits for the deposits (log 40). -/
def State.finishWork (s : State) : State :=
  if s.storing s.gid then s.awaitStores
  else if s.awaitsDeposit s.gid then s.parkOn .deposits
  else s.retire s.gid

/-- RET (R200): to `LINK`, or with `LINK` = 0 it ends the context's work; context 0 has none to end. -/
def execRet (_ : NoneFmt) (s : State) : Result :=
  let l := s.cur.link
  if l ≠ 0 then s.perform [chkTarget l] fun s => s.jump l
  else s.perform [s.chkValue (!isCtx0 s.gid)] fun s => s.finishWork

/-- LOOP (R201). -/
def execLoop (f : LoopFmt) (s : State) : Result :=
  let t := relTarget s.cur.pc f.off
  let n := s.reg f.c
  s.perform [s.chkAllot (nums [f.c]), s.chkFull (nums [f.c]), if 1 < n.toNat then s.chkRel t else .ok] fun s =>
    if 1 < n.toNat then (s.writeReg f.c (n - 1)).jump t else (s.writeReg f.c 0).next

/-- TSTB (R210): a bit of a tile's status word (spec/06 Table 6.8). -/
def Tile.status (t : Tile) : W64 :=
  wordOfNat (t.renorms % 2 ^ 16 * 2 ^ 32 + (t.exp % 2 ^ 10).toNat * 2 ^ 16 + t.bits.toNat)
def execTstb (f : TestFmt) (s : State) : Result :=
  let t := relTarget s.cur.pc f.off
  let hit := bit (Tile.status (s.tile s.here f.tile.toNat)) f.bitNo.toNat == f.sense
  s.perform [if hit then s.chkRel t else .ok] fun s => if hit then s.jump t else s.next

/-! ### BLK (R204) -/

/-- The load of the word that the registers name; its reply sends the store, whose acknowledgement moves the registers. -/
def State.blkWord (s : State) (f : RegFmt) : State :=
  let pc := s.cur.pc
  let s := s.withSlot { s.sched.slot with len := 0 }
  (s.issueRequest (.load 8 false) (s.reg f.a) 0 0 0 0 (.blkLoad f.d.toNat f.a.toNat f.b.toNat) none).updCur fun c => { c with pc }
/-- BLK (R204): one word for each issue, until B is 0. -/
def execBlk (f : RegFmt) (s : State) : Result :=
  let done := s.reg f.b = 0
  let word (c : Check) : Check := if done then .ok else c
  s.perform [s.chkAllot (nums [f.d, f.a, f.b]), s.chkFull (nums [f.d, f.a, f.b]), word (chkAddr (s.reg f.a) 8), word (chkAddr (s.reg f.d) 8),
      word (s.chkPeer (s.reg f.a)), word (s.chkPeer (s.reg f.d))] fun s =>
    if done then s.next else s.blkWord f

/-! ### Work creation (R205, R206) -/

/-- The task that a context sends: a PC, its `s0` to `s3`, its identity. -/
def State.taskOf (s : State) (pc : W64) (d : Nat) : Task :=
  let c := s.cur
  { pc, s0 := s.reg 0, s1 := s.reg 1, s2 := s.reg 2, s3 := s.reg 3, gid := s.gid, gen := c.gen, d, rid := 0, tenant := s.tenantOf s.here
    launch := c.lid, unit := c.unit.toNat, launchId := c.launch.toNat, o := c.o, e := c.e }

/-- The cores that a SPAWN offers its child to, in order (spec/02 R63); a coupled pair asks at the even core's coordinates (spec/08 R215). -/
def State.spawnCores (s : State) (b : W64) : List Nat :=
  if bit b 63 then
    let c := s.seenCore s.gid
    ((List.range (slice b 3 0 + 1)).flatMap fun r => ring (dieOf c) (idX c) (idY c) r).filter (s.inPartition (s.tenantOf s.here))
  else [slice b 31 0]
/-- A named core lies in the tenant's partition on the caller's die. -/
def State.spawnFits (s : State) (b : W64) : Bool :=
  bit b 63 || (s.inPartition (s.tenantOf s.here) (slice b 31 0) && dieOf (slice b 31 0) = dieOf s.here)

/-- SPAWN (R205). -/
def execSpawn (f : RegFmt) (s : State) : Result :=
  let srcs := nums (f.a :: regB f.b f.lit) ++ [0, 1, 2, 3]
  let a := s.reg f.a
  let b := s.opB f.b f.lit
  s.perform [s.chkAllot srcs, s.chkFull srcs, chkPc a, s.chkValue (s.spawnFits b)] fun s =>
    let m : SpawnMsg := { place := b, cores := s.spawnCores b, regs := s.cur.count, q := f.d.toNat % 8, task := s.taskOf a 0
                          next := s.cur.pc + wordOfNat s.sched.slot.len }
    (s.parkOn .placement).sendOut s.gid (.spawn m)

/-- CALLAT (R206): the destination register is marked empty at issue; the caller parks until the target answers. -/
def execCallat (f : RegFmt) (s : State) : Result :=
  let srcs := nums (f.a :: regB f.b f.lit) ++ [0, 1, 2, 3]
  let a := s.reg f.a
  let b := s.opB f.b f.lit
  s.perform [s.chkAllot (f.d.toNat :: srcs), s.chkFull srcs, chkPc a, s.chkValue (s.inPartition (s.tenantOf s.here) b.toNat), s.chkDest (nums [f.d])]
    fun s =>
      let t := s.taskOf a f.d.toNat
      ((s.markEmpty s.gid f.d.toNat).parkOn (.callat (s.cur.pc + wordOfNat s.sched.slot.len))).sendOut s.gid (.task b.toNat t)

/-! ### FORK (R207; spec/02 R66) -/

/-- FORK (R207). -/
def execFork (f : RegFmt) (s : State) : Result :=
  let srcs := nums (f.a :: regB f.b f.lit)
  let b := s.opB f.b f.lit
  let t := slice (s.reg f.a) 31 0
  let g := slice b 63 56
  let body := wordOfNat (slice b 51 0)
  let k := ceilDiv t g
  let cont := s.genericPc + wordOfNat s.sched.slot.len
  s.perform [s.chkAllot srcs, s.chkFull srcs, s.chkFull (if 2 ≤ k then [4, 5, 6, 7] else []), chkPc body, s.chkValue (g ≠ 0),
      s.chkDest (if t = 0 then [] else [0, 1, 2])] fun s =>
    if t = 0 then s.jump cont
    else if s.storing s.gid then s.awaitStores
    else (s.parkOn .placement).sendOut s.gid (.fork s.gid t (k - 1) body cont)

/-- A join handle of the form of Table 2.8. -/
def handleOk (a : W64) : Bool := slice a 63 56 = 0x3F && slice a 55 21 = 0 && slice a 20 16 < Config.dies && slice a 15 12 = 0

/-- JOIN (R208): CTR.ADD of 2^64 − 1 at the record's join counter, `.ar` at module scope. -/
def execJoin (f : RegFmt) (s : State) : Result :=
  let a := s.reg f.a
  s.perform [s.chkAllot (nums [f.a]), s.chkFull (nums [f.a]), Check.need (handleOk a) 0x04 a] fun s =>
    s.issueRequest .ctrAdd a (BitVec.allOnes 64) 0 0b11#2 5#4 (.join (slice a 20 16 * 4096 + slice a 11 0) s.word0)
      (some (slice a 20 16 * 4096 + slice a 11 0))

/-! ### Cancel (R209) -/

/-- The context parks until its die's launch unit has accepted the cancel. -/
def State.sendCancel (s : State) (ctr : W64) (unit : Option Nat) : State :=
  (s.parkOn (.cancel (s.cur.pc + wordOfNat s.sched.slot.len))).sendOut s.gid (.cancel s.gid s.cur.gen { tenant := s.tenantOf s.here, ctr, unit })
/-- CANCEL (R209): `a` names a counter word. -/
def execCancel (f : RegFmt) (s : State) : Result :=
  s.perform [s.chkAllot (nums [f.a]), s.chkFull (nums [f.a]), chkAddr (s.reg f.a) 8, s.chkPeer (s.reg f.a)] fun s => s.sendCancel (s.reg f.a) none
/-- CANCELU (R209). -/
def execCancelu (f : RegFmt) (s : State) : Result :=
  s.perform [s.chkAllot (nums (f.a :: regB f.b f.lit)), s.chkFull (nums (f.a :: regB f.b f.lit)), chkAddr (s.reg f.a) 8, s.chkPeer (s.reg f.a)] fun s =>
    s.sendCancel (s.reg f.a) (some (slice (s.opB f.b f.lit) 23 0))

end Sys2Proof.Machine
end

