-- ==== Sys2Proof/Machine/Stops.lean ====
section
/-!
DEFINITION. The trap queue as the firmware column reads it, gang stops, partition faults, refusals at the firewall, temperature
(spec/19 R380-R384, R387, R390).
-/

namespace Sys2Proof.Machine

open Sys2Proof

/-! ### The trap queue (R380, R381) -/

/-- The records that wait at a core are written while there is room; those without handler entry then wait no more. -/
def State.writePending (s : State) (core : Nat) : List PendingTrap → List PendingTrap → State
  | _, [] => s
  | before, p :: ps =>
    if p.written || !(s.die p.die).room p.trap.cls then s.writePending core (before ++ [p]) ps
    else
      let s := s.writeRecord p.die p.trap
      let keep : List PendingTrap := if p.trap.noEntry then [] else [{ p with written := true }]
      (s.updCore core fun k => { k with pending := before ++ keep ++ ps }).writePending core (before ++ keep) ps
/-- TRAP_RECORD_WRITE (R380): waiting records are written, and handlers are entered for those that are traps. -/
def execTrapRecordWrite (s : State) : Result :=
  let cores := (s.cpu.cores.filter fun k => k.2.pending ≠ []).map (·.1)
  .next (cores.foldl (fun s c =>
    let s := s.writePending c [] (s.core c).pending
    s.enterPending c (s.core c).pending.length) s)
/-- TRAP_QUEUE_READ (R380): the firmware column reads the oldest record, whose slot the slice decodes; it enters the column as a message of
class 5 (log 24). -/
def execTrapQueueRead (die : Nat) (s : State) : Result :=
  .next (
    if (s.die die).w = (s.die die).r then s
    else s.cross true 5 (trapSlot die (s.die die).r) fun s =>
      let s := (trapWords die (s.die die).r).foldl State.readStructure s
      let s := { s with fw := { s.fw with readRecord := (((s.die die).traps.head?).map TrapRec.slotWords).getD [] } }
      (s.updDie die fun d => { d with traps := d.traps.drop 1, r := d.r + 1 }).post .trapRecordWrite)
/-- FATALSTAT_WRITE (R381): a one clears OVF. -/
def execFatalstatWrite (die : Nat) (v : W64) (s : State) : Result :=
  .next (if bit v 63 then s.updDie die fun d => { d with fatal := d.fatal &&& ~~~(1#64 <<< 63) } else s)

/-! ### Gang stop (R382, R383) -/

/-- Something that an instruction of the stopped contexts has in flight is addressed to one of them. -/
def droppedBy (on : Nat → Bool) (ev : Instr) : Option Nat :=
  match ev with
  | .forwardedItem c (.fill ..) => if on c then some c else none
  | ev => match addressee ev with | some (g, _) => if on (coreOf g) then some (coreOf g) else none | none => none
/-- The requests of stopped contexts. -/
def Origin.ofCore (on : Nat → Bool) : Origin → Option Nat
  | .ctx g _ => if on (coreOf g) then some (coreOf g) else none
  | _ => none
/-- A lossy transfer is a part of an engine operation of the stopped cores. -/
def ofCores (on : Nat → Bool) (x : Lossy) : Bool := !x.head.notice.remote && on x.head.notice.core
/-- Operations that stop: they are gone, and their lines stay empty until a later operation fills them (log 19). -/
def State.stopOps (s : State) (on : Nat → Bool) (ops : List EngOp) : State :=
  let ids := ops.map (·.id)
  { s with
    eng := { s.eng with
      ops := s.eng.ops.filter (fun o => !ids.contains o.id), waitOpen := s.eng.waitOpen.filter fun o => !ids.contains o
      lossy := s.eng.lossy.filter fun x => !ofCores on x }
    cpu := { s.cpu with abEmpty := s.cpu.abEmpty.map fun (p : Nat × List Nat) => (p.1, p.2.map fun o => if ids.contains o then 0 else o) } }
/-- The routers of stopped cores are gone; the live routers that they exchanged rows with hear of it (spec/22 R428). -/
def State.stopRouters (s : State) (on : Nat → Bool) : State :=
  let gone := s.eng.streams.filter fun st => on st.core
  let s := { s with eng := { s.eng with streams := s.eng.streams.filter fun st => !on st.core } }
  gone.foldl (fun s st => st.neighbours.foldl (fun s e =>
    let x := st.entry e
    if x.phys ≠ s.fw.params.physid then s.emit (.memberDeath x.phys x.core st.vsn st.me)
    else if on x.core then s
    else s.post (.routerMemberDeath x.core st.vsn st.me)) s) s
/-- A die's gang-stop record (Table 19.5). The words that name a context are free (log 6). -/
def State.stopRecord (s : State) (tenant cause die : Nat) (cores : List Nat) : State :=
  let (r, s) := s.openRecord tenant 0x20
  let cyc := cores.map fun c => (s.core c).haltCyc.toNat
  let root := (s.core (cores.headD 0)).haltCyc - (s.core (cores.headD 0)).skew + Config.rootSkew die
  let sum (f : Core → Nat) : Nat := (cores.map fun c => f (s.core c)).sum
  s.bermRecord die { r with
    async := false, ctx := slice r.iter 3 0, unit := 0, launch := 0
    words := [root, wordOfNat (cyc.foldl min (cyc.headD 0)), wordOfNat (cyc.foldl max 0),
              wordOfNat (sum (·.dropped) % 2 ^ 32 * 2 ^ 32 + sum (·.withdrawn) % 2 ^ 32),
              wordOfNat (sum (·.stoppedOps) % 2 ^ 32 * 2 ^ 32 + cores.length), wordOfNat (cause % 256)] }

/-- The cores of a tenant stop (R383): what is on its way to them is dropped, their parked requests and their operations end. -/
def State.gangStop (s : State) (t : Tenant) : State :=
  let on (core : Nat) : Bool := s.tenantOf core = t.num
  let msgs := s.sched.agenda.filterMap fun p => droppedBy on p.ev
  let reqs := s.sluice.parked.filterMap fun p => Origin.ofCore on p.req.src
  let ops := s.eng.ops.filter fun o => on o.core
  let s := t.cores.foldl (fun s c => s.updCore c fun k => { k with
    halted := true, haltCyc := s.cyclesOf c, dropped := msgs.count c, withdrawn := reqs.count c, stoppedOps := ops.countP fun o => o.core = c }) s
  let live := s.cpu.ctxs.filter fun c => on (coreOf c.1) && c.2.mode ≠ .idle
  let s := live.foldl (fun s c => s.updCtx c.1 fun x => { x with mode := .stopped, stop := .none }) s
  let s := { s with sched := { s.sched with agenda := s.sched.agenda.filter fun p => (droppedBy on p.ev).isNone } }
  let s := ((s.withdrawAll fun p => (Origin.ofCore on p.req.src).isSome).withdrawAway fun r => (Origin.ofCore on r.src).isSome)
  (s.stopOps on ops).stopRouters on
/-- Each die's record, before the partition fault that ends the stop. -/
def State.stopRecords (s : State) (t : Tenant) (cause : Nat) : State :=
  ((List.range 24).filter fun d => t.clusters.any fun c => c / 544 = d).foldl (fun s d =>
    s.stopRecord t.num cause d (t.cores.filter fun c => dieOf c = d && (s.core c).halted)) s
/-- GANG_STOP (R382): a partition that is stopped already stays so. It ends in a partition fault. -/
def execGangStop (tenant cause _die : Nat) (s : State) : Result :=
  .next (match s.tenant? tenant with
    | none => s
    | some t =>
      if t.cores.any fun c => (s.core c).halted then s
      else (s.gangStop t).post (.partitionFault tenant cause))

/-! ### Partition faults (R384) -/

/-- A step in flight that is in-flight work of the partition. -/
def State.ofPartition (s : State) (tenant : Nat) (on : Nat → Bool) (ev : Instr) : Bool :=
  let src (r : Request) : Bool := match r.src with
    | .ctx g _ => on (coreOf g)
    | .op id => (s.op? id).isNone
    | .fwWait _ => r.tenant = tenant
    | _ => false
  let waited (w : FwWait) : Bool := match s.waitTenant w with | some t => t = tenant | none => true
  match ev with
  | .ringWordAccess _ => false
  | .gangStop t _ _ => t = tenant
  | .spawnRequest m => m.task.tenant = tenant
  | .callatTaskArrival _ t => t.tenant = tenant
  | .cancelAcceptance g _ _ | .parkedInstructionResume g | .checkedPairMismatch g => on (coreOf g)
  | .forwardedItem c _ | .taskStart c => on c
  | .placementPacket p => (match s.launch? p.lid with | some l => l.tenant = tenant | none => true)
  | .deposit { dest := some (.fwWait w), .. } => waited w
  | .firmwareCounterWaitGrant w => waited w
  | ev => (match requestOf ev with | some r => src r | none => false) || (match addressee ev with | some (g, _) => on (coreOf g) | none => false)

/-- Step 1: every context is reaped, and all in-flight work is gone. -/
def State.reapAll (s : State) (t : Tenant) : State :=
  let on (core : Nat) : Bool := s.tenantOf core = t.num
  let live := s.cpu.ctxs.filter fun c => on (coreOf c.1) && !isCtx0 c.1 && c.2.mode ≠ .idle
  let units := live.filterMap fun c => if c.2.work = .unit then (c.2.lid.bind s.launch?).map fun l => (dieOf (coreOf c.1), l) else none
  let s := units.foldl (fun s (x : Nat × Launch) => if x.2.rctr then s.advanceRetire x.1 x.2.tenant (x.2.lctr + 16) else s) s
  let s := live.foldl (fun s c =>
    { s.setCtx c.1 c.2.idled with cpu := { (s.setCtx c.1 c.2.idled).cpu with
        regEmpty := spFill false s.cpu.regEmpty (1024 * coreOf c.1 + c.2.base) false c.2.count } }) s
  let s := t.cores.foldl (fun s c => (s.setCtx (16 * c) (Ctx.rest (16 * c))).updCore c fun k => { Core.init with
    skew := k.skew, paired := k.paired, lbecc := k.lbecc, upsets := k.upsets, pending := k.pending.filter fun p => p.trap.noEntry }) s
  let s := s.dropWaiting fun p => match s.launch? p.lid with | some l => l.tenant = t.num | none => true
  let s := (s.dies.map (·.1)).foldl (fun s d => s.updDie d fun x => { x with
    joins := x.joins.filter (fun j => match j.2 with | some r => r.tenant ≠ t.num | none => false)
    evaluating := x.evaluating.filter fun e => e.1.tenant ≠ t.num }) s
  let s := s.withdrawAll fun p => (match p.req.src with
    | .ctx g _ => on (coreOf g)
    | .fwWait _ => p.req.tenant = t.num
    | _ => false)
  { s with
    eng := { s.eng with lossy := s.eng.lossy.filter fun x => !ofCores on x }
    sched := { s.sched with agenda := s.sched.agenda.filter fun p => !s.ofPartition t.num on p.ev } }

/-- PARTIAL and REAPED of an object that is cancelled with its members (Table 2.7): those that have not advanced, and those whose advance the
column has not taken yet, by its waits `ws`; the object has at most `n` levels. -/
def State.within (s : State) (ws : List FwWait) (tenant : Nat) : Nat → W64 → Bool × Bool
  | 0, _ => (false, false)
  | n + 1, ctr =>
    let ls := s.fw.launches.filter fun l => l.tenant = tenant && l.graph = ctr && (l.state ≠ .advanced || ws.contains (.launchOf l.lid ctr))
    let os := s.fw.objs.filter fun o => o.tenant = tenant && o.parent = ctr &&
      (!o.advanced || ws.contains (.graphOf tenant o.ctr ctr) || ws.contains (.phaseOf tenant o.ctr ctr))
    (ls.any (fun l => l.state ≠ .advanced || l.cancelled || l.partialDone) || os.any (fun o => !o.advanced || o.cancelled || o.partialDone),
     ls.any (·.reaped) || os.any fun o => o.reaped || (!o.advanced && (s.within ws tenant n o.ctr).2))
/-- Step 2: every incomplete launch, graph, phase and job advances its counter with CANCELLED = 1; how many there were. -/
def State.cancelAll (s : State) (t : Tenant) (ws : List FwWait) : State × Nat :=
  let ls := s.fw.launches.filter fun l => l.tenant = t.num && l.state ≠ .advanced
  let os := (s.fw.objs.filter fun o => o.tenant = t.num && !o.advanced).map fun o =>
    { o with cancelled := true, partialDone := o.partialDone || (s.within ws t.num 3 o.ctr).1, reaped := o.reaped || (s.within ws t.num 3 o.ctr).2 }
  let s := ls.foldl (fun s l => (s.updLaunch l.lid fun l => { l with state := .advanced, cancelled := true }).advanceCounter t.num l.lctr
    (statusWord l.retired l.partialDone l.reaped true)) s
  let s := os.foldl (fun s o =>
    (s.updObj t.num o.ctr fun _ => { o with advanced := true }).advanceCounter t.num o.ctr (statusWord 0 o.partialDone o.reaped true)) s
  (s, ls.length + os.length)

/-- PARTITION_FAULT (R384), after the records of the stop; context 0 of a core whose die is removed stays as after reset (R390). -/
def execPartitionFault (tenant cause : Nat) (s : State) : Result :=
  .next (match s.tenant? tenant with
    | none => s
    | some t =>
      let (s, n) := ((s.stopRecords t cause).reapAll t).cancelAll t s.waitsOf
      let s := (t.cores.filter s.coreUsable).foldl (fun s c => s.startSupervisor t.supervisor c) s
      s.event tenant 0x03 0 0 [wordOfNat cause, wordOfNat n])

/-! ### The firewall (spec/14 R318; R387) -/

/-- FIREWALL_REFUSAL (R387): a message that some rule admits passes. One of a tenant is a class 3 record; one of the firmware column goes to
every tenant as KIND 0x04. The model judges its own crossing messages where they cross (log 24). -/
def execFirewallRefusal (owner : Option Nat) (into : Bool) (cls dp : Nat) (s : State) : Result :=
  .next (
    if s.admits into cls dp then s
    else match owner with
      | some t => let (r, s) := s.openRecord t 0x13; s.fatalRecord 0 r
      | none => s.firewallDrop)

/-! ### Temperature (R390) -/

/-- A die passes 115 °C: it leaves every partition, each of which takes a class 3 record. -/
def State.overheat (s : State) (die celsius : Nat) : State :=
  let hit := s.fw.tenants.filter fun t => t.clusters.any fun c => c / 544 = die
  let s := s.updDie die fun d => { d with removedHeat := true }
  hit.foldl (fun s t =>
    let (r, s) := s.openRecord t.num 0x14
    (s.fatalRecord die r).event t.num 0x08 0 0 [wordOfNat die, wordOfNat celsius]) s
/-- A removed die returns to a tenant's partition: context 0 of its cores starts, where a partition fault has not started it. -/
def State.takeBackDie (s : State) (t : Tenant) (die : Nat) : State :=
  (t.cores.filter fun c => dieOf c = die && (s.ctx (16 * c)).park = .firmware).foldl (fun s c => s.startSupervisor t.supervisor c) s
/-- THERMAL_EVENT (R390). -/
def execThermalEvent (die celsius : Nat) (s : State) : Result :=
  .next (
    if celsius < 95 then
      let back := (s.die die).removedHeat
      let s := s.updDie die fun d => { d with gatedHeat := false, removedHeat := false }
      if back then (s.fw.tenants.foldl (fun s t => s.takeBackDie t die) s).post (.placementRetry die) else s
    else
      let s := if 100 < celsius then s.updDie die fun d => { d with gatedHeat := true } else s
      if 115 < celsius && !(s.die die).removedHeat then s.overheat die celsius else s)

end Sys2Proof.Machine
end

