-- ==== Sys2Proof/Machine/Fabric.lean ====
section
/-!
DEFINITION. Requests to and from other modules, and dead peers (spec/15 R330-R334; spec/22 R424-R426; log 22).
-/

namespace Sys2Proof.Machine

open Sys2Proof

/-! ### Out and in (spec/15 R330, R333) -/

/-- The step is in flight already. -/
def State.inFlight (s : State) (ev : Instr) : Bool := s.sched.agenda.any fun p => p.ev = ev
/-- The stations probe from now on (R425). -/
def State.startProbes (s : State) : State := if s.inFlight .peerProbe then s else s.postIn (s.fw.params.peertmo / 4) .peerProbe
/-- A request leaves by its station, which awaits the reply of one that has a reply; one that its requester has taken back on the way is
withdrawn behind it (spec/02 R58). -/
def State.leave (s : State) (r : Request) (phys : Nat) : State :=
  let st := s.stationFor r.va
  let s := s.emit (.request st phys r)
  match r.src with
  | .silent | .withdrawal => s
  | _ =>
    if r.kind.parks && s.takenBack r then (s.emit (.withdraw st phys r)).countWithdrawn r
    else
      let s := if r.kind.parks then s.startProbes else s
      { s with fab := { s.fab with waiting := s.fab.waiting ++ [(s.sched.now, phys, r)] } }.postIn s.fw.params.peertmo .peerTimeout
/-- A request finds no live module behind its address, or behind the forwarding word that sent it there (spec/04 R116). -/
def State.noPeer (s : State) (r : Request) : State := s.post (.faultReply r 0x0C (r.via.getD r.va))
/-- A tier prefetch of another module (spec/11 R278): answered when every page it names is near or cannot be made near. -/
def State.prefTierFor (s : State) (r : Request) (q : Requester) (pages : Nat) : State :=
  match s.prefPages (stationDie q.station) r.tenant (localAddr r.va) pages with
  | (s, .error a) => s.emit (.refusal q 0x08 a)
  | (s, .ok ps) =>
    match s.promoteAll ps with
    | (s, 0) => s.emit (.reply q 0 true)
    | (s, _) => s.postIn 1 (.stationHandoff r)
/-- STATION_HANDOFF (R333): the request is translated by the tenant's remap table as it stands now. A tier prefetch for another module is looked
at again. -/
def execStationHandoff (r : Request) (s : State) : Result :=
  .next (match r.kind, r.src with
    | .prefTier pages, .remote q => s.prefTierFor r q pages
    | _, _ =>
      match s.served r.tenant r.va with
      | .here => s.post (.translationLookup r)
      | .peer p => s.leave r p
      | .dead => s.noPeer r)

/-- A requester in another module takes its parked request back, or keeps it from parking, here or in the module that a forwarding word has sent
it to (spec/02 R58, spec/19 R383). -/
def State.takeBack (s : State) (q : Requester) : State :=
  let s := (s.withdrawAll fun p => p.req.src = .remote q).withdrawAway fun r => r.src = .remote q
  { s with sluice := { s.sluice with takenBack := q :: s.sluice.takenBack } }
/-- Words read as an engine reads them, none for a poisoned one. -/
def State.engineWords (s : State) (die tenant : Nat) (va : W64) : Nat → State × Except (Nat × W64) (List (Option W64))
  | 0 => (s, .ok [])
  | n + 1 =>
    match s.engineRead die tenant va with
    | (s, .error sw) => (s, .error (sw, va))
    | (s, .ok (v, poison)) =>
      match s.engineWords die tenant (va + 8) n with
      | (s, .error e) => (s, .error e)
      | (s, .ok vs) => (s, .ok ((if poison then none else some v) :: vs))
/-- Blocks that another module asks for in the lossy class are read reliably and sent (spec/15 R344, R345). -/
def State.blocksFor (s : State) (r : Request) (q : Requester) (h : LossyHead) (xfer : Nat) : State :=
  match s.engineWords (stationDie q.station) r.tenant (localAddr r.va) (32 * h.blocks) with
  | (s, .error (sw, a)) => s.emit (.refusal q (if sw = 0x22 then 0x09 else 0x08) a)
  | (s, .ok ws) => s.sendBlocks h.copier h xfer ws
/-- A request from another module at the die of a station: never translated by the remap table again (R333); the model numbers it anew. -/
def State.enter (s : State) (r : Request) (st : Nat) : State :=
  let (rid, s) := s.newRid
  s.post (.translationLookup { r with va := localAddr r.va, dp := 0, join := none, die := stationDie st, early := false, fence := false, rid })
/-- FABRIC_REQUEST_IN (R330): of a requester that is named to have its reply, or a notice that has none. -/
def execFabricRequestIn (r : Request) (s : State) : Result :=
  .next (match r.src with
    | .remote q =>
      if s.fab.stationDown.contains q.station then s
      else match r.kind with
        | .withdraw => s.takeBack q
        | .prefTier pages => s.prefTierFor r q pages
        | .lossyFetch h xfer => s.blocksFor r q h xfer
        | _ => s.enter r q.station
    | .silent => s.enter r (s.stationFor r.va)
    | _ => s)

/-! ### Dead peers (R424, R425) -/

/-- The tenants whose remap tables name a peer. -/
def State.naming (s : State) (phys : Nat) : List Tenant := s.fw.tenants.filter fun t => t.remap.any fun e => remapPhys e.2 = some phys
def State.setDpmap (s : State) (k : Nat) (f : W64 → W64) : State :=
  { s with fw := { s.fw with dpmap := s.fw.dpmap.set k (f (s.fw.dpmap.getD k 0)) } }
/-- An operation waits for another module. -/
def EngOp.awaitsPeer (o : EngOp) : Bool := match o.state with | .remote _ | .handedOver | .promoting _ => true | _ => false
/-- A peer is marked dead: its requests get fault replies, operations with an end there stop, routers and tenants hear of it. -/
def State.markDead (s : State) (phys : Nat) : State :=
  let gone := s.fab.waiting.filter fun w => w.2.1 = phys
  let ops := s.fab.opPeers.filter fun x => x.2.2.1 = phys
  let s := s.setDpmap (phys / 64) fun v => v ||| (1#64 <<< (phys % 64))
  let s := { s with fab := { s.fab with
    waiting := s.fab.waiting.filter fun w => w.2.1 ≠ phys
    opPeers := s.fab.opPeers.filter fun x => x.2.2.1 ≠ phys
    probes := s.fab.probes.filter fun p => p.2 ≠ phys } }
  let s := s.postAll (gone.map fun w => .faultReply w.2.2 0x0C w.2.2.va)
  let s := ops.foldl (fun s x => match s.op? x.2.1 with
    | some o => if o.awaitsPeer then s.failOp o 0x52 x.2.2.2 else s
    | none => s) s
  let s := s.eng.streams.foldl (fun s st =>
    s.postAll ((st.neighbours.filter fun e => (st.entry e).phys = phys).map fun e => .routerMemberDeath st.core st.vsn e)) s
  let s := (s.naming phys).foldl (fun s t => s.event t.num 0x0A 0 0 [wordOfNat phys]) s
  s.settle.startProbes
/-- The peers whose reply, or whose answer to a probe, is overdue. A request that may be parked there is judged by probes. -/
def State.overduePeers (s : State) : List Nat :=
  let late (t : Nat) : Bool := t + s.fw.params.peertmo ≤ s.sched.now
  let waitsFor (id : Nat) : Bool := match s.op? id with | some o => o.awaitsPeer | none => false
  (((s.fab.waiting.filter fun w => late w.1 && !w.2.2.kind.parks).map (·.2.1)) ++
    ((s.fab.opPeers.filter fun x => late x.1 && waitsFor x.2.1).map (·.2.2.1)) ++ (s.fab.probes.filter fun p => late p.1).map (·.2)).eraseDups.filter
    fun p => !s.peerDead p
/-- PEER_TIMEOUT (R425). -/
def execPeerTimeout (s : State) : Result := .next (s.overduePeers.foldl State.markDead s)
/-- The peers that are probed: those where a request may be parked, and those marked dead. -/
def State.probed (s : State) : List Nat :=
  (((s.fab.waiting.filter fun w => w.2.2.kind.parks).map (·.2.1)) ++ (List.range 1024).filter s.peerDead).eraseDups
/-- One probe; its answer is due within PEERTMO. -/
def State.probe (s : State) (phys : Nat) : State :=
  let st := ((s.fab.waiting.find? fun w => w.2.1 = phys).map fun w => s.stationFor w.2.2.va).getD (s.stationFor 0)
  let s := s.emit (.probe st phys)
  if s.peerDead phys then s
  else { s with fab := { s.fab with probes := s.fab.probes ++ [(s.sched.now, phys)] } }.postIn s.fw.params.peertmo .peerTimeout
/-- PEER_PROBE (R425): taken again every PEERTMO ÷ 4 cycles while there is a peer to probe. -/
def execPeerProbe (s : State) : Result :=
  let ps := s.probed
  let s := ps.foldl State.probe s
  .next (if ps = [] then s else s.startProbes)
/-- PEER_PROBE_ANSWER (R425): a dead peer is dead no longer. -/
def execPeerProbeAnswer (phys : Nat) (s : State) : Result :=
  let s := { s with fab := { s.fab with probes := s.fab.probes.filter fun p => p.2 ≠ phys } }
  .next (
    if s.peerDead phys then
      let s := s.setDpmap (phys / 64) fun v => v &&& ~~~(1#64 <<< (phys % 64))
      (s.naming phys).foldl (fun s t => s.event t.num 0x0B 0 0 [wordOfNat phys]) s
    else s)
/-- DPMAP_WRITE (R424): a one clears its bit. -/
def execDpmapWrite (k : Nat) (v : W64) (s : State) : Result := .next (s.setDpmap k fun old => old &&& ~~~v)

end Sys2Proof.Machine
end

