-- ==== Sys2Proof/Machine/Migration.lean ====
section
/-!
DEFINITION. Live migration and forwarding (spec/02 R69-R74; spec/10 R262; spec/11 R277, R282; spec/15 R343; spec/19 R379; spec/22 R431;
log 21).
-/

namespace Sys2Proof.Machine

open Sys2Proof

/-! ### What is still owed to state that has moved (R72) -/

/-- A step in flight that ends at an incarnation that moved from the core. -/
def owesStep (owed : Nat → Nat → Bool) (core : Nat) (ev : Instr) : Bool :=
  (match addressee ev with | some (g, n) => owed g n | none => false) ||
  (match requestOf ev with | some r => (match r.src with | .ctx g n => owed g n | _ => false) | none => false) ||
  (match ev with
    | .spawnRequest m => owed m.task.gid m.task.gen
    | .callatTaskArrival _ t => owed t.gid t.gen
    | .cancelAcceptance g n _ => owed g n
    | .ringWordAccess ra => (match ra.req.src with | .ctx g n => owed g n | _ => false)
    | .forwardedItem c _ => c = core
    | _ => false)
/-- Something is still owed by way of a core's entry; a core whose router holds open entries keeps it (spec/15 R343). -/
def State.owes (s : State) (core : Nat) (f : Forward) : Bool :=
  let owed (g n : Nat) : Bool := coreOf g = core && f.has n
  let task (t : Task) : Bool := owed t.gid t.gen
  f.held ≠ [] || s.sched.agenda.any (fun p => owesStep owed core p.ev) ||
    s.sluice.parked.any (fun p => match p.req.src with | .ctx g n => owed g n | _ => false) ||
    s.fab.waiting.any (fun w => match w.2.2.src with | .ctx g n => owed g n | _ => false) ||
    s.eng.ops.any (fun o => f.owedOps.contains o.id) || s.eng.streams.any (fun st => st.core = core && !st.broken) ||
    s.cpu.ctxs.any (fun c => match c.2.work with | .task g n _ => owed g n | _ => false) ||
    s.cpu.cores.any fun k => k.2.tasks.any task || k.2.callers.any task || (match k.2.fwd with | some x => x.dst = core | none => false)
/-- The entry is dropped once nothing is owed, and the core returns to service. -/
def State.dropEntry (s : State) (core : Nat) : State :=
  match (s.core core).fwd with
  | none => s
  | some f =>
    if !f.installed || s.owes core f then s
    else ((s.updCore core fun k => { k with fwd := none }).post (.placementRetry (dieOf core))).post (.taskStart core)

/-! ### Start (R69, R70) -/

/-- The cores of a move: one, or both of an even/odd pair. -/
def State.moveCores (s : State) (src dst : Nat) : List (Nat × Nat) :=
  if (s.core src).paired then [(src, dst), (src + 1, dst + 1)] else [(src, dst)]
/-- Contexts 1 to 15 of the destination are Idle. -/
def State.landingFree (s : State) (dst : Nat) : Bool := (s.idleCtxs dst).length = 15
/-- The firmware column may begin the move. -/
def State.mayMove (s : State) (src dst : Nat) : Bool :=
  let pair := (s.core src).paired
  src ≠ dst && s.tenantOf src < 16 && s.tenantOf dst = s.tenantOf src && s.coreUsable dst &&
    (!pair || (idX src % 2 = 0 && idX dst % 2 = 0)) && (pair || !(s.core dst).paired) &&
    (s.moveCores src dst).all fun p =>
      s.landingFree p.2 && (s.core p.1).fwd.isNone && (s.core p.2).fwd.isNone && !s.receives p.1 && !s.receives p.2 && !(s.core p.1).halted &&
        !(s.core p.2).halted && !(s.ctx (16 * p.1)).inh && (s.core p.1).pending.all fun t => t.trap.noEntry
/-- The contexts of a core that move. -/
def State.movers (s : State) (core : Nat) : List Nat := ((List.range' 1 15).map (16 * core + ·)).filter fun g => (s.ctx g).mode ≠ .idle
/-- The contexts stop at an instruction boundary, and the source sets up its forwarding entry. -/
def State.depart (s : State) (src dst : Nat) : State :=
  let gs := s.movers src
  let moved := gs.map fun g => ((s.ctx g).gen, g, 16 * dst + ctxNo g, (s.ctx g).mode)
  let s := gs.foldl (fun s g => s.updCtx g fun c => { c with mode := .inTransit }) s
  s.updCore src fun k => { k with fwd := some { dst, installed := false, moved, owedOps := [], held := [] } }
/-- The step that looks at the entries is in flight. -/
def State.watch (s : State) : State :=
  if s.sched.agenda.any fun p => p.ev = .migrationInstalled then s else s.postIn 16 .migrationInstalled
/-- MIGRATION_START (R69). -/
def execMigrationStart (src dst : Nat) (s : State) : Result :=
  .next (if s.mayMove src dst then ((s.moveCores src dst).foldl (fun s p => s.depart p.1 p.2) s).watch else s)

/-! ### Capture and installation (R69, R70, R73) -/

/-- An operation that still reads the core's AB or runs on its tiles (spec/10 R262, spec/11 R282). -/
def readsCore (o : EngOp) : Bool :=
  match o.work with
  | .mzero .. | .mma .. => true
  | .drain .. => o.state ≠ .half
  | .copy _ _ (.ab _) .. => (match o.state with | .issued | .remote 0 | .promoting _ => true | _ => false)
  | .layout _ (.ab _) .. => true
  | _ => false
/-- The operations of a coupled core that have not left it: their messages await their partners (spec/19 R385). -/
def State.unsentOps (s : State) (core : Nat) : List Nat :=
  (s.core core).pairOut.filterMap fun x => match x.2.2 with | .engine _ op => some op | _ => none
/-- The state can be captured: every operation that reads it, and does not move with it, has read it. -/
def State.capturable (s : State) (core : Nat) : Bool :=
  !s.eng.ops.any fun o => o.abCore = core && readsCore o && !(s.unsentOps core).contains o.id
/-- A message that has not left its core leaves from the core that the state has moved to. -/
def landedMsg (core : Nat) : Outbound → Outbound
  | .request r => .request (match r.src with
    | .ctx g n => { r with src := .ctx (16 * core + ctxNo g) n, core, die := dieOf core }
    | _ => r)
  | .spawn m => .spawn { m with task := { m.task with gid := 16 * core + ctxNo m.task.gid } }
  | .task c t => .task c { t with gid := 16 * core + ctxNo t.gid }
  | .cancel g n c => .cancel (16 * core + ctxNo g) n c
  | .fork g t want body cont => .fork (16 * core + ctxNo g) t want body cont
  | .engine g op => .engine (16 * core + ctxNo g) op
  | .result m => .result m
/-- A stretch of a sparse store goes to another place. -/
def moveSpan {α : Type} [DecidableEq α] (dflt : α) (m : Sparse α) (src dst n : Nat) : Sparse α :=
  spFill dflt (spSetList dflt m dst (spGetList dflt m src n)) src dflt n
/-- A park on a register of the source names the destination's. -/
def landedPark (oldBase newBase : Nat) : Park → Park
  | .register k => .register (k - oldBase + newBase)
  | p => p
/-- The state in which a context resumes: one whose event has come in the meantime is Ready. -/
def landedMode (m : Mode) (p : Park) : Mode := if m = .parked && p = .nothing then .ready else m
/-- A block of registers moves with its full/empty bits. -/
def State.moveRegs (s : State) (k k' n : Nat) : State :=
  { s with cpu := { s.cpu with regs := moveSpan 0 s.cpu.regs k k' n, regEmpty := moveSpan false s.cpu.regEmpty k k' n } }
/-- The AB with its lines, the CB, and the PS windows of contexts 1 to 15 move. -/
def State.moveBuffers (s : State) (src dst : Nat) : State :=
  { s with cpu := { s.cpu with
    ab := moveSpan 0 s.cpu.ab (24576 * src) (24576 * dst) 24576
    abEmpty := moveSpan [] s.cpu.abEmpty (192 * src) (192 * dst) 192
    ps := moveSpan 0 s.cpu.ps (8192 * src + 512) (8192 * dst + 512) 7680
    tiles := moveSpan Tile.init s.cpu.tiles (2 * src) (2 * dst) 2 } }
/-- One context moves with its registers (spec/02 R47, R70). -/
def State.moveCtx (s : State) (src dst : Nat) (mode : Mode) : State :=
  let c := s.ctx src
  let b := (lowestBase (s.blocks (coreOf dst)) c.count).getD c.base
  let k := 1024 * coreOf src + c.base
  let k' := 1024 * coreOf dst + b
  let s := ((s.moveRegs k k' c.count).setCtx src (Ctx.rest src)).setCtx dst { c with
    mode := landedMode mode c.park, park := landedPark k k' c.park, base := b, limit := b + c.count }
  ((s.post (.parkedInstructionResume dst)).fireGranted dst)
/-- The number of an operation's context after the move. -/
def movedGid (f : Forward) (o : EngOp) : Nat := (f.now o.gen).getD o.gid
/-- The AB with its lines, the CB, the PS of contexts 1 to 15, the task queue, the pending triggers and what has not left the core move. Tasks
that CALLATs have queued at the destination in the meantime stand before those that come, and the queue may then hold more than 16 (log 40). -/
def State.moveCore (s : State) (src : Nat) (f : Forward) : State :=
  let dst := f.dst
  let unsent := s.unsentOps src
  let s : State := { s.moveBuffers src dst with
    eng := { s.eng with ops := s.eng.ops.map fun (o : EngOp) =>
      { o with gid := movedGid f o, core := if unsent.contains o.id then dst else o.core
               abCore := if o.abCore = src && (o.pending || unsent.contains o.id) then dst else o.abCore
               got := match o.work with
                 | .collPut _ off len => if o.abCore = src && o.got.isNone then some (s.putRows o off len) else o.got
                 | _ => o.got } } }
  let k := s.core src
  let out := k.pairOut.map fun x => (x.1, x.2.1, landedMsg dst x.2.2)
  let s := (s.updCore dst fun d => { d with tasks := d.tasks ++ k.tasks, callers := d.callers ++ k.callers, pairOut := out, paired := k.paired }).updCore
    src fun d => { d with tasks := [], callers := [], pairOut := [] }
  f.moved.foldl (fun s m => s.moveCtx m.2.1 m.2.2.1 m.2.2.2) s
/-- The operations that fill an AB which has moved, by way of this entry. -/
def State.fillersOf (s : State) (core : Nat) : List Nat :=
  ((s.eng.ops.filter fun o => o.abCore = core && !o.pending && !(s.unsentOps core).contains o.id && (o.lines ≠ [] || isGet o.work)).map (·.id)) ++
    s.cpu.cores.flatMap fun k => match k.2.fwd with | some f => if f.dst = core && f.installed then f.owedOps else [] | none => []
/-- Items held at a core are applied from now on, before any that come later, in the order of their arrival, each at its own time (R49). -/
def State.postHeld (s : State) (core : Nat) (held : List Item) : State :=
  { s with sched := { s.sched with agenda := held.map (fun i => { due := s.sched.now, ev := .forwardedItem core i }) ++ s.sched.agenda } }
/-- The state of one core is installed. -/
def State.install (s : State) (src : Nat) : State :=
  match (s.core src).fwd with
  | none => s
  | some f =>
    let fills := s.fillersOf src
    ((s.moveCore src f).updCore src fun k => { k with fwd := some { f with installed := true, owedOps := fills, held := [] } }).postHeld src f.held

/-! ### Items (R72, R73) -/

/-- An item for an incarnation, at a context: as if it had arrived there. -/
def State.itemAt (s : State) (gid gen : Nat) (item : Item) : State :=
  match item with
  | .reply m => s.takeDeposit gid m
  | .ack r => s.toContext gid gen item fun s => s.takeAck gid r
  | .fault r cause addr => s.toContext gid gen item fun s => s.takeFault gid gen r cause addr
  | .late r => s.toContext gid gen item fun s => s.takeLate gid r
  | _ => s
/-- Rows for an AB line reach the destination; the last ones end the operation. -/
def State.fillAtDst (s : State) (dst op line : Nat) (data : List (Nat × Byte)) (last : Bool) : State :=
  match s.op? op with
  | none => s
  | some o =>
    let s := data.foldl (fun s d => s.writeAb dst d.1 [d.2]) s
    let ended : Bool := match data.getLast? with | some d => (d.1 + 1) % (if isLossyGet o.work then 256 else 128) = 0 | none => false
    let lines := if isLossyGet o.work then [line - 1, line] else [line]
    let s := if isGet o.work && ended then (s.bothCores dst).foldl (fun s c => lines.foldl (fun s l => s.releaseLine c op l) s) s else s
    if !last then s
    else
      let s := s.updOp op fun o => { o with abCore := dst }
      let o := { o with abCore := dst }
      if isGet o.work then s.finishGet op
      else match o.binding with
        | .refused _ => s.endOp o
        | _ => s.finishOp o
/-- One item goes on to the destination. -/
def State.forward (s : State) (f : Forward) (item : Item) : State :=
  let to_ (gen : Nat) (s : State) : State := match f.now gen with | some g => s.itemAt g gen item | none => s
  match item with
  | .reply m => to_ m.gen s
  | .ack r | .fault r _ _ | .late r => (match r.src with | .ctx _ n => to_ n s | _ => s)
  | .fill op line data last =>
    (match (s.core f.dst).fwd with
    | some x => if x.installed && x.owedOps.contains op then s.post (.forwardedItem f.dst item) else s.fillAtDst f.dst op line data last
    | none => s.fillAtDst f.dst op line data last)
  | .task t =>
    if s.launchCancelled t.launch then s
    else if (s.core f.dst).fwd.isSome then s.post (.forwardedItem f.dst item)
    else if (s.core f.dst).halted then s
    else s.queueTask f.dst t
  | .slotFree gid gen => s.resend gid gen
/-- An item for a core whose move was abandoned, and which stays where it is. -/
def State.applyHere (s : State) (core : Nat) (item : Item) : State :=
  match item with
  | .reply m => s.itemAt m.gid m.gen item
  | .ack r | .fault r _ _ | .late r => (match r.src with | .ctx g n => s.itemAt g n item | _ => s)
  | .fill op line data last => s.fillAtDst core op line data last
  | .task t => if s.launchCancelled t.launch then s else s.queueTask core t
  | .slotFree gid gen => s.resend gid gen
/-- FORWARDED_ITEM (R72): held until the state is installed, then redirected as it arrives. -/
def execForwardedItem (core : Nat) (item : Item) (s : State) : Result :=
  .next (match (s.core core).fwd with
    | none => s.applyHere core item
    | some f =>
      if f.installed then (s.forward f item).dropEntry core
      else s.updCore core fun k => { k with fwd := some { f with held := f.held ++ [item] } })

/-- The cores that leave together: one, or both of a pair that has not left yet. -/
def State.sources (s : State) (src : Nat) : List Nat :=
  match (s.core src).fwd with
  | some f => if !f.installed then s.bothCores src else [src]
  | none => [src]
/-- One source is looked at: once its state can be captured and the destination is still free, the state is installed and the items
held follow; an entry by which nothing is owed any more is dropped. -/
def State.lookAt (s : State) (src : Nat) : State :=
  match (s.core src).fwd with
  | none => s
  | some f =>
    let cs := s.sources src
    if f.installed then s.dropEntry src
    else if cs.all fun c => s.capturable c && (match (s.core c).fwd with | some f => s.landingFree f.dst | none => true) then
      (cs.foldl State.install s).post (.taskStart f.dst)
    else s
/-- MIGRATION_INSTALLED (R73): taken again as long as a core holds a forwarding entry. -/
def execMigrationInstalled (s : State) : Result :=
  let s := ((s.cpu.cores.filter fun k => k.2.fwd.isSome).map (·.1)).foldl State.lookAt s
  .next (if s.cpu.cores.any fun k => k.2.fwd.isSome then s.watch else s)

/-- A context goes on at the source. -/
def State.goBack (s : State) (m : Nat × Nat × Nat × Mode) : State :=
  let c := s.ctx m.2.1
  ((s.setCtx m.2.1 { c with mode := landedMode m.2.2.2 c.park }).post (.parkedInstructionResume m.2.1)).fireGranted m.2.1
/-- The source of a move that has not been reported resumes its contexts and applies the items held. -/
def State.abandonMigration (s : State) (src : Nat) : State :=
  (s.sources src).foldl (fun s c =>
    match (s.core c).fwd with
    | none => s
    | some f =>
      if f.installed then s
      else
        let s := f.moved.foldl State.goBack (s.updCore c fun k => { k with fwd := none })
        ((s.postHeld c f.held).post (.taskStart c)).post (.placementRetry (dieOf c))) s
/-- MIGRATION_ABANDON (R431). -/
def execMigrationAbandon (src : Nat) (s : State) : Result := .next (s.abandonMigration src)

end Sys2Proof.Machine
end

