-- ==== Sys2Proof/Machine/Devices.lean ====
section
/-!
DEFINITION. The registers that only the firmware column reaches, power, and errors in local arrays (spec/00 R8, R10; spec/16 R361; spec/21
R406, R407, R412, R417; spec/22 R431, R432; log 24).
-/

namespace Sys2Proof.Machine

open Sys2Proof

/-! ### Power (spec/16 R361) -/

/-- POWER_MEASUREMENT: the cores of the most loaded dies leave rotations unissued while the power exceeds the cap. -/
def execPowerMeasurement (watts : Nat) (loaded : List Nat) (s : State) : Result :=
  let cap := s.fw.params.powercap
  .next (
    if cap < watts then loaded.foldl (fun s d => s.updDie d fun x => { x with gatedPower := true }) s
    else if watts < cap then (s.dies.map (·.1)).foldl (fun s d => s.updDie d fun x => { x with gatedPower := false }) s
    else s)

/-! ### Counters of the memory system (spec/21 R406, R407, R412) -/

/-- The count of a bank has risen by more than RETTHR: a frame of it is retired, its page moved off first. -/
def State.retireInBank (s : State) (die bank n : Nat) : State :=
  let f := (dpPage die 0, false, Config.bankFrame die bank n % Config.nearFrames)
  let s := { s with fw := { s.fw with lastRetire := spSet 0 s.fw.lastRetire (4096 * die + bank) n } }
  if s.mem.failing.contains f then s else { s with mem := { s.mem with failing := s.mem.failing ++ [f] } }.post .frameRetirement
/-- STKSCRUB_WRITE (R406): the register shows the bank's count, which the memory manager compares. -/
def execStkscrubWrite (die bank : Nat) (s : State) : Result :=
  let b := bank % 4096
  let n := spGet 0 s.mem.stkCounts (4096 * die + b)
  let s := { s with
    mem := { s.mem with stkBank := spSet 0 s.mem.stkBank die b }
    fw := { s.fw with readData := wordOfNat (n % 2 ^ 32 * 2 ^ 16 + b) } }
  .next (if s.fw.params.retthr < n - spGet 0 s.fw.lastRetire (4096 * die + b) then s.retireInBank die b n else s)
/-- SLECC_READ (R407): returned and cleared. -/
def execSleccRead (slice : Nat) (s : State) : Result :=
  let c := spGet (0, 0) s.mem.slecc slice
  .next { s with
    mem := { s.mem with slecc := spSet (0, 0) s.mem.slecc slice (0, 0) }
    fw := { s.fw with readData := wordOfNat (c.1 * 2 ^ 32 + c.2 * 2 ^ 16) } }
/-- LBECC_READ (R407): CECNT saturates at its 32 bits (Table 21.3). -/
def execLbeccRead (core : Nat) (s : State) : Result :=
  let n := (s.core core).lbecc
  .next { s.updCore core (fun k => { k with lbecc := 0 }) with fw := { s.fw with readData := wordOfNat (min n (2 ^ 32 - 1)) } }
/-- SPSTAT_READ (spec/22 R432): the counts are cleared, LAST stays. -/
def execSpstatRead (die : Nat) (s : State) : Result :=
  let d := s.die die
  .next { s.updDie die (fun d => { d with spFalls := 0, spKept := 0 }) with
          fw := { s.fw with readData := wordOfNat (d.spLast.toNat * 2 ^ 61 + d.spFalls % 2 ^ 16 * 2 ^ 32 + d.spKept % 2 ^ 32) } }

/-! ### Local arrays (spec/21 R417) -/

/-- The source of a move whose destination the core is, before the destination has reported it. -/
def State.landingAt (s : State) (core : Nat) : Option Nat :=
  (s.cpu.cores.find? fun k => match k.2.fwd with | some f => !f.installed && f.dst = core | none => false).map (·.1)
/-- An uncorrectable error in a core's arrays: a class 3 record, cause 0x12, for the partition that owns the core; of a core that state is still on
its way to, the firmware column abandons the migration, and the source resumes (spec/22 R431). -/
def State.arrayFault (s : State) (core : Nat) : State :=
  match s.landingAt core with
  | some src => s.abandonMigration src
  | none =>
    let (r, s) := s.openRecord (s.tenantOf core) 0x12
    s.fatalRecord (dieOf core) { r with core, cyc := s.cyclesOf core }

/-- The same in a cluster's WB: the partition that owns the cluster's cores. -/
def State.wbFault (s : State) (cl : Nat) : State :=
  let (r, s) := s.openRecord (s.tenantOf ((coresOfCluster cl).headD 0)) 0x12
  s.fatalRecord (cl / 544) r
/-- LOCAL_ARRAY_UNCORRECTABLE (R417). -/
def execLocalArrayUncorrectable (a : LocalArray) (s : State) : Result :=
  .next (match a with
    | .icache cl dp => { s with mem := { s.mem with icache := s.mem.icache.filter fun e => !(e.cluster = cl && e.dp = dp) } }
    | .core core => s.arrayFault core
    | .wb cl => s.wbFault cl
    | .specLookup die entry => s.updDie die fun d => { d with spec := d.spec.filter (fun e => e.index ≠ entry) }
    | .specFetch gid =>
      let c := s.ctx gid
      let (o, it) := s.origin c.pc
      let core := coreOf gid
      s.fatalRecord (dieOf core) { TrapRec.blank with
        tenant := s.tenantOf core, ctx := ctxNo gid, cls := 3, async := false, cause := 0x12, core, pc := c.pc, orig := o, iter := it
        unit := c.unit.toNat, launch := c.launch.toNat, cyc := s.cyclesOf core, sstat := c.flags.toNat, gen := c.gen })

/-! ### Registers without a row of their own (spec/00 R8, R10) -/

/-- The writable bits of a format-window word (spec/03 Table 3.8), and the window with a word set. -/
def FWin.write (w : FWin) (word : Nat) (v : W64) : FWin :=
  match word with
  | 0 => { w with fwa := v &&& (bitsOf 63 60 ||| bitsOf 51 16 ||| bitsOf 0 0) }
  | 1 => { w with fwb := v &&& bitsOf 51 16 }
  | _ => { w with fws := v &&& bitsOf 51 3 }
/-- A remap entry is written within the table's 1,024, only while the firmware column carries out a mapping command of the tenant (spec/15 R331),
and only where the table keeps to R332. -/
def State.writeRemap (s : State) (tenant index : Nat) (v : W64) : State :=
  match s.tenant? tenant with
  | none => s
  | some t =>
    let new := spSet 0 t.remap index (remapFields v)
    let mapping : Bool := s.fw.serving && s.fw.command.tenant = tenant && [0x10, 0x11, 0x12, 0x13, 0x14, 0x15].contains (cmdOf s.fw.command)
    if mapping && index < 1024 && remapOk new s.fw.params.physid then s.updTenant tenant fun t => { t with remap := new } else s
/-- REGISTER_WRITE (R8): the writable fields are set, reserved bits ignored. -/
def execRegisterWrite (reg : DevReg) (v : W64) (s : State) : Result :=
  .next (match reg with
    | .wlq slice_ tenant =>
      { s with sluice := { s.sluice with quota := spSet none s.sluice.quota (16 * slice_ + tenant) (some (slice v 10 0)) } }
    | .fwin tenant window word =>
      let none_ : FWin := { fwa := 0, fwb := 0, fws := 0 }
      let k := 16 * tenant + window
      { s with mem := { s.mem with fwins := spSet none_ s.mem.fwins k ((spGet none_ s.mem.fwins k).write word v) } }
    | .remap tenant index => s.writeRemap tenant index v
    | .dpit die page => s.setDpit (dpPage die page) (v &&& (bitsOf 63 59 ||| bitsOf 57 32 ||| bitsOf 25 0))
    | .route a b path => { s with fw := { s.fw with routes := spSet [] s.fw.routes (24 * a + b) path } })

end Sys2Proof.Machine
end

