-- ==== Sys2Proof/Machine/Hosts.lean ====
section
/-!
DEFINITION. RDMA by hosts, and the event rings (spec/16 R349, R350, R353, R354; spec/05 R146; spec/19 R387; log 23).
-/

namespace Sys2Proof.Machine

open Sys2Proof

/-! ### RDMA (R349, R350) -/

/-- The port and the queue pair exist: four ports of 4,096 queue pairs, port k on I/O die k (R349). -/
def queuePairExists (m : RdmaMsg) : Bool := m.port < 4 && m.qpn < 4096
/-- The tenant and the window that a key names. -/
def State.window? (s : State) (key : Nat) : Option (Nat × Window) :=
  s.fw.tenants.findSome? fun t => (t.windows.find? fun w => w.key = key).map fun w => (t.num, w)
/-- The whole range of `n` bytes lies in the window. -/
def Window.holds (w : Window) (va : W64) (n : Nat) : Bool :=
  decide (w.base.toNat ≤ va.toNat) && decide (va.toNat + n ≤ w.base.toNat + 65536 * w.pages)
/-- The tenant for which an access is admitted. -/
def State.admitted (s : State) (m : RdmaMsg) (n : Nat) : Option Nat :=
  match s.window? m.key with
  | some (t, w) => if w.holds m.va n then some t else none
  | none => none
/-- A refused access: a NAK, and KIND 0x07 to the tenant that the key names, or the port's count (spec/19 R387). -/
def State.refuseRdma (s : State) (m : RdmaMsg) : State :=
  let s := s.emit (.rdmaNak m.port m.qpn)
  match s.window? m.key with
  | some (t, _) => s.event t 0x07 0 0 [wordOfNat m.key, wordOfNat m.qpn]
  | none => { s with fw := { s.fw with rdmaRefused := spSet 0 s.fw.rdmaRefused m.port (spGet 0 s.fw.rdmaRefused m.port + 1) } }
/-- RDMA_WRITE (R350): each word is performed as one event, in order (spec/05 R146), through the translation slices of the port's entry die
(spec/03 R95); a record that waits for room may now be written. -/
def execRdmaWrite (m : RdmaMsg) (s : State) : Result :=
  .next (
    if !queuePairExists m || s.fab.portDown.contains m.port then s
    else match s.admitted m m.bytes.length with
      | none => s.refuseRdma m
      | some t => ((s.writeAllForHost (entryDie m.port) t m.va m.bytes).emit (.rdmaAck m.port m.qpn)).post .eventRecordWrite)

/-- The bytes of one word read for a host; what a poisoned or unmapped word reads as is free (log 6). -/
def State.readForHost (s : State) (die tenant : Nat) (a : W64) (n : Nat) : List Byte × State :=
  let free (s : State) : List Byte × State :=
    (bytesOfNat (Config.freeWord s.sched.fresh).toNat n, { s with sched := { s.sched with fresh := s.sched.fresh + 1 } })
  match s.xlat die tenant a false with
  | (s, .error _) => free s
  | (s, .ok dp) =>
    let s := s.open (wordAt dp)
    if s.memType (wordAt dp) = 7 then free s else (s.memBytes dp n, s)
def State.readAllForHost (s : State) (die tenant : Nat) : List (W64 × Nat × Nat) → List Byte × State
  | [] => ([], s)
  | p :: ps =>
    let (bs, s) := s.readForHost die tenant p.1 p.2.2
    let (rest, s) := s.readAllForHost die tenant ps
    (bs ++ rest, s)
/-- RDMA_READ (R350). -/
def execRdmaRead (m : RdmaMsg) (s : State) : Result :=
  .next (
    if !queuePairExists m || s.fab.portDown.contains m.port then s
    else match s.admitted m m.count with
      | none => s.refuseRdma m
      | some t =>
        let (bs, s) := s.readAllForHost (entryDie m.port) t (wordParts m.va m.count)
        s.emit (.rdmaData m.port m.qpn bs))

/-! ### Event records (R353, R354) -/

/-- The 64 bytes of record `j`. -/
def recordBytes (dropped j : Nat) (r : EventRec) : List Byte :=
  let d := (r.detail ++ [0, 0, 0, 0]).take 4
  ([wordOfNat (dropped % 2 ^ 32 * 2 ^ 32 + r.kind), wordOfNat j, r.ctr, r.statusw] ++ d).flatMap fun w => bytesOfNat w.toNat 8
/-- One record leaves, and EVW after it; the firewall may drop both, and no further record tells of it (spec/14 R318; log 24). -/
def State.writeEvent (s : State) (t : Tenant) (r : EventRec) : State :=
  let passes := s.admits false 6 0
  let s := if !passes then s else s.emit (.rdmaWrite t.evPort t.evQpn t.evrKey (t.evBase + wordOfNat (64 * (t.evw % 2 ^ t.evExp))) (recordBytes t.evDropped t.evw r))
  let s := if !passes then s else s.emit (.rdmaWrite t.evPort t.evQpn t.evrKey t.evwAddr (bytesOfNat (t.evw + 1) 8))
  s.updTenant t.num fun t => { t with evw := t.evw + 1, held := t.held.drop 1, evDropped := 0 }
/-- The column reads EVR: how many records the ring has room for (R353). A read that the firewall drops finds no room, and no further record tells
of it (log 24); where nothing is mapped, EVR counts as 0. -/
def State.ringRoom (s : State) (t : Tenant) : State × Nat :=
  match s.xlat 0 t.num t.evrAddr false with
  | (s, .error _) => (s, 2 ^ t.evExp - t.evw)
  | (s, .ok dp) =>
    if s.admits false 0 dp && s.admits true 1 0 then
      let s := s.open (wordAt dp)
      (s, 2 ^ t.evExp - (t.evw - (s.memWord (wordAt dp)).toNat))
    else (s, 0)
/-- The records of a tenant that may be written and find room, oldest first; the room left. -/
def State.writeEvents (s : State) (tenant room : Nat) : Nat → State × Nat
  | 0 => (s, room)
  | n + 1 =>
    match s.tenant? tenant with
    | none => (s, room)
    | some t =>
      match t.held with
      | [] => (s, room)
      | r :: _ =>
        if room ≠ 0 && !s.fab.portDown.contains t.evPort && s.recordReady tenant r then (s.writeEvent t r).writeEvents tenant (room - 1) n else (s, room)
/-- Of the records that could not be written, 64 beyond the room in the ring are held (R354). -/
def keepHeld (room : Nat) (t : Tenant) : Tenant := t.held.foldl (fun t r => holdRecord room r t) { t with held := [] }
/-- The column looks at a tenant's records. -/
def State.serveRing (s : State) (t : Tenant) : State :=
  if t.held = [] then s
  else
    let (s, room) := s.ringRoom t
    let (s, left) := s.writeEvents t.num room t.held.length
    s.updTenant t.num (keepHeld left)
/-- EVENT_RECORD_WRITE (R353): each record after the release of the completion that it reports; one that must still wait for it is written by
a later step. -/
def execEventRecordWrite (s : State) : Result :=
  let s := s.fw.tenants.foldl State.serveRing s
  .next (if s.fw.tenants.any fun t => match t.held with | r :: _ => !s.recordReady t.num r | [] => false then s.post .eventRecordWrite else s)

end Sys2Proof.Machine
end

