-- ==== Sys2Proof/Machine/Pairs.lean ====
section
/-!
DEFINITION. Mismatches of checked pairs (spec/19 R385; spec/21 R411; log 20).
-/

namespace Sys2Proof.Machine

open Sys2Proof

/-- The record of one core of the pair: cause 0x11, no handler entry. It names the message's instruction. -/
def State.mismatchRecord (s : State) (gid : Nat) : State :=
  let c := s.ctx gid
  let (o, it) := s.origin c.pc
  let w0 : W64 := match s.fetch gid c.pc with | .ok (.words (w :: _)) => wordOfNat w.toNat | _ => 0
  let core := coreOf gid
  let t : TrapRec := { TrapRec.blank with
    tenant := s.tenantOf core, ctx := ctxNo gid, async := false, cause := 0x11, core, pc := c.pc, addr := w0, orig := o, iter := it
    unit := c.unit.toNat, launch := c.launch.toNat, cyc := s.cyclesOf core, sstat := c.flags.toNat, gen := c.gen }
  s.asyncRecord (dieOf core) t
/-- A context of the pair stops, and its work is gone: its pending triggers fire, as for a reap; a parked request stays parked (spec/04
R121); what has not left does not leave. -/
def State.dropWork (s : State) (gid : Nat) : State := (s.both gid).foldl (fun s g => ((s.fireTriggers g (s.ctx g).gen).dropUnsent g).toIdle g) s
/-- The launch unit places unit `u` once more: on a coupled pair with room, or when one has room. -/
def State.placeAgain (s : State) (l : Launch) (u : Nat) : State :=
  match l.shares.find? fun sh => sh.base ≤ u && u < sh.base + sh.count with
  | none => s
  | some sh =>
    match s.walkUnit l sh u with
    | some s => s
    | none => s.updDie sh.die fun d => { d with waiting := d.waiting ++ [{ lid := l.lid, die := sh.die, unit := u }] }

/-- The first mismatch of a unit: it stops with the participants that it has become, and is placed once more. -/
def State.firstMismatch (s : State) (l : Launch) (u : Nat) : State :=
  let mine := (s.ctxsOf l.lid).filter fun g => (s.ctx g).unit.toNat = u && ((s.ctx g).work = .unit || (s.ctx g).work = .participant)
  let s := mine.foldl State.dropWork s
  let s := s.updLaunch l.lid fun l => { l with live := l.live - mine.length, replaced := u :: l.replaced }
  match s.launch? l.lid with
  | none => s
  | some l => if l.cancelled then s.checkLaunch l.dies.head? l.lid else s.placeAgain l u

/-- CHECKED_PAIR_MISMATCH (R385): both cores stop the unit and write a record each, and it is placed once more; the second mismatch of a
unit stops the partition. Work that is no unit of a launch only stops; of work that has ended, the message does not leave. -/
def execCheckedPairMismatch (gid : Nat) (s : State) : Result :=
  let core := coreOf gid
  let even := if idX core % 2 = 0 then gid else 16 * partnerOf core + ctxNo gid
  let c := s.ctx even
  .next (
    if !(s.core core).paired || isCtx0 gid then s
    else if c.mode = .idle then (s.both even).foldl State.dropUnsent s
    else
      let s := { s with sched := { s.sched with agenda := s.sched.agenda.filter fun p =>
        match p.ev with | .checkedPairMismatch g => !(s.both even).contains g | _ => true } }
      match c.lid.bind s.launch? with
      | none => (s.both even).foldl (fun s g => (s.mismatchRecord g).endWork g .cancelled) s
      | some l =>
        if l.replaced.contains c.unit.toNat then s.post (.gangStop l.tenant 0x11 (dieOf core))
        else
          let s := (s.both even).foldl State.mismatchRecord s
          if c.work = .unit || c.work = .participant then s.firstMismatch l c.unit.toNat
          else (s.both even).foldl (fun s g => s.endWork g .cancelled) s)
/-- CHECKED_PAIR_TIMEOUT (R385): messages that have waited for more than 1,024 cycles. -/
def execCheckedPairTimeout (s : State) : Result :=
  .next (s.cpu.cores.foldl (fun s k =>
    (k.2.pairOut.filter fun x => x.1 + 1024 < s.sched.now).foldl (fun s x => s.post (.checkedPairMismatch (16 * k.1 + x.2.1))) s) s)

end Sys2Proof.Machine
end

