-- ==== Sys2Proof/Machine/Dispatch.lean ====
section
/-!
DEFINITION. What executing an instruction or taking an event does: one arm for each constructor of Instr.
-/

namespace Sys2Proof.Machine

open Sys2Proof

/-- Execute one instruction, or take one event. -/
def exec (i : Instr) (s : State) : Host.Outcome State Fault Refusal :=
  match i with
  | .add f => Sys2Proof.Machine.execAdd f s
  | .sub f => Sys2Proof.Machine.execSub f s
  | .mul f => Sys2Proof.Machine.execMul f s
  | .mulh f => Sys2Proof.Machine.execMulh f s
  | .mulhu f => Sys2Proof.Machine.execMulhu f s
  | .div f => Sys2Proof.Machine.execDiv f s
  | .divu f => Sys2Proof.Machine.execDivu f s
  | .rem f => Sys2Proof.Machine.execRem f s
  | .remu f => Sys2Proof.Machine.execRemu f s
  | .and f => Sys2Proof.Machine.execAnd f s
  | .or f => Sys2Proof.Machine.execOr f s
  | .xor f => Sys2Proof.Machine.execXor f s
  | .andn f => Sys2Proof.Machine.execAndn f s
  | .shl f => Sys2Proof.Machine.execShl f s
  | .shr f => Sys2Proof.Machine.execShr f s
  | .sar f => Sys2Proof.Machine.execSar f s
  | .rol f => Sys2Proof.Machine.execRol f s
  | .min f => Sys2Proof.Machine.execMin f s
  | .max f => Sys2Proof.Machine.execMax f s
  | .minu f => Sys2Proof.Machine.execMinu f s
  | .maxu f => Sys2Proof.Machine.execMaxu f s
  | .clz f => Sys2Proof.Machine.execClz f s
  | .ctz f => Sys2Proof.Machine.execCtz f s
  | .popc f => Sys2Proof.Machine.execPopc f s
  | .addi f => Sys2Proof.Machine.execAddi f s
  | .andi f => Sys2Proof.Machine.execAndi f s
  | .ori f => Sys2Proof.Machine.execOri f s
  | .xori f => Sys2Proof.Machine.execXori f s
  | .shli f => Sys2Proof.Machine.execShli f s
  | .shri f => Sys2Proof.Machine.execShri f s
  | .sari f => Sys2Proof.Machine.execSari f s
  | .movi f => Sys2Proof.Machine.execMovi f s
  | .mov f => Sys2Proof.Machine.execMov f s
  | .cmpeq f => Sys2Proof.Machine.execCmpeq f s
  | .cmpne f => Sys2Proof.Machine.execCmpne f s
  | .cmplt f => Sys2Proof.Machine.execCmplt f s
  | .cmpltu f => Sys2Proof.Machine.execCmpltu f s
  | .cmple f => Sys2Proof.Machine.execCmple f s
  | .cmpleu f => Sys2Proof.Machine.execCmpleu f s
  | .cmov f => Sys2Proof.Machine.execCmov f s
  | .fadd f => Sys2Proof.Machine.execFadd f s
  | .fsub f => Sys2Proof.Machine.execFsub f s
  | .fmul f => Sys2Proof.Machine.execFmul f s
  | .fdiv f => Sys2Proof.Machine.execFdiv f s
  | .fma f => Sys2Proof.Machine.execFma f s
  | .fsqrt f => Sys2Proof.Machine.execFsqrt f s
  | .fmin f => Sys2Proof.Machine.execFmin f s
  | .fmax f => Sys2Proof.Machine.execFmax f s
  | .fcmpeq f => Sys2Proof.Machine.execFcmpeq f s
  | .fcmplt f => Sys2Proof.Machine.execFcmplt f s
  | .fcmple f => Sys2Proof.Machine.execFcmple f s
  | .fcvt f => Sys2Proof.Machine.execFcvt f s
  | .ftoi f => Sys2Proof.Machine.execFtoi f s
  | .itof f => Sys2Proof.Machine.execItof f s
  | .fabs f => Sys2Proof.Machine.execFabs f s
  | .fneg f => Sys2Proof.Machine.execFneg f s
  | .br f => Sys2Proof.Machine.execBr f s
  | .call f => Sys2Proof.Machine.execCall f s
  | .callr f => Sys2Proof.Machine.execCallr f s
  | .jmpr f => Sys2Proof.Machine.execJmpr f s
  | .ret f => Sys2Proof.Machine.execRet f s
  | .loop f => Sys2Proof.Machine.execLoop f s
  | .rep f => Sys2Proof.Machine.execRep f s
  | .blk f => Sys2Proof.Machine.execBlk f s
  | .spawn f => Sys2Proof.Machine.execSpawn f s
  | .callat f => Sys2Proof.Machine.execCallat f s
  | .fork f => Sys2Proof.Machine.execFork f s
  | .join f => Sys2Proof.Machine.execJoin f s
  | .cancel f => Sys2Proof.Machine.execCancel f s
  | .cancelu f => Sys2Proof.Machine.execCancelu f s
  | .tstb f => Sys2Proof.Machine.execTstb f s
  | .ldGlobal f => Sys2Proof.Machine.execLdGlobal f s
  | .ldsGlobal f => Sys2Proof.Machine.execLdsGlobal f s
  | .stGlobal f => Sys2Proof.Machine.execStGlobal f s
  | .ldLocal f => Sys2Proof.Machine.execLdLocal f s
  | .ldsLocal f => Sys2Proof.Machine.execLdsLocal f s
  | .stLocal f => Sys2Proof.Machine.execStLocal f s
  | .ldFe f => Sys2Proof.Machine.execLdFe f s
  | .stEf f => Sys2Proof.Machine.execStEf f s
  | .amoAdd f => Sys2Proof.Machine.execAmoAdd f s
  | .amoAnd f => Sys2Proof.Machine.execAmoAnd f s
  | .amoOr f => Sys2Proof.Machine.execAmoOr f s
  | .amoXor f => Sys2Proof.Machine.execAmoXor f s
  | .amoMin f => Sys2Proof.Machine.execAmoMin f s
  | .amoMax f => Sys2Proof.Machine.execAmoMax f s
  | .amoMinu f => Sys2Proof.Machine.execAmoMinu f s
  | .amoMaxu f => Sys2Proof.Machine.execAmoMaxu f s
  | .amoSwap f => Sys2Proof.Machine.execAmoSwap f s
  | .amoCas f => Sys2Proof.Machine.execAmoCas f s
  | .mkobj f => Sys2Proof.Machine.execMkobj f s
  | .rmobj f => Sys2Proof.Machine.execRmobj f s
  | .qpushT f => Sys2Proof.Machine.execQpushT f s
  | .qpopT f => Sys2Proof.Machine.execQpopT f s
  | .ldtag f => Sys2Proof.Machine.execLdtag f s
  | .ctrAdd f => Sys2Proof.Machine.execCtrAdd f s
  | .ctrTake f => Sys2Proof.Machine.execCtrTake f s
  | .ctrWait f => Sys2Proof.Machine.execCtrWait f s
  | .barArrive f => Sys2Proof.Machine.execBarArrive f s
  | .barSync f => Sys2Proof.Machine.execBarSync f s
  | .barWait f => Sys2Proof.Machine.execBarWait f s
  | .barJoin f => Sys2Proof.Machine.execBarJoin f s
  | .barWdraw f => Sys2Proof.Machine.execBarWdraw f s
  | .lkAcq f => Sys2Proof.Machine.execLkAcq f s
  | .lkTry f => Sys2Proof.Machine.execLkTry f s
  | .lkRel f => Sys2Proof.Machine.execLkRel f s
  | .qpush f => Sys2Proof.Machine.execQpush f s
  | .qpop f => Sys2Proof.Machine.execQpop f s
  | .cndWait f => Sys2Proof.Machine.execCndWait f s
  | .cndSignal f => Sys2Proof.Machine.execCndSignal f s
  | .cndBcast f => Sys2Proof.Machine.execCndBcast f s
  | .sysr f => Sys2Proof.Machine.execSysr f s
  | .sysw f => Sys2Proof.Machine.execSysw f s
  | .start f => Sys2Proof.Machine.execStart f s
  | .reap f => Sys2Proof.Machine.execReap f s
  | .pair f => Sys2Proof.Machine.execPair f s
  | .trap f => Sys2Proof.Machine.execTrap f s
  | .rett f => Sys2Proof.Machine.execRett f s
  | .nop f => Sys2Proof.Machine.execNop f s
  | .vadd f => Sys2Proof.Machine.execVadd f s
  | .vsub f => Sys2Proof.Machine.execVsub f s
  | .vmul f => Sys2Proof.Machine.execVmul f s
  | .vfma f => Sys2Proof.Machine.execVfma f s
  | .vdiv f => Sys2Proof.Machine.execVdiv f s
  | .vsqrt f => Sys2Proof.Machine.execVsqrt f s
  | .vmin f => Sys2Proof.Machine.execVmin f s
  | .vmax f => Sys2Proof.Machine.execVmax f s
  | .vabs f => Sys2Proof.Machine.execVabs f s
  | .vneg f => Sys2Proof.Machine.execVneg f s
  | .vrcp f => Sys2Proof.Machine.execVrcp f s
  | .vrsq f => Sys2Proof.Machine.execVrsq f s
  | .vexp2 f => Sys2Proof.Machine.execVexp2 f s
  | .vlog2 f => Sys2Proof.Machine.execVlog2 f s
  | .vadds f => Sys2Proof.Machine.execVadds f s
  | .vsubs f => Sys2Proof.Machine.execVsubs f s
  | .vand f => Sys2Proof.Machine.execVand f s
  | .vor f => Sys2Proof.Machine.execVor f s
  | .vxor f => Sys2Proof.Machine.execVxor f s
  | .vshl f => Sys2Proof.Machine.execVshl f s
  | .vshr f => Sys2Proof.Machine.execVshr f s
  | .vsar f => Sys2Proof.Machine.execVsar f s
  | .vcmpeq f => Sys2Proof.Machine.execVcmpeq f s
  | .vcmplt f => Sys2Proof.Machine.execVcmplt f s
  | .vcmple f => Sys2Proof.Machine.execVcmple f s
  | .vsel f => Sys2Proof.Machine.execVsel f s
  | .vshuf f => Sys2Proof.Machine.execVshuf f s
  | .vbcast f => Sys2Proof.Machine.execVbcast f s
  | .vmov f => Sys2Proof.Machine.execVmov f s
  | .vcvt f => Sys2Proof.Machine.execVcvt f s
  | .vqmx f => Sys2Proof.Machine.execVqmx f s
  | .vqb4 f => Sys2Proof.Machine.execVqb4 f s
  | .vredsum f => Sys2Proof.Machine.execVredsum f s
  | .vredmin f => Sys2Proof.Machine.execVredmin f s
  | .vredmax f => Sys2Proof.Machine.execVredmax f s
  | .vredmSum f => Sys2Proof.Machine.execVredmSum f s
  | .vredmMean f => Sys2Proof.Machine.execVredmMean f s
  | .mzero f => Sys2Proof.Machine.execMzero f s
  | .mma f => Sys2Proof.Machine.execMma f s
  | .mmaS f => Sys2Proof.Machine.execMmaS f s
  | .mdrain f => Sys2Proof.Machine.execMdrain f s
  | .copy f => Sys2Proof.Machine.execCopy f s
  | .copyStr f => Sys2Proof.Machine.execCopyStr f s
  | .copyGth f => Sys2Proof.Machine.execCopyGth f s
  | .copySct f => Sys2Proof.Machine.execCopySct f s
  | .copyTrg f => Sys2Proof.Machine.execCopyTrg f s
  | .copyStrTrg f => Sys2Proof.Machine.execCopyStrTrg f s
  | .copyGthTrg f => Sys2Proof.Machine.execCopyGthTrg f s
  | .copySctTrg f => Sys2Proof.Machine.execCopySctTrg f s
  | .prefTier f => Sys2Proof.Machine.execPrefTier f s
  | .layout f => Sys2Proof.Machine.execLayout f s
  | .layoutAb f => Sys2Proof.Machine.execLayoutAb f s
  | .collOpen f => Sys2Proof.Machine.execCollOpen f s
  | .collPut f => Sys2Proof.Machine.execCollPut f s
  | .collGet f => Sys2Proof.Machine.execCollGet f s
  | .collMark f => Sys2Proof.Machine.execCollMark f s
  | .parkedInstructionResume gid => Sys2Proof.Machine.execParkedInstructionResume gid s
  | .deposit m => Sys2Proof.Machine.execDeposit m s
  | .storeAcknowledgement r => Sys2Proof.Machine.execStoreAcknowledgement r s
  | .faultReply r cause addr => Sys2Proof.Machine.execFaultReply r cause addr s
  | .lateFaultNotice r => Sys2Proof.Machine.execLateFaultNotice r s
  | .translationLookup r => Sys2Proof.Machine.execTranslationLookup r s
  | .homeSliceLoad r => Sys2Proof.Machine.execHomeSliceLoad r s
  | .homeSliceStore r => Sys2Proof.Machine.execHomeSliceStore r s
  | .homeSliceAmo r => Sys2Proof.Machine.execHomeSliceAmo r s
  | .homeSliceLdtag r => Sys2Proof.Machine.execHomeSliceLdtag r s
  | .sluiceLdFe r => Sys2Proof.Machine.execSluiceLdFe r s
  | .sluiceStEf r => Sys2Proof.Machine.execSluiceStEf r s
  | .sluiceMkobj r => Sys2Proof.Machine.execSluiceMkobj r s
  | .sluiceRmobj r => Sys2Proof.Machine.execSluiceRmobj r s
  | .sluiceCtrAdd r => Sys2Proof.Machine.execSluiceCtrAdd r s
  | .sluiceCtrTake r => Sys2Proof.Machine.execSluiceCtrTake r s
  | .sluiceCtrWait r => Sys2Proof.Machine.execSluiceCtrWait r s
  | .sluiceBarArrive r => Sys2Proof.Machine.execSluiceBarArrive r s
  | .sluiceBarSync r => Sys2Proof.Machine.execSluiceBarSync r s
  | .sluiceBarWait r => Sys2Proof.Machine.execSluiceBarWait r s
  | .sluiceBarJoin r => Sys2Proof.Machine.execSluiceBarJoin r s
  | .sluiceBarWdraw r => Sys2Proof.Machine.execSluiceBarWdraw r s
  | .sluiceLkAcq r => Sys2Proof.Machine.execSluiceLkAcq r s
  | .sluiceLkTry r => Sys2Proof.Machine.execSluiceLkTry r s
  | .sluiceLkRel r => Sys2Proof.Machine.execSluiceLkRel r s
  | .sluiceQpush r => Sys2Proof.Machine.execSluiceQpush r s
  | .sluiceQpop r => Sys2Proof.Machine.execSluiceQpop r s
  | .sluiceQpushT r => Sys2Proof.Machine.execSluiceQpushT r s
  | .sluiceQpopT r => Sys2Proof.Machine.execSluiceQpopT r s
  | .ringWordAccess ra => Sys2Proof.Machine.execRingWordAccess ra s
  | .sluiceCndWait r => Sys2Proof.Machine.execSluiceCndWait r s
  | .sluiceCndSignal r => Sys2Proof.Machine.execSluiceCndSignal r s
  | .sluiceCndBcast r => Sys2Proof.Machine.execSluiceCndBcast r s
  | .sluiceForward r => Sys2Proof.Machine.execSluiceForward r s
  | .polderEntryRead m => Sys2Proof.Machine.execPolderEntryRead m s
  | .numberRequest op => Sys2Proof.Machine.execNumberRequest op s
  | .completionNotice n => Sys2Proof.Machine.execCompletionNotice n s
  | .boundBarrierArrival n => Sys2Proof.Machine.execBoundBarrierArrival n s
  | .triggerFire op => Sys2Proof.Machine.execTriggerFire op s
  | .copyOperation op remote => Sys2Proof.Machine.execCopyOperation op remote s
  | .prefTierOperation op => Sys2Proof.Machine.execPrefTierOperation op s
  | .layoutOperation op remote => Sys2Proof.Machine.execLayoutOperation op remote s
  | .matrixMzeroPerform op => Sys2Proof.Machine.execMatrixMzeroPerform op s
  | .matrixMmaPerform op => Sys2Proof.Machine.execMatrixMmaPerform op s
  | .matrixDrainPerform op => Sys2Proof.Machine.execMatrixDrainPerform op s
  | .firmwareCounterWaitGrant w => Sys2Proof.Machine.execFirmwareCounterWaitGrant w s
  | .dispatchPass tenant => Sys2Proof.Machine.execDispatchPass tenant s
  | .launchPacket die lid => Sys2Proof.Machine.execLaunchPacket die lid s
  | .specialiserEvaluation die lid => Sys2Proof.Machine.execSpecialiserEvaluation die lid s
  | .placementPacket p => Sys2Proof.Machine.execPlacementPacket p s
  | .placementRetry die => Sys2Proof.Machine.execPlacementRetry die s
  | .cancelApply c => Sys2Proof.Machine.execCancelApply c s
  | .spawnRequest m => Sys2Proof.Machine.execSpawnRequest m s
  | .callatTaskArrival core t => Sys2Proof.Machine.execCallatTaskArrival core t s
  | .taskQueueSlotFree gid gen => Sys2Proof.Machine.execTaskQueueSlotFree gid gen s
  | .taskStart core => Sys2Proof.Machine.execTaskStart core s
  | .forwardedItem core item => Sys2Proof.Machine.execForwardedItem core item s
  | .tierPromotion page => Sys2Proof.Machine.execTierPromotion page s
  | .tierBlockMove page block => Sys2Proof.Machine.execTierBlockMove page block s
  | .gangStop tenant cause die => Sys2Proof.Machine.execGangStop tenant cause die s
  | .partitionFault tenant cause => Sys2Proof.Machine.execPartitionFault tenant cause s
  | .checkedPairMismatch gid => Sys2Proof.Machine.execCheckedPairMismatch gid s
  | .stationHandoff r => Sys2Proof.Machine.execStationHandoff r s
  | .routerInstall op => Sys2Proof.Machine.execRouterInstall op s
  | .routerRowArrival core vsn port row => Sys2Proof.Machine.execRouterRowArrival core vsn port row s
  | .routerSlotFreeNotice core vsn entry port lossy => Sys2Proof.Machine.execRouterSlotFreeNotice core vsn entry port lossy s
  | .routerMarker core vsn port item => Sys2Proof.Machine.execRouterMarker core vsn port item s
  | .routerMemberDeath core vsn entry => Sys2Proof.Machine.execRouterMemberDeath core vsn entry s
  | .callatAcceptance gid gen => Sys2Proof.Machine.execCallatAcceptance gid gen s
  | .cancelAcceptance gid gen c => Sys2Proof.Machine.execCancelAcceptance gid gen c s
  | .illegalInstruction => Sys2Proof.Machine.execIllegalInstruction s
  | .issueSlot => Sys2Proof.Machine.execIssueSlot s
  | .polderMove => Sys2Proof.Machine.execPolderMove s
  | .losswinExpiry => Sys2Proof.Machine.execLosswinExpiry s
  | .hostLaunch => Sys2Proof.Machine.execHostLaunch s
  | .hostGraph => Sys2Proof.Machine.execHostGraph s
  | .hostPhase => Sys2Proof.Machine.execHostPhase s
  | .hostJob => Sys2Proof.Machine.execHostJob s
  | .hostCancel => Sys2Proof.Machine.execHostCancel s
  | .hostCancelu => Sys2Proof.Machine.execHostCancelu s
  | .map => Sys2Proof.Machine.execMap s
  | .unmap => Sys2Proof.Machine.execUnmap s
  | .fwin => Sys2Proof.Machine.execFwin s
  | .qreg => Sys2Proof.Machine.execQreg s
  | .qunreg => Sys2Proof.Machine.execQunreg s
  | .remap => Sys2Proof.Machine.execRemap s
  | .attest => Sys2Proof.Machine.execAttest s
  | .cfgstage => Sys2Proof.Machine.execCfgstage s
  | .unknownCommand => Sys2Proof.Machine.execUnknownCommand s
  | .queueScan => Sys2Proof.Machine.execQueueScan s
  | .idleReportDeferralEnd => Sys2Proof.Machine.execIdleReportDeferralEnd s
  | .migrationInstalled => Sys2Proof.Machine.execMigrationInstalled s
  | .tierEpoch => Sys2Proof.Machine.execTierEpoch s
  | .trapRecordWrite => Sys2Proof.Machine.execTrapRecordWrite s
  | .checkedPairTimeout => Sys2Proof.Machine.execCheckedPairTimeout s
  | .eventRecordWrite => Sys2Proof.Machine.execEventRecordWrite s
  | .peerTimeout => Sys2Proof.Machine.execPeerTimeout s
  | .peerProbe => Sys2Proof.Machine.execPeerProbe s
  | .moduleReset => Sys2Proof.Machine.execModuleReset s
  | .lossyBlockArrival h xfer block data crc => Sys2Proof.Machine.execLossyBlockArrival h xfer block data crc s
  | .lossyBlockNotice h n => Sys2Proof.Machine.execLossyBlockNotice h n s
  | .migrationStart src dst => Sys2Proof.Machine.execMigrationStart src dst s
  | .migrationAbandon src => Sys2Proof.Machine.execMigrationAbandon src s
  | .stackRefresh die => Sys2Proof.Machine.execStackRefresh die s
  | .frameRetirement => Sys2Proof.Machine.execFrameRetirement s
  | .farControllerFailure ctrl => Sys2Proof.Machine.execFarControllerFailure ctrl s
  | .localArrayUncorrectable a => Sys2Proof.Machine.execLocalArrayUncorrectable a s
  | .trapQueueRead die => Sys2Proof.Machine.execTrapQueueRead die s
  | .firewallRefusal owner into cls dp => Sys2Proof.Machine.execFirewallRefusal owner into cls dp s
  | .rdmaWrite m => Sys2Proof.Machine.execRdmaWrite m s
  | .rdmaRead m => Sys2Proof.Machine.execRdmaRead m s
  | .fabricRequestIn r => Sys2Proof.Machine.execFabricRequestIn r s
  | .peerProbeAnswer phys => Sys2Proof.Machine.execPeerProbeAnswer phys s
  | .powerMeasurement watts loaded => Sys2Proof.Machine.execPowerMeasurement watts loaded s
  | .thermalEvent die celsius => Sys2Proof.Machine.execThermalEvent die celsius s
  | .xvalRead d => Sys2Proof.Machine.execXvalRead d s
  | .xvalWrite v => Sys2Proof.Machine.execXvalWrite v s
  | .stkscrubWrite die bank => Sys2Proof.Machine.execStkscrubWrite die bank s
  | .sleccRead slice => Sys2Proof.Machine.execSleccRead slice s
  | .lbeccRead core => Sys2Proof.Machine.execLbeccRead core s
  | .spstatRead die => Sys2Proof.Machine.execSpstatRead die s
  | .fatalstatWrite die v => Sys2Proof.Machine.execFatalstatWrite die v s
  | .dpmapWrite k v => Sys2Proof.Machine.execDpmapWrite k v s
  | .registerWrite reg v => Sys2Proof.Machine.execRegisterWrite reg v s

end Sys2Proof.Machine
end

