-- ==== Sys2Proof/Machine/Placed.lean ====
section
/-!
DEFINITION. A state in which a context is about to fetch given words (log 1): it stands for what MAP, RDMA WRITE and a
launch do before a program's first instruction.
-/

namespace Sys2Proof.Machine

open Sys2Proof

/-- DP addresses of the tables and of the code page, in the table region of die 0. -/
def placedL1 : Nat := Config.tableBase
def placedL2 : Nat := Config.tableBase + 0x80000
def placedL3 : Nat := Config.tableBase + 0x100000
def placedPage : Nat := Config.heldPages * 65536

/-- The pages that these tables take. -/
def placedTables : List Nat := List.range' (pageOf placedL1) 4 ++ List.range' (pageOf placedL2) 8 ++ [pageOf placedL3]

/-- A tenant with the partition's first cluster and nothing else. -/
def placedTenant : Tenant :=
  { num := 0, clusters := [0], quota := 1024, l1 := placedL1, supervisor := 0, windows := [], evPort := 0, evQpn := 0, evExp := 0, evrAddr := 0
    evBase := 0, evwAddr := 0, evrKey := 0, evw := 0, held := [], evDropped := 0, launches := 0, lastIdle := none, deferred := false, remap := [] }

/-- A valid entry (spec/03 Table 3.6). -/
def placedEntry (kind target : Nat) : W64 := wordOfNat (2 ^ 63 + kind * 2 ^ 61 + 2 ^ 60 + target / 65536 * 65536)

/-- Context 1 of core 0 holds 128 registers and is Ready at virtual address 0, its slot is next, and the words stand there. -/
def State.place (s : State) (ws : List W32) : State :=
  let s := { s with fw := { s.fw with tenants := [placedTenant], pages := [pageOf placedPage], tables := placedTables }, mem := { s.mem with icache := [] } }
  let s := s.putBytes placedL1 (bytesOfNat (placedEntry 0 placedL2).toNat 8)
  let s := s.putBytes placedL2 (bytesOfNat (placedEntry 0 placedL3).toNat 8)
  let s := s.putBytes placedL3 (bytesOfNat (placedEntry 1 placedPage).toNat 8)
  let s := s.putBytes placedPage (ws.flatMap fun w => bytesOfNat w.toNat 4)
  let s := s.setCtx 1 { Ctx.rest 1 with mode := .ready, park := .nothing, base := 32, limit := 160, work := .unit }
  { s with sched := { s.sched with choices := [], slots := [1] } }

end Sys2Proof.Machine
end

