-- ==== Sys2Proof/Machine/Step.lean ====
section
/-!
DEFINITION. One step of the module, and how the host places an instruction where the next step fetches it.
-/

namespace Sys2Proof.Machine

open Sys2Proof

/-- One step: what the turn brings is executed. -/
def step (s : State) : Host.Outcome State Fault Refusal :=
  match s.begin with
  | .run i s => exec i s
  | .done s => .next s

/-- An instruction whose bits are `w`, stored where a context of a tenant's core fetches it, and that context's slot (log 1). -/
def State.withFetchWord (s : State) (nbits w : Nat) : State := s.place (tableWords (tableBits nbits w))

end Sys2Proof.Machine
end

