-- ==== Sys2Proof/Safety.lean ====
section
/-!
DEFINITION. What counts as a sound state, and the terms in which the statements speak of states: registers that can be read and
written, what a step may leave different.
-/

namespace Sys2Proof.Machine

open Sys2Proof

/-! ### Canonical storage -/

/-- The canonical form of global memory's bytes: addresses rise strictly, and no listed byte is the 0 that an unlisted address reads as. -/
def Memory.wf (m : List Host.Cell) : Bool := spWf (0 : Byte) m

/-- Contexts, cores, registers, full/empty bits, local buffers and tiles are in canonical form. -/
def Cpu.canonical (c : Cpu) : Bool :=
  spWfBy Ctx.rest c.ctxs && spWf Core.init c.cores && spWf 0 c.regs && spWf false c.regEmpty && spWf 0 c.ab && spWf [] c.abEmpty && spWf 0 c.ps &&
    spWf 0 c.wb && spWf Tile.init c.tiles

/-- Global memory's bytes, tags and tables are in canonical form. -/
def Mem.canonical (m : Mem) : Bool :=
  Memory.wf m.bytes && spWf 8#4 m.tags && spWf 0 m.upsets && spWf 0 m.copyUpsets && spWf { fwa := 0, fwb := 0, fws := 0 } m.fwins &&
    spWf 0 m.dpit && spWf 0 m.counts && spWf [] m.moved && spWf (0, 0) m.slecc && spWf 0 m.stkBank && spWf 0 m.stkCounts

/-- Every storage of the machine that is kept as a map is in canonical form: no key is listed twice, and none that holds its reset value. -/
def State.canonical (s : State) : Bool :=
  s.cpu.canonical && s.mem.canonical && spWf 0 s.sluice.seqs && spWf none s.sluice.quota && spWf Die.init s.dies

/-! ### What an instruction may use -/

/-- Memory is as it was, but for bits in error of words of the trap queues: a record that is written there puts its slot right. -/
def Mem.keeps (m n : Mem) : Prop :=
  n = { m with upsets := n.upsets, copyUpsets := n.copyUpsets } ∧
    ∀ a, (∀ die w, a ∉ trapWords die w) → spGet 0 n.upsets a = spGet 0 m.upsets a ∧ spGet 0 n.copyUpsets a = spGet 0 m.copyUpsets a

/-- The registers with these numbers are allotted to the context in the slot, and full. -/
def State.has (s : State) (rs : List Nat) : Bool := rs.all fun r => decide (r < s.cur.count) && !s.emptyAt s.gid r
/-- The same of register fields. -/
def State.usable (s : State) (rs : List (BitVec 7)) : Bool := s.has (nums rs)
/-- An instruction's predicate lets it run (spec/07 R177). -/
def State.allows (s : State) (q : BitVec 3) (neg : Bool) : Bool := s.cur.pred q != neg
/-- A global address of `w` bytes that is well formed, aligned, and names no dead peer. -/
def State.goodAddr (s : State) (a : W64) (w : Nat) : Bool :=
  !malformed a && decide (a.toNat % w = 0) && decide (s.served (s.tenantOf s.here) a ≠ .dead)
/-- The pointers of a vector instruction name rows that lie in the AB, aligned and full, and its predicate lets it run. -/
def State.vecReady (s : State) (f : VecFmt) (ps : List RowPtr) : Bool :=
  s.allows f.pred f.neg &&
    (ps.all fun p => decide (p.off s.cur % 32 = 0) && decide (ptrBuf (s.cur.ptr p.ptr) = 0) && decide (p.off s.cur + 32 * p.rows ≤ Config.abBytes)) &&
    (s.emptyLine s.here ((ps.flatMap fun p => p.rowList s.cur).map (· / 4))).isNone
/-- The lines are full. -/
def State.linesFull (s : State) (ls : List Nat) : Bool := (s.emptyLine s.here ls).isNone

/-! ### Exact values and their rounding (spec/06 R148, R152, R155) -/

/-- Bits that are finite in a format, and their value. -/
def FpFormat.finite (p : FpFormat) (x : Nat) : Prop := x < 2 ^ p.width ∧ x % 2 ^ (p.width - 1) ≤ p.maxBits
def FpFormat.value (p : FpFormat) (x : Nat) : ℚ :=
  let m := x % 2 ^ p.manBits
  let e := x / 2 ^ p.manBits % 2 ^ p.expBits
  let size : ℚ := if e = 0 then m * 2 ^ (1 - p.bias - p.manBits) else (2 ^ p.manBits + m) * 2 ^ (e - p.bias - p.manBits)
  if x.testBit (p.width - 1) then -size else size
/-- The bits of an infinity, and of the value that stands for one beyond the range (Table 6.5). -/
def FpFormat.infinity (p : FpFormat) (neg : Bool) : Nat := bitAt neg (p.width - 1) + (2 ^ p.expBits - 1) * 2 ^ p.manBits
def FpFormat.past (p : FpFormat) (neg : Bool) : Nat := if p.saturates then bitAt neg (p.width - 1) + p.maxBits else p.infinity neg
/-- `r` is the exact value `x` rounded once to the format, to nearest with ties to even, with the flags of Table 6.4; a zero takes the sign `neg`.
The value that would round to just past the largest finite one is beyond the range. -/
def FpFormat.Rounds (p : FpFormat) (x : ℚ) (neg : Bool) (r : Nat × Flags) : Prop :=
  let top := p.value p.maxBits
  let half := (top - p.value (p.maxBits - 1)) / 2
  let least : ℚ := 2 ^ (1 - p.bias)
  if x = 0 then r = (bitAt neg (p.width - 1), 0)
  else if (if p.maxBits % 2 = 1 then top + half ≤ |x| else top + half < |x|) then r = (p.past (decide (x < 0)), flagOF ||| flagNX)
  else
    p.finite r.1 ∧ r.1.testBit (p.width - 1) = decide (x < 0) ∧
    (∀ y : Nat, p.finite y → |p.value r.1 - x| ≤ |p.value y - x| ∧ (|p.value r.1 - x| = |p.value y - x| → p.value y ≠ p.value r.1 → r.1 % 2 = 0)) ∧
    r.2 = flagIf (p.value r.1 ≠ x) flagNX ||| flagIf (p.value r.1 ≠ x ∧ |x| < least - least / 2 ^ (p.manBits + 2)) flagUF
/-- `i` is the integer nearest to `x`, the even one of two. -/
def roundsToInt (x : ℚ) (i : Int) : Prop := |x - i| ≤ 1 / 2 ∧ (|x - i| = 1 / 2 → i % 2 = 0)

/-! ### What a message finds -/

/-- The incarnation that a message is for holds its context still, on a core that is neither halted nor coupled and has not sent its state
away; no request is out at a station. -/
def State.atHand (s : State) (gid gen : Nat) : Bool :=
  decide (s.fab.waiting = []) && !s.movedAway gid gen && !(s.core (coreOf gid)).halted && decide ((s.ctx gid).gen = gen) && !(s.core (coreOf gid)).paired
/-- A register of a context gets a value, and is full. -/
def State.filled (s : State) (gid d : Nat) (v : W64) : State := (s.setPhys (s.regKey gid d) v).setEmpty (s.regKey gid d) false
/-- A context is Ready at a PC. -/
def State.readyAt (s : State) (gid : Nat) (pc : W64) : State := s.setCtx gid { s.ctx gid with mode := .ready, park := .nothing, pc := pc }

/-! ### Agents and scopes (spec/05 R129, R134, R137) -/

/-- An agent that accesses global memory. An operation is one of a collective router, a copy unit, a matrix engine or, with `layout`, a layout
engine, with the core that issued it; a remote requester is an agent of another module, known by that module and as it is known there. -/
inductive Agent where
  | context (gid : Nat)
  | router (id core : Nat)
  | operation (id core : Nat) (layout : Bool)
  | sluice (slice : Nat)
  | launchUnit (die : Nat)
  | specialiser (die : Nat)
  | tierEngine (die : Nat)
  | scanner
  | firmware
  | host (tenant : Nat)
  | remote (phys : Nat) (agent : Agent)
deriving DecidableEq, Repr

/-- The agent as its own module knows it, and the module where that is another one. -/
def Agent.own : Agent → Agent
  | .remote _ a => a
  | a => a
def Agent.away : Agent → Option Nat
  | .remote p _ => some p
  | _ => none
/-- It is a host. -/
def Agent.isHost : Agent → Bool
  | .host _ => true
  | _ => false
/-- The core, and the die, from which its scopes are measured. -/
def Agent.core (a : Agent) : Option Nat :=
  match a.own with
  | .context g => some (coreOf g)
  | .router _ c | .operation _ c _ => some c
  | _ => none
def Agent.die (a : Agent) : Option Nat :=
  match a.own with
  | .sluice n => some (n / 32)
  | .launchUnit d | .specialiser d | .tierEngine d => some d
  | _ => a.core.map dieOf
/-- It belongs to the core itself, to no engine outside; it belongs to the cluster of its core: a layout engine does not. -/
def Agent.inCore (a : Agent) : Bool :=
  match a.own with
  | .context _ | .router .. => true
  | _ => false
def Agent.inCluster (a : Agent) : Bool :=
  match a.own with
  | .operation _ _ l => !l
  | _ => a.inCore
/-- Two agents of one module; two agents of this module. -/
def sameModule (a b : Agent) : Bool := !a.isHost && !b.isHost && decide (a.away = b.away)
def Agent.here (a : Agent) : Bool := !a.isHost && decide (a.away = none)
/-- Two agents of one module lie in the same part of it. -/
def samePart (part : Agent → Option Nat) (a b : Agent) : Bool := sameModule a b && (part a).isSome && decide (part a = part b)
/-- The tenant's remap table maps a module. -/
def State.maps (s : State) (tenant phys : Nat) : Bool :=
  match s.tenant? tenant with
  | none => false
  | some t => t.remap.any fun e => bit e.2 63 && slice e.2 9 0 = phys
/-- Scope `sc` of an access of agent `a` takes in agent `b` (Table 5.3); `wide`: the other agent's access is annotated at peer or wider. -/
def State.inScope (s : State) (tenant : Nat) (wide : Bool) (sc : BitVec 4) (a b : Agent) : Bool :=
  match sc.toNat with
  | 0 => a = b
  | 1 => a = b || (b.inCore && samePart Agent.core a b)
  | 2 => a = b || (b.inCluster && samePart (fun x => x.core.map clusterOf) a b)
  | 3 => a = b || samePart (fun x => x.core.map quadrantOf) a b
  | 4 => a = b || samePart Agent.die a b
  | 5 => a = b || sameModule a b
  | 6 => a = b || sameModule a b || (wide && !b.isHost)
  | 7 => a = b || sameModule a b || b.here || (match b.away with | some p => s.maps tenant p | none => false)
  | 8 => a = b || !b.isHost
  | 9 => (match b with | .host t => t = tenant | _ => true)
  | _ => true
/-- The scope that R134 measures by: a relaxed access has scope system. -/
def scopeOf (relaxed : Bool) (sc : BitVec 4) : BitVec 4 := if relaxed then 10#4 else sc
/-- R134 admits the observation of agent `w`'s write by agent `v`'s read, with their scopes. -/
def State.admitsPair (s : State) (tenant : Nat) (w v : Agent) (sw sv : BitVec 4) : Bool :=
  s.inScope tenant (decide (6 ≤ sv.toNat)) sw w v && s.inScope tenant (decide (6 ≤ sw.toNat)) sv v w

end Sys2Proof.Machine
end

