-- ==== Sys2Proof/Certificates/Slice0/Obligations.lean ====
section
/-!
DEFINITION. The statements for the provers.
-/

open Sys2Proof Sys2Proof.Machine

/-- spec/08 R192, R193: the integer instructions, each with the result of Table 8.1, of every value of its operands. -/
def Obligations.IntegerInstructions : Prop :=
  ∀ s : State,
    (∀ f : RegFmt, s.usable (f.d :: f.a :: regB f.b f.lit) = true →
      let a := s.reg f.a
      let b := s.opB f.b f.lit
      let sa := a.toInt
      let sb := b.toInt
      let c := b.toNat % 64
      let q : Int := if sb = 0 then -1 else if sa = -2 ^ 63 ∧ sb = -1 then -2 ^ 63 else Int.tdiv sa sb
      let r : Int := if sb = 0 then sa else if sa = -2 ^ 63 ∧ sb = -1 then 0 else sa - Int.tdiv sa sb * sb
      let wrote (v : W64) : Host.Outcome State Fault Refusal := .next (s.writeReg f.d v).next
      exec (.add f) s = wrote (BitVec.ofNat 64 (a.toNat + b.toNat)) ∧
      exec (.sub f) s = wrote (BitVec.ofInt 64 ((a.toNat : Int) - b.toNat)) ∧
      exec (.mul f) s = wrote (BitVec.ofNat 64 (a.toNat * b.toNat)) ∧
      exec (.mulh f) s = wrote ((BitVec.ofInt 128 (sa * sb)).extractLsb' 64 64) ∧
      exec (.mulhu f) s = wrote ((BitVec.ofNat 128 (a.toNat * b.toNat)).extractLsb' 64 64) ∧
      exec (.div f) s = wrote (BitVec.ofInt 64 q) ∧
      exec (.divu f) s = wrote (if b.toNat = 0 then BitVec.ofNat 64 (2 ^ 64 - 1) else BitVec.ofNat 64 (a.toNat / b.toNat)) ∧
      exec (.rem f) s = wrote (BitVec.ofInt 64 r) ∧
      exec (.remu f) s = wrote (if b.toNat = 0 then a else BitVec.ofNat 64 (a.toNat % b.toNat)) ∧
      exec (.and f) s = wrote (a &&& b) ∧
      exec (.or f) s = wrote (a ||| b) ∧
      exec (.xor f) s = wrote (a ^^^ b) ∧
      exec (.andn f) s = wrote (a &&& ~~~b) ∧
      exec (.shl f) s = wrote (BitVec.ofNat 64 (a.toNat * 2 ^ c)) ∧
      exec (.shr f) s = wrote (BitVec.ofNat 64 (a.toNat / 2 ^ c)) ∧
      exec (.sar f) s = wrote (BitVec.ofInt 64 (sa / 2 ^ c)) ∧
      exec (.rol f) s = wrote (BitVec.ofNat 64 (a.toNat * 2 ^ c + a.toNat / 2 ^ (64 - c))) ∧
      exec (.min f) s = wrote (if sb < sa then b else a) ∧
      exec (.max f) s = wrote (if sb < sa then a else b) ∧
      exec (.minu f) s = wrote (if b.toNat < a.toNat then b else a) ∧
      exec (.maxu f) s = wrote (if b.toNat < a.toNat then a else b)) ∧
    (∀ f : RegFmt, s.usable [f.d, f.a] = true →
      let a := s.reg f.a
      let wrote (v : W64) : Host.Outcome State Fault Refusal := .next (s.writeReg f.d v).next
      exec (.clz f) s = wrote (BitVec.ofNat 64 (if a.toNat = 0 then 64 else 63 - Nat.log2 a.toNat)) ∧
      exec (.ctz f) s = wrote (BitVec.ofNat 64 (((List.range 64).find? fun i => a.getLsbD i).getD 64)) ∧
      exec (.popc f) s = wrote (BitVec.ofNat 64 ((List.range 64).countP fun i => a.getLsbD i)) ∧
      exec (.mov f) s = wrote a) ∧
    (∀ f : ImmFmt, s.usable [f.d, f.a] = true →
      let a := s.reg f.a
      let k := f.lit.getD (f.imm.signExtend 64)
      let c := f.imm.toNat % 64
      let wrote (v : W64) : Host.Outcome State Fault Refusal := .next (s.writeReg f.d v).next
      exec (.addi f) s = wrote (BitVec.ofNat 64 (a.toNat + k.toNat)) ∧
      exec (.andi f) s = wrote (a &&& k) ∧
      exec (.ori f) s = wrote (a ||| k) ∧
      exec (.xori f) s = wrote (a ^^^ k) ∧
      exec (.shli f) s = wrote (BitVec.ofNat 64 (a.toNat * 2 ^ c)) ∧
      exec (.shri f) s = wrote (BitVec.ofNat 64 (a.toNat / 2 ^ c)) ∧
      exec (.sari f) s = wrote (BitVec.ofInt 64 (a.toInt / 2 ^ c))) ∧
    (∀ f : ImmFmt, s.usable [f.d] = true → exec (.movi f) s = .next (s.writeReg f.d (f.lit.getD (f.imm.signExtend 64))).next)

/-- spec/08 R194: compares, predicates, and CMOV. -/
def Obligations.CompareAndSelect : Prop :=
  (∀ (f : CmpFmt) (s : State), s.usable (f.a :: regB f.b f.lit) = true →
    let a := s.reg f.a
    let b := s.opB f.b f.lit
    let wrote (r : Bool) : Host.Outcome State Fault Refusal := .next (s.updCur fun c => c.setPred f.q r).next
    exec (.cmpeq f) s = wrote (a == b) ∧ exec (.cmpne f) s = wrote (a != b) ∧ exec (.cmplt f) s = wrote (a.slt b) ∧
    exec (.cmpltu f) s = wrote (a.ult b) ∧ exec (.cmple f) s = wrote (a.sle b) ∧ exec (.cmpleu f) s = wrote (a.ule b)) ∧
  (∀ (c : Ctx) (q k : BitVec 3) (r : Bool), c.setPred 0 r = c ∧ c.pred 0 = true ∧
    (c.setPred q r).pred k = (if k = q ∧ q ≠ 0 then r else c.pred k)) ∧
  (∀ (f : ImmFmt) (s : State),
    let holds := s.cur.pred (f.imm.extractLsb' 0 3) != f.imm.getLsbD 3
    (holds = true → s.usable [f.d, f.a] = true → exec (.cmov f) s = .next (s.writeReg f.d (s.reg f.a)).next) ∧
    (holds = false → s.usable [f.a] = true → f.d.toNat < s.cur.count → exec (.cmov f) s = .next s.next)) ∧
  ∀ f : ImmFmt, 16 ≤ f.imm.toNat → (Instr.cmov f).wellFormed = false

/-- spec/08 R195-R197, spec/06 R152, R153, R155, R158: floating point, each operation rounded once. That an infinity
converted to E4M3 gives the largest finite value is the model's reading (log 26). -/
def Obligations.FloatInstructions : Prop :=
  (∀ s : State,
    let lo (v : W64) : Nat := (v.extractLsb' 0 32).toNat
    let done (t : State) (fl : Flags) : State := (t.updCur fun c => { c with flags := c.flags ||| fl }).next
    (∀ f : RegFmt, s.usable (f.d :: f.a :: regB f.b f.lit) = true →
      let a := lo (s.reg f.a)
      let b := lo (s.opB f.b f.lit)
      let wrote (r : Nat × Flags) := done (s.writeReg f.d (BitVec.ofNat 64 r.1)) r.2
      exec (.fadd f) s = .next (wrote (fpAdd fp32 a b)) ∧ exec (.fsub f) s = .next (wrote (fpSub fp32 a b)) ∧ exec (.fmul f) s = .next (wrote (fpMul fp32 a b)) ∧
      exec (.fdiv f) s = .next (wrote (fpDiv fp32 a b)) ∧ exec (.fma f) s = .next (wrote (fpFma fp32 a b (lo (s.reg f.d)))) ∧
      exec (.fmin f) s = .next (wrote (fpMinMax fp32 false a b)) ∧ exec (.fmax f) s = .next (wrote (fpMinMax fp32 true a b))) ∧
    (∀ f : RegFmt, s.usable [f.d, f.a] = true →
      let a := lo (s.reg f.a)
      let wrote (r : Nat × Flags) := done (s.writeReg f.d (BitVec.ofNat 64 r.1)) r.2
      exec (.fsqrt f) s = .next (wrote (fpSqrt fp32 a)) ∧ exec (.fabs f) s = .next (wrote (fpAbs fp32 a)) ∧ exec (.fneg f) s = .next (wrote (fpNeg fp32 a)) ∧
      exec (.ftoi f) s = .next (done (s.writeReg f.d (fpToI64 a).1) (fpToI64 a).2) ∧ exec (.itof f) s = .next (wrote (i64ToFp (s.reg f.a)))) ∧
    (∀ f : CmpFmt, s.usable (f.a :: regB f.b f.lit) = true →
      let a := lo (s.reg f.a)
      let b := lo (s.opB f.b f.lit)
      let wrote (r : Bool × Flags) := done (s.updCur fun c => c.setPred f.q r.1) r.2
      exec (.fcmpeq f) s = .next (wrote (fpCmpEq fp32 a b)) ∧ exec (.fcmplt f) s = .next (wrote (fpCmpLt fp32 a b)) ∧ exec (.fcmple f) s = .next (wrote (fpCmpLe fp32 a b))) ∧
    (∀ f : ImmFmt, s.usable [f.d, f.a] = true →
      let r := convert (f.imm.toNat % 16) (f.imm.toNat / 16) ((s.reg f.a).toNat % 2 ^ fmtBits (f.imm.toNat / 16))
      exec (.fcvt f) s = .next (done (s.writeReg f.d (BitVec.ofNat 64 r.1)) r.2))) ∧
  (∀ x ∈ [(fp32, 0x7FC00000), (bf16, 0x7FC0), (fp16, 0x7E00), (e4m3, 0x7F), (e5m2, 0x7E)], ∀ a b c : Nat,
    let p := x.1
    let va := fpDecode p a
    let vb := fpDecode p b
    let vc := fpDecode p c
    let neg (y : Nat) : Bool := y.testBit (p.width - 1)
    let nv : Flags := flagIf (va.isSig || vb.isSig) flagNV
    let bad : Bool := (va.isInf && vb.isZero) || (va.isZero && vb.isInf)
    ((va.isNan || vb.isNan) = true →
      fpAdd p a b = (x.2, nv) ∧ fpSub p a b = (x.2, nv) ∧ fpMul p a b = (x.2, nv) ∧ fpDiv p a b = (x.2, nv) ∧
      fpMinMax p false a b = (x.2, nv) ∧ fpMinMax p true a b = (x.2, nv) ∧
      fpCmpEq p a b = (false, nv) ∧ fpCmpLt p a b = (false, flagNV) ∧ fpCmpLe p a b = (false, flagNV)) ∧
    ((va.isNan || vb.isNan || vc.isNan) = true → fpFma p a b c = (x.2, flagIf (va.isSig || vb.isSig || vc.isSig || bad) flagNV)) ∧
    (va.isNan = true → fpSqrt p a = (x.2, flagIf va.isSig flagNV) ∧ fpAbs p a = (x.2, flagIf va.isSig flagNV) ∧ fpNeg p a = (x.2, flagIf va.isSig flagNV)) ∧
    (p.finite a → p.finite b →
      p.Rounds (p.value a + p.value b) (neg a && neg b) (fpAdd p a b) ∧ p.Rounds (p.value a - p.value b) (neg a && !neg b) (fpSub p a b) ∧
      p.Rounds (p.value a * p.value b) (neg a != neg b) (fpMul p a b) ∧
      (p.value b ≠ 0 → p.Rounds (p.value a / p.value b) (neg a != neg b) (fpDiv p a b)) ∧
      (p.value b = 0 → p.value a = 0 → fpDiv p a b = (x.2, flagNV)) ∧
      (p.value b = 0 → p.value a ≠ 0 → p.ieee = true → fpDiv p a b = (p.infinity (neg a != neg b), flagDZ)) ∧
      (p.finite c → p.Rounds (p.value a * p.value b + p.value c) ((neg a != neg b) && neg c) (fpFma p a b c)) ∧
      (∀ larger : Bool, let r := fpMinMax p larger a b
        (r = (a, 0) ∨ r = (b, 0)) ∧ p.value r.1 = (if larger then max (p.value a) (p.value b) else min (p.value a) (p.value b)) ∧
        (p.value a = p.value b → neg r.1 = (if larger then neg a && neg b else neg a || neg b))) ∧
      fpCmpEq p a b = (decide (p.value a = p.value b), 0) ∧ fpCmpLt p a b = (decide (p.value a < p.value b), 0) ∧
      fpCmpLe p a b = (decide (p.value a ≤ p.value b), 0)) ∧
    (p.finite a → 0 < p.value a → let r := fpSqrt p a
      p.finite r.1 ∧ 0 < p.value r.1 ∧ r.2 = flagIf (p.value r.1 ^ 2 ≠ p.value a) flagNX ∧
      ∀ y : Nat, p.finite y → 0 ≤ p.value y →
        (p.value y < p.value r.1 → ((p.value y + p.value r.1) / 2) ^ 2 ≤ p.value a) ∧ (p.value r.1 < p.value y → p.value a ≤ ((p.value y + p.value r.1) / 2) ^ 2)) ∧
    (p.finite a → p.value a = 0 → fpSqrt p a = (a, 0)) ∧ (p.finite a → p.value a < 0 → fpSqrt p a = (x.2, flagNV)) ∧
    (p.finite a → fpAbs p a = (a % 2 ^ (p.width - 1), 0) ∧ fpNeg p a = (a ^^^ 2 ^ (p.width - 1), 0)) ∧
    (p.ieee = true → ∀ m n : Bool, (p.finite b → fpAdd p (p.infinity m) b = (p.infinity m, 0) ∧ fpSub p b (p.infinity m) = (p.infinity !m, 0) ∧
        fpMul p (p.infinity m) b = (if p.value b = 0 then (x.2, flagNV) else (p.infinity (m != neg b), 0)) ∧
        fpDiv p (p.infinity m) b = (p.infinity (m != neg b), 0) ∧ fpDiv p b (p.infinity m) = (bitAt (neg b != m) (p.width - 1), 0)) ∧
      fpAdd p (p.infinity m) (p.infinity n) = (if m = n then (p.infinity m, 0) else (x.2, flagNV)) ∧
      fpMul p (p.infinity m) (p.infinity n) = (p.infinity (m != n), 0) ∧ fpDiv p (p.infinity m) (p.infinity n) = (x.2, flagNV))) ∧
  (∀ a : Nat, fp32.finite a → ∀ i : Int, roundsToInt (fp32.value a) i →
    fpToI64 a = if i < -2 ^ 63 then (BitVec.ofInt 64 (-2 ^ 63), flagNV) else if 2 ^ 63 - 1 < i then (BitVec.ofInt 64 (2 ^ 63 - 1), flagNV)
      else (BitVec.ofInt 64 i, flagIf (fp32.value a ≠ i) flagNX)) ∧
  (∀ a : Nat, (fpDecode fp32 a).isNan = true → fpToI64 a = (0, flagNV)) ∧
  (∀ m : Bool, fpToI64 (fp32.infinity m) = (BitVec.ofInt 64 (if m then -2 ^ 63 else 2 ^ 63 - 1), flagNV)) ∧
  (∀ a : W64, fp32.Rounds a.toInt false (i64ToFp a)) ∧
  ∀ dst src a : Nat, 2 ≤ dst → dst ≤ 7 → 2 ≤ src → src ≤ 7 →
    let p := fpOf dst
    let q := fpOf src
    let v := fpDecode q a
    let neg := a.testBit (q.width - 1)
    convert src src a = (a, 0) ∧
    (dst ≠ src → q.finite a → p.Rounds (q.value a) neg (convert dst src a)) ∧
    (dst ≠ src → v.isInf = true → a < 2 ^ q.width → convert dst src a = if p.ieee then (p.infinity neg, 0) else (p.past neg, flagOF ||| flagNX)) ∧
    (dst ≠ src → v.isNan = true → convert dst src a = (p.nan.getD 0, flagIf (v.isSig || dst = 7) flagNV))

/-- spec/02 R46, spec/08 R195-R197: the frame of a scalar result, which the floating-point instructions write. -/
def Obligations.RegisterWrites : Prop :=
  (∀ (s : State) (d : BitVec 7) (v : W64), s.canonical = true →
    let t := (s.writeReg d v).next
    (∀ r : BitVec 7, t.reg r = if r = d then v else s.reg r) ∧
    (∀ k : Nat, spGet 0 t.cpu.regs k = if k = s.regKey s.gid d.toNat then v else spGet 0 s.cpu.regs k) ∧
    t.cur = { s.cur with pc := s.cur.pc + wordOfNat s.sched.slot.len } ∧
    (∀ g : Nat, g ≠ s.gid → t.ctx g = s.ctx g) ∧
    { t with cpu := { t.cpu with regs := [], ctxs := [] } } = { s with cpu := { s.cpu with regs := [], ctxs := [] } }) ∧
  ∀ s : State,
    let wrote (i : Instr) (d : BitVec 7) : Prop := ∃ (v : W32) (fl : Flags), exec i s = .next (((s.writeReg d (v.zeroExtend 64)).updCur fun c => { c with flags := c.flags ||| fl }).next)
    (∀ f : RegFmt, s.usable (f.d :: f.a :: regB f.b f.lit) = true →
      wrote (.fadd f) f.d ∧ wrote (.fsub f) f.d ∧ wrote (.fmul f) f.d ∧ wrote (.fdiv f) f.d ∧ wrote (.fma f) f.d ∧ wrote (.fmin f) f.d ∧ wrote (.fmax f) f.d) ∧
    (∀ f : RegFmt, s.usable [f.d, f.a] = true → wrote (.fsqrt f) f.d ∧ wrote (.fabs f) f.d ∧ wrote (.fneg f) f.d ∧ wrote (.itof f) f.d ∧
      ∃ (v : W64) (fl : Flags), exec (.ftoi f) s = .next (((s.writeReg f.d v).updCur fun c => { c with flags := c.flags ||| fl }).next)) ∧
    (∀ f : ImmFmt, (Instr.fcvt f).wellFormed = true → s.usable [f.d, f.a] = true → wrote (.fcvt f) f.d) ∧
    ∀ f : CmpFmt, s.usable (f.a :: regB f.b f.lit) = true → ∀ i ∈ [Instr.fcmpeq f, .fcmplt f, .fcmple f],
      ∃ (r : Bool) (fl : Flags), exec i s = .next (((s.updCur fun c => c.setPred f.q r).updCur fun c => { c with flags := c.flags ||| fl }).next)

/-- spec/09 R220, R222, R224, R227, R228: the requests of the global memory format. -/
def Obligations.GlobalAccesses : Prop :=
  ∀ (f : GmFmt) (s : State), s.usable [f.d, f.a] = true →
    let a := s.reg f.a + f.lit.getD 0
    let w := 2 ^ f.sz.toNat
    let loads (k : ReqKind) : Host.Outcome State Fault Refusal := .next (s.issueRequest k a 0 0 f.ord f.scope (.reg f.d.toNat) none)
    let stores (k : ReqKind) : Host.Outcome State Fault Refusal := .next (s.issueRequest k a (s.reg f.d) 0 f.ord f.scope .ack none)
    (s.goodAddr a w = true →
      exec (.ldGlobal f) s = loads (.load w false) ∧ exec (.ldsGlobal f) s = loads (.load w true) ∧ exec (.stGlobal f) s = stores (.store w)) ∧
    (s.goodAddr a 8 = true →
      exec (.ldFe f) s = loads .ldFe ∧ exec (.stEf f) s = stores .stEf ∧ exec (.ldtag f) s = loads .ldtag)

/-- spec/07 R174, spec/09 R229-R236: requests on one word. -/
def Obligations.WordRequests : Prop :=
  (∀ (f : ReqFmt) (s : State),
    let a := s.reg f.a
    let n := if f.l && f.lit.isSome then (f.lit.getD 0).sshiftRight 8 else s.reg f.b
    let ord := (f.lit.getD 0).extractLsb' 6 2
    let scope := (f.lit.getD 0).extractLsb' 2 4
    let b := if f.l then [] else [f.b]
    (s.usable (f.d :: f.a :: b) = true → s.goodAddr a 8 = true →
      (∀ x ∈ [(Instr.amoAdd, ReqKind.amo .add), (Instr.amoAnd, .amo .and), (Instr.amoOr, .amo .or), (Instr.amoXor, .amo .xor), (Instr.amoMin, .amo .min),
          (Instr.amoMax, .amo .max), (Instr.amoMinu, .amo .minu), (Instr.amoMaxu, .amo .maxu), (Instr.amoSwap, .amo .swap), (Instr.ctrAdd, .ctrAdd),
          (Instr.ctrTake, .ctrTake), (Instr.ctrWait, .ctrWait), (Instr.barWait, .barWait), (Instr.qpush, .qpush), (Instr.cndWait, .cndWait)],
        exec (x.1 f) s = .next (s.issueRequest x.2 a n 0 ord scope (.reg f.d.toNat) none)) ∧
      exec (.amoCas f) s = .next (s.issueRequest .cas a n (s.reg f.d) ord scope (.reg f.d.toNat) none)) ∧
    (s.usable [f.d, f.a] = true → s.goodAddr a 8 = true →
      ∀ x ∈ [(Instr.rmobj, ReqKind.rmobj), (Instr.barJoin, .barJoin), (Instr.lkAcq, .lkAcq), (Instr.lkRel, .lkRel), (Instr.qpop, .qpop),
          (Instr.cndSignal, .cndSignal), (Instr.cndBcast, .cndBcast)],
        exec (x.1 f) s = .next (s.issueRequest x.2 a 0 0 ord scope (.reg f.d.toNat) none)) ∧
    (s.usable (f.a :: b) = true → s.goodAddr a (if f.d.toNat % 8 = 4 then 16 else 8) = true →
      exec (.mkobj f) s = .next (s.issueRequest (.mkobj (f.d.toNat % 8)) a n 0 ord scope .ack none))) ∧
  ∀ (f : ReqFmt) (s : State), s.goodAddr (s.reg f.a) 8 = true →
    let a := s.reg f.a
    let n := if f.l && f.lit.isSome then (f.lit.getD 0).sshiftRight 8 else s.reg f.b
    let ord := (f.lit.getD 0).extractLsb' 6 2
    let scope := (f.lit.getD 0).extractLsb' 2 4
    let b := if f.l then [] else [f.b.toNat]
    let d := f.d.toNat
    (s.has (d :: (d + 1) :: f.a.toNat :: b) = true →
      exec (.qpushT f) s = .next (s.issueRequest .qpushT a n 0 ord scope (.pair d) none)) ∧
    (s.has [d, d + 1, f.a.toNat] = true →
      exec (.lkTry f) s = .next (s.issueRequest .lkTry a 0 0 ord scope (.pair d) none) ∧
      exec (.qpopT f) s = .next (s.issueRequest .qpopT a 0 0 ord scope (.pair d) none)) ∧
    (s.has (d :: f.a.toNat :: b) = true →
      let m := if n.getLsbD 16 then (n &&& 0x1FFFF#64) ||| s.cur.flags.zeroExtend 64 else n &&& 0xFFFF#64
      exec (.barArrive f) s = .next (s.issueRequest .barArrive a m 0 ord scope (.reg d) none) ∧
      exec (.barWdraw f) s = .next (s.issueRequest .barWdraw a m 0 ord scope (.reg d) none) ∧
      exec (.barSync f) s = .next (s.issueRequest .barSync a m 0 ord scope (if n.getLsbD 16 then .regFlags d else .reg d) none))

/-- spec/09 R222, spec/02 R42, R49, spec/05 R134, R137: the issue of a request, the agents that a scope takes in, and the pairs of accesses that an
observation is admitted for. That a request of context 0 of a coupled core leaves alone is the model's choice (log 10). -/
def Obligations.RequestIssue : Prop :=
  (∀ (s : State) (tenant : Nat) (wide : Bool) (sc : BitVec 4),
    (∀ g h : Nat, s.inScope tenant wide sc (.context g) (.context h) = true ↔
      (sc = 0 → g = h) ∧ (sc = 1 → coreOf g = coreOf h) ∧ (sc = 2 → clusterOf (coreOf g) = clusterOf (coreOf h)) ∧
        (sc = 3 → quadrantOf (coreOf g) = quadrantOf (coreOf h)) ∧ (sc = 4 → dieOf (coreOf g) = dieOf (coreOf h))) ∧
    (∀ (g op core : Nat) (layout : Bool), s.inScope tenant wide sc (.context g) (.operation op core layout) = true ↔
      sc ≠ 0 ∧ sc ≠ 1 ∧ (sc = 2 → layout = false ∧ clusterOf (coreOf g) = clusterOf core) ∧ (sc = 3 → quadrantOf (coreOf g) = quadrantOf core) ∧
        (sc = 4 → dieOf (coreOf g) = dieOf core)) ∧
    (∀ g op core : Nat, s.inScope tenant wide sc (.context g) (.router op core) = true ↔
      sc ≠ 0 ∧ (sc = 1 → coreOf g = core) ∧ (sc = 2 → clusterOf (coreOf g) = clusterOf core) ∧ (sc = 3 → quadrantOf (coreOf g) = quadrantOf core) ∧
        (sc = 4 → dieOf (coreOf g) = dieOf core)) ∧
    (∀ (g die : Nat), ∀ b ∈ [Agent.launchUnit die, .specialiser die, .tierEngine die], s.inScope tenant wide sc (.context g) b = true ↔
      4 ≤ sc.toNat ∧ (sc = 4 → dieOf (coreOf g) = die)) ∧
    (∀ g n : Nat, s.inScope tenant wide sc (.context g) (.sluice n) = true ↔ 4 ≤ sc.toNat ∧ (sc = 4 → dieOf (coreOf g) = n / 32)) ∧
    (∀ g : Nat, ∀ b ∈ [Agent.scanner, .firmware], s.inScope tenant wide sc (.context g) b = true ↔ 5 ≤ sc.toNat) ∧
    (∀ (g p : Nat) (b : Agent), b.isHost = false → (∀ q x, b ≠ .remote q x) → (s.inScope tenant wide sc (.context g) (.remote p b) = true ↔
      (sc = 6 ∧ wide = true) ∨ (sc = 7 ∧ s.maps tenant p = true) ∨ 8 ≤ sc.toNat)) ∧
    (∀ g t : Nat, s.inScope tenant wide sc (.context g) (.host t) = true ↔ (sc = 9 ∧ t = tenant) ∨ 10 ≤ sc.toNat) ∧
    (∀ (p : Nat) (a b : Agent), a.isHost = false → b.isHost = false → (∀ q x, a ≠ .remote q x) → (∀ q x, b ≠ .remote q x) → sc.toNat ≤ 5 →
      s.inScope tenant wide sc (.remote p a) (.remote p b) = s.inScope tenant wide sc a b)) ∧
  (∀ (s : State) (tenant : Nat) (w v : Agent) (sw sv : BitVec 4) (rw rv : Bool),
    (s.admitsPair tenant w v (scopeOf rw sw) (scopeOf rv sv) = true ↔
      (rw = true ∨ s.inScope tenant (rv || decide (6 ≤ sv.toNat)) sw w v = true) ∧ (rv = true ∨ s.inScope tenant (rw || decide (6 ≤ sw.toNat)) sv v w = true))) ∧
  ∀ (s : State) (kind : ReqKind) (va data cmp : W64) (ord : BitVec 2) (scope : BitVec 4) (use : Use),
    s.canonical = true → ((s.core s.here).paired = false ∨ isCtx0 s.gid = true) →
    let t := s.issueRequest kind va data cmp ord scope use none
    let r : Request := { kind, tenant := s.tenantOf s.here, va, dp := 0, join := none, data, cmp, ord, scope, src := .ctx s.gid s.cur.gen, use
                         die := dieOf s.here, core := s.here, pc := s.cur.pc, next := s.cur.pc + wordOfNat s.sched.slot.len, rid := s.sched.rids
                         early := false, fence := false, hops := 0 }
    t.cur = { s.cur with mode := .parked, park := .reply s.sched.rids, again := [] } ∧
    (∀ g : Nat, g ≠ s.gid → t.ctx g = s.ctx g) ∧
    (∀ k : Nat, spGet false t.cpu.regEmpty k = (decide (k ∈ (regsOfUse use).map (s.regKey s.gid)) || spGet false s.cpu.regEmpty k)) ∧
    t.sched = { s.sched with
      rids := s.sched.rids + 1
      agenda := s.sched.agenda ++ [{ due := s.sched.now, ev := match s.served (s.tenantOf s.here) va with
        | .here => .translationLookup r
        | .peer _ => .stationHandoff r
        | .dead => .faultReply r 0x0C va }] } ∧
    { t with cpu := { t.cpu with ctxs := [], regEmpty := [] }, sched := s.sched } = { s with cpu := { s.cpu with ctxs := [], regEmpty := [] } }

/-- spec/20 R393, R394, spec/02 R50: where a global access or a request on a word stops. -/
def Obligations.GlobalAccessStops : Prop :=
  ∀ s : State,
    let stops (i : Instr) (named srcs dsts : List Nat) (a : W64) (w : Nat) : Prop :=
      let allotted := named.all fun r => decide (r < s.cur.count)
      let full (rs : List Nat) := rs.all fun r => !s.emptyAt s.gid r
      let good := !malformed a && decide (a.toNat % w = 0)
      (allotted = false → exec i s = .next (s.raise 0x02 s.word0)) ∧
      (∀ r, allotted = true → srcs.find? (fun r => s.emptyAt s.gid r) = some r → exec i s = .next (s.parkOn (.register (s.regKey s.gid r)))) ∧
      (allotted = true → full srcs = true → good = false → exec i s = .next (s.raise 0x04 a)) ∧
      (allotted = true → full srcs = true → good = true → full dsts = false → exec i s = .next (s.raise 0x03 s.word0)) ∧
      (allotted = true → full srcs = true → good = true → full dsts = true → s.served (s.tenantOf s.here) a = .dead → exec i s = .next (s.raise 0x0C a))
    (∀ f : GmFmt,
      let a := s.reg f.a + f.lit.getD 0
      (∀ x ∈ [(Instr.ldGlobal, 2 ^ f.sz.toNat), (Instr.ldsGlobal, 2 ^ f.sz.toNat), (Instr.ldFe, 8), (Instr.ldtag, 8)],
        stops (x.1 f) (nums [f.d, f.a]) (nums [f.a]) (nums [f.d]) a x.2) ∧
      ∀ x ∈ [(Instr.stGlobal, 2 ^ f.sz.toNat), (Instr.stEf, 8)], stops (x.1 f) (nums [f.d, f.a]) (nums [f.a, f.d]) [] a x.2) ∧
    ∀ f : ReqFmt,
      let a := s.reg f.a
      let b : List (BitVec 7) := if f.l then [] else [f.b]
      (∀ i ∈ [Instr.amoAdd f, .amoAnd f, .amoOr f, .amoXor f, .amoMin f, .amoMax f, .amoMinu f, .amoMaxu f, .amoSwap f, .ctrAdd f, .ctrTake f, .ctrWait f,
          .barArrive f, .barSync f, .barWait f, .barWdraw f, .qpush f, .cndWait f],
        stops i (nums (f.d :: f.a :: b)) (nums (f.a :: b)) (nums [f.d]) a 8) ∧
      (∀ i ∈ [Instr.rmobj f, .barJoin f, .lkAcq f, .lkRel f, .qpop f, .cndSignal f, .cndBcast f], stops i (nums [f.d, f.a]) (nums [f.a]) (nums [f.d]) a 8) ∧
      stops (.amoCas f) (nums (f.d :: f.a :: b)) (nums (f.a :: f.d :: b)) (nums [f.d]) a 8 ∧
      stops (.mkobj f) (nums (f.a :: b)) (nums (f.a :: b)) [] a (if f.d.toNat % 8 = 4 then 16 else 8) ∧
      (∀ i ∈ [Instr.lkTry f, .qpopT f], stops i (nums [f.d, f.a] ++ [f.d.toNat + 1]) (nums [f.a]) [f.d.toNat, f.d.toNat + 1] a 8) ∧
      stops (.qpushT f) (nums (f.d :: f.a :: b) ++ [f.d.toNat + 1]) (nums (f.a :: b)) [f.d.toNat, f.d.toNat + 1] a 8

/-- spec/09 R225, R226, spec/03 R77, R78: local accesses and their frame. -/
def Obligations.LocalAccesses : Prop :=
  (∀ (f : LmFmt) (s : State),
    let p := s.cur.ptr f.ptr
    let off := (p.extractLsb' 0 18).toNat
    let buf := (p.extractLsb' 61 3).toNat
    let w := 2 ^ f.sz.toNat
    let moved (t : State) : State := t.updCur fun c =>
      if f.inc then c.setPtr f.ptr.toNat ((p &&& 0xFFFFFFFFFFFC0000#64) ||| (((p.extractLsb' 0 18) + (p.extractLsb' 32 16).signExtend 18).zeroExtend 64)) else c
    let bytes := if buf = 0 then s.abBytes s.here off w else s.psBytes s.gid off w
    s.usable [f.d] = true → off % w = 0 → ((buf = 0 ∧ off + w ≤ 24576) ∨ (buf = 1 ∧ off + w ≤ 512)) →
    (buf = 0 → s.linesFull (linesOf off w) = true) →
      exec (.ldLocal f) s = .next (moved (s.writeReg f.d (BitVec.ofNat 64 (natOfBytes bytes)))).next ∧
      exec (.ldsLocal f) s = .next (moved (s.writeReg f.d ((BitVec.ofNat (8 * w) (natOfBytes bytes)).signExtend 64))).next ∧
      exec (.stLocal f) s = .next (moved (if buf = 0 then s.setAb s.here off ((List.range w).map fun i => (s.reg f.d).extractLsb' (8 * i) 8)
        else s.setPs s.gid off ((List.range w).map fun i => (s.reg f.d).extractLsb' (8 * i) 8))).next) ∧
  ∀ (s : State) (k off : Nat) (bs : List Byte), s.canonical = true →
    (∀ c o : Nat, (s.setAb k off bs).abByte c o =
      (if 24576 * k + off ≤ 24576 * c + o ∧ 24576 * c + o < 24576 * k + off + bs.length then bs.getD (24576 * c + o - (24576 * k + off)) 0 else s.abByte c o)) ∧
    (∀ n : Nat, spGet 0 (s.setPs k off bs).cpu.ps n =
      (if 8192 * coreOf k + 512 * ctxNo k + off ≤ n ∧ n < 8192 * coreOf k + 512 * ctxNo k + off + bs.length
        then bs.getD (n - (8192 * coreOf k + 512 * ctxNo k + off)) 0 else spGet 0 s.cpu.ps n)) ∧
    { s.setAb k off bs with cpu := { (s.setAb k off bs).cpu with ab := s.cpu.ab } } = s ∧
    { s.setPs k off bs with cpu := { (s.setPs k off bs).cpu with ps := s.cpu.ps } } = s ∧
    (s.setAb k off bs).abBytes k off bs.length = bs

/-- spec/08 R198-R201, R210: transfers of control. -/
def Obligations.BranchesAndCalls : Prop :=
  ∀ s : State,
    let good (t : W64) : Bool := decide (t.toNat % 4 = 0) && !t.getLsbD 63 && !malformed t
    let bad (t : W64) : Option W64 := if isResidual s.cur.pc
      then (match s.backMap t with | some b => if b.orig.getLsbD 63 then some b.orig else none | none => none)
      else if good t then none else some t
    let goTo (s : State) (t : W64) : State := s.updCur fun c => { c with pc := t }
    let rel (u : State) (t : W64) : State := match bad t with | none => goTo u t | some a => s.raise 0x04 a
    let linked : State := s.updCur fun c => { c with link := s.genericPc + 4 }
    (∀ f : BrFmt,
      let t := s.cur.pc + f.off.signExtend 64 * 4
      let taken := s.cur.pred f.pred != f.neg
      (taken = false → exec (.br f) s = .next s.next) ∧
      (taken = true → exec (.br f) s = .next (rel s t)) ∧
      exec (.call f) s = .next (rel linked t)) ∧
    (∀ f : RegFmt, s.usable [f.a] = true →
      let t := s.reg f.a
      exec (.callr f) s = .next (if good t then goTo linked t else s.raise 0x04 t) ∧
      exec (.jmpr f) s = .next (if good t then goTo s t else s.raise 0x04 t)) ∧
    (∀ f : TestFmt,
      let t := s.cur.pc + f.off.signExtend 64 * 4
      let hit := (Tile.status (s.tile s.here f.tile.toNat)).getLsbD f.bitNo.toNat == f.sense
      (hit = false → exec (.tstb f) s = .next s.next) ∧
      (hit = true → exec (.tstb f) s = .next (rel s t))) ∧
    (∀ f : NoneFmt, s.cur.link ≠ 0 → exec (.ret f) s = .next (if good s.cur.link then goTo s s.cur.link else s.raise 0x04 s.cur.link)) ∧
    (∀ f : LoopFmt, s.usable [f.c] = true →
      let n := s.reg f.c
      let t := s.cur.pc + f.off.signExtend 64 * 4
      (1 < n.toNat → exec (.loop f) s = .next (rel (s.writeReg f.c (BitVec.ofNat 64 (n.toNat - 1))) t)) ∧
      (n.toNat ≤ 1 → exec (.loop f) s = .next (s.writeReg f.c 0).next)) ∧
    (isResidual s.cur.pc = false → s.genericPc = s.cur.pc)

/-- spec/08 R202-R204: one issue of REP, and of BLK. -/
def Obligations.RepeatsAndBlocks : Prop :=
  (∀ (f : RegFmt) (s : State) (ws : List W32) (i : Instr) (rest : Nat) (run : State → Host.Outcome State Fault Refusal),
    s.bodyWords = .ok ws → decode ws = .ok (i, rest) → repeatable i = some run → bodyDest i ≠ some f.d → bodyOpcode (ws.headD 0) = true →
    s.usable [f.d] = true →
    let past (t : State) : State := t.updCur fun c => { c with pc := c.pc + BitVec.ofNat 64 (4 + 4 * ws.length) }
    (s.reg f.d = 0 → exec (.rep f) s = .next (past s)) ∧
    (s.reg f.d ≠ 0 →
      let u := s.withSlot { s.sched.slot with
        len := 0, w0 := ws.headD 0, words := s.sched.slot.words.take 1 ++ ws, again := s.sched.slot.again && decide (s.sched.slot.words.drop 1 ≠ []) }
      run u = exec i u ∧
      ∀ t : State, exec i u = .next t →
        exec (.rep f) s = .next (if t.cur.mode = .ready then (if s.reg f.d = 1 then past (t.writeReg f.d 0) else t.writeReg f.d (s.reg f.d - 1)) else t))) ∧
  ∀ (f : RegFmt) (s : State), s.usable [f.d, f.a, f.b] = true →
    (s.reg f.b = 0 → exec (.blk f) s = .next s.next) ∧
    (s.reg f.b ≠ 0 → s.goodAddr (s.reg f.a) 8 = true → s.goodAddr (s.reg f.d) 8 = true →
      ∃ t, exec (.blk f) s = .next t ∧ t.cpu.regs = s.cpu.regs ∧ t.mem = s.mem ∧
        t = ((s.withSlot { s.sched.slot with len := 0 }).issueRequest (.load 8 false) (s.reg f.a) 0 0 0 0 (.blkLoad f.d.toNat f.a.toNat f.b.toNat) none).updCur
          fun c => { c with pc := s.cur.pc }) ∧
    (s.reg f.b ≠ 0 → (malformed (s.reg f.a) = true ∨ (s.reg f.a).toNat % 8 ≠ 0) → exec (.blk f) s = .next (s.raise 0x04 (s.reg f.a)))

/-- spec/08 R200, spec/02 R55, R65, spec/19 R385: the end of work. That a task's RET waits for its deposits is the model's choice (log 40). -/
def Obligations.WorkEnds : Prop :=
  ∀ (f : NoneFmt) (s : State), s.canonical = true → s.cur.link = 0 →
    (isCtx0 s.gid = true → exec (.ret f) s = .next (s.raise 0x01 s.word0)) ∧
    (isCtx0 s.gid = false → s.storing s.gid = false →
      (s.awaitsDeposit s.gid = true → exec (.ret f) s = .next (s.parkOn .deposits)) ∧
      (s.awaitsDeposit s.gid = false →
        ∃ t, exec (.ret f) s = .next t ∧ t.ctx s.gid = { s.cur with
            mode := .idle, park := .nothing, base := 0, limit := 0, work := .none, lid := none, gen := 0, stop := .none, late := [], rot := 0, again := [] } ∧
          (∀ n, n < s.cur.count → spGet false t.cpu.regEmpty (s.regKey s.gid n) = false) ∧
          t.cpu.regs = s.cpu.regs ∧ t.mem = s.mem ∧ t.cpu.ab = s.cpu.ab ∧ t.cpu.ps = s.cpu.ps ∧ t.cpu.wb = s.cpu.wb ∧ t.cpu.tiles = s.cpu.tiles ∧
          t.dies = s.dies ∧
          ∀ g gen d, s.cur.work = .task g gen d →
            let m : Reply := { gid := g, gen, rid := 0, use := .value d, data := s.regAt s.gid 0, ok := true, next := 0 }
            ((s.core s.here).paired = false → { due := s.sched.now, ev := Instr.deposit m } ∈ t.sched.agenda) ∧
            ((s.core s.here).paired = true → (∀ x ∈ (s.core (partnerOf s.here)).pairOut, x.2.1 ≠ ctxNo s.gid) →
              (t.core s.here).pairOut = (s.core s.here).pairOut ++ [(s.sched.now, ctxNo s.gid, .result m)])))

/-- spec/08 R205-R209, spec/02 R63, R64, R66, R68, spec/20 R394: the creation of work, its join and its cancelling. That a PC after a literal
lies 12 bytes on, where R207 names PC + 4, is the model's reading (log 30). -/
def Obligations.WorkCreation : Prop :=
  ∀ (f : RegFmt) (s : State),
    let a := s.reg f.a
    let b := s.opB f.b f.lit
    let after := s.cur.pc + wordOfNat s.sched.slot.len
    let seeded := f.a :: regB f.b f.lit ++ [0, 1, 2, 3]
    let pcGood := a.toNat % 4 = 0 ∧ (a.getLsbD 63 = true ∨ malformed a = false)
    (s.usable seeded = true → pcGood → s.spawnFits b = true →
      exec (.spawn f) s = .next ((s.updCur fun c => { c with mode := .parked, park := .placement, again := [] }).sendOut s.gid
        (.spawn { place := b, cores := s.spawnCores b, regs := s.cur.count, q := f.d.toNat % 8, task := s.taskOf a 0, next := after }))) ∧
    (s.usable (f.d :: seeded) = true → pcGood → s.inPartition (s.tenantOf s.here) b.toNat = true →
      exec (.callat f) s = .next (((s.markEmpty s.gid f.d.toNat).updCur fun c => { c with mode := .parked, park := .callat after, again := [] }).sendOut s.gid
        (.task b.toNat (s.taskOf a f.d.toNat)))) ∧
    (s.usable (f.d :: seeded) = true → ¬pcGood → exec (.spawn f) s = .next (s.raise 0x04 a) ∧ exec (.callat f) s = .next (s.raise 0x04 a)) ∧
    (let t := (a.extractLsb' 0 32).toNat
     let g := (b.extractLsb' 56 8).toNat
     let body := (b.extractLsb' 0 52).zeroExtend 64
     let cont := s.genericPc + wordOfNat s.sched.slot.len
     s.usable (f.a :: regB f.b f.lit) = true → body.toNat % 4 = 0 →
      (g = 0 → s.usable [4, 5, 6, 7] = true → exec (.fork f) s = .next (s.raise 0x01 s.word0)) ∧
      (g ≠ 0 → t = 0 → exec (.fork f) s = .next (s.updCur fun c => { c with pc := cont })) ∧
      (g ≠ 0 → t ≠ 0 → s.usable [0, 1, 2, 4, 5, 6, 7] = true → s.storing s.gid = false →
        exec (.fork f) s = .next ((s.updCur fun c => { c with mode := .parked, park := .placement, again := [] }).sendOut s.gid
          (.fork s.gid t ((t + g - 1) / g - 1) body cont)))) ∧
    (let good := a.getLsbD 63 == false && a.getLsbD 62 == false && decide ((a.extractLsb' 56 6).toNat = 63) && decide ((a.extractLsb' 21 35).toNat = 0) &&
       decide ((a.extractLsb' 16 5).toNat < 24) && decide ((a.extractLsb' 12 4).toNat = 0)
     let cancels (unit : Option Nat) : State :=
       (s.updCur fun c => { c with mode := .parked, park := .cancel after, again := [] }).sendOut s.gid
         (.cancel s.gid s.cur.gen { tenant := s.tenantOf s.here, ctr := a, unit })
     let formed := malformed a = false ∧ a.toNat % 8 = 0
     (s.usable [f.a] = true → exec (.join f) s = .next (if good then
       (let k := (a.extractLsb' 16 5).toNat * 4096 + (a.extractLsb' 0 12).toNat
        s.issueRequest .ctrAdd a (-1) 0 0b11#2 5#4 (.join k s.word0) (some k))
       else s.raise 0x04 a)) ∧
     (s.usable [f.a] = true → s.goodAddr a 8 = true → exec (.cancel f) s = .next (cancels none)) ∧
     (s.usable (f.a :: regB f.b f.lit) = true →
       (s.goodAddr a 8 = true → exec (.cancelu f) s = .next (cancels (some (b.extractLsb' 0 24).toNat))) ∧
       (¬formed → exec (.cancel f) s = .next (s.raise 0x04 a) ∧ exec (.cancelu f) s = .next (s.raise 0x04 a)) ∧
       (formed → s.served (s.tenantOf s.here) a = .dead → exec (.cancel f) s = .next (s.raise 0x0C a) ∧ exec (.cancelu f) s = .next (s.raise 0x0C a))))

/-- spec/07 R182, spec/08 R211: what SYSR reads. -/
def Obligations.SysRegisterReads : Prop :=
  ∀ (f : ImmFmt) (s : State), s.usable [f.d] = true →
    let n := f.imm.toNat
    let c := s.cur
    let k := s.core s.here
    let core := if k.paired && !isCtx0 s.gid && decide (idX s.here % 2 = 1) then partnerOf s.here else s.here
    let hidden := (decide (0x08 ≤ n) && decide (n ≤ 0x0D)) || (decide (0x30 ≤ n) && decide (n ≤ 0x32))
    (isCtx0 s.gid = false → hidden = true → exec (.sysr f) s = .next (s.raise 0x06 s.word0)) ∧
    ((isCtx0 s.gid = true ∨ hidden = false) →
      ∀ x ∈ [(0x00, c.flags.zeroExtend 64 ||| (if c.inh then 0x100#64 else 0#64)), (0x01, c.link), (0x02, BitVec.ofNat 64 s.sched.now + k.skew),
          (0x03, BitVec.ofNat 64 c.base), (0x04, BitVec.ofNat 64 c.limit), (0x08, k.handler), (0x09, k.trapPc), (0x0A, k.trapCause), (0x0B, k.trapAddr),
          (0x0C, k.trapOrig), (0x0D, k.trapIter), (0x10, c.unit.zeroExtend 64), (0x11, c.launch.zeroExtend 64), (0x12, BitVec.ofNat 64 core),
          (0x13, BitVec.ofNat 64 (idX core)), (0x14, BitVec.ofNat 64 (idY core)), (0x15, BitVec.ofNat 64 (s.gid % 16)),
          (0x18, (c.o.getD 0 0).zeroExtend 64), (0x19, (c.o.getD 1 0).zeroExtend 64), (0x1A, (c.o.getD 2 0).zeroExtend 64), (0x1B, (c.o.getD 3 0).zeroExtend 64),
          (0x1C, (c.e.getD 0 0).zeroExtend 64), (0x1D, (c.e.getD 1 0).zeroExtend 64), (0x1E, (c.e.getD 2 0).zeroExtend 64), (0x1F, (c.e.getD 3 0).zeroExtend 64),
          (0x20, c.ptrs[0]), (0x21, c.ptrs[1]), (0x22, c.ptrs[2]), (0x23, c.ptrs[3]), (0x24, c.ptrs[4]), (0x25, c.ptrs[5]), (0x26, c.ptrs[6]), (0x27, c.ptrs[7]),
          (0x28, (c.preds ||| 1#8).zeroExtend 64), (0x30, k.xctx.zeroExtend 64),
          (0x31, (if k.xerr then 0x20000#64 else 0#64) ||| (if k.xempty then 0x10000#64 else 0#64) ||| (k.xclass ++ k.xnum).zeroExtend 64)],
        x.1 = n → exec (.sysr f) s = .next (s.writeReg f.d x.2).next)

/-- spec/07 R182, R184, spec/08 R211: SYSW, and what reads back. -/
def Obligations.SysRegisterWrites : Prop :=
  ∀ (f : ImmFmt) (s : State), s.canonical = true → s.usable [f.a] = true →
    let n := f.imm.toNat
    let v := s.reg f.a
    let old := s.sysRead s.gid n
    let hidden := (decide (0x08 ≤ n) && decide (n ≤ 0x0D)) || (decide (0x30 ≤ n) && decide (n ≤ 0x32))
    (isCtx0 s.gid = false → hidden = true → exec (.sysw f) s = .next (s.raise 0x06 s.word0)) ∧
    ((isCtx0 s.gid = true ∨ hidden = false) → n ≠ 0x32 →
      ∃ t : State, exec (.sysw f) s = .next t.next ∧
        (∀ m : Nat, t.sysRead s.gid m =
          if m ≠ n then s.sysRead s.gid m
          else if n = 0x00 then (old &&& 0x100#64) ||| (v &&& 0x1F#64)
          else if n = 0x0A then v &&& 0xFFFFFFFFFE00FFFF#64
          else if n = 0x01 ∨ (0x08 ≤ n ∧ n ≤ 0x0D) then v
          else if 0x20 ≤ n ∧ n ≤ 0x27 then v &&& 0xE000FFFF0003FFFF#64
          else if n = 0x28 then (v &&& 0xFE#64) ||| 1#64
          else if n = 0x30 then v &&& 0xF#64
          else if n = 0x31 then (old &&& 0x30000#64) ||| (v &&& 0x3FF#64)
          else old) ∧
        (∀ g : Nat, g ≠ s.gid → t.ctx g = s.ctx g) ∧ (∀ k : Nat, k ≠ s.here → t.core k = s.core k) ∧
        t.cpu.regs = s.cpu.regs ∧ t.cpu.regEmpty = s.cpu.regEmpty ∧ t.mem = s.mem ∧ t.sched = s.sched)

/-- spec/07 R183: the registers of a Stopped context. -/
def Obligations.ThroughXval : Prop :=
  ∀ (s : State) (d : BitVec 7) (v : W64), s.canonical = true → isCtx0 s.gid = true →
    let k := s.core s.here
    let g := 16 * s.here + k.xctx.toNat
    let n := k.xnum.toNat
    let hidden := (decide (0x08 ≤ n) && decide (n ≤ 0x0D)) || (decide (0x30 ≤ n) && decide (n ≤ 0x32))
    let refused : Prop := k.xctx = 0 ∨ (s.ctx g).mode ≠ .stopped ∨ (k.xclass = 0 ∧ (s.ctx g).count ≤ n) ∨ (k.xclass = 1 ∧ 7 < n) ∨
      (k.xclass = 3 ∧ (sysAssigned n = false ∨ hidden = true))
    let flags (s : State) (err empty : Bool) : State := s.updCore s.here fun k => { k with xerr := err, xempty := empty }
    (s.usable [d] = true →
      (refused → exec (.xvalRead d) s = .next ((flags s true false).writeReg d 0).next) ∧
      (¬refused → k.xclass = 0 → exec (.xvalRead d) s = .next ((flags s false (s.emptyAt g n)).writeReg d (s.regAt g n)).next) ∧
      (¬refused → k.xclass = 1 → exec (.xvalRead d) s = .next ((flags s false false).writeReg d ((s.ctx g).ptr k.xnum.toNat)).next) ∧
      (¬refused → k.xclass = 2 → exec (.xvalRead d) s = .next ((flags s false false).writeReg d (((s.ctx g).preds ||| 1#8).zeroExtend 64)).next) ∧
      (¬refused → k.xclass = 3 → exec (.xvalRead d) s = .next ((flags s false false).writeReg d (s.sysRead g n)).next)) ∧
    ((refused ∨ (k.xclass = 0 ∧ s.emptyAt g n = true)) → exec (.xvalWrite v) s = .next (flags s true false).next) ∧
    (¬refused → k.xclass = 0 → s.emptyAt g n = false → exec (.xvalWrite v) s = .next (flags (s.setRegAt g n v) false false).next) ∧
    (¬refused → k.xclass = 1 → exec (.xvalWrite v) s = .next (flags (s.sysWrite g (0x20 + n) v) false false).next) ∧
    (¬refused → k.xclass = 2 → exec (.xvalWrite v) s = .next (flags (s.sysWrite g 0x28 v) false false).next) ∧
    (¬refused → k.xclass = 3 → exec (.xvalWrite v) s = .next (flags (s.sysWrite g n v) false false).next) ∧
    (∀ f : ImmFmt, f.imm = 0x32 → (s.usable [f.d] = true → exec (.sysr f) s = exec (.xvalRead f.d) s) ∧
      (s.usable [f.a] = true → exec (.sysw f) s = exec (.xvalWrite (s.reg f.a)) s))

/-- spec/08 R212-R215: START, REAP, PAIR, on a core of its own or of a coupled pair. -/
def Obligations.ContextControl : Prop :=
  ∀ s : State,
    let wrote (t : State) (d : BitVec 7) (v : W64) : Host.Outcome State Fault Refusal := .next (t.writeReg d v).next
    (isCtx0 s.gid = false →
      (∀ f : RegFmt, s.usable [f.d, f.a, f.b] = true →
        exec (.start f) s = .next (s.raise 0x06 s.word0) ∧ exec (.reap f) s = .next (s.raise 0x06 s.word0)) ∧
      (∀ f : ImmFmt, s.usable [f.d] = true → exec (.pair f) s = .next (s.raise 0x06 s.word0))) ∧
    (isCtx0 s.gid = true →
      let k := s.core s.here
      let p := partnerOf s.here
      (∀ f : RegFmt, s.usable [f.d, f.a, f.b] = true →
        let a := s.reg f.a
        let n := (a.extractLsb' 0 4).toNat
        let core := if k.paired && decide (idX s.here % 2 = 1) then p else s.here
        let g := 16 * core + n
        let both := if k.paired && decide (n ≠ 0) then [g, 16 * partnerOf core + n] else [g]
        let regs := 8 * (a.extractLsb' 8 5).toNat
        (s.core core).paired = k.paired →
        (startOk a = true →
          ((a.extractLsb' 16 2).toNat = 0 →
            ((s.ctx g).mode ≠ .idle → exec (.start f) s = wrote s f.d 1) ∧
            ((s.ctx g).mode = .idle → lowestBase (s.blocks core) regs = none → exec (.start f) s = wrote s f.d 2) ∧
            (∀ b, (s.ctx g).mode = .idle → lowestBase (s.blocks core) regs = some b →
              exec (.start f) s = wrote (s.startCtx g b regs (s.reg f.b) [] .started Ident.none) f.d 0)) ∧
          ((a.extractLsb' 16 2).toNat = 1 →
            ((s.ctx g).mode ≠ .stopped → exec (.start f) s = wrote s f.d 1) ∧
            ((s.ctx g).mode = .stopped → exec (.start f) s = wrote (both.foldl State.resume s) f.d 0)) ∧
          ((a.extractLsb' 16 2).toNat = 2 →
            (((s.ctx g).mode ≠ .ready ∧ (s.ctx g).mode ≠ .parked) → exec (.start f) s = wrote s f.d 1) ∧
            (((s.ctx g).mode = .ready ∨ (s.ctx g).mode = .parked) →
              exec (.start f) s = wrote (both.foldl (fun u h => u.updCtx h fun c => { c with stop := if c.stop = .none then .halt else c.stop }) s) f.d 0))) ∧
        (startOk a = false → exec (.start f) s = .next (s.raise 0x01 s.word0)) ∧
        (n ≠ 0 → (s.ctx g).mode = .stopped → exec (.reap f) s = wrote (both.foldl (fun u h => u.endWork h .reaped) s) f.d 0) ∧
        ((n = 0 ∨ (s.ctx g).mode ≠ .stopped) → exec (.reap f) s = wrote s f.d 1)) ∧
      (∀ f : ImmFmt, s.usable [f.d] = true →
        let want := f.imm.getLsbD 0
        let set (t : State) (c : Nat) : State := t.updCore c fun k => { k with paired := want }
        (want = k.paired → exec (.pair f) s = wrote s f.d 0) ∧
        (want ≠ k.paired → (s.pairFree s.here && s.pairFree p) = false → exec (.pair f) s = wrote s f.d 1) ∧
        (want ≠ k.paired → (s.pairFree s.here && s.pairFree p) = true → exec (.pair f) s = wrote (set (set s s.here) p) f.d 0)))

/-- spec/02 R48, spec/08 R215: the state in which a context starts. That the sticky flags start clear (log 40), and that the bytes of its PS window,
which R84 leaves undefined, stay as they are (log 2), are the model's choices. -/
def Obligations.StartedContext : Prop :=
  (∀ (s : State) (g b n : Nat) (pc : W64) (seeds : List W64) (w : Work) (id : Ident), s.canonical = true →
    let t := s.startOne g b n pc seeds w id
    let c := t.ctx g
    c.mode = .ready ∧ c.park = .nothing ∧ c.pc = pc ∧ c.base = b ∧ c.limit = b + n ∧ c.link = 0 ∧ c.flags = 0 ∧ c.inh = false ∧ c.preds = 0 ∧
      c.ptrs = Vector.replicate 8 0 ∧ c.work = w ∧ c.ident = id ∧ c.stop = .none ∧ c.late = [] ∧ c.gen = s.sched.gens ∧
    (∀ r, r < n → t.regAt g r = seeds.getD r 0 ∧ t.emptyAt g r = false) ∧
    (∀ k, (k < 1024 * coreOf g + b ∨ 1024 * coreOf g + b + n ≤ k) →
      spGet 0 t.cpu.regs k = spGet 0 s.cpu.regs k ∧ spGet false t.cpu.regEmpty k = spGet false s.cpu.regEmpty k) ∧
    (∀ h : Nat, h ≠ g → t.ctx h = s.ctx h) ∧
    t.mem = s.mem ∧ t.cpu.cores = s.cpu.cores ∧ t.cpu.ab = s.cpu.ab ∧ t.cpu.ps = s.cpu.ps ∧ t.cpu.wb = s.cpu.wb ∧ t.cpu.tiles = s.cpu.tiles) ∧
  ∀ (s : State) (g b n : Nat) (pc : W64) (seeds : List W64) (w : Work) (id : Ident),
    let t := s.startOne g b n pc seeds w id
    s.startCtx g b n pc seeds w id = if (s.core (coreOf g)).paired && decide (idX (coreOf g) % 2 = 0)
      then t.startOne (16 * partnerOf (coreOf g) + ctxNo g) b n pc seeds w { id with lid := none } else t

/-- spec/08 R218. -/
def Obligations.NopAndZeroWord : Prop :=
  (∀ (f : NoneFmt) (s : State), exec (.nop f) s = .next (s.updCur fun c => { c with pc := c.pc + wordOfNat s.sched.slot.len })) ∧
  decode [0#32] = .ok (.add { u := false, d := 0, a := 0, b := 0, lit := none }, 1) ∧
  decode [0x1FC00000#32] = .ok (.nop { u := false }, 1) ∧
  Instr.nop { u := false } ≠ .add { u := false, d := 0, a := 0, b := 0, lit := none }

/-- spec/19 R375-R377, spec/08 R216, spec/21 R411: taking a trap. -/
def Obligations.TrapEntry : Prop :=
  (∀ (s : State) (cause sw : Nat) (addr pc : W64), s.canonical = true → isCtx0 s.gid = false → isResidual s.cur.pc = false →
    let g0 := 16 * s.here
    let k := s.core s.here
    let cls := causeClass cause
    cls < 3 → cause ≠ 0x11 → (cause = 0x0A → k.paired = false) → (s.die (dieOf s.here)).room cls = true →
    let t := s.raiseSw cause sw addr pc
    (k.handler ≠ 0 ∨ (s.ctx g0).inh = true → t.cur = { s.cur with mode := .stopped, park := .nothing, stop := .none } ∧ t.cpu.regEmpty = s.cpu.regEmpty) ∧
    t.cpu.regs = s.cpu.regs ∧ t.cpu.ab = s.cpu.ab ∧ t.cpu.ps = s.cpu.ps ∧ t.cpu.wb = s.cpu.wb ∧
      t.cpu.tiles = s.cpu.tiles ∧ s.mem.keeps t.mem ∧
    (∃ r : TrapRec, (t.die (dieOf s.here)).traps = (s.die (dieOf s.here)).traps ++ [r] ∧ (t.die (dieOf s.here)).w = (s.die (dieOf s.here)).w + 1 ∧
      r.cause = cause ∧ r.cls = cls ∧ r.swcode = sw ∧ r.ctx = ctxNo s.gid ∧ r.core = s.here ∧ r.pc = pc ∧ r.addr = addr ∧ r.async = false ∧ r.seq = (s.die (dieOf s.here)).w) ∧
    (k.handler ≠ 0 → (s.ctx g0).inh = false → k.pending = [] →
      t.ctx g0 = { s.ctx g0 with pc := k.handler, inh := true, mode := .ready, park := .nothing, again := [] } ∧
      t.core s.here = { k with
        savedPc := (s.ctx g0).pc, savedMode := (s.ctx g0).mode, savedPark := (s.ctx g0).park, savedAgain := (s.ctx g0).again, trapGen := s.cur.gen
        trapPc := pc, trapAddr := addr, trapOrig := s.cur.pc, trapIter := 0
        trapCause := BitVec.ofNat 64 (s.cur.flags.toNat * 2 ^ 32 + ctxNo s.gid * 2 ^ 28 + cls * 2 ^ 26 + sw * 2 ^ 8 + cause) }) ∧
    ((s.ctx g0).inh = true → t.ctx g0 = s.ctx g0 ∧ ∃ p, p.trap.cause = cause ∧ p.trap.ctx = ctxNo s.gid ∧ p.written = true ∧
      t.core s.here = { k with pending := k.pending ++ [p] }) ∧
    (k.handler = 0 → (s.ctx g0).inh = false → k.pending = [] →
      t.cur = { s.cur with mode := .idle, park := .nothing, base := 0, limit := 0, work := .none, lid := none, gen := 0, stop := .none, late := [], rot := 0, again := [] } ∧
      t.ctx g0 = s.ctx g0 ∧ (t.core s.here).pending = [] ∧
      (t.core s.here).trapPc = k.trapPc ∧ (t.core s.here).trapCause = k.trapCause ∧ (t.core s.here).trapAddr = k.trapAddr)) ∧
  (∀ (s : State) (sw : Nat) (addr pc : W64), isCtx0 s.gid = false → (s.core s.here).paired = true → s.raiseSw 0x0A sw addr pc = s.post (.checkedPairMismatch s.gid)) ∧
  ∀ (f : ImmFmt) (s : State), s.usable [f.a] = true → exec (.trap f) s = .next (s.raiseSw 0x0D f.imm.toNat (s.reg f.a) (s.cur.pc + 4))

/-- spec/19 R378, spec/08 R217: the return from a trap. -/
def Obligations.TrapReturn : Prop :=
  ∀ (f : NoneFmt) (s : State), s.canonical = true →
    let k := s.core s.here
    let c := k.trapCause
    let g := 16 * s.here + (c.extractLsb' 28 4).toNat
    ((isCtx0 s.gid = false ∨ s.cur.inh = false) → exec (.rett f) s = .next (s.raise 0x01 s.word0)) ∧
    (isCtx0 s.gid = true → s.cur.inh = true → (c.extractLsb' 37 27).toNat ≠ 0 → (∀ n, k.savedPark ≠ .done n) →
      ∃ t : State, exec (.rett f) s = .next t ∧
        t.ctx s.gid = { s.cur with inh := false, stop := .none, pc := k.savedPc, mode := k.savedMode, park := k.savedPark, again := k.savedAgain } ∧
        (∀ h : Nat, h ≠ s.gid → t.ctx h = s.ctx h) ∧ t.cpu.regs = s.cpu.regs ∧ s.mem.keeps t.mem ∧
        { due := s.sched.now, ev := Instr.gangStop (s.tenantOf s.here) 0x07 (dieOf s.here) } ∈ t.sched.agenda) ∧
    (isCtx0 s.gid = true → s.cur.inh = true → (c.extractLsb' 37 27).toNat = 0 → c.getLsbD 25 = false → k.pending = [] → (c.extractLsb' 28 4).toNat ≠ 0 →
      (∀ n, k.savedPark ≠ .done n) →
      ∃ t : State, exec (.rett f) s = .next t ∧
        t.ctx s.gid = { s.cur with inh := false, pc := k.savedPc, mode := k.savedMode, park := k.savedPark, again := k.savedAgain } ∧
        t.ctx g = (if (s.ctx g).mode = .stopped ∧ (s.ctx g).gen = k.trapGen
          then { s.ctx g with flags := c.extractLsb' 32 5, pc := k.trapPc, mode := .ready, park := .nothing, again := [] } else s.ctx g) ∧
        (∀ h : Nat, h ≠ s.gid → h ≠ g → t.ctx h = s.ctx h) ∧ t.cpu.regs = s.cpu.regs ∧ t.mem = s.mem ∧ t.cpu.cores = s.cpu.cores)

/-- spec/10 R242-R247, spec/06 R152, R160: the element-wise instructions, element by element. What their floating-point operations answer is stated in
`FloatInstructions`, and here that of VRCP, VRSQ and the exact cases of VEXP2 and VLOG2. -/
def Obligations.VectorElements : Prop :=
  (∀ (f : VecFmt) (s : State),
    let code := f.fmt.toNat
    let w := elemWidth code
    let p := fpOf code
    let n := 256 / w
    let lane (x i : Nat) : Nat := x / 2 ^ (w * i) % 2 ^ w
    let a := s.rowA f
    let b := s.rowB f
    let d := s.rowD f
    let c := ((s.opB f.ra f.lit).extractLsb' 0 6).toNat
    let sg (x : Nat) : Int := (BitVec.ofNat w x).toInt
    let wrap (i : Int) : Nat := (BitVec.ofInt w i).toNat
    let sat (i : Int) : Nat := wrap (if i < -2 ^ (w - 1) then -2 ^ (w - 1) else if 2 ^ (w - 1) - 1 < i then 2 ^ (w - 1) - 1 else i)
    let ones (r : Bool) : Nat := if r then 2 ^ w - 1 else 0
    let kind (i r : Nat × Flags) : Nat × Flags := if code < 2 then i else r
    let wrote (i : Instr) (ps : List RowPtr) (srcs : List (BitVec 7)) (g : Nat → Nat × Flags) : Prop :=
      i.wellFormed = true → s.vecReady f ps = true → s.usable srcs = true →
      ∃ x : Nat, x < 2 ^ 256 ∧ (∀ k, k < n → lane x k = (g k).1) ∧
        exec i s = .next (s.vecEffect f.rd f.pd ps (ps.flatMap fun p => p.rowList s.cur) { row := some x, scalar := none, flags := (List.range n).foldl (fun fl k => fl ||| (g k).2) 0 })
    let dab := [ptrD f, ptrA f, ptrB f]
    let da := [ptrD f, ptrA f]
    wrote (.vadd f) dab [] (fun k => kind (wrap (sg (lane a k) + sg (lane b k)), 0) (fpAdd p (lane a k) (lane b k))) ∧
    wrote (.vsub f) dab [] (fun k => kind (wrap (sg (lane a k) - sg (lane b k)), 0) (fpSub p (lane a k) (lane b k))) ∧
    wrote (.vmul f) dab [] (fun k => kind (wrap (sg (lane a k) * sg (lane b k)), 0) (fpMul p (lane a k) (lane b k))) ∧
    wrote (.vmin f) dab [] (fun k => kind (if sg (lane b k) < sg (lane a k) then lane b k else lane a k, 0) (fpMinMax p false (lane a k) (lane b k))) ∧
    wrote (.vmax f) dab [] (fun k => kind (if sg (lane a k) < sg (lane b k) then lane b k else lane a k, 0) (fpMinMax p true (lane a k) (lane b k))) ∧
    wrote (.vfma f) dab [] (fun k => kind (wrap (sg (lane a k) * sg (lane b k) + sg (lane d k)), 0) (fpFma p (lane a k) (lane b k) (lane d k))) ∧
    wrote (.vdiv f) dab [] (fun k => fpDiv p (lane a k) (lane b k)) ∧
    wrote (.vadds f) dab [] (fun k => (sat (sg (lane a k) + sg (lane b k)), 0)) ∧
    wrote (.vsubs f) dab [] (fun k => (sat (sg (lane a k) - sg (lane b k)), 0)) ∧
    wrote (.vcmpeq f) dab [] (fun k => kind (ones (lane a k == lane b k), 0) (ones (fpCmpEq p (lane a k) (lane b k)).1, (fpCmpEq p (lane a k) (lane b k)).2)) ∧
    wrote (.vcmplt f) dab [] (fun k => kind (ones (sg (lane a k) < sg (lane b k)), 0) (ones (fpCmpLt p (lane a k) (lane b k)).1, (fpCmpLt p (lane a k) (lane b k)).2)) ∧
    wrote (.vcmple f) dab [] (fun k => kind (ones (sg (lane a k) ≤ sg (lane b k)), 0) (ones (fpCmpLe p (lane a k) (lane b k)).1, (fpCmpLe p (lane a k) (lane b k)).2)) ∧
    wrote (.vsqrt f) da [] (fun k => fpSqrt p (lane a k)) ∧
    wrote (.vabs f) da [] (fun k => kind (wrap (Int.natAbs (sg (lane a k))), 0) (fpAbs p (lane a k))) ∧
    wrote (.vneg f) da [] (fun k => kind (wrap (-sg (lane a k)), 0) (fpNeg p (lane a k))) ∧
    wrote (.vrcp f) da [] (fun k => fpRcp (lane a k)) ∧
    wrote (.vrsq f) da [] (fun k => fpRsq (lane a k)) ∧
    wrote (.vexp2 f) da [] (fun k => fpExp2 (lane a k)) ∧
    wrote (.vlog2 f) da [] (fun k => fpLog2 (lane a k)) ∧
    wrote (.vshl f) da (regB f.ra f.lit) (fun k => (lane a k * 2 ^ c % 2 ^ w, 0)) ∧
    wrote (.vshr f) da (regB f.ra f.lit) (fun k => (lane a k / 2 ^ c, 0)) ∧
    wrote (.vsar f) da (regB f.ra f.lit) (fun k => (wrap (sg (lane a k) / 2 ^ c), 0))) ∧
  (∀ a : Nat, (fpDecode fp32 a).isNan = true → ∀ g ∈ [fpRcp, fpRsq, fpExp2, fpLog2], g a = (0x7FC00000, flagIf (fpDecode fp32 a).isSig flagNV)) ∧
  (∀ m : Bool,
    let nil := bitAt m 31
    let inf := fp32.infinity m
    let nan : Nat × Flags := (0x7FC00000, flagNV)
    fpRcp nil = (inf, flagDZ) ∧ fpRsq nil = (inf, flagDZ) ∧ fpExp2 nil = (0x3F800000, 0) ∧ fpLog2 nil = (fp32.infinity true, flagDZ) ∧
    fpRcp inf = (nil, 0) ∧ fpRsq inf = (if m then nan else (0, 0)) ∧ fpExp2 inf = (if m then (0, 0) else (inf, 0)) ∧ fpLog2 inf = if m then nan else (inf, 0)) ∧
  ∀ a : Nat, fp32.finite a →
    let x := fp32.value a
    (x ≠ 0 → fp32.Rounds (1 / x) (decide (x < 0)) (fpRcp a)) ∧
    (x < 0 → fpRsq a = (0x7FC00000, flagNV) ∧ fpLog2 a = (0x7FC00000, flagNV)) ∧
    (0 < x → let r := fpRsq a
      fp32.finite r.1 ∧ 0 < fp32.value r.1 ∧ r.2 = flagIf (fp32.value r.1 ^ 2 * x ≠ 1) flagNX ∧
      ∀ y : Nat, fp32.finite y → 0 ≤ fp32.value y →
        (fp32.value y < fp32.value r.1 → ((fp32.value y + fp32.value r.1) / 2) ^ 2 * x ≤ 1) ∧
        (fp32.value r.1 < fp32.value y → 1 ≤ ((fp32.value y + fp32.value r.1) / 2) ^ 2 * x)) ∧
    ∀ i : Int, (x = i → fp32.Rounds (2 ^ i) false (fpExp2 a)) ∧ (x = 2 ^ i → fp32.Rounds i false (fpLog2 a))

/-- spec/10 R246, R247: the instructions on whole rows. -/
def Obligations.VectorRows : Prop :=
  ∀ (f : VecFmt) (s : State),
    let w := elemWidth f.fmt.toNat
    let n := 256 / w
    let lane (x i : Nat) : Nat := x / 2 ^ (w * i) % 2 ^ w
    let a := s.rowA f
    let b := s.rowB f
    let d := s.rowD f
    let wrote (i : Instr) (ps : List RowPtr) (srcs : List (BitVec 7)) (good : Nat → Prop) : Prop :=
      i.wellFormed = true → s.vecReady f ps = true → s.usable srcs = true →
      ∃ x : Nat, x < 2 ^ 256 ∧ good x ∧ exec i s = .next (s.vecEffect f.rd f.pd ps (ps.flatMap fun p => p.rowList s.cur) { row := some x, scalar := none, flags := 0 })
    let dab := [ptrD f, ptrA f, ptrB f]
    wrote (.vand f) dab [] (fun x => ∀ i, i < 256 → x.testBit i = (a.testBit i && b.testBit i)) ∧
    wrote (.vor f) dab [] (fun x => ∀ i, i < 256 → x.testBit i = (a.testBit i || b.testBit i)) ∧
    wrote (.vxor f) dab [] (fun x => ∀ i, i < 256 → x.testBit i = (a.testBit i ^^ b.testBit i)) ∧
    wrote (.vsel f) dab [] (fun x => ∀ i, i < 256 → x.testBit i = (if d.testBit i then a.testBit i else b.testBit i)) ∧
    wrote (.vmov f) [ptrD f, ptrA f] [] (fun x => ∀ i, i < 256 → x.testBit i = a.testBit i) ∧
    wrote (.vshuf f) dab [] (fun x => ∀ i, i < n → lane x i = (if 2 ^ (w - 1) ≤ lane b i then 0 else lane a (lane b i % n))) ∧
    wrote (.vbcast f) [ptrD f] (regB f.ra f.lit) (fun x => ∀ i, i < n → lane x i = (s.opB f.ra f.lit).toNat % 2 ^ w)

/-- spec/10 R242, R246, spec/03 R78, R80: the effect of a vector instruction, and its frame. That conflicts in two banks cost the sum of
their costs is log 38. -/
def Obligations.VectorEffect : Prop :=
  (∀ (s : State) (rd : BitVec 7) (pd : BitVec 3) (ps : List RowPtr) (rows : List Nat) (out : VecOut), s.canonical = true →
    let t := s.vecEffect rd pd ps rows out
    let off := 24576 * s.here + ptrOffset (s.cur.ptr pd)
    (∀ k : Nat, spGet 0 t.cpu.ab k = (match out.row with
      | some x => if off ≤ k ∧ k < off + 32 then BitVec.ofNat 8 (x / 256 ^ (k - off)) else spGet 0 s.cpu.ab k
      | none => spGet 0 s.cpu.ab k)) ∧
    (∀ k : Nat, spGet 0 t.cpu.regs k = (match out.scalar with
      | some v => if k = s.regKey s.gid rd.toNat then v else spGet 0 s.cpu.regs k
      | none => spGet 0 s.cpu.regs k)) ∧
    t.cur = { s.cur with
      flags := s.cur.flags ||| out.flags
      ptrs := (ps.foldl (fun c p => c.advancePtr p.ptr p.inc) s.cur).ptrs
      rot := extraRotations rows
      pc := s.cur.pc + wordOfNat s.sched.slot.len } ∧
    (∀ g : Nat, g ≠ s.gid → t.ctx g = s.ctx g) ∧
    { t with cpu := { t.cpu with ctxs := [], ab := [], regs := [] } } = { s with cpu := { s.cpu with ctxs := [], ab := [], regs := [] } }) ∧
  (∀ (c : Ctx) (k j : BitVec 3), c.advancePtr k false = c ∧
    ((c.advancePtr k true).ptr j = if j = k
      then (c.ptr k &&& 0xFFFFFFFFFFFC0000#64) ||| ((((c.ptr k).extractLsb' 0 18) + ((c.ptr k).extractLsb' 32 16).signExtend 18).zeroExtend 64)
      else c.ptr j)) ∧
  ∀ (f : VecFmt) (s : State),
    let completes (ps : List RowPtr) (is : List Instr) : Prop := s.vecReady f ps = true → ∀ i ∈ is,
      ∃ (x : Nat) (fl : Flags), exec i s = .next (s.vecEffect f.rd f.pd ps (ps.flatMap fun p => p.rowList s.cur) { row := some x, scalar := none, flags := fl })
    completes [ptrD f, ptrA f, ptrB f] [.vadd f, .vsub f, .vmul f, .vfma f, .vdiv f, .vmin f, .vmax f, .vadds f, .vsubs f, .vcmpeq f, .vcmplt f, .vcmple f,
      .vand f, .vor f, .vxor f, .vsel f, .vshuf f] ∧
    completes [ptrD f, ptrA f] [.vsqrt f, .vabs f, .vneg f, .vrcp f, .vrsq f, .vexp2 f, .vlog2 f, .vmov f] ∧
    (s.usable (regB f.ra f.lit) = true → completes [ptrD f, ptrA f] [.vshl f, .vshr f, .vsar f] ∧ completes [ptrD f] [.vbcast f])

/-- spec/10 R248-R252: conversions, quantisations and reductions. The flags of a block with a NaN, and the codes under q = 0, rest on log 39; the order
of a masked reduction of a NaN with both infinities on log 40. -/
def Obligations.VectorConversions : Prop :=
  ∀ (f : VecFmt) (s : State),
    let dst := f.fmt.toNat
    let src := f.fmt2.toNat
    let wd := elemWidth dst
    let ws := elemWidth src
    let lane (w x i : Nat) : Nat := x / 2 ^ (w * i) % 2 ^ w
    let a := s.rowA f
    let da := [ptrD f, ptrA f]
    ((Instr.vcvt f).wellFormed = true → s.vecReady f da = true →
      let k := 256 / max ws wd
      let part := f.rd.toNat
      let from_ (i : Nat) : Nat × Flags := convert dst src (lane ws a (if wd < ws then i else part * k + i))
      ∃ x : Nat, x < 2 ^ 256 ∧
        (∀ i, i < 256 / wd → lane wd x i =
          if wd < ws then (if part * k ≤ i ∧ i < part * k + k then (from_ (i - part * k)).1 else lane wd (s.rowD f) i) else (from_ i).1) ∧
        exec (.vcvt f) s = .next (s.vecEffect f.rd f.pd da (da.flatMap fun p => p.rowList s.cur)
          { row := some x, scalar := none, flags := (List.range k).foldl (fun fl i => fl ||| (from_ i).2) 0 })) ∧
    ((Instr.vqmx f).wellFormed = true → s.usable [f.rd] = true →
      let blocks := if dst = 10 then 2 else 1
      let ps := [ptrD f, { ptrA f with rows := blocks * ws / 8 }]
      s.vecReady f ps = true →
      let block (j : Nat) : Nat × List Nat × Flags := quantMx dst (((s.valuesAt f (32 * blocks)).drop (32 * j)).take 32)
      ∃ x v : Nat, x < 2 ^ 256 ∧ v < 256 ^ blocks ∧
        (∀ j i, j < blocks → i < 32 → lane 8 v j = (block j).1 ∧ lane wd x (32 * j + i) = (block j).2.1.getD i 0) ∧
        exec (.vqmx f) s = .next (s.vecEffect f.rd f.pd ps (ps.flatMap fun p => p.rowList s.cur)
          { row := some x, scalar := some (BitVec.ofNat 64 v), flags := (List.range blocks).foldl (fun fl j => fl ||| (block j).2.2) 0 })) ∧
    ((Instr.vqb4 f).wellFormed = true → s.usable (f.rd :: regB f.ra f.lit) = true →
      let ps := [ptrD f, { ptrA f with rows := ws / 4 }]
      let S := fpDecode fp32 ((s.opB f.ra f.lit).toNat % 2 ^ 32)
      let q := quantQb4 S (s.valuesAt f 64)
      s.vecReady f ps = true →
      ((∀ m d e, S = .fin false m d e → m ≠ 0 → ∃ x : Nat, x < 2 ^ 256 ∧ (∀ i, i < 64 → lane 4 x i = q.2.1.getD i 0) ∧
        exec (.vqb4 f) s = .next (s.vecEffect f.rd f.pd ps (ps.flatMap fun p => p.rowList s.cur)
          { row := some x, scalar := some (BitVec.ofNat 64 q.1), flags := q.2.2 })) ∧
      ((∀ m d e, S = .fin false m d e → m = 0) → exec (.vqb4 f) s = .next (s.raise 0x01 s.word0)))) ∧
    (s.usable [f.rd] = true → s.vecReady f [ptrA f] = true →
      let xs := (List.range (256 / ws)).map fun i => lane ws a i
      let is := xs.map fun x => (BitVec.ofNat ws x).toInt
      let vs := xs.map (elemDecode src)
      let put (out : VecOut) : State := s.vecEffect f.rd f.pd [ptrA f] ((ptrA f).rowList s.cur) out
      let ints (i : Int) : State := put { row := none, scalar := some ((BitVec.ofInt wd i).signExtend 64), flags := 0 }
      let flts (g : Val → Val → Val × Flags) : State :=
        let r := redTree g vs
        let o := roundTo (fpOf dst) r.1
        put { row := none, scalar := some (BitVec.ofNat 64 o.1), flags := r.2 ||| o.2 }
      ((Instr.vredsum f).wellFormed = true → exec (.vredsum f) s = .next (if dst < 2 then ints is.sum else flts (redAdd (fpOf dst)))) ∧
      ((Instr.vredmin f).wellFormed = true →
        (dst < 2 → ∃ m ∈ is, (∀ i ∈ is, m ≤ i) ∧ exec (.vredmin f) s = .next (ints m)) ∧ (¬dst < 2 → exec (.vredmin f) s = .next (flts (redPick false)))) ∧
      ((Instr.vredmax f).wellFormed = true →
        (dst < 2 → ∃ m ∈ is, (∀ i ∈ is, i ≤ m) ∧ exec (.vredmax f) s = .next (ints m)) ∧ (¬dst < 2 → exec (.vredmax f) s = .next (flts (redPick true))))) ∧
    (s.usable (f.rd :: f.rb :: regB f.ra f.lit) = true → s.allows f.pred f.neg = true →
      let v := s.opB f.ra f.lit
      let n := (v.extractLsb' 0 7).toNat
      let cs := (v.extractLsb' 16 16).toNat
      let base := ptrOffset (s.cur.ptr f.pa)
      let offs := ((List.range n).filter fun j => (s.reg f.rb).getLsbD j).map fun j => base + j * cs
      let od := ptrOffset (s.cur.ptr f.pd)
      let rows := od / 32 :: offs.map (· / 32)
      let out (mean : Bool) (i : Nat) : Nat × Flags := maskedReduce (fpOf dst) mean n (offs.map fun o => elemDecode dst (lane wd (s.rows o 1) i))
      od % 32 = 0 → base % 32 = 0 → ptrBuf (s.cur.ptr f.pd) = 0 → ptrBuf (s.cur.ptr f.pa) = 0 → od + 32 ≤ 24576 → n ≤ 64 → cs % 32 = 0 →
      (∀ o ∈ offs, o + 32 ≤ 24576) → s.linesFull (rows.map (· / 4)) = true →
      let wrote (i : Instr) (mean : Bool) : Prop := i.wellFormed = true →
        ∃ x : Nat, x < 2 ^ 256 ∧ (∀ i, i < 256 / wd → lane wd x i = (out mean i).1) ∧
          exec i s = .next (s.vecEffect f.rd f.pd da rows
            { row := some x, scalar := some (BitVec.ofNat 64 (offs.length * 256 + (if offs = [] then 0 else 1)))
              flags := (List.range (256 / wd)).foldl (fun fl i => fl ||| (out mean i).2) 0 })
      wrote (.vredmSum f) false ∧ wrote (.vredmMean f) true)

/-- spec/10 R254-R261: the issue of matrix instructions. That K = 0 checks no end of A or B against the AB and the WB is the model's reading
(log 27). -/
def Obligations.MatrixIssue : Prop :=
  ∀ (f : MatFmt) (s : State), s.allows f.pred f.neg = true →
    let tile := if f.t then 1 else 0
    let p := s.cur.ptr f.pa
    let off := ptrOffset p
    let a := s.opB f.ra f.lit
    let fa := f.fmta.toNat
    let fb := f.fmtb.toNat
    let zero := s.newOp (.mzero tile f.expi.toInt) 0 0 .unbound [] none
    let k := (a.extractLsb' 0 16).toNat
    let b0 := (s.reg f.rb).toNat
    let up (x y : Nat) : Nat := (x + y - 1) / y
    let mx (c : Nat) : Bool := c == 8 || c == 9 || c == 10
    let sizeA := up k (256 / fmtBits fa) * 1024 + (if mx fa then up k 32 * 32 else 0)
    let sizeB := if k = 0 then 0 else k * (8 * fmtBits fb) + (if mx fb then up k 32 * 64 else if fb = 11 then up k 64 * 64 + 256 else 0)
    let fits := off % 32 = 0 ∧ b0 % 64 = 0 ∧ ptrBuf p = 0 ∧ (k ≠ 0 → off + sizeA ≤ 24576 ∧ b0 + sizeB ≤ 262144)
    let mma (skip : Option Nat) : State :=
      let x := s.newOp (.mma tile off fa fb k b0 skip (s.cur.pc + wordOfNat s.sched.slot.len)) 0 0 .unbound [] none
      (x.2.parkOn (.matrix x.1)).handOver x.1
    let refused := s.raise 0x01 s.word0
    exec (.mzero f) s = .next ((zero.2.handOver s.eng.nextOp).next) ∧
    (s.usable (regB f.ra f.lit ++ [f.rb]) = true → fits → s.linesFull (linesOf off sizeA) = true → (a.toNat < 2 ^ 16 → exec (.mma f) s = .next (mma none)) ∧ (2 ^ 16 ≤ a.toNat → exec (.mma f) s = .next refused)) ∧
    (s.usable (regB f.ra f.lit ++ [f.rb, f.rd]) = true → fits → (k ≠ 0 → (s.reg f.rd).toNat + up k 8 ≤ 262144) → s.linesFull (linesOf off sizeA) = true →
      (a.toNat < 2 ^ 16 → exec (.mmaS f) s = .next (mma (some (s.reg f.rd).toNat))) ∧ (2 ^ 16 ≤ a.toNat → exec (.mmaS f) s = .next refused)) ∧
    (s.usable (regB f.ra f.lit) = true → off % 128 = 0 → ptrBuf p = 0 → off + 256 * fmtBits fa ≤ 24576 → s.goodAddr a 8 = true →
      exec (.mdrain f) s = .next (s.issueOp (.drain tile off fa) f.scope a (linesOf off (256 * fmtBits fa))).next)

/-- spec/11 R268-R278: the issue of copies and tier prefetches. What a window of another module gives a copy of scales is the model's choice
(log 34). -/
def Obligations.CopyIssue : Prop :=
  ∀ (f : CopyFmt) (s : State), s.allows f.pred f.neg = true →
    let t := f.treg.toNat
    let ends := (if f.rd = 0 then [] else [f.rd]) ++ (if f.ra = 0 then [] else [f.ra])
    let globals := (if f.rd = 0 then [] else [s.reg f.rd]) ++ (if f.rd ≠ 0 ∧ f.ra = 0 then [] else [s.reg f.ra])
    let ready (form : CopyForm) (trig : Bool) : Prop :=
      let a := s.copyArgs f form
      let hasX := decide (form ≠ .linear) || f.lossy
      s.has (nums ends ++ nums (regB f.rb f.lit) ++ [t] ++ (if hasX then nums [f.xreg] else []) ++ (if trig then [t + 1, t + 2] else [])) = true ∧
      (∀ v ∈ globals ++ [s.reg f.treg] ++ (if trig then [s.regAt s.gid (t + 1)] else []), s.goodAddr v 8 = true) ∧
      (hasX = true → form ≠ .strided → s.goodAddr (s.reg f.xreg) (if f.lossy then 8 else 4) = true) ∧
      (f.lossy = true → ∀ v ∈ globals, v.toNat % 256 = 0) ∧
      a.wordSized f.lossy = true ∧ a.valueGood = true ∧ (s.scalesOf a).aligned = true ∧ (s.scalesOf a).good = true ∧
      (a.local = true → a.off % 8 = 0 ∧ a.inBuffer (s.scalesOf a).extra = true) ∧
      s.copiesOut < 16 ∧ (trig = true → s.triggersOut < 4) ∧ (a.fromLocal = true → trig = false → s.linesFull a.abLines = true)
    let lines (form : CopyForm) := if f.rd = 0 then (s.copyArgs f form).abLines else []
    let s1 (form : CopyForm) := s.updCur fun c => c.advancePtr f.ptr ((s.copyArgs f form).local && f.pl)
    let work (form : CopyForm) := (s.copyArgs f form).work f.lossy (s.scalesOf (s.copyArgs f form)).scales
    let issued (form : CopyForm) : State := ((s1 form).issueOp (work form) f.scope (s.reg f.treg) (lines form)).next
    let armed (form : CopyForm) : State :=
      let x := (s1 form).newOp (work form) f.scope (s.reg f.treg) .pending (lines form) (some (t + 2))
      ((x.2.sendOut s.gid (.engine s.gid x.1)).sendTrigger x.1 (t + 2) (s.regAt s.gid (t + 1)) (s.regAt s.gid (t + 2)) f.scope).next
    (ready .linear false → exec (.copy f) s = .next (issued .linear)) ∧ (ready .strided false → exec (.copyStr f) s = .next (issued .strided)) ∧
    (ready .gather false → exec (.copyGth f) s = .next (issued .gather)) ∧ (ready .scatter false → exec (.copySct f) s = .next (issued .scatter)) ∧
    (ready .linear true → exec (.copyTrg f) s = .next (armed .linear)) ∧ (ready .strided true → exec (.copyStrTrg f) s = .next (armed .strided)) ∧
    (ready .gather true → exec (.copyGthTrg f) s = .next (armed .gather)) ∧ (ready .scatter true → exec (.copySctTrg f) s = .next (armed .scatter)) ∧
    (s.usable (f.ra :: regB f.rb f.lit ++ [f.treg]) = true → s.goodAddr (s.reg f.ra) 1 = true → s.goodAddr (s.reg f.treg) 8 = true →
      (s.opB f.rb f.lit).toNat < 2 ^ 32 →
      exec (.prefTier f) s = .next (s.issueOp (.prefTier (s.reg f.ra) (s.opB f.rb f.lit).toNat) f.scope (s.reg f.treg) []).next)

/-- spec/12 R290, spec/11 R279: the issue of layouts and collective operations. -/
def Obligations.LayoutAndCollectiveIssue : Prop :=
  (∀ (f : LayFmt) (s : State), s.allows f.pred f.neg = true → s.usable ([f.rd, f.ra] ++ regB f.rb f.lit ++ [f.treg, f.desc]) = true →
    s.goodAddr (s.reg f.rd) 8 = true → s.goodAddr (s.reg f.treg) 8 = true → s.goodAddr (s.reg f.desc) 1 = true → s.layoutsOut < 2 →
    let a := s.reg f.ra
    let off := (a.extractLsb' 0 18).toNat
    let len := (a.extractLsb' 32 16).toNat
    (s.goodAddr a 8 = true →
      exec (.layout f) s = .next (s.issueOp (.layout (s.reg f.rd) (.global a) 0 (s.opB f.rb f.lit) (s.reg f.desc)) f.scope (s.reg f.treg) []).next) ∧
    (off % 32 = 0 → off + len ≤ 24576 → a &&& 0xFFFF0000FFFC0000#64 = 0 → s.linesFull (linesOf off len) = true →
      exec (.layoutAb f) s = .next (s.issueOp (.layout (s.reg f.rd) (.ab off) len (s.opB f.rb f.lit) (s.reg f.desc)) f.scope (s.reg f.treg) []).next)) ∧
  ∀ (f : ColFmt) (s : State), s.allows f.pred f.neg = true → s.goodAddr (s.reg f.treg) 8 = true → s.collOut.length < 64 →
    let b := s.opB f.rb f.lit
    let vsn := f.vsn.toNat
    let ptr := s.cur.ptr f.ptr
    let off := ptrOffset ptr
    let rows := off % 32 = 0 ∧ ptrBuf ptr = 0 ∧ (b ≠ 0 → off + b.toNat ≤ 24576) ∧ b.toNat % 32 = 0
    let s1 := s.updCur fun c => c.advancePtr f.ptr f.pi
    let handed (s : State) (w : OpWork) (ls : List Nat) (t : W64) : State := (s.issueOp w f.scope t ls).next
    (s.usable (f.ra :: regB f.rb f.lit ++ [f.treg]) = true → s.goodAddr (s.reg f.ra) 32 = true → s.vsnTaken vsn = false → b.toNat < 6 →
      exec (.collOpen f) s = .next (handed s (.collOpen vsn (s.reg f.ra) b.toNat) [] (s.reg f.treg))) ∧
    (s.usable (regB f.rb f.lit ++ [f.treg]) = true → s.vsnOpen vsn = true →
      (rows → s.linesFull (linesOf off b.toNat) = true → exec (.collPut f) s = .next (handed s1 (.collPut vsn off b.toNat) [] (s.reg f.treg))) ∧
      exec (.collMark f) s = .next (handed s (.collMark vsn b) [] (s.reg f.treg)) ∧
      (rows → (f.lossy = true → off % 256 = 0 ∧ b.toNat ≤ 8192) → f.rd.toNat < s.cur.count → s.emptyAt s.gid f.rd.toNat = false →
        exec (.collGet f) s = .next (handed (s1.markEmpty s.gid f.rd.toNat) (.collGet vsn off b.toNat f.rd.toNat f.lossy) (linesOf off b.toNat) (s.reg f.treg))))

/-- spec/11 R268, R265: the issue of an engine operation. That context 0 of a coupled core hands its operations over alone is the model's choice
(log 10). -/
def Obligations.OperationIssue : Prop :=
  (∀ (s : State) (w : OpWork) (scope : BitVec 4) (va : W64) (lines : List Nat),
    s.canonical = true → lines.Nodup → (∀ l ∈ lines, l < 192) → ((s.core s.here).paired = false ∨ isCtx0 s.gid = true) →
    let t := s.issueOp w scope va lines
    (∃ op : EngOp, t.eng = { s.eng with ops := s.eng.ops ++ [op], nextOp := s.eng.nextOp + 1 } ∧
      op.id = s.eng.nextOp ∧ op.work = w ∧ op.gid = s.gid ∧ op.gen = s.cur.gen ∧ op.core = s.here ∧ op.abCore = s.here ∧ op.pc = s.cur.pc ∧
      op.scope = scope ∧ op.bindVa = va ∧ op.binding = .pending ∧ op.state = .issued ∧ op.lines = lines) ∧
    (∀ c l : Nat, l < 192 → t.lineHolders c l = if c = s.here ∧ l ∈ lines then s.eng.nextOp :: s.lineHolders c l else s.lineHolders c l) ∧
    (∃ evs : List Pending, t.sched = { s.sched with rids := s.sched.rids + 1, agenda := s.sched.agenda ++ evs }) ∧
    { t with cpu := { t.cpu with abEmpty := [] }, eng := s.eng, sched := s.sched } = { s with cpu := { s.cpu with abEmpty := [] } }) ∧
  ∀ (s : State) (o : EngOp), s.op? o.id = some o →
    let asked := if o.binding = .pending then s.post (.numberRequest o.id) else s
    (∀ y ∈ [(OpWork.mzero 0 0, Instr.matrixMzeroPerform o.id), (.mma 0 0 0 0 0 0 none 0, .matrixMmaPerform o.id), (.drain 0 0 0, .matrixDrainPerform o.id),
        (.prefTier 0 0, .prefTierOperation o.id), (.layout 0 (.ab 0) 0 0 0, .layoutOperation o.id []), (.collOpen 0 0 0, .routerInstall o.id)],
      y.1.ctorIdx = o.work.ctorIdx → s.handOver o.id = asked.post y.2) ∧
    (isCopyWork o.work = true → s.handOver o.id =
      if o.state = .trigWait ∨ o.state = .trigRefused ∨ o.state = .trigGranted then asked else asked.post (.copyOperation o.id [])) ∧
    ((vsnOf o.work).isSome = true → s.handOver o.id = asked)

/-- spec/10 R253-R261, spec/11 R272, R278, spec/12 R292, spec/20 R403: the performance of engine operations. The record of a refused binding
names the bound word (log 27); overlapping moves are made in ascending order (log 9); a tier prefetch passes over the pages whose promotion was
abandoned as R413 says (log 13); the record of a LAYOUT names its descriptor, that of a copy the word that failed (log 40): these are the
model's. -/
def Obligations.EnginesPerform : Prop :=
  (∀ (s : State) (o : EngOp) (sw : Nat) (a : W64), s.fillsMove o = false →
    s.failOp o sw a = (s.endOp o).engineFault o 0x10 sw (match o.work with | .layout _ _ _ _ desc => desc | _ => a)) ∧
  ∀ (s : State) (o : EngOp) (remote : List (Option W64)), s.op? o.id = some o → o.state ≠ .ended →
    (∀ sw, o.binding = .refused sw →
      ∀ i ∈ [Instr.matrixMzeroPerform o.id, .matrixMmaPerform o.id, .matrixDrainPerform o.id, .copyOperation o.id remote, .prefTierOperation o.id,
          .layoutOperation o.id remote, .routerInstall o.id],
        exec i s = .next (s.failOp o sw o.bindVa)) ∧
    ((∀ sw, o.binding ≠ .refused sw) →
      (∀ t e, o.work = .mzero t e → exec (.matrixMzeroPerform o.id) s = .next ((s.setTile o.core t { Tile.init with exp := e }).endOp o)) ∧
      (∀ t a0 fa fb k b0 skip next, o.work = .mma t a0 fa fb k b0 skip next →
        let m : MmaArgs := { core := o.core, a0, fa, fb, k, b0, skip }
        let done := (s.setTile o.core t (s.mmaTile m (s.tile o.core t))).endOp o
        (k = 0 → s.mmaTile m (s.tile o.core t) = s.tile o.core t) ∧
        exec (.matrixMmaPerform o.id) s =
          .next (if (done.ctx o.gid).gen = o.gen then done.rejoin o.gid (fun p => p = .matrix o.id) next else done)) ∧
      (∀ t d0 code, o.work = .drain t d0 code →
        let x := s.tile o.core t
        let rs := (List.range 2048).map fun i => drainElem code (x.value (i % 64) (spGet { spec := 0, m := 0 } x.elems i))
        let bits := x.bits ||| rs.foldl (fun b r => b ||| r.2) 0
        exec (.matrixDrainPerform o.id) s = .next ((((s.bothCores o.core).foldl (fun s c => s.setTile c t { s.tile c t with bits }) s).post
          (.deposit { gid := o.gid, gen := o.gen, rid := 0, use := .drainFlags o.id, data := BitVec.ofNat 64 (tileFlags bits).toNat, ok := true, next := 0 })).deliverAb o
            [(d0, rs.flatMap fun r => bytesOfNat r.1 (fmtBits code / 8))])) ∧
      (∀ form dst src len x scales, o.work = .copy form dst src len x false scales → o.trigReg = 0 → s.endAt o.tenant dst = .here →
        (remote = [] → s.endAt o.tenant src = .here) →
        let given := if remote = [] then none else some remote
        let moved (p : CopyPlan) : Host.Outcome State Fault Refusal :=
          .next (if p.units = [] then s.finishOp o else (s.moveAll o (p.moves ++ scaleMoves scales) false given).finish o p none)
        ((form = .linear ∨ form = .strided) →
          let p := copyPlan form dst src len x []
          (s.sourceFull o src p = false → exec (.copyOperation o.id remote) s = .next (s.postIn 1 (.copyOperation o.id remote))) ∧
          (s.sourceFull o src p = true → exec (.copyOperation o.id remote) s = moved p)) ∧
        (∀ idx, (form = .gather ∨ form = .scatter) → o.got = some idx →
          s.sourceFull o src (copyPlan form dst src len x (List.range (slice len 31 0))) = true →
          exec (.copyOperation o.id remote) s = moved (copyPlan form dst src len x idx))) ∧
      (∀ va n, o.work = .prefTier va n → (n = 0 ∨ s.served o.tenant va = .here) →
        let r := s.prefPages (dieOf o.core) o.tenant (va &&& 0xFFFFFFFFFFFF0000#64) n
        (∀ b, r.2 = .error b → exec (.prefTierOperation o.id) s = .next (r.1.failOp o 0x21 b)) ∧
        let left (ps : List Nat) := ps.filter fun p => !(o.got.getD []).contains p
        (∀ ps, r.2 = .ok ps → (∀ q ∈ left ps, (r.1.promote q) = (r.1, true)) → exec (.prefTierOperation o.id) s = .next (r.1.finishOp o)) ∧
        (∀ ps, r.2 = .ok ps → (r.1.promoteAll (left ps)).2 ≠ 0 →
          exec (.prefTierOperation o.id) s = .next ((r.1.promoteAll (left ps)).1.postIn 1 (.prefTierOperation o.id)))) ∧
      (∀ dst src len ext desc, o.work = .layout dst src len ext desc → o.arrived = false →
        exec (.layoutOperation o.id remote) s =
          .next ((s.updOp o.id fun o => { o with arrived := true, cycle := s.sched.now }).post (.layoutOperation o.id []))) ∧
      (∀ dst src len ext desc, o.work = .layout dst src len ext desc → o.arrived = true →
        (desc.toNat % 32 ≠ 0 → exec (.layoutOperation o.id remote) s = .next (s.failOp o 0x01 desc)) ∧
        (∀ ws, desc.toNat % 32 = 0 → o.got = some ws →
          let d := ws.map wordOfNat
          let ns := (extentsOf ext).take (slice (d.getD 0 0) 6 4)
          let n := ns.foldl (· * ·) 1
          let w := fmtBits (slice (d.getD 0 0) 3 0)
          let reason := layoutReason d ext (match src with | .ab _ => some len | _ => none)
          (∀ sw, reason = some sw → exec (.layoutOperation o.id remote) s = .next (s.failOp o sw desc)) ∧
          (reason = none → n = 0 → exec (.layoutOperation o.id remote) s = .next (s.finishOp o)) ∧
          (∀ off, reason = none → n ≠ 0 → src = .ab off →
            exec (.layoutOperation o.id remote) s = .next (s.layoutMove o dst (d.getD 1 0) ns w n
              ((List.range ((n * w + 63) / 64)).map fun k => (BitVec.ofNat 64 (natOfBytes (s.abBytes o.abCore (off + 8 * k) 8)), false)))) ∧
          (∀ va xs t, reason = none → n ≠ 0 → src = .global va → remote = [] → s.served o.tenant va = .here →
            s.layoutSource o va ((n * w + 63) / 64) = (t, .ok xs) →
            exec (.layoutOperation o.id remote) s = .next (t.layoutMove o dst (d.getD 1 0) ns w n xs)))))

/-- spec/11 R266, R267, R272, spec/05 R140, R144, spec/21 R414: the words of a copy, and its end. That they move in ascending order, each seeing
those before it, is the model's choice (log 9). -/
def Obligations.WordMoves : Prop :=
  (∀ (dst src : CopyEnd) (len x : W64), 0 < (len.extractLsb' 0 32).toNat →
    (copyPlan .linear dst src len x []).moves = (List.range ((len.extractLsb' 0 32).toNat / 8)).map fun i => (src.plus (8 * i : Nat), dst.plus (8 * i : Nat))) ∧
  (∀ (m : Moved) (o : EngOp) (src dst : CopyEnd) (remote : Bool) (v : Option (Option W64)), m.fail ≠ none → m.move o src dst remote v = m) ∧
  (∀ (m : Moved) (o : EngOp) (va : W64) (dst : CopyEnd) (u0 : State) (dp : Nat), m.fail = none →
    m.s.xlat (dieOf o.abCore) o.tenant va false = (u0, .ok dp) →
    let u := u0.open (wordAt dp)
    let v := u.memWord (wordAt dp)
    let poisoned := decide (u.memType (wordAt dp) = 7)
    m.move o (.global va) dst false none = ({ m with s := u } : Moved).put o dst false v poisoned) ∧
  (∀ (m : Moved) (o : EngOp) (off : Nat) (dst : CopyEnd), m.fail = none →
    m.move o (.ab off) dst false none = m.put o dst false (BitVec.ofNat 64 (natOfBytes (m.s.abBytes o.abCore off 8))) false) ∧
  (∀ (m : Moved) (o : EngOp) (src dst : CopyEnd), m.fail = none →
    (∀ v, m.move o src dst false (some (some v)) = m.put o dst false v false) ∧ m.move o src dst false (some none) = m.put o dst false 0 true) ∧
  (∀ (m : Moved) (o : EngOp) (v : W64) (off : Nat),
    m.put o (.ab off) false v false = { m with ab := m.ab ++ [(off, bytesOfNat v.toNat 8)] } ∧
    m.put o (.wb off) false v false = { m with s := m.s.setWb (clusterOf o.abCore) off (bytesOfNat v.toNat 8) } ∧
    (∀ d ∈ [CopyEnd.ab off, .wb off], m.put o d false v true = { m with fail := some (0x20, BitVec.ofNat 64 off) })) ∧
  (∀ (m : Moved) (o : EngOp) (va v : W64) (poison : Bool) (u0 : State) (r : Except Nat Nat),
    let low : Option W64 := if poison then some (match m.poisoned with | none => va | some x => if va.toNat < x.toNat then va else x) else m.poisoned
    let put := m.put o (.global va) false v poison
    m.s.xlat (dieOf o.abCore) o.tenant va true = (u0, r) →
    (r = .error 0x08 → put = { m with s := u0, fail := some (0x21, va) }) ∧
    (r = .error 0x09 → put = { m with s := u0, fail := some (0x22, va) }) ∧
    (∀ dp, r = .ok dp →
      let u := u0.open (wordAt dp)
      let ty := u.memType (wordAt dp)
      ((ty ≠ 0 ∧ ty ≠ 7) → put = { m with s := u, fail := some (0x40, va) }) ∧
      (ty = 0 → poison = false → put = { m with s := u.commit (wordAt dp) v (u.memTag (wordAt dp)) }) ∧
      (ty = 7 → poison = false → put = { m with s := u.commit (wordAt dp) v 8 }) ∧
      ((ty = 0 ∨ ty = 7) → poison = true → put = { m with s := u.commit (wordAt dp) 0 15, poisoned := low }))) ∧
  (∀ (s : State) (o : EngOp) (ws : List (Nat × List Byte)), (s.core o.abCore).fwd = none →
    let filled := (ws.foldl (fun s w => s.writeAb o.abCore w.1 w.2) s).releaseLines o
    let done := filled.dropOp o.id
    let numbered : State := { done with sched := { done.sched with rids := done.sched.rids + 1 } }
    done.op? o.id = none ∧
    ((∀ t d c, o.work ≠ .drain t d c) →
      (∀ num, o.binding = .counter num → s.deliverAb o ws = numbered.route (carryNotice (noticeFor o num) done.sched.rids .notice)) ∧
      (o.binding = .barrier → s.deliverAb o ws = numbered.route (carryNotice (noticeFor o 0) done.sched.rids .arrive))) ∧
    (∀ t d c, o.work = .drain t d c → s.op? o.id = some o →
      (o.state ≠ .half → s.deliverAb o ws = filled.updOp o.id fun o => { o with state := .half }) ∧
      (o.state = .half → s.drainEnd o.id = s.complete o))) ∧
  ∀ (o : EngOp) (num : W64) (rid : Nat) (k : ReqKind),
    let r := carryNotice (noticeFor o num) rid k
    (noticeFor o num).num = num ∧ (noticeFor o num).va = o.bindVa ∧ (noticeFor o num).scope = o.scope ∧
    ((noticeFor o num).relaxed = true ↔ o.binding = .barrier ∧ ∃ va n, o.work = .prefTier va n) ∧
    r.notice = some (noticeFor o num) ∧ r.kind = k ∧ r.va = o.bindVa ∧ r.tenant = o.tenant ∧ r.scope = o.scope ∧ r.src = .silent ∧
    r.ord = if (noticeFor o num).relaxed then 0#2 else 2#2

/-- spec/06 R164: one chunk. That at E = 511 a sum of 0 past the limit counts as positive is the model's choice (log 39). -/
def Obligations.ChunkAccumulation : Prop :=
  ∀ (t : Accum) (vs : List Val) (n : Nat), vs.length = t.xs.length → (∀ v ∈ vs, v.isNan = false ∧ v.isInf = false) →
    let ts := vs.map (alignTo t.e)
    let passes (x : Elem) (u : Int × Bool) : Bool := decide (x.spec = 0) && decide (2 ^ 46 < x.m.natAbs + u.1.natAbs)
    let any := (t.xs.zip ts).any fun p => passes p.1 p.2
    let inexact : BitVec 11 := if ts.any (·.2) then 32#11 else 0#11
    (any = false →
      Accum.apply vs (n + 1) t = { t with
        bits := t.bits ||| inexact, xs := List.zipWith (fun (x : Elem) (u : Int × Bool) => if x.spec = 0 then { x with m := x.m + u.1 } else x) t.xs ts }) ∧
    (any = true → t.e < 511 →
      let t1 := min 8 (511 - t.e)
      let ys := t.xs.map fun x => if x.spec = 0 then (let r := roundInt (x.m < 0) x.m.natAbs 1 (-t1); (({ x with m := r.1 } : Elem), r.2)) else (x, false)
      Accum.apply vs (n + 1) t = Accum.apply vs n
        { e := t.e + t1, xs := ys.map (·.1), renorms := min (t.renorms + 1) 65535, bits := t.bits ||| 16#11 ||| (if ys.any (·.2) then 32#11 else 0#11) }) ∧
    (any = true → t.e = 511 →
      Accum.apply vs (n + 1) t = { t with
        bits := t.bits ||| 8#11 ||| inexact
        xs := List.zipWith (fun (x : Elem) (u : Int × Bool) =>
          if passes x u then { x with spec := if x.m + u.1 < 0 then 2 else 1 } else if x.spec = 0 then { x with m := x.m + u.1 } else x) t.xs ts })

/-- spec/12 R286-R288: a layout with a valid mapping permutes the elements. -/
def Obligations.LayoutPermutes : Prop :=
  ∀ (dmw : W64) (ns : List Nat) (w src : Nat), ns.length ≤ 4 → ns ≠ [] → 0 < w → dmwValid dmw ns = true →
    let n := ns.foldl (· * ·) 1
    let out := (layoutBits dmw ns w n src []).1
    (∀ k, k < n → layoutTarget dmw ns k < n) ∧
    (∀ k l, k < n → l < n → layoutTarget dmw ns k = layoutTarget dmw ns l → k = l) ∧
    (∀ k, k < n → out / 2 ^ (w * layoutTarget dmw ns k) % 2 ^ w = src / 2 ^ (w * k) % 2 ^ w) ∧
    out < 2 ^ (w * n)

/-- spec/09 R224-R230, spec/03 R90, spec/21 R409, R410: ordinary accesses at their home slice. That the record of a poisoned
word's partial write goes to the queue of the word's die is log 29. -/
def Obligations.SliceAccesses : Prop :=
  ∀ (r : Request) (s : State),
    let w := wordAt r.dp
    let o := r.dp % 8
    let u := s.open w
    let v := u.memWord w
    let ty := u.memType w
    (dpValid r.dp = true →
      (∀ n sg, r.kind = .load n sg → n ≤ 8 →
        let x : BitVec (8 * n) := BitVec.ofNat (8 * n) (v.toNat / 2 ^ (8 * o))
        (ty = 7 → exec (.homeSliceLoad r) s = .next (u.refuse r 0x0A r.va)) ∧
        (ty ≠ 7 → exec (.homeSliceLoad r) s = .next (u.answer r (if sg then x.signExtend 64 else x.zeroExtend 64) true))) ∧
      (∀ n, r.kind = .store n → o + n ≤ 8 →
        let byte (x : W64) (i : Nat) : Byte := x.extractLsb' (8 * i) 8
        ∀ m : W64, (∀ i, i < 8 → byte m i = if o ≤ i ∧ i < o + n then byte r.data (i - o) else if ty = 7 then 0 else byte v i) →
          (ty = 0 → exec (.homeSliceStore r) s = .next ((u.commit w m (u.memTag w)).answer r 0 true)) ∧
          (ty = 7 → exec (.homeSliceStore r) s = .next (if n = 8 then (u.commit w m 8#4).answer r 0 true
            else ((u.commit w m 15#4).sliceRecord r 0x0A 0x30 (r.va &&& 0xFFFFFFFFFFFFFFF8#64)).answer r 0 true)) ∧
          (ty ≠ 0 → ty ≠ 7 → exec (.homeSliceStore r) s = .next (u.refuse r 0x0B (r.va &&& 0xFFFFFFFFFFFFFFF8#64)))) ∧
      (∀ op, r.kind = .amo op → ty = 0 →
        let x := match op with
          | .add => v + r.data
          | .and => v &&& r.data
          | .or => v ||| r.data
          | .xor => v ^^^ r.data
          | .min => if r.data.slt v then r.data else v
          | .max => if v.slt r.data then r.data else v
          | .minu => if r.data.ult v then r.data else v
          | .maxu => if v.ult r.data then r.data else v
          | .swap => r.data
        exec (.homeSliceAmo r) s = .next ((u.commit w x (u.memTag w)).answer r v true)) ∧
      (r.kind = .cas → ty = 0 → exec (.homeSliceAmo r) s = .next ((if v = r.cmp then u.commit w r.data (u.memTag w) else u).answer r v true)) ∧
      (ty = 7 → exec (.homeSliceAmo r) s = .next (u.refuse r 0x0A r.va)) ∧
      (ty ≠ 0 → ty ≠ 7 → exec (.homeSliceAmo r) s = .next (u.refuse r 0x0B r.va)) ∧
      (r.kind = .ldtag → exec (.homeSliceLdtag r) s = .next (u.answer r ((u.memTag w).zeroExtend 64) true))) ∧
    (dpValid r.dp = false →
      ∀ i ∈ [Instr.homeSliceLoad r, .homeSliceStore r, .homeSliceAmo r, .homeSliceLdtag r, .sluiceMkobj r, .sluiceRmobj r, .sluiceLdFe r, .sluiceStEf r,
          .sluiceCtrTake r, .sluiceCtrWait r, .sluiceBarArrive r, .sluiceBarSync r, .sluiceBarWait r, .sluiceBarJoin r, .sluiceBarWdraw r, .sluiceLkAcq r,
          .sluiceLkTry r, .sluiceLkRel r, .sluiceQpush r, .sluiceQpop r, .sluiceQpushT r, .sluiceQpopT r, .sluiceCndWait r, .sluiceCndSignal r,
          .sluiceCndBcast r, .sluiceForward r],
        exec i s = .fault .noHomeSlice)

/-- spec/03 R90, R91, R100: the write of a word. -/
def Obligations.WordWrites : Prop :=
  ∀ (s : State) (w : Nat) (v : W64) (t : BitVec 4), s.canonical = true → w % 8 = 0 →
    let u := s.commit w v t
    let p := pageOf w
    let e := s.dpit p
    let inMoved : Bool := dpitMove e && (s.movedBlocks p).contains (w % 65536 / 256)
    u.memWord w = v ∧ u.memTag w = t ∧
    (∀ a : Nat, (a < w ∨ w + 8 ≤ a) → u.memByte a = s.memByte a) ∧
    (∀ a : Nat, a ≠ w → u.memTag a = s.memTag a) ∧
    (∀ a : Nat, spGet 0 u.mem.upsets a = (if a = w then 0 else spGet 0 s.mem.upsets a) ∧
      spGet 0 u.mem.copyUpsets a = (if a = w then 0 else spGet 0 s.mem.copyUpsets a)) ∧
    (∀ q : Nat, q ≠ p → u.dpit q = s.dpit q ∧ u.movedBlocks q = s.movedBlocks q) ∧
    (dpitClean e = true → inMoved = false →
      dpitClean (u.dpit p) = false ∧ dpitFrame (u.dpit p) = dpitFrame e ∧ dpitFar (u.dpit p) = dpitFar e ∧ dpitPin (u.dpit p) = dpitPin e) ∧
    ((dpitClean e = false ∨ inMoved = true) → u.dpit p = e) ∧
    u.movedBlocks p = (if inMoved ∧ 256 ∉ s.movedBlocks p then s.movedBlocks p ++ [256] else s.movedBlocks p) ∧
    { u with mem := { u.mem with bytes := [], tags := [], dpit := [], moved := [], upsets := [], copyUpsets := [] } } =
      { s with mem := { s.mem with bytes := [], tags := [], dpit := [], moved := [], upsets := [], copyUpsets := [] } }

/-- spec/03 R95, R96, spec/05 R131, spec/20 R393 (step 13), spec/21 R415: where an address leads; the tables' words are read by their home slices,
each an access of its own (R99, R405). That `LD.FE` needs no write right is log 28; the faults of a KIND that R415 does not list at its level, and
of a page on no die, are log 38. -/
def Obligations.Translation : Prop :=
  (∀ (r : Request) (s : State),
    let x := s.lookup (32 * r.die + vaOf r.va / 65536 % 32) r.tenant r.va
    let reads : Bool := match r.kind with | .load .. | .ldtag | .ldFe | .engineLoad => true | _ => false
    let q (dp : Nat) : Request := { r with dp }
    let early : Bool := match r.src, r.kind, r.use with | .ctx .., .store _, .ack => r.ord == 0#2 || r.ord == 1#2 | _, _, _ => false
    (x.1 = .fault → exec (.translationLookup r) s = .next (x.2.refuse r 0x08 r.va)) ∧
    (∀ dp wr, x.1 = .ok dp wr → reads = false → wr = false → exec (.translationLookup r) s = .next (x.2.refuse r 0x09 r.va)) ∧
    (∀ dp wr, x.1 = .ok dp wr → (reads = true ∨ wr = true) →
      exec (.translationLookup r) s = .next (if early then (x.2.post (.storeAcknowledgement (q dp))).post (homeStep { q dp with early := true })
        else x.2.post (homeStep (q dp))))) ∧
  (∀ (s : State) (sl tenant : Nat) (a : W64), (∀ e ∈ s.mem.tlb, ¬(e.slice = sl ∧ e.tenant = tenant ∧ e.vpn = vaOf a / 65536)) →
    let w := s.walk tenant (vaOf a)
    (s.lookup sl tenant a).1 = w.2 ∧
    (w.2 = .fault → (s.lookup sl tenant a).2 = w.1) ∧
    (∀ dp wr, w.2 = .ok dp wr → (s.lookup sl tenant a).2.mem.tlb.head? = some { slice := sl, tenant, vpn := vaOf a / 65536, page := dp / 65536, wr })) ∧
  (∀ (s : State) (sl tenant : Nat) (a : W64) (e : TlbEntry) (older younger : List TlbEntry), s.mem.tlb = younger ++ e :: older →
    (∀ f ∈ younger, ¬(f.slice = sl ∧ f.tenant = tenant ∧ f.vpn = vaOf a / 65536)) → e.slice = sl → e.tenant = tenant → e.vpn = vaOf a / 65536 →
    s.lookup sl tenant a = (.ok (e.page * 65536 + vaOf a % 65536) e.wr, { s with mem := { s.mem with tlb := e :: (younger ++ older) } })) ∧
  ∀ (s : State) (tenant va : Nat) (t : Tenant), s.tenant? tenant = some t →
    let next (e : W64) : Nat := (e.extractLsb' 16 32).toNat * 65536
    let a1 := t.l1 + 8 * (va / 2 ^ 37)
    let s1 := s.open a1
    let e1 := s1.memWord a1
    let a2 := next e1 + 8 * (va / 2 ^ 21 % 65536)
    let s2 := s1.open a2
    let e2 := s2.memWord a2
    let a3 := next e2 + 8 * (va / 2 ^ 16 % 32)
    let s3 := s2.open a3
    let e3 := s3.memWord a3
    let valid (e : W64) (kind : BitVec 2) : Bool := e.getLsbD 63 && e.extractLsb' 61 2 == kind
    s.walk tenant va =
      if valid e1 0 = false then (s1, .fault)
      else if valid e2 2 then (s2, if (e2.extractLsb' 16 5) = 0 ∧ dpValid (next e2 + va % 2 ^ 21) = true then .ok (next e2 + va % 2 ^ 21) (e2.getLsbD 60) else .fault)
      else if valid e2 0 then (s3, if valid e3 1 = true ∧ dpValid (next e3 + va % 2 ^ 16) = true then .ok (next e3 + va % 2 ^ 16) (e3.getLsbD 60) else .fault)
      else (s2, .fault)

/-- spec/04 R110-R115, Table 4.2, spec/08 R208: what is performed. That `CTR.TAKE` with n at most VALUE is served at once, whatever is parked on the
counter, is log 28. -/
def Obligations.SluicesPerform : Prop :=
  (∀ (r : Request) (s : State), dpValid r.dp = true →
    let w := wordAt r.dp
    let u := s.open w
    let v := u.memWord w
    let ty := u.memType w
    let n := r.data
    let fld (lo len : Nat) : Nat := (v.extractLsb' lo len).toNat
    let bar (phase expected arrived flags : Nat) : W64 :=
      (BitVec.ofNat 16 phase ++ BitVec.ofNat 16 expected ++ BitVec.ofNat 16 arrived ++ BitVec.ofNat 16 flags : BitVec 64)
    let two (hi lo : W32) : W64 := (hi ++ lo : BitVec 64)
    let hi : W32 := v.extractLsb' 32 32
    let lo : W32 := v.extractLsb' 0 32
    let flags := fld 0 16 ||| (n.extractLsb' 0 16).toNat
    let arrived (wd arr : Nat) : W64 :=
      let a := (fld 16 16 + arr) % 65536
      if fld 32 16 - wd ≤ a then bar (fld 48 16 + 1) (fld 32 16 - wd) 0 0 else bar (fld 48 16) (fld 32 16 - wd) a flags
    let phase : W64 := bar (fld 48 16) 0 0 0
    let abandoned := (u.sluice.parked.filter fun p => decide (p.dp = w) && p.abandoned).map (·.ticket)
    let does (k : ReqKind) (i : Instr) (x : W64) (full : Bool) (reply : W64) (ok : Bool) : Prop :=
      exec i s = .next (u.performAt w { r with kind := k } x full reply ok)
    (ty = 0 → u.memFull w = true → does .ldFe (.sluiceLdFe r) v false v true) ∧
    (ty = 0 → u.memFull w = false → does .stEf (.sluiceStEf r) n true 0 true) ∧
    (ty = 1 → r.join = none → does .ctrAdd (.sluiceCtrAdd r) (v + n) true v true) ∧
    (ty = 1 → n.toNat ≤ v.toNat → does .ctrTake (.sluiceCtrTake r) (v - n) true v true ∧ does .ctrWait (.sluiceCtrWait r) v true v true) ∧
    (ty = 2 → does .barArrive (.sluiceBarArrive r) (arrived 0 1) true phase true ∧
      (fld 32 16 ≤ (fld 16 16 + 1) % 65536 → does .barSync (.sluiceBarSync r) (arrived 0 1) true (phase ||| BitVec.ofNat 64 flags) true)) ∧
    (ty = 2 → fld 48 16 ≠ (n.extractLsb' 0 16).toNat → does .barWait (.sluiceBarWait r) v true v true) ∧
    (ty = 2 → fld 32 16 < 65535 → does .barJoin (.sluiceBarJoin r) (bar (fld 48 16) (fld 32 16 + 1) (fld 16 16) (fld 0 16)) true v true) ∧
    (ty = 2 → 0 < fld 32 16 → (∀ p c, r.kind ≠ .memberGone p c) → does .barWdraw (.sluiceBarWdraw r) (arrived 1 0) true v true) ∧
    (ty = 3 → hi = lo → does .lkAcq (.sluiceLkAcq r) (two (hi + 1) lo) true (hi.zeroExtend 64) true ∧
      does .lkTry (.sluiceLkTry r) (two (hi + 1) lo) true (hi.zeroExtend 64) true) ∧
    (ty = 3 → hi ≠ lo → does .lkTry (.sluiceLkTry r) v true v false ∧
      (∀ k : Nat, (∀ j, 0 < j → j < k → lo + BitVec.ofNat 32 j ∈ abandoned) → 0 < k → k < 2 ^ 32 → lo + BitVec.ofNat 32 k ∉ abandoned →
        does .lkRel (.sluiceLkRel r) (two hi (lo + BitVec.ofNat 32 k)) true ((lo + BitVec.ofNat 32 k).zeroExtend 64) true)) ∧
    (ty = 4 →
      let len := (fld 28 28 + 2 ^ 28 - fld 0 28) % 2 ^ 28
      let ring (k : ReqKind) (push : Bool) : Host.Outcome State Fault Refusal := .next (u.ringAccess w { r with kind := k } push false)
      (len < 2 ^ fld 59 5 → exec (.sluiceQpush r) s = ring .qpush true ∧ exec (.sluiceQpushT r) s = ring .qpushT true) ∧
      (0 < len → exec (.sluiceQpop r) s = ring .qpop false ∧ exec (.sluiceQpopT r) s = ring .qpopT false) ∧
      (2 ^ fld 59 5 ≤ len → does .qpushT (.sluiceQpushT r) v true v false) ∧
      (len = 0 → does .qpopT (.sluiceQpopT r) v true v false)) ∧
    (ty = 5 → hi ≠ n.extractLsb' 0 32 → does .cndWait (.sluiceCndWait r) v true (hi.zeroExtend 64) true) ∧
    (ty = 5 → does .cndSignal (.sluiceCndSignal r) (two (hi + 1) (if lo = 0 then 0 else lo - 1)) true ((hi + 1).zeroExtend 64) true ∧
      does .cndBcast (.sluiceCndBcast r) (two (hi + 1) 0) true ((hi + 1).zeroExtend 64) true)) ∧
  ∀ (r : Request) (s : State) (key : Nat), r.join = some key →
    let recs := (s.die (key / 4096)).joins
    (∀ j : JoinRec, spGet none recs (key % 4096) = some j → j.tenant = r.tenant →
      exec (.sluiceCtrAdd r) s = .next ((s.updDie (key / 4096) fun d => { d with joins := spSet none d.joins (key % 4096) (some { j with value := j.value - 1 }) }).answer r j.value true)) ∧
    ((∀ j : JoinRec, spGet none recs (key % 4096) = some j → j.tenant ≠ r.tenant) → exec (.sluiceCtrAdd r) s = .next (s.refuse r 0x0B r.va))

/-- spec/04 R107, R110, R112, R113, R117, R123, R124, spec/22 R418, R422: what parks, and what is refused. -/
def Obligations.SluicesPark : Prop :=
  (∀ (r : Request) (s : State), dpValid r.dp = true →
    let w := wordAt r.dp
    let u := s.open w
    let v := u.memWord w
    let ty := u.memType w
    let n := r.data
    let fld (lo len : Nat) : Nat := (v.extractLsb' lo len).toNat
    let parks (k : ReqKind) (i : Instr) (x : W64) : Prop :=
      exec i s = .next (let t := u.parkAt w { r with kind := k } x; if x = v then t else t.changed w none 0)
    (ty = 0 → u.memFull w = false → parks .ldFe (.sluiceLdFe r) v) ∧
    (ty = 0 → u.memFull w = true → parks .stEf (.sluiceStEf r) v) ∧
    (ty = 1 → v.toNat < n.toNat → parks .ctrTake (.sluiceCtrTake r) v ∧ parks .ctrWait (.sluiceCtrWait r) v) ∧
    (ty = 2 → (fld 16 16 + 1) % 65536 < fld 32 16 →
      parks .barSync (.sluiceBarSync r) ((v.extractLsb' 32 32 ++ BitVec.ofNat 16 (fld 16 16 + 1) ++ BitVec.ofNat 16 (fld 0 16 ||| (n.extractLsb' 0 16).toNat) : BitVec 64))) ∧
    (ty = 2 → fld 48 16 = (n.extractLsb' 0 16).toNat → parks .barWait (.sluiceBarWait r) v) ∧
    (ty = 3 → fld 32 32 ≠ fld 0 32 → parks .lkAcq (.sluiceLkAcq r) (BitVec.ofNat 32 (fld 32 32 + 1) ++ BitVec.ofNat 32 (fld 0 32) : BitVec 64)) ∧
    (ty = 4 → 2 ^ fld 59 5 ≤ (fld 28 28 + 2 ^ 28 - fld 0 28) % 2 ^ 28 → parks .qpush (.sluiceQpush r) v) ∧
    (ty = 4 → fld 28 28 = fld 0 28 → parks .qpop (.sluiceQpop r) v) ∧
    (ty = 5 → fld 32 32 = (n.extractLsb' 0 32).toNat → parks .cndWait (.sluiceCndWait r) (BitVec.ofNat 32 (fld 32 32) ++ BitVec.ofNat 32 (fld 0 32 + 1) : BitVec 64)) ∧
    (ty = 2 → fld 32 16 = 65535 → exec (.sluiceBarJoin r) s = .next (u.refuse { r with kind := .barJoin } 0x0B r.va)) ∧
    (ty = 2 → fld 32 16 = 0 → (∀ p c, r.kind ≠ .memberGone p c) → exec (.sluiceBarWdraw r) s = .next (u.refuse { r with kind := .barWdraw } 0x0B r.va)) ∧
    (ty = 3 → fld 32 32 = fld 0 32 → exec (.sluiceLkRel r) s = .next (u.refuse { r with kind := .lkRel } 0x0B r.va)) ∧
    (∀ y ∈ [(1, ReqKind.ctrTake, Instr.sluiceCtrTake r), (1, .ctrWait, .sluiceCtrWait r), (2, .barArrive, .sluiceBarArrive r), (2, .barSync, .sluiceBarSync r),
        (2, .barWait, .sluiceBarWait r), (2, .barJoin, .sluiceBarJoin r), (3, .lkAcq, .sluiceLkAcq r), (3, .lkTry, .sluiceLkTry r), (3, .lkRel, .sluiceLkRel r),
        (4, .qpush, .sluiceQpush r), (4, .qpop, .sluiceQpop r), (4, .qpushT, .sluiceQpushT r), (4, .qpopT, .sluiceQpopT r), (5, .cndWait, .sluiceCndWait r),
        (5, .cndSignal, .sluiceCndSignal r), (5, .cndBcast, .sluiceCndBcast r)],
      ty ≠ y.1 → ty ≠ 6 → exec y.2.2 s = .next (u.refuse { r with kind := y.2.1 } 0x0B r.va)) ∧
    (ty ≠ 1 → ty ≠ 6 → r.join = none → exec (.sluiceCtrAdd r) s = .next (u.refuse { r with kind := .ctrAdd } 0x0B r.va)) ∧
    (ty ≠ 2 → ty ≠ 6 → (∀ p c, r.kind ≠ .memberGone p c) → exec (.sluiceBarWdraw r) s = .next (u.refuse { r with kind := .barWdraw } 0x0B r.va)) ∧
    (∀ phys core, r.kind = .memberGone phys core → ty = 2 →
      let bye : Request := { r with kind := .barWdraw, data := 0 }
      let itsSync (p : Parked) : Bool := decide (p.dp = w) && decide (p.req.kind = .barSync) && decide (p.req.core = core) &&
        (match p.req.src with | .ctx .. => decide (phys = s.fw.params.physid) | .remote q => decide (q.phys = phys) | _ => false)
      (u.sluice.parked.find? itsSync = none → exec (.sluiceBarWdraw r) s = exec (.sluiceBarWdraw bye) s) ∧
      ∀ q pol, u.sluice.parked.find? itsSync = some q → (u.unpark q).parkPlace (homeSlice w) r.tenant false = some pol →
        exec (.sluiceBarWdraw r) s =
          .next ((u.unpark q).enlist w { bye with kind := .barWait, data := q.phase.zeroExtend 64, src := .withdrawal, dp := w } pol 0 0 none)) ∧
    (ty ≠ 0 → ty ≠ 7 → exec (.sluiceLdFe r) s = .next (u.refuse { r with kind := .ldFe } 0x0B r.va) ∧
      exec (.sluiceStEf r) s = .next (u.refuse { r with kind := .stEf } 0x0B r.va)) ∧
    (∀ y ∈ [(ReqKind.ctrTake, Instr.sluiceCtrTake r), (.ctrWait, .sluiceCtrWait r), (.barArrive, .sluiceBarArrive r), (.barSync, .sluiceBarSync r),
        (.barWait, .sluiceBarWait r), (.barJoin, .sluiceBarJoin r), (.lkAcq, .sluiceLkAcq r), (.lkTry, .sluiceLkTry r), (.lkRel, .sluiceLkRel r),
        (.qpush, .sluiceQpush r), (.qpop, .sluiceQpop r), (.qpushT, .sluiceQpushT r), (.qpopT, .sluiceQpopT r), (.cndWait, .sluiceCndWait r),
        (.cndSignal, .sluiceCndSignal r), (.cndBcast, .sluiceCndBcast r)],
      ty = 6 → exec y.2 s = .next (u.post (.sluiceForward { r with kind := y.1 }))) ∧
    (ty = 7 → exec (.sluiceLdFe r) s = .next (u.refuse { r with kind := .ldFe } 0x0A r.va) ∧
      exec (.sluiceStEf r) s = .next (u.refuse { r with kind := .stEf } 0x0A r.va))) ∧
  ∀ (s : State) (w : Nat) (r : Request) (x : W64),
    let sl := homeSlice w
    let mine := s.sluice.parked.countP fun p => decide (p.slice = sl) && decide (p.req.tenant = r.tenant) && !p.polder
    let listed := s.sluice.parked.countP fun p => decide (p.slice = sl) && !p.polder
    let moved := s.sluice.parked.countP fun p => decide (p.slice = sl) && p.polder
    let written := if x = s.memWord w then s else s.commit w x (s.memTag w)
    let entry (polder : Bool) : Parked :=
      { slice := sl, dp := w, seq := spGet 0 s.sluice.seqs sl, req := r, ticket := (s.memWord w).extractLsb' 32 32, phase := (s.memWord w).extractLsb' 48 16
        polder, notice := none }
    let put (polder : Bool) : State := { written with sluice := { written.sluice with
      parked := written.sluice.parked ++ [entry polder], seqs := spSet 0 written.sluice.seqs sl (spGet 0 s.sluice.seqs sl + 1) } }
    let room := decide (mine < s.quotaAt sl r.tenant) && decide (listed < 1024)
    let stays (t : State) : State := if s.takenBack r then (t.withdrawAll fun p => decide (p.dp = w) && decide (p.seq = spGet 0 s.sluice.seqs sl)).countWithdrawn r else t
    (room = true → s.parkAt w r x = stays (put false)) ∧
    (room = false → moved < 64256 → s.parkAt w r x = stays (put true)) ∧
    (room = false → 64256 ≤ moved → s.parkAt w r x = s.noRoom r) ∧
    ((∀ op d, r.use ≠ .trigger op d) → s.noRoom r = (s.sliceRecord r 0x0B 0x50 r.va).refuse r 0x0B r.va) ∧
    (∀ op d, r.use = .trigger op d → s.noRoom r = s.refuse r 0x0B r.va)

/-- spec/04 R106, R115, R116, R118, R119, R126, spec/21 R409, spec/22 R423: objects, forwarding words, ring words, the polder, and the parked requests
that an operation serves, in sequence order, one reply in a cycle. That a target of no form of R92 is refused as a malformed address is log 11; that a removed lock's abandoned tickets go with it is log 34; of a ring base that
is no local address aligned to 8, bits 51:3 count (log 38), and of a typed one its data (log 40). -/
def Obligations.ObjectsAndRings : Prop :=
  (∀ (r : Request) (s : State), dpValid r.dp = true →
    let w := wordAt r.dp
    let u := s.open w
    (∀ t n : Nat, 1 ≤ t → t ≤ 6 → r.kind = .mkobj t → n = (r.data.extractLsb' 0 5).toNat →
      let init : W64 := if t = 1 then r.data else if t = 2 then (0#16 ++ r.data.extractLsb' 0 16 ++ 0#32 : BitVec 64)
        else if t = 4 then (r.data.extractLsb' 0 5 ++ 0#59 : BitVec 64) else if t = 6 then r.data &&& ~~~7#64 else 0
      (u.memType w = 0 → (t = 4 → n ≤ 16) → exec (.sluiceMkobj r) s = .next ((u.commit w init (BitVec.ofNat 4 (8 + t))).answer r 0 true)) ∧
      ((u.memType w ≠ 0 ∨ (t = 4 ∧ 16 < n)) → exec (.sluiceMkobj r) s = .next (u.refuse r 0x0B r.va))) ∧
    (u.memType w ≠ 0 → u.memType w ≠ 7 → (∀ p ∈ u.sluice.parked, p.dp = w → p.abandoned = true) →
      ∃ t : State, exec (.sluiceRmobj r) s = .next ((t.commit w (u.memWord w) 8#4).answer r (u.memWord w) true) ∧
        t.sluice.parked = u.sluice.parked.filter (fun p => p.dp ≠ w) ∧ t = { u with sluice := t.sluice, sched := t.sched } ∧
        ((∀ p ∈ u.sluice.parked, p.dp ≠ w) → t = u)) ∧
    ((u.memType w = 0 ∨ u.memType w = 7 ∨ ∃ p ∈ u.sluice.parked, p.dp = w ∧ p.abandoned = false) → exec (.sluiceRmobj r) s = .next (u.refuse r 0x0B r.va)) ∧
    (s.memType w = 6 →
      let t := s.memWord w &&& ~~~7#64
      let q := { r with va := t, dp := 0, hops := r.hops + 1, via := some r.va }
      (4 ≤ r.hops → exec (.sluiceForward r) s = .next (s.refuse r 0x0B r.va)) ∧
      (r.hops < 4 → malformed t = false → s.served r.tenant t = .here → exec (.sluiceForward r) s = .next (s.post (.translationLookup { q with die := homeDie w }))) ∧
      (r.hops < 4 → malformed t = false → ∀ p, s.served r.tenant t = .peer p → exec (.sluiceForward r) s = .next (s.post (.stationHandoff q))) ∧
      (r.hops < 4 → malformed t = false → s.served r.tenant t = .dead → exec (.sluiceForward r) s = .next (s.refuse r 0x0C r.va)) ∧
      (r.hops < 4 → malformed t = true → exec (.sluiceForward r) s = .next (s.refuse r 0x04 t)))) ∧
  (∀ (ra : RingAccess) (s : State), dpValid ra.req.dp = true →
    let h := wordAt ra.req.dp
    let (x, u) := s.lookup (xlatSlice (homeDie h) ra.ring) ra.req.tenant ra.ring
    let head (t : State) : State := t.commit h (if ra.push then (ra.header.extractLsb' 59 5 ++ 0#3 ++ (ra.header.extractLsb' 28 28 + 1) ++ ra.header.extractLsb' 0 28 : BitVec 64)
      else (ra.header.extractLsb' 59 5 ++ 0#3 ++ ra.header.extractLsb' 28 28 ++ (ra.header.extractLsb' 0 28 + 1) : BitVec 64)) 0xC#4
    (x = .fault → exec (.ringWordAccess ra) s = .next ((u.refuse ra.req 0x08 ra.ring).ringDone h)) ∧
    (∀ dp wr, x = .ok dp wr →
      let v := u.open (wordAt dp)
      let ty := v.memType (wordAt dp)
      (ra.push = true → wr = false → exec (.ringWordAccess ra) s = .next ((u.refuse ra.req 0x09 ra.ring).ringDone h)) ∧
      (ra.push = true → wr = true → (ty = 0 ∨ ty = 7) →
        exec (.ringWordAccess ra) s = .next (((head (v.commit (wordAt dp) ra.req.data (if ty = 0 then v.memTag (wordAt dp) else 8#4))).grant h ra.polder ra.req 0 true).ringDone h)) ∧
      (ra.push = true → wr = true → ty ≠ 0 → ty ≠ 7 → exec (.ringWordAccess ra) s = .next ((v.refuse ra.req 0x0B ra.ring).ringDone h)) ∧
      (ra.push = false → ty ≠ 7 → exec (.ringWordAccess ra) s = .next (((head v).grant h ra.polder ra.req (v.memWord (wordAt dp)) true).ringDone h)) ∧
      (ra.push = false → ty = 7 → exec (.ringWordAccess ra) s = .next (((head v).refuse ra.req 0x0A ra.ring).ringDone h)))) ∧
  (∀ (m : Reply) (s : State), exec (.polderEntryRead m) s = .next (s.post (.deposit m))) ∧
  (∀ s : State,
    (s.sluice.moves = [] → exec .polderMove s = .next s) ∧
    ∀ (sl n : Nat) (ms : List (Nat × Nat)), s.sluice.moves = (sl, n) :: ms →
      let left (ps : List Parked) : Host.Outcome State Fault Refusal := .next { s with sluice := { s.sluice with moves := ms, parked := ps } }
      let own (p : Parked) : Prop := p.polder = true ∧ p.slice = sl ∧ p.req.tenant = n
      ((s.listRoom sl n = false ∨ ∀ p ∈ s.sluice.parked, ¬own p) → exec .polderMove s = left s.sluice.parked) ∧
      ∀ (older : List Parked) (p : Parked) (younger : List Parked), s.listRoom sl n = true → s.sluice.parked = older ++ p :: younger →
        own p → (∀ q ∈ older, ¬own q) → (∀ q ∈ older ++ younger, ¬(q.slice = sl ∧ q.seq = p.seq ∧ q.dp = p.dp)) →
        exec .polderMove s = left (older ++ { p with polder := false } :: younger)) ∧
  (∀ (s : State) (w : Nat) (polder : Bool) (r : Request) (v : W64) (ok : Bool),
    let before := s.sched.agenda.countP fun p => match grantOf p.ev with | some (o, _) => decide (o = w) | none => false
    let m : Reply := { (match r.src with
      | .ctx gid gen => replyTo r gid gen v ok
      | o => { gid := 0, gen := 0, rid := r.rid, use := .ack, data := v, ok, next := 0, dest := some o }) with grant := some (w, s.sched.rids) }
    (r.src = .withdrawal → s.grant w polder r v ok = s.post (.sluiceBarWdraw { r with kind := .barWdraw, data := 0, src := .silent, ord := 0b10#2 })) ∧
    (r.src ≠ .withdrawal → s.grant w polder r v ok = { s with sched := { s.sched with rids := s.sched.rids + 1, agenda := s.sched.agenda ++
      [{ due := s.sched.now + before, ev := if polder then .polderEntryRead m else .deposit m }] } })) ∧
  (∀ (s : State) (w : Nat) (r : Request) (push polder : Bool),
    let u := s.open (w + 8)
    let i := (if push then ((s.memWord w).extractLsb' 28 28).toNat else ((s.memWord w).extractLsb' 0 28).toNat) % 2 ^ ((s.memWord w).extractLsb' 59 5).toNat
    let a := (u.memWord (w + 8) + BitVec.ofNat 64 (8 * i)) &&& 0xFFFFFFFFFFFFF#64
    (u.memType (w + 8) = 7 → s.ringAccess w r push polder = u.refuse r 0x0B (r.va + 8)) ∧
    (u.memType (w + 8) ≠ 7 →
      s.ringAccess w r push polder = { u with sluice := { u.sluice with busy := w :: u.sluice.busy } }.post
        (.ringWordAccess { req := { r with dp := w }, ring := a, push, header := s.memWord w, polder }))) ∧
  (∀ (s : State) (w : Nat) (r : Request) (v : W64) (full : Bool) (reply : W64) (ok : Bool),
    (∀ p ∈ s.sluice.parked, p.dp ≠ w) → r.kind ≠ .lkRel →
    s.performAt w r v full reply ok = (if v = s.memWord w ∧ full = s.memFull w then s else s.commit w v (mkTag (s.memType w) full)).answer r reply ok) ∧
  (∀ (s : State) (w : Nat) (r : Request) (v : W64) (full : Bool) (reply : W64) (ok : Bool),
    s.canonical = true → w ∉ s.sluice.busy → (v ≠ s.memWord w ∨ full ≠ s.memFull w) →
    let ty := s.memType w
    let old := s.memWord w
    let set := s.commit w v (mkTag ty full)
    let base := set.answer r reply ok
    let perf := s.performAt w r v full reply ok
    let ps := s.parkedAt w
    let served (x : W64) (f : Bool) (answer : W64) (t : State) (p : Parked) : State :=
      let u := (t.unpark p).countAccess w
      (if x = t.memWord w ∧ f = t.memFull w then u else u.commit w x (mkTag ty f)).grant w p.polder p.req answer true
    let all (k : ReqKind) : Prop := ∀ p ∈ ps, p.req.kind = k
    (∀ p ∈ ps, p.abandoned = false ∧ p.notice = none) → ps.Pairwise (fun p q => p.seq ≠ q.seq) →
    (r.kind ≠ .lkRel →
      (ty = 1 → full = true → all .ctrWait → perf = (ps.filter fun p => decide (p.req.data.toNat ≤ v.toNat)).foldl (served v true v) base) ∧
      (ty = 1 → full = true → all .ctrTake → ∀ now later : List Parked, ps = now ++ later → (now.map fun p => p.req.data.toNat).sum ≤ v.toNat →
        (∀ p, later.head? = some p → v.toNat < (now.map fun p => p.req.data.toNat).sum + p.req.data.toNat) →
        perf = now.foldl (fun t p => served (t.memWord w - p.req.data) true (t.memWord w) t p) base) ∧
      (ty = 0 → full = true → all .ldFe → ∀ p later, ps = p :: later → perf = served v false v base p) ∧
      (ty = 0 → full = false → all .stEf → ∀ p later, ps = p :: later → perf = served p.req.data true 0 base p) ∧
      (ty = 2 → full = true → (r.kind = .barArrive ∨ r.kind = .barSync) → (∀ p ∈ ps, p.req.kind = .barSync ∨ p.req.kind = .barWait) →
        let ph := old.extractLsb' 48 16
        (old.extractLsb' 32 16).toNat ≤ ((old.extractLsb' 16 16).toNat + 1) % 65536 →
        let acc := old.extractLsb' 0 16 ||| r.data.extractLsb' 0 16
        let out (p : Parked) : W64 := if p.req.kind = .barSync then (ph ++ 0#32 ++ acc : BitVec 64) else v
        perf = (ps.filter fun p => decide (if p.req.kind = .barSync then p.phase = ph else v.extractLsb' 48 16 ≠ p.req.data.extractLsb' 0 16)).foldl
          (fun t p => served v true (out p) t p) base) ∧
      (ty = 5 → full = true → all .cndWait → (r.kind = .cndSignal ∨ r.kind = .cndBcast) →
        perf = (ps.take (if r.kind = .cndSignal then 1 else (old.extractLsb' 0 32).toNat)).foldl (served v true ((v.extractLsb' 32 32).zeroExtend 64)) base)) ∧
    (r.kind = .lkRel → ty = 3 → full = true → all .lkAcq →
      perf = (ps.filter fun p => decide (p.ticket = v.extractLsb' 0 32)).foldl (served v true ((v.extractLsb' 0 32).zeroExtend 64)) base)) ∧
  ∀ (s : State) (h : Nat) (p : Parked) (later : List Parked),
    let u := { s with sluice := { s.sluice with busy := s.sluice.busy.erase h } }
    let len := ((s.memWord h).extractLsb' 28 28 - (s.memWord h).extractLsb' 0 28 : BitVec 28).toNat
    h ∉ u.sluice.busy → s.memType h = 4 → s.parkedAt h = p :: later → p.abandoned = false → ((u.unpark p).open (h + 8)).memType (h + 8) ≠ 7 →
    (p.req.kind = .qpop → 0 < len → s.ringDone h = (u.unpark p).ringAccess h p.req false p.polder) ∧
    (p.req.kind = .qpush → len < 2 ^ ((s.memWord h).extractLsb' 59 5).toNat → s.ringDone h = (u.unpark p).ringAccess h p.req true p.polder)

/-- spec/02 R42, R49, R63, R64, R67, spec/05 R131, spec/08 R204, R208, R209, spec/09 R235, R236, spec/22 R425: what comes back to a context. That a
`JOIN` traps with cause 0x03 where one of `s4` to `s7` awaits a deposit is log 12; that a message is for the work of one incarnation, and nothing to
another, is log 5. -/
def Obligations.Replies : Prop :=
  (∀ (m : Reply) (s : State), s.atHand m.gid m.gen = true → m.dest = none → s.tooLate m = false →
    let g := m.gid
    let c := s.ctx g
    let wake (t : State) : State := t.readyAt g m.next
    (c.mode = .parked → c.park = .reply m.rid → (isCtx0 g = true → ∀ k, (s.core (coreOf g)).savedPark ≠ .register k) →
      (∀ d, m.use = .reg d → exec (.deposit m) s = .next (wake (s.filled g d m.data))) ∧
      (∀ d, m.use = .regFlags d → exec (.deposit m) s = .next (wake ((s.filled g d m.data).orFlags g (m.data.extractLsb' 0 5)))) ∧
      (∀ d, m.use = .pair d → exec (.deposit m) s = .next ((s.filled g d m.data).postIn 1 (.deposit { m with use := .pairHigh d }))) ∧
      (∀ d, m.use = .pairHigh d → exec (.deposit m) s = .next (wake (s.filled g (d + 1) (if m.ok then 1 else 0)))) ∧
      (∀ d a b, m.use = .blkStore d a b → exec (.deposit m) s = .next (wake
        (((s.setRegAt g d (s.regAt g d + 8)).setRegAt g a (s.regAt g a + 8)).setRegAt g b (s.regAt g b - 1)))) ∧
      (∀ d a b, m.use = .blkLoad d a b →
        let rid := s.sched.rids
        let t := ({ s with sched := { s.sched with rids := rid + 1 } }).setCtx g { c with park := .reply rid }
        exec (.deposit m) s = .next (t.route
          { kind := .store 8, tenant := s.tenantOf (coreOf g), va := s.regAt g d, dp := 0, join := none, data := m.data, cmp := 0, ord := 0, scope := 0
            src := .ctx g c.gen, use := .blkStore d a b, die := dieOf (coreOf g), core := coreOf g, pc := m.next, next := m.next, rid
            early := false, fence := false, hops := 0 })) ∧
      (m.use = .ack → m.rid ≠ 0 → exec (.deposit m) s = .next (wake s)) ∧
      (∀ (key : Nat) (w0 : W64) (j : JoinRec), m.use = .join key w0 → spGet none (s.die (key / 4096)).joins (key % 4096) = some j →
        let awaited (n : Nat) : Bool := s.emptyAt g n
        let freed (x : Option JoinRec) : State := s.updDie (key / 4096) fun d => { d with joins := spSet none d.joins (key % 4096) x }
        let held (t : State) (cause : Nat) : State := (t.setCtx g { c with park := .nothing }).takeTrap g cause 0 w0 c.pc (t.origin c.pc).1 (t.origin c.pc).2 false
        (m.data ≠ 1 → isCtx0 g = false →
          exec (.deposit m) s = .next ((s.setCtx g { c with park := .deposits, work := .participant }).post (.parkedInstructionResume g))) ∧
        (m.data ≠ 1 → isCtx0 g = true → exec (.deposit m) s = .next (held s 0x01)) ∧
        (m.data = 1 → (awaited 4 || awaited 5 || awaited 6 || awaited 7) = true → exec (.deposit m) s = .next (held (freed (some { j with value := 1 })) 0x03)) ∧
        (m.data = 1 → (awaited 4 || awaited 5 || awaited 6 || awaited 7) = false → ∀ v4 v5 v6 v7 : W64, j.saved = [v4, v5, v6, v7] →
          let t := ((((freed none).setRegAt g 4 v4).setRegAt g 5 v5).setRegAt g 6 v6).setRegAt g 7 v7
          exec (.deposit m) s = .next ((t.updCtx g fun c => { c with link := j.link, work := j.work }).readyAt g j.pc)))) ∧
    (∀ d, m.use = .value d → exec (.deposit m) s = .next (if c.park = .register (s.regKey g d) ∨ (c.park = .deposits ∧ (s.filled g d m.data).awaitsDeposit g = false) ∨
        (isCtx0 g = true ∧ (s.core (coreOf g)).savedPark = .register (s.regKey g d))
      then (s.filled g d m.data).post (.parkedInstructionResume g) else s.filled g d m.data)) ∧
    (∀ op, m.use = .drainFlags op → exec (.deposit m) s = .next ((s.updCtx g fun c => { c with flags := c.flags ||| m.data.extractLsb' 0 5 }).drainEnd op)) ∧
    (c.mode = .parked → c.park = .placement → isResidual c.pc = false → ∀ (q : Nat) (childPc : W64), m.use = .placed q childPc →
      let t := s.setCtx g (c.setPred (BitVec.ofNat 3 q) m.ok)
      exec (.deposit m) s = .next (if m.ok then t.readyAt g m.next else (t.updCtx g fun c => { c with link := m.next }).readyAt g childPc))) ∧
  (∀ (m : Reply) (s : State), s.fab.waiting = [] → m.dest = none → s.tooLate m = false → s.movedAway m.gid m.gen = false →
    (∀ op, m.use ≠ .number op) →
    let lost (t : State) : Prop :=
      ((∀ op, m.use ≠ .drainFlags op ∧ ∀ d, m.use ≠ .getWord op d) → exec (.deposit m) s = .next t) ∧
      (∀ op, m.use = .drainFlags op → exec (.deposit m) s = .next (t.drainEnd op)) ∧
      (∀ op d, m.use = .getWord op d → ∀ o, s.op? op = some o → exec (.deposit m) s = .next (t.finishOp o))
    ((s.core (coreOf m.gid)).halted = false → (s.ctx m.gid).gen ≠ m.gen → lost s) ∧
    ((s.core (coreOf m.gid)).halted = true → lost (s.updCore (coreOf m.gid) fun k => { k with dropped := k.dropped + 1 }))) ∧
  (∀ (m : Reply) (op : Nat) (s : State), s.fab.waiting = [] → m.dest = none → s.tooLate m = false → m.use = .number op →
    exec (.deposit m) s = .next (s.bind op (if m.ok then (if m.data = 0 then .barrier else .counter m.data) else .refused (m.data.toNat % 256)))) ∧
  (∀ (m : Reply) (s : State), s.fab.waiting = [] → s.tooLate m = false →
    (∀ q, m.dest = some (.remote q) → exec (.deposit m) s = .next (s.emit (.reply q m.data m.ok))) ∧
    (∀ w, m.dest = some (.fwWait w) → exec (.deposit m) s = .next (s.post (.firmwareCounterWaitGrant w)))) ∧
  (∀ (m : Reply) (s : State), s.fab.waiting = [] → s.tooLate m = true → exec (.deposit m) s = .next s) ∧
  (∀ (r : Request) (g n : Nat) (s : State), r.src = .ctx g n → s.atHand g n = true → (s.ctx g).mode = .parked → (s.ctx g).park = .reply r.rid →
    exec (.storeAcknowledgement r) s = .next (s.readyAt g r.next)) ∧
  (∀ (g n : Nat) (pc : W64) (s : State), s.atHand g n = true → (s.ctx g).mode = .parked → (s.ctx g).park = .callat pc → ¬(isCtx0 g = true ∧ (s.ctx g).inh = true) →
    exec (.callatAcceptance g n) s = .next (s.readyAt g pc)) ∧
  (∀ (g n : Nat) (pc : W64) (x : CancelTarget) (s : State), s.atHand g n = true → (s.ctx g).mode = .parked → (s.ctx g).park = .cancel pc →
    ¬(isCtx0 g = true ∧ (s.ctx g).inh = true) →
    let (u, yes) := s.isCompletion (dieOf (coreOf g)) x.tenant x.ctr
    yes = true → exec (.cancelAcceptance g n x) s = .next ((u.post (.cancelApply { x with ctr := BitVec.ofNat 64 (vaOf x.ctr) })).readyAt g pc)) ∧
  (∀ (g n : Nat) (x : CancelTarget) (s : State),
    let (u, yes) := s.isCompletion (dieOf (coreOf g)) x.tenant x.ctr
    yes = false → ∃ r : Request, r.src = .ctx g n ∧ r.use = .ack ∧ r.rid = 0 ∧ exec (.cancelAcceptance g n x) s = .next (u.post (.faultReply r 0x0B x.ctr))) ∧
  ∀ (g : Nat) (s : State), (s.ctx g).mode = .parked →
    let c := s.ctx g
    let issues : State := s.setCtx g { c with mode := .ready, park := .nothing }
    (∀ k, c.park = .register k → exec (.parkedInstructionResume g) s = .next (if spGet false s.cpu.regEmpty k then s else issues)) ∧
    (∀ l, c.park = .line l → exec (.parkedInstructionResume g) s = .next (if s.lineHolders (coreOf g) l = [] then issues else s)) ∧
    (c.park = .deposits → exec (.parkedInstructionResume g) s = .next (if s.awaitsDeposit g then s else s.retire g))

/-- spec/20 R395, spec/22 R418, R420, R421: refusals. A completion notice that meets a refusal gets the record of R421 with the engine's reason
(log 41); a refused wait of the firmware column asks again (log 37); a refusal of work that is gone is dropped (log 5). -/
def Obligations.FaultReplies : Prop :=
  (∀ (r : Request) (cause : Nat) (addr : W64) (g n : Nat) (s : State), r.src = .ctx g n → s.atHand g n = true → (s.ctx g).mode = .parked →
    (s.ctx g).park = .reply r.rid → (isCtx0 g = true → (s.ctx g).inh = false) →
    let (o, it) := s.origin (s.ctx g).pc
    let trap (t : State) : State := (t.setCtx g { s.ctx g with park := .nothing }).takeTrap g cause 0 addr (s.ctx g).pc o it false
    (∀ d, (r.use = .reg d ∨ r.use = .regFlags d ∨ r.use = .value d) → exec (.faultReply r cause addr) s = .next (trap (s.setEmpty (s.regKey g d) false))) ∧
    (∀ d, r.use = .pair d → exec (.faultReply r cause addr) s = .next (trap ((s.setEmpty (s.regKey g d) false).setEmpty (s.regKey g (d + 1)) false))) ∧
    (r.use = .ack → exec (.faultReply r cause addr) s = .next (trap s)) ∧
    (∀ d a b, (r.use = .blkLoad d a b ∨ r.use = .blkStore d a b) → exec (.faultReply r cause addr) s = .next (trap s)) ∧
    (∀ key w0, r.use = .join key w0 → exec (.faultReply r cause addr) s = .next (trap s))) ∧
  (∀ (r : Request) (cause : Nat) (addr : W64) (g n op d : Nat) (s : State), r.src = .ctx g n → s.atHand g n = true → r.use = .trigger op d →
    exec (.faultReply r cause addr) s = .next (s.refuseTrigger r g n op) ∧
    s.refuse r cause addr = s.refuseTrigger r g n op ∧
    s.refuseTrigger r g n op = (s.updOp op fun o => { o with
      state := .trigRefused, binding := match o.binding with | .refused sw => .refused sw | _ => .refused 0x51 }).post (.deposit (replyTo r g n 0 false))) ∧
  (∀ (r : Request) (cause : Nat) (addr : W64) (id : Nat) (o : EngOp) (s : State), s.fab.waiting = [] → r.src = .op id → s.op? id = some o →
    (o.binding ≠ .pending → exec (.faultReply r cause addr) s = .next (s.failOp o (reasonOf cause) addr)) ∧
    (o.binding = .pending → exec (.faultReply r cause addr) s = .next (s.bind id (.refused (reasonOf cause))))) ∧
  (reasonOf 0x08 = 0x21 ∧ reasonOf 0x09 = 0x22 ∧ reasonOf 0x0A = 0x20 ∧ reasonOf 0x0C = 0x52 ∧ reasonOf 0x0B = 0x40) ∧
  (∀ (r : Request) (cause : Nat) (addr : W64) (s : State), s.fab.waiting = [] →
    (∀ q, r.src = .remote q → exec (.faultReply r cause addr) s = .next (s.emit (.refusal q cause addr)) ∧ s.refuse r cause addr = s.emit (.refusal q cause addr)) ∧
    (∀ n, r.src = .silent → r.notice = some n →
      exec (.faultReply r cause addr) s = .next (s.noticeRecord n (reasonOf cause)) ∧ s.refuse r cause addr = s.noticeRecord n (reasonOf cause)) ∧
    (∀ w, r.src = .fwWait w → exec (.faultReply r cause addr) s = .next (s.askAgain r) ∧ s.refuse r cause addr = s.askAgain r)) ∧
  (∀ (r : Request) (g n : Nat) (s : State), r.src = .ctx g n → s.atHand g n = true →
    let (o, it) := s.origin r.pc
    let word := (r.va.extractLsb' 3 61 ++ 0#3 : BitVec 64)
    ((s.ctx g).mode = .ready → exec (.lateFaultNotice r) s = .next (s.setCtx g { s.ctx g with late := (s.ctx g).late ++ [{ addr := word, orig := o, iter := it }] })) ∧
    (((s.ctx g).mode = .parked ∨ (s.ctx g).mode = .stopped) → exec (.lateFaultNotice r) s = .next (s.takeTrap g 0x0B 0 word (s.ctx g).pc o it true))) ∧
  (∀ (r : Request) (cause : Nat) (addr : W64) (g n : Nat) (s : State), r.src = .ctx g n → s.fab.waiting = [] → s.movedAway g n = false → (s.core (coreOf g)).halted = false →
    (s.ctx g).gen ≠ n →
    exec (.faultReply r cause addr) s = .next s ∧ exec (.lateFaultNotice r) s = .next s) ∧
  ∀ (s : State) (g : Nat) (l : LateStop) (ls : List LateStop), (s.ctx g).late = l :: ls → (s.ctx g).stop = .none → (s.ctx g).mode ≠ .inTransit → (s.ctx g).mode ≠ .idle →
    s.runSlot g = .done ((s.setCtx g { s.ctx g with late := ls }).takeTrap g 0x0B 0 l.addr (s.ctx g).pc l.orig l.iter true)

/-- spec/11 R265-R267, R276, R277, spec/22 R420-R422: bound operations. -/
def Obligations.NoticesAndNumbers : Prop :=
  (∀ (op : Nat) (o : EngOp) (s : State), s.op? op = some o → s.served o.tenant o.bindVa = .here →
    let (x, u) := s.lookup (xlatSlice (dieOf o.core) o.bindVa) o.tenant o.bindVa
    (x = .fault → exec (.numberRequest op) s = .next (u.bind op (.refused 0x21))) ∧
    (∀ dp, x = .ok dp false → exec (.numberRequest op) s = .next (u.bind op (.refused 0x22))) ∧
    (∀ dp, x = .ok dp true →
      let w := wordAt dp
      let v := u.open w
      let y := v.open (w + 8)
      let i := y.memWord (w + 8)
      (v.memType w = 2 → exec (.numberRequest op) s = .next (v.bind op .barrier)) ∧
      (v.memType w ≠ 1 → v.memType w ≠ 2 → exec (.numberRequest op) s = .next (v.bind op (.refused 0x41))) ∧
      (v.memType w = 1 → w % 16 ≠ 0 → exec (.numberRequest op) s = .next (v.bind op (.refused 0x42))) ∧
      (v.memType w = 1 → w % 16 = 0 →
        ((y.memType (w + 8) ≠ 0 ∨ i.toNat < (y.memWord w).toNat) → exec (.numberRequest op) s = .next (y.bind op (.refused 0x42))) ∧
        (y.memType (w + 8) = 0 → (y.memWord w).toNat ≤ i.toNat →
          exec (.numberRequest op) s = .next ((y.commit (w + 8) (i + 1) (y.memTag (w + 8))).bind op (.counter (i + 1))))))) ∧
  (∀ (op : Nat) (o : EngOp) (s : State), s.op? op = some o →
    (s.served o.tenant o.bindVa = .dead → exec (.numberRequest op) s = .next (s.bind op (.refused 0x52))) ∧
    (∀ p, s.served o.tenant o.bindVa = .peer p → exec (.numberRequest op) s = .next (s.post (.stationHandoff (numberRequestOf s o))))) ∧
  (∀ (n : Notice) (s : State), dpValid n.dp = true →
    let w := wordAt n.dp
    let u := s.open w
    let v := u.memWord w
    let sl := homeSlice w
    let mine := u.sluice.parked.countP fun p => decide (p.slice = sl) && decide (p.req.tenant = n.tenant) && !p.polder
    let listed := u.sluice.parked.countP fun p => decide (p.slice = sl) && !p.polder
    let moved := u.sluice.parked.countP fun p => decide (p.slice = sl) && p.polder
    let room := decide (mine < u.quotaAt sl n.tenant) && decide (listed < 1024)
    (u.memType w ≠ 1 → exec (.completionNotice n) s = .next (u.noticeRecord n 0x41)) ∧
    (u.memType w = 1 →
      (v = n.num - 1 → exec (.completionNotice n) s = .next (u.performAt w (noticeRequest n .notice) n.num true 0 true)) ∧
      (v ≠ n.num - 1 → n.num.toNat ≤ v.toNat → exec (.completionNotice n) s = .next (u.noticeRecord n 0x43)) ∧
      (v ≠ n.num - 1 → v.toNat < n.num.toNat →
        (room = true → exec (.completionNotice n) s = .next (u.enlist w (noticeRequest n .notice) false 0 0 (some n))) ∧
        (room = false → moved < 65280 → exec (.completionNotice n) s = .next (u.enlist w (noticeRequest n .notice) true 0 0 (some n))) ∧
        (room = false → 65280 ≤ moved → exec (.completionNotice n) s = .next (u.noticeRecord n 0x44)))) ∧
    (u.memType w ≠ 2 → exec (.boundBarrierArrival n) s = .next (u.noticeRecord n 0x41)) ∧
    (u.memType w = 2 → ∃ v' : W64, exec (.boundBarrierArrival n) s = .next (u.performAt w { noticeRequest n .arrive with data := 0 } v' true
        ((v.extractLsb' 48 16 ++ 0#48 : BitVec 64)) true) ∧
      v' = (if (v.extractLsb' 32 16).toNat ≤ ((v.extractLsb' 16 16).toNat + 1) % 65536
        then ((v.extractLsb' 48 16 + 1) ++ v.extractLsb' 32 16 ++ 0#32 : BitVec 64) else (v.extractLsb' 32 32 ++ (v.extractLsb' 16 16 + 1) ++ v.extractLsb' 0 16 : BitVec 64)))) ∧
  (∀ (s : State) (o : EngOp),
    let req (n : Notice) (k : ReqKind) (order : BitVec 2) : Request :=
      { kind := k, tenant := o.tenant, va := o.bindVa, dp := 0, join := none, data := n.num, cmp := 0, ord := order, scope := o.scope
        src := .silent, use := .ack, die := dieOf o.core, core := o.core, pc := o.pc, next := 0, rid := s.sched.rids
        early := false, fence := false, hops := 0, notice := some n }
    let note (num : W64) (relaxed : Bool) : Notice :=
      { tenant := o.tenant, va := o.bindVa, dp := 0, num, scope := o.scope, core := o.core, pc := o.pc, orig := o.orig, iter := o.iter, unit := o.unit
        launch := o.launch, relaxed, remote := false }
    let t : State := { s with sched := { s.sched with rids := s.sched.rids + 1 } }
    (∀ num, o.binding = .counter num → s.notify o = t.route (req (note num false) .notice 0b10#2)) ∧
    (o.binding = .barrier → (∀ a n, o.work ≠ .prefTier a n) → s.notify o = t.route (req (note 0 false) .arrive 0b10#2)) ∧
    (o.binding = .barrier → ∀ a n, o.work = .prefTier a n → s.notify o = t.route (req (note 0 true) .arrive 0b00#2))) ∧
  (∀ (op : Nat) (o : EngOp) (s : State), s.op? op = some o →
    let c := s.ctx o.gid
    let moves := o.state = .trigGranted ∧ (c.gen ≠ o.gen ∨ c.mode = .ready ∨ c.mode = .parked)
    (moves → exec (.triggerFire op) s = .next ((s.updOp op fun o => { o with state := .issued }).post (.copyOperation op []))) ∧
    (¬moves → exec (.triggerFire op) s = .next s)) ∧
  ∀ (m : Reply) (op d : Nat) (o : EngOp) (s : State), s.atHand m.gid m.gen = true → m.dest = none → s.tooLate m = false → m.use = .trigger op d →
    (s.ctx m.gid).mode = .ready → (s.ctx m.gid).park = .nothing → isCtx0 m.gid = false → s.op? op = some o →
    let t := (s.filled m.gid d m.data).updOp op fun o => { o with state := if o.pending then .trigGranted else o.state }
    (o.state = (if m.ok then .trigWait else .trigRefused) → exec (.deposit m) s = .next (t.post (.triggerFire op))) ∧
    (o.state ≠ (if m.ok then .trigWait else .trigRefused) → exec (.deposit m) s = .next s)

/-- spec/01 R26, spec/02 R52, R54, spec/14 R316, R318, R322, R324, R438: what lets a launch begin, and what tells an object above it. The classes
in which the firmware column's messages cross its boundary are log 24; what an idle report's drop leaves undone is the pass alone (log 24). -/
def Obligations.LaunchesBegin : Prop :=
  (∀ (tenant : Nat) (t : Tenant) (s : State), s.tenant? tenant = some t →
    (s.admits true 3 0 = false → s.idleReport tenant = s.firewallDrop) ∧
    (s.admits true 3 0 = true → (t.lastIdle = none ∨ ∃ l, t.lastIdle = some l ∧ l + 1024 ≤ s.sched.now) →
      s.idleReport tenant = (s.updTenant tenant fun t => { t with lastIdle := some s.sched.now }).post (.dispatchPass tenant)) ∧
    (s.admits true 3 0 = true → ∀ l, t.lastIdle = some l → s.sched.now < l + 1024 → s.idleReport tenant =
      (if t.deferred then s else (s.updTenant tenant fun t => { t with deferred := true }).postIn (l + 1024 - s.sched.now) .idleReportDeferralEnd))) ∧
  (∀ (lid k : Nat) (l : Launch) (s : State), s.launch? lid = some l → s.admits true 1 0 = true →
    let (u, flags) := s.fwRead l.tenant (l.word (0x60 + 8 * k) + 8)
    (flags.getLsbD 0 = true → exec (.firmwareCounterWaitGrant (.pred lid k)) s = .next (u.cancelLaunch lid)) ∧
    (flags.getLsbD 0 = false → l.waits = 1 → l.state = .blocked → u.graphBegun l.tenant l.graph = true → l.n ≠ 0 →
      ∃ t : State, exec (.firmwareCounterWaitGrant (.pred lid k)) s = .next t ∧ t.cpu = u.cpu ∧ t.mem = u.mem ∧ t.dies = u.dies ∧
        t.fw = { u.fw with launches := u.fw.launches.map fun x => if x.lid = lid then { x with waits := x.waits - 1, state := .pending } else x })) ∧
  (∀ (s : State), s.admits true 1 0 = false →
    (∀ lid k, exec (.firmwareCounterWaitGrant (.pred lid k)) s = .next s.firewallDrop) ∧
    (∀ t p, exec (.firmwareCounterWaitGrant (.prevPhase t p)) s = .next s.firewallDrop) ∧
    (∀ t g p, exec (.firmwareCounterWaitGrant (.graphOf t g p)) s = .next s.firewallDrop)) ∧
  (∀ (tenant : Nat) (graph phase : W64) (s : State), s.admits true 1 0 = true →
    let (u, flags) := s.fwRead tenant (graph + 8)
    exec (.firmwareCounterWaitGrant (.graphOf tenant graph phase)) s = .next (u.memberDone tenant phase (flags.getLsbD 0 || flags.getLsbD 2) (flags.getLsbD 1))) ∧
  (∀ (tenant : Nat) (ctr : W64) (o : Obj) (part reaped : Bool) (s : State), s.obj? tenant ctr = some o → o.cancelled = false → o.begun = true → o.level = .graph →
    s.fw.objs.Pairwise (fun x y => ¬(x.is tenant ctr = true ∧ y.is tenant ctr = true)) →
    let n := { o with done := o.done + 1, partialDone := o.partialDone || part, reaped := o.reaped || reaped }
    let t := s.updObj tenant ctr fun _ => n
    (o.done + 1 < o.members → s.memberDone tenant ctr part reaped = t) ∧
    (o.members ≤ o.done + 1 → s.memberDone tenant ctr part reaped =
      (t.updObj tenant ctr fun o => { o with advanced := true }).advanceCounter tenant ctr (statusWord 0 n.partialDone n.reaped false))) ∧
  (∀ (lid : Nat) (l : Launch) (s : State), s.launch? lid = some l → l.state = .blocked → l.waits = 0 → l.n = 0 →
    s.tryBegin lid = (s.updLaunch lid fun l => { l with state := .released }).checkLaunch none lid) ∧
  (∀ (tenant : Nat) (s : State),
    ((∀ l ∈ s.fw.launches, l.tenant = tenant → l.state ≠ .pending) → exec (.dispatchPass tenant) s = .next s) ∧
    (∀ l : Launch, s.fw.launches.filter (fun x => decide (x.tenant = tenant ∧ x.state = .pending)) = [l] → s.launch? l.lid = some l → l.groups = 0 → s.held l = false →
      exec (.dispatchPass tenant) s = .next (s.release l))) ∧
  (∀ (l : Launch) (s : State), l.dies ≠ [] →
    let m := l.dies.length
    let shares := sharesOf l.n m l.dies.zipIdx
    let t := s.release l
    (s.packetsPass = true → t = { s with fw := t.fw, sched := t.sched } ∧
      t.fw = { s.fw with launches := s.fw.launches.map fun x => if x.lid = l.lid then { x with state := .released, shares } else x } ∧
      t.sched.agenda = s.sched.agenda ++ shares.map (fun sh => { due := s.sched.now, ev := Instr.launchPacket sh.die l.lid })) ∧
    (s.packetsPass = false → t = shares.foldl (fun u _ => u.firewallDrop) (s.updLaunch l.lid fun l => { l with state := .released, shares })) ∧
    (∀ sh ∈ shares, 0 < sh.count ∧ sh.next = 0 ∧ ∃ i : Nat, i < m ∧ l.dies[i]? = some sh.die ∧ sh.count = (if i < l.n % m then l.n / m + 1 else l.n / m)) ∧
    (∀ u : Nat, u < l.n ↔ ∃ sh ∈ shares, sh.base ≤ u ∧ u < sh.base + sh.count) ∧
    (shares.map fun sh => sh.count).sum = l.n) ∧
  (∀ s : State, (∀ q ∈ s.fw.queues, s.sched.now < q.lastRead + q.interval) → exec .queueScan s = .next s) ∧
  (∀ (q : Queue) (s : State), firstQueue (s.fw.queues.filter fun q => decide (q.lastRead + q.interval ≤ s.sched.now)) = some q →
    exec .queueScan s = .next (s.scanQueue q).serveNext) ∧
  (∀ (q : Queue) (s : State),
    let (u, x) := s.look (entryDie 0) q.tenant q.block
    let w := match x with | some (v, _) => (v.extractLsb' 0 32).toNat | none => 0
    let i := if w ≠ q.widx then 800 else min (2 * q.interval) 800000
    s.scanQueue q = ({ u with fw := { u.fw with queues := u.fw.queues.map fun x => if x.tenant = q.tenant ∧ x.num = q.num
      then { x with widx := w, interval := i, lastRead := s.sched.now, ready := x.ready || decide (w ≠ x.widx) } else x } } : State).postIn i .queueScan) ∧
  ∀ s : State, ∃ t : State, exec .idleReportDeferralEnd s = .next t ∧ t.mem = s.mem ∧ t.cpu = s.cpu ∧
    t.sched.agenda = s.sched.agenda ++ (s.fw.tenants.filter fun t => t.deferred && (match t.lastIdle with | some l => decide (l + 1024 ≤ s.sched.now) | none => true)).map
      (fun x => { due := s.sched.now, ev := Instr.dispatchPass x.num })

/-- spec/02 R61, R62, spec/13 R308-R310, spec/14 R323: where units start. What an entry takes and when it is in use is log 15; a REGS8 of 0 or above
16 is used as it is (log 38). -/
def Obligations.UnitsPlaced : Prop :=
  (∀ (p : UnitPacket) (l : Launch) (sh : Share) (s : State), s.launch? p.lid = some l → l.share? p.die = some sh → l.cancelled = false →
    l.skip.contains p.unit = false → l.replaced.contains p.unit = false → s.heldAt l p.die = false →
    let k := l.kernel sh
    let hint := s.hintOf l p.die (p.unit - sh.base)
    let found := (walkCores p.die hint.1 hint.2 l.radius).find? (s.takesUnit l k hint.1 hint.2)
    let waits : State := s.updDie p.die fun d => { d with waiting := d.waiting ++ [p] }
    (∀ c, found = some c → ∃ i b : Nat, s.roomFor c (8 * k.regs8) = some (16 * c + i, b) ∧ 1 ≤ i ∧ i ≤ 15 ∧ (s.ctx (16 * c + i)).mode = .idle ∧
      exec (.placementPacket p) s = .next (((s.startCtx (16 * c + i) b (8 * k.regs8) (sh.entry.getD k.entry) l.seeds .unit (l.ident p.unit)).liveUp (some l.lid) 1).nextUnit
        p.lid p.die)) ∧
    (found = none → exec (.placementPacket p) s = .next (waits.nextUnit p.lid p.die)) ∧
    (s.canonical = true → (s.die p.die).waiting = [p] → found = none → exec (.placementRetry p.die) s = .next ((s.updDie p.die fun d => { d with waiting := [] }).updDie p.die fun d =>
      { d with waiting := d.waiting ++ [p] })) ∧
    (∀ c, s.canonical = true → (s.die p.die).waiting = [p] → found = some c →
      exec (.placementRetry p.die) s = .next ((s.updDie p.die fun d => { d with waiting := [] }).startUnit l k (sh.entry.getD k.entry) p.unit c))) ∧
  (∀ (l : Launch) (u d : Nat), d < 4 →
    let tiles (x : Nat × Nat) : Nat := if x.2 = 0 then 1 else (x.1 + x.2 - 1) / x.2
    let along (n : Nat) : Nat := ((l.dims.take n).map tiles).foldl (· * ·) 1
    let x := l.dims.getD d (0, 0)
    let c := u / along d % tiles x
    (l.ident u).unit = BitVec.ofNat 24 u ∧ (l.ident u).launch = l.id ∧ (l.ident u).lid = some l.lid ∧
    (u < along 4 → (l.ident u).o[d]? = some (BitVec.ofNat 32 (if x.2 = 0 then 0 else c * x.2)) ∧
      (l.ident u).e[d]? = some (BitVec.ofNat 32 (if x.2 = 0 then x.1 else min x.2 (x.1 - c * x.2)))) ∧
    (along 4 ≤ u → (l.ident u).o[d]? = some 0 ∧ (l.ident u).e[d]? = some 0)) ∧
  (∀ (die lid : Nat) (l : Launch) (sh : Share) (s : State), s.launch? lid = some l → l.share? die = some sh → l.cancelled = false →
    let (k, u) := s.readKernel die l.tenant l.kernelAddr
    let key := u.keyOf l k
    let (v, found) := (u.updShare lid die fun sh => { sh with code := k.code }).specLookup die key
    (∀ e, found = some e →
      exec (.launchPacket die lid) s = .next (v.specAnswer die lid (if e.generic then k.entry else residualPc die e.index 0))) ∧
    (found = none →
      let w := v.updDie die fun d => { d with evaluating := d.evaluating ++ [(key, lid)] }
      exec (.launchPacket die lid) s = .next (if (v.die die).evaluating.any (fun p => p.1 = key) then w else w.post (.specialiserEvaluation die lid)))) ∧
  (∀ (die lid : Nat) (l : Launch) (sh : Share) (s : State), s.launch? lid = some l → l.share? die = some sh →
    let k := l.kernel sh
    let key := s.keyOf l k
    let (v, found) := (s.updDie die fun x => { x with evaluating := [] }).specLookup die key
    (sh.entry ≠ none → exec (.specialiserEvaluation die lid) s = .next s) ∧
    (sh.entry = none → (s.die die).evaluating = [(key, lid)] → found = none →
      let (pc, u) := v.evaluateKernel die key k l.seeds
      exec (.specialiserEvaluation die lid) s = .next (u.specAnswer die lid pc))) ∧
  ∀ (die : Nat) (key : SpecKey) (k : Kernel) (seeds : List W64) (s : State),
    let (pc, t) := s.evaluateKernel die key k seeds
    t.cpu = s.cpu ∧ t.fw.launches = s.fw.launches ∧ t.eng = s.eng ∧
    (∀ why, (k.evaluate die key.tenant seeds s).result = .error why → pc = k.entry) ∧
    (∀ x, (k.evaluate die key.tenant seeds s).result = .ok x → pc = k.entry ∨ ∃ e ∈ (t.die die).spec, e.key = key ∧ e.code = x.1 ∧ e.map = x.2 ∧ pc = residualPc die e.index 0)

/-- spec/02 R63-R65. -/
def Obligations.ChildrenAndTasks : Prop :=
  (∀ (m : SpawnMsg) (c : Nat) (cs : List Nat) (s : State), s.launchCancelled m.task.launch = false → m.cores = c :: cs →
    let answer (ok : Bool) : Instr := .deposit { gid := m.task.gid, gen := m.task.gen, rid := 0, use := .placed m.q m.task.pc, data := 0, ok, next := m.next }
    (∀ g b, s.takesWork c = true → s.roomFor c m.regs = some (g, b) →
      exec (.spawnRequest m) s = .next (((s.startCtx g b m.regs m.task.pc [m.task.s0, m.task.s1, m.task.s2, m.task.s3] .child (taskIdent m.task)).liveUp m.task.launch 1).post
        (answer true))) ∧
    ((s.takesWork c = false ∨ s.roomFor c m.regs = none) → exec (.spawnRequest m) s = .next (s.post (.spawnRequest { m with cores := cs }))) ∧
    exec (.spawnRequest { m with cores := [] }) s = .next (s.post (answer false))) ∧
  (∀ (core : Nat) (t : Task) (s : State), s.launchCancelled t.launch = false → (s.core core).fwd = none → (s.core core).halted = false → (s.core core).paired = false →
    ((s.core core).tasks.length < 16 → exec (.callatTaskArrival core t) s = .next
      (((s.updCore core fun k => { k with tasks := k.tasks ++ [t] }).post (.callatAcceptance t.gid t.gen)).post (.taskStart core))) ∧
    (16 ≤ (s.core core).tasks.length → exec (.callatTaskArrival core t) s = .next (s.updCore core fun k => { k with callers := k.callers ++ [t] }))) ∧
  (∀ (core : Nat) (t : Task) (rest : List Task) (s : State), (s.core core).tasks = t :: rest →
    (∀ g b, s.takesWork core = true → s.roomFor core 32 = some (g, b) →
      let u := (((s.updCore core fun k => { k with tasks := rest }).startCtx g b 32 t.pc [t.s0, t.s1, t.s2, t.s3] (.task t.gid t.gen t.d) (taskIdent t)).liveUp t.launch 1).slotFreeNotice
        core
      exec (.taskStart core) s = .next (if rest = [] then u else u.post (.taskStart core))) ∧
    ((s.takesWork core = false ∨ s.roomFor core 32 = none) → exec (.taskStart core) s = .next s)) ∧
  (∀ (core : Nat) (s : State), (s.core core).tasks = [] → exec (.taskStart core) s = .next s) ∧
  (∀ (core : Nat) (t : Task) (rest : List Task) (s : State), (s.core core).callers = t :: rest → t.rid = 0 →
    s.slotFreeNotice core = (s.updCore core fun k => { k with callers := { t with rid := 1 } :: rest }).post (.taskQueueSlotFree t.gid t.gen)) ∧
  ∀ (core : Nat) (k : Core) (t : Task) (pre rest : List Task) (s : State), s.movedAway t.gid t.gen = false → s.lives t.gid t.gen = true → t.rid = 1 →
    let mine (y : Task) : Bool := decide (y.gid = t.gid ∧ y.gen = t.gen ∧ y.rid = 1)
    s.cpu.cores.find? (fun x => x.2.callers.any mine) = some (core, k) → k.callers = pre ++ t :: rest → pre.any mine = false →
    exec (.taskQueueSlotFree t.gid t.gen) s = .next ((s.updCore core fun k => { k with callers := pre ++ rest }).post (.callatTaskArrival core { t with rid := 0 }))

/-- spec/02 R57, spec/14 R315-R321, R439, spec/19 R386: commands of the host. That an object command's counter must be aligned to 8, and that a rejected
cancel leaves the counter it names, are log 17; that a counter which is not mapped reads as 0 is log 25, and that a rejection's record names the
command's counter is log 29; the classes in which the column's messages cross the firewall, and a slot that it cannot read, are log
24. -/
def Obligations.HostCommands : Prop :=
  (∀ (s : State) (c : Command), s.fw.serving = true → s.fw.command = c →
    let fin (t : State) : Host.Outcome State Fault Refusal := .next (({ t with fw := { t.fw with serving := false } } : State).post (.dispatchPass c.tenant)).serveNext
    let w (off : Nat) : W64 := c.words.getD (off / 8) 0
    let ctr := w 0x08
    let (seen, counts) := s.isCounter c.tenant ctr 8
    let cancels (unit : Option Nat) : State := seen.cross false 4 0 fun t => t.post (.cancelApply { tenant := c.tenant, ctr := localAddr ctr, unit })
    let no (r : Nat) : Host.Outcome State Fault Refusal := fin (s.reject c r (some (ctr, 8)))
    let obj (level : Level) (parent : W64) (begun : Bool) : Obj :=
      { level, tenant := c.tenant, ctr, parent, members := (w 0x18).toNat, done := 0, begun, partialDone := false, reaped := false, cancelled := false, advanced := false }
    let used2 : List (Nat × W64) := [(0, 0xFF#64), (0x08, -1), (0x10, -1), (0x18, -1)]
    let used3 : List (Nat × W64) := [(0, 0xFF#64), (0x08, -1), (0x10, -1), (0x18, -1), (0x20, -1)]
    let used4 : List (Nat × W64) := [(0, 0xFF#64), (0x08, -1), (0x18, -1)]
    let used5 : List (Nat × W64) := [(0, 0xFF#64), (0x08, -1)]
    let used6 : List (Nat × W64) := [(0, 0xFF#64), (0x08, -1), (0x10, 0xFFFFFF#64)]
    (cmdOf c = 0x01 → exec .hostLaunch s = fin (s.takeLaunch c)) ∧
    (cmdOf c = 0x02 → reservedSet c used2 = false → ctr.toNat % 8 = 0 → exec .hostGraph s = fin (
      let t := s.addObj (obj .graph (w 0x10) true)
      if w 0x10 = 0 then t else t.fwWaitFor c.tenant ctr (.graphOf c.tenant ctr (w 0x10)))) ∧
    (cmdOf c = 0x03 → reservedSet c used3 = false → ctr.toNat % 8 = 0 → exec .hostPhase s = fin (
      let t := s.addObj (obj .phase (w 0x10) (decide (w 0x20 = 0)))
      if w 0x20 = 0 then t else t.fwWaitFor c.tenant (w 0x20) (.prevPhase c.tenant ctr))) ∧
    (cmdOf c = 0x04 → reservedSet c used4 = false → ctr.toNat % 8 = 0 → exec .hostJob s = fin (s.addObj (obj .job 0 true))) ∧
    (cmdOf c = 0x05 → reservedSet c used5 = false →
      (counts = true → exec .hostCancel s = fin (cancels none)) ∧ (counts = false → exec .hostCancel s = fin (seen.reject c 14 none))) ∧
    (cmdOf c = 0x06 → reservedSet c used6 = false →
      (counts = true → exec .hostCancelu s = fin (cancels (some ((w 0x10).extractLsb' 0 24).toNat))) ∧
      (counts = false → exec .hostCancelu s = fin (seen.reject c 14 none))) ∧
    (cmdOf c = 0x02 → (reservedSet c used2 = true → exec .hostGraph s = no 2) ∧ (reservedSet c used2 = false → ctr.toNat % 8 ≠ 0 → exec .hostGraph s = no 4)) ∧
    (cmdOf c = 0x03 → (reservedSet c used3 = true → exec .hostPhase s = no 2) ∧ (reservedSet c used3 = false → ctr.toNat % 8 ≠ 0 → exec .hostPhase s = no 4)) ∧
    (cmdOf c = 0x04 → (reservedSet c used4 = true → exec .hostJob s = no 2) ∧ (reservedSet c used4 = false → ctr.toNat % 8 ≠ 0 → exec .hostJob s = no 4)) ∧
    (cmdOf c = 0x05 → reservedSet c used5 = true → exec .hostCancel s = fin (s.reject c 2 none)) ∧
    (cmdOf c = 0x06 → reservedSet c used6 = true → exec .hostCancelu s = fin (s.reject c 2 none)) ∧
    (commandStep (cmdOf c) = .unknownCommand → exec .unknownCommand s = fin (s.reject c 1 none))) ∧
  (∀ (s : State) (tenant align : Nat) (a : W64),
    ((a.toNat % align ≠ 0 ∨ s.served tenant a ≠ .here) → s.isCounter tenant a align = (s, false)) ∧
    (a.toNat % align = 0 → s.served tenant a = .here →
      let (u, x) := s.fwLook tenant a
      s.isCounter tenant a align = (u, match x with | some (_, tag) => tag.extractLsb' 0 3 == 1#3 | none => false))) ∧
  (∀ (s : State) (c : Command) (r align : Nat) (a : W64),
    let (u, yes) := s.isCounter c.tenant a align
    let (v, stands) := u.fwRead c.tenant (a + 8)
    let what : List W64 := [BitVec.ofNat 64 (c.queue * 2 ^ 32 + c.slot % 2 ^ 32), BitVec.ofNat 64 (r * 2 ^ 8 + cmdOf c)]
    (yes = true → s.reject c r (some (a, align)) = (u.advanceCounter c.tenant (localAddr a) 1).event c.tenant 0x02 a 1 what) ∧
    (yes = false → s.reject c r (some (a, align)) = v.event c.tenant 0x02 a stands what) ∧
    s.reject c r none = s.event c.tenant 0x02 0 0 what) ∧
  (∀ (s : State) (c : Command) (l : Launch) (k : Kernel) (retire : Bool),
    (s.launchReason c l k retire = none ↔
      l.n ≤ 16777216 ∧ reservedSet c launchUsed = false ∧ l.lctr.toNat % 16 = 0 ∧ l.kernelAddr.toNat % 16 = 0 ∧ k.magic = 0x1D ∧
      (l.n = 0 ∨ (l.dies ≠ [] ∧ ∀ d ∈ l.dies, s.holdsDie l.tenant d = true)) ∧
      (l.groups = 0 ∨ (l.n % l.groups = 0 ∧ l.n / l.groups ≤ 8 * l.quota k)) ∧ (l.rctr = true → retire = true)) ∧
    (16777216 < l.n → s.launchReason c l k retire = some 3) ∧
    (l.n ≤ 16777216 → reservedSet c launchUsed = true → s.launchReason c l k retire = some 2) ∧
    (l.n ≤ 16777216 → reservedSet c launchUsed = false → (l.lctr.toNat % 16 ≠ 0 ∨ l.kernelAddr.toNat % 16 ≠ 0 ∨ k.magic ≠ 0x1D) →
      s.launchReason c l k retire = some 4) ∧
    (∀ off m, (off, m) ∈ launchUsed ↔ (off = 0x00 ∧ m = 0xFFFFFFFF003FF3FF#64) ∨ (off = 0x38 ∧ m = 0xFFFF7F3F#64) ∨
      (off % 8 = 0 ∧ 0 < off ∧ off ≤ 0x70 ∧ off ≠ 0x38 ∧ m = -1))) ∧
  (∀ (s : State) (c : Command) (t : Tenant), s.tenant? c.tenant = some t →
    let w (off : Nat) : W64 := c.words.getD (off / 8) 0
    let (v, ws) := (s.updTenant c.tenant fun x => { x with launches := x.launches + 1 }).fwWords c.tenant (w 0x10) 6
    let k : Kernel := { addr := w 0x10, code := ws.flatMap fun x => bytesOfNat x.toNat 8 }
    let l : Launch := { lid := s.fw.nextLid, tenant := c.tenant, words := c.words, id := BitVec.ofNat 32 (c.tenant * 2 ^ 28 + t.launches % 2 ^ 28), state := .blocked
                        waits := (if w 0x60 = 0 then 0 else 1) + (if w 0x68 = 0 then 0 else 1), age := 0, shares := [], live := 0, retired := 0, reaped := false
                        partialDone := false, cancelled := false, replaced := [], skip := [] }
    let (u, retire) := if (w 0).getLsbD 21 then v.isCounter c.tenant (w 0x08 + 16) 8 else (v, false)
    let add (u : State) (x : Launch) : State := { u with fw := { u.fw with launches := u.fw.launches ++ [x], nextLid := u.fw.nextLid + 1 } }
    (u.launchReason c l k retire = none → (w 0x70 = 0 ∨ (add u l).parentCancelled c.tenant (w 0x70) = false) →
      s.takeLaunch c = ((add u l).waitPreds l).tryBegin l.lid) ∧
    (u.launchReason c l k retire = none → (add u l).parentCancelled c.tenant (w 0x70) = true → s.takeLaunch c = (add u l).cancelLaunch l.lid) ∧
    (∀ r, u.launchReason c l k retire = some r →
      (w 0x70 = 0 → s.takeLaunch c = (add u { l with state := .advanced, cancelled := true }).reject c r (some (w 0x08, 16))) ∧
      (w 0x70 ≠ 0 →
        let (x, counts) := u.isCounter c.tenant (w 0x08) 16
        let out := (add x { l with state := .advanced, cancelled := true }).reject c r (some (w 0x08, 16))
        s.takeLaunch c = if counts then out.post (.firmwareCounterWaitGrant (.launchOf l.lid (w 0x70))) else out))) ∧
  (∀ s : State, (s.fw.serving = false ∨ cmdOf s.fw.command ≠ 0x01) → exec .hostLaunch s = .next s) ∧
  (∀ (s : State) (q : Queue),
    let (s1, base) := s.fwRead q.tenant (q.block + 0x10)
    let (s2, cap) := s1.fwRead q.tenant (q.block + 0x18)
    let a := base + BitVec.ofNat 64 (128 * (q.ridx % 2 ^ (cap.extractLsb' 0 5).toNat))
    let free : Prop := ∀ i < 16, ∀ dp, s2.dpFor q.tenant (a + BitVec.ofNat 64 (8 * i)) = some dp → s2.admits false 0 dp = true ∧ s2.admits true 1 0 = true
    (free → s.slotWords q = ((s2.fwWords q.tenant a 16).1, some (s2.fwWords q.tenant a 16).2)) ∧
    (¬free → s.slotWords q = (s2.firewallDrop, none))) ∧
  (∀ (s : State) (q : Queue), s.fw.serving = false → s.nextQueue = some q →
    let (u, x) := s.slotWords q
    let r := (q.ridx + 1) % 2 ^ 32
    let mine (f : Queue → Queue) : List Queue := u.fw.queues.map fun x => if x.tenant = q.tenant ∧ x.num = q.num then f x else x
    (x = none → s.serveNext = { u with fw := { u.fw with queues := mine fun x => { x with ready := false } } }) ∧
    (∀ ws, x = some ws →
      let c : Command := { tenant := q.tenant, queue := q.num, slot := q.ridx, words := ws }
      ∃ t : State, s.serveNext = (t.writeRidx c q.block).post (commandStep (cmdOf c)) ∧ t = { u with fw := t.fw } ∧ t.fw.serving = true ∧ t.fw.command = c ∧
        t.fw.queues = mine fun x => { x with ridx := r, ready := decide (r ≠ x.widx) })) ∧
  ∀ (s : State) (c : Command) (block : W64),
    let r : Request := { fwRequest s.sched.fwTags c.tenant (.store 4) (block + 8) (BitVec.ofNat 64 ((c.slot + 1) % 2 ^ 32)) with scope := 9#4 }
    let t : State := { s with sched := { s.sched with fwTags := s.sched.fwTags + 1 } }
    s.writeRidx c block = if t.letsOut r then t.post (.translationLookup r) else t.firewallDrop

/-- spec/15 R331, R332, R334, spec/16 R351, R352, R359, spec/14 R439: the commands of Table 16.1. The classes in which the firmware column's table and
DPIT writes, its reads and its report cross the firewall are log 24; when `UNMAP` and `REMAP` have ended is log 28. -/
def Obligations.TenantCommands : Prop :=
  (∀ (s : State) (c : Command), s.fw.serving = true → s.fw.command = c →
    let fin (t : State) : Host.Outcome State Fault Refusal := .next (({ t with fw := { t.fw with serving := false } } : State).post (.dispatchPass c.tenant)).serveNext
    let w (off : Nat) : W64 := c.words.getD (off / 8) 0
    let ctr := w 0x70
    let no (r : Nat) : Host.Outcome State Fault Refusal := fin (s.reject c r (some (ctr, 8)))
    let ok (t : State) : Host.Outcome State Fault Refusal := fin (t.advanceCounter c.tenant (BitVec.ofNat 64 (vaOf ctr)) 0)
    let clean (used : List (Nat × W64)) : Prop := reservedSet c ((0, 0xFF#64) :: (0x70, -1) :: used) = false ∧ ctr.toNat % 8 = 0
    let va := (w 0x08).toNat
    let n := ((w 0x10).extractLsb' 0 32).toNat
    let big := (w 0x10).getLsbD 32
    let size := if big then 2 ^ 21 else 65536
    let num := ((w 0x10).extractLsb' 0 6).toNat
    let registered : Bool := s.fw.queues.any fun q => decide (q.tenant = c.tenant) && decide (q.num = num)
    (cmdOf c = 0x10 → clean [(0x08, -1), (0x10, 0x3FFFFFFFF#64), (0x18, 0xFFFFFF#64)] →
      (va % size ≠ 0 → exec .map s = no 4) ∧ (va % size = 0 → 2 ^ 52 < va + n * size → exec .map s = no 15) ∧
      (∀ t, va % size = 0 → va + n * size ≤ 2 ^ 52 → s.tenant? c.tenant = some t →
        let (v, x) := s.mapRange t va n big ((w 0x10).getLsbD 33) (w 0x18)
        (x = none → exec .map s = ok v) ∧ (∀ r, x = some r → exec .map s = fin (v.reject c r (some (ctr, 8))) ∧ (r = 9 ∨ r = 10)))) ∧
    (cmdOf c = 0x11 → clean [(0x08, -1), (0x10, 0x3FFFFFFFF#64)] →
      (va % size ≠ 0 → exec .unmap s = no 4) ∧ (va % size = 0 → 2 ^ 52 < va + n * size → exec .unmap s = no 15) ∧
      (∀ t, va % size = 0 → va + n * size ≤ 2 ^ 52 → s.tenant? c.tenant = some t →
        let (v, x) := s.unmapPages t big va n
        (x = none → exec .unmap s = fin (v.reject c 11 (some (ctr, 8)))) ∧
        (x = some [] → exec .unmap s = ok v) ∧
        (∀ p ps, x = some (p :: ps) →
          let y := v.dropEntries t big va n
          exec .unmap s = fin (({ y with fw := { y.fw with settling := y.fw.settling ++
            [{ tenant := c.tenant, ctr := BitVec.ofNat 64 (vaOf ctr), pages := p :: ps, reqs := [], ops := [] }] } } : State).post .unmap)))) ∧
    (cmdOf c = 0x12 → clean [(0x08, 0xF#64), (0x10, 0xF00FFFFFFFFF0001#64), (0x18, 0xFFFFFFFFF0000#64), (0x20, 0xFFFFFFFFFFFF8#64)] →
      (let win : FWin := { fwa := w 0x10, fwb := w 0x18, fws := w 0x20 }
       exec .fwin s = ok { s with mem := { s.mem with fwins := spSet { fwa := 0, fwb := 0, fws := 0 } s.mem.fwins (16 * c.tenant + ((w 0x08).extractLsb' 0 4).toNat) win } })) ∧
    (cmdOf c = 0x13 → clean [(0x08, -1), (0x10, 0x3F#64)] →
      (va % 64 ≠ 0 → exec .qreg s = no 4) ∧ (va % 64 = 0 → registered = true → exec .qreg s = no 12) ∧
      (va % 64 = 0 → registered = false →
        let (u, x) := s.fwRead c.tenant (w 0x08 + 8)
        let r := (x.extractLsb' 0 32).toNat
        let q : Queue := { tenant := c.tenant, num, block := w 0x08, widx := r, interval := 800, lastRead := s.sched.now, ridx := r, ready := false }
        exec .qreg s = ok (({ u with fw := { u.fw with queues := u.fw.queues ++ [q] } } : State).postIn 800 .queueScan))) ∧
    (cmdOf c = 0x14 → clean [(0x10, 0x3F#64)] →
      (registered = false → exec .qunreg s = no 12) ∧
      (registered = true → exec .qunreg s = ok { s with fw := { s.fw with queues := s.fw.queues.filter fun q => !(decide (q.tenant = c.tenant) && decide (q.num = num)) } })) ∧
    (cmdOf c = 0x15 → clean [(0x08, 0x3FF#64), (0x10, 0x80000000000003FF#64)] → ∀ t, s.tenant? c.tenant = some t →
      let l := ((w 0x08).extractLsb' 0 10).toNat
      let new := spSet 0 t.remap l ((w 0x10) &&& 0x80000000000003FF#64)
      let named := new.filterMap fun e => if e.2.getLsbD 63 then some ((e.2.extractLsb' 0 10).toNat) else none
      let good : Prop := named.Nodup ∧ s.fw.params.physid ∈ named
      let v := s.updTenant c.tenant fun t => { t with remap := new }
      let old := (s.fab.waiting.map fun x => x.2.2).filter fun r => decide (r.tenant = c.tenant) && isGlobal r.va && decide (logicalOf r.va = l)
      let ops := (s.eng.ops.filter fun o => decide (o.tenant = c.tenant) && s.fab.opPeers.any fun x => decide (x.2.1 = o.id)).map (·.id)
      (¬good → exec .remap s = no 8) ∧
      (good → old = [] → ops = [] → exec .remap s = ok v) ∧
      (good → ¬(old = [] ∧ ops = []) → exec .remap s = fin (({ v with fw := { v.fw with settling := v.fw.settling ++
        [{ tenant := c.tenant, ctr := BitVec.ofNat 64 (vaOf ctr), pages := [], reqs := old, ops }] } } : State).postIn 1 .unmap))) ∧
    (cmdOf c = 0x16 → clean [(0x08, -1), (0x10, -1)] →
      ((w 0x10).toNat % 64 ≠ 0 → exec .attest s = no 4) ∧
      ((w 0x10).toNat % 64 = 0 →
        let (u, words) := s.fwWords c.tenant (w 0x08 &&& ~~~7#64) 5
        let body := u.report (((words.flatMap fun x => bytesOfNat x.toNat 8).drop (va % 8)).take 32)
        exec .attest s = fin (((u.writeAllForFw c.tenant (w 0x10) (body ++ bytesTo 64 (Config.identitySign (sha256 body)))).advanceCounter c.tenant (BitVec.ofNat 64 (vaOf ctr)) 0).event
          c.tenant 0x05 ctr 0 []))) ∧
    (cmdOf c = 0x17 → clean [(0x08, -1), (0x10, -1)] →
      ((s.fw.params.owners.contains (c.tenant, c.queue) = false ∨ 2 ^ 20 < (w 0x10).toNat) → exec .cfgstage s = no 7) ∧
      (s.fw.params.owners.contains (c.tenant, c.queue) = true → (w 0x10).toNat ≤ 2 ^ 20 →
        let (bs, v) := s.fwBytes c.tenant (w 0x08) (((w 0x10).toNat + 7) / 8)
        (v.boot.verify (bs.take (w 0x10).toNat) = none → exec .cfgstage s = fin (v.reject c 7 (some (ctr, 8)))) ∧
        (∀ t, v.boot.verify (bs.take (w 0x10).toNat) = some t → exec .cfgstage s = ok { v with boot := { v.boot with staged := some t.bytes } }))) ∧
    (∀ y ∈ ([(0x10, .map, [(0x08, -1), (0x10, 0x3FFFFFFFF#64), (0x18, 0xFFFFFF#64)]), (0x11, .unmap, [(0x08, -1), (0x10, 0x3FFFFFFFF#64)]),
        (0x12, .fwin, [(0x08, 0xF#64), (0x10, 0xF00FFFFFFFFF0001#64), (0x18, 0xFFFFFFFFF0000#64), (0x20, 0xFFFFFFFFFFFF8#64)]),
        (0x13, .qreg, [(0x08, -1), (0x10, 0x3F#64)]), (0x14, .qunreg, [(0x10, 0x3F#64)]), (0x15, .remap, [(0x08, 0x3FF#64), (0x10, 0x80000000000003FF#64)]),
        (0x16, .attest, [(0x08, -1), (0x10, -1)]), (0x17, .cfgstage, [(0x08, -1), (0x10, -1)])] : List (Nat × Instr × List (Nat × W64))),
      cmdOf c = y.1 →
        let used := (0, 0xFF#64) :: (0x70, -1) :: y.2.2
        (reservedSet c used = true → exec y.2.1 s = no 2) ∧ (reservedSet c used = false → ctr.toNat % 8 ≠ 0 → exec y.2.1 s = no 4))) ∧
  ∀ (s : State) (x : Settling), s.fw.serving = false → s.fw.settling = [x] → x.reqs = [] → x.ops = [] → x.pages ≠ [] →
    let busy : Bool := (s.sluice.parked.any fun p => !p.abandoned && x.pages.contains (pageOf p.dp)) ||
      s.sched.agenda.any fun p => match dpOf p.ev with | some dp => x.pages.contains (pageOf dp) | none => false
    let gone : State := (s.sluice.parked.filter fun p => p.abandoned && x.pages.contains (pageOf p.dp)).foldl State.unpark
      { s with fw := { s.fw with settling := [], pages := s.fw.pages.filter fun p => !x.pages.contains p } }
    let freed : State := x.pages.foldl (fun t p => t.fwStore (dpitAddr p) fun t => (t.setDpit p 0).setMoved p [])
      { gone with mem := { gone.mem with icache := gone.mem.icache.filter fun e => !x.pages.contains (pageOf e.dp) } }
    (busy = true → exec .unmap s = .next (s.postIn 1 .unmap)) ∧
    (busy = false → exec .unmap s = .next (freed.advanceCounter x.tenant x.ctr 0))

/-- spec/02 R57-R60, spec/19 R382-R385, spec/21 R411: what stops work. That the lines of stopped operations stay empty until they are filled again is log
19; what a mismatch of work that is no unit does, and whose instruction a record names, are log 20; that a cancelled object with members is
PARTIAL is log 16. -/
def Obligations.Stops : Prop :=
  (∀ (x : CancelTarget) (s : State),
    let found := s.fw.launches.find? fun l => decide (l.tenant = x.tenant) && decide (l.lctr = x.ctr) && decide (l.state ≠ .advanced)
    (∀ l, found = some l → x.unit = none → exec (.cancelApply x) s = .next (s.cancelLaunch l.lid)) ∧
    (∀ l u, found = some l → x.unit = some u → exec (.cancelApply x) s = .next (s.cancelUnit l.lid u)) ∧
    (∀ o, found = none → x.unit = none → s.obj? x.tenant x.ctr = some o → exec (.cancelApply x) s = .next (match o.level with
      | .graph => s.cancelGraph x.tenant x.ctr
      | .phase => s.cancelPhase x.tenant x.ctr
      | .job => s.cancelJob x.tenant x.ctr)) ∧
    (found = none → (x.unit ≠ none ∨ s.obj? x.tenant x.ctr = none) → exec (.cancelApply x) s = .next s)) ∧
  (∀ (g : Nat) (s : State), (s.core (coreOf g)).paired = false →
    ((s.ctx g).mode ≠ .parked → s.cancelCtx g = s.updCtx g fun c => { c with stop := .cancel }) ∧
    ((s.ctx g).mode = .parked → s.cancelCtx g = (s.withdrawOf [(s.ctx g).gen]).endWork g .cancelled) ∧
    ((s.ctx g).stop = .cancel → (s.ctx g).mode ≠ .inTransit → (s.ctx g).mode ≠ .idle →
      s.runSlot g = .done ((s.withdrawOf [(s.ctx g).gen]).endWork g .cancelled))) ∧
  (∀ (s : State) (gens : List Nat),
    let t := s.withdrawOf gens
    t.sluice.cancelled = gens ++ s.sluice.cancelled ∧
    (∀ p ∈ t.sluice.parked, (∃ n ∈ gens, p.req.src.gen? = some n) → p.abandoned = true) ∧
    (∀ p ∈ s.sluice.parked, p.req.kind = .lkAcq → p.abandoned = false → (∃ n ∈ gens, p.req.src.gen? = some n) →
      (∀ q ∈ s.sluice.parked, q.slice = p.slice → q.seq = p.seq → q.dp = p.dp → q = p) → { p with abandoned := true } ∈ t.sluice.parked)) ∧
  (∀ (l : Launch) (s : State), s.launch? l.lid = some l → l.cancelled = false → l.state ≠ .advanced →
    let t := s.cancelLaunch l.lid
    (∀ x ∈ t.fw.launches, x.lid = l.lid → x.cancelled = true) ∧ t.cpu.regs = s.cpu.regs ∧ t.cpu.ab = s.cpu.ab) ∧
  (∀ (tn cause die : Nat) (t : Tenant) (s : State), s.canonical = true → s.tenant? tn = some t →
    ((∃ c ∈ t.cores, (s.core c).halted = true) → exec (.gangStop tn cause die) s = .next s) ∧
    ((∀ c ∈ t.cores, (s.core c).halted = false) →
      let on (c : Nat) : Bool := decide (s.tenantOf c = t.num)
      ∃ u : State, exec (.gangStop tn cause die) s = .next u ∧
        (∀ c ∈ t.cores, (u.core c).halted = true ∧ (u.core c).haltCyc = s.cyclesOf c ∧ (u.core c).dropped = (s.sched.agenda.filterMap fun p => droppedBy on p.ev).count c ∧
          (u.core c).withdrawn = (s.sluice.parked.filterMap fun p => Origin.ofCore on p.req.src).count c ∧
          (u.core c).stoppedOps = (s.eng.ops.filter fun o => on o.core).countP fun o => decide (o.core = c)) ∧
        (∀ p ∈ u.sched.agenda, droppedBy on p.ev = none) ∧ (∀ o ∈ u.eng.ops, on o.core = false) ∧
        (∀ g, s.tenantOf (coreOf g) = t.num → (s.ctx g).mode ≠ .idle → s.ctx g ≠ Ctx.rest g → u.ctx g = { s.ctx g with mode := .stopped, stop := .none }) ∧
        (∀ g, s.tenantOf (coreOf g) ≠ t.num → u.ctx g = s.ctx g) ∧
        u.cpu.regs = s.cpu.regs ∧ u.cpu.ab = s.cpu.ab ∧ u.cpu.ps = s.cpu.ps ∧ u.cpu.wb = s.cpu.wb ∧ u.cpu.tiles = s.cpu.tiles ∧
        { due := s.sched.now, ev := Instr.partitionFault tn cause } ∈ u.sched.agenda)) ∧
  (∀ (tn cause : Nat) (t : Tenant) (s : State), s.canonical = true → s.tenant? tn = some t →
    ∃ u : State, exec (.partitionFault tn cause) s = .next u ∧
      (∀ c ∈ t.cores, (u.core c).halted = false ∧
        (s.coreUsable c = true → (u.ctx (16 * c)).mode = .ready ∧ (u.ctx (16 * c)).pc = t.supervisor ∧ (u.ctx (16 * c)).inh = false) ∧
        (s.coreUsable c = false → u.ctx (16 * c) = Ctx.rest (16 * c))) ∧
      (∀ x ∈ u.eng.lossy, x.head.notice.remote = true ∨ s.tenantOf x.head.notice.core ≠ t.num) ∧
      (∀ g, isCtx0 g = false → s.tenantOf (coreOf g) = t.num → (u.ctx g).mode = .idle) ∧
      (∀ l ∈ u.fw.launches, l.tenant = t.num → l.state = .advanced) ∧ (∀ o ∈ u.fw.objs, o.tenant = t.num → o.advanced = true)) ∧
  (∀ (g : Nat) (s : State), (s.core (coreOf g)).paired = true → isCtx0 g = false → idX (coreOf g) % 2 = 0 → (s.ctx g).mode ≠ .idle →
    let s' : State := { s with sched := { s.sched with agenda := s.sched.agenda.filter fun p => match p.ev with | .checkedPairMismatch x => !(s.both g).contains x | _ => true } }
    (((s.ctx g).lid.bind s.launch?) = none → exec (.checkedPairMismatch g) s = .next ((s.both g).foldl (fun t h => (t.mismatchRecord h).endWork h .cancelled) s')) ∧
    (∀ l, (s.ctx g).lid.bind s.launch? = some l → l.replaced.contains (s.ctx g).unit.toNat = true →
      exec (.checkedPairMismatch g) s = .next (s'.post (.gangStop l.tenant 0x11 (dieOf (coreOf g))))) ∧
    (∀ l, (s.ctx g).lid.bind s.launch? = some l → l.replaced.contains (s.ctx g).unit.toNat = false →
      let recorded := (s.both g).foldl State.mismatchRecord s'
      (((s.ctx g).work = .unit ∨ (s.ctx g).work = .participant) → exec (.checkedPairMismatch g) s = .next (recorded.firstMismatch l (s.ctx g).unit.toNat)) ∧
      ((s.ctx g).work ≠ .unit → (s.ctx g).work ≠ .participant →
        exec (.checkedPairMismatch g) s = .next ((s.both g).foldl (fun t h => t.endWork h .cancelled) recorded)))) ∧
  (∀ (g : Nat) (s : State), (s.core (coreOf g)).paired = true → isCtx0 g = false → idX (coreOf g) % 2 = 0 → (s.ctx g).mode = .idle →
    exec (.checkedPairMismatch g) s = .next ((s.both g).foldl State.dropUnsent s)) ∧
  (∀ (g : Nat) (s : State), ((s.core (coreOf g)).paired = false ∨ isCtx0 g = true) → exec (.checkedPairMismatch g) s = .next s) ∧
  ∀ s : State, ∃ t : State, exec .checkedPairTimeout s = .next t ∧ t.cpu = s.cpu ∧ t.mem = s.mem ∧
    t.sched.agenda = s.sched.agenda ++ s.cpu.cores.flatMap fun k => (k.2.pairOut.filter fun x => decide (x.1 + 1024 < s.sched.now)).map
      fun x => { due := s.sched.now, ev := Instr.checkedPairMismatch (16 * k.1 + x.2.1) }

/-- spec/16 R355, R361, spec/19 R380, R381, R387, R388, R390, spec/21 R412: the trap queues, whose slots lie as log 8 says, the firewall, power and
heat, and a module reset. That a record enters the firmware column as a message of class 5 with its slot's address is log 24; what a reset keeps in flight, and
that its steps are one step, is log 18. -/
def Obligations.MachineRecords : Prop :=
  ∀ s : State, s.canonical = true →
    (∀ die : Nat,
      let slot := die * 2 ^ 43 + 0x6000000 + 64 * ((s.die die).r.toNat % 4096)
      let u := [0, 8, 16, 24, 32, 40, 48, 56].foldl (fun u k => u.readStructure (slot + k)) s
      ((s.die die).w = (s.die die).r → exec (.trapQueueRead die) s = .next s) ∧
      ((s.die die).w ≠ (s.die die).r → s.admits true 5 slot = false → exec (.trapQueueRead die) s = .next s.firewallDrop) ∧
      ((s.die die).w ≠ (s.die die).r → s.admits true 5 slot = true → exec (.trapQueueRead die) s =
        .next ((({ u with fw := { u.fw with readRecord := ((s.die die).traps.head?.map TrapRec.slotWords).getD [] } } : State).updDie die fun d =>
          { d with traps := d.traps.tail, r := d.r + 1 }).post .trapRecordWrite))) ∧
    (∀ (die : Nat) (t : TrapRec),
      let n := (s.die die).w
      let slot := die * 2 ^ 43 + 0x6000000 + 64 * (n.toNat % 4096)
      let inSlot (a : Nat) : Bool := (List.range 8).any fun k => decide (a = slot + 8 * k)
      let u := s.writeRecord die t
      u.die die = { s.die die with traps := (s.die die).traps ++ [{ t with seq := n }], w := n + 1 } ∧
      (∀ a : Nat, spGet 0 u.mem.upsets a = (if inSlot a then 0 else spGet 0 s.mem.upsets a) ∧
        spGet 0 u.mem.copyUpsets a = (if inSlot a then 0 else spGet 0 s.mem.copyUpsets a))) ∧
    (∀ t : TrapRec, t.words = [] → t.slotWords.length = 8 ∧ (∀ n : Nat, n < 7 → t.slotWords[n + 1]? = [t.pc, t.addr, t.orig, t.iter,
      BitVec.ofNat 64 (t.unit % 2 ^ 24 * 2 ^ 32 + t.launch % 2 ^ 32), t.cyc, t.seq][n]?)) ∧
    ((∀ k ∈ s.cpu.cores, k.2.pending = []) → exec .trapRecordWrite s = .next s) ∧
    (∀ (core : Nat) (k : Core) (p : PendingTrap), s.cpu.cores.filter (fun x => decide (x.2.pending ≠ [])) = [(core, k)] → k.pending = [p] → p.written = false →
      p.trap.async = true →
      exec .trapRecordWrite s = .next (if (s.die p.die).room p.trap.cls then (s.writeRecord p.die p.trap).updCore core fun k => { k with pending := [] } else s)) ∧
    (∀ (die : Nat) (v : W64), exec (.fatalstatWrite die v) s =
      .next (if v.getLsbD 63 then s.updDie die fun d => { d with fatal := d.fatal &&& 0x7FFFFFFFFFFFFFFF#64 } else s)) ∧
    (∀ (owner : Option Nat) (into : Bool) (cls dp : Nat),
      let a := if cls = 0 ∨ cls = 2 ∨ cls = 5 then dp else 0
      ((∃ r ∈ s.fw.params.rules, r.dirOut = !into ∧ r.cls = cls ∧ r.lo ≤ a ∧ a ≤ r.hi) → exec (.firewallRefusal owner into cls dp) s = .next s) ∧
      ((∀ r ∈ s.fw.params.rules, ¬(r.dirOut = !into ∧ r.cls = cls ∧ r.lo ≤ a ∧ a ≤ r.hi)) →
        (∀ t, owner = some t → ∃ r u, s.openRecord t 0x13 = (r, u) ∧ r.cls = 3 ∧ r.cause = 0x13 ∧ r.tenant = t ∧
          exec (.firewallRefusal owner into cls dp) s = .next (u.fatalRecord 0 r)) ∧
        (owner = none → exec (.firewallRefusal owner into cls dp) s = .next (s.fw.tenants.foldl (fun u t => u.event t.num 0x04 0 0 [(u.die 0).fatal, 0]) s)))) ∧
    (∀ (watts : Nat) (loaded : List Nat), ∃ u : State, exec (.powerMeasurement watts loaded) s = .next u ∧ u.mem = s.mem ∧ u.cpu = s.cpu ∧
      (s.fw.params.powercap < watts → ∀ d, u.die d = (if d ∈ loaded then { s.die d with gatedPower := true } else s.die d)) ∧
      (watts < s.fw.params.powercap → ∀ d, u.die d = { s.die d with gatedPower := false }) ∧ (watts = s.fw.params.powercap → u = s)) ∧
    (∀ die celsius : Nat,
      (95 ≤ celsius → celsius ≤ 100 → exec (.thermalEvent die celsius) s = .next s) ∧
      (100 < celsius → celsius ≤ 115 → exec (.thermalEvent die celsius) s = .next (s.updDie die fun d => { d with gatedHeat := true })) ∧
      (115 < celsius → (s.die die).removedHeat = false → exec (.thermalEvent die celsius) s = .next ((s.updDie die fun d => { d with gatedHeat := true }).overheat die celsius)) ∧
      (celsius < 95 → (s.die die).removedHeat = false → exec (.thermalEvent die celsius) s = .next (s.updDie die fun d => { d with gatedHeat := false, removedHeat := false })) ∧
      (celsius < 95 → (s.die die).removedHeat = true → exec (.thermalEvent die celsius) s =
        .next ((s.fw.tenants.foldl (fun u t => u.takeBackDie t die) (s.updDie die fun d => { d with gatedHeat := false, removedHeat := false })).post (.placementRetry die)))) ∧
    (let u := s.resetModule
     u.mem = State.reset.mem ∧ u.cpu = State.reset.cpu ∧ u.dies = State.reset.dies ∧ u.eng = State.reset.eng ∧ u.sluice = State.reset.sluice ∧
     u.boot.fusedEpoch = s.boot.fusedEpoch ∧ u.boot.accepted = s.boot.accepted ∧ u.boot.step = 1 ∧
     u.boot.down = List.range 38 ∧ u.boot.downPerimeter = List.range 20 ∧ u.fab.stationDown = List.range 32 ∧ u.fab.portDown = List.range 4 ∧
     ((u.boot.staged.toList ++ u.boot.accepted.toList).filterMap u.boot.verify = [] → exec .moduleReset s = .next u) ∧
     (∀ t ts, (u.boot.staged.toList ++ u.boot.accepted.toList).filterMap u.boot.verify = t :: ts →
       let b := u.boot.accept t
       b.fusedEpoch = max s.boot.fusedEpoch t.epoch ∧ b.accepted = some t.bytes ∧ b.running = some t.bytes ∧ b.staged = none ∧
       exec .moduleReset s = .next (({ u with boot := b, fw := { u.fw with params := t.params } } : State).trainLinks t)))

/-- spec/15 R336-R340, R344-R346, spec/11 R280, spec/22 R428, R430: collective routers. The notices that a receiver gives and the order of a router's
work are log 14. -/
def Obligations.Routers : Prop :=
  (∀ (core vsn : Nat) (s : State), s.stream? core vsn = none → ∀ (p : Nat) (r : RowFlit) (i : StreamItem) (e : Nat),
    exec (.routerRowArrival core vsn p r) s = .next s ∧ exec (.routerMarker core vsn p i) s = .next s ∧ exec (.routerMemberDeath core vsn e) s = .next s ∧
    exec (.routerSlotFreeNotice core vsn e 6 false) s = .next { s with eng := { s.eng with early := s.eng.early ++ [(core, vsn, e)] } }) ∧
  (∀ (core vsn : Nat) (st : Stream) (s : State), s.stream? core vsn = some st → st.broken = false →
    let taken (e : Nat) (t : State) : State := (List.range st.sent.length).foldl (fun t _ => t.sentRow core vsn e) t
    (∀ (p : Nat) (bs : List Byte), exec (.routerRowArrival core vsn p { bytes := bs }) s =
      .next (((s.setStream { st with inputs := st.inputs ++ [(p, .row bs)] }).rowHeld st p).work core vsn)) ∧
    (∀ (p n : Nat) (bs : List Byte), exec (.routerRowArrival core vsn p { bytes := bs, block := some n }) s = .next ((s.lossyRow st n (some bs)).work core vsn)) ∧
    (∀ p n : Nat, exec (.routerMarker core vsn p (.lostRow n)) s = .next ((s.lossyRow st n none).work core vsn)) ∧
    (∀ (n k : Nat) (crc : W32), exec (.lossyBlockNotice (.rows core vsn) { blocks := [n], rows := k, crc }) s = .next
      (((s.onBlock st n fun b => { b with named := some (b.named.getD (k, crc, s.sched.now)) }).work core vsn).postIn s.fw.params.losswin .losswinExpiry)) ∧
    (∀ p : Nat, s.rowHeld st p = if 4 ≤ p then s else match st.feeder p with | some e => s.notice st e 7 | none => s) ∧
    (∀ e : Nat, e ≠ 0xFFF → exec (.routerSlotFreeNotice core vsn e 7 false) s = .next ((s.sentRow core vsn e).work core vsn)) ∧
    (∀ (e : Nat) (mine : Bool) (rest : List (Nat × Bool)), takeFirst (fun x : Nat × Bool => decide (x.1 = e)) st.sent = some ((e, mine), rest) →
      s.sentRow core vsn e = (s.setStream { st with sent := rest }).leftLocal st mine false) ∧
    (∀ (p : Nat) (w : W64), exec (.routerMarker core vsn p (.marker w)) s = .next ((s.setStream { st with inputs := st.inputs ++ [(p, .marker w)] }).work core vsn)) ∧
    (∀ (p k d : Nat), exec (.routerMarker core vsn p (.repair k d)) s = .next ((s.setStream { st with inputs := st.inputs ++ [(p, .repair k d)] }).work core vsn)) ∧
    (∀ (e p set : Nat) (lossy : Bool), e ≠ 0xFFF → p < 5 → exec (.routerSlotFreeNotice core vsn e (p + 8 * set) lossy) s =
      .next ((if st.feeds set e p = true ∧ (st.credits.filter fun c => decide (c.entry = e) && decide (c.port = p)).length < 2
        then s.setStream { st with credits := st.credits ++ [{ entry := e, port := p, set, lossy }] } else s).work core vsn)) ∧
    (∀ lossy : Bool, exec (.routerSlotFreeNotice core vsn 0xFFF 5 lossy) s = .next ((s.setStream { st with localFree := st.localFree + 1 }).work core vsn)) ∧
    (∀ e : Nat, (e ∈ st.deaths ∨ e ∈ st.dropped) → exec (.routerMemberDeath core vsn e) s = .next ((taken e s).work core vsn)) ∧
    (∀ e : Nat, e ∉ st.deaths → e ∉ st.dropped → st.parent st.up st.me ≠ some e → st.isRoot st.up e = false → st.parent st.down st.me ≠ some e →
      exec (.routerMemberDeath core vsn e) s = .next ((taken e (s.setStream
        (if (st.children st.up st.me).any (fun c => decide (c.2 = e)) then { st with deaths := st.deaths ++ [e] } else { st with dropped := e :: st.dropped }))).work core vsn)) ∧
    (∀ e : Nat, e ∉ st.ready → exec (.routerSlotFreeNotice core vsn e 6 false) s = .next ((s.entryReady st e).work core vsn))) ∧
  (∀ (s : State) (st : Stream) (b : RowBlock),
    (b.named = none → s.judgeBlock st b = s) ∧
    (∀ n crc t, b.named = some (n, crc, t) →
      let whole : Prop := b.rows.length = n ∧ (∀ r ∈ b.rows, r ≠ none) ∧ crc32c (b.rows.flatMap fun r => r.getD []) = crc
      (whole → s.judgeBlock st b = s.setStream (st.placeBlock b.num b.rows)) ∧
      (¬whole → s.sched.now < t + s.fw.params.losswin → s.judgeBlock st b = s) ∧
      (¬whole → t + s.fw.params.losswin ≤ s.sched.now →
        let x := st.placeBlock b.num (List.replicate n none)
        s.judgeBlock st b = (List.range (n - b.rows.length)).foldl (fun u _ => u.freed x 4) (s.setStream x)))) ∧
  (∀ (s : State) (st : Stream) (ps : List Nat) (heads : List StreamItem) (e p : Nat), heads.all isRowItem = true → st.upTo = .parent e p →
    let row := sumRows st.combine (st.headRows ps)
    let st1 := (((st.pop ps).takeCredit e p).map (·.2)).getD (st.pop ps)
    s.upAll st ps heads = some (ps.foldl (fun t q => t.freed st1 q) ((s.toEntry (st.pop ps) e p (.row row) none).setStream
      { st1 with rowsUp := st1.rowsUp + 1, sent := st1.sent ++ [(e, ps.contains 5)] }))) ∧
  (∀ (code : Nat) (r : List Byte) (rs : List (List Byte)) (r' : List Byte), sumRows code (r :: rs ++ [r']) = combineRows code (sumRows code (r :: rs)) r') ∧
  (∀ (a b : List Byte) (i : Nat), a.length = 32 → b.length = 32 → i < 8 →
    natOfBytes (((combineRows 2 a b).drop (4 * i)).take 4) = (natOfBytes ((a.drop (4 * i)).take 4) + natOfBytes ((b.drop (4 * i)).take 4)) % 2 ^ 32) ∧
  (∀ (op vsn combine : Nat) (plan : W64) (o : EngOp) (s u : State) (hs : List W64), s.op? op = some o → o.work = .collOpen vsn plan combine → (∀ sw, o.binding ≠ .refused sw) →
    o.state ≠ .ended → o.got = none → s.served o.tenant plan = .here → s.engineReadAll (dieOf o.core) o.tenant plan 4 = (u, .ok hs) →
    let h := hs.headD 0
    ((h.extractLsb' 56 8 ≠ 0x50#8 ∨ (h.extractLsb' 48 8).toNat ≠ vsn) → exec (.routerInstall op) s = .next (u.failOp o 0x61 plan)) ∧
    (∀ v es, h.extractLsb' 56 8 = 0x50#8 → (h.extractLsb' 48 8).toNat = vsn → u.engineReadAll (dieOf o.core) o.tenant (plan + 32) (8 * (h.extractLsb' 0 12).toNat) = (v, .ok es) →
      (v.planStream o (v.routerOf o.core 256) vsn combine (hs ++ es) = none → exec (.routerInstall op) s = .next (v.failOp o 0x61 plan)) ∧
      (∀ st, v.planStream o (v.routerOf o.core 256) vsn combine (hs ++ es) = some st →
        exec (.routerInstall op) s = .next (v.installStream o st) ∧
        (128 < v.routerSlots st.core + st.slots → exec (.routerInstall op) s = .next { v with eng := { v.eng with waitOpen := v.eng.waitOpen ++ [o.id] } })))) ∧
  ∀ (op : Nat) (o : EngOp) (sw : Nat) (s : State), s.op? op = some o → o.state ≠ .ended → o.binding = .refused sw →
    exec (.routerInstall op) s = .next (s.failOp o sw o.bindVa)

/-- spec/03 R99-R101, spec/21 R412-R414, R416, R417, spec/15 R344, R345, spec/22 R431: the tiers, frames and arrays that fail, and lossy blocks. Which
free frame a page takes is log 8, how a move goes log 13, and the structures that lose both copies log 32. -/
def Obligations.TiersAndLoss : Prop :=
  (∀ (page : Nat) (s : State),
    let e := s.dpit page
    ((dpitValid e = false ∨ dpitFar e = false ∨ dpitPin e = true) → exec (.tierPromotion page) s = .next s) ∧
    (∀ n, s.canonical = true → dpitValid e = true → dpitFar e = true → dpitPin e = false → dpitMove e = false → s.freeNear (dieOfPage page) = some n → n < 2 ^ 26 →
      exec (.tierPromotion page) s = .next (s.startMove page n))) ∧
  (∀ (page block : Nat) (s : State),
    let e := s.dpit page
    let u := s.decodeRange (page * 65536 + block * 256) 256
    let v := u.setMoved page (block :: u.movedBlocks page)
    ((dpitMove e = false ∨ 256 ≤ block ∨ block ∈ s.movedBlocks page) → exec (.tierBlockMove page block) s = .next s) ∧
    (dpitMove e = true → block < 256 → block ∉ s.movedBlocks page →
      exec (.tierBlockMove page block) s = .next (if ((v.movedBlocks page).filter fun b => decide (b < 256)).length = 256 then v.endMove page else v))) ∧
  (∀ s : State, s.canonical = true → ∃ t : State, exec .tierEpoch s = .next t ∧ (∀ p, spGet 0 t.mem.counts p = spGet 0 s.mem.counts p / 2) ∧
    t.mem = { s.mem with counts := t.mem.counts } ∧ t.cpu = s.cpu ∧ t.sched.agenda = s.sched.agenda ++ [{ due := s.sched.now + 2 ^ 20, ev := .tierEpoch }]) ∧
  (∀ (die : Nat) (s : State), exec (.stackRefresh die) s = .next s) ∧
  (∀ s : State, s.mem.failing = [] → s.mem.lostDies = [] → exec .frameRetirement s = .next s) ∧
  (∀ (page frame n : Nat) (rest : List (Nat × Bool × Nat)) (s : State), s.mem.failing = (page, false, frame) :: rest → s.mem.lostDies = [] → s.mem.upsets = [] →
    s.canonical = true → s.holderOf (dieOfPage page) false frame = some page →
    let e := s.dpit page
    dpitMove e = false → dpitFar e = false → dpitFrame e = frame → dpitClean e = false →
    let retired : State := { s with mem := { s.mem with nearRetired := (dieOfPage page * 2 ^ 20 + frame) :: s.mem.nearRetired } }
    retired.freeNear (dieOfPage page) = some n → ∃ t : State, exec .frameRetirement s = .next t ∧ t.mem.failing = rest ∧
      t.mem.nearRetired = (dieOfPage page * 2 ^ 20 + frame) :: s.mem.nearRetired ∧ t.mem.bytes = s.mem.bytes ∧ t.mem.tags = s.mem.tags ∧
      (n < 2 ^ 26 → t.dpit page = mkDpit true false false (dpitPin e) false (dpitOther e) n)) ∧
  (∀ (page frame : Nat) (far : Bool) (rest : List (Nat × Bool × Nat)) (s : State), s.mem.failing = (page, far, frame) :: rest → s.mem.lostDies = [] →
    (s.holderOf (dieOfPage page) far frame = none →
      exec .frameRetirement s = .next ({ s with mem := { s.mem with failing := rest } }.retireFrame (dieOfPage page) far frame)) ∧
    (∀ q, s.holderOf (dieOfPage page) far frame = some q → dpitMove (s.dpit q) = true → exec .frameRetirement s = .next (s.postIn 1 .frameRetirement))) ∧
  (∀ (die : Nat) (s : State), s.mem.failing = [] → s.mem.lostDies = [die] → (∀ t ∈ s.fw.tenants, ∀ c ∈ t.clusters, c / 544 ≠ die) →
    exec .frameRetirement s = .next { s with mem := { s.mem with lostDies := [] } }) ∧
  (∀ (c : Nat) (s : State), ∃ t : State, exec (.farControllerFailure c) s = .next t ∧ t.mem.farDown = c :: s.mem.farDown ∧ t.cpu = s.cpu) ∧
  (∀ s : State, (∀ cl dp, exec (.localArrayUncorrectable (.icache cl dp)) s =
      .next { s with mem := { s.mem with icache := s.mem.icache.filter fun e => !(decide (e.cluster = cl) && decide (e.dp = dp)) } }) ∧
    (∀ die i, exec (.localArrayUncorrectable (.specLookup die i)) s = .next (s.updDie die fun d => { d with spec := d.spec.filter fun e => decide (e.index ≠ i) })) ∧
    (∀ core, s.landingAt core = none → ∃ r u, s.openRecord (s.tenantOf core) 0x12 = (r, u) ∧ r.cls = 3 ∧ r.cause = 0x12 ∧
      exec (.localArrayUncorrectable (.core core)) s = .next (u.fatalRecord (dieOf core) { r with core, cyc := s.cyclesOf core })) ∧
    (∀ core src, s.landingAt core = some src → exec (.localArrayUncorrectable (.core core)) s = .next (s.abandonMigration src)) ∧
    (∀ cl, ∃ r u, s.openRecord (s.tenantOf ((coresOfCluster cl).headD 0)) 0x12 = (r, u) ∧
      exec (.localArrayUncorrectable (.wb cl)) s = .next (u.fatalRecord (cl / 544) r)) ∧
    (∀ gid, ∃ r : TrapRec, r.cls = 3 ∧ r.cause = 0x12 ∧ r.pc = (s.ctx gid).pc ∧ r.ctx = gid % 16 ∧ r.tenant = s.tenantOf (coreOf gid) ∧ r.async = false ∧
      exec (.localArrayUncorrectable (.specFetch gid)) s = .next (s.fatalRecord (dieOf (coreOf gid)) r))) ∧
  (∀ (h : LossyHead) (x b : Nat) (data : List (Option W64)) (crc : W32) (s : State),
    let l := (s.eng.lossy.find? fun y => decide (y.xfer = x) && decide (y.head.copier = h.copier)).getD { xfer := x, head := h, delivered := [], lost := [], named := [], poison := none }
    let at_ := l.head.dst + BitVec.ofNat 64 (256 * b)
    let good : Prop := b ∉ l.delivered ∧ b ∉ l.lost ∧ b < l.head.blocks ∧ data.length = 32 ∧ crcWords (data.map fun w => w.getD 0) = crc
    let stray : Prop := l.head.copier = s.fw.params.physid ∧ s.op? l.xfer = none
    let first := (data.findIdx? Option.isNone).map fun i => at_ + BitVec.ofNat 64 (8 * i)
    let (u, res) := s.engineWriteAll (stationDie (s.stationFor at_)) l.head.tenant at_ data
    (stray → exec (.lossyBlockArrival h x b data crc) s = .next s) ∧
    (¬stray → ¬good → exec (.lossyBlockArrival h x b data crc) s = .next (s.setLossy l)) ∧
    (¬stray → good → res = none →
      exec (.lossyBlockArrival h x b data crc) s =
        .next (u.endLossy { l with delivered := l.delivered ++ [b], poison := match first with | some p => lowest l.poison p | none => l.poison })) ∧
    (∀ sw a, ¬stray → good → res = some (sw, a) →
      exec (.lossyBlockArrival h x b data crc) s =
        .next ((u.setLossy { l with lost := (List.range l.head.blocks).filter fun i => !l.delivered.contains i }).failLossy l sw a))) ∧
  (∀ (h : LossyHead) (n : LossyNotice) (s : State),
    let l := (s.eng.lossy.find? fun y => decide (y.xfer = n.xfer) && decide (y.head.copier = h.copier)).getD
      { xfer := n.xfer, head := h, delivered := [], lost := [], named := [], poison := none }
    let fresh := n.blocks.filter fun b => decide (b < l.head.blocks) && l.named.all fun x => decide (x.1 ≠ b)
    let l' : Lossy := { l with named := l.named ++ fresh.map fun b => (b, s.sched.now) }
    let stray : Prop := l.head.copier = s.fw.params.physid ∧ s.op? l.xfer = none
    let t := (s.setLossy l').heard l'
    (stray → exec (.lossyBlockNotice (.copy h) n) s = .next s) ∧
    (¬stray → 0 < h.blocks → exec (.lossyBlockNotice (.copy h) n) s =
      .next (if fresh.all (fun b => decide (b ∈ l.delivered ∨ b ∈ l.lost)) then t else t.postIn s.fw.params.losswin .losswinExpiry))) ∧
  (∀ s : State, s.eng.streams = [] → (∀ l ∈ s.eng.lossy, ∀ x ∈ l.named, s.sched.now < x.2 + s.fw.params.losswin ∨ x.1 ∈ l.delivered ∨ x.1 ∈ l.lost) →
    exec .losswinExpiry s = .next s) ∧
  ∀ (l : Lossy) (b at_ : Nat) (s u : State), s.eng.streams = [] → s.eng.lossy = [l] → l.named = [(b, at_)] → b ∉ l.delivered → b ∉ l.lost →
    at_ + s.fw.params.losswin ≤ s.sched.now →
    let w := l.head.dst + BitVec.ofNat 64 (256 * b)
    s.engineWriteAll (stationDie (s.stationFor w)) l.head.tenant w (List.replicate 32 (some 0)) = (u, none) → u.eng.streams = [] →
    exec .losswinExpiry s = .next (u.endLossy { l with lost := l.lost ++ [b] })

/-- spec/02 R69-R73, spec/22 R431: live migration: its start, its items, the installation of the state once it can be captured and the destination
is free, and the abandoned move. When a move may begin and when an entry is dropped is log 21; that tasks queued at the destination in the meantime
stand first is log 40. -/
def Obligations.Migration : Prop :=
  (∀ (src dst : Nat) (s : State), s.mayMove src dst = false → exec (.migrationStart src dst) s = .next s) ∧
  (∀ (src dst : Nat) (s : State), s.canonical = true → s.mayMove src dst = true → (s.core src).paired = false →
    ∃ t : State, exec (.migrationStart src dst) s = .next t ∧
      (∀ i, 1 ≤ i → i ≤ 15 → (s.ctx (16 * src + i)).mode ≠ .idle → t.ctx (16 * src + i) = { s.ctx (16 * src + i) with mode := .inTransit }) ∧
      (∀ g, (coreOf g ≠ src ∨ isCtx0 g = true ∨ (s.ctx g).mode = .idle) → t.ctx g = s.ctx g) ∧
      t.core src = { s.core src with fwd := some { dst, installed := false, moved := (s.movers src).map fun g => ((s.ctx g).gen, g, 16 * dst + ctxNo g, (s.ctx g).mode), owedOps := [], held := [] } } ∧
      (∀ k, k ≠ src → t.core k = s.core k) ∧ t.cpu.regs = s.cpu.regs ∧ t.cpu.regEmpty = s.cpu.regEmpty ∧ t.mem = s.mem ∧
      ∃ p ∈ t.sched.agenda, p.ev = .migrationInstalled) ∧
  (∀ (core : Nat) (item : Item) (s : State),
    ((s.core core).fwd = none →
      (∀ m, item = .reply m → exec (.forwardedItem core item) s = .next (s.takeDeposit m.gid m)) ∧
      (∀ r g n, r.src = .ctx g n →
        (item = .ack r → exec (.forwardedItem core item) s = .next (s.toContext g n item fun s => s.takeAck g r)) ∧
        (∀ c a, item = .fault r c a → exec (.forwardedItem core item) s = .next (s.toContext g n item fun s => s.takeFault g n r c a)) ∧
        (item = .late r → exec (.forwardedItem core item) s = .next (s.toContext g n item fun s => s.takeLate g r))) ∧
      (∀ op line data last, item = .fill op line data last → exec (.forwardedItem core item) s = .next (s.fillAtDst core op line data last)) ∧
      (∀ t, item = .task t → exec (.forwardedItem core item) s = .next (if s.launchCancelled t.launch then s else s.queueTask core t)) ∧
      (∀ g n, item = .slotFree g n → exec (.forwardedItem core item) s = .next (s.resend g n))) ∧
    (∀ f, (s.core core).fwd = some f → f.installed = false →
      exec (.forwardedItem core item) s = .next (s.updCore core fun k => { k with fwd := some { f with held := f.held ++ [item] } })) ∧
    (∀ f, (s.core core).fwd = some f → f.installed = true → exec (.forwardedItem core item) s = .next ((s.forward f item).dropEntry core))) ∧
  (∀ (f : Forward) (s : State),
    (∀ (m : Reply) (g : Nat), f.now m.gen = some g → s.forward f (.reply m) = s.takeDeposit g m) ∧
    (∀ m : Reply, f.now m.gen = none → s.forward f (.reply m) = s) ∧
    (∀ (r : Request) (g₀ n g : Nat), r.src = .ctx g₀ n → f.now n = some g →
      s.forward f (.ack r) = (s.toContext g n (.ack r) fun s => s.takeAck g r) ∧ ∀ c a, s.forward f (.fault r c a) = (s.toContext g n (.fault r c a) fun s => s.takeFault g n r c a)) ∧
    (∀ t : Task, s.launchCancelled t.launch = false →
      ((s.core f.dst).fwd ≠ none → s.forward f (.task t) = s.post (.forwardedItem f.dst (.task t))) ∧
      ((s.core f.dst).fwd = none → (s.core f.dst).halted = false → s.forward f (.task t) = s.queueTask f.dst t))) ∧
  (∀ (src dst b : Nat) (m : Mode) (s : State), s.canonical = true → coreOf src ≠ coreOf dst →
    let c := s.ctx src
    c.base ≤ c.limit → c.limit ≤ 1024 → lowestBase (s.blocks (coreOf dst)) c.count = some b →
    let t := s.moveCtx src dst m
    (∀ r, r < c.count → spGet 0 t.cpu.regs (1024 * coreOf dst + b + r) = s.regAt src r ∧ spGet false t.cpu.regEmpty (1024 * coreOf dst + b + r) = s.emptyAt src r) ∧
    t.ctx src = Ctx.rest src ∧
    (t.ctx dst).pc = c.pc ∧ (t.ctx dst).flags = c.flags ∧ (t.ctx dst).preds = c.preds ∧ (t.ctx dst).ptrs = c.ptrs ∧ (t.ctx dst).link = c.link ∧
      (t.ctx dst).work = c.work ∧ (t.ctx dst).gen = c.gen ∧ (t.ctx dst).ident = c.ident ∧ (t.ctx dst).base = b ∧ (t.ctx dst).limit = b + c.count ∧
      (t.ctx dst).mode = (if m = .parked ∧ c.park = .nothing then .ready else m) ∧
    (∀ g, g ≠ src → g ≠ dst → t.ctx g = s.ctx g) ∧ t.mem = s.mem) ∧
  (∀ (src : Nat) (f : Forward) (s : State), (s.core src).fwd = some f → (s.core src).paired = false → f.installed = false →
    let u := f.moved.foldl State.goBack (s.updCore src fun k => { k with fwd := none })
    let v : State := { u with sched := { u.sched with agenda := (f.held.map fun i => { due := u.sched.now, ev := .forwardedItem src i }) ++ u.sched.agenda } }
    exec (.migrationAbandon src) s = .next ((v.post (.taskStart src)).post (.placementRetry (dieOf src)))) ∧
  (∀ (src : Nat) (s : State), (s.core src).fwd = none → exec (.migrationAbandon src) s = .next s) ∧
  (∀ s : State, (∀ k ∈ s.cpu.cores, k.2.fwd = none) → exec .migrationInstalled s = .next s) ∧
  (∀ (src : Nat) (k : Core) (f : Forward) (s : State), s.canonical = true → s.cpu.cores.filter (fun x => x.2.fwd.isSome) = [(src, k)] → k.fwd = some f → f.installed = false →
    (s.core src).paired = false → f.dst ≠ src →
    (s.capturable src = false ∨ s.landingFree f.dst = false → exec .migrationInstalled s = .next s.watch) ∧
    (s.capturable src = true → s.landingFree f.dst = true → ∃ u : State,
      (∀ i, i < 24576 → spGet 0 u.cpu.ab (24576 * f.dst + i) = spGet 0 s.cpu.ab (24576 * src + i)) ∧
      (∀ i, i < 192 → spGet [] u.cpu.abEmpty (192 * f.dst + i) = spGet [] s.cpu.abEmpty (192 * src + i)) ∧
      (∀ i, i < 7680 → spGet 0 u.cpu.ps (8192 * f.dst + 512 + i) = spGet 0 s.cpu.ps (8192 * src + 512 + i)) ∧
      (∀ i, i < 2 → spGet Tile.init u.cpu.tiles (2 * f.dst + i) = spGet Tile.init s.cpu.tiles (2 * src + i)) ∧
      (u.core f.dst).tasks = (s.core f.dst).tasks ++ (s.core src).tasks ∧ (u.core f.dst).callers = (s.core f.dst).callers ++ (s.core src).callers ∧
      (u.core f.dst).paired = (s.core src).paired ∧ (u.core src).tasks = [] ∧ (u.core src).callers = [] ∧
      (∀ c, c ≠ src → c ≠ f.dst → u.core c = s.core c) ∧
      u.cpu.ctxs = s.cpu.ctxs ∧ u.cpu.regs = s.cpu.regs ∧ u.cpu.regEmpty = s.cpu.regEmpty ∧ u.mem = s.mem ∧
      let v := (f.moved.foldl (fun s m => s.moveCtx m.2.1 m.2.2.1 m.2.2.2) u).updCore src fun k => { k with fwd := some { f with installed := true, owedOps := s.fillersOf src, held := [] } }
      let w : State := { v with sched := { v.sched with agenda := (f.held.map fun i => { due := v.sched.now, ev := .forwardedItem src i }) ++ v.sched.agenda } }
      exec .migrationInstalled s = .next (w.post (.taskStart f.dst)).watch)) ∧
  ∀ (src : Nat) (k : Core) (f : Forward) (s : State), s.canonical = true → s.cpu.cores.filter (fun x => x.2.fwd.isSome) = [(src, k)] → k.fwd = some f → f.installed = true →
    (s.owes src f = true → exec .migrationInstalled s = .next s.watch) ∧
    (s.owes src f = false → exec .migrationInstalled s =
      .next (((s.updCore src fun k => { k with fwd := none }).post (.placementRetry (dieOf src))).post (.taskStart src)))

/-- spec/15 R330-R333, spec/16 R350, R353, R354, spec/22 R424-R426: other modules and hosts. What a request may name and how it is numbered in this
module is log 22; the bytes that a host reads from a word that is poisoned or not mapped are free (log 6), and the port's order of words is log 23;
what becomes of an event record that the firewall drops, and of a read of EVR that it drops, is log 24. -/
def Obligations.OtherModulesAndHosts : Prop :=
  (∀ (r : Request) (s : State), (∀ pages q, r.kind = .prefTier pages → r.src ≠ .remote q) →
    let sent (p : Nat) : State := { s with fab := { s.fab with out := .request (s.stationFor r.va) p r :: s.fab.out } }
    let awaited (u : State) (p : Nat) : State := ({ u with fab := { u.fab with waiting := u.fab.waiting ++ [(u.sched.now, p, r)] } } : State).postIn s.fw.params.peertmo .peerTimeout
    (s.served r.tenant r.va = .here → exec (.stationHandoff r) s = .next (s.post (.translationLookup r))) ∧
    (s.served r.tenant r.va = .dead → exec (.stationHandoff r) s = .next (s.post (.faultReply r 0x0C (r.via.getD r.va)))) ∧
    (∀ p, s.served r.tenant r.va = .peer p →
      (r.src = .silent ∨ r.src = .withdrawal → exec (.stationHandoff r) s = .next (sent p)) ∧
      (r.src ≠ .silent → r.src ≠ .withdrawal →
        (r.kind.parks = false → exec (.stationHandoff r) s = .next (awaited (sent p) p)) ∧
        (r.kind.parks = true → (sent p).takenBack r = false → exec (.stationHandoff r) s = .next (awaited (sent p).startProbes p)) ∧
        (r.kind.parks = true → (sent p).takenBack r = true →
          exec (.stationHandoff r) s = .next (((sent p).emit (.withdraw (s.stationFor r.va) p r)).countWithdrawn r))))) ∧
  (∀ (r : Request) (s : State),
    let inside (st : Nat) : State := let (rid, u) := s.newRid
      u.post (.translationLookup { r with va := BitVec.ofNat 64 (r.va.toNat % 2 ^ 52), dp := 0, join := none, die := stationDie st, early := false, fence := false, rid })
    (r.src = .silent → exec (.fabricRequestIn r) s = .next (inside (s.stationFor r.va))) ∧
    ∀ q, r.src = .remote q →
      (s.fab.stationDown.contains q.station = true → exec (.fabricRequestIn r) s = .next s) ∧
      (s.fab.stationDown.contains q.station = false →
        (r.kind = .withdraw → exec (.fabricRequestIn r) s = .next (s.takeBack q)) ∧
        (∀ pages, r.kind = .prefTier pages →
          let (u, got) := s.prefPages (stationDie q.station) r.tenant (localAddr r.va) pages
          (∀ a, got = .error a → exec (.fabricRequestIn r) s = .next (u.emit (.refusal q 0x08 a))) ∧
          (∀ ps, got = .ok ps →
            ((u.promoteAll ps).2 = 0 → exec (.fabricRequestIn r) s = .next ((u.promoteAll ps).1.emit (.reply q 0 true))) ∧
            ((u.promoteAll ps).2 ≠ 0 → exec (.fabricRequestIn r) s = .next ((u.promoteAll ps).1.postIn 1 (.stationHandoff r))))) ∧
        (∀ h xfer, r.kind = .lossyFetch h xfer →
          let (u, got) := s.engineWords (stationDie q.station) r.tenant (localAddr r.va) (32 * h.blocks)
          (∀ sw a, got = .error (sw, a) → exec (.fabricRequestIn r) s = .next (u.emit (.refusal q (if sw = 0x22 then 0x09 else 0x08) a))) ∧
          (∀ ws, got = .ok ws → exec (.fabricRequestIn r) s = .next (u.sendBlocks h.copier h xfer ws))) ∧
        (r.kind ≠ .withdraw → (∀ pages, r.kind ≠ .prefTier pages) → (∀ h xfer, r.kind ≠ .lossyFetch h xfer) →
          exec (.fabricRequestIn r) s = .next (inside q.station)))) ∧
  (∀ (q : Requester) (s : State), (s.takeBack q).sluice.takenBack.contains q = true ∧ ∀ p ∈ (s.takeBack q).sluice.parked, p.req.src ≠ .remote q) ∧
  (stationDie 0 = 0 ∧ stationDie 8 = 5 ∧ stationDie 16 = 18 ∧ stationDie 24 = 23) ∧
  (∀ s : State, (s.overduePeers = [] → exec .peerTimeout s = .next s) ∧
    (∀ p, s.overduePeers = [p] → exec .peerTimeout s = .next (s.markDead p)) ∧ (∀ p ∈ s.overduePeers, s.peerDead p = false)) ∧
  (∀ (p : Nat) (s : State), p < 1024 → s.fw.dpmap.length = 16 →
    (s.markDead p).peerDead p = true ∧ (∀ q, q < 1024 → q ≠ p → (s.markDead p).peerDead q = s.peerDead q) ∧ (∀ w ∈ (s.markDead p).fab.waiting, w.2.1 ≠ p) ∧
    (∀ w ∈ s.fab.waiting, w.2.1 = p → { due := s.sched.now, ev := Instr.faultReply w.2.2 0x0C w.2.2.va } ∈ (s.markDead p).sched.agenda)) ∧
  (∀ s : State, s.probed = [] → exec .peerProbe s = .next s) ∧
  (∀ (p : Nat) (s : State), s.probed = [p] → exec .peerProbe s = .next (s.probe p).startProbes) ∧
  (∀ (p : Nat) (s : State),
    let u : State := { s with fab := { s.fab with probes := s.fab.probes.filter fun x => decide (x.2 ≠ p) } }
    (s.peerDead p = false → exec (.peerProbeAnswer p) s = .next u) ∧
    (p < 1024 → s.fw.dpmap.length = 16 → s.peerDead p = true → ∃ t : State, exec (.peerProbeAnswer p) s = .next t ∧ t.peerDead p = false ∧ t.mem = s.mem ∧ t.cpu = s.cpu)) ∧
  (∀ (k : Nat) (v : W64) (s : State), exec (.dpmapWrite k v) s = .next { s with fw := { s.fw with dpmap := s.fw.dpmap.set k (s.fw.dpmap.getD k 0 &&& ~~~v) } }) ∧
  (∀ (m : RdmaMsg) (s : State), 4 ≤ m.port ∨ 4096 ≤ m.qpn ∨ s.fab.portDown.contains m.port = true →
    exec (.rdmaWrite m) s = .next s ∧ exec (.rdmaRead m) s = .next s) ∧
  (∀ (m : RdmaMsg) (s : State), m.port < 4 → m.qpn < 4096 → s.fab.portDown.contains m.port = false →
    let die := [0, 5, 18, 23].getD m.port 0
    (∀ t w, s.window? m.key = some (t, w) →
      let holds (n : Nat) : Prop := w.base.toNat ≤ m.va.toNat ∧ m.va.toNat + n ≤ w.base.toNat + 65536 * w.pages
      let refused : State := (s.emit (.rdmaNak m.port m.qpn)).event t 0x07 0 0 [BitVec.ofNat 64 m.key, BitVec.ofNat 64 m.qpn]
      (holds m.bytes.length → exec (.rdmaWrite m) s = .next (((s.writeAllForHost die t m.va m.bytes).emit (.rdmaAck m.port m.qpn)).post .eventRecordWrite)) ∧
      (¬holds m.bytes.length → exec (.rdmaWrite m) s = .next refused) ∧
      (holds m.count → exec (.rdmaRead m) s = .next (let (bs, u) := s.readAllForHost die t (wordParts m.va m.count)
        u.emit (.rdmaData m.port m.qpn bs))) ∧
      (¬holds m.count → exec (.rdmaRead m) s = .next refused)) ∧
    (s.window? m.key = none →
      let u : State := { s with fab := { s.fab with out := .rdmaNak m.port m.qpn :: s.fab.out }
                                fw := { s.fw with rdmaRefused := spSet 0 s.fw.rdmaRefused m.port (spGet 0 s.fw.rdmaRefused m.port + 1) } }
      exec (.rdmaWrite m) s = .next u ∧ exec (.rdmaRead m) s = .next u)) ∧
  (∀ (a : W64) (bs : List Byte) (die t dp : Nat) (s u : State), s.xlat die t a true = (u, .ok dp) → (u.open (wordAt dp)).memType (wordAt dp) = 0 →
    s.writeForHost die t a bs = (u.open (wordAt dp)).commit (wordAt dp)
      (mergeWord ((u.open (wordAt dp)).memWord (wordAt dp)) (dp % 8) bs.length (BitVec.ofNat 64 (natOfBytes bs))) ((u.open (wordAt dp)).memTag (wordAt dp))) ∧
  (∀ (a : W64) (n : Nat), a.toNat % 8 = 0 → wordParts a (8 * n) = (List.range n).map fun k => (a + BitVec.ofNat 64 (8 * k), 8 * k, 8)) ∧
  (∀ s : State, (∀ t ∈ s.fw.tenants, t.held = []) → exec .eventRecordWrite s = .next s) ∧
  (∀ (t : Tenant) (s u : State),
    (∀ e, s.xlat 0 t.num t.evrAddr false = (u, .error e) → s.ringRoom t = (u, 2 ^ t.evExp - t.evw)) ∧
    ∀ dp, s.xlat 0 t.num t.evrAddr false = (u, .ok dp) →
      (u.admits false 0 dp = true → u.admits true 1 0 = true →
        s.ringRoom t = (u.open (wordAt dp), 2 ^ t.evExp - (t.evw - ((u.open (wordAt dp)).memWord (wordAt dp)).toNat))) ∧
      (u.admits false 0 dp = false ∨ u.admits true 1 0 = false → s.ringRoom t = (u, 0))) ∧
  ∀ (t : Tenant) (r : EventRec) (s u : State) (room : Nat), s.fw.tenants = [t] → t.held = [r] → s.ringRoom t = (u, room) → u.fw.tenants = [t] →
    (room ≠ 0 → u.recordReady t.num r = true → u.fab.portDown.contains t.evPort = false →
      let words := [BitVec.ofNat 64 (t.evDropped % 2 ^ 32 * 2 ^ 32 + r.kind), BitVec.ofNat 64 t.evw, r.ctr, r.statusw] ++ (r.detail ++ [0, 0, 0, 0]).take 4
      let out : List Outward := [.rdmaWrite t.evPort t.evQpn t.evrKey t.evwAddr (bytesOfNat (t.evw + 1) 8),
        .rdmaWrite t.evPort t.evQpn t.evrKey (t.evBase + BitVec.ofNat 64 (64 * (t.evw % 2 ^ t.evExp))) (words.flatMap fun w => bytesOfNat w.toNat 8)]
      exec .eventRecordWrite s = .next { u with
        fw := { u.fw with tenants := [{ t with evw := t.evw + 1, held := [], evDropped := 0 }] }
        fab := { u.fab with out := (if u.admits false 6 0 then out else []) ++ u.fab.out } }) ∧
    (room = 0 → ∃ v : State, exec .eventRecordWrite s = .next v ∧ v.fab = u.fab ∧ v.mem = u.mem ∧ v.fw.tenants = [holdRecord 0 r { t with held := [] }])

/-- spec/00 R8, spec/15 R331, R332, spec/21 R406, R407, spec/22 R432: registers of the firmware column. Which frame of a failing bank is retired is
free (log 32); that the column writes no other register is log 24. -/
def Obligations.DeviceRegisters : Prop :=
  ∀ s : State,
    (∀ die bank : Nat, bank < 4096 →
      let n := spGet 0 s.mem.stkCounts (4096 * die + bank)
      let u : State := { s with mem := { s.mem with stkBank := spSet 0 s.mem.stkBank die bank }, fw := { s.fw with readData := BitVec.ofNat 64 (n % 2 ^ 32 * 2 ^ 16 + bank) } }
      (n - spGet 0 s.fw.lastRetire (4096 * die + bank) ≤ s.fw.params.retthr → exec (.stkscrubWrite die bank) s = .next u) ∧
      (s.fw.params.retthr < n - spGet 0 s.fw.lastRetire (4096 * die + bank) → exec (.stkscrubWrite die bank) s = .next (u.retireInBank die bank n))) ∧
    (∀ k : Nat, let c := spGet (0, 0) s.mem.slecc k
      exec (.sleccRead k) s = .next { s with mem := { s.mem with slecc := spSet (0, 0) s.mem.slecc k (0, 0) }, fw := { s.fw with readData := BitVec.ofNat 64 (c.1 * 2 ^ 32 + c.2 * 2 ^ 16) } }) ∧
    (∀ k : Nat, exec (.lbeccRead k) s = .next { s.updCore k (fun x => { x with lbecc := 0 }) with fw := { s.fw with readData := BitVec.ofNat 64 (min (s.core k).lbecc (2 ^ 32 - 1)) } }) ∧
    (∀ d : Nat, exec (.spstatRead d) s = .next { s.updDie d (fun x => { x with spFalls := 0, spKept := 0 }) with
      fw := { s.fw with readData := (s.die d).spLast ++ 0#13 ++ BitVec.ofNat 16 (s.die d).spFalls ++ BitVec.ofNat 32 (s.die d).spKept } }) ∧
    (∀ (sl t : Nat) (v : W64), exec (.registerWrite (.wlq sl t) v) s =
      .next { s with sluice := { s.sluice with quota := spSet none s.sluice.quota (16 * sl + t) (some (v.extractLsb' 0 11).toNat) } }) ∧
    (∀ (t w : Nat) (v : W64),
      let none_ : FWin := { fwa := 0, fwb := 0, fws := 0 }
      let old := spGet none_ s.mem.fwins (16 * t + w)
      let put (x : FWin) : Host.Outcome State Fault Refusal := .next { s with mem := { s.mem with fwins := spSet none_ s.mem.fwins (16 * t + w) x } }
      exec (.registerWrite (.fwin t w 0) v) s = put { old with fwa := v &&& 0xF00FFFFFFFFF0001#64 } ∧
      exec (.registerWrite (.fwin t w 1) v) s = put { old with fwb := v &&& 0xFFFFFFFFF0000#64 } ∧
      exec (.registerWrite (.fwin t w 2) v) s = put { old with fws := v &&& 0xFFFFFFFFFFFF8#64 }) ∧
    (∀ (t i : Nat) (v : W64), (s.tenant? t = none → exec (.registerWrite (.remap t i) v) s = .next s) ∧
      (∀ x, s.tenant? t = some x →
        let new := spSet 0 x.remap i (v &&& 0x80000000000003FF#64)
        let keeps := s.fw.serving = true ∧ s.fw.command.tenant = t ∧ cmdOf s.fw.command ∈ [0x10, 0x11, 0x12, 0x13, 0x14, 0x15] ∧ i < 1024 ∧ (new.filterMap fun e => remapPhys e.2).Nodup ∧ s.fw.params.physid ∈ new.filterMap fun e => remapPhys e.2
        (keeps → exec (.registerWrite (.remap t i) v) s = .next (s.updTenant t fun x => { x with remap := new })) ∧
        (¬keeps → exec (.registerWrite (.remap t i) v) s = .next s))) ∧
    (∀ (die page : Nat) (v : W64), ∃ u : State, exec (.registerWrite (.dpit die page) v) s = .next u ∧
      u.dpit (die * 2 ^ 27 + page) = v &&& 0xFBFFFFFF03FFFFFF#64 ∧ (∀ p, p ≠ die * 2 ^ 27 + page → u.dpit p = s.dpit p) ∧
      ∃ m, u = { s with mem := { s.mem with dpit := m } }) ∧
    (∀ (a b : Nat) (path : List Nat) (v : W64), exec (.registerWrite (.route a b path) v) s = .next { s with fw := { s.fw with routes := spSet [] s.fw.routes (24 * a + b) path } })

/-- spec/01 R28, spec/09 R220, spec/11 R268: an instruction of a context leaves global memory alone. -/
def Obligations.ProgramKeepsMemory : Prop :=
  ∀ (i : Instr) (s : State), encode i ≠ none → ∃ t : State, exec i s = .next t ∧ s.mem.keeps t.mem

/-- spec/07 R169-R180: no bit of an encoding is dropped, and nothing ill formed is decoded. -/
def Obligations.EncodeDecode : Prop :=
  (∀ (i : Instr) (rest : List W32), i.wellFormed = true → ∃ ws : List W32, encode i = some ws ∧ decode (ws ++ rest) = .ok (i, ws.length)) ∧
  (∀ (ws : List W32) (i : Instr) (n : Nat), decode ws = .ok (i, n) → i.wellFormed = true ∧ n ≤ ws.length)

/-- spec/07 Tables 7.1 to 7.7 and 7.11: each field in its place. -/
def Obligations.SpecWords : Prop :=
  decode [0x54048453#32, 0x00000010#32, 0x00000000#32] = .ok (.ldGlobal ⟨false, 9, 4, 1, 4, 3, (some 0x10#64)⟩, 3) ∧
  decode [0x56040301#32, 0x000000D4#32, 0x00000000#32] = .ok (.amoAdd ⟨false, 8, 3, 0, true, (some 0xD4#64)⟩, 3) ∧
  decode [0x80000000#32, 0x00001080#32, 0x13500000#32] = .ok (.vadd ⟨false, 0, 0, 0, 2, false, 2, 0, 0, true, 1, true, 2, true, none⟩, 3) ∧
  decode [0x0E0BFFFA#32] = .ok (.br ⟨false, 1, false, 0x3FFFA⟩, 1) ∧
  decode [0x00418405#32] = .ok (.sub ⟨false, 3, 4, 5, none⟩, 1) ∧
  decode [0x417FC000#32, 0xFFFFFFFE#32, 0xFFFFFFFF#32] = .ok (.div ⟨false, 127, 64, 0, (some 0xFFFFFFFFFFFFFFFE#64)⟩, 3) ∧
  decode [0x28008200#32] = .ok (.mov ⟨true, 1, 2, 0, none⟩, 1) ∧
  decode [0x060184FF#32] = .ok (.addi ⟨false, 3, 4, 0xFF, none⟩, 1) ∧
  decode [0x47C48000#32, 0x89ABCDEF#32, 0x01234567#32] = .ok (.movi ⟨false, 9, 0, 0x0, (some 0x123456789ABCDEF#64)⟩, 3) ∧
  decode [0x09C2860B#32] = .ok (.cmov ⟨false, 5, 6, 0xB, none⟩, 1) ∧
  decode [0x08C18405#32] = .ok (.cmplt ⟨false, 3, 4, 5, none⟩, 1) ∧
  decode [0x4C438100#32, 0x00000001#32, 0x00000000#32] = .ok (.fcmplt ⟨false, 7, 1, 0, (some 0x1#64)⟩, 3) ∧
  decode [0x0B050B0C#32] = .ok (.fma ⟨false, 10, 11, 12, none⟩, 1) ∧
  decode [0x0CC08223#32] = .ok (.fcvt ⟨false, 1, 2, 0x23, none⟩, 1) ∧
  decode [0x0F43FFFD#32] = .ok (.loop ⟨false, 7, 0x7FFD⟩, 1) ∧
  decode [0x0F000000#32] = .ok (.ret ⟨false⟩, 1) ∧
  decode [0x0FC08203#32] = .ok (.blk ⟨false, 1, 2, 3, none⟩, 1) ∧
  decode [0x10010304#32] = .ok (.spawn ⟨false, 2, 3, 4, none⟩, 1) ∧
  decode [0x11B0FFFF#32] = .ok (.tstb ⟨false, true, 33, true, 0x3FFF⟩, 1) ∧
  decode [0x148409AA#32] = .ok (.stGlobal ⟨false, 8, 9, 2, 10, 2, none⟩, 1) ∧
  decode [0x14C35C00#32] = .ok (.ldLocal ⟨false, 6, 5, true, 2⟩, 1) ∧
  decode [0x15435200#32] = .ok (.stLocal ⟨false, 6, 5, false, 1⟩, 1) ∧
  decode [0x1844030A#32] = .ok (.amoCas ⟨false, 8, 3, 5, false, none⟩, 1) ∧
  decode [0x58830301#32, 0xFFFFFF00#32, 0xFFFFFFFF#32] = .ok (.mkobj ⟨false, 6, 3, 0, true, (some 0xFFFFFFFFFFFFFF00#64)⟩, 3) ∧
  decode [0x5A810308#32, 0x0000004C#32, 0x00000000#32] = .ok (.ctrWait ⟨false, 2, 3, 4, false, (some 0x4C#64)⟩, 3) ∧
  decode [0x1E020010#32] = .ok (.sysr ⟨false, 4, 0, 0x10, none⟩, 1) ∧
  decode [0x1E400420#32] = .ok (.sysw ⟨false, 0, 4, 0x20, none⟩, 1) ∧
  decode [0x3FC00000#32] = .ok (.nop ⟨true⟩, 1) ∧
  decode [0x1E808203#32] = .ok (.start ⟨false, 1, 2, 3, none⟩, 1) ∧
  decode [0x86400000#32, 0x00003C00#32, 0xE7800000#32] = .ok (.vsel ⟨false, 0, 0, 0, 7, true, 0, 0, 7, false, 3, true, 4, false, none⟩, 3) ∧
  decode [0xC4C00000#32, 0x00000040#32, 0x34000000#32, 0x00000005#32, 0x00000000#32] = .ok (.vshl ⟨false, 0, 0, 0, 0, false, 1, 0, 1, true, 2, false, 0, false, (some 0x5#64)⟩, 5) ∧
  decode [0x85000700#32, 0x00000000#32, 0x34000000#32] = .ok (.vshr ⟨false, 0, 7, 0, 0, false, 0, 0, 1, true, 2, false, 0, false, none⟩, 3) ∧
  decode [0x87408000#32, 0x00000094#32, 0x24000000#32] = .ok (.vcvt ⟨false, 1, 0, 0, 0, false, 2, 5, 1, false, 2, false, 0, false, none⟩, 3) ∧
  decode [0x90000000#32, 0x000003FD#32, 0x80000000#32] = .ok (.mzero ⟨false, 0, 0, 0, 0, 0, false, 0x3FD, true, 0, 0, 0, none⟩, 3) ∧
  decode [0x9040142A#32, 0x00001C00#32, 0x03400000#32] = .ok (.mma ⟨false, 0, 20, 21, 0, 3, true, 0x0, false, 0, 3, 4, none⟩, 3) ∧
  decode [0x90C01E00#32, 0x00040000#32, 0xA3000000#32] = .ok (.mdrain ⟨false, 0, 30, 0, 4, 0, false, 0x0, true, 2, 3, 0, none⟩, 3) ∧
  decode [0x94050B18#32, 0x00040068#32, 0x00000000#32] = .ok (.copy ⟨false, 10, 11, 12, 4, 0, false, 13, false, 0, 0, false, none⟩, 3) ∧
  decode [0xD4050B00#32, 0x01240C68#32, 0x1C000000#32, 0x00001000#32, 0x00000000#32] = .ok (.copyGthTrg ⟨false, 10, 11, 0, 4, 1, true, 13, false, 14, 0, false, (some 0x1000#64)⟩, 5) ∧
  decode [0x94400B18#32, 0x00000068#32, 0x00000000#32] = .ok (.prefTier ⟨false, 0, 11, 12, 0, 0, false, 13, false, 0, 0, false, none⟩, 3) ∧
  decode [0x98050B18#32, 0x00040068#32, 0x1C000000#32] = .ok (.layout ⟨false, 10, 11, 12, 4, 0, false, 13, 14, none⟩, 3) ∧
  decode [0x98008206#32, 0x00140028#32, 0x0C000000#32] = .ok (.layoutAb ⟨false, 1, 2, 3, 4, 0, false, 5, 6, none⟩, 3) ∧
  decode [0x99400018#32, 0x00040068#32, 0xFF700000#32] = .ok (.collPut ⟨false, 0, 0, 12, 4, 0, false, 13, false, 255, 3, true, none⟩, 3) ∧
  decode [0x99850018#32, 0x0004006C#32, 0x07400000#32] = .ok (.collGet ⟨false, 10, 0, 12, 4, 0, false, 13, true, 7, 2, false, none⟩, 3) ∧
  decode [0x11C00000#32] = .error .opcode ∧
  decode [0x00000080#32] = .error .reservedField ∧
  decode [0x05400001#32] = .error .reservedField ∧
  decode [0x4E000000#32, 0x00000001#32, 0x00000000#32] = .error .literal ∧
  decode [0x40000005#32, 0x00000001#32, 0x00000000#32] = .error .literal ∧
  decode [0x140000C0#32] = .error .orderCode ∧
  decode [0x1400002C#32] = .error .scopeCode ∧
  decode [0x1E000005#32] = .error .sysNumber ∧
  decode [0x18800000#32] = .error .objectType ∧
  decode [0x0FC08102#32] = .error .sameRegisters ∧
  decode [0x40000000#32] = .error .truncated ∧
  decode [0x80000000#32, 0x00100080#32, 0x00000000#32] = .error .minor ∧
  decode [0x80000000#32, 0x000002C0#32, 0x00000000#32] = .error .formatCode ∧
  decode [0x89400000#32, 0x00000000#32, 0x00000000#32] = .error .opcode ∧
  decode [0x94000000#32, 0x00000000#32, 0x00000000#32] = .error .copyEnds ∧
  decode [0x94000100#32, 0x00000004#32, 0x00000000#32] = .error .lossy ∧
  decode [0x87408000#32, 0x00000088#32, 0x00000000#32] = .error .part

/-- spec/02 R41, R44, R46, spec/16 R355: the state after reset. The zeros of registers, buffers and memory are the model's choice (log 2). -/
def Obligations.ResetState : Prop :=
  let s := State.reset
  s.canonical = true ∧
  (∀ k : Nat, (s.ctx (16 * k)).mode = .parked ∧ (s.ctx (16 * k)).park = .firmware ∧ (s.ctx (16 * k)).base = 0 ∧ (s.ctx (16 * k)).limit = 32 ∧
    ∀ i, 1 ≤ i → i ≤ 15 → (s.ctx (16 * k + i)).mode = .idle) ∧
  (∀ g n : Nat, s.emptyAt g n = false ∧ s.regAt g n = 0) ∧ (∀ c l : Nat, s.lineHolders c l = []) ∧
  (∀ c : Nat, (s.core c).pending = [] ∧ (s.core c).paired = false ∧ (s.core c).halted = false ∧ (s.core c).fwd = none ∧ (s.core c).handler = 0) ∧
  (∀ d : Nat, (s.die d).traps = [] ∧ (s.die d).w = 0 ∧ (s.die d).r = 0 ∧ (s.die d).fatal = 0) ∧
  (∀ a : Nat, s.memWord a = 0 ∧ s.memType a = 0 ∧ s.memFull a = true) ∧
  s.sluice.parked = [] ∧ s.eng.ops = [] ∧ s.fw.tenants = [] ∧ s.fw.launches = [] ∧ s.fw.queues = [] ∧
  s.sched.now = 0 ∧ s.sched.agenda = [{ due := 0, ev := .moduleReset }] ∧ s.boot.step = 0 ∧ s.boot.running = none ∧ s.boot.accepted = some Config.factoryTable ∧ s.mem.icache = []

/-- The canonical form of every storage is an invariant of the step. -/
def Obligations.StepKeepsInv : Prop :=
  ∀ s t : State, s.canonical = true → step s = .next t → t.canonical = true

/-- spec/02 R38-R42, spec/20 R391, R396, spec/21 R407: what a step runs; with no choice given, the cycle's slots come before the steps in flight,
the oldest of these first (log 4); the words of generic code are the cluster's (log 36). -/
def Obligations.StepRunsDecoded : Prop :=
  ∀ s : State, s.sched.choices = [] →
    (∀ g rest, s.sched.slots = g :: rest →
      let u : State := { s with sched := { s.sched with slots := rest } }
      let c := s.ctx g
      let due := (c.stop ≠ .none ∨ c.late ≠ []) ∧ c.mode ≠ .inTransit ∧ c.mode ≠ .idle
      (¬due → (c.mode ≠ .ready ∨ (s.core (coreOf g)).halted = true) → step s = .next u) ∧
      (due → step s = .next (u.takeStop g)) ∧
      (¬due → c.mode = .ready → (s.core (coreOf g)).halted = false → c.again = [] → isResidual c.pc = false →
        let v := u.openCode g c.pc
        (∀ ws i n, v.fetchGeneric g c.pc = .ok ws → decode ws = .ok (i, n) →
          step s = exec i (v.withSlot { gid := g, len := 4 * ws.length, w0 := ws.headD 0, words := ws, again := false })) ∧
        (∀ ws e, v.fetchGeneric g c.pc = .ok ws → decode ws = .error e →
          let x := v.withSlot { gid := g, len := 4 * ws.length, w0 := ws.headD 0, words := ws, again := false }
          step s = exec .illegalInstruction x ∧ exec .illegalInstruction x = .next (x.raise 0x01 ((ws.headD 0).zeroExtend 64))) ∧
        (∀ cause a, v.fetchGeneric g c.pc = .error (cause, a) →
          step s = .next ((v.withSlot { gid := g, len := 0, w0 := 0, words := [], again := false }).raise cause a))) ∧
      (∀ i n, ¬due → c.mode = .ready → (s.core (coreOf g)).halted = false → c.again ≠ [] → decode c.again = .ok (i, n) →
        step s = exec i ((u.setCtx g { c with again := [] }).withSlot { gid := g, len := 4 * c.again.length, w0 := c.again.headD 0, words := c.again, again := true })) ∧
      (∀ ws i n, ¬due → c.mode = .ready → (s.core (coreOf g)).halted = false → c.again = [] → isResidual c.pc = true → u.fetchResidual g c.pc = .ok (.words ws) →
        decode ws = .ok (i, n) → step s = exec i (u.withSlot { gid := g, len := 4 * ws.length, w0 := ws.headD 0, words := ws, again := false }))) ∧
    (s.sched.slots = [] →
      (∀ i p, s.firstEligible [] 0 s.sched.agenda = some i → s.sched.agenda[i]? = some p →
        step s = exec p.ev { s with sched := { s.sched with agenda := s.sched.agenda.eraseIdx i, used := s.portsOf p.ev ++ s.sched.used } }) ∧
      (s.firstEligible [] 0 s.sched.agenda = none → step s = exec .issueSlot s)) ∧
    ∃ t : State, exec .issueSlot s = .next t ∧ t.sched.now = s.sched.now + 1 ∧ t.sched.used = [] ∧ t.mem = s.mem ∧ t.cpu.regs = s.cpu.regs ∧
      (∀ g ∈ t.sched.slots, g ∈ s.sched.slots ∨ (s.ctx g).stop ≠ .none ∨ (s.ctx g).late ≠ [] ∨ (s.ctx g).mode = .ready) ∧
      (s.canonical = true →
        let u : State := { s with sched := { s.sched with now := s.sched.now + 1 } }
        (∀ g, (s.ctx g).mode = .ready → (s.ctx g).rot = 0 → (u.cyclesOf (coreOf g)).toNat % 16 = ctxNo g → (s.core (coreOf g)).halted = false →
          u.rotationOpen (coreOf g) = true → g ∈ t.sched.slots) ∧
        ∀ k, ((s.core k).upsets = 0 → t.core k = s.core k) ∧
          ((s.core k).upsets ≠ 0 → t.core k = { s.core k with lbecc := min ((s.core k).lbecc + (s.core k).upsets) (2 ^ 32 - 1), upsets := 0 }))
end

