-- ==== Sys2Proof/Laws/Bits.lean ====
section
/-!
SUPPORT. Bit fields and context numbers, in the terms of the statements.
-/

namespace Sys2Proof

/-- A slice is the number of the bits it names. -/
theorem slice_eq (v : W64) (hi lo : Nat) : slice v hi lo = (v.extractLsb' lo (hi + 1 - lo)).toNat := by
  simp [slice, BitVec.extractLsb'_toNat, Nat.shiftRight_eq_div_pow]
/-- Bit `k` of a word. -/
theorem bit_eq (v : W64) (k : Nat) : bit v k = v.getLsbD k := rfl
/-- A slice lies below its power of two. -/
theorem slice_lt (v : W64) (hi lo : Nat) : slice v hi lo < 2 ^ (hi + 1 - lo) := Nat.mod_lt _ (Nat.two_pow_pos _)

end Sys2Proof

namespace Sys2Proof.Machine

open Sys2Proof

/-- A core has sixteen contexts. -/
theorem ctxNo_lt (g : Nat) : ctxNo g < 16 := Nat.mod_lt _ (by decide)
/-- A context number is its core's and its own. -/
theorem gid_split (g : Nat) : 16 * coreOf g + ctxNo g = g := by simp [coreOf, ctxNo]; omega

end Sys2Proof.Machine
end

