-- ==== Sys2Proof/Laws/Sparse.lean ====
section
/-!
SUPPORT. Sparse maps: setting a key keeps the canonical form, the key then reads as it was set, and every other key reads as
before.
-/

namespace Sys2Proof

variable {α : Type} [DecidableEq α] {d : α} {f : Nat → α}

theorem spWfFrom_cons {lo : Option Nat} {j : Nat} {w : α} {m : Sparse α} :
    spWfFrom f lo ((j, w) :: m) = true ↔ (∀ l, lo = some l → l < j) ∧ w ≠ f j ∧ spWfFrom f (some j) m = true := by
  cases lo <;> simp [spWfFrom, and_assoc]

/-- A weaker bound. -/
theorem spWfFrom_mono {lo : Option Nat} {k : Nat} {m : Sparse α} (h : spWfFrom f (some k) m = true) (hl : ∀ l, lo = some l → l ≤ k) :
    spWfFrom f lo m = true := by
  cases m with
  | nil => rfl
  | cons p m =>
    rw [spWfFrom_cons] at h ⊢
    exact ⟨fun l e => Nat.lt_of_le_of_lt (hl l e) (h.1 k rfl), h.2⟩

theorem spSet_wfFrom {lo : Option Nat} {m : Sparse α} {k : Nat} {v : α} (h : spWfFrom f lo m = true) (hk : ∀ l, lo = some l → l < k) :
    spWfFrom f lo (spSet (f k) m k v) = true := by
  induction m generalizing lo with
  | nil =>
    unfold spSet
    split
    · rfl
    · exact spWfFrom_cons.2 ⟨hk, ‹_›, rfl⟩
  | cons p m ih =>
    obtain ⟨j, w⟩ := p
    have h' := spWfFrom_cons.1 h
    unfold spSet
    split
    next hlt =>
      split
      · exact h
      · exact spWfFrom_cons.2 ⟨hk, ‹_›, spWfFrom_cons.2 ⟨fun l e => by cases e; exact hlt, h'.2⟩⟩
    next =>
      split
      next e =>
        split
        · exact spWfFrom_mono h'.2.2 fun l e' => Nat.le_of_lt (h'.1 l e')
        · exact spWfFrom_cons.2 ⟨hk, ‹_›, e ▸ h'.2.2⟩
      next hn hne => exact spWfFrom_cons.2 ⟨h'.1, h'.2.1, ih h'.2.2 fun l e => by cases e; omega⟩

/-- Setting a key keeps the canonical form. -/
theorem spSet_wfBy {m : Sparse α} {k : Nat} {v : α} (h : spWfBy f m = true) : spWfBy f (spSet (f k) m k v) = true :=
  spSet_wfFrom h fun _ e => nomatch e

theorem spSet_wf {m : Sparse α} {k : Nat} {v : α} (h : spWf d m = true) : spWf d (spSet d m k v) = true :=
  spSet_wfBy (f := fun _ => d) h

theorem spSetList_wf {m : Sparse α} {k : Nat} {vs : List α} (h : spWf d m = true) : spWf d (spSetList d m k vs) = true := by
  induction vs generalizing m k with
  | nil => exact h
  | cons v vs ih => exact ih (spSet_wf h)

theorem spSetAll_wf {m : Sparse α} {l : List (Nat × α)} {g : Nat × α → α} (h : spWf d m = true) :
    spWf d (l.foldl (fun m p => spSet d m p.1 (g p)) m) = true := by
  induction l generalizing m with
  | nil => exact h
  | cons p l ih => exact ih (spSet_wf h)
theorem spFill_wf {m : Sparse α} {k : Nat} {v : α} {n : Nat} (h : spWf d m = true) : spWf d (spFill d m k v n) = true := by
  induction n generalizing m k with
  | zero => exact h
  | succ n ih => exact ih (spSet_wf h)

theorem spWfFrom_filter {lo : Option Nat} {m : Sparse α} {p : Nat × α → Bool} (h : spWfFrom f lo m = true) :
    spWfFrom f lo (m.filter p) = true := by
  induction m generalizing lo with
  | nil => rfl
  | cons q m ih =>
    have h' := spWfFrom_cons.1 h
    rw [List.filter_cons]
    split
    · exact spWfFrom_cons.2 ⟨h'.1, h'.2.1, ih h'.2.2⟩
    · exact ih (spWfFrom_mono h'.2.2 fun l e => Nat.le_of_lt (h'.1 l e))

/-- Leaving keys out keeps the canonical form. -/
theorem spWf_filter {m : Sparse α} {p : Nat × α → Bool} (h : spWf d m = true) : spWf d (m.filter p) = true := spWfFrom_filter h

/-- Changing values keeps the canonical form where the defaults are then left out. -/
theorem spWfFrom_map_filter {lo : Option Nat} {m : Sparse α} {g : Nat × α → α} (h : spWfFrom f lo m = true) :
    spWfFrom f lo ((m.map fun p => (p.1, g p)).filter fun p => decide (p.2 ≠ f p.1)) = true := by
  induction m generalizing lo with
  | nil => rfl
  | cons q m ih =>
    have h' := spWfFrom_cons.1 h
    rw [List.map_cons, List.filter_cons]
    split
    next e => exact spWfFrom_cons.2 ⟨h'.1, of_decide_eq_true e, ih h'.2.2⟩
    next => exact ih (spWfFrom_mono h'.2.2 fun l e => Nat.le_of_lt (h'.1 l e))

theorem spWf_map_filter {m : Sparse α} {g : Nat × α → α} (h : spWf d m = true) :
    spWf d ((m.map fun p => (p.1, g p)).filter fun p => decide (p.2 ≠ d)) = true := spWfFrom_map_filter (f := fun _ => d) h

/-- Changing values that stay apart from the default keeps the canonical form. -/
theorem spWfFrom_map {lo : Option Nat} {m : Sparse α} {g : α → α} (h : spWfFrom f lo m = true) (hg : ∀ k v, v ≠ f k → g v ≠ f k) :
    spWfFrom f lo (m.map fun p => (p.1, g p.2)) = true := by
  induction m generalizing lo with
  | nil => rfl
  | cons q m ih =>
    have h' := spWfFrom_cons.1 h
    exact spWfFrom_cons.2 ⟨h'.1, hg _ _ h'.2.1, ih h'.2.2⟩

theorem spWf_map {m : Sparse α} {g : α → α} (h : spWf d m = true) (hg : ∀ v, v ≠ d → g v ≠ d) :
    spWf d (m.map fun p => (p.1, g p.2)) = true := spWfFrom_map (f := fun _ => d) h fun _ => hg

/-- A key below every listed key reads as the default. -/
theorem spGet_below {k : Nat} {m : Sparse α} (h : spWfFrom f (some k) m = true) {j : Nat} (hj : j ≤ k) : spGet d m j = d := by
  induction m generalizing k with
  | nil => rfl
  | cons p m ih =>
    have h' := spWfFrom_cons.1 h
    have hlt := h'.1 k rfl
    rw [spGet, if_neg (by omega)]
    exact ih h'.2.2 (by omega)

theorem spGet_spSet_from {lo : Option Nat} {m : Sparse α} {k : Nat} {v : α} (h : spWfFrom f lo m = true) (j : Nat) :
    spGet (f j) (spSet (f k) m k v) j = if j = k then v else spGet (f j) m j := by
  induction m generalizing lo with
  | nil =>
    unfold spSet
    split
    next e =>
      split
      next e' => rw [e', e]; rfl
      next => rfl
    next =>
      split
      next e' => rw [e', spGet, if_pos rfl]
      next e' => exact if_neg (Ne.symm e')
  | cons p m ih =>
    obtain ⟨i, w⟩ := p
    have h' := spWfFrom_cons.1 h
    unfold spSet
    split
    next hlt =>
      split
      next e =>
        by_cases e' : j = k
        · rw [if_pos e', spGet, if_neg (by omega), e, e']
          exact spGet_below h'.2.2 (by omega)
        · rw [if_neg e']
      next =>
        by_cases e' : j = k
        · rw [if_pos e', spGet, if_pos e'.symm]
        · rw [if_neg e', spGet, if_neg (Ne.symm e')]
    next =>
      split
      next e =>
        subst e
        split
        next e =>
          by_cases e' : j = k
          · rw [if_pos e', e', e]
            exact spGet_below h'.2.2 (Nat.le_refl _)
          · rw [if_neg e', spGet, if_neg (Ne.symm e')]
        next =>
          by_cases e' : j = k
          · rw [if_pos e', spGet, if_pos e'.symm]
          · rw [if_neg e', spGet, if_neg (Ne.symm e'), spGet, if_neg (Ne.symm e')]
      next =>
        by_cases e : i = j
        · rw [spGet, spGet, if_pos e, if_pos e, if_neg (by omega)]
        · rw [spGet, spGet, if_neg e, if_neg e, ih h'.2.2]

/-- Read after write, where the default depends on the key. -/
theorem spGet_spSet_by {m : Sparse α} {k : Nat} {v : α} (h : spWfBy f m = true) (j : Nat) :
    spGet (f j) (spSet (f k) m k v) j = if j = k then v else spGet (f j) m j := spGet_spSet_from h j

/-- Read after write. -/
theorem spGet_spSet {m : Sparse α} {k : Nat} {v : α} (h : spWf d m = true) (j : Nat) :
    spGet d (spSet d m k v) j = if j = k then v else spGet d m j := spGet_spSet_from (f := fun _ => d) h j

theorem spGet_spSet_same {m : Sparse α} {k : Nat} {v : α} (h : spWf d m = true) : spGet d (spSet d m k v) k = v := by
  rw [spGet_spSet h, if_pos rfl]

theorem spGet_spSet_other {m : Sparse α} {k : Nat} {v : α} (h : spWf d m = true) {j : Nat} (hj : j ≠ k) :
    spGet d (spSet d m k v) j = spGet d m j := by rw [spGet_spSet h, if_neg hj]

/-- Read after the write of a run of keys. -/
theorem spGet_spSetList {m : Sparse α} {k : Nat} {vs : List α} (h : spWf d m = true) (j : Nat) :
    spGet d (spSetList d m k vs) j = if k ≤ j ∧ j < k + vs.length then vs.getD (j - k) d else spGet d m j := by
  induction vs generalizing m k with
  | nil => rw [if_neg (by simp only [List.length_nil]; omega)]; rfl
  | cons v vs ih =>
    rw [spSetList, ih (spSet_wf h), spGet_spSet h, List.length_cons]
    by_cases h1 : j = k
    · subst h1
      rw [if_neg (by omega), if_pos rfl, if_pos (by omega), Nat.sub_self]
      rfl
    · rw [if_neg h1]
      by_cases h2 : k + 1 ≤ j ∧ j < k + 1 + vs.length
      · rw [if_pos h2, if_pos (by omega), show j - k = (j - (k + 1)) + 1 by omega]
        rfl
      · rw [if_neg h2, if_neg (by omega)]

/-- The keys outside a run that was written read as before. -/
theorem spGet_spSetList_other {m : Sparse α} {k : Nat} {vs : List α} (h : spWf d m = true) {j : Nat} (hj : ¬(k ≤ j ∧ j < k + vs.length)) :
    spGet d (spSetList d m k vs) j = spGet d m j := by rw [spGet_spSetList h, if_neg hj]

omit [DecidableEq α] in
theorem spGetList_length {m : Sparse α} {k n : Nat} : (spGetList d m k n).length = n := by
  induction n generalizing k with
  | zero => rfl
  | succ n ih => rw [spGetList, List.length_cons, ih]

/-- Reading back a run of keys. -/
theorem spGetList_spSetList {m : Sparse α} {k : Nat} {vs : List α} (h : spWf d m = true) :
    spGetList d (spSetList d m k vs) k vs.length = vs := by
  suffices ∀ (n i : Nat), i + n = vs.length → spGetList d (spSetList d m k vs) (k + i) n = vs.drop i by
    simpa using this vs.length 0 (by omega)
  intro n
  induction n with
  | zero => intro i hi; rw [spGetList, List.drop_eq_nil_of_le (by omega)]
  | succ n ih =>
    intro i hi
    rw [spGetList, Nat.add_assoc, ih (i + 1) (by omega), spGet_spSetList h, if_pos (by omega), List.drop_eq_getElem_cons (by omega : i < vs.length)]
    congr 1
    rw [show k + i - k = i by omega, List.getD_eq_getElem?_getD, List.getElem?_eq_getElem (by omega)]
    rfl

theorem spOfList_wfFrom {lo : Option Nat} {k : Nat} {vs : List α} (hk : ∀ l, lo = some l → l < k) :
    spWfFrom (fun _ => d) lo (spOfList d k vs) = true := by
  induction vs generalizing lo k with
  | nil => rfl
  | cons v vs ih =>
    unfold spOfList
    split
    · exact ih fun l e => Nat.lt_succ_of_lt (hk l e)
    · exact spWfFrom_cons.2 ⟨hk, ‹_›, ih fun l e => by cases e; exact Nat.lt_succ_self _⟩

/-- A list laid out is canonical. -/
theorem spOfList_wf {k : Nat} {vs : List α} : spWf d (spOfList d k vs) = true := spOfList_wfFrom fun _ e => nomatch e

/-- Keys of a canonical map lie above its lower bound. -/
theorem spWfFrom_lt {j k : Nat} {v : α} {m : Sparse α} (h : spWfFrom f (some j) m = true) (hm : (k, v) ∈ m) : j < k := by
  induction m generalizing j with
  | nil => simp at hm
  | cons p m ih =>
    obtain ⟨i, w⟩ := p
    rw [spWfFrom_cons] at h
    simp only [List.mem_cons, Prod.mk.injEq] at hm
    have hj : j < i := h.1 j rfl
    rcases hm with ⟨rfl, rfl⟩ | hm
    · exact hj
    · exact Nat.lt_trans hj (ih h.2.2 hm)

/-- A listed key of a canonical map reads as its value. -/
theorem spGet_mem {lo : Option Nat} {m : Sparse α} (h : spWfFrom f lo m = true) {k : Nat} {v : α} (hm : (k, v) ∈ m) : spGet d m k = v := by
  induction m generalizing lo with
  | nil => simp at hm
  | cons p m ih =>
    obtain ⟨j, w⟩ := p
    rw [spWfFrom_cons] at h
    simp only [List.mem_cons, Prod.mk.injEq] at hm
    rcases hm with ⟨rfl, rfl⟩ | hm
    · simp [spGet]
    · rw [spGet, if_neg (Nat.ne_of_lt (spWfFrom_lt h.2.2 hm))]
      exact ih h.2.2 hm

omit [DecidableEq α] in
/-- A key that is not listed reads as the default. -/
theorem spGet_none {m : Sparse α} {k : Nat} (h : k ∉ m.map (·.1)) : spGet d m k = d := by
  induction m with
  | nil => rfl
  | cons p m ih =>
    simp only [List.map_cons, List.mem_cons, not_or] at h
    rw [spGet, if_neg (fun e => h.1 e.symm)]
    exact ih h.2

/-- A key set to a value that is listed reads as that value, whatever the map. -/
theorem spGet_spSet_listed {m : Sparse α} {k : Nat} {v : α} (hv : v ≠ d) : spGet d (spSet d m k v) k = v := by
  induction m with
  | nil => simp [spSet, hv, spGet]
  | cons p m ih =>
    obtain ⟨j, w⟩ := p
    rw [spSet]
    split
    · rw [spGet, if_pos rfl]
    · split
      · rw [spGet, if_pos rfl]
      · rename_i h1 h2
        rw [spGet, if_neg (fun e => h2 e.symm)]
        exact ih

/-- Setting a key leaves every other key as it reads, whatever the map. -/
theorem spGet_spSet_apart {m : Sparse α} {k : Nat} {v : α} {j : Nat} (hj : j ≠ k) : spGet d (spSet d m k v) j = spGet d m j := by
  have hk : ¬k = j := fun e => hj e.symm
  induction m with
  | nil => rw [spSet]; split <;> simp [spGet, hk]
  | cons p m ih =>
    obtain ⟨i, w⟩ := p
    rw [spSet]
    split
    · split <;> simp [spGet, hk]
    · split
      · rename_i h2
        subst h2
        split <;> simp [spGet, hk]
      · simp only [spGet, ih]

end Sys2Proof
end

