-- ==== Sys2Proof/Laws/Canonical.lean ====
section
/-!
SUPPORT. The canonical form of the storages, and the elementary updates that keep it.
-/

namespace Sys2Proof.Machine

open Sys2Proof

/-- What State.canonical says, storage by storage. -/
structure State.Canon (s : State) : Prop where
  ctxs : spWfBy Ctx.rest s.cpu.ctxs = true
  cores : spWf Core.init s.cpu.cores = true
  regs : spWf 0 s.cpu.regs = true
  regEmpty : spWf false s.cpu.regEmpty = true
  ab : spWf 0 s.cpu.ab = true
  abEmpty : spWf [] s.cpu.abEmpty = true
  ps : spWf 0 s.cpu.ps = true
  wb : spWf 0 s.cpu.wb = true
  tiles : spWf Tile.init s.cpu.tiles = true
  bytes : Memory.wf s.mem.bytes = true
  tags : spWf 8#4 s.mem.tags = true
  upsets : spWf 0 s.mem.upsets = true
  copyUpsets : spWf 0 s.mem.copyUpsets = true
  fwins : spWf { fwa := 0, fwb := 0, fws := 0 } s.mem.fwins = true
  dpit : spWf 0 s.mem.dpit = true
  counts : spWf 0 s.mem.counts = true
  moved : spWf [] s.mem.moved = true
  slecc : spWf (0, 0) s.mem.slecc = true
  stkBank : spWf 0 s.mem.stkBank = true
  stkCounts : spWf 0 s.mem.stkCounts = true
  seqs : spWf 0 s.sluice.seqs = true
  quota : spWf none s.sluice.quota = true
  dies : spWf Die.init s.dies = true

theorem State.canonical_iff {s : State} : s.canonical = true ↔ s.Canon := by
  constructor
  · intro h
    simp only [State.canonical, Cpu.canonical, Mem.canonical, Bool.and_eq_true] at h
    obtain ⟨⟨⟨⟨⟨⟨⟨⟨⟨⟨⟨⟨a, b⟩, c⟩, d⟩, e⟩, f⟩, g⟩, i⟩, j⟩, ⟨⟨⟨⟨⟨⟨⟨⟨⟨⟨k, l⟩, m⟩, n⟩, o⟩, p⟩, q⟩, r⟩, t⟩, u⟩, v⟩⟩, w⟩, x⟩, y⟩ := h
    exact ⟨a, b, c, d, e, f, g, i, j, k, l, m, n, o, p, q, r, t, u, v, w, x, y⟩
  · intro h
    simp only [State.canonical, Cpu.canonical, Mem.canonical, Bool.and_eq_true]
    exact ⟨⟨⟨⟨⟨⟨⟨⟨⟨⟨⟨⟨h.ctxs, h.cores⟩, h.regs⟩, h.regEmpty⟩, h.ab⟩, h.abEmpty⟩, h.ps⟩, h.wb⟩, h.tiles⟩, ⟨⟨⟨⟨⟨⟨⟨⟨⟨⟨h.bytes, h.tags⟩, h.upsets⟩, h.copyUpsets⟩, h.fwins⟩, h.dpit⟩, h.counts⟩, h.moved⟩, h.slecc⟩, h.stkBank⟩, h.stkCounts⟩⟩, h.seqs⟩, h.quota⟩, h.dies⟩

/-- What is no storage may change. -/
theorem State.Canon.other {s : State} (h : s.Canon) {eng : Engines} {fw : Firmware} {fab : Fabric} {boot : Boot} {sched : Sched} :
    State.Canon ⟨s.cpu, s.mem, s.sluice, eng, s.dies, fw, fab, boot, sched⟩ := { h with }
theorem State.Canon.sluices {s : State} (h : s.Canon) {parked : List Parked} {cancelled : List Nat} {takenBack : List Requester} {moves : List (Nat × Nat)}
    {busy : List Nat} {eng : Engines} {fw : Firmware} {fab : Fabric} {boot : Boot} {sched : Sched} :
    State.Canon ⟨s.cpu, s.mem, ⟨parked, s.sluice.seqs, cancelled, takenBack, moves, busy, s.sluice.quota⟩, eng, s.dies, fw, fab, boot, sched⟩ := { h with }
theorem State.Canon.tables {s : State} (h : s.Canon) {tlb : List TlbEntry} {icache : List CodeWord} {nearRetired farRetired farDown lostDies : List Nat}
    {failing : List (Nat × Bool × Nat)} {eng : Engines}
    {fw : Firmware} {fab : Fabric} {boot : Boot} {sched : Sched} :
    State.Canon ⟨s.cpu, ⟨s.mem.bytes, s.mem.tags, s.mem.upsets, s.mem.copyUpsets, tlb, icache, s.mem.fwins, s.mem.dpit, s.mem.counts, s.mem.moved, nearRetired,
      farRetired, s.mem.slecc, s.mem.stkBank, s.mem.stkCounts, farDown, failing, lostDies⟩, s.sluice, eng, s.dies, fw, fab, boot, sched⟩ := { h with }

theorem State.Canon.foldl {α : Type} {g : State → α → State} (hg : ∀ s a, s.Canon → (g s a).Canon) {s : State} (h : s.Canon) {l : List α} :
    (l.foldl g s).Canon := by
  induction l generalizing s with
  | nil => exact h
  | cons a l ih => exact ih (hg s a h)

theorem State.Canon.foldlFst {α β : Type} {g : State × β → α → State × β} (hg : ∀ q a, q.1.Canon → (g q a).1.Canon) {q : State × β} (h : q.1.Canon) {l : List α} :
    (l.foldl g q).1.Canon := by
  induction l generalizing q with
  | nil => exact h
  | cons a l ih => exact ih (hg q a h)

/-- A guarded option that answers something answers what it guards. -/
theorem guarded_some {α : Type} {c : Prop} [Decidable c] {x : Option α} {v : α} (e : (if c then none else x) = some v) : x = some v := by
  split at e
  · exact nomatch e
  · exact e

/-- Where an outcome is a next state, that state is in canonical form. -/
def OutCanon (r : Host.Outcome State Fault Refusal) : Prop := ∀ t, r = .next t → t.Canon
theorem OutCanon.next {s : State} (h : s.Canon) : OutCanon (.next s) := fun _ e => by cases e; exact h
theorem OutCanon.fault {f : Fault} : OutCanon (.fault f) := fun _ e => nomatch e
theorem OutCanon.refused {f : Refusal} : OutCanon (.refused f) := fun _ e => nomatch e

theorem Memory.wf_iff {m : List Host.Cell} : Memory.wf m = true ↔ spWf (0 : Byte) m = true := Iff.rfl

theorem State.id_canon {s : State} (h : s.Canon) : (id s).Canon := h
theorem State.setCtx_canon {s : State} (h : s.Canon) {g : Nat} {c : Ctx} : (s.setCtx g c).Canon := { h with ctxs := spSet_wfBy h.ctxs }
theorem State.updCore_canon {s : State} (h : s.Canon) {k : Nat} {f : Core → Core} : (s.updCore k f).Canon := { h with cores := spSet_wf h.cores }
theorem State.updDie_canon {s : State} (h : s.Canon) {k : Nat} {f : Die → Die} : (s.updDie k f).Canon := { h with dies := spSet_wf h.dies }
theorem State.setPhys_canon {s : State} (h : s.Canon) {k : Nat} {v : W64} : (s.setPhys k v).Canon := { h with regs := spSet_wf h.regs }
theorem State.setEmpty_canon {s : State} (h : s.Canon) {k : Nat} {e : Bool} : (s.setEmpty k e).Canon := { h with regEmpty := spSet_wf h.regEmpty }
theorem State.setAb_canon {s : State} (h : s.Canon) {c o : Nat} {bs : List Byte} : (s.setAb c o bs).Canon := { h with ab := spSetList_wf h.ab }
theorem State.setPs_canon {s : State} (h : s.Canon) {c o : Nat} {bs : List Byte} : (s.setPs c o bs).Canon := { h with ps := spSetList_wf h.ps }
theorem State.setWb_canon {s : State} (h : s.Canon) {c o : Nat} {bs : List Byte} : (s.setWb c o bs).Canon := { h with wb := spSetList_wf h.wb }
theorem State.setLine_canon {s : State} (h : s.Canon) {c l : Nat} {os : List Nat} : (s.setLine c l os).Canon := { h with abEmpty := spSet_wf h.abEmpty }
theorem State.setTile_canon {s : State} (h : s.Canon) {c t : Nat} {x : Tile} : (s.setTile c t x).Canon := { h with tiles := spSet_wf h.tiles }
theorem State.putBytes_canon {s : State} (h : s.Canon) {a : Nat} {bs : List Byte} : (s.putBytes a bs).Canon :=
  { h with bytes := spSetList_wf (Memory.wf_iff.1 h.bytes) }
theorem State.putTag_canon {s : State} (h : s.Canon) {a : Nat} {t : BitVec 4} : (s.putTag a t).Canon := { h with tags := spSet_wf h.tags }
theorem State.setDpit_canon {s : State} (h : s.Canon) {a : Nat} {e : W64} : (s.setDpit a e).Canon := { h with dpit := spSet_wf h.dpit }
theorem State.setMoved_canon {s : State} (h : s.Canon) {a : Nat} {bs : List Nat} : (s.setMoved a bs).Canon := { h with moved := spSet_wf h.moved }
theorem State.countEcc_canon {s : State} (h : s.Canon) {a c u : Nat} : (s.countEcc a c u).Canon := { h with slecc := spSet_wf h.slecc }
theorem State.clearUpset_canon {s : State} (h : s.Canon) {a : Nat} : (s.clearUpset a).Canon :=
  { h with upsets := spSet_wf h.upsets, copyUpsets := spSet_wf h.copyUpsets }
theorem State.counts_canon {s : State} (h : s.Canon) {a n : Nat} :
    State.Canon { s with mem := { s.mem with counts := spSet 0 s.mem.counts a n } } := { h with counts := spSet_wf h.counts }

end Sys2Proof.Machine
end

