-- ==== Sys2Proof/Laws/CanonAccess.lean ====
section
/-!
SUPPORT. Every function of Machine/Access.lean keeps the canonical form of the storages.
-/

namespace Sys2Proof.Machine

open Sys2Proof

set_option linter.unusedTactic false
set_option linter.unreachableTactic false
set_option linter.unusedSimpArgs false
set_option linter.unnecessarySeqFocus false

theorem State.updCtx_canon {s : State} {gid : Nat} {f : Ctx → Ctx} (hs : s.Canon) : (State.updCtx s gid f).Canon := by
  unfold State.updCtx
  try dsimp only
  (repeat' first | with_reducible assumption | (with_reducible refine State.Canon.foldl ?_ ?_) | (with_reducible apply State.setCtx_canon) | (fail_if_no_progress (with_reducible apply State.Canon.other)) | (fail_if_no_progress (with_reducible apply State.Canon.sluices)) | (fail_if_no_progress (with_reducible apply State.Canon.tables)) | split | (intro _))

theorem State.updCur_canon {s : State} {f : Ctx → Ctx} (hs : s.Canon) : (State.updCur s f).Canon := by
  unfold State.updCur
  try dsimp only
  (repeat' first | with_reducible assumption | (with_reducible refine State.Canon.foldl ?_ ?_) | (with_reducible apply State.updCtx_canon) | (fail_if_no_progress (with_reducible apply State.Canon.other)) | (fail_if_no_progress (with_reducible apply State.Canon.sluices)) | (fail_if_no_progress (with_reducible apply State.Canon.tables)) | split | (intro _))

theorem State.setRegAt_canon {s : State} {gid : Nat} {n : Nat} {v : W64} (hs : s.Canon) : (State.setRegAt s gid n v).Canon := by
  unfold State.setRegAt
  try dsimp only
  (repeat' first | with_reducible assumption | (with_reducible refine State.Canon.foldl ?_ ?_) | (with_reducible apply State.setPhys_canon) | (fail_if_no_progress (with_reducible apply State.Canon.other)) | (fail_if_no_progress (with_reducible apply State.Canon.sluices)) | (fail_if_no_progress (with_reducible apply State.Canon.tables)) | split | (intro _))

theorem State.writeReg_canon {s : State} {n : BitVec 7} {v : W64} (hs : s.Canon) : (State.writeReg s n v).Canon := by
  unfold State.writeReg
  try dsimp only
  (repeat' first | with_reducible assumption | (with_reducible refine State.Canon.foldl ?_ ?_) | (with_reducible apply State.setRegAt_canon) | (fail_if_no_progress (with_reducible apply State.Canon.other)) | (fail_if_no_progress (with_reducible apply State.Canon.sluices)) | (fail_if_no_progress (with_reducible apply State.Canon.tables)) | split | (intro _))

theorem State.markEmpty_canon {s : State} {gid : Nat} {n : Nat} (hs : s.Canon) : (State.markEmpty s gid n).Canon := by
  unfold State.markEmpty
  try dsimp only
  (repeat' first | with_reducible assumption | (with_reducible refine State.Canon.foldl ?_ ?_) | (with_reducible apply State.setEmpty_canon) | (fail_if_no_progress (with_reducible apply State.Canon.other)) | (fail_if_no_progress (with_reducible apply State.Canon.sluices)) | (fail_if_no_progress (with_reducible apply State.Canon.tables)) | split | (intro _))

theorem State.orFlags_canon {s : State} {gid : Nat} {fl : BitVec 5} (hs : s.Canon) : (State.orFlags s gid fl).Canon := by
  unfold State.orFlags
  try dsimp only
  (repeat' first | with_reducible assumption | (with_reducible refine State.Canon.foldl ?_ ?_) | (with_reducible apply State.updCtx_canon) | (fail_if_no_progress (with_reducible apply State.Canon.other)) | (fail_if_no_progress (with_reducible apply State.Canon.sluices)) | (fail_if_no_progress (with_reducible apply State.Canon.tables)) | split | (intro _))

theorem State.emptyLines_canon {s : State} {core : Nat} {op : Nat} {ls : List Nat} (hs : s.Canon) : (State.emptyLines s core op ls).Canon := by
  unfold State.emptyLines
  try dsimp only
  (repeat' first | with_reducible assumption | (with_reducible refine State.Canon.foldl ?_ ?_) | (with_reducible apply State.setLine_canon) | (fail_if_no_progress (with_reducible apply State.Canon.other)) | (fail_if_no_progress (with_reducible apply State.Canon.sluices)) | (fail_if_no_progress (with_reducible apply State.Canon.tables)) | split | (intro _))

theorem State.postIn_canon {s : State} {d : Nat} {ev : Instr} (hs : s.Canon) : (State.postIn s d ev).Canon := by
  unfold State.postIn
  try dsimp only
  (repeat' first | with_reducible assumption | (with_reducible refine State.Canon.foldl ?_ ?_) | (fail_if_no_progress (with_reducible apply State.Canon.other)) | (fail_if_no_progress (with_reducible apply State.Canon.sluices)) | (fail_if_no_progress (with_reducible apply State.Canon.tables)) | split | (intro _))

theorem State.post_canon {s : State} {ev : Instr} (hs : s.Canon) : (State.post s ev).Canon := by
  unfold State.post
  try dsimp only
  (repeat' first | with_reducible assumption | (with_reducible refine State.Canon.foldl ?_ ?_) | (with_reducible apply State.postIn_canon) | (fail_if_no_progress (with_reducible apply State.Canon.other)) | (fail_if_no_progress (with_reducible apply State.Canon.sluices)) | (fail_if_no_progress (with_reducible apply State.Canon.tables)) | split | (intro _))

theorem State.postAll_canon {s : State} {evs : List Instr} (hs : s.Canon) : (State.postAll s evs).Canon := by
  unfold State.postAll
  try dsimp only
  (repeat' first | with_reducible assumption | (with_reducible refine State.Canon.foldl ?_ ?_) | (with_reducible apply State.post_canon) | (fail_if_no_progress (with_reducible apply State.Canon.other)) | (fail_if_no_progress (with_reducible apply State.Canon.sluices)) | (fail_if_no_progress (with_reducible apply State.Canon.tables)) | split | (intro _))

theorem State.emit_canon {s : State} {o : Outward} (hs : s.Canon) : (State.emit s o).Canon := by
  unfold State.emit
  try dsimp only
  (repeat' first | with_reducible assumption | (with_reducible refine State.Canon.foldl ?_ ?_) | (fail_if_no_progress (with_reducible apply State.Canon.other)) | (fail_if_no_progress (with_reducible apply State.Canon.sluices)) | (fail_if_no_progress (with_reducible apply State.Canon.tables)) | split | (intro _))

theorem State.newRid_canon {s : State} {ret : _} {out : State} (e : State.newRid s = (ret, out)) (hs : s.Canon) : out.Canon := by
  unfold State.newRid at e
  try dsimp only at e
  (repeat' split at e) <;> (try simp only [Except.ok.injEq, Option.some.injEq, Prod.mk.injEq, reduceCtorEq] at e) <;> (first | (obtain ⟨e1, e2⟩ := e; subst e1 e2) | (subst e) | skip) <;> (repeat' first | with_reducible assumption | (with_reducible refine State.Canon.foldl ?_ ?_) | (fail_if_no_progress (with_reducible apply State.Canon.other)) | (fail_if_no_progress (with_reducible apply State.Canon.sluices)) | (fail_if_no_progress (with_reducible apply State.Canon.tables)) | split | (intro _))

theorem State.newTag_canon {s : State} {ret : _} {out : State} (e : State.newTag s = (ret, out)) (hs : s.Canon) : out.Canon := by
  unfold State.newTag at e
  try dsimp only at e
  (repeat' split at e) <;> (try simp only [Except.ok.injEq, Option.some.injEq, Prod.mk.injEq, reduceCtorEq] at e) <;> (first | (obtain ⟨e1, e2⟩ := e; subst e1 e2) | (subst e) | skip) <;> (repeat' first | with_reducible assumption | (with_reducible refine State.Canon.foldl ?_ ?_) | (fail_if_no_progress (with_reducible apply State.Canon.other)) | (fail_if_no_progress (with_reducible apply State.Canon.sluices)) | (fail_if_no_progress (with_reducible apply State.Canon.tables)) | split | (intro _))

theorem State.newGen_canon {s : State} {ret : _} {out : State} (e : State.newGen s = (ret, out)) (hs : s.Canon) : out.Canon := by
  unfold State.newGen at e
  try dsimp only at e
  (repeat' split at e) <;> (try simp only [Except.ok.injEq, Option.some.injEq, Prod.mk.injEq, reduceCtorEq] at e) <;> (first | (obtain ⟨e1, e2⟩ := e; subst e1 e2) | (subst e) | skip) <;> (repeat' first | with_reducible assumption | (with_reducible refine State.Canon.foldl ?_ ?_) | (fail_if_no_progress (with_reducible apply State.Canon.other)) | (fail_if_no_progress (with_reducible apply State.Canon.sluices)) | (fail_if_no_progress (with_reducible apply State.Canon.tables)) | split | (intro _))

theorem State.updTenant_canon {s : State} {t : Nat} {f : Tenant → Tenant} (hs : s.Canon) : (State.updTenant s t f).Canon := by
  unfold State.updTenant
  try dsimp only
  (repeat' first | with_reducible assumption | (with_reducible refine State.Canon.foldl ?_ ?_) | (fail_if_no_progress (with_reducible apply State.Canon.other)) | (fail_if_no_progress (with_reducible apply State.Canon.sluices)) | (fail_if_no_progress (with_reducible apply State.Canon.tables)) | split | (intro _))

theorem State.updOp_canon {s : State} {id : Nat} {f : EngOp → EngOp} (hs : s.Canon) : (State.updOp s id f).Canon := by
  unfold State.updOp
  try dsimp only
  (repeat' first | with_reducible assumption | (with_reducible refine State.Canon.foldl ?_ ?_) | (fail_if_no_progress (with_reducible apply State.Canon.other)) | (fail_if_no_progress (with_reducible apply State.Canon.sluices)) | (fail_if_no_progress (with_reducible apply State.Canon.tables)) | split | (intro _))

theorem State.dropOp_canon {s : State} {id : Nat} (hs : s.Canon) : (State.dropOp s id).Canon := by
  unfold State.dropOp
  try dsimp only
  (repeat' first | with_reducible assumption | (with_reducible refine State.Canon.foldl ?_ ?_) | (fail_if_no_progress (with_reducible apply State.Canon.other)) | (fail_if_no_progress (with_reducible apply State.Canon.sluices)) | (fail_if_no_progress (with_reducible apply State.Canon.tables)) | split | (intro _))

theorem State.updLaunch_canon {s : State} {lid : Nat} {f : Launch → Launch} (hs : s.Canon) : (State.updLaunch s lid f).Canon := by
  unfold State.updLaunch
  try dsimp only
  (repeat' first | with_reducible assumption | (with_reducible refine State.Canon.foldl ?_ ?_) | (fail_if_no_progress (with_reducible apply State.Canon.other)) | (fail_if_no_progress (with_reducible apply State.Canon.sluices)) | (fail_if_no_progress (with_reducible apply State.Canon.tables)) | split | (intro _))

end Sys2Proof.Machine
end

