-- ==== Sys2Proof/Laws/CanonMemory.lean ====
section
/-!
SUPPORT. Every function of Machine/Memory.lean keeps the canonical form of the storages.
-/

namespace Sys2Proof.Machine

open Sys2Proof

set_option linter.unusedTactic false
set_option linter.unreachableTactic false
set_option linter.unusedSimpArgs false
set_option linter.unnecessarySeqFocus false

theorem State.putWord_canon {s : State} {dp : Nat} {v : W64} {t : BitVec 4} (hs : s.Canon) : (State.putWord s dp v t).Canon := by
  unfold State.putWord
  try dsimp only
  (repeat' first | with_reducible assumption | (with_reducible refine State.Canon.foldl ?_ ?_) | (with_reducible apply State.putTag_canon) | (with_reducible apply State.putBytes_canon) | (fail_if_no_progress (with_reducible apply State.Canon.other)) | (fail_if_no_progress (with_reducible apply State.Canon.sluices)) | (fail_if_no_progress (with_reducible apply State.Canon.tables)) | split | (intro _))

theorem State.countAccess_canon {s : State} {dp : Nat} (hs : s.Canon) : (State.countAccess s dp).Canon := by
  unfold State.countAccess
  try dsimp only
  (repeat' first | with_reducible assumption | (with_reducible refine State.Canon.foldl ?_ ?_) | (with_reducible apply State.post_canon) | (fail_if_no_progress (with_reducible apply State.Canon.other)) | (fail_if_no_progress (with_reducible apply State.Canon.sluices)) | (fail_if_no_progress (with_reducible apply State.Canon.tables)) | split | (intro _))
  all_goals (constructor <;> (try dsimp only) <;> (repeat' first | with_reducible assumption | (with_reducible apply spSet_wfBy) | (with_reducible apply spSet_wf) | (with_reducible apply spSetList_wf) | (with_reducible apply spFill_wf) | (with_reducible apply spWf_map_filter) | (with_reducible apply spWf_filter) | (with_reducible apply State.Canon.ctxs) | (with_reducible apply State.Canon.cores) | (with_reducible apply State.Canon.regs) | (with_reducible apply State.Canon.regEmpty) | (with_reducible apply State.Canon.ab) | (with_reducible apply State.Canon.abEmpty) | (with_reducible apply State.Canon.ps) | (with_reducible apply State.Canon.wb) | (with_reducible apply State.Canon.tiles) | (with_reducible apply State.Canon.bytes) | (with_reducible apply State.Canon.tags) | (with_reducible apply State.Canon.upsets) | (with_reducible apply State.Canon.copyUpsets) | (with_reducible apply State.Canon.fwins) | (with_reducible apply State.Canon.dpit) | (with_reducible apply State.Canon.counts) | (with_reducible apply State.Canon.moved) | (with_reducible apply State.Canon.slecc) | (with_reducible apply State.Canon.stkBank) | (with_reducible apply State.Canon.stkCounts) | (with_reducible apply State.Canon.seqs) | (with_reducible apply State.Canon.quota) | (with_reducible apply State.Canon.dies) | (with_reducible refine State.Canon.foldl ?_ ?_) | (with_reducible apply State.post_canon) | (fail_if_no_progress (with_reducible apply State.Canon.other)) | (fail_if_no_progress (with_reducible apply State.Canon.sluices)) | (fail_if_no_progress (with_reducible apply State.Canon.tables)) | split | (intro _)))

theorem State.releaseClean_canon {s : State} {dp : Nat} (hs : s.Canon) : (State.releaseClean s dp).Canon := by
  unfold State.releaseClean
  try dsimp only
  (repeat' first | with_reducible assumption | (with_reducible refine State.Canon.foldl ?_ ?_) | (with_reducible apply State.setMoved_canon) | (with_reducible apply State.setDpit_canon) | (fail_if_no_progress (with_reducible apply State.Canon.other)) | (fail_if_no_progress (with_reducible apply State.Canon.sluices)) | (fail_if_no_progress (with_reducible apply State.Canon.tables)) | split | (intro _))

theorem State.retireFrame_canon {s : State} {die : Nat} {far : Bool} {frame : Nat} (hs : s.Canon) : (State.retireFrame s die far frame).Canon := by
  unfold State.retireFrame
  try dsimp only
  (repeat' first | with_reducible assumption | (with_reducible refine State.Canon.foldl ?_ ?_) | (fail_if_no_progress (with_reducible apply State.Canon.other)) | (fail_if_no_progress (with_reducible apply State.Canon.sluices)) | (fail_if_no_progress (with_reducible apply State.Canon.tables)) | split | (intro _))
  all_goals (constructor <;> (try dsimp only) <;> (repeat' first | with_reducible assumption | (with_reducible apply spSet_wfBy) | (with_reducible apply spSet_wf) | (with_reducible apply spSetList_wf) | (with_reducible apply spFill_wf) | (with_reducible apply spWf_map_filter) | (with_reducible apply spWf_filter) | (with_reducible apply State.Canon.ctxs) | (with_reducible apply State.Canon.cores) | (with_reducible apply State.Canon.regs) | (with_reducible apply State.Canon.regEmpty) | (with_reducible apply State.Canon.ab) | (with_reducible apply State.Canon.abEmpty) | (with_reducible apply State.Canon.ps) | (with_reducible apply State.Canon.wb) | (with_reducible apply State.Canon.tiles) | (with_reducible apply State.Canon.bytes) | (with_reducible apply State.Canon.tags) | (with_reducible apply State.Canon.upsets) | (with_reducible apply State.Canon.copyUpsets) | (with_reducible apply State.Canon.fwins) | (with_reducible apply State.Canon.dpit) | (with_reducible apply State.Canon.counts) | (with_reducible apply State.Canon.moved) | (with_reducible apply State.Canon.slecc) | (with_reducible apply State.Canon.stkBank) | (with_reducible apply State.Canon.stkCounts) | (with_reducible apply State.Canon.seqs) | (with_reducible apply State.Canon.quota) | (with_reducible apply State.Canon.dies) | (with_reducible refine State.Canon.foldl ?_ ?_) | (fail_if_no_progress (with_reducible apply State.Canon.other)) | (fail_if_no_progress (with_reducible apply State.Canon.sluices)) | (fail_if_no_progress (with_reducible apply State.Canon.tables)) | split | (intro _)))

theorem State.takeCopyUpsets_canon {s : State} {page : Nat} (hs : s.Canon) : (s.takeCopyUpsets page).Canon :=
  { hs with upsets := spSetAll_wf (g := fun p => p.2) (spSetAll_wf (g := fun _ => 0) hs.upsets), copyUpsets := spSetAll_wf (g := fun _ => 0) hs.copyUpsets }


theorem State.switchToClean_canon {s : State} {dp : Nat} (hs : s.Canon) : (State.switchToClean s dp).Canon := by
  unfold State.switchToClean
  try dsimp only
  (repeat' first | with_reducible assumption | (with_reducible refine State.Canon.foldl ?_ ?_) | (with_reducible apply State.takeCopyUpsets_canon) | (with_reducible apply State.retireFrame_canon) | (with_reducible apply State.setDpit_canon) | (fail_if_no_progress (with_reducible apply State.Canon.other)) | (fail_if_no_progress (with_reducible apply State.Canon.sluices)) | (fail_if_no_progress (with_reducible apply State.Canon.tables)) | split | (intro _))

theorem State.mendWord_canon {s : State} {dp : Nat} (hs : s.Canon) : (State.mendWord s dp).Canon := by
  unfold State.mendWord
  try dsimp only
  (repeat' first | with_reducible assumption | (with_reducible refine State.Canon.foldl ?_ ?_) | (fail_if_no_progress (with_reducible apply State.Canon.other)) | (fail_if_no_progress (with_reducible apply State.Canon.sluices)) | (fail_if_no_progress (with_reducible apply State.Canon.tables)) | split | (intro _))
  all_goals (constructor <;> (try dsimp only) <;> (repeat' first | with_reducible assumption | (with_reducible apply spSet_wfBy) | (with_reducible apply spSet_wf) | (with_reducible apply spSetList_wf) | (with_reducible apply spFill_wf) | (with_reducible apply spWf_map_filter) | (with_reducible apply spWf_filter) | (with_reducible apply State.Canon.ctxs) | (with_reducible apply State.Canon.cores) | (with_reducible apply State.Canon.regs) | (with_reducible apply State.Canon.regEmpty) | (with_reducible apply State.Canon.ab) | (with_reducible apply State.Canon.abEmpty) | (with_reducible apply State.Canon.ps) | (with_reducible apply State.Canon.wb) | (with_reducible apply State.Canon.tiles) | (with_reducible apply State.Canon.bytes) | (with_reducible apply State.Canon.tags) | (with_reducible apply State.Canon.upsets) | (with_reducible apply State.Canon.copyUpsets) | (with_reducible apply State.Canon.fwins) | (with_reducible apply State.Canon.dpit) | (with_reducible apply State.Canon.counts) | (with_reducible apply State.Canon.moved) | (with_reducible apply State.Canon.slecc) | (with_reducible apply State.Canon.stkBank) | (with_reducible apply State.Canon.stkCounts) | (with_reducible apply State.Canon.seqs) | (with_reducible apply State.Canon.quota) | (with_reducible apply State.Canon.dies) | (with_reducible refine State.Canon.foldl ?_ ?_) | (fail_if_no_progress (with_reducible apply State.Canon.other)) | (fail_if_no_progress (with_reducible apply State.Canon.sluices)) | (fail_if_no_progress (with_reducible apply State.Canon.tables)) | split | (intro _)))

theorem State.reportFrame_canon {s : State} {dp : Nat} (hs : s.Canon) : (State.reportFrame s dp).Canon := by
  unfold State.reportFrame
  try dsimp only
  (repeat' first | with_reducible assumption | (with_reducible refine State.Canon.foldl ?_ ?_) | (with_reducible apply State.post_canon) | (fail_if_no_progress (with_reducible apply State.Canon.other)) | (fail_if_no_progress (with_reducible apply State.Canon.sluices)) | (fail_if_no_progress (with_reducible apply State.Canon.tables)) | split | (intro _))

theorem State.readStructure_canon {s : State} {dp : Nat} (hs : s.Canon) : (State.readStructure s dp).Canon := by
  unfold State.readStructure
  try dsimp only
  (repeat' first | with_reducible assumption | (with_reducible refine State.Canon.foldl ?_ ?_) | (with_reducible apply State.reportFrame_canon) | (with_reducible apply State.clearUpset_canon) | (with_reducible apply State.mendWord_canon) | (with_reducible apply State.countEcc_canon) | (with_reducible apply State.post_canon) | (fail_if_no_progress (with_reducible apply State.Canon.other)) | (fail_if_no_progress (with_reducible apply State.Canon.sluices)) | (fail_if_no_progress (with_reducible apply State.Canon.tables)) | split | (intro _))

theorem State.decodeWord_canon {s : State} {dp : Nat} (hs : s.Canon) : (State.decodeWord s dp).Canon := by
  unfold State.decodeWord
  try dsimp only
  (repeat' first | with_reducible assumption | (with_reducible refine State.Canon.foldl ?_ ?_) | (with_reducible apply State.readStructure_canon) | (with_reducible apply State.reportFrame_canon) | (with_reducible apply State.clearUpset_canon) | (with_reducible apply State.mendWord_canon) | (with_reducible apply State.countEcc_canon) | (with_reducible apply State.switchToClean_canon) | (with_reducible apply State.putWord_canon) | (fail_if_no_progress (with_reducible apply State.Canon.other)) | (fail_if_no_progress (with_reducible apply State.Canon.sluices)) | (fail_if_no_progress (with_reducible apply State.Canon.tables)) | split | (intro _))

theorem State.open_canon {s : State} {dp : Nat} (hs : s.Canon) : (State.open s dp).Canon := by
  unfold State.open
  try dsimp only
  (repeat' first | with_reducible assumption | (with_reducible refine State.Canon.foldl ?_ ?_) | (with_reducible apply State.decodeWord_canon) | (with_reducible apply State.readStructure_canon) | (with_reducible apply State.countAccess_canon) | (fail_if_no_progress (with_reducible apply State.Canon.other)) | (fail_if_no_progress (with_reducible apply State.Canon.sluices)) | (fail_if_no_progress (with_reducible apply State.Canon.tables)) | split | (intro _))

theorem State.commit_canon {s : State} {dp : Nat} {v : W64} {t : BitVec 4} (hs : s.Canon) : (State.commit s dp v t).Canon := by
  unfold State.commit
  try dsimp only
  (repeat' first | with_reducible assumption | (with_reducible refine State.Canon.foldl ?_ ?_) | (with_reducible apply State.clearUpset_canon) | (with_reducible apply State.releaseClean_canon) | (with_reducible apply State.putWord_canon) | (fail_if_no_progress (with_reducible apply State.Canon.other)) | (fail_if_no_progress (with_reducible apply State.Canon.sluices)) | (fail_if_no_progress (with_reducible apply State.Canon.tables)) | split | (intro _))

theorem State.engineCommit_canon {s : State} {w : Nat} {v : W64} {k : Nat} {poison : Bool} (hs : s.Canon) : (State.engineCommit s w v k poison).Canon := by
  unfold State.engineCommit
  try dsimp only
  (repeat' first | with_reducible assumption | (with_reducible refine State.Canon.foldl ?_ ?_) | (with_reducible apply State.commit_canon) | (fail_if_no_progress (with_reducible apply State.Canon.other)) | (fail_if_no_progress (with_reducible apply State.Canon.sluices)) | (fail_if_no_progress (with_reducible apply State.Canon.tables)) | split | (intro _))

theorem State.entryAt_canon {s : State} {a : Nat} {ret : _} {out : State} (e : State.entryAt s a = (out, ret)) (hs : s.Canon) : out.Canon := by
  unfold State.entryAt at e
  try dsimp only at e
  (repeat' split at e) <;> (try simp only [Except.ok.injEq, Option.some.injEq, Prod.mk.injEq, reduceCtorEq] at e) <;> (first | (obtain ⟨e1, e2⟩ := e; subst e1 e2) | (subst e) | skip) <;> (repeat' first | with_reducible assumption | (with_reducible refine State.Canon.foldl ?_ ?_) | (with_reducible apply State.open_canon) | (fail_if_no_progress (with_reducible apply State.Canon.other)) | (fail_if_no_progress (with_reducible apply State.Canon.sluices)) | (fail_if_no_progress (with_reducible apply State.Canon.tables)) | split | (intro _))

theorem State.walk3_canon {s : State} {table : Nat} {va : Nat} {ret : _} {out : State} (e : State.walk3 s table va = (out, ret)) (hs : s.Canon) : out.Canon := by
  unfold State.walk3 at e
  try dsimp only at e
  (repeat' split at e) <;> (try simp only [Except.ok.injEq, Option.some.injEq, Prod.mk.injEq, reduceCtorEq] at e) <;> (first | (obtain ⟨e1, e2⟩ := e; subst e1 e2) | (subst e) | skip) <;> (repeat' first | with_reducible assumption | (with_reducible refine State.Canon.foldl ?_ ?_) | (refine State.entryAt_canon (by assumption) ?_) | (with_reducible refine State.entryAt_canon (Prod.eta _).symm ?_) | (fail_if_no_progress (with_reducible apply State.Canon.other)) | (fail_if_no_progress (with_reducible apply State.Canon.sluices)) | (fail_if_no_progress (with_reducible apply State.Canon.tables)) | split | (intro _))

theorem State.walk2_canon {s : State} {table va : Nat} {ret : _} {out : State} (e : s.walk2 table va = (out, ret)) (hs : s.Canon) : out.Canon := by
  unfold State.walk2 at e
  generalize h : s.entryAt _ = r at e
  obtain ⟨s1, w⟩ := r
  have h1 := State.entryAt_canon h hs
  dsimp only at e
  split at e
  · cases e; exact h1
  · split at e
    · exact State.walk3_canon e h1
    · cases e; exact h1
    · cases e; exact h1


theorem State.walk_canon {s : State} {tenant : Nat} {va : Nat} {ret : _} {out : State} (e : State.walk s tenant va = (out, ret)) (hs : s.Canon) : out.Canon := by
  unfold State.walk at e
  try dsimp only at e
  (repeat' split at e) <;> (try simp only [Except.ok.injEq, Option.some.injEq, Prod.mk.injEq, reduceCtorEq] at e) <;> (first | (obtain ⟨e1, e2⟩ := e; subst e1 e2) | (subst e) | skip) <;> (repeat' first | with_reducible assumption | (with_reducible refine State.Canon.foldl ?_ ?_) | (refine State.walk2_canon (by assumption) ?_) | (with_reducible refine State.walk2_canon (Prod.eta _).symm ?_) | (refine State.entryAt_canon (by assumption) ?_) | (with_reducible refine State.entryAt_canon (Prod.eta _).symm ?_) | (fail_if_no_progress (with_reducible apply State.Canon.other)) | (fail_if_no_progress (with_reducible apply State.Canon.sluices)) | (fail_if_no_progress (with_reducible apply State.Canon.tables)) | split | (intro _))

theorem State.tlbHit_canon {s : State} {sl : Nat} {tenant : Nat} {vpn : Nat} {ret : _} {out : State} (e : State.tlbHit s sl tenant vpn = some (ret, out)) (hs : s.Canon) : out.Canon := by
  unfold State.tlbHit at e
  try dsimp only at e
  (repeat' split at e) <;> (try simp only [Except.ok.injEq, Option.some.injEq, Prod.mk.injEq, reduceCtorEq] at e) <;> (first | (obtain ⟨e1, e2⟩ := e; subst e1 e2) | (subst e) | skip) <;> (repeat' first | with_reducible assumption | (with_reducible refine State.Canon.foldl ?_ ?_) | (fail_if_no_progress (with_reducible apply State.Canon.other)) | (fail_if_no_progress (with_reducible apply State.Canon.sluices)) | (fail_if_no_progress (with_reducible apply State.Canon.tables)) | split | (intro _))

theorem State.tlbFill_canon {s : State} {e : TlbEntry} (hs : s.Canon) : (State.tlbFill s e).Canon := by
  unfold State.tlbFill
  try dsimp only
  (repeat' first | with_reducible assumption | (with_reducible refine State.Canon.foldl ?_ ?_) | (fail_if_no_progress (with_reducible apply State.Canon.other)) | (fail_if_no_progress (with_reducible apply State.Canon.sluices)) | (fail_if_no_progress (with_reducible apply State.Canon.tables)) | split | (intro _))

theorem State.lookup_canon {s : State} {sl : Nat} {tenant : Nat} {a : W64} {ret : _} {out : State} (e : State.lookup s sl tenant a = (ret, out)) (hs : s.Canon) : out.Canon := by
  unfold State.lookup at e
  try dsimp only at e
  (repeat' split at e) <;> (try simp only [Except.ok.injEq, Option.some.injEq, Prod.mk.injEq, reduceCtorEq] at e) <;> (first | (obtain ⟨e1, e2⟩ := e; subst e1 e2) | (subst e) | skip) <;> (repeat' first | with_reducible assumption | (with_reducible refine State.Canon.foldl ?_ ?_) | (with_reducible apply State.tlbFill_canon) | (refine State.tlbHit_canon (by assumption) ?_) | (with_reducible refine State.tlbHit_canon (guarded_some (by with_reducible assumption)) ?_) | (refine State.walk_canon (by assumption) ?_) | (with_reducible refine State.walk_canon (Prod.eta _).symm ?_) | (fail_if_no_progress (with_reducible apply State.Canon.other)) | (fail_if_no_progress (with_reducible apply State.Canon.sluices)) | (fail_if_no_progress (with_reducible apply State.Canon.tables)) | split | (intro _))

theorem State.xlat_canon {s : State} {die : Nat} {tenant : Nat} {a : W64} {write : Bool} {ret : _} {out : State} (e : State.xlat s die tenant a write = (out, ret)) (hs : s.Canon) : out.Canon := by
  unfold State.xlat at e
  try dsimp only at e
  (repeat' split at e) <;> (try simp only [Except.ok.injEq, Option.some.injEq, Prod.mk.injEq, reduceCtorEq] at e) <;> (first | (obtain ⟨e1, e2⟩ := e; subst e1 e2) | (subst e) | skip) <;> (repeat' first | with_reducible assumption | (with_reducible refine State.Canon.foldl ?_ ?_) | (refine State.lookup_canon (by assumption) ?_) | (with_reducible refine State.lookup_canon (Prod.eta _).symm ?_) | (fail_if_no_progress (with_reducible apply State.Canon.other)) | (fail_if_no_progress (with_reducible apply State.Canon.sluices)) | (fail_if_no_progress (with_reducible apply State.Canon.tables)) | split | (intro _))

theorem State.look_canon {s : State} {die : Nat} {tenant : Nat} {a : W64} {ret : _} {out : State} (e : State.look s die tenant a = (out, ret)) (hs : s.Canon) : out.Canon := by
  unfold State.look at e
  try dsimp only at e
  (repeat' split at e) <;> (try simp only [Except.ok.injEq, Option.some.injEq, Prod.mk.injEq, reduceCtorEq] at e) <;> (first | (obtain ⟨e1, e2⟩ := e; subst e1 e2) | (subst e) | skip) <;> (repeat' first | with_reducible assumption | (with_reducible refine State.Canon.foldl ?_ ?_) | (with_reducible apply State.open_canon) | (refine State.xlat_canon (by assumption) ?_) | (with_reducible refine State.xlat_canon (Prod.eta _).symm ?_) | (fail_if_no_progress (with_reducible apply State.Canon.other)) | (fail_if_no_progress (with_reducible apply State.Canon.sluices)) | (fail_if_no_progress (with_reducible apply State.Canon.tables)) | split | (intro _))

end Sys2Proof.Machine
end

