-- ==== Sys2Proof/Laws/CanonLife.lean ====
section
/-!
SUPPORT. Every function of Machine/Life.lean keeps the canonical form of the storages.
-/

namespace Sys2Proof.Machine

open Sys2Proof

set_option linter.unusedTactic false
set_option linter.unreachableTactic false
set_option linter.unusedSimpArgs false
set_option linter.unnecessarySeqFocus false

theorem State.startOne_canon {s : State} {gid : Nat} {base : Nat} {n : Nat} {pc : W64} {seeds : List W64} {work : Work} {id : Ident} (hs : s.Canon) : (State.startOne s gid base n pc seeds work id).Canon := by
  unfold State.startOne
  try dsimp only
  (repeat' first | with_reducible assumption | (with_reducible refine State.Canon.foldl ?_ ?_) | (with_reducible apply State.setCtx_canon) | (refine State.newGen_canon (by assumption) ?_) | (with_reducible refine State.newGen_canon (Prod.eta _).symm ?_) | (fail_if_no_progress (with_reducible apply State.Canon.other)) | (fail_if_no_progress (with_reducible apply State.Canon.sluices)) | (fail_if_no_progress (with_reducible apply State.Canon.tables)) | split | (intro _))
  all_goals (constructor <;> (try dsimp only) <;> (repeat' first | with_reducible assumption | (with_reducible apply spSet_wfBy) | (with_reducible apply spSet_wf) | (with_reducible apply spSetList_wf) | (with_reducible apply spFill_wf) | (with_reducible apply spWf_map_filter) | (with_reducible apply spWf_filter) | (with_reducible apply State.Canon.ctxs) | (with_reducible apply State.Canon.cores) | (with_reducible apply State.Canon.regs) | (with_reducible apply State.Canon.regEmpty) | (with_reducible apply State.Canon.ab) | (with_reducible apply State.Canon.abEmpty) | (with_reducible apply State.Canon.ps) | (with_reducible apply State.Canon.wb) | (with_reducible apply State.Canon.tiles) | (with_reducible apply State.Canon.bytes) | (with_reducible apply State.Canon.tags) | (with_reducible apply State.Canon.upsets) | (with_reducible apply State.Canon.copyUpsets) | (with_reducible apply State.Canon.fwins) | (with_reducible apply State.Canon.dpit) | (with_reducible apply State.Canon.counts) | (with_reducible apply State.Canon.moved) | (with_reducible apply State.Canon.slecc) | (with_reducible apply State.Canon.stkBank) | (with_reducible apply State.Canon.stkCounts) | (with_reducible apply State.Canon.seqs) | (with_reducible apply State.Canon.quota) | (with_reducible apply State.Canon.dies) | (with_reducible refine State.Canon.foldl ?_ ?_) | (with_reducible apply State.setCtx_canon) | (refine State.newGen_canon (by assumption) ?_) | (with_reducible refine State.newGen_canon (Prod.eta _).symm ?_) | (fail_if_no_progress (with_reducible apply State.Canon.other)) | (fail_if_no_progress (with_reducible apply State.Canon.sluices)) | (fail_if_no_progress (with_reducible apply State.Canon.tables)) | split | (intro _)))

theorem State.startCtx_canon {s : State} {gid : Nat} {base : Nat} {n : Nat} {pc : W64} {seeds : List W64} {work : Work} {id : Ident} (hs : s.Canon) : (State.startCtx s gid base n pc seeds work id).Canon := by
  unfold State.startCtx
  try dsimp only
  (repeat' first | with_reducible assumption | (with_reducible refine State.Canon.foldl ?_ ?_) | (with_reducible apply State.id_canon) | (with_reducible apply State.startOne_canon) | (fail_if_no_progress (with_reducible apply State.Canon.other)) | (fail_if_no_progress (with_reducible apply State.Canon.sluices)) | (fail_if_no_progress (with_reducible apply State.Canon.tables)) | split | (intro _))

theorem State.event_canon {s : State} {tenant : Nat} {kind : Nat} {ctr : W64} {statusw : W64} {detail : List W64} (hs : s.Canon) : (State.event s tenant kind ctr statusw detail).Canon := by
  unfold State.event
  try dsimp only
  (repeat' first | with_reducible assumption | (with_reducible refine State.Canon.foldl ?_ ?_) | (with_reducible apply State.updTenant_canon) | (with_reducible apply State.post_canon) | (fail_if_no_progress (with_reducible apply State.Canon.other)) | (fail_if_no_progress (with_reducible apply State.Canon.sluices)) | (fail_if_no_progress (with_reducible apply State.Canon.tables)) | split | (intro _))

theorem State.firewallDrop_canon {s : State} (hs : s.Canon) : (State.firewallDrop s).Canon := by
  unfold State.firewallDrop
  try dsimp only
  (repeat' first | with_reducible assumption | (with_reducible refine State.Canon.foldl ?_ ?_) | (with_reducible apply State.event_canon) | (fail_if_no_progress (with_reducible apply State.Canon.other)) | (fail_if_no_progress (with_reducible apply State.Canon.sluices)) | (fail_if_no_progress (with_reducible apply State.Canon.tables)) | split | (intro _))

theorem State.cross_canon {s : State} {into : Bool} {cls : Nat} {dp : Nat} {f : State → State} (hs : s.Canon) (hf : ∀ a0, a0.Canon → (f a0).Canon) : (State.cross s into cls dp f).Canon := by
  unfold State.cross
  try dsimp only
  (repeat' first | with_reducible assumption | (with_reducible refine State.Canon.foldl ?_ ?_) | (with_reducible apply hf) | (with_reducible apply State.firewallDrop_canon) | (fail_if_no_progress (with_reducible apply State.Canon.other)) | (fail_if_no_progress (with_reducible apply State.Canon.sluices)) | (fail_if_no_progress (with_reducible apply State.Canon.tables)) | split | (intro _))

theorem State.fwStore_canon {s : State} {dp : Nat} {f : State → State} (hs : s.Canon) (hf : ∀ a0, a0.Canon → (f a0).Canon) : (State.fwStore s dp f).Canon := by
  unfold State.fwStore
  try dsimp only
  (repeat' first | with_reducible assumption | (with_reducible refine State.Canon.foldl ?_ ?_) | (with_reducible apply State.id_canon) | (with_reducible apply hf) | (with_reducible apply State.cross_canon) | (fail_if_no_progress (with_reducible apply State.Canon.other)) | (fail_if_no_progress (with_reducible apply State.Canon.sluices)) | (fail_if_no_progress (with_reducible apply State.Canon.tables)) | split | (intro _))

theorem State.fwPost_canon {s : State} {r : Request} (hs : s.Canon) : (State.fwPost s r).Canon := by
  unfold State.fwPost
  try dsimp only
  (repeat' first | with_reducible assumption | (with_reducible refine State.Canon.foldl ?_ ?_) | (with_reducible apply State.firewallDrop_canon) | (with_reducible apply State.post_canon) | (fail_if_no_progress (with_reducible apply State.Canon.other)) | (fail_if_no_progress (with_reducible apply State.Canon.sluices)) | (fail_if_no_progress (with_reducible apply State.Canon.tables)) | split | (intro _))

theorem State.fwOpen_canon {s : State} {dp : Nat} {ret : _} {out : State} (e : State.fwOpen s dp = (out, ret)) (hs : s.Canon) : out.Canon := by
  unfold State.fwOpen at e
  try dsimp only at e
  (repeat' split at e) <;> (try simp only [Except.ok.injEq, Option.some.injEq, Prod.mk.injEq, reduceCtorEq] at e) <;> (first | (obtain ⟨e1, e2⟩ := e; subst e1 e2) | (subst e) | skip) <;> (repeat' first | with_reducible assumption | (with_reducible refine State.Canon.foldl ?_ ?_) | (with_reducible apply State.firewallDrop_canon) | (with_reducible apply State.open_canon) | (fail_if_no_progress (with_reducible apply State.Canon.other)) | (fail_if_no_progress (with_reducible apply State.Canon.sluices)) | (fail_if_no_progress (with_reducible apply State.Canon.tables)) | split | (intro _))

theorem State.fwLook_canon {s : State} {tenant : Nat} {a : W64} {ret : _} {out : State} (e : State.fwLook s tenant a = (out, ret)) (hs : s.Canon) : out.Canon := by
  unfold State.fwLook at e
  try dsimp only at e
  (repeat' split at e) <;> (try simp only [Except.ok.injEq, Option.some.injEq, Prod.mk.injEq, reduceCtorEq] at e) <;> (first | (obtain ⟨e1, e2⟩ := e; subst e1 e2) | (subst e) | skip) <;> (repeat' first | with_reducible assumption | (with_reducible refine State.Canon.foldl ?_ ?_) | (refine State.fwOpen_canon (by assumption) ?_) | (with_reducible refine State.fwOpen_canon (Prod.eta _).symm ?_) | (refine State.xlat_canon (by assumption) ?_) | (with_reducible refine State.xlat_canon (Prod.eta _).symm ?_) | (fail_if_no_progress (with_reducible apply State.Canon.other)) | (fail_if_no_progress (with_reducible apply State.Canon.sluices)) | (fail_if_no_progress (with_reducible apply State.Canon.tables)) | split | (intro _))

theorem State.fwRead_canon {s : State} {tenant : Nat} {a : W64} {ret : _} {out : State} (e : State.fwRead s tenant a = (out, ret)) (hs : s.Canon) : out.Canon := by
  unfold State.fwRead at e
  try dsimp only at e
  (repeat' split at e) <;> (try simp only [Except.ok.injEq, Option.some.injEq, Prod.mk.injEq, reduceCtorEq] at e) <;> (first | (obtain ⟨e1, e2⟩ := e; subst e1 e2) | (subst e) | skip) <;> (repeat' first | with_reducible assumption | (with_reducible refine State.Canon.foldl ?_ ?_) | (refine State.fwLook_canon (by assumption) ?_) | (with_reducible refine State.fwLook_canon (Prod.eta _).symm ?_) | (fail_if_no_progress (with_reducible apply State.Canon.other)) | (fail_if_no_progress (with_reducible apply State.Canon.sluices)) | (fail_if_no_progress (with_reducible apply State.Canon.tables)) | split | (intro _))

theorem State.fwWords_canon {s : State} {tenant : Nat} {a : W64} {x0 : Nat} {ret : _} {out : State} (e : State.fwWords s tenant a x0 = (out, ret)) (hs : s.Canon) : out.Canon := by
  induction x0 generalizing s tenant a ret out with
  | zero => rw [State.fwWords] at e <;> (try dsimp only at e) <;> (repeat' split at e) <;> (try simp only [Except.ok.injEq, Option.some.injEq, Prod.mk.injEq, reduceCtorEq] at e) <;> (first | (obtain ⟨e1, e2⟩ := e; subst e1 e2) | (subst e) | skip) <;> (repeat' first | with_reducible assumption | (with_reducible refine State.Canon.foldl ?_ ?_) | (refine State.fwRead_canon (by assumption) ?_) | (with_reducible refine State.fwRead_canon (Prod.eta _).symm ?_) | (fail_if_no_progress (with_reducible apply State.Canon.other)) | (fail_if_no_progress (with_reducible apply State.Canon.sluices)) | (fail_if_no_progress (with_reducible apply State.Canon.tables)) | split | (intro _) | (refine State.fwRead_canon (by assumption) ?_) | (with_reducible refine State.fwRead_canon (Prod.eta _).symm ?_) | split | (intro _))
  | succ _ ih => rw [State.fwWords] at e <;> (try dsimp only at e) <;> (repeat' split at e) <;> (try simp only [Except.ok.injEq, Option.some.injEq, Prod.mk.injEq, reduceCtorEq] at e) <;> (first | (obtain ⟨e1, e2⟩ := e; subst e1 e2) | (subst e) | skip) <;> (repeat' first | with_reducible assumption | (with_reducible refine State.Canon.foldl ?_ ?_) | (refine State.fwRead_canon (by assumption) ?_) | (with_reducible refine State.fwRead_canon (Prod.eta _).symm ?_) | (fail_if_no_progress (with_reducible apply State.Canon.other)) | (fail_if_no_progress (with_reducible apply State.Canon.sluices)) | (fail_if_no_progress (with_reducible apply State.Canon.tables)) | split | (intro _) | (refine ih (by assumption) ?_) | (refine ih (Prod.eta _).symm ?_) | (refine State.fwRead_canon (by assumption) ?_) | (with_reducible refine State.fwRead_canon (Prod.eta _).symm ?_) | split | (intro _))

theorem State.agentPost_canon {s : State} {unit : Option Nat} {r : Request} (hs : s.Canon) : (State.agentPost s unit r).Canon := by
  unfold State.agentPost
  try dsimp only
  (repeat' first | with_reducible assumption | (with_reducible refine State.Canon.foldl ?_ ?_) | (with_reducible apply State.fwPost_canon) | (with_reducible apply State.post_canon) | (fail_if_no_progress (with_reducible apply State.Canon.other)) | (fail_if_no_progress (with_reducible apply State.Canon.sluices)) | (fail_if_no_progress (with_reducible apply State.Canon.tables)) | split | (intro _))

theorem State.advanceBy_canon {s : State} {unit : Option Nat} {tenant : Nat} {ctr : W64} {status : W64} (hs : s.Canon) : (State.advanceBy s unit tenant ctr status).Canon := by
  unfold State.advanceBy
  try dsimp only
  (repeat' first | with_reducible assumption | (with_reducible refine State.Canon.foldl ?_ ?_) | (with_reducible apply State.agentPost_canon) | (with_reducible apply State.post_canon) | (refine State.newTag_canon (by assumption) ?_) | (with_reducible refine State.newTag_canon (Prod.eta _).symm ?_) | (fail_if_no_progress (with_reducible apply State.Canon.other)) | (fail_if_no_progress (with_reducible apply State.Canon.sluices)) | (fail_if_no_progress (with_reducible apply State.Canon.tables)) | split | (intro _))

theorem State.advanceCounter_canon {s : State} {tenant : Nat} {ctr : W64} {status : W64} (hs : s.Canon) : (State.advanceCounter s tenant ctr status).Canon := by
  unfold State.advanceCounter
  try dsimp only
  (repeat' first | with_reducible assumption | (with_reducible refine State.Canon.foldl ?_ ?_) | (with_reducible apply State.advanceBy_canon) | (fail_if_no_progress (with_reducible apply State.Canon.other)) | (fail_if_no_progress (with_reducible apply State.Canon.sluices)) | (fail_if_no_progress (with_reducible apply State.Canon.tables)) | split | (intro _))

theorem State.advanceRetire_canon {s : State} {die : Nat} {tenant : Nat} {ctr : W64} (hs : s.Canon) : (State.advanceRetire s die tenant ctr).Canon := by
  unfold State.advanceRetire
  try dsimp only
  (repeat' first | with_reducible assumption | (with_reducible refine State.Canon.foldl ?_ ?_) | (with_reducible apply State.agentPost_canon) | (with_reducible apply State.post_canon) | (refine State.newTag_canon (by assumption) ?_) | (with_reducible refine State.newTag_canon (Prod.eta _).symm ?_) | (fail_if_no_progress (with_reducible apply State.Canon.other)) | (fail_if_no_progress (with_reducible apply State.Canon.sluices)) | (fail_if_no_progress (with_reducible apply State.Canon.tables)) | split | (intro _))

theorem State.fwWaitFor_canon {s : State} {tenant : Nat} {ctr : W64} {w : FwWait} (hs : s.Canon) : (State.fwWaitFor s tenant ctr w).Canon := by
  unfold State.fwWaitFor
  try dsimp only
  (repeat' first | with_reducible assumption | (with_reducible refine State.Canon.foldl ?_ ?_) | (with_reducible apply State.fwPost_canon) | (fail_if_no_progress (with_reducible apply State.Canon.other)) | (fail_if_no_progress (with_reducible apply State.Canon.sluices)) | (fail_if_no_progress (with_reducible apply State.Canon.tables)) | split | (intro _))

theorem State.unpark_canon {s : State} {p : Parked} (hs : s.Canon) : (State.unpark s p).Canon := by
  unfold State.unpark
  try dsimp only
  (repeat' first | with_reducible assumption | (with_reducible refine State.Canon.foldl ?_ ?_) | (with_reducible apply State.post_canon) | (fail_if_no_progress (with_reducible apply State.Canon.other)) | (fail_if_no_progress (with_reducible apply State.Canon.sluices)) | (fail_if_no_progress (with_reducible apply State.Canon.tables)) | split | (intro _))

theorem State.withdraw_canon {s : State} {p : Parked} (hs : s.Canon) : (State.withdraw s p).Canon := by
  unfold State.withdraw
  try dsimp only
  (repeat' first | with_reducible assumption | (with_reducible refine State.Canon.foldl ?_ ?_) | (with_reducible apply State.unpark_canon) | (with_reducible apply State.commit_canon) | (fail_if_no_progress (with_reducible apply State.Canon.other)) | (fail_if_no_progress (with_reducible apply State.Canon.sluices)) | (fail_if_no_progress (with_reducible apply State.Canon.tables)) | split | (intro _))

theorem State.withdrawAll_canon {s : State} {f : Parked → Bool} (hs : s.Canon) : (State.withdrawAll s f).Canon := by
  unfold State.withdrawAll
  try dsimp only
  (repeat' first | with_reducible assumption | (with_reducible refine State.Canon.foldl ?_ ?_) | (with_reducible apply State.withdraw_canon) | (fail_if_no_progress (with_reducible apply State.Canon.other)) | (fail_if_no_progress (with_reducible apply State.Canon.sluices)) | (fail_if_no_progress (with_reducible apply State.Canon.tables)) | split | (intro _))

theorem State.withdrawAway_canon {s : State} {f : Request → Bool} (hs : s.Canon) : (State.withdrawAway s f).Canon := by
  unfold State.withdrawAway
  try dsimp only
  (repeat' first | with_reducible assumption | (with_reducible refine State.Canon.foldl ?_ ?_) | (with_reducible apply State.emit_canon) | (fail_if_no_progress (with_reducible apply State.Canon.other)) | (fail_if_no_progress (with_reducible apply State.Canon.sluices)) | (fail_if_no_progress (with_reducible apply State.Canon.tables)) | split | (intro _))

theorem State.settle_canon {s : State} (hs : s.Canon) : (State.settle s).Canon := by
  unfold State.settle
  try dsimp only
  (repeat' first | with_reducible assumption | (with_reducible refine State.Canon.foldl ?_ ?_) | (with_reducible apply State.unpark_canon) | (with_reducible apply State.advanceCounter_canon) | (with_reducible apply State.fwStore_canon) | (with_reducible apply State.setMoved_canon) | (with_reducible apply State.setDpit_canon) | (fail_if_no_progress (with_reducible apply State.Canon.other)) | (fail_if_no_progress (with_reducible apply State.Canon.sluices)) | (fail_if_no_progress (with_reducible apply State.Canon.tables)) | split | (intro _))
  all_goals (constructor <;> (try dsimp only) <;> (repeat' first | with_reducible assumption | (with_reducible apply spSet_wfBy) | (with_reducible apply spSet_wf) | (with_reducible apply spSetList_wf) | (with_reducible apply spFill_wf) | (with_reducible apply spWf_map_filter) | (with_reducible apply spWf_filter) | (with_reducible apply State.Canon.ctxs) | (with_reducible apply State.Canon.cores) | (with_reducible apply State.Canon.regs) | (with_reducible apply State.Canon.regEmpty) | (with_reducible apply State.Canon.ab) | (with_reducible apply State.Canon.abEmpty) | (with_reducible apply State.Canon.ps) | (with_reducible apply State.Canon.wb) | (with_reducible apply State.Canon.tiles) | (with_reducible apply State.Canon.bytes) | (with_reducible apply State.Canon.tags) | (with_reducible apply State.Canon.upsets) | (with_reducible apply State.Canon.copyUpsets) | (with_reducible apply State.Canon.fwins) | (with_reducible apply State.Canon.dpit) | (with_reducible apply State.Canon.counts) | (with_reducible apply State.Canon.moved) | (with_reducible apply State.Canon.slecc) | (with_reducible apply State.Canon.stkBank) | (with_reducible apply State.Canon.stkCounts) | (with_reducible apply State.Canon.seqs) | (with_reducible apply State.Canon.quota) | (with_reducible apply State.Canon.dies) | (with_reducible refine State.Canon.foldl ?_ ?_) | (with_reducible apply State.unpark_canon) | (with_reducible apply State.advanceCounter_canon) | (with_reducible apply State.fwStore_canon) | (with_reducible apply State.setMoved_canon) | (with_reducible apply State.setDpit_canon) | (fail_if_no_progress (with_reducible apply State.Canon.other)) | (fail_if_no_progress (with_reducible apply State.Canon.sluices)) | (fail_if_no_progress (with_reducible apply State.Canon.tables)) | split | (intro _)))

theorem State.withdrawOf_canon {s : State} {gens : List Nat} (hs : s.Canon) : (State.withdrawOf s gens).Canon := by
  unfold State.withdrawOf
  try dsimp only
  (repeat' first | with_reducible assumption | (with_reducible refine State.Canon.foldl ?_ ?_) | (with_reducible apply State.withdrawAway_canon) | (with_reducible apply State.withdrawAll_canon) | (fail_if_no_progress (with_reducible apply State.Canon.other)) | (fail_if_no_progress (with_reducible apply State.Canon.sluices)) | (fail_if_no_progress (with_reducible apply State.Canon.tables)) | split | (intro _))

theorem State.idleReport_canon {s : State} {tenant : Nat} (hs : s.Canon) : (State.idleReport s tenant).Canon := by
  unfold State.idleReport
  try dsimp only
  (repeat' first | with_reducible assumption | (with_reducible refine State.Canon.foldl ?_ ?_) | (with_reducible apply State.cross_canon) | (with_reducible apply State.updTenant_canon) | (with_reducible apply State.post_canon) | (with_reducible apply State.postIn_canon) | (fail_if_no_progress (with_reducible apply State.Canon.other)) | (fail_if_no_progress (with_reducible apply State.Canon.sluices)) | (fail_if_no_progress (with_reducible apply State.Canon.tables)) | split | (intro _))

theorem State.checkLaunch_canon {s : State} {unit : Option Nat} {lid : Nat} (hs : s.Canon) : (State.checkLaunch s unit lid).Canon := by
  unfold State.checkLaunch
  try dsimp only
  (repeat' first | with_reducible assumption | (with_reducible refine State.Canon.foldl ?_ ?_) | (with_reducible apply State.advanceBy_canon) | (with_reducible apply State.updLaunch_canon) | (with_reducible apply State.post_canon) | (fail_if_no_progress (with_reducible apply State.Canon.other)) | (fail_if_no_progress (with_reducible apply State.Canon.sluices)) | (fail_if_no_progress (with_reducible apply State.Canon.tables)) | split | (intro _))

theorem State.liveUp_canon {s : State} {lid : Option Nat} {n : Nat} (hs : s.Canon) : (State.liveUp s lid n).Canon := by
  unfold State.liveUp
  try dsimp only
  (repeat' first | with_reducible assumption | (with_reducible refine State.Canon.foldl ?_ ?_) | (with_reducible apply State.updLaunch_canon) | (fail_if_no_progress (with_reducible apply State.Canon.other)) | (fail_if_no_progress (with_reducible apply State.Canon.sluices)) | (fail_if_no_progress (with_reducible apply State.Canon.tables)) | split | (intro _))

theorem State.liveDown_canon {s : State} {die : Nat} {c : Ctx} {how : EndKind} (hs : s.Canon) : (State.liveDown s die c how).Canon := by
  unfold State.liveDown
  try dsimp only
  (repeat' first | with_reducible assumption | (with_reducible refine State.Canon.foldl ?_ ?_) | (with_reducible apply State.checkLaunch_canon) | (with_reducible apply State.advanceRetire_canon) | (with_reducible apply State.updLaunch_canon) | (fail_if_no_progress (with_reducible apply State.Canon.other)) | (fail_if_no_progress (with_reducible apply State.Canon.sluices)) | (fail_if_no_progress (with_reducible apply State.Canon.tables)) | split | (intro _))

theorem State.fireTriggers_canon {s : State} {gid : Nat} {gen : Nat} (hs : s.Canon) : (State.fireTriggers s gid gen).Canon := by
  unfold State.fireTriggers
  try dsimp only
  (repeat' first | with_reducible assumption | (with_reducible refine State.Canon.foldl ?_ ?_) | (with_reducible apply State.id_canon) | (with_reducible apply State.withdrawAway_canon) | (with_reducible apply State.unpark_canon) | (with_reducible apply State.updOp_canon) | (with_reducible apply State.post_canon) | (fail_if_no_progress (with_reducible apply State.Canon.other)) | (fail_if_no_progress (with_reducible apply State.Canon.sluices)) | (fail_if_no_progress (with_reducible apply State.Canon.tables)) | split | (intro _))

theorem State.nowIdle_canon {s : State} {gid : Nat} (hs : s.Canon) : (State.nowIdle s gid).Canon := by
  unfold State.nowIdle
  try dsimp only
  (repeat' first | with_reducible assumption | (with_reducible refine State.Canon.foldl ?_ ?_) | (with_reducible apply State.idleReport_canon) | (with_reducible apply State.postAll_canon) | (with_reducible apply State.post_canon) | (fail_if_no_progress (with_reducible apply State.Canon.other)) | (fail_if_no_progress (with_reducible apply State.Canon.sluices)) | (fail_if_no_progress (with_reducible apply State.Canon.tables)) | split | (intro _))

theorem State.dropUnsent_canon {s : State} {gid : Nat} (hs : s.Canon) : (State.dropUnsent s gid).Canon := by
  unfold State.dropUnsent
  try dsimp only
  (repeat' first | with_reducible assumption | (with_reducible refine State.Canon.foldl ?_ ?_) | (with_reducible apply State.id_canon) | (with_reducible apply State.postAll_canon) | (with_reducible apply State.updCore_canon) | (fail_if_no_progress (with_reducible apply State.Canon.other)) | (fail_if_no_progress (with_reducible apply State.Canon.sluices)) | (fail_if_no_progress (with_reducible apply State.Canon.tables)) | split | (intro _))
  all_goals (constructor <;> (try dsimp only) <;> (repeat' first | with_reducible assumption | (with_reducible apply spSet_wfBy) | (with_reducible apply spSet_wf) | (with_reducible apply spSetList_wf) | (with_reducible apply spFill_wf) | (with_reducible apply spWf_map_filter) | (with_reducible apply spWf_filter) | (with_reducible apply State.Canon.ctxs) | (with_reducible apply State.Canon.cores) | (with_reducible apply State.Canon.regs) | (with_reducible apply State.Canon.regEmpty) | (with_reducible apply State.Canon.ab) | (with_reducible apply State.Canon.abEmpty) | (with_reducible apply State.Canon.ps) | (with_reducible apply State.Canon.wb) | (with_reducible apply State.Canon.tiles) | (with_reducible apply State.Canon.bytes) | (with_reducible apply State.Canon.tags) | (with_reducible apply State.Canon.upsets) | (with_reducible apply State.Canon.copyUpsets) | (with_reducible apply State.Canon.fwins) | (with_reducible apply State.Canon.dpit) | (with_reducible apply State.Canon.counts) | (with_reducible apply State.Canon.moved) | (with_reducible apply State.Canon.slecc) | (with_reducible apply State.Canon.stkBank) | (with_reducible apply State.Canon.stkCounts) | (with_reducible apply State.Canon.seqs) | (with_reducible apply State.Canon.quota) | (with_reducible apply State.Canon.dies) | (with_reducible refine State.Canon.foldl ?_ ?_) | (with_reducible apply State.id_canon) | (with_reducible apply State.postAll_canon) | (with_reducible apply State.updCore_canon) | (fail_if_no_progress (with_reducible apply State.Canon.other)) | (fail_if_no_progress (with_reducible apply State.Canon.sluices)) | (fail_if_no_progress (with_reducible apply State.Canon.tables)) | split | (intro _)))

theorem State.toIdle_canon {s : State} {gid : Nat} (hs : s.Canon) : (State.toIdle s gid).Canon := by
  unfold State.toIdle
  try dsimp only
  (repeat' first | with_reducible assumption | (with_reducible refine State.Canon.foldl ?_ ?_) | (with_reducible apply State.nowIdle_canon) | (with_reducible apply State.setCtx_canon) | (fail_if_no_progress (with_reducible apply State.Canon.other)) | (fail_if_no_progress (with_reducible apply State.Canon.sluices)) | (fail_if_no_progress (with_reducible apply State.Canon.tables)) | split | (intro _))
  all_goals (constructor <;> (try dsimp only) <;> (repeat' first | with_reducible assumption | (with_reducible apply spSet_wfBy) | (with_reducible apply spSet_wf) | (with_reducible apply spSetList_wf) | (with_reducible apply spFill_wf) | (with_reducible apply spWf_map_filter) | (with_reducible apply spWf_filter) | (with_reducible apply State.Canon.ctxs) | (with_reducible apply State.Canon.cores) | (with_reducible apply State.Canon.regs) | (with_reducible apply State.Canon.regEmpty) | (with_reducible apply State.Canon.ab) | (with_reducible apply State.Canon.abEmpty) | (with_reducible apply State.Canon.ps) | (with_reducible apply State.Canon.wb) | (with_reducible apply State.Canon.tiles) | (with_reducible apply State.Canon.bytes) | (with_reducible apply State.Canon.tags) | (with_reducible apply State.Canon.upsets) | (with_reducible apply State.Canon.copyUpsets) | (with_reducible apply State.Canon.fwins) | (with_reducible apply State.Canon.dpit) | (with_reducible apply State.Canon.counts) | (with_reducible apply State.Canon.moved) | (with_reducible apply State.Canon.slecc) | (with_reducible apply State.Canon.stkBank) | (with_reducible apply State.Canon.stkCounts) | (with_reducible apply State.Canon.seqs) | (with_reducible apply State.Canon.quota) | (with_reducible apply State.Canon.dies) | (with_reducible refine State.Canon.foldl ?_ ?_) | (with_reducible apply State.nowIdle_canon) | (with_reducible apply State.setCtx_canon) | (fail_if_no_progress (with_reducible apply State.Canon.other)) | (fail_if_no_progress (with_reducible apply State.Canon.sluices)) | (fail_if_no_progress (with_reducible apply State.Canon.tables)) | split | (intro _)))

theorem State.answerReaped_canon {s : State} {gid : Nat} (hs : s.Canon) : (State.answerReaped s gid).Canon := by
  unfold State.answerReaped
  try dsimp only
  (repeat' first | with_reducible assumption | (with_reducible refine State.Canon.foldl ?_ ?_) | (with_reducible apply State.post_canon) | (fail_if_no_progress (with_reducible apply State.Canon.other)) | (fail_if_no_progress (with_reducible apply State.Canon.sluices)) | (fail_if_no_progress (with_reducible apply State.Canon.tables)) | split | (intro _))

theorem State.endWork_canon {s : State} {gid : Nat} {how : EndKind} (hs : s.Canon) : (State.endWork s gid how).Canon := by
  unfold State.endWork
  try dsimp only
  (repeat' first | with_reducible assumption | (with_reducible refine State.Canon.foldl ?_ ?_) | (with_reducible apply State.answerReaped_canon) | (with_reducible apply State.toIdle_canon) | (with_reducible apply State.dropUnsent_canon) | (with_reducible apply State.fireTriggers_canon) | (with_reducible apply State.liveDown_canon) | (fail_if_no_progress (with_reducible apply State.Canon.other)) | (fail_if_no_progress (with_reducible apply State.Canon.sluices)) | (fail_if_no_progress (with_reducible apply State.Canon.tables)) | split | (intro _))

end Sys2Proof.Machine
end

