-- ==== Sys2Proof/Laws/CanonFork.lean ====
section
/-!
SUPPORT. Every function of Machine/Fork.lean keeps the canonical form of the storages.
-/

namespace Sys2Proof.Machine

open Sys2Proof

set_option linter.unusedTactic false
set_option linter.unreachableTactic false
set_option linter.unusedSimpArgs false
set_option linter.unnecessarySeqFocus false

theorem State.recruitFrom_canon {s : State} {core : Nat} {regs : Nat} {pc : W64} {id : Ident} {x0 : Nat} {x1 : List Nat} {ret : _} {out : State} (e : State.recruitFrom s core regs pc id x0 x1 = (out, ret)) (hs : s.Canon) : out.Canon := by
  induction x0 generalizing s core regs pc id x1 ret out with
  | zero => rw [State.recruitFrom] at e <;> (try dsimp only at e) <;> (repeat' split at e) <;> (try simp only [Except.ok.injEq, Option.some.injEq, Prod.mk.injEq, reduceCtorEq] at e) <;> (first | (obtain ⟨e1, e2⟩ := e; subst e1 e2) | (subst e) | skip) <;> (repeat' first | with_reducible assumption | (with_reducible refine State.Canon.foldl ?_ ?_) | (with_reducible apply State.id_canon) | (with_reducible apply State.startCtx_canon) | (fail_if_no_progress (with_reducible apply State.Canon.other)) | (fail_if_no_progress (with_reducible apply State.Canon.sluices)) | (fail_if_no_progress (with_reducible apply State.Canon.tables)) | split | (intro _) | (with_reducible apply State.startCtx_canon) | split | (intro _))
  | succ _ ih => rw [State.recruitFrom] at e <;> (try dsimp only at e) <;> (repeat' split at e) <;> (try simp only [Except.ok.injEq, Option.some.injEq, Prod.mk.injEq, reduceCtorEq] at e) <;> (first | (obtain ⟨e1, e2⟩ := e; subst e1 e2) | (subst e) | skip) <;> (repeat' first | with_reducible assumption | (with_reducible refine State.Canon.foldl ?_ ?_) | (with_reducible apply State.id_canon) | (with_reducible apply State.startCtx_canon) | (fail_if_no_progress (with_reducible apply State.Canon.other)) | (fail_if_no_progress (with_reducible apply State.Canon.sluices)) | (fail_if_no_progress (with_reducible apply State.Canon.tables)) | split | (intro _) | (refine ih (by assumption) ?_) | (refine ih (Prod.eta _).symm ?_) | (with_reducible apply State.startCtx_canon) | split | (intro _))

theorem State.recruit_canon {s : State} {tenant : Nat} {regs : Nat} {want : Nat} {pc : W64} {id : Ident} {x0 : List Nat} {x1 : List Nat} {ret : _} {out : State} (e : State.recruit s tenant regs want pc id x0 x1 = (out, ret)) (hs : s.Canon) : out.Canon := by
  induction x0 generalizing s tenant regs want pc id x1 ret out with
  | nil => rw [State.recruit] at e <;> (try dsimp only at e) <;> (repeat' split at e) <;> (try simp only [Except.ok.injEq, Option.some.injEq, Prod.mk.injEq, reduceCtorEq] at e) <;> (first | (obtain ⟨e1, e2⟩ := e; subst e1 e2) | (subst e) | skip) <;> (repeat' first | with_reducible assumption | (with_reducible refine State.Canon.foldl ?_ ?_) | (with_reducible apply State.id_canon) | (refine State.recruitFrom_canon (by assumption) ?_) | (with_reducible refine State.recruitFrom_canon (Prod.eta _).symm ?_) | (fail_if_no_progress (with_reducible apply State.Canon.other)) | (fail_if_no_progress (with_reducible apply State.Canon.sluices)) | (fail_if_no_progress (with_reducible apply State.Canon.tables)) | split | (intro _) | (refine State.recruitFrom_canon (by assumption) ?_) | (with_reducible refine State.recruitFrom_canon (Prod.eta _).symm ?_) | split | (intro _))
  | cons _ _ ih => rw [State.recruit] at e <;> (try dsimp only at e) <;> (repeat' split at e) <;> (try simp only [Except.ok.injEq, Option.some.injEq, Prod.mk.injEq, reduceCtorEq] at e) <;> (first | (obtain ⟨e1, e2⟩ := e; subst e1 e2) | (subst e) | skip) <;> (repeat' first | with_reducible assumption | (with_reducible refine State.Canon.foldl ?_ ?_) | (with_reducible apply State.id_canon) | (refine State.recruitFrom_canon (by assumption) ?_) | (with_reducible refine State.recruitFrom_canon (Prod.eta _).symm ?_) | (fail_if_no_progress (with_reducible apply State.Canon.other)) | (fail_if_no_progress (with_reducible apply State.Canon.sluices)) | (fail_if_no_progress (with_reducible apply State.Canon.tables)) | split | (intro _) | (refine ih (by assumption) ?_) | (refine ih (Prod.eta _).symm ?_) | (refine State.recruitFrom_canon (by assumption) ?_) | (with_reducible refine State.recruitFrom_canon (Prod.eta _).symm ?_) | split | (intro _))

theorem State.setBoth_canon {s : State} {gid : Nat} {n : Nat} {v : W64} (hs : s.Canon) : (State.setBoth s gid n v).Canon := by
  unfold State.setBoth
  try dsimp only
  (repeat' first | with_reducible assumption | (with_reducible refine State.Canon.foldl ?_ ?_) | (with_reducible apply State.setRegAt_canon) | (fail_if_no_progress (with_reducible apply State.Canon.other)) | (fail_if_no_progress (with_reducible apply State.Canon.sluices)) | (fail_if_no_progress (with_reducible apply State.Canon.tables)) | split | (intro _))

theorem State.giveRange_canon {s : State} {gid : Nat} {t : Nat} {p : Nat} {i : Nat} {h : W64} (hs : s.Canon) : (State.giveRange s gid t p i h).Canon := by
  unfold State.giveRange
  try dsimp only
  (repeat' first | with_reducible assumption | (with_reducible refine State.Canon.foldl ?_ ?_) | (with_reducible apply State.setBoth_canon) | (fail_if_no_progress (with_reducible apply State.Canon.other)) | (fail_if_no_progress (with_reducible apply State.Canon.sluices)) | (fail_if_no_progress (with_reducible apply State.Canon.tables)) | split | (intro _))

theorem State.forkGo_canon {s : State} {gid : Nat} {link : W64} {body : W64} (hs : s.Canon) : (State.forkGo s gid link body).Canon := by
  unfold State.forkGo
  try dsimp only
  (repeat' first | with_reducible assumption | (with_reducible refine State.Canon.foldl ?_ ?_) | (with_reducible apply State.updCtx_canon) | (fail_if_no_progress (with_reducible apply State.Canon.other)) | (fail_if_no_progress (with_reducible apply State.Canon.sluices)) | (fail_if_no_progress (with_reducible apply State.Canon.tables)) | split | (intro _))

theorem State.forkAlone_canon {s : State} {gid : Nat} {t : Nat} {body : W64} {cont : W64} (hs : s.Canon) : (State.forkAlone s gid t body cont).Canon := by
  unfold State.forkAlone
  try dsimp only
  (repeat' first | with_reducible assumption | (with_reducible refine State.Canon.foldl ?_ ?_) | (with_reducible apply State.forkGo_canon) | (with_reducible apply State.setBoth_canon) | (fail_if_no_progress (with_reducible apply State.Canon.other)) | (fail_if_no_progress (with_reducible apply State.Canon.sluices)) | (fail_if_no_progress (with_reducible apply State.Canon.tables)) | split | (intro _))

theorem State.forkOut_canon {s : State} {gid t want : Nat} {body cont : W64} (hs : s.Canon) : (s.forkOut gid t want body cont).Canon := by
  unfold State.forkOut
  dsimp only
  split
  · exact State.forkAlone_canon hs
  · generalize e : s.recruit _ _ _ _ _ _ _ = r
    obtain ⟨s', got⟩ := r
    dsimp only
    split
    · exact State.forkAlone_canon hs
    · exact State.forkGo_canon (State.giveRange_canon (State.Canon.foldl (fun _ _ h => State.giveRange_canon h)
        (State.updDie_canon (State.liveUp_canon (State.recruit_canon e hs)))))


end Sys2Proof.Machine
end

