-- ==== Sys2Proof/Laws/CanonOps.lean ====
section
/-!
SUPPORT. Every function of Machine/Ops.lean keeps the canonical form of the storages.
-/

namespace Sys2Proof.Machine

open Sys2Proof

set_option linter.unusedTactic false
set_option linter.unreachableTactic false
set_option linter.unusedSimpArgs false
set_option linter.unnecessarySeqFocus false

theorem State.writeRecord_canon {s : State} {die : Nat} {t : TrapRec} (hs : s.Canon) : (State.writeRecord s die t).Canon := by
  unfold State.writeRecord
  try dsimp only
  (repeat' first | with_reducible assumption | (with_reducible refine State.Canon.foldl ?_ ?_) | (with_reducible apply State.event_canon) | (with_reducible apply State.clearUpset_canon) | (with_reducible apply State.updDie_canon) | (fail_if_no_progress (with_reducible apply State.Canon.other)) | (fail_if_no_progress (with_reducible apply State.Canon.sluices)) | (fail_if_no_progress (with_reducible apply State.Canon.tables)) | split | (intro _))

theorem State.bermRecord_canon {s : State} {die : Nat} {t : TrapRec} (hs : s.Canon) : (State.bermRecord s die t).Canon := by
  unfold State.bermRecord
  try dsimp only
  (repeat' first | with_reducible assumption | (with_reducible refine State.Canon.foldl ?_ ?_) | (with_reducible apply State.writeRecord_canon) | (with_reducible apply State.event_canon) | (with_reducible apply State.updDie_canon) | (fail_if_no_progress (with_reducible apply State.Canon.other)) | (fail_if_no_progress (with_reducible apply State.Canon.sluices)) | (fail_if_no_progress (with_reducible apply State.Canon.tables)) | split | (intro _))

theorem State.fatalRecord_canon {s : State} {die : Nat} {t : TrapRec} (hs : s.Canon) : (State.fatalRecord s die t).Canon := by
  unfold State.fatalRecord
  try dsimp only
  (repeat' first | with_reducible assumption | (with_reducible refine State.Canon.foldl ?_ ?_) | (with_reducible apply State.bermRecord_canon) | (with_reducible apply State.post_canon) | (fail_if_no_progress (with_reducible apply State.Canon.other)) | (fail_if_no_progress (with_reducible apply State.Canon.sluices)) | (fail_if_no_progress (with_reducible apply State.Canon.tables)) | split | (intro _))

theorem State.asyncRecord_canon {s : State} {die : Nat} {t : TrapRec} (hs : s.Canon) : (State.asyncRecord s die t).Canon := by
  unfold State.asyncRecord
  try dsimp only
  (repeat' first | with_reducible assumption | (with_reducible refine State.Canon.foldl ?_ ?_) | (with_reducible apply State.writeRecord_canon) | (with_reducible apply State.post_canon) | (with_reducible apply State.updCore_canon) | (fail_if_no_progress (with_reducible apply State.Canon.other)) | (fail_if_no_progress (with_reducible apply State.Canon.sluices)) | (fail_if_no_progress (with_reducible apply State.Canon.tables)) | split | (intro _))

theorem State.openRecord_canon {s : State} {tenant : Nat} {cause : Nat} {ret : _} {out : State} (e : State.openRecord s tenant cause = (ret, out)) (hs : s.Canon) : out.Canon := by
  unfold State.openRecord at e
  try dsimp only at e
  (repeat' split at e) <;> (try simp only [Except.ok.injEq, Option.some.injEq, Prod.mk.injEq, reduceCtorEq] at e) <;> (first | (obtain ⟨e1, e2⟩ := e; subst e1 e2) | (subst e) | skip) <;> (repeat' first | with_reducible assumption | (with_reducible refine State.Canon.foldl ?_ ?_) | (fail_if_no_progress (with_reducible apply State.Canon.other)) | (fail_if_no_progress (with_reducible apply State.Canon.sluices)) | (fail_if_no_progress (with_reducible apply State.Canon.tables)) | split | (intro _))

theorem State.engineFault_canon {s : State} {o : EngOp} {cause : Nat} {sw : Nat} {addr : W64} (hs : s.Canon) : (State.engineFault s o cause sw addr).Canon := by
  unfold State.engineFault
  try dsimp only
  (repeat' first | with_reducible assumption | (with_reducible refine State.Canon.foldl ?_ ?_) | (with_reducible apply State.asyncRecord_canon) | (fail_if_no_progress (with_reducible apply State.Canon.other)) | (fail_if_no_progress (with_reducible apply State.Canon.sluices)) | (fail_if_no_progress (with_reducible apply State.Canon.tables)) | split | (intro _))

theorem State.enterHandler_canon {s : State} {core : Nat} {t : TrapRec} (hs : s.Canon) : (State.enterHandler s core t).Canon := by
  unfold State.enterHandler
  try dsimp only
  (repeat' first | with_reducible assumption | (with_reducible refine State.Canon.foldl ?_ ?_) | (with_reducible apply State.endWork_canon) | (with_reducible apply State.updCore_canon) | (with_reducible apply State.setCtx_canon) | (fail_if_no_progress (with_reducible apply State.Canon.other)) | (fail_if_no_progress (with_reducible apply State.Canon.sluices)) | (fail_if_no_progress (with_reducible apply State.Canon.tables)) | split | (intro _))

theorem State.enterPending_canon {s : State} {core : Nat} {x0 : Nat} (hs : s.Canon) : (State.enterPending s core x0).Canon := by
  induction x0 generalizing s core with
  | zero => rw [State.enterPending] <;> (try dsimp only) <;> (repeat' first | with_reducible assumption | (with_reducible refine State.Canon.foldl ?_ ?_) | (with_reducible apply State.enterHandler_canon) | (with_reducible apply State.updCore_canon) | (fail_if_no_progress (with_reducible apply State.Canon.other)) | (fail_if_no_progress (with_reducible apply State.Canon.sluices)) | (fail_if_no_progress (with_reducible apply State.Canon.tables)) | split | (intro _) | (with_reducible apply State.enterHandler_canon) | (with_reducible apply State.updCore_canon) | split | (intro _))
  | succ _ ih => rw [State.enterPending] <;> (try dsimp only) <;> (repeat' first | with_reducible assumption | (with_reducible refine State.Canon.foldl ?_ ?_) | (with_reducible apply State.enterHandler_canon) | (with_reducible apply State.updCore_canon) | (fail_if_no_progress (with_reducible apply State.Canon.other)) | (fail_if_no_progress (with_reducible apply State.Canon.sluices)) | (fail_if_no_progress (with_reducible apply State.Canon.tables)) | split | (intro _) | (with_reducible apply ih) | (with_reducible apply State.enterHandler_canon) | (with_reducible apply State.updCore_canon) | split | (intro _))

theorem State.takeTrap_canon {s : State} {gid : Nat} {cause : Nat} {sw : Nat} {addr : W64} {trapPc : W64} {orig : W64} {iter : W64} {late : Bool} (hs : s.Canon) : (State.takeTrap s gid cause sw addr trapPc orig iter late).Canon := by
  unfold State.takeTrap
  try dsimp only
  (repeat' first | with_reducible assumption | (with_reducible refine State.Canon.foldl ?_ ?_) | (with_reducible apply State.enterPending_canon) | (with_reducible apply State.fatalRecord_canon) | (with_reducible apply State.writeRecord_canon) | (with_reducible apply State.post_canon) | (with_reducible apply State.updCore_canon) | (with_reducible apply State.setCtx_canon) | (fail_if_no_progress (with_reducible apply State.Canon.other)) | (fail_if_no_progress (with_reducible apply State.Canon.sluices)) | (fail_if_no_progress (with_reducible apply State.Canon.tables)) | split | (intro _))

theorem State.raiseSw_canon {s : State} {cause : Nat} {sw : Nat} {addr : W64} {trapPc : W64} (hs : s.Canon) : (State.raiseSw s cause sw addr trapPc).Canon := by
  unfold State.raiseSw
  try dsimp only
  (repeat' first | with_reducible assumption | (with_reducible refine State.Canon.foldl ?_ ?_) | (with_reducible apply State.takeTrap_canon) | (with_reducible apply State.post_canon) | (with_reducible apply State.updCur_canon) | (fail_if_no_progress (with_reducible apply State.Canon.other)) | (fail_if_no_progress (with_reducible apply State.Canon.sluices)) | (fail_if_no_progress (with_reducible apply State.Canon.tables)) | split | (intro _))

theorem State.raise_canon {s : State} {cause : Nat} {addr : W64} (hs : s.Canon) : (State.raise s cause addr).Canon := by
  unfold State.raise
  try dsimp only
  (repeat' first | with_reducible assumption | (with_reducible refine State.Canon.foldl ?_ ?_) | (with_reducible apply State.raiseSw_canon) | (fail_if_no_progress (with_reducible apply State.Canon.other)) | (fail_if_no_progress (with_reducible apply State.Canon.sluices)) | (fail_if_no_progress (with_reducible apply State.Canon.tables)) | split | (intro _))

theorem State.fireGranted_canon {s : State} {gid : Nat} (hs : s.Canon) : (State.fireGranted s gid).Canon := by
  unfold State.fireGranted
  try dsimp only
  (repeat' first | with_reducible assumption | (with_reducible refine State.Canon.foldl ?_ ?_) | (with_reducible apply State.id_canon) | (with_reducible apply State.postAll_canon) | (fail_if_no_progress (with_reducible apply State.Canon.other)) | (fail_if_no_progress (with_reducible apply State.Canon.sluices)) | (fail_if_no_progress (with_reducible apply State.Canon.tables)) | split | (intro _))

theorem State.resume_canon {s : State} {gid : Nat} (hs : s.Canon) : (s.resume gid).Canon := by
  unfold State.resume
  dsimp only
  with_reducible apply State.fireGranted_canon
  generalize (s.ctx gid).park = p
  cases p <;> dsimp only <;> (repeat' first | with_reducible assumption | (with_reducible apply State.setCtx_canon) | (with_reducible apply State.post_canon))


theorem State.leaveHandler_canon {s : State} {core : Nat} (hs : s.Canon) : (s.leaveHandler core).Canon := by
  unfold State.leaveHandler
  dsimp only
  generalize (s.core core).savedPark = p
  cases p <;> dsimp only <;> (repeat' first | with_reducible assumption | (with_reducible apply State.setCtx_canon) | (with_reducible apply State.post_canon))


theorem State.returnFromTrap_canon {s : State} {core : Nat} (hs : s.Canon) : (State.returnFromTrap s core).Canon := by
  unfold State.returnFromTrap
  try dsimp only
  (repeat' first | with_reducible assumption | (with_reducible refine State.Canon.foldl ?_ ?_) | (with_reducible apply State.leaveHandler_canon) | (with_reducible apply State.resume_canon) | (with_reducible apply State.fireGranted_canon) | (with_reducible apply State.enterPending_canon) | (with_reducible apply State.updCtx_canon) | (with_reducible apply State.setCtx_canon) | (fail_if_no_progress (with_reducible apply State.Canon.other)) | (fail_if_no_progress (with_reducible apply State.Canon.sluices)) | (fail_if_no_progress (with_reducible apply State.Canon.tables)) | split | (intro _))

theorem State.next_canon {s : State} (hs : s.Canon) : (State.next s).Canon := by
  unfold State.next
  try dsimp only
  (repeat' first | with_reducible assumption | (with_reducible refine State.Canon.foldl ?_ ?_) | (with_reducible apply State.updCur_canon) | (fail_if_no_progress (with_reducible apply State.Canon.other)) | (fail_if_no_progress (with_reducible apply State.Canon.sluices)) | (fail_if_no_progress (with_reducible apply State.Canon.tables)) | split | (intro _))

theorem State.parkOn_canon {s : State} {p : Park} (hs : s.Canon) : (State.parkOn s p).Canon := by
  unfold State.parkOn
  try dsimp only
  (repeat' first | with_reducible assumption | (with_reducible refine State.Canon.foldl ?_ ?_) | (with_reducible apply State.updCur_canon) | (fail_if_no_progress (with_reducible apply State.Canon.other)) | (fail_if_no_progress (with_reducible apply State.Canon.sluices)) | (fail_if_no_progress (with_reducible apply State.Canon.tables)) | split | (intro _))

theorem State.perform_canon {s : State} {cs : List Check} {effect : State → State} (hs : s.Canon) (heffect : ∀ a0, a0.Canon → (effect a0).Canon) : OutCanon (State.perform s cs effect) := by
  unfold State.perform
  try dsimp only
  (repeat' first | with_reducible assumption | (with_reducible apply OutCanon.next) | (with_reducible exact OutCanon.fault) | (with_reducible refine State.Canon.foldl ?_ ?_) | (with_reducible apply heffect) | (with_reducible apply State.parkOn_canon) | (with_reducible apply State.next_canon) | (with_reducible apply State.raise_canon) | (fail_if_no_progress (with_reducible apply State.Canon.other)) | (fail_if_no_progress (with_reducible apply State.Canon.sluices)) | (fail_if_no_progress (with_reducible apply State.Canon.tables)) | split | (intro _))

theorem State.route_canon {s : State} {r : Request} (hs : s.Canon) : (State.route s r).Canon := by
  unfold State.route
  try dsimp only
  (repeat' first | with_reducible assumption | (with_reducible refine State.Canon.foldl ?_ ?_) | (with_reducible apply State.post_canon) | (fail_if_no_progress (with_reducible apply State.Canon.other)) | (fail_if_no_progress (with_reducible apply State.Canon.sluices)) | (fail_if_no_progress (with_reducible apply State.Canon.tables)) | split | (intro _))

theorem State.kick_canon {s : State} {op : Nat} (hs : s.Canon) : (State.kick s op).Canon := by
  unfold State.kick
  try dsimp only
  (repeat' first | with_reducible assumption | (with_reducible refine State.Canon.foldl ?_ ?_) | (with_reducible apply State.post_canon) | (fail_if_no_progress (with_reducible apply State.Canon.other)) | (fail_if_no_progress (with_reducible apply State.Canon.sluices)) | (fail_if_no_progress (with_reducible apply State.Canon.tables)) | split | (intro _))

theorem State.bind_canon {s : State} {op : Nat} {b : Binding} (hs : s.Canon) : (State.bind s op b).Canon := by
  unfold State.bind
  try dsimp only
  (repeat' first | with_reducible assumption | (with_reducible refine State.Canon.foldl ?_ ?_) | (with_reducible apply State.kick_canon) | (with_reducible apply State.updOp_canon) | (fail_if_no_progress (with_reducible apply State.Canon.other)) | (fail_if_no_progress (with_reducible apply State.Canon.sluices)) | (fail_if_no_progress (with_reducible apply State.Canon.tables)) | split | (intro _))

theorem State.handOver_canon {s : State} {op : Nat} (hs : s.Canon) : (State.handOver s op).Canon := by
  unfold State.handOver
  try dsimp only
  (repeat' first | with_reducible assumption | (with_reducible refine State.Canon.foldl ?_ ?_) | (with_reducible apply State.post_canon) | (fail_if_no_progress (with_reducible apply State.Canon.other)) | (fail_if_no_progress (with_reducible apply State.Canon.sluices)) | (fail_if_no_progress (with_reducible apply State.Canon.tables)) | split | (intro _))

theorem State.deliver_canon {s : State} {o : Outbound} (hs : s.Canon) : (s.deliver o).Canon := by
  cases o <;> unfold State.deliver <;> dsimp only
  · exact State.route_canon hs
  · exact State.post_canon hs
  · exact State.post_canon hs
  · exact State.post_canon hs
  · exact State.forkOut_canon hs
  · exact State.handOver_canon hs
  · exact State.post_canon hs


theorem State.mergeOps_canon {s : State} {keep drop : Nat} (hs : s.Canon) : (s.mergeOps keep drop).Canon :=
  State.dropOp_canon { hs with abEmpty := spWf_map hs.abEmpty fun _ h e => h (List.map_eq_nil_iff.1 e) }


theorem State.sendPaired_canon {s : State} {gid : Nat} {o : Outbound} (hs : s.Canon) : (State.sendPaired s gid o).Canon := by
  unfold State.sendPaired
  try dsimp only
  (repeat' first | with_reducible assumption | (with_reducible refine State.Canon.foldl ?_ ?_) | (with_reducible apply State.mergeOps_canon) | (with_reducible apply State.deliver_canon) | (with_reducible apply State.post_canon) | (with_reducible apply State.postIn_canon) | (with_reducible apply State.updCore_canon) | (fail_if_no_progress (with_reducible apply State.Canon.other)) | (fail_if_no_progress (with_reducible apply State.Canon.sluices)) | (fail_if_no_progress (with_reducible apply State.Canon.tables)) | split | (intro _))

theorem State.sendOut_canon {s : State} {gid : Nat} {o : Outbound} (hs : s.Canon) : (State.sendOut s gid o).Canon := by
  unfold State.sendOut
  try dsimp only
  (repeat' first | with_reducible assumption | (with_reducible refine State.Canon.foldl ?_ ?_) | (with_reducible apply State.sendPaired_canon) | (with_reducible apply State.deliver_canon) | (fail_if_no_progress (with_reducible apply State.Canon.other)) | (fail_if_no_progress (with_reducible apply State.Canon.sluices)) | (fail_if_no_progress (with_reducible apply State.Canon.tables)) | split | (intro _))

theorem State.send_canon {s : State} {r : Request} (hs : s.Canon) : (State.send s r).Canon := by
  unfold State.send
  try dsimp only
  (repeat' first | with_reducible assumption | (with_reducible refine State.Canon.foldl ?_ ?_) | (with_reducible apply State.sendOut_canon) | (with_reducible apply State.route_canon) | (fail_if_no_progress (with_reducible apply State.Canon.other)) | (fail_if_no_progress (with_reducible apply State.Canon.sluices)) | (fail_if_no_progress (with_reducible apply State.Canon.tables)) | split | (intro _))

theorem State.issueRequest_canon {s : State} {kind : ReqKind} {va : W64} {data : W64} {cmp : W64} {ord : BitVec 2} {scope : BitVec 4} {use : Use} {join : Option Nat} (hs : s.Canon) : (State.issueRequest s kind va data cmp ord scope use join).Canon := by
  unfold State.issueRequest
  try dsimp only
  (repeat' first | with_reducible assumption | (with_reducible refine State.Canon.foldl ?_ ?_) | (with_reducible apply State.send_canon) | (with_reducible apply State.parkOn_canon) | (with_reducible apply State.next_canon) | (with_reducible apply State.markEmpty_canon) | (refine State.newRid_canon (by assumption) ?_) | (with_reducible refine State.newRid_canon (Prod.eta _).symm ?_) | (fail_if_no_progress (with_reducible apply State.Canon.other)) | (fail_if_no_progress (with_reducible apply State.Canon.sluices)) | (fail_if_no_progress (with_reducible apply State.Canon.tables)) | split | (intro _))

theorem State.noticeRecord_canon {s : State} {n : Notice} {sw : Nat} (hs : s.Canon) : (State.noticeRecord s n sw).Canon := by
  unfold State.noticeRecord
  try dsimp only
  (repeat' first | with_reducible assumption | (with_reducible refine State.Canon.foldl ?_ ?_) | (with_reducible apply State.asyncRecord_canon) | (fail_if_no_progress (with_reducible apply State.Canon.other)) | (fail_if_no_progress (with_reducible apply State.Canon.sluices)) | (fail_if_no_progress (with_reducible apply State.Canon.tables)) | split | (intro _))

theorem State.withdrawNow_canon {s : State} {r : Request} (hs : s.Canon) : (State.withdrawNow s r).Canon := by
  unfold State.withdrawNow
  try dsimp only
  (repeat' first | with_reducible assumption | (with_reducible refine State.Canon.foldl ?_ ?_) | (with_reducible apply State.post_canon) | (fail_if_no_progress (with_reducible apply State.Canon.other)) | (fail_if_no_progress (with_reducible apply State.Canon.sluices)) | (fail_if_no_progress (with_reducible apply State.Canon.tables)) | split | (intro _))

theorem State.answer_canon {s : State} {r : Request} {v : W64} {ok : Bool} (hs : s.Canon) : (State.answer s r v ok).Canon := by
  unfold State.answer
  try dsimp only
  (repeat' first | with_reducible assumption | (with_reducible refine State.Canon.foldl ?_ ?_) | (with_reducible apply State.id_canon) | (with_reducible apply State.withdrawNow_canon) | (with_reducible apply State.cross_canon) | (with_reducible apply State.emit_canon) | (with_reducible apply State.post_canon) | (fail_if_no_progress (with_reducible apply State.Canon.other)) | (fail_if_no_progress (with_reducible apply State.Canon.sluices)) | (fail_if_no_progress (with_reducible apply State.Canon.tables)) | split | (intro _))

theorem State.refuseTrigger_canon {s : State} {r : Request} {gid : Nat} {gen : Nat} {op : Nat} (hs : s.Canon) : (State.refuseTrigger s r gid gen op).Canon := by
  unfold State.refuseTrigger
  try dsimp only
  (repeat' first | with_reducible assumption | (with_reducible refine State.Canon.foldl ?_ ?_) | (with_reducible apply State.updOp_canon) | (with_reducible apply State.post_canon) | (fail_if_no_progress (with_reducible apply State.Canon.other)) | (fail_if_no_progress (with_reducible apply State.Canon.sluices)) | (fail_if_no_progress (with_reducible apply State.Canon.tables)) | split | (intro _))

theorem State.askAgain_canon {s : State} {r : Request} (hs : s.Canon) : (State.askAgain s r).Canon := by
  unfold State.askAgain
  try dsimp only
  (repeat' first | with_reducible assumption | (with_reducible refine State.Canon.foldl ?_ ?_) | (with_reducible apply State.cross_canon) | (with_reducible apply State.firewallDrop_canon) | (with_reducible apply State.postIn_canon) | (fail_if_no_progress (with_reducible apply State.Canon.other)) | (fail_if_no_progress (with_reducible apply State.Canon.sluices)) | (fail_if_no_progress (with_reducible apply State.Canon.tables)) | split | (intro _))

theorem State.refuse_canon {s : State} {r : Request} {cause : Nat} {addr : W64} (hs : s.Canon) : (State.refuse s r cause addr).Canon := by
  unfold State.refuse
  try dsimp only
  (repeat' first | with_reducible assumption | (with_reducible refine State.Canon.foldl ?_ ?_) | (with_reducible apply State.id_canon) | (with_reducible apply State.askAgain_canon) | (with_reducible apply State.refuseTrigger_canon) | (with_reducible apply State.noticeRecord_canon) | (with_reducible apply State.engineFault_canon) | (with_reducible apply State.cross_canon) | (with_reducible apply State.emit_canon) | (with_reducible apply State.post_canon) | (fail_if_no_progress (with_reducible apply State.Canon.other)) | (fail_if_no_progress (with_reducible apply State.Canon.sluices)) | (fail_if_no_progress (with_reducible apply State.Canon.tables)) | split | (intro _))

theorem State.retire_canon {s : State} {gid : Nat} (hs : s.Canon) : (State.retire s gid).Canon := by
  unfold State.retire
  try dsimp only
  (repeat' first | with_reducible assumption | (with_reducible refine State.Canon.foldl ?_ ?_) | (with_reducible apply State.sendOut_canon) | (with_reducible apply State.endWork_canon) | (fail_if_no_progress (with_reducible apply State.Canon.other)) | (fail_if_no_progress (with_reducible apply State.Canon.sluices)) | (fail_if_no_progress (with_reducible apply State.Canon.tables)) | split | (intro _))

end Sys2Proof.Machine
end

