-- ==== Sys2Proof/Laws/CanonOperands.lean ====
section
/-!
SUPPORT. Every function of Machine/Operands.lean keeps the canonical form of the storages.
-/

namespace Sys2Proof.Machine

open Sys2Proof

set_option linter.unusedTactic false
set_option linter.unreachableTactic false
set_option linter.unusedSimpArgs false
set_option linter.unnecessarySeqFocus false

theorem State.registerOp_canon {s : State} {srcs : List (BitVec 7)} {dsts : List (BitVec 7)} {effect : State → State} (hs : s.Canon) (heffect : ∀ a0, a0.Canon → (effect a0).Canon) : OutCanon (State.registerOp s srcs dsts effect) := by
  unfold State.registerOp
  try dsimp only
  (repeat' first | with_reducible assumption | (with_reducible apply OutCanon.next) | (with_reducible exact OutCanon.fault) | (with_reducible refine State.Canon.foldl ?_ ?_) | (with_reducible apply heffect) | (with_reducible apply State.perform_canon) | (with_reducible apply State.next_canon) | (fail_if_no_progress (with_reducible apply State.Canon.other)) | (fail_if_no_progress (with_reducible apply State.Canon.sluices)) | (fail_if_no_progress (with_reducible apply State.Canon.tables)) | split | (intro _))

theorem State.jump_canon {s : State} {pc : W64} (hs : s.Canon) : (State.jump s pc).Canon := by
  unfold State.jump
  try dsimp only
  (repeat' first | with_reducible assumption | (with_reducible refine State.Canon.foldl ?_ ?_) | (with_reducible apply State.updCur_canon) | (fail_if_no_progress (with_reducible apply State.Canon.other)) | (fail_if_no_progress (with_reducible apply State.Canon.sluices)) | (fail_if_no_progress (with_reducible apply State.Canon.tables)) | split | (intro _))

theorem State.link_canon {s : State} (hs : s.Canon) : (State.link s).Canon := by
  unfold State.link
  try dsimp only
  (repeat' first | with_reducible assumption | (with_reducible refine State.Canon.foldl ?_ ?_) | (with_reducible apply State.updCur_canon) | (fail_if_no_progress (with_reducible apply State.Canon.other)) | (fail_if_no_progress (with_reducible apply State.Canon.sluices)) | (fail_if_no_progress (with_reducible apply State.Canon.tables)) | split | (intro _))

end Sys2Proof.Machine
end

