-- ==== Sys2Proof/Laws/CanonEngine.lean ====
section
/-!
SUPPORT. Every function of Machine/Engine.lean keeps the canonical form of the storages.
-/

namespace Sys2Proof.Machine

open Sys2Proof

set_option linter.unusedTactic false
set_option linter.unreachableTactic false
set_option linter.unusedSimpArgs false
set_option linter.unnecessarySeqFocus false

theorem State.newOp_canon {s : State} {work : OpWork} {scope : BitVec 4} {bindVa : W64} {binding : Binding} {lines : List Nat} {trig : Option Nat} {ret : _} {out : State} (e : State.newOp s work scope bindVa binding lines trig = (ret, out)) (hs : s.Canon) : out.Canon := by
  unfold State.newOp at e
  try dsimp only at e
  (repeat' split at e) <;> (try simp only [Except.ok.injEq, Option.some.injEq, Prod.mk.injEq, reduceCtorEq] at e) <;> (first | (obtain ⟨e1, e2⟩ := e; subst e1 e2) | (subst e) | skip) <;> (repeat' first | with_reducible assumption | (with_reducible refine State.Canon.foldl ?_ ?_) | (with_reducible apply State.id_canon) | (with_reducible apply State.emptyLines_canon) | (refine State.newRid_canon (by assumption) ?_) | (with_reducible refine State.newRid_canon (Prod.eta _).symm ?_) | (fail_if_no_progress (with_reducible apply State.Canon.other)) | (fail_if_no_progress (with_reducible apply State.Canon.sluices)) | (fail_if_no_progress (with_reducible apply State.Canon.tables)) | split | (intro _))

theorem State.issueOp_canon {s : State} {work : OpWork} {scope : BitVec 4} {bindVa : W64} {lines : List Nat} (hs : s.Canon) : (State.issueOp s work scope bindVa lines).Canon := by
  unfold State.issueOp
  try dsimp only
  (repeat' first | with_reducible assumption | (with_reducible refine State.Canon.foldl ?_ ?_) | (with_reducible apply State.id_canon) | (with_reducible apply State.sendOut_canon) | (refine State.newOp_canon (by assumption) ?_) | (with_reducible refine State.newOp_canon (Prod.eta _).symm ?_) | (fail_if_no_progress (with_reducible apply State.Canon.other)) | (fail_if_no_progress (with_reducible apply State.Canon.sluices)) | (fail_if_no_progress (with_reducible apply State.Canon.tables)) | split | (intro _))

theorem State.wakeLine_canon {s : State} {core : Nat} {line : Nat} (hs : s.Canon) : (State.wakeLine s core line).Canon := by
  unfold State.wakeLine
  try dsimp only
  (repeat' first | with_reducible assumption | (with_reducible refine State.Canon.foldl ?_ ?_) | (with_reducible apply State.postAll_canon) | (fail_if_no_progress (with_reducible apply State.Canon.other)) | (fail_if_no_progress (with_reducible apply State.Canon.sluices)) | (fail_if_no_progress (with_reducible apply State.Canon.tables)) | split | (intro _))

theorem State.releaseLine_canon {s : State} {core : Nat} {op : Nat} {line : Nat} (hs : s.Canon) : (State.releaseLine s core op line).Canon := by
  unfold State.releaseLine
  try dsimp only
  (repeat' first | with_reducible assumption | (with_reducible refine State.Canon.foldl ?_ ?_) | (with_reducible apply State.wakeLine_canon) | (with_reducible apply State.setLine_canon) | (fail_if_no_progress (with_reducible apply State.Canon.other)) | (fail_if_no_progress (with_reducible apply State.Canon.sluices)) | (fail_if_no_progress (with_reducible apply State.Canon.tables)) | split | (intro _))

theorem State.releaseLines_canon {s : State} {o : EngOp} (hs : s.Canon) : (State.releaseLines s o).Canon := by
  unfold State.releaseLines
  try dsimp only
  (repeat' first | with_reducible assumption | (with_reducible refine State.Canon.foldl ?_ ?_) | (with_reducible apply State.id_canon) | (with_reducible apply State.releaseLine_canon) | (fail_if_no_progress (with_reducible apply State.Canon.other)) | (fail_if_no_progress (with_reducible apply State.Canon.sluices)) | (fail_if_no_progress (with_reducible apply State.Canon.tables)) | split | (intro _))

theorem State.writeAb_canon {s : State} {core : Nat} {off : Nat} {bs : List Byte} (hs : s.Canon) : (State.writeAb s core off bs).Canon := by
  unfold State.writeAb
  try dsimp only
  (repeat' first | with_reducible assumption | (with_reducible refine State.Canon.foldl ?_ ?_) | (with_reducible apply State.setAb_canon) | (fail_if_no_progress (with_reducible apply State.Canon.other)) | (fail_if_no_progress (with_reducible apply State.Canon.sluices)) | (fail_if_no_progress (with_reducible apply State.Canon.tables)) | split | (intro _))

theorem State.emitWords_canon {s : State} {phys : Nat} {op : Nat} {a : W64} {ws : List (Option W64)} (hs : s.Canon) : (State.emitWords s phys op a ws).Canon := by
  unfold State.emitWords
  try dsimp only
  (repeat' first | with_reducible assumption | (with_reducible refine State.Canon.foldl ?_ ?_) | (with_reducible apply State.emit_canon) | (fail_if_no_progress (with_reducible apply State.Canon.other)) | (fail_if_no_progress (with_reducible apply State.Canon.sluices)) | (fail_if_no_progress (with_reducible apply State.Canon.tables)) | split | (intro _))

theorem State.emitFetch_canon {s : State} {phys : Nat} {op : Nat} {a : W64} {n : Nat} (hs : s.Canon) : (State.emitFetch s phys op a n).Canon := by
  unfold State.emitFetch
  try dsimp only
  (repeat' first | with_reducible assumption | (with_reducible refine State.Canon.foldl ?_ ?_) | (with_reducible apply State.emit_canon) | (fail_if_no_progress (with_reducible apply State.Canon.other)) | (fail_if_no_progress (with_reducible apply State.Canon.sluices)) | (fail_if_no_progress (with_reducible apply State.Canon.tables)) | split | (intro _))

theorem State.awaitPeer_canon {s : State} {op : Nat} {phys : Nat} {n : Nat} {addr : W64} (hs : s.Canon) : (State.awaitPeer s op phys n addr).Canon := by
  unfold State.awaitPeer
  try dsimp only
  (repeat' first | with_reducible assumption | (with_reducible refine State.Canon.foldl ?_ ?_) | (with_reducible apply State.updOp_canon) | (with_reducible apply State.postIn_canon) | (fail_if_no_progress (with_reducible apply State.Canon.other)) | (fail_if_no_progress (with_reducible apply State.Canon.sluices)) | (fail_if_no_progress (with_reducible apply State.Canon.tables)) | split | (intro _))

theorem State.notify_canon {s : State} {o : EngOp} (hs : s.Canon) : (s.notify o).Canon := by
  unfold State.notify
  generalize h : s.newRid = r
  obtain ⟨rid, s1⟩ := r
  have h1 := State.newRid_canon h hs
  dsimp only
  generalize o.binding = b
  cases b <;> first | exact h1 | exact State.route_canon h1


theorem State.endOp_canon {s : State} {o : EngOp} (hs : s.Canon) : (State.endOp s o).Canon := by
  unfold State.endOp
  try dsimp only
  (repeat' first | with_reducible assumption | (with_reducible refine State.Canon.foldl ?_ ?_) | (with_reducible apply State.id_canon) | (with_reducible apply State.releaseLines_canon) | (with_reducible apply State.dropOp_canon) | (fail_if_no_progress (with_reducible apply State.Canon.other)) | (fail_if_no_progress (with_reducible apply State.Canon.sluices)) | (fail_if_no_progress (with_reducible apply State.Canon.tables)) | split | (intro _))

theorem State.complete_canon {s : State} {o : EngOp} (hs : s.Canon) : (State.complete s o).Canon := by
  unfold State.complete
  try dsimp only
  (repeat' first | with_reducible assumption | (with_reducible refine State.Canon.foldl ?_ ?_) | (with_reducible apply State.endOp_canon) | (with_reducible apply State.notify_canon) | (fail_if_no_progress (with_reducible apply State.Canon.other)) | (fail_if_no_progress (with_reducible apply State.Canon.sluices)) | (fail_if_no_progress (with_reducible apply State.Canon.tables)) | split | (intro _))

theorem State.drainEnd_canon {s : State} {id : Nat} (hs : s.Canon) : (State.drainEnd s id).Canon := by
  unfold State.drainEnd
  try dsimp only
  (repeat' first | with_reducible assumption | (with_reducible refine State.Canon.foldl ?_ ?_) | (with_reducible apply State.id_canon) | (with_reducible apply State.complete_canon) | (with_reducible apply State.updOp_canon) | (fail_if_no_progress (with_reducible apply State.Canon.other)) | (fail_if_no_progress (with_reducible apply State.Canon.sluices)) | (fail_if_no_progress (with_reducible apply State.Canon.tables)) | split | (intro _))

theorem State.finishOp_canon {s : State} {o : EngOp} (hs : s.Canon) : (State.finishOp s o).Canon := by
  unfold State.finishOp
  try dsimp only
  (repeat' first | with_reducible assumption | (with_reducible refine State.Canon.foldl ?_ ?_) | (with_reducible apply State.id_canon) | (with_reducible apply State.drainEnd_canon) | (with_reducible apply State.complete_canon) | (with_reducible apply State.releaseLines_canon) | (fail_if_no_progress (with_reducible apply State.Canon.other)) | (fail_if_no_progress (with_reducible apply State.Canon.sluices)) | (fail_if_no_progress (with_reducible apply State.Canon.tables)) | split | (intro _))

theorem State.failOp_canon {s : State} {o : EngOp} {sw : Nat} {addr : W64} (hs : s.Canon) : (State.failOp s o sw addr).Canon := by
  unfold State.failOp
  try dsimp only
  (repeat' first | with_reducible assumption | (with_reducible refine State.Canon.foldl ?_ ?_) | (with_reducible apply State.id_canon) | (with_reducible apply State.endOp_canon) | (with_reducible apply State.engineFault_canon) | (with_reducible apply State.updOp_canon) | (with_reducible apply State.post_canon) | (fail_if_no_progress (with_reducible apply State.Canon.other)) | (fail_if_no_progress (with_reducible apply State.Canon.sluices)) | (fail_if_no_progress (with_reducible apply State.Canon.tables)) | split | (intro _))

theorem State.deliverAb_canon {s : State} {o : EngOp} {ws : List (Nat × List Byte)} (hs : s.Canon) : (State.deliverAb s o ws).Canon := by
  unfold State.deliverAb
  try dsimp only
  (repeat' first | with_reducible assumption | (with_reducible refine State.Canon.foldl ?_ ?_) | (with_reducible apply State.id_canon) | (with_reducible apply State.finishOp_canon) | (with_reducible apply State.writeAb_canon) | (with_reducible apply State.postAll_canon) | (fail_if_no_progress (with_reducible apply State.Canon.other)) | (fail_if_no_progress (with_reducible apply State.Canon.sluices)) | (fail_if_no_progress (with_reducible apply State.Canon.tables)) | split | (intro _))

theorem State.takeOp_canon {s : State} {op : Nat} {f : EngOp → State → State} (hs : s.Canon) (hf : ∀ a0 a1, a1.Canon → (f a0 a1).Canon) : (State.takeOp s op f).Canon := by
  unfold State.takeOp
  try dsimp only
  (repeat' first | with_reducible assumption | (with_reducible refine State.Canon.foldl ?_ ?_) | (with_reducible apply hf) | (with_reducible apply State.failOp_canon) | (fail_if_no_progress (with_reducible apply State.Canon.other)) | (fail_if_no_progress (with_reducible apply State.Canon.sluices)) | (fail_if_no_progress (with_reducible apply State.Canon.tables)) | split | (intro _))

end Sys2Proof.Machine
end

