-- ==== Sys2Proof/Laws/CanonSlices.lean ====
section
/-!
SUPPORT. Every function of Machine/Slices.lean keeps the canonical form of the storages.
-/

namespace Sys2Proof.Machine

open Sys2Proof

set_option linter.unusedTactic false
set_option linter.unreachableTactic false
set_option linter.unusedSimpArgs false
set_option linter.unnecessarySeqFocus false

theorem atHome_canon {dp : Nat} {s : State} (hs : s.Canon) : OutCanon (atHome dp s) := by
  unfold atHome
  try dsimp only
  (repeat' first | with_reducible assumption | (with_reducible apply OutCanon.next) | (with_reducible exact OutCanon.fault) | (with_reducible refine State.Canon.foldl ?_ ?_) | (with_reducible apply State.next_canon) | (fail_if_no_progress (with_reducible apply State.Canon.other)) | (fail_if_no_progress (with_reducible apply State.Canon.sluices)) | (fail_if_no_progress (with_reducible apply State.Canon.tables)) | split | (intro _))

theorem State.sliceRecord_canon {s : State} {r : Request} {cause : Nat} {sw : Nat} {addr : W64} (hs : s.Canon) : (State.sliceRecord s r cause sw addr).Canon := by
  unfold State.sliceRecord
  try dsimp only
  (repeat' first | with_reducible assumption | (with_reducible refine State.Canon.foldl ?_ ?_) | (with_reducible apply State.id_canon) | (with_reducible apply State.asyncRecord_canon) | (fail_if_no_progress (with_reducible apply State.Canon.other)) | (fail_if_no_progress (with_reducible apply State.Canon.sluices)) | (fail_if_no_progress (with_reducible apply State.Canon.tables)) | split | (intro _))

theorem State.sendHome_canon {s : State} {r : Request} (hs : s.Canon) : (State.sendHome s r).Canon := by
  unfold State.sendHome
  try dsimp only
  (repeat' first | with_reducible assumption | (with_reducible refine State.Canon.foldl ?_ ?_) | (with_reducible apply State.post_canon) | (fail_if_no_progress (with_reducible apply State.Canon.other)) | (fail_if_no_progress (with_reducible apply State.Canon.sluices)) | (fail_if_no_progress (with_reducible apply State.Canon.tables)) | split | (intro _))

theorem execTranslationLookup_canon {r : Request} {s : State} (hs : s.Canon) : OutCanon (execTranslationLookup r s) := by
  unfold execTranslationLookup
  try dsimp only
  (repeat' first | with_reducible assumption | (with_reducible apply OutCanon.next) | (with_reducible exact OutCanon.fault) | (with_reducible refine State.Canon.foldl ?_ ?_) | (with_reducible apply State.sendHome_canon) | (with_reducible apply State.refuse_canon) | (with_reducible apply State.next_canon) | (refine State.lookup_canon (by assumption) ?_) | (with_reducible refine State.lookup_canon (Prod.eta _).symm ?_) | (fail_if_no_progress (with_reducible apply State.Canon.other)) | (fail_if_no_progress (with_reducible apply State.Canon.sluices)) | (fail_if_no_progress (with_reducible apply State.Canon.tables)) | split | (intro _))

theorem execHomeSliceLoad_canon {r : Request} {s : State} (hs : s.Canon) : OutCanon (execHomeSliceLoad r s) := by
  unfold execHomeSliceLoad
  try dsimp only
  (repeat' first | with_reducible assumption | (with_reducible apply OutCanon.next) | (with_reducible exact OutCanon.fault) | (with_reducible refine State.Canon.foldl ?_ ?_) | (with_reducible apply atHome_canon) | (with_reducible apply State.refuse_canon) | (with_reducible apply State.answer_canon) | (with_reducible apply State.open_canon) | (fail_if_no_progress (with_reducible apply State.Canon.other)) | (fail_if_no_progress (with_reducible apply State.Canon.sluices)) | (fail_if_no_progress (with_reducible apply State.Canon.tables)) | split | (intro _))

theorem State.storeWord_canon {s : State} {r : Request} {n : Nat} (hs : s.Canon) : (State.storeWord s r n).Canon := by
  unfold State.storeWord
  try dsimp only
  (repeat' first | with_reducible assumption | (with_reducible refine State.Canon.foldl ?_ ?_) | (with_reducible apply State.sliceRecord_canon) | (with_reducible apply State.refuse_canon) | (with_reducible apply State.answer_canon) | (with_reducible apply State.commit_canon) | (fail_if_no_progress (with_reducible apply State.Canon.other)) | (fail_if_no_progress (with_reducible apply State.Canon.sluices)) | (fail_if_no_progress (with_reducible apply State.Canon.tables)) | split | (intro _))

theorem execHomeSliceStore_canon {r : Request} {s : State} (hs : s.Canon) : OutCanon (execHomeSliceStore r s) := by
  unfold execHomeSliceStore
  try dsimp only
  (repeat' first | with_reducible assumption | (with_reducible apply OutCanon.next) | (with_reducible exact OutCanon.fault) | (with_reducible refine State.Canon.foldl ?_ ?_) | (with_reducible apply State.storeWord_canon) | (with_reducible apply State.sliceRecord_canon) | (with_reducible apply atHome_canon) | (with_reducible apply State.refuse_canon) | (with_reducible apply State.answer_canon) | (with_reducible apply State.engineCommit_canon) | (with_reducible apply State.open_canon) | (fail_if_no_progress (with_reducible apply State.Canon.other)) | (fail_if_no_progress (with_reducible apply State.Canon.sluices)) | (fail_if_no_progress (with_reducible apply State.Canon.tables)) | split | (intro _))

theorem execHomeSliceAmo_canon {r : Request} {s : State} (hs : s.Canon) : OutCanon (execHomeSliceAmo r s) := by
  unfold execHomeSliceAmo
  try dsimp only
  (repeat' first | with_reducible assumption | (with_reducible apply OutCanon.next) | (with_reducible exact OutCanon.fault) | (with_reducible refine State.Canon.foldl ?_ ?_) | (with_reducible apply atHome_canon) | (with_reducible apply State.refuse_canon) | (with_reducible apply State.answer_canon) | (with_reducible apply State.commit_canon) | (with_reducible apply State.open_canon) | (fail_if_no_progress (with_reducible apply State.Canon.other)) | (fail_if_no_progress (with_reducible apply State.Canon.sluices)) | (fail_if_no_progress (with_reducible apply State.Canon.tables)) | split | (intro _))

theorem State.numberAt_canon {s : State} {dp : Nat} {ret : _} {out : State} (e : State.numberAt s dp = (ret, out)) (hs : s.Canon) : out.Canon := by
  unfold State.numberAt at e
  try dsimp only at e
  (repeat' split at e) <;> (try simp only [Except.ok.injEq, Option.some.injEq, Prod.mk.injEq, reduceCtorEq] at e) <;> (first | (obtain ⟨e1, e2⟩ := e; subst e1 e2) | (subst e) | skip) <;> (repeat' first | with_reducible assumption | (with_reducible refine State.Canon.foldl ?_ ?_) | (with_reducible apply State.commit_canon) | (with_reducible apply State.open_canon) | (fail_if_no_progress (with_reducible apply State.Canon.other)) | (fail_if_no_progress (with_reducible apply State.Canon.sluices)) | (fail_if_no_progress (with_reducible apply State.Canon.tables)) | split | (intro _))

theorem execHomeSliceLdtag_canon {r : Request} {s : State} (hs : s.Canon) : OutCanon (execHomeSliceLdtag r s) := by
  unfold execHomeSliceLdtag
  try dsimp only
  (repeat' first | with_reducible assumption | (with_reducible apply OutCanon.next) | (with_reducible exact OutCanon.fault) | (with_reducible refine State.Canon.foldl ?_ ?_) | (with_reducible apply atHome_canon) | (with_reducible apply State.answer_canon) | (with_reducible apply State.open_canon) | (refine State.numberAt_canon (by assumption) ?_) | (with_reducible refine State.numberAt_canon (Prod.eta _).symm ?_) | (fail_if_no_progress (with_reducible apply State.Canon.other)) | (fail_if_no_progress (with_reducible apply State.Canon.sluices)) | (fail_if_no_progress (with_reducible apply State.Canon.tables)) | split | (intro _))

theorem execNumberRequest_canon {op : Nat} {s : State} (hs : s.Canon) : OutCanon (execNumberRequest op s) := by
  unfold execNumberRequest
  try dsimp only
  (repeat' first | with_reducible assumption | (with_reducible apply OutCanon.next) | (with_reducible exact OutCanon.fault) | (with_reducible refine State.Canon.foldl ?_ ?_) | (with_reducible apply State.bind_canon) | (with_reducible apply State.next_canon) | (with_reducible apply State.post_canon) | (refine State.numberAt_canon (by assumption) ?_) | (with_reducible refine State.numberAt_canon (Prod.eta _).symm ?_) | (refine State.lookup_canon (by assumption) ?_) | (with_reducible refine State.lookup_canon (Prod.eta _).symm ?_) | (fail_if_no_progress (with_reducible apply State.Canon.other)) | (fail_if_no_progress (with_reducible apply State.Canon.sluices)) | (fail_if_no_progress (with_reducible apply State.Canon.tables)) | split | (intro _))

end Sys2Proof.Machine
end

