-- ==== Sys2Proof/Laws/CanonSluice.lean ====
section
/-!
SUPPORT. Every function of Machine/Sluice.lean keeps the canonical form of the storages.
-/

namespace Sys2Proof.Machine

open Sys2Proof

set_option linter.unusedTactic false
set_option linter.unreachableTactic false
set_option linter.unusedSimpArgs false
set_option linter.unnecessarySeqFocus false

theorem State.countWithdrawn_canon {s : State} {r : Request} (hs : s.Canon) : (State.countWithdrawn s r).Canon := by
  unfold State.countWithdrawn
  try dsimp only
  (repeat' first | with_reducible assumption | (with_reducible refine State.Canon.foldl ?_ ?_) | (with_reducible apply State.updCore_canon) | (fail_if_no_progress (with_reducible apply State.Canon.other)) | (fail_if_no_progress (with_reducible apply State.Canon.sluices)) | (fail_if_no_progress (with_reducible apply State.Canon.tables)) | split | (intro _))

theorem State.enlist_canon {s : State} {dp : Nat} {r : Request} {polder : Bool} {ticket : W32} {phase : BitVec 16} {notice : Option Notice} (hs : s.Canon) : (State.enlist s dp r polder ticket phase notice).Canon := by
  unfold State.enlist
  try dsimp only
  (repeat' first | with_reducible assumption | (with_reducible refine State.Canon.foldl ?_ ?_) | (fail_if_no_progress (with_reducible apply State.Canon.other)) | (fail_if_no_progress (with_reducible apply State.Canon.sluices)) | (fail_if_no_progress (with_reducible apply State.Canon.tables)) | split | (intro _))
  all_goals (constructor <;> (try dsimp only) <;> (repeat' first | with_reducible assumption | (with_reducible apply spSet_wfBy) | (with_reducible apply spSet_wf) | (with_reducible apply spSetList_wf) | (with_reducible apply spFill_wf) | (with_reducible apply spWf_map_filter) | (with_reducible apply spWf_filter) | (with_reducible apply State.Canon.ctxs) | (with_reducible apply State.Canon.cores) | (with_reducible apply State.Canon.regs) | (with_reducible apply State.Canon.regEmpty) | (with_reducible apply State.Canon.ab) | (with_reducible apply State.Canon.abEmpty) | (with_reducible apply State.Canon.ps) | (with_reducible apply State.Canon.wb) | (with_reducible apply State.Canon.tiles) | (with_reducible apply State.Canon.bytes) | (with_reducible apply State.Canon.tags) | (with_reducible apply State.Canon.upsets) | (with_reducible apply State.Canon.copyUpsets) | (with_reducible apply State.Canon.fwins) | (with_reducible apply State.Canon.dpit) | (with_reducible apply State.Canon.counts) | (with_reducible apply State.Canon.moved) | (with_reducible apply State.Canon.slecc) | (with_reducible apply State.Canon.stkBank) | (with_reducible apply State.Canon.stkCounts) | (with_reducible apply State.Canon.seqs) | (with_reducible apply State.Canon.quota) | (with_reducible apply State.Canon.dies) | (with_reducible refine State.Canon.foldl ?_ ?_) | (fail_if_no_progress (with_reducible apply State.Canon.other)) | (fail_if_no_progress (with_reducible apply State.Canon.sluices)) | (fail_if_no_progress (with_reducible apply State.Canon.tables)) | split | (intro _)))

theorem State.noRoom_canon {s : State} {r : Request} (hs : s.Canon) : (State.noRoom s r).Canon := by
  unfold State.noRoom
  try dsimp only
  (repeat' first | with_reducible assumption | (with_reducible refine State.Canon.foldl ?_ ?_) | (with_reducible apply State.sliceRecord_canon) | (with_reducible apply State.refuse_canon) | (fail_if_no_progress (with_reducible apply State.Canon.other)) | (fail_if_no_progress (with_reducible apply State.Canon.sluices)) | (fail_if_no_progress (with_reducible apply State.Canon.tables)) | split | (intro _))

theorem State.parkAt_canon {s : State} {dp : Nat} {r : Request} {v : W64} (hs : s.Canon) : (State.parkAt s dp r v).Canon := by
  unfold State.parkAt
  try dsimp only
  (repeat' first | with_reducible assumption | (with_reducible refine State.Canon.foldl ?_ ?_) | (with_reducible apply State.noRoom_canon) | (with_reducible apply State.enlist_canon) | (with_reducible apply State.countWithdrawn_canon) | (with_reducible apply State.withdrawAll_canon) | (with_reducible apply State.commit_canon) | (fail_if_no_progress (with_reducible apply State.Canon.other)) | (fail_if_no_progress (with_reducible apply State.Canon.sluices)) | (fail_if_no_progress (with_reducible apply State.Canon.tables)) | split | (intro _))

theorem State.grant_canon {s : State} {dp : Nat} {polder : Bool} {r : Request} {v : W64} {ok : Bool} (hs : s.Canon) : (State.grant s dp polder r v ok).Canon := by
  unfold State.grant
  try dsimp only
  (repeat' first | with_reducible assumption | (with_reducible refine State.Canon.foldl ?_ ?_) | (with_reducible apply State.withdrawNow_canon) | (with_reducible apply State.postIn_canon) | (refine State.newRid_canon (by assumption) ?_) | (with_reducible refine State.newRid_canon (Prod.eta _).symm ?_) | (fail_if_no_progress (with_reducible apply State.Canon.other)) | (fail_if_no_progress (with_reducible apply State.Canon.sluices)) | (fail_if_no_progress (with_reducible apply State.Canon.tables)) | split | (intro _))

theorem State.ringAccess_canon {s : State} {dp : Nat} {r : Request} {push : Bool} {polder : Bool} (hs : s.Canon) : (State.ringAccess s dp r push polder).Canon := by
  unfold State.ringAccess
  try dsimp only
  (repeat' first | with_reducible assumption | (with_reducible refine State.Canon.foldl ?_ ?_) | (with_reducible apply State.refuse_canon) | (with_reducible apply State.open_canon) | (with_reducible apply State.post_canon) | (fail_if_no_progress (with_reducible apply State.Canon.other)) | (fail_if_no_progress (with_reducible apply State.Canon.sluices)) | (fail_if_no_progress (with_reducible apply State.Canon.tables)) | split | (intro _))

theorem State.wakePass_canon' {fin : Option (Nat × Nat)} {ps : List Parked} {blocked : List ReqKind} {sig : Nat} {ch : Bool} {s : State} (hs : s.Canon) :
    (State.wakePass fin ps blocked sig ch s).1.Canon := by
  induction ps generalizing blocked sig ch s with
  | nil => exact hs
  | cons p ps ih =>
    rw [State.wakePass]
    dsimp only
    split
    · exact ih hs
    · generalize s.wakeOf fin sig p = w
      cases w <;> dsimp only <;> apply ih
      · exact hs
      · repeat' first | with_reducible assumption | (with_reducible apply State.commit_canon) | (with_reducible apply State.unpark_canon) | (with_reducible apply State.countAccess_canon) | (with_reducible apply State.grant_canon) | split
      · exact State.ringAccess_canon (State.unpark_canon hs)
      · repeat' first | with_reducible assumption | (with_reducible apply State.unpark_canon) | (with_reducible apply State.noticeRecord_canon) | split
theorem State.wakePass_canon {fin : Option (Nat × Nat)} {ps : List Parked} {blocked : List ReqKind} {sig : Nat} {ch : Bool} {s out : State} {ret : Bool}
    (e : State.wakePass fin ps blocked sig ch s = (out, ret)) (hs : s.Canon) : out.Canon := by
  have := State.wakePass_canon' (fin := fin) (ps := ps) (blocked := blocked) (sig := sig) (ch := ch) hs
  rw [e] at this
  exact this


theorem State.wake_canon {dp : Nat} {fin : Option (Nat × Nat)} {sig : Nat} {x0 : Nat} {x1 : State} (hx1 : x1.Canon) : (State.wake dp fin sig x0 x1).Canon := by
  induction x0 generalizing dp fin sig x1 with
  | zero => rw [State.wake] <;> (try dsimp only) <;> (repeat' first | with_reducible assumption | (with_reducible refine State.Canon.foldl ?_ ?_) | (refine State.wakePass_canon (by assumption) ?_) | (with_reducible refine State.wakePass_canon (Prod.eta _).symm ?_) | (fail_if_no_progress (with_reducible apply State.Canon.other)) | (fail_if_no_progress (with_reducible apply State.Canon.sluices)) | (fail_if_no_progress (with_reducible apply State.Canon.tables)) | split | (intro _) | (refine State.wakePass_canon (by assumption) ?_) | (with_reducible refine State.wakePass_canon (Prod.eta _).symm ?_) | split | (intro _))
  | succ _ ih => rw [State.wake] <;> (try dsimp only) <;> (repeat' first | with_reducible assumption | (with_reducible refine State.Canon.foldl ?_ ?_) | (refine State.wakePass_canon (by assumption) ?_) | (with_reducible refine State.wakePass_canon (Prod.eta _).symm ?_) | (fail_if_no_progress (with_reducible apply State.Canon.other)) | (fail_if_no_progress (with_reducible apply State.Canon.sluices)) | (fail_if_no_progress (with_reducible apply State.Canon.tables)) | split | (intro _) | (with_reducible apply ih) | (refine State.wakePass_canon (by assumption) ?_) | (with_reducible refine State.wakePass_canon (Prod.eta _).symm ?_) | split | (intro _))

theorem State.changed_canon {s : State} {dp : Nat} {fin : Option (Nat × Nat)} {sig : Nat} (hs : s.Canon) : (State.changed s dp fin sig).Canon := by
  unfold State.changed
  try dsimp only
  (repeat' first | with_reducible assumption | (with_reducible refine State.Canon.foldl ?_ ?_) | (with_reducible apply State.wake_canon) | (fail_if_no_progress (with_reducible apply State.Canon.other)) | (fail_if_no_progress (with_reducible apply State.Canon.sluices)) | (fail_if_no_progress (with_reducible apply State.Canon.tables)) | split | (intro _))

theorem State.clearTickets_canon {s : State} {dp : Nat} {old : W64} {new : W64} (hs : s.Canon) : (State.clearTickets s dp old new).Canon := by
  unfold State.clearTickets
  try dsimp only
  (repeat' first | with_reducible assumption | (with_reducible refine State.Canon.foldl ?_ ?_) | (with_reducible apply State.unpark_canon) | (fail_if_no_progress (with_reducible apply State.Canon.other)) | (fail_if_no_progress (with_reducible apply State.Canon.sluices)) | (fail_if_no_progress (with_reducible apply State.Canon.tables)) | split | (intro _))

theorem State.performAt_canon {s : State} {dp : Nat} {r : Request} {v : W64} {full : Bool} {reply : W64} {ok : Bool} (hs : s.Canon) : (State.performAt s dp r v full reply ok).Canon := by
  unfold State.performAt
  try dsimp only
  (repeat' first | with_reducible assumption | (with_reducible refine State.Canon.foldl ?_ ?_) | (with_reducible apply State.clearTickets_canon) | (with_reducible apply State.changed_canon) | (with_reducible apply State.answer_canon) | (with_reducible apply State.commit_canon) | (fail_if_no_progress (with_reducible apply State.Canon.other)) | (fail_if_no_progress (with_reducible apply State.Canon.sluices)) | (fail_if_no_progress (with_reducible apply State.Canon.tables)) | split | (intro _))

theorem State.carryOut_canon {s : State} {dp : Nat} {r : Request} (hs : s.Canon) : (State.carryOut s dp r).Canon := by
  unfold State.carryOut
  try dsimp only
  (repeat' first | with_reducible assumption | (with_reducible refine State.Canon.foldl ?_ ?_) | (with_reducible apply State.performAt_canon) | (with_reducible apply State.changed_canon) | (with_reducible apply State.ringAccess_canon) | (with_reducible apply State.parkAt_canon) | (with_reducible apply State.refuse_canon) | (with_reducible apply State.perform_canon) | (fail_if_no_progress (with_reducible apply State.Canon.other)) | (fail_if_no_progress (with_reducible apply State.Canon.sluices)) | (fail_if_no_progress (with_reducible apply State.Canon.tables)) | split | (intro _))

theorem State.memberGone_canon {s : State} {dp : Nat} {r : Request} {phys : Nat} {core : Nat} (hs : s.Canon) : (State.memberGone s dp r phys core).Canon := by
  unfold State.memberGone
  try dsimp only
  (repeat' first | with_reducible assumption | (with_reducible refine State.Canon.foldl ?_ ?_) | (with_reducible apply State.carryOut_canon) | (with_reducible apply State.enlist_canon) | (with_reducible apply State.withdraw_canon) | (fail_if_no_progress (with_reducible apply State.Canon.other)) | (fail_if_no_progress (with_reducible apply State.Canon.sluices)) | (fail_if_no_progress (with_reducible apply State.Canon.tables)) | split | (intro _))

theorem State.serve_canon {s : State} {dp : Nat} {r : Request} (hs : s.Canon) : (State.serve s dp r).Canon := by
  unfold State.serve
  try dsimp only
  (repeat' first | with_reducible assumption | (with_reducible refine State.Canon.foldl ?_ ?_) | (with_reducible apply State.memberGone_canon) | (with_reducible apply State.carryOut_canon) | (with_reducible apply State.refuse_canon) | (with_reducible apply State.open_canon) | (with_reducible apply State.post_canon) | (fail_if_no_progress (with_reducible apply State.Canon.other)) | (fail_if_no_progress (with_reducible apply State.Canon.sluices)) | (fail_if_no_progress (with_reducible apply State.Canon.tables)) | split | (intro _))

theorem State.serveJoin_canon {s : State} {r : Request} {key : Nat} (hs : s.Canon) : (State.serveJoin s r key).Canon := by
  unfold State.serveJoin
  try dsimp only
  (repeat' first | with_reducible assumption | (with_reducible refine State.Canon.foldl ?_ ?_) | (with_reducible apply State.refuse_canon) | (with_reducible apply State.answer_canon) | (with_reducible apply State.updDie_canon) | (fail_if_no_progress (with_reducible apply State.Canon.other)) | (fail_if_no_progress (with_reducible apply State.Canon.sluices)) | (fail_if_no_progress (with_reducible apply State.Canon.tables)) | split | (intro _))
  all_goals (constructor <;> (try dsimp only) <;> (repeat' first | with_reducible assumption | (with_reducible apply spSet_wfBy) | (with_reducible apply spSet_wf) | (with_reducible apply spSetList_wf) | (with_reducible apply spFill_wf) | (with_reducible apply spWf_map_filter) | (with_reducible apply spWf_filter) | (with_reducible apply State.Canon.ctxs) | (with_reducible apply State.Canon.cores) | (with_reducible apply State.Canon.regs) | (with_reducible apply State.Canon.regEmpty) | (with_reducible apply State.Canon.ab) | (with_reducible apply State.Canon.abEmpty) | (with_reducible apply State.Canon.ps) | (with_reducible apply State.Canon.wb) | (with_reducible apply State.Canon.tiles) | (with_reducible apply State.Canon.bytes) | (with_reducible apply State.Canon.tags) | (with_reducible apply State.Canon.upsets) | (with_reducible apply State.Canon.copyUpsets) | (with_reducible apply State.Canon.fwins) | (with_reducible apply State.Canon.dpit) | (with_reducible apply State.Canon.counts) | (with_reducible apply State.Canon.moved) | (with_reducible apply State.Canon.slecc) | (with_reducible apply State.Canon.stkBank) | (with_reducible apply State.Canon.stkCounts) | (with_reducible apply State.Canon.seqs) | (with_reducible apply State.Canon.quota) | (with_reducible apply State.Canon.dies) | (with_reducible refine State.Canon.foldl ?_ ?_) | (with_reducible apply State.refuse_canon) | (with_reducible apply State.answer_canon) | (with_reducible apply State.updDie_canon) | (fail_if_no_progress (with_reducible apply State.Canon.other)) | (fail_if_no_progress (with_reducible apply State.Canon.sluices)) | (fail_if_no_progress (with_reducible apply State.Canon.tables)) | split | (intro _)))

theorem State.sluiceStep_canon {s : State} {r : Request} (hs : s.Canon) : OutCanon (State.sluiceStep s r) := by
  unfold State.sluiceStep
  try dsimp only
  (repeat' first | with_reducible assumption | (with_reducible apply OutCanon.next) | (with_reducible exact OutCanon.fault) | (with_reducible refine State.Canon.foldl ?_ ?_) | (with_reducible apply State.serve_canon) | (with_reducible apply atHome_canon) | (fail_if_no_progress (with_reducible apply State.Canon.other)) | (fail_if_no_progress (with_reducible apply State.Canon.sluices)) | (fail_if_no_progress (with_reducible apply State.Canon.tables)) | split | (intro _))

theorem execSluiceLdFe_canon {r : Request} {s : State} (hs : s.Canon) : OutCanon (execSluiceLdFe r s) := by
  unfold execSluiceLdFe
  try dsimp only
  (repeat' first | with_reducible assumption | (with_reducible apply OutCanon.next) | (with_reducible exact OutCanon.fault) | (with_reducible refine State.Canon.foldl ?_ ?_) | (with_reducible apply State.sluiceStep_canon) | (fail_if_no_progress (with_reducible apply State.Canon.other)) | (fail_if_no_progress (with_reducible apply State.Canon.sluices)) | (fail_if_no_progress (with_reducible apply State.Canon.tables)) | split | (intro _))

theorem execSluiceStEf_canon {r : Request} {s : State} (hs : s.Canon) : OutCanon (execSluiceStEf r s) := by
  unfold execSluiceStEf
  try dsimp only
  (repeat' first | with_reducible assumption | (with_reducible apply OutCanon.next) | (with_reducible exact OutCanon.fault) | (with_reducible refine State.Canon.foldl ?_ ?_) | (with_reducible apply State.sluiceStep_canon) | (fail_if_no_progress (with_reducible apply State.Canon.other)) | (fail_if_no_progress (with_reducible apply State.Canon.sluices)) | (fail_if_no_progress (with_reducible apply State.Canon.tables)) | split | (intro _))

theorem execSluiceCtrAdd_canon {r : Request} {s : State} (hs : s.Canon) : OutCanon (execSluiceCtrAdd r s) := by
  unfold execSluiceCtrAdd
  try dsimp only
  (repeat' first | with_reducible assumption | (with_reducible apply OutCanon.next) | (with_reducible exact OutCanon.fault) | (with_reducible refine State.Canon.foldl ?_ ?_) | (with_reducible apply State.sluiceStep_canon) | (with_reducible apply State.serveJoin_canon) | (with_reducible apply State.next_canon) | (fail_if_no_progress (with_reducible apply State.Canon.other)) | (fail_if_no_progress (with_reducible apply State.Canon.sluices)) | (fail_if_no_progress (with_reducible apply State.Canon.tables)) | split | (intro _))

theorem execSluiceCtrTake_canon {r : Request} {s : State} (hs : s.Canon) : OutCanon (execSluiceCtrTake r s) := by
  unfold execSluiceCtrTake
  try dsimp only
  (repeat' first | with_reducible assumption | (with_reducible apply OutCanon.next) | (with_reducible exact OutCanon.fault) | (with_reducible refine State.Canon.foldl ?_ ?_) | (with_reducible apply State.sluiceStep_canon) | (fail_if_no_progress (with_reducible apply State.Canon.other)) | (fail_if_no_progress (with_reducible apply State.Canon.sluices)) | (fail_if_no_progress (with_reducible apply State.Canon.tables)) | split | (intro _))

theorem execSluiceCtrWait_canon {r : Request} {s : State} (hs : s.Canon) : OutCanon (execSluiceCtrWait r s) := by
  unfold execSluiceCtrWait
  try dsimp only
  (repeat' first | with_reducible assumption | (with_reducible apply OutCanon.next) | (with_reducible exact OutCanon.fault) | (with_reducible refine State.Canon.foldl ?_ ?_) | (with_reducible apply State.sluiceStep_canon) | (fail_if_no_progress (with_reducible apply State.Canon.other)) | (fail_if_no_progress (with_reducible apply State.Canon.sluices)) | (fail_if_no_progress (with_reducible apply State.Canon.tables)) | split | (intro _))

theorem execSluiceBarArrive_canon {r : Request} {s : State} (hs : s.Canon) : OutCanon (execSluiceBarArrive r s) := by
  unfold execSluiceBarArrive
  try dsimp only
  (repeat' first | with_reducible assumption | (with_reducible apply OutCanon.next) | (with_reducible exact OutCanon.fault) | (with_reducible refine State.Canon.foldl ?_ ?_) | (with_reducible apply State.sluiceStep_canon) | (fail_if_no_progress (with_reducible apply State.Canon.other)) | (fail_if_no_progress (with_reducible apply State.Canon.sluices)) | (fail_if_no_progress (with_reducible apply State.Canon.tables)) | split | (intro _))

theorem execSluiceBarSync_canon {r : Request} {s : State} (hs : s.Canon) : OutCanon (execSluiceBarSync r s) := by
  unfold execSluiceBarSync
  try dsimp only
  (repeat' first | with_reducible assumption | (with_reducible apply OutCanon.next) | (with_reducible exact OutCanon.fault) | (with_reducible refine State.Canon.foldl ?_ ?_) | (with_reducible apply State.sluiceStep_canon) | (fail_if_no_progress (with_reducible apply State.Canon.other)) | (fail_if_no_progress (with_reducible apply State.Canon.sluices)) | (fail_if_no_progress (with_reducible apply State.Canon.tables)) | split | (intro _))

theorem execSluiceBarWait_canon {r : Request} {s : State} (hs : s.Canon) : OutCanon (execSluiceBarWait r s) := by
  unfold execSluiceBarWait
  try dsimp only
  (repeat' first | with_reducible assumption | (with_reducible apply OutCanon.next) | (with_reducible exact OutCanon.fault) | (with_reducible refine State.Canon.foldl ?_ ?_) | (with_reducible apply State.sluiceStep_canon) | (fail_if_no_progress (with_reducible apply State.Canon.other)) | (fail_if_no_progress (with_reducible apply State.Canon.sluices)) | (fail_if_no_progress (with_reducible apply State.Canon.tables)) | split | (intro _))

theorem execSluiceBarJoin_canon {r : Request} {s : State} (hs : s.Canon) : OutCanon (execSluiceBarJoin r s) := by
  unfold execSluiceBarJoin
  try dsimp only
  (repeat' first | with_reducible assumption | (with_reducible apply OutCanon.next) | (with_reducible exact OutCanon.fault) | (with_reducible refine State.Canon.foldl ?_ ?_) | (with_reducible apply State.sluiceStep_canon) | (fail_if_no_progress (with_reducible apply State.Canon.other)) | (fail_if_no_progress (with_reducible apply State.Canon.sluices)) | (fail_if_no_progress (with_reducible apply State.Canon.tables)) | split | (intro _))

theorem execSluiceBarWdraw_canon {r : Request} {s : State} (hs : s.Canon) : OutCanon (execSluiceBarWdraw r s) := by
  unfold execSluiceBarWdraw
  try dsimp only
  (repeat' first | with_reducible assumption | (with_reducible apply OutCanon.next) | (with_reducible exact OutCanon.fault) | (with_reducible refine State.Canon.foldl ?_ ?_) | (with_reducible apply State.sluiceStep_canon) | (with_reducible apply State.memberGone_canon) | (fail_if_no_progress (with_reducible apply State.Canon.other)) | (fail_if_no_progress (with_reducible apply State.Canon.sluices)) | (fail_if_no_progress (with_reducible apply State.Canon.tables)) | split | (intro _))

theorem execSluiceLkAcq_canon {r : Request} {s : State} (hs : s.Canon) : OutCanon (execSluiceLkAcq r s) := by
  unfold execSluiceLkAcq
  try dsimp only
  (repeat' first | with_reducible assumption | (with_reducible apply OutCanon.next) | (with_reducible exact OutCanon.fault) | (with_reducible refine State.Canon.foldl ?_ ?_) | (with_reducible apply State.sluiceStep_canon) | (fail_if_no_progress (with_reducible apply State.Canon.other)) | (fail_if_no_progress (with_reducible apply State.Canon.sluices)) | (fail_if_no_progress (with_reducible apply State.Canon.tables)) | split | (intro _))

theorem execSluiceLkTry_canon {r : Request} {s : State} (hs : s.Canon) : OutCanon (execSluiceLkTry r s) := by
  unfold execSluiceLkTry
  try dsimp only
  (repeat' first | with_reducible assumption | (with_reducible apply OutCanon.next) | (with_reducible exact OutCanon.fault) | (with_reducible refine State.Canon.foldl ?_ ?_) | (with_reducible apply State.sluiceStep_canon) | (fail_if_no_progress (with_reducible apply State.Canon.other)) | (fail_if_no_progress (with_reducible apply State.Canon.sluices)) | (fail_if_no_progress (with_reducible apply State.Canon.tables)) | split | (intro _))

theorem execSluiceLkRel_canon {r : Request} {s : State} (hs : s.Canon) : OutCanon (execSluiceLkRel r s) := by
  unfold execSluiceLkRel
  try dsimp only
  (repeat' first | with_reducible assumption | (with_reducible apply OutCanon.next) | (with_reducible exact OutCanon.fault) | (with_reducible refine State.Canon.foldl ?_ ?_) | (with_reducible apply State.sluiceStep_canon) | (fail_if_no_progress (with_reducible apply State.Canon.other)) | (fail_if_no_progress (with_reducible apply State.Canon.sluices)) | (fail_if_no_progress (with_reducible apply State.Canon.tables)) | split | (intro _))

theorem execSluiceQpush_canon {r : Request} {s : State} (hs : s.Canon) : OutCanon (execSluiceQpush r s) := by
  unfold execSluiceQpush
  try dsimp only
  (repeat' first | with_reducible assumption | (with_reducible apply OutCanon.next) | (with_reducible exact OutCanon.fault) | (with_reducible refine State.Canon.foldl ?_ ?_) | (with_reducible apply State.sluiceStep_canon) | (fail_if_no_progress (with_reducible apply State.Canon.other)) | (fail_if_no_progress (with_reducible apply State.Canon.sluices)) | (fail_if_no_progress (with_reducible apply State.Canon.tables)) | split | (intro _))

theorem execSluiceQpop_canon {r : Request} {s : State} (hs : s.Canon) : OutCanon (execSluiceQpop r s) := by
  unfold execSluiceQpop
  try dsimp only
  (repeat' first | with_reducible assumption | (with_reducible apply OutCanon.next) | (with_reducible exact OutCanon.fault) | (with_reducible refine State.Canon.foldl ?_ ?_) | (with_reducible apply State.sluiceStep_canon) | (fail_if_no_progress (with_reducible apply State.Canon.other)) | (fail_if_no_progress (with_reducible apply State.Canon.sluices)) | (fail_if_no_progress (with_reducible apply State.Canon.tables)) | split | (intro _))

theorem execSluiceQpushT_canon {r : Request} {s : State} (hs : s.Canon) : OutCanon (execSluiceQpushT r s) := by
  unfold execSluiceQpushT
  try dsimp only
  (repeat' first | with_reducible assumption | (with_reducible apply OutCanon.next) | (with_reducible exact OutCanon.fault) | (with_reducible refine State.Canon.foldl ?_ ?_) | (with_reducible apply State.sluiceStep_canon) | (fail_if_no_progress (with_reducible apply State.Canon.other)) | (fail_if_no_progress (with_reducible apply State.Canon.sluices)) | (fail_if_no_progress (with_reducible apply State.Canon.tables)) | split | (intro _))

theorem execSluiceQpopT_canon {r : Request} {s : State} (hs : s.Canon) : OutCanon (execSluiceQpopT r s) := by
  unfold execSluiceQpopT
  try dsimp only
  (repeat' first | with_reducible assumption | (with_reducible apply OutCanon.next) | (with_reducible exact OutCanon.fault) | (with_reducible refine State.Canon.foldl ?_ ?_) | (with_reducible apply State.sluiceStep_canon) | (fail_if_no_progress (with_reducible apply State.Canon.other)) | (fail_if_no_progress (with_reducible apply State.Canon.sluices)) | (fail_if_no_progress (with_reducible apply State.Canon.tables)) | split | (intro _))

theorem execSluiceCndWait_canon {r : Request} {s : State} (hs : s.Canon) : OutCanon (execSluiceCndWait r s) := by
  unfold execSluiceCndWait
  try dsimp only
  (repeat' first | with_reducible assumption | (with_reducible apply OutCanon.next) | (with_reducible exact OutCanon.fault) | (with_reducible refine State.Canon.foldl ?_ ?_) | (with_reducible apply State.sluiceStep_canon) | (fail_if_no_progress (with_reducible apply State.Canon.other)) | (fail_if_no_progress (with_reducible apply State.Canon.sluices)) | (fail_if_no_progress (with_reducible apply State.Canon.tables)) | split | (intro _))

theorem execSluiceCndSignal_canon {r : Request} {s : State} (hs : s.Canon) : OutCanon (execSluiceCndSignal r s) := by
  unfold execSluiceCndSignal
  try dsimp only
  (repeat' first | with_reducible assumption | (with_reducible apply OutCanon.next) | (with_reducible exact OutCanon.fault) | (with_reducible refine State.Canon.foldl ?_ ?_) | (with_reducible apply State.sluiceStep_canon) | (fail_if_no_progress (with_reducible apply State.Canon.other)) | (fail_if_no_progress (with_reducible apply State.Canon.sluices)) | (fail_if_no_progress (with_reducible apply State.Canon.tables)) | split | (intro _))

theorem execSluiceCndBcast_canon {r : Request} {s : State} (hs : s.Canon) : OutCanon (execSluiceCndBcast r s) := by
  unfold execSluiceCndBcast
  try dsimp only
  (repeat' first | with_reducible assumption | (with_reducible apply OutCanon.next) | (with_reducible exact OutCanon.fault) | (with_reducible refine State.Canon.foldl ?_ ?_) | (with_reducible apply State.sluiceStep_canon) | (fail_if_no_progress (with_reducible apply State.Canon.other)) | (fail_if_no_progress (with_reducible apply State.Canon.sluices)) | (fail_if_no_progress (with_reducible apply State.Canon.tables)) | split | (intro _))

theorem execSluiceMkobj_canon {r : Request} {s : State} (hs : s.Canon) : OutCanon (execSluiceMkobj r s) := by
  unfold execSluiceMkobj
  try dsimp only
  (repeat' first | with_reducible assumption | (with_reducible apply OutCanon.next) | (with_reducible exact OutCanon.fault) | (with_reducible refine State.Canon.foldl ?_ ?_) | (with_reducible apply atHome_canon) | (with_reducible apply State.refuse_canon) | (with_reducible apply State.answer_canon) | (with_reducible apply State.commit_canon) | (with_reducible apply State.open_canon) | (fail_if_no_progress (with_reducible apply State.Canon.other)) | (fail_if_no_progress (with_reducible apply State.Canon.sluices)) | (fail_if_no_progress (with_reducible apply State.Canon.tables)) | split | (intro _))

theorem execSluiceRmobj_canon {r : Request} {s : State} (hs : s.Canon) : OutCanon (execSluiceRmobj r s) := by
  unfold execSluiceRmobj
  try dsimp only
  (repeat' first | with_reducible assumption | (with_reducible apply OutCanon.next) | (with_reducible exact OutCanon.fault) | (with_reducible refine State.Canon.foldl ?_ ?_) | (with_reducible apply atHome_canon) | (with_reducible apply State.refuse_canon) | (with_reducible apply State.answer_canon) | (with_reducible apply State.unpark_canon) | (with_reducible apply State.commit_canon) | (with_reducible apply State.open_canon) | (fail_if_no_progress (with_reducible apply State.Canon.other)) | (fail_if_no_progress (with_reducible apply State.Canon.sluices)) | (fail_if_no_progress (with_reducible apply State.Canon.tables)) | split | (intro _))

theorem execSluiceForward_canon {r : Request} {s : State} (hs : s.Canon) : OutCanon (execSluiceForward r s) := by
  unfold execSluiceForward
  try dsimp only
  (repeat' first | with_reducible assumption | (with_reducible apply OutCanon.next) | (with_reducible exact OutCanon.fault) | (with_reducible refine State.Canon.foldl ?_ ?_) | (with_reducible apply State.serve_canon) | (with_reducible apply atHome_canon) | (with_reducible apply State.refuse_canon) | (with_reducible apply State.post_canon) | (fail_if_no_progress (with_reducible apply State.Canon.other)) | (fail_if_no_progress (with_reducible apply State.Canon.sluices)) | (fail_if_no_progress (with_reducible apply State.Canon.tables)) | split | (intro _))

theorem State.ringDone_canon {s : State} {dp : Nat} (hs : s.Canon) : (State.ringDone s dp).Canon := by
  unfold State.ringDone
  try dsimp only
  (repeat' first | with_reducible assumption | (with_reducible refine State.Canon.foldl ?_ ?_) | (with_reducible apply State.changed_canon) | (fail_if_no_progress (with_reducible apply State.Canon.other)) | (fail_if_no_progress (with_reducible apply State.Canon.sluices)) | (fail_if_no_progress (with_reducible apply State.Canon.tables)) | split | (intro _))

theorem State.ringPerform_canon {s : State} {ra : RingAccess} {rdp : Nat} (hs : s.Canon) : (State.ringPerform s ra rdp).Canon := by
  unfold State.ringPerform
  try dsimp only
  (repeat' first | with_reducible assumption | (with_reducible refine State.Canon.foldl ?_ ?_) | (with_reducible apply State.ringDone_canon) | (with_reducible apply State.grant_canon) | (with_reducible apply State.refuse_canon) | (with_reducible apply State.commit_canon) | (with_reducible apply State.open_canon) | (fail_if_no_progress (with_reducible apply State.Canon.other)) | (fail_if_no_progress (with_reducible apply State.Canon.sluices)) | (fail_if_no_progress (with_reducible apply State.Canon.tables)) | split | (intro _))
  all_goals (constructor <;> (try dsimp only) <;> (repeat' first | with_reducible assumption | (with_reducible apply spSet_wfBy) | (with_reducible apply spSet_wf) | (with_reducible apply spSetList_wf) | (with_reducible apply spFill_wf) | (with_reducible apply spWf_map_filter) | (with_reducible apply spWf_filter) | (with_reducible apply State.Canon.ctxs) | (with_reducible apply State.Canon.cores) | (with_reducible apply State.Canon.regs) | (with_reducible apply State.Canon.regEmpty) | (with_reducible apply State.Canon.ab) | (with_reducible apply State.Canon.abEmpty) | (with_reducible apply State.Canon.ps) | (with_reducible apply State.Canon.wb) | (with_reducible apply State.Canon.tiles) | (with_reducible apply State.Canon.bytes) | (with_reducible apply State.Canon.tags) | (with_reducible apply State.Canon.upsets) | (with_reducible apply State.Canon.copyUpsets) | (with_reducible apply State.Canon.fwins) | (with_reducible apply State.Canon.dpit) | (with_reducible apply State.Canon.counts) | (with_reducible apply State.Canon.moved) | (with_reducible apply State.Canon.slecc) | (with_reducible apply State.Canon.stkBank) | (with_reducible apply State.Canon.stkCounts) | (with_reducible apply State.Canon.seqs) | (with_reducible apply State.Canon.quota) | (with_reducible apply State.Canon.dies) | (with_reducible refine State.Canon.foldl ?_ ?_) | (with_reducible apply State.ringDone_canon) | (with_reducible apply State.grant_canon) | (with_reducible apply State.refuse_canon) | (with_reducible apply State.commit_canon) | (with_reducible apply State.open_canon) | (fail_if_no_progress (with_reducible apply State.Canon.other)) | (fail_if_no_progress (with_reducible apply State.Canon.sluices)) | (fail_if_no_progress (with_reducible apply State.Canon.tables)) | split | (intro _)))

theorem execRingWordAccess_canon {ra : RingAccess} {s : State} (hs : s.Canon) : OutCanon (execRingWordAccess ra s) := by
  unfold execRingWordAccess
  try dsimp only
  (repeat' first | with_reducible assumption | (with_reducible apply OutCanon.next) | (with_reducible exact OutCanon.fault) | (with_reducible refine State.Canon.foldl ?_ ?_) | (with_reducible apply State.ringPerform_canon) | (with_reducible apply State.ringDone_canon) | (with_reducible apply atHome_canon) | (with_reducible apply State.refuse_canon) | (refine State.lookup_canon (by assumption) ?_) | (with_reducible refine State.lookup_canon (Prod.eta _).symm ?_) | (fail_if_no_progress (with_reducible apply State.Canon.other)) | (fail_if_no_progress (with_reducible apply State.Canon.sluices)) | (fail_if_no_progress (with_reducible apply State.Canon.tables)) | split | (intro _))

theorem execPolderEntryRead_canon {m : Reply} {s : State} (hs : s.Canon) : OutCanon (execPolderEntryRead m s) := by
  unfold execPolderEntryRead
  try dsimp only
  (repeat' first | with_reducible assumption | (with_reducible apply OutCanon.next) | (with_reducible exact OutCanon.fault) | (with_reducible refine State.Canon.foldl ?_ ?_) | (with_reducible apply State.next_canon) | (with_reducible apply State.post_canon) | (fail_if_no_progress (with_reducible apply State.Canon.other)) | (fail_if_no_progress (with_reducible apply State.Canon.sluices)) | (fail_if_no_progress (with_reducible apply State.Canon.tables)) | split | (intro _))

theorem State.polderEntryMoves_canon {s : State} {sl : Nat} {tenant : Nat} (hs : s.Canon) : (State.polderEntryMoves s sl tenant).Canon := by
  unfold State.polderEntryMoves
  try dsimp only
  (repeat' first | with_reducible assumption | (with_reducible refine State.Canon.foldl ?_ ?_) | (fail_if_no_progress (with_reducible apply State.Canon.other)) | (fail_if_no_progress (with_reducible apply State.Canon.sluices)) | (fail_if_no_progress (with_reducible apply State.Canon.tables)) | split | (intro _))

theorem execPolderMove_canon {s : State} (hs : s.Canon) : OutCanon (execPolderMove s) := by
  unfold execPolderMove
  try dsimp only
  (repeat' first | with_reducible assumption | (with_reducible apply OutCanon.next) | (with_reducible exact OutCanon.fault) | (with_reducible refine State.Canon.foldl ?_ ?_) | (with_reducible apply State.polderEntryMoves_canon) | (with_reducible apply State.next_canon) | (fail_if_no_progress (with_reducible apply State.Canon.other)) | (fail_if_no_progress (with_reducible apply State.Canon.sluices)) | (fail_if_no_progress (with_reducible apply State.Canon.tables)) | split | (intro _))

theorem execCompletionNotice_canon {n : Notice} {s : State} (hs : s.Canon) : OutCanon (execCompletionNotice n s) := by
  unfold execCompletionNotice
  try dsimp only
  (repeat' first | with_reducible assumption | (with_reducible apply OutCanon.next) | (with_reducible exact OutCanon.fault) | (with_reducible refine State.Canon.foldl ?_ ?_) | (with_reducible apply State.performAt_canon) | (with_reducible apply State.enlist_canon) | (with_reducible apply atHome_canon) | (with_reducible apply State.noticeRecord_canon) | (with_reducible apply State.perform_canon) | (with_reducible apply State.open_canon) | (fail_if_no_progress (with_reducible apply State.Canon.other)) | (fail_if_no_progress (with_reducible apply State.Canon.sluices)) | (fail_if_no_progress (with_reducible apply State.Canon.tables)) | split | (intro _))

theorem execBoundBarrierArrival_canon {n : Notice} {s : State} (hs : s.Canon) : OutCanon (execBoundBarrierArrival n s) := by
  unfold execBoundBarrierArrival
  try dsimp only
  (repeat' first | with_reducible assumption | (with_reducible apply OutCanon.next) | (with_reducible exact OutCanon.fault) | (with_reducible refine State.Canon.foldl ?_ ?_) | (with_reducible apply State.performAt_canon) | (with_reducible apply atHome_canon) | (with_reducible apply State.noticeRecord_canon) | (with_reducible apply State.perform_canon) | (with_reducible apply State.open_canon) | (fail_if_no_progress (with_reducible apply State.Canon.other)) | (fail_if_no_progress (with_reducible apply State.Canon.sluices)) | (fail_if_no_progress (with_reducible apply State.Canon.tables)) | split | (intro _))

end Sys2Proof.Machine
end

