-- ==== Sys2Proof/Laws/CanonReplies.lean ====
section
/-!
SUPPORT. Every function of Machine/Replies.lean keeps the canonical form of the storages.
-/

namespace Sys2Proof.Machine

open Sys2Proof

set_option linter.unusedTactic false
set_option linter.unreachableTactic false
set_option linter.unusedSimpArgs false
set_option linter.unnecessarySeqFocus false

theorem State.toContext_canon {s : State} {gid : Nat} {gen : Nat} {item : Item} {f : State → State} (hs : s.Canon) (hf : ∀ a0, a0.Canon → (f a0).Canon) : (State.toContext s gid gen item f).Canon := by
  unfold State.toContext
  try dsimp only
  (repeat' first | with_reducible assumption | (with_reducible refine State.Canon.foldl ?_ ?_) | (with_reducible apply hf) | (with_reducible apply State.post_canon) | (with_reducible apply State.updCore_canon) | (fail_if_no_progress (with_reducible apply State.Canon.other)) | (fail_if_no_progress (with_reducible apply State.Canon.sluices)) | (fail_if_no_progress (with_reducible apply State.Canon.tables)) | split | (intro _))

theorem State.stationDone_canon {s : State} {src : Origin} {rid : Nat} (hs : s.Canon) : (State.stationDone s src rid).Canon := by
  unfold State.stationDone
  try dsimp only
  (repeat' first | with_reducible assumption | (with_reducible refine State.Canon.foldl ?_ ?_) | (with_reducible apply State.settle_canon) | (fail_if_no_progress (with_reducible apply State.Canon.other)) | (fail_if_no_progress (with_reducible apply State.Canon.sluices)) | (fail_if_no_progress (with_reducible apply State.Canon.tables)) | split | (intro _))

theorem State.rejoin_canon {s : State} {g : Nat} {awaits : Park → Bool} {next : W64} (hs : s.Canon) : (State.rejoin s g awaits next).Canon := by
  unfold State.rejoin
  try dsimp only
  (repeat' first | with_reducible assumption | (with_reducible refine State.Canon.foldl ?_ ?_) | (with_reducible apply State.next_canon) | (with_reducible apply State.updCore_canon) | (with_reducible apply State.setCtx_canon) | (fail_if_no_progress (with_reducible apply State.Canon.other)) | (fail_if_no_progress (with_reducible apply State.Canon.sluices)) | (fail_if_no_progress (with_reducible apply State.Canon.tables)) | split | (intro _))

theorem State.rejoinAnswer_canon {s : State} {g : Nat} (hs : s.Canon) : (State.rejoinAnswer s g).Canon := by
  unfold State.rejoinAnswer
  try dsimp only
  (repeat' first | with_reducible assumption | (with_reducible refine State.Canon.foldl ?_ ?_) | (with_reducible apply State.rejoin_canon) | (fail_if_no_progress (with_reducible apply State.Canon.other)) | (fail_if_no_progress (with_reducible apply State.Canon.sluices)) | (fail_if_no_progress (with_reducible apply State.Canon.tables)) | split | (intro _))

theorem State.fillReg_canon {s : State} {g : Nat} {d : Nat} {v : W64} (hs : s.Canon) : (State.fillReg s g d v).Canon := by
  unfold State.fillReg
  try dsimp only
  (repeat' first | with_reducible assumption | (with_reducible refine State.Canon.foldl ?_ ?_) | (with_reducible apply State.post_canon) | (with_reducible apply State.setEmpty_canon) | (with_reducible apply State.setPhys_canon) | (fail_if_no_progress (with_reducible apply State.Canon.other)) | (fail_if_no_progress (with_reducible apply State.Canon.sluices)) | (fail_if_no_progress (with_reducible apply State.Canon.tables)) | split | (intro _))

theorem State.awaitNow_canon {s : State} {g : Nat} {old : Nat} {rid : Nat} {own : Bool} (hs : s.Canon) : (State.awaitNow s g old rid own).Canon := by
  unfold State.awaitNow
  try dsimp only
  (repeat' first | with_reducible assumption | (with_reducible refine State.Canon.foldl ?_ ?_) | (with_reducible apply State.updCore_canon) | (with_reducible apply State.setCtx_canon) | (fail_if_no_progress (with_reducible apply State.Canon.other)) | (fail_if_no_progress (with_reducible apply State.Canon.sluices)) | (fail_if_no_progress (with_reducible apply State.Canon.tables)) | split | (intro _))

theorem State.blkStoreAt_canon {s : State} {g : Nat} {m : Reply} {d : Nat} {a : Nat} {b : Nat} (hs : s.Canon) : (State.blkStoreAt s g m d a b).Canon := by
  unfold State.blkStoreAt
  try dsimp only
  (repeat' first | with_reducible assumption | (with_reducible refine State.Canon.foldl ?_ ?_) | (with_reducible apply State.awaitNow_canon) | (with_reducible apply State.sendOut_canon) | (with_reducible apply State.next_canon) | (refine State.newRid_canon (by assumption) ?_) | (with_reducible refine State.newRid_canon (Prod.eta _).symm ?_) | (fail_if_no_progress (with_reducible apply State.Canon.other)) | (fail_if_no_progress (with_reducible apply State.Canon.sluices)) | (fail_if_no_progress (with_reducible apply State.Canon.tables)) | split | (intro _))

theorem State.blkStore_canon {s : State} {m : Reply} {d : Nat} {a : Nat} {b : Nat} (hs : s.Canon) : (State.blkStore s m d a b).Canon := by
  unfold State.blkStore
  try dsimp only
  (repeat' first | with_reducible assumption | (with_reducible refine State.Canon.foldl ?_ ?_) | (with_reducible apply State.blkStoreAt_canon) | (fail_if_no_progress (with_reducible apply State.Canon.other)) | (fail_if_no_progress (with_reducible apply State.Canon.sluices)) | (fail_if_no_progress (with_reducible apply State.Canon.tables)) | split | (intro _))

theorem State.blkNext_canon {s : State} {g : Nat} {d : Nat} {a : Nat} {b : Nat} (hs : s.Canon) : (State.blkNext s g d a b).Canon := by
  unfold State.blkNext
  try dsimp only
  (repeat' first | with_reducible assumption | (with_reducible refine State.Canon.foldl ?_ ?_) | (with_reducible apply State.setRegAt_canon) | (fail_if_no_progress (with_reducible apply State.Canon.other)) | (fail_if_no_progress (with_reducible apply State.Canon.sluices)) | (fail_if_no_progress (with_reducible apply State.Canon.tables)) | split | (intro _))

theorem State.joinLast_canon {s : State} {g : Nat} {rid : Nat} {own : Bool} {j : JoinRec} (hs : s.Canon) : (State.joinLast s g rid own j).Canon := by
  unfold State.joinLast
  try dsimp only
  (repeat' first | with_reducible assumption | (with_reducible refine State.Canon.foldl ?_ ?_) | (with_reducible apply State.rejoin_canon) | (with_reducible apply State.link_canon) | (with_reducible apply State.setRegAt_canon) | (with_reducible apply State.updCtx_canon) | (fail_if_no_progress (with_reducible apply State.Canon.other)) | (fail_if_no_progress (with_reducible apply State.Canon.sluices)) | (fail_if_no_progress (with_reducible apply State.Canon.tables)) | split | (intro _))

theorem State.joinTrap_canon {s : State} {g : Nat} {cause : Nat} {w0 : W64} (hs : s.Canon) : (State.joinTrap s g cause w0).Canon := by
  unfold State.joinTrap
  try dsimp only
  (repeat' first | with_reducible assumption | (with_reducible refine State.Canon.foldl ?_ ?_) | (with_reducible apply State.takeTrap_canon) | (with_reducible apply State.setCtx_canon) | (fail_if_no_progress (with_reducible apply State.Canon.other)) | (fail_if_no_progress (with_reducible apply State.Canon.sluices)) | (fail_if_no_progress (with_reducible apply State.Canon.tables)) | split | (intro _))

theorem State.joinOther_canon {s : State} {g : Nat} {rid : Nat} {own : Bool} {w0 : W64} (hs : s.Canon) : (State.joinOther s g rid own w0).Canon := by
  unfold State.joinOther
  try dsimp only
  (repeat' first | with_reducible assumption | (with_reducible refine State.Canon.foldl ?_ ?_) | (with_reducible apply State.joinTrap_canon) | (with_reducible apply State.post_canon) | (with_reducible apply State.setCtx_canon) | (fail_if_no_progress (with_reducible apply State.Canon.other)) | (fail_if_no_progress (with_reducible apply State.Canon.sluices)) | (fail_if_no_progress (with_reducible apply State.Canon.tables)) | split | (intro _))

theorem State.setJoin_canon {s : State} {key : Nat} {j : Option JoinRec} (hs : s.Canon) : (State.setJoin s key j).Canon := by
  unfold State.setJoin
  try dsimp only
  (repeat' first | with_reducible assumption | (with_reducible refine State.Canon.foldl ?_ ?_) | (with_reducible apply State.updDie_canon) | (fail_if_no_progress (with_reducible apply State.Canon.other)) | (fail_if_no_progress (with_reducible apply State.Canon.sluices)) | (fail_if_no_progress (with_reducible apply State.Canon.tables)) | split | (intro _))
  all_goals (constructor <;> (try dsimp only) <;> (repeat' first | with_reducible assumption | (with_reducible apply spSet_wfBy) | (with_reducible apply spSet_wf) | (with_reducible apply spSetList_wf) | (with_reducible apply spFill_wf) | (with_reducible apply spWf_map_filter) | (with_reducible apply spWf_filter) | (with_reducible apply State.Canon.ctxs) | (with_reducible apply State.Canon.cores) | (with_reducible apply State.Canon.regs) | (with_reducible apply State.Canon.regEmpty) | (with_reducible apply State.Canon.ab) | (with_reducible apply State.Canon.abEmpty) | (with_reducible apply State.Canon.ps) | (with_reducible apply State.Canon.wb) | (with_reducible apply State.Canon.tiles) | (with_reducible apply State.Canon.bytes) | (with_reducible apply State.Canon.tags) | (with_reducible apply State.Canon.upsets) | (with_reducible apply State.Canon.copyUpsets) | (with_reducible apply State.Canon.fwins) | (with_reducible apply State.Canon.dpit) | (with_reducible apply State.Canon.counts) | (with_reducible apply State.Canon.moved) | (with_reducible apply State.Canon.slecc) | (with_reducible apply State.Canon.stkBank) | (with_reducible apply State.Canon.stkCounts) | (with_reducible apply State.Canon.seqs) | (with_reducible apply State.Canon.quota) | (with_reducible apply State.Canon.dies) | (with_reducible refine State.Canon.foldl ?_ ?_) | (with_reducible apply State.updDie_canon) | (fail_if_no_progress (with_reducible apply State.Canon.other)) | (fail_if_no_progress (with_reducible apply State.Canon.sluices)) | (fail_if_no_progress (with_reducible apply State.Canon.tables)) | split | (intro _)))

theorem State.joinReply_canon {s : State} {m : Reply} {key : Nat} {w0 : W64} (hs : s.Canon) : (State.joinReply s m key w0).Canon := by
  unfold State.joinReply
  try dsimp only
  (repeat' first | with_reducible assumption | (with_reducible refine State.Canon.foldl ?_ ?_) | (with_reducible apply State.setJoin_canon) | (with_reducible apply State.joinOther_canon) | (with_reducible apply State.joinTrap_canon) | (with_reducible apply State.joinLast_canon) | (fail_if_no_progress (with_reducible apply State.Canon.other)) | (fail_if_no_progress (with_reducible apply State.Canon.sluices)) | (fail_if_no_progress (with_reducible apply State.Canon.tables)) | split | (intro _))

theorem State.triggerGranted_canon {s : State} {g : Nat} {op : Nat} (hs : s.Canon) : (State.triggerGranted s g op).Canon := by
  unfold State.triggerGranted
  try dsimp only
  (repeat' first | with_reducible assumption | (with_reducible refine State.Canon.foldl ?_ ?_) | (with_reducible apply State.updOp_canon) | (with_reducible apply State.post_canon) | (fail_if_no_progress (with_reducible apply State.Canon.other)) | (fail_if_no_progress (with_reducible apply State.Canon.sluices)) | (fail_if_no_progress (with_reducible apply State.Canon.tables)) | split | (intro _))

theorem State.fillAt_canon {s : State} {g : Nat} {m : Reply} (hs : s.Canon) : (State.fillAt s g m).Canon := by
  unfold State.fillAt
  try dsimp only
  (repeat' first | with_reducible assumption | (with_reducible refine State.Canon.foldl ?_ ?_) | (with_reducible apply State.triggerGranted_canon) | (with_reducible apply State.blkNext_canon) | (with_reducible apply State.blkStore_canon) | (with_reducible apply State.fillReg_canon) | (with_reducible apply State.rejoinAnswer_canon) | (with_reducible apply State.rejoin_canon) | (with_reducible apply State.link_canon) | (with_reducible apply State.next_canon) | (with_reducible apply State.orFlags_canon) | (with_reducible apply State.updCtx_canon) | (with_reducible apply State.setCtx_canon) | (fail_if_no_progress (with_reducible apply State.Canon.other)) | (fail_if_no_progress (with_reducible apply State.Canon.sluices)) | (fail_if_no_progress (with_reducible apply State.Canon.tables)) | split | (intro _))
  all_goals (constructor <;> (try dsimp only) <;> (repeat' first | with_reducible assumption | (with_reducible apply spSet_wfBy) | (with_reducible apply spSet_wf) | (with_reducible apply spSetList_wf) | (with_reducible apply spFill_wf) | (with_reducible apply spWf_map_filter) | (with_reducible apply spWf_filter) | (with_reducible apply State.Canon.ctxs) | (with_reducible apply State.Canon.cores) | (with_reducible apply State.Canon.regs) | (with_reducible apply State.Canon.regEmpty) | (with_reducible apply State.Canon.ab) | (with_reducible apply State.Canon.abEmpty) | (with_reducible apply State.Canon.ps) | (with_reducible apply State.Canon.wb) | (with_reducible apply State.Canon.tiles) | (with_reducible apply State.Canon.bytes) | (with_reducible apply State.Canon.tags) | (with_reducible apply State.Canon.upsets) | (with_reducible apply State.Canon.copyUpsets) | (with_reducible apply State.Canon.fwins) | (with_reducible apply State.Canon.dpit) | (with_reducible apply State.Canon.counts) | (with_reducible apply State.Canon.moved) | (with_reducible apply State.Canon.slecc) | (with_reducible apply State.Canon.stkBank) | (with_reducible apply State.Canon.stkCounts) | (with_reducible apply State.Canon.seqs) | (with_reducible apply State.Canon.quota) | (with_reducible apply State.Canon.dies) | (with_reducible refine State.Canon.foldl ?_ ?_) | (with_reducible apply State.triggerGranted_canon) | (with_reducible apply State.blkNext_canon) | (with_reducible apply State.blkStore_canon) | (with_reducible apply State.fillReg_canon) | (with_reducible apply State.rejoinAnswer_canon) | (with_reducible apply State.rejoin_canon) | (with_reducible apply State.link_canon) | (with_reducible apply State.next_canon) | (with_reducible apply State.orFlags_canon) | (with_reducible apply State.updCtx_canon) | (with_reducible apply State.setCtx_canon) | (fail_if_no_progress (with_reducible apply State.Canon.other)) | (fail_if_no_progress (with_reducible apply State.Canon.sluices)) | (fail_if_no_progress (with_reducible apply State.Canon.tables)) | split | (intro _)))

theorem State.depositAt_canon {s : State} {g : Nat} {m : Reply} (hs : s.Canon) : (State.depositAt s g m).Canon := by
  unfold State.depositAt
  try dsimp only
  (repeat' first | with_reducible assumption | (with_reducible refine State.Canon.foldl ?_ ?_) | (with_reducible apply State.fillAt_canon) | (fail_if_no_progress (with_reducible apply State.Canon.other)) | (fail_if_no_progress (with_reducible apply State.Canon.sluices)) | (fail_if_no_progress (with_reducible apply State.Canon.tables)) | split | (intro _))

theorem State.bindAnswer_canon {s : State} {op : Nat} {m : Reply} (hs : s.Canon) : (State.bindAnswer s op m).Canon := by
  unfold State.bindAnswer
  try dsimp only
  (repeat' first | with_reducible assumption | (with_reducible refine State.Canon.foldl ?_ ?_) | (with_reducible apply State.bind_canon) | (fail_if_no_progress (with_reducible apply State.Canon.other)) | (fail_if_no_progress (with_reducible apply State.Canon.sluices)) | (fail_if_no_progress (with_reducible apply State.Canon.tables)) | split | (intro _))

theorem State.takeReply_canon {s : State} {m : Reply} (hs : s.Canon) : (State.takeReply s m).Canon := by
  unfold State.takeReply
  try dsimp only
  (repeat' first | with_reducible assumption | (with_reducible refine State.Canon.foldl ?_ ?_) | (with_reducible apply State.depositAt_canon) | (with_reducible apply State.joinReply_canon) | (with_reducible apply State.blkStore_canon) | (with_reducible apply State.postIn_canon) | (fail_if_no_progress (with_reducible apply State.Canon.other)) | (fail_if_no_progress (with_reducible apply State.Canon.sluices)) | (fail_if_no_progress (with_reducible apply State.Canon.tables)) | split | (intro _))

theorem State.writeEnds_canon {s : State} {x0 : Use} (hs : s.Canon) : (State.writeEnds s x0).Canon := by
  unfold State.writeEnds
  try dsimp only
  (repeat' first | with_reducible assumption | (with_reducible refine State.Canon.foldl ?_ ?_) | (with_reducible apply State.finishOp_canon) | (with_reducible apply State.drainEnd_canon) | (fail_if_no_progress (with_reducible apply State.Canon.other)) | (fail_if_no_progress (with_reducible apply State.Canon.sluices)) | (fail_if_no_progress (with_reducible apply State.Canon.tables)) | split | (intro _))

theorem State.takeDeposit_canon {s : State} {gid : Nat} {m : Reply} (hs : s.Canon) : (State.takeDeposit s gid m).Canon := by
  unfold State.takeDeposit
  try dsimp only
  (repeat' first | with_reducible assumption | (with_reducible refine State.Canon.foldl ?_ ?_) | (with_reducible apply State.writeEnds_canon) | (with_reducible apply State.takeReply_canon) | (with_reducible apply State.toContext_canon) | (fail_if_no_progress (with_reducible apply State.Canon.other)) | (fail_if_no_progress (with_reducible apply State.Canon.sluices)) | (fail_if_no_progress (with_reducible apply State.Canon.tables)) | split | (intro _))

theorem execDeposit_canon {m : Reply} {s : State} (hs : s.Canon) : OutCanon (execDeposit m s) := by
  unfold execDeposit
  try dsimp only
  (repeat' first | with_reducible assumption | (with_reducible apply OutCanon.next) | (with_reducible exact OutCanon.fault) | (with_reducible refine State.Canon.foldl ?_ ?_) | (with_reducible apply State.takeDeposit_canon) | (with_reducible apply State.bindAnswer_canon) | (with_reducible apply State.stationDone_canon) | (with_reducible apply State.next_canon) | (with_reducible apply State.emit_canon) | (with_reducible apply State.post_canon) | (fail_if_no_progress (with_reducible apply State.Canon.other)) | (fail_if_no_progress (with_reducible apply State.Canon.sluices)) | (fail_if_no_progress (with_reducible apply State.Canon.tables)) | split | (intro _))

theorem State.takeAck_canon {s : State} {gid : Nat} {r : Request} (hs : s.Canon) : (State.takeAck s gid r).Canon := by
  unfold State.takeAck
  try dsimp only
  (repeat' first | with_reducible assumption | (with_reducible refine State.Canon.foldl ?_ ?_) | (with_reducible apply State.rejoin_canon) | (with_reducible apply State.next_canon) | (fail_if_no_progress (with_reducible apply State.Canon.other)) | (fail_if_no_progress (with_reducible apply State.Canon.sluices)) | (fail_if_no_progress (with_reducible apply State.Canon.tables)) | split | (intro _))

theorem State.pageAnswered_canon {s : State} {o : EngOp} {n : Nat} {va : W64} (hs : s.Canon) : (State.pageAnswered s o n va).Canon := by
  unfold State.pageAnswered
  try dsimp only
  (repeat' first | with_reducible assumption | (with_reducible refine State.Canon.foldl ?_ ?_) | (with_reducible apply State.id_canon) | (with_reducible apply State.updOp_canon) | (with_reducible apply State.post_canon) | (fail_if_no_progress (with_reducible apply State.Canon.other)) | (fail_if_no_progress (with_reducible apply State.Canon.sluices)) | (fail_if_no_progress (with_reducible apply State.Canon.tables)) | split | (intro _))

theorem execStoreAcknowledgement_canon {r : Request} {s : State} (hs : s.Canon) : OutCanon (execStoreAcknowledgement r s) := by
  unfold execStoreAcknowledgement
  try dsimp only
  (repeat' first | with_reducible assumption | (with_reducible apply OutCanon.next) | (with_reducible exact OutCanon.fault) | (with_reducible refine State.Canon.foldl ?_ ?_) | (with_reducible apply State.id_canon) | (with_reducible apply State.pageAnswered_canon) | (with_reducible apply State.takeAck_canon) | (with_reducible apply State.stationDone_canon) | (with_reducible apply State.toContext_canon) | (with_reducible apply State.finishOp_canon) | (with_reducible apply State.endOp_canon) | (with_reducible apply State.next_canon) | (with_reducible apply State.updOp_canon) | (with_reducible apply State.emit_canon) | (fail_if_no_progress (with_reducible apply State.Canon.other)) | (fail_if_no_progress (with_reducible apply State.Canon.sluices)) | (fail_if_no_progress (with_reducible apply State.Canon.tables)) | split | (intro _))

theorem State.refusedAt_canon {s : State} {g : Nat} {r : Request} {own : Bool} {cause : Nat} {addr : W64} (hs : s.Canon) : (State.refusedAt s g r own cause addr).Canon := by
  unfold State.refusedAt
  try dsimp only
  (repeat' first | with_reducible assumption | (with_reducible refine State.Canon.foldl ?_ ?_) | (with_reducible apply State.takeTrap_canon) | (with_reducible apply State.post_canon) | (with_reducible apply State.setEmpty_canon) | (with_reducible apply State.setCtx_canon) | (fail_if_no_progress (with_reducible apply State.Canon.other)) | (fail_if_no_progress (with_reducible apply State.Canon.sluices)) | (fail_if_no_progress (with_reducible apply State.Canon.tables)) | split | (intro _))

theorem State.takeFault_canon {s : State} {gid : Nat} {gen : Nat} {r : Request} {cause : Nat} {addr : W64} (hs : s.Canon) : (State.takeFault s gid gen r cause addr).Canon := by
  unfold State.takeFault
  try dsimp only
  (repeat' first | with_reducible assumption | (with_reducible refine State.Canon.foldl ?_ ?_) | (with_reducible apply State.refusedAt_canon) | (with_reducible apply State.refuseTrigger_canon) | (fail_if_no_progress (with_reducible apply State.Canon.other)) | (fail_if_no_progress (with_reducible apply State.Canon.sluices)) | (fail_if_no_progress (with_reducible apply State.Canon.tables)) | split | (intro _))

theorem execFaultReply_canon {r : Request} {cause : Nat} {addr : W64} {s : State} (hs : s.Canon) : OutCanon (execFaultReply r cause addr s) := by
  unfold execFaultReply
  try dsimp only
  (repeat' first | with_reducible assumption | (with_reducible apply OutCanon.next) | (with_reducible exact OutCanon.fault) | (with_reducible refine State.Canon.foldl ?_ ?_) | (with_reducible apply State.id_canon) | (with_reducible apply State.takeFault_canon) | (with_reducible apply State.stationDone_canon) | (with_reducible apply State.toContext_canon) | (with_reducible apply State.failOp_canon) | (with_reducible apply State.askAgain_canon) | (with_reducible apply State.noticeRecord_canon) | (with_reducible apply State.bind_canon) | (with_reducible apply State.next_canon) | (with_reducible apply State.emit_canon) | (fail_if_no_progress (with_reducible apply State.Canon.other)) | (fail_if_no_progress (with_reducible apply State.Canon.sluices)) | (fail_if_no_progress (with_reducible apply State.Canon.tables)) | split | (intro _))

theorem State.lateAt_canon {s : State} {g : Nat} {r : Request} (hs : s.Canon) : (State.lateAt s g r).Canon := by
  unfold State.lateAt
  try dsimp only
  (repeat' first | with_reducible assumption | (with_reducible refine State.Canon.foldl ?_ ?_) | (with_reducible apply State.takeTrap_canon) | (with_reducible apply State.setCtx_canon) | (fail_if_no_progress (with_reducible apply State.Canon.other)) | (fail_if_no_progress (with_reducible apply State.Canon.sluices)) | (fail_if_no_progress (with_reducible apply State.Canon.tables)) | split | (intro _))

theorem State.takeLate_canon {s : State} {gid : Nat} {r : Request} (hs : s.Canon) : (State.takeLate s gid r).Canon := by
  unfold State.takeLate
  try dsimp only
  (repeat' first | with_reducible assumption | (with_reducible refine State.Canon.foldl ?_ ?_) | (with_reducible apply State.lateAt_canon) | (fail_if_no_progress (with_reducible apply State.Canon.other)) | (fail_if_no_progress (with_reducible apply State.Canon.sluices)) | (fail_if_no_progress (with_reducible apply State.Canon.tables)) | split | (intro _))

theorem execLateFaultNotice_canon {r : Request} {s : State} (hs : s.Canon) : OutCanon (execLateFaultNotice r s) := by
  unfold execLateFaultNotice
  try dsimp only
  (repeat' first | with_reducible assumption | (with_reducible apply OutCanon.next) | (with_reducible exact OutCanon.fault) | (with_reducible refine State.Canon.foldl ?_ ?_) | (with_reducible apply State.takeLate_canon) | (with_reducible apply State.toContext_canon) | (with_reducible apply State.next_canon) | (fail_if_no_progress (with_reducible apply State.Canon.other)) | (fail_if_no_progress (with_reducible apply State.Canon.sluices)) | (fail_if_no_progress (with_reducible apply State.Canon.tables)) | split | (intro _))

end Sys2Proof.Machine
end

