-- ==== Sys2Proof/Laws/CanonMatrix.lean ====
section
/-!
SUPPORT. Every function of Machine/Matrix.lean keeps the canonical form of the storages.
-/

namespace Sys2Proof.Machine

open Sys2Proof

set_option linter.unusedTactic false
set_option linter.unreachableTactic false
set_option linter.unusedSimpArgs false
set_option linter.unnecessarySeqFocus false

theorem execMzero_canon {f : MatFmt} {s : State} (hs : s.Canon) : OutCanon (execMzero f s) := by
  unfold execMzero
  try dsimp only
  (repeat' first | with_reducible assumption | (with_reducible apply OutCanon.next) | (with_reducible exact OutCanon.fault) | (with_reducible refine State.Canon.foldl ?_ ?_) | (with_reducible apply State.id_canon) | (with_reducible apply State.handOver_canon) | (with_reducible apply State.perform_canon) | (with_reducible apply State.next_canon) | (refine State.newOp_canon (by assumption) ?_) | (with_reducible refine State.newOp_canon (Prod.eta _).symm ?_) | (fail_if_no_progress (with_reducible apply State.Canon.other)) | (fail_if_no_progress (with_reducible apply State.Canon.sluices)) | (fail_if_no_progress (with_reducible apply State.Canon.tables)) | split | (intro _))

theorem State.mmaIssue_canon {s : State} {f : MatFmt} {skip : List (BitVec 7)} (hs : s.Canon) : OutCanon (State.mmaIssue s f skip) := by
  unfold State.mmaIssue
  try dsimp only
  (repeat' first | with_reducible assumption | (with_reducible apply OutCanon.next) | (with_reducible exact OutCanon.fault) | (with_reducible refine State.Canon.foldl ?_ ?_) | (with_reducible apply State.id_canon) | (with_reducible apply State.handOver_canon) | (with_reducible apply State.perform_canon) | (with_reducible apply State.parkOn_canon) | (with_reducible apply State.next_canon) | (refine State.newOp_canon (by assumption) ?_) | (with_reducible refine State.newOp_canon (Prod.eta _).symm ?_) | (fail_if_no_progress (with_reducible apply State.Canon.other)) | (fail_if_no_progress (with_reducible apply State.Canon.sluices)) | (fail_if_no_progress (with_reducible apply State.Canon.tables)) | split | (intro _))

theorem execMma_canon {f : MatFmt} {s : State} (hs : s.Canon) : OutCanon (execMma f s) := by
  unfold execMma
  try dsimp only
  (repeat' first | with_reducible assumption | (with_reducible apply OutCanon.next) | (with_reducible exact OutCanon.fault) | (with_reducible refine State.Canon.foldl ?_ ?_) | (with_reducible apply State.mmaIssue_canon) | (fail_if_no_progress (with_reducible apply State.Canon.other)) | (fail_if_no_progress (with_reducible apply State.Canon.sluices)) | (fail_if_no_progress (with_reducible apply State.Canon.tables)) | split | (intro _))

theorem execMmaS_canon {f : MatFmt} {s : State} (hs : s.Canon) : OutCanon (execMmaS f s) := by
  unfold execMmaS
  try dsimp only
  (repeat' first | with_reducible assumption | (with_reducible apply OutCanon.next) | (with_reducible exact OutCanon.fault) | (with_reducible refine State.Canon.foldl ?_ ?_) | (with_reducible apply State.mmaIssue_canon) | (fail_if_no_progress (with_reducible apply State.Canon.other)) | (fail_if_no_progress (with_reducible apply State.Canon.sluices)) | (fail_if_no_progress (with_reducible apply State.Canon.tables)) | split | (intro _))

theorem execMdrain_canon {f : MatFmt} {s : State} (hs : s.Canon) : OutCanon (execMdrain f s) := by
  unfold execMdrain
  try dsimp only
  (repeat' first | with_reducible assumption | (with_reducible apply OutCanon.next) | (with_reducible exact OutCanon.fault) | (with_reducible refine State.Canon.foldl ?_ ?_) | (with_reducible apply State.issueOp_canon) | (with_reducible apply State.perform_canon) | (with_reducible apply State.next_canon) | (fail_if_no_progress (with_reducible apply State.Canon.other)) | (fail_if_no_progress (with_reducible apply State.Canon.sluices)) | (fail_if_no_progress (with_reducible apply State.Canon.tables)) | split | (intro _))

theorem execMatrixMzeroPerform_canon {op : Nat} {s : State} (hs : s.Canon) : OutCanon (execMatrixMzeroPerform op s) := by
  unfold execMatrixMzeroPerform
  try dsimp only
  (repeat' first | with_reducible assumption | (with_reducible apply OutCanon.next) | (with_reducible exact OutCanon.fault) | (with_reducible refine State.Canon.foldl ?_ ?_) | (with_reducible apply State.takeOp_canon) | (with_reducible apply State.endOp_canon) | (with_reducible apply State.next_canon) | (with_reducible apply State.setTile_canon) | (fail_if_no_progress (with_reducible apply State.Canon.other)) | (fail_if_no_progress (with_reducible apply State.Canon.sluices)) | (fail_if_no_progress (with_reducible apply State.Canon.tables)) | split | (intro _))

theorem execMatrixMmaPerform_canon {op : Nat} {s : State} (hs : s.Canon) : OutCanon (execMatrixMmaPerform op s) := by
  unfold execMatrixMmaPerform
  try dsimp only
  (repeat' first | with_reducible assumption | (with_reducible apply OutCanon.next) | (with_reducible exact OutCanon.fault) | (with_reducible refine State.Canon.foldl ?_ ?_) | (with_reducible apply State.rejoin_canon) | (with_reducible apply State.takeOp_canon) | (with_reducible apply State.endOp_canon) | (with_reducible apply State.next_canon) | (with_reducible apply State.setTile_canon) | (fail_if_no_progress (with_reducible apply State.Canon.other)) | (fail_if_no_progress (with_reducible apply State.Canon.sluices)) | (fail_if_no_progress (with_reducible apply State.Canon.tables)) | split | (intro _))

theorem execMatrixDrainPerform_canon {op : Nat} {s : State} (hs : s.Canon) : OutCanon (execMatrixDrainPerform op s) := by
  unfold execMatrixDrainPerform
  try dsimp only
  (repeat' first | with_reducible assumption | (with_reducible apply OutCanon.next) | (with_reducible exact OutCanon.fault) | (with_reducible refine State.Canon.foldl ?_ ?_) | (with_reducible apply State.id_canon) | (with_reducible apply State.takeOp_canon) | (with_reducible apply State.deliverAb_canon) | (with_reducible apply State.next_canon) | (with_reducible apply State.post_canon) | (with_reducible apply State.setTile_canon) | (fail_if_no_progress (with_reducible apply State.Canon.other)) | (fail_if_no_progress (with_reducible apply State.Canon.sluices)) | (fail_if_no_progress (with_reducible apply State.Canon.tables)) | split | (intro _))

end Sys2Proof.Machine
end

