-- ==== Sys2Proof/Laws/CanonFetch.lean ====
section
/-!
SUPPORT. Every function of Machine/Fetch.lean keeps the canonical form of the storages.
-/

namespace Sys2Proof.Machine

open Sys2Proof

set_option linter.unusedTactic false
set_option linter.unreachableTactic false
set_option linter.unusedSimpArgs false
set_option linter.unnecessarySeqFocus false

theorem State.fillIcache_canon {s : State} {gid : Nat} {dp : Nat} (hs : s.Canon) : (State.fillIcache s gid dp).Canon := by
  unfold State.fillIcache
  try dsimp only
  (repeat' first | with_reducible assumption | (with_reducible refine State.Canon.foldl ?_ ?_) | (fail_if_no_progress (with_reducible apply State.Canon.other)) | (fail_if_no_progress (with_reducible apply State.Canon.sluices)) | (fail_if_no_progress (with_reducible apply State.Canon.tables)) | split | (intro _))

theorem State.fetchWord_canon {s : State} {gid : Nat} {pc : W64} (hs : s.Canon) : (State.fetchWord s gid pc).Canon := by
  unfold State.fetchWord
  try dsimp only
  (repeat' first | with_reducible assumption | (with_reducible refine State.Canon.foldl ?_ ?_) | (with_reducible apply State.fillIcache_canon) | (refine State.look_canon (by assumption) ?_) | (with_reducible refine State.look_canon (Prod.eta _).symm ?_) | (fail_if_no_progress (with_reducible apply State.Canon.other)) | (fail_if_no_progress (with_reducible apply State.Canon.sluices)) | (fail_if_no_progress (with_reducible apply State.Canon.tables)) | split | (intro _))

theorem State.openCode_canon {s : State} {gid : Nat} {pc : W64} (hs : s.Canon) : (State.openCode s gid pc).Canon := by
  unfold State.openCode
  try dsimp only
  (repeat' first | with_reducible assumption | (with_reducible refine State.Canon.foldl ?_ ?_) | (with_reducible apply State.fetchWord_canon) | (fail_if_no_progress (with_reducible apply State.Canon.other)) | (fail_if_no_progress (with_reducible apply State.Canon.sluices)) | (fail_if_no_progress (with_reducible apply State.Canon.tables)) | split | (intro _))

theorem State.withSlot_canon {s : State} {sl : Slot} (hs : s.Canon) : (State.withSlot s sl).Canon := by
  unfold State.withSlot
  try dsimp only
  (repeat' first | with_reducible assumption | (with_reducible refine State.Canon.foldl ?_ ?_) | (fail_if_no_progress (with_reducible apply State.Canon.other)) | (fail_if_no_progress (with_reducible apply State.Canon.sluices)) | (fail_if_no_progress (with_reducible apply State.Canon.tables)) | split | (intro _))

end Sys2Proof.Machine
end

