-- ==== Sys2Proof/Laws/CanonRepeat.lean ====
section
/-!
SUPPORT. Every function of Machine/Repeat.lean keeps the canonical form of the storages.
-/

namespace Sys2Proof.Machine

open Sys2Proof

set_option linter.unusedTactic false
set_option linter.unreachableTactic false
set_option linter.unusedSimpArgs false
set_option linter.unnecessarySeqFocus false

theorem State.pastBody_canon {s : State} {ws : List W32} (hs : s.Canon) : (State.pastBody s ws).Canon := by
  unfold State.pastBody
  try dsimp only
  (repeat' first | with_reducible assumption | (with_reducible refine State.Canon.foldl ?_ ?_) | (with_reducible apply State.updCur_canon) | (fail_if_no_progress (with_reducible apply State.Canon.other)) | (fail_if_no_progress (with_reducible apply State.Canon.sluices)) | (fail_if_no_progress (with_reducible apply State.Canon.tables)) | split | (intro _))

theorem State.repDone_canon {s : State} {d : BitVec 7} {n : W64} {ws : List W32} (hs : s.Canon) : (State.repDone s d n ws).Canon := by
  unfold State.repDone
  try dsimp only
  (repeat' first | with_reducible assumption | (with_reducible refine State.Canon.foldl ?_ ?_) | (with_reducible apply State.pastBody_canon) | (with_reducible apply State.writeReg_canon) | (fail_if_no_progress (with_reducible apply State.Canon.other)) | (fail_if_no_progress (with_reducible apply State.Canon.sluices)) | (fail_if_no_progress (with_reducible apply State.Canon.tables)) | split | (intro _))

/-- The instructions that REP may repeat keep the form. -/
theorem repeatable_canon {i : Instr} {run : State → Result} (e : repeatable i = some run) {s : State} (hs : s.Canon) : OutCanon (run s) := by
  unfold repeatable at e
  split at e
  · cases e; exact execVadd_canon hs
  · cases e; exact execVsub_canon hs
  · cases e; exact execVmul_canon hs
  · cases e; exact execVfma_canon hs
  · cases e; exact execVdiv_canon hs
  · cases e; exact execVsqrt_canon hs
  · cases e; exact execVmin_canon hs
  · cases e; exact execVmax_canon hs
  · cases e; exact execVabs_canon hs
  · cases e; exact execVneg_canon hs
  · cases e; exact execVrcp_canon hs
  · cases e; exact execVrsq_canon hs
  · cases e; exact execVexp2_canon hs
  · cases e; exact execVlog2_canon hs
  · cases e; exact execVadds_canon hs
  · cases e; exact execVsubs_canon hs
  · cases e; exact execVand_canon hs
  · cases e; exact execVor_canon hs
  · cases e; exact execVxor_canon hs
  · cases e; exact execVshl_canon hs
  · cases e; exact execVshr_canon hs
  · cases e; exact execVsar_canon hs
  · cases e; exact execVcmpeq_canon hs
  · cases e; exact execVcmplt_canon hs
  · cases e; exact execVcmple_canon hs
  · cases e; exact execVsel_canon hs
  · cases e; exact execVshuf_canon hs
  · cases e; exact execVbcast_canon hs
  · cases e; exact execVmov_canon hs
  · cases e; exact execVcvt_canon hs
  · cases e; exact execVqmx_canon hs
  · cases e; exact execVqb4_canon hs
  · cases e; exact execVredsum_canon hs
  · cases e; exact execVredmin_canon hs
  · cases e; exact execVredmax_canon hs
  · cases e; exact execVredmSum_canon hs
  · cases e; exact execVredmMean_canon hs
  · cases e; exact execLdLocal_canon hs
  · cases e; exact execLdsLocal_canon hs
  · cases e; exact execStLocal_canon hs
  · exact nomatch e

theorem State.repeatOnce_canon {s : State} {d : BitVec 7} {ws : List W32} {body : Option (State → Result)}
    (hb : ∀ run, body = some run → ∀ s, s.Canon → OutCanon (run s)) (hs : s.Canon) : OutCanon (s.repeatOnce d ws body) := by
  unfold State.repeatOnce
  dsimp only
  split
  · exact OutCanon.next (State.pastBody_canon hs)
  · have h := State.withSlot_canon (sl := { s.sched.slot with len := 0, w0 := ws.headD 0, words := s.sched.slot.words.take 1 ++ ws, again := s.sched.slot.again && decide (s.sched.slot.words.drop 1 ≠ []) }) hs
    split
    · exact OutCanon.next (State.raise_canon h)
    · split
      · exact OutCanon.next (State.repDone_canon (hb _ rfl _ h _ ‹_›))
      · exact OutCanon.fault
      · exact OutCanon.refused


theorem execRep_canon {f : RegFmt} {s : State} (hs : s.Canon) : OutCanon (execRep f s) := by
  unfold execRep
  split
  · exact OutCanon.next (State.raise_canon hs)
  · dsimp only
    split
    · refine State.repeatOnce_canon (fun run e s hs => ?_) hs
      split at e
      · exact repeatable_canon e hs
      · exact nomatch e
    · exact OutCanon.next hs
    · exact OutCanon.next (State.raise_canon hs)
    · exact OutCanon.next (State.parkOn_canon (State.withSlot_canon hs))


end Sys2Proof.Machine
end

