-- ==== Sys2Proof/Laws/CanonSymbolic.lean ====
section
/-!
SUPPORT. The specialiser's evaluation keeps the canonical form of the storages: it changes the state only as it reads the static window.
-/

namespace Sys2Proof.Machine

open Sys2Proof

@[simp] theorem Symbolic.endPath_s (e : Symbolic) : e.endPath.s = e.s := rfl
@[simp] theorem Symbolic.add_s (e : Symbolic) (r : Residual) : (e.add r).s = e.s := rfl

@[simp] theorem Symbolic.prepare_s (e : Symbolic) (st : SymState) : (e.prepare st).s = e.s := by
  unfold Symbolic.prepare
  generalize materialise _ _ _ = rs
  induction rs generalizing e with
  | nil => rfl
  | cons r rs ih => exact (ih (e.add r)).trans rfl

@[simp] theorem Symbolic.emit_s (e : Symbolic) (st : SymState) (ws : List W32) (t : Option Nat) (n : Nat) : (e.emit st ws t n).s = e.s := by
  simp [Symbolic.emit]

@[simp] theorem Symbolic.continue_s (e : Symbolic) (st : SymState) : (e.continue_ st).s = e.s := by simp [Symbolic.continue_]

theorem Symbolic.resolve_s {e e' : Symbolic} {st st' : SymState} {t fall : W64} {taken : Bool} (h : e.resolve st t fall taken = .ok (e', st')) :
    e'.s = e.s := by
  unfold Symbolic.resolve at h
  split at h
  · exact nomatch h
  · dsimp only at h
    split at h
    · exact nomatch h
    · cases h
      split <;> rfl

theorem Symbolic.branch_s {e : Symbolic} {st : SymState} {ws : List W32} {width : Nat} {t : W64} {outcome : Option Bool} {rs : List Nat}
    {idOf : SymState → Symbolic → Nat} {on : Onward} (h : e.branch st ws width t outcome rs idOf = .ok on) : on.e.s = e.s := by
  unfold Symbolic.branch at h
  dsimp only at h
  split at h
  · cases h; simp
  · split at h
    · exact nomatch h
    · have hr := Symbolic.resolve_s ‹_›
      cases h
      dsimp only
      split <;> simp [hr]

theorem Walk.idOf_s (w : Walk) (st : SymState) : (w.idOf st).2.e.s = w.e.s := by
  unfold Walk.idOf
  split <;> rfl

theorem Walk.branch_s {w : Walk} {st : SymState} {ws : List W32} {width : Nat} {t : W64} {outcome : Option Bool} {rs : List Nat}
    {r : Walk × Option SymState × Option SymState} (h : w.branch st ws width t outcome rs = .ok r) : r.1.e.s = w.e.s := by
  unfold Walk.branch at h
  split at h
  · exact nomatch h
  · dsimp only at h
    split at h
    · cases h
      exact Symbolic.branch_s ‹_›
    · split at h
      · exact nomatch h
      · cases h
        exact (Symbolic.branch_s ‹_›).trans (Walk.idOf_s ..)

theorem Walk.pass_s (w : Walk) (st : SymState) (ws : List W32) (i : Option Instr) : (w.pass st ws i).1.e.s = w.e.s := by
  simp [Walk.pass]

theorem Walk.rep_s (w : Walk) (k : Kernel) (st : SymState) (ws : List W32) (i : Instr) : (w.rep k st ws i).1.e.s = w.e.s := by
  have h := Walk.pass_s w st ws (some i)
  unfold Walk.rep
  generalize w.pass st ws (some i) = p at h ⊢
  obtain ⟨w', n, l⟩ := p
  split
  · exact Symbolic.continue_s ..
  · dsimp only at h ⊢
    split
    · exact h
    · exact h

/-- The state that a window read leaves. -/
def WindowRead.Canon : WindowRead → Prop
  | .value e _ | .stop e => e.s.Canon
  | .full => True

theorem WindowRead.Canon.ite {c : Prop} [Decidable c] {x y : WindowRead} (hx : x.Canon) (hy : y.Canon) : (if c then x else y).Canon := by
  split <;> assumption

theorem Symbolic.window_canon {e : Symbolic} {k : Kernel} {tenant : Nat} {a : W64} {n : Nat} {sg : Bool} (he : e.s.Canon) :
    (e.window k tenant a n sg).Canon := by
  unfold Symbolic.window
  refine WindowRead.Canon.ite he ?_
  generalize hq : e.s.xlat e.die tenant a false = q
  obtain ⟨s', _ | dp⟩ := q
  · exact State.xlat_canon hq he
  · have ho := State.open_canon (dp := wordAt dp) (State.xlat_canon hq he)
    exact WindowRead.Canon.ite ho (WindowRead.Canon.ite ho (WindowRead.Canon.ite trivial ho))

theorem Walk.load_canon {w : Walk} {k : Kernel} {tenant : Nat} {st : SymState} {ws : List W32} {i : Instr} {f : GmFmt} {signed : Bool}
    {r : Walk × Option SymState × Option SymState} (h : w.load k tenant st ws i f signed = .ok r) (hs : w.e.s.Canon) : r.1.e.s.Canon := by
  unfold Walk.load at h
  dsimp only at h
  split at h
  · cases h
    rw [Walk.pass_s]; exact hs
  · split at h
    · cases h
      rw [Walk.pass_s]; exact hs
    · split at h
      · cases h
        rw [Walk.pass_s]; exact hs
      · split at h
        · cases h
          rw [Walk.pass_s]; exact hs
        · rename_i v _ _
          have hw := Symbolic.window_canon (k := k) (tenant := tenant) (a := v + f.lit.getD 0) (n := sizeOf2 f.sz) (sg := signed) hs
          generalize w.e.window _ _ _ _ _ = q at h hw
          cases q with
          | full => exact nomatch h
          | stop e =>
            cases h
            rw [Walk.pass_s]; exact hw
          | value e x => cases h; exact hw

theorem Walk.step_canon {w : Walk} {k : Kernel} {tenant : Nat} {st : SymState} {ws : List W32} {r : Walk × Option SymState × Option SymState}
    (h : w.step k tenant st ws = .ok r) (hs : w.e.s.Canon) : r.1.e.s.Canon := by
  unfold Walk.step at h
  dsimp only at h
  split at h
  · cases h
    rw [Walk.pass_s]; exact hs
  · split at h
    · cases h
      rw [Symbolic.continue_s]; exact hs
    · split at h
      · split at h
        · exact nomatch h
        · cases h
          rw [Symbolic.resolve_s ‹_›]; exact hs
      · rw [Walk.branch_s h]; exact hs
    · split at h
      · split at h
        · split at h
          · exact nomatch h
          · cases h
            rw [Symbolic.resolve_s ‹_›]; exact hs
        · rw [Walk.branch_s h]; exact hs
      · rw [Walk.branch_s h]; exact hs
    · rw [Walk.branch_s h]; exact hs
    · cases h
      rw [Walk.rep_s]; exact hs
    · exact Walk.load_canon h hs
    · exact Walk.load_canon h hs
    · split at h
      · cases h
        rw [Walk.pass_s]; exact hs
      · split at h
        · cases h; exact hs
        · cases h
          rw [Walk.pass_s]; exact hs
        · cases h
          rw [Walk.pass_s]; exact hs

theorem Walk.run_canon {k : Kernel} {tenant n : Nat} {st : Option SymState} {rest : List SymState} {w : Walk} (hs : w.e.s.Canon) :
    (Walk.run k tenant n st rest w).2.e.s.Canon ∧ ∀ w', (Walk.run k tenant n st rest w).1 = .ok w' → w'.e.s.Canon := by
  induction n generalizing st rest w with
  | zero => exact ⟨hs, fun _ e => nomatch e⟩
  | succ n ih =>
    cases st with
    | none =>
      cases rest with
      | nil =>
        rw [Walk.run]
        refine ⟨hs, fun w' e => ?_⟩
        dsimp only at e
        split at e
        · exact nomatch e
        · cases e; exact hs
      | cons st rest =>
        rw [Walk.run]
        split <;> exact ih hs
    | some st =>
      rw [Walk.run]
      split
      · exact ⟨hs, fun _ e => nomatch e⟩
      · split
        · refine ih ?_
          exact (congrArg State.Canon (Walk.idOf_s w st)).mpr hs
        · dsimp only
          split
          · refine ih ?_
            dsimp only
            rw [Symbolic.endPath_s, Symbolic.continue_s]
            exact hs
          · split
            · exact ⟨hs, fun _ e => nomatch e⟩
            · split
              · exact ⟨hs, fun _ e => nomatch e⟩
              · refine ?_
                rename_i e
                have h := Walk.step_canon e hs
                refine ih ?_
                split
                · exact h
                · exact h

/-- The state that an evaluation leaves. -/
theorem Kernel.evaluate_canon {k : Kernel} {die tenant : Nat} {seeds : List W64} {s : State} (hs : s.Canon) :
    (k.evaluate die tenant seeds s).s.Canon := by
  unfold Kernel.evaluate
  dsimp only
  have h := Walk.run_canon (k := k) (tenant := tenant) (n := 5000000) (st := some (SymState.entry k seeds)) (rest := [])
    (w := { e := { s, die, pieces := [], bytes := 0, labels := [], reads := [], taken := [], steps := 0, kept := 0 }, targets := [] }) hs
  generalize Walk.run _ _ _ _ _ _ = p at h ⊢
  split
  · exact h.1
  · have := h.2 _ ‹_›
    split <;> exact this

end Sys2Proof.Machine
end

