-- ==== Sys2Proof/Laws/CanonControl.lean ====
section
/-!
SUPPORT. Every function of Machine/Control.lean keeps the canonical form of the storages.
-/

namespace Sys2Proof.Machine

open Sys2Proof

set_option linter.unusedTactic false
set_option linter.unreachableTactic false
set_option linter.unusedSimpArgs false
set_option linter.unnecessarySeqFocus false

theorem execBr_canon {f : BrFmt} {s : State} (hs : s.Canon) : OutCanon (execBr f s) := by
  unfold execBr
  try dsimp only
  (repeat' first | with_reducible assumption | (with_reducible apply OutCanon.next) | (with_reducible exact OutCanon.fault) | (with_reducible refine State.Canon.foldl ?_ ?_) | (with_reducible apply State.jump_canon) | (with_reducible apply State.perform_canon) | (with_reducible apply State.next_canon) | (fail_if_no_progress (with_reducible apply State.Canon.other)) | (fail_if_no_progress (with_reducible apply State.Canon.sluices)) | (fail_if_no_progress (with_reducible apply State.Canon.tables)) | split | (intro _))

theorem execCall_canon {f : BrFmt} {s : State} (hs : s.Canon) : OutCanon (execCall f s) := by
  unfold execCall
  try dsimp only
  (repeat' first | with_reducible assumption | (with_reducible apply OutCanon.next) | (with_reducible exact OutCanon.fault) | (with_reducible refine State.Canon.foldl ?_ ?_) | (with_reducible apply State.link_canon) | (with_reducible apply State.jump_canon) | (with_reducible apply State.perform_canon) | (fail_if_no_progress (with_reducible apply State.Canon.other)) | (fail_if_no_progress (with_reducible apply State.Canon.sluices)) | (fail_if_no_progress (with_reducible apply State.Canon.tables)) | split | (intro _))

theorem execCallr_canon {f : RegFmt} {s : State} (hs : s.Canon) : OutCanon (execCallr f s) := by
  unfold execCallr
  try dsimp only
  (repeat' first | with_reducible assumption | (with_reducible apply OutCanon.next) | (with_reducible exact OutCanon.fault) | (with_reducible refine State.Canon.foldl ?_ ?_) | (with_reducible apply State.link_canon) | (with_reducible apply State.jump_canon) | (with_reducible apply State.perform_canon) | (fail_if_no_progress (with_reducible apply State.Canon.other)) | (fail_if_no_progress (with_reducible apply State.Canon.sluices)) | (fail_if_no_progress (with_reducible apply State.Canon.tables)) | split | (intro _))

theorem execJmpr_canon {f : RegFmt} {s : State} (hs : s.Canon) : OutCanon (execJmpr f s) := by
  unfold execJmpr
  try dsimp only
  (repeat' first | with_reducible assumption | (with_reducible apply OutCanon.next) | (with_reducible exact OutCanon.fault) | (with_reducible refine State.Canon.foldl ?_ ?_) | (with_reducible apply State.jump_canon) | (with_reducible apply State.perform_canon) | (fail_if_no_progress (with_reducible apply State.Canon.other)) | (fail_if_no_progress (with_reducible apply State.Canon.sluices)) | (fail_if_no_progress (with_reducible apply State.Canon.tables)) | split | (intro _))

theorem State.awaitStores_canon {s : State} (hs : s.Canon) : (State.awaitStores s).Canon := by
  unfold State.awaitStores
  try dsimp only
  (repeat' first | with_reducible assumption | (with_reducible refine State.Canon.foldl ?_ ?_) | (with_reducible apply State.parkOn_canon) | (with_reducible apply State.post_canon) | (fail_if_no_progress (with_reducible apply State.Canon.other)) | (fail_if_no_progress (with_reducible apply State.Canon.sluices)) | (fail_if_no_progress (with_reducible apply State.Canon.tables)) | split | (intro _))

theorem State.finishWork_canon {s : State} (hs : s.Canon) : (State.finishWork s).Canon := by
  unfold State.finishWork
  try dsimp only
  (repeat' first | with_reducible assumption | (with_reducible refine State.Canon.foldl ?_ ?_) | (with_reducible apply State.awaitStores_canon) | (with_reducible apply State.retire_canon) | (with_reducible apply State.parkOn_canon) | (fail_if_no_progress (with_reducible apply State.Canon.other)) | (fail_if_no_progress (with_reducible apply State.Canon.sluices)) | (fail_if_no_progress (with_reducible apply State.Canon.tables)) | split | (intro _))

theorem execRet_canon {u0 : NoneFmt} {s : State} (hs : s.Canon) : OutCanon (execRet u0 s) := by
  unfold execRet
  try dsimp only
  (repeat' first | with_reducible assumption | (with_reducible apply OutCanon.next) | (with_reducible exact OutCanon.fault) | (with_reducible refine State.Canon.foldl ?_ ?_) | (with_reducible apply State.finishWork_canon) | (with_reducible apply State.link_canon) | (with_reducible apply State.jump_canon) | (with_reducible apply State.perform_canon) | (fail_if_no_progress (with_reducible apply State.Canon.other)) | (fail_if_no_progress (with_reducible apply State.Canon.sluices)) | (fail_if_no_progress (with_reducible apply State.Canon.tables)) | split | (intro _))

theorem execLoop_canon {f : LoopFmt} {s : State} (hs : s.Canon) : OutCanon (execLoop f s) := by
  unfold execLoop
  try dsimp only
  (repeat' first | with_reducible assumption | (with_reducible apply OutCanon.next) | (with_reducible exact OutCanon.fault) | (with_reducible refine State.Canon.foldl ?_ ?_) | (with_reducible apply State.jump_canon) | (with_reducible apply State.perform_canon) | (with_reducible apply State.next_canon) | (with_reducible apply State.writeReg_canon) | (fail_if_no_progress (with_reducible apply State.Canon.other)) | (fail_if_no_progress (with_reducible apply State.Canon.sluices)) | (fail_if_no_progress (with_reducible apply State.Canon.tables)) | split | (intro _))

theorem execTstb_canon {f : TestFmt} {s : State} (hs : s.Canon) : OutCanon (execTstb f s) := by
  unfold execTstb
  try dsimp only
  (repeat' first | with_reducible assumption | (with_reducible apply OutCanon.next) | (with_reducible exact OutCanon.fault) | (with_reducible refine State.Canon.foldl ?_ ?_) | (with_reducible apply State.jump_canon) | (with_reducible apply State.perform_canon) | (with_reducible apply State.next_canon) | (fail_if_no_progress (with_reducible apply State.Canon.other)) | (fail_if_no_progress (with_reducible apply State.Canon.sluices)) | (fail_if_no_progress (with_reducible apply State.Canon.tables)) | split | (intro _))

theorem State.blkWord_canon {s : State} {f : RegFmt} (hs : s.Canon) : (State.blkWord s f).Canon := by
  unfold State.blkWord
  try dsimp only
  (repeat' first | with_reducible assumption | (with_reducible refine State.Canon.foldl ?_ ?_) | (with_reducible apply State.withSlot_canon) | (with_reducible apply State.issueRequest_canon) | (with_reducible apply State.updCur_canon) | (fail_if_no_progress (with_reducible apply State.Canon.other)) | (fail_if_no_progress (with_reducible apply State.Canon.sluices)) | (fail_if_no_progress (with_reducible apply State.Canon.tables)) | split | (intro _))

theorem execBlk_canon {f : RegFmt} {s : State} (hs : s.Canon) : OutCanon (execBlk f s) := by
  unfold execBlk
  try dsimp only
  (repeat' first | with_reducible assumption | (with_reducible apply OutCanon.next) | (with_reducible exact OutCanon.fault) | (with_reducible refine State.Canon.foldl ?_ ?_) | (with_reducible apply State.blkWord_canon) | (with_reducible apply State.perform_canon) | (with_reducible apply State.next_canon) | (fail_if_no_progress (with_reducible apply State.Canon.other)) | (fail_if_no_progress (with_reducible apply State.Canon.sluices)) | (fail_if_no_progress (with_reducible apply State.Canon.tables)) | split | (intro _))

theorem execSpawn_canon {f : RegFmt} {s : State} (hs : s.Canon) : OutCanon (execSpawn f s) := by
  unfold execSpawn
  try dsimp only
  (repeat' first | with_reducible assumption | (with_reducible apply OutCanon.next) | (with_reducible exact OutCanon.fault) | (with_reducible refine State.Canon.foldl ?_ ?_) | (with_reducible apply State.sendOut_canon) | (with_reducible apply State.perform_canon) | (with_reducible apply State.parkOn_canon) | (with_reducible apply State.next_canon) | (fail_if_no_progress (with_reducible apply State.Canon.other)) | (fail_if_no_progress (with_reducible apply State.Canon.sluices)) | (fail_if_no_progress (with_reducible apply State.Canon.tables)) | split | (intro _))

theorem execCallat_canon {f : RegFmt} {s : State} (hs : s.Canon) : OutCanon (execCallat f s) := by
  unfold execCallat
  try dsimp only
  (repeat' first | with_reducible assumption | (with_reducible apply OutCanon.next) | (with_reducible exact OutCanon.fault) | (with_reducible refine State.Canon.foldl ?_ ?_) | (with_reducible apply State.sendOut_canon) | (with_reducible apply State.perform_canon) | (with_reducible apply State.parkOn_canon) | (with_reducible apply State.markEmpty_canon) | (fail_if_no_progress (with_reducible apply State.Canon.other)) | (fail_if_no_progress (with_reducible apply State.Canon.sluices)) | (fail_if_no_progress (with_reducible apply State.Canon.tables)) | split | (intro _))

theorem execFork_canon {f : RegFmt} {s : State} (hs : s.Canon) : OutCanon (execFork f s) := by
  unfold execFork
  try dsimp only
  (repeat' first | with_reducible assumption | (with_reducible apply OutCanon.next) | (with_reducible exact OutCanon.fault) | (with_reducible refine State.Canon.foldl ?_ ?_) | (with_reducible apply State.awaitStores_canon) | (with_reducible apply State.jump_canon) | (with_reducible apply State.sendOut_canon) | (with_reducible apply State.perform_canon) | (with_reducible apply State.parkOn_canon) | (fail_if_no_progress (with_reducible apply State.Canon.other)) | (fail_if_no_progress (with_reducible apply State.Canon.sluices)) | (fail_if_no_progress (with_reducible apply State.Canon.tables)) | split | (intro _))

theorem execJoin_canon {f : RegFmt} {s : State} (hs : s.Canon) : OutCanon (execJoin f s) := by
  unfold execJoin
  try dsimp only
  (repeat' first | with_reducible assumption | (with_reducible apply OutCanon.next) | (with_reducible exact OutCanon.fault) | (with_reducible refine State.Canon.foldl ?_ ?_) | (with_reducible apply State.issueRequest_canon) | (with_reducible apply State.perform_canon) | (fail_if_no_progress (with_reducible apply State.Canon.other)) | (fail_if_no_progress (with_reducible apply State.Canon.sluices)) | (fail_if_no_progress (with_reducible apply State.Canon.tables)) | split | (intro _))

theorem State.sendCancel_canon {s : State} {ctr : W64} {unit : Option Nat} (hs : s.Canon) : (State.sendCancel s ctr unit).Canon := by
  unfold State.sendCancel
  try dsimp only
  (repeat' first | with_reducible assumption | (with_reducible refine State.Canon.foldl ?_ ?_) | (with_reducible apply State.sendOut_canon) | (with_reducible apply State.parkOn_canon) | (fail_if_no_progress (with_reducible apply State.Canon.other)) | (fail_if_no_progress (with_reducible apply State.Canon.sluices)) | (fail_if_no_progress (with_reducible apply State.Canon.tables)) | split | (intro _))

theorem execCancel_canon {f : RegFmt} {s : State} (hs : s.Canon) : OutCanon (execCancel f s) := by
  unfold execCancel
  try dsimp only
  (repeat' first | with_reducible assumption | (with_reducible apply OutCanon.next) | (with_reducible exact OutCanon.fault) | (with_reducible refine State.Canon.foldl ?_ ?_) | (with_reducible apply State.sendCancel_canon) | (with_reducible apply State.perform_canon) | (fail_if_no_progress (with_reducible apply State.Canon.other)) | (fail_if_no_progress (with_reducible apply State.Canon.sluices)) | (fail_if_no_progress (with_reducible apply State.Canon.tables)) | split | (intro _))

theorem execCancelu_canon {f : RegFmt} {s : State} (hs : s.Canon) : OutCanon (execCancelu f s) := by
  unfold execCancelu
  try dsimp only
  (repeat' first | with_reducible assumption | (with_reducible apply OutCanon.next) | (with_reducible exact OutCanon.fault) | (with_reducible refine State.Canon.foldl ?_ ?_) | (with_reducible apply State.sendCancel_canon) | (with_reducible apply State.perform_canon) | (fail_if_no_progress (with_reducible apply State.Canon.other)) | (fail_if_no_progress (with_reducible apply State.Canon.sluices)) | (fail_if_no_progress (with_reducible apply State.Canon.tables)) | split | (intro _))

end Sys2Proof.Machine
end

