-- ==== Sys2Proof/Laws/CanonSystem.lean ====
section
/-!
SUPPORT. Every function of Machine/System.lean keeps the canonical form of the storages.
-/

namespace Sys2Proof.Machine

open Sys2Proof

set_option linter.unusedTactic false
set_option linter.unreachableTactic false
set_option linter.unusedSimpArgs false
set_option linter.unnecessarySeqFocus false

theorem State.sysWrite_canon {s : State} {gid : Nat} {n : Nat} {v : W64} (hs : s.Canon) : (State.sysWrite s gid n v).Canon := by
  unfold State.sysWrite
  try dsimp only
  (repeat' first | with_reducible assumption | (with_reducible refine State.Canon.foldl ?_ ?_) | (with_reducible apply State.link_canon) | (with_reducible apply State.updCore_canon) | (with_reducible apply State.updCtx_canon) | (fail_if_no_progress (with_reducible apply State.Canon.other)) | (fail_if_no_progress (with_reducible apply State.Canon.sluices)) | (fail_if_no_progress (with_reducible apply State.Canon.tables)) | split | (intro _))

theorem State.xflags_canon {s : State} {err : Bool} {empty : Bool} (hs : s.Canon) : (State.xflags s err empty).Canon := by
  unfold State.xflags
  try dsimp only
  (repeat' first | with_reducible assumption | (with_reducible refine State.Canon.foldl ?_ ?_) | (with_reducible apply State.updCore_canon) | (fail_if_no_progress (with_reducible apply State.Canon.other)) | (fail_if_no_progress (with_reducible apply State.Canon.sluices)) | (fail_if_no_progress (with_reducible apply State.Canon.tables)) | split | (intro _))

theorem State.xvalRead_canon {s : State} {ret : _} {out : State} (e : State.xvalRead s = (ret, out)) (hs : s.Canon) : out.Canon := by
  unfold State.xvalRead at e
  try dsimp only at e
  (repeat' split at e) <;> (try simp only [Except.ok.injEq, Option.some.injEq, Prod.mk.injEq, reduceCtorEq] at e) <;> (first | (obtain ⟨e1, e2⟩ := e; subst e1 e2) | (subst e) | skip) <;> (repeat' first | with_reducible assumption | (with_reducible refine State.Canon.foldl ?_ ?_) | (with_reducible apply State.xflags_canon) | (fail_if_no_progress (with_reducible apply State.Canon.other)) | (fail_if_no_progress (with_reducible apply State.Canon.sluices)) | (fail_if_no_progress (with_reducible apply State.Canon.tables)) | split | (intro _))

theorem State.xvalWrite_canon {s : State} {v : W64} (hs : s.Canon) : (State.xvalWrite s v).Canon := by
  unfold State.xvalWrite
  try dsimp only
  (repeat' first | with_reducible assumption | (with_reducible refine State.Canon.foldl ?_ ?_) | (with_reducible apply State.xflags_canon) | (with_reducible apply State.sysWrite_canon) | (with_reducible apply State.setRegAt_canon) | (fail_if_no_progress (with_reducible apply State.Canon.other)) | (fail_if_no_progress (with_reducible apply State.Canon.sluices)) | (fail_if_no_progress (with_reducible apply State.Canon.tables)) | split | (intro _))

theorem execXvalRead_canon {d : BitVec 7} {s : State} (hs : s.Canon) : OutCanon (execXvalRead d s) := by
  unfold execXvalRead
  try dsimp only
  (repeat' first | with_reducible assumption | (with_reducible apply OutCanon.next) | (with_reducible exact OutCanon.fault) | (with_reducible refine State.Canon.foldl ?_ ?_) | (with_reducible apply State.perform_canon) | (with_reducible apply State.next_canon) | (with_reducible apply State.writeReg_canon) | (refine State.xvalRead_canon (by assumption) ?_) | (with_reducible refine State.xvalRead_canon (Prod.eta _).symm ?_) | (fail_if_no_progress (with_reducible apply State.Canon.other)) | (fail_if_no_progress (with_reducible apply State.Canon.sluices)) | (fail_if_no_progress (with_reducible apply State.Canon.tables)) | split | (intro _))

theorem execXvalWrite_canon {v : W64} {s : State} (hs : s.Canon) : OutCanon (execXvalWrite v s) := by
  unfold execXvalWrite
  try dsimp only
  (repeat' first | with_reducible assumption | (with_reducible apply OutCanon.next) | (with_reducible exact OutCanon.fault) | (with_reducible refine State.Canon.foldl ?_ ?_) | (with_reducible apply State.xvalWrite_canon) | (with_reducible apply State.next_canon) | (fail_if_no_progress (with_reducible apply State.Canon.other)) | (fail_if_no_progress (with_reducible apply State.Canon.sluices)) | (fail_if_no_progress (with_reducible apply State.Canon.tables)) | split | (intro _))

theorem execSysr_canon {f : ImmFmt} {s : State} (hs : s.Canon) : OutCanon (execSysr f s) := by
  unfold execSysr
  try dsimp only
  (repeat' first | with_reducible assumption | (with_reducible apply OutCanon.next) | (with_reducible exact OutCanon.fault) | (with_reducible refine State.Canon.foldl ?_ ?_) | (with_reducible apply State.perform_canon) | (with_reducible apply State.next_canon) | (with_reducible apply State.writeReg_canon) | (refine State.xvalRead_canon (by assumption) ?_) | (with_reducible refine State.xvalRead_canon (Prod.eta _).symm ?_) | (fail_if_no_progress (with_reducible apply State.Canon.other)) | (fail_if_no_progress (with_reducible apply State.Canon.sluices)) | (fail_if_no_progress (with_reducible apply State.Canon.tables)) | split | (intro _))

theorem execSysw_canon {f : ImmFmt} {s : State} (hs : s.Canon) : OutCanon (execSysw f s) := by
  unfold execSysw
  try dsimp only
  (repeat' first | with_reducible assumption | (with_reducible apply OutCanon.next) | (with_reducible exact OutCanon.fault) | (with_reducible refine State.Canon.foldl ?_ ?_) | (with_reducible apply State.xvalWrite_canon) | (with_reducible apply State.sysWrite_canon) | (with_reducible apply State.perform_canon) | (with_reducible apply State.next_canon) | (fail_if_no_progress (with_reducible apply State.Canon.other)) | (fail_if_no_progress (with_reducible apply State.Canon.sluices)) | (fail_if_no_progress (with_reducible apply State.Canon.tables)) | split | (intro _))

theorem State.startAction_canon {s : State} {a : W64} {b : W64} {ret : _} {out : State} (e : State.startAction s a b = (ret, out)) (hs : s.Canon) : out.Canon := by
  unfold State.startAction at e
  try dsimp only at e
  (repeat' split at e) <;> (try simp only [Except.ok.injEq, Option.some.injEq, Prod.mk.injEq, reduceCtorEq] at e) <;> (first | (obtain ⟨e1, e2⟩ := e; subst e1 e2) | (subst e) | skip) <;> (repeat' first | with_reducible assumption | (with_reducible refine State.Canon.foldl ?_ ?_) | (with_reducible apply State.resume_canon) | (with_reducible apply State.startCtx_canon) | (with_reducible apply State.updCtx_canon) | (fail_if_no_progress (with_reducible apply State.Canon.other)) | (fail_if_no_progress (with_reducible apply State.Canon.sluices)) | (fail_if_no_progress (with_reducible apply State.Canon.tables)) | split | (intro _))

theorem execStart_canon {f : RegFmt} {s : State} (hs : s.Canon) : OutCanon (execStart f s) := by
  unfold execStart
  try dsimp only
  (repeat' first | with_reducible assumption | (with_reducible apply OutCanon.next) | (with_reducible exact OutCanon.fault) | (with_reducible refine State.Canon.foldl ?_ ?_) | (with_reducible apply State.perform_canon) | (with_reducible apply State.next_canon) | (with_reducible apply State.writeReg_canon) | (refine State.startAction_canon (by assumption) ?_) | (with_reducible refine State.startAction_canon (Prod.eta _).symm ?_) | (fail_if_no_progress (with_reducible apply State.Canon.other)) | (fail_if_no_progress (with_reducible apply State.Canon.sluices)) | (fail_if_no_progress (with_reducible apply State.Canon.tables)) | split | (intro _))

theorem execReap_canon {f : RegFmt} {s : State} (hs : s.Canon) : OutCanon (execReap f s) := by
  unfold execReap
  try dsimp only
  (repeat' first | with_reducible assumption | (with_reducible apply OutCanon.next) | (with_reducible exact OutCanon.fault) | (with_reducible refine State.Canon.foldl ?_ ?_) | (with_reducible apply State.perform_canon) | (with_reducible apply State.next_canon) | (with_reducible apply State.endWork_canon) | (with_reducible apply State.writeReg_canon) | (fail_if_no_progress (with_reducible apply State.Canon.other)) | (fail_if_no_progress (with_reducible apply State.Canon.sluices)) | (fail_if_no_progress (with_reducible apply State.Canon.tables)) | split | (intro _))

theorem execPair_canon {f : ImmFmt} {s : State} (hs : s.Canon) : OutCanon (execPair f s) := by
  unfold execPair
  try dsimp only
  (repeat' first | with_reducible assumption | (with_reducible apply OutCanon.next) | (with_reducible exact OutCanon.fault) | (with_reducible refine State.Canon.foldl ?_ ?_) | (with_reducible apply State.perform_canon) | (with_reducible apply State.next_canon) | (with_reducible apply State.writeReg_canon) | (with_reducible apply State.updCore_canon) | (fail_if_no_progress (with_reducible apply State.Canon.other)) | (fail_if_no_progress (with_reducible apply State.Canon.sluices)) | (fail_if_no_progress (with_reducible apply State.Canon.tables)) | split | (intro _))

theorem execTrap_canon {f : ImmFmt} {s : State} (hs : s.Canon) : OutCanon (execTrap f s) := by
  unfold execTrap
  try dsimp only
  (repeat' first | with_reducible assumption | (with_reducible apply OutCanon.next) | (with_reducible exact OutCanon.fault) | (with_reducible refine State.Canon.foldl ?_ ?_) | (with_reducible apply State.perform_canon) | (with_reducible apply State.raiseSw_canon) | (fail_if_no_progress (with_reducible apply State.Canon.other)) | (fail_if_no_progress (with_reducible apply State.Canon.sluices)) | (fail_if_no_progress (with_reducible apply State.Canon.tables)) | split | (intro _))

theorem execRett_canon {u0 : NoneFmt} {s : State} (hs : s.Canon) : OutCanon (execRett u0 s) := by
  unfold execRett
  try dsimp only
  (repeat' first | with_reducible assumption | (with_reducible apply OutCanon.next) | (with_reducible exact OutCanon.fault) | (with_reducible refine State.Canon.foldl ?_ ?_) | (with_reducible apply State.perform_canon) | (with_reducible apply State.returnFromTrap_canon) | (with_reducible apply State.leaveHandler_canon) | (with_reducible apply State.raise_canon) | (fail_if_no_progress (with_reducible apply State.Canon.other)) | (fail_if_no_progress (with_reducible apply State.Canon.sluices)) | (fail_if_no_progress (with_reducible apply State.Canon.tables)) | split | (intro _))

theorem execNop_canon {u0 : NoneFmt} {s : State} (hs : s.Canon) : OutCanon (execNop u0 s) := by
  unfold execNop
  try dsimp only
  (repeat' first | with_reducible assumption | (with_reducible apply OutCanon.next) | (with_reducible exact OutCanon.fault) | (with_reducible refine State.Canon.foldl ?_ ?_) | (with_reducible apply State.next_canon) | (fail_if_no_progress (with_reducible apply State.Canon.other)) | (fail_if_no_progress (with_reducible apply State.Canon.sluices)) | (fail_if_no_progress (with_reducible apply State.Canon.tables)) | split | (intro _))

end Sys2Proof.Machine
end

