-- ==== Sys2Proof/Laws/CanonTier.lean ====
section
/-!
SUPPORT. Every function of Machine/Tier.lean keeps the canonical form of the storages.
-/

namespace Sys2Proof.Machine

open Sys2Proof

set_option linter.unusedTactic false
set_option linter.unreachableTactic false
set_option linter.unusedSimpArgs false
set_option linter.unnecessarySeqFocus false

theorem State.startMove_canon {s : State} {page : Nat} {frame : Nat} (hs : s.Canon) : (State.startMove s page frame).Canon := by
  unfold State.startMove
  try dsimp only
  (repeat' first | with_reducible assumption | (with_reducible refine State.Canon.foldl ?_ ?_) | (with_reducible apply State.setMoved_canon) | (with_reducible apply State.setDpit_canon) | (with_reducible apply State.postAll_canon) | (fail_if_no_progress (with_reducible apply State.Canon.other)) | (fail_if_no_progress (with_reducible apply State.Canon.sluices)) | (fail_if_no_progress (with_reducible apply State.Canon.tables)) | split | (intro _))

theorem State.soundCopy_canon {s : State} {page : Nat} (hs : s.Canon) : (State.soundCopy s page).Canon := by
  unfold State.soundCopy
  try dsimp only
  (repeat' first | with_reducible assumption | (with_reducible refine State.Canon.foldl ?_ ?_) | (fail_if_no_progress (with_reducible apply State.Canon.other)) | (fail_if_no_progress (with_reducible apply State.Canon.sluices)) | (fail_if_no_progress (with_reducible apply State.Canon.tables)) | split | (intro _))
  all_goals (constructor <;> (try dsimp only) <;> (repeat' first | with_reducible assumption | (with_reducible apply spSet_wfBy) | (with_reducible apply spSet_wf) | (with_reducible apply spSetList_wf) | (with_reducible apply spFill_wf) | (with_reducible apply spWf_map_filter) | (with_reducible apply spWf_filter) | (with_reducible apply State.Canon.ctxs) | (with_reducible apply State.Canon.cores) | (with_reducible apply State.Canon.regs) | (with_reducible apply State.Canon.regEmpty) | (with_reducible apply State.Canon.ab) | (with_reducible apply State.Canon.abEmpty) | (with_reducible apply State.Canon.ps) | (with_reducible apply State.Canon.wb) | (with_reducible apply State.Canon.tiles) | (with_reducible apply State.Canon.bytes) | (with_reducible apply State.Canon.tags) | (with_reducible apply State.Canon.upsets) | (with_reducible apply State.Canon.copyUpsets) | (with_reducible apply State.Canon.fwins) | (with_reducible apply State.Canon.dpit) | (with_reducible apply State.Canon.counts) | (with_reducible apply State.Canon.moved) | (with_reducible apply State.Canon.slecc) | (with_reducible apply State.Canon.stkBank) | (with_reducible apply State.Canon.stkCounts) | (with_reducible apply State.Canon.seqs) | (with_reducible apply State.Canon.quota) | (with_reducible apply State.Canon.dies) | (with_reducible refine State.Canon.foldl ?_ ?_) | (fail_if_no_progress (with_reducible apply State.Canon.other)) | (fail_if_no_progress (with_reducible apply State.Canon.sluices)) | (fail_if_no_progress (with_reducible apply State.Canon.tables)) | split | (intro _)))

theorem State.endMove_canon {s : State} {page : Nat} (hs : s.Canon) : (State.endMove s page).Canon := by
  unfold State.endMove
  try dsimp only
  (repeat' first | with_reducible assumption | (with_reducible refine State.Canon.foldl ?_ ?_) | (with_reducible apply State.soundCopy_canon) | (with_reducible apply State.setMoved_canon) | (with_reducible apply State.setDpit_canon) | (fail_if_no_progress (with_reducible apply State.Canon.other)) | (fail_if_no_progress (with_reducible apply State.Canon.sluices)) | (fail_if_no_progress (with_reducible apply State.Canon.tables)) | split | (intro _))

theorem State.abandonMove_canon {s : State} {page : Nat} (hs : s.Canon) : (State.abandonMove s page).Canon := by
  unfold State.abandonMove
  try dsimp only
  (repeat' first | with_reducible assumption | (with_reducible refine State.Canon.foldl ?_ ?_) | (with_reducible apply State.setMoved_canon) | (with_reducible apply State.setDpit_canon) | (fail_if_no_progress (with_reducible apply State.Canon.other)) | (fail_if_no_progress (with_reducible apply State.Canon.sluices)) | (fail_if_no_progress (with_reducible apply State.Canon.tables)) | split | (intro _))

theorem State.decodeRange_canon {s : State} {dp : Nat} {n : Nat} (hs : s.Canon) : (State.decodeRange s dp n).Canon := by
  unfold State.decodeRange
  try dsimp only
  (repeat' first | with_reducible assumption | (with_reducible refine State.Canon.foldl ?_ ?_) | (with_reducible apply State.decodeWord_canon) | (fail_if_no_progress (with_reducible apply State.Canon.other)) | (fail_if_no_progress (with_reducible apply State.Canon.sluices)) | (fail_if_no_progress (with_reducible apply State.Canon.tables)) | split | (intro _))

theorem execTierBlockMove_canon {page : Nat} {block : Nat} {s : State} (hs : s.Canon) : OutCanon (execTierBlockMove page block s) := by
  unfold execTierBlockMove
  try dsimp only
  (repeat' first | with_reducible assumption | (with_reducible apply OutCanon.next) | (with_reducible exact OutCanon.fault) | (with_reducible refine State.Canon.foldl ?_ ?_) | (with_reducible apply State.decodeRange_canon) | (with_reducible apply State.endMove_canon) | (with_reducible apply State.next_canon) | (with_reducible apply State.setMoved_canon) | (fail_if_no_progress (with_reducible apply State.Canon.other)) | (fail_if_no_progress (with_reducible apply State.Canon.sluices)) | (fail_if_no_progress (with_reducible apply State.Canon.tables)) | split | (intro _))

theorem State.promote_canon {s : State} {page : Nat} {ret : _} {out : State} (e : State.promote s page = (out, ret)) (hs : s.Canon) : out.Canon := by
  unfold State.promote at e
  try dsimp only at e
  (repeat' split at e) <;> (try simp only [Except.ok.injEq, Option.some.injEq, Prod.mk.injEq, reduceCtorEq] at e) <;> (first | (obtain ⟨e1, e2⟩ := e; subst e1 e2) | (subst e) | skip) <;> (repeat' first | with_reducible assumption | (with_reducible refine State.Canon.foldl ?_ ?_) | (with_reducible apply State.startMove_canon) | (with_reducible apply State.takeCopyUpsets_canon) | (with_reducible apply State.setDpit_canon) | (fail_if_no_progress (with_reducible apply State.Canon.other)) | (fail_if_no_progress (with_reducible apply State.Canon.sluices)) | (fail_if_no_progress (with_reducible apply State.Canon.tables)) | split | (intro _))

theorem execTierPromotion_canon {page : Nat} {s : State} (hs : s.Canon) : OutCanon (execTierPromotion page s) := by
  unfold execTierPromotion
  try dsimp only
  (repeat' first | with_reducible assumption | (with_reducible apply OutCanon.next) | (with_reducible exact OutCanon.fault) | (with_reducible refine State.Canon.foldl ?_ ?_) | (with_reducible apply State.next_canon) | (with_reducible apply State.postIn_canon) | (refine State.promote_canon (by assumption) ?_) | (with_reducible refine State.promote_canon (Prod.eta _).symm ?_) | (fail_if_no_progress (with_reducible apply State.Canon.other)) | (fail_if_no_progress (with_reducible apply State.Canon.sluices)) | (fail_if_no_progress (with_reducible apply State.Canon.tables)) | split | (intro _))

theorem execTierEpoch_canon {s : State} (hs : s.Canon) : OutCanon (execTierEpoch s) := by
  unfold execTierEpoch
  try dsimp only
  (repeat' first | with_reducible assumption | (with_reducible apply OutCanon.next) | (with_reducible exact OutCanon.fault) | (with_reducible refine State.Canon.foldl ?_ ?_) | (with_reducible apply State.next_canon) | (with_reducible apply State.postIn_canon) | (fail_if_no_progress (with_reducible apply State.Canon.other)) | (fail_if_no_progress (with_reducible apply State.Canon.sluices)) | (fail_if_no_progress (with_reducible apply State.Canon.tables)) | split | (intro _))
  all_goals (constructor <;> (try dsimp only) <;> (repeat' first | with_reducible assumption | (with_reducible apply spSet_wfBy) | (with_reducible apply spSet_wf) | (with_reducible apply spSetList_wf) | (with_reducible apply spFill_wf) | (with_reducible apply spWf_map_filter) | (with_reducible apply spWf_filter) | (with_reducible apply State.Canon.ctxs) | (with_reducible apply State.Canon.cores) | (with_reducible apply State.Canon.regs) | (with_reducible apply State.Canon.regEmpty) | (with_reducible apply State.Canon.ab) | (with_reducible apply State.Canon.abEmpty) | (with_reducible apply State.Canon.ps) | (with_reducible apply State.Canon.wb) | (with_reducible apply State.Canon.tiles) | (with_reducible apply State.Canon.bytes) | (with_reducible apply State.Canon.tags) | (with_reducible apply State.Canon.upsets) | (with_reducible apply State.Canon.copyUpsets) | (with_reducible apply State.Canon.fwins) | (with_reducible apply State.Canon.dpit) | (with_reducible apply State.Canon.counts) | (with_reducible apply State.Canon.moved) | (with_reducible apply State.Canon.slecc) | (with_reducible apply State.Canon.stkBank) | (with_reducible apply State.Canon.stkCounts) | (with_reducible apply State.Canon.seqs) | (with_reducible apply State.Canon.quota) | (with_reducible apply State.Canon.dies) | (with_reducible apply OutCanon.next) | (with_reducible exact OutCanon.fault) | (with_reducible refine State.Canon.foldl ?_ ?_) | (with_reducible apply State.next_canon) | (with_reducible apply State.postIn_canon) | (fail_if_no_progress (with_reducible apply State.Canon.other)) | (fail_if_no_progress (with_reducible apply State.Canon.sluices)) | (fail_if_no_progress (with_reducible apply State.Canon.tables)) | split | (intro _)))

theorem execStackRefresh_canon {u0 : Nat} {s : State} (hs : s.Canon) : OutCanon (execStackRefresh u0 s) := by
  unfold execStackRefresh
  try dsimp only
  (repeat' first | with_reducible assumption | (with_reducible apply OutCanon.next) | (with_reducible exact OutCanon.fault) | (with_reducible refine State.Canon.foldl ?_ ?_) | (with_reducible apply State.next_canon) | (fail_if_no_progress (with_reducible apply State.Canon.other)) | (fail_if_no_progress (with_reducible apply State.Canon.sluices)) | (fail_if_no_progress (with_reducible apply State.Canon.tables)) | split | (intro _))

theorem State.evacuate_canon {s : State} {page : Nat} (hs : s.Canon) : (State.evacuate s page).Canon := by
  unfold State.evacuate
  try dsimp only
  (repeat' first | with_reducible assumption | (with_reducible refine State.Canon.foldl ?_ ?_) | (with_reducible apply State.decodeRange_canon) | (with_reducible apply State.takeCopyUpsets_canon) | (with_reducible apply State.retireFrame_canon) | (with_reducible apply State.setDpit_canon) | (fail_if_no_progress (with_reducible apply State.Canon.other)) | (fail_if_no_progress (with_reducible apply State.Canon.sluices)) | (fail_if_no_progress (with_reducible apply State.Canon.tables)) | split | (intro _))

theorem State.dropClean_canon {s : State} {page : Nat} (hs : s.Canon) : (State.dropClean s page).Canon := by
  unfold State.dropClean
  try dsimp only
  (repeat' first | with_reducible assumption | (with_reducible refine State.Canon.foldl ?_ ?_) | (with_reducible apply State.setDpit_canon) | (fail_if_no_progress (with_reducible apply State.Canon.other)) | (fail_if_no_progress (with_reducible apply State.Canon.sluices)) | (fail_if_no_progress (with_reducible apply State.Canon.tables)) | split | (intro _))

theorem State.retireFrom_canon {s : State} {die : Nat} {far : Bool} {frame : Nat} {page : Nat} {out : State} (e : State.retireFrom s die far frame page = some out) (hs : s.Canon) : out.Canon := by
  unfold State.retireFrom at e
  try dsimp only at e
  (repeat' split at e) <;> (try simp only [Except.ok.injEq, Option.some.injEq, Prod.mk.injEq, reduceCtorEq] at e) <;> (first | (obtain ⟨e1, e2⟩ := e; subst e1 e2) | (subst e) | skip) <;> (repeat' first | with_reducible assumption | (with_reducible refine State.Canon.foldl ?_ ?_) | (with_reducible apply State.dropClean_canon) | (with_reducible apply State.evacuate_canon) | (with_reducible apply State.retireFrame_canon) | (fail_if_no_progress (with_reducible apply State.Canon.other)) | (fail_if_no_progress (with_reducible apply State.Canon.sluices)) | (fail_if_no_progress (with_reducible apply State.Canon.tables)) | split | (intro _))

theorem State.retireReported_canon {s : State} {die : Nat} {far : Bool} {frame : Nat} {out : State} (e : s.retireReported die far frame = some out)
    (hs : s.Canon) : out.Canon := by
  rw [State.retireReported] at e
  revert e
  generalize s.holderOf die far frame = h
  intro e
  cases h with
  | none => exact Option.some.inj e ▸ State.retireFrame_canon hs
  | some p => exact State.retireFrom_canon e hs


theorem State.loseStructures_canon {s : State} {die : Nat} (hs : s.Canon) : (State.loseStructures s die).Canon := by
  unfold State.loseStructures
  try dsimp only
  (repeat' first | with_reducible assumption | (with_reducible refine State.Canon.foldl ?_ ?_) | (with_reducible apply State.fatalRecord_canon) | (refine State.openRecord_canon (by assumption) ?_) | (with_reducible refine State.openRecord_canon (Prod.eta _).symm ?_) | (fail_if_no_progress (with_reducible apply State.Canon.other)) | (fail_if_no_progress (with_reducible apply State.Canon.sluices)) | (fail_if_no_progress (with_reducible apply State.Canon.tables)) | split | (intro _))

theorem execFrameRetirement_canon {s : State} (hs : s.Canon) : OutCanon (execFrameRetirement s) := by
  unfold execFrameRetirement
  have h1 : (s.mem.lostDies.foldl State.loseStructures { s with mem := { s.mem with lostDies := [] } }).Canon :=
    State.Canon.foldl (fun _ _ h => State.loseStructures_canon h) (State.Canon.tables hs)
  generalize s.mem.lostDies.foldl State.loseStructures _ = s1 at h1
  dsimp only
  apply OutCanon.next
  generalize s1.mem.failing = l
  cases l with
  | nil => exact h1
  | cons f rest =>
    have key : ∀ r : Option State, (∀ t, r = some t → t.Canon) → (r.getD (s1.postIn 1 .frameRetirement)).Canon := fun r h => by
      cases r with
      | none => exact State.postIn_canon h1
      | some t => exact h t rfl
    exact key _ fun t e => State.retireReported_canon e (State.Canon.tables h1)


theorem State.poisonPage_canon {s : State} {page : Nat} (hs : s.Canon) : (State.poisonPage s page).Canon := by
  unfold State.poisonPage
  try dsimp only
  (repeat' first | with_reducible assumption | (with_reducible refine State.Canon.foldl ?_ ?_) | (with_reducible apply State.clearUpset_canon) | (with_reducible apply State.putWord_canon) | (fail_if_no_progress (with_reducible apply State.Canon.other)) | (fail_if_no_progress (with_reducible apply State.Canon.sluices)) | (fail_if_no_progress (with_reducible apply State.Canon.tables)) | split | (intro _))

theorem State.giveUpPage_canon {s : State} {page : Nat} (hs : s.Canon) : (State.giveUpPage s page).Canon := by
  unfold State.giveUpPage
  try dsimp only
  (repeat' first | with_reducible assumption | (with_reducible refine State.Canon.foldl ?_ ?_) | (fail_if_no_progress (with_reducible apply State.Canon.other)) | (fail_if_no_progress (with_reducible apply State.Canon.sluices)) | (fail_if_no_progress (with_reducible apply State.Canon.tables)) | split | (intro _))

theorem State.remapLost_canon {s : State} {page : Nat} {farFirst : Bool} (hs : s.Canon) : (State.remapLost s page farFirst).Canon := by
  unfold State.remapLost
  try dsimp only
  (repeat' first | with_reducible assumption | (with_reducible refine State.Canon.foldl ?_ ?_) | (with_reducible apply State.poisonPage_canon) | (with_reducible apply State.setDpit_canon) | (fail_if_no_progress (with_reducible apply State.Canon.other)) | (fail_if_no_progress (with_reducible apply State.Canon.sluices)) | (fail_if_no_progress (with_reducible apply State.Canon.tables)) | split | (intro _))

theorem State.loseController_canon {s : State} {c : Nat} {page : Nat} (hs : s.Canon) : (State.loseController s c page).Canon := by
  unfold State.loseController
  try dsimp only
  (repeat' first | with_reducible assumption | (with_reducible refine State.Canon.foldl ?_ ?_) | (with_reducible apply State.remapLost_canon) | (with_reducible apply State.giveUpPage_canon) | (with_reducible apply State.dropClean_canon) | (with_reducible apply State.abandonMove_canon) | (with_reducible apply State.switchToClean_canon) | (with_reducible apply State.retireFrame_canon) | (fail_if_no_progress (with_reducible apply State.Canon.other)) | (fail_if_no_progress (with_reducible apply State.Canon.sluices)) | (fail_if_no_progress (with_reducible apply State.Canon.tables)) | split | (intro _))

theorem execFarControllerFailure_canon {ctrl : Nat} {s : State} (hs : s.Canon) : OutCanon (execFarControllerFailure ctrl s) := by
  unfold execFarControllerFailure
  try dsimp only
  (repeat' first | with_reducible assumption | (with_reducible apply OutCanon.next) | (with_reducible exact OutCanon.fault) | (with_reducible refine State.Canon.foldl ?_ ?_) | (with_reducible apply State.loseController_canon) | (with_reducible apply State.next_canon) | (fail_if_no_progress (with_reducible apply State.Canon.other)) | (fail_if_no_progress (with_reducible apply State.Canon.sluices)) | (fail_if_no_progress (with_reducible apply State.Canon.tables)) | split | (intro _))

theorem State.prefPages_canon {s : State} {die : Nat} {tenant : Nat} {va : W64} {x0 : Nat} {ret : _} {out : State} (e : State.prefPages s die tenant va x0 = (out, ret)) (hs : s.Canon) : out.Canon := by
  induction x0 generalizing s die tenant va ret out with
  | zero => rw [State.prefPages] at e <;> (try dsimp only at e) <;> (repeat' split at e) <;> (try simp only [Except.ok.injEq, Option.some.injEq, Prod.mk.injEq, reduceCtorEq] at e) <;> (first | (obtain ⟨e1, e2⟩ := e; subst e1 e2) | (subst e) | skip) <;> (repeat' first | with_reducible assumption | (with_reducible refine State.Canon.foldl ?_ ?_) | (refine State.xlat_canon (by assumption) ?_) | (with_reducible refine State.xlat_canon (Prod.eta _).symm ?_) | (fail_if_no_progress (with_reducible apply State.Canon.other)) | (fail_if_no_progress (with_reducible apply State.Canon.sluices)) | (fail_if_no_progress (with_reducible apply State.Canon.tables)) | split | (intro _) | (refine State.xlat_canon (by assumption) ?_) | (with_reducible refine State.xlat_canon (Prod.eta _).symm ?_) | split | (intro _))
  | succ _ ih => rw [State.prefPages] at e <;> (try dsimp only at e) <;> (repeat' split at e) <;> (try simp only [Except.ok.injEq, Option.some.injEq, Prod.mk.injEq, reduceCtorEq] at e) <;> (first | (obtain ⟨e1, e2⟩ := e; subst e1 e2) | (subst e) | skip) <;> (repeat' first | with_reducible assumption | (with_reducible refine State.Canon.foldl ?_ ?_) | (refine State.xlat_canon (by assumption) ?_) | (with_reducible refine State.xlat_canon (Prod.eta _).symm ?_) | (fail_if_no_progress (with_reducible apply State.Canon.other)) | (fail_if_no_progress (with_reducible apply State.Canon.sluices)) | (fail_if_no_progress (with_reducible apply State.Canon.tables)) | split | (intro _) | (refine ih (by assumption) ?_) | (refine ih (Prod.eta _).symm ?_) | (refine State.xlat_canon (by assumption) ?_) | (with_reducible refine State.xlat_canon (Prod.eta _).symm ?_) | split | (intro _))

theorem State.promoteAll_canon {s : State} {ps : List Nat} {ret : Nat} {out : State} (e : s.promoteAll ps = (out, ret)) (hs : s.Canon) : out.Canon := by
  have : (s.promoteAll ps).1.Canon := State.Canon.foldlFst (fun q p h => by exact State.promote_canon (Prod.eta _).symm h) hs
  rw [e] at this
  exact this


theorem execPrefTierOperation_canon {op : Nat} {s : State} (hs : s.Canon) : OutCanon (execPrefTierOperation op s) := by
  unfold execPrefTierOperation
  try dsimp only
  (repeat' first | with_reducible assumption | (with_reducible apply OutCanon.next) | (with_reducible exact OutCanon.fault) | (with_reducible refine State.Canon.foldl ?_ ?_) | (with_reducible apply State.takeOp_canon) | (with_reducible apply State.failOp_canon) | (with_reducible apply State.finishOp_canon) | (with_reducible apply State.awaitPeer_canon) | (with_reducible apply State.next_canon) | (with_reducible apply State.emit_canon) | (with_reducible apply State.postIn_canon) | (refine State.promoteAll_canon (by assumption) ?_) | (with_reducible refine State.promoteAll_canon (Prod.eta _).symm ?_) | (refine State.prefPages_canon (by assumption) ?_) | (with_reducible refine State.prefPages_canon (Prod.eta _).symm ?_) | (fail_if_no_progress (with_reducible apply State.Canon.other)) | (fail_if_no_progress (with_reducible apply State.Canon.sluices)) | (fail_if_no_progress (with_reducible apply State.Canon.tables)) | split | (intro _))

end Sys2Proof.Machine
end

