-- ==== Sys2Proof/Laws/CanonCopy.lean ====
section
/-!
SUPPORT. Every function of Machine/Copy.lean keeps the canonical form of the storages.
-/

namespace Sys2Proof.Machine

open Sys2Proof

set_option linter.unusedTactic false
set_option linter.unreachableTactic false
set_option linter.unusedSimpArgs false
set_option linter.unnecessarySeqFocus false

theorem State.sendTrigger_canon {s : State} {op : Nat} {d : Nat} {ctr : W64} {h : W64} {scope : BitVec 4} (hs : s.Canon) : (State.sendTrigger s op d ctr h scope).Canon := by
  unfold State.sendTrigger
  try dsimp only
  (repeat' first | with_reducible assumption | (with_reducible refine State.Canon.foldl ?_ ?_) | (with_reducible apply State.send_canon) | (with_reducible apply State.next_canon) | (with_reducible apply State.markEmpty_canon) | (refine State.newRid_canon (by assumption) ?_) | (with_reducible refine State.newRid_canon (Prod.eta _).symm ?_) | (fail_if_no_progress (with_reducible apply State.Canon.other)) | (fail_if_no_progress (with_reducible apply State.Canon.sluices)) | (fail_if_no_progress (with_reducible apply State.Canon.tables)) | split | (intro _))

theorem State.copyIssue_canon {s : State} {f : CopyFmt} {form : CopyForm} {trig : Bool} (hs : s.Canon) : OutCanon (State.copyIssue s f form trig) := by
  unfold State.copyIssue
  try dsimp only
  (repeat' first | with_reducible assumption | (with_reducible apply OutCanon.next) | (with_reducible exact OutCanon.fault) | (with_reducible refine State.Canon.foldl ?_ ?_) | (with_reducible apply State.id_canon) | (with_reducible apply State.sendTrigger_canon) | (with_reducible apply State.issueOp_canon) | (with_reducible apply State.sendOut_canon) | (with_reducible apply State.perform_canon) | (with_reducible apply State.next_canon) | (with_reducible apply State.updCur_canon) | (refine State.newOp_canon (by assumption) ?_) | (with_reducible refine State.newOp_canon (Prod.eta _).symm ?_) | (fail_if_no_progress (with_reducible apply State.Canon.other)) | (fail_if_no_progress (with_reducible apply State.Canon.sluices)) | (fail_if_no_progress (with_reducible apply State.Canon.tables)) | split | (intro _))

theorem execCopy_canon {f : CopyFmt} {s : State} (hs : s.Canon) : OutCanon (execCopy f s) := by
  unfold execCopy
  try dsimp only
  (repeat' first | with_reducible assumption | (with_reducible apply OutCanon.next) | (with_reducible exact OutCanon.fault) | (with_reducible refine State.Canon.foldl ?_ ?_) | (with_reducible apply State.copyIssue_canon) | (fail_if_no_progress (with_reducible apply State.Canon.other)) | (fail_if_no_progress (with_reducible apply State.Canon.sluices)) | (fail_if_no_progress (with_reducible apply State.Canon.tables)) | split | (intro _))

theorem execCopyStr_canon {f : CopyFmt} {s : State} (hs : s.Canon) : OutCanon (execCopyStr f s) := by
  unfold execCopyStr
  try dsimp only
  (repeat' first | with_reducible assumption | (with_reducible apply OutCanon.next) | (with_reducible exact OutCanon.fault) | (with_reducible refine State.Canon.foldl ?_ ?_) | (with_reducible apply State.copyIssue_canon) | (fail_if_no_progress (with_reducible apply State.Canon.other)) | (fail_if_no_progress (with_reducible apply State.Canon.sluices)) | (fail_if_no_progress (with_reducible apply State.Canon.tables)) | split | (intro _))

theorem execCopyGth_canon {f : CopyFmt} {s : State} (hs : s.Canon) : OutCanon (execCopyGth f s) := by
  unfold execCopyGth
  try dsimp only
  (repeat' first | with_reducible assumption | (with_reducible apply OutCanon.next) | (with_reducible exact OutCanon.fault) | (with_reducible refine State.Canon.foldl ?_ ?_) | (with_reducible apply State.copyIssue_canon) | (fail_if_no_progress (with_reducible apply State.Canon.other)) | (fail_if_no_progress (with_reducible apply State.Canon.sluices)) | (fail_if_no_progress (with_reducible apply State.Canon.tables)) | split | (intro _))

theorem execCopySct_canon {f : CopyFmt} {s : State} (hs : s.Canon) : OutCanon (execCopySct f s) := by
  unfold execCopySct
  try dsimp only
  (repeat' first | with_reducible assumption | (with_reducible apply OutCanon.next) | (with_reducible exact OutCanon.fault) | (with_reducible refine State.Canon.foldl ?_ ?_) | (with_reducible apply State.copyIssue_canon) | (fail_if_no_progress (with_reducible apply State.Canon.other)) | (fail_if_no_progress (with_reducible apply State.Canon.sluices)) | (fail_if_no_progress (with_reducible apply State.Canon.tables)) | split | (intro _))

theorem execCopyTrg_canon {f : CopyFmt} {s : State} (hs : s.Canon) : OutCanon (execCopyTrg f s) := by
  unfold execCopyTrg
  try dsimp only
  (repeat' first | with_reducible assumption | (with_reducible apply OutCanon.next) | (with_reducible exact OutCanon.fault) | (with_reducible refine State.Canon.foldl ?_ ?_) | (with_reducible apply State.copyIssue_canon) | (fail_if_no_progress (with_reducible apply State.Canon.other)) | (fail_if_no_progress (with_reducible apply State.Canon.sluices)) | (fail_if_no_progress (with_reducible apply State.Canon.tables)) | split | (intro _))

theorem execCopyStrTrg_canon {f : CopyFmt} {s : State} (hs : s.Canon) : OutCanon (execCopyStrTrg f s) := by
  unfold execCopyStrTrg
  try dsimp only
  (repeat' first | with_reducible assumption | (with_reducible apply OutCanon.next) | (with_reducible exact OutCanon.fault) | (with_reducible refine State.Canon.foldl ?_ ?_) | (with_reducible apply State.copyIssue_canon) | (fail_if_no_progress (with_reducible apply State.Canon.other)) | (fail_if_no_progress (with_reducible apply State.Canon.sluices)) | (fail_if_no_progress (with_reducible apply State.Canon.tables)) | split | (intro _))

theorem execCopyGthTrg_canon {f : CopyFmt} {s : State} (hs : s.Canon) : OutCanon (execCopyGthTrg f s) := by
  unfold execCopyGthTrg
  try dsimp only
  (repeat' first | with_reducible assumption | (with_reducible apply OutCanon.next) | (with_reducible exact OutCanon.fault) | (with_reducible refine State.Canon.foldl ?_ ?_) | (with_reducible apply State.copyIssue_canon) | (fail_if_no_progress (with_reducible apply State.Canon.other)) | (fail_if_no_progress (with_reducible apply State.Canon.sluices)) | (fail_if_no_progress (with_reducible apply State.Canon.tables)) | split | (intro _))

theorem execCopySctTrg_canon {f : CopyFmt} {s : State} (hs : s.Canon) : OutCanon (execCopySctTrg f s) := by
  unfold execCopySctTrg
  try dsimp only
  (repeat' first | with_reducible assumption | (with_reducible apply OutCanon.next) | (with_reducible exact OutCanon.fault) | (with_reducible refine State.Canon.foldl ?_ ?_) | (with_reducible apply State.copyIssue_canon) | (fail_if_no_progress (with_reducible apply State.Canon.other)) | (fail_if_no_progress (with_reducible apply State.Canon.sluices)) | (fail_if_no_progress (with_reducible apply State.Canon.tables)) | split | (intro _))

theorem execPrefTier_canon {f : CopyFmt} {s : State} (hs : s.Canon) : OutCanon (execPrefTier f s) := by
  unfold execPrefTier
  try dsimp only
  (repeat' first | with_reducible assumption | (with_reducible apply OutCanon.next) | (with_reducible exact OutCanon.fault) | (with_reducible refine State.Canon.foldl ?_ ?_) | (with_reducible apply State.issueOp_canon) | (with_reducible apply State.perform_canon) | (with_reducible apply State.next_canon) | (fail_if_no_progress (with_reducible apply State.Canon.other)) | (fail_if_no_progress (with_reducible apply State.Canon.sluices)) | (fail_if_no_progress (with_reducible apply State.Canon.tables)) | split | (intro _))

theorem State.engineRead_canon {s : State} {die : Nat} {tenant : Nat} {va : W64} {ret : _} {out : State} (e : State.engineRead s die tenant va = (out, ret)) (hs : s.Canon) : out.Canon := by
  unfold State.engineRead at e
  try dsimp only at e
  (repeat' split at e) <;> (try simp only [Except.ok.injEq, Option.some.injEq, Prod.mk.injEq, reduceCtorEq] at e) <;> (first | (obtain ⟨e1, e2⟩ := e; subst e1 e2) | (subst e) | skip) <;> (repeat' first | with_reducible assumption | (with_reducible refine State.Canon.foldl ?_ ?_) | (with_reducible apply State.open_canon) | (refine State.xlat_canon (by assumption) ?_) | (with_reducible refine State.xlat_canon (Prod.eta _).symm ?_) | (fail_if_no_progress (with_reducible apply State.Canon.other)) | (fail_if_no_progress (with_reducible apply State.Canon.sluices)) | (fail_if_no_progress (with_reducible apply State.Canon.tables)) | split | (intro _))

theorem State.engineWrite_canon {s : State} {die : Nat} {tenant : Nat} {va : W64} {v : W64} {poison : Bool} {ret : _} {out : State} (e : State.engineWrite s die tenant va v poison = (out, ret)) (hs : s.Canon) : out.Canon := by
  unfold State.engineWrite at e
  try dsimp only at e
  (repeat' split at e) <;> (try simp only [Except.ok.injEq, Option.some.injEq, Prod.mk.injEq, reduceCtorEq] at e) <;> (first | (obtain ⟨e1, e2⟩ := e; subst e1 e2) | (subst e) | skip) <;> (repeat' first | with_reducible assumption | (with_reducible refine State.Canon.foldl ?_ ?_) | (with_reducible apply State.engineCommit_canon) | (with_reducible apply State.open_canon) | (refine State.xlat_canon (by assumption) ?_) | (with_reducible refine State.xlat_canon (Prod.eta _).symm ?_) | (fail_if_no_progress (with_reducible apply State.Canon.other)) | (fail_if_no_progress (with_reducible apply State.Canon.sluices)) | (fail_if_no_progress (with_reducible apply State.Canon.tables)) | split | (intro _))

theorem Moved.put_canon {m : Moved} {o : EngOp} {dst : CopyEnd} {remote : Bool} {v : W64} {poison : Bool} (hm : m.s.Canon) : (Moved.put m o dst remote v poison).s.Canon := by
  unfold Moved.put
  try dsimp only
  (repeat' first | with_reducible assumption | (with_reducible refine State.Canon.foldl ?_ ?_) | (with_reducible apply State.setWb_canon) | (refine State.engineWrite_canon (by assumption) ?_) | (with_reducible refine State.engineWrite_canon (Prod.eta _).symm ?_) | (fail_if_no_progress (with_reducible apply State.Canon.other)) | (fail_if_no_progress (with_reducible apply State.Canon.sluices)) | (fail_if_no_progress (with_reducible apply State.Canon.tables)) | split | (intro _))

theorem Moved.move_canon {m : Moved} {o : EngOp} {src : CopyEnd} {dst : CopyEnd} {remoteDst : Bool} {given : Option (Option W64)} (hm : m.s.Canon) : (Moved.move m o src dst remoteDst given).s.Canon := by
  unfold Moved.move
  try dsimp only
  (repeat' first | with_reducible assumption | (with_reducible refine State.Canon.foldl ?_ ?_) | (with_reducible apply Moved.put_canon) | (refine State.engineRead_canon (by assumption) ?_) | (with_reducible refine State.engineRead_canon (Prod.eta _).symm ?_) | (fail_if_no_progress (with_reducible apply State.Canon.other)) | (fail_if_no_progress (with_reducible apply State.Canon.sluices)) | (fail_if_no_progress (with_reducible apply State.Canon.tables)) | split | (intro _))

theorem State.failWith_canon {s : State} {o : EngOp} {ws : List (Nat × List Byte)} {sw : Nat} {addr : W64} (hs : s.Canon) : (State.failWith s o ws sw addr).Canon := by
  unfold State.failWith
  try dsimp only
  (repeat' first | with_reducible assumption | (with_reducible refine State.Canon.foldl ?_ ?_) | (with_reducible apply State.id_canon) | (with_reducible apply State.failOp_canon) | (with_reducible apply State.writeAb_canon) | (with_reducible apply State.engineFault_canon) | (with_reducible apply State.updOp_canon) | (with_reducible apply State.postAll_canon) | (fail_if_no_progress (with_reducible apply State.Canon.other)) | (fail_if_no_progress (with_reducible apply State.Canon.sluices)) | (fail_if_no_progress (with_reducible apply State.Canon.tables)) | split | (intro _))

theorem State.poisonRecord_canon {s : State} {o : EngOp} {x0 : Option W64} (hs : s.Canon) : (State.poisonRecord s o x0).Canon := by
  unfold State.poisonRecord
  try dsimp only
  (repeat' first | with_reducible assumption | (with_reducible refine State.Canon.foldl ?_ ?_) | (with_reducible apply State.engineFault_canon) | (fail_if_no_progress (with_reducible apply State.Canon.other)) | (fail_if_no_progress (with_reducible apply State.Canon.sluices)) | (fail_if_no_progress (with_reducible apply State.Canon.tables)) | split | (intro _))

theorem State.sendWords_canon {s : State} {o : EngOp} {phys : Nat} {p : CopyPlan} {ws : List (Option W64)} (hs : s.Canon) : (State.sendWords s o phys p ws).Canon := by
  unfold State.sendWords
  try dsimp only
  (repeat' first | with_reducible assumption | (with_reducible refine State.Canon.foldl ?_ ?_) | (with_reducible apply State.id_canon) | (with_reducible apply State.finishOp_canon) | (with_reducible apply State.awaitPeer_canon) | (with_reducible apply State.emitWords_canon) | (fail_if_no_progress (with_reducible apply State.Canon.other)) | (fail_if_no_progress (with_reducible apply State.Canon.sluices)) | (fail_if_no_progress (with_reducible apply State.Canon.tables)) | split | (intro _))

theorem Moved.finish_canon {m : Moved} {o : EngOp} {p : CopyPlan} {remote : Option Nat} (hm : m.s.Canon) : (Moved.finish m o p remote).Canon := by
  unfold Moved.finish
  try dsimp only
  (repeat' first | with_reducible assumption | (with_reducible refine State.Canon.foldl ?_ ?_) | (with_reducible apply State.sendWords_canon) | (with_reducible apply State.poisonRecord_canon) | (with_reducible apply State.failWith_canon) | (with_reducible apply State.deliverAb_canon) | (fail_if_no_progress (with_reducible apply State.Canon.other)) | (fail_if_no_progress (with_reducible apply State.Canon.sluices)) | (fail_if_no_progress (with_reducible apply State.Canon.tables)) | split | (intro _))

theorem State.engineWriteAll_canon {s : State} {die tenant : Nat} {va : W64} {ws : List (Option W64)} {ret : _} {out : State}
    (e : s.engineWriteAll die tenant va ws = (out, ret)) (hs : s.Canon) : out.Canon := by
  induction ws generalizing s va with
  | nil => cases e; exact hs
  | cons w ws ih =>
    rw [State.engineWriteAll] at e
    split at e
    · cases e; exact State.engineWrite_canon ‹_› hs
    · exact ih e (State.engineWrite_canon ‹_› hs)


theorem State.sendBlocks_canon {s : State} {phys : Nat} {h : LossyHead} {xfer : Nat} {ws : List (Option W64)} (hs : s.Canon) : (State.sendBlocks s phys h xfer ws).Canon := by
  unfold State.sendBlocks
  try dsimp only
  (repeat' first | with_reducible assumption | (with_reducible refine State.Canon.foldl ?_ ?_) | (with_reducible apply State.emit_canon) | (fail_if_no_progress (with_reducible apply State.Canon.other)) | (fail_if_no_progress (with_reducible apply State.Canon.sluices)) | (fail_if_no_progress (with_reducible apply State.Canon.tables)) | split | (intro _))

theorem State.pagesHere_canon {s : State} {die tenant : Nat} {vas : List W64} {ret : _} {out : State} (e : s.pagesHere die tenant vas = (out, ret)) (hs : s.Canon) :
    out.Canon := by
  have : (s.pagesHere die tenant vas).1.Canon := State.Canon.foldlFst (fun q va h => by
    generalize hx : q.1.xlat die tenant va false = x
    obtain ⟨s', _ | dp⟩ := x <;> exact State.xlat_canon hx h) hs
  rw [e] at this
  exact this


theorem State.askPages_canon {s : State} {op : Nat} {asks : List (Nat × W64)} (hs : s.Canon) : (State.askPages s op asks).Canon := by
  unfold State.askPages
  try dsimp only
  (repeat' first | with_reducible assumption | (with_reducible refine State.Canon.foldl ?_ ?_) | (with_reducible apply State.updOp_canon) | (with_reducible apply State.emit_canon) | (with_reducible apply State.postIn_canon) | (fail_if_no_progress (with_reducible apply State.Canon.other)) | (fail_if_no_progress (with_reducible apply State.Canon.sluices)) | (fail_if_no_progress (with_reducible apply State.Canon.tables)) | split | (intro _))

theorem State.moveAll_canon {s : State} {o : EngOp} {moves : List (CopyEnd × CopyEnd)} {remoteDst : Bool} {given : Option (List (Option W64))} (hs : s.Canon) :
    (s.moveAll o moves remoteDst given).s.Canon := by
  unfold State.moveAll
  generalize moves.zipIdx = l
  suffices ∀ m : Moved, m.s.Canon → (l.foldl (fun m x => m.move o x.1.1 x.1.2 remoteDst (given.map fun ws => ws.getD x.2 none)) m).s.Canon from this _ hs
  induction l with
  | nil => exact fun m h => h
  | cons i l il => exact fun m h => il _ (Moved.move_canon h)


theorem State.copyMoves_canon {s : State} {o : EngOp} {dst : CopyEnd} {src : CopyEnd} {x : W64} {lossy : Bool} {scales : List (W64 × Nat × Nat)} {p : CopyPlan} {given : Option (List (Option W64))} (hs : s.Canon) : (State.copyMoves s o dst src x lossy scales p given).Canon := by
  unfold State.copyMoves
  try dsimp only
  (repeat' first | with_reducible assumption | (with_reducible refine State.Canon.foldl ?_ ?_) | (with_reducible apply State.id_canon) | (with_reducible apply State.moveAll_canon) | (with_reducible apply State.sendBlocks_canon) | (with_reducible apply Moved.finish_canon) | (with_reducible apply State.sendWords_canon) | (with_reducible apply State.poisonRecord_canon) | (with_reducible apply State.failWith_canon) | (with_reducible apply State.failOp_canon) | (with_reducible apply State.finishOp_canon) | (with_reducible apply State.awaitPeer_canon) | (with_reducible apply State.emitWords_canon) | (with_reducible apply State.updOp_canon) | (refine State.engineWriteAll_canon (by assumption) ?_) | (with_reducible refine State.engineWriteAll_canon (Prod.eta _).symm ?_) | (fail_if_no_progress (with_reducible apply State.Canon.other)) | (fail_if_no_progress (with_reducible apply State.Canon.sluices)) | (fail_if_no_progress (with_reducible apply State.Canon.tables)) | split | (intro _))

theorem State.copyWith_canon {s : State} {o : EngOp} {form : CopyForm} {dst src : CopyEnd} {len x : W64} {lossy : Bool} {scales : List (W64 × Nat × Nat)}
    {idx : List Nat} {given : List (Option W64)} (hs : s.Canon) : (s.copyWith o form dst src len x lossy scales idx given).Canon := by
  unfold State.copyWith
  generalize copyPlan form dst src len x idx = p
  dsimp only
  generalize copyPages p _ = ps
  have hw : (if o.trigReg = 0 then (s, 0) else (let (s, ps) := s.pagesHere (dieOf o.abCore) o.tenant ps; s.promoteAll ps)).1.Canon := by
    split
    · exact hs
    · exact State.promoteAll_canon (Prod.eta _).symm (State.pagesHere_canon (Prod.eta _).symm hs)
  generalize (if o.trigReg = 0 then (s, 0) else (let (s, ps) := s.pagesHere (dieOf o.abCore) o.tenant ps; s.promoteAll ps)) = w at hw ⊢
  obtain ⟨s1, n⟩ := w
  dsimp only at hw ⊢
  (repeat' first | with_reducible assumption | (with_reducible apply State.askPages_canon) | (with_reducible apply State.postIn_canon) | (with_reducible apply State.copyMoves_canon) | (with_reducible apply State.finishOp_canon) | (with_reducible apply State.failWith_canon) | (with_reducible apply State.awaitPeer_canon) | (with_reducible apply State.emit_canon) | (with_reducible refine State.Canon.foldl (fun _ _ h => State.emitFetch_canon h) ?_) | split)


theorem State.engineReadAll_canon {s : State} {die tenant : Nat} {va : W64} {n : Nat} {ret : _} {out : State}
    (e : s.engineReadAll die tenant va n = (out, ret)) (hs : s.Canon) : out.Canon := by
  induction n generalizing s va ret with
  | zero => cases e; exact hs
  | succ n ih =>
    rw [State.engineReadAll] at e
    split at e
    · cases e; exact State.engineRead_canon ‹_› hs
    · have h := State.engineRead_canon ‹_› hs
      split at e
      · cases e; exact h
      · split at e <;> (cases e; exact ih ‹_› h)


theorem State.copyIndices_canon {s : State} {o : EngOp} {len : W64} {x : W64} {given : List (Option W64)} {k : List Nat → List (Option W64) → State → State} (hs : s.Canon) (hk : ∀ a0 a1 a2, a2.Canon → (k a0 a1 a2).Canon) : (State.copyIndices s o len x given k).Canon := by
  unfold State.copyIndices
  try dsimp only
  (repeat' first | with_reducible assumption | (with_reducible refine State.Canon.foldl ?_ ?_) | (with_reducible apply State.id_canon) | (with_reducible apply hk) | (with_reducible apply State.failWith_canon) | (with_reducible apply State.awaitPeer_canon) | (with_reducible apply State.emitFetch_canon) | (with_reducible apply State.updOp_canon) | (refine State.engineReadAll_canon (by assumption) ?_) | (with_reducible refine State.engineReadAll_canon (Prod.eta _).symm ?_) | (fail_if_no_progress (with_reducible apply State.Canon.other)) | (fail_if_no_progress (with_reducible apply State.Canon.sluices)) | (fail_if_no_progress (with_reducible apply State.Canon.tables)) | split | (intro _))

theorem execCopyOperation_canon {op : Nat} {remote : List (Option W64)} {s : State} (hs : s.Canon) : OutCanon (execCopyOperation op remote s) := by
  unfold execCopyOperation
  try dsimp only
  (repeat' first | with_reducible assumption | (with_reducible apply OutCanon.next) | (with_reducible exact OutCanon.fault) | (with_reducible refine State.Canon.foldl ?_ ?_) | (with_reducible apply State.copyIndices_canon) | (with_reducible apply State.copyWith_canon) | (with_reducible apply State.takeOp_canon) | (with_reducible apply State.failOp_canon) | (with_reducible apply State.next_canon) | (with_reducible apply State.updOp_canon) | (with_reducible apply State.post_canon) | (with_reducible apply State.postIn_canon) | (fail_if_no_progress (with_reducible apply State.Canon.other)) | (fail_if_no_progress (with_reducible apply State.Canon.sluices)) | (fail_if_no_progress (with_reducible apply State.Canon.tables)) | split | (intro _))

theorem execTriggerFire_canon {op : Nat} {s : State} (hs : s.Canon) : OutCanon (execTriggerFire op s) := by
  unfold execTriggerFire
  try dsimp only
  (repeat' first | with_reducible assumption | (with_reducible apply OutCanon.next) | (with_reducible exact OutCanon.fault) | (with_reducible refine State.Canon.foldl ?_ ?_) | (with_reducible apply State.next_canon) | (with_reducible apply State.updOp_canon) | (with_reducible apply State.post_canon) | (fail_if_no_progress (with_reducible apply State.Canon.other)) | (fail_if_no_progress (with_reducible apply State.Canon.sluices)) | (fail_if_no_progress (with_reducible apply State.Canon.tables)) | split | (intro _))

theorem State.stationNotice_canon {s : State} {h : LossyHead} (hs : s.Canon) : (State.stationNotice s h).Canon := by
  unfold State.stationNotice
  try dsimp only
  (repeat' first | with_reducible assumption | (with_reducible refine State.Canon.foldl ?_ ?_) | (with_reducible apply State.route_canon) | (with_reducible apply State.emit_canon) | (refine State.newRid_canon (by assumption) ?_) | (with_reducible refine State.newRid_canon (Prod.eta _).symm ?_) | (fail_if_no_progress (with_reducible apply State.Canon.other)) | (fail_if_no_progress (with_reducible apply State.Canon.sluices)) | (fail_if_no_progress (with_reducible apply State.Canon.tables)) | split | (intro _))

theorem State.setLossy_canon {s : State} {l : Lossy} (hs : s.Canon) : (State.setLossy s l).Canon := by
  unfold State.setLossy
  try dsimp only
  (repeat' first | with_reducible assumption | (with_reducible refine State.Canon.foldl ?_ ?_) | (fail_if_no_progress (with_reducible apply State.Canon.other)) | (fail_if_no_progress (with_reducible apply State.Canon.sluices)) | (fail_if_no_progress (with_reducible apply State.Canon.tables)) | split | (intro _))

theorem State.doneLossy_canon {s : State} {l : Lossy} (hs : s.Canon) : (State.doneLossy s l).Canon := by
  unfold State.doneLossy
  try dsimp only
  (repeat' first | with_reducible assumption | (with_reducible refine State.Canon.foldl ?_ ?_) | (with_reducible apply State.stationNotice_canon) | (with_reducible apply State.poisonRecord_canon) | (with_reducible apply State.finishOp_canon) | (with_reducible apply State.emit_canon) | (fail_if_no_progress (with_reducible apply State.Canon.other)) | (fail_if_no_progress (with_reducible apply State.Canon.sluices)) | (fail_if_no_progress (with_reducible apply State.Canon.tables)) | split | (intro _))

theorem State.failLossy_canon {s : State} {l : Lossy} {sw : Nat} {addr : W64} (hs : s.Canon) : (State.failLossy s l sw addr).Canon := by
  unfold State.failLossy
  try dsimp only
  (repeat' first | with_reducible assumption | (with_reducible refine State.Canon.foldl ?_ ?_) | (with_reducible apply State.poisonRecord_canon) | (with_reducible apply State.failOp_canon) | (with_reducible apply State.emit_canon) | (fail_if_no_progress (with_reducible apply State.Canon.other)) | (fail_if_no_progress (with_reducible apply State.Canon.sluices)) | (fail_if_no_progress (with_reducible apply State.Canon.tables)) | split | (intro _))

theorem State.endLossy_canon {s : State} {l : Lossy} (hs : s.Canon) : (State.endLossy s l).Canon := by
  unfold State.endLossy
  try dsimp only
  (repeat' first | with_reducible assumption | (with_reducible refine State.Canon.foldl ?_ ?_) | (with_reducible apply State.failLossy_canon) | (with_reducible apply State.doneLossy_canon) | (with_reducible apply State.setLossy_canon) | (refine State.engineWriteAll_canon (by assumption) ?_) | (with_reducible refine State.engineWriteAll_canon (Prod.eta _).symm ?_) | (fail_if_no_progress (with_reducible apply State.Canon.other)) | (fail_if_no_progress (with_reducible apply State.Canon.sluices)) | (fail_if_no_progress (with_reducible apply State.Canon.tables)) | split | (intro _))

theorem State.writeBlock_canon {s : State} {l : Lossy} {b : Nat} {ws : List (Option W64)} {lost : Bool} (hs : s.Canon) : (State.writeBlock s l b ws lost).Canon := by
  unfold State.writeBlock
  try dsimp only
  (repeat' first | with_reducible assumption | (with_reducible refine State.Canon.foldl ?_ ?_) | (with_reducible apply State.endLossy_canon) | (with_reducible apply State.failLossy_canon) | (with_reducible apply State.setLossy_canon) | (refine State.engineWriteAll_canon (by assumption) ?_) | (with_reducible refine State.engineWriteAll_canon (Prod.eta _).symm ?_) | (fail_if_no_progress (with_reducible apply State.Canon.other)) | (fail_if_no_progress (with_reducible apply State.Canon.sluices)) | (fail_if_no_progress (with_reducible apply State.Canon.tables)) | split | (intro _))

theorem State.heard_canon {s : State} {l : Lossy} (hs : s.Canon) : (State.heard s l).Canon := by
  unfold State.heard
  try dsimp only
  (repeat' first | with_reducible assumption | (with_reducible refine State.Canon.foldl ?_ ?_) | (fail_if_no_progress (with_reducible apply State.Canon.other)) | (fail_if_no_progress (with_reducible apply State.Canon.sluices)) | (fail_if_no_progress (with_reducible apply State.Canon.tables)) | split | (intro _))

theorem execLossyBlockArrival_canon {h : LossyHead} {xfer : Nat} {block : Nat} {data : List (Option W64)} {crc : W32} {s : State} (hs : s.Canon) : OutCanon (execLossyBlockArrival h xfer block data crc s) := by
  unfold execLossyBlockArrival
  try dsimp only
  (repeat' first | with_reducible assumption | (with_reducible apply OutCanon.next) | (with_reducible exact OutCanon.fault) | (with_reducible refine State.Canon.foldl ?_ ?_) | (with_reducible apply State.writeBlock_canon) | (with_reducible apply State.setLossy_canon) | (with_reducible apply State.next_canon) | (fail_if_no_progress (with_reducible apply State.Canon.other)) | (fail_if_no_progress (with_reducible apply State.Canon.sluices)) | (fail_if_no_progress (with_reducible apply State.Canon.tables)) | split | (intro _))

theorem State.nameBlocks_canon {s : State} {h : LossyHead} {n : LossyNotice} (hs : s.Canon) : (State.nameBlocks s h n).Canon := by
  unfold State.nameBlocks
  try dsimp only
  (repeat' first | with_reducible assumption | (with_reducible refine State.Canon.foldl ?_ ?_) | (with_reducible apply State.heard_canon) | (with_reducible apply State.endLossy_canon) | (with_reducible apply State.setLossy_canon) | (with_reducible apply State.postIn_canon) | (fail_if_no_progress (with_reducible apply State.Canon.other)) | (fail_if_no_progress (with_reducible apply State.Canon.sluices)) | (fail_if_no_progress (with_reducible apply State.Canon.tables)) | split | (intro _))

theorem State.expire_canon {s : State} {l : Lossy} (hs : s.Canon) : (State.expire s l).Canon := by
  unfold State.expire
  try dsimp only
  (repeat' first | with_reducible assumption | (with_reducible refine State.Canon.foldl ?_ ?_) | (with_reducible apply State.writeBlock_canon) | (fail_if_no_progress (with_reducible apply State.Canon.other)) | (fail_if_no_progress (with_reducible apply State.Canon.sluices)) | (fail_if_no_progress (with_reducible apply State.Canon.tables)) | split | (intro _))

end Sys2Proof.Machine
end

