-- ==== Sys2Proof/Laws/CanonLayout.lean ====
section
/-!
SUPPORT. Every function of Machine/Layout.lean keeps the canonical form of the storages.
-/

namespace Sys2Proof.Machine

open Sys2Proof

set_option linter.unusedTactic false
set_option linter.unreachableTactic false
set_option linter.unusedSimpArgs false
set_option linter.unnecessarySeqFocus false

theorem execLayout_canon {f : LayFmt} {s : State} (hs : s.Canon) : OutCanon (execLayout f s) := by
  unfold execLayout
  try dsimp only
  (repeat' first | with_reducible assumption | (with_reducible apply OutCanon.next) | (with_reducible exact OutCanon.fault) | (with_reducible refine State.Canon.foldl ?_ ?_) | (with_reducible apply State.issueOp_canon) | (with_reducible apply State.perform_canon) | (with_reducible apply State.next_canon) | (fail_if_no_progress (with_reducible apply State.Canon.other)) | (fail_if_no_progress (with_reducible apply State.Canon.sluices)) | (fail_if_no_progress (with_reducible apply State.Canon.tables)) | split | (intro _))

theorem execLayoutAb_canon {f : LayFmt} {s : State} (hs : s.Canon) : OutCanon (execLayoutAb f s) := by
  unfold execLayoutAb
  try dsimp only
  (repeat' first | with_reducible assumption | (with_reducible apply OutCanon.next) | (with_reducible exact OutCanon.fault) | (with_reducible refine State.Canon.foldl ?_ ?_) | (with_reducible apply State.issueOp_canon) | (with_reducible apply State.perform_canon) | (with_reducible apply State.next_canon) | (fail_if_no_progress (with_reducible apply State.Canon.other)) | (fail_if_no_progress (with_reducible apply State.Canon.sluices)) | (fail_if_no_progress (with_reducible apply State.Canon.tables)) | split | (intro _))

theorem State.mergeBits_canon {s : State} {o : EngOp} {va : W64} {v : W64} {k : Nat} {ret : _} {out : State} (e : State.mergeBits s o va v k = (out, ret)) (hs : s.Canon) : out.Canon := by
  unfold State.mergeBits at e
  try dsimp only at e
  (repeat' split at e) <;> (try simp only [Except.ok.injEq, Option.some.injEq, Prod.mk.injEq, reduceCtorEq] at e) <;> (first | (obtain ⟨e1, e2⟩ := e; subst e1 e2) | (subst e) | skip) <;> (repeat' first | with_reducible assumption | (with_reducible refine State.Canon.foldl ?_ ?_) | (with_reducible apply State.asyncRecord_canon) | (with_reducible apply State.engineCommit_canon) | (with_reducible apply State.open_canon) | (refine State.xlat_canon (by assumption) ?_) | (with_reducible refine State.xlat_canon (Prod.eta _).symm ?_) | (fail_if_no_progress (with_reducible apply State.Canon.other)) | (fail_if_no_progress (with_reducible apply State.Canon.sluices)) | (fail_if_no_progress (with_reducible apply State.Canon.tables)) | split | (intro _))

theorem State.layoutWrite_canon {s : State} {o : EngOp} {dst : W64} {bits : Nat} {poisoned : List Nat} {total n k : Nat} {low : Option W64} (hs : s.Canon) :
    (s.layoutWrite o dst bits poisoned total n k low).Canon := by
  induction n generalizing s k low with
  | zero => rw [State.layoutWrite]; exact State.finishOp_canon (State.poisonRecord_canon hs)
  | succ n ih =>
    rw [State.layoutWrite]
    try dsimp only
    generalize e : (if poisoned.contains k = true then s.engineWrite (dieOf o.core) o.tenant (dst + wordOfNat (8 * k)) 0 true else _) = r
    have h : r.1.Canon := by
      rw [← e]
      split
      · exact State.engineWrite_canon (Prod.eta _).symm hs
      · split
        · exact State.engineWrite_canon (Prod.eta _).symm hs
        · exact State.mergeBits_canon (Prod.eta _).symm hs
    obtain ⟨s', _ | sw⟩ := r
    · exact ih h
    · exact State.failOp_canon (State.poisonRecord_canon h)


theorem State.layoutSend_canon {s : State} {o : EngOp} {phys : Nat} {dst : W64} {bits : Nat} {poisoned : List Nat} {total : Nat} (hs : s.Canon) : (State.layoutSend s o phys dst bits poisoned total).Canon := by
  unfold State.layoutSend
  try dsimp only
  (repeat' first | with_reducible assumption | (with_reducible refine State.Canon.foldl ?_ ?_) | (with_reducible apply State.id_canon) | (with_reducible apply State.poisonRecord_canon) | (with_reducible apply State.awaitPeer_canon) | (with_reducible apply State.emitWords_canon) | (with_reducible apply State.emit_canon) | (fail_if_no_progress (with_reducible apply State.Canon.other)) | (fail_if_no_progress (with_reducible apply State.Canon.sluices)) | (fail_if_no_progress (with_reducible apply State.Canon.tables)) | split | (intro _))

theorem State.layoutSource_canon {s : State} {o : EngOp} {va : W64} {x0 : Nat} {ret : _} {out : State} (e : State.layoutSource s o va x0 = (out, ret)) (hs : s.Canon) : out.Canon := by
  induction x0 generalizing s o va ret out with
  | zero => rw [State.layoutSource] at e <;> (try dsimp only at e) <;> (repeat' split at e) <;> (try simp only [Except.ok.injEq, Option.some.injEq, Prod.mk.injEq, reduceCtorEq] at e) <;> (first | (obtain ⟨e1, e2⟩ := e; subst e1 e2) | (subst e) | skip) <;> (repeat' first | with_reducible assumption | (with_reducible refine State.Canon.foldl ?_ ?_) | (refine State.engineRead_canon (by assumption) ?_) | (with_reducible refine State.engineRead_canon (Prod.eta _).symm ?_) | (fail_if_no_progress (with_reducible apply State.Canon.other)) | (fail_if_no_progress (with_reducible apply State.Canon.sluices)) | (fail_if_no_progress (with_reducible apply State.Canon.tables)) | split | (intro _) | (refine State.engineRead_canon (by assumption) ?_) | (with_reducible refine State.engineRead_canon (Prod.eta _).symm ?_) | split | (intro _))
  | succ _ ih => rw [State.layoutSource] at e <;> (try dsimp only at e) <;> (repeat' split at e) <;> (try simp only [Except.ok.injEq, Option.some.injEq, Prod.mk.injEq, reduceCtorEq] at e) <;> (first | (obtain ⟨e1, e2⟩ := e; subst e1 e2) | (subst e) | skip) <;> (repeat' first | with_reducible assumption | (with_reducible refine State.Canon.foldl ?_ ?_) | (refine State.engineRead_canon (by assumption) ?_) | (with_reducible refine State.engineRead_canon (Prod.eta _).symm ?_) | (fail_if_no_progress (with_reducible apply State.Canon.other)) | (fail_if_no_progress (with_reducible apply State.Canon.sluices)) | (fail_if_no_progress (with_reducible apply State.Canon.tables)) | split | (intro _) | (refine ih (by assumption) ?_) | (refine ih (Prod.eta _).symm ?_) | (refine State.engineRead_canon (by assumption) ?_) | (with_reducible refine State.engineRead_canon (Prod.eta _).symm ?_) | split | (intro _))

theorem State.layoutMove_canon {s : State} {o : EngOp} {dst : W64} {dmw : W64} {ns : List Nat} {w : Nat} {n : Nat} {src : List (W64 × Bool)} (hs : s.Canon) : (State.layoutMove s o dst dmw ns w n src).Canon := by
  unfold State.layoutMove
  try dsimp only
  (repeat' first | with_reducible assumption | (with_reducible refine State.Canon.foldl ?_ ?_) | (with_reducible apply State.layoutSend_canon) | (with_reducible apply State.layoutWrite_canon) | (with_reducible apply State.failOp_canon) | (fail_if_no_progress (with_reducible apply State.Canon.other)) | (fail_if_no_progress (with_reducible apply State.Canon.sluices)) | (fail_if_no_progress (with_reducible apply State.Canon.tables)) | split | (intro _))

theorem State.layoutWith_canon {s : State} {o : EngOp} {dst : W64} {src : CopyEnd} {abLen : Nat} {ext : W64} {desc : W64} {ws : List W64} {given : List (Option W64)} (hs : s.Canon) : (State.layoutWith s o dst src abLen ext desc ws given).Canon := by
  unfold State.layoutWith
  try dsimp only
  (repeat' first | with_reducible assumption | (with_reducible refine State.Canon.foldl ?_ ?_) | (with_reducible apply State.id_canon) | (with_reducible apply State.layoutMove_canon) | (with_reducible apply State.failOp_canon) | (with_reducible apply State.finishOp_canon) | (with_reducible apply State.awaitPeer_canon) | (with_reducible apply State.emitFetch_canon) | (refine State.layoutSource_canon (by assumption) ?_) | (with_reducible refine State.layoutSource_canon (Prod.eta _).symm ?_) | (fail_if_no_progress (with_reducible apply State.Canon.other)) | (fail_if_no_progress (with_reducible apply State.Canon.sluices)) | (fail_if_no_progress (with_reducible apply State.Canon.tables)) | split | (intro _))

theorem State.layoutArrives_canon {s : State} {op : Nat} (hs : s.Canon) : (State.layoutArrives s op).Canon := by
  unfold State.layoutArrives
  try dsimp only
  (repeat' first | with_reducible assumption | (with_reducible refine State.Canon.foldl ?_ ?_) | (with_reducible apply State.updOp_canon) | (with_reducible apply State.post_canon) | (fail_if_no_progress (with_reducible apply State.Canon.other)) | (fail_if_no_progress (with_reducible apply State.Canon.sluices)) | (fail_if_no_progress (with_reducible apply State.Canon.tables)) | split | (intro _))

theorem execLayoutOperation_canon {op : Nat} {remote : List (Option W64)} {s : State} (hs : s.Canon) : OutCanon (execLayoutOperation op remote s) := by
  unfold execLayoutOperation
  try dsimp only
  (repeat' first | with_reducible assumption | (with_reducible apply OutCanon.next) | (with_reducible exact OutCanon.fault) | (with_reducible refine State.Canon.foldl ?_ ?_) | (with_reducible apply State.layoutArrives_canon) | (with_reducible apply State.layoutWith_canon) | (with_reducible apply State.takeOp_canon) | (with_reducible apply State.failOp_canon) | (with_reducible apply State.awaitPeer_canon) | (with_reducible apply State.emitFetch_canon) | (with_reducible apply State.next_canon) | (with_reducible apply State.updOp_canon) | (refine State.engineReadAll_canon (by assumption) ?_) | (with_reducible refine State.engineReadAll_canon (Prod.eta _).symm ?_) | (fail_if_no_progress (with_reducible apply State.Canon.other)) | (fail_if_no_progress (with_reducible apply State.Canon.sluices)) | (fail_if_no_progress (with_reducible apply State.Canon.tables)) | split | (intro _))

end Sys2Proof.Machine
end

