-- ==== Sys2Proof/Laws/CanonRouter.lean ====
section
/-!
SUPPORT. Every function of Machine/Router.lean keeps the canonical form of the storages.
-/

namespace Sys2Proof.Machine

open Sys2Proof

set_option linter.unusedTactic false
set_option linter.unreachableTactic false
set_option linter.unusedSimpArgs false
set_option linter.unnecessarySeqFocus false

theorem State.setStream_canon {s : State} {st : Stream} (hs : s.Canon) : (State.setStream s st).Canon := by
  unfold State.setStream
  try dsimp only
  (repeat' first | with_reducible assumption | (with_reducible refine State.Canon.foldl ?_ ?_) | (fail_if_no_progress (with_reducible apply State.Canon.other)) | (fail_if_no_progress (with_reducible apply State.Canon.sluices)) | (fail_if_no_progress (with_reducible apply State.Canon.tables)) | split | (intro _))

theorem State.dropStream_canon {s : State} {core : Nat} {vsn : Nat} (hs : s.Canon) : (State.dropStream s core vsn).Canon := by
  unfold State.dropStream
  try dsimp only
  (repeat' first | with_reducible assumption | (with_reducible refine State.Canon.foldl ?_ ?_) | (fail_if_no_progress (with_reducible apply State.Canon.other)) | (fail_if_no_progress (with_reducible apply State.Canon.sluices)) | (fail_if_no_progress (with_reducible apply State.Canon.tables)) | split | (intro _))

theorem State.retryOpens_canon {s : State} {core : Nat} (hs : s.Canon) : (State.retryOpens s core).Canon := by
  unfold State.retryOpens
  try dsimp only
  (repeat' first | with_reducible assumption | (with_reducible refine State.Canon.foldl ?_ ?_) | (with_reducible apply State.postAll_canon) | (fail_if_no_progress (with_reducible apply State.Canon.other)) | (fail_if_no_progress (with_reducible apply State.Canon.sluices)) | (fail_if_no_progress (with_reducible apply State.Canon.tables)) | split | (intro _))

theorem State.oldest_canon {s : State} {core vsn : Nat} {f : OpWork → Bool} {ret : Option EngOp} {out : State} (e : s.oldest core vsn f = (out, ret)) (hs : s.Canon) :
    out.Canon := by
  have : (s.oldest core vsn f).1.Canon := State.Canon.foldlFst (fun q o h => by
    try dsimp only
    split
    · exact h
    · split
      · exact State.failOp_canon h
      · exact h) hs
  rw [e] at this
  exact this


theorem State.toEntry_canon {s : State} {st : Stream} {e : Nat} {p : Nat} {item : StreamItem} {block : Option Nat} (hs : s.Canon) : (State.toEntry s st e p item block).Canon := by
  unfold State.toEntry
  try dsimp only
  (repeat' first | with_reducible assumption | (with_reducible refine State.Canon.foldl ?_ ?_) | (with_reducible apply State.emit_canon) | (with_reducible apply State.post_canon) | (fail_if_no_progress (with_reducible apply State.Canon.other)) | (fail_if_no_progress (with_reducible apply State.Canon.sluices)) | (fail_if_no_progress (with_reducible apply State.Canon.tables)) | split | (intro _))

theorem State.notice_canon {s : State} {st : Stream} {e : Nat} {p : Nat} (hs : s.Canon) : (State.notice s st e p).Canon := by
  unfold State.notice
  try dsimp only
  (repeat' first | with_reducible assumption | (with_reducible refine State.Canon.foldl ?_ ?_) | (with_reducible apply State.emit_canon) | (with_reducible apply State.post_canon) | (fail_if_no_progress (with_reducible apply State.Canon.other)) | (fail_if_no_progress (with_reducible apply State.Canon.sluices)) | (fail_if_no_progress (with_reducible apply State.Canon.tables)) | split | (intro _))

theorem State.offer_canon {s : State} {st : Stream} {p : Nat} (hs : s.Canon) : (State.offer s st p).Canon := by
  unfold State.offer
  try dsimp only
  (repeat' first | with_reducible assumption | (with_reducible refine State.Canon.foldl ?_ ?_) | (with_reducible apply State.notice_canon) | (fail_if_no_progress (with_reducible apply State.Canon.other)) | (fail_if_no_progress (with_reducible apply State.Canon.sluices)) | (fail_if_no_progress (with_reducible apply State.Canon.tables)) | split | (intro _))

theorem State.freed_canon {s : State} {st : Stream} {p : Nat} (hs : s.Canon) : (State.freed s st p).Canon := by
  unfold State.freed
  try dsimp only
  (repeat' first | with_reducible assumption | (with_reducible refine State.Canon.foldl ?_ ?_) | (with_reducible apply State.notice_canon) | (with_reducible apply State.post_canon) | (fail_if_no_progress (with_reducible apply State.Canon.other)) | (fail_if_no_progress (with_reducible apply State.Canon.sluices)) | (fail_if_no_progress (with_reducible apply State.Canon.tables)) | split | (intro _))

theorem State.moved_canon {s : State} {old : Stream} {new : Stream} {ps : List Nat} {freedPorts : List Nat} {ret : _} {out : State} (e : State.moved s old new ps freedPorts = (out, ret)) (hs : s.Canon) : out.Canon := by
  unfold State.moved at e
  try dsimp only at e
  (repeat' split at e) <;> (try simp only [Except.ok.injEq, Option.some.injEq, Prod.mk.injEq, reduceCtorEq] at e) <;> (first | (obtain ⟨e1, e2⟩ := e; subst e1 e2) | (subst e) | skip) <;> (repeat' first | with_reducible assumption | (with_reducible refine State.Canon.foldl ?_ ?_) | (with_reducible apply State.freed_canon) | (with_reducible apply State.offer_canon) | (fail_if_no_progress (with_reducible apply State.Canon.other)) | (fail_if_no_progress (with_reducible apply State.Canon.sluices)) | (fail_if_no_progress (with_reducible apply State.Canon.tables)) | split | (intro _))

theorem State.finishGet_canon {s : State} {op : Nat} (hs : s.Canon) : (State.finishGet s op).Canon := by
  unfold State.finishGet
  try dsimp only
  (repeat' first | with_reducible assumption | (with_reducible refine State.Canon.foldl ?_ ?_) | (with_reducible apply State.next_canon) | (with_reducible apply State.updOp_canon) | (with_reducible apply State.post_canon) | (fail_if_no_progress (with_reducible apply State.Canon.other)) | (fail_if_no_progress (with_reducible apply State.Canon.sluices)) | (fail_if_no_progress (with_reducible apply State.Canon.tables)) | split | (intro _))

theorem State.endGet_canon {s : State} {o : EngOp} (hs : s.Canon) : (State.endGet s o).Canon := by
  unfold State.endGet
  try dsimp only
  (repeat' first | with_reducible assumption | (with_reducible refine State.Canon.foldl ?_ ?_) | (with_reducible apply State.id_canon) | (with_reducible apply State.finishGet_canon) | (with_reducible apply State.post_canon) | (fail_if_no_progress (with_reducible apply State.Canon.other)) | (fail_if_no_progress (with_reducible apply State.Canon.sluices)) | (fail_if_no_progress (with_reducible apply State.Canon.tables)) | split | (intro _))

theorem State.releaseSpan_canon {s : State} {o : EngOp} {off : Nat} {n : Nat} (hs : s.Canon) : (State.releaseSpan s o off n).Canon := by
  unfold State.releaseSpan
  try dsimp only
  (repeat' first | with_reducible assumption | (with_reducible refine State.Canon.foldl ?_ ?_) | (with_reducible apply State.id_canon) | (with_reducible apply State.releaseLine_canon) | (fail_if_no_progress (with_reducible apply State.Canon.other)) | (fail_if_no_progress (with_reducible apply State.Canon.sluices)) | (fail_if_no_progress (with_reducible apply State.Canon.tables)) | split | (intro _))

theorem State.getRow_canon {s : State} {o : EngOp} {off : Nat} {len : Nat} {lossy : Bool} {item : StreamItem} (hs : s.Canon) : (State.getRow s o off len lossy item).Canon := by
  unfold State.getRow
  try dsimp only
  (repeat' first | with_reducible assumption | (with_reducible refine State.Canon.foldl ?_ ?_) | (with_reducible apply State.id_canon) | (with_reducible apply State.releaseSpan_canon) | (with_reducible apply State.endGet_canon) | (with_reducible apply State.writeAb_canon) | (with_reducible apply State.updOp_canon) | (with_reducible apply State.post_canon) | (fail_if_no_progress (with_reducible apply State.Canon.other)) | (fail_if_no_progress (with_reducible apply State.Canon.sluices)) | (fail_if_no_progress (with_reducible apply State.Canon.tables)) | split | (intro _))

theorem State.withdrawMember_canon {s : State} {st : Stream} {dead : Nat} (hs : s.Canon) : (State.withdrawMember s st dead).Canon := by
  unfold State.withdrawMember
  try dsimp only
  (repeat' first | with_reducible assumption | (with_reducible refine State.Canon.foldl ?_ ?_) | (with_reducible apply State.memberGone_canon) | (with_reducible apply State.route_canon) | (with_reducible apply State.next_canon) | (refine State.newRid_canon (by assumption) ?_) | (with_reducible refine State.newRid_canon (Prod.eta _).symm ?_) | (fail_if_no_progress (with_reducible apply State.Canon.other)) | (fail_if_no_progress (with_reducible apply State.Canon.sluices)) | (fail_if_no_progress (with_reducible apply State.Canon.tables)) | split | (intro _))

theorem State.memberDied_canon {s : State} {st : Stream} {dead : Nat} {set : Option Nat} (hs : s.Canon) : (State.memberDied s st dead set).Canon := by
  unfold State.memberDied
  try dsimp only
  (repeat' first | with_reducible assumption | (with_reducible refine State.Canon.foldl ?_ ?_) | (with_reducible apply State.withdrawMember_canon) | (with_reducible apply State.event_canon) | (fail_if_no_progress (with_reducible apply State.Canon.other)) | (fail_if_no_progress (with_reducible apply State.Canon.sluices)) | (fail_if_no_progress (with_reducible apply State.Canon.tables)) | split | (intro _))

theorem State.rootDied_canon {s : State} {st : Stream} {dead : Nat} {set : Option Nat} (hs : s.Canon) : (State.rootDied s st dead set).Canon := by
  unfold State.rootDied
  try dsimp only
  (repeat' first | with_reducible assumption | (with_reducible refine State.Canon.foldl ?_ ?_) | (with_reducible apply State.memberDied_canon) | (fail_if_no_progress (with_reducible apply State.Canon.other)) | (fail_if_no_progress (with_reducible apply State.Canon.sluices)) | (fail_if_no_progress (with_reducible apply State.Canon.tables)) | split | (intro _))

theorem State.endBroken_canon {s : State} {core : Nat} {vsn : Nat} (hs : s.Canon) : (State.endBroken s core vsn).Canon := by
  unfold State.endBroken
  try dsimp only
  (repeat' first | with_reducible assumption | (with_reducible refine State.Canon.foldl ?_ ?_) | (with_reducible apply State.id_canon) | (with_reducible apply State.endGet_canon) | (with_reducible apply State.failOp_canon) | (with_reducible apply State.finishOp_canon) | (with_reducible apply State.updOp_canon) | (fail_if_no_progress (with_reducible apply State.Canon.other)) | (fail_if_no_progress (with_reducible apply State.Canon.sluices)) | (fail_if_no_progress (with_reducible apply State.Canon.tables)) | split | (intro _))

theorem State.checkOpen_canon {s : State} {st : Stream} (hs : s.Canon) : (State.checkOpen s st).Canon := by
  unfold State.checkOpen
  try dsimp only
  (repeat' first | with_reducible assumption | (with_reducible refine State.Canon.foldl ?_ ?_) | (with_reducible apply State.id_canon) | (with_reducible apply State.finishOp_canon) | (fail_if_no_progress (with_reducible apply State.Canon.other)) | (fail_if_no_progress (with_reducible apply State.Canon.sluices)) | (fail_if_no_progress (with_reducible apply State.Canon.tables)) | split | (intro _))

theorem State.takeRest_canon {s : State} {st : Stream} (hs : s.Canon) : (State.takeRest s st).Canon := by
  unfold State.takeRest
  try dsimp only
  (repeat' first | with_reducible assumption | (with_reducible refine State.Canon.foldl ?_ ?_) | (with_reducible apply State.getRow_canon) | (refine State.oldest_canon (by assumption) ?_) | (with_reducible refine State.oldest_canon (Prod.eta _).symm ?_) | (fail_if_no_progress (with_reducible apply State.Canon.other)) | (fail_if_no_progress (with_reducible apply State.Canon.sluices)) | (fail_if_no_progress (with_reducible apply State.Canon.tables)) | split | (intro _))

theorem State.cutOff_canon {s : State} {st : Stream} {news : StreamItem} (hs : s.Canon) : (State.cutOff s st news).Canon := by
  unfold State.cutOff
  try dsimp only
  (repeat' first | with_reducible assumption | (with_reducible refine State.Canon.foldl ?_ ?_) | (with_reducible apply State.takeRest_canon) | (with_reducible apply State.checkOpen_canon) | (with_reducible apply State.endBroken_canon) | (with_reducible apply State.toEntry_canon) | (with_reducible apply State.retryOpens_canon) | (with_reducible apply State.setStream_canon) | (fail_if_no_progress (with_reducible apply State.Canon.other)) | (fail_if_no_progress (with_reducible apply State.Canon.sluices)) | (fail_if_no_progress (with_reducible apply State.Canon.tables)) | split | (intro _))

theorem State.sendUp_canon {s : State} {st : Stream} {dest : UpTo} {item : StreamItem} {ret : _} {out : State} (e : State.sendUp s st dest item = (out, ret)) (hs : s.Canon) : out.Canon := by
  unfold State.sendUp at e
  try dsimp only at e
  (repeat' split at e) <;> (try simp only [Except.ok.injEq, Option.some.injEq, Prod.mk.injEq, reduceCtorEq] at e) <;> (first | (obtain ⟨e1, e2⟩ := e; subst e1 e2) | (subst e) | skip) <;> (repeat' first | with_reducible assumption | (with_reducible refine State.Canon.foldl ?_ ?_) | (with_reducible apply State.toEntry_canon) | (fail_if_no_progress (with_reducible apply State.Canon.other)) | (fail_if_no_progress (with_reducible apply State.Canon.sluices)) | (fail_if_no_progress (with_reducible apply State.Canon.tables)) | split | (intro _))

theorem State.leftLocal_canon {s : State} {st : Stream} {hasPart : Bool} {marker : Bool} (hs : s.Canon) : (State.leftLocal s st hasPart marker).Canon := by
  unfold State.leftLocal
  try dsimp only
  (repeat' first | with_reducible assumption | (with_reducible refine State.Canon.foldl ?_ ?_) | (with_reducible apply State.id_canon) | (with_reducible apply State.finishOp_canon) | (with_reducible apply State.updOp_canon) | (fail_if_no_progress (with_reducible apply State.Canon.other)) | (fail_if_no_progress (with_reducible apply State.Canon.sluices)) | (fail_if_no_progress (with_reducible apply State.Canon.tables)) | split | (intro _))

theorem State.planMismatch_canon {s : State} {st : Stream} (hs : s.Canon) : (State.planMismatch s st).Canon := by
  unfold State.planMismatch
  try dsimp only
  (repeat' first | with_reducible assumption | (with_reducible refine State.Canon.foldl ?_ ?_) | (with_reducible apply State.cutOff_canon) | (with_reducible apply State.engineFault_canon) | (fail_if_no_progress (with_reducible apply State.Canon.other)) | (fail_if_no_progress (with_reducible apply State.Canon.sluices)) | (fail_if_no_progress (with_reducible apply State.Canon.tables)) | split | (intro _))

theorem State.repairUp_canon {s : State} {st : Stream} {dest : UpTo} {set : Nat} {dead : Nat} {freedPorts : List Nat} (hs : s.Canon) : (State.repairUp s st dest set dead freedPorts).Canon := by
  unfold State.repairUp
  try dsimp only
  (repeat' first | with_reducible assumption | (with_reducible refine State.Canon.foldl ?_ ?_) | (with_reducible apply State.rootDied_canon) | (with_reducible apply State.memberDied_canon) | (with_reducible apply State.setStream_canon) | (refine State.sendUp_canon (by assumption) ?_) | (with_reducible refine State.sendUp_canon (Prod.eta _).symm ?_) | (refine State.moved_canon (by assumption) ?_) | (with_reducible refine State.moved_canon (Prod.eta _).symm ?_) | (fail_if_no_progress (with_reducible apply State.Canon.other)) | (fail_if_no_progress (with_reducible apply State.Canon.sluices)) | (fail_if_no_progress (with_reducible apply State.Canon.tables)) | split | (intro _))

theorem State.tellDeath_canon {s : State} {st : Stream} {dead : Nat} (hs : s.Canon) : (State.tellDeath s st dead).Canon := by
  unfold State.tellDeath
  try dsimp only
  (repeat' first | with_reducible assumption | (with_reducible refine State.Canon.foldl ?_ ?_) | (with_reducible apply State.memberDied_canon) | (with_reducible apply State.toEntry_canon) | (fail_if_no_progress (with_reducible apply State.Canon.other)) | (fail_if_no_progress (with_reducible apply State.Canon.sluices)) | (fail_if_no_progress (with_reducible apply State.Canon.tables)) | split | (intro _))

theorem State.deathUp_canon {s : State} {st : Stream} {out : State} (e : State.deathUp s st = some out) (hs : s.Canon) : out.Canon := by
  unfold State.deathUp at e
  try dsimp only at e
  (repeat' split at e) <;> (try simp only [Except.ok.injEq, Option.some.injEq, Prod.mk.injEq, reduceCtorEq] at e) <;> (first | (obtain ⟨e1, e2⟩ := e; subst e1 e2) | (subst e) | skip) <;> (repeat' first | with_reducible assumption | (with_reducible refine State.Canon.foldl ?_ ?_) | (with_reducible apply State.tellDeath_canon) | (with_reducible apply State.repairUp_canon) | (with_reducible apply State.setStream_canon) | (fail_if_no_progress (with_reducible apply State.Canon.other)) | (fail_if_no_progress (with_reducible apply State.Canon.sluices)) | (fail_if_no_progress (with_reducible apply State.Canon.tables)) | split | (intro _))

theorem State.repairFromBelow_canon {s : State} {st : Stream} {p : Nat} {set : Nat} {dead : Nat} {out : State} (e : State.repairFromBelow s st p set dead = some out) (hs : s.Canon) : out.Canon := by
  unfold State.repairFromBelow at e
  try dsimp only at e
  (repeat' split at e) <;> (try simp only [Except.ok.injEq, Option.some.injEq, Prod.mk.injEq, reduceCtorEq] at e) <;> (first | (obtain ⟨e1, e2⟩ := e; subst e1 e2) | (subst e) | skip) <;> (repeat' first | with_reducible assumption | (with_reducible refine State.Canon.foldl ?_ ?_) | (with_reducible apply State.repairUp_canon) | (with_reducible apply State.freed_canon) | (with_reducible apply State.setStream_canon) | (fail_if_no_progress (with_reducible apply State.Canon.other)) | (fail_if_no_progress (with_reducible apply State.Canon.sluices)) | (fail_if_no_progress (with_reducible apply State.Canon.tables)) | split | (intro _))

theorem State.upAll_canon {s : State} {st : Stream} {ps : List Nat} {heads : List StreamItem} {out : State} (e : State.upAll s st ps heads = some out) (hs : s.Canon) : out.Canon := by
  unfold State.upAll at e
  try dsimp only at e
  (repeat' split at e) <;> (try simp only [Except.ok.injEq, Option.some.injEq, Prod.mk.injEq, reduceCtorEq] at e) <;> (first | (obtain ⟨e1, e2⟩ := e; subst e1 e2) | (subst e) | skip) <;> (repeat' first | with_reducible assumption | (with_reducible refine State.Canon.foldl ?_ ?_) | (with_reducible apply State.planMismatch_canon) | (with_reducible apply State.leftLocal_canon) | (with_reducible apply State.freed_canon) | (with_reducible apply State.setStream_canon) | (refine State.sendUp_canon (by assumption) ?_) | (with_reducible refine State.sendUp_canon (Prod.eta _).symm ?_) | (refine State.moved_canon (by assumption) ?_) | (with_reducible refine State.moved_canon (Prod.eta _).symm ?_) | (fail_if_no_progress (with_reducible apply State.Canon.other)) | (fail_if_no_progress (with_reducible apply State.Canon.sluices)) | (fail_if_no_progress (with_reducible apply State.Canon.tables)) | split | (intro _))

theorem State.absentStep_canon {s : State} {st : Stream} {out : State} (e : State.absentStep s st = some out) (hs : s.Canon) : out.Canon := by
  unfold State.absentStep at e
  try dsimp only at e
  (repeat' split at e) <;> (try simp only [Except.ok.injEq, Option.some.injEq, Prod.mk.injEq, reduceCtorEq] at e) <;> (first | (obtain ⟨e1, e2⟩ := e; subst e1 e2) | (subst e) | skip) <;> (repeat' first | with_reducible assumption | (with_reducible refine State.Canon.foldl ?_ ?_) | (with_reducible apply State.planMismatch_canon) | (with_reducible apply State.leftLocal_canon) | (with_reducible apply State.setStream_canon) | (refine State.moved_canon (by assumption) ?_) | (with_reducible refine State.moved_canon (Prod.eta _).symm ?_) | (fail_if_no_progress (with_reducible apply State.Canon.other)) | (fail_if_no_progress (with_reducible apply State.Canon.sluices)) | (fail_if_no_progress (with_reducible apply State.Canon.tables)) | split | (intro _))

theorem State.upStep_canon {s : State} {st : Stream} {out : State} (e : State.upStep s st = some out) (hs : s.Canon) : out.Canon := by
  unfold State.upStep at e
  try dsimp only at e
  (repeat' split at e) <;> (try simp only [Except.ok.injEq, Option.some.injEq, Prod.mk.injEq, reduceCtorEq] at e) <;> (first | (obtain ⟨e1, e2⟩ := e; subst e1 e2) | (subst e) | skip) <;> (repeat' first | with_reducible assumption | (with_reducible refine State.Canon.foldl ?_ ?_) | (with_reducible apply State.planMismatch_canon) | (refine State.absentStep_canon (by assumption) ?_) | (with_reducible refine State.absentStep_canon (guarded_some (by with_reducible assumption)) ?_) | (refine State.upAll_canon (by assumption) ?_) | (with_reducible refine State.upAll_canon (guarded_some (by with_reducible assumption)) ?_) | (refine State.repairFromBelow_canon (by assumption) ?_) | (with_reducible refine State.repairFromBelow_canon (guarded_some (by with_reducible assumption)) ?_) | (refine State.deathUp_canon (by assumption) ?_) | (with_reducible refine State.deathUp_canon (guarded_some (by with_reducible assumption)) ?_) | (fail_if_no_progress (with_reducible apply State.Canon.other)) | (fail_if_no_progress (with_reducible apply State.Canon.sluices)) | (fail_if_no_progress (with_reducible apply State.Canon.tables)) | split | (intro _))

theorem State.endRows_canon {s : State} {st : Stream} {e : Nat} {ret : _} {out : State} (e : State.endRows s st e = (out, ret)) (hs : s.Canon) : out.Canon := by
  unfold State.endRows at e
  try dsimp only at e
  (repeat' split at e) <;> (try simp only [Except.ok.injEq, Option.some.injEq, Prod.mk.injEq, reduceCtorEq] at e) <;> (first | (obtain ⟨e1, e2⟩ := e; subst e1 e2) | (subst e) | skip) <;> (repeat' first | with_reducible assumption | (with_reducible refine State.Canon.foldl ?_ ?_) | (with_reducible apply State.emit_canon) | (fail_if_no_progress (with_reducible apply State.Canon.other)) | (fail_if_no_progress (with_reducible apply State.Canon.sluices)) | (fail_if_no_progress (with_reducible apply State.Canon.tables)) | split | (intro _))

theorem State.sendDown_canon {s : State} {st : Stream} {e : Nat} {item : StreamItem} {lossy : Bool} {ret : _} {out : State} (e : State.sendDown s st e item lossy = (out, ret)) (hs : s.Canon) : out.Canon := by
  unfold State.sendDown at e
  try dsimp only at e
  (repeat' split at e) <;> (try simp only [Except.ok.injEq, Option.some.injEq, Prod.mk.injEq, reduceCtorEq] at e) <;> (first | (obtain ⟨e1, e2⟩ := e; subst e1 e2) | (subst e) | skip) <;> (repeat' first | with_reducible assumption | (with_reducible refine State.Canon.foldl ?_ ?_) | (with_reducible apply State.toEntry_canon) | (refine State.endRows_canon (by assumption) ?_) | (with_reducible refine State.endRows_canon (Prod.eta _).symm ?_) | (fail_if_no_progress (with_reducible apply State.Canon.other)) | (fail_if_no_progress (with_reducible apply State.Canon.sluices)) | (fail_if_no_progress (with_reducible apply State.Canon.tables)) | split | (intro _))

theorem State.downServe_canon {s : State} {st : Stream} {item : StreamItem} {out : State} (e : State.downServe s st item = some out) (hs : s.Canon) : out.Canon := by
  unfold State.downServe at e
  try dsimp only at e
  (repeat' split at e) <;> (try simp only [Except.ok.injEq, Option.some.injEq, Prod.mk.injEq, reduceCtorEq] at e) <;> (first | (obtain ⟨e1, e2⟩ := e; subst e1 e2) | (subst e) | skip) <;> (repeat' first | with_reducible assumption | (with_reducible refine State.Canon.foldl ?_ ?_) | (with_reducible apply State.setStream_canon) | (refine State.sendDown_canon (by assumption) ?_) | (with_reducible refine State.sendDown_canon (Prod.eta _).symm ?_) | (fail_if_no_progress (with_reducible apply State.Canon.other)) | (fail_if_no_progress (with_reducible apply State.Canon.sluices)) | (fail_if_no_progress (with_reducible apply State.Canon.tables)) | split | (intro _))

theorem State.downLocal_canon {s : State} {st : Stream} {item : StreamItem} {out : State} (e : State.downLocal s st item = some out) (hs : s.Canon) : out.Canon := by
  unfold State.downLocal at e
  try dsimp only at e
  (repeat' split at e) <;> (try simp only [Except.ok.injEq, Option.some.injEq, Prod.mk.injEq, reduceCtorEq] at e) <;> (first | (obtain ⟨e1, e2⟩ := e; subst e1 e2) | (subst e) | skip) <;> (repeat' first | with_reducible assumption | (with_reducible refine State.Canon.foldl ?_ ?_) | (with_reducible apply State.getRow_canon) | (with_reducible apply State.setStream_canon) | (refine State.oldest_canon (by assumption) ?_) | (with_reducible refine State.oldest_canon (Prod.eta _).symm ?_) | (fail_if_no_progress (with_reducible apply State.Canon.other)) | (fail_if_no_progress (with_reducible apply State.Canon.sluices)) | (fail_if_no_progress (with_reducible apply State.Canon.tables)) | split | (intro _))

theorem State.passDown_canon {s : State} {st : Stream} {w : W64} {freedPorts : List Nat} (hs : s.Canon) : (State.passDown s st w freedPorts).Canon := by
  unfold State.passDown
  try dsimp only
  (repeat' first | with_reducible assumption | (with_reducible refine State.Canon.foldl ?_ ?_) | (with_reducible apply State.retryOpens_canon) | (with_reducible apply State.dropStream_canon) | (with_reducible apply State.setStream_canon) | (refine State.moved_canon (by assumption) ?_) | (with_reducible refine State.moved_canon (Prod.eta _).symm ?_) | (fail_if_no_progress (with_reducible apply State.Canon.other)) | (fail_if_no_progress (with_reducible apply State.Canon.sluices)) | (fail_if_no_progress (with_reducible apply State.Canon.tables)) | split | (intro _))

theorem State.downMarker_canon {s : State} {st : Stream} {w : W64} (hs : s.Canon) : (State.downMarker s st w).Canon := by
  unfold State.downMarker
  try dsimp only
  (repeat' first | with_reducible assumption | (with_reducible refine State.Canon.foldl ?_ ?_) | (with_reducible apply State.passDown_canon) | (fail_if_no_progress (with_reducible apply State.Canon.other)) | (fail_if_no_progress (with_reducible apply State.Canon.sluices)) | (fail_if_no_progress (with_reducible apply State.Canon.tables)) | split | (intro _))

theorem State.absentDown_canon {s : State} {st : Stream} {out : State} (e : State.absentDown s st = some out) (hs : s.Canon) : out.Canon := by
  unfold State.absentDown at e
  try dsimp only at e
  (repeat' split at e) <;> (try simp only [Except.ok.injEq, Option.some.injEq, Prod.mk.injEq, reduceCtorEq] at e) <;> (first | (obtain ⟨e1, e2⟩ := e; subst e1 e2) | (subst e) | skip) <;> (repeat' first | with_reducible assumption | (with_reducible refine State.Canon.foldl ?_ ?_) | (with_reducible apply State.passDown_canon) | (fail_if_no_progress (with_reducible apply State.Canon.other)) | (fail_if_no_progress (with_reducible apply State.Canon.sluices)) | (fail_if_no_progress (with_reducible apply State.Canon.tables)) | split | (intro _))

theorem State.downRepair_canon {s : State} {st : Stream} {set : Nat} {dead : Nat} (hs : s.Canon) : (State.downRepair s st set dead).Canon := by
  unfold State.downRepair
  try dsimp only
  (repeat' first | with_reducible assumption | (with_reducible refine State.Canon.foldl ?_ ?_) | (with_reducible apply State.cutOff_canon) | (with_reducible apply State.rootDied_canon) | (with_reducible apply State.setStream_canon) | (refine State.moved_canon (by assumption) ?_) | (with_reducible refine State.moved_canon (Prod.eta _).symm ?_) | (fail_if_no_progress (with_reducible apply State.Canon.other)) | (fail_if_no_progress (with_reducible apply State.Canon.sluices)) | (fail_if_no_progress (with_reducible apply State.Canon.tables)) | split | (intro _))

theorem State.downHead_canon {s : State} {st : Stream} {out : State} (e : State.downHead s st = some out) (hs : s.Canon) : out.Canon := by
  unfold State.downHead at e
  try dsimp only at e
  (repeat' split at e) <;> (try simp only [Except.ok.injEq, Option.some.injEq, Prod.mk.injEq, reduceCtorEq] at e) <;> (first | (obtain ⟨e1, e2⟩ := e; subst e1 e2) | (subst e) | skip) <;> (repeat' first | with_reducible assumption | (with_reducible refine State.Canon.foldl ?_ ?_) | (with_reducible apply State.downRepair_canon) | (with_reducible apply State.downMarker_canon) | (with_reducible apply State.freed_canon) | (with_reducible apply State.setStream_canon) | (refine State.downLocal_canon (by assumption) ?_) | (with_reducible refine State.downLocal_canon (guarded_some (by with_reducible assumption)) ?_) | (refine State.downServe_canon (by assumption) ?_) | (with_reducible refine State.downServe_canon (guarded_some (by with_reducible assumption)) ?_) | (fail_if_no_progress (with_reducible apply State.Canon.other)) | (fail_if_no_progress (with_reducible apply State.Canon.sluices)) | (fail_if_no_progress (with_reducible apply State.Canon.tables)) | split | (intro _))

theorem State.downStep_canon {s : State} {st : Stream} {out : State} (e : State.downStep s st = some out) (hs : s.Canon) : out.Canon := by
  unfold State.downStep at e
  try dsimp only at e
  (repeat' split at e) <;> (try simp only [Except.ok.injEq, Option.some.injEq, Prod.mk.injEq, reduceCtorEq] at e) <;> (first | (obtain ⟨e1, e2⟩ := e; subst e1 e2) | (subst e) | skip) <;> (repeat' first | with_reducible assumption | (with_reducible refine State.Canon.foldl ?_ ?_) | (refine State.downHead_canon (by assumption) ?_) | (with_reducible refine State.downHead_canon (guarded_some (by with_reducible assumption)) ?_) | (refine State.absentDown_canon (by assumption) ?_) | (with_reducible refine State.absentDown_canon (guarded_some (by with_reducible assumption)) ?_) | (fail_if_no_progress (with_reducible apply State.Canon.other)) | (fail_if_no_progress (with_reducible apply State.Canon.sluices)) | (fail_if_no_progress (with_reducible apply State.Canon.tables)) | split | (intro _))

theorem State.feedStep_canon {s : State} {st : Stream} {out : State} (e : State.feedStep s st = some out) (hs : s.Canon) : out.Canon := by
  unfold State.feedStep at e
  try dsimp only at e
  (repeat' split at e) <;> (try simp only [Except.ok.injEq, Option.some.injEq, Prod.mk.injEq, reduceCtorEq] at e) <;> (first | (obtain ⟨e1, e2⟩ := e; subst e1 e2) | (subst e) | skip) <;> (repeat' first | with_reducible assumption | (with_reducible refine State.Canon.foldl ?_ ?_) | (with_reducible apply State.id_canon) | (with_reducible apply State.setStream_canon) | (with_reducible apply State.failOp_canon) | (with_reducible apply State.finishOp_canon) | (with_reducible apply State.updOp_canon) | (with_reducible apply State.post_canon) | (fail_if_no_progress (with_reducible apply State.Canon.other)) | (fail_if_no_progress (with_reducible apply State.Canon.sluices)) | (fail_if_no_progress (with_reducible apply State.Canon.tables)) | split | (intro _))

theorem State.emptyGet_canon {s : State} {st : Stream} {out : State} (e : State.emptyGet s st = some out) (hs : s.Canon) : out.Canon := by
  unfold State.emptyGet at e
  try dsimp only at e
  (repeat' split at e) <;> (try simp only [Except.ok.injEq, Option.some.injEq, Prod.mk.injEq, reduceCtorEq] at e) <;> (first | (obtain ⟨e1, e2⟩ := e; subst e1 e2) | (subst e) | skip) <;> (repeat' first | with_reducible assumption | (with_reducible refine State.Canon.foldl ?_ ?_) | (with_reducible apply State.id_canon) | (with_reducible apply State.endGet_canon) | (with_reducible apply State.failOp_canon) | (with_reducible apply State.updOp_canon) | (fail_if_no_progress (with_reducible apply State.Canon.other)) | (fail_if_no_progress (with_reducible apply State.Canon.sluices)) | (fail_if_no_progress (with_reducible apply State.Canon.tables)) | split | (intro _))

theorem State.routerStep_canon {s : State} {st : Stream} {out : State} (e : State.routerStep s st = some out) (hs : s.Canon) : out.Canon := by
  unfold State.routerStep at e
  try dsimp only at e
  (repeat' split at e) <;> (try simp only [Except.ok.injEq, Option.some.injEq, Prod.mk.injEq, reduceCtorEq] at e) <;> (first | (obtain ⟨e1, e2⟩ := e; subst e1 e2) | (subst e) | skip) <;> (repeat' first | with_reducible assumption | (with_reducible refine State.Canon.foldl ?_ ?_) | (refine State.emptyGet_canon (by assumption) ?_) | (with_reducible refine State.emptyGet_canon (guarded_some (by with_reducible assumption)) ?_) | (refine State.feedStep_canon (by assumption) ?_) | (with_reducible refine State.feedStep_canon (guarded_some (by with_reducible assumption)) ?_) | (refine State.downStep_canon (by assumption) ?_) | (with_reducible refine State.downStep_canon (guarded_some (by with_reducible assumption)) ?_) | (refine State.upStep_canon (by assumption) ?_) | (with_reducible refine State.upStep_canon (guarded_some (by with_reducible assumption)) ?_) | (fail_if_no_progress (with_reducible apply State.Canon.other)) | (fail_if_no_progress (with_reducible apply State.Canon.sluices)) | (fail_if_no_progress (with_reducible apply State.Canon.tables)) | split | (intro _))

theorem State.pump_canon {core : Nat} {vsn : Nat} {x0 : Nat} {x1 : State} (hx1 : x1.Canon) : (State.pump core vsn x0 x1).Canon := by
  induction x0 generalizing core vsn x1 with
  | zero => rw [State.pump] <;> (try dsimp only) <;> (repeat' first | with_reducible assumption | (with_reducible refine State.Canon.foldl ?_ ?_) | (with_reducible apply State.endBroken_canon) | (refine State.routerStep_canon (by assumption) ?_) | (with_reducible refine State.routerStep_canon (guarded_some (by with_reducible assumption)) ?_) | (fail_if_no_progress (with_reducible apply State.Canon.other)) | (fail_if_no_progress (with_reducible apply State.Canon.sluices)) | (fail_if_no_progress (with_reducible apply State.Canon.tables)) | split | (intro _) | (with_reducible apply State.endBroken_canon) | (refine State.routerStep_canon (by assumption) ?_) | (with_reducible refine State.routerStep_canon (guarded_some (by with_reducible assumption)) ?_) | split | (intro _))
  | succ _ ih => rw [State.pump] <;> (try dsimp only) <;> (repeat' first | with_reducible assumption | (with_reducible refine State.Canon.foldl ?_ ?_) | (with_reducible apply State.endBroken_canon) | (refine State.routerStep_canon (by assumption) ?_) | (with_reducible refine State.routerStep_canon (guarded_some (by with_reducible assumption)) ?_) | (fail_if_no_progress (with_reducible apply State.Canon.other)) | (fail_if_no_progress (with_reducible apply State.Canon.sluices)) | (fail_if_no_progress (with_reducible apply State.Canon.tables)) | split | (intro _) | (with_reducible apply ih) | (with_reducible apply State.endBroken_canon) | (refine State.routerStep_canon (by assumption) ?_) | (with_reducible refine State.routerStep_canon (guarded_some (by with_reducible assumption)) ?_) | split | (intro _))

theorem State.work_canon {s : State} {core : Nat} {vsn : Nat} (hs : s.Canon) : (State.work s core vsn).Canon := by
  unfold State.work
  try dsimp only
  (repeat' first | with_reducible assumption | (with_reducible refine State.Canon.foldl ?_ ?_) | (with_reducible apply State.pump_canon) | (fail_if_no_progress (with_reducible apply State.Canon.other)) | (fail_if_no_progress (with_reducible apply State.Canon.sluices)) | (fail_if_no_progress (with_reducible apply State.Canon.tables)) | split | (intro _))

theorem State.onStream_canon {s : State} {core : Nat} {vsn : Nat} {f : Stream → State → State} (hs : s.Canon) (hf : ∀ a0 a1, a1.Canon → (f a0 a1).Canon) : (State.onStream s core vsn f).Canon := by
  unfold State.onStream
  try dsimp only
  (repeat' first | with_reducible assumption | (with_reducible refine State.Canon.foldl ?_ ?_) | (with_reducible apply hf) | (with_reducible apply State.work_canon) | (fail_if_no_progress (with_reducible apply State.Canon.other)) | (fail_if_no_progress (with_reducible apply State.Canon.sluices)) | (fail_if_no_progress (with_reducible apply State.Canon.tables)) | split | (intro _))

theorem State.rowHeld_canon {s : State} {st : Stream} {port : Nat} (hs : s.Canon) : (State.rowHeld s st port).Canon := by
  unfold State.rowHeld
  try dsimp only
  (repeat' first | with_reducible assumption | (with_reducible refine State.Canon.foldl ?_ ?_) | (with_reducible apply State.notice_canon) | (fail_if_no_progress (with_reducible apply State.Canon.other)) | (fail_if_no_progress (with_reducible apply State.Canon.sluices)) | (fail_if_no_progress (with_reducible apply State.Canon.tables)) | split | (intro _))

theorem State.judgeBlock_canon {s : State} {st : Stream} {b : RowBlock} (hs : s.Canon) : (State.judgeBlock s st b).Canon := by
  unfold State.judgeBlock
  try dsimp only
  (repeat' first | with_reducible assumption | (with_reducible refine State.Canon.foldl ?_ ?_) | (with_reducible apply State.freed_canon) | (with_reducible apply State.setStream_canon) | (fail_if_no_progress (with_reducible apply State.Canon.other)) | (fail_if_no_progress (with_reducible apply State.Canon.sluices)) | (fail_if_no_progress (with_reducible apply State.Canon.tables)) | split | (intro _))

theorem State.onBlock_canon {s : State} {st : Stream} {num : Nat} {f : RowBlock → RowBlock} (hs : s.Canon) : (State.onBlock s st num f).Canon := by
  unfold State.onBlock
  try dsimp only
  (repeat' first | with_reducible assumption | (with_reducible refine State.Canon.foldl ?_ ?_) | (with_reducible apply State.judgeBlock_canon) | (with_reducible apply State.setStream_canon) | (fail_if_no_progress (with_reducible apply State.Canon.other)) | (fail_if_no_progress (with_reducible apply State.Canon.sluices)) | (fail_if_no_progress (with_reducible apply State.Canon.tables)) | split | (intro _))

theorem State.lossyRow_canon {s : State} {st : Stream} {num : Nat} {r : Option (List Byte)} (hs : s.Canon) : (State.lossyRow s st num r).Canon := by
  unfold State.lossyRow
  try dsimp only
  (repeat' first | with_reducible assumption | (with_reducible refine State.Canon.foldl ?_ ?_) | (with_reducible apply State.onBlock_canon) | (with_reducible apply State.freed_canon) | (fail_if_no_progress (with_reducible apply State.Canon.other)) | (fail_if_no_progress (with_reducible apply State.Canon.sluices)) | (fail_if_no_progress (with_reducible apply State.Canon.tables)) | split | (intro _))

theorem State.nameRows_canon {s : State} {core : Nat} {vsn : Nat} {num : Nat} {rows : Nat} {crc : W32} (hs : s.Canon) : (State.nameRows s core vsn num rows crc).Canon := by
  unfold State.nameRows
  try dsimp only
  (repeat' first | with_reducible assumption | (with_reducible refine State.Canon.foldl ?_ ?_) | (with_reducible apply State.onBlock_canon) | (with_reducible apply State.onStream_canon) | (with_reducible apply State.postIn_canon) | (fail_if_no_progress (with_reducible apply State.Canon.other)) | (fail_if_no_progress (with_reducible apply State.Canon.sluices)) | (fail_if_no_progress (with_reducible apply State.Canon.tables)) | split | (intro _))

theorem State.expireRows_canon {s : State} {core : Nat} {vsn : Nat} (hs : s.Canon) : (State.expireRows s core vsn).Canon := by
  unfold State.expireRows
  try dsimp only
  (repeat' first | with_reducible assumption | (with_reducible refine State.Canon.foldl ?_ ?_) | (with_reducible apply State.judgeBlock_canon) | (with_reducible apply State.onStream_canon) | (fail_if_no_progress (with_reducible apply State.Canon.other)) | (fail_if_no_progress (with_reducible apply State.Canon.sluices)) | (fail_if_no_progress (with_reducible apply State.Canon.tables)) | split | (intro _))

theorem execLossyBlockNotice_canon {h : LossyOf} {n : LossyNotice} {s : State} (hs : s.Canon) : OutCanon (execLossyBlockNotice h n s) := by
  unfold execLossyBlockNotice
  try dsimp only
  (repeat' first | with_reducible assumption | (with_reducible apply OutCanon.next) | (with_reducible exact OutCanon.fault) | (with_reducible refine State.Canon.foldl ?_ ?_) | (with_reducible apply State.nameRows_canon) | (with_reducible apply State.nameBlocks_canon) | (with_reducible apply State.next_canon) | (fail_if_no_progress (with_reducible apply State.Canon.other)) | (fail_if_no_progress (with_reducible apply State.Canon.sluices)) | (fail_if_no_progress (with_reducible apply State.Canon.tables)) | split | (intro _))

theorem execLosswinExpiry_canon {s : State} (hs : s.Canon) : OutCanon (execLosswinExpiry s) := by
  unfold execLosswinExpiry
  try dsimp only
  (repeat' first | with_reducible assumption | (with_reducible apply OutCanon.next) | (with_reducible exact OutCanon.fault) | (with_reducible refine State.Canon.foldl ?_ ?_) | (with_reducible apply State.expireRows_canon) | (with_reducible apply State.expire_canon) | (with_reducible apply State.next_canon) | (fail_if_no_progress (with_reducible apply State.Canon.other)) | (fail_if_no_progress (with_reducible apply State.Canon.sluices)) | (fail_if_no_progress (with_reducible apply State.Canon.tables)) | split | (intro _))

theorem execRouterRowArrival_canon {core : Nat} {vsn : Nat} {port : Nat} {row : RowFlit} {s : State} (hs : s.Canon) : OutCanon (execRouterRowArrival core vsn port row s) := by
  unfold execRouterRowArrival
  try dsimp only
  (repeat' first | with_reducible assumption | (with_reducible apply OutCanon.next) | (with_reducible exact OutCanon.fault) | (with_reducible refine State.Canon.foldl ?_ ?_) | (with_reducible apply State.lossyRow_canon) | (with_reducible apply State.rowHeld_canon) | (with_reducible apply State.onStream_canon) | (with_reducible apply State.setStream_canon) | (with_reducible apply State.next_canon) | (fail_if_no_progress (with_reducible apply State.Canon.other)) | (fail_if_no_progress (with_reducible apply State.Canon.sluices)) | (fail_if_no_progress (with_reducible apply State.Canon.tables)) | split | (intro _))

theorem State.sentRow_canon {s : State} {core : Nat} {vsn : Nat} {entry : Nat} (hs : s.Canon) : (State.sentRow s core vsn entry).Canon := by
  unfold State.sentRow
  try dsimp only
  (repeat' first | with_reducible assumption | (with_reducible refine State.Canon.foldl ?_ ?_) | (with_reducible apply State.leftLocal_canon) | (with_reducible apply State.setStream_canon) | (fail_if_no_progress (with_reducible apply State.Canon.other)) | (fail_if_no_progress (with_reducible apply State.Canon.sluices)) | (fail_if_no_progress (with_reducible apply State.Canon.tables)) | split | (intro _))

theorem State.entryDead_canon {s : State} {st : Stream} {dead : Nat} (hs : s.Canon) : (State.entryDead s st dead).Canon := by
  unfold State.entryDead
  try dsimp only
  (repeat' first | with_reducible assumption | (with_reducible refine State.Canon.foldl ?_ ?_) | (with_reducible apply State.cutOff_canon) | (with_reducible apply State.rootDied_canon) | (with_reducible apply State.setStream_canon) | (fail_if_no_progress (with_reducible apply State.Canon.other)) | (fail_if_no_progress (with_reducible apply State.Canon.sluices)) | (fail_if_no_progress (with_reducible apply State.Canon.tables)) | split | (intro _))

theorem State.pathDead_canon {s : State} {st : Stream} {dead : Nat} (hs : s.Canon) : (State.pathDead s st dead).Canon := by
  unfold State.pathDead
  try dsimp only
  (repeat' first | with_reducible assumption | (with_reducible refine State.Canon.foldl ?_ ?_) | (with_reducible apply State.cutOff_canon) | (with_reducible apply State.rootDied_canon) | (with_reducible apply State.setStream_canon) | (fail_if_no_progress (with_reducible apply State.Canon.other)) | (fail_if_no_progress (with_reducible apply State.Canon.sluices)) | (fail_if_no_progress (with_reducible apply State.Canon.tables)) | split | (intro _))

theorem execRouterMarker_canon {core : Nat} {vsn : Nat} {port : Nat} {item : StreamItem} {s : State} (hs : s.Canon) : OutCanon (execRouterMarker core vsn port item s) := by
  unfold execRouterMarker
  try dsimp only
  (repeat' first | with_reducible assumption | (with_reducible apply OutCanon.next) | (with_reducible exact OutCanon.fault) | (with_reducible refine State.Canon.foldl ?_ ?_) | (with_reducible apply State.pathDead_canon) | (with_reducible apply State.lossyRow_canon) | (with_reducible apply State.onStream_canon) | (with_reducible apply State.tellDeath_canon) | (with_reducible apply State.cutOff_canon) | (with_reducible apply State.setStream_canon) | (with_reducible apply State.next_canon) | (fail_if_no_progress (with_reducible apply State.Canon.other)) | (fail_if_no_progress (with_reducible apply State.Canon.sluices)) | (fail_if_no_progress (with_reducible apply State.Canon.tables)) | split | (intro _))

theorem State.entryReady_canon {s : State} {st : Stream} {e : Nat} (hs : s.Canon) : (State.entryReady s st e).Canon := by
  unfold State.entryReady
  try dsimp only
  (repeat' first | with_reducible assumption | (with_reducible refine State.Canon.foldl ?_ ?_) | (with_reducible apply State.checkOpen_canon) | (with_reducible apply State.offer_canon) | (with_reducible apply State.setStream_canon) | (fail_if_no_progress (with_reducible apply State.Canon.other)) | (fail_if_no_progress (with_reducible apply State.Canon.sluices)) | (fail_if_no_progress (with_reducible apply State.Canon.tables)) | split | (intro _))

theorem State.remember_canon {s : State} {core : Nat} {vsn : Nat} {entry : Nat} (hs : s.Canon) : (State.remember s core vsn entry).Canon := by
  unfold State.remember
  try dsimp only
  (repeat' first | with_reducible assumption | (with_reducible refine State.Canon.foldl ?_ ?_) | (fail_if_no_progress (with_reducible apply State.Canon.other)) | (fail_if_no_progress (with_reducible apply State.Canon.sluices)) | (fail_if_no_progress (with_reducible apply State.Canon.tables)) | split | (intro _))

theorem execRouterSlotFreeNotice_canon {core : Nat} {vsn : Nat} {entry : Nat} {port : Nat} {lossy : Bool} {s : State} (hs : s.Canon) : OutCanon (execRouterSlotFreeNotice core vsn entry port lossy s) := by
  unfold execRouterSlotFreeNotice
  try dsimp only
  (repeat' first | with_reducible assumption | (with_reducible apply OutCanon.next) | (with_reducible exact OutCanon.fault) | (with_reducible refine State.Canon.foldl ?_ ?_) | (with_reducible apply State.remember_canon) | (with_reducible apply State.entryReady_canon) | (with_reducible apply State.sentRow_canon) | (with_reducible apply State.onStream_canon) | (with_reducible apply State.work_canon) | (with_reducible apply State.setStream_canon) | (with_reducible apply State.next_canon) | (fail_if_no_progress (with_reducible apply State.Canon.other)) | (fail_if_no_progress (with_reducible apply State.Canon.sluices)) | (fail_if_no_progress (with_reducible apply State.Canon.tables)) | split | (intro _))

theorem execRouterMemberDeath_canon {core : Nat} {vsn : Nat} {entry : Nat} {s : State} (hs : s.Canon) : OutCanon (execRouterMemberDeath core vsn entry s) := by
  unfold execRouterMemberDeath
  try dsimp only
  (repeat' first | with_reducible assumption | (with_reducible apply OutCanon.next) | (with_reducible exact OutCanon.fault) | (with_reducible refine State.Canon.foldl ?_ ?_) | (with_reducible apply State.entryDead_canon) | (with_reducible apply State.sentRow_canon) | (with_reducible apply State.onStream_canon) | (with_reducible apply State.next_canon) | (fail_if_no_progress (with_reducible apply State.Canon.other)) | (fail_if_no_progress (with_reducible apply State.Canon.sluices)) | (fail_if_no_progress (with_reducible apply State.Canon.tables)) | split | (intro _))

end Sys2Proof.Machine
end

