-- ==== Sys2Proof/Laws/CanonCollective.lean ====
section
/-!
SUPPORT. Every function of Machine/Collective.lean keeps the canonical form of the storages.
-/

namespace Sys2Proof.Machine

open Sys2Proof

set_option linter.unusedTactic false
set_option linter.unreachableTactic false
set_option linter.unusedSimpArgs false
set_option linter.unnecessarySeqFocus false

theorem State.collIssue_canon {s : State} {f : ColFmt} {dsts : List (BitVec 7)} {srcs : List (BitVec 7)} {addrs : List Check} {range : Check} {values : List Bool} {peers : List W64} {lines : Check} {effect : State → State} (hs : s.Canon) (heffect : ∀ a0, a0.Canon → (effect a0).Canon) : OutCanon (State.collIssue s f dsts srcs addrs range values peers lines effect) := by
  unfold State.collIssue
  try dsimp only
  (repeat' first | with_reducible assumption | (with_reducible apply OutCanon.next) | (with_reducible exact OutCanon.fault) | (with_reducible refine State.Canon.foldl ?_ ?_) | (with_reducible apply heffect) | (with_reducible apply State.perform_canon) | (with_reducible apply State.next_canon) | (fail_if_no_progress (with_reducible apply State.Canon.other)) | (fail_if_no_progress (with_reducible apply State.Canon.sluices)) | (fail_if_no_progress (with_reducible apply State.Canon.tables)) | split | (intro _))

theorem execCollOpen_canon {f : ColFmt} {s : State} (hs : s.Canon) : OutCanon (execCollOpen f s) := by
  unfold execCollOpen
  try dsimp only
  (repeat' first | with_reducible assumption | (with_reducible apply OutCanon.next) | (with_reducible exact OutCanon.fault) | (with_reducible refine State.Canon.foldl ?_ ?_) | (with_reducible apply State.collIssue_canon) | (with_reducible apply State.issueOp_canon) | (fail_if_no_progress (with_reducible apply State.Canon.other)) | (fail_if_no_progress (with_reducible apply State.Canon.sluices)) | (fail_if_no_progress (with_reducible apply State.Canon.tables)) | split | (intro _))

theorem execCollPut_canon {f : ColFmt} {s : State} (hs : s.Canon) : OutCanon (execCollPut f s) := by
  unfold execCollPut
  try dsimp only
  (repeat' first | with_reducible assumption | (with_reducible apply OutCanon.next) | (with_reducible exact OutCanon.fault) | (with_reducible refine State.Canon.foldl ?_ ?_) | (with_reducible apply State.collIssue_canon) | (with_reducible apply State.issueOp_canon) | (with_reducible apply State.updCur_canon) | (fail_if_no_progress (with_reducible apply State.Canon.other)) | (fail_if_no_progress (with_reducible apply State.Canon.sluices)) | (fail_if_no_progress (with_reducible apply State.Canon.tables)) | split | (intro _))

theorem execCollGet_canon {f : ColFmt} {s : State} (hs : s.Canon) : OutCanon (execCollGet f s) := by
  unfold execCollGet
  try dsimp only
  (repeat' first | with_reducible assumption | (with_reducible apply OutCanon.next) | (with_reducible exact OutCanon.fault) | (with_reducible refine State.Canon.foldl ?_ ?_) | (with_reducible apply State.collIssue_canon) | (with_reducible apply State.issueOp_canon) | (with_reducible apply State.markEmpty_canon) | (with_reducible apply State.updCur_canon) | (fail_if_no_progress (with_reducible apply State.Canon.other)) | (fail_if_no_progress (with_reducible apply State.Canon.sluices)) | (fail_if_no_progress (with_reducible apply State.Canon.tables)) | split | (intro _))

theorem execCollMark_canon {f : ColFmt} {s : State} (hs : s.Canon) : OutCanon (execCollMark f s) := by
  unfold execCollMark
  try dsimp only
  (repeat' first | with_reducible assumption | (with_reducible apply OutCanon.next) | (with_reducible exact OutCanon.fault) | (with_reducible refine State.Canon.foldl ?_ ?_) | (with_reducible apply State.collIssue_canon) | (with_reducible apply State.issueOp_canon) | (fail_if_no_progress (with_reducible apply State.Canon.other)) | (fail_if_no_progress (with_reducible apply State.Canon.sluices)) | (fail_if_no_progress (with_reducible apply State.Canon.tables)) | split | (intro _))

theorem State.installStream_canon {s : State} {o : EngOp} {st : Stream} (hs : s.Canon) : (State.installStream s o st).Canon := by
  unfold State.installStream
  try dsimp only
  (repeat' first | with_reducible assumption | (with_reducible refine State.Canon.foldl ?_ ?_) | (with_reducible apply State.id_canon) | (with_reducible apply State.entryReady_canon) | (with_reducible apply State.work_canon) | (with_reducible apply State.checkOpen_canon) | (with_reducible apply State.notice_canon) | (with_reducible apply State.dropStream_canon) | (fail_if_no_progress (with_reducible apply State.Canon.other)) | (fail_if_no_progress (with_reducible apply State.Canon.sluices)) | (fail_if_no_progress (with_reducible apply State.Canon.tables)) | split | (intro _))

theorem State.planWords_canon {s : State} {o : EngOp} {vsn : Nat} {plan : W64} {combine : Nat} {ws : List W64} (hs : s.Canon) : (State.planWords s o vsn plan combine ws).Canon := by
  unfold State.planWords
  try dsimp only
  (repeat' first | with_reducible assumption | (with_reducible refine State.Canon.foldl ?_ ?_) | (with_reducible apply State.installStream_canon) | (with_reducible apply State.failOp_canon) | (fail_if_no_progress (with_reducible apply State.Canon.other)) | (fail_if_no_progress (with_reducible apply State.Canon.sluices)) | (fail_if_no_progress (with_reducible apply State.Canon.tables)) | split | (intro _))

theorem State.readPlan_canon {s : State} {o : EngOp} {vsn : Nat} {plan : W64} {combine : Nat} (hs : s.Canon) : (State.readPlan s o vsn plan combine).Canon := by
  unfold State.readPlan
  try dsimp only
  (repeat' first | with_reducible assumption | (with_reducible refine State.Canon.foldl ?_ ?_) | (with_reducible apply State.id_canon) | (with_reducible apply State.planWords_canon) | (with_reducible apply State.failOp_canon) | (with_reducible apply State.awaitPeer_canon) | (with_reducible apply State.emitFetch_canon) | (refine State.engineReadAll_canon (by assumption) ?_) | (with_reducible refine State.engineReadAll_canon (Prod.eta _).symm ?_) | (fail_if_no_progress (with_reducible apply State.Canon.other)) | (fail_if_no_progress (with_reducible apply State.Canon.sluices)) | (fail_if_no_progress (with_reducible apply State.Canon.tables)) | split | (intro _))

theorem execRouterInstall_canon {op : Nat} {s : State} (hs : s.Canon) : OutCanon (execRouterInstall op s) := by
  unfold execRouterInstall
  try dsimp only
  (repeat' first | with_reducible assumption | (with_reducible apply OutCanon.next) | (with_reducible exact OutCanon.fault) | (with_reducible refine State.Canon.foldl ?_ ?_) | (with_reducible apply State.readPlan_canon) | (with_reducible apply State.work_canon) | (with_reducible apply State.takeOp_canon) | (with_reducible apply State.next_canon) | (fail_if_no_progress (with_reducible apply State.Canon.other)) | (fail_if_no_progress (with_reducible apply State.Canon.sluices)) | (fail_if_no_progress (with_reducible apply State.Canon.tables)) | split | (intro _))

end Sys2Proof.Machine
end

