-- ==== Sys2Proof/Laws/CanonSpecialiser.lean ====
section
/-!
SUPPORT. Every function of Machine/Specialiser.lean keeps the canonical form of the storages.
-/

namespace Sys2Proof.Machine

open Sys2Proof

set_option linter.unusedTactic false
set_option linter.unreachableTactic false
set_option linter.unusedSimpArgs false
set_option linter.unnecessarySeqFocus false

theorem State.readCode_canon {s : State} {die : Nat} {tenant : Nat} {a : W64} {x0 : Nat} {ret : _} {out : State} (e : State.readCode s die tenant a x0 = (ret, out)) (hs : s.Canon) : out.Canon := by
  induction x0 generalizing s die tenant a ret out with
  | zero => rw [State.readCode] at e <;> (try dsimp only at e) <;> (repeat' split at e) <;> (try simp only [Except.ok.injEq, Option.some.injEq, Prod.mk.injEq, reduceCtorEq] at e) <;> (first | (obtain ⟨e1, e2⟩ := e; subst e1 e2) | (subst e) | skip) <;> (repeat' first | with_reducible assumption | (with_reducible refine State.Canon.foldl ?_ ?_) | (refine State.look_canon (by assumption) ?_) | (with_reducible refine State.look_canon (Prod.eta _).symm ?_) | (fail_if_no_progress (with_reducible apply State.Canon.other)) | (fail_if_no_progress (with_reducible apply State.Canon.sluices)) | (fail_if_no_progress (with_reducible apply State.Canon.tables)) | split | (intro _) | (refine State.look_canon (by assumption) ?_) | (with_reducible refine State.look_canon (Prod.eta _).symm ?_) | split | (intro _))
  | succ _ ih => rw [State.readCode] at e <;> (try dsimp only at e) <;> (repeat' split at e) <;> (try simp only [Except.ok.injEq, Option.some.injEq, Prod.mk.injEq, reduceCtorEq] at e) <;> (first | (obtain ⟨e1, e2⟩ := e; subst e1 e2) | (subst e) | skip) <;> (repeat' first | with_reducible assumption | (with_reducible refine State.Canon.foldl ?_ ?_) | (refine State.look_canon (by assumption) ?_) | (with_reducible refine State.look_canon (Prod.eta _).symm ?_) | (fail_if_no_progress (with_reducible apply State.Canon.other)) | (fail_if_no_progress (with_reducible apply State.Canon.sluices)) | (fail_if_no_progress (with_reducible apply State.Canon.tables)) | split | (intro _) | (refine ih (by assumption) ?_) | (refine ih (Prod.eta _).symm ?_) | (refine State.look_canon (by assumption) ?_) | (with_reducible refine State.look_canon (Prod.eta _).symm ?_) | split | (intro _))

theorem State.readKernel_canon {s : State} {die : Nat} {tenant : Nat} {a : W64} {ret : _} {out : State} (e : State.readKernel s die tenant a = (ret, out)) (hs : s.Canon) : out.Canon := by
  unfold State.readKernel at e
  try dsimp only at e
  (repeat' split at e) <;> (try simp only [Except.ok.injEq, Option.some.injEq, Prod.mk.injEq, reduceCtorEq] at e) <;> (first | (obtain ⟨e1, e2⟩ := e; subst e1 e2) | (subst e) | skip) <;> (repeat' first | with_reducible assumption | (with_reducible refine State.Canon.foldl ?_ ?_) | (refine State.readCode_canon (by assumption) ?_) | (with_reducible refine State.readCode_canon (Prod.eta _).symm ?_) | (fail_if_no_progress (with_reducible apply State.Canon.other)) | (fail_if_no_progress (with_reducible apply State.Canon.sluices)) | (fail_if_no_progress (with_reducible apply State.Canon.tables)) | split | (intro _))

theorem State.updShare_canon {s : State} {lid : Nat} {die : Nat} {f : Share → Share} (hs : s.Canon) : (State.updShare s lid die f).Canon := by
  unfold State.updShare
  try dsimp only
  (repeat' first | with_reducible assumption | (with_reducible refine State.Canon.foldl ?_ ?_) | (with_reducible apply State.updLaunch_canon) | (fail_if_no_progress (with_reducible apply State.Canon.other)) | (fail_if_no_progress (with_reducible apply State.Canon.sluices)) | (fail_if_no_progress (with_reducible apply State.Canon.tables)) | split | (intro _))

theorem State.readsHold_canon {s : State} {die : Nat} {tenant : Nat} {x0 : List (W64 × W64)} {ret : _} {out : State} (e : State.readsHold s die tenant x0 = (out, ret)) (hs : s.Canon) : out.Canon := by
  induction x0 generalizing s die tenant ret out with
  | nil => rw [State.readsHold] at e <;> (try dsimp only at e) <;> (repeat' split at e) <;> (try simp only [Except.ok.injEq, Option.some.injEq, Prod.mk.injEq, reduceCtorEq] at e) <;> (first | (obtain ⟨e1, e2⟩ := e; subst e1 e2) | (subst e) | skip) <;> (repeat' first | with_reducible assumption | (with_reducible refine State.Canon.foldl ?_ ?_) | (refine State.look_canon (by assumption) ?_) | (with_reducible refine State.look_canon (Prod.eta _).symm ?_) | (fail_if_no_progress (with_reducible apply State.Canon.other)) | (fail_if_no_progress (with_reducible apply State.Canon.sluices)) | (fail_if_no_progress (with_reducible apply State.Canon.tables)) | split | (intro _) | (refine State.look_canon (by assumption) ?_) | (with_reducible refine State.look_canon (Prod.eta _).symm ?_) | split | (intro _))
  | cons _ _ ih => rw [State.readsHold] at e <;> (try dsimp only at e) <;> (repeat' split at e) <;> (try simp only [Except.ok.injEq, Option.some.injEq, Prod.mk.injEq, reduceCtorEq] at e) <;> (first | (obtain ⟨e1, e2⟩ := e; subst e1 e2) | (subst e) | skip) <;> (repeat' first | with_reducible assumption | (with_reducible refine State.Canon.foldl ?_ ?_) | (refine State.look_canon (by assumption) ?_) | (with_reducible refine State.look_canon (Prod.eta _).symm ?_) | (fail_if_no_progress (with_reducible apply State.Canon.other)) | (fail_if_no_progress (with_reducible apply State.Canon.sluices)) | (fail_if_no_progress (with_reducible apply State.Canon.tables)) | split | (intro _) | (refine ih (by assumption) ?_) | (refine ih (Prod.eta _).symm ?_) | (refine State.look_canon (by assumption) ?_) | (with_reducible refine State.look_canon (Prod.eta _).symm ?_) | split | (intro _))

theorem State.findSpec_canon {s : State} {die : Nat} {key : SpecKey} {x0 : List SpecEntry} {ret : _} {out : State} (e : State.findSpec s die key x0 = (out, ret)) (hs : s.Canon) : out.Canon := by
  induction x0 generalizing s die key ret out with
  | nil => rw [State.findSpec] at e <;> (try dsimp only at e) <;> (repeat' split at e) <;> (try simp only [Except.ok.injEq, Option.some.injEq, Prod.mk.injEq, reduceCtorEq] at e) <;> (first | (obtain ⟨e1, e2⟩ := e; subst e1 e2) | (subst e) | skip) <;> (repeat' first | with_reducible assumption | (with_reducible refine State.Canon.foldl ?_ ?_) | (refine State.readsHold_canon (by assumption) ?_) | (with_reducible refine State.readsHold_canon (Prod.eta _).symm ?_) | (fail_if_no_progress (with_reducible apply State.Canon.other)) | (fail_if_no_progress (with_reducible apply State.Canon.sluices)) | (fail_if_no_progress (with_reducible apply State.Canon.tables)) | split | (intro _) | (refine State.readsHold_canon (by assumption) ?_) | (with_reducible refine State.readsHold_canon (Prod.eta _).symm ?_) | split | (intro _))
  | cons _ _ ih => rw [State.findSpec] at e <;> (try dsimp only at e) <;> (repeat' split at e) <;> (try simp only [Except.ok.injEq, Option.some.injEq, Prod.mk.injEq, reduceCtorEq] at e) <;> (first | (obtain ⟨e1, e2⟩ := e; subst e1 e2) | (subst e) | skip) <;> (repeat' first | with_reducible assumption | (with_reducible refine State.Canon.foldl ?_ ?_) | (refine State.readsHold_canon (by assumption) ?_) | (with_reducible refine State.readsHold_canon (Prod.eta _).symm ?_) | (fail_if_no_progress (with_reducible apply State.Canon.other)) | (fail_if_no_progress (with_reducible apply State.Canon.sluices)) | (fail_if_no_progress (with_reducible apply State.Canon.tables)) | split | (intro _) | (refine ih (by assumption) ?_) | (refine ih (Prod.eta _).symm ?_) | (refine State.readsHold_canon (by assumption) ?_) | (with_reducible refine State.readsHold_canon (Prod.eta _).symm ?_) | split | (intro _))

theorem State.specLookup_canon {s : State} {die : Nat} {key : SpecKey} {ret : _} {out : State} (e : State.specLookup s die key = (out, ret)) (hs : s.Canon) : out.Canon := by
  unfold State.specLookup at e
  try dsimp only at e
  (repeat' split at e) <;> (try simp only [Except.ok.injEq, Option.some.injEq, Prod.mk.injEq, reduceCtorEq] at e) <;> (first | (obtain ⟨e1, e2⟩ := e; subst e1 e2) | (subst e) | skip) <;> (repeat' first | with_reducible assumption | (with_reducible refine State.Canon.foldl ?_ ?_) | (with_reducible apply State.updDie_canon) | (refine State.findSpec_canon (by assumption) ?_) | (with_reducible refine State.findSpec_canon (Prod.eta _).symm ?_) | (fail_if_no_progress (with_reducible apply State.Canon.other)) | (fail_if_no_progress (with_reducible apply State.Canon.sluices)) | (fail_if_no_progress (with_reducible apply State.Canon.tables)) | split | (intro _))

theorem State.specInsert_canon {s : State} {die : Nat} {e : SpecEntry} {ret : _} {out : State} (e : State.specInsert s die e = some (ret, out)) (hs : s.Canon) : out.Canon := by
  unfold State.specInsert at e
  try dsimp only at e
  (repeat' split at e) <;> (try simp only [Except.ok.injEq, Option.some.injEq, Prod.mk.injEq, reduceCtorEq] at e) <;> (first | (obtain ⟨e1, e2⟩ := e; subst e1 e2) | (subst e) | skip) <;> (repeat' first | with_reducible assumption | (with_reducible refine State.Canon.foldl ?_ ?_) | (with_reducible apply State.updDie_canon) | (fail_if_no_progress (with_reducible apply State.Canon.other)) | (fail_if_no_progress (with_reducible apply State.Canon.sluices)) | (fail_if_no_progress (with_reducible apply State.Canon.tables)) | split | (intro _))

theorem State.countSpec_canon {s : State} {die : Nat} {kept : Nat} {fall : Option Nat} (hs : s.Canon) : (State.countSpec s die kept fall).Canon := by
  unfold State.countSpec
  try dsimp only
  (repeat' first | with_reducible assumption | (with_reducible refine State.Canon.foldl ?_ ?_) | (with_reducible apply State.updDie_canon) | (fail_if_no_progress (with_reducible apply State.Canon.other)) | (fail_if_no_progress (with_reducible apply State.Canon.sluices)) | (fail_if_no_progress (with_reducible apply State.Canon.tables)) | split | (intro _))

theorem State.evaluateKernel_canon {s : State} {die : Nat} {key : SpecKey} {k : Kernel} {seeds : List W64} {ret : _} {out : State} (e : State.evaluateKernel s die key k seeds = (ret, out)) (hs : s.Canon) : out.Canon := by
  unfold State.evaluateKernel at e
  try dsimp only at e
  (repeat' split at e) <;> (try simp only [Except.ok.injEq, Option.some.injEq, Prod.mk.injEq, reduceCtorEq] at e) <;> (first | (obtain ⟨e1, e2⟩ := e; subst e1 e2) | (subst e) | skip) <;> (repeat' first | with_reducible assumption | (with_reducible refine State.Canon.foldl ?_ ?_) | (with_reducible apply State.countSpec_canon) | (refine State.specInsert_canon (by assumption) ?_) | (with_reducible refine State.specInsert_canon (guarded_some (by with_reducible assumption)) ?_) | (with_reducible apply Kernel.evaluate_canon) | (fail_if_no_progress (with_reducible apply State.Canon.other)) | (fail_if_no_progress (with_reducible apply State.Canon.sluices)) | (fail_if_no_progress (with_reducible apply State.Canon.tables)) | split | (intro _))

theorem State.specialise_canon {s : State} {die : Nat} {key : SpecKey} {k : Kernel} {seeds : List W64} {ret : _} {out : State} (e : State.specialise s die key k seeds = (ret, out)) (hs : s.Canon) : out.Canon := by
  unfold State.specialise at e
  try dsimp only at e
  (repeat' split at e) <;> (try simp only [Except.ok.injEq, Option.some.injEq, Prod.mk.injEq, reduceCtorEq] at e) <;> (first | (obtain ⟨e1, e2⟩ := e; subst e1 e2) | (subst e) | skip) <;> (repeat' first | with_reducible assumption | (with_reducible refine State.Canon.foldl ?_ ?_) | (refine State.evaluateKernel_canon (by assumption) ?_) | (with_reducible refine State.evaluateKernel_canon (Prod.eta _).symm ?_) | (refine State.specLookup_canon (by assumption) ?_) | (with_reducible refine State.specLookup_canon (Prod.eta _).symm ?_) | (with_reducible apply Kernel.evaluate_canon) | (fail_if_no_progress (with_reducible apply State.Canon.other)) | (fail_if_no_progress (with_reducible apply State.Canon.sluices)) | (fail_if_no_progress (with_reducible apply State.Canon.tables)) | split | (intro _))

theorem State.specAnswer_canon {s : State} {die : Nat} {lid : Nat} {pc : W64} (hs : s.Canon) : (State.specAnswer s die lid pc).Canon := by
  unfold State.specAnswer
  try dsimp only
  (repeat' first | with_reducible assumption | (with_reducible refine State.Canon.foldl ?_ ?_) | (with_reducible apply State.updShare_canon) | (with_reducible apply State.bind_canon) | (with_reducible apply State.post_canon) | (fail_if_no_progress (with_reducible apply State.Canon.other)) | (fail_if_no_progress (with_reducible apply State.Canon.sluices)) | (fail_if_no_progress (with_reducible apply State.Canon.tables)) | split | (intro _))

theorem State.askSpec_canon {s : State} {die : Nat} {lid : Nat} {key : SpecKey} {k : Kernel} (hs : s.Canon) : (State.askSpec s die lid key k).Canon := by
  unfold State.askSpec
  try dsimp only
  (repeat' first | with_reducible assumption | (with_reducible refine State.Canon.foldl ?_ ?_) | (with_reducible apply State.specAnswer_canon) | (with_reducible apply State.post_canon) | (with_reducible apply State.updDie_canon) | (refine State.specLookup_canon (by assumption) ?_) | (with_reducible refine State.specLookup_canon (Prod.eta _).symm ?_) | (fail_if_no_progress (with_reducible apply State.Canon.other)) | (fail_if_no_progress (with_reducible apply State.Canon.sluices)) | (fail_if_no_progress (with_reducible apply State.Canon.tables)) | split | (intro _))

theorem execLaunchPacket_canon {die : Nat} {lid : Nat} {s : State} (hs : s.Canon) : OutCanon (execLaunchPacket die lid s) := by
  unfold execLaunchPacket
  try dsimp only
  (repeat' first | with_reducible assumption | (with_reducible apply OutCanon.next) | (with_reducible exact OutCanon.fault) | (with_reducible refine State.Canon.foldl ?_ ?_) | (with_reducible apply State.askSpec_canon) | (with_reducible apply State.updShare_canon) | (with_reducible apply State.next_canon) | (refine State.readKernel_canon (by assumption) ?_) | (with_reducible refine State.readKernel_canon (Prod.eta _).symm ?_) | (fail_if_no_progress (with_reducible apply State.Canon.other)) | (fail_if_no_progress (with_reducible apply State.Canon.sluices)) | (fail_if_no_progress (with_reducible apply State.Canon.tables)) | split | (intro _))

theorem State.endEvaluation_canon {s : State} {die : Nat} {lid : Nat} (hs : s.Canon) : (State.endEvaluation s die lid).Canon := by
  unfold State.endEvaluation
  try dsimp only
  (repeat' first | with_reducible assumption | (with_reducible refine State.Canon.foldl ?_ ?_) | (with_reducible apply State.specAnswer_canon) | (with_reducible apply State.postAll_canon) | (with_reducible apply State.updDie_canon) | (refine State.specialise_canon (by assumption) ?_) | (with_reducible refine State.specialise_canon (Prod.eta _).symm ?_) | (fail_if_no_progress (with_reducible apply State.Canon.other)) | (fail_if_no_progress (with_reducible apply State.Canon.sluices)) | (fail_if_no_progress (with_reducible apply State.Canon.tables)) | split | (intro _))

theorem execSpecialiserEvaluation_canon {die : Nat} {lid : Nat} {s : State} (hs : s.Canon) : OutCanon (execSpecialiserEvaluation die lid s) := by
  unfold execSpecialiserEvaluation
  try dsimp only
  (repeat' first | with_reducible assumption | (with_reducible apply OutCanon.next) | (with_reducible exact OutCanon.fault) | (with_reducible refine State.Canon.foldl ?_ ?_) | (with_reducible apply State.endEvaluation_canon) | (with_reducible apply State.next_canon) | (fail_if_no_progress (with_reducible apply State.Canon.other)) | (fail_if_no_progress (with_reducible apply State.Canon.sluices)) | (fail_if_no_progress (with_reducible apply State.Canon.tables)) | split | (intro _))

theorem State.specialiseGang_canon {s : State} {die : Nat} {key : SpecKey} {k : Kernel} {seeds : List W64} {ret : _} {out : State} (e : State.specialiseGang s die key k seeds = (ret, out)) (hs : s.Canon) : out.Canon := by
  unfold State.specialiseGang at e
  try dsimp only at e
  (repeat' split at e) <;> (try simp only [Except.ok.injEq, Option.some.injEq, Prod.mk.injEq, reduceCtorEq] at e) <;> (first | (obtain ⟨e1, e2⟩ := e; subst e1 e2) | (subst e) | skip) <;> (repeat' first | with_reducible assumption | (with_reducible refine State.Canon.foldl ?_ ?_) | (with_reducible apply State.endEvaluation_canon) | (refine State.specialise_canon (by assumption) ?_) | (with_reducible refine State.specialise_canon (Prod.eta _).symm ?_) | (fail_if_no_progress (with_reducible apply State.Canon.other)) | (fail_if_no_progress (with_reducible apply State.Canon.sluices)) | (fail_if_no_progress (with_reducible apply State.Canon.tables)) | split | (intro _))

end Sys2Proof.Machine
end

