-- ==== Sys2Proof/Laws/CanonPlacement.lean ====
section
/-!
SUPPORT. Every function of Machine/Placement.lean keeps the canonical form of the storages.
-/

namespace Sys2Proof.Machine

open Sys2Proof

set_option linter.unusedTactic false
set_option linter.unreachableTactic false
set_option linter.unusedSimpArgs false
set_option linter.unnecessarySeqFocus false

theorem State.startUnit_canon {s : State} {l : Launch} {k : Kernel} {pc : W64} {u : Nat} {core : Nat} (hs : s.Canon) : (State.startUnit s l k pc u core).Canon := by
  unfold State.startUnit
  try dsimp only
  (repeat' first | with_reducible assumption | (with_reducible refine State.Canon.foldl ?_ ?_) | (with_reducible apply State.liveUp_canon) | (with_reducible apply State.startCtx_canon) | (fail_if_no_progress (with_reducible apply State.Canon.other)) | (fail_if_no_progress (with_reducible apply State.Canon.sluices)) | (fail_if_no_progress (with_reducible apply State.Canon.tables)) | split | (intro _))

theorem State.walkUnit_canon {s : State} {l : Launch} {sh : Share} {u : Nat} {out : State} (e : State.walkUnit s l sh u = some out) (hs : s.Canon) : out.Canon := by
  unfold State.walkUnit at e
  try dsimp only at e
  (repeat' split at e) <;> (try simp only [Except.ok.injEq, Option.some.injEq, Prod.mk.injEq, reduceCtorEq] at e) <;> (first | (obtain ⟨e1, e2⟩ := e; subst e1 e2) | (subst e) | skip) <;> (repeat' first | with_reducible assumption | (with_reducible refine State.Canon.foldl ?_ ?_) | (with_reducible apply State.startUnit_canon) | (refine State.specialise_canon (by assumption) ?_) | (with_reducible refine State.specialise_canon (Prod.eta _).symm ?_) | (fail_if_no_progress (with_reducible apply State.Canon.other)) | (fail_if_no_progress (with_reducible apply State.Canon.sluices)) | (fail_if_no_progress (with_reducible apply State.Canon.tables)) | split | (intro _))

theorem State.nextUnit_canon {s : State} {lid : Nat} {die : Nat} (hs : s.Canon) : (State.nextUnit s lid die).Canon := by
  unfold State.nextUnit
  try dsimp only
  (repeat' first | with_reducible assumption | (with_reducible refine State.Canon.foldl ?_ ?_) | (with_reducible apply State.updShare_canon) | (with_reducible apply State.bind_canon) | (with_reducible apply State.next_canon) | (with_reducible apply State.checkLaunch_canon) | (with_reducible apply State.post_canon) | (fail_if_no_progress (with_reducible apply State.Canon.other)) | (fail_if_no_progress (with_reducible apply State.Canon.sluices)) | (fail_if_no_progress (with_reducible apply State.Canon.tables)) | split | (intro _))

theorem execPlacementPacket_canon {p : UnitPacket} {s : State} (hs : s.Canon) : OutCanon (execPlacementPacket p s) := by
  unfold execPlacementPacket
  try dsimp only
  (repeat' first | with_reducible assumption | (with_reducible apply OutCanon.next) | (with_reducible exact OutCanon.fault) | (with_reducible refine State.Canon.foldl ?_ ?_) | (with_reducible apply State.nextUnit_canon) | (with_reducible apply State.next_canon) | (with_reducible apply State.updDie_canon) | (refine State.walkUnit_canon (by assumption) ?_) | (with_reducible refine State.walkUnit_canon (guarded_some (by with_reducible assumption)) ?_) | (fail_if_no_progress (with_reducible apply State.Canon.other)) | (fail_if_no_progress (with_reducible apply State.Canon.sluices)) | (fail_if_no_progress (with_reducible apply State.Canon.tables)) | split | (intro _))

theorem State.retryUnits_canon {s : State} {die : Nat} {x0 : List UnitPacket} (hs : s.Canon) : (State.retryUnits s die x0).Canon := by
  induction x0 generalizing s die with
  | nil => rw [State.retryUnits] <;> (try dsimp only) <;> (repeat' first | with_reducible assumption | (with_reducible refine State.Canon.foldl ?_ ?_) | (with_reducible apply State.updDie_canon) | (refine State.walkUnit_canon (by assumption) ?_) | (with_reducible refine State.walkUnit_canon (guarded_some (by with_reducible assumption)) ?_) | (fail_if_no_progress (with_reducible apply State.Canon.other)) | (fail_if_no_progress (with_reducible apply State.Canon.sluices)) | (fail_if_no_progress (with_reducible apply State.Canon.tables)) | split | (intro _) | (with_reducible apply State.updDie_canon) | (refine State.walkUnit_canon (by assumption) ?_) | (with_reducible refine State.walkUnit_canon (guarded_some (by with_reducible assumption)) ?_) | split | (intro _))
  | cons _ _ ih => rw [State.retryUnits] <;> (try dsimp only) <;> (repeat' first | with_reducible assumption | (with_reducible refine State.Canon.foldl ?_ ?_) | (with_reducible apply State.updDie_canon) | (refine State.walkUnit_canon (by assumption) ?_) | (with_reducible refine State.walkUnit_canon (guarded_some (by with_reducible assumption)) ?_) | (fail_if_no_progress (with_reducible apply State.Canon.other)) | (fail_if_no_progress (with_reducible apply State.Canon.sluices)) | (fail_if_no_progress (with_reducible apply State.Canon.tables)) | split | (intro _) | (with_reducible apply ih) | (with_reducible apply State.updDie_canon) | (refine State.walkUnit_canon (by assumption) ?_) | (with_reducible refine State.walkUnit_canon (guarded_some (by with_reducible assumption)) ?_) | split | (intro _))

theorem execPlacementRetry_canon {die : Nat} {s : State} (hs : s.Canon) : OutCanon (execPlacementRetry die s) := by
  unfold execPlacementRetry
  try dsimp only
  (repeat' first | with_reducible assumption | (with_reducible apply OutCanon.next) | (with_reducible exact OutCanon.fault) | (with_reducible refine State.Canon.foldl ?_ ?_) | (with_reducible apply State.retryUnits_canon) | (with_reducible apply State.next_canon) | (with_reducible apply State.updDie_canon) | (fail_if_no_progress (with_reducible apply State.Canon.other)) | (fail_if_no_progress (with_reducible apply State.Canon.sluices)) | (fail_if_no_progress (with_reducible apply State.Canon.tables)) | split | (intro _))

theorem State.fillCluster_canon {s : State} {l : Launch} {k : Kernel} {pc : W64} {q : Nat} {x0 : List Nat} {x1 : Nat} {x2 : Nat} (hs : s.Canon) : (State.fillCluster s l k pc q x0 x1 x2).Canon := by
  induction x0 generalizing s l k pc q x1 x2 with
  | nil => rw [State.fillCluster] <;> (try dsimp only) <;> (repeat' first | with_reducible assumption | (with_reducible refine State.Canon.foldl ?_ ?_) | (with_reducible apply State.startUnit_canon) | (fail_if_no_progress (with_reducible apply State.Canon.other)) | (fail_if_no_progress (with_reducible apply State.Canon.sluices)) | (fail_if_no_progress (with_reducible apply State.Canon.tables)) | split | (intro _) | (with_reducible apply State.startUnit_canon) | split | (intro _))
  | cons _ _ ih => rw [State.fillCluster] <;> (try dsimp only) <;> (repeat' first | with_reducible assumption | (with_reducible refine State.Canon.foldl ?_ ?_) | (with_reducible apply State.startUnit_canon) | (fail_if_no_progress (with_reducible apply State.Canon.other)) | (fail_if_no_progress (with_reducible apply State.Canon.sluices)) | (fail_if_no_progress (with_reducible apply State.Canon.tables)) | split | (intro _) | (with_reducible apply ih) | (with_reducible apply State.startUnit_canon) | split | (intro _))

theorem State.offerGang_canon {s : State} {l : Launch} {die : Nat} {out : State} (e : State.offerGang s l die = some out) (hs : s.Canon) : out.Canon := by
  unfold State.offerGang at e
  try dsimp only at e
  (repeat' split at e) <;> (try simp only [Except.ok.injEq, Option.some.injEq, Prod.mk.injEq, reduceCtorEq] at e) <;> (first | (obtain ⟨e1, e2⟩ := e; subst e1 e2) | (subst e) | skip) <;> (repeat' first | with_reducible assumption | (with_reducible refine State.Canon.foldl ?_ ?_) | (with_reducible apply State.fillCluster_canon) | (with_reducible apply State.next_canon) | (with_reducible apply State.checkLaunch_canon) | (with_reducible apply State.updLaunch_canon) | (refine State.specialiseGang_canon (by assumption) ?_) | (with_reducible refine State.specialiseGang_canon (Prod.eta _).symm ?_) | (refine State.readKernel_canon (by assumption) ?_) | (with_reducible refine State.readKernel_canon (Prod.eta _).symm ?_) | (fail_if_no_progress (with_reducible apply State.Canon.other)) | (fail_if_no_progress (with_reducible apply State.Canon.sluices)) | (fail_if_no_progress (with_reducible apply State.Canon.tables)) | split | (intro _))

theorem State.offerDies_canon {s : State} {l : Launch} {x0 : List Nat} {out : State} (e : State.offerDies s l x0 = some out) (hs : s.Canon) : out.Canon := by
  induction x0 generalizing s l out with
  | nil => rw [State.offerDies] at e <;> (try dsimp only at e) <;> (repeat' split at e) <;> (try simp only [Except.ok.injEq, Option.some.injEq, Prod.mk.injEq, reduceCtorEq] at e) <;> (first | (obtain ⟨e1, e2⟩ := e; subst e1 e2) | (subst e) | skip) <;> (repeat' first | with_reducible assumption | (with_reducible refine State.Canon.foldl ?_ ?_) | (refine State.offerGang_canon (by assumption) ?_) | (with_reducible refine State.offerGang_canon (guarded_some (by with_reducible assumption)) ?_) | (fail_if_no_progress (with_reducible apply State.Canon.other)) | (fail_if_no_progress (with_reducible apply State.Canon.sluices)) | (fail_if_no_progress (with_reducible apply State.Canon.tables)) | split | (intro _) | (refine State.offerGang_canon (by assumption) ?_) | (with_reducible refine State.offerGang_canon (guarded_some (by with_reducible assumption)) ?_) | split | (intro _))
  | cons _ _ ih => rw [State.offerDies] at e <;> (try dsimp only at e) <;> (repeat' split at e) <;> (try simp only [Except.ok.injEq, Option.some.injEq, Prod.mk.injEq, reduceCtorEq] at e) <;> (first | (obtain ⟨e1, e2⟩ := e; subst e1 e2) | (subst e) | skip) <;> (repeat' first | with_reducible assumption | (with_reducible refine State.Canon.foldl ?_ ?_) | (refine State.offerGang_canon (by assumption) ?_) | (with_reducible refine State.offerGang_canon (guarded_some (by with_reducible assumption)) ?_) | (fail_if_no_progress (with_reducible apply State.Canon.other)) | (fail_if_no_progress (with_reducible apply State.Canon.sluices)) | (fail_if_no_progress (with_reducible apply State.Canon.tables)) | split | (intro _) | (refine ih (by assumption) ?_) | (refine State.offerGang_canon (by assumption) ?_) | (with_reducible refine State.offerGang_canon (guarded_some (by with_reducible assumption)) ?_) | split | (intro _))

theorem State.release_canon {s : State} {l : Launch} (hs : s.Canon) : (State.release s l).Canon := by
  unfold State.release
  try dsimp only
  (repeat' first | with_reducible assumption | (with_reducible refine State.Canon.foldl ?_ ?_) | (with_reducible apply State.firewallDrop_canon) | (with_reducible apply State.updLaunch_canon) | (with_reducible apply State.postAll_canon) | (fail_if_no_progress (with_reducible apply State.Canon.other)) | (fail_if_no_progress (with_reducible apply State.Canon.sluices)) | (fail_if_no_progress (with_reducible apply State.Canon.tables)) | split | (intro _))

theorem State.ageGang_canon {s : State} {lid : Nat} (hs : s.Canon) : (State.ageGang s lid).Canon := by
  unfold State.ageGang
  try dsimp only
  (repeat' first | with_reducible assumption | (with_reducible refine State.Canon.foldl ?_ ?_) | (with_reducible apply State.updLaunch_canon) | (fail_if_no_progress (with_reducible apply State.Canon.other)) | (fail_if_no_progress (with_reducible apply State.Canon.sluices)) | (fail_if_no_progress (with_reducible apply State.Canon.tables)) | split | (intro _))

theorem State.endHold_canon {s : State} {l : Launch} (hs : s.Canon) : (State.endHold s l).Canon := by
  unfold State.endHold
  try dsimp only
  (repeat' first | with_reducible assumption | (with_reducible refine State.Canon.foldl ?_ ?_) | (with_reducible apply State.postAll_canon) | (fail_if_no_progress (with_reducible apply State.Canon.other)) | (fail_if_no_progress (with_reducible apply State.Canon.sluices)) | (fail_if_no_progress (with_reducible apply State.Canon.tables)) | split | (intro _))

theorem State.visit_canon {s : State} {lid : Nat} (hs : s.Canon) : (State.visit s lid).Canon := by
  unfold State.visit
  try dsimp only
  (repeat' first | with_reducible assumption | (with_reducible refine State.Canon.foldl ?_ ?_) | (with_reducible apply State.endHold_canon) | (with_reducible apply State.ageGang_canon) | (with_reducible apply State.release_canon) | (with_reducible apply State.firewallDrop_canon) | (refine State.offerDies_canon (by assumption) ?_) | (with_reducible refine State.offerDies_canon (guarded_some (by with_reducible assumption)) ?_) | (fail_if_no_progress (with_reducible apply State.Canon.other)) | (fail_if_no_progress (with_reducible apply State.Canon.sluices)) | (fail_if_no_progress (with_reducible apply State.Canon.tables)) | split | (intro _))

theorem execDispatchPass_canon {tenant : Nat} {s : State} (hs : s.Canon) : OutCanon (execDispatchPass tenant s) := by
  unfold execDispatchPass
  try dsimp only
  (repeat' first | with_reducible assumption | (with_reducible apply OutCanon.next) | (with_reducible exact OutCanon.fault) | (with_reducible refine State.Canon.foldl ?_ ?_) | (with_reducible apply State.visit_canon) | (with_reducible apply State.next_canon) | (fail_if_no_progress (with_reducible apply State.Canon.other)) | (fail_if_no_progress (with_reducible apply State.Canon.sluices)) | (fail_if_no_progress (with_reducible apply State.Canon.tables)) | split | (intro _))

theorem execIdleReportDeferralEnd_canon {s : State} (hs : s.Canon) : OutCanon (execIdleReportDeferralEnd s) := by
  unfold execIdleReportDeferralEnd
  try dsimp only
  (repeat' first | with_reducible assumption | (with_reducible apply OutCanon.next) | (with_reducible exact OutCanon.fault) | (with_reducible refine State.Canon.foldl ?_ ?_) | (with_reducible apply State.next_canon) | (with_reducible apply State.updTenant_canon) | (with_reducible apply State.post_canon) | (fail_if_no_progress (with_reducible apply State.Canon.other)) | (fail_if_no_progress (with_reducible apply State.Canon.sluices)) | (fail_if_no_progress (with_reducible apply State.Canon.tables)) | split | (intro _))

theorem execSpawnRequest_canon {m : SpawnMsg} {s : State} (hs : s.Canon) : OutCanon (execSpawnRequest m s) := by
  unfold execSpawnRequest
  try dsimp only
  (repeat' first | with_reducible assumption | (with_reducible apply OutCanon.next) | (with_reducible exact OutCanon.fault) | (with_reducible refine State.Canon.foldl ?_ ?_) | (with_reducible apply State.next_canon) | (with_reducible apply State.liveUp_canon) | (with_reducible apply State.startCtx_canon) | (with_reducible apply State.post_canon) | (fail_if_no_progress (with_reducible apply State.Canon.other)) | (fail_if_no_progress (with_reducible apply State.Canon.sluices)) | (fail_if_no_progress (with_reducible apply State.Canon.tables)) | split | (intro _))

theorem State.slotFreeNotice_canon {s : State} {core : Nat} (hs : s.Canon) : (State.slotFreeNotice s core).Canon := by
  unfold State.slotFreeNotice
  try dsimp only
  (repeat' first | with_reducible assumption | (with_reducible refine State.Canon.foldl ?_ ?_) | (with_reducible apply State.post_canon) | (with_reducible apply State.updCore_canon) | (fail_if_no_progress (with_reducible apply State.Canon.other)) | (fail_if_no_progress (with_reducible apply State.Canon.sluices)) | (fail_if_no_progress (with_reducible apply State.Canon.tables)) | split | (intro _))

theorem State.queueTask_canon {s : State} {core : Nat} {t : Task} (hs : s.Canon) : (State.queueTask s core t).Canon := by
  unfold State.queueTask
  try dsimp only
  (repeat' first | with_reducible assumption | (with_reducible refine State.Canon.foldl ?_ ?_) | (with_reducible apply State.post_canon) | (with_reducible apply State.updCore_canon) | (fail_if_no_progress (with_reducible apply State.Canon.other)) | (fail_if_no_progress (with_reducible apply State.Canon.sluices)) | (fail_if_no_progress (with_reducible apply State.Canon.tables)) | split | (intro _))

theorem execCallatTaskArrival_canon {core : Nat} {t : Task} {s : State} (hs : s.Canon) : OutCanon (execCallatTaskArrival core t s) := by
  unfold execCallatTaskArrival
  try dsimp only
  (repeat' first | with_reducible assumption | (with_reducible apply OutCanon.next) | (with_reducible exact OutCanon.fault) | (with_reducible refine State.Canon.foldl ?_ ?_) | (with_reducible apply State.queueTask_canon) | (with_reducible apply State.next_canon) | (with_reducible apply State.post_canon) | (fail_if_no_progress (with_reducible apply State.Canon.other)) | (fail_if_no_progress (with_reducible apply State.Canon.sluices)) | (fail_if_no_progress (with_reducible apply State.Canon.tables)) | split | (intro _))

theorem State.resend_canon {s : State} {gid : Nat} {gen : Nat} (hs : s.Canon) : (State.resend s gid gen).Canon := by
  unfold State.resend
  try dsimp only
  (repeat' first | with_reducible assumption | (with_reducible refine State.Canon.foldl ?_ ?_) | (with_reducible apply State.slotFreeNotice_canon) | (with_reducible apply State.post_canon) | (with_reducible apply State.updCore_canon) | (fail_if_no_progress (with_reducible apply State.Canon.other)) | (fail_if_no_progress (with_reducible apply State.Canon.sluices)) | (fail_if_no_progress (with_reducible apply State.Canon.tables)) | split | (intro _))

theorem execTaskQueueSlotFree_canon {gid : Nat} {gen : Nat} {s : State} (hs : s.Canon) : OutCanon (execTaskQueueSlotFree gid gen s) := by
  unfold execTaskQueueSlotFree
  try dsimp only
  (repeat' first | with_reducible assumption | (with_reducible apply OutCanon.next) | (with_reducible exact OutCanon.fault) | (with_reducible refine State.Canon.foldl ?_ ?_) | (with_reducible apply State.resend_canon) | (with_reducible apply State.next_canon) | (with_reducible apply State.post_canon) | (fail_if_no_progress (with_reducible apply State.Canon.other)) | (fail_if_no_progress (with_reducible apply State.Canon.sluices)) | (fail_if_no_progress (with_reducible apply State.Canon.tables)) | split | (intro _))

theorem execTaskStart_canon {core : Nat} {s : State} (hs : s.Canon) : OutCanon (execTaskStart core s) := by
  unfold execTaskStart
  try dsimp only
  (repeat' first | with_reducible assumption | (with_reducible apply OutCanon.next) | (with_reducible exact OutCanon.fault) | (with_reducible refine State.Canon.foldl ?_ ?_) | (with_reducible apply State.slotFreeNotice_canon) | (with_reducible apply State.next_canon) | (with_reducible apply State.liveUp_canon) | (with_reducible apply State.startCtx_canon) | (with_reducible apply State.post_canon) | (with_reducible apply State.updCore_canon) | (fail_if_no_progress (with_reducible apply State.Canon.other)) | (fail_if_no_progress (with_reducible apply State.Canon.sluices)) | (fail_if_no_progress (with_reducible apply State.Canon.tables)) | split | (intro _))

theorem execCallatAcceptance_canon {gid : Nat} {gen : Nat} {s : State} (hs : s.Canon) : OutCanon (execCallatAcceptance gid gen s) := by
  unfold execCallatAcceptance
  try dsimp only
  (repeat' first | with_reducible assumption | (with_reducible apply OutCanon.next) | (with_reducible exact OutCanon.fault) | (with_reducible refine State.Canon.foldl ?_ ?_) | (with_reducible apply State.takeReply_canon) | (with_reducible apply State.toContext_canon) | (with_reducible apply State.next_canon) | (fail_if_no_progress (with_reducible apply State.Canon.other)) | (fail_if_no_progress (with_reducible apply State.Canon.sluices)) | (fail_if_no_progress (with_reducible apply State.Canon.tables)) | split | (intro _))

end Sys2Proof.Machine
end

