-- ==== Sys2Proof/Laws/CanonObjects.lean ====
section
/-!
SUPPORT. Every function of Machine/Objects.lean keeps the canonical form of the storages.
-/

namespace Sys2Proof.Machine

open Sys2Proof

set_option linter.unusedTactic false
set_option linter.unreachableTactic false
set_option linter.unusedSimpArgs false
set_option linter.unnecessarySeqFocus false

theorem State.updObj_canon {s : State} {tenant : Nat} {ctr : W64} {f : Obj → Obj} (hs : s.Canon) : (State.updObj s tenant ctr f).Canon := by
  unfold State.updObj
  try dsimp only
  (repeat' first | with_reducible assumption | (with_reducible refine State.Canon.foldl ?_ ?_) | (fail_if_no_progress (with_reducible apply State.Canon.other)) | (fail_if_no_progress (with_reducible apply State.Canon.sluices)) | (fail_if_no_progress (with_reducible apply State.Canon.tables)) | split | (intro _))

theorem State.checkObj_canon {s : State} {tenant : Nat} {ctr : W64} (hs : s.Canon) : (State.checkObj s tenant ctr).Canon := by
  unfold State.checkObj
  try dsimp only
  (repeat' first | with_reducible assumption | (with_reducible refine State.Canon.foldl ?_ ?_) | (with_reducible apply State.updObj_canon) | (with_reducible apply State.advanceCounter_canon) | (with_reducible apply State.event_canon) | (with_reducible apply State.post_canon) | (fail_if_no_progress (with_reducible apply State.Canon.other)) | (fail_if_no_progress (with_reducible apply State.Canon.sluices)) | (fail_if_no_progress (with_reducible apply State.Canon.tables)) | split | (intro _))

theorem State.memberDone_canon {s : State} {tenant : Nat} {ctr : W64} {part : Bool} {reaped : Bool} (hs : s.Canon) : (State.memberDone s tenant ctr part reaped).Canon := by
  unfold State.memberDone
  try dsimp only
  (repeat' first | with_reducible assumption | (with_reducible refine State.Canon.foldl ?_ ?_) | (with_reducible apply State.checkObj_canon) | (with_reducible apply State.updObj_canon) | (fail_if_no_progress (with_reducible apply State.Canon.other)) | (fail_if_no_progress (with_reducible apply State.Canon.sluices)) | (fail_if_no_progress (with_reducible apply State.Canon.tables)) | split | (intro _))

theorem State.tryBegin_canon {s : State} {lid : Nat} (hs : s.Canon) : (State.tryBegin s lid).Canon := by
  unfold State.tryBegin
  try dsimp only
  (repeat' first | with_reducible assumption | (with_reducible refine State.Canon.foldl ?_ ?_) | (with_reducible apply State.checkLaunch_canon) | (with_reducible apply State.updLaunch_canon) | (fail_if_no_progress (with_reducible apply State.Canon.other)) | (fail_if_no_progress (with_reducible apply State.Canon.sluices)) | (fail_if_no_progress (with_reducible apply State.Canon.tables)) | split | (intro _))

theorem State.cancelCtx_canon {s : State} {gid : Nat} (hs : s.Canon) : (State.cancelCtx s gid).Canon := by
  unfold State.cancelCtx
  try dsimp only
  (repeat' first | with_reducible assumption | (with_reducible refine State.Canon.foldl ?_ ?_) | (with_reducible apply State.endWork_canon) | (with_reducible apply State.withdrawOf_canon) | (with_reducible apply State.updCtx_canon) | (fail_if_no_progress (with_reducible apply State.Canon.other)) | (fail_if_no_progress (with_reducible apply State.Canon.sluices)) | (fail_if_no_progress (with_reducible apply State.Canon.tables)) | split | (intro _))

theorem State.dropTasks_canon {s : State} {lid : Nat} {core : Nat} (hs : s.Canon) : (State.dropTasks s lid core).Canon := by
  unfold State.dropTasks
  try dsimp only
  (repeat' first | with_reducible assumption | (with_reducible refine State.Canon.foldl ?_ ?_) | (with_reducible apply State.slotFreeNotice_canon) | (with_reducible apply State.freed_canon) | (with_reducible apply State.updCore_canon) | (fail_if_no_progress (with_reducible apply State.Canon.other)) | (fail_if_no_progress (with_reducible apply State.Canon.sluices)) | (fail_if_no_progress (with_reducible apply State.Canon.tables)) | split | (intro _))

theorem State.dropWaiting_canon {s : State} {p : UnitPacket → Bool} (hs : s.Canon) : (State.dropWaiting s p).Canon := by
  unfold State.dropWaiting
  try dsimp only
  (repeat' first | with_reducible assumption | (with_reducible refine State.Canon.foldl ?_ ?_) | (with_reducible apply State.updDie_canon) | (fail_if_no_progress (with_reducible apply State.Canon.other)) | (fail_if_no_progress (with_reducible apply State.Canon.sluices)) | (fail_if_no_progress (with_reducible apply State.Canon.tables)) | split | (intro _))

theorem State.cancelLaunch_canon {s : State} {lid : Nat} (hs : s.Canon) : (State.cancelLaunch s lid).Canon := by
  unfold State.cancelLaunch
  try dsimp only
  (repeat' first | with_reducible assumption | (with_reducible refine State.Canon.foldl ?_ ?_) | (with_reducible apply State.dropWaiting_canon) | (with_reducible apply State.dropTasks_canon) | (with_reducible apply State.cancelCtx_canon) | (with_reducible apply State.endHold_canon) | (with_reducible apply State.next_canon) | (with_reducible apply State.checkLaunch_canon) | (with_reducible apply State.updLaunch_canon) | (fail_if_no_progress (with_reducible apply State.Canon.other)) | (fail_if_no_progress (with_reducible apply State.Canon.sluices)) | (fail_if_no_progress (with_reducible apply State.Canon.tables)) | split | (intro _))
  all_goals (constructor <;> (try dsimp only) <;> (repeat' first | with_reducible assumption | (with_reducible apply spSet_wfBy) | (with_reducible apply spSet_wf) | (with_reducible apply spSetList_wf) | (with_reducible apply spFill_wf) | (with_reducible apply spWf_map_filter) | (with_reducible apply spWf_filter) | (with_reducible apply State.Canon.ctxs) | (with_reducible apply State.Canon.cores) | (with_reducible apply State.Canon.regs) | (with_reducible apply State.Canon.regEmpty) | (with_reducible apply State.Canon.ab) | (with_reducible apply State.Canon.abEmpty) | (with_reducible apply State.Canon.ps) | (with_reducible apply State.Canon.wb) | (with_reducible apply State.Canon.tiles) | (with_reducible apply State.Canon.bytes) | (with_reducible apply State.Canon.tags) | (with_reducible apply State.Canon.upsets) | (with_reducible apply State.Canon.copyUpsets) | (with_reducible apply State.Canon.fwins) | (with_reducible apply State.Canon.dpit) | (with_reducible apply State.Canon.counts) | (with_reducible apply State.Canon.moved) | (with_reducible apply State.Canon.slecc) | (with_reducible apply State.Canon.stkBank) | (with_reducible apply State.Canon.stkCounts) | (with_reducible apply State.Canon.seqs) | (with_reducible apply State.Canon.quota) | (with_reducible apply State.Canon.dies) | (with_reducible refine State.Canon.foldl ?_ ?_) | (with_reducible apply State.dropWaiting_canon) | (with_reducible apply State.dropTasks_canon) | (with_reducible apply State.cancelCtx_canon) | (with_reducible apply State.endHold_canon) | (with_reducible apply State.next_canon) | (with_reducible apply State.checkLaunch_canon) | (with_reducible apply State.updLaunch_canon) | (fail_if_no_progress (with_reducible apply State.Canon.other)) | (fail_if_no_progress (with_reducible apply State.Canon.sluices)) | (fail_if_no_progress (with_reducible apply State.Canon.tables)) | split | (intro _)))

theorem State.cancelUnit_canon {s : State} {lid : Nat} {u : Nat} (hs : s.Canon) : (State.cancelUnit s lid u).Canon := by
  unfold State.cancelUnit
  try dsimp only
  (repeat' first | with_reducible assumption | (with_reducible refine State.Canon.foldl ?_ ?_) | (with_reducible apply State.dropWaiting_canon) | (with_reducible apply State.cancelCtx_canon) | (with_reducible apply State.work_canon) | (with_reducible apply State.checkLaunch_canon) | (with_reducible apply State.updLaunch_canon) | (with_reducible apply State.updCtx_canon) | (fail_if_no_progress (with_reducible apply State.Canon.other)) | (fail_if_no_progress (with_reducible apply State.Canon.sluices)) | (fail_if_no_progress (with_reducible apply State.Canon.tables)) | split | (intro _))

theorem State.markCancelled_canon {s : State} {tenant : Nat} {ctr : W64} (hs : s.Canon) : (State.markCancelled s tenant ctr).Canon := by
  unfold State.markCancelled
  try dsimp only
  (repeat' first | with_reducible assumption | (with_reducible refine State.Canon.foldl ?_ ?_) | (with_reducible apply State.updObj_canon) | (fail_if_no_progress (with_reducible apply State.Canon.other)) | (fail_if_no_progress (with_reducible apply State.Canon.sluices)) | (fail_if_no_progress (with_reducible apply State.Canon.tables)) | split | (intro _))

theorem State.cancelGraph_canon {s : State} {tenant : Nat} {ctr : W64} (hs : s.Canon) : (State.cancelGraph s tenant ctr).Canon := by
  unfold State.cancelGraph
  try dsimp only
  (repeat' first | with_reducible assumption | (with_reducible refine State.Canon.foldl ?_ ?_) | (with_reducible apply State.markCancelled_canon) | (with_reducible apply State.cancelLaunch_canon) | (with_reducible apply State.checkObj_canon) | (fail_if_no_progress (with_reducible apply State.Canon.other)) | (fail_if_no_progress (with_reducible apply State.Canon.sluices)) | (fail_if_no_progress (with_reducible apply State.Canon.tables)) | split | (intro _))

theorem State.cancelPhase_canon {s : State} {tenant : Nat} {ctr : W64} (hs : s.Canon) : (State.cancelPhase s tenant ctr).Canon := by
  unfold State.cancelPhase
  try dsimp only
  (repeat' first | with_reducible assumption | (with_reducible refine State.Canon.foldl ?_ ?_) | (with_reducible apply State.cancelGraph_canon) | (with_reducible apply State.markCancelled_canon) | (with_reducible apply State.checkObj_canon) | (fail_if_no_progress (with_reducible apply State.Canon.other)) | (fail_if_no_progress (with_reducible apply State.Canon.sluices)) | (fail_if_no_progress (with_reducible apply State.Canon.tables)) | split | (intro _))

theorem State.cancelJob_canon {s : State} {tenant : Nat} {ctr : W64} (hs : s.Canon) : (State.cancelJob s tenant ctr).Canon := by
  unfold State.cancelJob
  try dsimp only
  (repeat' first | with_reducible assumption | (with_reducible refine State.Canon.foldl ?_ ?_) | (with_reducible apply State.cancelPhase_canon) | (with_reducible apply State.markCancelled_canon) | (with_reducible apply State.checkObj_canon) | (fail_if_no_progress (with_reducible apply State.Canon.other)) | (fail_if_no_progress (with_reducible apply State.Canon.sluices)) | (fail_if_no_progress (with_reducible apply State.Canon.tables)) | split | (intro _))

theorem State.applyCancel_canon {s : State} {c : CancelTarget} (hs : s.Canon) : (State.applyCancel s c).Canon := by
  unfold State.applyCancel
  try dsimp only
  (repeat' first | with_reducible assumption | (with_reducible refine State.Canon.foldl ?_ ?_) | (with_reducible apply State.cancelJob_canon) | (with_reducible apply State.cancelPhase_canon) | (with_reducible apply State.cancelGraph_canon) | (with_reducible apply State.cancelUnit_canon) | (with_reducible apply State.cancelLaunch_canon) | (fail_if_no_progress (with_reducible apply State.Canon.other)) | (fail_if_no_progress (with_reducible apply State.Canon.sluices)) | (fail_if_no_progress (with_reducible apply State.Canon.tables)) | split | (intro _))

theorem execCancelApply_canon {c : CancelTarget} {s : State} (hs : s.Canon) : OutCanon (execCancelApply c s) := by
  unfold execCancelApply
  try dsimp only
  (repeat' first | with_reducible assumption | (with_reducible apply OutCanon.next) | (with_reducible exact OutCanon.fault) | (with_reducible refine State.Canon.foldl ?_ ?_) | (with_reducible apply State.applyCancel_canon) | (with_reducible apply State.next_canon) | (fail_if_no_progress (with_reducible apply State.Canon.other)) | (fail_if_no_progress (with_reducible apply State.Canon.sluices)) | (fail_if_no_progress (with_reducible apply State.Canon.tables)) | split | (intro _))

theorem State.isCounter_canon {s : State} {tenant : Nat} {a : W64} {align : Nat} {ret : _} {out : State} (e : State.isCounter s tenant a align = (out, ret)) (hs : s.Canon) : out.Canon := by
  unfold State.isCounter at e
  try dsimp only at e
  (repeat' split at e) <;> (try simp only [Except.ok.injEq, Option.some.injEq, Prod.mk.injEq, reduceCtorEq] at e) <;> (first | (obtain ⟨e1, e2⟩ := e; subst e1 e2) | (subst e) | skip) <;> (repeat' first | with_reducible assumption | (with_reducible refine State.Canon.foldl ?_ ?_) | (refine State.fwLook_canon (by assumption) ?_) | (with_reducible refine State.fwLook_canon (Prod.eta _).symm ?_) | (fail_if_no_progress (with_reducible apply State.Canon.other)) | (fail_if_no_progress (with_reducible apply State.Canon.sluices)) | (fail_if_no_progress (with_reducible apply State.Canon.tables)) | split | (intro _))

theorem State.isCompletion_canon {s : State} {die : Nat} {tenant : Nat} {a : W64} {ret : _} {out : State} (e : State.isCompletion s die tenant a = (out, ret)) (hs : s.Canon) : out.Canon := by
  unfold State.isCompletion at e
  try dsimp only at e
  (repeat' split at e) <;> (try simp only [Except.ok.injEq, Option.some.injEq, Prod.mk.injEq, reduceCtorEq] at e) <;> (first | (obtain ⟨e1, e2⟩ := e; subst e1 e2) | (subst e) | skip) <;> (repeat' first | with_reducible assumption | (with_reducible refine State.Canon.foldl ?_ ?_) | (refine State.look_canon (by assumption) ?_) | (with_reducible refine State.look_canon (Prod.eta _).symm ?_) | (fail_if_no_progress (with_reducible apply State.Canon.other)) | (fail_if_no_progress (with_reducible apply State.Canon.sluices)) | (fail_if_no_progress (with_reducible apply State.Canon.tables)) | split | (intro _))

theorem execCancelAcceptance_canon {gid : Nat} {gen : Nat} {c : CancelTarget} {s : State} (hs : s.Canon) : OutCanon (execCancelAcceptance gid gen c s) := by
  unfold execCancelAcceptance
  try dsimp only
  (repeat' first | with_reducible assumption | (with_reducible apply OutCanon.next) | (with_reducible exact OutCanon.fault) | (with_reducible refine State.Canon.foldl ?_ ?_) | (with_reducible apply State.takeReply_canon) | (with_reducible apply State.toContext_canon) | (with_reducible apply State.next_canon) | (with_reducible apply State.post_canon) | (refine State.isCompletion_canon (by assumption) ?_) | (with_reducible refine State.isCompletion_canon (Prod.eta _).symm ?_) | (fail_if_no_progress (with_reducible apply State.Canon.other)) | (fail_if_no_progress (with_reducible apply State.Canon.sluices)) | (fail_if_no_progress (with_reducible apply State.Canon.tables)) | split | (intro _))

theorem State.statusBits_canon {s : State} {tenant : Nat} {ctr : W64} {ret : _} {out : State} (e : State.statusBits s tenant ctr = (out, ret)) (hs : s.Canon) : out.Canon := by
  unfold State.statusBits at e
  try dsimp only at e
  (repeat' split at e) <;> (try simp only [Except.ok.injEq, Option.some.injEq, Prod.mk.injEq, reduceCtorEq] at e) <;> (first | (obtain ⟨e1, e2⟩ := e; subst e1 e2) | (subst e) | skip) <;> (repeat' first | with_reducible assumption | (with_reducible refine State.Canon.foldl ?_ ?_) | (refine State.fwRead_canon (by assumption) ?_) | (with_reducible refine State.fwRead_canon (Prod.eta _).symm ?_) | (fail_if_no_progress (with_reducible apply State.Canon.other)) | (fail_if_no_progress (with_reducible apply State.Canon.sluices)) | (fail_if_no_progress (with_reducible apply State.Canon.tables)) | split | (intro _))

theorem State.beginPhase_canon {s : State} {tenant : Nat} {phase : W64} (hs : s.Canon) : (State.beginPhase s tenant phase).Canon := by
  unfold State.beginPhase
  try dsimp only
  (repeat' first | with_reducible assumption | (with_reducible refine State.Canon.foldl ?_ ?_) | (with_reducible apply State.tryBegin_canon) | (with_reducible apply State.checkObj_canon) | (with_reducible apply State.updObj_canon) | (fail_if_no_progress (with_reducible apply State.Canon.other)) | (fail_if_no_progress (with_reducible apply State.Canon.sluices)) | (fail_if_no_progress (with_reducible apply State.Canon.tables)) | split | (intro _))

theorem State.passFor_canon {s : State} {tenant : Nat} {before : State} (hs : s.Canon) (hbefore : before.Canon) : (State.passFor s tenant before).Canon := by
  unfold State.passFor
  try dsimp only
  (repeat' first | with_reducible assumption | (with_reducible refine State.Canon.foldl ?_ ?_) | (with_reducible apply State.post_canon) | (fail_if_no_progress (with_reducible apply State.Canon.other)) | (fail_if_no_progress (with_reducible apply State.Canon.sluices)) | (fail_if_no_progress (with_reducible apply State.Canon.tables)) | split | (intro _))
  all_goals (constructor <;> (try dsimp only) <;> (repeat' first | with_reducible assumption | (with_reducible apply spSet_wfBy) | (with_reducible apply spSet_wf) | (with_reducible apply spSetList_wf) | (with_reducible apply spFill_wf) | (with_reducible apply spWf_map_filter) | (with_reducible apply spWf_filter) | (with_reducible apply State.Canon.ctxs) | (with_reducible apply State.Canon.cores) | (with_reducible apply State.Canon.regs) | (with_reducible apply State.Canon.regEmpty) | (with_reducible apply State.Canon.ab) | (with_reducible apply State.Canon.abEmpty) | (with_reducible apply State.Canon.ps) | (with_reducible apply State.Canon.wb) | (with_reducible apply State.Canon.tiles) | (with_reducible apply State.Canon.bytes) | (with_reducible apply State.Canon.tags) | (with_reducible apply State.Canon.upsets) | (with_reducible apply State.Canon.copyUpsets) | (with_reducible apply State.Canon.fwins) | (with_reducible apply State.Canon.dpit) | (with_reducible apply State.Canon.counts) | (with_reducible apply State.Canon.moved) | (with_reducible apply State.Canon.slecc) | (with_reducible apply State.Canon.stkBank) | (with_reducible apply State.Canon.stkCounts) | (with_reducible apply State.Canon.seqs) | (with_reducible apply State.Canon.quota) | (with_reducible apply State.Canon.dies) | (with_reducible refine State.Canon.foldl ?_ ?_) | (with_reducible apply State.post_canon) | (fail_if_no_progress (with_reducible apply State.Canon.other)) | (fail_if_no_progress (with_reducible apply State.Canon.sluices)) | (fail_if_no_progress (with_reducible apply State.Canon.tables)) | split | (intro _)))

theorem State.takeWait_canon {s : State} {x0 : FwWait} (hs : s.Canon) : (State.takeWait s x0).Canon := by
  unfold State.takeWait
  try dsimp only
  (repeat' first | with_reducible assumption | (with_reducible refine State.Canon.foldl ?_ ?_) | (with_reducible apply State.passFor_canon) | (with_reducible apply State.beginPhase_canon) | (with_reducible apply State.cancelLaunch_canon) | (with_reducible apply State.tryBegin_canon) | (with_reducible apply State.memberDone_canon) | (with_reducible apply State.updLaunch_canon) | (refine State.statusBits_canon (by assumption) ?_) | (with_reducible refine State.statusBits_canon (Prod.eta _).symm ?_) | (fail_if_no_progress (with_reducible apply State.Canon.other)) | (fail_if_no_progress (with_reducible apply State.Canon.sluices)) | (fail_if_no_progress (with_reducible apply State.Canon.tables)) | split | (intro _))

theorem execFirmwareCounterWaitGrant_canon {w : FwWait} {s : State} (hs : s.Canon) : OutCanon (execFirmwareCounterWaitGrant w s) := by
  unfold execFirmwareCounterWaitGrant
  try dsimp only
  (repeat' first | with_reducible assumption | (with_reducible apply OutCanon.next) | (with_reducible exact OutCanon.fault) | (with_reducible refine State.Canon.foldl ?_ ?_) | (with_reducible apply State.takeWait_canon) | (with_reducible apply State.next_canon) | (with_reducible apply State.cross_canon) | (fail_if_no_progress (with_reducible apply State.Canon.other)) | (fail_if_no_progress (with_reducible apply State.Canon.sluices)) | (fail_if_no_progress (with_reducible apply State.Canon.tables)) | split | (intro _))

end Sys2Proof.Machine
end

