-- ==== Sys2Proof/Laws/CanonCommands.lean ====
section
/-!
SUPPORT. Every function of Machine/Commands.lean keeps the canonical form of the storages.
-/

namespace Sys2Proof.Machine

open Sys2Proof

set_option linter.unusedTactic false
set_option linter.unreachableTactic false
set_option linter.unusedSimpArgs false
set_option linter.unnecessarySeqFocus false

theorem State.updQueue_canon {s : State} {tenant : Nat} {num : Nat} {f : Queue → Queue} (hs : s.Canon) : (State.updQueue s tenant num f).Canon := by
  unfold State.updQueue
  try dsimp only
  (repeat' first | with_reducible assumption | (with_reducible refine State.Canon.foldl ?_ ?_) | (fail_if_no_progress (with_reducible apply State.Canon.other)) | (fail_if_no_progress (with_reducible apply State.Canon.sluices)) | (fail_if_no_progress (with_reducible apply State.Canon.tables)) | split | (intro _))

theorem State.scanQueue_canon {s : State} {q : Queue} (hs : s.Canon) : (State.scanQueue s q).Canon := by
  unfold State.scanQueue
  try dsimp only
  (repeat' first | with_reducible assumption | (with_reducible refine State.Canon.foldl ?_ ?_) | (with_reducible apply State.updQueue_canon) | (with_reducible apply State.postIn_canon) | (refine State.look_canon (by assumption) ?_) | (with_reducible refine State.look_canon (Prod.eta _).symm ?_) | (fail_if_no_progress (with_reducible apply State.Canon.other)) | (fail_if_no_progress (with_reducible apply State.Canon.sluices)) | (fail_if_no_progress (with_reducible apply State.Canon.tables)) | split | (intro _))

theorem State.slotAddr_canon {s : State} {q : Queue} {ret : _} {out : State} (e : State.slotAddr s q = (out, ret)) (hs : s.Canon) : out.Canon := by
  unfold State.slotAddr at e
  try dsimp only at e
  (repeat' split at e) <;> (try simp only [Except.ok.injEq, Option.some.injEq, Prod.mk.injEq, reduceCtorEq] at e) <;> (first | (obtain ⟨e1, e2⟩ := e; subst e1 e2) | (subst e) | skip) <;> (repeat' first | with_reducible assumption | (with_reducible refine State.Canon.foldl ?_ ?_) | (refine State.fwRead_canon (by assumption) ?_) | (with_reducible refine State.fwRead_canon (Prod.eta _).symm ?_) | (fail_if_no_progress (with_reducible apply State.Canon.other)) | (fail_if_no_progress (with_reducible apply State.Canon.sluices)) | (fail_if_no_progress (with_reducible apply State.Canon.tables)) | split | (intro _))

theorem State.slotWords_canon {s : State} {q : Queue} {ret : _} {out : State} (e : s.slotWords q = (out, ret)) (hs : s.Canon) : out.Canon := by
  unfold State.slotWords at e
  generalize ha : s.slotAddr q = r at e
  obtain ⟨s1, a⟩ := r
  have h1 := State.slotAddr_canon ha hs
  dsimp only at e
  split at e
  · generalize hw : s1.fwWords q.tenant a 16 = w at e
    obtain ⟨s2, ws⟩ := w
    cases e; exact State.fwWords_canon hw h1
  · cases e; exact State.firewallDrop_canon h1


theorem State.writeRidx_canon {s : State} {c : Command} {block : W64} (hs : s.Canon) : (State.writeRidx s c block).Canon := by
  unfold State.writeRidx
  try dsimp only
  (repeat' first | with_reducible assumption | (with_reducible refine State.Canon.foldl ?_ ?_) | (with_reducible apply State.fwPost_canon) | (refine State.newTag_canon (by assumption) ?_) | (with_reducible refine State.newTag_canon (Prod.eta _).symm ?_) | (fail_if_no_progress (with_reducible apply State.Canon.other)) | (fail_if_no_progress (with_reducible apply State.Canon.sluices)) | (fail_if_no_progress (with_reducible apply State.Canon.tables)) | split | (intro _))

theorem State.serveNext_canon {s : State} (hs : s.Canon) : s.serveNext.Canon := by
  unfold State.serveNext
  split
  · exact hs
  · split
    · exact hs
    · rename_i q _
      generalize e : s.slotWords q = r
      obtain ⟨s', _ | ws⟩ := r
      · exact State.updQueue_canon (State.slotWords_canon e hs)
      · exact State.post_canon (State.writeRidx_canon (State.Canon.other (State.updQueue_canon (State.slotWords_canon e hs))))


theorem execQueueScan_canon {s : State} (hs : s.Canon) : OutCanon (execQueueScan s) := by
  unfold execQueueScan
  try dsimp only
  (repeat' first | with_reducible assumption | (with_reducible apply OutCanon.next) | (with_reducible exact OutCanon.fault) | (with_reducible refine State.Canon.foldl ?_ ?_) | (with_reducible apply State.serveNext_canon) | (with_reducible apply State.scanQueue_canon) | (with_reducible apply State.next_canon) | (fail_if_no_progress (with_reducible apply State.Canon.other)) | (fail_if_no_progress (with_reducible apply State.Canon.sluices)) | (fail_if_no_progress (with_reducible apply State.Canon.tables)) | split | (intro _))

theorem State.runCommand_canon {s : State} {mine : Nat → Bool} {f : Command → State → State} (hs : s.Canon) (hf : ∀ a0 a1, a1.Canon → (f a0 a1).Canon) : OutCanon (State.runCommand s mine f) := by
  unfold State.runCommand
  try dsimp only
  (repeat' first | with_reducible assumption | (with_reducible apply OutCanon.next) | (with_reducible exact OutCanon.fault) | (with_reducible refine State.Canon.foldl ?_ ?_) | (with_reducible apply hf) | (with_reducible apply State.serveNext_canon) | (with_reducible apply State.next_canon) | (with_reducible apply State.post_canon) | (fail_if_no_progress (with_reducible apply State.Canon.other)) | (fail_if_no_progress (with_reducible apply State.Canon.sluices)) | (fail_if_no_progress (with_reducible apply State.Canon.tables)) | split | (intro _))

theorem State.commandError_canon {s : State} {c : Command} {reason : Nat} {ctr : W64} {status : W64} (hs : s.Canon) : (State.commandError s c reason ctr status).Canon := by
  unfold State.commandError
  try dsimp only
  (repeat' first | with_reducible assumption | (with_reducible refine State.Canon.foldl ?_ ?_) | (with_reducible apply State.event_canon) | (fail_if_no_progress (with_reducible apply State.Canon.other)) | (fail_if_no_progress (with_reducible apply State.Canon.sluices)) | (fail_if_no_progress (with_reducible apply State.Canon.tables)) | split | (intro _))

theorem State.reject_canon {s : State} {c : Command} {reason : Nat} {ctr : Option (W64 × Nat)} (hs : s.Canon) : (State.reject s c reason ctr).Canon := by
  unfold State.reject
  try dsimp only
  (repeat' first | with_reducible assumption | (with_reducible refine State.Canon.foldl ?_ ?_) | (with_reducible apply State.commandError_canon) | (with_reducible apply State.advanceCounter_canon) | (refine State.isCounter_canon (by assumption) ?_) | (with_reducible refine State.isCounter_canon (Prod.eta _).symm ?_) | (refine State.fwRead_canon (by assumption) ?_) | (with_reducible refine State.fwRead_canon (Prod.eta _).symm ?_) | (fail_if_no_progress (with_reducible apply State.Canon.other)) | (fail_if_no_progress (with_reducible apply State.Canon.sluices)) | (fail_if_no_progress (with_reducible apply State.Canon.tables)) | split | (intro _))

theorem State.waitPreds_canon {s : State} {l : Launch} (hs : s.Canon) : (State.waitPreds s l).Canon := by
  unfold State.waitPreds
  try dsimp only
  (repeat' first | with_reducible assumption | (with_reducible refine State.Canon.foldl ?_ ?_) | (with_reducible apply State.fwWaitFor_canon) | (fail_if_no_progress (with_reducible apply State.Canon.other)) | (fail_if_no_progress (with_reducible apply State.Canon.sluices)) | (fail_if_no_progress (with_reducible apply State.Canon.tables)) | split | (intro _))

theorem State.addLaunch_canon {s : State} {l : Launch} (hs : s.Canon) : (State.addLaunch s l).Canon := by
  unfold State.addLaunch
  try dsimp only
  (repeat' first | with_reducible assumption | (with_reducible refine State.Canon.foldl ?_ ?_) | (fail_if_no_progress (with_reducible apply State.Canon.other)) | (fail_if_no_progress (with_reducible apply State.Canon.sluices)) | (fail_if_no_progress (with_reducible apply State.Canon.tables)) | split | (intro _))

theorem State.enterLaunch_canon {s : State} {c : Command} {l : Launch} {k : Kernel} (hs : s.Canon) : (State.enterLaunch s c l k).Canon := by
  unfold State.enterLaunch
  try dsimp only
  (repeat' first | with_reducible assumption | (with_reducible refine State.Canon.foldl ?_ ?_) | (with_reducible apply State.addLaunch_canon) | (with_reducible apply State.waitPreds_canon) | (with_reducible apply State.reject_canon) | (with_reducible apply State.cancelLaunch_canon) | (with_reducible apply State.tryBegin_canon) | (with_reducible apply State.retire_canon) | (with_reducible apply State.post_canon) | (refine State.isCounter_canon (by assumption) ?_) | (with_reducible refine State.isCounter_canon (Prod.eta _).symm ?_) | (fail_if_no_progress (with_reducible apply State.Canon.other)) | (fail_if_no_progress (with_reducible apply State.Canon.sluices)) | (fail_if_no_progress (with_reducible apply State.Canon.tables)) | split | (intro _))

theorem State.takeLaunch_canon {s : State} {c : Command} (hs : s.Canon) : (State.takeLaunch s c).Canon := by
  unfold State.takeLaunch
  try dsimp only
  (repeat' first | with_reducible assumption | (with_reducible refine State.Canon.foldl ?_ ?_) | (with_reducible apply State.enterLaunch_canon) | (with_reducible apply State.updTenant_canon) | (refine State.fwWords_canon (by assumption) ?_) | (with_reducible refine State.fwWords_canon (Prod.eta _).symm ?_) | (fail_if_no_progress (with_reducible apply State.Canon.other)) | (fail_if_no_progress (with_reducible apply State.Canon.sluices)) | (fail_if_no_progress (with_reducible apply State.Canon.tables)) | split | (intro _))

theorem execHostLaunch_canon {s : State} (hs : s.Canon) : OutCanon (execHostLaunch s) := by
  unfold execHostLaunch
  try dsimp only
  (repeat' first | with_reducible assumption | (with_reducible apply OutCanon.next) | (with_reducible exact OutCanon.fault) | (with_reducible refine State.Canon.foldl ?_ ?_) | (with_reducible apply State.takeLaunch_canon) | (with_reducible apply State.runCommand_canon) | (fail_if_no_progress (with_reducible apply State.Canon.other)) | (fail_if_no_progress (with_reducible apply State.Canon.sluices)) | (fail_if_no_progress (with_reducible apply State.Canon.tables)) | split | (intro _))

theorem State.addObj_canon {s : State} {o : Obj} (hs : s.Canon) : (State.addObj s o).Canon := by
  unfold State.addObj
  try dsimp only
  (repeat' first | with_reducible assumption | (with_reducible refine State.Canon.foldl ?_ ?_) | (with_reducible apply State.markCancelled_canon) | (with_reducible apply State.checkObj_canon) | (fail_if_no_progress (with_reducible apply State.Canon.other)) | (fail_if_no_progress (with_reducible apply State.Canon.sluices)) | (fail_if_no_progress (with_reducible apply State.Canon.tables)) | split | (intro _))

theorem State.takeObj_canon {s : State} {c : Command} {used : List (Nat × W64)} {f : State → State} (hs : s.Canon) (hf : ∀ a0, a0.Canon → (f a0).Canon) : (State.takeObj s c used f).Canon := by
  unfold State.takeObj
  try dsimp only
  (repeat' first | with_reducible assumption | (with_reducible refine State.Canon.foldl ?_ ?_) | (with_reducible apply hf) | (with_reducible apply State.reject_canon) | (fail_if_no_progress (with_reducible apply State.Canon.other)) | (fail_if_no_progress (with_reducible apply State.Canon.sluices)) | (fail_if_no_progress (with_reducible apply State.Canon.tables)) | split | (intro _))

theorem execHostGraph_canon {s : State} (hs : s.Canon) : OutCanon (execHostGraph s) := by
  unfold execHostGraph
  try dsimp only
  (repeat' first | with_reducible assumption | (with_reducible apply OutCanon.next) | (with_reducible exact OutCanon.fault) | (with_reducible refine State.Canon.foldl ?_ ?_) | (with_reducible apply State.takeObj_canon) | (with_reducible apply State.addObj_canon) | (with_reducible apply State.runCommand_canon) | (with_reducible apply State.fwWaitFor_canon) | (fail_if_no_progress (with_reducible apply State.Canon.other)) | (fail_if_no_progress (with_reducible apply State.Canon.sluices)) | (fail_if_no_progress (with_reducible apply State.Canon.tables)) | split | (intro _))

theorem execHostPhase_canon {s : State} (hs : s.Canon) : OutCanon (execHostPhase s) := by
  unfold execHostPhase
  try dsimp only
  (repeat' first | with_reducible assumption | (with_reducible apply OutCanon.next) | (with_reducible exact OutCanon.fault) | (with_reducible refine State.Canon.foldl ?_ ?_) | (with_reducible apply State.takeObj_canon) | (with_reducible apply State.addObj_canon) | (with_reducible apply State.runCommand_canon) | (with_reducible apply State.fwWaitFor_canon) | (fail_if_no_progress (with_reducible apply State.Canon.other)) | (fail_if_no_progress (with_reducible apply State.Canon.sluices)) | (fail_if_no_progress (with_reducible apply State.Canon.tables)) | split | (intro _))

theorem execHostJob_canon {s : State} (hs : s.Canon) : OutCanon (execHostJob s) := by
  unfold execHostJob
  try dsimp only
  (repeat' first | with_reducible assumption | (with_reducible apply OutCanon.next) | (with_reducible exact OutCanon.fault) | (with_reducible refine State.Canon.foldl ?_ ?_) | (with_reducible apply State.takeObj_canon) | (with_reducible apply State.addObj_canon) | (with_reducible apply State.runCommand_canon) | (fail_if_no_progress (with_reducible apply State.Canon.other)) | (fail_if_no_progress (with_reducible apply State.Canon.sluices)) | (fail_if_no_progress (with_reducible apply State.Canon.tables)) | split | (intro _))

theorem State.takeCancel_canon {s : State} {c : Command} {used : List (Nat × W64)} {unit : Option Nat} (hs : s.Canon) : (State.takeCancel s c used unit).Canon := by
  unfold State.takeCancel
  try dsimp only
  (repeat' first | with_reducible assumption | (with_reducible refine State.Canon.foldl ?_ ?_) | (with_reducible apply State.reject_canon) | (with_reducible apply State.cross_canon) | (with_reducible apply State.post_canon) | (refine State.isCounter_canon (by assumption) ?_) | (with_reducible refine State.isCounter_canon (Prod.eta _).symm ?_) | (fail_if_no_progress (with_reducible apply State.Canon.other)) | (fail_if_no_progress (with_reducible apply State.Canon.sluices)) | (fail_if_no_progress (with_reducible apply State.Canon.tables)) | split | (intro _))

theorem execHostCancel_canon {s : State} (hs : s.Canon) : OutCanon (execHostCancel s) := by
  unfold execHostCancel
  try dsimp only
  (repeat' first | with_reducible assumption | (with_reducible apply OutCanon.next) | (with_reducible exact OutCanon.fault) | (with_reducible refine State.Canon.foldl ?_ ?_) | (with_reducible apply State.takeCancel_canon) | (with_reducible apply State.runCommand_canon) | (fail_if_no_progress (with_reducible apply State.Canon.other)) | (fail_if_no_progress (with_reducible apply State.Canon.sluices)) | (fail_if_no_progress (with_reducible apply State.Canon.tables)) | split | (intro _))

theorem execHostCancelu_canon {s : State} (hs : s.Canon) : OutCanon (execHostCancelu s) := by
  unfold execHostCancelu
  try dsimp only
  (repeat' first | with_reducible assumption | (with_reducible apply OutCanon.next) | (with_reducible exact OutCanon.fault) | (with_reducible refine State.Canon.foldl ?_ ?_) | (with_reducible apply State.takeCancel_canon) | (with_reducible apply State.runCommand_canon) | (fail_if_no_progress (with_reducible apply State.Canon.other)) | (fail_if_no_progress (with_reducible apply State.Canon.sluices)) | (fail_if_no_progress (with_reducible apply State.Canon.tables)) | split | (intro _))

theorem execUnknownCommand_canon {s : State} (hs : s.Canon) : OutCanon (execUnknownCommand s) := by
  unfold execUnknownCommand
  try dsimp only
  (repeat' first | with_reducible assumption | (with_reducible apply OutCanon.next) | (with_reducible exact OutCanon.fault) | (with_reducible refine State.Canon.foldl ?_ ?_) | (with_reducible apply State.reject_canon) | (with_reducible apply State.runCommand_canon) | (fail_if_no_progress (with_reducible apply State.Canon.other)) | (fail_if_no_progress (with_reducible apply State.Canon.sluices)) | (fail_if_no_progress (with_reducible apply State.Canon.tables)) | split | (intro _))

theorem State.writeForHost_canon {s : State} {die : Nat} {tenant : Nat} {a : W64} {bs : List Byte} (hs : s.Canon) : (State.writeForHost s die tenant a bs).Canon := by
  unfold State.writeForHost
  try dsimp only
  (repeat' first | with_reducible assumption | (with_reducible refine State.Canon.foldl ?_ ?_) | (with_reducible apply State.asyncRecord_canon) | (with_reducible apply State.commit_canon) | (with_reducible apply State.open_canon) | (refine State.openRecord_canon (by assumption) ?_) | (with_reducible refine State.openRecord_canon (Prod.eta _).symm ?_) | (refine State.xlat_canon (by assumption) ?_) | (with_reducible refine State.xlat_canon (Prod.eta _).symm ?_) | (fail_if_no_progress (with_reducible apply State.Canon.other)) | (fail_if_no_progress (with_reducible apply State.Canon.sluices)) | (fail_if_no_progress (with_reducible apply State.Canon.tables)) | split | (intro _))

theorem State.writeAllForHost_canon {s : State} {die : Nat} {tenant : Nat} {a : W64} {bs : List Byte} (hs : s.Canon) : (State.writeAllForHost s die tenant a bs).Canon := by
  unfold State.writeAllForHost
  try dsimp only
  (repeat' first | with_reducible assumption | (with_reducible refine State.Canon.foldl ?_ ?_) | (with_reducible apply State.writeForHost_canon) | (fail_if_no_progress (with_reducible apply State.Canon.other)) | (fail_if_no_progress (with_reducible apply State.Canon.sluices)) | (fail_if_no_progress (with_reducible apply State.Canon.tables)) | split | (intro _))

end Sys2Proof.Machine
end

