-- ==== Sys2Proof/Laws/CanonMapping.lean ====
section
/-!
SUPPORT. Every function of Machine/Mapping.lean keeps the canonical form of the storages.
-/

namespace Sys2Proof.Machine

open Sys2Proof

set_option linter.unusedTactic false
set_option linter.unreachableTactic false
set_option linter.unusedSimpArgs false
set_option linter.unnecessarySeqFocus false

theorem State.takeMap_canon {s : State} {c : Command} {used : List (Nat × W64)} {f : State → State × Option Nat} (hf : ∀ a, a.Canon → (f a).1.Canon)
    (hs : s.Canon) : (s.takeMap c used f).Canon := by
  unfold State.takeMap
  dsimp only
  split
  · exact State.reject_canon hs
  · split
    · exact State.reject_canon hs
    · have h := hf s hs
      generalize f s = r at h
      obtain ⟨s1, _ | x⟩ := r
      · exact h
      · exact State.reject_canon h


theorem State.done_canon {s : State} {c : Command} (hs : s.Canon) : (State.done s c).Canon := by
  unfold State.done
  try dsimp only
  (repeat' first | with_reducible assumption | (with_reducible refine State.Canon.foldl ?_ ?_) | (with_reducible apply State.advanceCounter_canon) | (fail_if_no_progress (with_reducible apply State.Canon.other)) | (fail_if_no_progress (with_reducible apply State.Canon.sluices)) | (fail_if_no_progress (with_reducible apply State.Canon.tables)) | split | (intro _))

theorem State.clearPage_canon {s : State} {page : Nat} (hs : s.Canon) : (s.clearPage page).Canon :=
  { hs with
    bytes := Memory.wf_iff.2 (spWf_filter (Memory.wf_iff.1 hs.bytes)), tags := spWf_filter hs.tags, upsets := spWf_filter hs.upsets
    copyUpsets := spWf_filter hs.copyUpsets, counts := spWf_filter hs.counts }


theorem State.backPage_canon {s : State} {page : Nat} {out : State} (e : s.backPage page = some out) (hs : s.Canon) : out.Canon := by
  unfold State.backPage at e
  obtain ⟨x, -, rfl⟩ := Option.map_eq_some_iff.1 e
  exact State.fwStore_canon hs fun _ h => State.clearPage_canon (State.setDpit_canon h)


theorem State.backPages_canon {s : State} {page : Nat} {x0 : Nat} {out : State} (e : State.backPages s page x0 = some out) (hs : s.Canon) : out.Canon := by
  induction x0 generalizing s page out with
  | zero => rw [State.backPages] at e <;> (try dsimp only at e) <;> (repeat' split at e) <;> (try simp only [Except.ok.injEq, Option.some.injEq, Prod.mk.injEq, reduceCtorEq] at e) <;> (first | (obtain ⟨e1, e2⟩ := e; subst e1 e2) | (subst e) | skip) <;> (repeat' first | with_reducible assumption | (with_reducible refine State.Canon.foldl ?_ ?_) | (refine State.backPage_canon (by assumption) ?_) | (with_reducible refine State.backPage_canon (guarded_some (by with_reducible assumption)) ?_) | (fail_if_no_progress (with_reducible apply State.Canon.other)) | (fail_if_no_progress (with_reducible apply State.Canon.sluices)) | (fail_if_no_progress (with_reducible apply State.Canon.tables)) | split | (intro _) | (refine State.backPage_canon (by assumption) ?_) | (with_reducible refine State.backPage_canon (guarded_some (by with_reducible assumption)) ?_) | split | (intro _))
  | succ _ ih => rw [State.backPages] at e <;> (try dsimp only at e) <;> (repeat' split at e) <;> (try simp only [Except.ok.injEq, Option.some.injEq, Prod.mk.injEq, reduceCtorEq] at e) <;> (first | (obtain ⟨e1, e2⟩ := e; subst e1 e2) | (subst e) | skip) <;> (repeat' first | with_reducible assumption | (with_reducible refine State.Canon.foldl ?_ ?_) | (refine State.backPage_canon (by assumption) ?_) | (with_reducible refine State.backPage_canon (guarded_some (by with_reducible assumption)) ?_) | (fail_if_no_progress (with_reducible apply State.Canon.other)) | (fail_if_no_progress (with_reducible apply State.Canon.sluices)) | (fail_if_no_progress (with_reducible apply State.Canon.tables)) | split | (intro _) | (refine ih (by assumption) ?_) | (refine State.backPage_canon (by assumption) ?_) | (with_reducible refine State.backPage_canon (guarded_some (by with_reducible assumption)) ?_) | split | (intro _))

theorem State.takePlace_canon {s : State} {die lo hi n : Nat} {ret : _} {out : State} (e : s.takePlace die lo hi n = some (ret, out)) (hs : s.Canon) : out.Canon := by
  unfold State.takePlace at e
  split at e
  · exact nomatch e
  · obtain ⟨s1, h1, h2⟩ := Option.map_eq_some_iff.1 e
    cases h2; exact State.backPages_canon h1 hs


theorem State.takeAny_canon {s : State} {n : Nat} {x0 : List Nat} {ret : _} {ret2 : _} {out : State} (e : State.takeAny s n x0 = some (ret, ret2, out)) (hs : s.Canon) : out.Canon := by
  induction x0 generalizing s n ret out with
  | nil => rw [State.takeAny] at e <;> (try dsimp only at e) <;> (repeat' split at e) <;> (try simp only [Except.ok.injEq, Option.some.injEq, Prod.mk.injEq, reduceCtorEq] at e) <;> (first | (obtain ⟨e1, e2, e3⟩ := e; subst e1 e2 e3) | (obtain ⟨e1, e2⟩ := e; subst e1 e2) | (subst e) | skip) <;> (repeat' first | with_reducible assumption | (with_reducible refine State.Canon.foldl ?_ ?_) | (refine State.takePlace_canon (by assumption) ?_) | (with_reducible refine State.takePlace_canon (guarded_some (by with_reducible assumption)) ?_) | (fail_if_no_progress (with_reducible apply State.Canon.other)) | (fail_if_no_progress (with_reducible apply State.Canon.sluices)) | (fail_if_no_progress (with_reducible apply State.Canon.tables)) | split | (intro _) | (refine State.takePlace_canon (by assumption) ?_) | (with_reducible refine State.takePlace_canon (guarded_some (by with_reducible assumption)) ?_) | split | (intro _))
  | cons _ _ ih => rw [State.takeAny] at e <;> (try dsimp only at e) <;> (repeat' split at e) <;> (try simp only [Except.ok.injEq, Option.some.injEq, Prod.mk.injEq, reduceCtorEq] at e) <;> (first | (obtain ⟨e1, e2, e3⟩ := e; subst e1 e2 e3) | (obtain ⟨e1, e2⟩ := e; subst e1 e2) | (subst e) | skip) <;> (repeat' first | with_reducible assumption | (with_reducible refine State.Canon.foldl ?_ ?_) | (refine State.takePlace_canon (by assumption) ?_) | (with_reducible refine State.takePlace_canon (guarded_some (by with_reducible assumption)) ?_) | (fail_if_no_progress (with_reducible apply State.Canon.other)) | (fail_if_no_progress (with_reducible apply State.Canon.sluices)) | (fail_if_no_progress (with_reducible apply State.Canon.tables)) | split | (intro _) | (refine ih (by assumption) ?_) | (refine State.takePlace_canon (by assumption) ?_) | (with_reducible refine State.takePlace_canon (guarded_some (by with_reducible assumption)) ?_) | split | (intro _))

theorem State.takePlaces_canon {s : State} {n : Nat} {dies : List Nat} {last k : Nat} {ret : _} {out : State} (e : s.takePlaces n dies last k = some (ret, out))
    (hs : s.Canon) : out.Canon := by
  induction k generalizing s last ret with
  | zero => cases e; exact hs
  | succ k ih =>
    rw [State.takePlaces] at e
    split at e
    · exact nomatch e
    · obtain ⟨⟨ps, s1⟩, h1, h2⟩ := Option.map_eq_some_iff.1 e
      cases h2; exact ih h1 (State.takeAny_canon ‹_› hs)


theorem State.fwEntry_canon {s : State} {a : Nat} {ret : _} {out : State} (e : State.fwEntry s a = (out, ret)) (hs : s.Canon) : out.Canon := by
  unfold State.fwEntry at e
  try dsimp only at e
  (repeat' split at e) <;> (try simp only [Except.ok.injEq, Option.some.injEq, Prod.mk.injEq, reduceCtorEq] at e) <;> (first | (obtain ⟨e1, e2⟩ := e; subst e1 e2) | (subst e) | skip) <;> (repeat' first | with_reducible assumption | (with_reducible refine State.Canon.foldl ?_ ?_) | (refine State.fwOpen_canon (by assumption) ?_) | (with_reducible refine State.fwOpen_canon (Prod.eta _).symm ?_) | (fail_if_no_progress (with_reducible apply State.Canon.other)) | (fail_if_no_progress (with_reducible apply State.Canon.sluices)) | (fail_if_no_progress (with_reducible apply State.Canon.tables)) | split | (intro _))

theorem State.putEntry_canon {s : State} {a : Nat} {e : W64} (hs : s.Canon) : (State.putEntry s a e).Canon := by
  unfold State.putEntry
  try dsimp only
  (repeat' first | with_reducible assumption | (with_reducible refine State.Canon.foldl ?_ ?_) | (with_reducible apply State.fwStore_canon) | (with_reducible apply State.commit_canon) | (with_reducible apply State.open_canon) | (fail_if_no_progress (with_reducible apply State.Canon.other)) | (fail_if_no_progress (with_reducible apply State.Canon.sluices)) | (fail_if_no_progress (with_reducible apply State.Canon.tables)) | split | (intro _))

theorem State.newTable_canon {s : State} {size : Nat} {ret : _} {out : State} (e : s.newTable size = some (ret, out)) (hs : s.Canon) : out.Canon := by
  unfold State.newTable at e
  obtain ⟨⟨p, s1⟩, h1, h2⟩ := Option.map_eq_some_iff.1 e
  cases h2
  refine State.Canon.other ?_
  have key : ∀ lo hi, (List.range 24).findSome? (fun d => s.takePlace d lo hi (max 1 (size / 65536))) = some (p, s1) → s1.Canon := fun lo hi h => by
    obtain ⟨d, _, hd⟩ := List.exists_of_findSome?_eq_some h
    exact State.takePlace_canon hd hs
  rcases Option.or_eq_some_iff.1 h1 with h | ⟨_, h⟩ <;> exact key _ _ h


theorem State.tableAt_canon {s : State} {a size : Nat} {ret : _} {out : State} (e : s.tableAt a size = some (ret, out)) (hs : s.Canon) : out.Canon := by
  unfold State.tableAt at e
  generalize hf : s.fwEntry a = r at e
  obtain ⟨s1, w⟩ := r
  have h1 := State.fwEntry_canon hf hs
  dsimp only at e
  split at e
  · cases e; exact h1
  · obtain ⟨⟨p, s2⟩, h2, h3⟩ := Option.map_eq_some_iff.1 e
    cases h3; exact State.putEntry_canon (State.newTable_canon h2 h1)


theorem State.entryFor_canon {s : State} {t : Tenant} {va : Nat} {big : Bool} {ret : _} {out : State} (e : s.entryFor t va big = some (ret, out)) (hs : s.Canon) :
    out.Canon := by
  unfold State.entryFor at e
  split at e
  · exact nomatch e
  · have h1 := State.tableAt_canon ‹_› hs
    dsimp only at e
    split at e
    · cases e; exact h1
    · obtain ⟨⟨p, s2⟩, h2, h3⟩ := Option.map_eq_some_iff.1 e
      cases h3; exact State.tableAt_canon h2 h1


theorem State.mapPage_canon {s : State} {t : Tenant} {va page : Nat} {big wr : Bool} {out : State} (e : s.mapPage t va page big wr = some out) (hs : s.Canon) :
    out.Canon := by
  unfold State.mapPage at e
  obtain ⟨⟨p, s1⟩, h1, h2⟩ := Option.map_eq_some_iff.1 e
  cases h2; exact State.putEntry_canon (State.entryFor_canon h1 hs)


theorem State.mapPages_canon {s : State} {t : Tenant} {big : Bool} {wr : Bool} {va : Nat} {x0 : List Nat} {out : State} (e : State.mapPages s t big wr va x0 = some out) (hs : s.Canon) : out.Canon := by
  induction x0 generalizing s t big wr va out with
  | nil => rw [State.mapPages] at e <;> (try dsimp only at e) <;> (repeat' split at e) <;> (try simp only [Except.ok.injEq, Option.some.injEq, Prod.mk.injEq, reduceCtorEq] at e) <;> (first | (obtain ⟨e1, e2⟩ := e; subst e1 e2) | (subst e) | skip) <;> (repeat' first | with_reducible assumption | (with_reducible refine State.Canon.foldl ?_ ?_) | (refine State.mapPage_canon (by assumption) ?_) | (with_reducible refine State.mapPage_canon (guarded_some (by with_reducible assumption)) ?_) | (fail_if_no_progress (with_reducible apply State.Canon.other)) | (fail_if_no_progress (with_reducible apply State.Canon.sluices)) | (fail_if_no_progress (with_reducible apply State.Canon.tables)) | split | (intro _) | (refine State.mapPage_canon (by assumption) ?_) | (with_reducible refine State.mapPage_canon (guarded_some (by with_reducible assumption)) ?_) | split | (intro _))
  | cons _ _ ih => rw [State.mapPages] at e <;> (try dsimp only at e) <;> (repeat' split at e) <;> (try simp only [Except.ok.injEq, Option.some.injEq, Prod.mk.injEq, reduceCtorEq] at e) <;> (first | (obtain ⟨e1, e2⟩ := e; subst e1 e2) | (subst e) | skip) <;> (repeat' first | with_reducible assumption | (with_reducible refine State.Canon.foldl ?_ ?_) | (refine State.mapPage_canon (by assumption) ?_) | (with_reducible refine State.mapPage_canon (guarded_some (by with_reducible assumption)) ?_) | (fail_if_no_progress (with_reducible apply State.Canon.other)) | (fail_if_no_progress (with_reducible apply State.Canon.sluices)) | (fail_if_no_progress (with_reducible apply State.Canon.tables)) | split | (intro _) | (refine ih (by assumption) ?_) | (refine State.mapPage_canon (by assumption) ?_) | (with_reducible refine State.mapPage_canon (guarded_some (by with_reducible assumption)) ?_) | split | (intro _))

theorem State.mapped_canon {s : State} {t : Tenant} {va : Nat} {ret : _} {out : State} (e : State.mapped s t va = (out, ret)) (hs : s.Canon) : out.Canon := by
  unfold State.mapped at e
  try dsimp only at e
  (repeat' split at e) <;> (try simp only [Except.ok.injEq, Option.some.injEq, Prod.mk.injEq, reduceCtorEq] at e) <;> (first | (obtain ⟨e1, e2⟩ := e; subst e1 e2) | (subst e) | skip) <;> (repeat' first | with_reducible assumption | (with_reducible refine State.Canon.foldl ?_ ?_) | (refine State.fwEntry_canon (by assumption) ?_) | (with_reducible refine State.fwEntry_canon (Prod.eta _).symm ?_) | (fail_if_no_progress (with_reducible apply State.Canon.other)) | (fail_if_no_progress (with_reducible apply State.Canon.sluices)) | (fail_if_no_progress (with_reducible apply State.Canon.tables)) | split | (intro _))

theorem State.anyMapped_canon {s : State} {t : Tenant} {va : Nat} {x0 : Nat} {ret : _} {out : State} (e : State.anyMapped s t va x0 = (out, ret)) (hs : s.Canon) : out.Canon := by
  induction x0 generalizing s t va ret out with
  | zero => rw [State.anyMapped] at e <;> (try dsimp only at e) <;> (repeat' split at e) <;> (try simp only [Except.ok.injEq, Option.some.injEq, Prod.mk.injEq, reduceCtorEq] at e) <;> (first | (obtain ⟨e1, e2⟩ := e; subst e1 e2) | (subst e) | skip) <;> (repeat' first | with_reducible assumption | (with_reducible refine State.Canon.foldl ?_ ?_) | (refine State.mapped_canon (by assumption) ?_) | (with_reducible refine State.mapped_canon (Prod.eta _).symm ?_) | (fail_if_no_progress (with_reducible apply State.Canon.other)) | (fail_if_no_progress (with_reducible apply State.Canon.sluices)) | (fail_if_no_progress (with_reducible apply State.Canon.tables)) | split | (intro _) | (refine State.mapped_canon (by assumption) ?_) | (with_reducible refine State.mapped_canon (Prod.eta _).symm ?_) | split | (intro _))
  | succ _ ih => rw [State.anyMapped] at e <;> (try dsimp only at e) <;> (repeat' split at e) <;> (try simp only [Except.ok.injEq, Option.some.injEq, Prod.mk.injEq, reduceCtorEq] at e) <;> (first | (obtain ⟨e1, e2⟩ := e; subst e1 e2) | (subst e) | skip) <;> (repeat' first | with_reducible assumption | (with_reducible refine State.Canon.foldl ?_ ?_) | (refine State.mapped_canon (by assumption) ?_) | (with_reducible refine State.mapped_canon (Prod.eta _).symm ?_) | (fail_if_no_progress (with_reducible apply State.Canon.other)) | (fail_if_no_progress (with_reducible apply State.Canon.sluices)) | (fail_if_no_progress (with_reducible apply State.Canon.tables)) | split | (intro _) | (refine ih (by assumption) ?_) | (refine ih (Prod.eta _).symm ?_) | (refine State.mapped_canon (by assumption) ?_) | (with_reducible refine State.mapped_canon (Prod.eta _).symm ?_) | split | (intro _))

theorem State.mapRange_canon {s : State} {t : Tenant} {va n : Nat} {big wr : Bool} {mask : W64} (hs : s.Canon) : (s.mapRange t va n big wr mask).1.Canon := by
  unfold State.mapRange
  generalize ha : s.anyMapped t va _ = r
  obtain ⟨s1, _ | _⟩ := r
  · have h1 := State.anyMapped_canon ha hs
    dsimp only
    generalize hb : Option.bind _ _ = m
    cases m with
    | none => exact h1
    | some s2 =>
      obtain ⟨⟨ps, s3⟩, h3, h4⟩ := Option.bind_eq_some_iff.1 hb
      exact State.mapPages_canon h4 (State.takePlaces_canon h3 h1)
  · exact State.anyMapped_canon ha hs


theorem execMap_canon {s : State} (hs : s.Canon) : OutCanon (execMap s) :=
  State.runCommand_canon hs (fun c s hs => State.takeMap_canon (fun a ha => by
    split
    · exact ha
    · exact ha
    · rename_i t _ _
      have h := State.mapRange_canon (t := t) (va := (wordAtOff c 0x08).toNat) (n := mapCount c) (big := mapBig c) (wr := bit (wordAtOff c 0x10) 33)
        (mask := wordAtOff c 0x18) ha
      generalize State.mapRange _ _ _ _ _ _ _ = r at h
      obtain ⟨s1, _ | x⟩ := r
      · exact State.done_canon h
      · exact h) hs)


theorem State.unmapPages_canon {s : State} {t : Tenant} {big : Bool} {va : Nat} {x0 : Nat} {ret : _} {out : State} (e : State.unmapPages s t big va x0 = (out, ret)) (hs : s.Canon) : out.Canon := by
  induction x0 generalizing s t big va ret out with
  | zero => rw [State.unmapPages] at e <;> (try dsimp only at e) <;> (repeat' split at e) <;> (try simp only [Except.ok.injEq, Option.some.injEq, Prod.mk.injEq, reduceCtorEq] at e) <;> (first | (obtain ⟨e1, e2⟩ := e; subst e1 e2) | (subst e) | skip) <;> (repeat' first | with_reducible assumption | (with_reducible refine State.Canon.foldl ?_ ?_) | (refine State.mapped_canon (by assumption) ?_) | (with_reducible refine State.mapped_canon (Prod.eta _).symm ?_) | (fail_if_no_progress (with_reducible apply State.Canon.other)) | (fail_if_no_progress (with_reducible apply State.Canon.sluices)) | (fail_if_no_progress (with_reducible apply State.Canon.tables)) | split | (intro _) | (refine State.mapped_canon (by assumption) ?_) | (with_reducible refine State.mapped_canon (Prod.eta _).symm ?_) | split | (intro _))
  | succ _ ih => rw [State.unmapPages] at e <;> (try dsimp only at e) <;> (repeat' split at e) <;> (try simp only [Except.ok.injEq, Option.some.injEq, Prod.mk.injEq, reduceCtorEq] at e) <;> (first | (obtain ⟨e1, e2⟩ := e; subst e1 e2) | (subst e) | skip) <;> (repeat' first | with_reducible assumption | (with_reducible refine State.Canon.foldl ?_ ?_) | (refine State.mapped_canon (by assumption) ?_) | (with_reducible refine State.mapped_canon (Prod.eta _).symm ?_) | (fail_if_no_progress (with_reducible apply State.Canon.other)) | (fail_if_no_progress (with_reducible apply State.Canon.sluices)) | (fail_if_no_progress (with_reducible apply State.Canon.tables)) | split | (intro _) | (refine ih (by assumption) ?_) | (refine ih (Prod.eta _).symm ?_) | (refine State.mapped_canon (by assumption) ?_) | (with_reducible refine State.mapped_canon (Prod.eta _).symm ?_) | split | (intro _))

theorem State.dropTable_canon {s : State} {a : Nat} {table : Nat} {size : Nat} (hs : s.Canon) : (State.dropTable s a table size).Canon := by
  unfold State.dropTable
  try dsimp only
  (repeat' first | with_reducible assumption | (with_reducible refine State.Canon.foldl ?_ ?_) | (with_reducible apply State.putEntry_canon) | (with_reducible apply State.fwStore_canon) | (with_reducible apply State.setMoved_canon) | (with_reducible apply State.setDpit_canon) | (fail_if_no_progress (with_reducible apply State.Canon.other)) | (fail_if_no_progress (with_reducible apply State.Canon.sluices)) | (fail_if_no_progress (with_reducible apply State.Canon.tables)) | split | (intro _))

theorem State.unmapPage_canon {s : State} {t : Tenant} {big : Bool} {va : Nat} (hs : s.Canon) : (State.unmapPage s t big va).Canon := by
  unfold State.unmapPage
  try dsimp only
  (repeat' first | with_reducible assumption | (with_reducible refine State.Canon.foldl ?_ ?_) | (with_reducible apply State.dropTable_canon) | (with_reducible apply State.putEntry_canon) | (refine State.fwEntry_canon (by assumption) ?_) | (with_reducible refine State.fwEntry_canon (Prod.eta _).symm ?_) | (fail_if_no_progress (with_reducible apply State.Canon.other)) | (fail_if_no_progress (with_reducible apply State.Canon.sluices)) | (fail_if_no_progress (with_reducible apply State.Canon.tables)) | split | (intro _))

theorem State.dropEntries_canon {s : State} {t : Tenant} {big : Bool} {va : Nat} {x0 : Nat} (hs : s.Canon) : (State.dropEntries s t big va x0).Canon := by
  induction x0 generalizing s t big va with
  | zero => rw [State.dropEntries] <;> (try dsimp only) <;> (repeat' first | with_reducible assumption | (with_reducible refine State.Canon.foldl ?_ ?_) | (with_reducible apply State.unmapPage_canon) | (fail_if_no_progress (with_reducible apply State.Canon.other)) | (fail_if_no_progress (with_reducible apply State.Canon.sluices)) | (fail_if_no_progress (with_reducible apply State.Canon.tables)) | split | (intro _) | (with_reducible apply State.unmapPage_canon) | split | (intro _))
  | succ _ ih => rw [State.dropEntries] <;> (try dsimp only) <;> (repeat' first | with_reducible assumption | (with_reducible refine State.Canon.foldl ?_ ?_) | (with_reducible apply State.unmapPage_canon) | (fail_if_no_progress (with_reducible apply State.Canon.other)) | (fail_if_no_progress (with_reducible apply State.Canon.sluices)) | (fail_if_no_progress (with_reducible apply State.Canon.tables)) | split | (intro _) | (with_reducible apply ih) | (with_reducible apply State.unmapPage_canon) | split | (intro _))

theorem State.unmapRange_canon {s : State} {c : Command} {t : Tenant} {ps : List Nat} (hs : s.Canon) : (State.unmapRange s c t ps).Canon := by
  unfold State.unmapRange
  try dsimp only
  (repeat' first | with_reducible assumption | (with_reducible refine State.Canon.foldl ?_ ?_) | (with_reducible apply State.dropEntries_canon) | (with_reducible apply State.post_canon) | (fail_if_no_progress (with_reducible apply State.Canon.other)) | (fail_if_no_progress (with_reducible apply State.Canon.sluices)) | (fail_if_no_progress (with_reducible apply State.Canon.tables)) | split | (intro _))

theorem State.pollSettling_canon {s : State} (hs : s.Canon) : (State.pollSettling s).Canon := by
  unfold State.pollSettling
  try dsimp only
  (repeat' first | with_reducible assumption | (with_reducible refine State.Canon.foldl ?_ ?_) | (with_reducible apply State.postIn_canon) | (fail_if_no_progress (with_reducible apply State.Canon.other)) | (fail_if_no_progress (with_reducible apply State.Canon.sluices)) | (fail_if_no_progress (with_reducible apply State.Canon.tables)) | split | (intro _))

theorem State.pollUnmap_canon {s : State} (hs : s.Canon) : (State.pollUnmap s).Canon := by
  unfold State.pollUnmap
  try dsimp only
  (repeat' first | with_reducible assumption | (with_reducible refine State.Canon.foldl ?_ ?_) | (with_reducible apply State.pollSettling_canon) | (with_reducible apply State.settle_canon) | (fail_if_no_progress (with_reducible apply State.Canon.other)) | (fail_if_no_progress (with_reducible apply State.Canon.sluices)) | (fail_if_no_progress (with_reducible apply State.Canon.tables)) | split | (intro _))

theorem execUnmap_canon {s : State} (hs : s.Canon) : OutCanon (execUnmap s) := by
  unfold execUnmap
  split
  · exact State.runCommand_canon hs (fun c s hs => State.takeMap_canon (fun a ha => by
      split
      · exact ha
      · exact ha
      · rename_i t _ _
        generalize hu : State.unmapPages _ _ _ _ _ = r
        have h := State.unmapPages_canon hu ha
        obtain ⟨s1, _ | (_ | ⟨p, ps⟩)⟩ := r
        · exact h
        · exact State.done_canon h
        · exact State.unmapRange_canon h) hs)
  · exact OutCanon.next (State.pollUnmap_canon hs)


theorem execFwin_canon {s : State} (hs : s.Canon) : OutCanon (execFwin s) :=
  State.runCommand_canon hs (fun c s hs => State.takeMap_canon (fun a ha => by
    exact State.done_canon { ha with fwins := spSet_wf ha.fwins }) hs)


theorem State.register_canon {s : State} {tenant : Nat} {num : Nat} {block : W64} (hs : s.Canon) : (State.register s tenant num block).Canon := by
  unfold State.register
  try dsimp only
  (repeat' first | with_reducible assumption | (with_reducible refine State.Canon.foldl ?_ ?_) | (with_reducible apply State.postIn_canon) | (refine State.fwRead_canon (by assumption) ?_) | (with_reducible refine State.fwRead_canon (Prod.eta _).symm ?_) | (fail_if_no_progress (with_reducible apply State.Canon.other)) | (fail_if_no_progress (with_reducible apply State.Canon.sluices)) | (fail_if_no_progress (with_reducible apply State.Canon.tables)) | split | (intro _))

theorem execQreg_canon {s : State} (hs : s.Canon) : OutCanon (execQreg s) :=
  State.runCommand_canon hs (fun c s hs => State.takeMap_canon (fun a ha => by
    dsimp only
    (repeat' split) <;> first | exact ha | exact State.done_canon (State.register_canon ha)) hs)


theorem execQunreg_canon {s : State} (hs : s.Canon) : OutCanon (execQunreg s) :=
  State.runCommand_canon hs (fun c s hs => State.takeMap_canon (fun a ha => by
    dsimp only
    split
    · exact State.done_canon (State.Canon.other ha)
    · exact ha) hs)


theorem execRemap_canon {s : State} (hs : s.Canon) : OutCanon (execRemap s) :=
  State.runCommand_canon hs (fun c s hs => State.takeMap_canon (fun a ha => by
    dsimp only
    split
    · exact ha
    · split
      · exact ha
      · split
        · exact State.done_canon (State.updTenant_canon ha)
        · exact State.pollSettling_canon (State.Canon.other (State.updTenant_canon ha))) hs)


end Sys2Proof.Machine
end

