-- ==== Sys2Proof/Laws/CanonBoot.lean ====
section
/-!
SUPPORT. Every function of Machine/Boot.lean keeps the canonical form of the storages.
-/

namespace Sys2Proof.Machine

open Sys2Proof

set_option linter.unusedTactic false
set_option linter.unreachableTactic false
set_option linter.unusedSimpArgs false
set_option linter.unnecessarySeqFocus false

theorem State.startSupervisor_canon {s : State} {pc : W64} {core : Nat} (hs : s.Canon) : (s.startSupervisor pc core).Canon := by
  unfold State.startSupervisor
  generalize e : s.newGen = x
  obtain ⟨g, s1⟩ := x
  have h := State.newGen_canon e hs
  dsimp only
  refine State.setCtx_canon ?_
  constructor <;> dsimp only <;> with_reducible first
    | exact spFill_wf h.regs | exact spFill_wf h.regEmpty
    | exact h.ctxs | exact h.cores | exact h.ab | exact h.abEmpty | exact h.ps | exact h.wb | exact h.tiles | exact h.bytes | exact h.tags
    | exact h.upsets | exact h.copyUpsets | exact h.fwins | exact h.dpit | exact h.counts | exact h.moved | exact h.slecc | exact h.stkBank
    | exact h.stkCounts | exact h.seqs | exact h.quota | exact h.dies


theorem State.createTenant_canon {s : State} {r : TableRec} (hs : s.Canon) : (s.createTenant r).Canon := by
  unfold State.createTenant
  have h : ((s.newTable 0x40000).getD (0, s)).2.Canon := by
    generalize e : s.newTable 0x40000 = x
    cases x with
    | none => exact hs
    | some p => exact State.newTable_canon e hs
  generalize (s.newTable 0x40000).getD (0, s) = x at h
  obtain ⟨l1, s1⟩ := x
  exact State.Canon.foldl (fun _ _ h => State.startSupervisor_canon h) (State.register_canon (State.mapRange_canon (State.Canon.other h)))


theorem State.resetModule_canon {s : State} : s.resetModule.Canon := by constructor <;> rfl


theorem State.linkDown_canon {s : State} {kind : Nat} {link : Nat} (hs : s.Canon) : (State.linkDown s kind link).Canon := by
  unfold State.linkDown
  try dsimp only
  (repeat' first | with_reducible assumption | (with_reducible refine State.Canon.foldl ?_ ?_) | (with_reducible apply State.link_canon) | (with_reducible apply State.event_canon) | (fail_if_no_progress (with_reducible apply State.Canon.other)) | (fail_if_no_progress (with_reducible apply State.Canon.sluices)) | (fail_if_no_progress (with_reducible apply State.Canon.tables)) | split | (intro _))

theorem State.bringUp_canon {s : State} {t : Table} (hs : s.Canon) : (State.bringUp s t).Canon := by
  unfold State.bringUp
  try dsimp only
  (repeat' first | with_reducible assumption | (with_reducible refine State.Canon.foldl ?_ ?_) | (with_reducible apply State.linkDown_canon) | (with_reducible apply State.createTenant_canon) | (with_reducible apply State.postIn_canon) | (fail_if_no_progress (with_reducible apply State.Canon.other)) | (fail_if_no_progress (with_reducible apply State.Canon.sluices)) | (fail_if_no_progress (with_reducible apply State.Canon.tables)) | split | (intro _))
  all_goals (constructor <;> (try dsimp only) <;> (repeat' first | with_reducible assumption | (with_reducible apply spSet_wfBy) | (with_reducible apply spSet_wf) | (with_reducible apply spSetList_wf) | (with_reducible apply spFill_wf) | (with_reducible apply spWf_map_filter) | (with_reducible apply spWf_filter) | (with_reducible apply State.Canon.ctxs) | (with_reducible apply State.Canon.cores) | (with_reducible apply State.Canon.regs) | (with_reducible apply State.Canon.regEmpty) | (with_reducible apply State.Canon.ab) | (with_reducible apply State.Canon.abEmpty) | (with_reducible apply State.Canon.ps) | (with_reducible apply State.Canon.wb) | (with_reducible apply State.Canon.tiles) | (with_reducible apply State.Canon.bytes) | (with_reducible apply State.Canon.tags) | (with_reducible apply State.Canon.upsets) | (with_reducible apply State.Canon.copyUpsets) | (with_reducible apply State.Canon.fwins) | (with_reducible apply State.Canon.dpit) | (with_reducible apply State.Canon.counts) | (with_reducible apply State.Canon.moved) | (with_reducible apply State.Canon.slecc) | (with_reducible apply State.Canon.stkBank) | (with_reducible apply State.Canon.stkCounts) | (with_reducible apply State.Canon.seqs) | (with_reducible apply State.Canon.quota) | (with_reducible apply State.Canon.dies) | (with_reducible refine State.Canon.foldl ?_ ?_) | (with_reducible apply State.linkDown_canon) | (with_reducible apply State.createTenant_canon) | (with_reducible apply State.postIn_canon) | (fail_if_no_progress (with_reducible apply State.Canon.other)) | (fail_if_no_progress (with_reducible apply State.Canon.sluices)) | (fail_if_no_progress (with_reducible apply State.Canon.tables)) | split | (intro _)))

theorem State.trainLinks_canon {s : State} {t : Table} (hs : s.Canon) : (State.trainLinks s t).Canon := by
  unfold State.trainLinks
  try dsimp only
  (repeat' first | with_reducible assumption | (with_reducible refine State.Canon.foldl ?_ ?_) | (with_reducible apply State.bringUp_canon) | (with_reducible apply State.updDie_canon) | (fail_if_no_progress (with_reducible apply State.Canon.other)) | (fail_if_no_progress (with_reducible apply State.Canon.sluices)) | (fail_if_no_progress (with_reducible apply State.Canon.tables)) | split | (intro _))

theorem execModuleReset_canon {s : State} (hs : s.Canon) : OutCanon (execModuleReset s) := by
  unfold execModuleReset
  try dsimp only
  (repeat' first | with_reducible assumption | (with_reducible apply OutCanon.next) | (with_reducible exact OutCanon.fault) | (with_reducible refine State.Canon.foldl ?_ ?_) | (with_reducible apply State.trainLinks_canon) | (with_reducible apply State.resetModule_canon) | (with_reducible apply State.next_canon) | (fail_if_no_progress (with_reducible apply State.Canon.other)) | (fail_if_no_progress (with_reducible apply State.Canon.sluices)) | (fail_if_no_progress (with_reducible apply State.Canon.tables)) | split | (intro _))

theorem State.writeAllForFw_canon {s : State} {tenant : Nat} {a : W64} {bs : List Byte} (hs : s.Canon) : (State.writeAllForFw s tenant a bs).Canon := by
  unfold State.writeAllForFw
  try dsimp only
  (repeat' first | with_reducible assumption | (with_reducible refine State.Canon.foldl ?_ ?_) | (with_reducible apply State.writeForHost_canon) | (with_reducible apply State.fwStore_canon) | (fail_if_no_progress (with_reducible apply State.Canon.other)) | (fail_if_no_progress (with_reducible apply State.Canon.sluices)) | (fail_if_no_progress (with_reducible apply State.Canon.tables)) | split | (intro _))
  all_goals (constructor <;> (try dsimp only) <;> (repeat' first | with_reducible assumption | (with_reducible apply spSet_wfBy) | (with_reducible apply spSet_wf) | (with_reducible apply spSetList_wf) | (with_reducible apply spFill_wf) | (with_reducible apply spWf_map_filter) | (with_reducible apply spWf_filter) | (with_reducible apply State.Canon.ctxs) | (with_reducible apply State.Canon.cores) | (with_reducible apply State.Canon.regs) | (with_reducible apply State.Canon.regEmpty) | (with_reducible apply State.Canon.ab) | (with_reducible apply State.Canon.abEmpty) | (with_reducible apply State.Canon.ps) | (with_reducible apply State.Canon.wb) | (with_reducible apply State.Canon.tiles) | (with_reducible apply State.Canon.bytes) | (with_reducible apply State.Canon.tags) | (with_reducible apply State.Canon.upsets) | (with_reducible apply State.Canon.copyUpsets) | (with_reducible apply State.Canon.fwins) | (with_reducible apply State.Canon.dpit) | (with_reducible apply State.Canon.counts) | (with_reducible apply State.Canon.moved) | (with_reducible apply State.Canon.slecc) | (with_reducible apply State.Canon.stkBank) | (with_reducible apply State.Canon.stkCounts) | (with_reducible apply State.Canon.seqs) | (with_reducible apply State.Canon.quota) | (with_reducible apply State.Canon.dies) | (with_reducible refine State.Canon.foldl ?_ ?_) | (with_reducible apply State.writeForHost_canon) | (with_reducible apply State.fwStore_canon) | (fail_if_no_progress (with_reducible apply State.Canon.other)) | (fail_if_no_progress (with_reducible apply State.Canon.sluices)) | (fail_if_no_progress (with_reducible apply State.Canon.tables)) | split | (intro _)))

theorem State.fwBytes_canon {s : State} {tenant : Nat} {a : W64} {x0 : Nat} {ret : _} {out : State} (e : State.fwBytes s tenant a x0 = (ret, out)) (hs : s.Canon) : out.Canon := by
  induction x0 generalizing s tenant a ret out with
  | zero => rw [State.fwBytes] at e <;> (try dsimp only at e) <;> (repeat' split at e) <;> (try simp only [Except.ok.injEq, Option.some.injEq, Prod.mk.injEq, reduceCtorEq] at e) <;> (first | (obtain ⟨e1, e2⟩ := e; subst e1 e2) | (subst e) | skip) <;> (repeat' first | with_reducible assumption | (with_reducible refine State.Canon.foldl ?_ ?_) | (refine State.fwLook_canon (by assumption) ?_) | (with_reducible refine State.fwLook_canon (Prod.eta _).symm ?_) | (fail_if_no_progress (with_reducible apply State.Canon.other)) | (fail_if_no_progress (with_reducible apply State.Canon.sluices)) | (fail_if_no_progress (with_reducible apply State.Canon.tables)) | split | (intro _) | (refine State.fwLook_canon (by assumption) ?_) | (with_reducible refine State.fwLook_canon (Prod.eta _).symm ?_) | split | (intro _))
  | succ _ ih => rw [State.fwBytes] at e <;> (try dsimp only at e) <;> (repeat' split at e) <;> (try simp only [Except.ok.injEq, Option.some.injEq, Prod.mk.injEq, reduceCtorEq] at e) <;> (first | (obtain ⟨e1, e2⟩ := e; subst e1 e2) | (subst e) | skip) <;> (repeat' first | with_reducible assumption | (with_reducible refine State.Canon.foldl ?_ ?_) | (refine State.fwLook_canon (by assumption) ?_) | (with_reducible refine State.fwLook_canon (Prod.eta _).symm ?_) | (fail_if_no_progress (with_reducible apply State.Canon.other)) | (fail_if_no_progress (with_reducible apply State.Canon.sluices)) | (fail_if_no_progress (with_reducible apply State.Canon.tables)) | split | (intro _) | (refine ih (by assumption) ?_) | (refine ih (Prod.eta _).symm ?_) | (refine State.fwLook_canon (by assumption) ?_) | (with_reducible refine State.fwLook_canon (Prod.eta _).symm ?_) | split | (intro _))

theorem execAttest_canon {s : State} (hs : s.Canon) : OutCanon (execAttest s) :=
  State.runCommand_canon hs (fun c s hs => State.takeMap_canon (fun a ha => by
    split
    · exact ha
    · exact State.event_canon (State.done_canon (State.writeAllForFw_canon (State.fwWords_canon (Prod.eta _).symm ha)))) hs)


theorem execCfgstage_canon {s : State} (hs : s.Canon) : OutCanon (execCfgstage s) :=
  State.runCommand_canon hs (fun c s hs => State.takeMap_canon (fun a ha => by
    dsimp only
    split
    · exact ha
    · generalize hb : State.fwBytes _ _ _ _ = r
      obtain ⟨bs, s1⟩ := r
      have h := State.fwBytes_canon hb ha
      dsimp only
      split
      · exact h
      · exact State.done_canon (State.Canon.other h)) hs)


end Sys2Proof.Machine
end

