-- ==== Sys2Proof/Laws/CanonStops.lean ====
section
/-!
SUPPORT. Every function of Machine/Stops.lean keeps the canonical form of the storages.
-/

namespace Sys2Proof.Machine

open Sys2Proof

set_option linter.unusedTactic false
set_option linter.unreachableTactic false
set_option linter.unusedSimpArgs false
set_option linter.unnecessarySeqFocus false

theorem State.writePending_canon {s : State} {core : Nat} {x0 : List PendingTrap} {x1 : List PendingTrap} (hs : s.Canon) : (State.writePending s core x0 x1).Canon := by
  induction x1 generalizing s core x0 with
  | nil => rw [State.writePending] <;> (try dsimp only) <;> (repeat' first | with_reducible assumption | (with_reducible refine State.Canon.foldl ?_ ?_) | (with_reducible apply State.writeRecord_canon) | (with_reducible apply State.updCore_canon) | (fail_if_no_progress (with_reducible apply State.Canon.other)) | (fail_if_no_progress (with_reducible apply State.Canon.sluices)) | (fail_if_no_progress (with_reducible apply State.Canon.tables)) | split | (intro _) | (with_reducible apply State.writeRecord_canon) | (with_reducible apply State.updCore_canon) | split | (intro _))
  | cons _ _ ih => rw [State.writePending] <;> (try dsimp only) <;> (repeat' first | with_reducible assumption | (with_reducible refine State.Canon.foldl ?_ ?_) | (with_reducible apply State.writeRecord_canon) | (with_reducible apply State.updCore_canon) | (fail_if_no_progress (with_reducible apply State.Canon.other)) | (fail_if_no_progress (with_reducible apply State.Canon.sluices)) | (fail_if_no_progress (with_reducible apply State.Canon.tables)) | split | (intro _) | (with_reducible apply ih) | (with_reducible apply State.writeRecord_canon) | (with_reducible apply State.updCore_canon) | split | (intro _))

theorem execTrapRecordWrite_canon {s : State} (hs : s.Canon) : OutCanon (execTrapRecordWrite s) := by
  unfold execTrapRecordWrite
  try dsimp only
  (repeat' first | with_reducible assumption | (with_reducible apply OutCanon.next) | (with_reducible exact OutCanon.fault) | (with_reducible refine State.Canon.foldl ?_ ?_) | (with_reducible apply State.writePending_canon) | (with_reducible apply State.next_canon) | (with_reducible apply State.enterPending_canon) | (fail_if_no_progress (with_reducible apply State.Canon.other)) | (fail_if_no_progress (with_reducible apply State.Canon.sluices)) | (fail_if_no_progress (with_reducible apply State.Canon.tables)) | split | (intro _))
  all_goals (constructor <;> (try dsimp only) <;> (repeat' first | with_reducible assumption | (with_reducible apply spSet_wfBy) | (with_reducible apply spSet_wf) | (with_reducible apply spSetList_wf) | (with_reducible apply spFill_wf) | (with_reducible apply spWf_map_filter) | (with_reducible apply spWf_filter) | (with_reducible apply State.Canon.ctxs) | (with_reducible apply State.Canon.cores) | (with_reducible apply State.Canon.regs) | (with_reducible apply State.Canon.regEmpty) | (with_reducible apply State.Canon.ab) | (with_reducible apply State.Canon.abEmpty) | (with_reducible apply State.Canon.ps) | (with_reducible apply State.Canon.wb) | (with_reducible apply State.Canon.tiles) | (with_reducible apply State.Canon.bytes) | (with_reducible apply State.Canon.tags) | (with_reducible apply State.Canon.upsets) | (with_reducible apply State.Canon.copyUpsets) | (with_reducible apply State.Canon.fwins) | (with_reducible apply State.Canon.dpit) | (with_reducible apply State.Canon.counts) | (with_reducible apply State.Canon.moved) | (with_reducible apply State.Canon.slecc) | (with_reducible apply State.Canon.stkBank) | (with_reducible apply State.Canon.stkCounts) | (with_reducible apply State.Canon.seqs) | (with_reducible apply State.Canon.quota) | (with_reducible apply State.Canon.dies) | (with_reducible apply OutCanon.next) | (with_reducible exact OutCanon.fault) | (with_reducible refine State.Canon.foldl ?_ ?_) | (with_reducible apply State.writePending_canon) | (with_reducible apply State.next_canon) | (with_reducible apply State.enterPending_canon) | (fail_if_no_progress (with_reducible apply State.Canon.other)) | (fail_if_no_progress (with_reducible apply State.Canon.sluices)) | (fail_if_no_progress (with_reducible apply State.Canon.tables)) | split | (intro _)))

theorem execTrapQueueRead_canon {die : Nat} {s : State} (hs : s.Canon) : OutCanon (execTrapQueueRead die s) := by
  unfold execTrapQueueRead
  apply OutCanon.next
  split
  · exact hs
  · refine State.cross_canon hs fun s hs => ?_
    exact State.post_canon (State.updDie_canon (State.Canon.other (State.Canon.foldl (fun _ _ h => State.readStructure_canon h) hs)))


theorem execFatalstatWrite_canon {die : Nat} {v : W64} {s : State} (hs : s.Canon) : OutCanon (execFatalstatWrite die v s) := by
  unfold execFatalstatWrite
  try dsimp only
  (repeat' first | with_reducible assumption | (with_reducible apply OutCanon.next) | (with_reducible exact OutCanon.fault) | (with_reducible refine State.Canon.foldl ?_ ?_) | (with_reducible apply State.next_canon) | (with_reducible apply State.updDie_canon) | (fail_if_no_progress (with_reducible apply State.Canon.other)) | (fail_if_no_progress (with_reducible apply State.Canon.sluices)) | (fail_if_no_progress (with_reducible apply State.Canon.tables)) | split | (intro _))

theorem State.stopOps_canon {s : State} {on : Nat → Bool} {ops : List EngOp} (hs : s.Canon) : (s.stopOps on ops).Canon :=
  { hs with abEmpty := spWf_map hs.abEmpty fun _ h e => h (List.map_eq_nil_iff.1 e) }


theorem State.stopRouters_canon {s : State} {on : Nat → Bool} (hs : s.Canon) : (s.stopRouters on).Canon := by
  unfold State.stopRouters
  dsimp only
  refine State.Canon.foldl (fun s st h => State.Canon.foldl (fun s e h => ?_) h) (State.Canon.other hs)
  split
  · exact State.emit_canon h
  · split
    · exact h
    · exact State.post_canon h


theorem State.stopRecord_canon {s : State} {tenant : Nat} {cause : Nat} {die : Nat} {cores : List Nat} (hs : s.Canon) : (State.stopRecord s tenant cause die cores).Canon := by
  unfold State.stopRecord
  try dsimp only
  (repeat' first | with_reducible assumption | (with_reducible refine State.Canon.foldl ?_ ?_) | (with_reducible apply State.bermRecord_canon) | (refine State.openRecord_canon (by assumption) ?_) | (with_reducible refine State.openRecord_canon (Prod.eta _).symm ?_) | (fail_if_no_progress (with_reducible apply State.Canon.other)) | (fail_if_no_progress (with_reducible apply State.Canon.sluices)) | (fail_if_no_progress (with_reducible apply State.Canon.tables)) | split | (intro _))

theorem State.gangStop_canon {s : State} {t : Tenant} (hs : s.Canon) : (State.gangStop s t).Canon := by
  unfold State.gangStop
  try dsimp only
  (repeat' first | with_reducible assumption | (with_reducible refine State.Canon.foldl ?_ ?_) | (with_reducible apply State.stopRouters_canon) | (with_reducible apply State.stopOps_canon) | (with_reducible apply State.withdrawAway_canon) | (with_reducible apply State.withdrawAll_canon) | (with_reducible apply State.updCore_canon) | (with_reducible apply State.updCtx_canon) | (fail_if_no_progress (with_reducible apply State.Canon.other)) | (fail_if_no_progress (with_reducible apply State.Canon.sluices)) | (fail_if_no_progress (with_reducible apply State.Canon.tables)) | split | (intro _))
  all_goals (constructor <;> (try dsimp only) <;> (repeat' first | with_reducible assumption | (with_reducible apply spSet_wfBy) | (with_reducible apply spSet_wf) | (with_reducible apply spSetList_wf) | (with_reducible apply spFill_wf) | (with_reducible apply spWf_map_filter) | (with_reducible apply spWf_filter) | (with_reducible apply State.Canon.ctxs) | (with_reducible apply State.Canon.cores) | (with_reducible apply State.Canon.regs) | (with_reducible apply State.Canon.regEmpty) | (with_reducible apply State.Canon.ab) | (with_reducible apply State.Canon.abEmpty) | (with_reducible apply State.Canon.ps) | (with_reducible apply State.Canon.wb) | (with_reducible apply State.Canon.tiles) | (with_reducible apply State.Canon.bytes) | (with_reducible apply State.Canon.tags) | (with_reducible apply State.Canon.upsets) | (with_reducible apply State.Canon.copyUpsets) | (with_reducible apply State.Canon.fwins) | (with_reducible apply State.Canon.dpit) | (with_reducible apply State.Canon.counts) | (with_reducible apply State.Canon.moved) | (with_reducible apply State.Canon.slecc) | (with_reducible apply State.Canon.stkBank) | (with_reducible apply State.Canon.stkCounts) | (with_reducible apply State.Canon.seqs) | (with_reducible apply State.Canon.quota) | (with_reducible apply State.Canon.dies) | (with_reducible refine State.Canon.foldl ?_ ?_) | (with_reducible apply State.stopRouters_canon) | (with_reducible apply State.stopOps_canon) | (with_reducible apply State.withdrawAway_canon) | (with_reducible apply State.withdrawAll_canon) | (with_reducible apply State.updCore_canon) | (with_reducible apply State.updCtx_canon) | (fail_if_no_progress (with_reducible apply State.Canon.other)) | (fail_if_no_progress (with_reducible apply State.Canon.sluices)) | (fail_if_no_progress (with_reducible apply State.Canon.tables)) | split | (intro _)))

theorem State.stopRecords_canon {s : State} {t : Tenant} {cause : Nat} (hs : s.Canon) : (State.stopRecords s t cause).Canon := by
  unfold State.stopRecords
  try dsimp only
  (repeat' first | with_reducible assumption | (with_reducible refine State.Canon.foldl ?_ ?_) | (with_reducible apply State.stopRecord_canon) | (fail_if_no_progress (with_reducible apply State.Canon.other)) | (fail_if_no_progress (with_reducible apply State.Canon.sluices)) | (fail_if_no_progress (with_reducible apply State.Canon.tables)) | split | (intro _))

theorem execGangStop_canon {tenant : Nat} {cause : Nat} {u2 : Nat} {s : State} (hs : s.Canon) : OutCanon (execGangStop tenant cause u2 s) := by
  unfold execGangStop
  try dsimp only
  (repeat' first | with_reducible assumption | (with_reducible apply OutCanon.next) | (with_reducible exact OutCanon.fault) | (with_reducible refine State.Canon.foldl ?_ ?_) | (with_reducible apply State.gangStop_canon) | (with_reducible apply State.next_canon) | (with_reducible apply State.post_canon) | (fail_if_no_progress (with_reducible apply State.Canon.other)) | (fail_if_no_progress (with_reducible apply State.Canon.sluices)) | (fail_if_no_progress (with_reducible apply State.Canon.tables)) | split | (intro _))

theorem State.reapAll_canon {s : State} {t : Tenant} (hs : s.Canon) : (State.reapAll s t).Canon := by
  unfold State.reapAll
  try dsimp only
  (repeat' first | with_reducible assumption | (with_reducible refine State.Canon.foldl ?_ ?_) | (with_reducible apply State.dropWaiting_canon) | (with_reducible apply State.work_canon) | (with_reducible apply State.bind_canon) | (with_reducible apply State.withdrawAll_canon) | (with_reducible apply State.advanceRetire_canon) | (with_reducible apply State.updDie_canon) | (with_reducible apply State.updCore_canon) | (with_reducible apply State.setCtx_canon) | (fail_if_no_progress (with_reducible apply State.Canon.other)) | (fail_if_no_progress (with_reducible apply State.Canon.sluices)) | (fail_if_no_progress (with_reducible apply State.Canon.tables)) | split | (intro _))
  all_goals (constructor <;> (try dsimp only) <;> (repeat' first | with_reducible assumption | (with_reducible apply spSet_wfBy) | (with_reducible apply spSet_wf) | (with_reducible apply spSetList_wf) | (with_reducible apply spFill_wf) | (with_reducible apply spWf_map_filter) | (with_reducible apply spWf_filter) | (with_reducible apply State.Canon.ctxs) | (with_reducible apply State.Canon.cores) | (with_reducible apply State.Canon.regs) | (with_reducible apply State.Canon.regEmpty) | (with_reducible apply State.Canon.ab) | (with_reducible apply State.Canon.abEmpty) | (with_reducible apply State.Canon.ps) | (with_reducible apply State.Canon.wb) | (with_reducible apply State.Canon.tiles) | (with_reducible apply State.Canon.bytes) | (with_reducible apply State.Canon.tags) | (with_reducible apply State.Canon.upsets) | (with_reducible apply State.Canon.copyUpsets) | (with_reducible apply State.Canon.fwins) | (with_reducible apply State.Canon.dpit) | (with_reducible apply State.Canon.counts) | (with_reducible apply State.Canon.moved) | (with_reducible apply State.Canon.slecc) | (with_reducible apply State.Canon.stkBank) | (with_reducible apply State.Canon.stkCounts) | (with_reducible apply State.Canon.seqs) | (with_reducible apply State.Canon.quota) | (with_reducible apply State.Canon.dies) | (with_reducible refine State.Canon.foldl ?_ ?_) | (with_reducible apply State.dropWaiting_canon) | (with_reducible apply State.work_canon) | (with_reducible apply State.bind_canon) | (with_reducible apply State.withdrawAll_canon) | (with_reducible apply State.advanceRetire_canon) | (with_reducible apply State.updDie_canon) | (with_reducible apply State.updCore_canon) | (with_reducible apply State.setCtx_canon) | (fail_if_no_progress (with_reducible apply State.Canon.other)) | (fail_if_no_progress (with_reducible apply State.Canon.sluices)) | (fail_if_no_progress (with_reducible apply State.Canon.tables)) | split | (intro _)))

theorem State.cancelAll_canon {s : State} {t : Tenant} {ws : List FwWait} {ret : _} {out : State} (e : State.cancelAll s t ws = (out, ret)) (hs : s.Canon) : out.Canon := by
  unfold State.cancelAll at e
  try dsimp only at e
  (repeat' split at e) <;> (try simp only [Except.ok.injEq, Option.some.injEq, Prod.mk.injEq, reduceCtorEq] at e) <;> (first | (obtain ⟨e1, e2⟩ := e; subst e1 e2) | (subst e) | skip) <;> (repeat' first | with_reducible assumption | (with_reducible refine State.Canon.foldl ?_ ?_) | (with_reducible apply State.updObj_canon) | (with_reducible apply State.advanceCounter_canon) | (with_reducible apply State.updLaunch_canon) | (fail_if_no_progress (with_reducible apply State.Canon.other)) | (fail_if_no_progress (with_reducible apply State.Canon.sluices)) | (fail_if_no_progress (with_reducible apply State.Canon.tables)) | split | (intro _))

theorem execPartitionFault_canon {tenant : Nat} {cause : Nat} {s : State} (hs : s.Canon) : OutCanon (execPartitionFault tenant cause s) := by
  unfold execPartitionFault
  try dsimp only
  (repeat' first | with_reducible assumption | (with_reducible apply OutCanon.next) | (with_reducible exact OutCanon.fault) | (with_reducible refine State.Canon.foldl ?_ ?_) | (with_reducible apply State.reapAll_canon) | (with_reducible apply State.stopRecords_canon) | (with_reducible apply State.startSupervisor_canon) | (with_reducible apply State.next_canon) | (with_reducible apply State.event_canon) | (refine State.cancelAll_canon (by assumption) ?_) | (with_reducible refine State.cancelAll_canon (Prod.eta _).symm ?_) | (fail_if_no_progress (with_reducible apply State.Canon.other)) | (fail_if_no_progress (with_reducible apply State.Canon.sluices)) | (fail_if_no_progress (with_reducible apply State.Canon.tables)) | split | (intro _))

theorem execFirewallRefusal_canon {owner : Option Nat} {into : Bool} {cls : Nat} {dp : Nat} {s : State} (hs : s.Canon) : OutCanon (execFirewallRefusal owner into cls dp s) := by
  unfold execFirewallRefusal
  try dsimp only
  (repeat' first | with_reducible assumption | (with_reducible apply OutCanon.next) | (with_reducible exact OutCanon.fault) | (with_reducible refine State.Canon.foldl ?_ ?_) | (with_reducible apply State.next_canon) | (with_reducible apply State.fatalRecord_canon) | (with_reducible apply State.firewallDrop_canon) | (refine State.openRecord_canon (by assumption) ?_) | (with_reducible refine State.openRecord_canon (Prod.eta _).symm ?_) | (fail_if_no_progress (with_reducible apply State.Canon.other)) | (fail_if_no_progress (with_reducible apply State.Canon.sluices)) | (fail_if_no_progress (with_reducible apply State.Canon.tables)) | split | (intro _))

theorem State.overheat_canon {s : State} {die : Nat} {celsius : Nat} (hs : s.Canon) : (State.overheat s die celsius).Canon := by
  unfold State.overheat
  try dsimp only
  (repeat' first | with_reducible assumption | (with_reducible refine State.Canon.foldl ?_ ?_) | (with_reducible apply State.fatalRecord_canon) | (with_reducible apply State.event_canon) | (with_reducible apply State.updDie_canon) | (refine State.openRecord_canon (by assumption) ?_) | (with_reducible refine State.openRecord_canon (Prod.eta _).symm ?_) | (fail_if_no_progress (with_reducible apply State.Canon.other)) | (fail_if_no_progress (with_reducible apply State.Canon.sluices)) | (fail_if_no_progress (with_reducible apply State.Canon.tables)) | split | (intro _))

theorem State.takeBackDie_canon {s : State} {t : Tenant} {die : Nat} (hs : s.Canon) : (State.takeBackDie s t die).Canon := by
  unfold State.takeBackDie
  try dsimp only
  (repeat' first | with_reducible assumption | (with_reducible refine State.Canon.foldl ?_ ?_) | (with_reducible apply State.startSupervisor_canon) | (fail_if_no_progress (with_reducible apply State.Canon.other)) | (fail_if_no_progress (with_reducible apply State.Canon.sluices)) | (fail_if_no_progress (with_reducible apply State.Canon.tables)) | split | (intro _))

theorem execThermalEvent_canon {die : Nat} {celsius : Nat} {s : State} (hs : s.Canon) : OutCanon (execThermalEvent die celsius s) := by
  unfold execThermalEvent
  try dsimp only
  (repeat' first | with_reducible assumption | (with_reducible apply OutCanon.next) | (with_reducible exact OutCanon.fault) | (with_reducible refine State.Canon.foldl ?_ ?_) | (with_reducible apply State.takeBackDie_canon) | (with_reducible apply State.overheat_canon) | (with_reducible apply State.next_canon) | (with_reducible apply State.post_canon) | (with_reducible apply State.updDie_canon) | (fail_if_no_progress (with_reducible apply State.Canon.other)) | (fail_if_no_progress (with_reducible apply State.Canon.sluices)) | (fail_if_no_progress (with_reducible apply State.Canon.tables)) | split | (intro _))

end Sys2Proof.Machine
end

