-- ==== Sys2Proof/Laws/CanonPairs.lean ====
section
/-!
SUPPORT. Every function of Machine/Pairs.lean keeps the canonical form of the storages.
-/

namespace Sys2Proof.Machine

open Sys2Proof

set_option linter.unusedTactic false
set_option linter.unreachableTactic false
set_option linter.unusedSimpArgs false
set_option linter.unnecessarySeqFocus false

theorem State.mismatchRecord_canon {s : State} {gid : Nat} (hs : s.Canon) : (State.mismatchRecord s gid).Canon := by
  unfold State.mismatchRecord
  try dsimp only
  (repeat' first | with_reducible assumption | (with_reducible refine State.Canon.foldl ?_ ?_) | (with_reducible apply State.asyncRecord_canon) | (fail_if_no_progress (with_reducible apply State.Canon.other)) | (fail_if_no_progress (with_reducible apply State.Canon.sluices)) | (fail_if_no_progress (with_reducible apply State.Canon.tables)) | split | (intro _))

theorem State.dropWork_canon {s : State} {gid : Nat} (hs : s.Canon) : (State.dropWork s gid).Canon := by
  unfold State.dropWork
  try dsimp only
  (repeat' first | with_reducible assumption | (with_reducible refine State.Canon.foldl ?_ ?_) | (with_reducible apply State.toIdle_canon) | (with_reducible apply State.dropUnsent_canon) | (with_reducible apply State.fireTriggers_canon) | (fail_if_no_progress (with_reducible apply State.Canon.other)) | (fail_if_no_progress (with_reducible apply State.Canon.sluices)) | (fail_if_no_progress (with_reducible apply State.Canon.tables)) | split | (intro _))

theorem State.placeAgain_canon {s : State} {l : Launch} {u : Nat} (hs : s.Canon) : (State.placeAgain s l u).Canon := by
  unfold State.placeAgain
  try dsimp only
  (repeat' first | with_reducible assumption | (with_reducible refine State.Canon.foldl ?_ ?_) | (with_reducible apply State.updDie_canon) | (refine State.walkUnit_canon (by assumption) ?_) | (with_reducible refine State.walkUnit_canon (guarded_some (by with_reducible assumption)) ?_) | (fail_if_no_progress (with_reducible apply State.Canon.other)) | (fail_if_no_progress (with_reducible apply State.Canon.sluices)) | (fail_if_no_progress (with_reducible apply State.Canon.tables)) | split | (intro _))

theorem State.firstMismatch_canon {s : State} {l : Launch} {u : Nat} (hs : s.Canon) : (State.firstMismatch s l u).Canon := by
  unfold State.firstMismatch
  try dsimp only
  (repeat' first | with_reducible assumption | (with_reducible refine State.Canon.foldl ?_ ?_) | (with_reducible apply State.placeAgain_canon) | (with_reducible apply State.dropWork_canon) | (with_reducible apply State.work_canon) | (with_reducible apply State.checkLaunch_canon) | (with_reducible apply State.updLaunch_canon) | (fail_if_no_progress (with_reducible apply State.Canon.other)) | (fail_if_no_progress (with_reducible apply State.Canon.sluices)) | (fail_if_no_progress (with_reducible apply State.Canon.tables)) | split | (intro _))

theorem execCheckedPairMismatch_canon {gid : Nat} {s : State} (hs : s.Canon) : OutCanon (execCheckedPairMismatch gid s) := by
  unfold execCheckedPairMismatch
  try dsimp only
  (repeat' first | with_reducible assumption | (with_reducible apply OutCanon.next) | (with_reducible exact OutCanon.fault) | (with_reducible refine State.Canon.foldl ?_ ?_) | (with_reducible apply State.firstMismatch_canon) | (with_reducible apply State.mismatchRecord_canon) | (with_reducible apply State.gangStop_canon) | (with_reducible apply State.work_canon) | (with_reducible apply State.bind_canon) | (with_reducible apply State.next_canon) | (with_reducible apply State.endWork_canon) | (with_reducible apply State.dropUnsent_canon) | (with_reducible apply State.post_canon) | (fail_if_no_progress (with_reducible apply State.Canon.other)) | (fail_if_no_progress (with_reducible apply State.Canon.sluices)) | (fail_if_no_progress (with_reducible apply State.Canon.tables)) | split | (intro _))

theorem execCheckedPairTimeout_canon {s : State} (hs : s.Canon) : OutCanon (execCheckedPairTimeout s) := by
  unfold execCheckedPairTimeout
  try dsimp only
  (repeat' first | with_reducible assumption | (with_reducible apply OutCanon.next) | (with_reducible exact OutCanon.fault) | (with_reducible refine State.Canon.foldl ?_ ?_) | (with_reducible apply State.next_canon) | (with_reducible apply State.post_canon) | (fail_if_no_progress (with_reducible apply State.Canon.other)) | (fail_if_no_progress (with_reducible apply State.Canon.sluices)) | (fail_if_no_progress (with_reducible apply State.Canon.tables)) | split | (intro _))

end Sys2Proof.Machine
end

