-- ==== Sys2Proof/Laws/CanonMigration.lean ====
section
/-!
SUPPORT. Every function of Machine/Migration.lean keeps the canonical form of the storages.
-/

namespace Sys2Proof.Machine

open Sys2Proof

set_option linter.unusedTactic false
set_option linter.unreachableTactic false
set_option linter.unusedSimpArgs false
set_option linter.unnecessarySeqFocus false

theorem State.dropEntry_canon {s : State} {core : Nat} (hs : s.Canon) : (State.dropEntry s core).Canon := by
  unfold State.dropEntry
  try dsimp only
  (repeat' first | with_reducible assumption | (with_reducible refine State.Canon.foldl ?_ ?_) | (with_reducible apply State.post_canon) | (with_reducible apply State.updCore_canon) | (fail_if_no_progress (with_reducible apply State.Canon.other)) | (fail_if_no_progress (with_reducible apply State.Canon.sluices)) | (fail_if_no_progress (with_reducible apply State.Canon.tables)) | split | (intro _))

theorem State.depart_canon {s : State} {src : Nat} {dst : Nat} (hs : s.Canon) : (State.depart s src dst).Canon := by
  unfold State.depart
  try dsimp only
  (repeat' first | with_reducible assumption | (with_reducible refine State.Canon.foldl ?_ ?_) | (with_reducible apply State.updCore_canon) | (with_reducible apply State.updCtx_canon) | (refine State.moved_canon (by assumption) ?_) | (with_reducible refine State.moved_canon (Prod.eta _).symm ?_) | (fail_if_no_progress (with_reducible apply State.Canon.other)) | (fail_if_no_progress (with_reducible apply State.Canon.sluices)) | (fail_if_no_progress (with_reducible apply State.Canon.tables)) | split | (intro _))

theorem State.watch_canon {s : State} (hs : s.Canon) : (State.watch s).Canon := by
  unfold State.watch
  try dsimp only
  (repeat' first | with_reducible assumption | (with_reducible refine State.Canon.foldl ?_ ?_) | (with_reducible apply State.postIn_canon) | (fail_if_no_progress (with_reducible apply State.Canon.other)) | (fail_if_no_progress (with_reducible apply State.Canon.sluices)) | (fail_if_no_progress (with_reducible apply State.Canon.tables)) | split | (intro _))

theorem execMigrationStart_canon {src : Nat} {dst : Nat} {s : State} (hs : s.Canon) : OutCanon (execMigrationStart src dst s) := by
  unfold execMigrationStart
  try dsimp only
  (repeat' first | with_reducible assumption | (with_reducible apply OutCanon.next) | (with_reducible exact OutCanon.fault) | (with_reducible refine State.Canon.foldl ?_ ?_) | (with_reducible apply State.watch_canon) | (with_reducible apply State.depart_canon) | (with_reducible apply State.next_canon) | (fail_if_no_progress (with_reducible apply State.Canon.other)) | (fail_if_no_progress (with_reducible apply State.Canon.sluices)) | (fail_if_no_progress (with_reducible apply State.Canon.tables)) | split | (intro _))

theorem moveSpan_wf {α : Type} [DecidableEq α] {d : α} {m : Sparse α} {src dst n : Nat} (h : spWf d m = true) : spWf d (moveSpan d m src dst n) = true :=
  spFill_wf (spSetList_wf h)

theorem State.moveRegs_canon {s : State} {k k' n : Nat} (hs : s.Canon) : (s.moveRegs k k' n).Canon :=
  { hs with regs := moveSpan_wf hs.regs, regEmpty := moveSpan_wf hs.regEmpty }


theorem State.Canon.buffers {s : State} (hs : s.Canon) {ab ps : Sparse Byte} {abEmpty : Sparse (List Nat)} {tiles : Sparse Tile} (h1 : spWf 0 ab = true)
    (h2 : spWf [] abEmpty = true) (h3 : spWf 0 ps = true) (h4 : spWf Tile.init tiles = true) :
    State.Canon { s with cpu := { s.cpu with ab := ab, abEmpty := abEmpty, ps := ps, tiles := tiles } } :=
  { hs with ab := h1, abEmpty := h2, ps := h3, tiles := h4 }

theorem State.moveBuffers_canon {s : State} {src dst : Nat} (hs : s.Canon) : (s.moveBuffers src dst).Canon := by
  unfold State.moveBuffers
  with_reducible exact State.Canon.buffers hs (moveSpan_wf hs.ab) (moveSpan_wf hs.abEmpty) (moveSpan_wf hs.ps) (moveSpan_wf hs.tiles)


theorem State.moveCtx_canon {s : State} {src : Nat} {dst : Nat} {mode : Mode} (hs : s.Canon) : (State.moveCtx s src dst mode).Canon := by
  unfold State.moveCtx
  try dsimp only
  (repeat' first | with_reducible assumption | (with_reducible refine State.Canon.foldl ?_ ?_) | (with_reducible apply State.moveRegs_canon) | (with_reducible apply State.fireGranted_canon) | (with_reducible apply State.post_canon) | (with_reducible apply State.setCtx_canon) | (fail_if_no_progress (with_reducible apply State.Canon.other)) | (fail_if_no_progress (with_reducible apply State.Canon.sluices)) | (fail_if_no_progress (with_reducible apply State.Canon.tables)) | split | (intro _))

theorem State.moveCore_canon {s : State} {src : Nat} {f : Forward} (hs : s.Canon) : (State.moveCore s src f).Canon := by
  unfold State.moveCore
  try dsimp only
  (repeat' first | with_reducible assumption | (with_reducible refine State.Canon.foldl ?_ ?_) | (with_reducible apply State.id_canon) | (with_reducible apply State.moveCtx_canon) | (with_reducible apply State.moveBuffers_canon) | (with_reducible apply State.work_canon) | (with_reducible apply State.updCore_canon) | (refine State.moved_canon (by assumption) ?_) | (with_reducible refine State.moved_canon (Prod.eta _).symm ?_) | (fail_if_no_progress (with_reducible apply State.Canon.other)) | (fail_if_no_progress (with_reducible apply State.Canon.sluices)) | (fail_if_no_progress (with_reducible apply State.Canon.tables)) | split | (intro _))

theorem State.postHeld_canon {s : State} {core : Nat} {held : List Item} (hs : s.Canon) : (State.postHeld s core held).Canon := by
  unfold State.postHeld
  try dsimp only
  (repeat' first | with_reducible assumption | (with_reducible refine State.Canon.foldl ?_ ?_) | (fail_if_no_progress (with_reducible apply State.Canon.other)) | (fail_if_no_progress (with_reducible apply State.Canon.sluices)) | (fail_if_no_progress (with_reducible apply State.Canon.tables)) | split | (intro _))

theorem State.install_canon {s : State} {src : Nat} (hs : s.Canon) : (State.install s src).Canon := by
  unfold State.install
  try dsimp only
  (repeat' first | with_reducible assumption | (with_reducible refine State.Canon.foldl ?_ ?_) | (with_reducible apply State.postHeld_canon) | (with_reducible apply State.moveCore_canon) | (with_reducible apply State.updCore_canon) | (fail_if_no_progress (with_reducible apply State.Canon.other)) | (fail_if_no_progress (with_reducible apply State.Canon.sluices)) | (fail_if_no_progress (with_reducible apply State.Canon.tables)) | split | (intro _))

theorem State.itemAt_canon {s : State} {gid : Nat} {gen : Nat} {item : Item} (hs : s.Canon) : (State.itemAt s gid gen item).Canon := by
  unfold State.itemAt
  try dsimp only
  (repeat' first | with_reducible assumption | (with_reducible refine State.Canon.foldl ?_ ?_) | (with_reducible apply State.takeLate_canon) | (with_reducible apply State.takeFault_canon) | (with_reducible apply State.takeAck_canon) | (with_reducible apply State.takeDeposit_canon) | (with_reducible apply State.toContext_canon) | (fail_if_no_progress (with_reducible apply State.Canon.other)) | (fail_if_no_progress (with_reducible apply State.Canon.sluices)) | (fail_if_no_progress (with_reducible apply State.Canon.tables)) | split | (intro _))

theorem State.fillAtDst_canon {s : State} {dst : Nat} {op : Nat} {line : Nat} {data : List (Nat × Byte)} {last : Bool} (hs : s.Canon) : (State.fillAtDst s dst op line data last).Canon := by
  unfold State.fillAtDst
  try dsimp only
  (repeat' first | with_reducible assumption | (with_reducible refine State.Canon.foldl ?_ ?_) | (with_reducible apply State.work_canon) | (with_reducible apply State.finishGet_canon) | (with_reducible apply State.finishOp_canon) | (with_reducible apply State.endOp_canon) | (with_reducible apply State.writeAb_canon) | (with_reducible apply State.releaseLine_canon) | (with_reducible apply State.updOp_canon) | (fail_if_no_progress (with_reducible apply State.Canon.other)) | (fail_if_no_progress (with_reducible apply State.Canon.sluices)) | (fail_if_no_progress (with_reducible apply State.Canon.tables)) | split | (intro _))

theorem State.forward_canon {s : State} {f : Forward} {item : Item} (hs : s.Canon) : (State.forward s f item).Canon := by
  unfold State.forward
  try dsimp only
  (repeat' first | with_reducible assumption | (with_reducible refine State.Canon.foldl ?_ ?_) | (with_reducible apply State.fillAtDst_canon) | (with_reducible apply State.itemAt_canon) | (with_reducible apply State.resend_canon) | (with_reducible apply State.queueTask_canon) | (with_reducible apply State.post_canon) | (fail_if_no_progress (with_reducible apply State.Canon.other)) | (fail_if_no_progress (with_reducible apply State.Canon.sluices)) | (fail_if_no_progress (with_reducible apply State.Canon.tables)) | split | (intro _))
  all_goals (constructor <;> (try dsimp only) <;> (repeat' first | with_reducible assumption | (with_reducible apply spSet_wfBy) | (with_reducible apply spSet_wf) | (with_reducible apply spSetList_wf) | (with_reducible apply spFill_wf) | (with_reducible apply spWf_map_filter) | (with_reducible apply spWf_filter) | (with_reducible apply State.Canon.ctxs) | (with_reducible apply State.Canon.cores) | (with_reducible apply State.Canon.regs) | (with_reducible apply State.Canon.regEmpty) | (with_reducible apply State.Canon.ab) | (with_reducible apply State.Canon.abEmpty) | (with_reducible apply State.Canon.ps) | (with_reducible apply State.Canon.wb) | (with_reducible apply State.Canon.tiles) | (with_reducible apply State.Canon.bytes) | (with_reducible apply State.Canon.tags) | (with_reducible apply State.Canon.upsets) | (with_reducible apply State.Canon.copyUpsets) | (with_reducible apply State.Canon.fwins) | (with_reducible apply State.Canon.dpit) | (with_reducible apply State.Canon.counts) | (with_reducible apply State.Canon.moved) | (with_reducible apply State.Canon.slecc) | (with_reducible apply State.Canon.stkBank) | (with_reducible apply State.Canon.stkCounts) | (with_reducible apply State.Canon.seqs) | (with_reducible apply State.Canon.quota) | (with_reducible apply State.Canon.dies) | (with_reducible refine State.Canon.foldl ?_ ?_) | (with_reducible apply State.fillAtDst_canon) | (with_reducible apply State.itemAt_canon) | (with_reducible apply State.resend_canon) | (with_reducible apply State.queueTask_canon) | (with_reducible apply State.post_canon) | (fail_if_no_progress (with_reducible apply State.Canon.other)) | (fail_if_no_progress (with_reducible apply State.Canon.sluices)) | (fail_if_no_progress (with_reducible apply State.Canon.tables)) | split | (intro _)))

theorem State.applyHere_canon {s : State} {core : Nat} {item : Item} (hs : s.Canon) : (State.applyHere s core item).Canon := by
  unfold State.applyHere
  try dsimp only
  (repeat' first | with_reducible assumption | (with_reducible refine State.Canon.foldl ?_ ?_) | (with_reducible apply State.fillAtDst_canon) | (with_reducible apply State.itemAt_canon) | (with_reducible apply State.resend_canon) | (with_reducible apply State.queueTask_canon) | (fail_if_no_progress (with_reducible apply State.Canon.other)) | (fail_if_no_progress (with_reducible apply State.Canon.sluices)) | (fail_if_no_progress (with_reducible apply State.Canon.tables)) | split | (intro _))

theorem execForwardedItem_canon {core : Nat} {item : Item} {s : State} (hs : s.Canon) : OutCanon (execForwardedItem core item s) := by
  unfold execForwardedItem
  try dsimp only
  (repeat' first | with_reducible assumption | (with_reducible apply OutCanon.next) | (with_reducible exact OutCanon.fault) | (with_reducible refine State.Canon.foldl ?_ ?_) | (with_reducible apply State.applyHere_canon) | (with_reducible apply State.forward_canon) | (with_reducible apply State.dropEntry_canon) | (with_reducible apply State.next_canon) | (with_reducible apply State.updCore_canon) | (fail_if_no_progress (with_reducible apply State.Canon.other)) | (fail_if_no_progress (with_reducible apply State.Canon.sluices)) | (fail_if_no_progress (with_reducible apply State.Canon.tables)) | split | (intro _))

theorem State.lookAt_canon {s : State} {src : Nat} (hs : s.Canon) : (State.lookAt s src).Canon := by
  unfold State.lookAt
  try dsimp only
  (repeat' first | with_reducible assumption | (with_reducible refine State.Canon.foldl ?_ ?_) | (with_reducible apply State.install_canon) | (with_reducible apply State.dropEntry_canon) | (with_reducible apply State.post_canon) | (fail_if_no_progress (with_reducible apply State.Canon.other)) | (fail_if_no_progress (with_reducible apply State.Canon.sluices)) | (fail_if_no_progress (with_reducible apply State.Canon.tables)) | split | (intro _))

theorem execMigrationInstalled_canon {s : State} (hs : s.Canon) : OutCanon (execMigrationInstalled s) := by
  unfold execMigrationInstalled
  try dsimp only
  (repeat' first | with_reducible assumption | (with_reducible apply OutCanon.next) | (with_reducible exact OutCanon.fault) | (with_reducible refine State.Canon.foldl ?_ ?_) | (with_reducible apply State.lookAt_canon) | (with_reducible apply State.watch_canon) | (with_reducible apply State.next_canon) | (fail_if_no_progress (with_reducible apply State.Canon.other)) | (fail_if_no_progress (with_reducible apply State.Canon.sluices)) | (fail_if_no_progress (with_reducible apply State.Canon.tables)) | split | (intro _))

theorem State.goBack_canon {s : State} {m : Nat × Nat × Nat × Mode} (hs : s.Canon) : (State.goBack s m).Canon := by
  unfold State.goBack
  try dsimp only
  (repeat' first | with_reducible assumption | (with_reducible refine State.Canon.foldl ?_ ?_) | (with_reducible apply State.fireGranted_canon) | (with_reducible apply State.post_canon) | (with_reducible apply State.setCtx_canon) | (fail_if_no_progress (with_reducible apply State.Canon.other)) | (fail_if_no_progress (with_reducible apply State.Canon.sluices)) | (fail_if_no_progress (with_reducible apply State.Canon.tables)) | split | (intro _))

theorem State.abandonMigration_canon {s : State} {src : Nat} (hs : s.Canon) : (State.abandonMigration s src).Canon := by
  unfold State.abandonMigration
  try dsimp only
  (repeat' first | with_reducible assumption | (with_reducible refine State.Canon.foldl ?_ ?_) | (with_reducible apply State.goBack_canon) | (with_reducible apply State.postHeld_canon) | (with_reducible apply State.post_canon) | (with_reducible apply State.updCore_canon) | (refine State.moved_canon (by assumption) ?_) | (with_reducible refine State.moved_canon (Prod.eta _).symm ?_) | (fail_if_no_progress (with_reducible apply State.Canon.other)) | (fail_if_no_progress (with_reducible apply State.Canon.sluices)) | (fail_if_no_progress (with_reducible apply State.Canon.tables)) | split | (intro _))

theorem execMigrationAbandon_canon {src : Nat} {s : State} (hs : s.Canon) : OutCanon (execMigrationAbandon src s) := by
  unfold execMigrationAbandon
  try dsimp only
  (repeat' first | with_reducible assumption | (with_reducible apply OutCanon.next) | (with_reducible exact OutCanon.fault) | (with_reducible refine State.Canon.foldl ?_ ?_) | (with_reducible apply State.abandonMigration_canon) | (with_reducible apply State.next_canon) | (fail_if_no_progress (with_reducible apply State.Canon.other)) | (fail_if_no_progress (with_reducible apply State.Canon.sluices)) | (fail_if_no_progress (with_reducible apply State.Canon.tables)) | split | (intro _))

end Sys2Proof.Machine
end

