-- ==== Sys2Proof/Laws/CanonFabric.lean ====
section
/-!
SUPPORT. Every function of Machine/Fabric.lean keeps the canonical form of the storages.
-/

namespace Sys2Proof.Machine

open Sys2Proof

set_option linter.unusedTactic false
set_option linter.unreachableTactic false
set_option linter.unusedSimpArgs false
set_option linter.unnecessarySeqFocus false

theorem State.startProbes_canon {s : State} (hs : s.Canon) : (State.startProbes s).Canon := by
  unfold State.startProbes
  try dsimp only
  (repeat' first | with_reducible assumption | (with_reducible refine State.Canon.foldl ?_ ?_) | (with_reducible apply State.postIn_canon) | (fail_if_no_progress (with_reducible apply State.Canon.other)) | (fail_if_no_progress (with_reducible apply State.Canon.sluices)) | (fail_if_no_progress (with_reducible apply State.Canon.tables)) | split | (intro _))

theorem State.leave_canon {s : State} {r : Request} {phys : Nat} (hs : s.Canon) : (State.leave s r phys).Canon := by
  unfold State.leave
  try dsimp only
  (repeat' first | with_reducible assumption | (with_reducible refine State.Canon.foldl ?_ ?_) | (with_reducible apply State.startProbes_canon) | (with_reducible apply State.countWithdrawn_canon) | (with_reducible apply State.withdraw_canon) | (with_reducible apply State.emit_canon) | (with_reducible apply State.postIn_canon) | (fail_if_no_progress (with_reducible apply State.Canon.other)) | (fail_if_no_progress (with_reducible apply State.Canon.sluices)) | (fail_if_no_progress (with_reducible apply State.Canon.tables)) | split | (intro _))

theorem State.noPeer_canon {s : State} {r : Request} (hs : s.Canon) : (State.noPeer s r).Canon := by
  unfold State.noPeer
  try dsimp only
  (repeat' first | with_reducible assumption | (with_reducible refine State.Canon.foldl ?_ ?_) | (with_reducible apply State.post_canon) | (fail_if_no_progress (with_reducible apply State.Canon.other)) | (fail_if_no_progress (with_reducible apply State.Canon.sluices)) | (fail_if_no_progress (with_reducible apply State.Canon.tables)) | split | (intro _))

theorem State.prefTierFor_canon {s : State} {r : Request} {q : Requester} {pages : Nat} (hs : s.Canon) : (State.prefTierFor s r q pages).Canon := by
  unfold State.prefTierFor
  try dsimp only
  (repeat' first | with_reducible assumption | (with_reducible refine State.Canon.foldl ?_ ?_) | (with_reducible apply State.emit_canon) | (with_reducible apply State.postIn_canon) | (refine State.promoteAll_canon (by assumption) ?_) | (with_reducible refine State.promoteAll_canon (Prod.eta _).symm ?_) | (refine State.prefPages_canon (by assumption) ?_) | (with_reducible refine State.prefPages_canon (Prod.eta _).symm ?_) | (fail_if_no_progress (with_reducible apply State.Canon.other)) | (fail_if_no_progress (with_reducible apply State.Canon.sluices)) | (fail_if_no_progress (with_reducible apply State.Canon.tables)) | split | (intro _))

theorem execStationHandoff_canon {r : Request} {s : State} (hs : s.Canon) : OutCanon (execStationHandoff r s) := by
  unfold execStationHandoff
  try dsimp only
  (repeat' first | with_reducible assumption | (with_reducible apply OutCanon.next) | (with_reducible exact OutCanon.fault) | (with_reducible refine State.Canon.foldl ?_ ?_) | (with_reducible apply State.prefTierFor_canon) | (with_reducible apply State.noPeer_canon) | (with_reducible apply State.leave_canon) | (with_reducible apply State.next_canon) | (with_reducible apply State.post_canon) | (fail_if_no_progress (with_reducible apply State.Canon.other)) | (fail_if_no_progress (with_reducible apply State.Canon.sluices)) | (fail_if_no_progress (with_reducible apply State.Canon.tables)) | split | (intro _))

theorem State.takeBack_canon {s : State} {q : Requester} (hs : s.Canon) : (State.takeBack s q).Canon := by
  unfold State.takeBack
  try dsimp only
  (repeat' first | with_reducible assumption | (with_reducible refine State.Canon.foldl ?_ ?_) | (with_reducible apply State.withdrawAway_canon) | (with_reducible apply State.withdrawAll_canon) | (fail_if_no_progress (with_reducible apply State.Canon.other)) | (fail_if_no_progress (with_reducible apply State.Canon.sluices)) | (fail_if_no_progress (with_reducible apply State.Canon.tables)) | split | (intro _))

theorem State.engineWords_canon {s : State} {die : Nat} {tenant : Nat} {va : W64} {x0 : Nat} {ret : _} {out : State} (e : State.engineWords s die tenant va x0 = (out, ret)) (hs : s.Canon) : out.Canon := by
  induction x0 generalizing s die tenant va ret out with
  | zero => rw [State.engineWords] at e <;> (try dsimp only at e) <;> (repeat' split at e) <;> (try simp only [Except.ok.injEq, Option.some.injEq, Prod.mk.injEq, reduceCtorEq] at e) <;> (first | (obtain ⟨e1, e2⟩ := e; subst e1 e2) | (subst e) | skip) <;> (repeat' first | with_reducible assumption | (with_reducible refine State.Canon.foldl ?_ ?_) | (refine State.engineRead_canon (by assumption) ?_) | (with_reducible refine State.engineRead_canon (Prod.eta _).symm ?_) | (fail_if_no_progress (with_reducible apply State.Canon.other)) | (fail_if_no_progress (with_reducible apply State.Canon.sluices)) | (fail_if_no_progress (with_reducible apply State.Canon.tables)) | split | (intro _) | (refine State.engineRead_canon (by assumption) ?_) | (with_reducible refine State.engineRead_canon (Prod.eta _).symm ?_) | split | (intro _))
  | succ _ ih => rw [State.engineWords] at e <;> (try dsimp only at e) <;> (repeat' split at e) <;> (try simp only [Except.ok.injEq, Option.some.injEq, Prod.mk.injEq, reduceCtorEq] at e) <;> (first | (obtain ⟨e1, e2⟩ := e; subst e1 e2) | (subst e) | skip) <;> (repeat' first | with_reducible assumption | (with_reducible refine State.Canon.foldl ?_ ?_) | (refine State.engineRead_canon (by assumption) ?_) | (with_reducible refine State.engineRead_canon (Prod.eta _).symm ?_) | (fail_if_no_progress (with_reducible apply State.Canon.other)) | (fail_if_no_progress (with_reducible apply State.Canon.sluices)) | (fail_if_no_progress (with_reducible apply State.Canon.tables)) | split | (intro _) | (refine ih (by assumption) ?_) | (refine ih (Prod.eta _).symm ?_) | (refine State.engineRead_canon (by assumption) ?_) | (with_reducible refine State.engineRead_canon (Prod.eta _).symm ?_) | split | (intro _))

theorem State.blocksFor_canon {s : State} {r : Request} {q : Requester} {h : LossyHead} {xfer : Nat} (hs : s.Canon) : (State.blocksFor s r q h xfer).Canon := by
  unfold State.blocksFor
  try dsimp only
  (repeat' first | with_reducible assumption | (with_reducible refine State.Canon.foldl ?_ ?_) | (with_reducible apply State.sendBlocks_canon) | (with_reducible apply State.emit_canon) | (refine State.engineWords_canon (by assumption) ?_) | (with_reducible refine State.engineWords_canon (Prod.eta _).symm ?_) | (fail_if_no_progress (with_reducible apply State.Canon.other)) | (fail_if_no_progress (with_reducible apply State.Canon.sluices)) | (fail_if_no_progress (with_reducible apply State.Canon.tables)) | split | (intro _))

theorem State.enter_canon {s : State} {r : Request} {st : Nat} (hs : s.Canon) : (State.enter s r st).Canon := by
  unfold State.enter
  try dsimp only
  (repeat' first | with_reducible assumption | (with_reducible refine State.Canon.foldl ?_ ?_) | (with_reducible apply State.post_canon) | (refine State.newRid_canon (by assumption) ?_) | (with_reducible refine State.newRid_canon (Prod.eta _).symm ?_) | (fail_if_no_progress (with_reducible apply State.Canon.other)) | (fail_if_no_progress (with_reducible apply State.Canon.sluices)) | (fail_if_no_progress (with_reducible apply State.Canon.tables)) | split | (intro _))

theorem execFabricRequestIn_canon {r : Request} {s : State} (hs : s.Canon) : OutCanon (execFabricRequestIn r s) := by
  unfold execFabricRequestIn
  try dsimp only
  (repeat' first | with_reducible assumption | (with_reducible apply OutCanon.next) | (with_reducible exact OutCanon.fault) | (with_reducible refine State.Canon.foldl ?_ ?_) | (with_reducible apply State.enter_canon) | (with_reducible apply State.blocksFor_canon) | (with_reducible apply State.takeBack_canon) | (with_reducible apply State.prefTierFor_canon) | (with_reducible apply State.next_canon) | (with_reducible apply State.withdraw_canon) | (fail_if_no_progress (with_reducible apply State.Canon.other)) | (fail_if_no_progress (with_reducible apply State.Canon.sluices)) | (fail_if_no_progress (with_reducible apply State.Canon.tables)) | split | (intro _))

theorem State.setDpmap_canon {s : State} {k : Nat} {f : W64 → W64} (hs : s.Canon) : (State.setDpmap s k f).Canon := by
  unfold State.setDpmap
  try dsimp only
  (repeat' first | with_reducible assumption | (with_reducible refine State.Canon.foldl ?_ ?_) | (fail_if_no_progress (with_reducible apply State.Canon.other)) | (fail_if_no_progress (with_reducible apply State.Canon.sluices)) | (fail_if_no_progress (with_reducible apply State.Canon.tables)) | split | (intro _))

theorem State.markDead_canon {s : State} {phys : Nat} (hs : s.Canon) : (State.markDead s phys).Canon := by
  unfold State.markDead
  try dsimp only
  (repeat' first | with_reducible assumption | (with_reducible refine State.Canon.foldl ?_ ?_) | (with_reducible apply State.setDpmap_canon) | (with_reducible apply State.startProbes_canon) | (with_reducible apply State.failOp_canon) | (with_reducible apply State.settle_canon) | (with_reducible apply State.event_canon) | (with_reducible apply State.postAll_canon) | (fail_if_no_progress (with_reducible apply State.Canon.other)) | (fail_if_no_progress (with_reducible apply State.Canon.sluices)) | (fail_if_no_progress (with_reducible apply State.Canon.tables)) | split | (intro _))

theorem execPeerTimeout_canon {s : State} (hs : s.Canon) : OutCanon (execPeerTimeout s) := by
  unfold execPeerTimeout
  try dsimp only
  (repeat' first | with_reducible assumption | (with_reducible apply OutCanon.next) | (with_reducible exact OutCanon.fault) | (with_reducible refine State.Canon.foldl ?_ ?_) | (with_reducible apply State.markDead_canon) | (with_reducible apply State.next_canon) | (fail_if_no_progress (with_reducible apply State.Canon.other)) | (fail_if_no_progress (with_reducible apply State.Canon.sluices)) | (fail_if_no_progress (with_reducible apply State.Canon.tables)) | split | (intro _))

theorem State.probe_canon {s : State} {phys : Nat} (hs : s.Canon) : (State.probe s phys).Canon := by
  unfold State.probe
  try dsimp only
  (repeat' first | with_reducible assumption | (with_reducible refine State.Canon.foldl ?_ ?_) | (with_reducible apply State.emit_canon) | (with_reducible apply State.postIn_canon) | (fail_if_no_progress (with_reducible apply State.Canon.other)) | (fail_if_no_progress (with_reducible apply State.Canon.sluices)) | (fail_if_no_progress (with_reducible apply State.Canon.tables)) | split | (intro _))

theorem execPeerProbe_canon {s : State} (hs : s.Canon) : OutCanon (execPeerProbe s) := by
  unfold execPeerProbe
  try dsimp only
  (repeat' first | with_reducible assumption | (with_reducible apply OutCanon.next) | (with_reducible exact OutCanon.fault) | (with_reducible refine State.Canon.foldl ?_ ?_) | (with_reducible apply State.probe_canon) | (with_reducible apply State.startProbes_canon) | (with_reducible apply State.next_canon) | (fail_if_no_progress (with_reducible apply State.Canon.other)) | (fail_if_no_progress (with_reducible apply State.Canon.sluices)) | (fail_if_no_progress (with_reducible apply State.Canon.tables)) | split | (intro _))

theorem execPeerProbeAnswer_canon {phys : Nat} {s : State} (hs : s.Canon) : OutCanon (execPeerProbeAnswer phys s) := by
  unfold execPeerProbeAnswer
  try dsimp only
  (repeat' first | with_reducible assumption | (with_reducible apply OutCanon.next) | (with_reducible exact OutCanon.fault) | (with_reducible refine State.Canon.foldl ?_ ?_) | (with_reducible apply State.setDpmap_canon) | (with_reducible apply State.next_canon) | (with_reducible apply State.event_canon) | (fail_if_no_progress (with_reducible apply State.Canon.other)) | (fail_if_no_progress (with_reducible apply State.Canon.sluices)) | (fail_if_no_progress (with_reducible apply State.Canon.tables)) | split | (intro _))

theorem execDpmapWrite_canon {k : Nat} {v : W64} {s : State} (hs : s.Canon) : OutCanon (execDpmapWrite k v s) := by
  unfold execDpmapWrite
  try dsimp only
  (repeat' first | with_reducible assumption | (with_reducible apply OutCanon.next) | (with_reducible exact OutCanon.fault) | (with_reducible refine State.Canon.foldl ?_ ?_) | (with_reducible apply State.setDpmap_canon) | (with_reducible apply State.next_canon) | (fail_if_no_progress (with_reducible apply State.Canon.other)) | (fail_if_no_progress (with_reducible apply State.Canon.sluices)) | (fail_if_no_progress (with_reducible apply State.Canon.tables)) | split | (intro _))

end Sys2Proof.Machine
end

