-- ==== Sys2Proof/Laws/CanonStep.lean ====
section
/-!
SUPPORT. What a turn brings to execution keeps the canonical form of the storages.
-/

namespace Sys2Proof.Machine

open Sys2Proof

/-- The state in which a turn begins, or ends, is in canonical form. -/
def BeginCanon : Begin → Prop
  | .run _ s => s.Canon
  | .done s => s.Canon

theorem State.runWords_canon {s : State} {gid : Nat} {ws : List W32} {again : Bool} (hs : s.Canon) : BeginCanon (s.runWords gid ws again) := by
  unfold State.runWords
  dsimp only
  split <;> exact State.withSlot_canon hs

theorem State.issue_canon {s : State} {gid : Nat} (hs : s.Canon) : BeginCanon (s.issue gid) := by
  unfold State.issue
  dsimp only
  split
  · exact State.runWords_canon (State.setCtx_canon hs)
  · split
    · exact State.fetchFault_canon (State.openCode_canon hs)
    · exact State.runWords_canon (State.openCode_canon hs)
    · split
      · exact State.fetchFault_canon (State.openCode_canon (State.updCtx_canon (State.openCode_canon hs)))
      · exact State.runWords_canon (State.openCode_canon (State.updCtx_canon (State.openCode_canon hs)))

theorem State.runSlot_canon {s : State} {gid : Nat} (hs : s.Canon) : BeginCanon (s.runSlot gid) := by
  unfold State.runSlot
  split
  · exact State.takeStop_canon hs
  · split
    · exact hs
    · exact State.issue_canon hs

theorem State.begin_canon {s : State} (hs : s.Canon) : BeginCanon s.begin := by
  unfold State.begin
  dsimp only
  split
  · exact State.runSlot_canon hs.other
  · split <;> exact hs.other
  · exact hs.other

end Sys2Proof.Machine
end

