-- ==== Sys2Proof/Laws/CanonExec.lean ====
section
/-!
SUPPORT. Every instruction keeps the canonical form of the storages.
-/

namespace Sys2Proof.Machine

open Sys2Proof

theorem exec_canon {i : Instr} {s : State} (hs : s.Canon) : OutCanon (exec i s) := by
  cases i with
  | add f => show OutCanon (execAdd f s); with_reducible apply execAdd_canon; with_reducible exact hs
  | sub f => show OutCanon (execSub f s); with_reducible apply execSub_canon; with_reducible exact hs
  | mul f => show OutCanon (execMul f s); with_reducible apply execMul_canon; with_reducible exact hs
  | mulh f => show OutCanon (execMulh f s); with_reducible apply execMulh_canon; with_reducible exact hs
  | mulhu f => show OutCanon (execMulhu f s); with_reducible apply execMulhu_canon; with_reducible exact hs
  | div f => show OutCanon (execDiv f s); with_reducible apply execDiv_canon; with_reducible exact hs
  | divu f => show OutCanon (execDivu f s); with_reducible apply execDivu_canon; with_reducible exact hs
  | rem f => show OutCanon (execRem f s); with_reducible apply execRem_canon; with_reducible exact hs
  | remu f => show OutCanon (execRemu f s); with_reducible apply execRemu_canon; with_reducible exact hs
  | and f => show OutCanon (execAnd f s); with_reducible apply execAnd_canon; with_reducible exact hs
  | or f => show OutCanon (execOr f s); with_reducible apply execOr_canon; with_reducible exact hs
  | xor f => show OutCanon (execXor f s); with_reducible apply execXor_canon; with_reducible exact hs
  | andn f => show OutCanon (execAndn f s); with_reducible apply execAndn_canon; with_reducible exact hs
  | shl f => show OutCanon (execShl f s); with_reducible apply execShl_canon; with_reducible exact hs
  | shr f => show OutCanon (execShr f s); with_reducible apply execShr_canon; with_reducible exact hs
  | sar f => show OutCanon (execSar f s); with_reducible apply execSar_canon; with_reducible exact hs
  | rol f => show OutCanon (execRol f s); with_reducible apply execRol_canon; with_reducible exact hs
  | min f => show OutCanon (execMin f s); with_reducible apply execMin_canon; with_reducible exact hs
  | max f => show OutCanon (execMax f s); with_reducible apply execMax_canon; with_reducible exact hs
  | minu f => show OutCanon (execMinu f s); with_reducible apply execMinu_canon; with_reducible exact hs
  | maxu f => show OutCanon (execMaxu f s); with_reducible apply execMaxu_canon; with_reducible exact hs
  | clz f => show OutCanon (execClz f s); with_reducible apply execClz_canon; with_reducible exact hs
  | ctz f => show OutCanon (execCtz f s); with_reducible apply execCtz_canon; with_reducible exact hs
  | popc f => show OutCanon (execPopc f s); with_reducible apply execPopc_canon; with_reducible exact hs
  | addi f => show OutCanon (execAddi f s); with_reducible apply execAddi_canon; with_reducible exact hs
  | andi f => show OutCanon (execAndi f s); with_reducible apply execAndi_canon; with_reducible exact hs
  | ori f => show OutCanon (execOri f s); with_reducible apply execOri_canon; with_reducible exact hs
  | xori f => show OutCanon (execXori f s); with_reducible apply execXori_canon; with_reducible exact hs
  | shli f => show OutCanon (execShli f s); with_reducible apply execShli_canon; with_reducible exact hs
  | shri f => show OutCanon (execShri f s); with_reducible apply execShri_canon; with_reducible exact hs
  | sari f => show OutCanon (execSari f s); with_reducible apply execSari_canon; with_reducible exact hs
  | movi f => show OutCanon (execMovi f s); with_reducible apply execMovi_canon; with_reducible exact hs
  | mov f => show OutCanon (execMov f s); with_reducible apply execMov_canon; with_reducible exact hs
  | cmpeq f => show OutCanon (execCmpeq f s); with_reducible apply execCmpeq_canon; with_reducible exact hs
  | cmpne f => show OutCanon (execCmpne f s); with_reducible apply execCmpne_canon; with_reducible exact hs
  | cmplt f => show OutCanon (execCmplt f s); with_reducible apply execCmplt_canon; with_reducible exact hs
  | cmpltu f => show OutCanon (execCmpltu f s); with_reducible apply execCmpltu_canon; with_reducible exact hs
  | cmple f => show OutCanon (execCmple f s); with_reducible apply execCmple_canon; with_reducible exact hs
  | cmpleu f => show OutCanon (execCmpleu f s); with_reducible apply execCmpleu_canon; with_reducible exact hs
  | cmov f => show OutCanon (execCmov f s); with_reducible apply execCmov_canon; with_reducible exact hs
  | fadd f => show OutCanon (execFadd f s); with_reducible apply execFadd_canon; with_reducible exact hs
  | fsub f => show OutCanon (execFsub f s); with_reducible apply execFsub_canon; with_reducible exact hs
  | fmul f => show OutCanon (execFmul f s); with_reducible apply execFmul_canon; with_reducible exact hs
  | fdiv f => show OutCanon (execFdiv f s); with_reducible apply execFdiv_canon; with_reducible exact hs
  | fma f => show OutCanon (execFma f s); with_reducible apply execFma_canon; with_reducible exact hs
  | fsqrt f => show OutCanon (execFsqrt f s); with_reducible apply execFsqrt_canon; with_reducible exact hs
  | fmin f => show OutCanon (execFmin f s); with_reducible apply execFmin_canon; with_reducible exact hs
  | fmax f => show OutCanon (execFmax f s); with_reducible apply execFmax_canon; with_reducible exact hs
  | fcmpeq f => show OutCanon (execFcmpeq f s); with_reducible apply execFcmpeq_canon; with_reducible exact hs
  | fcmplt f => show OutCanon (execFcmplt f s); with_reducible apply execFcmplt_canon; with_reducible exact hs
  | fcmple f => show OutCanon (execFcmple f s); with_reducible apply execFcmple_canon; with_reducible exact hs
  | fcvt f => show OutCanon (execFcvt f s); with_reducible apply execFcvt_canon; with_reducible exact hs
  | ftoi f => show OutCanon (execFtoi f s); with_reducible apply execFtoi_canon; with_reducible exact hs
  | itof f => show OutCanon (execItof f s); with_reducible apply execItof_canon; with_reducible exact hs
  | fabs f => show OutCanon (execFabs f s); with_reducible apply execFabs_canon; with_reducible exact hs
  | fneg f => show OutCanon (execFneg f s); with_reducible apply execFneg_canon; with_reducible exact hs
  | br f => show OutCanon (execBr f s); with_reducible apply execBr_canon; with_reducible exact hs
  | call f => show OutCanon (execCall f s); with_reducible apply execCall_canon; with_reducible exact hs
  | callr f => show OutCanon (execCallr f s); with_reducible apply execCallr_canon; with_reducible exact hs
  | jmpr f => show OutCanon (execJmpr f s); with_reducible apply execJmpr_canon; with_reducible exact hs
  | ret f => show OutCanon (execRet f s); with_reducible apply execRet_canon; with_reducible exact hs
  | loop f => show OutCanon (execLoop f s); with_reducible apply execLoop_canon; with_reducible exact hs
  | rep f => show OutCanon (execRep f s); with_reducible apply execRep_canon; with_reducible exact hs
  | blk f => show OutCanon (execBlk f s); with_reducible apply execBlk_canon; with_reducible exact hs
  | spawn f => show OutCanon (execSpawn f s); with_reducible apply execSpawn_canon; with_reducible exact hs
  | callat f => show OutCanon (execCallat f s); with_reducible apply execCallat_canon; with_reducible exact hs
  | fork f => show OutCanon (execFork f s); with_reducible apply execFork_canon; with_reducible exact hs
  | join f => show OutCanon (execJoin f s); with_reducible apply execJoin_canon; with_reducible exact hs
  | cancel f => show OutCanon (execCancel f s); with_reducible apply execCancel_canon; with_reducible exact hs
  | cancelu f => show OutCanon (execCancelu f s); with_reducible apply execCancelu_canon; with_reducible exact hs
  | tstb f => show OutCanon (execTstb f s); with_reducible apply execTstb_canon; with_reducible exact hs
  | ldGlobal f => show OutCanon (execLdGlobal f s); with_reducible apply execLdGlobal_canon; with_reducible exact hs
  | ldsGlobal f => show OutCanon (execLdsGlobal f s); with_reducible apply execLdsGlobal_canon; with_reducible exact hs
  | stGlobal f => show OutCanon (execStGlobal f s); with_reducible apply execStGlobal_canon; with_reducible exact hs
  | ldLocal f => show OutCanon (execLdLocal f s); with_reducible apply execLdLocal_canon; with_reducible exact hs
  | ldsLocal f => show OutCanon (execLdsLocal f s); with_reducible apply execLdsLocal_canon; with_reducible exact hs
  | stLocal f => show OutCanon (execStLocal f s); with_reducible apply execStLocal_canon; with_reducible exact hs
  | ldFe f => show OutCanon (execLdFe f s); with_reducible apply execLdFe_canon; with_reducible exact hs
  | stEf f => show OutCanon (execStEf f s); with_reducible apply execStEf_canon; with_reducible exact hs
  | amoAdd f => show OutCanon (execAmoAdd f s); with_reducible apply execAmoAdd_canon; with_reducible exact hs
  | amoAnd f => show OutCanon (execAmoAnd f s); with_reducible apply execAmoAnd_canon; with_reducible exact hs
  | amoOr f => show OutCanon (execAmoOr f s); with_reducible apply execAmoOr_canon; with_reducible exact hs
  | amoXor f => show OutCanon (execAmoXor f s); with_reducible apply execAmoXor_canon; with_reducible exact hs
  | amoMin f => show OutCanon (execAmoMin f s); with_reducible apply execAmoMin_canon; with_reducible exact hs
  | amoMax f => show OutCanon (execAmoMax f s); with_reducible apply execAmoMax_canon; with_reducible exact hs
  | amoMinu f => show OutCanon (execAmoMinu f s); with_reducible apply execAmoMinu_canon; with_reducible exact hs
  | amoMaxu f => show OutCanon (execAmoMaxu f s); with_reducible apply execAmoMaxu_canon; with_reducible exact hs
  | amoSwap f => show OutCanon (execAmoSwap f s); with_reducible apply execAmoSwap_canon; with_reducible exact hs
  | amoCas f => show OutCanon (execAmoCas f s); with_reducible apply execAmoCas_canon; with_reducible exact hs
  | mkobj f => show OutCanon (execMkobj f s); with_reducible apply execMkobj_canon; with_reducible exact hs
  | rmobj f => show OutCanon (execRmobj f s); with_reducible apply execRmobj_canon; with_reducible exact hs
  | qpushT f => show OutCanon (execQpushT f s); with_reducible apply execQpushT_canon; with_reducible exact hs
  | qpopT f => show OutCanon (execQpopT f s); with_reducible apply execQpopT_canon; with_reducible exact hs
  | ldtag f => show OutCanon (execLdtag f s); with_reducible apply execLdtag_canon; with_reducible exact hs
  | ctrAdd f => show OutCanon (execCtrAdd f s); with_reducible apply execCtrAdd_canon; with_reducible exact hs
  | ctrTake f => show OutCanon (execCtrTake f s); with_reducible apply execCtrTake_canon; with_reducible exact hs
  | ctrWait f => show OutCanon (execCtrWait f s); with_reducible apply execCtrWait_canon; with_reducible exact hs
  | barArrive f => show OutCanon (execBarArrive f s); with_reducible apply execBarArrive_canon; with_reducible exact hs
  | barSync f => show OutCanon (execBarSync f s); with_reducible apply execBarSync_canon; with_reducible exact hs
  | barWait f => show OutCanon (execBarWait f s); with_reducible apply execBarWait_canon; with_reducible exact hs
  | barJoin f => show OutCanon (execBarJoin f s); with_reducible apply execBarJoin_canon; with_reducible exact hs
  | barWdraw f => show OutCanon (execBarWdraw f s); with_reducible apply execBarWdraw_canon; with_reducible exact hs
  | lkAcq f => show OutCanon (execLkAcq f s); with_reducible apply execLkAcq_canon; with_reducible exact hs
  | lkTry f => show OutCanon (execLkTry f s); with_reducible apply execLkTry_canon; with_reducible exact hs
  | lkRel f => show OutCanon (execLkRel f s); with_reducible apply execLkRel_canon; with_reducible exact hs
  | qpush f => show OutCanon (execQpush f s); with_reducible apply execQpush_canon; with_reducible exact hs
  | qpop f => show OutCanon (execQpop f s); with_reducible apply execQpop_canon; with_reducible exact hs
  | cndWait f => show OutCanon (execCndWait f s); with_reducible apply execCndWait_canon; with_reducible exact hs
  | cndSignal f => show OutCanon (execCndSignal f s); with_reducible apply execCndSignal_canon; with_reducible exact hs
  | cndBcast f => show OutCanon (execCndBcast f s); with_reducible apply execCndBcast_canon; with_reducible exact hs
  | sysr f => show OutCanon (execSysr f s); with_reducible apply execSysr_canon; with_reducible exact hs
  | sysw f => show OutCanon (execSysw f s); with_reducible apply execSysw_canon; with_reducible exact hs
  | start f => show OutCanon (execStart f s); with_reducible apply execStart_canon; with_reducible exact hs
  | reap f => show OutCanon (execReap f s); with_reducible apply execReap_canon; with_reducible exact hs
  | pair f => show OutCanon (execPair f s); with_reducible apply execPair_canon; with_reducible exact hs
  | trap f => show OutCanon (execTrap f s); with_reducible apply execTrap_canon; with_reducible exact hs
  | rett f => show OutCanon (execRett f s); with_reducible apply execRett_canon; with_reducible exact hs
  | nop f => show OutCanon (execNop f s); with_reducible apply execNop_canon; with_reducible exact hs
  | vadd f => show OutCanon (execVadd f s); with_reducible apply execVadd_canon; with_reducible exact hs
  | vsub f => show OutCanon (execVsub f s); with_reducible apply execVsub_canon; with_reducible exact hs
  | vmul f => show OutCanon (execVmul f s); with_reducible apply execVmul_canon; with_reducible exact hs
  | vfma f => show OutCanon (execVfma f s); with_reducible apply execVfma_canon; with_reducible exact hs
  | vdiv f => show OutCanon (execVdiv f s); with_reducible apply execVdiv_canon; with_reducible exact hs
  | vsqrt f => show OutCanon (execVsqrt f s); with_reducible apply execVsqrt_canon; with_reducible exact hs
  | vmin f => show OutCanon (execVmin f s); with_reducible apply execVmin_canon; with_reducible exact hs
  | vmax f => show OutCanon (execVmax f s); with_reducible apply execVmax_canon; with_reducible exact hs
  | vabs f => show OutCanon (execVabs f s); with_reducible apply execVabs_canon; with_reducible exact hs
  | vneg f => show OutCanon (execVneg f s); with_reducible apply execVneg_canon; with_reducible exact hs
  | vrcp f => show OutCanon (execVrcp f s); with_reducible apply execVrcp_canon; with_reducible exact hs
  | vrsq f => show OutCanon (execVrsq f s); with_reducible apply execVrsq_canon; with_reducible exact hs
  | vexp2 f => show OutCanon (execVexp2 f s); with_reducible apply execVexp2_canon; with_reducible exact hs
  | vlog2 f => show OutCanon (execVlog2 f s); with_reducible apply execVlog2_canon; with_reducible exact hs
  | vadds f => show OutCanon (execVadds f s); with_reducible apply execVadds_canon; with_reducible exact hs
  | vsubs f => show OutCanon (execVsubs f s); with_reducible apply execVsubs_canon; with_reducible exact hs
  | vand f => show OutCanon (execVand f s); with_reducible apply execVand_canon; with_reducible exact hs
  | vor f => show OutCanon (execVor f s); with_reducible apply execVor_canon; with_reducible exact hs
  | vxor f => show OutCanon (execVxor f s); with_reducible apply execVxor_canon; with_reducible exact hs
  | vshl f => show OutCanon (execVshl f s); with_reducible apply execVshl_canon; with_reducible exact hs
  | vshr f => show OutCanon (execVshr f s); with_reducible apply execVshr_canon; with_reducible exact hs
  | vsar f => show OutCanon (execVsar f s); with_reducible apply execVsar_canon; with_reducible exact hs
  | vcmpeq f => show OutCanon (execVcmpeq f s); with_reducible apply execVcmpeq_canon; with_reducible exact hs
  | vcmplt f => show OutCanon (execVcmplt f s); with_reducible apply execVcmplt_canon; with_reducible exact hs
  | vcmple f => show OutCanon (execVcmple f s); with_reducible apply execVcmple_canon; with_reducible exact hs
  | vsel f => show OutCanon (execVsel f s); with_reducible apply execVsel_canon; with_reducible exact hs
  | vshuf f => show OutCanon (execVshuf f s); with_reducible apply execVshuf_canon; with_reducible exact hs
  | vbcast f => show OutCanon (execVbcast f s); with_reducible apply execVbcast_canon; with_reducible exact hs
  | vmov f => show OutCanon (execVmov f s); with_reducible apply execVmov_canon; with_reducible exact hs
  | vcvt f => show OutCanon (execVcvt f s); with_reducible apply execVcvt_canon; with_reducible exact hs
  | vqmx f => show OutCanon (execVqmx f s); with_reducible apply execVqmx_canon; with_reducible exact hs
  | vqb4 f => show OutCanon (execVqb4 f s); with_reducible apply execVqb4_canon; with_reducible exact hs
  | vredsum f => show OutCanon (execVredsum f s); with_reducible apply execVredsum_canon; with_reducible exact hs
  | vredmin f => show OutCanon (execVredmin f s); with_reducible apply execVredmin_canon; with_reducible exact hs
  | vredmax f => show OutCanon (execVredmax f s); with_reducible apply execVredmax_canon; with_reducible exact hs
  | vredmSum f => show OutCanon (execVredmSum f s); with_reducible apply execVredmSum_canon; with_reducible exact hs
  | vredmMean f => show OutCanon (execVredmMean f s); with_reducible apply execVredmMean_canon; with_reducible exact hs
  | mzero f => show OutCanon (execMzero f s); with_reducible apply execMzero_canon; with_reducible exact hs
  | mma f => show OutCanon (execMma f s); with_reducible apply execMma_canon; with_reducible exact hs
  | mmaS f => show OutCanon (execMmaS f s); with_reducible apply execMmaS_canon; with_reducible exact hs
  | mdrain f => show OutCanon (execMdrain f s); with_reducible apply execMdrain_canon; with_reducible exact hs
  | copy f => show OutCanon (execCopy f s); with_reducible apply execCopy_canon; with_reducible exact hs
  | copyStr f => show OutCanon (execCopyStr f s); with_reducible apply execCopyStr_canon; with_reducible exact hs
  | copyGth f => show OutCanon (execCopyGth f s); with_reducible apply execCopyGth_canon; with_reducible exact hs
  | copySct f => show OutCanon (execCopySct f s); with_reducible apply execCopySct_canon; with_reducible exact hs
  | copyTrg f => show OutCanon (execCopyTrg f s); with_reducible apply execCopyTrg_canon; with_reducible exact hs
  | copyStrTrg f => show OutCanon (execCopyStrTrg f s); with_reducible apply execCopyStrTrg_canon; with_reducible exact hs
  | copyGthTrg f => show OutCanon (execCopyGthTrg f s); with_reducible apply execCopyGthTrg_canon; with_reducible exact hs
  | copySctTrg f => show OutCanon (execCopySctTrg f s); with_reducible apply execCopySctTrg_canon; with_reducible exact hs
  | prefTier f => show OutCanon (execPrefTier f s); with_reducible apply execPrefTier_canon; with_reducible exact hs
  | layout f => show OutCanon (execLayout f s); with_reducible apply execLayout_canon; with_reducible exact hs
  | layoutAb f => show OutCanon (execLayoutAb f s); with_reducible apply execLayoutAb_canon; with_reducible exact hs
  | collOpen f => show OutCanon (execCollOpen f s); with_reducible apply execCollOpen_canon; with_reducible exact hs
  | collPut f => show OutCanon (execCollPut f s); with_reducible apply execCollPut_canon; with_reducible exact hs
  | collGet f => show OutCanon (execCollGet f s); with_reducible apply execCollGet_canon; with_reducible exact hs
  | collMark f => show OutCanon (execCollMark f s); with_reducible apply execCollMark_canon; with_reducible exact hs
  | parkedInstructionResume gid => show OutCanon (execParkedInstructionResume gid s); with_reducible apply execParkedInstructionResume_canon; with_reducible exact hs
  | deposit m => show OutCanon (execDeposit m s); with_reducible apply execDeposit_canon; with_reducible exact hs
  | storeAcknowledgement r => show OutCanon (execStoreAcknowledgement r s); with_reducible apply execStoreAcknowledgement_canon; with_reducible exact hs
  | faultReply r cause addr => show OutCanon (execFaultReply r cause addr s); with_reducible apply execFaultReply_canon; with_reducible exact hs
  | lateFaultNotice r => show OutCanon (execLateFaultNotice r s); with_reducible apply execLateFaultNotice_canon; with_reducible exact hs
  | translationLookup r => show OutCanon (execTranslationLookup r s); with_reducible apply execTranslationLookup_canon; with_reducible exact hs
  | homeSliceLoad r => show OutCanon (execHomeSliceLoad r s); with_reducible apply execHomeSliceLoad_canon; with_reducible exact hs
  | homeSliceStore r => show OutCanon (execHomeSliceStore r s); with_reducible apply execHomeSliceStore_canon; with_reducible exact hs
  | homeSliceAmo r => show OutCanon (execHomeSliceAmo r s); with_reducible apply execHomeSliceAmo_canon; with_reducible exact hs
  | homeSliceLdtag r => show OutCanon (execHomeSliceLdtag r s); with_reducible apply execHomeSliceLdtag_canon; with_reducible exact hs
  | sluiceLdFe r => show OutCanon (execSluiceLdFe r s); with_reducible apply execSluiceLdFe_canon; with_reducible exact hs
  | sluiceStEf r => show OutCanon (execSluiceStEf r s); with_reducible apply execSluiceStEf_canon; with_reducible exact hs
  | sluiceMkobj r => show OutCanon (execSluiceMkobj r s); with_reducible apply execSluiceMkobj_canon; with_reducible exact hs
  | sluiceRmobj r => show OutCanon (execSluiceRmobj r s); with_reducible apply execSluiceRmobj_canon; with_reducible exact hs
  | sluiceCtrAdd r => show OutCanon (execSluiceCtrAdd r s); with_reducible apply execSluiceCtrAdd_canon; with_reducible exact hs
  | sluiceCtrTake r => show OutCanon (execSluiceCtrTake r s); with_reducible apply execSluiceCtrTake_canon; with_reducible exact hs
  | sluiceCtrWait r => show OutCanon (execSluiceCtrWait r s); with_reducible apply execSluiceCtrWait_canon; with_reducible exact hs
  | sluiceBarArrive r => show OutCanon (execSluiceBarArrive r s); with_reducible apply execSluiceBarArrive_canon; with_reducible exact hs
  | sluiceBarSync r => show OutCanon (execSluiceBarSync r s); with_reducible apply execSluiceBarSync_canon; with_reducible exact hs
  | sluiceBarWait r => show OutCanon (execSluiceBarWait r s); with_reducible apply execSluiceBarWait_canon; with_reducible exact hs
  | sluiceBarJoin r => show OutCanon (execSluiceBarJoin r s); with_reducible apply execSluiceBarJoin_canon; with_reducible exact hs
  | sluiceBarWdraw r => show OutCanon (execSluiceBarWdraw r s); with_reducible apply execSluiceBarWdraw_canon; with_reducible exact hs
  | sluiceLkAcq r => show OutCanon (execSluiceLkAcq r s); with_reducible apply execSluiceLkAcq_canon; with_reducible exact hs
  | sluiceLkTry r => show OutCanon (execSluiceLkTry r s); with_reducible apply execSluiceLkTry_canon; with_reducible exact hs
  | sluiceLkRel r => show OutCanon (execSluiceLkRel r s); with_reducible apply execSluiceLkRel_canon; with_reducible exact hs
  | sluiceQpush r => show OutCanon (execSluiceQpush r s); with_reducible apply execSluiceQpush_canon; with_reducible exact hs
  | sluiceQpop r => show OutCanon (execSluiceQpop r s); with_reducible apply execSluiceQpop_canon; with_reducible exact hs
  | sluiceQpushT r => show OutCanon (execSluiceQpushT r s); with_reducible apply execSluiceQpushT_canon; with_reducible exact hs
  | sluiceQpopT r => show OutCanon (execSluiceQpopT r s); with_reducible apply execSluiceQpopT_canon; with_reducible exact hs
  | ringWordAccess ra => show OutCanon (execRingWordAccess ra s); with_reducible apply execRingWordAccess_canon; with_reducible exact hs
  | sluiceCndWait r => show OutCanon (execSluiceCndWait r s); with_reducible apply execSluiceCndWait_canon; with_reducible exact hs
  | sluiceCndSignal r => show OutCanon (execSluiceCndSignal r s); with_reducible apply execSluiceCndSignal_canon; with_reducible exact hs
  | sluiceCndBcast r => show OutCanon (execSluiceCndBcast r s); with_reducible apply execSluiceCndBcast_canon; with_reducible exact hs
  | sluiceForward r => show OutCanon (execSluiceForward r s); with_reducible apply execSluiceForward_canon; with_reducible exact hs
  | polderEntryRead m => show OutCanon (execPolderEntryRead m s); with_reducible apply execPolderEntryRead_canon; with_reducible exact hs
  | numberRequest op => show OutCanon (execNumberRequest op s); with_reducible apply execNumberRequest_canon; with_reducible exact hs
  | completionNotice n => show OutCanon (execCompletionNotice n s); with_reducible apply execCompletionNotice_canon; with_reducible exact hs
  | boundBarrierArrival n => show OutCanon (execBoundBarrierArrival n s); with_reducible apply execBoundBarrierArrival_canon; with_reducible exact hs
  | triggerFire op => show OutCanon (execTriggerFire op s); with_reducible apply execTriggerFire_canon; with_reducible exact hs
  | copyOperation op remote => show OutCanon (execCopyOperation op remote s); with_reducible apply execCopyOperation_canon; with_reducible exact hs
  | prefTierOperation op => show OutCanon (execPrefTierOperation op s); with_reducible apply execPrefTierOperation_canon; with_reducible exact hs
  | layoutOperation op remote => show OutCanon (execLayoutOperation op remote s); with_reducible apply execLayoutOperation_canon; with_reducible exact hs
  | matrixMzeroPerform op => show OutCanon (execMatrixMzeroPerform op s); with_reducible apply execMatrixMzeroPerform_canon; with_reducible exact hs
  | matrixMmaPerform op => show OutCanon (execMatrixMmaPerform op s); with_reducible apply execMatrixMmaPerform_canon; with_reducible exact hs
  | matrixDrainPerform op => show OutCanon (execMatrixDrainPerform op s); with_reducible apply execMatrixDrainPerform_canon; with_reducible exact hs
  | firmwareCounterWaitGrant w => show OutCanon (execFirmwareCounterWaitGrant w s); with_reducible apply execFirmwareCounterWaitGrant_canon; with_reducible exact hs
  | dispatchPass tenant => show OutCanon (execDispatchPass tenant s); with_reducible apply execDispatchPass_canon; with_reducible exact hs
  | launchPacket die lid => show OutCanon (execLaunchPacket die lid s); with_reducible apply execLaunchPacket_canon; with_reducible exact hs
  | specialiserEvaluation die lid => show OutCanon (execSpecialiserEvaluation die lid s); with_reducible apply execSpecialiserEvaluation_canon; with_reducible exact hs
  | placementPacket p => show OutCanon (execPlacementPacket p s); with_reducible apply execPlacementPacket_canon; with_reducible exact hs
  | placementRetry die => show OutCanon (execPlacementRetry die s); with_reducible apply execPlacementRetry_canon; with_reducible exact hs
  | cancelApply c => show OutCanon (execCancelApply c s); with_reducible apply execCancelApply_canon; with_reducible exact hs
  | spawnRequest m => show OutCanon (execSpawnRequest m s); with_reducible apply execSpawnRequest_canon; with_reducible exact hs
  | callatTaskArrival core t => show OutCanon (execCallatTaskArrival core t s); with_reducible apply execCallatTaskArrival_canon; with_reducible exact hs
  | taskQueueSlotFree gid gen => show OutCanon (execTaskQueueSlotFree gid gen s); with_reducible apply execTaskQueueSlotFree_canon; with_reducible exact hs
  | taskStart core => show OutCanon (execTaskStart core s); with_reducible apply execTaskStart_canon; with_reducible exact hs
  | forwardedItem core item => show OutCanon (execForwardedItem core item s); with_reducible apply execForwardedItem_canon; with_reducible exact hs
  | tierPromotion page => show OutCanon (execTierPromotion page s); with_reducible apply execTierPromotion_canon; with_reducible exact hs
  | tierBlockMove page block => show OutCanon (execTierBlockMove page block s); with_reducible apply execTierBlockMove_canon; with_reducible exact hs
  | gangStop tenant cause die => show OutCanon (execGangStop tenant cause die s); with_reducible apply execGangStop_canon; with_reducible exact hs
  | partitionFault tenant cause => show OutCanon (execPartitionFault tenant cause s); with_reducible apply execPartitionFault_canon; with_reducible exact hs
  | checkedPairMismatch gid => show OutCanon (execCheckedPairMismatch gid s); with_reducible apply execCheckedPairMismatch_canon; with_reducible exact hs
  | stationHandoff r => show OutCanon (execStationHandoff r s); with_reducible apply execStationHandoff_canon; with_reducible exact hs
  | routerInstall op => show OutCanon (execRouterInstall op s); with_reducible apply execRouterInstall_canon; with_reducible exact hs
  | routerRowArrival core vsn port row => show OutCanon (execRouterRowArrival core vsn port row s); with_reducible apply execRouterRowArrival_canon; with_reducible exact hs
  | routerSlotFreeNotice core vsn entry port lossy => show OutCanon (execRouterSlotFreeNotice core vsn entry port lossy s); with_reducible apply execRouterSlotFreeNotice_canon; with_reducible exact hs
  | routerMarker core vsn port item => show OutCanon (execRouterMarker core vsn port item s); with_reducible apply execRouterMarker_canon; with_reducible exact hs
  | routerMemberDeath core vsn entry => show OutCanon (execRouterMemberDeath core vsn entry s); with_reducible apply execRouterMemberDeath_canon; with_reducible exact hs
  | callatAcceptance gid gen => show OutCanon (execCallatAcceptance gid gen s); with_reducible apply execCallatAcceptance_canon; with_reducible exact hs
  | cancelAcceptance gid gen c => show OutCanon (execCancelAcceptance gid gen c s); with_reducible apply execCancelAcceptance_canon; with_reducible exact hs
  | illegalInstruction => show OutCanon (execIllegalInstruction s); with_reducible apply execIllegalInstruction_canon; with_reducible exact hs
  | issueSlot => show OutCanon (execIssueSlot s); with_reducible apply execIssueSlot_canon; with_reducible exact hs
  | polderMove => show OutCanon (execPolderMove s); with_reducible apply execPolderMove_canon; with_reducible exact hs
  | losswinExpiry => show OutCanon (execLosswinExpiry s); with_reducible apply execLosswinExpiry_canon; with_reducible exact hs
  | hostLaunch => show OutCanon (execHostLaunch s); with_reducible apply execHostLaunch_canon; with_reducible exact hs
  | hostGraph => show OutCanon (execHostGraph s); with_reducible apply execHostGraph_canon; with_reducible exact hs
  | hostPhase => show OutCanon (execHostPhase s); with_reducible apply execHostPhase_canon; with_reducible exact hs
  | hostJob => show OutCanon (execHostJob s); with_reducible apply execHostJob_canon; with_reducible exact hs
  | hostCancel => show OutCanon (execHostCancel s); with_reducible apply execHostCancel_canon; with_reducible exact hs
  | hostCancelu => show OutCanon (execHostCancelu s); with_reducible apply execHostCancelu_canon; with_reducible exact hs
  | map => show OutCanon (execMap s); with_reducible apply execMap_canon; with_reducible exact hs
  | unmap => show OutCanon (execUnmap s); with_reducible apply execUnmap_canon; with_reducible exact hs
  | fwin => show OutCanon (execFwin s); with_reducible apply execFwin_canon; with_reducible exact hs
  | qreg => show OutCanon (execQreg s); with_reducible apply execQreg_canon; with_reducible exact hs
  | qunreg => show OutCanon (execQunreg s); with_reducible apply execQunreg_canon; with_reducible exact hs
  | remap => show OutCanon (execRemap s); with_reducible apply execRemap_canon; with_reducible exact hs
  | attest => show OutCanon (execAttest s); with_reducible apply execAttest_canon; with_reducible exact hs
  | cfgstage => show OutCanon (execCfgstage s); with_reducible apply execCfgstage_canon; with_reducible exact hs
  | unknownCommand => show OutCanon (execUnknownCommand s); with_reducible apply execUnknownCommand_canon; with_reducible exact hs
  | queueScan => show OutCanon (execQueueScan s); with_reducible apply execQueueScan_canon; with_reducible exact hs
  | idleReportDeferralEnd => show OutCanon (execIdleReportDeferralEnd s); with_reducible apply execIdleReportDeferralEnd_canon; with_reducible exact hs
  | migrationInstalled => show OutCanon (execMigrationInstalled s); with_reducible apply execMigrationInstalled_canon; with_reducible exact hs
  | tierEpoch => show OutCanon (execTierEpoch s); with_reducible apply execTierEpoch_canon; with_reducible exact hs
  | trapRecordWrite => show OutCanon (execTrapRecordWrite s); with_reducible apply execTrapRecordWrite_canon; with_reducible exact hs
  | checkedPairTimeout => show OutCanon (execCheckedPairTimeout s); with_reducible apply execCheckedPairTimeout_canon; with_reducible exact hs
  | eventRecordWrite => show OutCanon (execEventRecordWrite s); with_reducible apply execEventRecordWrite_canon; with_reducible exact hs
  | peerTimeout => show OutCanon (execPeerTimeout s); with_reducible apply execPeerTimeout_canon; with_reducible exact hs
  | peerProbe => show OutCanon (execPeerProbe s); with_reducible apply execPeerProbe_canon; with_reducible exact hs
  | moduleReset => show OutCanon (execModuleReset s); with_reducible apply execModuleReset_canon; with_reducible exact hs
  | lossyBlockArrival h xfer block data crc => show OutCanon (execLossyBlockArrival h xfer block data crc s); with_reducible apply execLossyBlockArrival_canon; with_reducible exact hs
  | lossyBlockNotice h n => show OutCanon (execLossyBlockNotice h n s); with_reducible apply execLossyBlockNotice_canon; with_reducible exact hs
  | migrationStart src dst => show OutCanon (execMigrationStart src dst s); with_reducible apply execMigrationStart_canon; with_reducible exact hs
  | migrationAbandon src => show OutCanon (execMigrationAbandon src s); with_reducible apply execMigrationAbandon_canon; with_reducible exact hs
  | stackRefresh die => show OutCanon (execStackRefresh die s); with_reducible apply execStackRefresh_canon; with_reducible exact hs
  | frameRetirement => show OutCanon (execFrameRetirement s); with_reducible apply execFrameRetirement_canon; with_reducible exact hs
  | farControllerFailure ctrl => show OutCanon (execFarControllerFailure ctrl s); with_reducible apply execFarControllerFailure_canon; with_reducible exact hs
  | localArrayUncorrectable a => show OutCanon (execLocalArrayUncorrectable a s); with_reducible apply execLocalArrayUncorrectable_canon; with_reducible exact hs
  | trapQueueRead die => show OutCanon (execTrapQueueRead die s); with_reducible apply execTrapQueueRead_canon; with_reducible exact hs
  | firewallRefusal owner into cls dp => show OutCanon (execFirewallRefusal owner into cls dp s); with_reducible apply execFirewallRefusal_canon; with_reducible exact hs
  | rdmaWrite m => show OutCanon (execRdmaWrite m s); with_reducible apply execRdmaWrite_canon; with_reducible exact hs
  | rdmaRead m => show OutCanon (execRdmaRead m s); with_reducible apply execRdmaRead_canon; with_reducible exact hs
  | fabricRequestIn r => show OutCanon (execFabricRequestIn r s); with_reducible apply execFabricRequestIn_canon; with_reducible exact hs
  | peerProbeAnswer phys => show OutCanon (execPeerProbeAnswer phys s); with_reducible apply execPeerProbeAnswer_canon; with_reducible exact hs
  | powerMeasurement watts loaded => show OutCanon (execPowerMeasurement watts loaded s); with_reducible apply execPowerMeasurement_canon; with_reducible exact hs
  | thermalEvent die celsius => show OutCanon (execThermalEvent die celsius s); with_reducible apply execThermalEvent_canon; with_reducible exact hs
  | xvalRead d => show OutCanon (execXvalRead d s); with_reducible apply execXvalRead_canon; with_reducible exact hs
  | xvalWrite v => show OutCanon (execXvalWrite v s); with_reducible apply execXvalWrite_canon; with_reducible exact hs
  | stkscrubWrite die bank => show OutCanon (execStkscrubWrite die bank s); with_reducible apply execStkscrubWrite_canon; with_reducible exact hs
  | sleccRead slice => show OutCanon (execSleccRead slice s); with_reducible apply execSleccRead_canon; with_reducible exact hs
  | lbeccRead core => show OutCanon (execLbeccRead core s); with_reducible apply execLbeccRead_canon; with_reducible exact hs
  | spstatRead die => show OutCanon (execSpstatRead die s); with_reducible apply execSpstatRead_canon; with_reducible exact hs
  | fatalstatWrite die v => show OutCanon (execFatalstatWrite die v s); with_reducible apply execFatalstatWrite_canon; with_reducible exact hs
  | dpmapWrite k v => show OutCanon (execDpmapWrite k v s); with_reducible apply execDpmapWrite_canon; with_reducible exact hs
  | registerWrite reg v => show OutCanon (execRegisterWrite reg v s); with_reducible apply execRegisterWrite_canon; with_reducible exact hs

end Sys2Proof.Machine
end

