-- ==== Sys2Proof/Laws/CpuKept.lean ====
section
/-!
SUPPORT. What the slices, the tables and the routers do with memory leaves the contexts, registers and buffers of the cores as they are.
-/

namespace Sys2Proof.Machine

open Sys2Proof

set_option linter.unusedTactic false
set_option linter.unreachableTactic false
set_option linter.unusedSimpArgs false
set_option linter.unnecessarySeqFocus false

/-- The cores' state is `m`. -/
def State.HasCpu (m : Cpu) (s : State) : Prop := s.cpu = m
theorem State.HasCpu.other {m : Cpu} {s : State} (h : s.HasCpu m) {mem : Mem} {sluice : Sluices} {eng : Engines} {dies : Sparse Die} {fw : Firmware} {fab : Fabric} {boot : Boot} {sched : Sched} : State.HasCpu m ⟨s.cpu, mem, sluice, eng, dies, fw, fab, boot, sched⟩ := h
theorem State.HasCpu.foldl {m : Cpu} {α : Type} {g : State → α → State} (hg : ∀ s a, s.HasCpu m → (g s a).HasCpu m) {s : State} (h : s.HasCpu m) {l : List α} :
    (l.foldl g s).HasCpu m := by
  induction l generalizing s with
  | nil => exact h
  | cons a l ih => exact ih (hg s a h)
theorem State.HasCpu.foldlFst {m : Cpu} {α β : Type} {g : State × β → α → State × β} (hg : ∀ q a, q.1.HasCpu m → (g q a).1.HasCpu m) {s : State} (h : s.HasCpu m)
    {b : β} {l : List α} : (l.foldl g (s, b)).1.HasCpu m := by
  suffices H : ∀ q : State × β, q.1.HasCpu m → (l.foldl g q).1.HasCpu m from H (s, b) h
  intro q hq
  induction l generalizing q with
  | nil => exact hq
  | cons a l ih => exact ih _ (hg q a hq)
theorem State.id_cpu {m : Cpu} {s : State} (h : s.HasCpu m) : (id s).HasCpu m := h
/-- Where an outcome is a next state, its cores' state is `m`. -/
def OutHasCpu (m : Cpu) (r : Host.Outcome State Fault Refusal) : Prop := ∀ t, r = .next t → t.HasCpu m
theorem OutHasCpu.next {m : Cpu} {s : State} (h : s.HasCpu m) : OutHasCpu m (.next s) := fun _ e => by cases e; exact h
theorem OutHasCpu.fault {m : Cpu} {f : Fault} : OutHasCpu m (.fault f) := fun _ e => nomatch e
theorem OutHasCpu.refused {m : Cpu} {f : Refusal} : OutHasCpu m (.refused f) := fun _ e => nomatch e
theorem State.updDie_cpu {m : Cpu} {s : State} (h : s.HasCpu m) {k : Nat} {f : Die → Die} : (s.updDie k f).HasCpu m := h
theorem State.setDpit_cpu {m : Cpu} {s : State} (h : s.HasCpu m) {p : Nat} {w : W64} : (s.setDpit p w).HasCpu m := h
theorem State.setMoved_cpu {m : Cpu} {s : State} (h : s.HasCpu m) {p : Nat} {w : _} : (s.setMoved p w).HasCpu m := h
theorem State.putTag_cpu {m : Cpu} {s : State} (h : s.HasCpu m) {p : Nat} {w : _} : (s.putTag p w).HasCpu m := h
theorem State.clearUpset_cpu {m : Cpu} {s : State} (h : s.HasCpu m) {p : Nat} : (s.clearUpset p).HasCpu m := h
theorem State.countEcc_cpu {m : Cpu} {s : State} (h : s.HasCpu m) {p a b : Nat} : (s.countEcc p a b).HasCpu m := h
theorem State.putBytes_cpu {m : Cpu} {s : State} (h : s.HasCpu m) {p : _} {w : _} : (s.putBytes p w).HasCpu m := h

theorem State.postIn_cpu {m0 : _} {s : State} {d : Nat} {ev : Instr} (hs : s.HasCpu m0) : (State.postIn s d ev).HasCpu m0 := by
  unfold State.postIn
  try dsimp only
  (repeat' first | with_reducible assumption | (with_reducible refine State.HasCpu.foldl ?_ ?_) | (fail_if_no_progress (with_reducible apply State.HasCpu.other)) | split | (intro _))

theorem State.post_cpu {m0 : _} {s : State} {ev : Instr} (hs : s.HasCpu m0) : (State.post s ev).HasCpu m0 := by
  unfold State.post
  try dsimp only
  (repeat' first | with_reducible assumption | (with_reducible refine State.HasCpu.foldl ?_ ?_) | (with_reducible apply State.postIn_cpu) | (fail_if_no_progress (with_reducible apply State.HasCpu.other)) | split | (intro _))

theorem State.postAll_cpu {m0 : _} {s : State} {evs : List Instr} (hs : s.HasCpu m0) : (State.postAll s evs).HasCpu m0 := by
  unfold State.postAll
  try dsimp only
  (repeat' first | with_reducible assumption | (with_reducible refine State.HasCpu.foldl ?_ ?_) | (with_reducible apply State.post_cpu) | (fail_if_no_progress (with_reducible apply State.HasCpu.other)) | split | (intro _))

theorem State.emit_cpu {m0 : _} {s : State} {o : Outward} (hs : s.HasCpu m0) : (State.emit s o).HasCpu m0 := by
  unfold State.emit
  try dsimp only
  (repeat' first | with_reducible assumption | (with_reducible refine State.HasCpu.foldl ?_ ?_) | (fail_if_no_progress (with_reducible apply State.HasCpu.other)) | split | (intro _))

theorem State.newRid_cpu {m0 : _} {s : State} {ret : _} {out : State} (e : State.newRid s = (ret, out)) (hs : s.HasCpu m0) : out.HasCpu m0 := by
  unfold State.newRid at e
  try dsimp only at e
  (repeat' split at e) <;> (try simp only [Except.ok.injEq, Option.some.injEq, Prod.mk.injEq, reduceCtorEq] at e) <;> (first | (obtain ⟨e1, e2⟩ := e; subst e1 e2) | (subst e) | skip) <;> (repeat' first | with_reducible assumption | (with_reducible refine State.HasCpu.foldl ?_ ?_) | (fail_if_no_progress (with_reducible apply State.HasCpu.other)) | split | (intro _))

theorem State.newTag_cpu {m0 : _} {s : State} {ret : _} {out : State} (e : State.newTag s = (ret, out)) (hs : s.HasCpu m0) : out.HasCpu m0 := by
  unfold State.newTag at e
  try dsimp only at e
  (repeat' split at e) <;> (try simp only [Except.ok.injEq, Option.some.injEq, Prod.mk.injEq, reduceCtorEq] at e) <;> (first | (obtain ⟨e1, e2⟩ := e; subst e1 e2) | (subst e) | skip) <;> (repeat' first | with_reducible assumption | (with_reducible refine State.HasCpu.foldl ?_ ?_) | (fail_if_no_progress (with_reducible apply State.HasCpu.other)) | split | (intro _))

theorem State.newGen_cpu {m0 : _} {s : State} {ret : _} {out : State} (e : State.newGen s = (ret, out)) (hs : s.HasCpu m0) : out.HasCpu m0 := by
  unfold State.newGen at e
  try dsimp only at e
  (repeat' split at e) <;> (try simp only [Except.ok.injEq, Option.some.injEq, Prod.mk.injEq, reduceCtorEq] at e) <;> (first | (obtain ⟨e1, e2⟩ := e; subst e1 e2) | (subst e) | skip) <;> (repeat' first | with_reducible assumption | (with_reducible refine State.HasCpu.foldl ?_ ?_) | (fail_if_no_progress (with_reducible apply State.HasCpu.other)) | split | (intro _))

theorem State.updTenant_cpu {m0 : _} {s : State} {t : Nat} {f : Tenant → Tenant} (hs : s.HasCpu m0) : (State.updTenant s t f).HasCpu m0 := by
  unfold State.updTenant
  try dsimp only
  (repeat' first | with_reducible assumption | (with_reducible refine State.HasCpu.foldl ?_ ?_) | (fail_if_no_progress (with_reducible apply State.HasCpu.other)) | split | (intro _))

theorem State.updOp_cpu {m0 : _} {s : State} {id : Nat} {f : EngOp → EngOp} (hs : s.HasCpu m0) : (State.updOp s id f).HasCpu m0 := by
  unfold State.updOp
  try dsimp only
  (repeat' first | with_reducible assumption | (with_reducible refine State.HasCpu.foldl ?_ ?_) | (with_reducible apply State.id_cpu) | (fail_if_no_progress (with_reducible apply State.HasCpu.other)) | split | (intro _))

theorem State.dropOp_cpu {m0 : _} {s : State} {id : Nat} (hs : s.HasCpu m0) : (State.dropOp s id).HasCpu m0 := by
  unfold State.dropOp
  try dsimp only
  (repeat' first | with_reducible assumption | (with_reducible refine State.HasCpu.foldl ?_ ?_) | (with_reducible apply State.id_cpu) | (fail_if_no_progress (with_reducible apply State.HasCpu.other)) | split | (intro _))

theorem State.updLaunch_cpu {m0 : _} {s : State} {lid : Nat} {f : Launch → Launch} (hs : s.HasCpu m0) : (State.updLaunch s lid f).HasCpu m0 := by
  unfold State.updLaunch
  try dsimp only
  (repeat' first | with_reducible assumption | (with_reducible refine State.HasCpu.foldl ?_ ?_) | (fail_if_no_progress (with_reducible apply State.HasCpu.other)) | split | (intro _))

theorem State.putWord_cpu {m0 : _} {s : State} {dp : Nat} {v : W64} {t : BitVec 4} (hs : s.HasCpu m0) : (State.putWord s dp v t).HasCpu m0 := by
  unfold State.putWord
  try dsimp only
  (repeat' first | with_reducible assumption | (with_reducible refine State.HasCpu.foldl ?_ ?_) | (with_reducible apply State.putTag_cpu) | (with_reducible apply State.putBytes_cpu) | (fail_if_no_progress (with_reducible apply State.HasCpu.other)) | split | (intro _))

theorem State.countAccess_cpu {m0 : _} {s : State} {dp : Nat} (hs : s.HasCpu m0) : (State.countAccess s dp).HasCpu m0 := by
  unfold State.countAccess
  try dsimp only
  (repeat' first | with_reducible assumption | (with_reducible refine State.HasCpu.foldl ?_ ?_) | (with_reducible apply State.post_cpu) | (fail_if_no_progress (with_reducible apply State.HasCpu.other)) | split | (intro _))

theorem State.releaseClean_cpu {m0 : _} {s : State} {dp : Nat} (hs : s.HasCpu m0) : (State.releaseClean s dp).HasCpu m0 := by
  unfold State.releaseClean
  try dsimp only
  (repeat' first | with_reducible assumption | (with_reducible refine State.HasCpu.foldl ?_ ?_) | (with_reducible apply State.setMoved_cpu) | (with_reducible apply State.setDpit_cpu) | (fail_if_no_progress (with_reducible apply State.HasCpu.other)) | split | (intro _))

theorem State.retireFrame_cpu {m0 : _} {s : State} {die : Nat} {far : Bool} {frame : Nat} (hs : s.HasCpu m0) : (State.retireFrame s die far frame).HasCpu m0 := by
  unfold State.retireFrame
  try dsimp only
  (repeat' first | with_reducible assumption | (with_reducible refine State.HasCpu.foldl ?_ ?_) | (fail_if_no_progress (with_reducible apply State.HasCpu.other)) | split | (intro _))

theorem State.takeCopyUpsets_cpu {m0 : _} {s : State} {page : Nat} (hs : s.HasCpu m0) : (s.takeCopyUpsets page).HasCpu m0 := hs

theorem State.switchToClean_cpu {m0 : _} {s : State} {dp : Nat} (hs : s.HasCpu m0) : (State.switchToClean s dp).HasCpu m0 := by
  unfold State.switchToClean
  try dsimp only
  (repeat' first | with_reducible assumption | (with_reducible refine State.HasCpu.foldl ?_ ?_) | (with_reducible apply State.takeCopyUpsets_cpu) | (with_reducible apply State.retireFrame_cpu) | (with_reducible apply State.setDpit_cpu) | (fail_if_no_progress (with_reducible apply State.HasCpu.other)) | split | (intro _))

theorem State.mendWord_cpu {m0 : _} {s : State} {dp : Nat} (hs : s.HasCpu m0) : (State.mendWord s dp).HasCpu m0 := by
  unfold State.mendWord
  try dsimp only
  (repeat' first | with_reducible assumption | (with_reducible refine State.HasCpu.foldl ?_ ?_) | (fail_if_no_progress (with_reducible apply State.HasCpu.other)) | split | (intro _))

theorem State.reportFrame_cpu {m0 : _} {s : State} {dp : Nat} (hs : s.HasCpu m0) : (State.reportFrame s dp).HasCpu m0 := by
  unfold State.reportFrame
  try dsimp only
  (repeat' first | with_reducible assumption | (with_reducible refine State.HasCpu.foldl ?_ ?_) | (with_reducible apply State.post_cpu) | (fail_if_no_progress (with_reducible apply State.HasCpu.other)) | split | (intro _))

theorem State.readStructure_cpu {m0 : _} {s : State} {dp : Nat} (hs : s.HasCpu m0) : (State.readStructure s dp).HasCpu m0 := by
  unfold State.readStructure
  try dsimp only
  (repeat' first | with_reducible assumption | (with_reducible refine State.HasCpu.foldl ?_ ?_) | (with_reducible apply State.reportFrame_cpu) | (with_reducible apply State.clearUpset_cpu) | (with_reducible apply State.mendWord_cpu) | (with_reducible apply State.countEcc_cpu) | (with_reducible apply State.post_cpu) | (fail_if_no_progress (with_reducible apply State.HasCpu.other)) | split | (intro _))

theorem State.decodeWord_cpu {m0 : _} {s : State} {dp : Nat} (hs : s.HasCpu m0) : (State.decodeWord s dp).HasCpu m0 := by
  unfold State.decodeWord
  try dsimp only
  (repeat' first | with_reducible assumption | (with_reducible refine State.HasCpu.foldl ?_ ?_) | (with_reducible apply State.readStructure_cpu) | (with_reducible apply State.reportFrame_cpu) | (with_reducible apply State.clearUpset_cpu) | (with_reducible apply State.mendWord_cpu) | (with_reducible apply State.countEcc_cpu) | (with_reducible apply State.switchToClean_cpu) | (with_reducible apply State.putWord_cpu) | (fail_if_no_progress (with_reducible apply State.HasCpu.other)) | split | (intro _))

theorem State.open_cpu {m0 : _} {s : State} {dp : Nat} (hs : s.HasCpu m0) : (State.open s dp).HasCpu m0 := by
  unfold State.open
  try dsimp only
  (repeat' first | with_reducible assumption | (with_reducible refine State.HasCpu.foldl ?_ ?_) | (with_reducible apply State.decodeWord_cpu) | (with_reducible apply State.readStructure_cpu) | (with_reducible apply State.countAccess_cpu) | (fail_if_no_progress (with_reducible apply State.HasCpu.other)) | split | (intro _))

theorem State.commit_cpu {m0 : _} {s : State} {dp : Nat} {v : W64} {t : BitVec 4} (hs : s.HasCpu m0) : (State.commit s dp v t).HasCpu m0 := by
  unfold State.commit
  try dsimp only
  (repeat' first | with_reducible assumption | (with_reducible refine State.HasCpu.foldl ?_ ?_) | (with_reducible apply State.clearUpset_cpu) | (with_reducible apply State.releaseClean_cpu) | (with_reducible apply State.putWord_cpu) | (fail_if_no_progress (with_reducible apply State.HasCpu.other)) | split | (intro _))

theorem State.engineCommit_cpu {m0 : _} {s : State} {w : Nat} {v : W64} {k : Nat} {poison : Bool} (hs : s.HasCpu m0) : (State.engineCommit s w v k poison).HasCpu m0 := by
  unfold State.engineCommit
  try dsimp only
  (repeat' first | with_reducible assumption | (with_reducible refine State.HasCpu.foldl ?_ ?_) | (with_reducible apply State.commit_cpu) | (fail_if_no_progress (with_reducible apply State.HasCpu.other)) | split | (intro _))

theorem State.entryAt_cpu {m0 : _} {s : State} {a : Nat} {ret : _} {out : State} (e : State.entryAt s a = (out, ret)) (hs : s.HasCpu m0) : out.HasCpu m0 := by
  unfold State.entryAt at e
  try dsimp only at e
  (repeat' split at e) <;> (try simp only [Except.ok.injEq, Option.some.injEq, Prod.mk.injEq, reduceCtorEq] at e) <;> (first | (obtain ⟨e1, e2⟩ := e; subst e1 e2) | (subst e) | skip) <;> (repeat' first | with_reducible assumption | (with_reducible refine State.HasCpu.foldl ?_ ?_) | (with_reducible apply State.open_cpu) | (fail_if_no_progress (with_reducible apply State.HasCpu.other)) | split | (intro _))

theorem State.walk3_cpu {m0 : _} {s : State} {table : Nat} {va : Nat} {ret : _} {out : State} (e : State.walk3 s table va = (out, ret)) (hs : s.HasCpu m0) : out.HasCpu m0 := by
  unfold State.walk3 at e
  try dsimp only at e
  (repeat' split at e) <;> (try simp only [Except.ok.injEq, Option.some.injEq, Prod.mk.injEq, reduceCtorEq] at e) <;> (first | (obtain ⟨e1, e2⟩ := e; subst e1 e2) | (subst e) | skip) <;> (repeat' first | with_reducible assumption | (with_reducible refine State.HasCpu.foldl ?_ ?_) | (refine State.entryAt_cpu (by assumption) ?_) | (with_reducible refine State.entryAt_cpu (Prod.eta _).symm ?_) | (fail_if_no_progress (with_reducible apply State.HasCpu.other)) | split | (intro _))

theorem State.walk2_cpu {m0 : _} {s : State} {table va : Nat} {ret : _} {out : State} (e : s.walk2 table va = (out, ret)) (hs : s.HasCpu m0) : out.HasCpu m0 := by
  unfold State.walk2 at e
  generalize h : s.entryAt _ = r at e
  obtain ⟨s1, w⟩ := r
  have h1 := State.entryAt_cpu h hs
  dsimp only at e
  split at e
  · cases e; exact h1
  · split at e
    · exact State.walk3_cpu e h1
    · cases e; exact h1
    · cases e; exact h1


theorem State.walk_cpu {m0 : _} {s : State} {tenant : Nat} {va : Nat} {ret : _} {out : State} (e : State.walk s tenant va = (out, ret)) (hs : s.HasCpu m0) : out.HasCpu m0 := by
  unfold State.walk at e
  try dsimp only at e
  (repeat' split at e) <;> (try simp only [Except.ok.injEq, Option.some.injEq, Prod.mk.injEq, reduceCtorEq] at e) <;> (first | (obtain ⟨e1, e2⟩ := e; subst e1 e2) | (subst e) | skip) <;> (repeat' first | with_reducible assumption | (with_reducible refine State.HasCpu.foldl ?_ ?_) | (refine State.walk2_cpu (by assumption) ?_) | (with_reducible refine State.walk2_cpu (Prod.eta _).symm ?_) | (refine State.entryAt_cpu (by assumption) ?_) | (with_reducible refine State.entryAt_cpu (Prod.eta _).symm ?_) | (fail_if_no_progress (with_reducible apply State.HasCpu.other)) | split | (intro _))

theorem State.tlbHit_cpu {m0 : _} {s : State} {sl : Nat} {tenant : Nat} {vpn : Nat} {ret : _} {out : State} (e : State.tlbHit s sl tenant vpn = some (ret, out)) (hs : s.HasCpu m0) : out.HasCpu m0 := by
  unfold State.tlbHit at e
  try dsimp only at e
  (repeat' split at e) <;> (try simp only [Except.ok.injEq, Option.some.injEq, Prod.mk.injEq, reduceCtorEq] at e) <;> (first | (obtain ⟨e1, e2⟩ := e; subst e1 e2) | (subst e) | skip) <;> (repeat' first | with_reducible assumption | (with_reducible refine State.HasCpu.foldl ?_ ?_) | (fail_if_no_progress (with_reducible apply State.HasCpu.other)) | split | (intro _))

theorem State.tlbFill_cpu {m0 : _} {s : State} {e : TlbEntry} (hs : s.HasCpu m0) : (State.tlbFill s e).HasCpu m0 := by
  unfold State.tlbFill
  try dsimp only
  (repeat' first | with_reducible assumption | (with_reducible refine State.HasCpu.foldl ?_ ?_) | (fail_if_no_progress (with_reducible apply State.HasCpu.other)) | split | (intro _))

theorem State.lookup_cpu {m0 : _} {s : State} {sl : Nat} {tenant : Nat} {a : W64} {ret : _} {out : State} (e : State.lookup s sl tenant a = (ret, out)) (hs : s.HasCpu m0) : out.HasCpu m0 := by
  unfold State.lookup at e
  try dsimp only at e
  (repeat' split at e) <;> (try simp only [Except.ok.injEq, Option.some.injEq, Prod.mk.injEq, reduceCtorEq] at e) <;> (first | (obtain ⟨e1, e2⟩ := e; subst e1 e2) | (subst e) | skip) <;> (repeat' first | with_reducible assumption | (with_reducible refine State.HasCpu.foldl ?_ ?_) | (with_reducible apply State.tlbFill_cpu) | (refine State.tlbHit_cpu (by assumption) ?_) | (with_reducible refine State.tlbHit_cpu (guarded_some (by with_reducible assumption)) ?_) | (refine State.walk_cpu (by assumption) ?_) | (with_reducible refine State.walk_cpu (Prod.eta _).symm ?_) | (fail_if_no_progress (with_reducible apply State.HasCpu.other)) | split | (intro _))

theorem State.xlat_cpu {m0 : _} {s : State} {die : Nat} {tenant : Nat} {a : W64} {write : Bool} {ret : _} {out : State} (e : State.xlat s die tenant a write = (out, ret)) (hs : s.HasCpu m0) : out.HasCpu m0 := by
  unfold State.xlat at e
  try dsimp only at e
  (repeat' split at e) <;> (try simp only [Except.ok.injEq, Option.some.injEq, Prod.mk.injEq, reduceCtorEq] at e) <;> (first | (obtain ⟨e1, e2⟩ := e; subst e1 e2) | (subst e) | skip) <;> (repeat' first | with_reducible assumption | (with_reducible refine State.HasCpu.foldl ?_ ?_) | (refine State.lookup_cpu (by assumption) ?_) | (with_reducible refine State.lookup_cpu (Prod.eta _).symm ?_) | (fail_if_no_progress (with_reducible apply State.HasCpu.other)) | split | (intro _))

theorem State.look_cpu {m0 : _} {s : State} {die : Nat} {tenant : Nat} {a : W64} {ret : _} {out : State} (e : State.look s die tenant a = (out, ret)) (hs : s.HasCpu m0) : out.HasCpu m0 := by
  unfold State.look at e
  try dsimp only at e
  (repeat' split at e) <;> (try simp only [Except.ok.injEq, Option.some.injEq, Prod.mk.injEq, reduceCtorEq] at e) <;> (first | (obtain ⟨e1, e2⟩ := e; subst e1 e2) | (subst e) | skip) <;> (repeat' first | with_reducible assumption | (with_reducible refine State.HasCpu.foldl ?_ ?_) | (with_reducible apply State.open_cpu) | (refine State.xlat_cpu (by assumption) ?_) | (with_reducible refine State.xlat_cpu (Prod.eta _).symm ?_) | (fail_if_no_progress (with_reducible apply State.HasCpu.other)) | split | (intro _))

theorem State.event_cpu {m0 : _} {s : State} {tenant : Nat} {kind : Nat} {ctr : W64} {statusw : W64} {detail : List W64} (hs : s.HasCpu m0) : (State.event s tenant kind ctr statusw detail).HasCpu m0 := by
  unfold State.event
  try dsimp only
  (repeat' first | with_reducible assumption | (with_reducible refine State.HasCpu.foldl ?_ ?_) | (with_reducible apply State.updTenant_cpu) | (with_reducible apply State.post_cpu) | (fail_if_no_progress (with_reducible apply State.HasCpu.other)) | split | (intro _))

theorem State.firewallDrop_cpu {m0 : _} {s : State} (hs : s.HasCpu m0) : (State.firewallDrop s).HasCpu m0 := by
  unfold State.firewallDrop
  try dsimp only
  (repeat' first | with_reducible assumption | (with_reducible refine State.HasCpu.foldl ?_ ?_) | (with_reducible apply State.event_cpu) | (fail_if_no_progress (with_reducible apply State.HasCpu.other)) | split | (intro _))

theorem State.cross_cpu {m0 : _} {s : State} {into : Bool} {cls : Nat} {dp : Nat} {f : State → State} (hs : s.HasCpu m0) (hf : ∀ a0, a0.HasCpu m0 → (f a0).HasCpu m0) : (State.cross s into cls dp f).HasCpu m0 := by
  unfold State.cross
  try dsimp only
  (repeat' first | with_reducible assumption | (with_reducible refine State.HasCpu.foldl ?_ ?_) | (with_reducible apply hf) | (with_reducible apply State.firewallDrop_cpu) | (fail_if_no_progress (with_reducible apply State.HasCpu.other)) | split | (intro _))

theorem State.fwStore_cpu {m0 : _} {s : State} {dp : Nat} {f : State → State} (hs : s.HasCpu m0) (hf : ∀ a0, a0.HasCpu m0 → (f a0).HasCpu m0) : (State.fwStore s dp f).HasCpu m0 := by
  unfold State.fwStore
  try dsimp only
  (repeat' first | with_reducible assumption | (with_reducible refine State.HasCpu.foldl ?_ ?_) | (with_reducible apply State.id_cpu) | (with_reducible apply hf) | (with_reducible apply State.cross_cpu) | (fail_if_no_progress (with_reducible apply State.HasCpu.other)) | split | (intro _))

theorem State.fwPost_cpu {m0 : _} {s : State} {r : Request} (hs : s.HasCpu m0) : (State.fwPost s r).HasCpu m0 := by
  unfold State.fwPost
  try dsimp only
  (repeat' first | with_reducible assumption | (with_reducible refine State.HasCpu.foldl ?_ ?_) | (with_reducible apply State.firewallDrop_cpu) | (with_reducible apply State.post_cpu) | (fail_if_no_progress (with_reducible apply State.HasCpu.other)) | split | (intro _))

theorem State.fwOpen_cpu {m0 : _} {s : State} {dp : Nat} {ret : _} {out : State} (e : State.fwOpen s dp = (out, ret)) (hs : s.HasCpu m0) : out.HasCpu m0 := by
  unfold State.fwOpen at e
  try dsimp only at e
  (repeat' split at e) <;> (try simp only [Except.ok.injEq, Option.some.injEq, Prod.mk.injEq, reduceCtorEq] at e) <;> (first | (obtain ⟨e1, e2⟩ := e; subst e1 e2) | (subst e) | skip) <;> (repeat' first | with_reducible assumption | (with_reducible refine State.HasCpu.foldl ?_ ?_) | (with_reducible apply State.firewallDrop_cpu) | (with_reducible apply State.open_cpu) | (fail_if_no_progress (with_reducible apply State.HasCpu.other)) | split | (intro _))

theorem State.fwLook_cpu {m0 : _} {s : State} {tenant : Nat} {a : W64} {ret : _} {out : State} (e : State.fwLook s tenant a = (out, ret)) (hs : s.HasCpu m0) : out.HasCpu m0 := by
  unfold State.fwLook at e
  try dsimp only at e
  (repeat' split at e) <;> (try simp only [Except.ok.injEq, Option.some.injEq, Prod.mk.injEq, reduceCtorEq] at e) <;> (first | (obtain ⟨e1, e2⟩ := e; subst e1 e2) | (subst e) | skip) <;> (repeat' first | with_reducible assumption | (with_reducible refine State.HasCpu.foldl ?_ ?_) | (refine State.fwOpen_cpu (by assumption) ?_) | (with_reducible refine State.fwOpen_cpu (Prod.eta _).symm ?_) | (refine State.xlat_cpu (by assumption) ?_) | (with_reducible refine State.xlat_cpu (Prod.eta _).symm ?_) | (fail_if_no_progress (with_reducible apply State.HasCpu.other)) | split | (intro _))

theorem State.fwRead_cpu {m0 : _} {s : State} {tenant : Nat} {a : W64} {ret : _} {out : State} (e : State.fwRead s tenant a = (out, ret)) (hs : s.HasCpu m0) : out.HasCpu m0 := by
  unfold State.fwRead at e
  try dsimp only at e
  (repeat' split at e) <;> (try simp only [Except.ok.injEq, Option.some.injEq, Prod.mk.injEq, reduceCtorEq] at e) <;> (first | (obtain ⟨e1, e2⟩ := e; subst e1 e2) | (subst e) | skip) <;> (repeat' first | with_reducible assumption | (with_reducible refine State.HasCpu.foldl ?_ ?_) | (refine State.fwLook_cpu (by assumption) ?_) | (with_reducible refine State.fwLook_cpu (Prod.eta _).symm ?_) | (fail_if_no_progress (with_reducible apply State.HasCpu.other)) | split | (intro _))

theorem State.fwWords_cpu {m0 : _} {s : State} {tenant : Nat} {a : W64} {x0 : Nat} {ret : _} {out : State} (e : State.fwWords s tenant a x0 = (out, ret)) (hs : s.HasCpu m0) : out.HasCpu m0 := by
  induction x0 generalizing s tenant a ret out with
  | zero => rw [State.fwWords] at e <;> (try dsimp only at e) <;> (repeat' split at e) <;> (try simp only [Except.ok.injEq, Option.some.injEq, Prod.mk.injEq, reduceCtorEq] at e) <;> (first | (obtain ⟨e1, e2⟩ := e; subst e1 e2) | (subst e) | skip) <;> (repeat' first | with_reducible assumption | (with_reducible refine State.HasCpu.foldl ?_ ?_) | (refine State.fwRead_cpu (by assumption) ?_) | (with_reducible refine State.fwRead_cpu (Prod.eta _).symm ?_) | (fail_if_no_progress (with_reducible apply State.HasCpu.other)) | split | (intro _) | (refine State.fwRead_cpu (by assumption) ?_) | (with_reducible refine State.fwRead_cpu (Prod.eta _).symm ?_) | split | (intro _))
  | succ _ ih => rw [State.fwWords] at e <;> (try dsimp only at e) <;> (repeat' split at e) <;> (try simp only [Except.ok.injEq, Option.some.injEq, Prod.mk.injEq, reduceCtorEq] at e) <;> (first | (obtain ⟨e1, e2⟩ := e; subst e1 e2) | (subst e) | skip) <;> (repeat' first | with_reducible assumption | (with_reducible refine State.HasCpu.foldl ?_ ?_) | (refine State.fwRead_cpu (by assumption) ?_) | (with_reducible refine State.fwRead_cpu (Prod.eta _).symm ?_) | (fail_if_no_progress (with_reducible apply State.HasCpu.other)) | split | (intro _) | (refine ih (by assumption) ?_) | (refine ih (Prod.eta _).symm ?_) | (refine State.fwRead_cpu (by assumption) ?_) | (with_reducible refine State.fwRead_cpu (Prod.eta _).symm ?_) | split | (intro _))

theorem State.agentPost_cpu {m0 : _} {s : State} {unit : Option Nat} {r : Request} (hs : s.HasCpu m0) : (State.agentPost s unit r).HasCpu m0 := by
  unfold State.agentPost
  try dsimp only
  (repeat' first | with_reducible assumption | (with_reducible refine State.HasCpu.foldl ?_ ?_) | (with_reducible apply State.fwPost_cpu) | (with_reducible apply State.post_cpu) | (fail_if_no_progress (with_reducible apply State.HasCpu.other)) | split | (intro _))

theorem State.advanceBy_cpu {m0 : _} {s : State} {unit : Option Nat} {tenant : Nat} {ctr : W64} {status : W64} (hs : s.HasCpu m0) : (State.advanceBy s unit tenant ctr status).HasCpu m0 := by
  unfold State.advanceBy
  try dsimp only
  (repeat' first | with_reducible assumption | (with_reducible refine State.HasCpu.foldl ?_ ?_) | (with_reducible apply State.agentPost_cpu) | (with_reducible apply State.post_cpu) | (refine State.newTag_cpu (by assumption) ?_) | (with_reducible refine State.newTag_cpu (Prod.eta _).symm ?_) | (fail_if_no_progress (with_reducible apply State.HasCpu.other)) | split | (intro _))

theorem State.advanceCounter_cpu {m0 : _} {s : State} {tenant : Nat} {ctr : W64} {status : W64} (hs : s.HasCpu m0) : (State.advanceCounter s tenant ctr status).HasCpu m0 := by
  unfold State.advanceCounter
  try dsimp only
  (repeat' first | with_reducible assumption | (with_reducible refine State.HasCpu.foldl ?_ ?_) | (with_reducible apply State.advanceBy_cpu) | (fail_if_no_progress (with_reducible apply State.HasCpu.other)) | split | (intro _))

theorem State.advanceRetire_cpu {m0 : _} {s : State} {die : Nat} {tenant : Nat} {ctr : W64} (hs : s.HasCpu m0) : (State.advanceRetire s die tenant ctr).HasCpu m0 := by
  unfold State.advanceRetire
  try dsimp only
  (repeat' first | with_reducible assumption | (with_reducible refine State.HasCpu.foldl ?_ ?_) | (with_reducible apply State.agentPost_cpu) | (with_reducible apply State.post_cpu) | (refine State.newTag_cpu (by assumption) ?_) | (with_reducible refine State.newTag_cpu (Prod.eta _).symm ?_) | (fail_if_no_progress (with_reducible apply State.HasCpu.other)) | split | (intro _))

theorem State.fwWaitFor_cpu {m0 : _} {s : State} {tenant : Nat} {ctr : W64} {w : FwWait} (hs : s.HasCpu m0) : (State.fwWaitFor s tenant ctr w).HasCpu m0 := by
  unfold State.fwWaitFor
  try dsimp only
  (repeat' first | with_reducible assumption | (with_reducible refine State.HasCpu.foldl ?_ ?_) | (with_reducible apply State.fwPost_cpu) | (fail_if_no_progress (with_reducible apply State.HasCpu.other)) | split | (intro _))

theorem State.unpark_cpu {m0 : _} {s : State} {p : Parked} (hs : s.HasCpu m0) : (State.unpark s p).HasCpu m0 := by
  unfold State.unpark
  try dsimp only
  (repeat' first | with_reducible assumption | (with_reducible refine State.HasCpu.foldl ?_ ?_) | (with_reducible apply State.post_cpu) | (fail_if_no_progress (with_reducible apply State.HasCpu.other)) | split | (intro _))

theorem State.withdraw_cpu {m0 : _} {s : State} {p : Parked} (hs : s.HasCpu m0) : (State.withdraw s p).HasCpu m0 := by
  unfold State.withdraw
  try dsimp only
  (repeat' first | with_reducible assumption | (with_reducible refine State.HasCpu.foldl ?_ ?_) | (with_reducible apply State.unpark_cpu) | (with_reducible apply State.commit_cpu) | (fail_if_no_progress (with_reducible apply State.HasCpu.other)) | split | (intro _))

theorem State.withdrawAll_cpu {m0 : _} {s : State} {f : Parked → Bool} (hs : s.HasCpu m0) : (State.withdrawAll s f).HasCpu m0 := by
  unfold State.withdrawAll
  try dsimp only
  (repeat' first | with_reducible assumption | (with_reducible refine State.HasCpu.foldl ?_ ?_) | (with_reducible apply State.withdraw_cpu) | (fail_if_no_progress (with_reducible apply State.HasCpu.other)) | split | (intro _))

theorem State.withdrawAway_cpu {m0 : _} {s : State} {f : Request → Bool} (hs : s.HasCpu m0) : (State.withdrawAway s f).HasCpu m0 := by
  unfold State.withdrawAway
  try dsimp only
  (repeat' first | with_reducible assumption | (with_reducible refine State.HasCpu.foldl ?_ ?_) | (with_reducible apply State.emit_cpu) | (fail_if_no_progress (with_reducible apply State.HasCpu.other)) | split | (intro _))

theorem State.settle_cpu {m0 : _} {s : State} (hs : s.HasCpu m0) : (State.settle s).HasCpu m0 := by
  unfold State.settle
  try dsimp only
  (repeat' first | with_reducible assumption | (with_reducible refine State.HasCpu.foldl ?_ ?_) | (with_reducible apply State.unpark_cpu) | (with_reducible apply State.advanceCounter_cpu) | (with_reducible apply State.fwStore_cpu) | (with_reducible apply State.setMoved_cpu) | (with_reducible apply State.setDpit_cpu) | (fail_if_no_progress (with_reducible apply State.HasCpu.other)) | split | (intro _))

theorem State.withdrawOf_cpu {m0 : _} {s : State} {gens : List Nat} (hs : s.HasCpu m0) : (State.withdrawOf s gens).HasCpu m0 := by
  unfold State.withdrawOf
  try dsimp only
  (repeat' first | with_reducible assumption | (with_reducible refine State.HasCpu.foldl ?_ ?_) | (with_reducible apply State.withdrawAway_cpu) | (with_reducible apply State.withdrawAll_cpu) | (fail_if_no_progress (with_reducible apply State.HasCpu.other)) | split | (intro _))

theorem State.idleReport_cpu {m0 : _} {s : State} {tenant : Nat} (hs : s.HasCpu m0) : (State.idleReport s tenant).HasCpu m0 := by
  unfold State.idleReport
  try dsimp only
  (repeat' first | with_reducible assumption | (with_reducible refine State.HasCpu.foldl ?_ ?_) | (with_reducible apply State.cross_cpu) | (with_reducible apply State.updTenant_cpu) | (with_reducible apply State.post_cpu) | (with_reducible apply State.postIn_cpu) | (fail_if_no_progress (with_reducible apply State.HasCpu.other)) | split | (intro _))

theorem State.checkLaunch_cpu {m0 : _} {s : State} {unit : Option Nat} {lid : Nat} (hs : s.HasCpu m0) : (State.checkLaunch s unit lid).HasCpu m0 := by
  unfold State.checkLaunch
  try dsimp only
  (repeat' first | with_reducible assumption | (with_reducible refine State.HasCpu.foldl ?_ ?_) | (with_reducible apply State.advanceBy_cpu) | (with_reducible apply State.updLaunch_cpu) | (with_reducible apply State.post_cpu) | (fail_if_no_progress (with_reducible apply State.HasCpu.other)) | split | (intro _))

theorem State.liveUp_cpu {m0 : _} {s : State} {lid : Option Nat} {n : Nat} (hs : s.HasCpu m0) : (State.liveUp s lid n).HasCpu m0 := by
  unfold State.liveUp
  try dsimp only
  (repeat' first | with_reducible assumption | (with_reducible refine State.HasCpu.foldl ?_ ?_) | (with_reducible apply State.updLaunch_cpu) | (fail_if_no_progress (with_reducible apply State.HasCpu.other)) | split | (intro _))

theorem State.liveDown_cpu {m0 : _} {s : State} {die : Nat} {c : Ctx} {how : EndKind} (hs : s.HasCpu m0) : (State.liveDown s die c how).HasCpu m0 := by
  unfold State.liveDown
  try dsimp only
  (repeat' first | with_reducible assumption | (with_reducible refine State.HasCpu.foldl ?_ ?_) | (with_reducible apply State.checkLaunch_cpu) | (with_reducible apply State.advanceRetire_cpu) | (with_reducible apply State.updLaunch_cpu) | (fail_if_no_progress (with_reducible apply State.HasCpu.other)) | split | (intro _))

theorem State.fireTriggers_cpu {m0 : _} {s : State} {gid : Nat} {gen : Nat} (hs : s.HasCpu m0) : (State.fireTriggers s gid gen).HasCpu m0 := by
  unfold State.fireTriggers
  try dsimp only
  (repeat' first | with_reducible assumption | (with_reducible refine State.HasCpu.foldl ?_ ?_) | (with_reducible apply State.id_cpu) | (with_reducible apply State.withdrawAway_cpu) | (with_reducible apply State.unpark_cpu) | (with_reducible apply State.updOp_cpu) | (with_reducible apply State.post_cpu) | (fail_if_no_progress (with_reducible apply State.HasCpu.other)) | split | (intro _))

theorem State.nowIdle_cpu {m0 : _} {s : State} {gid : Nat} (hs : s.HasCpu m0) : (State.nowIdle s gid).HasCpu m0 := by
  unfold State.nowIdle
  try dsimp only
  (repeat' first | with_reducible assumption | (with_reducible refine State.HasCpu.foldl ?_ ?_) | (with_reducible apply State.idleReport_cpu) | (with_reducible apply State.postAll_cpu) | (with_reducible apply State.post_cpu) | (fail_if_no_progress (with_reducible apply State.HasCpu.other)) | split | (intro _))

theorem State.answerReaped_cpu {m0 : _} {s : State} {gid : Nat} (hs : s.HasCpu m0) : (State.answerReaped s gid).HasCpu m0 := by
  unfold State.answerReaped
  try dsimp only
  (repeat' first | with_reducible assumption | (with_reducible refine State.HasCpu.foldl ?_ ?_) | (with_reducible apply State.post_cpu) | (fail_if_no_progress (with_reducible apply State.HasCpu.other)) | split | (intro _))

theorem State.writeRecord_cpu {m0 : _} {s : State} {die : Nat} {t : TrapRec} (hs : s.HasCpu m0) : (State.writeRecord s die t).HasCpu m0 := by
  unfold State.writeRecord
  try dsimp only
  (repeat' first | with_reducible assumption | (with_reducible refine State.HasCpu.foldl ?_ ?_) | (with_reducible apply State.event_cpu) | (with_reducible apply State.clearUpset_cpu) | (with_reducible apply State.updDie_cpu) | (fail_if_no_progress (with_reducible apply State.HasCpu.other)) | split | (intro _))

theorem State.bermRecord_cpu {m0 : _} {s : State} {die : Nat} {t : TrapRec} (hs : s.HasCpu m0) : (State.bermRecord s die t).HasCpu m0 := by
  unfold State.bermRecord
  try dsimp only
  (repeat' first | with_reducible assumption | (with_reducible refine State.HasCpu.foldl ?_ ?_) | (with_reducible apply State.writeRecord_cpu) | (with_reducible apply State.event_cpu) | (with_reducible apply State.updDie_cpu) | (fail_if_no_progress (with_reducible apply State.HasCpu.other)) | split | (intro _))

theorem State.fatalRecord_cpu {m0 : _} {s : State} {die : Nat} {t : TrapRec} (hs : s.HasCpu m0) : (State.fatalRecord s die t).HasCpu m0 := by
  unfold State.fatalRecord
  try dsimp only
  (repeat' first | with_reducible assumption | (with_reducible refine State.HasCpu.foldl ?_ ?_) | (with_reducible apply State.bermRecord_cpu) | (with_reducible apply State.post_cpu) | (fail_if_no_progress (with_reducible apply State.HasCpu.other)) | split | (intro _))

theorem State.openRecord_cpu {m0 : _} {s : State} {tenant : Nat} {cause : Nat} {ret : _} {out : State} (e : State.openRecord s tenant cause = (ret, out)) (hs : s.HasCpu m0) : out.HasCpu m0 := by
  unfold State.openRecord at e
  try dsimp only at e
  (repeat' split at e) <;> (try simp only [Except.ok.injEq, Option.some.injEq, Prod.mk.injEq, reduceCtorEq] at e) <;> (first | (obtain ⟨e1, e2⟩ := e; subst e1 e2) | (subst e) | skip) <;> (repeat' first | with_reducible assumption | (with_reducible refine State.HasCpu.foldl ?_ ?_) | (fail_if_no_progress (with_reducible apply State.HasCpu.other)) | split | (intro _))

theorem State.fireGranted_cpu {m0 : _} {s : State} {gid : Nat} (hs : s.HasCpu m0) : (State.fireGranted s gid).HasCpu m0 := by
  unfold State.fireGranted
  try dsimp only
  (repeat' first | with_reducible assumption | (with_reducible refine State.HasCpu.foldl ?_ ?_) | (with_reducible apply State.id_cpu) | (with_reducible apply State.postAll_cpu) | (fail_if_no_progress (with_reducible apply State.HasCpu.other)) | split | (intro _))

theorem State.route_cpu {m0 : _} {s : State} {r : Request} (hs : s.HasCpu m0) : (State.route s r).HasCpu m0 := by
  unfold State.route
  try dsimp only
  (repeat' first | with_reducible assumption | (with_reducible refine State.HasCpu.foldl ?_ ?_) | (with_reducible apply State.post_cpu) | (fail_if_no_progress (with_reducible apply State.HasCpu.other)) | split | (intro _))

theorem State.kick_cpu {m0 : _} {s : State} {op : Nat} (hs : s.HasCpu m0) : (State.kick s op).HasCpu m0 := by
  unfold State.kick
  try dsimp only
  (repeat' first | with_reducible assumption | (with_reducible refine State.HasCpu.foldl ?_ ?_) | (with_reducible apply State.post_cpu) | (fail_if_no_progress (with_reducible apply State.HasCpu.other)) | split | (intro _))

theorem State.bind_cpu {m0 : _} {s : State} {op : Nat} {b : Binding} (hs : s.HasCpu m0) : (State.bind s op b).HasCpu m0 := by
  unfold State.bind
  try dsimp only
  (repeat' first | with_reducible assumption | (with_reducible refine State.HasCpu.foldl ?_ ?_) | (with_reducible apply State.kick_cpu) | (with_reducible apply State.updOp_cpu) | (fail_if_no_progress (with_reducible apply State.HasCpu.other)) | split | (intro _))

theorem State.handOver_cpu {m0 : _} {s : State} {op : Nat} (hs : s.HasCpu m0) : (State.handOver s op).HasCpu m0 := by
  unfold State.handOver
  try dsimp only
  (repeat' first | with_reducible assumption | (with_reducible refine State.HasCpu.foldl ?_ ?_) | (with_reducible apply State.post_cpu) | (fail_if_no_progress (with_reducible apply State.HasCpu.other)) | split | (intro _))

theorem State.withdrawNow_cpu {m0 : _} {s : State} {r : Request} (hs : s.HasCpu m0) : (State.withdrawNow s r).HasCpu m0 := by
  unfold State.withdrawNow
  try dsimp only
  (repeat' first | with_reducible assumption | (with_reducible refine State.HasCpu.foldl ?_ ?_) | (with_reducible apply State.post_cpu) | (fail_if_no_progress (with_reducible apply State.HasCpu.other)) | split | (intro _))

theorem State.answer_cpu {m0 : _} {s : State} {r : Request} {v : W64} {ok : Bool} (hs : s.HasCpu m0) : (State.answer s r v ok).HasCpu m0 := by
  unfold State.answer
  try dsimp only
  (repeat' first | with_reducible assumption | (with_reducible refine State.HasCpu.foldl ?_ ?_) | (with_reducible apply State.id_cpu) | (with_reducible apply State.withdrawNow_cpu) | (with_reducible apply State.cross_cpu) | (with_reducible apply State.emit_cpu) | (with_reducible apply State.post_cpu) | (fail_if_no_progress (with_reducible apply State.HasCpu.other)) | split | (intro _))

theorem State.refuseTrigger_cpu {m0 : _} {s : State} {r : Request} {gid : Nat} {gen : Nat} {op : Nat} (hs : s.HasCpu m0) : (State.refuseTrigger s r gid gen op).HasCpu m0 := by
  unfold State.refuseTrigger
  try dsimp only
  (repeat' first | with_reducible assumption | (with_reducible refine State.HasCpu.foldl ?_ ?_) | (with_reducible apply State.updOp_cpu) | (with_reducible apply State.post_cpu) | (fail_if_no_progress (with_reducible apply State.HasCpu.other)) | split | (intro _))

theorem State.askAgain_cpu {m0 : _} {s : State} {r : Request} (hs : s.HasCpu m0) : (State.askAgain s r).HasCpu m0 := by
  unfold State.askAgain
  try dsimp only
  (repeat' first | with_reducible assumption | (with_reducible refine State.HasCpu.foldl ?_ ?_) | (with_reducible apply State.cross_cpu) | (with_reducible apply State.firewallDrop_cpu) | (with_reducible apply State.postIn_cpu) | (fail_if_no_progress (with_reducible apply State.HasCpu.other)) | split | (intro _))

theorem State.wakeLine_cpu {m0 : _} {s : State} {core : Nat} {line : Nat} (hs : s.HasCpu m0) : (State.wakeLine s core line).HasCpu m0 := by
  unfold State.wakeLine
  try dsimp only
  (repeat' first | with_reducible assumption | (with_reducible refine State.HasCpu.foldl ?_ ?_) | (with_reducible apply State.postAll_cpu) | (fail_if_no_progress (with_reducible apply State.HasCpu.other)) | split | (intro _))

theorem State.emitWords_cpu {m0 : _} {s : State} {phys : Nat} {op : Nat} {a : W64} {ws : List (Option W64)} (hs : s.HasCpu m0) : (State.emitWords s phys op a ws).HasCpu m0 := by
  unfold State.emitWords
  try dsimp only
  (repeat' first | with_reducible assumption | (with_reducible refine State.HasCpu.foldl ?_ ?_) | (with_reducible apply State.emit_cpu) | (fail_if_no_progress (with_reducible apply State.HasCpu.other)) | split | (intro _))

theorem State.emitFetch_cpu {m0 : _} {s : State} {phys : Nat} {op : Nat} {a : W64} {n : Nat} (hs : s.HasCpu m0) : (State.emitFetch s phys op a n).HasCpu m0 := by
  unfold State.emitFetch
  try dsimp only
  (repeat' first | with_reducible assumption | (with_reducible refine State.HasCpu.foldl ?_ ?_) | (with_reducible apply State.emit_cpu) | (fail_if_no_progress (with_reducible apply State.HasCpu.other)) | split | (intro _))

theorem State.awaitPeer_cpu {m0 : _} {s : State} {op : Nat} {phys : Nat} {n : Nat} {addr : W64} (hs : s.HasCpu m0) : (State.awaitPeer s op phys n addr).HasCpu m0 := by
  unfold State.awaitPeer
  try dsimp only
  (repeat' first | with_reducible assumption | (with_reducible refine State.HasCpu.foldl ?_ ?_) | (with_reducible apply State.updOp_cpu) | (with_reducible apply State.postIn_cpu) | (fail_if_no_progress (with_reducible apply State.HasCpu.other)) | split | (intro _))

theorem State.notify_cpu {m0 : _} {s : State} {o : EngOp} (hs : s.HasCpu m0) : (s.notify o).HasCpu m0 := by
  unfold State.notify
  generalize h : s.newRid = r
  obtain ⟨rid, s1⟩ := r
  have h1 := State.newRid_cpu h hs
  dsimp only
  generalize o.binding = b
  cases b <;> first | exact h1 | exact State.route_cpu h1


theorem State.sendHome_cpu {m0 : _} {s : State} {r : Request} (hs : s.HasCpu m0) : (State.sendHome s r).HasCpu m0 := by
  unfold State.sendHome
  try dsimp only
  (repeat' first | with_reducible assumption | (with_reducible refine State.HasCpu.foldl ?_ ?_) | (with_reducible apply State.post_cpu) | (fail_if_no_progress (with_reducible apply State.HasCpu.other)) | split | (intro _))

theorem State.numberAt_cpu {m0 : _} {s : State} {dp : Nat} {ret : _} {out : State} (e : State.numberAt s dp = (ret, out)) (hs : s.HasCpu m0) : out.HasCpu m0 := by
  unfold State.numberAt at e
  try dsimp only at e
  (repeat' split at e) <;> (try simp only [Except.ok.injEq, Option.some.injEq, Prod.mk.injEq, reduceCtorEq] at e) <;> (first | (obtain ⟨e1, e2⟩ := e; subst e1 e2) | (subst e) | skip) <;> (repeat' first | with_reducible assumption | (with_reducible refine State.HasCpu.foldl ?_ ?_) | (with_reducible apply State.commit_cpu) | (with_reducible apply State.open_cpu) | (fail_if_no_progress (with_reducible apply State.HasCpu.other)) | split | (intro _))

theorem State.enlist_cpu {m0 : _} {s : State} {dp : Nat} {r : Request} {polder : Bool} {ticket : W32} {phase : BitVec 16} {notice : Option Notice} (hs : s.HasCpu m0) : (State.enlist s dp r polder ticket phase notice).HasCpu m0 := by
  unfold State.enlist
  try dsimp only
  (repeat' first | with_reducible assumption | (with_reducible refine State.HasCpu.foldl ?_ ?_) | (fail_if_no_progress (with_reducible apply State.HasCpu.other)) | split | (intro _))

theorem State.grant_cpu {m0 : _} {s : State} {dp : Nat} {polder : Bool} {r : Request} {v : W64} {ok : Bool} (hs : s.HasCpu m0) : (State.grant s dp polder r v ok).HasCpu m0 := by
  unfold State.grant
  try dsimp only
  (repeat' first | with_reducible assumption | (with_reducible refine State.HasCpu.foldl ?_ ?_) | (with_reducible apply State.withdrawNow_cpu) | (with_reducible apply State.postIn_cpu) | (refine State.newRid_cpu (by assumption) ?_) | (with_reducible refine State.newRid_cpu (Prod.eta _).symm ?_) | (fail_if_no_progress (with_reducible apply State.HasCpu.other)) | split | (intro _))

theorem State.clearTickets_cpu {m0 : _} {s : State} {dp : Nat} {old : W64} {new : W64} (hs : s.HasCpu m0) : (State.clearTickets s dp old new).HasCpu m0 := by
  unfold State.clearTickets
  try dsimp only
  (repeat' first | with_reducible assumption | (with_reducible refine State.HasCpu.foldl ?_ ?_) | (with_reducible apply State.unpark_cpu) | (fail_if_no_progress (with_reducible apply State.HasCpu.other)) | split | (intro _))

theorem State.polderEntryMoves_cpu {m0 : _} {s : State} {sl : Nat} {tenant : Nat} (hs : s.HasCpu m0) : (State.polderEntryMoves s sl tenant).HasCpu m0 := by
  unfold State.polderEntryMoves
  try dsimp only
  (repeat' first | with_reducible assumption | (with_reducible refine State.HasCpu.foldl ?_ ?_) | (fail_if_no_progress (with_reducible apply State.HasCpu.other)) | split | (intro _))

theorem State.stationDone_cpu {m0 : _} {s : State} {src : Origin} {rid : Nat} (hs : s.HasCpu m0) : (State.stationDone s src rid).HasCpu m0 := by
  unfold State.stationDone
  try dsimp only
  (repeat' first | with_reducible assumption | (with_reducible refine State.HasCpu.foldl ?_ ?_) | (with_reducible apply State.settle_cpu) | (fail_if_no_progress (with_reducible apply State.HasCpu.other)) | split | (intro _))

theorem State.setJoin_cpu {m0 : _} {s : State} {key : Nat} {j : Option JoinRec} (hs : s.HasCpu m0) : (State.setJoin s key j).HasCpu m0 := by
  unfold State.setJoin
  try dsimp only
  (repeat' first | with_reducible assumption | (with_reducible refine State.HasCpu.foldl ?_ ?_) | (with_reducible apply State.updDie_cpu) | (fail_if_no_progress (with_reducible apply State.HasCpu.other)) | split | (intro _))

theorem State.triggerGranted_cpu {m0 : _} {s : State} {g : Nat} {op : Nat} (hs : s.HasCpu m0) : (State.triggerGranted s g op).HasCpu m0 := by
  unfold State.triggerGranted
  try dsimp only
  (repeat' first | with_reducible assumption | (with_reducible refine State.HasCpu.foldl ?_ ?_) | (with_reducible apply State.updOp_cpu) | (with_reducible apply State.post_cpu) | (fail_if_no_progress (with_reducible apply State.HasCpu.other)) | split | (intro _))

theorem State.bindAnswer_cpu {m0 : _} {s : State} {op : Nat} {m : Reply} (hs : s.HasCpu m0) : (State.bindAnswer s op m).HasCpu m0 := by
  unfold State.bindAnswer
  try dsimp only
  (repeat' first | with_reducible assumption | (with_reducible refine State.HasCpu.foldl ?_ ?_) | (with_reducible apply State.bind_cpu) | (fail_if_no_progress (with_reducible apply State.HasCpu.other)) | split | (intro _))

theorem State.pageAnswered_cpu {m0 : _} {s : State} {o : EngOp} {n : Nat} {va : W64} (hs : s.HasCpu m0) : (State.pageAnswered s o n va).HasCpu m0 := by
  unfold State.pageAnswered
  try dsimp only
  (repeat' first | with_reducible assumption | (with_reducible refine State.HasCpu.foldl ?_ ?_) | (with_reducible apply State.id_cpu) | (with_reducible apply State.updOp_cpu) | (with_reducible apply State.post_cpu) | (fail_if_no_progress (with_reducible apply State.HasCpu.other)) | split | (intro _))

theorem State.fillIcache_cpu {m0 : _} {s : State} {gid : Nat} {dp : Nat} (hs : s.HasCpu m0) : (State.fillIcache s gid dp).HasCpu m0 := by
  unfold State.fillIcache
  try dsimp only
  (repeat' first | with_reducible assumption | (with_reducible refine State.HasCpu.foldl ?_ ?_) | (fail_if_no_progress (with_reducible apply State.HasCpu.other)) | split | (intro _))

theorem State.fetchWord_cpu {m0 : _} {s : State} {gid : Nat} {pc : W64} (hs : s.HasCpu m0) : (State.fetchWord s gid pc).HasCpu m0 := by
  unfold State.fetchWord
  try dsimp only
  (repeat' first | with_reducible assumption | (with_reducible refine State.HasCpu.foldl ?_ ?_) | (with_reducible apply State.fillIcache_cpu) | (refine State.look_cpu (by assumption) ?_) | (with_reducible refine State.look_cpu (Prod.eta _).symm ?_) | (fail_if_no_progress (with_reducible apply State.HasCpu.other)) | split | (intro _))

theorem State.openCode_cpu {m0 : _} {s : State} {gid : Nat} {pc : W64} (hs : s.HasCpu m0) : (State.openCode s gid pc).HasCpu m0 := by
  unfold State.openCode
  try dsimp only
  (repeat' first | with_reducible assumption | (with_reducible refine State.HasCpu.foldl ?_ ?_) | (with_reducible apply State.fetchWord_cpu) | (fail_if_no_progress (with_reducible apply State.HasCpu.other)) | split | (intro _))

theorem State.withSlot_cpu {m0 : _} {s : State} {sl : Slot} (hs : s.HasCpu m0) : (State.withSlot s sl).HasCpu m0 := by
  unfold State.withSlot
  try dsimp only
  (repeat' first | with_reducible assumption | (with_reducible refine State.HasCpu.foldl ?_ ?_) | (fail_if_no_progress (with_reducible apply State.HasCpu.other)) | split | (intro _))

theorem State.startMove_cpu {m0 : _} {s : State} {page : Nat} {frame : Nat} (hs : s.HasCpu m0) : (State.startMove s page frame).HasCpu m0 := by
  unfold State.startMove
  try dsimp only
  (repeat' first | with_reducible assumption | (with_reducible refine State.HasCpu.foldl ?_ ?_) | (with_reducible apply State.setMoved_cpu) | (with_reducible apply State.setDpit_cpu) | (with_reducible apply State.postAll_cpu) | (fail_if_no_progress (with_reducible apply State.HasCpu.other)) | split | (intro _))

theorem State.soundCopy_cpu {m0 : _} {s : State} {page : Nat} (hs : s.HasCpu m0) : (State.soundCopy s page).HasCpu m0 := by
  unfold State.soundCopy
  try dsimp only
  (repeat' first | with_reducible assumption | (with_reducible refine State.HasCpu.foldl ?_ ?_) | (fail_if_no_progress (with_reducible apply State.HasCpu.other)) | split | (intro _))

theorem State.endMove_cpu {m0 : _} {s : State} {page : Nat} (hs : s.HasCpu m0) : (State.endMove s page).HasCpu m0 := by
  unfold State.endMove
  try dsimp only
  (repeat' first | with_reducible assumption | (with_reducible refine State.HasCpu.foldl ?_ ?_) | (with_reducible apply State.soundCopy_cpu) | (with_reducible apply State.setMoved_cpu) | (with_reducible apply State.setDpit_cpu) | (fail_if_no_progress (with_reducible apply State.HasCpu.other)) | split | (intro _))

theorem State.abandonMove_cpu {m0 : _} {s : State} {page : Nat} (hs : s.HasCpu m0) : (State.abandonMove s page).HasCpu m0 := by
  unfold State.abandonMove
  try dsimp only
  (repeat' first | with_reducible assumption | (with_reducible refine State.HasCpu.foldl ?_ ?_) | (with_reducible apply State.setMoved_cpu) | (with_reducible apply State.setDpit_cpu) | (fail_if_no_progress (with_reducible apply State.HasCpu.other)) | split | (intro _))

theorem State.decodeRange_cpu {m0 : _} {s : State} {dp : Nat} {n : Nat} (hs : s.HasCpu m0) : (State.decodeRange s dp n).HasCpu m0 := by
  unfold State.decodeRange
  try dsimp only
  (repeat' first | with_reducible assumption | (with_reducible refine State.HasCpu.foldl ?_ ?_) | (with_reducible apply State.decodeWord_cpu) | (fail_if_no_progress (with_reducible apply State.HasCpu.other)) | split | (intro _))

theorem State.promote_cpu {m0 : _} {s : State} {page : Nat} {ret : _} {out : State} (e : State.promote s page = (out, ret)) (hs : s.HasCpu m0) : out.HasCpu m0 := by
  unfold State.promote at e
  try dsimp only at e
  (repeat' split at e) <;> (try simp only [Except.ok.injEq, Option.some.injEq, Prod.mk.injEq, reduceCtorEq] at e) <;> (first | (obtain ⟨e1, e2⟩ := e; subst e1 e2) | (subst e) | skip) <;> (repeat' first | with_reducible assumption | (with_reducible refine State.HasCpu.foldl ?_ ?_) | (with_reducible apply State.startMove_cpu) | (with_reducible apply State.takeCopyUpsets_cpu) | (with_reducible apply State.setDpit_cpu) | (fail_if_no_progress (with_reducible apply State.HasCpu.other)) | split | (intro _))

theorem State.evacuate_cpu {m0 : _} {s : State} {page : Nat} (hs : s.HasCpu m0) : (State.evacuate s page).HasCpu m0 := by
  unfold State.evacuate
  try dsimp only
  (repeat' first | with_reducible assumption | (with_reducible refine State.HasCpu.foldl ?_ ?_) | (with_reducible apply State.decodeRange_cpu) | (with_reducible apply State.takeCopyUpsets_cpu) | (with_reducible apply State.retireFrame_cpu) | (with_reducible apply State.setDpit_cpu) | (fail_if_no_progress (with_reducible apply State.HasCpu.other)) | split | (intro _))

theorem State.dropClean_cpu {m0 : _} {s : State} {page : Nat} (hs : s.HasCpu m0) : (State.dropClean s page).HasCpu m0 := by
  unfold State.dropClean
  try dsimp only
  (repeat' first | with_reducible assumption | (with_reducible refine State.HasCpu.foldl ?_ ?_) | (with_reducible apply State.setDpit_cpu) | (fail_if_no_progress (with_reducible apply State.HasCpu.other)) | split | (intro _))

theorem State.retireFrom_cpu {m0 : _} {s : State} {die : Nat} {far : Bool} {frame : Nat} {page : Nat} {out : State} (e : State.retireFrom s die far frame page = some out) (hs : s.HasCpu m0) : out.HasCpu m0 := by
  unfold State.retireFrom at e
  try dsimp only at e
  (repeat' split at e) <;> (try simp only [Except.ok.injEq, Option.some.injEq, Prod.mk.injEq, reduceCtorEq] at e) <;> (first | (obtain ⟨e1, e2⟩ := e; subst e1 e2) | (subst e) | skip) <;> (repeat' first | with_reducible assumption | (with_reducible refine State.HasCpu.foldl ?_ ?_) | (with_reducible apply State.dropClean_cpu) | (with_reducible apply State.evacuate_cpu) | (with_reducible apply State.retireFrame_cpu) | (fail_if_no_progress (with_reducible apply State.HasCpu.other)) | split | (intro _))

theorem State.retireReported_cpu {m0 : _} {s : State} {die : Nat} {far : Bool} {frame : Nat} {out : State} (e : s.retireReported die far frame = some out)
    (hs : s.HasCpu m0) : out.HasCpu m0 := by
  rw [State.retireReported] at e
  revert e
  generalize s.holderOf die far frame = h
  intro e
  cases h with
  | none => exact Option.some.inj e ▸ State.retireFrame_cpu hs
  | some p => exact State.retireFrom_cpu e hs


theorem State.loseStructures_cpu {m0 : _} {s : State} {die : Nat} (hs : s.HasCpu m0) : (State.loseStructures s die).HasCpu m0 := by
  unfold State.loseStructures
  try dsimp only
  (repeat' first | with_reducible assumption | (with_reducible refine State.HasCpu.foldl ?_ ?_) | (with_reducible apply State.fatalRecord_cpu) | (refine State.openRecord_cpu (by assumption) ?_) | (with_reducible refine State.openRecord_cpu (Prod.eta _).symm ?_) | (fail_if_no_progress (with_reducible apply State.HasCpu.other)) | split | (intro _))

theorem State.poisonPage_cpu {m0 : _} {s : State} {page : Nat} (hs : s.HasCpu m0) : (State.poisonPage s page).HasCpu m0 := by
  unfold State.poisonPage
  try dsimp only
  (repeat' first | with_reducible assumption | (with_reducible refine State.HasCpu.foldl ?_ ?_) | (with_reducible apply State.clearUpset_cpu) | (with_reducible apply State.putWord_cpu) | (fail_if_no_progress (with_reducible apply State.HasCpu.other)) | split | (intro _))

theorem State.giveUpPage_cpu {m0 : _} {s : State} {page : Nat} (hs : s.HasCpu m0) : (State.giveUpPage s page).HasCpu m0 := by
  unfold State.giveUpPage
  try dsimp only
  (repeat' first | with_reducible assumption | (with_reducible refine State.HasCpu.foldl ?_ ?_) | (fail_if_no_progress (with_reducible apply State.HasCpu.other)) | split | (intro _))

theorem State.remapLost_cpu {m0 : _} {s : State} {page : Nat} {farFirst : Bool} (hs : s.HasCpu m0) : (State.remapLost s page farFirst).HasCpu m0 := by
  unfold State.remapLost
  try dsimp only
  (repeat' first | with_reducible assumption | (with_reducible refine State.HasCpu.foldl ?_ ?_) | (with_reducible apply State.poisonPage_cpu) | (with_reducible apply State.setDpit_cpu) | (fail_if_no_progress (with_reducible apply State.HasCpu.other)) | split | (intro _))

theorem State.loseController_cpu {m0 : _} {s : State} {c : Nat} {page : Nat} (hs : s.HasCpu m0) : (State.loseController s c page).HasCpu m0 := by
  unfold State.loseController
  try dsimp only
  (repeat' first | with_reducible assumption | (with_reducible refine State.HasCpu.foldl ?_ ?_) | (with_reducible apply State.remapLost_cpu) | (with_reducible apply State.giveUpPage_cpu) | (with_reducible apply State.dropClean_cpu) | (with_reducible apply State.abandonMove_cpu) | (with_reducible apply State.switchToClean_cpu) | (with_reducible apply State.retireFrame_cpu) | (fail_if_no_progress (with_reducible apply State.HasCpu.other)) | split | (intro _))

theorem State.prefPages_cpu {m0 : _} {s : State} {die : Nat} {tenant : Nat} {va : W64} {x0 : Nat} {ret : _} {out : State} (e : State.prefPages s die tenant va x0 = (out, ret)) (hs : s.HasCpu m0) : out.HasCpu m0 := by
  induction x0 generalizing s die tenant va ret out with
  | zero => rw [State.prefPages] at e <;> (try dsimp only at e) <;> (repeat' split at e) <;> (try simp only [Except.ok.injEq, Option.some.injEq, Prod.mk.injEq, reduceCtorEq] at e) <;> (first | (obtain ⟨e1, e2⟩ := e; subst e1 e2) | (subst e) | skip) <;> (repeat' first | with_reducible assumption | (with_reducible refine State.HasCpu.foldl ?_ ?_) | (refine State.xlat_cpu (by assumption) ?_) | (with_reducible refine State.xlat_cpu (Prod.eta _).symm ?_) | (fail_if_no_progress (with_reducible apply State.HasCpu.other)) | split | (intro _) | (refine State.xlat_cpu (by assumption) ?_) | (with_reducible refine State.xlat_cpu (Prod.eta _).symm ?_) | split | (intro _))
  | succ _ ih => rw [State.prefPages] at e <;> (try dsimp only at e) <;> (repeat' split at e) <;> (try simp only [Except.ok.injEq, Option.some.injEq, Prod.mk.injEq, reduceCtorEq] at e) <;> (first | (obtain ⟨e1, e2⟩ := e; subst e1 e2) | (subst e) | skip) <;> (repeat' first | with_reducible assumption | (with_reducible refine State.HasCpu.foldl ?_ ?_) | (refine State.xlat_cpu (by assumption) ?_) | (with_reducible refine State.xlat_cpu (Prod.eta _).symm ?_) | (fail_if_no_progress (with_reducible apply State.HasCpu.other)) | split | (intro _) | (refine ih (by assumption) ?_) | (refine ih (Prod.eta _).symm ?_) | (refine State.xlat_cpu (by assumption) ?_) | (with_reducible refine State.xlat_cpu (Prod.eta _).symm ?_) | split | (intro _))

theorem State.promoteAll_cpu {m0 : _} {s : State} {ps : List Nat} {ret : Nat} {out : State} (e : s.promoteAll ps = (out, ret)) (hs : s.HasCpu m0) : out.HasCpu m0 := by
  have : (s.promoteAll ps).1.HasCpu m0 := State.HasCpu.foldlFst (fun q p h => by exact State.promote_cpu (Prod.eta _).symm h) hs
  rw [e] at this
  exact this


theorem State.engineRead_cpu {m0 : _} {s : State} {die : Nat} {tenant : Nat} {va : W64} {ret : _} {out : State} (e : State.engineRead s die tenant va = (out, ret)) (hs : s.HasCpu m0) : out.HasCpu m0 := by
  unfold State.engineRead at e
  try dsimp only at e
  (repeat' split at e) <;> (try simp only [Except.ok.injEq, Option.some.injEq, Prod.mk.injEq, reduceCtorEq] at e) <;> (first | (obtain ⟨e1, e2⟩ := e; subst e1 e2) | (subst e) | skip) <;> (repeat' first | with_reducible assumption | (with_reducible refine State.HasCpu.foldl ?_ ?_) | (with_reducible apply State.open_cpu) | (refine State.xlat_cpu (by assumption) ?_) | (with_reducible refine State.xlat_cpu (Prod.eta _).symm ?_) | (fail_if_no_progress (with_reducible apply State.HasCpu.other)) | split | (intro _))

theorem State.engineWrite_cpu {m0 : _} {s : State} {die : Nat} {tenant : Nat} {va : W64} {v : W64} {poison : Bool} {ret : _} {out : State} (e : State.engineWrite s die tenant va v poison = (out, ret)) (hs : s.HasCpu m0) : out.HasCpu m0 := by
  unfold State.engineWrite at e
  try dsimp only at e
  (repeat' split at e) <;> (try simp only [Except.ok.injEq, Option.some.injEq, Prod.mk.injEq, reduceCtorEq] at e) <;> (first | (obtain ⟨e1, e2⟩ := e; subst e1 e2) | (subst e) | skip) <;> (repeat' first | with_reducible assumption | (with_reducible refine State.HasCpu.foldl ?_ ?_) | (with_reducible apply State.engineCommit_cpu) | (with_reducible apply State.open_cpu) | (refine State.xlat_cpu (by assumption) ?_) | (with_reducible refine State.xlat_cpu (Prod.eta _).symm ?_) | (fail_if_no_progress (with_reducible apply State.HasCpu.other)) | split | (intro _))

theorem State.engineWriteAll_cpu {m0 : _} {s : State} {die tenant : Nat} {va : W64} {ws : List (Option W64)} {ret : _} {out : State}
    (e : s.engineWriteAll die tenant va ws = (out, ret)) (hs : s.HasCpu m0) : out.HasCpu m0 := by
  induction ws generalizing s va with
  | nil => cases e; exact hs
  | cons w ws ih =>
    rw [State.engineWriteAll] at e
    split at e
    · cases e; exact State.engineWrite_cpu ‹_› hs
    · exact ih e (State.engineWrite_cpu ‹_› hs)


theorem State.sendBlocks_cpu {m0 : _} {s : State} {phys : Nat} {h : LossyHead} {xfer : Nat} {ws : List (Option W64)} (hs : s.HasCpu m0) : (State.sendBlocks s phys h xfer ws).HasCpu m0 := by
  unfold State.sendBlocks
  try dsimp only
  (repeat' first | with_reducible assumption | (with_reducible refine State.HasCpu.foldl ?_ ?_) | (with_reducible apply State.emit_cpu) | (fail_if_no_progress (with_reducible apply State.HasCpu.other)) | split | (intro _))

theorem State.pagesHere_cpu {m0 : _} {s : State} {die tenant : Nat} {vas : List W64} {ret : _} {out : State} (e : s.pagesHere die tenant vas = (out, ret)) (hs : s.HasCpu m0) :
    out.HasCpu m0 := by
  have : (s.pagesHere die tenant vas).1.HasCpu m0 := State.HasCpu.foldlFst (fun q va h => by
    generalize hx : q.1.xlat die tenant va false = x
    obtain ⟨s', _ | dp⟩ := x <;> exact State.xlat_cpu hx h) hs
  rw [e] at this
  exact this


theorem State.askPages_cpu {m0 : _} {s : State} {op : Nat} {asks : List (Nat × W64)} (hs : s.HasCpu m0) : (State.askPages s op asks).HasCpu m0 := by
  unfold State.askPages
  try dsimp only
  (repeat' first | with_reducible assumption | (with_reducible refine State.HasCpu.foldl ?_ ?_) | (with_reducible apply State.updOp_cpu) | (with_reducible apply State.emit_cpu) | (with_reducible apply State.postIn_cpu) | (fail_if_no_progress (with_reducible apply State.HasCpu.other)) | split | (intro _))

theorem State.engineReadAll_cpu {m0 : _} {s : State} {die tenant : Nat} {va : W64} {n : Nat} {ret : _} {out : State}
    (e : s.engineReadAll die tenant va n = (out, ret)) (hs : s.HasCpu m0) : out.HasCpu m0 := by
  induction n generalizing s va ret with
  | zero => cases e; exact hs
  | succ n ih =>
    rw [State.engineReadAll] at e
    split at e
    · cases e; exact State.engineRead_cpu ‹_› hs
    · have h := State.engineRead_cpu ‹_› hs
      split at e
      · cases e; exact h
      · split at e <;> (cases e; exact ih ‹_› h)


theorem State.stationNotice_cpu {m0 : _} {s : State} {h : LossyHead} (hs : s.HasCpu m0) : (State.stationNotice s h).HasCpu m0 := by
  unfold State.stationNotice
  try dsimp only
  (repeat' first | with_reducible assumption | (with_reducible refine State.HasCpu.foldl ?_ ?_) | (with_reducible apply State.route_cpu) | (with_reducible apply State.emit_cpu) | (refine State.newRid_cpu (by assumption) ?_) | (with_reducible refine State.newRid_cpu (Prod.eta _).symm ?_) | (fail_if_no_progress (with_reducible apply State.HasCpu.other)) | split | (intro _))

theorem State.setLossy_cpu {m0 : _} {s : State} {l : Lossy} (hs : s.HasCpu m0) : (State.setLossy s l).HasCpu m0 := by
  unfold State.setLossy
  try dsimp only
  (repeat' first | with_reducible assumption | (with_reducible refine State.HasCpu.foldl ?_ ?_) | (fail_if_no_progress (with_reducible apply State.HasCpu.other)) | split | (intro _))

theorem State.heard_cpu {m0 : _} {s : State} {l : Lossy} (hs : s.HasCpu m0) : (State.heard s l).HasCpu m0 := by
  unfold State.heard
  try dsimp only
  (repeat' first | with_reducible assumption | (with_reducible refine State.HasCpu.foldl ?_ ?_) | (fail_if_no_progress (with_reducible apply State.HasCpu.other)) | split | (intro _))

theorem State.layoutSource_cpu {m0 : _} {s : State} {o : EngOp} {va : W64} {x0 : Nat} {ret : _} {out : State} (e : State.layoutSource s o va x0 = (out, ret)) (hs : s.HasCpu m0) : out.HasCpu m0 := by
  induction x0 generalizing s o va ret out with
  | zero => rw [State.layoutSource] at e <;> (try dsimp only at e) <;> (repeat' split at e) <;> (try simp only [Except.ok.injEq, Option.some.injEq, Prod.mk.injEq, reduceCtorEq] at e) <;> (first | (obtain ⟨e1, e2⟩ := e; subst e1 e2) | (subst e) | skip) <;> (repeat' first | with_reducible assumption | (with_reducible refine State.HasCpu.foldl ?_ ?_) | (refine State.engineRead_cpu (by assumption) ?_) | (with_reducible refine State.engineRead_cpu (Prod.eta _).symm ?_) | (fail_if_no_progress (with_reducible apply State.HasCpu.other)) | split | (intro _) | (refine State.engineRead_cpu (by assumption) ?_) | (with_reducible refine State.engineRead_cpu (Prod.eta _).symm ?_) | split | (intro _))
  | succ _ ih => rw [State.layoutSource] at e <;> (try dsimp only at e) <;> (repeat' split at e) <;> (try simp only [Except.ok.injEq, Option.some.injEq, Prod.mk.injEq, reduceCtorEq] at e) <;> (first | (obtain ⟨e1, e2⟩ := e; subst e1 e2) | (subst e) | skip) <;> (repeat' first | with_reducible assumption | (with_reducible refine State.HasCpu.foldl ?_ ?_) | (refine State.engineRead_cpu (by assumption) ?_) | (with_reducible refine State.engineRead_cpu (Prod.eta _).symm ?_) | (fail_if_no_progress (with_reducible apply State.HasCpu.other)) | split | (intro _) | (refine ih (by assumption) ?_) | (refine ih (Prod.eta _).symm ?_) | (refine State.engineRead_cpu (by assumption) ?_) | (with_reducible refine State.engineRead_cpu (Prod.eta _).symm ?_) | split | (intro _))

theorem State.layoutArrives_cpu {m0 : _} {s : State} {op : Nat} (hs : s.HasCpu m0) : (State.layoutArrives s op).HasCpu m0 := by
  unfold State.layoutArrives
  try dsimp only
  (repeat' first | with_reducible assumption | (with_reducible refine State.HasCpu.foldl ?_ ?_) | (with_reducible apply State.updOp_cpu) | (with_reducible apply State.post_cpu) | (fail_if_no_progress (with_reducible apply State.HasCpu.other)) | split | (intro _))

theorem State.setStream_cpu {m0 : _} {s : State} {st : Stream} (hs : s.HasCpu m0) : (State.setStream s st).HasCpu m0 := by
  unfold State.setStream
  try dsimp only
  (repeat' first | with_reducible assumption | (with_reducible refine State.HasCpu.foldl ?_ ?_) | (fail_if_no_progress (with_reducible apply State.HasCpu.other)) | split | (intro _))

theorem State.dropStream_cpu {m0 : _} {s : State} {core : Nat} {vsn : Nat} (hs : s.HasCpu m0) : (State.dropStream s core vsn).HasCpu m0 := by
  unfold State.dropStream
  try dsimp only
  (repeat' first | with_reducible assumption | (with_reducible refine State.HasCpu.foldl ?_ ?_) | (fail_if_no_progress (with_reducible apply State.HasCpu.other)) | split | (intro _))

theorem State.retryOpens_cpu {m0 : _} {s : State} {core : Nat} (hs : s.HasCpu m0) : (State.retryOpens s core).HasCpu m0 := by
  unfold State.retryOpens
  try dsimp only
  (repeat' first | with_reducible assumption | (with_reducible refine State.HasCpu.foldl ?_ ?_) | (with_reducible apply State.postAll_cpu) | (fail_if_no_progress (with_reducible apply State.HasCpu.other)) | split | (intro _))

theorem State.toEntry_cpu {m0 : _} {s : State} {st : Stream} {e : Nat} {p : Nat} {item : StreamItem} {block : Option Nat} (hs : s.HasCpu m0) : (State.toEntry s st e p item block).HasCpu m0 := by
  unfold State.toEntry
  try dsimp only
  (repeat' first | with_reducible assumption | (with_reducible refine State.HasCpu.foldl ?_ ?_) | (with_reducible apply State.emit_cpu) | (with_reducible apply State.post_cpu) | (fail_if_no_progress (with_reducible apply State.HasCpu.other)) | split | (intro _))

theorem State.notice_cpu {m0 : _} {s : State} {st : Stream} {e : Nat} {p : Nat} (hs : s.HasCpu m0) : (State.notice s st e p).HasCpu m0 := by
  unfold State.notice
  try dsimp only
  (repeat' first | with_reducible assumption | (with_reducible refine State.HasCpu.foldl ?_ ?_) | (with_reducible apply State.emit_cpu) | (with_reducible apply State.post_cpu) | (fail_if_no_progress (with_reducible apply State.HasCpu.other)) | split | (intro _))

theorem State.offer_cpu {m0 : _} {s : State} {st : Stream} {p : Nat} (hs : s.HasCpu m0) : (State.offer s st p).HasCpu m0 := by
  unfold State.offer
  try dsimp only
  (repeat' first | with_reducible assumption | (with_reducible refine State.HasCpu.foldl ?_ ?_) | (with_reducible apply State.notice_cpu) | (fail_if_no_progress (with_reducible apply State.HasCpu.other)) | split | (intro _))

theorem State.freed_cpu {m0 : _} {s : State} {st : Stream} {p : Nat} (hs : s.HasCpu m0) : (State.freed s st p).HasCpu m0 := by
  unfold State.freed
  try dsimp only
  (repeat' first | with_reducible assumption | (with_reducible refine State.HasCpu.foldl ?_ ?_) | (with_reducible apply State.notice_cpu) | (with_reducible apply State.post_cpu) | (fail_if_no_progress (with_reducible apply State.HasCpu.other)) | split | (intro _))

theorem State.moved_cpu {m0 : _} {s : State} {old : Stream} {new : Stream} {ps : List Nat} {freedPorts : List Nat} {ret : _} {out : State} (e : State.moved s old new ps freedPorts = (out, ret)) (hs : s.HasCpu m0) : out.HasCpu m0 := by
  unfold State.moved at e
  try dsimp only at e
  (repeat' split at e) <;> (try simp only [Except.ok.injEq, Option.some.injEq, Prod.mk.injEq, reduceCtorEq] at e) <;> (first | (obtain ⟨e1, e2⟩ := e; subst e1 e2) | (subst e) | skip) <;> (repeat' first | with_reducible assumption | (with_reducible refine State.HasCpu.foldl ?_ ?_) | (with_reducible apply State.freed_cpu) | (with_reducible apply State.offer_cpu) | (fail_if_no_progress (with_reducible apply State.HasCpu.other)) | split | (intro _))

theorem State.sendUp_cpu {m0 : _} {s : State} {st : Stream} {dest : UpTo} {item : StreamItem} {ret : _} {out : State} (e : State.sendUp s st dest item = (out, ret)) (hs : s.HasCpu m0) : out.HasCpu m0 := by
  unfold State.sendUp at e
  try dsimp only at e
  (repeat' split at e) <;> (try simp only [Except.ok.injEq, Option.some.injEq, Prod.mk.injEq, reduceCtorEq] at e) <;> (first | (obtain ⟨e1, e2⟩ := e; subst e1 e2) | (subst e) | skip) <;> (repeat' first | with_reducible assumption | (with_reducible refine State.HasCpu.foldl ?_ ?_) | (with_reducible apply State.toEntry_cpu) | (fail_if_no_progress (with_reducible apply State.HasCpu.other)) | split | (intro _))

theorem State.endRows_cpu {m0 : _} {s : State} {st : Stream} {e : Nat} {ret : _} {out : State} (e : State.endRows s st e = (out, ret)) (hs : s.HasCpu m0) : out.HasCpu m0 := by
  unfold State.endRows at e
  try dsimp only at e
  (repeat' split at e) <;> (try simp only [Except.ok.injEq, Option.some.injEq, Prod.mk.injEq, reduceCtorEq] at e) <;> (first | (obtain ⟨e1, e2⟩ := e; subst e1 e2) | (subst e) | skip) <;> (repeat' first | with_reducible assumption | (with_reducible refine State.HasCpu.foldl ?_ ?_) | (with_reducible apply State.emit_cpu) | (fail_if_no_progress (with_reducible apply State.HasCpu.other)) | split | (intro _))

theorem State.sendDown_cpu {m0 : _} {s : State} {st : Stream} {e : Nat} {item : StreamItem} {lossy : Bool} {ret : _} {out : State} (e : State.sendDown s st e item lossy = (out, ret)) (hs : s.HasCpu m0) : out.HasCpu m0 := by
  unfold State.sendDown at e
  try dsimp only at e
  (repeat' split at e) <;> (try simp only [Except.ok.injEq, Option.some.injEq, Prod.mk.injEq, reduceCtorEq] at e) <;> (first | (obtain ⟨e1, e2⟩ := e; subst e1 e2) | (subst e) | skip) <;> (repeat' first | with_reducible assumption | (with_reducible refine State.HasCpu.foldl ?_ ?_) | (with_reducible apply State.toEntry_cpu) | (refine State.endRows_cpu (by assumption) ?_) | (with_reducible refine State.endRows_cpu (Prod.eta _).symm ?_) | (fail_if_no_progress (with_reducible apply State.HasCpu.other)) | split | (intro _))

theorem State.downServe_cpu {m0 : _} {s : State} {st : Stream} {item : StreamItem} {out : State} (e : State.downServe s st item = some out) (hs : s.HasCpu m0) : out.HasCpu m0 := by
  unfold State.downServe at e
  try dsimp only at e
  (repeat' split at e) <;> (try simp only [Except.ok.injEq, Option.some.injEq, Prod.mk.injEq, reduceCtorEq] at e) <;> (first | (obtain ⟨e1, e2⟩ := e; subst e1 e2) | (subst e) | skip) <;> (repeat' first | with_reducible assumption | (with_reducible refine State.HasCpu.foldl ?_ ?_) | (with_reducible apply State.setStream_cpu) | (refine State.sendDown_cpu (by assumption) ?_) | (with_reducible refine State.sendDown_cpu (Prod.eta _).symm ?_) | (fail_if_no_progress (with_reducible apply State.HasCpu.other)) | split | (intro _))

theorem State.passDown_cpu {m0 : _} {s : State} {st : Stream} {w : W64} {freedPorts : List Nat} (hs : s.HasCpu m0) : (State.passDown s st w freedPorts).HasCpu m0 := by
  unfold State.passDown
  try dsimp only
  (repeat' first | with_reducible assumption | (with_reducible refine State.HasCpu.foldl ?_ ?_) | (with_reducible apply State.retryOpens_cpu) | (with_reducible apply State.dropStream_cpu) | (with_reducible apply State.setStream_cpu) | (refine State.moved_cpu (by assumption) ?_) | (with_reducible refine State.moved_cpu (Prod.eta _).symm ?_) | (fail_if_no_progress (with_reducible apply State.HasCpu.other)) | split | (intro _))

theorem State.downMarker_cpu {m0 : _} {s : State} {st : Stream} {w : W64} (hs : s.HasCpu m0) : (State.downMarker s st w).HasCpu m0 := by
  unfold State.downMarker
  try dsimp only
  (repeat' first | with_reducible assumption | (with_reducible refine State.HasCpu.foldl ?_ ?_) | (with_reducible apply State.passDown_cpu) | (fail_if_no_progress (with_reducible apply State.HasCpu.other)) | split | (intro _))

theorem State.absentDown_cpu {m0 : _} {s : State} {st : Stream} {out : State} (e : State.absentDown s st = some out) (hs : s.HasCpu m0) : out.HasCpu m0 := by
  unfold State.absentDown at e
  try dsimp only at e
  (repeat' split at e) <;> (try simp only [Except.ok.injEq, Option.some.injEq, Prod.mk.injEq, reduceCtorEq] at e) <;> (first | (obtain ⟨e1, e2⟩ := e; subst e1 e2) | (subst e) | skip) <;> (repeat' first | with_reducible assumption | (with_reducible refine State.HasCpu.foldl ?_ ?_) | (with_reducible apply State.passDown_cpu) | (fail_if_no_progress (with_reducible apply State.HasCpu.other)) | split | (intro _))

theorem State.rowHeld_cpu {m0 : _} {s : State} {st : Stream} {port : Nat} (hs : s.HasCpu m0) : (State.rowHeld s st port).HasCpu m0 := by
  unfold State.rowHeld
  try dsimp only
  (repeat' first | with_reducible assumption | (with_reducible refine State.HasCpu.foldl ?_ ?_) | (with_reducible apply State.notice_cpu) | (fail_if_no_progress (with_reducible apply State.HasCpu.other)) | split | (intro _))

theorem State.judgeBlock_cpu {m0 : _} {s : State} {st : Stream} {b : RowBlock} (hs : s.HasCpu m0) : (State.judgeBlock s st b).HasCpu m0 := by
  unfold State.judgeBlock
  try dsimp only
  (repeat' first | with_reducible assumption | (with_reducible refine State.HasCpu.foldl ?_ ?_) | (with_reducible apply State.freed_cpu) | (with_reducible apply State.setStream_cpu) | (fail_if_no_progress (with_reducible apply State.HasCpu.other)) | split | (intro _))

theorem State.onBlock_cpu {m0 : _} {s : State} {st : Stream} {num : Nat} {f : RowBlock → RowBlock} (hs : s.HasCpu m0) : (State.onBlock s st num f).HasCpu m0 := by
  unfold State.onBlock
  try dsimp only
  (repeat' first | with_reducible assumption | (with_reducible refine State.HasCpu.foldl ?_ ?_) | (with_reducible apply State.judgeBlock_cpu) | (with_reducible apply State.setStream_cpu) | (fail_if_no_progress (with_reducible apply State.HasCpu.other)) | split | (intro _))

theorem State.lossyRow_cpu {m0 : _} {s : State} {st : Stream} {num : Nat} {r : Option (List Byte)} (hs : s.HasCpu m0) : (State.lossyRow s st num r).HasCpu m0 := by
  unfold State.lossyRow
  try dsimp only
  (repeat' first | with_reducible assumption | (with_reducible refine State.HasCpu.foldl ?_ ?_) | (with_reducible apply State.onBlock_cpu) | (with_reducible apply State.freed_cpu) | (fail_if_no_progress (with_reducible apply State.HasCpu.other)) | split | (intro _))

theorem State.remember_cpu {m0 : _} {s : State} {core : Nat} {vsn : Nat} {entry : Nat} (hs : s.HasCpu m0) : (State.remember s core vsn entry).HasCpu m0 := by
  unfold State.remember
  try dsimp only
  (repeat' first | with_reducible assumption | (with_reducible refine State.HasCpu.foldl ?_ ?_) | (fail_if_no_progress (with_reducible apply State.HasCpu.other)) | split | (intro _))

theorem State.readCode_cpu {m0 : _} {s : State} {die : Nat} {tenant : Nat} {a : W64} {x0 : Nat} {ret : _} {out : State} (e : State.readCode s die tenant a x0 = (ret, out)) (hs : s.HasCpu m0) : out.HasCpu m0 := by
  induction x0 generalizing s die tenant a ret out with
  | zero => rw [State.readCode] at e <;> (try dsimp only at e) <;> (repeat' split at e) <;> (try simp only [Except.ok.injEq, Option.some.injEq, Prod.mk.injEq, reduceCtorEq] at e) <;> (first | (obtain ⟨e1, e2⟩ := e; subst e1 e2) | (subst e) | skip) <;> (repeat' first | with_reducible assumption | (with_reducible refine State.HasCpu.foldl ?_ ?_) | (refine State.look_cpu (by assumption) ?_) | (with_reducible refine State.look_cpu (Prod.eta _).symm ?_) | (fail_if_no_progress (with_reducible apply State.HasCpu.other)) | split | (intro _) | (refine State.look_cpu (by assumption) ?_) | (with_reducible refine State.look_cpu (Prod.eta _).symm ?_) | split | (intro _))
  | succ _ ih => rw [State.readCode] at e <;> (try dsimp only at e) <;> (repeat' split at e) <;> (try simp only [Except.ok.injEq, Option.some.injEq, Prod.mk.injEq, reduceCtorEq] at e) <;> (first | (obtain ⟨e1, e2⟩ := e; subst e1 e2) | (subst e) | skip) <;> (repeat' first | with_reducible assumption | (with_reducible refine State.HasCpu.foldl ?_ ?_) | (refine State.look_cpu (by assumption) ?_) | (with_reducible refine State.look_cpu (Prod.eta _).symm ?_) | (fail_if_no_progress (with_reducible apply State.HasCpu.other)) | split | (intro _) | (refine ih (by assumption) ?_) | (refine ih (Prod.eta _).symm ?_) | (refine State.look_cpu (by assumption) ?_) | (with_reducible refine State.look_cpu (Prod.eta _).symm ?_) | split | (intro _))

theorem State.readKernel_cpu {m0 : _} {s : State} {die : Nat} {tenant : Nat} {a : W64} {ret : _} {out : State} (e : State.readKernel s die tenant a = (ret, out)) (hs : s.HasCpu m0) : out.HasCpu m0 := by
  unfold State.readKernel at e
  try dsimp only at e
  (repeat' split at e) <;> (try simp only [Except.ok.injEq, Option.some.injEq, Prod.mk.injEq, reduceCtorEq] at e) <;> (first | (obtain ⟨e1, e2⟩ := e; subst e1 e2) | (subst e) | skip) <;> (repeat' first | with_reducible assumption | (with_reducible refine State.HasCpu.foldl ?_ ?_) | (refine State.readCode_cpu (by assumption) ?_) | (with_reducible refine State.readCode_cpu (Prod.eta _).symm ?_) | (fail_if_no_progress (with_reducible apply State.HasCpu.other)) | split | (intro _))

theorem State.updShare_cpu {m0 : _} {s : State} {lid : Nat} {die : Nat} {f : Share → Share} (hs : s.HasCpu m0) : (State.updShare s lid die f).HasCpu m0 := by
  unfold State.updShare
  try dsimp only
  (repeat' first | with_reducible assumption | (with_reducible refine State.HasCpu.foldl ?_ ?_) | (with_reducible apply State.updLaunch_cpu) | (fail_if_no_progress (with_reducible apply State.HasCpu.other)) | split | (intro _))

theorem State.readsHold_cpu {m0 : _} {s : State} {die : Nat} {tenant : Nat} {x0 : List (W64 × W64)} {ret : _} {out : State} (e : State.readsHold s die tenant x0 = (out, ret)) (hs : s.HasCpu m0) : out.HasCpu m0 := by
  induction x0 generalizing s die tenant ret out with
  | nil => rw [State.readsHold] at e <;> (try dsimp only at e) <;> (repeat' split at e) <;> (try simp only [Except.ok.injEq, Option.some.injEq, Prod.mk.injEq, reduceCtorEq] at e) <;> (first | (obtain ⟨e1, e2⟩ := e; subst e1 e2) | (subst e) | skip) <;> (repeat' first | with_reducible assumption | (with_reducible refine State.HasCpu.foldl ?_ ?_) | (refine State.look_cpu (by assumption) ?_) | (with_reducible refine State.look_cpu (Prod.eta _).symm ?_) | (fail_if_no_progress (with_reducible apply State.HasCpu.other)) | split | (intro _) | (refine State.look_cpu (by assumption) ?_) | (with_reducible refine State.look_cpu (Prod.eta _).symm ?_) | split | (intro _))
  | cons _ _ ih => rw [State.readsHold] at e <;> (try dsimp only at e) <;> (repeat' split at e) <;> (try simp only [Except.ok.injEq, Option.some.injEq, Prod.mk.injEq, reduceCtorEq] at e) <;> (first | (obtain ⟨e1, e2⟩ := e; subst e1 e2) | (subst e) | skip) <;> (repeat' first | with_reducible assumption | (with_reducible refine State.HasCpu.foldl ?_ ?_) | (refine State.look_cpu (by assumption) ?_) | (with_reducible refine State.look_cpu (Prod.eta _).symm ?_) | (fail_if_no_progress (with_reducible apply State.HasCpu.other)) | split | (intro _) | (refine ih (by assumption) ?_) | (refine ih (Prod.eta _).symm ?_) | (refine State.look_cpu (by assumption) ?_) | (with_reducible refine State.look_cpu (Prod.eta _).symm ?_) | split | (intro _))

theorem State.findSpec_cpu {m0 : _} {s : State} {die : Nat} {key : SpecKey} {x0 : List SpecEntry} {ret : _} {out : State} (e : State.findSpec s die key x0 = (out, ret)) (hs : s.HasCpu m0) : out.HasCpu m0 := by
  induction x0 generalizing s die key ret out with
  | nil => rw [State.findSpec] at e <;> (try dsimp only at e) <;> (repeat' split at e) <;> (try simp only [Except.ok.injEq, Option.some.injEq, Prod.mk.injEq, reduceCtorEq] at e) <;> (first | (obtain ⟨e1, e2⟩ := e; subst e1 e2) | (subst e) | skip) <;> (repeat' first | with_reducible assumption | (with_reducible refine State.HasCpu.foldl ?_ ?_) | (refine State.readsHold_cpu (by assumption) ?_) | (with_reducible refine State.readsHold_cpu (Prod.eta _).symm ?_) | (fail_if_no_progress (with_reducible apply State.HasCpu.other)) | split | (intro _) | (refine State.readsHold_cpu (by assumption) ?_) | (with_reducible refine State.readsHold_cpu (Prod.eta _).symm ?_) | split | (intro _))
  | cons _ _ ih => rw [State.findSpec] at e <;> (try dsimp only at e) <;> (repeat' split at e) <;> (try simp only [Except.ok.injEq, Option.some.injEq, Prod.mk.injEq, reduceCtorEq] at e) <;> (first | (obtain ⟨e1, e2⟩ := e; subst e1 e2) | (subst e) | skip) <;> (repeat' first | with_reducible assumption | (with_reducible refine State.HasCpu.foldl ?_ ?_) | (refine State.readsHold_cpu (by assumption) ?_) | (with_reducible refine State.readsHold_cpu (Prod.eta _).symm ?_) | (fail_if_no_progress (with_reducible apply State.HasCpu.other)) | split | (intro _) | (refine ih (by assumption) ?_) | (refine ih (Prod.eta _).symm ?_) | (refine State.readsHold_cpu (by assumption) ?_) | (with_reducible refine State.readsHold_cpu (Prod.eta _).symm ?_) | split | (intro _))

theorem State.specLookup_cpu {m0 : _} {s : State} {die : Nat} {key : SpecKey} {ret : _} {out : State} (e : State.specLookup s die key = (out, ret)) (hs : s.HasCpu m0) : out.HasCpu m0 := by
  unfold State.specLookup at e
  try dsimp only at e
  (repeat' split at e) <;> (try simp only [Except.ok.injEq, Option.some.injEq, Prod.mk.injEq, reduceCtorEq] at e) <;> (first | (obtain ⟨e1, e2⟩ := e; subst e1 e2) | (subst e) | skip) <;> (repeat' first | with_reducible assumption | (with_reducible refine State.HasCpu.foldl ?_ ?_) | (with_reducible apply State.updDie_cpu) | (refine State.findSpec_cpu (by assumption) ?_) | (with_reducible refine State.findSpec_cpu (Prod.eta _).symm ?_) | (fail_if_no_progress (with_reducible apply State.HasCpu.other)) | split | (intro _))

theorem State.specInsert_cpu {m0 : _} {s : State} {die : Nat} {e : SpecEntry} {ret : _} {out : State} (e : State.specInsert s die e = some (ret, out)) (hs : s.HasCpu m0) : out.HasCpu m0 := by
  unfold State.specInsert at e
  try dsimp only at e
  (repeat' split at e) <;> (try simp only [Except.ok.injEq, Option.some.injEq, Prod.mk.injEq, reduceCtorEq] at e) <;> (first | (obtain ⟨e1, e2⟩ := e; subst e1 e2) | (subst e) | skip) <;> (repeat' first | with_reducible assumption | (with_reducible refine State.HasCpu.foldl ?_ ?_) | (with_reducible apply State.updDie_cpu) | (fail_if_no_progress (with_reducible apply State.HasCpu.other)) | split | (intro _))

theorem State.countSpec_cpu {m0 : _} {s : State} {die : Nat} {kept : Nat} {fall : Option Nat} (hs : s.HasCpu m0) : (State.countSpec s die kept fall).HasCpu m0 := by
  unfold State.countSpec
  try dsimp only
  (repeat' first | with_reducible assumption | (with_reducible refine State.HasCpu.foldl ?_ ?_) | (with_reducible apply State.updDie_cpu) | (fail_if_no_progress (with_reducible apply State.HasCpu.other)) | split | (intro _))

theorem State.specAnswer_cpu {m0 : _} {s : State} {die : Nat} {lid : Nat} {pc : W64} (hs : s.HasCpu m0) : (State.specAnswer s die lid pc).HasCpu m0 := by
  unfold State.specAnswer
  try dsimp only
  (repeat' first | with_reducible assumption | (with_reducible refine State.HasCpu.foldl ?_ ?_) | (with_reducible apply State.updShare_cpu) | (with_reducible apply State.bind_cpu) | (with_reducible apply State.post_cpu) | (fail_if_no_progress (with_reducible apply State.HasCpu.other)) | split | (intro _))

theorem State.askSpec_cpu {m0 : _} {s : State} {die : Nat} {lid : Nat} {key : SpecKey} {k : Kernel} (hs : s.HasCpu m0) : (State.askSpec s die lid key k).HasCpu m0 := by
  unfold State.askSpec
  try dsimp only
  (repeat' first | with_reducible assumption | (with_reducible refine State.HasCpu.foldl ?_ ?_) | (with_reducible apply State.specAnswer_cpu) | (with_reducible apply State.post_cpu) | (with_reducible apply State.updDie_cpu) | (refine State.specLookup_cpu (by assumption) ?_) | (with_reducible refine State.specLookup_cpu (Prod.eta _).symm ?_) | (fail_if_no_progress (with_reducible apply State.HasCpu.other)) | split | (intro _))

theorem State.release_cpu {m0 : _} {s : State} {l : Launch} (hs : s.HasCpu m0) : (State.release s l).HasCpu m0 := by
  unfold State.release
  try dsimp only
  (repeat' first | with_reducible assumption | (with_reducible refine State.HasCpu.foldl ?_ ?_) | (with_reducible apply State.firewallDrop_cpu) | (with_reducible apply State.updLaunch_cpu) | (with_reducible apply State.postAll_cpu) | (fail_if_no_progress (with_reducible apply State.HasCpu.other)) | split | (intro _))

theorem State.ageGang_cpu {m0 : _} {s : State} {lid : Nat} (hs : s.HasCpu m0) : (State.ageGang s lid).HasCpu m0 := by
  unfold State.ageGang
  try dsimp only
  (repeat' first | with_reducible assumption | (with_reducible refine State.HasCpu.foldl ?_ ?_) | (with_reducible apply State.updLaunch_cpu) | (fail_if_no_progress (with_reducible apply State.HasCpu.other)) | split | (intro _))

theorem State.endHold_cpu {m0 : _} {s : State} {l : Launch} (hs : s.HasCpu m0) : (State.endHold s l).HasCpu m0 := by
  unfold State.endHold
  try dsimp only
  (repeat' first | with_reducible assumption | (with_reducible refine State.HasCpu.foldl ?_ ?_) | (with_reducible apply State.postAll_cpu) | (fail_if_no_progress (with_reducible apply State.HasCpu.other)) | split | (intro _))

theorem State.updObj_cpu {m0 : _} {s : State} {tenant : Nat} {ctr : W64} {f : Obj → Obj} (hs : s.HasCpu m0) : (State.updObj s tenant ctr f).HasCpu m0 := by
  unfold State.updObj
  try dsimp only
  (repeat' first | with_reducible assumption | (with_reducible refine State.HasCpu.foldl ?_ ?_) | (fail_if_no_progress (with_reducible apply State.HasCpu.other)) | split | (intro _))

theorem State.checkObj_cpu {m0 : _} {s : State} {tenant : Nat} {ctr : W64} (hs : s.HasCpu m0) : (State.checkObj s tenant ctr).HasCpu m0 := by
  unfold State.checkObj
  try dsimp only
  (repeat' first | with_reducible assumption | (with_reducible refine State.HasCpu.foldl ?_ ?_) | (with_reducible apply State.updObj_cpu) | (with_reducible apply State.advanceCounter_cpu) | (with_reducible apply State.event_cpu) | (with_reducible apply State.post_cpu) | (fail_if_no_progress (with_reducible apply State.HasCpu.other)) | split | (intro _))

theorem State.memberDone_cpu {m0 : _} {s : State} {tenant : Nat} {ctr : W64} {part : Bool} {reaped : Bool} (hs : s.HasCpu m0) : (State.memberDone s tenant ctr part reaped).HasCpu m0 := by
  unfold State.memberDone
  try dsimp only
  (repeat' first | with_reducible assumption | (with_reducible refine State.HasCpu.foldl ?_ ?_) | (with_reducible apply State.checkObj_cpu) | (with_reducible apply State.updObj_cpu) | (fail_if_no_progress (with_reducible apply State.HasCpu.other)) | split | (intro _))

theorem State.tryBegin_cpu {m0 : _} {s : State} {lid : Nat} (hs : s.HasCpu m0) : (State.tryBegin s lid).HasCpu m0 := by
  unfold State.tryBegin
  try dsimp only
  (repeat' first | with_reducible assumption | (with_reducible refine State.HasCpu.foldl ?_ ?_) | (with_reducible apply State.checkLaunch_cpu) | (with_reducible apply State.updLaunch_cpu) | (fail_if_no_progress (with_reducible apply State.HasCpu.other)) | split | (intro _))

theorem State.dropWaiting_cpu {m0 : _} {s : State} {p : UnitPacket → Bool} (hs : s.HasCpu m0) : (State.dropWaiting s p).HasCpu m0 := by
  unfold State.dropWaiting
  try dsimp only
  (repeat' first | with_reducible assumption | (with_reducible refine State.HasCpu.foldl ?_ ?_) | (with_reducible apply State.updDie_cpu) | (fail_if_no_progress (with_reducible apply State.HasCpu.other)) | split | (intro _))

theorem State.markCancelled_cpu {m0 : _} {s : State} {tenant : Nat} {ctr : W64} (hs : s.HasCpu m0) : (State.markCancelled s tenant ctr).HasCpu m0 := by
  unfold State.markCancelled
  try dsimp only
  (repeat' first | with_reducible assumption | (with_reducible refine State.HasCpu.foldl ?_ ?_) | (with_reducible apply State.updObj_cpu) | (fail_if_no_progress (with_reducible apply State.HasCpu.other)) | split | (intro _))

theorem State.isCounter_cpu {m0 : _} {s : State} {tenant : Nat} {a : W64} {align : Nat} {ret : _} {out : State} (e : State.isCounter s tenant a align = (out, ret)) (hs : s.HasCpu m0) : out.HasCpu m0 := by
  unfold State.isCounter at e
  try dsimp only at e
  (repeat' split at e) <;> (try simp only [Except.ok.injEq, Option.some.injEq, Prod.mk.injEq, reduceCtorEq] at e) <;> (first | (obtain ⟨e1, e2⟩ := e; subst e1 e2) | (subst e) | skip) <;> (repeat' first | with_reducible assumption | (with_reducible refine State.HasCpu.foldl ?_ ?_) | (refine State.fwLook_cpu (by assumption) ?_) | (with_reducible refine State.fwLook_cpu (Prod.eta _).symm ?_) | (fail_if_no_progress (with_reducible apply State.HasCpu.other)) | split | (intro _))

theorem State.isCompletion_cpu {m0 : _} {s : State} {die : Nat} {tenant : Nat} {a : W64} {ret : _} {out : State} (e : State.isCompletion s die tenant a = (out, ret)) (hs : s.HasCpu m0) : out.HasCpu m0 := by
  unfold State.isCompletion at e
  try dsimp only at e
  (repeat' split at e) <;> (try simp only [Except.ok.injEq, Option.some.injEq, Prod.mk.injEq, reduceCtorEq] at e) <;> (first | (obtain ⟨e1, e2⟩ := e; subst e1 e2) | (subst e) | skip) <;> (repeat' first | with_reducible assumption | (with_reducible refine State.HasCpu.foldl ?_ ?_) | (refine State.look_cpu (by assumption) ?_) | (with_reducible refine State.look_cpu (Prod.eta _).symm ?_) | (fail_if_no_progress (with_reducible apply State.HasCpu.other)) | split | (intro _))

theorem State.statusBits_cpu {m0 : _} {s : State} {tenant : Nat} {ctr : W64} {ret : _} {out : State} (e : State.statusBits s tenant ctr = (out, ret)) (hs : s.HasCpu m0) : out.HasCpu m0 := by
  unfold State.statusBits at e
  try dsimp only at e
  (repeat' split at e) <;> (try simp only [Except.ok.injEq, Option.some.injEq, Prod.mk.injEq, reduceCtorEq] at e) <;> (first | (obtain ⟨e1, e2⟩ := e; subst e1 e2) | (subst e) | skip) <;> (repeat' first | with_reducible assumption | (with_reducible refine State.HasCpu.foldl ?_ ?_) | (refine State.fwRead_cpu (by assumption) ?_) | (with_reducible refine State.fwRead_cpu (Prod.eta _).symm ?_) | (fail_if_no_progress (with_reducible apply State.HasCpu.other)) | split | (intro _))

theorem State.beginPhase_cpu {m0 : _} {s : State} {tenant : Nat} {phase : W64} (hs : s.HasCpu m0) : (State.beginPhase s tenant phase).HasCpu m0 := by
  unfold State.beginPhase
  try dsimp only
  (repeat' first | with_reducible assumption | (with_reducible refine State.HasCpu.foldl ?_ ?_) | (with_reducible apply State.tryBegin_cpu) | (with_reducible apply State.checkObj_cpu) | (with_reducible apply State.updObj_cpu) | (fail_if_no_progress (with_reducible apply State.HasCpu.other)) | split | (intro _))

theorem State.passFor_cpu {m0 : _} {s : State} {tenant : Nat} {before : State} (hs : s.HasCpu m0) (hbefore : before.HasCpu m0) : (State.passFor s tenant before).HasCpu m0 := by
  unfold State.passFor
  try dsimp only
  (repeat' first | with_reducible assumption | (with_reducible refine State.HasCpu.foldl ?_ ?_) | (with_reducible apply State.post_cpu) | (fail_if_no_progress (with_reducible apply State.HasCpu.other)) | split | (intro _))

theorem State.updQueue_cpu {m0 : _} {s : State} {tenant : Nat} {num : Nat} {f : Queue → Queue} (hs : s.HasCpu m0) : (State.updQueue s tenant num f).HasCpu m0 := by
  unfold State.updQueue
  try dsimp only
  (repeat' first | with_reducible assumption | (with_reducible refine State.HasCpu.foldl ?_ ?_) | (fail_if_no_progress (with_reducible apply State.HasCpu.other)) | split | (intro _))

theorem State.scanQueue_cpu {m0 : _} {s : State} {q : Queue} (hs : s.HasCpu m0) : (State.scanQueue s q).HasCpu m0 := by
  unfold State.scanQueue
  try dsimp only
  (repeat' first | with_reducible assumption | (with_reducible refine State.HasCpu.foldl ?_ ?_) | (with_reducible apply State.updQueue_cpu) | (with_reducible apply State.postIn_cpu) | (refine State.look_cpu (by assumption) ?_) | (with_reducible refine State.look_cpu (Prod.eta _).symm ?_) | (fail_if_no_progress (with_reducible apply State.HasCpu.other)) | split | (intro _))

theorem State.slotAddr_cpu {m0 : _} {s : State} {q : Queue} {ret : _} {out : State} (e : State.slotAddr s q = (out, ret)) (hs : s.HasCpu m0) : out.HasCpu m0 := by
  unfold State.slotAddr at e
  try dsimp only at e
  (repeat' split at e) <;> (try simp only [Except.ok.injEq, Option.some.injEq, Prod.mk.injEq, reduceCtorEq] at e) <;> (first | (obtain ⟨e1, e2⟩ := e; subst e1 e2) | (subst e) | skip) <;> (repeat' first | with_reducible assumption | (with_reducible refine State.HasCpu.foldl ?_ ?_) | (refine State.fwRead_cpu (by assumption) ?_) | (with_reducible refine State.fwRead_cpu (Prod.eta _).symm ?_) | (fail_if_no_progress (with_reducible apply State.HasCpu.other)) | split | (intro _))

theorem State.slotWords_cpu {m0 : _} {s : State} {q : Queue} {ret : _} {out : State} (e : s.slotWords q = (out, ret)) (hs : s.HasCpu m0) : out.HasCpu m0 := by
  unfold State.slotWords at e
  generalize ha : s.slotAddr q = r at e
  obtain ⟨s1, a⟩ := r
  have h1 := State.slotAddr_cpu ha hs
  dsimp only at e
  split at e
  · generalize hw : s1.fwWords q.tenant a 16 = w at e
    obtain ⟨s2, ws⟩ := w
    cases e; exact State.fwWords_cpu hw h1
  · cases e; exact State.firewallDrop_cpu h1


theorem State.writeRidx_cpu {m0 : _} {s : State} {c : Command} {block : W64} (hs : s.HasCpu m0) : (State.writeRidx s c block).HasCpu m0 := by
  unfold State.writeRidx
  try dsimp only
  (repeat' first | with_reducible assumption | (with_reducible refine State.HasCpu.foldl ?_ ?_) | (with_reducible apply State.fwPost_cpu) | (refine State.newTag_cpu (by assumption) ?_) | (with_reducible refine State.newTag_cpu (Prod.eta _).symm ?_) | (fail_if_no_progress (with_reducible apply State.HasCpu.other)) | split | (intro _))

theorem State.serveNext_cpu {m0 : _} {s : State} (hs : s.HasCpu m0) : s.serveNext.HasCpu m0 := by
  unfold State.serveNext
  split
  · exact hs
  · split
    · exact hs
    · rename_i q _
      generalize e : s.slotWords q = r
      obtain ⟨s', _ | ws⟩ := r
      · exact State.updQueue_cpu (State.slotWords_cpu e hs)
      · exact State.post_cpu (State.writeRidx_cpu (State.HasCpu.other (State.updQueue_cpu (State.slotWords_cpu e hs))))


theorem State.commandError_cpu {m0 : _} {s : State} {c : Command} {reason : Nat} {ctr : W64} {status : W64} (hs : s.HasCpu m0) : (State.commandError s c reason ctr status).HasCpu m0 := by
  unfold State.commandError
  try dsimp only
  (repeat' first | with_reducible assumption | (with_reducible refine State.HasCpu.foldl ?_ ?_) | (with_reducible apply State.event_cpu) | (fail_if_no_progress (with_reducible apply State.HasCpu.other)) | split | (intro _))

theorem State.reject_cpu {m0 : _} {s : State} {c : Command} {reason : Nat} {ctr : Option (W64 × Nat)} (hs : s.HasCpu m0) : (State.reject s c reason ctr).HasCpu m0 := by
  unfold State.reject
  try dsimp only
  (repeat' first | with_reducible assumption | (with_reducible refine State.HasCpu.foldl ?_ ?_) | (with_reducible apply State.commandError_cpu) | (with_reducible apply State.advanceCounter_cpu) | (refine State.isCounter_cpu (by assumption) ?_) | (with_reducible refine State.isCounter_cpu (Prod.eta _).symm ?_) | (refine State.fwRead_cpu (by assumption) ?_) | (with_reducible refine State.fwRead_cpu (Prod.eta _).symm ?_) | (fail_if_no_progress (with_reducible apply State.HasCpu.other)) | split | (intro _))

theorem State.waitPreds_cpu {m0 : _} {s : State} {l : Launch} (hs : s.HasCpu m0) : (State.waitPreds s l).HasCpu m0 := by
  unfold State.waitPreds
  try dsimp only
  (repeat' first | with_reducible assumption | (with_reducible refine State.HasCpu.foldl ?_ ?_) | (with_reducible apply State.fwWaitFor_cpu) | (fail_if_no_progress (with_reducible apply State.HasCpu.other)) | split | (intro _))

theorem State.addLaunch_cpu {m0 : _} {s : State} {l : Launch} (hs : s.HasCpu m0) : (State.addLaunch s l).HasCpu m0 := by
  unfold State.addLaunch
  try dsimp only
  (repeat' first | with_reducible assumption | (with_reducible refine State.HasCpu.foldl ?_ ?_) | (fail_if_no_progress (with_reducible apply State.HasCpu.other)) | split | (intro _))

theorem State.addObj_cpu {m0 : _} {s : State} {o : Obj} (hs : s.HasCpu m0) : (State.addObj s o).HasCpu m0 := by
  unfold State.addObj
  try dsimp only
  (repeat' first | with_reducible assumption | (with_reducible refine State.HasCpu.foldl ?_ ?_) | (with_reducible apply State.markCancelled_cpu) | (with_reducible apply State.checkObj_cpu) | (fail_if_no_progress (with_reducible apply State.HasCpu.other)) | split | (intro _))

theorem State.takeObj_cpu {m0 : _} {s : State} {c : Command} {used : List (Nat × W64)} {f : State → State} (hs : s.HasCpu m0) (hf : ∀ a0, a0.HasCpu m0 → (f a0).HasCpu m0) : (State.takeObj s c used f).HasCpu m0 := by
  unfold State.takeObj
  try dsimp only
  (repeat' first | with_reducible assumption | (with_reducible refine State.HasCpu.foldl ?_ ?_) | (with_reducible apply hf) | (with_reducible apply State.reject_cpu) | (fail_if_no_progress (with_reducible apply State.HasCpu.other)) | split | (intro _))

theorem State.takeCancel_cpu {m0 : _} {s : State} {c : Command} {used : List (Nat × W64)} {unit : Option Nat} (hs : s.HasCpu m0) : (State.takeCancel s c used unit).HasCpu m0 := by
  unfold State.takeCancel
  try dsimp only
  (repeat' first | with_reducible assumption | (with_reducible refine State.HasCpu.foldl ?_ ?_) | (with_reducible apply State.reject_cpu) | (with_reducible apply State.cross_cpu) | (with_reducible apply State.post_cpu) | (refine State.isCounter_cpu (by assumption) ?_) | (with_reducible refine State.isCounter_cpu (Prod.eta _).symm ?_) | (fail_if_no_progress (with_reducible apply State.HasCpu.other)) | split | (intro _))

theorem State.takeMap_cpu {m0 : _} {s : State} {c : Command} {used : List (Nat × W64)} {f : State → State × Option Nat} (hf : ∀ a, a.HasCpu m0 → (f a).1.HasCpu m0)
    (hs : s.HasCpu m0) : (s.takeMap c used f).HasCpu m0 := by
  unfold State.takeMap
  dsimp only
  split
  · exact State.reject_cpu hs
  · split
    · exact State.reject_cpu hs
    · have h := hf s hs
      generalize f s = r at h
      obtain ⟨s1, _ | x⟩ := r
      · exact h
      · exact State.reject_cpu h


theorem State.done_cpu {m0 : _} {s : State} {c : Command} (hs : s.HasCpu m0) : (State.done s c).HasCpu m0 := by
  unfold State.done
  try dsimp only
  (repeat' first | with_reducible assumption | (with_reducible refine State.HasCpu.foldl ?_ ?_) | (with_reducible apply State.advanceCounter_cpu) | (fail_if_no_progress (with_reducible apply State.HasCpu.other)) | split | (intro _))

theorem State.clearPage_cpu {m0 : _} {s : State} {page : Nat} (hs : s.HasCpu m0) : (s.clearPage page).HasCpu m0 := hs

theorem State.backPage_cpu {m0 : _} {s : State} {page : Nat} {out : State} (e : s.backPage page = some out) (hs : s.HasCpu m0) : out.HasCpu m0 := by
  unfold State.backPage at e
  obtain ⟨x, -, rfl⟩ := Option.map_eq_some_iff.1 e
  exact State.fwStore_cpu hs fun _ h => State.clearPage_cpu (State.setDpit_cpu h)


theorem State.backPages_cpu {m0 : _} {s : State} {page : Nat} {x0 : Nat} {out : State} (e : State.backPages s page x0 = some out) (hs : s.HasCpu m0) : out.HasCpu m0 := by
  induction x0 generalizing s page out with
  | zero => rw [State.backPages] at e <;> (try dsimp only at e) <;> (repeat' split at e) <;> (try simp only [Except.ok.injEq, Option.some.injEq, Prod.mk.injEq, reduceCtorEq] at e) <;> (first | (obtain ⟨e1, e2⟩ := e; subst e1 e2) | (subst e) | skip) <;> (repeat' first | with_reducible assumption | (with_reducible refine State.HasCpu.foldl ?_ ?_) | (refine State.backPage_cpu (by assumption) ?_) | (with_reducible refine State.backPage_cpu (guarded_some (by with_reducible assumption)) ?_) | (fail_if_no_progress (with_reducible apply State.HasCpu.other)) | split | (intro _) | (refine State.backPage_cpu (by assumption) ?_) | (with_reducible refine State.backPage_cpu (guarded_some (by with_reducible assumption)) ?_) | split | (intro _))
  | succ _ ih => rw [State.backPages] at e <;> (try dsimp only at e) <;> (repeat' split at e) <;> (try simp only [Except.ok.injEq, Option.some.injEq, Prod.mk.injEq, reduceCtorEq] at e) <;> (first | (obtain ⟨e1, e2⟩ := e; subst e1 e2) | (subst e) | skip) <;> (repeat' first | with_reducible assumption | (with_reducible refine State.HasCpu.foldl ?_ ?_) | (refine State.backPage_cpu (by assumption) ?_) | (with_reducible refine State.backPage_cpu (guarded_some (by with_reducible assumption)) ?_) | (fail_if_no_progress (with_reducible apply State.HasCpu.other)) | split | (intro _) | (refine ih (by assumption) ?_) | (refine State.backPage_cpu (by assumption) ?_) | (with_reducible refine State.backPage_cpu (guarded_some (by with_reducible assumption)) ?_) | split | (intro _))

theorem State.takePlace_cpu {m0 : _} {s : State} {die lo hi n : Nat} {ret : _} {out : State} (e : s.takePlace die lo hi n = some (ret, out)) (hs : s.HasCpu m0) : out.HasCpu m0 := by
  unfold State.takePlace at e
  split at e
  · exact nomatch e
  · obtain ⟨s1, h1, h2⟩ := Option.map_eq_some_iff.1 e
    cases h2; exact State.backPages_cpu h1 hs


theorem State.takeAny_cpu {m0 : _} {s : State} {n : Nat} {x0 : List Nat} {ret : _} {ret2 : _} {out : State} (e : State.takeAny s n x0 = some (ret, ret2, out)) (hs : s.HasCpu m0) : out.HasCpu m0 := by
  induction x0 generalizing s n ret out with
  | nil => rw [State.takeAny] at e <;> (try dsimp only at e) <;> (repeat' split at e) <;> (try simp only [Except.ok.injEq, Option.some.injEq, Prod.mk.injEq, reduceCtorEq] at e) <;> (first | (obtain ⟨e1, e2, e3⟩ := e; subst e1 e2 e3) | (obtain ⟨e1, e2⟩ := e; subst e1 e2) | (subst e) | skip) <;> (repeat' first | with_reducible assumption | (with_reducible refine State.HasCpu.foldl ?_ ?_) | (refine State.takePlace_cpu (by assumption) ?_) | (with_reducible refine State.takePlace_cpu (guarded_some (by with_reducible assumption)) ?_) | (fail_if_no_progress (with_reducible apply State.HasCpu.other)) | split | (intro _) | (refine State.takePlace_cpu (by assumption) ?_) | (with_reducible refine State.takePlace_cpu (guarded_some (by with_reducible assumption)) ?_) | split | (intro _))
  | cons _ _ ih => rw [State.takeAny] at e <;> (try dsimp only at e) <;> (repeat' split at e) <;> (try simp only [Except.ok.injEq, Option.some.injEq, Prod.mk.injEq, reduceCtorEq] at e) <;> (first | (obtain ⟨e1, e2, e3⟩ := e; subst e1 e2 e3) | (obtain ⟨e1, e2⟩ := e; subst e1 e2) | (subst e) | skip) <;> (repeat' first | with_reducible assumption | (with_reducible refine State.HasCpu.foldl ?_ ?_) | (refine State.takePlace_cpu (by assumption) ?_) | (with_reducible refine State.takePlace_cpu (guarded_some (by with_reducible assumption)) ?_) | (fail_if_no_progress (with_reducible apply State.HasCpu.other)) | split | (intro _) | (refine ih (by assumption) ?_) | (refine State.takePlace_cpu (by assumption) ?_) | (with_reducible refine State.takePlace_cpu (guarded_some (by with_reducible assumption)) ?_) | split | (intro _))

theorem State.takePlaces_cpu {m0 : _} {s : State} {n : Nat} {dies : List Nat} {last k : Nat} {ret : _} {out : State} (e : s.takePlaces n dies last k = some (ret, out))
    (hs : s.HasCpu m0) : out.HasCpu m0 := by
  induction k generalizing s last ret with
  | zero => cases e; exact hs
  | succ k ih =>
    rw [State.takePlaces] at e
    split at e
    · exact nomatch e
    · obtain ⟨⟨ps, s1⟩, h1, h2⟩ := Option.map_eq_some_iff.1 e
      cases h2; exact ih h1 (State.takeAny_cpu ‹_› hs)


theorem State.fwEntry_cpu {m0 : _} {s : State} {a : Nat} {ret : _} {out : State} (e : State.fwEntry s a = (out, ret)) (hs : s.HasCpu m0) : out.HasCpu m0 := by
  unfold State.fwEntry at e
  try dsimp only at e
  (repeat' split at e) <;> (try simp only [Except.ok.injEq, Option.some.injEq, Prod.mk.injEq, reduceCtorEq] at e) <;> (first | (obtain ⟨e1, e2⟩ := e; subst e1 e2) | (subst e) | skip) <;> (repeat' first | with_reducible assumption | (with_reducible refine State.HasCpu.foldl ?_ ?_) | (refine State.fwOpen_cpu (by assumption) ?_) | (with_reducible refine State.fwOpen_cpu (Prod.eta _).symm ?_) | (fail_if_no_progress (with_reducible apply State.HasCpu.other)) | split | (intro _))

theorem State.putEntry_cpu {m0 : _} {s : State} {a : Nat} {e : W64} (hs : s.HasCpu m0) : (State.putEntry s a e).HasCpu m0 := by
  unfold State.putEntry
  try dsimp only
  (repeat' first | with_reducible assumption | (with_reducible refine State.HasCpu.foldl ?_ ?_) | (with_reducible apply State.fwStore_cpu) | (with_reducible apply State.commit_cpu) | (with_reducible apply State.open_cpu) | (fail_if_no_progress (with_reducible apply State.HasCpu.other)) | split | (intro _))

theorem State.newTable_cpu {m0 : _} {s : State} {size : Nat} {ret : _} {out : State} (e : s.newTable size = some (ret, out)) (hs : s.HasCpu m0) : out.HasCpu m0 := by
  unfold State.newTable at e
  obtain ⟨⟨p, s1⟩, h1, h2⟩ := Option.map_eq_some_iff.1 e
  cases h2
  refine State.HasCpu.other ?_
  have key : ∀ lo hi, (List.range 24).findSome? (fun d => s.takePlace d lo hi (max 1 (size / 65536))) = some (p, s1) → s1.HasCpu m0 := fun lo hi h => by
    obtain ⟨d, _, hd⟩ := List.exists_of_findSome?_eq_some h
    exact State.takePlace_cpu hd hs
  rcases Option.or_eq_some_iff.1 h1 with h | ⟨_, h⟩ <;> exact key _ _ h


theorem State.tableAt_cpu {m0 : _} {s : State} {a size : Nat} {ret : _} {out : State} (e : s.tableAt a size = some (ret, out)) (hs : s.HasCpu m0) : out.HasCpu m0 := by
  unfold State.tableAt at e
  generalize hf : s.fwEntry a = r at e
  obtain ⟨s1, w⟩ := r
  have h1 := State.fwEntry_cpu hf hs
  dsimp only at e
  split at e
  · cases e; exact h1
  · obtain ⟨⟨p, s2⟩, h2, h3⟩ := Option.map_eq_some_iff.1 e
    cases h3; exact State.putEntry_cpu (State.newTable_cpu h2 h1)


theorem State.entryFor_cpu {m0 : _} {s : State} {t : Tenant} {va : Nat} {big : Bool} {ret : _} {out : State} (e : s.entryFor t va big = some (ret, out)) (hs : s.HasCpu m0) :
    out.HasCpu m0 := by
  unfold State.entryFor at e
  split at e
  · exact nomatch e
  · have h1 := State.tableAt_cpu ‹_› hs
    dsimp only at e
    split at e
    · cases e; exact h1
    · obtain ⟨⟨p, s2⟩, h2, h3⟩ := Option.map_eq_some_iff.1 e
      cases h3; exact State.tableAt_cpu h2 h1


theorem State.mapPage_cpu {m0 : _} {s : State} {t : Tenant} {va page : Nat} {big wr : Bool} {out : State} (e : s.mapPage t va page big wr = some out) (hs : s.HasCpu m0) :
    out.HasCpu m0 := by
  unfold State.mapPage at e
  obtain ⟨⟨p, s1⟩, h1, h2⟩ := Option.map_eq_some_iff.1 e
  cases h2; exact State.putEntry_cpu (State.entryFor_cpu h1 hs)


theorem State.mapPages_cpu {m0 : _} {s : State} {t : Tenant} {big : Bool} {wr : Bool} {va : Nat} {x0 : List Nat} {out : State} (e : State.mapPages s t big wr va x0 = some out) (hs : s.HasCpu m0) : out.HasCpu m0 := by
  induction x0 generalizing s t big wr va out with
  | nil => rw [State.mapPages] at e <;> (try dsimp only at e) <;> (repeat' split at e) <;> (try simp only [Except.ok.injEq, Option.some.injEq, Prod.mk.injEq, reduceCtorEq] at e) <;> (first | (obtain ⟨e1, e2⟩ := e; subst e1 e2) | (subst e) | skip) <;> (repeat' first | with_reducible assumption | (with_reducible refine State.HasCpu.foldl ?_ ?_) | (refine State.mapPage_cpu (by assumption) ?_) | (with_reducible refine State.mapPage_cpu (guarded_some (by with_reducible assumption)) ?_) | (fail_if_no_progress (with_reducible apply State.HasCpu.other)) | split | (intro _) | (refine State.mapPage_cpu (by assumption) ?_) | (with_reducible refine State.mapPage_cpu (guarded_some (by with_reducible assumption)) ?_) | split | (intro _))
  | cons _ _ ih => rw [State.mapPages] at e <;> (try dsimp only at e) <;> (repeat' split at e) <;> (try simp only [Except.ok.injEq, Option.some.injEq, Prod.mk.injEq, reduceCtorEq] at e) <;> (first | (obtain ⟨e1, e2⟩ := e; subst e1 e2) | (subst e) | skip) <;> (repeat' first | with_reducible assumption | (with_reducible refine State.HasCpu.foldl ?_ ?_) | (refine State.mapPage_cpu (by assumption) ?_) | (with_reducible refine State.mapPage_cpu (guarded_some (by with_reducible assumption)) ?_) | (fail_if_no_progress (with_reducible apply State.HasCpu.other)) | split | (intro _) | (refine ih (by assumption) ?_) | (refine State.mapPage_cpu (by assumption) ?_) | (with_reducible refine State.mapPage_cpu (guarded_some (by with_reducible assumption)) ?_) | split | (intro _))

theorem State.mapped_cpu {m0 : _} {s : State} {t : Tenant} {va : Nat} {ret : _} {out : State} (e : State.mapped s t va = (out, ret)) (hs : s.HasCpu m0) : out.HasCpu m0 := by
  unfold State.mapped at e
  try dsimp only at e
  (repeat' split at e) <;> (try simp only [Except.ok.injEq, Option.some.injEq, Prod.mk.injEq, reduceCtorEq] at e) <;> (first | (obtain ⟨e1, e2⟩ := e; subst e1 e2) | (subst e) | skip) <;> (repeat' first | with_reducible assumption | (with_reducible refine State.HasCpu.foldl ?_ ?_) | (refine State.fwEntry_cpu (by assumption) ?_) | (with_reducible refine State.fwEntry_cpu (Prod.eta _).symm ?_) | (fail_if_no_progress (with_reducible apply State.HasCpu.other)) | split | (intro _))

theorem State.anyMapped_cpu {m0 : _} {s : State} {t : Tenant} {va : Nat} {x0 : Nat} {ret : _} {out : State} (e : State.anyMapped s t va x0 = (out, ret)) (hs : s.HasCpu m0) : out.HasCpu m0 := by
  induction x0 generalizing s t va ret out with
  | zero => rw [State.anyMapped] at e <;> (try dsimp only at e) <;> (repeat' split at e) <;> (try simp only [Except.ok.injEq, Option.some.injEq, Prod.mk.injEq, reduceCtorEq] at e) <;> (first | (obtain ⟨e1, e2⟩ := e; subst e1 e2) | (subst e) | skip) <;> (repeat' first | with_reducible assumption | (with_reducible refine State.HasCpu.foldl ?_ ?_) | (refine State.mapped_cpu (by assumption) ?_) | (with_reducible refine State.mapped_cpu (Prod.eta _).symm ?_) | (fail_if_no_progress (with_reducible apply State.HasCpu.other)) | split | (intro _) | (refine State.mapped_cpu (by assumption) ?_) | (with_reducible refine State.mapped_cpu (Prod.eta _).symm ?_) | split | (intro _))
  | succ _ ih => rw [State.anyMapped] at e <;> (try dsimp only at e) <;> (repeat' split at e) <;> (try simp only [Except.ok.injEq, Option.some.injEq, Prod.mk.injEq, reduceCtorEq] at e) <;> (first | (obtain ⟨e1, e2⟩ := e; subst e1 e2) | (subst e) | skip) <;> (repeat' first | with_reducible assumption | (with_reducible refine State.HasCpu.foldl ?_ ?_) | (refine State.mapped_cpu (by assumption) ?_) | (with_reducible refine State.mapped_cpu (Prod.eta _).symm ?_) | (fail_if_no_progress (with_reducible apply State.HasCpu.other)) | split | (intro _) | (refine ih (by assumption) ?_) | (refine ih (Prod.eta _).symm ?_) | (refine State.mapped_cpu (by assumption) ?_) | (with_reducible refine State.mapped_cpu (Prod.eta _).symm ?_) | split | (intro _))

theorem State.mapRange_cpu {m0 : _} {s : State} {t : Tenant} {va n : Nat} {big wr : Bool} {mask : W64} (hs : s.HasCpu m0) : (s.mapRange t va n big wr mask).1.HasCpu m0 := by
  unfold State.mapRange
  generalize ha : s.anyMapped t va _ = r
  obtain ⟨s1, _ | _⟩ := r
  · have h1 := State.anyMapped_cpu ha hs
    dsimp only
    generalize hb : Option.bind _ _ = m
    cases m with
    | none => exact h1
    | some s2 =>
      obtain ⟨⟨ps, s3⟩, h3, h4⟩ := Option.bind_eq_some_iff.1 hb
      exact State.mapPages_cpu h4 (State.takePlaces_cpu h3 h1)
  · exact State.anyMapped_cpu ha hs


theorem State.unmapPages_cpu {m0 : _} {s : State} {t : Tenant} {big : Bool} {va : Nat} {x0 : Nat} {ret : _} {out : State} (e : State.unmapPages s t big va x0 = (out, ret)) (hs : s.HasCpu m0) : out.HasCpu m0 := by
  induction x0 generalizing s t big va ret out with
  | zero => rw [State.unmapPages] at e <;> (try dsimp only at e) <;> (repeat' split at e) <;> (try simp only [Except.ok.injEq, Option.some.injEq, Prod.mk.injEq, reduceCtorEq] at e) <;> (first | (obtain ⟨e1, e2⟩ := e; subst e1 e2) | (subst e) | skip) <;> (repeat' first | with_reducible assumption | (with_reducible refine State.HasCpu.foldl ?_ ?_) | (refine State.mapped_cpu (by assumption) ?_) | (with_reducible refine State.mapped_cpu (Prod.eta _).symm ?_) | (fail_if_no_progress (with_reducible apply State.HasCpu.other)) | split | (intro _) | (refine State.mapped_cpu (by assumption) ?_) | (with_reducible refine State.mapped_cpu (Prod.eta _).symm ?_) | split | (intro _))
  | succ _ ih => rw [State.unmapPages] at e <;> (try dsimp only at e) <;> (repeat' split at e) <;> (try simp only [Except.ok.injEq, Option.some.injEq, Prod.mk.injEq, reduceCtorEq] at e) <;> (first | (obtain ⟨e1, e2⟩ := e; subst e1 e2) | (subst e) | skip) <;> (repeat' first | with_reducible assumption | (with_reducible refine State.HasCpu.foldl ?_ ?_) | (refine State.mapped_cpu (by assumption) ?_) | (with_reducible refine State.mapped_cpu (Prod.eta _).symm ?_) | (fail_if_no_progress (with_reducible apply State.HasCpu.other)) | split | (intro _) | (refine ih (by assumption) ?_) | (refine ih (Prod.eta _).symm ?_) | (refine State.mapped_cpu (by assumption) ?_) | (with_reducible refine State.mapped_cpu (Prod.eta _).symm ?_) | split | (intro _))

theorem State.dropTable_cpu {m0 : _} {s : State} {a : Nat} {table : Nat} {size : Nat} (hs : s.HasCpu m0) : (State.dropTable s a table size).HasCpu m0 := by
  unfold State.dropTable
  try dsimp only
  (repeat' first | with_reducible assumption | (with_reducible refine State.HasCpu.foldl ?_ ?_) | (with_reducible apply State.putEntry_cpu) | (with_reducible apply State.fwStore_cpu) | (with_reducible apply State.setMoved_cpu) | (with_reducible apply State.setDpit_cpu) | (fail_if_no_progress (with_reducible apply State.HasCpu.other)) | split | (intro _))

theorem State.unmapPage_cpu {m0 : _} {s : State} {t : Tenant} {big : Bool} {va : Nat} (hs : s.HasCpu m0) : (State.unmapPage s t big va).HasCpu m0 := by
  unfold State.unmapPage
  try dsimp only
  (repeat' first | with_reducible assumption | (with_reducible refine State.HasCpu.foldl ?_ ?_) | (with_reducible apply State.dropTable_cpu) | (with_reducible apply State.putEntry_cpu) | (refine State.fwEntry_cpu (by assumption) ?_) | (with_reducible refine State.fwEntry_cpu (Prod.eta _).symm ?_) | (fail_if_no_progress (with_reducible apply State.HasCpu.other)) | split | (intro _))

theorem State.dropEntries_cpu {m0 : _} {s : State} {t : Tenant} {big : Bool} {va : Nat} {x0 : Nat} (hs : s.HasCpu m0) : (State.dropEntries s t big va x0).HasCpu m0 := by
  induction x0 generalizing s t big va with
  | zero => rw [State.dropEntries] <;> (try dsimp only) <;> (repeat' first | with_reducible assumption | (with_reducible refine State.HasCpu.foldl ?_ ?_) | (with_reducible apply State.unmapPage_cpu) | (fail_if_no_progress (with_reducible apply State.HasCpu.other)) | split | (intro _) | (with_reducible apply State.unmapPage_cpu) | split | (intro _))
  | succ _ ih => rw [State.dropEntries] <;> (try dsimp only) <;> (repeat' first | with_reducible assumption | (with_reducible refine State.HasCpu.foldl ?_ ?_) | (with_reducible apply State.unmapPage_cpu) | (fail_if_no_progress (with_reducible apply State.HasCpu.other)) | split | (intro _) | (with_reducible apply ih) | (with_reducible apply State.unmapPage_cpu) | split | (intro _))

theorem State.unmapRange_cpu {m0 : _} {s : State} {c : Command} {t : Tenant} {ps : List Nat} (hs : s.HasCpu m0) : (State.unmapRange s c t ps).HasCpu m0 := by
  unfold State.unmapRange
  try dsimp only
  (repeat' first | with_reducible assumption | (with_reducible refine State.HasCpu.foldl ?_ ?_) | (with_reducible apply State.dropEntries_cpu) | (with_reducible apply State.post_cpu) | (fail_if_no_progress (with_reducible apply State.HasCpu.other)) | split | (intro _))

theorem State.pollSettling_cpu {m0 : _} {s : State} (hs : s.HasCpu m0) : (State.pollSettling s).HasCpu m0 := by
  unfold State.pollSettling
  try dsimp only
  (repeat' first | with_reducible assumption | (with_reducible refine State.HasCpu.foldl ?_ ?_) | (with_reducible apply State.postIn_cpu) | (fail_if_no_progress (with_reducible apply State.HasCpu.other)) | split | (intro _))

theorem State.pollUnmap_cpu {m0 : _} {s : State} (hs : s.HasCpu m0) : (State.pollUnmap s).HasCpu m0 := by
  unfold State.pollUnmap
  try dsimp only
  (repeat' first | with_reducible assumption | (with_reducible refine State.HasCpu.foldl ?_ ?_) | (with_reducible apply State.pollSettling_cpu) | (with_reducible apply State.settle_cpu) | (fail_if_no_progress (with_reducible apply State.HasCpu.other)) | split | (intro _))

theorem State.register_cpu {m0 : _} {s : State} {tenant : Nat} {num : Nat} {block : W64} (hs : s.HasCpu m0) : (State.register s tenant num block).HasCpu m0 := by
  unfold State.register
  try dsimp only
  (repeat' first | with_reducible assumption | (with_reducible refine State.HasCpu.foldl ?_ ?_) | (with_reducible apply State.postIn_cpu) | (refine State.fwRead_cpu (by assumption) ?_) | (with_reducible refine State.fwRead_cpu (Prod.eta _).symm ?_) | (fail_if_no_progress (with_reducible apply State.HasCpu.other)) | split | (intro _))

theorem State.fwBytes_cpu {m0 : _} {s : State} {tenant : Nat} {a : W64} {x0 : Nat} {ret : _} {out : State} (e : State.fwBytes s tenant a x0 = (ret, out)) (hs : s.HasCpu m0) : out.HasCpu m0 := by
  induction x0 generalizing s tenant a ret out with
  | zero => rw [State.fwBytes] at e <;> (try dsimp only at e) <;> (repeat' split at e) <;> (try simp only [Except.ok.injEq, Option.some.injEq, Prod.mk.injEq, reduceCtorEq] at e) <;> (first | (obtain ⟨e1, e2⟩ := e; subst e1 e2) | (subst e) | skip) <;> (repeat' first | with_reducible assumption | (with_reducible refine State.HasCpu.foldl ?_ ?_) | (refine State.fwLook_cpu (by assumption) ?_) | (with_reducible refine State.fwLook_cpu (Prod.eta _).symm ?_) | (fail_if_no_progress (with_reducible apply State.HasCpu.other)) | split | (intro _) | (refine State.fwLook_cpu (by assumption) ?_) | (with_reducible refine State.fwLook_cpu (Prod.eta _).symm ?_) | split | (intro _))
  | succ _ ih => rw [State.fwBytes] at e <;> (try dsimp only at e) <;> (repeat' split at e) <;> (try simp only [Except.ok.injEq, Option.some.injEq, Prod.mk.injEq, reduceCtorEq] at e) <;> (first | (obtain ⟨e1, e2⟩ := e; subst e1 e2) | (subst e) | skip) <;> (repeat' first | with_reducible assumption | (with_reducible refine State.HasCpu.foldl ?_ ?_) | (refine State.fwLook_cpu (by assumption) ?_) | (with_reducible refine State.fwLook_cpu (Prod.eta _).symm ?_) | (fail_if_no_progress (with_reducible apply State.HasCpu.other)) | split | (intro _) | (refine ih (by assumption) ?_) | (refine ih (Prod.eta _).symm ?_) | (refine State.fwLook_cpu (by assumption) ?_) | (with_reducible refine State.fwLook_cpu (Prod.eta _).symm ?_) | split | (intro _))

theorem State.stopRouters_cpu {m0 : _} {s : State} {on : Nat → Bool} (hs : s.HasCpu m0) : (s.stopRouters on).HasCpu m0 := by
  unfold State.stopRouters
  dsimp only
  refine State.HasCpu.foldl (fun s st h => State.HasCpu.foldl (fun s e h => ?_) h) (State.HasCpu.other hs)
  split
  · exact State.emit_cpu h
  · split
    · exact h
    · exact State.post_cpu h


theorem State.stopRecord_cpu {m0 : _} {s : State} {tenant : Nat} {cause : Nat} {die : Nat} {cores : List Nat} (hs : s.HasCpu m0) : (State.stopRecord s tenant cause die cores).HasCpu m0 := by
  unfold State.stopRecord
  try dsimp only
  (repeat' first | with_reducible assumption | (with_reducible refine State.HasCpu.foldl ?_ ?_) | (with_reducible apply State.bermRecord_cpu) | (refine State.openRecord_cpu (by assumption) ?_) | (with_reducible refine State.openRecord_cpu (Prod.eta _).symm ?_) | (fail_if_no_progress (with_reducible apply State.HasCpu.other)) | split | (intro _))

theorem State.stopRecords_cpu {m0 : _} {s : State} {t : Tenant} {cause : Nat} (hs : s.HasCpu m0) : (State.stopRecords s t cause).HasCpu m0 := by
  unfold State.stopRecords
  try dsimp only
  (repeat' first | with_reducible assumption | (with_reducible refine State.HasCpu.foldl ?_ ?_) | (with_reducible apply State.stopRecord_cpu) | (fail_if_no_progress (with_reducible apply State.HasCpu.other)) | split | (intro _))

theorem State.cancelAll_cpu {m0 : _} {s : State} {t : Tenant} {ws : List FwWait} {ret : _} {out : State} (e : State.cancelAll s t ws = (out, ret)) (hs : s.HasCpu m0) : out.HasCpu m0 := by
  unfold State.cancelAll at e
  try dsimp only at e
  (repeat' split at e) <;> (try simp only [Except.ok.injEq, Option.some.injEq, Prod.mk.injEq, reduceCtorEq] at e) <;> (first | (obtain ⟨e1, e2⟩ := e; subst e1 e2) | (subst e) | skip) <;> (repeat' first | with_reducible assumption | (with_reducible refine State.HasCpu.foldl ?_ ?_) | (with_reducible apply State.updObj_cpu) | (with_reducible apply State.advanceCounter_cpu) | (with_reducible apply State.updLaunch_cpu) | (fail_if_no_progress (with_reducible apply State.HasCpu.other)) | split | (intro _))

theorem State.overheat_cpu {m0 : _} {s : State} {die : Nat} {celsius : Nat} (hs : s.HasCpu m0) : (State.overheat s die celsius).HasCpu m0 := by
  unfold State.overheat
  try dsimp only
  (repeat' first | with_reducible assumption | (with_reducible refine State.HasCpu.foldl ?_ ?_) | (with_reducible apply State.fatalRecord_cpu) | (with_reducible apply State.event_cpu) | (with_reducible apply State.updDie_cpu) | (refine State.openRecord_cpu (by assumption) ?_) | (with_reducible refine State.openRecord_cpu (Prod.eta _).symm ?_) | (fail_if_no_progress (with_reducible apply State.HasCpu.other)) | split | (intro _))

theorem State.watch_cpu {m0 : _} {s : State} (hs : s.HasCpu m0) : (State.watch s).HasCpu m0 := by
  unfold State.watch
  try dsimp only
  (repeat' first | with_reducible assumption | (with_reducible refine State.HasCpu.foldl ?_ ?_) | (with_reducible apply State.postIn_cpu) | (fail_if_no_progress (with_reducible apply State.HasCpu.other)) | split | (intro _))

theorem State.postHeld_cpu {m0 : _} {s : State} {core : Nat} {held : List Item} (hs : s.HasCpu m0) : (State.postHeld s core held).HasCpu m0 := by
  unfold State.postHeld
  try dsimp only
  (repeat' first | with_reducible assumption | (with_reducible refine State.HasCpu.foldl ?_ ?_) | (fail_if_no_progress (with_reducible apply State.HasCpu.other)) | split | (intro _))

theorem State.startProbes_cpu {m0 : _} {s : State} (hs : s.HasCpu m0) : (State.startProbes s).HasCpu m0 := by
  unfold State.startProbes
  try dsimp only
  (repeat' first | with_reducible assumption | (with_reducible refine State.HasCpu.foldl ?_ ?_) | (with_reducible apply State.postIn_cpu) | (fail_if_no_progress (with_reducible apply State.HasCpu.other)) | split | (intro _))

theorem State.noPeer_cpu {m0 : _} {s : State} {r : Request} (hs : s.HasCpu m0) : (State.noPeer s r).HasCpu m0 := by
  unfold State.noPeer
  try dsimp only
  (repeat' first | with_reducible assumption | (with_reducible refine State.HasCpu.foldl ?_ ?_) | (with_reducible apply State.post_cpu) | (fail_if_no_progress (with_reducible apply State.HasCpu.other)) | split | (intro _))

theorem State.prefTierFor_cpu {m0 : _} {s : State} {r : Request} {q : Requester} {pages : Nat} (hs : s.HasCpu m0) : (State.prefTierFor s r q pages).HasCpu m0 := by
  unfold State.prefTierFor
  try dsimp only
  (repeat' first | with_reducible assumption | (with_reducible refine State.HasCpu.foldl ?_ ?_) | (with_reducible apply State.emit_cpu) | (with_reducible apply State.postIn_cpu) | (refine State.promoteAll_cpu (by assumption) ?_) | (with_reducible refine State.promoteAll_cpu (Prod.eta _).symm ?_) | (refine State.prefPages_cpu (by assumption) ?_) | (with_reducible refine State.prefPages_cpu (Prod.eta _).symm ?_) | (fail_if_no_progress (with_reducible apply State.HasCpu.other)) | split | (intro _))

theorem State.takeBack_cpu {m0 : _} {s : State} {q : Requester} (hs : s.HasCpu m0) : (State.takeBack s q).HasCpu m0 := by
  unfold State.takeBack
  try dsimp only
  (repeat' first | with_reducible assumption | (with_reducible refine State.HasCpu.foldl ?_ ?_) | (with_reducible apply State.withdrawAway_cpu) | (with_reducible apply State.withdrawAll_cpu) | (fail_if_no_progress (with_reducible apply State.HasCpu.other)) | split | (intro _))

theorem State.engineWords_cpu {m0 : _} {s : State} {die : Nat} {tenant : Nat} {va : W64} {x0 : Nat} {ret : _} {out : State} (e : State.engineWords s die tenant va x0 = (out, ret)) (hs : s.HasCpu m0) : out.HasCpu m0 := by
  induction x0 generalizing s die tenant va ret out with
  | zero => rw [State.engineWords] at e <;> (try dsimp only at e) <;> (repeat' split at e) <;> (try simp only [Except.ok.injEq, Option.some.injEq, Prod.mk.injEq, reduceCtorEq] at e) <;> (first | (obtain ⟨e1, e2⟩ := e; subst e1 e2) | (subst e) | skip) <;> (repeat' first | with_reducible assumption | (with_reducible refine State.HasCpu.foldl ?_ ?_) | (refine State.engineRead_cpu (by assumption) ?_) | (with_reducible refine State.engineRead_cpu (Prod.eta _).symm ?_) | (fail_if_no_progress (with_reducible apply State.HasCpu.other)) | split | (intro _) | (refine State.engineRead_cpu (by assumption) ?_) | (with_reducible refine State.engineRead_cpu (Prod.eta _).symm ?_) | split | (intro _))
  | succ _ ih => rw [State.engineWords] at e <;> (try dsimp only at e) <;> (repeat' split at e) <;> (try simp only [Except.ok.injEq, Option.some.injEq, Prod.mk.injEq, reduceCtorEq] at e) <;> (first | (obtain ⟨e1, e2⟩ := e; subst e1 e2) | (subst e) | skip) <;> (repeat' first | with_reducible assumption | (with_reducible refine State.HasCpu.foldl ?_ ?_) | (refine State.engineRead_cpu (by assumption) ?_) | (with_reducible refine State.engineRead_cpu (Prod.eta _).symm ?_) | (fail_if_no_progress (with_reducible apply State.HasCpu.other)) | split | (intro _) | (refine ih (by assumption) ?_) | (refine ih (Prod.eta _).symm ?_) | (refine State.engineRead_cpu (by assumption) ?_) | (with_reducible refine State.engineRead_cpu (Prod.eta _).symm ?_) | split | (intro _))

theorem State.blocksFor_cpu {m0 : _} {s : State} {r : Request} {q : Requester} {h : LossyHead} {xfer : Nat} (hs : s.HasCpu m0) : (State.blocksFor s r q h xfer).HasCpu m0 := by
  unfold State.blocksFor
  try dsimp only
  (repeat' first | with_reducible assumption | (with_reducible refine State.HasCpu.foldl ?_ ?_) | (with_reducible apply State.sendBlocks_cpu) | (with_reducible apply State.emit_cpu) | (refine State.engineWords_cpu (by assumption) ?_) | (with_reducible refine State.engineWords_cpu (Prod.eta _).symm ?_) | (fail_if_no_progress (with_reducible apply State.HasCpu.other)) | split | (intro _))

theorem State.enter_cpu {m0 : _} {s : State} {r : Request} {st : Nat} (hs : s.HasCpu m0) : (State.enter s r st).HasCpu m0 := by
  unfold State.enter
  try dsimp only
  (repeat' first | with_reducible assumption | (with_reducible refine State.HasCpu.foldl ?_ ?_) | (with_reducible apply State.post_cpu) | (refine State.newRid_cpu (by assumption) ?_) | (with_reducible refine State.newRid_cpu (Prod.eta _).symm ?_) | (fail_if_no_progress (with_reducible apply State.HasCpu.other)) | split | (intro _))

theorem State.setDpmap_cpu {m0 : _} {s : State} {k : Nat} {f : W64 → W64} (hs : s.HasCpu m0) : (State.setDpmap s k f).HasCpu m0 := by
  unfold State.setDpmap
  try dsimp only
  (repeat' first | with_reducible assumption | (with_reducible refine State.HasCpu.foldl ?_ ?_) | (fail_if_no_progress (with_reducible apply State.HasCpu.other)) | split | (intro _))

theorem State.probe_cpu {m0 : _} {s : State} {phys : Nat} (hs : s.HasCpu m0) : (State.probe s phys).HasCpu m0 := by
  unfold State.probe
  try dsimp only
  (repeat' first | with_reducible assumption | (with_reducible refine State.HasCpu.foldl ?_ ?_) | (with_reducible apply State.emit_cpu) | (with_reducible apply State.postIn_cpu) | (fail_if_no_progress (with_reducible apply State.HasCpu.other)) | split | (intro _))

theorem State.refuseRdma_cpu {m0 : _} {s : State} {m : RdmaMsg} (hs : s.HasCpu m0) : (State.refuseRdma s m).HasCpu m0 := by
  unfold State.refuseRdma
  try dsimp only
  (repeat' first | with_reducible assumption | (with_reducible refine State.HasCpu.foldl ?_ ?_) | (with_reducible apply State.event_cpu) | (with_reducible apply State.emit_cpu) | (fail_if_no_progress (with_reducible apply State.HasCpu.other)) | split | (intro _))

theorem State.readForHost_cpu {m0 : _} {s : State} {die : Nat} {tenant : Nat} {a : W64} {n : Nat} {ret : _} {out : State} (e : State.readForHost s die tenant a n = (ret, out)) (hs : s.HasCpu m0) : out.HasCpu m0 := by
  unfold State.readForHost at e
  try dsimp only at e
  (repeat' split at e) <;> (try simp only [Except.ok.injEq, Option.some.injEq, Prod.mk.injEq, reduceCtorEq] at e) <;> (first | (obtain ⟨e1, e2⟩ := e; subst e1 e2) | (subst e) | skip) <;> (repeat' first | with_reducible assumption | (with_reducible refine State.HasCpu.foldl ?_ ?_) | (with_reducible apply State.open_cpu) | (refine State.xlat_cpu (by assumption) ?_) | (with_reducible refine State.xlat_cpu (Prod.eta _).symm ?_) | (fail_if_no_progress (with_reducible apply State.HasCpu.other)) | split | (intro _))

theorem State.readAllForHost_cpu {m0 : _} {s : State} {die : Nat} {tenant : Nat} {x0 : List (W64 × Nat × Nat)} {ret : _} {out : State} (e : State.readAllForHost s die tenant x0 = (ret, out)) (hs : s.HasCpu m0) : out.HasCpu m0 := by
  induction x0 generalizing s die tenant ret out with
  | nil => rw [State.readAllForHost] at e <;> (try dsimp only at e) <;> (repeat' split at e) <;> (try simp only [Except.ok.injEq, Option.some.injEq, Prod.mk.injEq, reduceCtorEq] at e) <;> (first | (obtain ⟨e1, e2⟩ := e; subst e1 e2) | (subst e) | skip) <;> (repeat' first | with_reducible assumption | (with_reducible refine State.HasCpu.foldl ?_ ?_) | (refine State.readForHost_cpu (by assumption) ?_) | (with_reducible refine State.readForHost_cpu (Prod.eta _).symm ?_) | (fail_if_no_progress (with_reducible apply State.HasCpu.other)) | split | (intro _) | (refine State.readForHost_cpu (by assumption) ?_) | (with_reducible refine State.readForHost_cpu (Prod.eta _).symm ?_) | split | (intro _))
  | cons _ _ ih => rw [State.readAllForHost] at e <;> (try dsimp only at e) <;> (repeat' split at e) <;> (try simp only [Except.ok.injEq, Option.some.injEq, Prod.mk.injEq, reduceCtorEq] at e) <;> (first | (obtain ⟨e1, e2⟩ := e; subst e1 e2) | (subst e) | skip) <;> (repeat' first | with_reducible assumption | (with_reducible refine State.HasCpu.foldl ?_ ?_) | (refine State.readForHost_cpu (by assumption) ?_) | (with_reducible refine State.readForHost_cpu (Prod.eta _).symm ?_) | (fail_if_no_progress (with_reducible apply State.HasCpu.other)) | split | (intro _) | (refine ih (by assumption) ?_) | (refine ih (Prod.eta _).symm ?_) | (refine State.readForHost_cpu (by assumption) ?_) | (with_reducible refine State.readForHost_cpu (Prod.eta _).symm ?_) | split | (intro _))

theorem State.writeEvent_cpu {m0 : _} {s : State} {t : Tenant} {r : EventRec} (hs : s.HasCpu m0) : (State.writeEvent s t r).HasCpu m0 := by
  unfold State.writeEvent
  try dsimp only
  (repeat' first | with_reducible assumption | (with_reducible refine State.HasCpu.foldl ?_ ?_) | (with_reducible apply State.updTenant_cpu) | (with_reducible apply State.emit_cpu) | (fail_if_no_progress (with_reducible apply State.HasCpu.other)) | split | (intro _))

theorem State.ringRoom_cpu {m0 : _} {s : State} {t : Tenant} {ret : _} {out : State} (e : State.ringRoom s t = (out, ret)) (hs : s.HasCpu m0) : out.HasCpu m0 := by
  unfold State.ringRoom at e
  try dsimp only at e
  (repeat' split at e) <;> (try simp only [Except.ok.injEq, Option.some.injEq, Prod.mk.injEq, reduceCtorEq] at e) <;> (first | (obtain ⟨e1, e2⟩ := e; subst e1 e2) | (subst e) | skip) <;> (repeat' first | with_reducible assumption | (with_reducible refine State.HasCpu.foldl ?_ ?_) | (with_reducible apply State.open_cpu) | (refine State.xlat_cpu (by assumption) ?_) | (with_reducible refine State.xlat_cpu (Prod.eta _).symm ?_) | (fail_if_no_progress (with_reducible apply State.HasCpu.other)) | split | (intro _))

theorem State.writeEvents_cpu {m0 : _} {s : State} {tenant : Nat} {room : Nat} {x0 : Nat} {ret : _} {out : State} (e : State.writeEvents s tenant room x0 = (out, ret)) (hs : s.HasCpu m0) : out.HasCpu m0 := by
  induction x0 generalizing s tenant room ret out with
  | zero => rw [State.writeEvents] at e <;> (try dsimp only at e) <;> (repeat' split at e) <;> (try simp only [Except.ok.injEq, Option.some.injEq, Prod.mk.injEq, reduceCtorEq] at e) <;> (first | (obtain ⟨e1, e2⟩ := e; subst e1 e2) | (subst e) | skip) <;> (repeat' first | with_reducible assumption | (with_reducible refine State.HasCpu.foldl ?_ ?_) | (with_reducible apply State.writeEvent_cpu) | (fail_if_no_progress (with_reducible apply State.HasCpu.other)) | split | (intro _) | (with_reducible apply State.writeEvent_cpu) | split | (intro _))
  | succ _ ih => rw [State.writeEvents] at e <;> (try dsimp only at e) <;> (repeat' split at e) <;> (try simp only [Except.ok.injEq, Option.some.injEq, Prod.mk.injEq, reduceCtorEq] at e) <;> (first | (obtain ⟨e1, e2⟩ := e; subst e1 e2) | (subst e) | skip) <;> (repeat' first | with_reducible assumption | (with_reducible refine State.HasCpu.foldl ?_ ?_) | (with_reducible apply State.writeEvent_cpu) | (fail_if_no_progress (with_reducible apply State.HasCpu.other)) | split | (intro _) | (refine ih (by assumption) ?_) | (refine ih (Prod.eta _).symm ?_) | (with_reducible apply State.writeEvent_cpu) | split | (intro _))

theorem State.serveRing_cpu {m0 : _} {s : State} {t : Tenant} (hs : s.HasCpu m0) : (State.serveRing s t).HasCpu m0 := by
  unfold State.serveRing
  try dsimp only
  (repeat' first | with_reducible assumption | (with_reducible refine State.HasCpu.foldl ?_ ?_) | (with_reducible apply State.updTenant_cpu) | (refine State.writeEvents_cpu (by assumption) ?_) | (with_reducible refine State.writeEvents_cpu (Prod.eta _).symm ?_) | (refine State.ringRoom_cpu (by assumption) ?_) | (with_reducible refine State.ringRoom_cpu (Prod.eta _).symm ?_) | (fail_if_no_progress (with_reducible apply State.HasCpu.other)) | split | (intro _))

theorem State.retireInBank_cpu {m0 : _} {s : State} {die : Nat} {bank : Nat} {n : Nat} (hs : s.HasCpu m0) : (State.retireInBank s die bank n).HasCpu m0 := by
  unfold State.retireInBank
  try dsimp only
  (repeat' first | with_reducible assumption | (with_reducible refine State.HasCpu.foldl ?_ ?_) | (with_reducible apply State.post_cpu) | (fail_if_no_progress (with_reducible apply State.HasCpu.other)) | split | (intro _))

theorem State.wbFault_cpu {m0 : _} {s : State} {cl : Nat} (hs : s.HasCpu m0) : (State.wbFault s cl).HasCpu m0 := by
  unfold State.wbFault
  try dsimp only
  (repeat' first | with_reducible assumption | (with_reducible refine State.HasCpu.foldl ?_ ?_) | (with_reducible apply State.fatalRecord_cpu) | (refine State.openRecord_cpu (by assumption) ?_) | (with_reducible refine State.openRecord_cpu (Prod.eta _).symm ?_) | (fail_if_no_progress (with_reducible apply State.HasCpu.other)) | split | (intro _))

theorem State.writeRemap_cpu {m0 : _} {s : State} {tenant : Nat} {index : Nat} {v : W64} (hs : s.HasCpu m0) : (State.writeRemap s tenant index v).HasCpu m0 := by
  unfold State.writeRemap
  try dsimp only
  (repeat' first | with_reducible assumption | (with_reducible refine State.HasCpu.foldl ?_ ?_) | (with_reducible apply State.updTenant_cpu) | (fail_if_no_progress (with_reducible apply State.HasCpu.other)) | split | (intro _))

end Sys2Proof.Machine
end

