-- ==== Sys2Proof/Laws/Perform.lean ====
section
/-!
SUPPORT. What the shared operations of instructions do: the checks in their order, and the four outcomes of an instruction.
-/

namespace Sys2Proof.Machine

open Sys2Proof

/-! ### The first check that does not pass -/

@[simp] theorem Check.first_nil : Check.first [] = .ok := rfl
@[simp] theorem Check.first_ok (cs : List Check) : Check.first (.ok :: cs) = Check.first cs := rfl
@[simp] theorem Check.first_skip (cs : List Check) : Check.first (.skip :: cs) = .skip := rfl
@[simp] theorem Check.first_trap (n : Nat) (a : W64) (cs : List Check) : Check.first (.trap n a :: cs) = .trap n a := rfl
@[simp] theorem Check.first_park (p : Park) (cs : List Check) : Check.first (.park p :: cs) = .park p := rfl

theorem Check.first_eq_ok {cs : List Check} : Check.first cs = .ok ↔ ∀ c ∈ cs, c = .ok := by
  induction cs with
  | nil => simp
  | cons c cs ih => cases c <;> simp [ih]

@[simp] theorem Check.need_eq_ok {b : Bool} {n : Nat} {a : W64} : Check.need b n a = .ok ↔ b = true := by
  cases b <;> simp [Check.need]
@[simp] theorem Check.need_true {n : Nat} {a : W64} : Check.need true n a = .ok := rfl
@[simp] theorem Check.need_false {n : Nat} {a : W64} : Check.need false n a = .trap n a := rfl

/-! ### The outcomes of an instruction (spec/20 R393) -/

theorem State.perform_ok {s : State} {cs : List Check} {f : State → State} (h : ∀ c ∈ cs, c = .ok) : s.perform cs f = .next (f s) := by
  unfold State.perform
  rw [Check.first_eq_ok.2 h]
theorem State.perform_trap {s : State} {cs : List Check} {f : State → State} {n : Nat} {a : W64} (h : Check.first cs = .trap n a) :
    s.perform cs f = .next (s.raise n a) := by
  unfold State.perform
  rw [h]
theorem State.perform_park {s : State} {cs : List Check} {f : State → State} {p : Park} (h : Check.first cs = .park p) :
    s.perform cs f = .next (s.parkOn p) := by
  unfold State.perform
  rw [h]
theorem State.perform_skip {s : State} {cs : List Check} {f : State → State} (h : Check.first cs = .skip) : s.perform cs f = .next s.next := by
  unfold State.perform
  rw [h]

/-! ### Checks that pass -/

theorem State.has_mem {s : State} {rs : List Nat} (h : s.has rs = true) {r : Nat} (hr : r ∈ rs) : r < s.cur.count ∧ s.emptyAt s.gid r = false := by
  have := List.all_eq_true.1 h r hr
  simpa using this
theorem State.has_sub {s : State} {rs qs : List Nat} (h : s.has rs = true) (hq : ∀ q ∈ qs, q ∈ rs) : s.has qs = true :=
  List.all_eq_true.2 fun q m => List.all_eq_true.1 h q (hq q m)
theorem State.chkAllot_ok {s : State} {rs qs : List Nat} (h : s.has rs = true) (hq : ∀ q ∈ qs, q ∈ rs) : s.chkAllot qs = .ok := by
  simp only [State.chkAllot, Check.need_eq_ok, List.all_eq_true, decide_eq_true_eq]
  exact fun q m => (State.has_mem h (hq q m)).1
theorem State.chkFull_ok {s : State} {rs qs : List Nat} (h : s.has rs = true) (hq : ∀ q ∈ qs, q ∈ rs) : s.chkFull qs = .ok := by
  unfold State.chkFull
  rw [List.find?_eq_none.2 fun q m => by simp [(State.has_mem h (hq q m)).2]]
theorem State.chkDest_ok {s : State} {rs qs : List Nat} (h : s.has rs = true) (hq : ∀ q ∈ qs, q ∈ rs) : s.chkDest qs = .ok := by
  simp only [State.chkDest, Check.need_eq_ok, List.all_eq_true]
  exact fun q m => by simp [(State.has_mem h (hq q m)).2]

/-- An instruction on registers alone has its effect when its registers are allotted and full. -/
theorem State.registerOp_ok {s : State} {srcs dsts : List (BitVec 7)} {f : State → State} (h : s.usable (dsts ++ srcs) = true) :
    s.registerOp srcs dsts f = .next (f s).next := by
  unfold State.registerOp
  refine State.perform_ok ?_
  intro c hc
  simp only [List.mem_cons, List.not_mem_nil, or_false] at hc
  rcases hc with rfl | rfl | rfl
  · exact State.chkAllot_ok h fun q m => m
  · exact State.chkFull_ok h fun q m => by simp only [nums, List.map_append, List.mem_append] at m ⊢; exact Or.inr m
  · exact State.chkDest_ok h fun q m => by simp only [nums, List.map_append, List.mem_append] at m ⊢; exact Or.inl m

/-- Checks on a global address that pass. -/
theorem State.globalChecks_ok {s : State} {named srcs dsts rs : List Nat} {a : W64} {w : Nat} (h : s.has rs = true) (ha : s.goodAddr a w = true)
    (h1 : ∀ q ∈ named, q ∈ rs) (h2 : ∀ q ∈ srcs, q ∈ rs) (h3 : ∀ q ∈ dsts, q ∈ rs) : ∀ c ∈ s.globalChecks named srcs dsts a w, c = .ok := by
  simp only [State.goodAddr, Bool.and_eq_true, decide_eq_true_eq, Bool.not_eq_true'] at ha
  intro c hc
  simp only [State.globalChecks, List.mem_cons, List.not_mem_nil, or_false] at hc
  rcases hc with rfl | rfl | rfl | rfl | rfl
  · exact State.chkAllot_ok h h1
  · exact State.chkFull_ok h h2
  · simp [chkAddr, ha.1]
  · exact State.chkDest_ok h h3
  · simp [State.chkPeer, ha.2]

end Sys2Proof.Machine
end

