-- ==== Sys2Proof/Laws/Forms.lean ====
section
/-!
SUPPORT. What each instruction form does where its checks pass.
-/

namespace Sys2Proof.Machine

open Sys2Proof

/-! ### Scalar forms -/

theorem State.binary_ok {s : State} {f : RegFmt} {g : W64 → W64 → W64} (h : s.usable (f.d :: f.a :: regB f.b f.lit) = true) :
    s.binary f g = .next (s.writeReg f.d (g (s.reg f.a) (s.opB f.b f.lit))).next :=
  State.registerOp_ok (dsts := [f.d]) (srcs := f.a :: regB f.b f.lit) h
theorem State.unary_ok {s : State} {f : RegFmt} {g : W64 → W64} (h : s.usable [f.d, f.a] = true) :
    s.unary f g = .next (s.writeReg f.d (g (s.reg f.a))).next := State.registerOp_ok (dsts := [f.d]) (srcs := [f.a]) h
theorem State.immediate_ok {s : State} {f : ImmFmt} {g : W64 → W64 → W64} (h : s.usable [f.d, f.a] = true) :
    s.immediate f g = .next (s.writeReg f.d (g (s.reg f.a) (immValue f.imm f.lit))).next := State.registerOp_ok (dsts := [f.d]) (srcs := [f.a]) h
theorem State.compare_ok {s : State} {f : CmpFmt} {g : W64 → W64 → Bool} (h : s.usable (f.a :: regB f.b f.lit) = true) :
    s.compare f g = .next (s.updCur fun c => c.setPred f.q (g (s.reg f.a) (s.opB f.b f.lit))).next :=
  State.registerOp_ok (dsts := []) (srcs := f.a :: regB f.b f.lit) h
theorem State.fpBinary_ok {s : State} {f : RegFmt} {g : Nat → Nat → Nat × Flags} (h : s.usable (f.d :: f.a :: regB f.b f.lit) = true) :
    s.fpBinary f g = .next (s.writeFp f.d (g (low32 (s.reg f.a)) (low32 (s.opB f.b f.lit)))).next :=
  State.registerOp_ok (dsts := [f.d]) (srcs := f.a :: regB f.b f.lit) h
theorem State.fpUnary_ok {s : State} {f : RegFmt} {g : Nat → Nat × Flags} (h : s.usable [f.d, f.a] = true) :
    s.fpUnary f g = .next (s.writeFp f.d (g (low32 (s.reg f.a)))).next := State.registerOp_ok (dsts := [f.d]) (srcs := [f.a]) h

/-! ### Requests -/

theorem State.gmLoad_ok {s : State} {f : GmFmt} {kind : ReqKind} {w : Nat} (h : s.usable [f.d, f.a] = true) (ha : s.goodAddr (s.gmAddr f) w = true) :
    s.gmLoad f kind w = .next (s.issueRequest kind (s.gmAddr f) 0 0 f.ord f.scope (.reg f.d.toNat) none) := by
  unfold State.gmLoad
  exact State.perform_ok (State.globalChecks_ok h ha (by simp [nums]) (by simp [nums]) (by simp [nums]))
theorem State.gmStore_ok {s : State} {f : GmFmt} {kind : ReqKind} {w : Nat} (h : s.usable [f.d, f.a] = true) (ha : s.goodAddr (s.gmAddr f) w = true) :
    s.gmStore f kind w = .next (s.issueRequest kind (s.gmAddr f) (s.reg f.d) 0 f.ord f.scope .ack none) := by
  unfold State.gmStore
  exact State.perform_ok (State.globalChecks_ok h ha (by simp [nums]) (by simp [nums]) (by simp))
theorem State.wordRequest_ok {s : State} {f : ReqFmt} {kind : ReqKind} {op : Bool} (h : s.usable (f.d :: f.a :: reqSrc op f) = true)
    (ha : s.goodAddr (s.reg f.a) 8 = true) :
    s.wordRequest f kind op =
      .next (s.issueRequest kind (s.reg f.a) (if op then s.reqOperand f else 0) 0 (reqOrd f) (reqScope f) (.reg f.d.toNat) none) := by
  unfold State.wordRequest
  exact State.perform_ok (State.globalChecks_ok h ha (fun q m => m) (fun q m => List.mem_cons_of_mem _ m) (by simp [nums]))
theorem State.tryRequest_ok {s : State} {f : ReqFmt} {kind : ReqKind} {op : Bool}
    (h : s.has (f.d.toNat :: (f.d.toNat + 1) :: f.a.toNat :: nums (reqSrc op f)) = true) (ha : s.goodAddr (s.reg f.a) 8 = true) :
    s.tryRequest f kind op =
      .next (s.issueRequest kind (s.reg f.a) (if op then s.reqOperand f else 0) 0 (reqOrd f) (reqScope f) (.pair f.d.toNat) none) := by
  unfold State.tryRequest
  exact State.perform_ok (State.globalChecks_ok h ha (by simp [nums]; tauto) (by simp [nums]; tauto) (by simp))
theorem State.barRequest_ok {s : State} {f : ReqFmt} {kind : ReqKind} {merge : Bool} (h : s.usable (f.d :: f.a :: reqSrc true f) = true)
    (ha : s.goodAddr (s.reg f.a) 8 = true) :
    s.barRequest f kind merge = .next (s.issueRequest kind (s.reg f.a) (s.barOperand f) 0 (reqOrd f) (reqScope f)
      (if merge && bit (s.reqOperand f) 16 then .regFlags f.d.toNat else .reg f.d.toNat) none) := by
  unfold State.barRequest
  exact State.perform_ok (State.globalChecks_ok h ha (fun q m => m) (fun q m => List.mem_cons_of_mem _ m) (by simp [nums]))

/-! ### Vector forms -/

theorem State.chkAlign_ok {s : State} {p : RowPtr} (h : p.off s.cur % 32 = 0) : s.chkAlign p = .ok := by simp [State.chkAlign, h]
theorem State.chkLines_ok {s : State} {ls : List Nat} (h : s.linesFull ls = true) : s.chkLines ls = .ok := by
  unfold State.chkLines
  unfold State.linesFull at h
  cases e : s.emptyLine s.here ls with
  | none => rfl
  | some l => rw [e] at h; exact nomatch h
theorem State.chkPred_ok {s : State} {q : BitVec 3} {neg : Bool} (h : s.allows q neg = true) : s.chkPred q neg = .ok := by
  unfold State.chkPred
  unfold State.allows at h
  simp [h]

end Sys2Proof.Machine
end

