-- ==== Sys2Proof/Laws/MemoryKept.lean ====
section
/-!
SUPPORT. A program's instruction leaves global memory as it is: what it does there is done by the slices, later.
-/

namespace Sys2Proof.Machine

open Sys2Proof

set_option linter.unusedTactic false
set_option linter.unreachableTactic false
set_option linter.unusedSimpArgs false
set_option linter.unnecessarySeqFocus false

/-- Global memory is `m`, but for bits in error in the trap queues. -/
def State.HasMem (m : Mem) (s : State) : Prop := m.keeps s.mem
theorem State.hasMem_self (s : State) : s.HasMem s.mem := ⟨rfl, fun _ _ => ⟨rfl, rfl⟩⟩
theorem State.HasMem.other {m : Mem} {s : State} (h : s.HasMem m) {cpu : Cpu} {sluice : Sluices} {eng : Engines} {dies : Sparse Die} {fw : Firmware} {fab : Fabric}
    {boot : Boot} {sched : Sched} : State.HasMem m ⟨cpu, s.mem, sluice, eng, dies, fw, fab, boot, sched⟩ := h
theorem State.HasMem.foldl {m : Mem} {α : Type} {g : State → α → State} (hg : ∀ s a, s.HasMem m → (g s a).HasMem m) {s : State} (h : s.HasMem m) {l : List α} :
    (l.foldl g s).HasMem m := by
  induction l generalizing s with
  | nil => exact h
  | cons a l ih => exact ih (hg s a h)
/-- Where an outcome is a next state, its memory is `m`. -/
def OutHasMem (m : Mem) (r : Host.Outcome State Fault Refusal) : Prop := ∀ t, r = .next t → t.HasMem m
theorem OutHasMem.next {m : Mem} {s : State} (h : s.HasMem m) : OutHasMem m (.next s) := fun _ e => by cases e; exact h
theorem OutHasMem.fault {m : Mem} {f : Fault} : OutHasMem m (.fault f) := fun _ e => nomatch e
theorem OutHasMem.refused {m : Mem} {f : Refusal} : OutHasMem m (.refused f) := fun _ e => nomatch e
theorem State.id_mem {m : Mem} {s : State} (h : s.HasMem m) : (id s).HasMem m := h
theorem State.setCtx_mem {m : Mem} {s : State} (h : s.HasMem m) {g : Nat} {c : Ctx} : (s.setCtx g c).HasMem m := h
theorem State.updCore_mem {m : Mem} {s : State} (h : s.HasMem m) {k : Nat} {f : Core → Core} : (s.updCore k f).HasMem m := h
theorem State.updDie_mem {m : Mem} {s : State} (h : s.HasMem m) {k : Nat} {f : Die → Die} : (s.updDie k f).HasMem m := h
theorem State.setPhys_mem {m : Mem} {s : State} (h : s.HasMem m) {k : Nat} {v : W64} : (s.setPhys k v).HasMem m := h
theorem State.setEmpty_mem {m : Mem} {s : State} (h : s.HasMem m) {k : Nat} {e : Bool} : (s.setEmpty k e).HasMem m := h
theorem State.setAb_mem {m : Mem} {s : State} (h : s.HasMem m) {c o : Nat} {bs : List Byte} : (s.setAb c o bs).HasMem m := h
theorem State.setPs_mem {m : Mem} {s : State} (h : s.HasMem m) {c o : Nat} {bs : List Byte} : (s.setPs c o bs).HasMem m := h
theorem State.setLine_mem {m : Mem} {s : State} (h : s.HasMem m) {c l : Nat} {os : List Nat} : (s.setLine c l os).HasMem m := h

theorem State.updCtx_mem {m : Mem} {s : State} {gid : Nat} {f : Ctx → Ctx} (hs : s.HasMem m) : (State.updCtx s gid f).HasMem m := by
  unfold State.updCtx
  try dsimp only
  (repeat' first | with_reducible assumption | (with_reducible refine State.HasMem.foldl ?_ ?_) | (with_reducible apply State.setCtx_mem) | (fail_if_no_progress (with_reducible apply State.HasMem.other)) | split | (intro _))

theorem State.updCur_mem {m : Mem} {s : State} {f : Ctx → Ctx} (hs : s.HasMem m) : (State.updCur s f).HasMem m := by
  unfold State.updCur
  try dsimp only
  (repeat' first | with_reducible assumption | (with_reducible refine State.HasMem.foldl ?_ ?_) | (with_reducible apply State.updCtx_mem) | (fail_if_no_progress (with_reducible apply State.HasMem.other)) | split | (intro _))

theorem State.setRegAt_mem {m : Mem} {s : State} {gid : Nat} {n : Nat} {v : W64} (hs : s.HasMem m) : (State.setRegAt s gid n v).HasMem m := by
  unfold State.setRegAt
  try dsimp only
  (repeat' first | with_reducible assumption | (with_reducible refine State.HasMem.foldl ?_ ?_) | (with_reducible apply State.setPhys_mem) | (fail_if_no_progress (with_reducible apply State.HasMem.other)) | split | (intro _))

theorem State.writeReg_mem {m : Mem} {s : State} {n : BitVec 7} {v : W64} (hs : s.HasMem m) : (State.writeReg s n v).HasMem m := by
  unfold State.writeReg
  try dsimp only
  (repeat' first | with_reducible assumption | (with_reducible refine State.HasMem.foldl ?_ ?_) | (with_reducible apply State.setRegAt_mem) | (fail_if_no_progress (with_reducible apply State.HasMem.other)) | split | (intro _))

theorem State.markEmpty_mem {m : Mem} {s : State} {gid : Nat} {n : Nat} (hs : s.HasMem m) : (State.markEmpty s gid n).HasMem m := by
  unfold State.markEmpty
  try dsimp only
  (repeat' first | with_reducible assumption | (with_reducible refine State.HasMem.foldl ?_ ?_) | (with_reducible apply State.setEmpty_mem) | (fail_if_no_progress (with_reducible apply State.HasMem.other)) | split | (intro _))

theorem State.orFlags_mem {m : Mem} {s : State} {gid : Nat} {fl : BitVec 5} (hs : s.HasMem m) : (State.orFlags s gid fl).HasMem m := by
  unfold State.orFlags
  try dsimp only
  (repeat' first | with_reducible assumption | (with_reducible refine State.HasMem.foldl ?_ ?_) | (with_reducible apply State.updCtx_mem) | (fail_if_no_progress (with_reducible apply State.HasMem.other)) | split | (intro _))

theorem State.emptyLines_mem {m : Mem} {s : State} {core : Nat} {op : Nat} {ls : List Nat} (hs : s.HasMem m) : (State.emptyLines s core op ls).HasMem m := by
  unfold State.emptyLines
  try dsimp only
  (repeat' first | with_reducible assumption | (with_reducible refine State.HasMem.foldl ?_ ?_) | (with_reducible apply State.setLine_mem) | (fail_if_no_progress (with_reducible apply State.HasMem.other)) | split | (intro _))

theorem State.postIn_mem {m : Mem} {s : State} {d : Nat} {ev : Instr} (hs : s.HasMem m) : (State.postIn s d ev).HasMem m := by
  unfold State.postIn
  try dsimp only
  (repeat' first | with_reducible assumption | (with_reducible refine State.HasMem.foldl ?_ ?_) | (fail_if_no_progress (with_reducible apply State.HasMem.other)) | split | (intro _))

theorem State.post_mem {m : Mem} {s : State} {ev : Instr} (hs : s.HasMem m) : (State.post s ev).HasMem m := by
  unfold State.post
  try dsimp only
  (repeat' first | with_reducible assumption | (with_reducible refine State.HasMem.foldl ?_ ?_) | (with_reducible apply State.postIn_mem) | (fail_if_no_progress (with_reducible apply State.HasMem.other)) | split | (intro _))

theorem State.postAll_mem {m : Mem} {s : State} {evs : List Instr} (hs : s.HasMem m) : (State.postAll s evs).HasMem m := by
  unfold State.postAll
  try dsimp only
  (repeat' first | with_reducible assumption | (with_reducible refine State.HasMem.foldl ?_ ?_) | (with_reducible apply State.post_mem) | (fail_if_no_progress (with_reducible apply State.HasMem.other)) | split | (intro _))

theorem State.emit_mem {m : Mem} {s : State} {o : Outward} (hs : s.HasMem m) : (State.emit s o).HasMem m := by
  unfold State.emit
  try dsimp only
  (repeat' first | with_reducible assumption | (with_reducible refine State.HasMem.foldl ?_ ?_) | (fail_if_no_progress (with_reducible apply State.HasMem.other)) | split | (intro _))

theorem State.newRid_mem {m : Mem} {s : State} {ret : _} {out : State} (e : State.newRid s = (ret, out)) (hs : s.HasMem m) : out.HasMem m := by
  unfold State.newRid at e
  try dsimp only at e
  (repeat' split at e) <;> (try simp only [Except.ok.injEq, Option.some.injEq, Prod.mk.injEq, reduceCtorEq] at e) <;> (first | (obtain ⟨e1, e2⟩ := e; subst e1 e2) | (subst e) | skip) <;> (repeat' first | with_reducible assumption | (with_reducible refine State.HasMem.foldl ?_ ?_) | (fail_if_no_progress (with_reducible apply State.HasMem.other)) | split | (intro _))

theorem State.newTag_mem {m : Mem} {s : State} {ret : _} {out : State} (e : State.newTag s = (ret, out)) (hs : s.HasMem m) : out.HasMem m := by
  unfold State.newTag at e
  try dsimp only at e
  (repeat' split at e) <;> (try simp only [Except.ok.injEq, Option.some.injEq, Prod.mk.injEq, reduceCtorEq] at e) <;> (first | (obtain ⟨e1, e2⟩ := e; subst e1 e2) | (subst e) | skip) <;> (repeat' first | with_reducible assumption | (with_reducible refine State.HasMem.foldl ?_ ?_) | (fail_if_no_progress (with_reducible apply State.HasMem.other)) | split | (intro _))

theorem State.newGen_mem {m : Mem} {s : State} {ret : _} {out : State} (e : State.newGen s = (ret, out)) (hs : s.HasMem m) : out.HasMem m := by
  unfold State.newGen at e
  try dsimp only at e
  (repeat' split at e) <;> (try simp only [Except.ok.injEq, Option.some.injEq, Prod.mk.injEq, reduceCtorEq] at e) <;> (first | (obtain ⟨e1, e2⟩ := e; subst e1 e2) | (subst e) | skip) <;> (repeat' first | with_reducible assumption | (with_reducible refine State.HasMem.foldl ?_ ?_) | (fail_if_no_progress (with_reducible apply State.HasMem.other)) | split | (intro _))

theorem State.updTenant_mem {m : Mem} {s : State} {t : Nat} {f : Tenant → Tenant} (hs : s.HasMem m) : (State.updTenant s t f).HasMem m := by
  unfold State.updTenant
  try dsimp only
  (repeat' first | with_reducible assumption | (with_reducible refine State.HasMem.foldl ?_ ?_) | (fail_if_no_progress (with_reducible apply State.HasMem.other)) | split | (intro _))

theorem State.updOp_mem {m : Mem} {s : State} {id : Nat} {f : EngOp → EngOp} (hs : s.HasMem m) : (State.updOp s id f).HasMem m := by
  unfold State.updOp
  try dsimp only
  (repeat' first | with_reducible assumption | (with_reducible refine State.HasMem.foldl ?_ ?_) | (with_reducible apply State.id_mem) | (fail_if_no_progress (with_reducible apply State.HasMem.other)) | split | (intro _))

theorem State.dropOp_mem {m : Mem} {s : State} {id : Nat} (hs : s.HasMem m) : (State.dropOp s id).HasMem m := by
  unfold State.dropOp
  try dsimp only
  (repeat' first | with_reducible assumption | (with_reducible refine State.HasMem.foldl ?_ ?_) | (with_reducible apply State.id_mem) | (fail_if_no_progress (with_reducible apply State.HasMem.other)) | split | (intro _))

theorem State.updLaunch_mem {m : Mem} {s : State} {lid : Nat} {f : Launch → Launch} (hs : s.HasMem m) : (State.updLaunch s lid f).HasMem m := by
  unfold State.updLaunch
  try dsimp only
  (repeat' first | with_reducible assumption | (with_reducible refine State.HasMem.foldl ?_ ?_) | (fail_if_no_progress (with_reducible apply State.HasMem.other)) | split | (intro _))

theorem State.startOne_mem {m : Mem} {s : State} {gid : Nat} {base : Nat} {n : Nat} {pc : W64} {seeds : List W64} {work : Work} {id : Ident} (hs : s.HasMem m) : (State.startOne s gid base n pc seeds work id).HasMem m := by
  unfold State.startOne
  try dsimp only
  (repeat' first | with_reducible assumption | (with_reducible refine State.HasMem.foldl ?_ ?_) | (with_reducible apply State.setCtx_mem) | (refine State.newGen_mem (by assumption) ?_) | (with_reducible refine State.newGen_mem (Prod.eta _).symm ?_) | (fail_if_no_progress (with_reducible apply State.HasMem.other)) | split | (intro _))

theorem State.startCtx_mem {m : Mem} {s : State} {gid : Nat} {base : Nat} {n : Nat} {pc : W64} {seeds : List W64} {work : Work} {id : Ident} (hs : s.HasMem m) : (State.startCtx s gid base n pc seeds work id).HasMem m := by
  unfold State.startCtx
  try dsimp only
  (repeat' first | with_reducible assumption | (with_reducible refine State.HasMem.foldl ?_ ?_) | (with_reducible apply State.id_mem) | (with_reducible apply State.startOne_mem) | (fail_if_no_progress (with_reducible apply State.HasMem.other)) | split | (intro _))

theorem State.event_mem {m : Mem} {s : State} {tenant : Nat} {kind : Nat} {ctr : W64} {statusw : W64} {detail : List W64} (hs : s.HasMem m) : (State.event s tenant kind ctr statusw detail).HasMem m := by
  unfold State.event
  try dsimp only
  (repeat' first | with_reducible assumption | (with_reducible refine State.HasMem.foldl ?_ ?_) | (with_reducible apply State.updTenant_mem) | (with_reducible apply State.post_mem) | (fail_if_no_progress (with_reducible apply State.HasMem.other)) | split | (intro _))

theorem State.firewallDrop_mem {m : Mem} {s : State} (hs : s.HasMem m) : (State.firewallDrop s).HasMem m := by
  unfold State.firewallDrop
  try dsimp only
  (repeat' first | with_reducible assumption | (with_reducible refine State.HasMem.foldl ?_ ?_) | (with_reducible apply State.event_mem) | (fail_if_no_progress (with_reducible apply State.HasMem.other)) | split | (intro _))

theorem State.cross_mem {m : Mem} {s : State} {into : Bool} {cls : Nat} {dp : Nat} {f : State → State} (hs : s.HasMem m) (hf : ∀ a0, a0.HasMem m → (f a0).HasMem m) : (State.cross s into cls dp f).HasMem m := by
  unfold State.cross
  try dsimp only
  (repeat' first | with_reducible assumption | (with_reducible refine State.HasMem.foldl ?_ ?_) | (with_reducible apply hf) | (with_reducible apply State.firewallDrop_mem) | (fail_if_no_progress (with_reducible apply State.HasMem.other)) | split | (intro _))

theorem State.fwPost_mem {m : Mem} {s : State} {r : Request} (hs : s.HasMem m) : (State.fwPost s r).HasMem m := by
  unfold State.fwPost
  try dsimp only
  (repeat' first | with_reducible assumption | (with_reducible refine State.HasMem.foldl ?_ ?_) | (with_reducible apply State.firewallDrop_mem) | (with_reducible apply State.post_mem) | (fail_if_no_progress (with_reducible apply State.HasMem.other)) | split | (intro _))

theorem State.agentPost_mem {m : Mem} {s : State} {unit : Option Nat} {r : Request} (hs : s.HasMem m) : (State.agentPost s unit r).HasMem m := by
  unfold State.agentPost
  try dsimp only
  (repeat' first | with_reducible assumption | (with_reducible refine State.HasMem.foldl ?_ ?_) | (with_reducible apply State.fwPost_mem) | (with_reducible apply State.post_mem) | (fail_if_no_progress (with_reducible apply State.HasMem.other)) | split | (intro _))

theorem State.advanceBy_mem {m : Mem} {s : State} {unit : Option Nat} {tenant : Nat} {ctr : W64} {status : W64} (hs : s.HasMem m) : (State.advanceBy s unit tenant ctr status).HasMem m := by
  unfold State.advanceBy
  try dsimp only
  (repeat' first | with_reducible assumption | (with_reducible refine State.HasMem.foldl ?_ ?_) | (with_reducible apply State.agentPost_mem) | (with_reducible apply State.post_mem) | (refine State.newTag_mem (by assumption) ?_) | (with_reducible refine State.newTag_mem (Prod.eta _).symm ?_) | (fail_if_no_progress (with_reducible apply State.HasMem.other)) | split | (intro _))

theorem State.advanceRetire_mem {m : Mem} {s : State} {die : Nat} {tenant : Nat} {ctr : W64} (hs : s.HasMem m) : (State.advanceRetire s die tenant ctr).HasMem m := by
  unfold State.advanceRetire
  try dsimp only
  (repeat' first | with_reducible assumption | (with_reducible refine State.HasMem.foldl ?_ ?_) | (with_reducible apply State.agentPost_mem) | (with_reducible apply State.post_mem) | (refine State.newTag_mem (by assumption) ?_) | (with_reducible refine State.newTag_mem (Prod.eta _).symm ?_) | (fail_if_no_progress (with_reducible apply State.HasMem.other)) | split | (intro _))

theorem State.unpark_mem {m : Mem} {s : State} {p : Parked} (hs : s.HasMem m) : (State.unpark s p).HasMem m := by
  unfold State.unpark
  try dsimp only
  (repeat' first | with_reducible assumption | (with_reducible refine State.HasMem.foldl ?_ ?_) | (with_reducible apply State.post_mem) | (fail_if_no_progress (with_reducible apply State.HasMem.other)) | split | (intro _))

theorem State.withdrawAway_mem {m : Mem} {s : State} {f : Request → Bool} (hs : s.HasMem m) : (State.withdrawAway s f).HasMem m := by
  unfold State.withdrawAway
  try dsimp only
  (repeat' first | with_reducible assumption | (with_reducible refine State.HasMem.foldl ?_ ?_) | (with_reducible apply State.emit_mem) | (fail_if_no_progress (with_reducible apply State.HasMem.other)) | split | (intro _))

theorem State.idleReport_mem {m : Mem} {s : State} {tenant : Nat} (hs : s.HasMem m) : (State.idleReport s tenant).HasMem m := by
  unfold State.idleReport
  try dsimp only
  (repeat' first | with_reducible assumption | (with_reducible refine State.HasMem.foldl ?_ ?_) | (with_reducible apply State.cross_mem) | (with_reducible apply State.updTenant_mem) | (with_reducible apply State.post_mem) | (with_reducible apply State.postIn_mem) | (fail_if_no_progress (with_reducible apply State.HasMem.other)) | split | (intro _))

theorem State.checkLaunch_mem {m : Mem} {s : State} {unit : Option Nat} {lid : Nat} (hs : s.HasMem m) : (State.checkLaunch s unit lid).HasMem m := by
  unfold State.checkLaunch
  try dsimp only
  (repeat' first | with_reducible assumption | (with_reducible refine State.HasMem.foldl ?_ ?_) | (with_reducible apply State.advanceBy_mem) | (with_reducible apply State.updLaunch_mem) | (with_reducible apply State.post_mem) | (fail_if_no_progress (with_reducible apply State.HasMem.other)) | split | (intro _))

theorem State.liveUp_mem {m : Mem} {s : State} {lid : Option Nat} {n : Nat} (hs : s.HasMem m) : (State.liveUp s lid n).HasMem m := by
  unfold State.liveUp
  try dsimp only
  (repeat' first | with_reducible assumption | (with_reducible refine State.HasMem.foldl ?_ ?_) | (with_reducible apply State.updLaunch_mem) | (fail_if_no_progress (with_reducible apply State.HasMem.other)) | split | (intro _))

theorem State.liveDown_mem {m : Mem} {s : State} {die : Nat} {c : Ctx} {how : EndKind} (hs : s.HasMem m) : (State.liveDown s die c how).HasMem m := by
  unfold State.liveDown
  try dsimp only
  (repeat' first | with_reducible assumption | (with_reducible refine State.HasMem.foldl ?_ ?_) | (with_reducible apply State.checkLaunch_mem) | (with_reducible apply State.advanceRetire_mem) | (with_reducible apply State.updLaunch_mem) | (fail_if_no_progress (with_reducible apply State.HasMem.other)) | split | (intro _))

theorem State.fireTriggers_mem {m : Mem} {s : State} {gid : Nat} {gen : Nat} (hs : s.HasMem m) : (State.fireTriggers s gid gen).HasMem m := by
  unfold State.fireTriggers
  try dsimp only
  (repeat' first | with_reducible assumption | (with_reducible refine State.HasMem.foldl ?_ ?_) | (with_reducible apply State.id_mem) | (with_reducible apply State.withdrawAway_mem) | (with_reducible apply State.unpark_mem) | (with_reducible apply State.updOp_mem) | (with_reducible apply State.post_mem) | (fail_if_no_progress (with_reducible apply State.HasMem.other)) | split | (intro _))

theorem State.nowIdle_mem {m : Mem} {s : State} {gid : Nat} (hs : s.HasMem m) : (State.nowIdle s gid).HasMem m := by
  unfold State.nowIdle
  try dsimp only
  (repeat' first | with_reducible assumption | (with_reducible refine State.HasMem.foldl ?_ ?_) | (with_reducible apply State.idleReport_mem) | (with_reducible apply State.postAll_mem) | (with_reducible apply State.post_mem) | (fail_if_no_progress (with_reducible apply State.HasMem.other)) | split | (intro _))

theorem State.dropUnsent_mem {m : Mem} {s : State} {gid : Nat} (hs : s.HasMem m) : (State.dropUnsent s gid).HasMem m := by
  unfold State.dropUnsent
  try dsimp only
  (repeat' first | with_reducible assumption | (with_reducible refine State.HasMem.foldl ?_ ?_) | (with_reducible apply State.id_mem) | (with_reducible apply State.postAll_mem) | (with_reducible apply State.updCore_mem) | (fail_if_no_progress (with_reducible apply State.HasMem.other)) | split | (intro _))

theorem State.toIdle_mem {m : Mem} {s : State} {gid : Nat} (hs : s.HasMem m) : (State.toIdle s gid).HasMem m := by
  unfold State.toIdle
  try dsimp only
  (repeat' first | with_reducible assumption | (with_reducible refine State.HasMem.foldl ?_ ?_) | (with_reducible apply State.nowIdle_mem) | (with_reducible apply State.setCtx_mem) | (fail_if_no_progress (with_reducible apply State.HasMem.other)) | split | (intro _))

theorem State.answerReaped_mem {m : Mem} {s : State} {gid : Nat} (hs : s.HasMem m) : (State.answerReaped s gid).HasMem m := by
  unfold State.answerReaped
  try dsimp only
  (repeat' first | with_reducible assumption | (with_reducible refine State.HasMem.foldl ?_ ?_) | (with_reducible apply State.post_mem) | (fail_if_no_progress (with_reducible apply State.HasMem.other)) | split | (intro _))

theorem State.endWork_mem {m : Mem} {s : State} {gid : Nat} {how : EndKind} (hs : s.HasMem m) : (State.endWork s gid how).HasMem m := by
  unfold State.endWork
  try dsimp only
  (repeat' first | with_reducible assumption | (with_reducible refine State.HasMem.foldl ?_ ?_) | (with_reducible apply State.answerReaped_mem) | (with_reducible apply State.toIdle_mem) | (with_reducible apply State.dropUnsent_mem) | (with_reducible apply State.fireTriggers_mem) | (with_reducible apply State.liveDown_mem) | (fail_if_no_progress (with_reducible apply State.HasMem.other)) | split | (intro _))

theorem State.recruitFrom_mem {m : Mem} {s : State} {core : Nat} {regs : Nat} {pc : W64} {id : Ident} {x0 : Nat} {x1 : List Nat} {ret : _} {out : State} (e : State.recruitFrom s core regs pc id x0 x1 = (out, ret)) (hs : s.HasMem m) : out.HasMem m := by
  induction x0 generalizing s core regs pc id x1 ret out with
  | zero => rw [State.recruitFrom] at e <;> (try dsimp only at e) <;> (repeat' split at e) <;> (try simp only [Except.ok.injEq, Option.some.injEq, Prod.mk.injEq, reduceCtorEq] at e) <;> (first | (obtain ⟨e1, e2⟩ := e; subst e1 e2) | (subst e) | skip) <;> (repeat' first | with_reducible assumption | (with_reducible refine State.HasMem.foldl ?_ ?_) | (with_reducible apply State.id_mem) | (with_reducible apply State.startCtx_mem) | (fail_if_no_progress (with_reducible apply State.HasMem.other)) | split | (intro _) | (with_reducible apply State.startCtx_mem) | split | (intro _))
  | succ _ ih => rw [State.recruitFrom] at e <;> (try dsimp only at e) <;> (repeat' split at e) <;> (try simp only [Except.ok.injEq, Option.some.injEq, Prod.mk.injEq, reduceCtorEq] at e) <;> (first | (obtain ⟨e1, e2⟩ := e; subst e1 e2) | (subst e) | skip) <;> (repeat' first | with_reducible assumption | (with_reducible refine State.HasMem.foldl ?_ ?_) | (with_reducible apply State.id_mem) | (with_reducible apply State.startCtx_mem) | (fail_if_no_progress (with_reducible apply State.HasMem.other)) | split | (intro _) | (refine ih (by assumption) ?_) | (refine ih (Prod.eta _).symm ?_) | (with_reducible apply State.startCtx_mem) | split | (intro _))

theorem State.recruit_mem {m : Mem} {s : State} {tenant : Nat} {regs : Nat} {want : Nat} {pc : W64} {id : Ident} {x0 : List Nat} {x1 : List Nat} {ret : _} {out : State} (e : State.recruit s tenant regs want pc id x0 x1 = (out, ret)) (hs : s.HasMem m) : out.HasMem m := by
  induction x0 generalizing s tenant regs want pc id x1 ret out with
  | nil => rw [State.recruit] at e <;> (try dsimp only at e) <;> (repeat' split at e) <;> (try simp only [Except.ok.injEq, Option.some.injEq, Prod.mk.injEq, reduceCtorEq] at e) <;> (first | (obtain ⟨e1, e2⟩ := e; subst e1 e2) | (subst e) | skip) <;> (repeat' first | with_reducible assumption | (with_reducible refine State.HasMem.foldl ?_ ?_) | (with_reducible apply State.id_mem) | (refine State.recruitFrom_mem (by assumption) ?_) | (with_reducible refine State.recruitFrom_mem (Prod.eta _).symm ?_) | (fail_if_no_progress (with_reducible apply State.HasMem.other)) | split | (intro _) | (refine State.recruitFrom_mem (by assumption) ?_) | (with_reducible refine State.recruitFrom_mem (Prod.eta _).symm ?_) | split | (intro _))
  | cons _ _ ih => rw [State.recruit] at e <;> (try dsimp only at e) <;> (repeat' split at e) <;> (try simp only [Except.ok.injEq, Option.some.injEq, Prod.mk.injEq, reduceCtorEq] at e) <;> (first | (obtain ⟨e1, e2⟩ := e; subst e1 e2) | (subst e) | skip) <;> (repeat' first | with_reducible assumption | (with_reducible refine State.HasMem.foldl ?_ ?_) | (with_reducible apply State.id_mem) | (refine State.recruitFrom_mem (by assumption) ?_) | (with_reducible refine State.recruitFrom_mem (Prod.eta _).symm ?_) | (fail_if_no_progress (with_reducible apply State.HasMem.other)) | split | (intro _) | (refine ih (by assumption) ?_) | (refine ih (Prod.eta _).symm ?_) | (refine State.recruitFrom_mem (by assumption) ?_) | (with_reducible refine State.recruitFrom_mem (Prod.eta _).symm ?_) | split | (intro _))

theorem State.setBoth_mem {m : Mem} {s : State} {gid : Nat} {n : Nat} {v : W64} (hs : s.HasMem m) : (State.setBoth s gid n v).HasMem m := by
  unfold State.setBoth
  try dsimp only
  (repeat' first | with_reducible assumption | (with_reducible refine State.HasMem.foldl ?_ ?_) | (with_reducible apply State.setRegAt_mem) | (fail_if_no_progress (with_reducible apply State.HasMem.other)) | split | (intro _))

theorem State.giveRange_mem {m : Mem} {s : State} {gid : Nat} {t : Nat} {p : Nat} {i : Nat} {h : W64} (hs : s.HasMem m) : (State.giveRange s gid t p i h).HasMem m := by
  unfold State.giveRange
  try dsimp only
  (repeat' first | with_reducible assumption | (with_reducible refine State.HasMem.foldl ?_ ?_) | (with_reducible apply State.setBoth_mem) | (fail_if_no_progress (with_reducible apply State.HasMem.other)) | split | (intro _))

theorem State.forkGo_mem {m : Mem} {s : State} {gid : Nat} {link : W64} {body : W64} (hs : s.HasMem m) : (State.forkGo s gid link body).HasMem m := by
  unfold State.forkGo
  try dsimp only
  (repeat' first | with_reducible assumption | (with_reducible refine State.HasMem.foldl ?_ ?_) | (with_reducible apply State.updCtx_mem) | (fail_if_no_progress (with_reducible apply State.HasMem.other)) | split | (intro _))

theorem State.forkAlone_mem {m : Mem} {s : State} {gid : Nat} {t : Nat} {body : W64} {cont : W64} (hs : s.HasMem m) : (State.forkAlone s gid t body cont).HasMem m := by
  unfold State.forkAlone
  try dsimp only
  (repeat' first | with_reducible assumption | (with_reducible refine State.HasMem.foldl ?_ ?_) | (with_reducible apply State.forkGo_mem) | (with_reducible apply State.setBoth_mem) | (fail_if_no_progress (with_reducible apply State.HasMem.other)) | split | (intro _))

theorem State.forkOut_mem {m : Mem} {s : State} {gid t want : Nat} {body cont : W64} (hs : s.HasMem m) : (s.forkOut gid t want body cont).HasMem m := by
  unfold State.forkOut
  dsimp only
  split
  · exact State.forkAlone_mem hs
  · generalize e : s.recruit _ _ _ _ _ _ _ = r
    obtain ⟨s', got⟩ := r
    dsimp only
    split
    · exact State.forkAlone_mem hs
    · exact State.forkGo_mem (State.giveRange_mem (State.HasMem.foldl (fun _ _ h => State.giveRange_mem h)
        (State.updDie_mem (State.liveUp_mem (State.recruit_mem e hs)))))


/-- Words of a slot of a trap queue are put right. -/
theorem State.clearUpsets_mem {m : Mem} {s : State} {die : Nat} {n : W64} {l : List Nat} (hl : ∀ a ∈ l, a ∈ trapWords die n) (hs : s.HasMem m) :
    (l.foldl State.clearUpset s).HasMem m := by
  induction l generalizing s with
  | nil => exact hs
  | cons a l ih =>
    refine ih (fun b hb => hl b (List.mem_cons_of_mem _ hb)) ⟨?_, fun b hb => ?_⟩
    · exact congrArg (fun n : Mem => { n with upsets := spSet 0 s.mem.upsets a 0, copyUpsets := spSet 0 s.mem.copyUpsets a 0 }) hs.1
    · have hne : b ≠ a := fun e => hb die n (e ▸ hl a (List.mem_cons_self ..))
      exact ⟨(spGet_spSet_apart hne).trans (hs.2 b hb).1, (spGet_spSet_apart hne).trans (hs.2 b hb).2⟩

theorem State.writeRecord_mem {m : Mem} {s : State} {die : Nat} {t : TrapRec} (hs : s.HasMem m) : (s.writeRecord die t).HasMem m := by
  have h : ((trapWords die (s.die die).w).foldl State.clearUpset s).HasMem m := State.clearUpsets_mem (fun _ h => h) hs
  unfold State.writeRecord
  generalize (trapWords die (s.die die).w).foldl State.clearUpset s = s1 at h ⊢
  dsimp only
  split
  · exact State.event_mem (State.updDie_mem h)
  · exact State.updDie_mem h

theorem State.bermRecord_mem {m : Mem} {s : State} {die : Nat} {t : TrapRec} (hs : s.HasMem m) : (State.bermRecord s die t).HasMem m := by
  unfold State.bermRecord
  try dsimp only
  (repeat' first | with_reducible assumption | (with_reducible refine State.HasMem.foldl ?_ ?_) | (with_reducible apply State.writeRecord_mem) | (with_reducible apply State.event_mem) | (with_reducible apply State.updDie_mem) | (fail_if_no_progress (with_reducible apply State.HasMem.other)) | split | (intro _))

theorem State.fatalRecord_mem {m : Mem} {s : State} {die : Nat} {t : TrapRec} (hs : s.HasMem m) : (State.fatalRecord s die t).HasMem m := by
  unfold State.fatalRecord
  try dsimp only
  (repeat' first | with_reducible assumption | (with_reducible refine State.HasMem.foldl ?_ ?_) | (with_reducible apply State.bermRecord_mem) | (with_reducible apply State.post_mem) | (fail_if_no_progress (with_reducible apply State.HasMem.other)) | split | (intro _))

theorem State.enterHandler_mem {m : Mem} {s : State} {core : Nat} {t : TrapRec} (hs : s.HasMem m) : (State.enterHandler s core t).HasMem m := by
  unfold State.enterHandler
  try dsimp only
  (repeat' first | with_reducible assumption | (with_reducible refine State.HasMem.foldl ?_ ?_) | (with_reducible apply State.endWork_mem) | (with_reducible apply State.updCore_mem) | (with_reducible apply State.setCtx_mem) | (fail_if_no_progress (with_reducible apply State.HasMem.other)) | split | (intro _))

theorem State.enterPending_mem {m : Mem} {s : State} {core : Nat} {x0 : Nat} (hs : s.HasMem m) : (State.enterPending s core x0).HasMem m := by
  induction x0 generalizing s core with
  | zero => rw [State.enterPending] <;> (try dsimp only) <;> (repeat' first | with_reducible assumption | (with_reducible refine State.HasMem.foldl ?_ ?_) | (with_reducible apply State.enterHandler_mem) | (with_reducible apply State.updCore_mem) | (fail_if_no_progress (with_reducible apply State.HasMem.other)) | split | (intro _) | (with_reducible apply State.enterHandler_mem) | (with_reducible apply State.updCore_mem) | split | (intro _))
  | succ _ ih => rw [State.enterPending] <;> (try dsimp only) <;> (repeat' first | with_reducible assumption | (with_reducible refine State.HasMem.foldl ?_ ?_) | (with_reducible apply State.enterHandler_mem) | (with_reducible apply State.updCore_mem) | (fail_if_no_progress (with_reducible apply State.HasMem.other)) | split | (intro _) | (with_reducible apply ih) | (with_reducible apply State.enterHandler_mem) | (with_reducible apply State.updCore_mem) | split | (intro _))

theorem State.takeTrap_mem {m : Mem} {s : State} {gid : Nat} {cause : Nat} {sw : Nat} {addr : W64} {trapPc : W64} {orig : W64} {iter : W64} {late : Bool} (hs : s.HasMem m) : (State.takeTrap s gid cause sw addr trapPc orig iter late).HasMem m := by
  unfold State.takeTrap
  try dsimp only
  (repeat' first | with_reducible assumption | (with_reducible refine State.HasMem.foldl ?_ ?_) | (with_reducible apply State.enterPending_mem) | (with_reducible apply State.fatalRecord_mem) | (with_reducible apply State.writeRecord_mem) | (with_reducible apply State.post_mem) | (with_reducible apply State.updCore_mem) | (with_reducible apply State.setCtx_mem) | (fail_if_no_progress (with_reducible apply State.HasMem.other)) | split | (intro _))

theorem State.raiseSw_mem {m : Mem} {s : State} {cause : Nat} {sw : Nat} {addr : W64} {trapPc : W64} (hs : s.HasMem m) : (State.raiseSw s cause sw addr trapPc).HasMem m := by
  unfold State.raiseSw
  try dsimp only
  (repeat' first | with_reducible assumption | (with_reducible refine State.HasMem.foldl ?_ ?_) | (with_reducible apply State.takeTrap_mem) | (with_reducible apply State.post_mem) | (with_reducible apply State.updCur_mem) | (fail_if_no_progress (with_reducible apply State.HasMem.other)) | split | (intro _))

theorem State.raise_mem {m : Mem} {s : State} {cause : Nat} {addr : W64} (hs : s.HasMem m) : (State.raise s cause addr).HasMem m := by
  unfold State.raise
  try dsimp only
  (repeat' first | with_reducible assumption | (with_reducible refine State.HasMem.foldl ?_ ?_) | (with_reducible apply State.raiseSw_mem) | (fail_if_no_progress (with_reducible apply State.HasMem.other)) | split | (intro _))

theorem State.fireGranted_mem {m : Mem} {s : State} {gid : Nat} (hs : s.HasMem m) : (State.fireGranted s gid).HasMem m := by
  unfold State.fireGranted
  try dsimp only
  (repeat' first | with_reducible assumption | (with_reducible refine State.HasMem.foldl ?_ ?_) | (with_reducible apply State.id_mem) | (with_reducible apply State.postAll_mem) | (fail_if_no_progress (with_reducible apply State.HasMem.other)) | split | (intro _))

theorem State.resume_mem {m : Mem} {s : State} {gid : Nat} (hs : s.HasMem m) : (s.resume gid).HasMem m := by
  unfold State.resume
  dsimp only
  with_reducible apply State.fireGranted_mem
  generalize (s.ctx gid).park = p
  cases p <;> dsimp only <;> (repeat' first | with_reducible assumption | (with_reducible apply State.setCtx_mem) | (with_reducible apply State.post_mem))


theorem State.leaveHandler_mem {m : Mem} {s : State} {core : Nat} (hs : s.HasMem m) : (s.leaveHandler core).HasMem m := by
  unfold State.leaveHandler
  dsimp only
  generalize (s.core core).savedPark = p
  cases p <;> dsimp only <;> (repeat' first | with_reducible assumption | (with_reducible apply State.setCtx_mem) | (with_reducible apply State.post_mem))


theorem State.returnFromTrap_mem {m : Mem} {s : State} {core : Nat} (hs : s.HasMem m) : (State.returnFromTrap s core).HasMem m := by
  unfold State.returnFromTrap
  try dsimp only
  (repeat' first | with_reducible assumption | (with_reducible refine State.HasMem.foldl ?_ ?_) | (with_reducible apply State.leaveHandler_mem) | (with_reducible apply State.resume_mem) | (with_reducible apply State.fireGranted_mem) | (with_reducible apply State.enterPending_mem) | (with_reducible apply State.updCtx_mem) | (with_reducible apply State.setCtx_mem) | (fail_if_no_progress (with_reducible apply State.HasMem.other)) | split | (intro _))

theorem State.next_mem {m : Mem} {s : State} (hs : s.HasMem m) : (State.next s).HasMem m := by
  unfold State.next
  try dsimp only
  (repeat' first | with_reducible assumption | (with_reducible refine State.HasMem.foldl ?_ ?_) | (with_reducible apply State.updCur_mem) | (fail_if_no_progress (with_reducible apply State.HasMem.other)) | split | (intro _))

theorem State.parkOn_mem {m : Mem} {s : State} {p : Park} (hs : s.HasMem m) : (State.parkOn s p).HasMem m := by
  unfold State.parkOn
  try dsimp only
  (repeat' first | with_reducible assumption | (with_reducible refine State.HasMem.foldl ?_ ?_) | (with_reducible apply State.updCur_mem) | (fail_if_no_progress (with_reducible apply State.HasMem.other)) | split | (intro _))

theorem State.perform_mem {m : Mem} {s : State} {cs : List Check} {effect : State → State} (hs : s.HasMem m) (heffect : ∀ a0, a0.HasMem m → (effect a0).HasMem m) : OutHasMem m (State.perform s cs effect) := by
  unfold State.perform
  try dsimp only
  (repeat' first | with_reducible assumption | (with_reducible apply OutHasMem.next) | (with_reducible exact OutHasMem.fault) | (with_reducible refine State.HasMem.foldl ?_ ?_) | (with_reducible apply heffect) | (with_reducible apply State.parkOn_mem) | (with_reducible apply State.next_mem) | (with_reducible apply State.raise_mem) | (fail_if_no_progress (with_reducible apply State.HasMem.other)) | split | (intro _))

theorem State.route_mem {m : Mem} {s : State} {r : Request} (hs : s.HasMem m) : (State.route s r).HasMem m := by
  unfold State.route
  try dsimp only
  (repeat' first | with_reducible assumption | (with_reducible refine State.HasMem.foldl ?_ ?_) | (with_reducible apply State.post_mem) | (fail_if_no_progress (with_reducible apply State.HasMem.other)) | split | (intro _))

theorem State.handOver_mem {m : Mem} {s : State} {op : Nat} (hs : s.HasMem m) : (State.handOver s op).HasMem m := by
  unfold State.handOver
  try dsimp only
  (repeat' first | with_reducible assumption | (with_reducible refine State.HasMem.foldl ?_ ?_) | (with_reducible apply State.post_mem) | (fail_if_no_progress (with_reducible apply State.HasMem.other)) | split | (intro _))

theorem State.deliver_mem {m : Mem} {s : State} {o : Outbound} (hs : s.HasMem m) : (s.deliver o).HasMem m := by
  cases o <;> unfold State.deliver <;> dsimp only
  · exact State.route_mem hs
  · exact State.post_mem hs
  · exact State.post_mem hs
  · exact State.post_mem hs
  · exact State.forkOut_mem hs
  · exact State.handOver_mem hs
  · exact State.post_mem hs


theorem State.mergeOps_mem {m : Mem} {s : State} {keep drop : Nat} (hs : s.HasMem m) : (s.mergeOps keep drop).HasMem m := State.dropOp_mem (by exact hs)

theorem State.sendPaired_mem {m : Mem} {s : State} {gid : Nat} {o : Outbound} (hs : s.HasMem m) : (State.sendPaired s gid o).HasMem m := by
  unfold State.sendPaired
  try dsimp only
  (repeat' first | with_reducible assumption | (with_reducible refine State.HasMem.foldl ?_ ?_) | (with_reducible apply State.mergeOps_mem) | (with_reducible apply State.deliver_mem) | (with_reducible apply State.post_mem) | (with_reducible apply State.postIn_mem) | (with_reducible apply State.updCore_mem) | (fail_if_no_progress (with_reducible apply State.HasMem.other)) | split | (intro _))

theorem State.sendOut_mem {m : Mem} {s : State} {gid : Nat} {o : Outbound} (hs : s.HasMem m) : (State.sendOut s gid o).HasMem m := by
  unfold State.sendOut
  try dsimp only
  (repeat' first | with_reducible assumption | (with_reducible refine State.HasMem.foldl ?_ ?_) | (with_reducible apply State.sendPaired_mem) | (with_reducible apply State.deliver_mem) | (fail_if_no_progress (with_reducible apply State.HasMem.other)) | split | (intro _))

theorem State.send_mem {m : Mem} {s : State} {r : Request} (hs : s.HasMem m) : (State.send s r).HasMem m := by
  unfold State.send
  try dsimp only
  (repeat' first | with_reducible assumption | (with_reducible refine State.HasMem.foldl ?_ ?_) | (with_reducible apply State.sendOut_mem) | (with_reducible apply State.route_mem) | (fail_if_no_progress (with_reducible apply State.HasMem.other)) | split | (intro _))

theorem State.issueRequest_mem {m : Mem} {s : State} {kind : ReqKind} {va : W64} {data : W64} {cmp : W64} {ord : BitVec 2} {scope : BitVec 4} {use : Use} {join : Option Nat} (hs : s.HasMem m) : (State.issueRequest s kind va data cmp ord scope use join).HasMem m := by
  unfold State.issueRequest
  try dsimp only
  (repeat' first | with_reducible assumption | (with_reducible refine State.HasMem.foldl ?_ ?_) | (with_reducible apply State.send_mem) | (with_reducible apply State.parkOn_mem) | (with_reducible apply State.next_mem) | (with_reducible apply State.markEmpty_mem) | (refine State.newRid_mem (by assumption) ?_) | (with_reducible refine State.newRid_mem (Prod.eta _).symm ?_) | (fail_if_no_progress (with_reducible apply State.HasMem.other)) | split | (intro _))

theorem State.retire_mem {m : Mem} {s : State} {gid : Nat} (hs : s.HasMem m) : (State.retire s gid).HasMem m := by
  unfold State.retire
  try dsimp only
  (repeat' first | with_reducible assumption | (with_reducible refine State.HasMem.foldl ?_ ?_) | (with_reducible apply State.sendOut_mem) | (with_reducible apply State.endWork_mem) | (fail_if_no_progress (with_reducible apply State.HasMem.other)) | split | (intro _))

theorem State.registerOp_mem {m : Mem} {s : State} {srcs : List (BitVec 7)} {dsts : List (BitVec 7)} {effect : State → State} (hs : s.HasMem m) (heffect : ∀ a0, a0.HasMem m → (effect a0).HasMem m) : OutHasMem m (State.registerOp s srcs dsts effect) := by
  unfold State.registerOp
  try dsimp only
  (repeat' first | with_reducible assumption | (with_reducible apply OutHasMem.next) | (with_reducible exact OutHasMem.fault) | (with_reducible refine State.HasMem.foldl ?_ ?_) | (with_reducible apply heffect) | (with_reducible apply State.perform_mem) | (with_reducible apply State.next_mem) | (fail_if_no_progress (with_reducible apply State.HasMem.other)) | split | (intro _))

theorem State.jump_mem {m : Mem} {s : State} {pc : W64} (hs : s.HasMem m) : (State.jump s pc).HasMem m := by
  unfold State.jump
  try dsimp only
  (repeat' first | with_reducible assumption | (with_reducible refine State.HasMem.foldl ?_ ?_) | (with_reducible apply State.updCur_mem) | (fail_if_no_progress (with_reducible apply State.HasMem.other)) | split | (intro _))

theorem State.link_mem {m : Mem} {s : State} (hs : s.HasMem m) : (State.link s).HasMem m := by
  unfold State.link
  try dsimp only
  (repeat' first | with_reducible assumption | (with_reducible refine State.HasMem.foldl ?_ ?_) | (with_reducible apply State.updCur_mem) | (fail_if_no_progress (with_reducible apply State.HasMem.other)) | split | (intro _))

theorem State.newOp_mem {m : Mem} {s : State} {work : OpWork} {scope : BitVec 4} {bindVa : W64} {binding : Binding} {lines : List Nat} {trig : Option Nat} {ret : _} {out : State} (e : State.newOp s work scope bindVa binding lines trig = (ret, out)) (hs : s.HasMem m) : out.HasMem m := by
  unfold State.newOp at e
  try dsimp only at e
  (repeat' split at e) <;> (try simp only [Except.ok.injEq, Option.some.injEq, Prod.mk.injEq, reduceCtorEq] at e) <;> (first | (obtain ⟨e1, e2⟩ := e; subst e1 e2) | (subst e) | skip) <;> (repeat' first | with_reducible assumption | (with_reducible refine State.HasMem.foldl ?_ ?_) | (with_reducible apply State.id_mem) | (with_reducible apply State.emptyLines_mem) | (refine State.newRid_mem (by assumption) ?_) | (with_reducible refine State.newRid_mem (Prod.eta _).symm ?_) | (fail_if_no_progress (with_reducible apply State.HasMem.other)) | split | (intro _))

theorem State.issueOp_mem {m : Mem} {s : State} {work : OpWork} {scope : BitVec 4} {bindVa : W64} {lines : List Nat} (hs : s.HasMem m) : (State.issueOp s work scope bindVa lines).HasMem m := by
  unfold State.issueOp
  try dsimp only
  (repeat' first | with_reducible assumption | (with_reducible refine State.HasMem.foldl ?_ ?_) | (with_reducible apply State.id_mem) | (with_reducible apply State.sendOut_mem) | (refine State.newOp_mem (by assumption) ?_) | (with_reducible refine State.newOp_mem (Prod.eta _).symm ?_) | (fail_if_no_progress (with_reducible apply State.HasMem.other)) | split | (intro _))

theorem State.binary_mem {m : Mem} {s : State} {f : RegFmt} {g : W64 → W64 → W64} (hs : s.HasMem m) : OutHasMem m (State.binary s f g) := by
  unfold State.binary
  try dsimp only
  (repeat' first | with_reducible assumption | (with_reducible apply OutHasMem.next) | (with_reducible exact OutHasMem.fault) | (with_reducible refine State.HasMem.foldl ?_ ?_) | (with_reducible apply State.registerOp_mem) | (with_reducible apply State.writeReg_mem) | (fail_if_no_progress (with_reducible apply State.HasMem.other)) | split | (intro _))

theorem State.unary_mem {m : Mem} {s : State} {f : RegFmt} {g : W64 → W64} (hs : s.HasMem m) : OutHasMem m (State.unary s f g) := by
  unfold State.unary
  try dsimp only
  (repeat' first | with_reducible assumption | (with_reducible apply OutHasMem.next) | (with_reducible exact OutHasMem.fault) | (with_reducible refine State.HasMem.foldl ?_ ?_) | (with_reducible apply State.registerOp_mem) | (with_reducible apply State.writeReg_mem) | (fail_if_no_progress (with_reducible apply State.HasMem.other)) | split | (intro _))

theorem State.immediate_mem {m : Mem} {s : State} {f : ImmFmt} {g : W64 → W64 → W64} (hs : s.HasMem m) : OutHasMem m (State.immediate s f g) := by
  unfold State.immediate
  try dsimp only
  (repeat' first | with_reducible assumption | (with_reducible apply OutHasMem.next) | (with_reducible exact OutHasMem.fault) | (with_reducible refine State.HasMem.foldl ?_ ?_) | (with_reducible apply State.registerOp_mem) | (with_reducible apply State.writeReg_mem) | (fail_if_no_progress (with_reducible apply State.HasMem.other)) | split | (intro _))

theorem State.compare_mem {m : Mem} {s : State} {f : CmpFmt} {g : W64 → W64 → Bool} (hs : s.HasMem m) : OutHasMem m (State.compare s f g) := by
  unfold State.compare
  try dsimp only
  (repeat' first | with_reducible assumption | (with_reducible apply OutHasMem.next) | (with_reducible exact OutHasMem.fault) | (with_reducible refine State.HasMem.foldl ?_ ?_) | (with_reducible apply State.registerOp_mem) | (with_reducible apply State.updCur_mem) | (fail_if_no_progress (with_reducible apply State.HasMem.other)) | split | (intro _))

theorem State.writeFp_mem {m : Mem} {s : State} {d : BitVec 7} {r : Nat × Flags} (hs : s.HasMem m) : (State.writeFp s d r).HasMem m := by
  unfold State.writeFp
  try dsimp only
  (repeat' first | with_reducible assumption | (with_reducible refine State.HasMem.foldl ?_ ?_) | (with_reducible apply State.orFlags_mem) | (with_reducible apply State.writeReg_mem) | (fail_if_no_progress (with_reducible apply State.HasMem.other)) | split | (intro _))

theorem State.fpBinary_mem {m : Mem} {s : State} {f : RegFmt} {g : Nat → Nat → Nat × Flags} (hs : s.HasMem m) : OutHasMem m (State.fpBinary s f g) := by
  unfold State.fpBinary
  try dsimp only
  (repeat' first | with_reducible assumption | (with_reducible apply OutHasMem.next) | (with_reducible exact OutHasMem.fault) | (with_reducible refine State.HasMem.foldl ?_ ?_) | (with_reducible apply State.writeFp_mem) | (with_reducible apply State.registerOp_mem) | (fail_if_no_progress (with_reducible apply State.HasMem.other)) | split | (intro _))

theorem State.fpUnary_mem {m : Mem} {s : State} {f : RegFmt} {g : Nat → Nat × Flags} (hs : s.HasMem m) : OutHasMem m (State.fpUnary s f g) := by
  unfold State.fpUnary
  try dsimp only
  (repeat' first | with_reducible assumption | (with_reducible apply OutHasMem.next) | (with_reducible exact OutHasMem.fault) | (with_reducible refine State.HasMem.foldl ?_ ?_) | (with_reducible apply State.writeFp_mem) | (with_reducible apply State.registerOp_mem) | (fail_if_no_progress (with_reducible apply State.HasMem.other)) | split | (intro _))

theorem State.fpCompare_mem {m : Mem} {s : State} {f : CmpFmt} {g : Nat → Nat → Bool × Flags} (hs : s.HasMem m) : OutHasMem m (State.fpCompare s f g) := by
  unfold State.fpCompare
  try dsimp only
  (repeat' first | with_reducible assumption | (with_reducible apply OutHasMem.next) | (with_reducible exact OutHasMem.fault) | (with_reducible refine State.HasMem.foldl ?_ ?_) | (with_reducible apply State.registerOp_mem) | (with_reducible apply State.orFlags_mem) | (with_reducible apply State.updCur_mem) | (fail_if_no_progress (with_reducible apply State.HasMem.other)) | split | (intro _))

theorem execAdd_mem {m : Mem} {f : RegFmt} {s : State} (hs : s.HasMem m) : OutHasMem m (execAdd f s) := by
  unfold execAdd
  try dsimp only
  (repeat' first | with_reducible assumption | (with_reducible apply OutHasMem.next) | (with_reducible exact OutHasMem.fault) | (with_reducible refine State.HasMem.foldl ?_ ?_) | (with_reducible apply State.binary_mem) | (fail_if_no_progress (with_reducible apply State.HasMem.other)) | split | (intro _))

theorem execSub_mem {m : Mem} {f : RegFmt} {s : State} (hs : s.HasMem m) : OutHasMem m (execSub f s) := by
  unfold execSub
  try dsimp only
  (repeat' first | with_reducible assumption | (with_reducible apply OutHasMem.next) | (with_reducible exact OutHasMem.fault) | (with_reducible refine State.HasMem.foldl ?_ ?_) | (with_reducible apply State.binary_mem) | (fail_if_no_progress (with_reducible apply State.HasMem.other)) | split | (intro _))

theorem execMul_mem {m : Mem} {f : RegFmt} {s : State} (hs : s.HasMem m) : OutHasMem m (execMul f s) := by
  unfold execMul
  try dsimp only
  (repeat' first | with_reducible assumption | (with_reducible apply OutHasMem.next) | (with_reducible exact OutHasMem.fault) | (with_reducible refine State.HasMem.foldl ?_ ?_) | (with_reducible apply State.binary_mem) | (fail_if_no_progress (with_reducible apply State.HasMem.other)) | split | (intro _))

theorem execMulh_mem {m : Mem} {f : RegFmt} {s : State} (hs : s.HasMem m) : OutHasMem m (execMulh f s) := by
  unfold execMulh
  try dsimp only
  (repeat' first | with_reducible assumption | (with_reducible apply OutHasMem.next) | (with_reducible exact OutHasMem.fault) | (with_reducible refine State.HasMem.foldl ?_ ?_) | (with_reducible apply State.binary_mem) | (fail_if_no_progress (with_reducible apply State.HasMem.other)) | split | (intro _))

theorem execMulhu_mem {m : Mem} {f : RegFmt} {s : State} (hs : s.HasMem m) : OutHasMem m (execMulhu f s) := by
  unfold execMulhu
  try dsimp only
  (repeat' first | with_reducible assumption | (with_reducible apply OutHasMem.next) | (with_reducible exact OutHasMem.fault) | (with_reducible refine State.HasMem.foldl ?_ ?_) | (with_reducible apply State.binary_mem) | (fail_if_no_progress (with_reducible apply State.HasMem.other)) | split | (intro _))

theorem execDiv_mem {m : Mem} {f : RegFmt} {s : State} (hs : s.HasMem m) : OutHasMem m (execDiv f s) := by
  unfold execDiv
  try dsimp only
  (repeat' first | with_reducible assumption | (with_reducible apply OutHasMem.next) | (with_reducible exact OutHasMem.fault) | (with_reducible refine State.HasMem.foldl ?_ ?_) | (with_reducible apply State.binary_mem) | (fail_if_no_progress (with_reducible apply State.HasMem.other)) | split | (intro _))

theorem execDivu_mem {m : Mem} {f : RegFmt} {s : State} (hs : s.HasMem m) : OutHasMem m (execDivu f s) := by
  unfold execDivu
  try dsimp only
  (repeat' first | with_reducible assumption | (with_reducible apply OutHasMem.next) | (with_reducible exact OutHasMem.fault) | (with_reducible refine State.HasMem.foldl ?_ ?_) | (with_reducible apply State.binary_mem) | (fail_if_no_progress (with_reducible apply State.HasMem.other)) | split | (intro _))

theorem execRem_mem {m : Mem} {f : RegFmt} {s : State} (hs : s.HasMem m) : OutHasMem m (execRem f s) := by
  unfold execRem
  try dsimp only
  (repeat' first | with_reducible assumption | (with_reducible apply OutHasMem.next) | (with_reducible exact OutHasMem.fault) | (with_reducible refine State.HasMem.foldl ?_ ?_) | (with_reducible apply State.binary_mem) | (fail_if_no_progress (with_reducible apply State.HasMem.other)) | split | (intro _))

theorem execRemu_mem {m : Mem} {f : RegFmt} {s : State} (hs : s.HasMem m) : OutHasMem m (execRemu f s) := by
  unfold execRemu
  try dsimp only
  (repeat' first | with_reducible assumption | (with_reducible apply OutHasMem.next) | (with_reducible exact OutHasMem.fault) | (with_reducible refine State.HasMem.foldl ?_ ?_) | (with_reducible apply State.binary_mem) | (fail_if_no_progress (with_reducible apply State.HasMem.other)) | split | (intro _))

theorem execAnd_mem {m : Mem} {f : RegFmt} {s : State} (hs : s.HasMem m) : OutHasMem m (execAnd f s) := by
  unfold execAnd
  try dsimp only
  (repeat' first | with_reducible assumption | (with_reducible apply OutHasMem.next) | (with_reducible exact OutHasMem.fault) | (with_reducible refine State.HasMem.foldl ?_ ?_) | (with_reducible apply State.binary_mem) | (fail_if_no_progress (with_reducible apply State.HasMem.other)) | split | (intro _))

theorem execOr_mem {m : Mem} {f : RegFmt} {s : State} (hs : s.HasMem m) : OutHasMem m (execOr f s) := by
  unfold execOr
  try dsimp only
  (repeat' first | with_reducible assumption | (with_reducible apply OutHasMem.next) | (with_reducible exact OutHasMem.fault) | (with_reducible refine State.HasMem.foldl ?_ ?_) | (with_reducible apply State.binary_mem) | (fail_if_no_progress (with_reducible apply State.HasMem.other)) | split | (intro _))

theorem execXor_mem {m : Mem} {f : RegFmt} {s : State} (hs : s.HasMem m) : OutHasMem m (execXor f s) := by
  unfold execXor
  try dsimp only
  (repeat' first | with_reducible assumption | (with_reducible apply OutHasMem.next) | (with_reducible exact OutHasMem.fault) | (with_reducible refine State.HasMem.foldl ?_ ?_) | (with_reducible apply State.binary_mem) | (fail_if_no_progress (with_reducible apply State.HasMem.other)) | split | (intro _))

theorem execAndn_mem {m : Mem} {f : RegFmt} {s : State} (hs : s.HasMem m) : OutHasMem m (execAndn f s) := by
  unfold execAndn
  try dsimp only
  (repeat' first | with_reducible assumption | (with_reducible apply OutHasMem.next) | (with_reducible exact OutHasMem.fault) | (with_reducible refine State.HasMem.foldl ?_ ?_) | (with_reducible apply State.binary_mem) | (fail_if_no_progress (with_reducible apply State.HasMem.other)) | split | (intro _))

theorem execShl_mem {m : Mem} {f : RegFmt} {s : State} (hs : s.HasMem m) : OutHasMem m (execShl f s) := by
  unfold execShl
  try dsimp only
  (repeat' first | with_reducible assumption | (with_reducible apply OutHasMem.next) | (with_reducible exact OutHasMem.fault) | (with_reducible refine State.HasMem.foldl ?_ ?_) | (with_reducible apply State.binary_mem) | (fail_if_no_progress (with_reducible apply State.HasMem.other)) | split | (intro _))

theorem execShr_mem {m : Mem} {f : RegFmt} {s : State} (hs : s.HasMem m) : OutHasMem m (execShr f s) := by
  unfold execShr
  try dsimp only
  (repeat' first | with_reducible assumption | (with_reducible apply OutHasMem.next) | (with_reducible exact OutHasMem.fault) | (with_reducible refine State.HasMem.foldl ?_ ?_) | (with_reducible apply State.binary_mem) | (fail_if_no_progress (with_reducible apply State.HasMem.other)) | split | (intro _))

theorem execSar_mem {m : Mem} {f : RegFmt} {s : State} (hs : s.HasMem m) : OutHasMem m (execSar f s) := by
  unfold execSar
  try dsimp only
  (repeat' first | with_reducible assumption | (with_reducible apply OutHasMem.next) | (with_reducible exact OutHasMem.fault) | (with_reducible refine State.HasMem.foldl ?_ ?_) | (with_reducible apply State.binary_mem) | (fail_if_no_progress (with_reducible apply State.HasMem.other)) | split | (intro _))

theorem execRol_mem {m : Mem} {f : RegFmt} {s : State} (hs : s.HasMem m) : OutHasMem m (execRol f s) := by
  unfold execRol
  try dsimp only
  (repeat' first | with_reducible assumption | (with_reducible apply OutHasMem.next) | (with_reducible exact OutHasMem.fault) | (with_reducible refine State.HasMem.foldl ?_ ?_) | (with_reducible apply State.binary_mem) | (fail_if_no_progress (with_reducible apply State.HasMem.other)) | split | (intro _))

theorem execMin_mem {m : Mem} {f : RegFmt} {s : State} (hs : s.HasMem m) : OutHasMem m (execMin f s) := by
  unfold execMin
  try dsimp only
  (repeat' first | with_reducible assumption | (with_reducible apply OutHasMem.next) | (with_reducible exact OutHasMem.fault) | (with_reducible refine State.HasMem.foldl ?_ ?_) | (with_reducible apply State.binary_mem) | (fail_if_no_progress (with_reducible apply State.HasMem.other)) | split | (intro _))

theorem execMax_mem {m : Mem} {f : RegFmt} {s : State} (hs : s.HasMem m) : OutHasMem m (execMax f s) := by
  unfold execMax
  try dsimp only
  (repeat' first | with_reducible assumption | (with_reducible apply OutHasMem.next) | (with_reducible exact OutHasMem.fault) | (with_reducible refine State.HasMem.foldl ?_ ?_) | (with_reducible apply State.binary_mem) | (fail_if_no_progress (with_reducible apply State.HasMem.other)) | split | (intro _))

theorem execMinu_mem {m : Mem} {f : RegFmt} {s : State} (hs : s.HasMem m) : OutHasMem m (execMinu f s) := by
  unfold execMinu
  try dsimp only
  (repeat' first | with_reducible assumption | (with_reducible apply OutHasMem.next) | (with_reducible exact OutHasMem.fault) | (with_reducible refine State.HasMem.foldl ?_ ?_) | (with_reducible apply State.binary_mem) | (fail_if_no_progress (with_reducible apply State.HasMem.other)) | split | (intro _))

theorem execMaxu_mem {m : Mem} {f : RegFmt} {s : State} (hs : s.HasMem m) : OutHasMem m (execMaxu f s) := by
  unfold execMaxu
  try dsimp only
  (repeat' first | with_reducible assumption | (with_reducible apply OutHasMem.next) | (with_reducible exact OutHasMem.fault) | (with_reducible refine State.HasMem.foldl ?_ ?_) | (with_reducible apply State.binary_mem) | (fail_if_no_progress (with_reducible apply State.HasMem.other)) | split | (intro _))

theorem execClz_mem {m : Mem} {f : RegFmt} {s : State} (hs : s.HasMem m) : OutHasMem m (execClz f s) := by
  unfold execClz
  try dsimp only
  (repeat' first | with_reducible assumption | (with_reducible apply OutHasMem.next) | (with_reducible exact OutHasMem.fault) | (with_reducible refine State.HasMem.foldl ?_ ?_) | (with_reducible apply State.unary_mem) | (fail_if_no_progress (with_reducible apply State.HasMem.other)) | split | (intro _))

theorem execCtz_mem {m : Mem} {f : RegFmt} {s : State} (hs : s.HasMem m) : OutHasMem m (execCtz f s) := by
  unfold execCtz
  try dsimp only
  (repeat' first | with_reducible assumption | (with_reducible apply OutHasMem.next) | (with_reducible exact OutHasMem.fault) | (with_reducible refine State.HasMem.foldl ?_ ?_) | (with_reducible apply State.unary_mem) | (fail_if_no_progress (with_reducible apply State.HasMem.other)) | split | (intro _))

theorem execPopc_mem {m : Mem} {f : RegFmt} {s : State} (hs : s.HasMem m) : OutHasMem m (execPopc f s) := by
  unfold execPopc
  try dsimp only
  (repeat' first | with_reducible assumption | (with_reducible apply OutHasMem.next) | (with_reducible exact OutHasMem.fault) | (with_reducible refine State.HasMem.foldl ?_ ?_) | (with_reducible apply State.unary_mem) | (fail_if_no_progress (with_reducible apply State.HasMem.other)) | split | (intro _))

theorem execMov_mem {m : Mem} {f : RegFmt} {s : State} (hs : s.HasMem m) : OutHasMem m (execMov f s) := by
  unfold execMov
  try dsimp only
  (repeat' first | with_reducible assumption | (with_reducible apply OutHasMem.next) | (with_reducible exact OutHasMem.fault) | (with_reducible refine State.HasMem.foldl ?_ ?_) | (with_reducible apply State.unary_mem) | (fail_if_no_progress (with_reducible apply State.HasMem.other)) | split | (intro _))

theorem execAddi_mem {m : Mem} {f : ImmFmt} {s : State} (hs : s.HasMem m) : OutHasMem m (execAddi f s) := by
  unfold execAddi
  try dsimp only
  (repeat' first | with_reducible assumption | (with_reducible apply OutHasMem.next) | (with_reducible exact OutHasMem.fault) | (with_reducible refine State.HasMem.foldl ?_ ?_) | (with_reducible apply State.immediate_mem) | (fail_if_no_progress (with_reducible apply State.HasMem.other)) | split | (intro _))

theorem execAndi_mem {m : Mem} {f : ImmFmt} {s : State} (hs : s.HasMem m) : OutHasMem m (execAndi f s) := by
  unfold execAndi
  try dsimp only
  (repeat' first | with_reducible assumption | (with_reducible apply OutHasMem.next) | (with_reducible exact OutHasMem.fault) | (with_reducible refine State.HasMem.foldl ?_ ?_) | (with_reducible apply State.immediate_mem) | (fail_if_no_progress (with_reducible apply State.HasMem.other)) | split | (intro _))

theorem execOri_mem {m : Mem} {f : ImmFmt} {s : State} (hs : s.HasMem m) : OutHasMem m (execOri f s) := by
  unfold execOri
  try dsimp only
  (repeat' first | with_reducible assumption | (with_reducible apply OutHasMem.next) | (with_reducible exact OutHasMem.fault) | (with_reducible refine State.HasMem.foldl ?_ ?_) | (with_reducible apply State.immediate_mem) | (fail_if_no_progress (with_reducible apply State.HasMem.other)) | split | (intro _))

theorem execXori_mem {m : Mem} {f : ImmFmt} {s : State} (hs : s.HasMem m) : OutHasMem m (execXori f s) := by
  unfold execXori
  try dsimp only
  (repeat' first | with_reducible assumption | (with_reducible apply OutHasMem.next) | (with_reducible exact OutHasMem.fault) | (with_reducible refine State.HasMem.foldl ?_ ?_) | (with_reducible apply State.immediate_mem) | (fail_if_no_progress (with_reducible apply State.HasMem.other)) | split | (intro _))

theorem execShli_mem {m : Mem} {f : ImmFmt} {s : State} (hs : s.HasMem m) : OutHasMem m (execShli f s) := by
  unfold execShli
  try dsimp only
  (repeat' first | with_reducible assumption | (with_reducible apply OutHasMem.next) | (with_reducible exact OutHasMem.fault) | (with_reducible refine State.HasMem.foldl ?_ ?_) | (with_reducible apply State.immediate_mem) | (fail_if_no_progress (with_reducible apply State.HasMem.other)) | split | (intro _))

theorem execShri_mem {m : Mem} {f : ImmFmt} {s : State} (hs : s.HasMem m) : OutHasMem m (execShri f s) := by
  unfold execShri
  try dsimp only
  (repeat' first | with_reducible assumption | (with_reducible apply OutHasMem.next) | (with_reducible exact OutHasMem.fault) | (with_reducible refine State.HasMem.foldl ?_ ?_) | (with_reducible apply State.immediate_mem) | (fail_if_no_progress (with_reducible apply State.HasMem.other)) | split | (intro _))

theorem execSari_mem {m : Mem} {f : ImmFmt} {s : State} (hs : s.HasMem m) : OutHasMem m (execSari f s) := by
  unfold execSari
  try dsimp only
  (repeat' first | with_reducible assumption | (with_reducible apply OutHasMem.next) | (with_reducible exact OutHasMem.fault) | (with_reducible refine State.HasMem.foldl ?_ ?_) | (with_reducible apply State.immediate_mem) | (fail_if_no_progress (with_reducible apply State.HasMem.other)) | split | (intro _))

theorem execMovi_mem {m : Mem} {f : ImmFmt} {s : State} (hs : s.HasMem m) : OutHasMem m (execMovi f s) := by
  unfold execMovi
  try dsimp only
  (repeat' first | with_reducible assumption | (with_reducible apply OutHasMem.next) | (with_reducible exact OutHasMem.fault) | (with_reducible refine State.HasMem.foldl ?_ ?_) | (with_reducible apply State.registerOp_mem) | (with_reducible apply State.writeReg_mem) | (fail_if_no_progress (with_reducible apply State.HasMem.other)) | split | (intro _))

theorem execCmpeq_mem {m : Mem} {f : CmpFmt} {s : State} (hs : s.HasMem m) : OutHasMem m (execCmpeq f s) := by
  unfold execCmpeq
  try dsimp only
  (repeat' first | with_reducible assumption | (with_reducible apply OutHasMem.next) | (with_reducible exact OutHasMem.fault) | (with_reducible refine State.HasMem.foldl ?_ ?_) | (with_reducible apply State.compare_mem) | (fail_if_no_progress (with_reducible apply State.HasMem.other)) | split | (intro _))

theorem execCmpne_mem {m : Mem} {f : CmpFmt} {s : State} (hs : s.HasMem m) : OutHasMem m (execCmpne f s) := by
  unfold execCmpne
  try dsimp only
  (repeat' first | with_reducible assumption | (with_reducible apply OutHasMem.next) | (with_reducible exact OutHasMem.fault) | (with_reducible refine State.HasMem.foldl ?_ ?_) | (with_reducible apply State.compare_mem) | (fail_if_no_progress (with_reducible apply State.HasMem.other)) | split | (intro _))

theorem execCmplt_mem {m : Mem} {f : CmpFmt} {s : State} (hs : s.HasMem m) : OutHasMem m (execCmplt f s) := by
  unfold execCmplt
  try dsimp only
  (repeat' first | with_reducible assumption | (with_reducible apply OutHasMem.next) | (with_reducible exact OutHasMem.fault) | (with_reducible refine State.HasMem.foldl ?_ ?_) | (with_reducible apply State.compare_mem) | (fail_if_no_progress (with_reducible apply State.HasMem.other)) | split | (intro _))

theorem execCmpltu_mem {m : Mem} {f : CmpFmt} {s : State} (hs : s.HasMem m) : OutHasMem m (execCmpltu f s) := by
  unfold execCmpltu
  try dsimp only
  (repeat' first | with_reducible assumption | (with_reducible apply OutHasMem.next) | (with_reducible exact OutHasMem.fault) | (with_reducible refine State.HasMem.foldl ?_ ?_) | (with_reducible apply State.compare_mem) | (fail_if_no_progress (with_reducible apply State.HasMem.other)) | split | (intro _))

theorem execCmple_mem {m : Mem} {f : CmpFmt} {s : State} (hs : s.HasMem m) : OutHasMem m (execCmple f s) := by
  unfold execCmple
  try dsimp only
  (repeat' first | with_reducible assumption | (with_reducible apply OutHasMem.next) | (with_reducible exact OutHasMem.fault) | (with_reducible refine State.HasMem.foldl ?_ ?_) | (with_reducible apply State.compare_mem) | (fail_if_no_progress (with_reducible apply State.HasMem.other)) | split | (intro _))

theorem execCmpleu_mem {m : Mem} {f : CmpFmt} {s : State} (hs : s.HasMem m) : OutHasMem m (execCmpleu f s) := by
  unfold execCmpleu
  try dsimp only
  (repeat' first | with_reducible assumption | (with_reducible apply OutHasMem.next) | (with_reducible exact OutHasMem.fault) | (with_reducible refine State.HasMem.foldl ?_ ?_) | (with_reducible apply State.compare_mem) | (fail_if_no_progress (with_reducible apply State.HasMem.other)) | split | (intro _))

theorem execCmov_mem {m : Mem} {f : ImmFmt} {s : State} (hs : s.HasMem m) : OutHasMem m (execCmov f s) := by
  unfold execCmov
  try dsimp only
  (repeat' first | with_reducible assumption | (with_reducible apply OutHasMem.next) | (with_reducible exact OutHasMem.fault) | (with_reducible refine State.HasMem.foldl ?_ ?_) | (with_reducible apply State.perform_mem) | (with_reducible apply State.next_mem) | (with_reducible apply State.writeReg_mem) | (fail_if_no_progress (with_reducible apply State.HasMem.other)) | split | (intro _))

theorem execFadd_mem {m : Mem} {f : RegFmt} {s : State} (hs : s.HasMem m) : OutHasMem m (execFadd f s) := by
  unfold execFadd
  try dsimp only
  (repeat' first | with_reducible assumption | (with_reducible apply OutHasMem.next) | (with_reducible exact OutHasMem.fault) | (with_reducible refine State.HasMem.foldl ?_ ?_) | (with_reducible apply State.fpBinary_mem) | (fail_if_no_progress (with_reducible apply State.HasMem.other)) | split | (intro _))

theorem execFsub_mem {m : Mem} {f : RegFmt} {s : State} (hs : s.HasMem m) : OutHasMem m (execFsub f s) := by
  unfold execFsub
  try dsimp only
  (repeat' first | with_reducible assumption | (with_reducible apply OutHasMem.next) | (with_reducible exact OutHasMem.fault) | (with_reducible refine State.HasMem.foldl ?_ ?_) | (with_reducible apply State.fpBinary_mem) | (fail_if_no_progress (with_reducible apply State.HasMem.other)) | split | (intro _))

theorem execFmul_mem {m : Mem} {f : RegFmt} {s : State} (hs : s.HasMem m) : OutHasMem m (execFmul f s) := by
  unfold execFmul
  try dsimp only
  (repeat' first | with_reducible assumption | (with_reducible apply OutHasMem.next) | (with_reducible exact OutHasMem.fault) | (with_reducible refine State.HasMem.foldl ?_ ?_) | (with_reducible apply State.fpBinary_mem) | (fail_if_no_progress (with_reducible apply State.HasMem.other)) | split | (intro _))

theorem execFdiv_mem {m : Mem} {f : RegFmt} {s : State} (hs : s.HasMem m) : OutHasMem m (execFdiv f s) := by
  unfold execFdiv
  try dsimp only
  (repeat' first | with_reducible assumption | (with_reducible apply OutHasMem.next) | (with_reducible exact OutHasMem.fault) | (with_reducible refine State.HasMem.foldl ?_ ?_) | (with_reducible apply State.fpBinary_mem) | (fail_if_no_progress (with_reducible apply State.HasMem.other)) | split | (intro _))

theorem execFmin_mem {m : Mem} {f : RegFmt} {s : State} (hs : s.HasMem m) : OutHasMem m (execFmin f s) := by
  unfold execFmin
  try dsimp only
  (repeat' first | with_reducible assumption | (with_reducible apply OutHasMem.next) | (with_reducible exact OutHasMem.fault) | (with_reducible refine State.HasMem.foldl ?_ ?_) | (with_reducible apply State.fpBinary_mem) | (fail_if_no_progress (with_reducible apply State.HasMem.other)) | split | (intro _))

theorem execFmax_mem {m : Mem} {f : RegFmt} {s : State} (hs : s.HasMem m) : OutHasMem m (execFmax f s) := by
  unfold execFmax
  try dsimp only
  (repeat' first | with_reducible assumption | (with_reducible apply OutHasMem.next) | (with_reducible exact OutHasMem.fault) | (with_reducible refine State.HasMem.foldl ?_ ?_) | (with_reducible apply State.fpBinary_mem) | (fail_if_no_progress (with_reducible apply State.HasMem.other)) | split | (intro _))

theorem execFma_mem {m : Mem} {f : RegFmt} {s : State} (hs : s.HasMem m) : OutHasMem m (execFma f s) := by
  unfold execFma
  try dsimp only
  (repeat' first | with_reducible assumption | (with_reducible apply OutHasMem.next) | (with_reducible exact OutHasMem.fault) | (with_reducible refine State.HasMem.foldl ?_ ?_) | (with_reducible apply State.writeFp_mem) | (with_reducible apply State.registerOp_mem) | (fail_if_no_progress (with_reducible apply State.HasMem.other)) | split | (intro _))

theorem execFsqrt_mem {m : Mem} {f : RegFmt} {s : State} (hs : s.HasMem m) : OutHasMem m (execFsqrt f s) := by
  unfold execFsqrt
  try dsimp only
  (repeat' first | with_reducible assumption | (with_reducible apply OutHasMem.next) | (with_reducible exact OutHasMem.fault) | (with_reducible refine State.HasMem.foldl ?_ ?_) | (with_reducible apply State.fpUnary_mem) | (fail_if_no_progress (with_reducible apply State.HasMem.other)) | split | (intro _))

theorem execFabs_mem {m : Mem} {f : RegFmt} {s : State} (hs : s.HasMem m) : OutHasMem m (execFabs f s) := by
  unfold execFabs
  try dsimp only
  (repeat' first | with_reducible assumption | (with_reducible apply OutHasMem.next) | (with_reducible exact OutHasMem.fault) | (with_reducible refine State.HasMem.foldl ?_ ?_) | (with_reducible apply State.fpUnary_mem) | (fail_if_no_progress (with_reducible apply State.HasMem.other)) | split | (intro _))

theorem execFneg_mem {m : Mem} {f : RegFmt} {s : State} (hs : s.HasMem m) : OutHasMem m (execFneg f s) := by
  unfold execFneg
  try dsimp only
  (repeat' first | with_reducible assumption | (with_reducible apply OutHasMem.next) | (with_reducible exact OutHasMem.fault) | (with_reducible refine State.HasMem.foldl ?_ ?_) | (with_reducible apply State.fpUnary_mem) | (fail_if_no_progress (with_reducible apply State.HasMem.other)) | split | (intro _))

theorem execFcmpeq_mem {m : Mem} {f : CmpFmt} {s : State} (hs : s.HasMem m) : OutHasMem m (execFcmpeq f s) := by
  unfold execFcmpeq
  try dsimp only
  (repeat' first | with_reducible assumption | (with_reducible apply OutHasMem.next) | (with_reducible exact OutHasMem.fault) | (with_reducible refine State.HasMem.foldl ?_ ?_) | (with_reducible apply State.fpCompare_mem) | (fail_if_no_progress (with_reducible apply State.HasMem.other)) | split | (intro _))

theorem execFcmplt_mem {m : Mem} {f : CmpFmt} {s : State} (hs : s.HasMem m) : OutHasMem m (execFcmplt f s) := by
  unfold execFcmplt
  try dsimp only
  (repeat' first | with_reducible assumption | (with_reducible apply OutHasMem.next) | (with_reducible exact OutHasMem.fault) | (with_reducible refine State.HasMem.foldl ?_ ?_) | (with_reducible apply State.fpCompare_mem) | (fail_if_no_progress (with_reducible apply State.HasMem.other)) | split | (intro _))

theorem execFcmple_mem {m : Mem} {f : CmpFmt} {s : State} (hs : s.HasMem m) : OutHasMem m (execFcmple f s) := by
  unfold execFcmple
  try dsimp only
  (repeat' first | with_reducible assumption | (with_reducible apply OutHasMem.next) | (with_reducible exact OutHasMem.fault) | (with_reducible refine State.HasMem.foldl ?_ ?_) | (with_reducible apply State.fpCompare_mem) | (fail_if_no_progress (with_reducible apply State.HasMem.other)) | split | (intro _))

theorem execFcvt_mem {m : Mem} {f : ImmFmt} {s : State} (hs : s.HasMem m) : OutHasMem m (execFcvt f s) := by
  unfold execFcvt
  try dsimp only
  (repeat' first | with_reducible assumption | (with_reducible apply OutHasMem.next) | (with_reducible exact OutHasMem.fault) | (with_reducible refine State.HasMem.foldl ?_ ?_) | (with_reducible apply State.writeFp_mem) | (with_reducible apply State.registerOp_mem) | (fail_if_no_progress (with_reducible apply State.HasMem.other)) | split | (intro _))

theorem execFtoi_mem {m : Mem} {f : RegFmt} {s : State} (hs : s.HasMem m) : OutHasMem m (execFtoi f s) := by
  unfold execFtoi
  try dsimp only
  (repeat' first | with_reducible assumption | (with_reducible apply OutHasMem.next) | (with_reducible exact OutHasMem.fault) | (with_reducible refine State.HasMem.foldl ?_ ?_) | (with_reducible apply State.registerOp_mem) | (with_reducible apply State.orFlags_mem) | (with_reducible apply State.writeReg_mem) | (fail_if_no_progress (with_reducible apply State.HasMem.other)) | split | (intro _))

theorem execItof_mem {m : Mem} {f : RegFmt} {s : State} (hs : s.HasMem m) : OutHasMem m (execItof f s) := by
  unfold execItof
  try dsimp only
  (repeat' first | with_reducible assumption | (with_reducible apply OutHasMem.next) | (with_reducible exact OutHasMem.fault) | (with_reducible refine State.HasMem.foldl ?_ ?_) | (with_reducible apply State.writeFp_mem) | (with_reducible apply State.registerOp_mem) | (fail_if_no_progress (with_reducible apply State.HasMem.other)) | split | (intro _))

theorem State.gmLoad_mem {m : Mem} {s : State} {f : GmFmt} {kind : ReqKind} {w : Nat} (hs : s.HasMem m) : OutHasMem m (State.gmLoad s f kind w) := by
  unfold State.gmLoad
  try dsimp only
  (repeat' first | with_reducible assumption | (with_reducible apply OutHasMem.next) | (with_reducible exact OutHasMem.fault) | (with_reducible refine State.HasMem.foldl ?_ ?_) | (with_reducible apply State.issueRequest_mem) | (with_reducible apply State.perform_mem) | (fail_if_no_progress (with_reducible apply State.HasMem.other)) | split | (intro _))

theorem State.gmStore_mem {m : Mem} {s : State} {f : GmFmt} {kind : ReqKind} {w : Nat} (hs : s.HasMem m) : OutHasMem m (State.gmStore s f kind w) := by
  unfold State.gmStore
  try dsimp only
  (repeat' first | with_reducible assumption | (with_reducible apply OutHasMem.next) | (with_reducible exact OutHasMem.fault) | (with_reducible refine State.HasMem.foldl ?_ ?_) | (with_reducible apply State.issueRequest_mem) | (with_reducible apply State.perform_mem) | (fail_if_no_progress (with_reducible apply State.HasMem.other)) | split | (intro _))

theorem State.wordRequest_mem {m : Mem} {s : State} {f : ReqFmt} {kind : ReqKind} {op : Bool} (hs : s.HasMem m) : OutHasMem m (State.wordRequest s f kind op) := by
  unfold State.wordRequest
  try dsimp only
  (repeat' first | with_reducible assumption | (with_reducible apply OutHasMem.next) | (with_reducible exact OutHasMem.fault) | (with_reducible refine State.HasMem.foldl ?_ ?_) | (with_reducible apply State.issueRequest_mem) | (with_reducible apply State.perform_mem) | (fail_if_no_progress (with_reducible apply State.HasMem.other)) | split | (intro _))

theorem State.tryRequest_mem {m : Mem} {s : State} {f : ReqFmt} {kind : ReqKind} {op : Bool} (hs : s.HasMem m) : OutHasMem m (State.tryRequest s f kind op) := by
  unfold State.tryRequest
  try dsimp only
  (repeat' first | with_reducible assumption | (with_reducible apply OutHasMem.next) | (with_reducible exact OutHasMem.fault) | (with_reducible refine State.HasMem.foldl ?_ ?_) | (with_reducible apply State.issueRequest_mem) | (with_reducible apply State.perform_mem) | (fail_if_no_progress (with_reducible apply State.HasMem.other)) | split | (intro _))

theorem State.barRequest_mem {m : Mem} {s : State} {f : ReqFmt} {kind : ReqKind} {merge : Bool} (hs : s.HasMem m) : OutHasMem m (State.barRequest s f kind merge) := by
  unfold State.barRequest
  try dsimp only
  (repeat' first | with_reducible assumption | (with_reducible apply OutHasMem.next) | (with_reducible exact OutHasMem.fault) | (with_reducible refine State.HasMem.foldl ?_ ?_) | (with_reducible apply State.issueRequest_mem) | (with_reducible apply State.perform_mem) | (fail_if_no_progress (with_reducible apply State.HasMem.other)) | split | (intro _))

theorem State.localWrite_mem {m : Mem} {s : State} {buf : Nat} {off : Nat} {bs : List Byte} (hs : s.HasMem m) : (State.localWrite s buf off bs).HasMem m := by
  unfold State.localWrite
  try dsimp only
  (repeat' first | with_reducible assumption | (with_reducible refine State.HasMem.foldl ?_ ?_) | (with_reducible apply State.setPs_mem) | (with_reducible apply State.setAb_mem) | (fail_if_no_progress (with_reducible apply State.HasMem.other)) | split | (intro _))

theorem State.localLoad_mem {m : Mem} {s : State} {f : LmFmt} {signed : Bool} (hs : s.HasMem m) : OutHasMem m (State.localLoad s f signed) := by
  unfold State.localLoad
  try dsimp only
  (repeat' first | with_reducible assumption | (with_reducible apply OutHasMem.next) | (with_reducible exact OutHasMem.fault) | (with_reducible refine State.HasMem.foldl ?_ ?_) | (with_reducible apply State.perform_mem) | (with_reducible apply State.next_mem) | (with_reducible apply State.writeReg_mem) | (with_reducible apply State.updCur_mem) | (fail_if_no_progress (with_reducible apply State.HasMem.other)) | split | (intro _))

theorem execLdGlobal_mem {m : Mem} {f : GmFmt} {s : State} (hs : s.HasMem m) : OutHasMem m (execLdGlobal f s) := by
  unfold execLdGlobal
  try dsimp only
  (repeat' first | with_reducible assumption | (with_reducible apply OutHasMem.next) | (with_reducible exact OutHasMem.fault) | (with_reducible refine State.HasMem.foldl ?_ ?_) | (with_reducible apply State.gmLoad_mem) | (fail_if_no_progress (with_reducible apply State.HasMem.other)) | split | (intro _))

theorem execLdsGlobal_mem {m : Mem} {f : GmFmt} {s : State} (hs : s.HasMem m) : OutHasMem m (execLdsGlobal f s) := by
  unfold execLdsGlobal
  try dsimp only
  (repeat' first | with_reducible assumption | (with_reducible apply OutHasMem.next) | (with_reducible exact OutHasMem.fault) | (with_reducible refine State.HasMem.foldl ?_ ?_) | (with_reducible apply State.gmLoad_mem) | (fail_if_no_progress (with_reducible apply State.HasMem.other)) | split | (intro _))

theorem execStGlobal_mem {m : Mem} {f : GmFmt} {s : State} (hs : s.HasMem m) : OutHasMem m (execStGlobal f s) := by
  unfold execStGlobal
  try dsimp only
  (repeat' first | with_reducible assumption | (with_reducible apply OutHasMem.next) | (with_reducible exact OutHasMem.fault) | (with_reducible refine State.HasMem.foldl ?_ ?_) | (with_reducible apply State.gmStore_mem) | (fail_if_no_progress (with_reducible apply State.HasMem.other)) | split | (intro _))

theorem execLdLocal_mem {m : Mem} {f : LmFmt} {s : State} (hs : s.HasMem m) : OutHasMem m (execLdLocal f s) := by
  unfold execLdLocal
  try dsimp only
  (repeat' first | with_reducible assumption | (with_reducible apply OutHasMem.next) | (with_reducible exact OutHasMem.fault) | (with_reducible refine State.HasMem.foldl ?_ ?_) | (with_reducible apply State.localLoad_mem) | (fail_if_no_progress (with_reducible apply State.HasMem.other)) | split | (intro _))

theorem execLdsLocal_mem {m : Mem} {f : LmFmt} {s : State} (hs : s.HasMem m) : OutHasMem m (execLdsLocal f s) := by
  unfold execLdsLocal
  try dsimp only
  (repeat' first | with_reducible assumption | (with_reducible apply OutHasMem.next) | (with_reducible exact OutHasMem.fault) | (with_reducible refine State.HasMem.foldl ?_ ?_) | (with_reducible apply State.localLoad_mem) | (fail_if_no_progress (with_reducible apply State.HasMem.other)) | split | (intro _))

theorem execStLocal_mem {m : Mem} {f : LmFmt} {s : State} (hs : s.HasMem m) : OutHasMem m (execStLocal f s) := by
  unfold execStLocal
  try dsimp only
  (repeat' first | with_reducible assumption | (with_reducible apply OutHasMem.next) | (with_reducible exact OutHasMem.fault) | (with_reducible refine State.HasMem.foldl ?_ ?_) | (with_reducible apply State.localWrite_mem) | (with_reducible apply State.perform_mem) | (with_reducible apply State.next_mem) | (with_reducible apply State.updCur_mem) | (fail_if_no_progress (with_reducible apply State.HasMem.other)) | split | (intro _))

theorem execLdFe_mem {m : Mem} {f : GmFmt} {s : State} (hs : s.HasMem m) : OutHasMem m (execLdFe f s) := by
  unfold execLdFe
  try dsimp only
  (repeat' first | with_reducible assumption | (with_reducible apply OutHasMem.next) | (with_reducible exact OutHasMem.fault) | (with_reducible refine State.HasMem.foldl ?_ ?_) | (with_reducible apply State.gmLoad_mem) | (fail_if_no_progress (with_reducible apply State.HasMem.other)) | split | (intro _))

theorem execStEf_mem {m : Mem} {f : GmFmt} {s : State} (hs : s.HasMem m) : OutHasMem m (execStEf f s) := by
  unfold execStEf
  try dsimp only
  (repeat' first | with_reducible assumption | (with_reducible apply OutHasMem.next) | (with_reducible exact OutHasMem.fault) | (with_reducible refine State.HasMem.foldl ?_ ?_) | (with_reducible apply State.gmStore_mem) | (fail_if_no_progress (with_reducible apply State.HasMem.other)) | split | (intro _))

theorem execLdtag_mem {m : Mem} {f : GmFmt} {s : State} (hs : s.HasMem m) : OutHasMem m (execLdtag f s) := by
  unfold execLdtag
  try dsimp only
  (repeat' first | with_reducible assumption | (with_reducible apply OutHasMem.next) | (with_reducible exact OutHasMem.fault) | (with_reducible refine State.HasMem.foldl ?_ ?_) | (with_reducible apply State.gmLoad_mem) | (fail_if_no_progress (with_reducible apply State.HasMem.other)) | split | (intro _))

theorem execAmoAdd_mem {m : Mem} {f : ReqFmt} {s : State} (hs : s.HasMem m) : OutHasMem m (execAmoAdd f s) := by
  unfold execAmoAdd
  try dsimp only
  (repeat' first | with_reducible assumption | (with_reducible apply OutHasMem.next) | (with_reducible exact OutHasMem.fault) | (with_reducible refine State.HasMem.foldl ?_ ?_) | (with_reducible apply State.wordRequest_mem) | (fail_if_no_progress (with_reducible apply State.HasMem.other)) | split | (intro _))

theorem execAmoAnd_mem {m : Mem} {f : ReqFmt} {s : State} (hs : s.HasMem m) : OutHasMem m (execAmoAnd f s) := by
  unfold execAmoAnd
  try dsimp only
  (repeat' first | with_reducible assumption | (with_reducible apply OutHasMem.next) | (with_reducible exact OutHasMem.fault) | (with_reducible refine State.HasMem.foldl ?_ ?_) | (with_reducible apply State.wordRequest_mem) | (fail_if_no_progress (with_reducible apply State.HasMem.other)) | split | (intro _))

theorem execAmoOr_mem {m : Mem} {f : ReqFmt} {s : State} (hs : s.HasMem m) : OutHasMem m (execAmoOr f s) := by
  unfold execAmoOr
  try dsimp only
  (repeat' first | with_reducible assumption | (with_reducible apply OutHasMem.next) | (with_reducible exact OutHasMem.fault) | (with_reducible refine State.HasMem.foldl ?_ ?_) | (with_reducible apply State.wordRequest_mem) | (fail_if_no_progress (with_reducible apply State.HasMem.other)) | split | (intro _))

theorem execAmoXor_mem {m : Mem} {f : ReqFmt} {s : State} (hs : s.HasMem m) : OutHasMem m (execAmoXor f s) := by
  unfold execAmoXor
  try dsimp only
  (repeat' first | with_reducible assumption | (with_reducible apply OutHasMem.next) | (with_reducible exact OutHasMem.fault) | (with_reducible refine State.HasMem.foldl ?_ ?_) | (with_reducible apply State.wordRequest_mem) | (fail_if_no_progress (with_reducible apply State.HasMem.other)) | split | (intro _))

theorem execAmoMin_mem {m : Mem} {f : ReqFmt} {s : State} (hs : s.HasMem m) : OutHasMem m (execAmoMin f s) := by
  unfold execAmoMin
  try dsimp only
  (repeat' first | with_reducible assumption | (with_reducible apply OutHasMem.next) | (with_reducible exact OutHasMem.fault) | (with_reducible refine State.HasMem.foldl ?_ ?_) | (with_reducible apply State.wordRequest_mem) | (fail_if_no_progress (with_reducible apply State.HasMem.other)) | split | (intro _))

theorem execAmoMax_mem {m : Mem} {f : ReqFmt} {s : State} (hs : s.HasMem m) : OutHasMem m (execAmoMax f s) := by
  unfold execAmoMax
  try dsimp only
  (repeat' first | with_reducible assumption | (with_reducible apply OutHasMem.next) | (with_reducible exact OutHasMem.fault) | (with_reducible refine State.HasMem.foldl ?_ ?_) | (with_reducible apply State.wordRequest_mem) | (fail_if_no_progress (with_reducible apply State.HasMem.other)) | split | (intro _))

theorem execAmoMinu_mem {m : Mem} {f : ReqFmt} {s : State} (hs : s.HasMem m) : OutHasMem m (execAmoMinu f s) := by
  unfold execAmoMinu
  try dsimp only
  (repeat' first | with_reducible assumption | (with_reducible apply OutHasMem.next) | (with_reducible exact OutHasMem.fault) | (with_reducible refine State.HasMem.foldl ?_ ?_) | (with_reducible apply State.wordRequest_mem) | (fail_if_no_progress (with_reducible apply State.HasMem.other)) | split | (intro _))

theorem execAmoMaxu_mem {m : Mem} {f : ReqFmt} {s : State} (hs : s.HasMem m) : OutHasMem m (execAmoMaxu f s) := by
  unfold execAmoMaxu
  try dsimp only
  (repeat' first | with_reducible assumption | (with_reducible apply OutHasMem.next) | (with_reducible exact OutHasMem.fault) | (with_reducible refine State.HasMem.foldl ?_ ?_) | (with_reducible apply State.wordRequest_mem) | (fail_if_no_progress (with_reducible apply State.HasMem.other)) | split | (intro _))

theorem execAmoSwap_mem {m : Mem} {f : ReqFmt} {s : State} (hs : s.HasMem m) : OutHasMem m (execAmoSwap f s) := by
  unfold execAmoSwap
  try dsimp only
  (repeat' first | with_reducible assumption | (with_reducible apply OutHasMem.next) | (with_reducible exact OutHasMem.fault) | (with_reducible refine State.HasMem.foldl ?_ ?_) | (with_reducible apply State.wordRequest_mem) | (fail_if_no_progress (with_reducible apply State.HasMem.other)) | split | (intro _))

theorem execAmoCas_mem {m : Mem} {f : ReqFmt} {s : State} (hs : s.HasMem m) : OutHasMem m (execAmoCas f s) := by
  unfold execAmoCas
  try dsimp only
  (repeat' first | with_reducible assumption | (with_reducible apply OutHasMem.next) | (with_reducible exact OutHasMem.fault) | (with_reducible refine State.HasMem.foldl ?_ ?_) | (with_reducible apply State.issueRequest_mem) | (with_reducible apply State.perform_mem) | (fail_if_no_progress (with_reducible apply State.HasMem.other)) | split | (intro _))

theorem execMkobj_mem {m : Mem} {f : ReqFmt} {s : State} (hs : s.HasMem m) : OutHasMem m (execMkobj f s) := by
  unfold execMkobj
  try dsimp only
  (repeat' first | with_reducible assumption | (with_reducible apply OutHasMem.next) | (with_reducible exact OutHasMem.fault) | (with_reducible refine State.HasMem.foldl ?_ ?_) | (with_reducible apply State.issueRequest_mem) | (with_reducible apply State.perform_mem) | (fail_if_no_progress (with_reducible apply State.HasMem.other)) | split | (intro _))

theorem execRmobj_mem {m : Mem} {f : ReqFmt} {s : State} (hs : s.HasMem m) : OutHasMem m (execRmobj f s) := by
  unfold execRmobj
  try dsimp only
  (repeat' first | with_reducible assumption | (with_reducible apply OutHasMem.next) | (with_reducible exact OutHasMem.fault) | (with_reducible refine State.HasMem.foldl ?_ ?_) | (with_reducible apply State.wordRequest_mem) | (fail_if_no_progress (with_reducible apply State.HasMem.other)) | split | (intro _))

theorem execCtrAdd_mem {m : Mem} {f : ReqFmt} {s : State} (hs : s.HasMem m) : OutHasMem m (execCtrAdd f s) := by
  unfold execCtrAdd
  try dsimp only
  (repeat' first | with_reducible assumption | (with_reducible apply OutHasMem.next) | (with_reducible exact OutHasMem.fault) | (with_reducible refine State.HasMem.foldl ?_ ?_) | (with_reducible apply State.wordRequest_mem) | (fail_if_no_progress (with_reducible apply State.HasMem.other)) | split | (intro _))

theorem execCtrTake_mem {m : Mem} {f : ReqFmt} {s : State} (hs : s.HasMem m) : OutHasMem m (execCtrTake f s) := by
  unfold execCtrTake
  try dsimp only
  (repeat' first | with_reducible assumption | (with_reducible apply OutHasMem.next) | (with_reducible exact OutHasMem.fault) | (with_reducible refine State.HasMem.foldl ?_ ?_) | (with_reducible apply State.wordRequest_mem) | (fail_if_no_progress (with_reducible apply State.HasMem.other)) | split | (intro _))

theorem execCtrWait_mem {m : Mem} {f : ReqFmt} {s : State} (hs : s.HasMem m) : OutHasMem m (execCtrWait f s) := by
  unfold execCtrWait
  try dsimp only
  (repeat' first | with_reducible assumption | (with_reducible apply OutHasMem.next) | (with_reducible exact OutHasMem.fault) | (with_reducible refine State.HasMem.foldl ?_ ?_) | (with_reducible apply State.wordRequest_mem) | (fail_if_no_progress (with_reducible apply State.HasMem.other)) | split | (intro _))

theorem execBarWait_mem {m : Mem} {f : ReqFmt} {s : State} (hs : s.HasMem m) : OutHasMem m (execBarWait f s) := by
  unfold execBarWait
  try dsimp only
  (repeat' first | with_reducible assumption | (with_reducible apply OutHasMem.next) | (with_reducible exact OutHasMem.fault) | (with_reducible refine State.HasMem.foldl ?_ ?_) | (with_reducible apply State.wordRequest_mem) | (fail_if_no_progress (with_reducible apply State.HasMem.other)) | split | (intro _))

theorem execBarJoin_mem {m : Mem} {f : ReqFmt} {s : State} (hs : s.HasMem m) : OutHasMem m (execBarJoin f s) := by
  unfold execBarJoin
  try dsimp only
  (repeat' first | with_reducible assumption | (with_reducible apply OutHasMem.next) | (with_reducible exact OutHasMem.fault) | (with_reducible refine State.HasMem.foldl ?_ ?_) | (with_reducible apply State.wordRequest_mem) | (fail_if_no_progress (with_reducible apply State.HasMem.other)) | split | (intro _))

theorem execLkAcq_mem {m : Mem} {f : ReqFmt} {s : State} (hs : s.HasMem m) : OutHasMem m (execLkAcq f s) := by
  unfold execLkAcq
  try dsimp only
  (repeat' first | with_reducible assumption | (with_reducible apply OutHasMem.next) | (with_reducible exact OutHasMem.fault) | (with_reducible refine State.HasMem.foldl ?_ ?_) | (with_reducible apply State.wordRequest_mem) | (fail_if_no_progress (with_reducible apply State.HasMem.other)) | split | (intro _))

theorem execLkRel_mem {m : Mem} {f : ReqFmt} {s : State} (hs : s.HasMem m) : OutHasMem m (execLkRel f s) := by
  unfold execLkRel
  try dsimp only
  (repeat' first | with_reducible assumption | (with_reducible apply OutHasMem.next) | (with_reducible exact OutHasMem.fault) | (with_reducible refine State.HasMem.foldl ?_ ?_) | (with_reducible apply State.wordRequest_mem) | (fail_if_no_progress (with_reducible apply State.HasMem.other)) | split | (intro _))

theorem execQpush_mem {m : Mem} {f : ReqFmt} {s : State} (hs : s.HasMem m) : OutHasMem m (execQpush f s) := by
  unfold execQpush
  try dsimp only
  (repeat' first | with_reducible assumption | (with_reducible apply OutHasMem.next) | (with_reducible exact OutHasMem.fault) | (with_reducible refine State.HasMem.foldl ?_ ?_) | (with_reducible apply State.wordRequest_mem) | (fail_if_no_progress (with_reducible apply State.HasMem.other)) | split | (intro _))

theorem execQpop_mem {m : Mem} {f : ReqFmt} {s : State} (hs : s.HasMem m) : OutHasMem m (execQpop f s) := by
  unfold execQpop
  try dsimp only
  (repeat' first | with_reducible assumption | (with_reducible apply OutHasMem.next) | (with_reducible exact OutHasMem.fault) | (with_reducible refine State.HasMem.foldl ?_ ?_) | (with_reducible apply State.wordRequest_mem) | (fail_if_no_progress (with_reducible apply State.HasMem.other)) | split | (intro _))

theorem execCndWait_mem {m : Mem} {f : ReqFmt} {s : State} (hs : s.HasMem m) : OutHasMem m (execCndWait f s) := by
  unfold execCndWait
  try dsimp only
  (repeat' first | with_reducible assumption | (with_reducible apply OutHasMem.next) | (with_reducible exact OutHasMem.fault) | (with_reducible refine State.HasMem.foldl ?_ ?_) | (with_reducible apply State.wordRequest_mem) | (fail_if_no_progress (with_reducible apply State.HasMem.other)) | split | (intro _))

theorem execCndSignal_mem {m : Mem} {f : ReqFmt} {s : State} (hs : s.HasMem m) : OutHasMem m (execCndSignal f s) := by
  unfold execCndSignal
  try dsimp only
  (repeat' first | with_reducible assumption | (with_reducible apply OutHasMem.next) | (with_reducible exact OutHasMem.fault) | (with_reducible refine State.HasMem.foldl ?_ ?_) | (with_reducible apply State.wordRequest_mem) | (fail_if_no_progress (with_reducible apply State.HasMem.other)) | split | (intro _))

theorem execCndBcast_mem {m : Mem} {f : ReqFmt} {s : State} (hs : s.HasMem m) : OutHasMem m (execCndBcast f s) := by
  unfold execCndBcast
  try dsimp only
  (repeat' first | with_reducible assumption | (with_reducible apply OutHasMem.next) | (with_reducible exact OutHasMem.fault) | (with_reducible refine State.HasMem.foldl ?_ ?_) | (with_reducible apply State.wordRequest_mem) | (fail_if_no_progress (with_reducible apply State.HasMem.other)) | split | (intro _))

theorem execBarArrive_mem {m : Mem} {f : ReqFmt} {s : State} (hs : s.HasMem m) : OutHasMem m (execBarArrive f s) := by
  unfold execBarArrive
  try dsimp only
  (repeat' first | with_reducible assumption | (with_reducible apply OutHasMem.next) | (with_reducible exact OutHasMem.fault) | (with_reducible refine State.HasMem.foldl ?_ ?_) | (with_reducible apply State.barRequest_mem) | (fail_if_no_progress (with_reducible apply State.HasMem.other)) | split | (intro _))

theorem execBarSync_mem {m : Mem} {f : ReqFmt} {s : State} (hs : s.HasMem m) : OutHasMem m (execBarSync f s) := by
  unfold execBarSync
  try dsimp only
  (repeat' first | with_reducible assumption | (with_reducible apply OutHasMem.next) | (with_reducible exact OutHasMem.fault) | (with_reducible refine State.HasMem.foldl ?_ ?_) | (with_reducible apply State.barRequest_mem) | (fail_if_no_progress (with_reducible apply State.HasMem.other)) | split | (intro _))

theorem execBarWdraw_mem {m : Mem} {f : ReqFmt} {s : State} (hs : s.HasMem m) : OutHasMem m (execBarWdraw f s) := by
  unfold execBarWdraw
  try dsimp only
  (repeat' first | with_reducible assumption | (with_reducible apply OutHasMem.next) | (with_reducible exact OutHasMem.fault) | (with_reducible refine State.HasMem.foldl ?_ ?_) | (with_reducible apply State.barRequest_mem) | (fail_if_no_progress (with_reducible apply State.HasMem.other)) | split | (intro _))

theorem execLkTry_mem {m : Mem} {f : ReqFmt} {s : State} (hs : s.HasMem m) : OutHasMem m (execLkTry f s) := by
  unfold execLkTry
  try dsimp only
  (repeat' first | with_reducible assumption | (with_reducible apply OutHasMem.next) | (with_reducible exact OutHasMem.fault) | (with_reducible refine State.HasMem.foldl ?_ ?_) | (with_reducible apply State.tryRequest_mem) | (fail_if_no_progress (with_reducible apply State.HasMem.other)) | split | (intro _))

theorem execQpushT_mem {m : Mem} {f : ReqFmt} {s : State} (hs : s.HasMem m) : OutHasMem m (execQpushT f s) := by
  unfold execQpushT
  try dsimp only
  (repeat' first | with_reducible assumption | (with_reducible apply OutHasMem.next) | (with_reducible exact OutHasMem.fault) | (with_reducible refine State.HasMem.foldl ?_ ?_) | (with_reducible apply State.tryRequest_mem) | (fail_if_no_progress (with_reducible apply State.HasMem.other)) | split | (intro _))

theorem execQpopT_mem {m : Mem} {f : ReqFmt} {s : State} (hs : s.HasMem m) : OutHasMem m (execQpopT f s) := by
  unfold execQpopT
  try dsimp only
  (repeat' first | with_reducible assumption | (with_reducible apply OutHasMem.next) | (with_reducible exact OutHasMem.fault) | (with_reducible refine State.HasMem.foldl ?_ ?_) | (with_reducible apply State.tryRequest_mem) | (fail_if_no_progress (with_reducible apply State.HasMem.other)) | split | (intro _))

theorem State.vecEffect_mem {m : Mem} {s : State} {rd : BitVec 7} {pd : BitVec 3} {ps : List RowPtr} {rows : List Nat} {out : VecOut} (hs : s.HasMem m) : (State.vecEffect s rd pd ps rows out).HasMem m := by
  unfold State.vecEffect
  try dsimp only
  (repeat' first | with_reducible assumption | (with_reducible refine State.HasMem.foldl ?_ ?_) | (with_reducible apply State.next_mem) | (with_reducible apply State.setAb_mem) | (with_reducible apply State.orFlags_mem) | (with_reducible apply State.writeReg_mem) | (with_reducible apply State.updCur_mem) | (fail_if_no_progress (with_reducible apply State.HasMem.other)) | split | (intro _))

theorem State.vecOp_mem {m : Mem} {s : State} {f : VecFmt} {dsts : List (BitVec 7)} {srcs : List (BitVec 7)} {ps : List RowPtr} {good : Bool} {out : State → VecOut} (hs : s.HasMem m) : OutHasMem m (State.vecOp s f dsts srcs ps good out) := by
  unfold State.vecOp
  try dsimp only
  (repeat' first | with_reducible assumption | (with_reducible apply OutHasMem.next) | (with_reducible exact OutHasMem.fault) | (with_reducible refine State.HasMem.foldl ?_ ?_) | (with_reducible apply State.vecEffect_mem) | (with_reducible apply State.perform_mem) | (fail_if_no_progress (with_reducible apply State.HasMem.other)) | split | (intro _))

theorem State.vec1_mem {m : Mem} {s : State} {f : VecFmt} {srcs : List (BitVec 7)} {g : State → Nat → Nat × Flags} (hs : s.HasMem m) : OutHasMem m (State.vec1 s f srcs g) := by
  unfold State.vec1
  try dsimp only
  (repeat' first | with_reducible assumption | (with_reducible apply OutHasMem.next) | (with_reducible exact OutHasMem.fault) | (with_reducible refine State.HasMem.foldl ?_ ?_) | (with_reducible apply State.vecOp_mem) | (fail_if_no_progress (with_reducible apply State.HasMem.other)) | split | (intro _))

theorem State.vec2_mem {m : Mem} {s : State} {f : VecFmt} {g : Nat → Nat → Nat × Flags} (hs : s.HasMem m) : OutHasMem m (State.vec2 s f g) := by
  unfold State.vec2
  try dsimp only
  (repeat' first | with_reducible assumption | (with_reducible apply OutHasMem.next) | (with_reducible exact OutHasMem.fault) | (with_reducible refine State.HasMem.foldl ?_ ?_) | (with_reducible apply State.vecOp_mem) | (fail_if_no_progress (with_reducible apply State.HasMem.other)) | split | (intro _))

theorem State.vecRow_mem {m : Mem} {s : State} {f : VecFmt} {ps : List RowPtr} {g : State → Nat} (hs : s.HasMem m) : OutHasMem m (State.vecRow s f ps g) := by
  unfold State.vecRow
  try dsimp only
  (repeat' first | with_reducible assumption | (with_reducible apply OutHasMem.next) | (with_reducible exact OutHasMem.fault) | (with_reducible refine State.HasMem.foldl ?_ ?_) | (with_reducible apply State.vecOp_mem) | (fail_if_no_progress (with_reducible apply State.HasMem.other)) | split | (intro _))

theorem execVadd_mem {m : Mem} {f : VecFmt} {s : State} (hs : s.HasMem m) : OutHasMem m (execVadd f s) := by
  unfold execVadd
  try dsimp only
  (repeat' first | with_reducible assumption | (with_reducible apply OutHasMem.next) | (with_reducible exact OutHasMem.fault) | (with_reducible refine State.HasMem.foldl ?_ ?_) | (with_reducible apply State.vec2_mem) | (fail_if_no_progress (with_reducible apply State.HasMem.other)) | split | (intro _))

theorem execVsub_mem {m : Mem} {f : VecFmt} {s : State} (hs : s.HasMem m) : OutHasMem m (execVsub f s) := by
  unfold execVsub
  try dsimp only
  (repeat' first | with_reducible assumption | (with_reducible apply OutHasMem.next) | (with_reducible exact OutHasMem.fault) | (with_reducible refine State.HasMem.foldl ?_ ?_) | (with_reducible apply State.vec2_mem) | (fail_if_no_progress (with_reducible apply State.HasMem.other)) | split | (intro _))

theorem execVmul_mem {m : Mem} {f : VecFmt} {s : State} (hs : s.HasMem m) : OutHasMem m (execVmul f s) := by
  unfold execVmul
  try dsimp only
  (repeat' first | with_reducible assumption | (with_reducible apply OutHasMem.next) | (with_reducible exact OutHasMem.fault) | (with_reducible refine State.HasMem.foldl ?_ ?_) | (with_reducible apply State.vec2_mem) | (fail_if_no_progress (with_reducible apply State.HasMem.other)) | split | (intro _))

theorem execVfma_mem {m : Mem} {f : VecFmt} {s : State} (hs : s.HasMem m) : OutHasMem m (execVfma f s) := by
  unfold execVfma
  try dsimp only
  (repeat' first | with_reducible assumption | (with_reducible apply OutHasMem.next) | (with_reducible exact OutHasMem.fault) | (with_reducible refine State.HasMem.foldl ?_ ?_) | (with_reducible apply State.vecOp_mem) | (fail_if_no_progress (with_reducible apply State.HasMem.other)) | split | (intro _))

theorem execVdiv_mem {m : Mem} {f : VecFmt} {s : State} (hs : s.HasMem m) : OutHasMem m (execVdiv f s) := by
  unfold execVdiv
  try dsimp only
  (repeat' first | with_reducible assumption | (with_reducible apply OutHasMem.next) | (with_reducible exact OutHasMem.fault) | (with_reducible refine State.HasMem.foldl ?_ ?_) | (with_reducible apply State.vec2_mem) | (fail_if_no_progress (with_reducible apply State.HasMem.other)) | split | (intro _))

theorem execVsqrt_mem {m : Mem} {f : VecFmt} {s : State} (hs : s.HasMem m) : OutHasMem m (execVsqrt f s) := by
  unfold execVsqrt
  try dsimp only
  (repeat' first | with_reducible assumption | (with_reducible apply OutHasMem.next) | (with_reducible exact OutHasMem.fault) | (with_reducible refine State.HasMem.foldl ?_ ?_) | (with_reducible apply State.vec1_mem) | (fail_if_no_progress (with_reducible apply State.HasMem.other)) | split | (intro _))

theorem execVmin_mem {m : Mem} {f : VecFmt} {s : State} (hs : s.HasMem m) : OutHasMem m (execVmin f s) := by
  unfold execVmin
  try dsimp only
  (repeat' first | with_reducible assumption | (with_reducible apply OutHasMem.next) | (with_reducible exact OutHasMem.fault) | (with_reducible refine State.HasMem.foldl ?_ ?_) | (with_reducible apply State.vec2_mem) | (fail_if_no_progress (with_reducible apply State.HasMem.other)) | split | (intro _))

theorem execVmax_mem {m : Mem} {f : VecFmt} {s : State} (hs : s.HasMem m) : OutHasMem m (execVmax f s) := by
  unfold execVmax
  try dsimp only
  (repeat' first | with_reducible assumption | (with_reducible apply OutHasMem.next) | (with_reducible exact OutHasMem.fault) | (with_reducible refine State.HasMem.foldl ?_ ?_) | (with_reducible apply State.vec2_mem) | (fail_if_no_progress (with_reducible apply State.HasMem.other)) | split | (intro _))

theorem execVabs_mem {m : Mem} {f : VecFmt} {s : State} (hs : s.HasMem m) : OutHasMem m (execVabs f s) := by
  unfold execVabs
  try dsimp only
  (repeat' first | with_reducible assumption | (with_reducible apply OutHasMem.next) | (with_reducible exact OutHasMem.fault) | (with_reducible refine State.HasMem.foldl ?_ ?_) | (with_reducible apply State.vec1_mem) | (fail_if_no_progress (with_reducible apply State.HasMem.other)) | split | (intro _))

theorem execVneg_mem {m : Mem} {f : VecFmt} {s : State} (hs : s.HasMem m) : OutHasMem m (execVneg f s) := by
  unfold execVneg
  try dsimp only
  (repeat' first | with_reducible assumption | (with_reducible apply OutHasMem.next) | (with_reducible exact OutHasMem.fault) | (with_reducible refine State.HasMem.foldl ?_ ?_) | (with_reducible apply State.vec1_mem) | (fail_if_no_progress (with_reducible apply State.HasMem.other)) | split | (intro _))

theorem execVrcp_mem {m : Mem} {f : VecFmt} {s : State} (hs : s.HasMem m) : OutHasMem m (execVrcp f s) := by
  unfold execVrcp
  try dsimp only
  (repeat' first | with_reducible assumption | (with_reducible apply OutHasMem.next) | (with_reducible exact OutHasMem.fault) | (with_reducible refine State.HasMem.foldl ?_ ?_) | (with_reducible apply State.vec1_mem) | (fail_if_no_progress (with_reducible apply State.HasMem.other)) | split | (intro _))

theorem execVrsq_mem {m : Mem} {f : VecFmt} {s : State} (hs : s.HasMem m) : OutHasMem m (execVrsq f s) := by
  unfold execVrsq
  try dsimp only
  (repeat' first | with_reducible assumption | (with_reducible apply OutHasMem.next) | (with_reducible exact OutHasMem.fault) | (with_reducible refine State.HasMem.foldl ?_ ?_) | (with_reducible apply State.vec1_mem) | (fail_if_no_progress (with_reducible apply State.HasMem.other)) | split | (intro _))

theorem execVexp2_mem {m : Mem} {f : VecFmt} {s : State} (hs : s.HasMem m) : OutHasMem m (execVexp2 f s) := by
  unfold execVexp2
  try dsimp only
  (repeat' first | with_reducible assumption | (with_reducible apply OutHasMem.next) | (with_reducible exact OutHasMem.fault) | (with_reducible refine State.HasMem.foldl ?_ ?_) | (with_reducible apply State.vec1_mem) | (fail_if_no_progress (with_reducible apply State.HasMem.other)) | split | (intro _))

theorem execVlog2_mem {m : Mem} {f : VecFmt} {s : State} (hs : s.HasMem m) : OutHasMem m (execVlog2 f s) := by
  unfold execVlog2
  try dsimp only
  (repeat' first | with_reducible assumption | (with_reducible apply OutHasMem.next) | (with_reducible exact OutHasMem.fault) | (with_reducible refine State.HasMem.foldl ?_ ?_) | (with_reducible apply State.vec1_mem) | (fail_if_no_progress (with_reducible apply State.HasMem.other)) | split | (intro _))

theorem execVadds_mem {m : Mem} {f : VecFmt} {s : State} (hs : s.HasMem m) : OutHasMem m (execVadds f s) := by
  unfold execVadds
  try dsimp only
  (repeat' first | with_reducible assumption | (with_reducible apply OutHasMem.next) | (with_reducible exact OutHasMem.fault) | (with_reducible refine State.HasMem.foldl ?_ ?_) | (with_reducible apply State.vec2_mem) | (fail_if_no_progress (with_reducible apply State.HasMem.other)) | split | (intro _))

theorem execVsubs_mem {m : Mem} {f : VecFmt} {s : State} (hs : s.HasMem m) : OutHasMem m (execVsubs f s) := by
  unfold execVsubs
  try dsimp only
  (repeat' first | with_reducible assumption | (with_reducible apply OutHasMem.next) | (with_reducible exact OutHasMem.fault) | (with_reducible refine State.HasMem.foldl ?_ ?_) | (with_reducible apply State.vec2_mem) | (fail_if_no_progress (with_reducible apply State.HasMem.other)) | split | (intro _))

theorem execVand_mem {m : Mem} {f : VecFmt} {s : State} (hs : s.HasMem m) : OutHasMem m (execVand f s) := by
  unfold execVand
  try dsimp only
  (repeat' first | with_reducible assumption | (with_reducible apply OutHasMem.next) | (with_reducible exact OutHasMem.fault) | (with_reducible refine State.HasMem.foldl ?_ ?_) | (with_reducible apply State.vecRow_mem) | (fail_if_no_progress (with_reducible apply State.HasMem.other)) | split | (intro _))

theorem execVor_mem {m : Mem} {f : VecFmt} {s : State} (hs : s.HasMem m) : OutHasMem m (execVor f s) := by
  unfold execVor
  try dsimp only
  (repeat' first | with_reducible assumption | (with_reducible apply OutHasMem.next) | (with_reducible exact OutHasMem.fault) | (with_reducible refine State.HasMem.foldl ?_ ?_) | (with_reducible apply State.vecRow_mem) | (fail_if_no_progress (with_reducible apply State.HasMem.other)) | split | (intro _))

theorem execVxor_mem {m : Mem} {f : VecFmt} {s : State} (hs : s.HasMem m) : OutHasMem m (execVxor f s) := by
  unfold execVxor
  try dsimp only
  (repeat' first | with_reducible assumption | (with_reducible apply OutHasMem.next) | (with_reducible exact OutHasMem.fault) | (with_reducible refine State.HasMem.foldl ?_ ?_) | (with_reducible apply State.vecRow_mem) | (fail_if_no_progress (with_reducible apply State.HasMem.other)) | split | (intro _))

theorem execVshl_mem {m : Mem} {f : VecFmt} {s : State} (hs : s.HasMem m) : OutHasMem m (execVshl f s) := by
  unfold execVshl
  try dsimp only
  (repeat' first | with_reducible assumption | (with_reducible apply OutHasMem.next) | (with_reducible exact OutHasMem.fault) | (with_reducible refine State.HasMem.foldl ?_ ?_) | (with_reducible apply State.vec1_mem) | (fail_if_no_progress (with_reducible apply State.HasMem.other)) | split | (intro _))

theorem execVshr_mem {m : Mem} {f : VecFmt} {s : State} (hs : s.HasMem m) : OutHasMem m (execVshr f s) := by
  unfold execVshr
  try dsimp only
  (repeat' first | with_reducible assumption | (with_reducible apply OutHasMem.next) | (with_reducible exact OutHasMem.fault) | (with_reducible refine State.HasMem.foldl ?_ ?_) | (with_reducible apply State.vec1_mem) | (fail_if_no_progress (with_reducible apply State.HasMem.other)) | split | (intro _))

theorem execVsar_mem {m : Mem} {f : VecFmt} {s : State} (hs : s.HasMem m) : OutHasMem m (execVsar f s) := by
  unfold execVsar
  try dsimp only
  (repeat' first | with_reducible assumption | (with_reducible apply OutHasMem.next) | (with_reducible exact OutHasMem.fault) | (with_reducible refine State.HasMem.foldl ?_ ?_) | (with_reducible apply State.vec1_mem) | (fail_if_no_progress (with_reducible apply State.HasMem.other)) | split | (intro _))

theorem execVcmpeq_mem {m : Mem} {f : VecFmt} {s : State} (hs : s.HasMem m) : OutHasMem m (execVcmpeq f s) := by
  unfold execVcmpeq
  try dsimp only
  (repeat' first | with_reducible assumption | (with_reducible apply OutHasMem.next) | (with_reducible exact OutHasMem.fault) | (with_reducible refine State.HasMem.foldl ?_ ?_) | (with_reducible apply State.vec2_mem) | (fail_if_no_progress (with_reducible apply State.HasMem.other)) | split | (intro _))

theorem execVcmplt_mem {m : Mem} {f : VecFmt} {s : State} (hs : s.HasMem m) : OutHasMem m (execVcmplt f s) := by
  unfold execVcmplt
  try dsimp only
  (repeat' first | with_reducible assumption | (with_reducible apply OutHasMem.next) | (with_reducible exact OutHasMem.fault) | (with_reducible refine State.HasMem.foldl ?_ ?_) | (with_reducible apply State.vec2_mem) | (fail_if_no_progress (with_reducible apply State.HasMem.other)) | split | (intro _))

theorem execVcmple_mem {m : Mem} {f : VecFmt} {s : State} (hs : s.HasMem m) : OutHasMem m (execVcmple f s) := by
  unfold execVcmple
  try dsimp only
  (repeat' first | with_reducible assumption | (with_reducible apply OutHasMem.next) | (with_reducible exact OutHasMem.fault) | (with_reducible refine State.HasMem.foldl ?_ ?_) | (with_reducible apply State.vec2_mem) | (fail_if_no_progress (with_reducible apply State.HasMem.other)) | split | (intro _))

theorem execVsel_mem {m : Mem} {f : VecFmt} {s : State} (hs : s.HasMem m) : OutHasMem m (execVsel f s) := by
  unfold execVsel
  try dsimp only
  (repeat' first | with_reducible assumption | (with_reducible apply OutHasMem.next) | (with_reducible exact OutHasMem.fault) | (with_reducible refine State.HasMem.foldl ?_ ?_) | (with_reducible apply State.vecRow_mem) | (fail_if_no_progress (with_reducible apply State.HasMem.other)) | split | (intro _))

theorem execVshuf_mem {m : Mem} {f : VecFmt} {s : State} (hs : s.HasMem m) : OutHasMem m (execVshuf f s) := by
  unfold execVshuf
  try dsimp only
  (repeat' first | with_reducible assumption | (with_reducible apply OutHasMem.next) | (with_reducible exact OutHasMem.fault) | (with_reducible refine State.HasMem.foldl ?_ ?_) | (with_reducible apply State.vecRow_mem) | (fail_if_no_progress (with_reducible apply State.HasMem.other)) | split | (intro _))

theorem execVbcast_mem {m : Mem} {f : VecFmt} {s : State} (hs : s.HasMem m) : OutHasMem m (execVbcast f s) := by
  unfold execVbcast
  try dsimp only
  (repeat' first | with_reducible assumption | (with_reducible apply OutHasMem.next) | (with_reducible exact OutHasMem.fault) | (with_reducible refine State.HasMem.foldl ?_ ?_) | (with_reducible apply State.vecOp_mem) | (fail_if_no_progress (with_reducible apply State.HasMem.other)) | split | (intro _))

theorem execVmov_mem {m : Mem} {f : VecFmt} {s : State} (hs : s.HasMem m) : OutHasMem m (execVmov f s) := by
  unfold execVmov
  try dsimp only
  (repeat' first | with_reducible assumption | (with_reducible apply OutHasMem.next) | (with_reducible exact OutHasMem.fault) | (with_reducible refine State.HasMem.foldl ?_ ?_) | (with_reducible apply State.vecRow_mem) | (fail_if_no_progress (with_reducible apply State.HasMem.other)) | split | (intro _))

theorem execVcvt_mem {m : Mem} {f : VecFmt} {s : State} (hs : s.HasMem m) : OutHasMem m (execVcvt f s) := by
  unfold execVcvt
  try dsimp only
  (repeat' first | with_reducible assumption | (with_reducible apply OutHasMem.next) | (with_reducible exact OutHasMem.fault) | (with_reducible refine State.HasMem.foldl ?_ ?_) | (with_reducible apply State.vecOp_mem) | (fail_if_no_progress (with_reducible apply State.HasMem.other)) | split | (intro _))

theorem execVqmx_mem {m : Mem} {f : VecFmt} {s : State} (hs : s.HasMem m) : OutHasMem m (execVqmx f s) := by
  unfold execVqmx
  try dsimp only
  (repeat' first | with_reducible assumption | (with_reducible apply OutHasMem.next) | (with_reducible exact OutHasMem.fault) | (with_reducible refine State.HasMem.foldl ?_ ?_) | (with_reducible apply State.vecOp_mem) | (fail_if_no_progress (with_reducible apply State.HasMem.other)) | split | (intro _))

theorem execVqb4_mem {m : Mem} {f : VecFmt} {s : State} (hs : s.HasMem m) : OutHasMem m (execVqb4 f s) := by
  unfold execVqb4
  try dsimp only
  (repeat' first | with_reducible assumption | (with_reducible apply OutHasMem.next) | (with_reducible exact OutHasMem.fault) | (with_reducible refine State.HasMem.foldl ?_ ?_) | (with_reducible apply State.vecOp_mem) | (fail_if_no_progress (with_reducible apply State.HasMem.other)) | split | (intro _))

theorem State.reduce_mem {m : Mem} {s : State} {f : VecFmt} {gi : List Int → Int} {g : FpFormat → Val → Val → Val × Flags} (hs : s.HasMem m) : OutHasMem m (State.reduce s f gi g) := by
  unfold State.reduce
  try dsimp only
  (repeat' first | with_reducible assumption | (with_reducible apply OutHasMem.next) | (with_reducible exact OutHasMem.fault) | (with_reducible refine State.HasMem.foldl ?_ ?_) | (with_reducible apply State.vecOp_mem) | (fail_if_no_progress (with_reducible apply State.HasMem.other)) | split | (intro _))

theorem execVredsum_mem {m : Mem} {f : VecFmt} {s : State} (hs : s.HasMem m) : OutHasMem m (execVredsum f s) := by
  unfold execVredsum
  try dsimp only
  (repeat' first | with_reducible assumption | (with_reducible apply OutHasMem.next) | (with_reducible exact OutHasMem.fault) | (with_reducible refine State.HasMem.foldl ?_ ?_) | (with_reducible apply State.reduce_mem) | (fail_if_no_progress (with_reducible apply State.HasMem.other)) | split | (intro _))

theorem execVredmin_mem {m : Mem} {f : VecFmt} {s : State} (hs : s.HasMem m) : OutHasMem m (execVredmin f s) := by
  unfold execVredmin
  try dsimp only
  (repeat' first | with_reducible assumption | (with_reducible apply OutHasMem.next) | (with_reducible exact OutHasMem.fault) | (with_reducible refine State.HasMem.foldl ?_ ?_) | (with_reducible apply State.reduce_mem) | (fail_if_no_progress (with_reducible apply State.HasMem.other)) | split | (intro _))

theorem execVredmax_mem {m : Mem} {f : VecFmt} {s : State} (hs : s.HasMem m) : OutHasMem m (execVredmax f s) := by
  unfold execVredmax
  try dsimp only
  (repeat' first | with_reducible assumption | (with_reducible apply OutHasMem.next) | (with_reducible exact OutHasMem.fault) | (with_reducible refine State.HasMem.foldl ?_ ?_) | (with_reducible apply State.reduce_mem) | (fail_if_no_progress (with_reducible apply State.HasMem.other)) | split | (intro _))

theorem State.maskedOp_mem {m : Mem} {s : State} {f : VecFmt} {mean : Bool} (hs : s.HasMem m) : OutHasMem m (State.maskedOp s f mean) := by
  unfold State.maskedOp
  try dsimp only
  (repeat' first | with_reducible assumption | (with_reducible apply OutHasMem.next) | (with_reducible exact OutHasMem.fault) | (with_reducible refine State.HasMem.foldl ?_ ?_) | (with_reducible apply State.vecEffect_mem) | (with_reducible apply State.perform_mem) | (fail_if_no_progress (with_reducible apply State.HasMem.other)) | split | (intro _))

theorem execVredmSum_mem {m : Mem} {f : VecFmt} {s : State} (hs : s.HasMem m) : OutHasMem m (execVredmSum f s) := by
  unfold execVredmSum
  try dsimp only
  (repeat' first | with_reducible assumption | (with_reducible apply OutHasMem.next) | (with_reducible exact OutHasMem.fault) | (with_reducible refine State.HasMem.foldl ?_ ?_) | (with_reducible apply State.maskedOp_mem) | (fail_if_no_progress (with_reducible apply State.HasMem.other)) | split | (intro _))

theorem execVredmMean_mem {m : Mem} {f : VecFmt} {s : State} (hs : s.HasMem m) : OutHasMem m (execVredmMean f s) := by
  unfold execVredmMean
  try dsimp only
  (repeat' first | with_reducible assumption | (with_reducible apply OutHasMem.next) | (with_reducible exact OutHasMem.fault) | (with_reducible refine State.HasMem.foldl ?_ ?_) | (with_reducible apply State.maskedOp_mem) | (fail_if_no_progress (with_reducible apply State.HasMem.other)) | split | (intro _))

theorem execMzero_mem {m : Mem} {f : MatFmt} {s : State} (hs : s.HasMem m) : OutHasMem m (execMzero f s) := by
  unfold execMzero
  try dsimp only
  (repeat' first | with_reducible assumption | (with_reducible apply OutHasMem.next) | (with_reducible exact OutHasMem.fault) | (with_reducible refine State.HasMem.foldl ?_ ?_) | (with_reducible apply State.id_mem) | (with_reducible apply State.handOver_mem) | (with_reducible apply State.perform_mem) | (with_reducible apply State.next_mem) | (refine State.newOp_mem (by assumption) ?_) | (with_reducible refine State.newOp_mem (Prod.eta _).symm ?_) | (fail_if_no_progress (with_reducible apply State.HasMem.other)) | split | (intro _))

theorem State.mmaIssue_mem {m : Mem} {s : State} {f : MatFmt} {skip : List (BitVec 7)} (hs : s.HasMem m) : OutHasMem m (State.mmaIssue s f skip) := by
  unfold State.mmaIssue
  try dsimp only
  (repeat' first | with_reducible assumption | (with_reducible apply OutHasMem.next) | (with_reducible exact OutHasMem.fault) | (with_reducible refine State.HasMem.foldl ?_ ?_) | (with_reducible apply State.id_mem) | (with_reducible apply State.handOver_mem) | (with_reducible apply State.perform_mem) | (with_reducible apply State.parkOn_mem) | (with_reducible apply State.next_mem) | (refine State.newOp_mem (by assumption) ?_) | (with_reducible refine State.newOp_mem (Prod.eta _).symm ?_) | (fail_if_no_progress (with_reducible apply State.HasMem.other)) | split | (intro _))

theorem execMma_mem {m : Mem} {f : MatFmt} {s : State} (hs : s.HasMem m) : OutHasMem m (execMma f s) := by
  unfold execMma
  try dsimp only
  (repeat' first | with_reducible assumption | (with_reducible apply OutHasMem.next) | (with_reducible exact OutHasMem.fault) | (with_reducible refine State.HasMem.foldl ?_ ?_) | (with_reducible apply State.mmaIssue_mem) | (fail_if_no_progress (with_reducible apply State.HasMem.other)) | split | (intro _))

theorem execMmaS_mem {m : Mem} {f : MatFmt} {s : State} (hs : s.HasMem m) : OutHasMem m (execMmaS f s) := by
  unfold execMmaS
  try dsimp only
  (repeat' first | with_reducible assumption | (with_reducible apply OutHasMem.next) | (with_reducible exact OutHasMem.fault) | (with_reducible refine State.HasMem.foldl ?_ ?_) | (with_reducible apply State.mmaIssue_mem) | (fail_if_no_progress (with_reducible apply State.HasMem.other)) | split | (intro _))

theorem execMdrain_mem {m : Mem} {f : MatFmt} {s : State} (hs : s.HasMem m) : OutHasMem m (execMdrain f s) := by
  unfold execMdrain
  try dsimp only
  (repeat' first | with_reducible assumption | (with_reducible apply OutHasMem.next) | (with_reducible exact OutHasMem.fault) | (with_reducible refine State.HasMem.foldl ?_ ?_) | (with_reducible apply State.issueOp_mem) | (with_reducible apply State.perform_mem) | (with_reducible apply State.next_mem) | (fail_if_no_progress (with_reducible apply State.HasMem.other)) | split | (intro _))

theorem State.withSlot_mem {m : Mem} {s : State} {sl : Slot} (hs : s.HasMem m) : (State.withSlot s sl).HasMem m := by
  unfold State.withSlot
  try dsimp only
  (repeat' first | with_reducible assumption | (with_reducible refine State.HasMem.foldl ?_ ?_) | (fail_if_no_progress (with_reducible apply State.HasMem.other)) | split | (intro _))

theorem State.pastBody_mem {m : Mem} {s : State} {ws : List W32} (hs : s.HasMem m) : (State.pastBody s ws).HasMem m := by
  unfold State.pastBody
  try dsimp only
  (repeat' first | with_reducible assumption | (with_reducible refine State.HasMem.foldl ?_ ?_) | (with_reducible apply State.updCur_mem) | (fail_if_no_progress (with_reducible apply State.HasMem.other)) | split | (intro _))

theorem State.repDone_mem {m : Mem} {s : State} {d : BitVec 7} {n : W64} {ws : List W32} (hs : s.HasMem m) : (State.repDone s d n ws).HasMem m := by
  unfold State.repDone
  try dsimp only
  (repeat' first | with_reducible assumption | (with_reducible refine State.HasMem.foldl ?_ ?_) | (with_reducible apply State.pastBody_mem) | (with_reducible apply State.writeReg_mem) | (fail_if_no_progress (with_reducible apply State.HasMem.other)) | split | (intro _))

/-- The instructions that REP may repeat keep the form. -/
theorem repeatable_mem {m : Mem} {i : Instr} {run : State → Result} (e : repeatable i = some run) {s : State} (hs : s.HasMem m) : OutHasMem m (run s) := by
  unfold repeatable at e
  split at e
  · cases e; exact execVadd_mem hs
  · cases e; exact execVsub_mem hs
  · cases e; exact execVmul_mem hs
  · cases e; exact execVfma_mem hs
  · cases e; exact execVdiv_mem hs
  · cases e; exact execVsqrt_mem hs
  · cases e; exact execVmin_mem hs
  · cases e; exact execVmax_mem hs
  · cases e; exact execVabs_mem hs
  · cases e; exact execVneg_mem hs
  · cases e; exact execVrcp_mem hs
  · cases e; exact execVrsq_mem hs
  · cases e; exact execVexp2_mem hs
  · cases e; exact execVlog2_mem hs
  · cases e; exact execVadds_mem hs
  · cases e; exact execVsubs_mem hs
  · cases e; exact execVand_mem hs
  · cases e; exact execVor_mem hs
  · cases e; exact execVxor_mem hs
  · cases e; exact execVshl_mem hs
  · cases e; exact execVshr_mem hs
  · cases e; exact execVsar_mem hs
  · cases e; exact execVcmpeq_mem hs
  · cases e; exact execVcmplt_mem hs
  · cases e; exact execVcmple_mem hs
  · cases e; exact execVsel_mem hs
  · cases e; exact execVshuf_mem hs
  · cases e; exact execVbcast_mem hs
  · cases e; exact execVmov_mem hs
  · cases e; exact execVcvt_mem hs
  · cases e; exact execVqmx_mem hs
  · cases e; exact execVqb4_mem hs
  · cases e; exact execVredsum_mem hs
  · cases e; exact execVredmin_mem hs
  · cases e; exact execVredmax_mem hs
  · cases e; exact execVredmSum_mem hs
  · cases e; exact execVredmMean_mem hs
  · cases e; exact execLdLocal_mem hs
  · cases e; exact execLdsLocal_mem hs
  · cases e; exact execStLocal_mem hs
  · exact nomatch e

theorem State.repeatOnce_mem {m : Mem} {s : State} {d : BitVec 7} {ws : List W32} {body : Option (State → Result)}
    (hb : ∀ run, body = some run → ∀ s, s.HasMem m → OutHasMem m (run s)) (hs : s.HasMem m) : OutHasMem m (s.repeatOnce d ws body) := by
  unfold State.repeatOnce
  dsimp only
  split
  · exact OutHasMem.next (State.pastBody_mem hs)
  · have h := State.withSlot_mem (sl := { s.sched.slot with len := 0, w0 := ws.headD 0, words := s.sched.slot.words.take 1 ++ ws, again := s.sched.slot.again && decide (s.sched.slot.words.drop 1 ≠ []) }) hs
    split
    · exact OutHasMem.next (State.raise_mem h)
    · split
      · exact OutHasMem.next (State.repDone_mem (hb _ rfl _ h _ ‹_›))
      · exact OutHasMem.fault
      · exact OutHasMem.refused


theorem execRep_mem {m : Mem} {f : RegFmt} {s : State} (hs : s.HasMem m) : OutHasMem m (execRep f s) := by
  unfold execRep
  split
  · exact OutHasMem.next (State.raise_mem hs)
  · dsimp only
    split
    · refine State.repeatOnce_mem (fun run e s hs => ?_) hs
      split at e
      · exact repeatable_mem e hs
      · exact nomatch e
    · exact OutHasMem.next hs
    · exact OutHasMem.next (State.raise_mem hs)
    · exact OutHasMem.next (State.parkOn_mem (State.withSlot_mem hs))


theorem execBr_mem {m : Mem} {f : BrFmt} {s : State} (hs : s.HasMem m) : OutHasMem m (execBr f s) := by
  unfold execBr
  try dsimp only
  (repeat' first | with_reducible assumption | (with_reducible apply OutHasMem.next) | (with_reducible exact OutHasMem.fault) | (with_reducible refine State.HasMem.foldl ?_ ?_) | (with_reducible apply State.jump_mem) | (with_reducible apply State.perform_mem) | (with_reducible apply State.next_mem) | (fail_if_no_progress (with_reducible apply State.HasMem.other)) | split | (intro _))

theorem execCall_mem {m : Mem} {f : BrFmt} {s : State} (hs : s.HasMem m) : OutHasMem m (execCall f s) := by
  unfold execCall
  try dsimp only
  (repeat' first | with_reducible assumption | (with_reducible apply OutHasMem.next) | (with_reducible exact OutHasMem.fault) | (with_reducible refine State.HasMem.foldl ?_ ?_) | (with_reducible apply State.link_mem) | (with_reducible apply State.jump_mem) | (with_reducible apply State.perform_mem) | (fail_if_no_progress (with_reducible apply State.HasMem.other)) | split | (intro _))

theorem execCallr_mem {m : Mem} {f : RegFmt} {s : State} (hs : s.HasMem m) : OutHasMem m (execCallr f s) := by
  unfold execCallr
  try dsimp only
  (repeat' first | with_reducible assumption | (with_reducible apply OutHasMem.next) | (with_reducible exact OutHasMem.fault) | (with_reducible refine State.HasMem.foldl ?_ ?_) | (with_reducible apply State.link_mem) | (with_reducible apply State.jump_mem) | (with_reducible apply State.perform_mem) | (fail_if_no_progress (with_reducible apply State.HasMem.other)) | split | (intro _))

theorem execJmpr_mem {m : Mem} {f : RegFmt} {s : State} (hs : s.HasMem m) : OutHasMem m (execJmpr f s) := by
  unfold execJmpr
  try dsimp only
  (repeat' first | with_reducible assumption | (with_reducible apply OutHasMem.next) | (with_reducible exact OutHasMem.fault) | (with_reducible refine State.HasMem.foldl ?_ ?_) | (with_reducible apply State.jump_mem) | (with_reducible apply State.perform_mem) | (fail_if_no_progress (with_reducible apply State.HasMem.other)) | split | (intro _))

theorem State.awaitStores_mem {m : Mem} {s : State} (hs : s.HasMem m) : (State.awaitStores s).HasMem m := by
  unfold State.awaitStores
  try dsimp only
  (repeat' first | with_reducible assumption | (with_reducible refine State.HasMem.foldl ?_ ?_) | (with_reducible apply State.parkOn_mem) | (with_reducible apply State.post_mem) | (fail_if_no_progress (with_reducible apply State.HasMem.other)) | split | (intro _))

theorem State.finishWork_mem {m : Mem} {s : State} (hs : s.HasMem m) : (State.finishWork s).HasMem m := by
  unfold State.finishWork
  try dsimp only
  (repeat' first | with_reducible assumption | (with_reducible refine State.HasMem.foldl ?_ ?_) | (with_reducible apply State.awaitStores_mem) | (with_reducible apply State.retire_mem) | (with_reducible apply State.parkOn_mem) | (fail_if_no_progress (with_reducible apply State.HasMem.other)) | split | (intro _))

theorem execRet_mem {m : Mem} {u0 : NoneFmt} {s : State} (hs : s.HasMem m) : OutHasMem m (execRet u0 s) := by
  unfold execRet
  try dsimp only
  (repeat' first | with_reducible assumption | (with_reducible apply OutHasMem.next) | (with_reducible exact OutHasMem.fault) | (with_reducible refine State.HasMem.foldl ?_ ?_) | (with_reducible apply State.finishWork_mem) | (with_reducible apply State.link_mem) | (with_reducible apply State.jump_mem) | (with_reducible apply State.perform_mem) | (fail_if_no_progress (with_reducible apply State.HasMem.other)) | split | (intro _))

theorem execLoop_mem {m : Mem} {f : LoopFmt} {s : State} (hs : s.HasMem m) : OutHasMem m (execLoop f s) := by
  unfold execLoop
  try dsimp only
  (repeat' first | with_reducible assumption | (with_reducible apply OutHasMem.next) | (with_reducible exact OutHasMem.fault) | (with_reducible refine State.HasMem.foldl ?_ ?_) | (with_reducible apply State.jump_mem) | (with_reducible apply State.perform_mem) | (with_reducible apply State.next_mem) | (with_reducible apply State.writeReg_mem) | (fail_if_no_progress (with_reducible apply State.HasMem.other)) | split | (intro _))

theorem execTstb_mem {m : Mem} {f : TestFmt} {s : State} (hs : s.HasMem m) : OutHasMem m (execTstb f s) := by
  unfold execTstb
  try dsimp only
  (repeat' first | with_reducible assumption | (with_reducible apply OutHasMem.next) | (with_reducible exact OutHasMem.fault) | (with_reducible refine State.HasMem.foldl ?_ ?_) | (with_reducible apply State.jump_mem) | (with_reducible apply State.perform_mem) | (with_reducible apply State.next_mem) | (fail_if_no_progress (with_reducible apply State.HasMem.other)) | split | (intro _))

theorem State.blkWord_mem {m : Mem} {s : State} {f : RegFmt} (hs : s.HasMem m) : (State.blkWord s f).HasMem m := by
  unfold State.blkWord
  try dsimp only
  (repeat' first | with_reducible assumption | (with_reducible refine State.HasMem.foldl ?_ ?_) | (with_reducible apply State.withSlot_mem) | (with_reducible apply State.issueRequest_mem) | (with_reducible apply State.updCur_mem) | (fail_if_no_progress (with_reducible apply State.HasMem.other)) | split | (intro _))

theorem execBlk_mem {m : Mem} {f : RegFmt} {s : State} (hs : s.HasMem m) : OutHasMem m (execBlk f s) := by
  unfold execBlk
  try dsimp only
  (repeat' first | with_reducible assumption | (with_reducible apply OutHasMem.next) | (with_reducible exact OutHasMem.fault) | (with_reducible refine State.HasMem.foldl ?_ ?_) | (with_reducible apply State.blkWord_mem) | (with_reducible apply State.perform_mem) | (with_reducible apply State.next_mem) | (fail_if_no_progress (with_reducible apply State.HasMem.other)) | split | (intro _))

theorem execSpawn_mem {m : Mem} {f : RegFmt} {s : State} (hs : s.HasMem m) : OutHasMem m (execSpawn f s) := by
  unfold execSpawn
  try dsimp only
  (repeat' first | with_reducible assumption | (with_reducible apply OutHasMem.next) | (with_reducible exact OutHasMem.fault) | (with_reducible refine State.HasMem.foldl ?_ ?_) | (with_reducible apply State.sendOut_mem) | (with_reducible apply State.perform_mem) | (with_reducible apply State.parkOn_mem) | (with_reducible apply State.next_mem) | (fail_if_no_progress (with_reducible apply State.HasMem.other)) | split | (intro _))

theorem execCallat_mem {m : Mem} {f : RegFmt} {s : State} (hs : s.HasMem m) : OutHasMem m (execCallat f s) := by
  unfold execCallat
  try dsimp only
  (repeat' first | with_reducible assumption | (with_reducible apply OutHasMem.next) | (with_reducible exact OutHasMem.fault) | (with_reducible refine State.HasMem.foldl ?_ ?_) | (with_reducible apply State.sendOut_mem) | (with_reducible apply State.perform_mem) | (with_reducible apply State.parkOn_mem) | (with_reducible apply State.markEmpty_mem) | (fail_if_no_progress (with_reducible apply State.HasMem.other)) | split | (intro _))

theorem execFork_mem {m : Mem} {f : RegFmt} {s : State} (hs : s.HasMem m) : OutHasMem m (execFork f s) := by
  unfold execFork
  try dsimp only
  (repeat' first | with_reducible assumption | (with_reducible apply OutHasMem.next) | (with_reducible exact OutHasMem.fault) | (with_reducible refine State.HasMem.foldl ?_ ?_) | (with_reducible apply State.awaitStores_mem) | (with_reducible apply State.jump_mem) | (with_reducible apply State.sendOut_mem) | (with_reducible apply State.perform_mem) | (with_reducible apply State.parkOn_mem) | (fail_if_no_progress (with_reducible apply State.HasMem.other)) | split | (intro _))

theorem execJoin_mem {m : Mem} {f : RegFmt} {s : State} (hs : s.HasMem m) : OutHasMem m (execJoin f s) := by
  unfold execJoin
  try dsimp only
  (repeat' first | with_reducible assumption | (with_reducible apply OutHasMem.next) | (with_reducible exact OutHasMem.fault) | (with_reducible refine State.HasMem.foldl ?_ ?_) | (with_reducible apply State.issueRequest_mem) | (with_reducible apply State.perform_mem) | (fail_if_no_progress (with_reducible apply State.HasMem.other)) | split | (intro _))

theorem State.sendCancel_mem {m : Mem} {s : State} {ctr : W64} {unit : Option Nat} (hs : s.HasMem m) : (State.sendCancel s ctr unit).HasMem m := by
  unfold State.sendCancel
  try dsimp only
  (repeat' first | with_reducible assumption | (with_reducible refine State.HasMem.foldl ?_ ?_) | (with_reducible apply State.sendOut_mem) | (with_reducible apply State.parkOn_mem) | (fail_if_no_progress (with_reducible apply State.HasMem.other)) | split | (intro _))

theorem execCancel_mem {m : Mem} {f : RegFmt} {s : State} (hs : s.HasMem m) : OutHasMem m (execCancel f s) := by
  unfold execCancel
  try dsimp only
  (repeat' first | with_reducible assumption | (with_reducible apply OutHasMem.next) | (with_reducible exact OutHasMem.fault) | (with_reducible refine State.HasMem.foldl ?_ ?_) | (with_reducible apply State.sendCancel_mem) | (with_reducible apply State.perform_mem) | (fail_if_no_progress (with_reducible apply State.HasMem.other)) | split | (intro _))

theorem execCancelu_mem {m : Mem} {f : RegFmt} {s : State} (hs : s.HasMem m) : OutHasMem m (execCancelu f s) := by
  unfold execCancelu
  try dsimp only
  (repeat' first | with_reducible assumption | (with_reducible apply OutHasMem.next) | (with_reducible exact OutHasMem.fault) | (with_reducible refine State.HasMem.foldl ?_ ?_) | (with_reducible apply State.sendCancel_mem) | (with_reducible apply State.perform_mem) | (fail_if_no_progress (with_reducible apply State.HasMem.other)) | split | (intro _))

theorem State.sysWrite_mem {m : Mem} {s : State} {gid : Nat} {n : Nat} {v : W64} (hs : s.HasMem m) : (State.sysWrite s gid n v).HasMem m := by
  unfold State.sysWrite
  try dsimp only
  (repeat' first | with_reducible assumption | (with_reducible refine State.HasMem.foldl ?_ ?_) | (with_reducible apply State.link_mem) | (with_reducible apply State.updCore_mem) | (with_reducible apply State.updCtx_mem) | (fail_if_no_progress (with_reducible apply State.HasMem.other)) | split | (intro _))

theorem State.xflags_mem {m : Mem} {s : State} {err : Bool} {empty : Bool} (hs : s.HasMem m) : (State.xflags s err empty).HasMem m := by
  unfold State.xflags
  try dsimp only
  (repeat' first | with_reducible assumption | (with_reducible refine State.HasMem.foldl ?_ ?_) | (with_reducible apply State.updCore_mem) | (fail_if_no_progress (with_reducible apply State.HasMem.other)) | split | (intro _))

theorem State.xvalRead_mem {m : Mem} {s : State} {ret : _} {out : State} (e : State.xvalRead s = (ret, out)) (hs : s.HasMem m) : out.HasMem m := by
  unfold State.xvalRead at e
  try dsimp only at e
  (repeat' split at e) <;> (try simp only [Except.ok.injEq, Option.some.injEq, Prod.mk.injEq, reduceCtorEq] at e) <;> (first | (obtain ⟨e1, e2⟩ := e; subst e1 e2) | (subst e) | skip) <;> (repeat' first | with_reducible assumption | (with_reducible refine State.HasMem.foldl ?_ ?_) | (with_reducible apply State.xflags_mem) | (fail_if_no_progress (with_reducible apply State.HasMem.other)) | split | (intro _))

theorem State.xvalWrite_mem {m : Mem} {s : State} {v : W64} (hs : s.HasMem m) : (State.xvalWrite s v).HasMem m := by
  unfold State.xvalWrite
  try dsimp only
  (repeat' first | with_reducible assumption | (with_reducible refine State.HasMem.foldl ?_ ?_) | (with_reducible apply State.xflags_mem) | (with_reducible apply State.sysWrite_mem) | (with_reducible apply State.setRegAt_mem) | (fail_if_no_progress (with_reducible apply State.HasMem.other)) | split | (intro _))

theorem execSysr_mem {m : Mem} {f : ImmFmt} {s : State} (hs : s.HasMem m) : OutHasMem m (execSysr f s) := by
  unfold execSysr
  try dsimp only
  (repeat' first | with_reducible assumption | (with_reducible apply OutHasMem.next) | (with_reducible exact OutHasMem.fault) | (with_reducible refine State.HasMem.foldl ?_ ?_) | (with_reducible apply State.perform_mem) | (with_reducible apply State.next_mem) | (with_reducible apply State.writeReg_mem) | (refine State.xvalRead_mem (by assumption) ?_) | (with_reducible refine State.xvalRead_mem (Prod.eta _).symm ?_) | (fail_if_no_progress (with_reducible apply State.HasMem.other)) | split | (intro _))

theorem execSysw_mem {m : Mem} {f : ImmFmt} {s : State} (hs : s.HasMem m) : OutHasMem m (execSysw f s) := by
  unfold execSysw
  try dsimp only
  (repeat' first | with_reducible assumption | (with_reducible apply OutHasMem.next) | (with_reducible exact OutHasMem.fault) | (with_reducible refine State.HasMem.foldl ?_ ?_) | (with_reducible apply State.xvalWrite_mem) | (with_reducible apply State.sysWrite_mem) | (with_reducible apply State.perform_mem) | (with_reducible apply State.next_mem) | (fail_if_no_progress (with_reducible apply State.HasMem.other)) | split | (intro _))

theorem State.startAction_mem {m : Mem} {s : State} {a : W64} {b : W64} {ret : _} {out : State} (e : State.startAction s a b = (ret, out)) (hs : s.HasMem m) : out.HasMem m := by
  unfold State.startAction at e
  try dsimp only at e
  (repeat' split at e) <;> (try simp only [Except.ok.injEq, Option.some.injEq, Prod.mk.injEq, reduceCtorEq] at e) <;> (first | (obtain ⟨e1, e2⟩ := e; subst e1 e2) | (subst e) | skip) <;> (repeat' first | with_reducible assumption | (with_reducible refine State.HasMem.foldl ?_ ?_) | (with_reducible apply State.resume_mem) | (with_reducible apply State.startCtx_mem) | (with_reducible apply State.updCtx_mem) | (fail_if_no_progress (with_reducible apply State.HasMem.other)) | split | (intro _))

theorem execStart_mem {m : Mem} {f : RegFmt} {s : State} (hs : s.HasMem m) : OutHasMem m (execStart f s) := by
  unfold execStart
  try dsimp only
  (repeat' first | with_reducible assumption | (with_reducible apply OutHasMem.next) | (with_reducible exact OutHasMem.fault) | (with_reducible refine State.HasMem.foldl ?_ ?_) | (with_reducible apply State.perform_mem) | (with_reducible apply State.next_mem) | (with_reducible apply State.writeReg_mem) | (refine State.startAction_mem (by assumption) ?_) | (with_reducible refine State.startAction_mem (Prod.eta _).symm ?_) | (fail_if_no_progress (with_reducible apply State.HasMem.other)) | split | (intro _))

theorem execReap_mem {m : Mem} {f : RegFmt} {s : State} (hs : s.HasMem m) : OutHasMem m (execReap f s) := by
  unfold execReap
  try dsimp only
  (repeat' first | with_reducible assumption | (with_reducible apply OutHasMem.next) | (with_reducible exact OutHasMem.fault) | (with_reducible refine State.HasMem.foldl ?_ ?_) | (with_reducible apply State.perform_mem) | (with_reducible apply State.next_mem) | (with_reducible apply State.endWork_mem) | (with_reducible apply State.writeReg_mem) | (fail_if_no_progress (with_reducible apply State.HasMem.other)) | split | (intro _))

theorem execPair_mem {m : Mem} {f : ImmFmt} {s : State} (hs : s.HasMem m) : OutHasMem m (execPair f s) := by
  unfold execPair
  try dsimp only
  (repeat' first | with_reducible assumption | (with_reducible apply OutHasMem.next) | (with_reducible exact OutHasMem.fault) | (with_reducible refine State.HasMem.foldl ?_ ?_) | (with_reducible apply State.perform_mem) | (with_reducible apply State.next_mem) | (with_reducible apply State.writeReg_mem) | (with_reducible apply State.updCore_mem) | (fail_if_no_progress (with_reducible apply State.HasMem.other)) | split | (intro _))

theorem execTrap_mem {m : Mem} {f : ImmFmt} {s : State} (hs : s.HasMem m) : OutHasMem m (execTrap f s) := by
  unfold execTrap
  try dsimp only
  (repeat' first | with_reducible assumption | (with_reducible apply OutHasMem.next) | (with_reducible exact OutHasMem.fault) | (with_reducible refine State.HasMem.foldl ?_ ?_) | (with_reducible apply State.perform_mem) | (with_reducible apply State.raiseSw_mem) | (fail_if_no_progress (with_reducible apply State.HasMem.other)) | split | (intro _))

theorem execRett_mem {m : Mem} {u0 : NoneFmt} {s : State} (hs : s.HasMem m) : OutHasMem m (execRett u0 s) := by
  unfold execRett
  try dsimp only
  (repeat' first | with_reducible assumption | (with_reducible apply OutHasMem.next) | (with_reducible exact OutHasMem.fault) | (with_reducible refine State.HasMem.foldl ?_ ?_) | (with_reducible apply State.perform_mem) | (with_reducible apply State.returnFromTrap_mem) | (with_reducible apply State.leaveHandler_mem) | (with_reducible apply State.raise_mem) | (fail_if_no_progress (with_reducible apply State.HasMem.other)) | split | (intro _))

theorem execNop_mem {m : Mem} {u0 : NoneFmt} {s : State} (hs : s.HasMem m) : OutHasMem m (execNop u0 s) := by
  unfold execNop
  try dsimp only
  (repeat' first | with_reducible assumption | (with_reducible apply OutHasMem.next) | (with_reducible exact OutHasMem.fault) | (with_reducible refine State.HasMem.foldl ?_ ?_) | (with_reducible apply State.next_mem) | (fail_if_no_progress (with_reducible apply State.HasMem.other)) | split | (intro _))

theorem State.sendTrigger_mem {m : Mem} {s : State} {op : Nat} {d : Nat} {ctr : W64} {h : W64} {scope : BitVec 4} (hs : s.HasMem m) : (State.sendTrigger s op d ctr h scope).HasMem m := by
  unfold State.sendTrigger
  try dsimp only
  (repeat' first | with_reducible assumption | (with_reducible refine State.HasMem.foldl ?_ ?_) | (with_reducible apply State.send_mem) | (with_reducible apply State.next_mem) | (with_reducible apply State.markEmpty_mem) | (refine State.newRid_mem (by assumption) ?_) | (with_reducible refine State.newRid_mem (Prod.eta _).symm ?_) | (fail_if_no_progress (with_reducible apply State.HasMem.other)) | split | (intro _))

theorem State.copyIssue_mem {m : Mem} {s : State} {f : CopyFmt} {form : CopyForm} {trig : Bool} (hs : s.HasMem m) : OutHasMem m (State.copyIssue s f form trig) := by
  unfold State.copyIssue
  try dsimp only
  (repeat' first | with_reducible assumption | (with_reducible apply OutHasMem.next) | (with_reducible exact OutHasMem.fault) | (with_reducible refine State.HasMem.foldl ?_ ?_) | (with_reducible apply State.id_mem) | (with_reducible apply State.sendTrigger_mem) | (with_reducible apply State.issueOp_mem) | (with_reducible apply State.sendOut_mem) | (with_reducible apply State.perform_mem) | (with_reducible apply State.next_mem) | (with_reducible apply State.updCur_mem) | (refine State.newOp_mem (by assumption) ?_) | (with_reducible refine State.newOp_mem (Prod.eta _).symm ?_) | (fail_if_no_progress (with_reducible apply State.HasMem.other)) | split | (intro _))

theorem execCopy_mem {m : Mem} {f : CopyFmt} {s : State} (hs : s.HasMem m) : OutHasMem m (execCopy f s) := by
  unfold execCopy
  try dsimp only
  (repeat' first | with_reducible assumption | (with_reducible apply OutHasMem.next) | (with_reducible exact OutHasMem.fault) | (with_reducible refine State.HasMem.foldl ?_ ?_) | (with_reducible apply State.copyIssue_mem) | (fail_if_no_progress (with_reducible apply State.HasMem.other)) | split | (intro _))

theorem execCopyStr_mem {m : Mem} {f : CopyFmt} {s : State} (hs : s.HasMem m) : OutHasMem m (execCopyStr f s) := by
  unfold execCopyStr
  try dsimp only
  (repeat' first | with_reducible assumption | (with_reducible apply OutHasMem.next) | (with_reducible exact OutHasMem.fault) | (with_reducible refine State.HasMem.foldl ?_ ?_) | (with_reducible apply State.copyIssue_mem) | (fail_if_no_progress (with_reducible apply State.HasMem.other)) | split | (intro _))

theorem execCopyGth_mem {m : Mem} {f : CopyFmt} {s : State} (hs : s.HasMem m) : OutHasMem m (execCopyGth f s) := by
  unfold execCopyGth
  try dsimp only
  (repeat' first | with_reducible assumption | (with_reducible apply OutHasMem.next) | (with_reducible exact OutHasMem.fault) | (with_reducible refine State.HasMem.foldl ?_ ?_) | (with_reducible apply State.copyIssue_mem) | (fail_if_no_progress (with_reducible apply State.HasMem.other)) | split | (intro _))

theorem execCopySct_mem {m : Mem} {f : CopyFmt} {s : State} (hs : s.HasMem m) : OutHasMem m (execCopySct f s) := by
  unfold execCopySct
  try dsimp only
  (repeat' first | with_reducible assumption | (with_reducible apply OutHasMem.next) | (with_reducible exact OutHasMem.fault) | (with_reducible refine State.HasMem.foldl ?_ ?_) | (with_reducible apply State.copyIssue_mem) | (fail_if_no_progress (with_reducible apply State.HasMem.other)) | split | (intro _))

theorem execCopyTrg_mem {m : Mem} {f : CopyFmt} {s : State} (hs : s.HasMem m) : OutHasMem m (execCopyTrg f s) := by
  unfold execCopyTrg
  try dsimp only
  (repeat' first | with_reducible assumption | (with_reducible apply OutHasMem.next) | (with_reducible exact OutHasMem.fault) | (with_reducible refine State.HasMem.foldl ?_ ?_) | (with_reducible apply State.copyIssue_mem) | (fail_if_no_progress (with_reducible apply State.HasMem.other)) | split | (intro _))

theorem execCopyStrTrg_mem {m : Mem} {f : CopyFmt} {s : State} (hs : s.HasMem m) : OutHasMem m (execCopyStrTrg f s) := by
  unfold execCopyStrTrg
  try dsimp only
  (repeat' first | with_reducible assumption | (with_reducible apply OutHasMem.next) | (with_reducible exact OutHasMem.fault) | (with_reducible refine State.HasMem.foldl ?_ ?_) | (with_reducible apply State.copyIssue_mem) | (fail_if_no_progress (with_reducible apply State.HasMem.other)) | split | (intro _))

theorem execCopyGthTrg_mem {m : Mem} {f : CopyFmt} {s : State} (hs : s.HasMem m) : OutHasMem m (execCopyGthTrg f s) := by
  unfold execCopyGthTrg
  try dsimp only
  (repeat' first | with_reducible assumption | (with_reducible apply OutHasMem.next) | (with_reducible exact OutHasMem.fault) | (with_reducible refine State.HasMem.foldl ?_ ?_) | (with_reducible apply State.copyIssue_mem) | (fail_if_no_progress (with_reducible apply State.HasMem.other)) | split | (intro _))

theorem execCopySctTrg_mem {m : Mem} {f : CopyFmt} {s : State} (hs : s.HasMem m) : OutHasMem m (execCopySctTrg f s) := by
  unfold execCopySctTrg
  try dsimp only
  (repeat' first | with_reducible assumption | (with_reducible apply OutHasMem.next) | (with_reducible exact OutHasMem.fault) | (with_reducible refine State.HasMem.foldl ?_ ?_) | (with_reducible apply State.copyIssue_mem) | (fail_if_no_progress (with_reducible apply State.HasMem.other)) | split | (intro _))

theorem execPrefTier_mem {m : Mem} {f : CopyFmt} {s : State} (hs : s.HasMem m) : OutHasMem m (execPrefTier f s) := by
  unfold execPrefTier
  try dsimp only
  (repeat' first | with_reducible assumption | (with_reducible apply OutHasMem.next) | (with_reducible exact OutHasMem.fault) | (with_reducible refine State.HasMem.foldl ?_ ?_) | (with_reducible apply State.issueOp_mem) | (with_reducible apply State.perform_mem) | (with_reducible apply State.next_mem) | (fail_if_no_progress (with_reducible apply State.HasMem.other)) | split | (intro _))

theorem execLayout_mem {m : Mem} {f : LayFmt} {s : State} (hs : s.HasMem m) : OutHasMem m (execLayout f s) := by
  unfold execLayout
  try dsimp only
  (repeat' first | with_reducible assumption | (with_reducible apply OutHasMem.next) | (with_reducible exact OutHasMem.fault) | (with_reducible refine State.HasMem.foldl ?_ ?_) | (with_reducible apply State.issueOp_mem) | (with_reducible apply State.perform_mem) | (with_reducible apply State.next_mem) | (fail_if_no_progress (with_reducible apply State.HasMem.other)) | split | (intro _))

theorem execLayoutAb_mem {m : Mem} {f : LayFmt} {s : State} (hs : s.HasMem m) : OutHasMem m (execLayoutAb f s) := by
  unfold execLayoutAb
  try dsimp only
  (repeat' first | with_reducible assumption | (with_reducible apply OutHasMem.next) | (with_reducible exact OutHasMem.fault) | (with_reducible refine State.HasMem.foldl ?_ ?_) | (with_reducible apply State.issueOp_mem) | (with_reducible apply State.perform_mem) | (with_reducible apply State.next_mem) | (fail_if_no_progress (with_reducible apply State.HasMem.other)) | split | (intro _))

theorem State.collIssue_mem {m : Mem} {s : State} {f : ColFmt} {dsts : List (BitVec 7)} {srcs : List (BitVec 7)} {addrs : List Check} {range : Check} {values : List Bool} {peers : List W64} {lines : Check} {effect : State → State} (hs : s.HasMem m) (heffect : ∀ a0, a0.HasMem m → (effect a0).HasMem m) : OutHasMem m (State.collIssue s f dsts srcs addrs range values peers lines effect) := by
  unfold State.collIssue
  try dsimp only
  (repeat' first | with_reducible assumption | (with_reducible apply OutHasMem.next) | (with_reducible exact OutHasMem.fault) | (with_reducible refine State.HasMem.foldl ?_ ?_) | (with_reducible apply heffect) | (with_reducible apply State.perform_mem) | (with_reducible apply State.next_mem) | (fail_if_no_progress (with_reducible apply State.HasMem.other)) | split | (intro _))

theorem execCollOpen_mem {m : Mem} {f : ColFmt} {s : State} (hs : s.HasMem m) : OutHasMem m (execCollOpen f s) := by
  unfold execCollOpen
  try dsimp only
  (repeat' first | with_reducible assumption | (with_reducible apply OutHasMem.next) | (with_reducible exact OutHasMem.fault) | (with_reducible refine State.HasMem.foldl ?_ ?_) | (with_reducible apply State.collIssue_mem) | (with_reducible apply State.issueOp_mem) | (fail_if_no_progress (with_reducible apply State.HasMem.other)) | split | (intro _))

theorem execCollPut_mem {m : Mem} {f : ColFmt} {s : State} (hs : s.HasMem m) : OutHasMem m (execCollPut f s) := by
  unfold execCollPut
  try dsimp only
  (repeat' first | with_reducible assumption | (with_reducible apply OutHasMem.next) | (with_reducible exact OutHasMem.fault) | (with_reducible refine State.HasMem.foldl ?_ ?_) | (with_reducible apply State.collIssue_mem) | (with_reducible apply State.issueOp_mem) | (with_reducible apply State.updCur_mem) | (fail_if_no_progress (with_reducible apply State.HasMem.other)) | split | (intro _))

theorem execCollGet_mem {m : Mem} {f : ColFmt} {s : State} (hs : s.HasMem m) : OutHasMem m (execCollGet f s) := by
  unfold execCollGet
  try dsimp only
  (repeat' first | with_reducible assumption | (with_reducible apply OutHasMem.next) | (with_reducible exact OutHasMem.fault) | (with_reducible refine State.HasMem.foldl ?_ ?_) | (with_reducible apply State.collIssue_mem) | (with_reducible apply State.issueOp_mem) | (with_reducible apply State.markEmpty_mem) | (with_reducible apply State.updCur_mem) | (fail_if_no_progress (with_reducible apply State.HasMem.other)) | split | (intro _))

theorem execCollMark_mem {m : Mem} {f : ColFmt} {s : State} (hs : s.HasMem m) : OutHasMem m (execCollMark f s) := by
  unfold execCollMark
  try dsimp only
  (repeat' first | with_reducible assumption | (with_reducible apply OutHasMem.next) | (with_reducible exact OutHasMem.fault) | (with_reducible refine State.HasMem.foldl ?_ ?_) | (with_reducible apply State.collIssue_mem) | (with_reducible apply State.issueOp_mem) | (fail_if_no_progress (with_reducible apply State.HasMem.other)) | split | (intro _))

end Sys2Proof.Machine
end

