-- ==== Sys2Proof/Laws/State.lean ====
section
/-!
SUPPORT. What each update of the state leaves as it was, field by field, and what it reads back as.
-/

namespace Sys2Proof.Machine

open Sys2Proof

/-! ### setCtx -/

@[simp] theorem State.mem_setCtx (s : State) (g : Nat) (c : Ctx) : (s.setCtx g c).mem = s.mem := rfl
@[simp] theorem State.sluice_setCtx (s : State) (g : Nat) (c : Ctx) : (s.setCtx g c).sluice = s.sluice := rfl
@[simp] theorem State.eng_setCtx (s : State) (g : Nat) (c : Ctx) : (s.setCtx g c).eng = s.eng := rfl
@[simp] theorem State.dies_setCtx (s : State) (g : Nat) (c : Ctx) : (s.setCtx g c).dies = s.dies := rfl
@[simp] theorem State.fw_setCtx (s : State) (g : Nat) (c : Ctx) : (s.setCtx g c).fw = s.fw := rfl
@[simp] theorem State.fab_setCtx (s : State) (g : Nat) (c : Ctx) : (s.setCtx g c).fab = s.fab := rfl
@[simp] theorem State.boot_setCtx (s : State) (g : Nat) (c : Ctx) : (s.setCtx g c).boot = s.boot := rfl
@[simp] theorem State.sched_setCtx (s : State) (g : Nat) (c : Ctx) : (s.setCtx g c).sched = s.sched := rfl
@[simp] theorem State.cores_setCtx (s : State) (g : Nat) (c : Ctx) : (s.setCtx g c).cpu.cores = s.cpu.cores := rfl
@[simp] theorem State.regs_setCtx (s : State) (g : Nat) (c : Ctx) : (s.setCtx g c).cpu.regs = s.cpu.regs := rfl
@[simp] theorem State.regEmpty_setCtx (s : State) (g : Nat) (c : Ctx) : (s.setCtx g c).cpu.regEmpty = s.cpu.regEmpty := rfl
@[simp] theorem State.ab_setCtx (s : State) (g : Nat) (c : Ctx) : (s.setCtx g c).cpu.ab = s.cpu.ab := rfl
@[simp] theorem State.abEmpty_setCtx (s : State) (g : Nat) (c : Ctx) : (s.setCtx g c).cpu.abEmpty = s.cpu.abEmpty := rfl
@[simp] theorem State.ps_setCtx (s : State) (g : Nat) (c : Ctx) : (s.setCtx g c).cpu.ps = s.cpu.ps := rfl
@[simp] theorem State.wb_setCtx (s : State) (g : Nat) (c : Ctx) : (s.setCtx g c).cpu.wb = s.cpu.wb := rfl
@[simp] theorem State.tiles_setCtx (s : State) (g : Nat) (c : Ctx) : (s.setCtx g c).cpu.tiles = s.cpu.tiles := rfl

/-! ### updCtx -/

@[simp] theorem State.mem_updCtx (s : State) (g : Nat) (f : Ctx → Ctx) : (s.updCtx g f).mem = s.mem := rfl
@[simp] theorem State.sluice_updCtx (s : State) (g : Nat) (f : Ctx → Ctx) : (s.updCtx g f).sluice = s.sluice := rfl
@[simp] theorem State.eng_updCtx (s : State) (g : Nat) (f : Ctx → Ctx) : (s.updCtx g f).eng = s.eng := rfl
@[simp] theorem State.dies_updCtx (s : State) (g : Nat) (f : Ctx → Ctx) : (s.updCtx g f).dies = s.dies := rfl
@[simp] theorem State.fw_updCtx (s : State) (g : Nat) (f : Ctx → Ctx) : (s.updCtx g f).fw = s.fw := rfl
@[simp] theorem State.fab_updCtx (s : State) (g : Nat) (f : Ctx → Ctx) : (s.updCtx g f).fab = s.fab := rfl
@[simp] theorem State.boot_updCtx (s : State) (g : Nat) (f : Ctx → Ctx) : (s.updCtx g f).boot = s.boot := rfl
@[simp] theorem State.sched_updCtx (s : State) (g : Nat) (f : Ctx → Ctx) : (s.updCtx g f).sched = s.sched := rfl
@[simp] theorem State.cores_updCtx (s : State) (g : Nat) (f : Ctx → Ctx) : (s.updCtx g f).cpu.cores = s.cpu.cores := rfl
@[simp] theorem State.regs_updCtx (s : State) (g : Nat) (f : Ctx → Ctx) : (s.updCtx g f).cpu.regs = s.cpu.regs := rfl
@[simp] theorem State.regEmpty_updCtx (s : State) (g : Nat) (f : Ctx → Ctx) : (s.updCtx g f).cpu.regEmpty = s.cpu.regEmpty := rfl
@[simp] theorem State.ab_updCtx (s : State) (g : Nat) (f : Ctx → Ctx) : (s.updCtx g f).cpu.ab = s.cpu.ab := rfl
@[simp] theorem State.abEmpty_updCtx (s : State) (g : Nat) (f : Ctx → Ctx) : (s.updCtx g f).cpu.abEmpty = s.cpu.abEmpty := rfl
@[simp] theorem State.ps_updCtx (s : State) (g : Nat) (f : Ctx → Ctx) : (s.updCtx g f).cpu.ps = s.cpu.ps := rfl
@[simp] theorem State.wb_updCtx (s : State) (g : Nat) (f : Ctx → Ctx) : (s.updCtx g f).cpu.wb = s.cpu.wb := rfl
@[simp] theorem State.tiles_updCtx (s : State) (g : Nat) (f : Ctx → Ctx) : (s.updCtx g f).cpu.tiles = s.cpu.tiles := rfl

/-! ### updCur -/

@[simp] theorem State.mem_updCur (s : State) (f : Ctx → Ctx) : (s.updCur f).mem = s.mem := rfl
@[simp] theorem State.sluice_updCur (s : State) (f : Ctx → Ctx) : (s.updCur f).sluice = s.sluice := rfl
@[simp] theorem State.eng_updCur (s : State) (f : Ctx → Ctx) : (s.updCur f).eng = s.eng := rfl
@[simp] theorem State.dies_updCur (s : State) (f : Ctx → Ctx) : (s.updCur f).dies = s.dies := rfl
@[simp] theorem State.fw_updCur (s : State) (f : Ctx → Ctx) : (s.updCur f).fw = s.fw := rfl
@[simp] theorem State.fab_updCur (s : State) (f : Ctx → Ctx) : (s.updCur f).fab = s.fab := rfl
@[simp] theorem State.boot_updCur (s : State) (f : Ctx → Ctx) : (s.updCur f).boot = s.boot := rfl
@[simp] theorem State.sched_updCur (s : State) (f : Ctx → Ctx) : (s.updCur f).sched = s.sched := rfl
@[simp] theorem State.cores_updCur (s : State) (f : Ctx → Ctx) : (s.updCur f).cpu.cores = s.cpu.cores := rfl
@[simp] theorem State.regs_updCur (s : State) (f : Ctx → Ctx) : (s.updCur f).cpu.regs = s.cpu.regs := rfl
@[simp] theorem State.regEmpty_updCur (s : State) (f : Ctx → Ctx) : (s.updCur f).cpu.regEmpty = s.cpu.regEmpty := rfl
@[simp] theorem State.ab_updCur (s : State) (f : Ctx → Ctx) : (s.updCur f).cpu.ab = s.cpu.ab := rfl
@[simp] theorem State.abEmpty_updCur (s : State) (f : Ctx → Ctx) : (s.updCur f).cpu.abEmpty = s.cpu.abEmpty := rfl
@[simp] theorem State.ps_updCur (s : State) (f : Ctx → Ctx) : (s.updCur f).cpu.ps = s.cpu.ps := rfl
@[simp] theorem State.wb_updCur (s : State) (f : Ctx → Ctx) : (s.updCur f).cpu.wb = s.cpu.wb := rfl
@[simp] theorem State.tiles_updCur (s : State) (f : Ctx → Ctx) : (s.updCur f).cpu.tiles = s.cpu.tiles := rfl

/-! ### orFlags -/

@[simp] theorem State.mem_orFlags (s : State) (g : Nat) (fl : BitVec 5) : (s.orFlags g fl).mem = s.mem := rfl
@[simp] theorem State.sluice_orFlags (s : State) (g : Nat) (fl : BitVec 5) : (s.orFlags g fl).sluice = s.sluice := rfl
@[simp] theorem State.eng_orFlags (s : State) (g : Nat) (fl : BitVec 5) : (s.orFlags g fl).eng = s.eng := rfl
@[simp] theorem State.dies_orFlags (s : State) (g : Nat) (fl : BitVec 5) : (s.orFlags g fl).dies = s.dies := rfl
@[simp] theorem State.fw_orFlags (s : State) (g : Nat) (fl : BitVec 5) : (s.orFlags g fl).fw = s.fw := rfl
@[simp] theorem State.fab_orFlags (s : State) (g : Nat) (fl : BitVec 5) : (s.orFlags g fl).fab = s.fab := rfl
@[simp] theorem State.boot_orFlags (s : State) (g : Nat) (fl : BitVec 5) : (s.orFlags g fl).boot = s.boot := rfl
@[simp] theorem State.sched_orFlags (s : State) (g : Nat) (fl : BitVec 5) : (s.orFlags g fl).sched = s.sched := rfl
@[simp] theorem State.cores_orFlags (s : State) (g : Nat) (fl : BitVec 5) : (s.orFlags g fl).cpu.cores = s.cpu.cores := rfl
@[simp] theorem State.regs_orFlags (s : State) (g : Nat) (fl : BitVec 5) : (s.orFlags g fl).cpu.regs = s.cpu.regs := rfl
@[simp] theorem State.regEmpty_orFlags (s : State) (g : Nat) (fl : BitVec 5) : (s.orFlags g fl).cpu.regEmpty = s.cpu.regEmpty := rfl
@[simp] theorem State.ab_orFlags (s : State) (g : Nat) (fl : BitVec 5) : (s.orFlags g fl).cpu.ab = s.cpu.ab := rfl
@[simp] theorem State.abEmpty_orFlags (s : State) (g : Nat) (fl : BitVec 5) : (s.orFlags g fl).cpu.abEmpty = s.cpu.abEmpty := rfl
@[simp] theorem State.ps_orFlags (s : State) (g : Nat) (fl : BitVec 5) : (s.orFlags g fl).cpu.ps = s.cpu.ps := rfl
@[simp] theorem State.wb_orFlags (s : State) (g : Nat) (fl : BitVec 5) : (s.orFlags g fl).cpu.wb = s.cpu.wb := rfl
@[simp] theorem State.tiles_orFlags (s : State) (g : Nat) (fl : BitVec 5) : (s.orFlags g fl).cpu.tiles = s.cpu.tiles := rfl

/-! ### next -/

@[simp] theorem State.mem_next (s : State) : (s.next).mem = s.mem := rfl
@[simp] theorem State.sluice_next (s : State) : (s.next).sluice = s.sluice := rfl
@[simp] theorem State.eng_next (s : State) : (s.next).eng = s.eng := rfl
@[simp] theorem State.dies_next (s : State) : (s.next).dies = s.dies := rfl
@[simp] theorem State.fw_next (s : State) : (s.next).fw = s.fw := rfl
@[simp] theorem State.fab_next (s : State) : (s.next).fab = s.fab := rfl
@[simp] theorem State.boot_next (s : State) : (s.next).boot = s.boot := rfl
@[simp] theorem State.sched_next (s : State) : (s.next).sched = s.sched := rfl
@[simp] theorem State.cores_next (s : State) : (s.next).cpu.cores = s.cpu.cores := rfl
@[simp] theorem State.regs_next (s : State) : (s.next).cpu.regs = s.cpu.regs := rfl
@[simp] theorem State.regEmpty_next (s : State) : (s.next).cpu.regEmpty = s.cpu.regEmpty := rfl
@[simp] theorem State.ab_next (s : State) : (s.next).cpu.ab = s.cpu.ab := rfl
@[simp] theorem State.abEmpty_next (s : State) : (s.next).cpu.abEmpty = s.cpu.abEmpty := rfl
@[simp] theorem State.ps_next (s : State) : (s.next).cpu.ps = s.cpu.ps := rfl
@[simp] theorem State.wb_next (s : State) : (s.next).cpu.wb = s.cpu.wb := rfl
@[simp] theorem State.tiles_next (s : State) : (s.next).cpu.tiles = s.cpu.tiles := rfl

/-! ### jump -/

@[simp] theorem State.mem_jump (s : State) (pc : W64) : (s.jump pc).mem = s.mem := rfl
@[simp] theorem State.sluice_jump (s : State) (pc : W64) : (s.jump pc).sluice = s.sluice := rfl
@[simp] theorem State.eng_jump (s : State) (pc : W64) : (s.jump pc).eng = s.eng := rfl
@[simp] theorem State.dies_jump (s : State) (pc : W64) : (s.jump pc).dies = s.dies := rfl
@[simp] theorem State.fw_jump (s : State) (pc : W64) : (s.jump pc).fw = s.fw := rfl
@[simp] theorem State.fab_jump (s : State) (pc : W64) : (s.jump pc).fab = s.fab := rfl
@[simp] theorem State.boot_jump (s : State) (pc : W64) : (s.jump pc).boot = s.boot := rfl
@[simp] theorem State.sched_jump (s : State) (pc : W64) : (s.jump pc).sched = s.sched := rfl
@[simp] theorem State.cores_jump (s : State) (pc : W64) : (s.jump pc).cpu.cores = s.cpu.cores := rfl
@[simp] theorem State.regs_jump (s : State) (pc : W64) : (s.jump pc).cpu.regs = s.cpu.regs := rfl
@[simp] theorem State.regEmpty_jump (s : State) (pc : W64) : (s.jump pc).cpu.regEmpty = s.cpu.regEmpty := rfl
@[simp] theorem State.ab_jump (s : State) (pc : W64) : (s.jump pc).cpu.ab = s.cpu.ab := rfl
@[simp] theorem State.abEmpty_jump (s : State) (pc : W64) : (s.jump pc).cpu.abEmpty = s.cpu.abEmpty := rfl
@[simp] theorem State.ps_jump (s : State) (pc : W64) : (s.jump pc).cpu.ps = s.cpu.ps := rfl
@[simp] theorem State.wb_jump (s : State) (pc : W64) : (s.jump pc).cpu.wb = s.cpu.wb := rfl
@[simp] theorem State.tiles_jump (s : State) (pc : W64) : (s.jump pc).cpu.tiles = s.cpu.tiles := rfl

/-! ### parkOn -/

@[simp] theorem State.mem_parkOn (s : State) (p : Park) : (s.parkOn p).mem = s.mem := rfl
@[simp] theorem State.sluice_parkOn (s : State) (p : Park) : (s.parkOn p).sluice = s.sluice := rfl
@[simp] theorem State.eng_parkOn (s : State) (p : Park) : (s.parkOn p).eng = s.eng := rfl
@[simp] theorem State.dies_parkOn (s : State) (p : Park) : (s.parkOn p).dies = s.dies := rfl
@[simp] theorem State.fw_parkOn (s : State) (p : Park) : (s.parkOn p).fw = s.fw := rfl
@[simp] theorem State.fab_parkOn (s : State) (p : Park) : (s.parkOn p).fab = s.fab := rfl
@[simp] theorem State.boot_parkOn (s : State) (p : Park) : (s.parkOn p).boot = s.boot := rfl
@[simp] theorem State.sched_parkOn (s : State) (p : Park) : (s.parkOn p).sched = s.sched := rfl
@[simp] theorem State.cores_parkOn (s : State) (p : Park) : (s.parkOn p).cpu.cores = s.cpu.cores := rfl
@[simp] theorem State.regs_parkOn (s : State) (p : Park) : (s.parkOn p).cpu.regs = s.cpu.regs := rfl
@[simp] theorem State.regEmpty_parkOn (s : State) (p : Park) : (s.parkOn p).cpu.regEmpty = s.cpu.regEmpty := rfl
@[simp] theorem State.ab_parkOn (s : State) (p : Park) : (s.parkOn p).cpu.ab = s.cpu.ab := rfl
@[simp] theorem State.abEmpty_parkOn (s : State) (p : Park) : (s.parkOn p).cpu.abEmpty = s.cpu.abEmpty := rfl
@[simp] theorem State.ps_parkOn (s : State) (p : Park) : (s.parkOn p).cpu.ps = s.cpu.ps := rfl
@[simp] theorem State.wb_parkOn (s : State) (p : Park) : (s.parkOn p).cpu.wb = s.cpu.wb := rfl
@[simp] theorem State.tiles_parkOn (s : State) (p : Park) : (s.parkOn p).cpu.tiles = s.cpu.tiles := rfl

/-! ### updCore -/

@[simp] theorem State.mem_updCore (s : State) (k : Nat) (f : Core → Core) : (s.updCore k f).mem = s.mem := rfl
@[simp] theorem State.sluice_updCore (s : State) (k : Nat) (f : Core → Core) : (s.updCore k f).sluice = s.sluice := rfl
@[simp] theorem State.eng_updCore (s : State) (k : Nat) (f : Core → Core) : (s.updCore k f).eng = s.eng := rfl
@[simp] theorem State.dies_updCore (s : State) (k : Nat) (f : Core → Core) : (s.updCore k f).dies = s.dies := rfl
@[simp] theorem State.fw_updCore (s : State) (k : Nat) (f : Core → Core) : (s.updCore k f).fw = s.fw := rfl
@[simp] theorem State.fab_updCore (s : State) (k : Nat) (f : Core → Core) : (s.updCore k f).fab = s.fab := rfl
@[simp] theorem State.boot_updCore (s : State) (k : Nat) (f : Core → Core) : (s.updCore k f).boot = s.boot := rfl
@[simp] theorem State.sched_updCore (s : State) (k : Nat) (f : Core → Core) : (s.updCore k f).sched = s.sched := rfl
@[simp] theorem State.ctxs_updCore (s : State) (k : Nat) (f : Core → Core) : (s.updCore k f).cpu.ctxs = s.cpu.ctxs := rfl
@[simp] theorem State.regs_updCore (s : State) (k : Nat) (f : Core → Core) : (s.updCore k f).cpu.regs = s.cpu.regs := rfl
@[simp] theorem State.regEmpty_updCore (s : State) (k : Nat) (f : Core → Core) : (s.updCore k f).cpu.regEmpty = s.cpu.regEmpty := rfl
@[simp] theorem State.ab_updCore (s : State) (k : Nat) (f : Core → Core) : (s.updCore k f).cpu.ab = s.cpu.ab := rfl
@[simp] theorem State.abEmpty_updCore (s : State) (k : Nat) (f : Core → Core) : (s.updCore k f).cpu.abEmpty = s.cpu.abEmpty := rfl
@[simp] theorem State.ps_updCore (s : State) (k : Nat) (f : Core → Core) : (s.updCore k f).cpu.ps = s.cpu.ps := rfl
@[simp] theorem State.wb_updCore (s : State) (k : Nat) (f : Core → Core) : (s.updCore k f).cpu.wb = s.cpu.wb := rfl
@[simp] theorem State.tiles_updCore (s : State) (k : Nat) (f : Core → Core) : (s.updCore k f).cpu.tiles = s.cpu.tiles := rfl

/-! ### updDie -/

@[simp] theorem State.mem_updDie (s : State) (d : Nat) (f : Die → Die) : (s.updDie d f).mem = s.mem := rfl
@[simp] theorem State.sluice_updDie (s : State) (d : Nat) (f : Die → Die) : (s.updDie d f).sluice = s.sluice := rfl
@[simp] theorem State.eng_updDie (s : State) (d : Nat) (f : Die → Die) : (s.updDie d f).eng = s.eng := rfl
@[simp] theorem State.fw_updDie (s : State) (d : Nat) (f : Die → Die) : (s.updDie d f).fw = s.fw := rfl
@[simp] theorem State.fab_updDie (s : State) (d : Nat) (f : Die → Die) : (s.updDie d f).fab = s.fab := rfl
@[simp] theorem State.boot_updDie (s : State) (d : Nat) (f : Die → Die) : (s.updDie d f).boot = s.boot := rfl
@[simp] theorem State.sched_updDie (s : State) (d : Nat) (f : Die → Die) : (s.updDie d f).sched = s.sched := rfl
@[simp] theorem State.cpu_updDie (s : State) (d : Nat) (f : Die → Die) : (s.updDie d f).cpu = s.cpu := rfl

/-! ### setPhys -/

@[simp] theorem State.mem_setPhys (s : State) (k : Nat) (v : W64) : (s.setPhys k v).mem = s.mem := rfl
@[simp] theorem State.sluice_setPhys (s : State) (k : Nat) (v : W64) : (s.setPhys k v).sluice = s.sluice := rfl
@[simp] theorem State.eng_setPhys (s : State) (k : Nat) (v : W64) : (s.setPhys k v).eng = s.eng := rfl
@[simp] theorem State.dies_setPhys (s : State) (k : Nat) (v : W64) : (s.setPhys k v).dies = s.dies := rfl
@[simp] theorem State.fw_setPhys (s : State) (k : Nat) (v : W64) : (s.setPhys k v).fw = s.fw := rfl
@[simp] theorem State.fab_setPhys (s : State) (k : Nat) (v : W64) : (s.setPhys k v).fab = s.fab := rfl
@[simp] theorem State.boot_setPhys (s : State) (k : Nat) (v : W64) : (s.setPhys k v).boot = s.boot := rfl
@[simp] theorem State.sched_setPhys (s : State) (k : Nat) (v : W64) : (s.setPhys k v).sched = s.sched := rfl
@[simp] theorem State.ctxs_setPhys (s : State) (k : Nat) (v : W64) : (s.setPhys k v).cpu.ctxs = s.cpu.ctxs := rfl
@[simp] theorem State.cores_setPhys (s : State) (k : Nat) (v : W64) : (s.setPhys k v).cpu.cores = s.cpu.cores := rfl
@[simp] theorem State.regEmpty_setPhys (s : State) (k : Nat) (v : W64) : (s.setPhys k v).cpu.regEmpty = s.cpu.regEmpty := rfl
@[simp] theorem State.ab_setPhys (s : State) (k : Nat) (v : W64) : (s.setPhys k v).cpu.ab = s.cpu.ab := rfl
@[simp] theorem State.abEmpty_setPhys (s : State) (k : Nat) (v : W64) : (s.setPhys k v).cpu.abEmpty = s.cpu.abEmpty := rfl
@[simp] theorem State.ps_setPhys (s : State) (k : Nat) (v : W64) : (s.setPhys k v).cpu.ps = s.cpu.ps := rfl
@[simp] theorem State.wb_setPhys (s : State) (k : Nat) (v : W64) : (s.setPhys k v).cpu.wb = s.cpu.wb := rfl
@[simp] theorem State.tiles_setPhys (s : State) (k : Nat) (v : W64) : (s.setPhys k v).cpu.tiles = s.cpu.tiles := rfl

/-! ### setRegAt -/

@[simp] theorem State.mem_setRegAt (s : State) (g n : Nat) (v : W64) : (s.setRegAt g n v).mem = s.mem := rfl
@[simp] theorem State.sluice_setRegAt (s : State) (g n : Nat) (v : W64) : (s.setRegAt g n v).sluice = s.sluice := rfl
@[simp] theorem State.eng_setRegAt (s : State) (g n : Nat) (v : W64) : (s.setRegAt g n v).eng = s.eng := rfl
@[simp] theorem State.dies_setRegAt (s : State) (g n : Nat) (v : W64) : (s.setRegAt g n v).dies = s.dies := rfl
@[simp] theorem State.fw_setRegAt (s : State) (g n : Nat) (v : W64) : (s.setRegAt g n v).fw = s.fw := rfl
@[simp] theorem State.fab_setRegAt (s : State) (g n : Nat) (v : W64) : (s.setRegAt g n v).fab = s.fab := rfl
@[simp] theorem State.boot_setRegAt (s : State) (g n : Nat) (v : W64) : (s.setRegAt g n v).boot = s.boot := rfl
@[simp] theorem State.sched_setRegAt (s : State) (g n : Nat) (v : W64) : (s.setRegAt g n v).sched = s.sched := rfl
@[simp] theorem State.ctxs_setRegAt (s : State) (g n : Nat) (v : W64) : (s.setRegAt g n v).cpu.ctxs = s.cpu.ctxs := rfl
@[simp] theorem State.cores_setRegAt (s : State) (g n : Nat) (v : W64) : (s.setRegAt g n v).cpu.cores = s.cpu.cores := rfl
@[simp] theorem State.regEmpty_setRegAt (s : State) (g n : Nat) (v : W64) : (s.setRegAt g n v).cpu.regEmpty = s.cpu.regEmpty := rfl
@[simp] theorem State.ab_setRegAt (s : State) (g n : Nat) (v : W64) : (s.setRegAt g n v).cpu.ab = s.cpu.ab := rfl
@[simp] theorem State.abEmpty_setRegAt (s : State) (g n : Nat) (v : W64) : (s.setRegAt g n v).cpu.abEmpty = s.cpu.abEmpty := rfl
@[simp] theorem State.ps_setRegAt (s : State) (g n : Nat) (v : W64) : (s.setRegAt g n v).cpu.ps = s.cpu.ps := rfl
@[simp] theorem State.wb_setRegAt (s : State) (g n : Nat) (v : W64) : (s.setRegAt g n v).cpu.wb = s.cpu.wb := rfl
@[simp] theorem State.tiles_setRegAt (s : State) (g n : Nat) (v : W64) : (s.setRegAt g n v).cpu.tiles = s.cpu.tiles := rfl

/-! ### writeReg -/

@[simp] theorem State.mem_writeReg (s : State) (n : BitVec 7) (v : W64) : (s.writeReg n v).mem = s.mem := rfl
@[simp] theorem State.sluice_writeReg (s : State) (n : BitVec 7) (v : W64) : (s.writeReg n v).sluice = s.sluice := rfl
@[simp] theorem State.eng_writeReg (s : State) (n : BitVec 7) (v : W64) : (s.writeReg n v).eng = s.eng := rfl
@[simp] theorem State.dies_writeReg (s : State) (n : BitVec 7) (v : W64) : (s.writeReg n v).dies = s.dies := rfl
@[simp] theorem State.fw_writeReg (s : State) (n : BitVec 7) (v : W64) : (s.writeReg n v).fw = s.fw := rfl
@[simp] theorem State.fab_writeReg (s : State) (n : BitVec 7) (v : W64) : (s.writeReg n v).fab = s.fab := rfl
@[simp] theorem State.boot_writeReg (s : State) (n : BitVec 7) (v : W64) : (s.writeReg n v).boot = s.boot := rfl
@[simp] theorem State.sched_writeReg (s : State) (n : BitVec 7) (v : W64) : (s.writeReg n v).sched = s.sched := rfl
@[simp] theorem State.ctxs_writeReg (s : State) (n : BitVec 7) (v : W64) : (s.writeReg n v).cpu.ctxs = s.cpu.ctxs := rfl
@[simp] theorem State.cores_writeReg (s : State) (n : BitVec 7) (v : W64) : (s.writeReg n v).cpu.cores = s.cpu.cores := rfl
@[simp] theorem State.regEmpty_writeReg (s : State) (n : BitVec 7) (v : W64) : (s.writeReg n v).cpu.regEmpty = s.cpu.regEmpty := rfl
@[simp] theorem State.ab_writeReg (s : State) (n : BitVec 7) (v : W64) : (s.writeReg n v).cpu.ab = s.cpu.ab := rfl
@[simp] theorem State.abEmpty_writeReg (s : State) (n : BitVec 7) (v : W64) : (s.writeReg n v).cpu.abEmpty = s.cpu.abEmpty := rfl
@[simp] theorem State.ps_writeReg (s : State) (n : BitVec 7) (v : W64) : (s.writeReg n v).cpu.ps = s.cpu.ps := rfl
@[simp] theorem State.wb_writeReg (s : State) (n : BitVec 7) (v : W64) : (s.writeReg n v).cpu.wb = s.cpu.wb := rfl
@[simp] theorem State.tiles_writeReg (s : State) (n : BitVec 7) (v : W64) : (s.writeReg n v).cpu.tiles = s.cpu.tiles := rfl

/-! ### setEmpty -/

@[simp] theorem State.mem_setEmpty (s : State) (k : Nat) (e : Bool) : (s.setEmpty k e).mem = s.mem := rfl
@[simp] theorem State.sluice_setEmpty (s : State) (k : Nat) (e : Bool) : (s.setEmpty k e).sluice = s.sluice := rfl
@[simp] theorem State.eng_setEmpty (s : State) (k : Nat) (e : Bool) : (s.setEmpty k e).eng = s.eng := rfl
@[simp] theorem State.dies_setEmpty (s : State) (k : Nat) (e : Bool) : (s.setEmpty k e).dies = s.dies := rfl
@[simp] theorem State.fw_setEmpty (s : State) (k : Nat) (e : Bool) : (s.setEmpty k e).fw = s.fw := rfl
@[simp] theorem State.fab_setEmpty (s : State) (k : Nat) (e : Bool) : (s.setEmpty k e).fab = s.fab := rfl
@[simp] theorem State.boot_setEmpty (s : State) (k : Nat) (e : Bool) : (s.setEmpty k e).boot = s.boot := rfl
@[simp] theorem State.sched_setEmpty (s : State) (k : Nat) (e : Bool) : (s.setEmpty k e).sched = s.sched := rfl
@[simp] theorem State.ctxs_setEmpty (s : State) (k : Nat) (e : Bool) : (s.setEmpty k e).cpu.ctxs = s.cpu.ctxs := rfl
@[simp] theorem State.cores_setEmpty (s : State) (k : Nat) (e : Bool) : (s.setEmpty k e).cpu.cores = s.cpu.cores := rfl
@[simp] theorem State.regs_setEmpty (s : State) (k : Nat) (e : Bool) : (s.setEmpty k e).cpu.regs = s.cpu.regs := rfl
@[simp] theorem State.ab_setEmpty (s : State) (k : Nat) (e : Bool) : (s.setEmpty k e).cpu.ab = s.cpu.ab := rfl
@[simp] theorem State.abEmpty_setEmpty (s : State) (k : Nat) (e : Bool) : (s.setEmpty k e).cpu.abEmpty = s.cpu.abEmpty := rfl
@[simp] theorem State.ps_setEmpty (s : State) (k : Nat) (e : Bool) : (s.setEmpty k e).cpu.ps = s.cpu.ps := rfl
@[simp] theorem State.wb_setEmpty (s : State) (k : Nat) (e : Bool) : (s.setEmpty k e).cpu.wb = s.cpu.wb := rfl
@[simp] theorem State.tiles_setEmpty (s : State) (k : Nat) (e : Bool) : (s.setEmpty k e).cpu.tiles = s.cpu.tiles := rfl

/-! ### markEmpty -/

@[simp] theorem State.mem_markEmpty (s : State) (g n : Nat) : (s.markEmpty g n).mem = s.mem := rfl
@[simp] theorem State.sluice_markEmpty (s : State) (g n : Nat) : (s.markEmpty g n).sluice = s.sluice := rfl
@[simp] theorem State.eng_markEmpty (s : State) (g n : Nat) : (s.markEmpty g n).eng = s.eng := rfl
@[simp] theorem State.dies_markEmpty (s : State) (g n : Nat) : (s.markEmpty g n).dies = s.dies := rfl
@[simp] theorem State.fw_markEmpty (s : State) (g n : Nat) : (s.markEmpty g n).fw = s.fw := rfl
@[simp] theorem State.fab_markEmpty (s : State) (g n : Nat) : (s.markEmpty g n).fab = s.fab := rfl
@[simp] theorem State.boot_markEmpty (s : State) (g n : Nat) : (s.markEmpty g n).boot = s.boot := rfl
@[simp] theorem State.sched_markEmpty (s : State) (g n : Nat) : (s.markEmpty g n).sched = s.sched := rfl
@[simp] theorem State.ctxs_markEmpty (s : State) (g n : Nat) : (s.markEmpty g n).cpu.ctxs = s.cpu.ctxs := rfl
@[simp] theorem State.cores_markEmpty (s : State) (g n : Nat) : (s.markEmpty g n).cpu.cores = s.cpu.cores := rfl
@[simp] theorem State.regs_markEmpty (s : State) (g n : Nat) : (s.markEmpty g n).cpu.regs = s.cpu.regs := rfl
@[simp] theorem State.ab_markEmpty (s : State) (g n : Nat) : (s.markEmpty g n).cpu.ab = s.cpu.ab := rfl
@[simp] theorem State.abEmpty_markEmpty (s : State) (g n : Nat) : (s.markEmpty g n).cpu.abEmpty = s.cpu.abEmpty := rfl
@[simp] theorem State.ps_markEmpty (s : State) (g n : Nat) : (s.markEmpty g n).cpu.ps = s.cpu.ps := rfl
@[simp] theorem State.wb_markEmpty (s : State) (g n : Nat) : (s.markEmpty g n).cpu.wb = s.cpu.wb := rfl
@[simp] theorem State.tiles_markEmpty (s : State) (g n : Nat) : (s.markEmpty g n).cpu.tiles = s.cpu.tiles := rfl

/-! ### setAb -/

@[simp] theorem State.mem_setAb (s : State) (c o : Nat) (bs : List Byte) : (s.setAb c o bs).mem = s.mem := rfl
@[simp] theorem State.sluice_setAb (s : State) (c o : Nat) (bs : List Byte) : (s.setAb c o bs).sluice = s.sluice := rfl
@[simp] theorem State.eng_setAb (s : State) (c o : Nat) (bs : List Byte) : (s.setAb c o bs).eng = s.eng := rfl
@[simp] theorem State.dies_setAb (s : State) (c o : Nat) (bs : List Byte) : (s.setAb c o bs).dies = s.dies := rfl
@[simp] theorem State.fw_setAb (s : State) (c o : Nat) (bs : List Byte) : (s.setAb c o bs).fw = s.fw := rfl
@[simp] theorem State.fab_setAb (s : State) (c o : Nat) (bs : List Byte) : (s.setAb c o bs).fab = s.fab := rfl
@[simp] theorem State.boot_setAb (s : State) (c o : Nat) (bs : List Byte) : (s.setAb c o bs).boot = s.boot := rfl
@[simp] theorem State.sched_setAb (s : State) (c o : Nat) (bs : List Byte) : (s.setAb c o bs).sched = s.sched := rfl
@[simp] theorem State.ctxs_setAb (s : State) (c o : Nat) (bs : List Byte) : (s.setAb c o bs).cpu.ctxs = s.cpu.ctxs := rfl
@[simp] theorem State.cores_setAb (s : State) (c o : Nat) (bs : List Byte) : (s.setAb c o bs).cpu.cores = s.cpu.cores := rfl
@[simp] theorem State.regs_setAb (s : State) (c o : Nat) (bs : List Byte) : (s.setAb c o bs).cpu.regs = s.cpu.regs := rfl
@[simp] theorem State.regEmpty_setAb (s : State) (c o : Nat) (bs : List Byte) : (s.setAb c o bs).cpu.regEmpty = s.cpu.regEmpty := rfl
@[simp] theorem State.abEmpty_setAb (s : State) (c o : Nat) (bs : List Byte) : (s.setAb c o bs).cpu.abEmpty = s.cpu.abEmpty := rfl
@[simp] theorem State.ps_setAb (s : State) (c o : Nat) (bs : List Byte) : (s.setAb c o bs).cpu.ps = s.cpu.ps := rfl
@[simp] theorem State.wb_setAb (s : State) (c o : Nat) (bs : List Byte) : (s.setAb c o bs).cpu.wb = s.cpu.wb := rfl
@[simp] theorem State.tiles_setAb (s : State) (c o : Nat) (bs : List Byte) : (s.setAb c o bs).cpu.tiles = s.cpu.tiles := rfl

/-! ### setPs -/

@[simp] theorem State.mem_setPs (s : State) (g o : Nat) (bs : List Byte) : (s.setPs g o bs).mem = s.mem := rfl
@[simp] theorem State.sluice_setPs (s : State) (g o : Nat) (bs : List Byte) : (s.setPs g o bs).sluice = s.sluice := rfl
@[simp] theorem State.eng_setPs (s : State) (g o : Nat) (bs : List Byte) : (s.setPs g o bs).eng = s.eng := rfl
@[simp] theorem State.dies_setPs (s : State) (g o : Nat) (bs : List Byte) : (s.setPs g o bs).dies = s.dies := rfl
@[simp] theorem State.fw_setPs (s : State) (g o : Nat) (bs : List Byte) : (s.setPs g o bs).fw = s.fw := rfl
@[simp] theorem State.fab_setPs (s : State) (g o : Nat) (bs : List Byte) : (s.setPs g o bs).fab = s.fab := rfl
@[simp] theorem State.boot_setPs (s : State) (g o : Nat) (bs : List Byte) : (s.setPs g o bs).boot = s.boot := rfl
@[simp] theorem State.sched_setPs (s : State) (g o : Nat) (bs : List Byte) : (s.setPs g o bs).sched = s.sched := rfl
@[simp] theorem State.ctxs_setPs (s : State) (g o : Nat) (bs : List Byte) : (s.setPs g o bs).cpu.ctxs = s.cpu.ctxs := rfl
@[simp] theorem State.cores_setPs (s : State) (g o : Nat) (bs : List Byte) : (s.setPs g o bs).cpu.cores = s.cpu.cores := rfl
@[simp] theorem State.regs_setPs (s : State) (g o : Nat) (bs : List Byte) : (s.setPs g o bs).cpu.regs = s.cpu.regs := rfl
@[simp] theorem State.regEmpty_setPs (s : State) (g o : Nat) (bs : List Byte) : (s.setPs g o bs).cpu.regEmpty = s.cpu.regEmpty := rfl
@[simp] theorem State.ab_setPs (s : State) (g o : Nat) (bs : List Byte) : (s.setPs g o bs).cpu.ab = s.cpu.ab := rfl
@[simp] theorem State.abEmpty_setPs (s : State) (g o : Nat) (bs : List Byte) : (s.setPs g o bs).cpu.abEmpty = s.cpu.abEmpty := rfl
@[simp] theorem State.wb_setPs (s : State) (g o : Nat) (bs : List Byte) : (s.setPs g o bs).cpu.wb = s.cpu.wb := rfl
@[simp] theorem State.tiles_setPs (s : State) (g o : Nat) (bs : List Byte) : (s.setPs g o bs).cpu.tiles = s.cpu.tiles := rfl

/-! ### setWb -/

@[simp] theorem State.mem_setWb (s : State) (c o : Nat) (bs : List Byte) : (s.setWb c o bs).mem = s.mem := rfl
@[simp] theorem State.sluice_setWb (s : State) (c o : Nat) (bs : List Byte) : (s.setWb c o bs).sluice = s.sluice := rfl
@[simp] theorem State.eng_setWb (s : State) (c o : Nat) (bs : List Byte) : (s.setWb c o bs).eng = s.eng := rfl
@[simp] theorem State.dies_setWb (s : State) (c o : Nat) (bs : List Byte) : (s.setWb c o bs).dies = s.dies := rfl
@[simp] theorem State.fw_setWb (s : State) (c o : Nat) (bs : List Byte) : (s.setWb c o bs).fw = s.fw := rfl
@[simp] theorem State.fab_setWb (s : State) (c o : Nat) (bs : List Byte) : (s.setWb c o bs).fab = s.fab := rfl
@[simp] theorem State.boot_setWb (s : State) (c o : Nat) (bs : List Byte) : (s.setWb c o bs).boot = s.boot := rfl
@[simp] theorem State.sched_setWb (s : State) (c o : Nat) (bs : List Byte) : (s.setWb c o bs).sched = s.sched := rfl
@[simp] theorem State.ctxs_setWb (s : State) (c o : Nat) (bs : List Byte) : (s.setWb c o bs).cpu.ctxs = s.cpu.ctxs := rfl
@[simp] theorem State.cores_setWb (s : State) (c o : Nat) (bs : List Byte) : (s.setWb c o bs).cpu.cores = s.cpu.cores := rfl
@[simp] theorem State.regs_setWb (s : State) (c o : Nat) (bs : List Byte) : (s.setWb c o bs).cpu.regs = s.cpu.regs := rfl
@[simp] theorem State.regEmpty_setWb (s : State) (c o : Nat) (bs : List Byte) : (s.setWb c o bs).cpu.regEmpty = s.cpu.regEmpty := rfl
@[simp] theorem State.ab_setWb (s : State) (c o : Nat) (bs : List Byte) : (s.setWb c o bs).cpu.ab = s.cpu.ab := rfl
@[simp] theorem State.abEmpty_setWb (s : State) (c o : Nat) (bs : List Byte) : (s.setWb c o bs).cpu.abEmpty = s.cpu.abEmpty := rfl
@[simp] theorem State.ps_setWb (s : State) (c o : Nat) (bs : List Byte) : (s.setWb c o bs).cpu.ps = s.cpu.ps := rfl
@[simp] theorem State.tiles_setWb (s : State) (c o : Nat) (bs : List Byte) : (s.setWb c o bs).cpu.tiles = s.cpu.tiles := rfl

/-! ### setLine -/

@[simp] theorem State.mem_setLine (s : State) (c l : Nat) (os : List Nat) : (s.setLine c l os).mem = s.mem := rfl
@[simp] theorem State.sluice_setLine (s : State) (c l : Nat) (os : List Nat) : (s.setLine c l os).sluice = s.sluice := rfl
@[simp] theorem State.eng_setLine (s : State) (c l : Nat) (os : List Nat) : (s.setLine c l os).eng = s.eng := rfl
@[simp] theorem State.dies_setLine (s : State) (c l : Nat) (os : List Nat) : (s.setLine c l os).dies = s.dies := rfl
@[simp] theorem State.fw_setLine (s : State) (c l : Nat) (os : List Nat) : (s.setLine c l os).fw = s.fw := rfl
@[simp] theorem State.fab_setLine (s : State) (c l : Nat) (os : List Nat) : (s.setLine c l os).fab = s.fab := rfl
@[simp] theorem State.boot_setLine (s : State) (c l : Nat) (os : List Nat) : (s.setLine c l os).boot = s.boot := rfl
@[simp] theorem State.sched_setLine (s : State) (c l : Nat) (os : List Nat) : (s.setLine c l os).sched = s.sched := rfl
@[simp] theorem State.ctxs_setLine (s : State) (c l : Nat) (os : List Nat) : (s.setLine c l os).cpu.ctxs = s.cpu.ctxs := rfl
@[simp] theorem State.cores_setLine (s : State) (c l : Nat) (os : List Nat) : (s.setLine c l os).cpu.cores = s.cpu.cores := rfl
@[simp] theorem State.regs_setLine (s : State) (c l : Nat) (os : List Nat) : (s.setLine c l os).cpu.regs = s.cpu.regs := rfl
@[simp] theorem State.regEmpty_setLine (s : State) (c l : Nat) (os : List Nat) : (s.setLine c l os).cpu.regEmpty = s.cpu.regEmpty := rfl
@[simp] theorem State.ab_setLine (s : State) (c l : Nat) (os : List Nat) : (s.setLine c l os).cpu.ab = s.cpu.ab := rfl
@[simp] theorem State.ps_setLine (s : State) (c l : Nat) (os : List Nat) : (s.setLine c l os).cpu.ps = s.cpu.ps := rfl
@[simp] theorem State.wb_setLine (s : State) (c l : Nat) (os : List Nat) : (s.setLine c l os).cpu.wb = s.cpu.wb := rfl
@[simp] theorem State.tiles_setLine (s : State) (c l : Nat) (os : List Nat) : (s.setLine c l os).cpu.tiles = s.cpu.tiles := rfl

/-! ### setTile -/

@[simp] theorem State.mem_setTile (s : State) (c t : Nat) (x : Tile) : (s.setTile c t x).mem = s.mem := rfl
@[simp] theorem State.sluice_setTile (s : State) (c t : Nat) (x : Tile) : (s.setTile c t x).sluice = s.sluice := rfl
@[simp] theorem State.eng_setTile (s : State) (c t : Nat) (x : Tile) : (s.setTile c t x).eng = s.eng := rfl
@[simp] theorem State.dies_setTile (s : State) (c t : Nat) (x : Tile) : (s.setTile c t x).dies = s.dies := rfl
@[simp] theorem State.fw_setTile (s : State) (c t : Nat) (x : Tile) : (s.setTile c t x).fw = s.fw := rfl
@[simp] theorem State.fab_setTile (s : State) (c t : Nat) (x : Tile) : (s.setTile c t x).fab = s.fab := rfl
@[simp] theorem State.boot_setTile (s : State) (c t : Nat) (x : Tile) : (s.setTile c t x).boot = s.boot := rfl
@[simp] theorem State.sched_setTile (s : State) (c t : Nat) (x : Tile) : (s.setTile c t x).sched = s.sched := rfl
@[simp] theorem State.ctxs_setTile (s : State) (c t : Nat) (x : Tile) : (s.setTile c t x).cpu.ctxs = s.cpu.ctxs := rfl
@[simp] theorem State.cores_setTile (s : State) (c t : Nat) (x : Tile) : (s.setTile c t x).cpu.cores = s.cpu.cores := rfl
@[simp] theorem State.regs_setTile (s : State) (c t : Nat) (x : Tile) : (s.setTile c t x).cpu.regs = s.cpu.regs := rfl
@[simp] theorem State.regEmpty_setTile (s : State) (c t : Nat) (x : Tile) : (s.setTile c t x).cpu.regEmpty = s.cpu.regEmpty := rfl
@[simp] theorem State.ab_setTile (s : State) (c t : Nat) (x : Tile) : (s.setTile c t x).cpu.ab = s.cpu.ab := rfl
@[simp] theorem State.abEmpty_setTile (s : State) (c t : Nat) (x : Tile) : (s.setTile c t x).cpu.abEmpty = s.cpu.abEmpty := rfl
@[simp] theorem State.ps_setTile (s : State) (c t : Nat) (x : Tile) : (s.setTile c t x).cpu.ps = s.cpu.ps := rfl
@[simp] theorem State.wb_setTile (s : State) (c t : Nat) (x : Tile) : (s.setTile c t x).cpu.wb = s.cpu.wb := rfl

/-! ### postIn -/

@[simp] theorem State.mem_postIn (s : State) (d : Nat) (ev : Instr) : (s.postIn d ev).mem = s.mem := rfl
@[simp] theorem State.sluice_postIn (s : State) (d : Nat) (ev : Instr) : (s.postIn d ev).sluice = s.sluice := rfl
@[simp] theorem State.eng_postIn (s : State) (d : Nat) (ev : Instr) : (s.postIn d ev).eng = s.eng := rfl
@[simp] theorem State.dies_postIn (s : State) (d : Nat) (ev : Instr) : (s.postIn d ev).dies = s.dies := rfl
@[simp] theorem State.fw_postIn (s : State) (d : Nat) (ev : Instr) : (s.postIn d ev).fw = s.fw := rfl
@[simp] theorem State.fab_postIn (s : State) (d : Nat) (ev : Instr) : (s.postIn d ev).fab = s.fab := rfl
@[simp] theorem State.boot_postIn (s : State) (d : Nat) (ev : Instr) : (s.postIn d ev).boot = s.boot := rfl
@[simp] theorem State.cpu_postIn (s : State) (d : Nat) (ev : Instr) : (s.postIn d ev).cpu = s.cpu := rfl

/-! ### post -/

@[simp] theorem State.mem_post (s : State) (ev : Instr) : (s.post ev).mem = s.mem := rfl
@[simp] theorem State.sluice_post (s : State) (ev : Instr) : (s.post ev).sluice = s.sluice := rfl
@[simp] theorem State.eng_post (s : State) (ev : Instr) : (s.post ev).eng = s.eng := rfl
@[simp] theorem State.dies_post (s : State) (ev : Instr) : (s.post ev).dies = s.dies := rfl
@[simp] theorem State.fw_post (s : State) (ev : Instr) : (s.post ev).fw = s.fw := rfl
@[simp] theorem State.fab_post (s : State) (ev : Instr) : (s.post ev).fab = s.fab := rfl
@[simp] theorem State.boot_post (s : State) (ev : Instr) : (s.post ev).boot = s.boot := rfl
@[simp] theorem State.cpu_post (s : State) (ev : Instr) : (s.post ev).cpu = s.cpu := rfl

/-! ### emit -/

@[simp] theorem State.mem_emit (s : State) (o : Outward) : (s.emit o).mem = s.mem := rfl
@[simp] theorem State.sluice_emit (s : State) (o : Outward) : (s.emit o).sluice = s.sluice := rfl
@[simp] theorem State.eng_emit (s : State) (o : Outward) : (s.emit o).eng = s.eng := rfl
@[simp] theorem State.dies_emit (s : State) (o : Outward) : (s.emit o).dies = s.dies := rfl
@[simp] theorem State.fw_emit (s : State) (o : Outward) : (s.emit o).fw = s.fw := rfl
@[simp] theorem State.boot_emit (s : State) (o : Outward) : (s.emit o).boot = s.boot := rfl
@[simp] theorem State.sched_emit (s : State) (o : Outward) : (s.emit o).sched = s.sched := rfl
@[simp] theorem State.cpu_emit (s : State) (o : Outward) : (s.emit o).cpu = s.cpu := rfl

/-! ### updTenant -/

@[simp] theorem State.mem_updTenant (s : State) (t : Nat) (f : Tenant → Tenant) : (s.updTenant t f).mem = s.mem := rfl
@[simp] theorem State.sluice_updTenant (s : State) (t : Nat) (f : Tenant → Tenant) : (s.updTenant t f).sluice = s.sluice := rfl
@[simp] theorem State.eng_updTenant (s : State) (t : Nat) (f : Tenant → Tenant) : (s.updTenant t f).eng = s.eng := rfl
@[simp] theorem State.dies_updTenant (s : State) (t : Nat) (f : Tenant → Tenant) : (s.updTenant t f).dies = s.dies := rfl
@[simp] theorem State.fab_updTenant (s : State) (t : Nat) (f : Tenant → Tenant) : (s.updTenant t f).fab = s.fab := rfl
@[simp] theorem State.boot_updTenant (s : State) (t : Nat) (f : Tenant → Tenant) : (s.updTenant t f).boot = s.boot := rfl
@[simp] theorem State.sched_updTenant (s : State) (t : Nat) (f : Tenant → Tenant) : (s.updTenant t f).sched = s.sched := rfl
@[simp] theorem State.cpu_updTenant (s : State) (t : Nat) (f : Tenant → Tenant) : (s.updTenant t f).cpu = s.cpu := rfl

/-! ### updOp -/

@[simp] theorem State.mem_updOp (s : State) (i : Nat) (f : EngOp → EngOp) : (s.updOp i f).mem = s.mem := rfl
@[simp] theorem State.sluice_updOp (s : State) (i : Nat) (f : EngOp → EngOp) : (s.updOp i f).sluice = s.sluice := rfl
@[simp] theorem State.dies_updOp (s : State) (i : Nat) (f : EngOp → EngOp) : (s.updOp i f).dies = s.dies := rfl
@[simp] theorem State.fw_updOp (s : State) (i : Nat) (f : EngOp → EngOp) : (s.updOp i f).fw = s.fw := rfl
@[simp] theorem State.fab_updOp (s : State) (i : Nat) (f : EngOp → EngOp) : (s.updOp i f).fab = s.fab := rfl
@[simp] theorem State.boot_updOp (s : State) (i : Nat) (f : EngOp → EngOp) : (s.updOp i f).boot = s.boot := rfl
@[simp] theorem State.sched_updOp (s : State) (i : Nat) (f : EngOp → EngOp) : (s.updOp i f).sched = s.sched := rfl
@[simp] theorem State.cpu_updOp (s : State) (i : Nat) (f : EngOp → EngOp) : (s.updOp i f).cpu = s.cpu := rfl

/-! ### dropOp -/

@[simp] theorem State.mem_dropOp (s : State) (i : Nat) : (s.dropOp i).mem = s.mem := rfl
@[simp] theorem State.sluice_dropOp (s : State) (i : Nat) : (s.dropOp i).sluice = s.sluice := rfl
@[simp] theorem State.dies_dropOp (s : State) (i : Nat) : (s.dropOp i).dies = s.dies := rfl
@[simp] theorem State.fw_dropOp (s : State) (i : Nat) : (s.dropOp i).fw = s.fw := rfl
@[simp] theorem State.fab_dropOp (s : State) (i : Nat) : (s.dropOp i).fab = s.fab := rfl
@[simp] theorem State.boot_dropOp (s : State) (i : Nat) : (s.dropOp i).boot = s.boot := rfl
@[simp] theorem State.sched_dropOp (s : State) (i : Nat) : (s.dropOp i).sched = s.sched := rfl
@[simp] theorem State.cpu_dropOp (s : State) (i : Nat) : (s.dropOp i).cpu = s.cpu := rfl

/-! ### updLaunch -/

@[simp] theorem State.mem_updLaunch (s : State) (l : Nat) (f : Launch → Launch) : (s.updLaunch l f).mem = s.mem := rfl
@[simp] theorem State.sluice_updLaunch (s : State) (l : Nat) (f : Launch → Launch) : (s.updLaunch l f).sluice = s.sluice := rfl
@[simp] theorem State.eng_updLaunch (s : State) (l : Nat) (f : Launch → Launch) : (s.updLaunch l f).eng = s.eng := rfl
@[simp] theorem State.dies_updLaunch (s : State) (l : Nat) (f : Launch → Launch) : (s.updLaunch l f).dies = s.dies := rfl
@[simp] theorem State.fab_updLaunch (s : State) (l : Nat) (f : Launch → Launch) : (s.updLaunch l f).fab = s.fab := rfl
@[simp] theorem State.boot_updLaunch (s : State) (l : Nat) (f : Launch → Launch) : (s.updLaunch l f).boot = s.boot := rfl
@[simp] theorem State.sched_updLaunch (s : State) (l : Nat) (f : Launch → Launch) : (s.updLaunch l f).sched = s.sched := rfl
@[simp] theorem State.cpu_updLaunch (s : State) (l : Nat) (f : Launch → Launch) : (s.updLaunch l f).cpu = s.cpu := rfl

/-! ### withSlot -/

@[simp] theorem State.mem_withSlot (s : State) (x : Slot) : (s.withSlot x).mem = s.mem := rfl
@[simp] theorem State.sluice_withSlot (s : State) (x : Slot) : (s.withSlot x).sluice = s.sluice := rfl
@[simp] theorem State.eng_withSlot (s : State) (x : Slot) : (s.withSlot x).eng = s.eng := rfl
@[simp] theorem State.dies_withSlot (s : State) (x : Slot) : (s.withSlot x).dies = s.dies := rfl
@[simp] theorem State.fw_withSlot (s : State) (x : Slot) : (s.withSlot x).fw = s.fw := rfl
@[simp] theorem State.fab_withSlot (s : State) (x : Slot) : (s.withSlot x).fab = s.fab := rfl
@[simp] theorem State.boot_withSlot (s : State) (x : Slot) : (s.withSlot x).boot = s.boot := rfl
@[simp] theorem State.cpu_withSlot (s : State) (x : Slot) : (s.withSlot x).cpu = s.cpu := rfl

/-! ### The slot -/

@[simp] theorem State.gid_setCtx (s : State) (g : Nat) (c : Ctx) : (s.setCtx g c).gid = s.gid := rfl
@[simp] theorem State.gid_updCtx (s : State) (g : Nat) (f : Ctx → Ctx) : (s.updCtx g f).gid = s.gid := rfl
@[simp] theorem State.gid_updCur (s : State) (f : Ctx → Ctx) : (s.updCur f).gid = s.gid := rfl
@[simp] theorem State.gid_updCore (s : State) (k : Nat) (f : Core → Core) : (s.updCore k f).gid = s.gid := rfl
@[simp] theorem State.gid_writeReg (s : State) (n : BitVec 7) (v : W64) : (s.writeReg n v).gid = s.gid := rfl
@[simp] theorem State.gid_next (s : State) : s.next.gid = s.gid := rfl
@[simp] theorem State.gid_postIn (s : State) (d : Nat) (ev : Instr) : (s.postIn d ev).gid = s.gid := rfl
@[simp] theorem State.gid_post (s : State) (ev : Instr) : (s.post ev).gid = s.gid := rfl
@[simp] theorem State.gid_withSlot (s : State) (x : Slot) : (s.withSlot x).gid = x.gid := rfl
@[simp] theorem State.here_writeReg (s : State) (n : BitVec 7) (v : W64) : (s.writeReg n v).here = s.here := rfl
@[simp] theorem State.here_next (s : State) : s.next.here = s.here := rfl
@[simp] theorem State.cur_writeReg (s : State) (n : BitVec 7) (v : W64) : (s.writeReg n v).cur = s.cur := rfl

/-! ### Reading back -/

theorem State.ctx_setCtx {s : State} (h : s.Canon) (g : Nat) (c : Ctx) (k : Nat) : (s.setCtx g c).ctx k = if k = g then c else s.ctx k := by
  show spGet (Ctx.rest k) (spSet (Ctx.rest g) s.cpu.ctxs g c) k = _
  rw [spGet_spSet_by h.ctxs]
  rfl
theorem State.ctx_updCtx {s : State} (h : s.Canon) (g : Nat) (f : Ctx → Ctx) (k : Nat) : (s.updCtx g f).ctx k = if k = g then f (s.ctx g) else s.ctx k :=
  State.ctx_setCtx h g _ k
theorem State.ctx_updCur {s : State} (h : s.Canon) (f : Ctx → Ctx) (k : Nat) : (s.updCur f).ctx k = if k = s.gid then f s.cur else s.ctx k :=
  State.ctx_setCtx h s.gid _ k
theorem State.cur_updCur {s : State} (h : s.Canon) (f : Ctx → Ctx) : (s.updCur f).cur = f s.cur := by
  show (s.updCur f).ctx s.gid = _
  rw [State.ctx_updCur h]
  simp
theorem State.core_updCore {s : State} (h : s.Canon) (c : Nat) (f : Core → Core) (k : Nat) : (s.updCore c f).core k = if k = c then f (s.core c) else s.core k :=
  spGet_spSet h.cores k
theorem State.die_updDie {s : State} (h : s.Canon) (d : Nat) (f : Die → Die) (k : Nat) : (s.updDie d f).die k = if k = d then f (s.die d) else s.die k :=
  spGet_spSet h.dies k
theorem State.regAt_setRegAt {s : State} (h : s.Canon) (g n : Nat) (v : W64) (k m : Nat) :
    (s.setRegAt g n v).regAt k m = if s.regKey k m = s.regKey g n then v else s.regAt k m :=
  spGet_spSet h.regs (s.regKey k m)
theorem State.emptyAt_markEmpty {s : State} (h : s.Canon) (g n k m : Nat) :
    (s.markEmpty g n).emptyAt k m = if s.regKey k m = s.regKey g n then true else s.emptyAt k m :=
  spGet_spSet h.regEmpty (s.regKey k m)
theorem State.reg_writeReg {s : State} (h : s.Canon) (d r : BitVec 7) (v : W64) : (s.writeReg d v).reg r = if r = d then v else s.reg r := by
  show (s.setRegAt s.gid d.toNat v).regAt s.gid r.toNat = _
  rw [State.regAt_setRegAt h]
  have : s.regKey s.gid r.toNat = s.regKey s.gid d.toNat ↔ r = d := by
    unfold State.regKey
    rw [← BitVec.toNat_inj]
    omega
  simp only [this]
  rfl

end Sys2Proof.Machine
end

