-- ==== Sys2Proof/Tests/Slice0.lean ====
section
/-!
SUPPORT. Tests: decoding by words written out from the tables of spec/07, ill-formed terms, witnesses for the hypotheses of every
statement, and single steps whose results come from the spec's worked tables or from its rules by hand.
-/

namespace Sys2Proof.Tests

open Sys2Proof Sys2Proof.Machine

set_option Elab.async false

/-- The decoder reads the instruction from exactly these words. -/
def reads (ws : List W32) (i : Instr) : Bool :=
  match decode ws with
  | .ok (j, n) => decide (j = i) && decide (n = ws.length)
  | .error _ => false

/-- Context 1 of core 0 in its slot: 128 registers that hold 0, one word at virtual address 0, and page 0 mapped. -/
def one : State := (State.reset.withFetchWord 32 0).withSlot { gid := 1, len := 4, w0 := 0, words := [0], again := false }
/-- Context 0 of core 0 in its slot. -/
def sup : State := one.withSlot { gid := 0, len := 4, w0 := 0, words := [0], again := false }
/-- A register of the context in the slot is set. -/
def put (s : State) (n : Nat) (v : W64) : State := s.setRegAt s.gid n v
/-- The context in the slot is changed. -/
def cur (s : State) (f : Ctx → Ctx) : State := s.updCur f
/-- A request of context 1, for a plain word of the mapped page. -/
def ask (kind : ReqKind) : Request :=
  { kind, tenant := 0, va := 0x100, dp := placedPage + 0x100, join := none, data := 0, cmp := 0, ord := 0, scope := 0, src := .ctx 1 0, use := .reg 5, die := 0
    core := 0, pc := 0, next := 4, rid := 1, early := false, fence := false, hops := 0 }
/-- That word holds a value, with a tag. -/
def holding (tag : BitVec 4) (v : W64) : State := one.commit (placedPage + 0x100) v tag

/-! ### Decoding -/
/-- Table 7.6, 0x00 to 0x27: register, immediate and compare formats (Table 7.3); ADDI with a literal, ADD marked launch-static. -/
theorem test_decode_integer : ([
  ([0x00018405#32], .add ⟨false, 3, 4, 5, none⟩),
  ([0x00418405#32], .sub ⟨false, 3, 4, 5, none⟩),
  ([0x00818405#32], .mul ⟨false, 3, 4, 5, none⟩),
  ([0x00C18405#32], .mulh ⟨false, 3, 4, 5, none⟩),
  ([0x01018405#32], .mulhu ⟨false, 3, 4, 5, none⟩),
  ([0x01418405#32], .div ⟨false, 3, 4, 5, none⟩),
  ([0x01818405#32], .divu ⟨false, 3, 4, 5, none⟩),
  ([0x01C18405#32], .rem ⟨false, 3, 4, 5, none⟩),
  ([0x02018405#32], .remu ⟨false, 3, 4, 5, none⟩),
  ([0x02418405#32], .and ⟨false, 3, 4, 5, none⟩),
  ([0x02818405#32], .or ⟨false, 3, 4, 5, none⟩),
  ([0x02C18405#32], .xor ⟨false, 3, 4, 5, none⟩),
  ([0x03018405#32], .andn ⟨false, 3, 4, 5, none⟩),
  ([0x03418405#32], .shl ⟨false, 3, 4, 5, none⟩),
  ([0x03818405#32], .shr ⟨false, 3, 4, 5, none⟩),
  ([0x03C18405#32], .sar ⟨false, 3, 4, 5, none⟩),
  ([0x04018405#32], .rol ⟨false, 3, 4, 5, none⟩),
  ([0x04418405#32], .min ⟨false, 3, 4, 5, none⟩),
  ([0x04818405#32], .max ⟨false, 3, 4, 5, none⟩),
  ([0x04C18405#32], .minu ⟨false, 3, 4, 5, none⟩),
  ([0x05018405#32], .maxu ⟨false, 3, 4, 5, none⟩),
  ([0x05418400#32], .clz ⟨false, 3, 4, 0, none⟩),
  ([0x05818400#32], .ctz ⟨false, 3, 4, 0, none⟩),
  ([0x05C18400#32], .popc ⟨false, 3, 4, 0, none⟩),
  ([0x06018425#32], .addi ⟨false, 3, 4, 0x25, none⟩),
  ([0x06418425#32], .andi ⟨false, 3, 4, 0x25, none⟩),
  ([0x06818425#32], .ori ⟨false, 3, 4, 0x25, none⟩),
  ([0x06C18425#32], .xori ⟨false, 3, 4, 0x25, none⟩),
  ([0x07018425#32], .shli ⟨false, 3, 4, 0x25, none⟩),
  ([0x07418425#32], .shri ⟨false, 3, 4, 0x25, none⟩),
  ([0x07818425#32], .sari ⟨false, 3, 4, 0x25, none⟩),
  ([0x07C18025#32], .movi ⟨false, 3, 0, 0x25, none⟩),
  ([0x08018400#32], .mov ⟨false, 3, 4, 0, none⟩),
  ([0x08418405#32], .cmpeq ⟨false, 3, 4, 5, none⟩),
  ([0x08818405#32], .cmpne ⟨false, 3, 4, 5, none⟩),
  ([0x08C18405#32], .cmplt ⟨false, 3, 4, 5, none⟩),
  ([0x09018405#32], .cmpltu ⟨false, 3, 4, 5, none⟩),
  ([0x09418405#32], .cmple ⟨false, 3, 4, 5, none⟩),
  ([0x09818405#32], .cmpleu ⟨false, 3, 4, 5, none⟩),
  ([0x09C1840B#32], .cmov ⟨false, 3, 4, 0xB, none⟩),
  ([0x46018400#32, 0xFFFFFFFF#32, 0xFFFFFFFF#32], .addi ⟨false, 3, 4, 0x0, (some 0xFFFFFFFFFFFFFFFF#64)⟩),
  ([0x20018405#32], .add ⟨true, 3, 4, 5, none⟩)] : List (List W32 × Instr)).all (fun x => reads x.1 x.2) = true := by decide +kernel

/-- Table 7.6, 0x28 to 0x37. -/
theorem test_decode_float : ([
  ([0x0A018405#32], .fadd ⟨false, 3, 4, 5, none⟩),
  ([0x0A418405#32], .fsub ⟨false, 3, 4, 5, none⟩),
  ([0x0A818405#32], .fmul ⟨false, 3, 4, 5, none⟩),
  ([0x0AC18405#32], .fdiv ⟨false, 3, 4, 5, none⟩),
  ([0x0B018405#32], .fma ⟨false, 3, 4, 5, none⟩),
  ([0x0B418400#32], .fsqrt ⟨false, 3, 4, 0, none⟩),
  ([0x0B818405#32], .fmin ⟨false, 3, 4, 5, none⟩),
  ([0x0BC18405#32], .fmax ⟨false, 3, 4, 5, none⟩),
  ([0x0C018405#32], .fcmpeq ⟨false, 3, 4, 5, none⟩),
  ([0x0C418405#32], .fcmplt ⟨false, 3, 4, 5, none⟩),
  ([0x0C818405#32], .fcmple ⟨false, 3, 4, 5, none⟩),
  ([0x0CC18442#32], .fcvt ⟨false, 3, 4, 0x42, none⟩),
  ([0x0D018400#32], .ftoi ⟨false, 3, 4, 0, none⟩),
  ([0x0D418400#32], .itof ⟨false, 3, 4, 0, none⟩),
  ([0x0D818400#32], .fabs ⟨false, 3, 4, 0, none⟩),
  ([0x0DC18400#32], .fneg ⟨false, 3, 4, 0, none⟩)] : List (List W32 × Instr)).all (fun x => reads x.1 x.2) = true := by decide +kernel

/-- Table 7.6, 0x38 to 0x46, and 0x78 to 0x7F. -/
theorem test_decode_control : ([
  ([0x0E2FFFFE#32], .br ⟨false, 5, true, 0x3FFFE⟩),
  ([0x0E40001F#32], .call ⟨false, 0, false, 0x1F⟩),
  ([0x0E800400#32], .callr ⟨false, 0, 4, 0, none⟩),
  ([0x0EC00400#32], .jmpr ⟨false, 0, 4, 0, none⟩),
  ([0x0F000000#32], .ret ⟨false⟩),
  ([0x0F44FFFB#32], .loop ⟨false, 9, 0x7FFB⟩),
  ([0x0F818000#32], .rep ⟨false, 3, 0, 0, none⟩),
  ([0x0FC18405#32], .blk ⟨false, 3, 4, 5, none⟩),
  ([0x10018405#32], .spawn ⟨false, 3, 4, 5, none⟩),
  ([0x10418405#32], .callat ⟨false, 3, 4, 5, none⟩),
  ([0x10800405#32], .fork ⟨false, 0, 4, 5, none⟩),
  ([0x10C00400#32], .join ⟨false, 0, 4, 0, none⟩),
  ([0x11000400#32], .cancel ⟨false, 0, 4, 0, none⟩),
  ([0x11400405#32], .cancelu ⟨false, 0, 4, 5, none⟩),
  ([0x11B0BFF9#32], .tstb ⟨false, true, 33, false, 0x3FF9⟩),
  ([0x1E018028#32], .sysr ⟨false, 3, 0, 0x28, none⟩),
  ([0x1E400431#32], .sysw ⟨false, 0, 4, 0x31, none⟩),
  ([0x1E818405#32], .start ⟨false, 3, 4, 5, none⟩),
  ([0x1EC18400#32], .reap ⟨false, 3, 4, 0, none⟩),
  ([0x1F018001#32], .pair ⟨false, 3, 0, 0x1, none⟩),
  ([0x1F4004E7#32], .trap ⟨false, 0, 4, 0xE7, none⟩),
  ([0x1F800000#32], .rett ⟨false⟩),
  ([0x1FC00000#32], .nop ⟨false⟩)] : List (List W32 × Instr)).all (fun x => reads x.1 x.2) = true := by decide +kernel

/-- Table 7.6, 0x50 to 0x77; LD.G with a displacement, AMO.ADD and CTR.ADD with the literals of Table 7.4. -/
theorem test_decode_memory : ([
  ([0x1401845C#32], .ldGlobal ⟨false, 3, 4, 1, 7, 0, none⟩),
  ([0x1441845D#32], .ldsGlobal ⟨false, 3, 4, 1, 7, 1, none⟩),
  ([0x148184A6#32], .stGlobal ⟨false, 3, 4, 2, 9, 2, none⟩),
  ([0x14C1EC00#32], .ldLocal ⟨false, 3, 6, true, 2⟩),
  ([0x1501EC00#32], .ldsLocal ⟨false, 3, 6, true, 2⟩),
  ([0x1541EC00#32], .stLocal ⟨false, 3, 6, true, 2⟩),
  ([0x1581845F#32], .ldFe ⟨false, 3, 4, 1, 7, 3, none⟩),
  ([0x15C1849F#32], .stEf ⟨false, 3, 4, 2, 7, 3, none⟩),
  ([0x1981845F#32], .ldtag ⟨false, 3, 4, 1, 7, 3, none⟩),
  ([0x5401845F#32, 0xFFFFFFF0#32, 0xFFFFFFFF#32], .ldGlobal ⟨false, 3, 4, 1, 7, 3, (some 0xFFFFFFFFFFFFFFF0#64)⟩),
  ([0x1601840A#32], .amoAdd ⟨false, 3, 4, 5, false, none⟩),
  ([0x1641840A#32], .amoAnd ⟨false, 3, 4, 5, false, none⟩),
  ([0x1681840A#32], .amoOr ⟨false, 3, 4, 5, false, none⟩),
  ([0x16C1840A#32], .amoXor ⟨false, 3, 4, 5, false, none⟩),
  ([0x1701840A#32], .amoMin ⟨false, 3, 4, 5, false, none⟩),
  ([0x1741840A#32], .amoMax ⟨false, 3, 4, 5, false, none⟩),
  ([0x1781840A#32], .amoMinu ⟨false, 3, 4, 5, false, none⟩),
  ([0x17C1840A#32], .amoMaxu ⟨false, 3, 4, 5, false, none⟩),
  ([0x1801840A#32], .amoSwap ⟨false, 3, 4, 5, false, none⟩),
  ([0x1841840A#32], .amoCas ⟨false, 3, 4, 5, false, none⟩),
  ([0x1883040A#32], .mkobj ⟨false, 6, 4, 5, false, none⟩),
  ([0x18C18400#32], .rmobj ⟨false, 3, 4, 0, false, none⟩),
  ([0x1901840A#32], .qpushT ⟨false, 3, 4, 5, false, none⟩),
  ([0x19418400#32], .qpopT ⟨false, 3, 4, 0, false, none⟩),
  ([0x1A01840A#32], .ctrAdd ⟨false, 3, 4, 5, false, none⟩),
  ([0x1A41840A#32], .ctrTake ⟨false, 3, 4, 5, false, none⟩),
  ([0x1A81840A#32], .ctrWait ⟨false, 3, 4, 5, false, none⟩),
  ([0x1AC1840A#32], .barArrive ⟨false, 3, 4, 5, false, none⟩),
  ([0x1B01840A#32], .barSync ⟨false, 3, 4, 5, false, none⟩),
  ([0x1B41840A#32], .barWait ⟨false, 3, 4, 5, false, none⟩),
  ([0x1B818400#32], .barJoin ⟨false, 3, 4, 0, false, none⟩),
  ([0x1BC1840A#32], .barWdraw ⟨false, 3, 4, 5, false, none⟩),
  ([0x1C018400#32], .lkAcq ⟨false, 3, 4, 0, false, none⟩),
  ([0x1C418400#32], .lkTry ⟨false, 3, 4, 0, false, none⟩),
  ([0x1C818400#32], .lkRel ⟨false, 3, 4, 0, false, none⟩),
  ([0x1CC1840A#32], .qpush ⟨false, 3, 4, 5, false, none⟩),
  ([0x1D018400#32], .qpop ⟨false, 3, 4, 0, false, none⟩),
  ([0x1D41840A#32], .cndWait ⟨false, 3, 4, 5, false, none⟩),
  ([0x1D818400#32], .cndSignal ⟨false, 3, 4, 0, false, none⟩),
  ([0x1DC18400#32], .cndBcast ⟨false, 3, 4, 0, false, none⟩),
  ([0x56018401#32, 0xFFFFFFD4#32, 0xFFFFFFFF#32], .amoAdd ⟨false, 3, 4, 0, true, (some 0xFFFFFFFFFFFFFFD4#64)⟩),
  ([0x5A01840A#32, 0x00000088#32, 0x00000000#32], .ctrAdd ⟨false, 3, 4, 5, false, (some 0x88#64)⟩)] : List (List W32 × Instr)).all (fun x => reads x.1 x.2) = true := by decide +kernel

/-- Table 7.7, 0x00 to 0x24; VSHL with a literal. -/
theorem test_decode_vector : ([
  ([0x80000000#32, 0x00003480#32, 0xF5900000#32], .vadd ⟨false, 0, 0, 0, 6, true, 2, 0, 7, true, 2, true, 4, true, none⟩),
  ([0x80400000#32, 0x00003480#32, 0xF5900000#32], .vsub ⟨false, 0, 0, 0, 6, true, 2, 0, 7, true, 2, true, 4, true, none⟩),
  ([0x80800000#32, 0x00003480#32, 0xF5900000#32], .vmul ⟨false, 0, 0, 0, 6, true, 2, 0, 7, true, 2, true, 4, true, none⟩),
  ([0x80C00000#32, 0x00003480#32, 0xF5900000#32], .vfma ⟨false, 0, 0, 0, 6, true, 2, 0, 7, true, 2, true, 4, true, none⟩),
  ([0x81000000#32, 0x00003480#32, 0xF5900000#32], .vdiv ⟨false, 0, 0, 0, 6, true, 2, 0, 7, true, 2, true, 4, true, none⟩),
  ([0x81400000#32, 0x00003480#32, 0xF5000000#32], .vsqrt ⟨false, 0, 0, 0, 6, true, 2, 0, 7, true, 2, true, 0, false, none⟩),
  ([0x81800000#32, 0x00003480#32, 0xF5900000#32], .vmin ⟨false, 0, 0, 0, 6, true, 2, 0, 7, true, 2, true, 4, true, none⟩),
  ([0x81C00000#32, 0x00003480#32, 0xF5900000#32], .vmax ⟨false, 0, 0, 0, 6, true, 2, 0, 7, true, 2, true, 4, true, none⟩),
  ([0x82000000#32, 0x00003480#32, 0xF5000000#32], .vabs ⟨false, 0, 0, 0, 6, true, 2, 0, 7, true, 2, true, 0, false, none⟩),
  ([0x82400000#32, 0x00003480#32, 0xF5000000#32], .vneg ⟨false, 0, 0, 0, 6, true, 2, 0, 7, true, 2, true, 0, false, none⟩),
  ([0x82800000#32, 0x00003480#32, 0xF5000000#32], .vrcp ⟨false, 0, 0, 0, 6, true, 2, 0, 7, true, 2, true, 0, false, none⟩),
  ([0x82C00000#32, 0x00003480#32, 0xF5000000#32], .vrsq ⟨false, 0, 0, 0, 6, true, 2, 0, 7, true, 2, true, 0, false, none⟩),
  ([0x83000000#32, 0x00003480#32, 0xF5000000#32], .vexp2 ⟨false, 0, 0, 0, 6, true, 2, 0, 7, true, 2, true, 0, false, none⟩),
  ([0x83400000#32, 0x00003480#32, 0xF5000000#32], .vlog2 ⟨false, 0, 0, 0, 6, true, 2, 0, 7, true, 2, true, 0, false, none⟩),
  ([0x83800000#32, 0x00003440#32, 0xF5900000#32], .vadds ⟨false, 0, 0, 0, 6, true, 1, 0, 7, true, 2, true, 4, true, none⟩),
  ([0x83C00000#32, 0x00003440#32, 0xF5900000#32], .vsubs ⟨false, 0, 0, 0, 6, true, 1, 0, 7, true, 2, true, 4, true, none⟩),
  ([0x84000000#32, 0x00003400#32, 0xF5900000#32], .vand ⟨false, 0, 0, 0, 6, true, 0, 0, 7, true, 2, true, 4, true, none⟩),
  ([0x84400000#32, 0x00003400#32, 0xF5900000#32], .vor ⟨false, 0, 0, 0, 6, true, 0, 0, 7, true, 2, true, 4, true, none⟩),
  ([0x84800000#32, 0x00003400#32, 0xF5900000#32], .vxor ⟨false, 0, 0, 0, 6, true, 0, 0, 7, true, 2, true, 4, true, none⟩),
  ([0x84C00400#32, 0x00003440#32, 0xF5000000#32], .vshl ⟨false, 0, 4, 0, 6, true, 1, 0, 7, true, 2, true, 0, false, none⟩),
  ([0x85000400#32, 0x00003440#32, 0xF5000000#32], .vshr ⟨false, 0, 4, 0, 6, true, 1, 0, 7, true, 2, true, 0, false, none⟩),
  ([0x85400400#32, 0x00003440#32, 0xF5000000#32], .vsar ⟨false, 0, 4, 0, 6, true, 1, 0, 7, true, 2, true, 0, false, none⟩),
  ([0x85800000#32, 0x00003480#32, 0xF5900000#32], .vcmpeq ⟨false, 0, 0, 0, 6, true, 2, 0, 7, true, 2, true, 4, true, none⟩),
  ([0x85C00000#32, 0x00003480#32, 0xF5900000#32], .vcmplt ⟨false, 0, 0, 0, 6, true, 2, 0, 7, true, 2, true, 4, true, none⟩),
  ([0x86000000#32, 0x00003480#32, 0xF5900000#32], .vcmple ⟨false, 0, 0, 0, 6, true, 2, 0, 7, true, 2, true, 4, true, none⟩),
  ([0x86400000#32, 0x00003400#32, 0xF5900000#32], .vsel ⟨false, 0, 0, 0, 6, true, 0, 0, 7, true, 2, true, 4, true, none⟩),
  ([0x86800000#32, 0x000034C0#32, 0xF5900000#32], .vshuf ⟨false, 0, 0, 0, 6, true, 3, 0, 7, true, 2, true, 4, true, none⟩),
  ([0x86C00400#32, 0x00003500#32, 0xF0000000#32], .vbcast ⟨false, 0, 4, 0, 6, true, 4, 0, 7, true, 0, false, 0, false, none⟩),
  ([0x87000000#32, 0x00003400#32, 0xF5000000#32], .vmov ⟨false, 0, 0, 0, 6, true, 0, 0, 7, true, 2, true, 0, false, none⟩),
  ([0x87418000#32, 0x00003494#32, 0xF5000000#32], .vcvt ⟨false, 3, 0, 0, 6, true, 2, 5, 7, true, 2, true, 0, false, none⟩),
  ([0x87818000#32, 0x0000368C#32, 0xF5000000#32], .vqmx ⟨false, 3, 0, 0, 6, true, 10, 3, 7, true, 2, true, 0, false, none⟩),
  ([0x87C18400#32, 0x000036D0#32, 0xF5000000#32], .vqb4 ⟨false, 3, 4, 0, 6, true, 11, 4, 7, true, 2, true, 0, false, none⟩),
  ([0x88018000#32, 0x0000348C#32, 0x05000000#32], .vredsum ⟨false, 3, 0, 0, 6, true, 2, 3, 0, false, 2, true, 0, false, none⟩),
  ([0x88418000#32, 0x00003510#32, 0x05000000#32], .vredmin ⟨false, 3, 0, 0, 6, true, 4, 4, 0, false, 2, true, 0, false, none⟩),
  ([0x88818000#32, 0x00003444#32, 0x05000000#32], .vredmax ⟨false, 3, 0, 0, 6, true, 1, 1, 0, false, 2, true, 0, false, none⟩),
  ([0x88C1840A#32, 0x000034C0#32, 0xF5000000#32], .vredmSum ⟨false, 3, 4, 5, 6, true, 3, 0, 7, true, 2, true, 0, false, none⟩),
  ([0x8901840A#32, 0x00003480#32, 0xF5000000#32], .vredmMean ⟨false, 3, 4, 5, 6, true, 2, 0, 7, true, 2, true, 0, false, none⟩),
  ([0xC4C00000#32, 0x00000040#32, 0x24000000#32, 0x00000005#32, 0x00000000#32], .vshl ⟨false, 0, 0, 0, 0, false, 1, 0, 1, false, 2, false, 0, false, (some 0x5#64)⟩)] : List (List W32 × Instr)).all (fun x => reads x.1 x.2) = true := by decide +kernel

/-- Table 7.7, 0x40 to 0x67: matrix, copy, layout and collective formats; COPY into a local buffer, MMA with a literal. -/
theorem test_decode_engines : ([
  ([0x90000000#32, 0x00001BFE#32, 0x80000000#32], .mzero ⟨false, 0, 0, 0, 0, 3, false, 0x3FE, true, 0, 0, 0, none⟩),
  ([0x9040040A#32, 0x00001800#32, 0xB5600000#32], .mma ⟨false, 0, 4, 5, 0, 3, false, 0x0, true, 3, 5, 6, none⟩),
  ([0x9081840A#32, 0x00001800#32, 0xB3A00000#32], .mmaS ⟨false, 3, 4, 5, 0, 3, false, 0x0, true, 3, 3, 10, none⟩),
  ([0x90C00400#32, 0x00091800#32, 0xB4000000#32], .mdrain ⟨false, 0, 4, 0, 9, 3, false, 0x0, true, 3, 4, 0, none⟩),
  ([0xD040000A#32, 0x00001800#32, 0xB0B00000#32, 0x00001000#32, 0x00000000#32], .mma ⟨false, 0, 0, 5, 0, 3, false, 0x0, true, 3, 0, 11, (some 0x1000#64)⟩),
  ([0x9401840A#32, 0x00091430#32, 0x00000000#32], .copy ⟨false, 3, 4, 5, 9, 2, true, 6, false, 0, 0, false, none⟩),
  ([0x9401840A#32, 0x00091434#32, 0x10000000#32], .copy ⟨false, 3, 4, 5, 9, 2, true, 6, true, 8, 0, false, none⟩),
  ([0x9401840A#32, 0x00191430#32, 0x10000000#32], .copyStr ⟨false, 3, 4, 5, 9, 2, true, 6, false, 8, 0, false, none⟩),
  ([0x9401840A#32, 0x00291430#32, 0x10000000#32], .copyGth ⟨false, 3, 4, 5, 9, 2, true, 6, false, 8, 0, false, none⟩),
  ([0x9401840A#32, 0x00391430#32, 0x10000000#32], .copySct ⟨false, 3, 4, 5, 9, 2, true, 6, false, 8, 0, false, none⟩),
  ([0x9401840A#32, 0x01091430#32, 0x00000000#32], .copyTrg ⟨false, 3, 4, 5, 9, 2, true, 6, false, 0, 0, false, none⟩),
  ([0x9401840A#32, 0x01191430#32, 0x10000000#32], .copyStrTrg ⟨false, 3, 4, 5, 9, 2, true, 6, false, 8, 0, false, none⟩),
  ([0x9401840A#32, 0x01291430#32, 0x10000000#32], .copyGthTrg ⟨false, 3, 4, 5, 9, 2, true, 6, false, 8, 0, false, none⟩),
  ([0x9401840A#32, 0x01391430#32, 0x10000000#32], .copySctTrg ⟨false, 3, 4, 5, 9, 2, true, 6, false, 8, 0, false, none⟩),
  ([0xD4000400#32, 0x00090030#32, 0x00E00000#32, 0x00000040#32, 0x00000000#32], .copy ⟨false, 0, 4, 0, 9, 0, false, 6, false, 0, 3, true, (some 0x40#64)⟩),
  ([0x9440040A#32, 0x00091430#32, 0x00000000#32], .prefTier ⟨false, 0, 4, 5, 9, 2, true, 6, false, 0, 0, false, none⟩),
  ([0x9801840A#32, 0x00091430#32, 0x10000000#32], .layout ⟨false, 3, 4, 5, 9, 2, true, 6, 8, none⟩),
  ([0x9801840A#32, 0x00191430#32, 0x10000000#32], .layoutAb ⟨false, 3, 4, 5, 9, 2, true, 6, 8, none⟩),
  ([0x9900040A#32, 0x00091430#32, 0xA5000000#32], .collOpen ⟨false, 0, 4, 5, 9, 2, true, 6, false, 165, 0, false, none⟩),
  ([0x9940000A#32, 0x00091430#32, 0xA5700000#32], .collPut ⟨false, 0, 0, 5, 9, 2, true, 6, false, 165, 3, true, none⟩),
  ([0x9981800A#32, 0x00091434#32, 0xA5700000#32], .collGet ⟨false, 3, 0, 5, 9, 2, true, 6, true, 165, 3, true, none⟩),
  ([0x99C0000A#32, 0x00091430#32, 0xA5000000#32], .collMark ⟨false, 0, 0, 5, 9, 2, true, 6, false, 165, 0, false, none⟩)] : List (List W32 × Instr)).all (fun x => reads x.1 x.2) = true := by decide +kernel

/-- Ill-formed terms, one or more for each check of WellFormed: the check refuses each for its reason. -/
theorem test_ill_formed_base : ([
  (.clz ⟨false, 1, 2, 0, some 5⟩, .literal), (.add ⟨false, 1, 2, 3, some 5⟩, .literal), (.join ⟨false, 1, 2, 0, none⟩, .reservedField),
  (.fork ⟨false, 1, 2, 3, none⟩, .reservedField), (.rep ⟨false, 1, 2, 0, none⟩, .reservedField), (.clz ⟨false, 1, 2, 3, none⟩, .reservedField),
  (.addi ⟨false, 1, 2, 3, some 5⟩, .literal), (.movi ⟨false, 1, 2, 3, none⟩, .reservedField), (.trap ⟨false, 1, 2, 3, none⟩, .reservedField),
  (.shli ⟨false, 1, 2, 64, none⟩, .reservedField), (.sari ⟨false, 1, 2, 0, some 5⟩, .literal), (.cmpeq ⟨false, 1, 2, 3, some 5⟩, .literal),
  (.cmov ⟨false, 1, 2, 16, none⟩, .reservedField), (.fcvt ⟨false, 1, 2, 0x12, none⟩, .formatCode), (.fcvt ⟨false, 1, 2, 0x28, none⟩, .formatCode),
  (.call ⟨false, 1, false, 0⟩, .reservedField), (.call ⟨false, 0, true, 0⟩, .reservedField), (.blk ⟨false, 1, 2, 1, none⟩, .sameRegisters),
  (.spawn ⟨false, 8, 2, 3, none⟩, .reservedField), (.ldGlobal ⟨false, 1, 2, 0b10, 0, 0, none⟩, .orderCode), (.ldsGlobal ⟨false, 1, 2, 0b11, 0, 0, none⟩, .orderCode),
  (.stGlobal ⟨false, 1, 2, 0b01, 0, 0, none⟩, .orderCode), (.ldGlobal ⟨false, 1, 2, 0, 11, 0, none⟩, .scopeCode), (.ldtag ⟨false, 1, 2, 0, 0, 2, none⟩, .reservedField),
  (.ldFe ⟨false, 1, 2, 0, 0, 0, none⟩, .reservedField), (.amoAdd ⟨false, 1, 2, 3, true, none⟩, .literal), (.rmobj ⟨false, 1, 2, 3, false, none⟩, .reservedField),
  (.amoAdd ⟨false, 1, 2, 0, true, some 2⟩, .reservedField), (.amoAdd ⟨false, 1, 2, 0, true, some 0x2C⟩, .scopeCode),
  (.amoAdd ⟨false, 1, 2, 3, false, some 0x100⟩, .literal), (.amoAdd ⟨false, 1, 2, 3, true, some 0x100⟩, .literal), (.lkAcq ⟨false, 1, 2, 0, true, some 0⟩, .reservedField),
  (.mkobj ⟨false, 0, 2, 3, false, none⟩, .objectType), (.mkobj ⟨false, 7, 2, 3, false, none⟩, .objectType), (.sysr ⟨false, 1, 0, 5, none⟩, .sysNumber),
  (.sysw ⟨false, 0, 1, 0x33, none⟩, .sysNumber), (.pair ⟨false, 1, 0, 2, none⟩, .reservedField)
    ] : List (Instr × DecodeError)).all (fun x => decide (x.1.check = some x.2) && !x.1.wellFormed) = true := by decide +kernel

/-- The same for the extended formats, and an event. -/
theorem test_ill_formed_extended : ([
  (.vadd ⟨false, 0, 0, 0, 0, false, 2, 0, 0, false, 1, false, 2, false, some 5⟩, .literal), (.vadd ⟨false, 1, 0, 0, 0, false, 2, 0, 0, false, 1, false, 2, false, none⟩, .reservedField),
  (.vshl ⟨false, 0, 1, 0, 0, false, 0, 0, 0, false, 1, false, 0, false, some 5⟩, .literal), (.vsqrt ⟨false, 0, 0, 0, 0, false, 2, 0, 0, false, 1, false, 2, false, none⟩, .reservedField),
  (.vsqrt ⟨false, 0, 0, 0, 0, false, 2, 0, 0, false, 1, false, 0, true, none⟩, .reservedField), (.vredsum ⟨false, 1, 0, 0, 0, false, 2, 2, 0, true, 1, false, 0, false, none⟩, .reservedField),
  (.vadd ⟨false, 0, 0, 0, 0, false, 7, 0, 0, false, 1, false, 2, false, none⟩, .formatCode), (.vadd ⟨false, 0, 0, 0, 0, false, 2, 1, 0, false, 1, false, 2, false, none⟩, .formatCode),
  (.vrcp ⟨false, 0, 0, 0, 0, false, 3, 0, 0, false, 1, false, 0, false, none⟩, .formatCode), (.vdiv ⟨false, 0, 0, 0, 0, false, 1, 0, 0, false, 1, false, 2, false, none⟩, .formatCode),
  (.vcvt ⟨false, 4, 0, 0, 0, false, 2, 5, 0, false, 1, false, 0, false, none⟩, .part), (.vcvt ⟨false, 8, 0, 0, 0, false, 2, 7, 0, false, 1, false, 0, false, none⟩, .reservedField),
  (.vredsum ⟨false, 1, 0, 0, 0, false, 3, 2, 0, false, 1, false, 0, false, none⟩, .formatCode), (.vredmin ⟨false, 1, 0, 0, 0, false, 2, 3, 0, false, 1, false, 0, false, none⟩, .formatCode),
  (.mzero ⟨false, 0, 0, 0, 0, 0, false, 0, false, 0, 2, 0, none⟩, .reservedField), (.mzero ⟨false, 0, 0, 0, 1, 0, false, 0, false, 0, 0, 0, none⟩, .scopeCode),
  (.mzero ⟨false, 0, 0, 0, 0, 0, false, 0, false, 0, 0, 0, some 5⟩, .literal), (.mma ⟨false, 0, 1, 2, 0, 0, false, 0, false, 0, 0, 3, none⟩, .formatCode),
  (.mma ⟨false, 0, 1, 2, 0, 0, false, 1, false, 0, 3, 3, none⟩, .reservedField), (.mmaS ⟨false, 3, 1, 2, 0, 0, false, 0, false, 0, 3, 3, some 5⟩, .literal),
  (.mdrain ⟨false, 0, 1, 0, 0, 0, false, 0, false, 0, 0, 0, none⟩, .formatCode), (.mdrain ⟨false, 0, 1, 0, 11, 0, false, 0, false, 0, 2, 0, none⟩, .scopeCode),
  (.copy ⟨false, 0, 0, 1, 0, 0, false, 2, false, 0, 0, false, none⟩, .copyEnds), (.copy ⟨false, 3, 4, 1, 0, 0, false, 2, false, 0, 1, false, none⟩, .reservedField),
  (.copy ⟨false, 3, 0, 1, 0, 0, false, 2, true, 0, 0, false, none⟩, .lossy), (.copy ⟨false, 3, 4, 1, 0, 0, false, 2, false, 5, 0, false, none⟩, .reservedField),
  (.copy ⟨false, 3, 4, 1, 11, 0, false, 2, false, 0, 0, false, none⟩, .scopeCode), (.copy ⟨false, 3, 4, 1, 0, 0, false, 2, false, 0, 0, false, some 8⟩, .literal),
  (.copyGth ⟨false, 3, 0, 1, 0, 0, false, 2, false, 5, 0, false, none⟩, .copyEnds), (.copySctTrg ⟨false, 0, 4, 1, 0, 0, false, 2, false, 5, 0, false, none⟩, .copyEnds),
  (.copyStr ⟨false, 3, 4, 1, 0, 0, false, 2, true, 5, 0, false, none⟩, .lossy), (.prefTier ⟨false, 0, 4, 1, 0, 0, false, 2, true, 0, 0, false, none⟩, .lossy),
  (.prefTier ⟨false, 3, 4, 1, 0, 0, false, 2, false, 0, 0, false, none⟩, .reservedField), (.layout ⟨false, 3, 4, 1, 0, 0, false, 2, 5, some 8⟩, .literal),
  (.layoutAb ⟨false, 3, 4, 1, 11, 0, false, 2, 5, none⟩, .scopeCode), (.collOpen ⟨false, 0, 4, 1, 0, 0, false, 2, true, 5, 0, false, none⟩, .lossy),
  (.collOpen ⟨false, 3, 4, 1, 0, 0, false, 2, false, 5, 0, false, none⟩, .reservedField), (.collMark ⟨false, 0, 0, 1, 0, 0, false, 2, false, 5, 1, false, none⟩, .reservedField),
  (.collMark ⟨false, 0, 0, 1, 0, 0, false, 2, false, 5, 0, true, none⟩, .reservedField), (.collPut ⟨false, 0, 0, 1, 11, 0, false, 2, false, 5, 0, false, none⟩, .scopeCode),
  (.illegalInstruction, .event)
    ] : List (Instr × DecodeError)).all (fun x => decide (x.1.check = some x.2) && !x.1.wellFormed) = true := by decide +kernel


/-! ### The hypotheses of the statements are met -/

theorem witness_IntegerInstructions : one.usable (3 :: 4 :: regB 5 none) = true ∧ one.usable (127 :: 127 :: regB 0 (some 0)) = true ∧
    one.usable [3, 4] = true ∧ one.usable [127] = true := by decide +kernel

theorem witness_CompareAndSelect : one.usable (4 :: regB 5 none) = true ∧ (one.cur.pred (0x00#8 |>.extractLsb' 0 3) != (0x00#8).getLsbD 3) = true ∧
    one.usable [3, 4] = true ∧ (one.cur.pred ((0x08#8).extractLsb' 0 3) != (0x08#8).getLsbD 3) = false ∧ (127#7).toNat < one.cur.count ∧ 16 ≤ (16#8).toNat := by decide +kernel

theorem witness_FloatInstructions : one.usable (3 :: 4 :: regB 5 none) = true ∧ one.usable [3, 4] = true ∧ one.usable (4 :: regB 0 (some 0)) = true ∧
    (fpDecode fp32 0x7FC00000).isNan = true ∧ (fpDecode fp32 0x7F800001).isSig = true ∧ (fpDecode e4m3 0x7F).isNan = true ∧ (fpDecode e5m2 0x7D).isSig = true := by decide +kernel

/-- 2, 3 and 1/4 in FP32, its zeros, its largest value, -4 and 2 as integers; 1/2 in E4M3. -/
theorem witness_FloatInstructions_finite : fp32.finite 0x40000000 ∧ fp32.finite 0x80000000 ∧ fp32.finite 0x7F7FFFFF ∧ fp32.value 0x40000000 = 2 ∧ fp32.value 0x40400000 = 3 ∧
    fp32.value 0x3E800000 = 1 / 4 ∧ fp32.value 0xC0800000 = -4 ∧ fp32.value 0x80000000 = 0 ∧ fp32.ieee = true ∧ e4m3.finite 0x30 ∧ e4m3.value 0x30 = 1 / 2 ∧ e4m3.ieee = false ∧
    roundsToInt (fp32.value 0x3E800000) 0 ∧ (fpDecode (fpOf 2) 0xFF800000).isInf = true ∧ 0xFF800000 < 2 ^ (fpOf 2).width ∧ (fpDecode (fpOf 7) 0).isNan = false := by
  have h : ∀ n : Nat, Nat.testBit 0x3E800000 31 = false ∧ Nat.testBit 0x40000000 31 = false ∧ Nat.testBit 0x40400000 31 = false ∧ Nat.testBit 0xC0800000 31 = true ∧
    Nat.testBit 0x80000000 31 = true ∧ Nat.testBit 0x30 7 = false := by intro _; decide
  refine ⟨?_, ?_, ?_, ?_, ?_, ?_, ?_, ?_, ?_, ?_, ?_, ?_, ?_, ?_, ?_, ?_⟩ <;>
    first
    | decide +kernel
    | (simp only [FpFormat.finite, FpFormat.value, roundsToInt, fp32, e4m3, FpFormat.width, h 0]; norm_num)

theorem witness_RegisterWrites : one.canonical = true := by decide +kernel

theorem witness_GlobalAccesses : (put one 4 0xFFFF).usable [3, 4] = true ∧ (put one 4 0xFFFF).goodAddr ((put one 4 0xFFFF).reg 4 + (none : Option W64).getD 0) (2 ^ (0#2).toNat) = true ∧
    (put one 4 0xFFF8).goodAddr ((put one 4 0xFFF8).reg 4 + (some (-8) : Option W64).getD 0) 8 = true := by decide +kernel

theorem witness_WordRequests : (put one 4 0xFFF0).usable [3, 4, 5] = true ∧ (put one 4 0xFFF0).goodAddr ((put one 4 0xFFF0).reg 4) 8 = true ∧
    (put one 4 0xFFF0).goodAddr ((put one 4 0xFFF0).reg 4) (if (4#7).toNat % 8 = 4 then 16 else 8) = true ∧ (put one 4 0xFFF0).has [126, 127, 4, 5] = true ∧
    (put one 4 0xFFF0).has [126, 127, 4] = true ∧ (put one 4 0xFFF0).has [127, 4, 5] = true := by decide +kernel

theorem witness_RequestIssue : one.canonical = true ∧ (one.core one.here).paired = false ∧ sup.canonical = true ∧ isCtx0 sup.gid = true := by decide +kernel

/-- Registers beyond the allotment, an empty A, a misaligned and a malformed address, an empty D, an address of a module that is not mapped. -/
theorem witness_GlobalAccessStops :
    (decide ((32#7).toNat < (cur one fun c => { c with limit := 64 }).cur.count) && decide ((4#7).toNat < (cur one fun c => { c with limit := 64 }).cur.count)) = false ∧
    (decide ((127#7).toNat < one.cur.count) && decide ((4#7).toNat < one.cur.count)) = true ∧ (!(one.markEmpty 1 4).emptyAt 1 4) = false ∧ (!one.emptyAt 1 4) = true ∧
    (!malformed 1 && decide ((1#64).toNat % 2 = 0)) = false ∧ (!malformed 0x10000000000000 && decide (0x10000000000000 % 2 = 0)) = false ∧
    (!malformed 8 && decide ((8#64).toNat % 8 = 0)) = true ∧ (!(one.markEmpty 1 3).emptyAt 1 3) = false ∧
    (!malformed 0x8000000000000000#64 && decide ((0x8000000000000000#64).toNat % 8 = 0)) = true ∧ one.served (one.tenantOf one.here) 0x8000000000000000#64 = .dead := by decide +kernel

theorem witness_LocalAccesses : one.usable [3] = true ∧ (24568 % 2 ^ (3#2).toNat = 0 ∧ 24568 + 2 ^ (3#2).toNat ≤ 24576) ∧ one.linesFull (linesOf 24568 8) = true ∧
    (511 % 2 ^ (0#2).toNat = 0 ∧ 511 + 2 ^ (0#2).toNat ≤ 512) ∧ (((0x2000000000000FFF#64).extractLsb' 61 3).toNat = 1) ∧ one.canonical = true := by decide +kernel

/-- A branch that is taken and one that is not, a register target, TSTB on a clear bit and a set sense, LINK not 0, LOOP at 2, 1 and 0. -/
theorem witness_BranchesAndCalls : (one.cur.pred 0 != false) = true ∧ (one.cur.pred 0 != true) = false ∧ one.usable [4] = true ∧
    ((Tile.status (one.tile one.here 0)).getLsbD 0 == false) = true ∧ ((Tile.status (one.tile one.here 1)).getLsbD 63 == true) = false ∧
    (cur one fun c => { c with link := 4 }).cur.link ≠ 0 ∧ 1 < ((put one 7 2).reg 7).toNat ∧ ((put one 7 1).reg 7).toNat ≤ 1 ∧ (one.reg 7).toNat ≤ 1 ∧
    isResidual one.cur.pc = false := by decide +kernel

/-- REP s3 over LD (local) s5, with D 0 and 2; BLK with B 0 and not, aligned and not. -/
def rep : State := (State.reset.withFetchWord 64 (0x14C2800000000000 + 0x0F818000)).withSlot { gid := 1, len := 4, w0 := 0x0F818000, words := [0x0F818000], again := false }
theorem witness_RepeatsAndBlocks : (match rep.bodyWords with | .ok ws => decide (ws = [0x14C28000#32]) | .error _ => false) = true ∧
    reads [0x14C28000#32] (.ldLocal ⟨false, 5, 0, false, 0⟩) = true ∧ (repeatable (.ldLocal ⟨false, 5, 0, false, 0⟩)).isSome = true ∧
    bodyDest (.ldLocal ⟨false, 5, 0, false, 0⟩) ≠ some 3 ∧ bodyOpcode 0x14C28000#32 = true ∧ rep.usable [3] = true ∧ rep.reg 3 = 0 ∧ (put rep 3 1).reg 3 ≠ 0 ∧
    one.usable [3, 4, 5] = true ∧ one.reg 5 = 0 ∧ (put one 5 1).reg 5 ≠ 0 ∧ (put one 5 1).goodAddr ((put one 5 1).reg 4) 8 = true ∧
    ((put one 4 7).reg 4).toNat % 8 ≠ 0 := by decide +kernel

theorem witness_WorkEnds : one.canonical = true ∧ one.cur.link = 0 ∧ isCtx0 one.gid = false ∧ one.storing one.gid = false ∧ one.awaitsDeposit one.gid = false ∧
    (one.markEmpty 1 9).awaitsDeposit 1 = true ∧ (one.markEmpty 1 9).canonical = true ∧ sup.canonical = true ∧ sup.cur.link = 0 ∧ isCtx0 sup.gid = true ∧
    (cur one fun c => { c with work := .task 17 1 5 }).cur.work = .task 17 1 5 ∧ ((one.core one.here).paired && decide (idX one.here % 2 = 1)) = false := by decide +kernel

/-- SPAWN near and on a named core; CALLAT; FORK with G 0, with T 0, and with both; JOIN of a join target and of another word; CANCEL and CANCELU. -/
theorem witness_WorkCreation : one.usable (8 :: regB 9 none ++ [0, 1, 2, 3]) = true ∧ (one.reg 8).toNat % 4 = 0 ∧ one.spawnFits 0x8000000000000000#64 = true ∧
    one.spawnFits 0 = true ∧ one.usable (10 :: (8 :: regB 9 none ++ [0, 1, 2, 3])) = true ∧ one.inPartition (one.tenantOf one.here) 0 = true ∧
    ((0#64).extractLsb' 56 8).toNat = 0 ∧ one.usable [4, 5, 6, 7] = true ∧ ((0x0100000000000000#64).extractLsb' 56 8).toNat ≠ 0 ∧
    (((0x0100000000000000#64).extractLsb' 0 52).zeroExtend 64 : W64).toNat % 4 = 0 ∧
    ((5#64).extractLsb' 0 32).toNat ≠ 0 ∧ one.usable [0, 1, 2, 4, 5, 6, 7] = true ∧ one.storing one.gid = false ∧ one.usable [8] = true ∧ one.usable (8 :: regB 9 none) = true := by
  decide +kernel

theorem witness_SysRegisterReads : one.usable [3] = true ∧ isCtx0 one.gid = false ∧ (decide (0x08 ≤ 0x0D) && decide (0x0D ≤ 0x0D)) = true ∧
    (decide (0x30 ≤ 0x32) && decide (0x32 ≤ 0x32)) = true ∧ sup.usable [3] = true ∧ isCtx0 sup.gid = true := by decide +kernel

theorem witness_SysRegisterWrites : one.canonical = true ∧ one.usable [3] = true ∧ isCtx0 one.gid = false ∧ sup.canonical = true ∧ sup.usable [3] = true ∧ isCtx0 sup.gid = true := by
  decide +kernel

/-- Context 1 is Stopped, and context 0 names it and a register. -/
def stopped (cls : BitVec 2) (num : BitVec 8) : State :=
  (sup.setCtx 1 { sup.ctx 1 with mode := .stopped }).updCore 0 fun k => { k with xctx := 1, xclass := cls, xnum := num }
theorem witness_ThroughXval : sup.canonical = true ∧ isCtx0 sup.gid = true ∧ (sup.core 0).xctx = 0 ∧ sup.usable [3] = true ∧ sup.usable [4] = true ∧
    (stopped 0 127).canonical = true ∧ (stopped 0 127).usable [3] = true ∧ ((stopped 0 127).core 0).xctx ≠ 0 ∧ ((stopped 0 127).ctx 1).mode = .stopped ∧
    127 < ((stopped 0 127).ctx 1).count ∧ ((stopped 0 128).ctx 1).count ≤ 128 ∧ (stopped 0 127).emptyAt 1 127 = false ∧
    ((stopped 0 127).markEmpty 1 127).emptyAt 1 127 = true ∧ ((stopped 1 7).core 0).xclass = 1 ∧ 7 < (8#8).toNat ∧
    ((stopped 2 0).core 0).xclass = 2 ∧ ((stopped 3 0x28).core 0).xclass = 3 ∧ sysAssigned 0x28 = true ∧ sysAssigned 5 = false ∧ sysAssigned 0x0D = true := by decide +kernel

/-- Contexts 1 to 7 hold 896 registers: 128 more fit nowhere. -/
def crowded : State := (List.range' 1 7).foldl (fun s i => s.setCtx i { Ctx.rest i with mode := .ready, park := .nothing, base := 128 * i - 96, limit := 128 * i + 32 }) sup
/-- START in each mode, answered 0, 1 and 2; REAP; PAIR. -/
theorem witness_ContextControl : isCtx0 one.gid = false ∧ one.usable [3, 4, 5] = true ∧ isCtx0 sup.gid = true ∧ (sup.core sup.here).paired = false ∧ sup.usable [3, 4, 5] = true ∧
    startOk 0x0402 = true ∧ (sup.ctx 2).mode = .idle ∧ lowestBase (sup.blocks 0) 32 = some 160 ∧ (sup.ctx 1).mode ≠ .idle ∧
    (crowded.ctx 8).mode = .idle ∧ lowestBase (crowded.blocks 0) 128 = none ∧ startOk 0x10001 = true ∧ ((stopped 0 0).ctx 1).mode = .stopped ∧ (sup.ctx 1).mode ≠ .stopped ∧
    startOk 0x20001 = true ∧ (sup.ctx 1).mode = .ready ∧ ((sup.ctx 2).mode ≠ .ready ∧ (sup.ctx 2).mode ≠ .parked) ∧ startOk 0 = false ∧ startOk 0x0400 = false ∧
    (sup.pairFree 0 && sup.pairFree 1) = false ∧ ((sup.setCtx 1 (Ctx.rest 1)).pairFree 0 && (sup.setCtx 1 (Ctx.rest 1)).pairFree 1) = true := by decide +kernel

theorem witness_StartedContext : one.canonical = true := by decide +kernel

/-- A core with a handler, one whose handler runs, and one without; a software trap. -/
def handling (inh : Bool) : State := (one.updCore 0 fun k => { k with handler := 0x1000 }).updCtx 0 fun c => { c with inh }
theorem witness_TrapEntry : one.canonical = true ∧ isCtx0 one.gid = false ∧ isResidual one.cur.pc = false ∧ causeClass 0x02 < 3 ∧ (0x02 : Nat) ≠ 0x11 ∧ (one.die 0).room (causeClass 0x02) = true ∧
    (one.core 0).handler = 0 ∧ (one.ctx 0).inh = false ∧ (one.core 0).pending = [] ∧ (handling false).canonical = true ∧ ((handling false).core 0).handler ≠ 0 ∧
    ((handling false).ctx 0).inh = false ∧ ((handling true).ctx 0).inh = true ∧ (handling true).canonical = true ∧ one.usable [4] = true := by decide +kernel

/-- A handler that runs, with a trap of context 1. -/
def inHandler : State := (sup.updCore 0 fun k => { k with handler := 0x1000, trapCause := 0x10000000 }).updCtx 0 fun c => { c with inh := true, mode := .ready, park := .nothing }
theorem witness_TrapReturn : inHandler.canonical = true ∧ isCtx0 inHandler.gid = true ∧ inHandler.cur.inh = true ∧
    ((inHandler.core 0).trapCause.extractLsb' 37 27).toNat = 0 ∧ (inHandler.core 0).trapCause.getLsbD 25 = false ∧ (inHandler.core 0).pending = [] ∧
    ((inHandler.core 0).trapCause.extractLsb' 28 4).toNat ≠ 0 ∧ (match (inHandler.core 0).savedPark with | .done _ => true | _ => false) = false ∧
    sup.canonical = true ∧ sup.cur.inh = false ∧ isCtx0 one.gid = false ∧ ((0x2000000000#64).extractLsb' 37 27).toNat ≠ 0 := by decide +kernel

/-- Pointers 1 and 2 name the last row of the AB and the row before. -/
def rows : State := cur one fun c => { c with ptrs := (c.ptrs.set 1 24544).set 2 24512 }
/-- A vector instruction's fields: formats, RD, RA, PD p0, PA p1, PB as given. -/
def vf (fmt fmt2 : BitVec 4) (rd ra rb : BitVec 7) (pd : BitVec 3) (pb : BitVec 3) : VecFmt :=
  { u := false, rd, ra, rb, pred := 0, neg := false, fmt, fmt2, pd, id := true, pa := 1, ia := true, pb, ib := decide (pb ≠ 0), lit := none }
theorem witness_VectorElements :
    ([Instr.vadd, .vsub, .vmul, .vmin, .vmax, .vfma, .vdiv, .vcmpeq, .vcmplt, .vcmple].all fun i => (i (vf 2 0 0 0 0 0 2)).wellFormed) = true ∧
    ([Instr.vadds, .vsubs].all fun i => (i (vf 0 0 0 0 0 0 2)).wellFormed) = true ∧
    ([Instr.vsqrt, .vabs, .vneg, .vrcp, .vrsq, .vexp2, .vlog2].all fun i => (i (vf 2 0 0 0 0 0 0)).wellFormed) = true ∧
    ([Instr.vshl, .vshr, .vsar].all fun i => (i (vf 1 0 0 5 0 0 0)).wellFormed) = true ∧ rows.usable [] = true ∧ rows.usable (regB 5 none) = true ∧
    rows.vecReady (vf 2 0 0 0 0 0 2) [ptrD (vf 2 0 0 0 0 0 2), ptrA (vf 2 0 0 0 0 0 2), ptrB (vf 2 0 0 0 0 0 2)] = true ∧
    rows.vecReady (vf 0 0 0 0 0 0 2) [ptrD (vf 0 0 0 0 0 0 2), ptrA (vf 0 0 0 0 0 0 2), ptrB (vf 0 0 0 0 0 0 2)] = true ∧
    rows.vecReady (vf 2 0 0 0 0 0 0) [ptrD (vf 2 0 0 0 0 0 0), ptrA (vf 2 0 0 0 0 0 0)] = true ∧
    rows.vecReady (vf 1 0 0 5 0 0 0) [ptrD (vf 1 0 0 5 0 0 0), ptrA (vf 1 0 0 5 0 0 0)] = true := by decide +kernel

theorem witness_VectorRows : ([Instr.vand, .vor, .vxor, .vsel].all fun i => (i (vf 0 0 0 0 0 0 2)).wellFormed) = true ∧ (Instr.vshuf (vf 0 0 0 0 0 0 2)).wellFormed = true ∧
    (Instr.vmov (vf 0 0 0 0 0 0 0)).wellFormed = true ∧ (Instr.vbcast { vf 3 0 0 5 0 0 0 with pa := 0, ia := false }).wellFormed = true ∧
    rows.vecReady (vf 0 0 0 0 0 0 2) [ptrD (vf 0 0 0 0 0 0 2), ptrA (vf 0 0 0 0 0 0 2), ptrB (vf 0 0 0 0 0 0 2)] = true ∧
    rows.vecReady (vf 0 0 0 0 0 0 0) [ptrD (vf 0 0 0 0 0 0 0), ptrA (vf 0 0 0 0 0 0 0)] = true ∧ rows.vecReady (vf 3 0 0 5 0 0 0) [ptrD (vf 3 0 0 5 0 0 0)] = true ∧
    rows.usable (regB 5 none) = true := by decide +kernel

theorem witness_VectorEffect : rows.canonical = true := by decide +kernel

/-- VCVT both ways, VQMX of one block and two, VQB4 with a scale and with 0, the reductions of integers and of floats, VREDM of no contributor and of two. -/
theorem witness_VectorConversions : (Instr.vcvt (vf 2 5 3 0 0 0 0)).wellFormed = true ∧ (Instr.vcvt (vf 5 2 3 0 0 0 0)).wellFormed = true ∧
    rows.vecReady (vf 2 5 3 0 0 0 0) [ptrD (vf 2 5 3 0 0 0 0), ptrA (vf 2 5 3 0 0 0 0)] = true ∧
    (Instr.vqmx (vf 8 2 3 0 0 0 0)).wellFormed = true ∧ (Instr.vqmx (vf 10 3 3 0 0 0 0)).wellFormed = true ∧ one.usable [3] = true ∧
    one.vecReady (vf 8 2 3 0 0 0 0) [ptrD (vf 8 2 3 0 0 0 0), { ptrA (vf 8 2 3 0 0 0 0) with rows := 4 }] = true ∧
    (Instr.vqb4 (vf 11 3 3 4 0 0 0)).wellFormed = true ∧ one.usable (3 :: regB 4 none) = true ∧
    one.vecReady (vf 11 3 3 4 0 0 0) [ptrD (vf 11 3 3 4 0 0 0), { ptrA (vf 11 3 3 4 0 0 0) with rows := 4 }] = true ∧
    (match fpDecode fp32 0x3F800000 with | .fin false m _ _ => decide (m ≠ 0) | _ => false) = true ∧ (match fpDecode fp32 0 with | .fin false m _ _ => decide (m = 0) | _ => true) = true ∧
    rows.vecReady (vf 2 3 3 0 0 0 0) [ptrA (vf 2 3 3 0 0 0 0)] = true ∧
    (Instr.vredsum { vf 2 3 3 0 0 0 0 with id := false }).wellFormed = true ∧ (Instr.vredsum { vf 1 0 3 0 0 0 0 with id := false }).wellFormed = true ∧
    (Instr.vredmin { vf 4 4 3 0 0 0 0 with id := false }).wellFormed = true ∧ (Instr.vredmax { vf 0 0 3 0 0 0 0 with id := false }).wellFormed = true ∧
    one.usable (3 :: 5 :: regB 4 none) = true ∧ one.allows 0 false = true ∧ (put (put one 4 0x200002) 5 3).linesFull ([0, 0, 1].map (· / 4)) = true ∧
    (Instr.vredmSum (vf 3 0 3 4 5 0 0)).wellFormed = true ∧ (Instr.vredmMean (vf 2 0 3 4 5 0 0)).wellFormed = true := by decide +kernel

/-- A and C tiles at the ends of the AB and the WB; K 0, 8 and 65,535. -/
theorem witness_MatrixIssue : one.allows 0 false = true ∧ one.usable (regB 4 none ++ [5]) = true ∧ one.usable (regB 4 none ++ [5, 3]) = true ∧
    (24544 % 32 = 0 ∧ 262080 % 64 = 0) ∧ (23552 % 32 = 0 ∧ 23552 + 1024 ≤ 24576 ∧ 262144 - 8 * 128 + 8 * (8 * fmtBits 3) ≤ 262144) ∧
    one.linesFull (linesOf 23552 1024) = true ∧ (261888 + (2048 + 8 - 1) / 8 ≤ 262144) ∧ ((0x10000#64).toNat < 2 ^ 16) = False ∧
    (8192 % 128 = 0 ∧ 8192 + 256 * fmtBits 2 ≤ 24576) ∧ one.goodAddr (one.reg 4) 8 = true := by decide +kernel

/-- The fields of a copy: RD, RA, RB, TREG and XREG. -/
def cf (rd ra : BitVec 7) (lossy : Bool) : CopyFmt :=
  { u := false, rd, ra, rb := 5, scope := 4, pred := 0, neg := false, treg := 6, lossy, xreg := 9, ptr := 0, pl := true, lit := none }
/-- s3 and s4 name plain words, s5 a length of 256 bytes, s6 a counter, s9 an aligned address. -/
def copying : State := put (put (put (put (put one 3 0x200) 4 0x400) 5 256) 6 0x800) 9 0x900
/-- The premises of one form of COPY, by computation. -/
def copyPremises (s : State) (f : CopyFmt) (form : CopyForm) (trig : Bool) : Bool :=
  let a := s.copyArgs f form
  let t := f.treg.toNat
  let hasX := decide (form ≠ .linear) || f.lossy
  let ends := (if f.rd = 0 then [] else [f.rd]) ++ (if f.ra = 0 then [] else [f.ra])
  let globals := (if f.rd = 0 then [] else [s.reg f.rd]) ++ (if f.rd ≠ 0 ∧ f.ra = 0 then [] else [s.reg f.ra])
  s.has (nums ends ++ nums (regB f.rb f.lit) ++ [t] ++ (if hasX then nums [f.xreg] else []) ++ (if trig then [t + 1, t + 2] else [])) &&
    (globals ++ [s.reg f.treg] ++ (if trig then [s.regAt s.gid (t + 1)] else [])).all (fun v => s.goodAddr v 8) &&
    (!hasX || form = .strided || s.goodAddr (s.reg f.xreg) (if f.lossy then 8 else 4)) && (!f.lossy || globals.all fun v => v.toNat % 256 = 0) &&
    a.wordSized f.lossy && a.valueGood && (s.scalesOf a).aligned && (s.scalesOf a).good && (!a.local || (a.off % 8 = 0 && a.inBuffer (s.scalesOf a).extra)) &&
    decide (s.copiesOut < 16) && (!trig || decide (s.triggersOut < 4)) && (!a.fromLocal || trig || s.linesFull a.abLines)
theorem witness_CopyIssue : copyPremises copying (cf 3 4 false) .linear false = true ∧ copyPremises copying (cf 3 4 true) .linear true = true ∧
    copyPremises copying (cf 0 4 false) .linear false = true ∧ copyPremises copying (cf 3 0 false) .linear false = true ∧ copyPremises copying (cf 3 0 false) .linear true = true ∧
    copyPremises (put copying 9 0x800000080) (cf 3 4 false) .strided false = true ∧ copyPremises (put copying 5 0x10) (cf 3 4 false) .gather false = true ∧
    copyPremises (put copying 5 0x500000000) (cf 3 4 false) .scatter true = true ∧ copying.usable (4 :: regB 5 none ++ [6]) = true ∧ copying.goodAddr (copying.reg 4) 1 = true ∧
    copying.goodAddr (copying.reg 6) 8 = true ∧ (copying.opB 5 none).toNat < 2 ^ 32 := by decide +kernel

/-- A collective stream is open at the core's router. -/
def streaming : State :=
  let o : EngOp := { id := 1, work := .collOpen 3 0 2, gid := 1, gen := 0, core := 0, abCore := 0, tenant := 0, pc := 0, orig := 0, iter := 0, unit := 0, launch := 0, scope := 0, bindVa := 0
                     binding := .pending, state := .issued, trigReg := 0, lines := [], got := none, valid := 0, loss := false, broken := false, rid := 0, cycle := 0, arrived := false }
  let st : Stream := { core := 0, vsn := 3, tenant := 0, entries := [{ phys := 0, isLocal := true, core := 0, sets := [0] }, { phys := 0, isLocal := false, core := 2, sets := [0] }], me := 0
                       sets := 1, gbar := 0, combine := 2, up := 0, down := 0, localUp := true, localDown := true, leaving := [], ready := [], deaths := [], dropped := [], inputs := []
                       credits := [], localFree := 2, served := [], sent := [], own := [], blockRows := [], blocksSent := [], blocksIn := [], blocksSeen := 0, rowsUp := 0, upClosed := false, broken := false, opened := o }
  { copying with eng := { copying.eng with streams := [st] } }
theorem witness_LayoutAndCollectiveIssue : copying.allows 0 false = true ∧ copying.usable ([3, 4] ++ regB 5 none ++ [6, 9]) = true ∧ copying.goodAddr (copying.reg 3) 8 = true ∧
    copying.goodAddr (copying.reg 6) 8 = true ∧ copying.goodAddr (copying.reg 9) 1 = true ∧ copying.layoutsOut < 2 ∧ copying.goodAddr (copying.reg 4) 8 = true ∧
    (24544 % 32 = 0 ∧ 24544 + 32 ≤ 24576 ∧ (0x2000005FE0#64) &&& 0xFFFF0000FFFC0000#64 = 0) ∧ copying.linesFull (linesOf 24544 32) = true ∧
    copying.collOut.length < 64 ∧ copying.usable (4 :: regB 5 none ++ [6]) = true ∧ copying.goodAddr (copying.reg 4) 32 = true ∧ copying.vsnTaken 3 = false ∧
    ((put copying 5 5).opB 5 none).toNat < 6 ∧ streaming.vsnOpen 3 = true ∧ streaming.usable (regB 5 none ++ [6]) = true ∧ streaming.goodAddr (streaming.reg 6) 8 = true ∧
    (ptrOffset (streaming.cur.ptr 0) % 32 = 0 ∧ ptrBuf (streaming.cur.ptr 0) = 0 ∧ (streaming.opB 5 none).toNat % 32 = 0 ∧ (streaming.opB 5 none).toNat ≤ 8192) ∧
    streaming.linesFull (linesOf 0 256) = true ∧ (127#7).toNat < streaming.cur.count ∧ streaming.emptyAt 1 127 = false := by decide +kernel

/-- An operation of context 1 on the list, with its binding answered or not. -/
def opOf (work : OpWork) (binding : Binding) : EngOp :=
  { id := 1, work, gid := 1, gen := 0, core := 0, abCore := 0, tenant := 0, pc := 0, orig := 0, iter := 0, unit := 0, launch := 0, scope := 4, bindVa := 0x800, binding, state := .issued
    trigReg := 0, lines := [], got := none, valid := 0, loss := false, broken := false, rid := 0, cycle := 0, arrived := false }
def withOp (o : EngOp) : State := { copying with eng := { copying.eng with ops := [o], nextOp := 2 } }
theorem witness_OperationIssue : copying.canonical = true ∧ [0, 191].Nodup ∧ (∀ l ∈ [0, 191], l < 192) ∧ (copying.core copying.here).paired = false ∧
    (withOp (opOf (.mzero 0 0) .unbound)).op? 1 = some (opOf (.mzero 0 0) .unbound) ∧ isCopyWork (opOf (.copy .linear (.ab 0) (.global 0) 8 0 false []) .pending).work = true ∧
    (vsnOf (opOf (.collPut 3 0 32) .pending).work).isSome = true := by decide +kernel

/-- The page holding the words lies in the far tier, a copy of no near frame. -/
def page0 : Nat := placedPage / 65536
def farPage : State := one.setDpit page0 (mkDpit true true false false false 0 5)
/-- A near page is not moved. -/
theorem witness_EnginesPerform_near : (one.prefPages 0 0 0 1).1.promote (pageOf placedPage) = ((one.prefPages 0 0 0 1).1, true) := by rfl
/-- A word at virtual address 0x100 is mapped; VA 0x10000 is not. -/
theorem witness_EnginesPerform : (withOp (opOf (.mzero 1 (-2)) .unbound)).op? 1 = some (opOf (.mzero 1 (-2)) .unbound) ∧
    (opOf (.mma 0 0 3 3 0 0 none 4) .unbound).binding = .unbound ∧ (withOp (opOf (.drain 0 0 2) (.refused 0x41))).op? 1 = some (opOf (.drain 0 0 2) (.refused 0x41)) ∧
    (withOp (opOf (.copy .linear (.global 0x200) (.global 0x400) 8 0 false []) (.counter 1))).op? 1 = some (opOf (.copy .linear (.global 0x200) (.global 0x400) 8 0 false []) (.counter 1)) ∧
    one.endAt 0 (.global 0x200) = .here ∧ one.endAt 0 (.ab 0) = .here ∧
    one.sourceFull (opOf (.copy .linear (.global 0) (.ab 24568) 8 0 false []) .pending) (.ab 24568) (copyPlan .linear (.global 0) (.ab 24568) 8 0 []) = true ∧
    (one.setLine 0 191 [1]).sourceFull (opOf (.copy .linear (.global 0) (.ab 24568) 8 0 false []) .pending) (.ab 24568) (copyPlan .linear (.global 0) (.ab 24568) 8 0 []) = false ∧
    ({ opOf (.copy .gather (.ab 0) (.global 0) 2 0x900 false []) .pending with got := some [0, 1] }).got = some [0, 1] ∧
    one.served 0 0x200 = .here ∧ (one.prefPages 0 0 0x10000 1).2 = .error 0x10000 ∧ (one.prefPages 0 0 0 1).2 = .ok [pageOf placedPage] ∧
    (farPage.prefPages 0 0 0 1).2 = .ok [page0] ∧ (farPage.promoteAll ([page0].filter fun p => !((opOf (.prefTier 0 1) .unbound).got.getD []).contains p)).2 ≠ 0 ∧
    ([page0].filter fun p => !([page0].contains p)) = [] ∧
    (match one.layoutSource (opOf (.layout 0x200 (.global 0x400) 0 8 0x900) (.counter 1)) 0x400 1 with | (_, .ok xs) => decide (xs.length = 1) | _ => false) = true ∧
    (33#64).toNat % 32 ≠ 0 ∧ layoutReason [wordOfNat (0x4C * 2 ^ 56 + 0x10), 0xFFFFFFF0] 8 none = none ∧ layoutReason [0] 8 none = some 0x02 := by decide +kernel

theorem witness_WordMoves : 0 < ((0x7FFFFFF8#64).extractLsb' 0 32).toNat ∧ (one.xlat 0 0 0x100 false).2 = .ok (placedPage + 0x100) ∧
    (one.xlat 0 0 0x10000 true).2 = .error 0x08 ∧ ((one.putBytes placedL3 (bytesOfNat (2 ^ 63 + 2 ^ 61 + placedPage) 8)).xlat 0 0 0x100 true).2 = .error 0x09 ∧
    (one.xlat 0 0 0x100 true).2 = .ok (placedPage + 0x100) ∧
    (holding 8 7).memType (wordAt (placedPage + 0x100)) = 0 ∧ (holding 15 0).memType (wordAt (placedPage + 0x100)) = 7 ∧ (holding 9 0).memType (wordAt (placedPage + 0x100)) = 1 ∧
    (one.core 0).fwd = none ∧ (opOf (.mzero 0 0) (.counter 1)).binding = .counter 1 ∧ (opOf (.mzero 0 0) .barrier).binding = .barrier ∧ one.served 0 0x800 = .here := by
  decide +kernel

/-- One element that passes and one that does not, below the top exponent and at it. -/
theorem witness_ChunkAccumulation : ([Val.fin false 1 1 0, .fin false 1 1 60].length = [({ spec := 0, m := 2 ^ 46 } : Elem), { spec := 0, m := 0 }].length) ∧
    (∀ v ∈ [Val.fin false 1 1 0, .fin false 1 1 60], v.isNan = false ∧ v.isInf = false) ∧ 2 ^ 46 < 0 + (alignTo 0 (.fin false 1 1 60)).1.natAbs ∧
    2 ^ 46 < 2 ^ 46 + (alignTo 0 (.fin false 1 1 0)).1.natAbs ∧ ¬(2 ^ 46 < 0 + (alignTo 0 (.fin false 1 1 0)).1.natAbs) ∧ (510 : Int) < 511 := by decide +kernel

/-- A transposition of 2 by 4 elements, a split, and the identity in four dimensions. -/
theorem witness_LayoutPermutes : dmwValid 0xFFFFF0F1#64 [2, 4] = true ∧ dmwValid 0x10FFFF10F2#64 [2, 4] = true ∧ dmwValid 0xF3F2F1F0#64 [1, 2, 3, 4] = true ∧ [1, 2, 3, 4].length ≤ 4 := by decide +kernel

/-- The word at 0x100 as the slices find it. -/
def found (tag : BitVec 4) (v : W64) : State := (holding tag v).open (wordAt (placedPage + 0x100))
/-- Its type and data. -/
def isWord (tag : BitVec 4) (v : W64) (type : Nat) (full : Bool) : Bool :=
  decide ((found tag v).memType (placedPage + 0x100) = type) && decide ((found tag v).memFull (placedPage + 0x100) = full) && decide ((found tag v).memWord (placedPage + 0x100) = v)
theorem witness_SliceAccesses : dpValid (ask (.load 8 true)).dp = true ∧ isWord 8 7 0 true = true ∧ isWord 15 0 7 true = true ∧ isWord 9 5 1 true = true ∧ 1 + 7 ≤ 8 ∧
    mergeWord 0 1 7 (-1) = 0xFFFFFFFFFFFFFF00#64 ∧ dpValid (2 ^ 48) = false := by decide +kernel

theorem witness_WordWrites : one.canonical = true ∧ (placedPage + 0x100) % 8 = 0 ∧
    (dpitClean ((one.setDpit 4096 (mkDpit true false true false false 5 7)).dpit 4096) = true ∧ dpitMove ((one.setDpit 4096 (mkDpit true false true false false 5 7)).dpit 4096) = false ∧
      (one.setDpit 4096 (mkDpit true false true false false 5 7)).canonical = true) ∧ dpitClean (one.dpit 4096) = false ∧ pageOf (placedPage + 0x100) = 4096 := by decide +kernel

/-- A mapped page, one that is not, and one that is mapped for reading only. -/
def readOnly : State := one.putBytes placedL3 (bytesOfNat (2 ^ 63 + 2 ^ 61 + placedPage) 8)
theorem witness_Translation : (one.lookup (32 * 0 + vaOf 0x10000 / 65536 % 32) 0 0x10000).1 = .fault ∧ (one.lookup (32 * 0 + vaOf 0x100 / 65536 % 32) 0 0x100).1 = .ok (placedPage + 0x100) true ∧
    (readOnly.lookup 0 0 0x100).1 = .ok (placedPage + 0x100) false ∧ one.mem.tlb = [] ∧ one.tenant? 0 = some placedTenant := by decide +kernel

/-- A word of each type in each of the states that the clauses name; every boundary of a count, phase, list and ring. -/
theorem witness_SluicesPerform : dpValid (ask .ldFe).dp = true ∧ isWord 8 7 0 true = true ∧ isWord 0 7 0 false = true ∧ isWord 9 5 1 true = true ∧
    (ask .ctrAdd).join = none ∧ (5#64).toNat ≤ (5#64).toNat ∧ isWord 10 0x0000000200010000 2 true = true ∧
    (((0x0000000200010000#64).extractLsb' 32 16).toNat ≤ (((0x0000000200010000#64).extractLsb' 16 16).toNat + 1) % 65536) ∧
    ((0x0000000200010000#64).extractLsb' 48 16).toNat ≠ ((1#64).extractLsb' 0 16).toNat ∧ ((0x0000FFFE00000000#64).extractLsb' 32 16).toNat < 65535 ∧
    0 < ((0x0000000100000000#64).extractLsb' 32 16).toNat ∧ isWord 11 0x0000000700000007 3 true = true ∧ isWord 11 0x0000000800000007 3 true = true ∧
    isWord 12 0 4 true = true ∧ isWord 12 0x0800000010000000 4 true = true ∧ isWord 12 0x0800000020000000 4 true = true ∧
    (1 + 2 ^ 28 - 0) % 2 ^ 28 < 2 ^ 1 ∧ 2 ^ 1 ≤ (2 + 2 ^ 28 - 0) % 2 ^ 28 ∧ isWord 13 0x0000000100000000 5 true = true ∧
    ((0x0000000100000000#64).extractLsb' 32 32) ≠ (0#64).extractLsb' 0 32 ∧ ({ ask .ctrAdd with join := some 4097 }).join = some 4097 := by decide +kernel

/-- A join record of the tenant, and of none. -/
def joined : State := one.updDie 1 fun d => { d with joins := spSet none d.joins 1 (some { value := 2, pc := 0, saved := [], link := 0, tenant := 0, work := .unit }) }
theorem witness_SluicesPerform_joins : spGet none (joined.die (4097 / 4096)).joins (4097 % 4096) = some { value := 2, pc := 0, saved := [], link := 0, tenant := 0, work := .unit } ∧
    spGet none (one.die (4097 / 4096)).joins (4097 % 4096) = none ∧ (ask .ctrAdd).tenant = 0 := by decide +kernel

theorem witness_SluicesPark : dpValid (ask .ldFe).dp = true ∧ isWord 0 7 0 false = true ∧ isWord 8 7 0 true = true ∧ isWord 9 4 1 true = true ∧ (4#64).toNat < (5#64).toNat ∧
    isWord 10 0x0000000300010000 2 true = true ∧ (((0x0000000300010000#64).extractLsb' 16 16).toNat + 1) % 65536 < ((0x0000000300010000#64).extractLsb' 32 16).toNat ∧
    ((0x0000000300010000#64).extractLsb' 48 16).toNat = ((0#64).extractLsb' 0 16).toNat ∧ isWord 11 0x0000000800000007 3 true = true ∧ isWord 12 0x0800000020000000 4 true = true ∧
    isWord 12 0 4 true = true ∧ isWord 13 0x0000000100000000 5 true = true ∧ isWord 10 0x0000FFFF00000000 2 true = true ∧ isWord 10 0 2 true = true ∧
    isWord 11 0x0000000700000007 3 true = true ∧ isWord 15 0 7 true = true ∧ one.takenBack (ask .ldFe) = false ∧
    ({ one with sluice := { one.sluice with cancelled := [0] } } : State).takenBack (ask .ldFe) = true ∧
    (decide (one.sluice.parked.countP (fun p => decide (p.slice = homeSlice (placedPage + 0x100)) && decide (p.req.tenant = 0) && !p.polder) < one.quotaAt (homeSlice (placedPage + 0x100)) 0)) = true ∧
    one.quotaAt (homeSlice (placedPage + 0x100)) 1 = 0 := by decide +kernel

theorem witness_ObjectsAndRings : dpValid (ask (.mkobj 4)).dp = true ∧ isWord 8 7 0 true = true ∧ isWord 9 5 1 true = true ∧ isWord 15 0 7 true = true ∧ ((16#64).extractLsb' 0 5).toNat ≤ 16 ∧
    16 < ((17#64).extractLsb' 0 5).toNat ∧ (found 9 5).sluice.parked = [] ∧ (holding 14 0x208).memType (placedPage + 0x100) = 6 ∧ (ask .ctrAdd).hops < 4 ∧ malformed 0x208 = false ∧
    (holding 14 0x208).served 0 0x208 = .here ∧ (one.lookup (xlatSlice (homeDie (placedPage + 0x100)) 0x10000) 0 0x10000).1 = .fault ∧
    (one.lookup (xlatSlice (homeDie (placedPage + 0x100)) 0x200) 0 0x200).1 = .ok (placedPage + 0x200) true ∧
    (readOnly.lookup (xlatSlice (homeDie (placedPage + 0x100)) 0x200) 0 0x200).1 = .ok (placedPage + 0x200) false ∧ (ask .ldFe).kind ≠ .lkRel := by decide +kernel
/-- An entry in the polder, and one whose requester has been cancelled; room on the wait list. -/
def entryAt (polder abandoned : Bool) : Parked :=
  { slice := homeSlice placedPage, dp := placedPage, seq := 0, req := ask .ldFe, ticket := 0, phase := 0, polder, abandoned, notice := none }
def moving : State := { one with sluice := { one.sluice with moves := [(homeSlice placedPage, 0)], parked := [entryAt true false] } }
theorem witness_ObjectsAndRings_entries : one.sluice.moves = [] ∧ moving.listRoom (homeSlice placedPage) 0 = true ∧ moving.sluice.parked = [] ++ entryAt true false :: [] ∧
    ((entryAt true false).polder = true ∧ (entryAt true false).req.tenant = 0) ∧ moving.listRoom (homeSlice placedPage) 1 = false ∧ (entryAt false true).abandoned = true ∧
    (ask .ldFe).src = .ctx 1 0 := by decide +kernel
/-- Requests that wait on the word at 0x100, by operation, operand and sequence number, and the word. -/
def waiter (seq : Nat) (kind : ReqKind) (n : W64) : Parked :=
  { slice := homeSlice (placedPage + 0x100), dp := placedPage + 0x100, seq, req := { ask kind with data := n }, ticket := 7, phase := 0, polder := false, notice := none }
def waited (tag : BitVec 4) (v : W64) (ps : List Parked) : State := { holding tag v with sluice := { (holding tag v).sluice with parked := ps } }
/-- What every clause about parked requests asks for. -/
def waitsWell (tag : BitVec 4) (v : W64) (type : Nat) (ps : List Parked) : Bool :=
  (waited tag v ps).canonical && !(waited tag v ps).sluice.busy.contains (placedPage + 0x100) && decide ((waited tag v ps).memType (placedPage + 0x100) = type) &&
    decide ((waited tag v ps).parkedAt (placedPage + 0x100) = ps) && (ps.all fun p => !p.abandoned && decide (p.notice = none)) &&
    decide (ps.Pairwise fun p q => p.seq ≠ q.seq) && decide ((waited tag v ps).memWord (placedPage + 0x100) = v)
/-- A counter that reaches 5: waits for 5 and for 6; takes of 2, 3 and 1. A full word and an empty one; a barrier whose last participant arrives; a
condition with two waiters; a lock with tickets 7 and 8. -/
theorem witness_ObjectsAndRings_wakes : waitsWell 9 4 1 [waiter 0 .ctrWait 5, waiter 1 .ctrWait 6] = true ∧ (5#64).toNat ≤ (5#64).toNat ∧ ¬(6#64).toNat ≤ (5#64).toNat ∧
    waitsWell 9 4 1 [waiter 0 .ctrTake 2, waiter 1 .ctrTake 3, waiter 2 .ctrTake 1] = true ∧ ([2#64, 3].map BitVec.toNat).sum ≤ (5#64).toNat ∧ (5#64).toNat < 5 + (1#64).toNat ∧
    waitsWell 0 0 0 [waiter 0 .ldFe 0] = true ∧ waitsWell 8 7 0 [waiter 0 .stEf 3] = true ∧
    waitsWell 10 0x0000000200010000 2 [waiter 0 .barSync 0, waiter 1 .barWait 0] = true ∧
    ((0x0000000200010000#64).extractLsb' 32 16).toNat ≤ (((0x0000000200010000#64).extractLsb' 16 16).toNat + 1) % 65536 ∧
    waitsWell 13 0x0000000100000002 5 [waiter 0 .cndWait 1, waiter 1 .cndWait 1] = true ∧ waitsWell 11 0x0000000900000006 3 [waiter 0 .lkAcq 0, { waiter 1 .lkAcq 0 with ticket := 8 }] = true ∧
    (ask .barArrive).kind ≠ .lkRel := by decide +kernel
/-- A ring of 2 words with a pop that waits and one word, and with a push that waits and room for one; its ring base poisoned or not. -/
def ringed (hdr : W64) (kind : ReqKind) : State := (waited 12 hdr [waiter 0 kind 0]).commit (placedPage + 0x108) 0x200 8
theorem witness_ObjectsAndRings_ring : (placedPage + 0x100) ∉ one.sluice.busy.erase (placedPage + 0x100) ∧
    (ringed 0x0800000010000000 .qpop).memType (placedPage + 0x100) = 4 ∧ (ringed 0x0800000010000000 .qpop).parkedAt (placedPage + 0x100) = [waiter 0 .qpop 0] ∧
    0 < (((0x0800000010000000#64).extractLsb' 28 28 - (0x0800000010000000#64).extractLsb' 0 28 : BitVec 28)).toNat ∧
    ((((ringed 0x0800000010000000 .qpop).unpark (waiter 0 .qpop 0)).open (placedPage + 0x108)).memType (placedPage + 0x108) ≠ 7) ∧
    (((0x0800000010000000#64).extractLsb' 28 28 - (0x0800000010000000#64).extractLsb' 0 28 : BitVec 28)).toNat < 2 ^ ((0x0800000010000000#64).extractLsb' 59 5).toNat ∧
    (ringed 0x0800000010000000 .qpush).parkedAt (placedPage + 0x100) = [waiter 0 .qpush 0] ∧
    (((ringed 0 .qpop).commit (placedPage + 0x108) 0 15).open (placedPage + 0x108)).memType (placedPage + 0x108) = 7 ∧
    (found 8 7).memType (placedPage + 0x108) ≠ 7 ∧ ({ ask .barWait with src := .withdrawal } : Request).src = .withdrawal := by decide +kernel

/-- Another module is mapped to logical number 1. -/
def modules : State := one.updTenant 0 fun t => { t with remap := [(0, 0x8000000000000000), (1, 0x8000000000000005)] }
theorem witness_ObjectsAndRings_peer : modules.served 0 (0x8020000000000208#64) = .peer 5 ∧ malformed 0x8020000000000208#64 = false := by decide +kernel

/-- Context 1 is Parked in a way. -/
def parkedAs (p : Park) : State := one.setCtx 1 { one.ctx 1 with mode := .parked, park := p }
/-- A reply for it. -/
def reply (use : Use) : Reply := { gid := 1, gen := 0, rid := 3, use, data := 7, ok := true, next := 4 }
/-- Context 1 cancels the graph whose completion counter is at 0x100. -/
def cancelling : State :=
  let o : Obj := { level := .graph, tenant := 0, ctr := 0x100, parent := 0, members := 1, done := 0, begun := true, partialDone := false, cancelled := false, advanced := false, reaped := false }
  let s := (parkedAs (.cancel 4)).commit (placedPage + 0x100) 0 9
  { s with fw := { s.fw with objs := [o] } }
theorem witness_Replies : (parkedAs (.reply 3)).atHand 1 0 = true ∧ ((parkedAs (.reply 3)).ctx 1).mode = .parked ∧ ((parkedAs (.reply 3)).ctx 1).park = .reply (reply .ack).rid ∧
    isCtx0 1 = false ∧ (reply .ack).rid ≠ 0 ∧ (parkedAs .placement).atHand 1 0 = true ∧ isResidual ((parkedAs .placement).ctx 1).pc = false ∧ one.fab.waiting = [] ∧
    one.movedAway 1 1 = false ∧ (one.ctx 1).gen ≠ 1 ∧ (parkedAs (.callat 4)).atHand 1 0 = true ∧ (parkedAs (.cancel 4)).atHand 1 0 = true ∧
    cancelling.atHand 1 0 = true ∧ (cancelling.ctx 1).park = .cancel 4 ∧ (cancelling.isCompletion 0 0 0x100).2 = true ∧ (one.isCompletion 0 0 0x100).2 = false ∧
    (reply .ack).dest = none ∧ (parkedAs (.reply 3)).tooLate (reply .ack) = false ∧
    (one.updCore 0 fun k => { k with halted := true }).fab.waiting = [] ∧
    ((parkedAs (.register 37)).ctx 1).mode = .parked ∧ ((parkedAs (.line 191)).ctx 1).park = .line 191 ∧ ((parkedAs .deposits).ctx 1).park = .deposits := by decide +kernel
/-- A join record with and without its four saved values waits for the participant; `s7` awaits a deposit or not; a reply whose request has been refused. -/
def joining (saved : List W64) : State :=
  (parkedAs (.reply 3)).updDie 0 fun d => { d with joins := spSet none d.joins 1 (some { value := 0, pc := 8, saved, link := 0, tenant := 0, work := .unit }) }
def refusedLate : State := { one with sched := { one.sched with agenda := [{ due := 0, ev := .faultReply { ask .ldFe with rid := 3 } 0x0C 0x100 }] } }
theorem witness_Replies_join : (joining [1, 2, 3, 4]).atHand 1 0 = true ∧ ((joining [1, 2, 3, 4]).ctx 1).park = .reply (reply (.join 1 0)).rid ∧ (reply (.join 1 0)).data ≠ 1 ∧
    ({ reply (.join 1 0) with data := 1 } : Reply).data = 1 ∧ spGet none ((joining [1, 2, 3, 4]).die (1 / 4096)).joins (1 % 4096) = some { value := 0, pc := 8, saved := [1, 2, 3, 4], link := 0, tenant := 0, work := .unit } ∧
    ((joining [1, 2, 3, 4]).emptyAt 1 4 || (joining [1, 2, 3, 4]).emptyAt 1 5 || (joining [1, 2, 3, 4]).emptyAt 1 6 || (joining [1, 2, 3, 4]).emptyAt 1 7) = false ∧
    ((joining [1, 2, 3, 4]).setEmpty (one.regKey 1 7) true).emptyAt 1 7 = true ∧ (joining []).tooLate (reply (.join 1 0)) = false ∧ isCtx0 0 = true ∧
    (sup.setCtx 0 { sup.ctx 0 with mode := .parked, park := .reply 3 }).atHand 0 0 = true ∧ refusedLate.tooLate (reply .ack) = true ∧ refusedLate.fab.waiting = [] ∧
    ({ reply .ack with dest := some (.remote ⟨5, .other, 0, 4⟩) } : Reply).dest = some (.remote ⟨5, .other, 0, 4⟩) ∧
    ({ reply .ack with dest := some (.fwWait (.pred 1 0)) } : Reply).dest = some (.fwWait (.pred 1 0)) ∧ (withOp (opOf (.mzero 0 0) .unbound)).op? 1 = some (opOf (.mzero 0 0) .unbound) ∧
    (reply (.getWord 1 5)).use = .getWord 1 5 ∧ one.cpu.cores.all (fun k => k.2.savedPark = .nothing) = true := by decide +kernel

theorem witness_FaultReplies : (parkedAs (.reply 1)).atHand 1 0 = true ∧ ((parkedAs (.reply 1)).ctx 1).park = .reply (ask .ldFe).rid ∧ isCtx0 1 = false ∧
    (withOp (opOf (.prefTier 0 1) (.counter 1))).fab.waiting = [] ∧ (withOp (opOf (.prefTier 0 1) (.counter 1))).op? 1 = some (opOf (.prefTier 0 1) (.counter 1)) ∧
    (opOf (.prefTier 0 1) .pending).binding = .pending ∧ one.atHand 1 0 = true ∧ (one.ctx 1).mode = .ready ∧ (one.ctx 1).stop ≠ .cancel ∧ one.movedAway 1 1 = false ∧ (one.ctx 1).gen ≠ 1 ∧
    ((one.updCtx 1 fun c => { c with late := [{ addr := 8, orig := 4, iter := 0 }] }).ctx 1).late = [{ addr := 8, orig := 4, iter := 0 }] ∧ (one.ctx 1).stop = .none ∧
    (one.ctx 1).mode ≠ .inTransit ∧ (one.ctx 1).mode ≠ .idle ∧ one.fab.waiting = [] ∧ (parkedAs (.reply 1)).atHand 1 0 = true ∧ ((parkedAs (.reply 1)).ctx 1).mode = .parked ∧
    ((sup.setCtx 0 { sup.ctx 0 with mode := .parked, park := .reply 1 }).ctx 0).inh = false ∧ reasonOf 0x0B = 0x40 := by decide +kernel

/-- The word a copy of context 1 is bound to, at 0x800, as given, with its second word. -/
def bound (tag : BitVec 4) (v i : W64) : State :=
  ((withOp (opOf (.prefTier 0 1) .pending)).commit (placedPage + 0x800) v tag).commit (placedPage + 0x808) i 8
/-- A notice for operation number 6 of the counter at 0x100. -/
def notice6 : Notice :=
  { tenant := 0, va := 0x100, dp := placedPage + 0x100, num := 6, scope := 4, core := 0, pc := 0, orig := 0, iter := 0, unit := 0, launch := 0, relaxed := false, remote := false }
theorem witness_NoticesAndNumbers : (bound 9 3 3).op? 1 = some (opOf (.prefTier 0 1) .pending) ∧ (bound 9 3 3).served 0 0x800 = .here ∧
    ((bound 9 3 3).lookup (xlatSlice 0 0x800) 0 0x800).1 = .ok (placedPage + 0x800) true ∧ ((bound 9 3 3).lookup (xlatSlice 0 0x10000) 0 0x10000).1 = .fault ∧
    (readOnly.lookup (xlatSlice 0 0x800) 0 0x800).1 = .ok (placedPage + 0x800) false ∧ (bound 10 0 0).memType (placedPage + 0x800) = 2 ∧ (bound 8 0 0).memType (placedPage + 0x800) = 0 ∧
    (bound 9 3 3).memType (placedPage + 0x800) = 1 ∧ (placedPage + 0x800) % 16 = 0 ∧ (placedPage + 0x808) % 16 ≠ 0 ∧ ((bound 9 4 3).memWord (placedPage + 0x808)).toNat < ((bound 9 4 3).memWord (placedPage + 0x800)).toNat ∧
    ((bound 9 3 3).memWord (placedPage + 0x800)).toNat ≤ ((bound 9 3 3).memWord (placedPage + 0x808)).toNat ∧ dpValid notice6.dp = true ∧ isWord 8 0 0 true = true ∧
    isWord 9 5 1 true = true ∧ (5#64 = notice6.num - 1) ∧ (6#64 ≠ notice6.num - 1 ∧ notice6.num.toNat ≤ (6#64).toNat) ∧ (4#64 ≠ notice6.num - 1 ∧ (4#64).toNat < notice6.num.toNat) ∧
    isWord 10 0 2 true = true ∧ one.atHand 1 0 = true ∧ (one.ctx 1).mode = .ready ∧ (one.ctx 1).park = .nothing ∧ isCtx0 1 = false ∧
    (one.tooLate (reply (.trigger 1 5)) = false ∧ (reply (.trigger 1 5)).dest = none) ∧ (withOp { opOf (.prefTier 0 1) (.counter 1) with state := .trigGranted }).op? 1 =
      some { opOf (.prefTier 0 1) (.counter 1) with state := .trigGranted } := by decide +kernel
/-- A tenant of no core has quota 0 on the wait list: its notices go to the polder. -/
def crowd : Notice := { notice6 with tenant := 1 }
theorem witness_NoticesAndNumbers_room : (found 9 4).memType (placedPage + 0x100) = 1 ∧ (4#64 ≠ crowd.num - 1 ∧ (4#64).toNat < crowd.num.toNat) ∧
    (found 9 4).sluice.parked = [] ∧ (found 9 4).quotaAt (homeSlice (placedPage + 0x100)) 1 = 0 ∧ 0 < (found 9 4).quotaAt (homeSlice (placedPage + 0x100)) 0 ∧
    one.served 0 0x800 = .here ∧ (one.peerDead 1 = false) ∧ (opOf (.prefTier 0 1) .barrier).binding = .barrier := by decide +kernel

/-- A LAUNCH of `n` units on die 0 with its counter at 0x800 and its kernel at 0x400, taken and in a state. -/
def launchWords (n : W64) : List W64 := [0x100001001, 0x800, 0x400, n, n, 0, 1, 0, 5, 6, 7, 8, 0, 0, 0, 0]
def launchIn (state : LaunchState) (waits : Nat) (shares : List Share) : Launch :=
  { lid := 1, tenant := 0, words := launchWords 3, id := 0, state, waits, age := 0, shares, live := 0, retired := 0, reaped := false, partialDone := false, cancelled := false
    replaced := [], skip := [] }
def withLaunch (l : Launch) : State := { one with fw := { one.fw with launches := [l], nextLid := 2 } }
def queue1 (lastRead : Nat) : Queue := { tenant := 0, num := 1, block := 0x1000, widx := 0, interval := 800, lastRead, ridx := 0, ready := false }
/-- The firewall lets a class of messages pass, into the column or out of it. -/
def rule (dirOut : Bool) (cls : Nat) : FwRule := { dirOut, cls, lo := 0, hi := 2 ^ 64 }
def behind (rules : List FwRule) (s : State) : State := { s with fw := { s.fw with params := { s.fw.params with rules } } }
/-- Everything passes. -/
def open_ (s : State) : State := behind ((List.range 6).flatMap fun c => [rule true c, rule false c]) s
def blocked1 : State := open_ (withLaunch (launchIn .blocked 1 []))
theorem witness_LaunchesBegin : blocked1.launch? 1 = some (launchIn .blocked 1 []) ∧ blocked1.admits true 1 0 = true ∧ (behind [] one).admits true 1 0 = false ∧
    (blocked1.fwRead 0 ((launchIn .blocked 1 []).word 0x60 + 8)).1.graphBegun 0 (launchIn .blocked 1 []).graph = true ∧ (blocked1.fwRead 0 ((launchIn .blocked 1 []).word 0x60 + 8)).2.getLsbD 0 = false ∧
    (behind [rule true 4] one).packetsPass = true ∧ (behind [] one).packetsPass = false ∧ ({ launchIn .blocked 0 [] with words := launchWords 0 } : Launch).n = 0 ∧
    (launchIn .blocked 1 []).waits = 1 ∧ (launchIn .blocked 1 []).state = .blocked ∧
    (launchIn .blocked 1 []).n ≠ 0 ∧
    ((open_ ((withLaunch (launchIn .blocked 1 [])).commit (placedPage + 8) 1 8)).fwRead 0 ((launchIn .blocked 1 []).word 0x60 + 8)).2.getLsbD 0 = true ∧ one.fw.launches = [] ∧
    (withLaunch (launchIn .pending 0 [])).fw.launches.filter (fun x => decide (x.tenant = 0 ∧ x.state = .pending)) = [launchIn .pending 0 []] ∧
    (launchIn .pending 0 []).groups = 0 ∧ (withLaunch (launchIn .pending 0 [])).held (launchIn .pending 0 []) = false ∧ (launchIn .pending 0 []).dies ≠ [] ∧
    one.fw.queues = [] ∧ firstQueue ([queue1 0].filter fun q => decide (q.lastRead + q.interval ≤ 800)) = some (queue1 0) ∧ 799 < 0 + (queue1 0).interval ∧
    one.tenant? 0 = some placedTenant ∧ one.admits true 3 0 = false ∧ (open_ one).admits true 3 0 = true ∧ placedTenant.lastIdle = none ∧
    ({ launchIn .blocked 0 [] with words := launchWords 0 } : Launch).state = .blocked ∧
    (withLaunch { launchIn .blocked 0 [] with words := launchWords 0 }).launch? 1 = some { launchIn .blocked 0 [] with words := launchWords 0 } := by decide +kernel
/-- A tenant whose last idle report passed at cycle 0, at cycle 1,023 and at 1,024; a graph of two members, with none and with one done. -/
def idled (now : Nat) : State := { (open_ one).updTenant 0 (fun t => { t with lastIdle := some 0 }) with sched := { (open_ one).sched with now } }
def graph2 (done : Nat) : Obj :=
  { level := .graph, tenant := 0, ctr := 0x900, parent := 0, members := 2, done, begun := true, partialDone := false, cancelled := false, advanced := false, reaped := false }
def graphed (done : Nat) : State := { one with fw := { one.fw with objs := [graph2 done] } }
theorem witness_LaunchesBegin_objects : (idled 1023).tenant? 0 = some { placedTenant with lastIdle := some 0 } ∧ (idled 1023).admits true 3 0 = true ∧ (idled 1023).sched.now < 0 + 1024 ∧
    (idled 1024).tenant? 0 = some { placedTenant with lastIdle := some 0 } ∧ 0 + 1024 ≤ (idled 1024).sched.now ∧ (graphed 0).obj? 0 0x900 = some (graph2 0) ∧
    (graphed 1).obj? 0 0x900 = some (graph2 1) ∧ (graph2 0).done + 1 < (graph2 0).members ∧ (graph2 1).members ≤ (graph2 1).done + 1 ∧
    [graph2 0].Pairwise (fun x y => ¬(x.is 0 0x900 = true ∧ y.is 0 0x900 = true)) := by decide +kernel

/-- A kernel of 32 registers and quota 1 without code, and die 0's share of the launch. -/
def kernel0 : List Byte := [0, 0x1D00000000000104, 0, 0, 0, 0].flatMap fun w => bytesOfNat w 8
def share3 : Share := { die := 0, base := 0, count := 3, next := 2, entry := some 0x430, code := kernel0 }
def placing : State := withLaunch (launchIn .released 0 [share3])
/-- The partition's cores are halted, so no core takes work; the unit waits. -/
def fullCores : State := ((coresOfCluster 0).foldl (fun s c => s.updCore c fun k => { k with halted := true }) placing).updDie 0 fun d => { d with waiting := [{ lid := 1, die := 0, unit := 2 }] }
def firstCore (s : State) : Option Nat :=
  let l := launchIn .released 0 [share3]
  (walkCores 0 (s.hintOf l 0 2).1 (s.hintOf l 0 2).2 l.radius).find? (s.takesUnit l (l.kernel share3) (s.hintOf l 0 2).1 (s.hintOf l 0 2).2)
/-- Evaluation of the launch's kernel is under way. -/
def evaluating : State := placing.updDie 0 fun d => { d with evaluating := [(placing.keyOf (launchIn .released 0 [share3]) ((launchIn .released 0 [share3]).kernel share3), 1)] }
theorem witness_UnitsPlaced : placing.launch? 1 = some (launchIn .released 0 [share3]) ∧ (launchIn .released 0 [share3]).share? 0 = some share3 ∧ (launchIn .released 0 [share3]).cancelled = false ∧
    (launchIn .released 0 [share3]).skip.contains 2 = false ∧ (launchIn .released 0 [share3]).replaced.contains 2 = false ∧ placing.heldAt (launchIn .released 0 [share3]) 0 = false ∧
    firstCore placing = some 1 ∧ firstCore fullCores = none ∧ fullCores.canonical = true ∧ (fullCores.die 0).waiting = [{ lid := 1, die := 0, unit := 2 }] ∧
    (placing.updDie 0 fun d => { d with waiting := [{ lid := 1, die := 0, unit := 2 }] }).canonical = true ∧
    (match placing.readKernel 0 0 0x400 with
      | (k, u) => decide (((u.updShare 1 0 fun sh => { sh with code := k.code }).specLookup 0 (u.keyOf (launchIn .released 0 [share3]) k)).2 = none)) = true ∧
    ((evaluating.updDie 0 fun x => { x with evaluating := [] }).specLookup 0 (evaluating.keyOf (launchIn .released 0 [share3]) ((launchIn .released 0 [share3]).kernel share3))).2 = none ∧
    share3.entry ≠ none ∧ ({ share3 with entry := none } : Share).entry = none ∧
    (3 : Nat) < 4 ∧ (launchIn .released 0 [share3]).kernelAddr = 0x400 ∧
    (evaluating.die 0).evaluating = [(evaluating.keyOf (launchIn .released 0 [share3]) ((launchIn .released 0 [share3]).kernel share3), 1)] ∧ evaluating.launch? 1 = some (launchIn .released 0 [share3]) := by
  decide +kernel

/-- A child for core 0, and a task there. -/
def task1 (rid : Nat) : Task :=
  { pc := 0x100, s0 := 1, s1 := 2, s2 := 3, s3 := 4, gid := 1, gen := 0, d := 5, rid, tenant := 0, launch := none, unit := 0, launchId := 0, o := [], e := [] }
def tasked (n : Nat) : State := one.updCore 0 fun k => { k with tasks := List.replicate n (task1 0) }
theorem witness_ChildrenAndTasks : one.launchCancelled (task1 0).launch = false ∧ one.takesWork 0 = true ∧ one.roomFor 0 32 = some (2, 160) ∧ fullCores.takesWork 0 = false ∧
    (one.core 0).fwd = none ∧ (one.core 0).halted = false ∧ (one.core 0).paired = false ∧ ((tasked 15).core 0).tasks.length < 16 ∧ 16 ≤ ((tasked 16).core 0).tasks.length ∧
    ((tasked 1).core 0).tasks = [task1 0] ∧ (one.core 0).tasks = [] ∧ one.movedAway 1 0 = false ∧ one.lives 1 0 = true ∧
    ((one.updCore 0 fun k => { k with callers := [task1 0] }).core 0).callers = [task1 0] ∧
    ((one.updCore 0 fun k => { k with callers := [task1 1] }).cpu.cores.find? (fun x => x.2.callers.any fun y => decide (y.gid = 1 ∧ y.gen = 0 ∧ y.rid = 1))) =
      some (0, { Core.init with callers := [task1 1] }) := by decide +kernel

/-- A command is being served; its words. -/
def commanded (ws : List W64) : State := { one with fw := { one.fw with serving := true, command := { tenant := 0, queue := 1, slot := 0, words := ws } } }
def cmd (ws : List W64) : Command := { tenant := 0, queue := 1, slot := 0, words := ws }
/-- A command waits in queue 1. -/
def scanned : State := behind [rule true 0, rule false 1] { one with fw := { one.fw with queues := [{ queue1 0 with ready := true }] } }
theorem witness_HostCommands : (commanded [2, 0x800]).fw.serving = true ∧ (commanded [2, 0x800]).fw.command = cmd [2, 0x800] ∧
    cmdOf (cmd (launchWords 3)) = 0x01 ∧ cmdOf (cmd [2, 0x800]) = 0x02 ∧ reservedSet (cmd [2, 0x800, 0, 3]) [(0, 0xFF#64), (0x08, -1), (0x10, -1), (0x18, -1)] = false ∧
    cmdOf (cmd [3, 0x800, 0, 3, 0x900]) = 0x03 ∧ reservedSet (cmd [3, 0x800, 0, 3, 0x900]) [(0, 0xFF#64), (0x08, -1), (0x10, -1), (0x18, -1), (0x20, -1)] = false ∧
    cmdOf (cmd [4, 0x800, 0, 3]) = 0x04 ∧ reservedSet (cmd [4, 0x800, 0, 3]) [(0, 0xFF#64), (0x08, -1), (0x18, -1)] = false ∧
    cmdOf (cmd [5, 0x100]) = 0x05 ∧ reservedSet (cmd [5, 0x100]) [(0, 0xFF#64), (0x08, -1)] = false ∧
    ((open_ ((commanded [5, 0x100]).commit (placedPage + 0x100) 0 9)).isCounter 0 0x100 8).2 = true ∧ ((open_ (commanded [5, 0x108])).isCounter 0 0x108 8).2 = false ∧
    (0x104#64).toNat % 8 ≠ 0 ∧ (0x100#64).toNat % 8 = 0 ∧ (commanded [5, 0x100]).served 0 0x100 = .here ∧
    scanned.fw.serving = false ∧ scanned.nextQueue = some { queue1 0 with ready := true } ∧ (scanned.slotWords (queue1 0)).2.isSome = true ∧ ((behind [] scanned).slotWords (queue1 0)).2 = none ∧
    reservedSet (cmd [0x103, 0x800]) [(0, 0xFF#64), (0x08, -1), (0x10, -1), (0x18, -1), (0x20, -1)] = true ∧ cmdOf (cmd [0x103, 0x800]) = 3 ∧
    reservedSet (cmd [4, 0x800, 1, 3]) [(0, 0xFF#64), (0x08, -1), (0x18, -1)] = true ∧ reservedSet (cmd [6, 0x100, 0x1000000]) [(0, 0xFF#64), (0x08, -1), (0x10, 0xFFFFFF#64)] = true ∧
    cmdOf (cmd [6, 0x100, 0xFFFFFF]) = 0x06 ∧ reservedSet (cmd [6, 0x100, 0xFFFFFF]) [(0, 0xFF#64), (0x08, -1), (0x10, 0xFFFFFF#64)] = false ∧
    reservedSet (cmd [0x102, 0x800]) [(0, 0xFF#64), (0x08, -1), (0x10, -1), (0x18, -1)] = true ∧ cmdOf (cmd [0x102]) = 2 ∧ (0x804#64).toNat % 8 ≠ 0 ∧
    reservedSet (cmd [0x105]) [(0, 0xFF#64), (0x08, -1)] = true ∧ decide (commandStep (cmdOf (cmd [7])) = .unknownCommand) = true ∧ one.fw.serving = false ∧ cmdOf (cmd [2]) ≠ 0x01 := by
  decide +kernel

/-- The kernel stands in memory at 0x400; a LAUNCH of units on die 0 is good, one on no die is not. -/
def withKernel : State := one.putBytes (placedPage + 0x400) kernel0
def headed : List Byte × State := (withKernel.updTenant 0 fun x => { x with launches := x.launches + 1 }).readCode 0 0 0x400 6
theorem witness_HostCommands_launch : one.tenant? 0 = some placedTenant ∧
    headed.1 = kernel0 ∧ (launchIn .blocked 0 []).rctr = false ∧
    headed.2.launchReason (cmd (launchWords 3)) (launchIn .blocked 0 []) { addr := 0x400, code := kernel0 } false = none ∧
    headed.2.launchReason (cmd ((launchWords 3).set 0 1)) { launchIn .blocked 0 [] with words := (launchWords 3).set 0 1 } { addr := 0x400, code := kernel0 } false = some 5 ∧
    headed.2.launchReason (cmd (launchWords 16777217)) { launchIn .blocked 0 [] with words := launchWords 16777217 } { addr := 0x400, code := kernel0 } false = some 3 ∧
    ({ launchIn .blocked 0 [] with words := launchWords 16777216 } : Launch).n = 16777216 ∧
    headed.2.launchReason (cmd ((launchWords 3).set 15 1)) (launchIn .blocked 0 []) { addr := 0x400, code := kernel0 } false = some 2 ∧
    headed.2.launchReason (cmd ((launchWords 3).set 2 0x408)) { launchIn .blocked 0 [] with words := (launchWords 3).set 2 0x408 } { addr := 0x408, code := kernel0 } false = some 4 ∧
    ({ launchIn .blocked 0 [] with words := (launchWords 3).set 0 0x100201001 } : Launch).rctr = true ∧
    withKernel.parentCancelled 0 0 = false ∧
    ({ withKernel with fw := { withKernel.fw with objs := [{ level := .graph, tenant := 0, ctr := 0x900, parent := 0, members := 1, done := 0, begun := true, partialDone := false, cancelled := true
                                                             advanced := false, reaped := false }] } } : State).parentCancelled 0 0x900 = true := by decide +kernel

/-- An owner table of epoch 7 that names no tenant: the five records of Table 16.7 that every table has, signed with P-256 and SHA-256 by a program of its own. -/
def image : List Byte :=
  bytesOfNat 0x8bd09accc06158004e901f181856f041063101e39533ac6fa4713687dcaab64f1637af4ea80e4dc391f9aa567b872c9dd6815ed49cdd4011fda8b6ac2a8bd4ef992246d494c2a377519f7e2d0cb2f1f264bc2856e9e91aa499bcb80810fe0379b69ff2602e6269e66cfa613b92b849c0686d35c674eb61c9319d5a25bad4fe6000000000000000074f434647000003f0 160 ++ bytesOfNat 0xfffffffffffffffe400000000000000010100000000000038 0x38 ++
    bytesOfNat (0x0200000000000208) 0x208 ++ bytesOfNat 0x12c0007a12000000004001001000002000050300000000000020 0x20 ++ bytesOfNat 0x0400000000000068 0x68 ++ bytesOfNat 0x80000000000000010500000000000088 0x88
/-- The digest of its signer, by the same program, stands in the owner slot. -/
def owned : Boot := { State.reset.boot with owner := some (bytesOfNat 0x59e6ec7e68de7735b98c29e3c45700077cce4c55b6145a3acb40a844273ec2d6 32) }

/-- A command with its counter at 0x800. -/
def cmd70 (ws : List W64) : Command := cmd ((ws ++ List.replicate 14 0).take 14 ++ [0x800])
def clean70 (c : Command) (used : List (Nat × W64)) : Bool := !reservedSet c ((0, 0xFF#64) :: (0x70, -1) :: used)
def run (c : Command) : State := commanded c.words
/-- Two pages of virtual memory were mapped from virtual address 0x200000 on. -/
def mapped : State := ((open_ (run (cmd70 [0x10]))).mapRange placedTenant 0x200000 2 false false 1).1
theorem witness_TenantCommands_map : clean70 (cmd70 [0x10, 0x200000, 2, 1]) [(0x08, -1), (0x10, 0x3FFFFFFFF#64), (0x18, 0xFFFFFF#64)] = true ∧
    (run (cmd70 [0x10])).tenant? 0 = some placedTenant ∧ ((open_ (run (cmd70 [0x10]))).mapRange placedTenant 0x200000 2 false false 1).2 = none ∧
    ((open_ (run (cmd70 [0x10]))).mapRange placedTenant 0 1 false false 1).2.isSome = true ∧ 0x200001 % 65536 ≠ 0 ∧ 2 ^ 52 < (2 ^ 52 - 65536) + 2 * 65536 ∧
    (2 ^ 52 - 65536) + 1 * 65536 ≤ 2 ^ 52 ∧ clean70 (cmd70 [0x11, 0x200000, 2]) [(0x08, -1), (0x10, 0x3FFFFFFFF#64)] = true ∧
    ((mapped.unmapPages placedTenant false 0x200000 2).2.map List.length) = some 2 ∧ (mapped.unmapPages placedTenant false 0x200000 3).2 = none ∧
    (mapped.unmapPages placedTenant false 0x200000 0).2 = some [] := by decide +kernel
/-- The tenant's remap table gives its logical number 0 this module, which has the physical number 0. -/
def remapped : State := one.updTenant 0 fun t => { t with remap := [(0, 0x8000000000000000)] }
def settling (x : Settling) : State := { one with fw := { one.fw with settling := [x] } }
theorem witness_TenantCommands : clean70 (cmd70 [0x12, 0x0F, 1, 0, 0]) [(0x08, 0xF#64), (0x10, 0xF00FFFFFFFFF0001#64), (0x18, 0xFFFFFFFFF0000#64), (0x20, 0xFFFFFFFFFFFF8#64)] = true ∧
    clean70 (cmd70 [0x13, 0x1000, 1]) [(0x08, -1), (0x10, 0x3F#64)] = true ∧ (run (cmd70 [0x13])).fw.queues = [] ∧ 0x1001 % 64 ≠ 0 ∧
    clean70 (cmd70 [0x14, 0, 1]) [(0x10, 0x3F#64)] = true ∧ reservedSet (cmd70 [0x14, 1, 1]) [(0, 0xFF#64), (0x70, -1), (0x10, 0x3F#64)] = true ∧
    (({ one with fw := { one.fw with queues := [queue1 0] } } : State).fw.queues.any fun q => decide (q.tenant = 0) && decide (q.num = 1)) = true ∧
    clean70 (cmd70 [0x15, 0, 0x8000000000000000]) [(0x08, 0x3FF#64), (0x10, 0x80000000000003FF#64)] = true ∧ one.fw.params.physid = 0 ∧ one.fab.waiting = [] ∧
    ((spSet 0 ([] : List (Nat × W64)) 0 0x8000000000000000).filterMap fun e => remapPhys e.2) = [0] ∧ ((spSet 0 ([] : List (Nat × W64)) 0 0x8000000000000001).filterMap fun e => remapPhys e.2) = [1] ∧
    (one.eng.ops.filter fun o => decide (o.tenant = 0)) = [] ∧
    clean70 (cmd70 [0x16, 0x100, 0x140]) [(0x08, -1), (0x10, -1)] = true ∧ 0x120 % 64 ≠ 0 ∧ clean70 (cmd70 [0x17, 0x100, 8]) [(0x08, -1), (0x10, -1)] = true ∧
    one.fw.params.owners.contains (0, 1) = false ∧
    ({ one with fw := { one.fw with params := { one.fw.params with owners := [(0, 1)] } } } : State).fw.params.owners.contains (0, 1) = true ∧
    one.boot.verify [] = none ∧ (0x804#64).toNat % 8 ≠ 0 ∧
    (settling { tenant := 0, ctr := 0x800, pages := [9], reqs := [], ops := [] }).fw.settling = [{ tenant := 0, ctr := 0x800, pages := [9], reqs := [], ops := [] }] ∧
    (settling { tenant := 0, ctr := 0x800, pages := [9], reqs := [], ops := [] }).fw.serving = false ∧
    ((settling { tenant := 0, ctr := 0x800, pages := [9], reqs := [], ops := [] }).sched.agenda.any fun p => match dpOf p.ev with | some dp => [9].contains (pageOf dp) | none => false) = false := by
  decide +kernel

/-- A context of core 0 that runs the unit 2 of launch 1; a state with a target of a cancel. -/
def running : State := (withLaunch (launchIn .released 0 [share3])).setCtx 1 { one.ctx 1 with lid := some 1, unit := 2 }
def graphObj : Obj := { level := .graph, tenant := 0, ctr := 0x900, parent := 0, members := 1, done := 0, begun := true, partialDone := false, cancelled := false, advanced := false, reaped := false }
def target (ctr : W64) (unit : Option Nat) : CancelTarget := { tenant := 0, ctr, unit }
def coupled (s : State) : State := (s.updCore 0 fun k => { k with paired := true }).updCore 1 fun k => { k with paired := true }
theorem witness_Stops : (running.fw.launches.find? fun l => decide (l.tenant = 0) && decide (l.lctr = 0x800) && decide (l.state ≠ .advanced)) = some (launchIn .released 0 [share3]) ∧
    (one.fw.launches.find? fun l => decide (l.tenant = 0) && decide (l.lctr = 0x900) && decide (l.state ≠ .advanced)) = none ∧
    ({ one with fw := { one.fw with objs := [graphObj] } } : State).obj? 0 0x900 = some graphObj ∧ one.obj? 0 0x900 = none ∧
    (running.core 0).paired = false ∧ (running.ctx 1).mode ≠ .parked ∧ (({ running with sched := running.sched } : State).setCtx 1 { running.ctx 1 with mode := .parked, park := .nothing }).canonical = true ∧
    (running.setCtx 1 { running.ctx 1 with stop := .cancel }).canonical = true ∧ running.launch? 1 = some (launchIn .released 0 [share3]) ∧
    (launchIn .released 0 [share3]).cancelled = false ∧ (launchIn .released 0 [share3]).state ≠ .advanced ∧ running.canonical = true ∧ running.tenant? 0 = some placedTenant ∧
    placedTenant.cores.all (fun c => !(running.core c).halted) = true ∧ (fullCores.core 1).halted = true ∧ placedTenant.cores.contains 1 = true ∧
    ((coupled running).core 0).paired = true ∧ isCtx0 1 = false ∧ idX (coreOf 1) % 2 = 0 ∧ ((coupled running).ctx 1).mode ≠ .idle ∧
    (((coupled running).ctx 1).lid.bind (coupled running).launch?) = some (launchIn .released 0 [share3]) ∧ ((coupled running).ctx 1).work = .unit ∧
    (launchIn .released 0 [share3]).replaced.contains 2 = false ∧ ({ launchIn .released 0 [share3] with replaced := [2] } : Launch).replaced.contains 2 = true ∧
    (((coupled one).ctx 1).lid.bind (coupled one).launch?) = none ∧ ((coupled one).ctx 1).mode ≠ .idle := by decide +kernel

/-- A record that waits in core 0's pending list; a firewall rule; a record of class 2 in die 0's queue. -/
def rec2 : TrapRec :=
  { tenant := 0, ctx := 1, cls := 2, async := true, late := false, swcode := 0, cause := 0x21, core := 0, pc := 0, addr := 0, orig := 0, iter := 0, unit := 0, launch := 0, cyc := 0
    sstat := 0, gen := 0, words := [], seq := 0 }
def pendingTrap : PendingTrap := { trap := rec2, die := 0, written := false }
def ruled : State := { one with fw := { one.fw with params := { one.fw.params with powercap := 500, rules := [{ dirOut := false, cls := 0, lo := 0x1000, hi := 0x1FFF }] } } }
/-- The table in boot storage is empty. -/
def untabled : State := { one with boot := { one.boot with accepted := some [] } }
theorem witness_MachineRecords : one.canonical = true ∧ (one.die 0).w = (one.die 0).r ∧ ((one.writeRecord 0 rec2).die 0).w ≠ ((one.writeRecord 0 rec2).die 0).r ∧ (one.writeRecord 0 rec2).canonical = true ∧
    (one.cpu.cores.all fun k => decide (k.2.pending = [])) = true ∧ (one.updCore 0 fun k => { k with pending := [pendingTrap] }).canonical = true ∧
    (one.updCore 0 fun k => { k with pending := [pendingTrap] }).cpu.cores.filter (fun x => decide (x.2.pending ≠ [])) = [(0, { Core.init with pending := [pendingTrap] })] ∧
    pendingTrap.written = false ∧ pendingTrap.trap.async = true ∧ ((0x8000000000000000#64).getLsbD 63 = true ∧ (1#64).getLsbD 63 = false) ∧ ruled.canonical = true ∧
    (ruled.fw.params.rules.all fun r => decide (r.dirOut = !true ∧ r.cls = 0 ∧ r.lo ≤ 0x1000 ∧ 0x1000 ≤ r.hi)) = true ∧
    (ruled.fw.params.rules.any fun r => decide (r.dirOut = !true ∧ r.cls = 0 ∧ r.lo ≤ 0x2000 ∧ 0x2000 ≤ r.hi)) = false ∧ (one.die 0).removedHeat = false ∧
    ruled.fw.params.powercap = 500 ∧ untabled.canonical = true ∧ ((untabled.resetModule.boot.staged.toList ++ untabled.resetModule.boot.accepted.toList).filterMap untabled.resetModule.boot.verify) = [] ∧
    rec2.words = [] ∧ (one.updDie 0 fun d => { d with removedHeat := true }).canonical = true ∧ ((one.updDie 0 fun d => { d with removedHeat := true }).die 0).removedHeat = true := by decide +kernel
/-- The table's own check is `test_configuration_table`: a module that holds the image as its accepted table keeps it over a reset. -/
def accepted : State := { one with boot := { owned with accepted := some image } }
theorem witness_MachineRecords_table : accepted.canonical = true ∧ accepted.resetModule.boot.accepted = some image ∧ accepted.resetModule.boot.staged = none ∧
    accepted.resetModule.boot.owner = owned.owner ∧ accepted.resetModule.boot.fusedEpoch = 0 := by decide +kernel

/-- A plan record of one entry, this core's own: header, then the entry with its set word. -/
def planHead (nent : W64) : W64 := 0x5003000000000000 ||| nent
def planEntry0 : List W64 := [0x100000000, 0x0000FFFFFFFFFFFF, 0, 0, 0, 0, 0, 0]
def planned (h : W64) : State :=
  let s := withOp (opOf (.collOpen 3 0x2000 2) (.counter 1))
  ((([h, 0, 0, 0] ++ planEntry0).zipIdx.foldl (fun s w => s.putBytes (placedPage + 0x2000 + 8 * w.2) (bytesOfNat w.1.toNat 8)) s).updTenant 0 fun t => { t with remap := [(0, 0x8000000000000000)] })
def noSuch : State := withOp (opOf (.collOpen 3 0x2000 2) (.refused 0x0C))
def stream0 : Stream := streaming.eng.streams.headD { core := 0, vsn := 0, tenant := 0, entries := [], me := 0, sets := 0, gbar := 0, combine := 0, up := 0, down := 0, localUp := false, localDown := false, leaving := [], ready := [], deaths := [], dropped := [], inputs := [], credits := [], localFree := 0, served := [], sent := [], own := [], blockRows := [], blocksSent := [], blocksIn := [], blocksSeen := 0, rowsUp := 0, upClosed := false, broken := false, opened := opOf (.collOpen 3 0 2) (.counter 1) }
/-- Two entries: this core's, and its parent, which is the root. -/
def stream1 : Stream :=
  { stream0 with entries := [{ phys := 0, isLocal := true, core := 0, sets := [0x0010FFFFFFFFFFFF] }, { phys := 0, isLocal := false, core := 2, sets := [0x0010FFFFFFFFF000] }]
                 credits := [{ entry := 1, port := 0, set := 0, lossy := false }] }
def dying : Stream := { stream1 with deaths := [4], dropped := [5] }
def withStream (st : Stream) : State := { copying with eng := { copying.eng with streams := [st] } }
theorem witness_Routers : one.stream? 0 3 = none ∧ (withStream dying).stream? 0 3 = some dying ∧ dying.broken = false ∧ (0 : Nat) ≠ 0xFFF ∧ (5 : Nat) ≠ 6 ∧ 4 ∈ dying.deaths ∧
    5 ∈ dying.dropped ∧ 6 ∉ dying.deaths ∧ 6 ∉ dying.dropped ∧ dying.parent dying.up dying.me = some 1 ∧ dying.isRoot dying.up 6 = false ∧ dying.isRoot dying.up 1 = true ∧
    dying.parent dying.down dying.me ≠ some 6 ∧ 1 ∉ dying.ready ∧ ([.row [1]] : List StreamItem).all isRowItem = true ∧ 5 ∉ [0] ∧ (match stream1.upTo with | .parent e p => decide (e = 1 ∧ p = 0) | _ => false) = true ∧
    (List.replicate 32 (1 : Byte)).length = 32 ∧ (planned (planHead 1)).op? 1 = some (opOf (.collOpen 3 0x2000 2) (.counter 1)) ∧
    (planned (planHead 1)).served 0 0x2000 = .here ∧ (match (planned (planHead 1)).engineReadAll 0 0 0x2000 4 with | (_, .ok v) => decide (v = [planHead 1, 0, 0, 0]) | _ => false) = true ∧
    (planHead 1).extractLsb' 56 8 = 0x50#8 ∧ ((planHead 1).extractLsb' 48 8).toNat = 3 ∧ ((1#64).extractLsb' 56 8 ≠ 0x50#8) ∧
    (match (planned (planHead 1)).engineReadAll 0 0 0x2020 8 with | (_, .ok v) => decide (v = planEntry0) | _ => false) = true ∧
    ((planned (planHead 1)).planStream (opOf (.collOpen 3 0x2000 2) (.counter 1)) 0 3 2 ([planHead 1, 0, 0, 0] ++ planEntry0)).isSome = true ∧
    ((planned (planHead 0)).planStream (opOf (.collOpen 3 0x2000 2) (.counter 1)) 0 3 2 [planHead 0, 0, 0, 0]).isSome = false ∧
    noSuch.op? 1 = some (opOf (.collOpen 3 0x2000 2) (.refused 0x0C)) := by decide +kernel

/-- The page is moving, block 0 done; then it lies near. -/
def movingPage : State := (one.setDpit page0 (mkDpit true true false false true 5000 5)).setMoved page0 [0]
def nearPage : State := one.setDpit page0 (mkDpit true false false false false 0 5000)
def failingPage : State := { nearPage with mem := { nearPage.mem with failing := [(page0, false, 5000)] } }
def head1 : LossyHead :=
  { tenant := 0, dst := 0x200, mask := 0x900, blocks := 2, toBarrier := false, copier := 1
    notice := { tenant := 0, va := 0x800, dp := placedPage + 0x800, num := 1, scope := 4, core := 0, pc := 0, orig := 0, iter := 0, unit := 0, launch := 0, relaxed := false, remote := false } }
def lossy1 (named : List (Nat × Nat)) : Lossy := { xfer := 1, head := head1, delivered := [], lost := [], named, poison := none }
def losing (at_ : Nat) : State := { one with eng := { one.eng with lossy := [lossy1 [(1, at_)]] }, sched := { one.sched with now := 100 }, fw := { one.fw with params := { one.fw.params with losswin := 50 } } }
theorem witness_TiersAndLoss : dpitFar (nearPage.dpit page0) = false ∧ farPage.canonical = true ∧ dpitValid (farPage.dpit page0) = true ∧ dpitFar (farPage.dpit page0) = true ∧
    dpitPin (farPage.dpit page0) = false ∧ dpitMove (farPage.dpit page0) = false ∧ (farPage.freeNear (dieOfPage page0)).isSome = true ∧ Config.nearFrames ≤ 2 ^ 26 ∧
    dpitMove (movingPage.dpit page0) = true ∧ 0 ∈ movingPage.movedBlocks page0 ∧ 1 ∉ movingPage.movedBlocks page0 ∧ 255 ∉ movingPage.movedBlocks page0 ∧
    movingPage.canonical = true ∧ one.canonical = true := by decide +kernel
/-- A frame that no page holds, and one of a page in motion; a die whose structures are lost, where no tenant has a cluster; state on its way to core 1. -/
def failingFrame (s : State) (frame : Nat) : State := { s with mem := { s.mem with failing := [(page0, false, frame)] } }
def lost5 : State := { one with mem := { one.mem with lostDies := [5] } }
theorem witness_TiersAndLoss_frames : one.mem.failing = [] ∧ one.mem.lostDies = [] ∧ failingPage.mem.failing = [(page0, false, 5000)] ∧ failingPage.mem.upsets = [] ∧ failingPage.canonical = true ∧
    dpitValid (failingPage.dpit page0) = true ∧ dpitMove (failingPage.dpit page0) = false ∧ dpitFar (failingPage.dpit page0) = false ∧ dpitClean (failingPage.dpit page0) = false ∧
    dpitFrame (failingPage.dpit page0) = 5000 ∧ failingPage.holderOf (dieOfPage page0) false 5000 = some page0 ∧
    (({ failingPage with mem := { failingPage.mem with nearRetired := [dieOfPage page0 * 2 ^ 20 + 5000] } } : State).freeNear (dieOfPage page0)).isSome = true ∧
    (failingFrame nearPage 6000).holderOf (dieOfPage page0) false 6000 = none ∧
    ((failingFrame movingPage 5000).holderOf (dieOfPage page0) false 5000 = some page0 ∧ dpitMove ((failingFrame movingPage 5000).dpit page0) = true) ∧
    (lost5.mem.lostDies = [5] ∧ (lost5.fw.tenants.all fun t => t.clusters.all fun c => decide (c / 544 ≠ 5)) = true) ∧ one.landingAt 1 = none := by decide +kernel
theorem witness_TiersAndLoss_blocks : (1 ∉ (lossy1 []).delivered ∧ 1 ∉ (lossy1 []).lost ∧ 1 < head1.blocks ∧ (List.replicate 32 (some (0 : W64))).length = 32) ∧ ¬2 < head1.blocks ∧
    0 < head1.blocks ∧ (losing 50).eng.lossy = [lossy1 [(1, 50)]] ∧ (losing 50).eng.streams = [] ∧ 50 + (losing 50).fw.params.losswin ≤ (losing 50).sched.now ∧
    (losing 51).sched.now < 51 + (losing 51).fw.params.losswin ∧ ¬(head1.copier = one.fw.params.physid) ∧
    (head1.copier = ({ one with fw := { one.fw with params := { one.fw.params with physid := 1 } } } : State).fw.params.physid ∧ one.op? 1 = none) := by decide +kernel
/-- A block of zeros, and one whose word 3 is poisoned, is written at 0x300. -/
theorem witness_TiersAndLoss_written : ((losing 50).engineWriteAll (stationDie ((losing 50).stationFor 0x300)) 0 0x300 (List.replicate 32 (some 0))).2 = none ∧
    ((losing 50).engineWriteAll (stationDie ((losing 50).stationFor 0x300)) 0 0x300 (List.replicate 32 (some 0))).1.eng.streams = [] ∧
    (one.engineWriteAll (stationDie (one.stationFor 0x300)) 0 0x300 (List.replicate 3 (some 0) ++ none :: List.replicate 28 (some 0))).2 = none ∧
    (one.engineWriteAll (stationDie (one.stationFor 0x10000)) 0 0x10000 (List.replicate 32 (some 0))).2.isSome = true := by decide +kernel

/-- Context 1 of core 0 moves to core 1; core 0's entry, before and after the state is installed. -/
def entryOf (installed : Bool) (gen : Nat) : Forward := { dst := 1, installed, moved := [(gen, 1, 17, .ready)], owedOps := [], held := [] }
def sent (installed : Bool) : State := one.updCore 0 fun k => { k with fwd := some (entryOf installed (one.ctx 1).gen) }
theorem witness_Migration : one.mayMove 0 0 = false ∧ one.canonical = true ∧ one.mayMove 0 1 = true ∧ (one.core 0).paired = false ∧ (one.ctx 1).mode ≠ .idle ∧ (one.core 0).fwd = none ∧
    ((sent false).core 0).fwd = some (entryOf false (one.ctx 1).gen) ∧ ((sent true).core 0).fwd = some (entryOf true (one.ctx 1).gen) ∧ coreOf 1 ≠ coreOf 17 ∧
    (one.ctx 1).base ≤ (one.ctx 1).limit ∧ (one.ctx 1).limit ≤ 1024 ∧ lowestBase (one.blocks (coreOf 17)) (one.ctx 1).count = some 32 ∧ ((sent false).core 0).paired = false ∧
    (entryOf false 0).held = [] ∧ (one.cpu.cores.all fun k => decide (k.2.fwd = none)) = true ∧ (sent true).canonical = true ∧
    (sent true).cpu.cores.filter (fun x => x.2.fwd.isSome) = [(0, (sent true).core 0)] ∧ (sent true).owes 0 (entryOf true (one.ctx 1).gen) = false ∧
    (sent true).owes 0 { entryOf true (one.ctx 1).gen with held := [.late (ask (.load 3 false))] } = true := by decide +kernel

/-- A request for module 1's memory, whose physical number is 1, by logical number 1; then the same when module 1 is marked dead. -/
def peered : State := one.updTenant 0 fun t => { t with remap := [(0, 0x8000000000000000), (1, 0x8000000000000001)] }
def away (kind : ReqKind) : Request := { ask kind with va := 0x8020000000000100 }
def dead1 : State := { peered with fw := { peered.fw with dpmap := peered.fw.dpmap.set 0 2 } }
def waitingPeer (now : Nat) (kind : ReqKind) : State :=
  { peered with fab := { peered.fab with waiting := [(0, 1, away kind)] }, sched := { peered.sched with now }, fw := { peered.fw with params := { peered.fw.params with peertmo := 100 } } }
def windowed : State := one.updTenant 0 fun t => { t with windows := [{ base := 0, key := 7, pages := 1 }], evExp := 4, evBase := 0x8000, held := [{ kind := 1, ctr := 0x800, statusw := 1, detail := [], after := 0 }] }
def rdma (va : W64) (n : Nat) : RdmaMsg := { port := 0, qpn := 3, key := 7, va, bytes := List.replicate n 5, count := n }
theorem witness_OtherModulesAndHosts : peered.served 0 0x100 = .here ∧ dead1.served 0 0x8020000000000100 = .dead ∧ peered.served 0 0x8020000000000100 = .peer 1 ∧
    (away (.load 3 false)).src = .ctx 1 0 ∧ (away (.load 3 false)).kind.parks = false ∧ ({ away (.load 3 false) with src := .remote ⟨5, .other, 0, 4⟩ } : Request).src = .remote ⟨5, .other, 0, 4⟩ ∧
    (waitingPeer 99 (.load 3 false)).overduePeers = [] ∧ (waitingPeer 100 (.load 3 false)).overduePeers = [1] ∧ one.fw.dpmap.length = 16 ∧
    ((waitingPeer 99 (.load 3 false)).fab.waiting = [(0, 1, away (.load 3 false))]) ∧ one.probed = [] ∧ (waitingPeer 5 .ldFe).probed = [1] ∧ one.peerDead 1 = false ∧ dead1.peerDead 1 = true ∧
    dead1.fw.dpmap.length = 16 ∧ windowed.fab.portDown.contains (rdma 0 1).port = false ∧ windowed.window? 7 = some (0, { base := 0, key := 7, pages := 1 }) ∧
    ((0 : W64).toNat ≤ (rdma 65529 7).va.toNat ∧ (rdma 65529 7).va.toNat + (rdma 65529 7).bytes.length ≤ 0 + 65536 * 1) ∧ (rdma 65529 7).va.toNat + (rdma 65529 7).count ≤ 0 + 65536 * 1 ∧
    0 + 65536 * 1 < (rdma 65529 8).va.toNat + (rdma 65529 8).bytes.length ∧ ((rdma 0 1).port < 4 ∧ (rdma 0 1).qpn < 4096) ∧ 4 ≤ ({ rdma 0 1 with port := 4 } : RdmaMsg).port ∧
    4096 ≤ ({ rdma 0 1 with qpn := 4096 } : RdmaMsg).qpn ∧ ({ one with fab := { one.fab with portDown := [0] } } : State).fab.portDown.contains (rdma 0 1).port = true ∧
    one.fab.stationDown.contains 0 = false ∧ ({ one with fab := { one.fab with stationDown := [0] } } : State).fab.stationDown.contains 0 = true ∧ (0x2008#64).toNat % 8 = 0 ∧ one.window? 7 = none ∧ (one.xlat 0 0 0x100 true).2 = .ok (placedPage + 0x100) ∧
    ((one.xlat 0 0 0x100 true).1.open (wordAt (placedPage + 0x100))).memType (wordAt (placedPage + 0x100)) = 0 ∧ (one.fw.tenants.all fun t => decide (t.held = [])) = true ∧
    (windowed.fw.tenants.all fun t => decide (t.held.length = 1) && decide (((open_ windowed).ringRoom t).2 ≠ 0) && !((open_ windowed).ringRoom t).1.fab.portDown.contains t.evPort &&
      decide (((open_ windowed).ringRoom t).1.fw.tenants = [t]) && t.held.all fun r => ((open_ windowed).ringRoom t).1.recordReady t.num r) = true ∧
    (windowed.fw.tenants.all fun t => decide (((behind [] windowed).ringRoom t).2 = 0)) = true ∧ windowed.fw.tenants.length = 1 := by decide +kernel

/-- Bank 9 of die 0 has corrected 5 upsets. -/
def worn : State := { one with mem := { one.mem with stkCounts := [(9, 5)] }, fw := { one.fw with params := { one.fw.params with retthr := 4 } } }
theorem witness_DeviceRegisters : (9 < 4096 ∧ spGet 0 worn.mem.stkCounts (4096 * 0 + 9) = 5 ∧ spGet 0 worn.fw.lastRetire (4096 * 0 + 9) = 0) ∧
    worn.fw.params.retthr < spGet 0 worn.mem.stkCounts 9 - spGet 0 worn.fw.lastRetire 9 ∧ spGet 0 worn.mem.stkCounts 4095 - spGet 0 worn.fw.lastRetire 4095 ≤ worn.fw.params.retthr := by decide +kernel

theorem witness_ProgramKeepsMemory : encode (.addi ⟨false, 3, 4, 0xFF, none⟩) ≠ none ∧
    (match exec (.addi ⟨false, 3, 4, 0xFF, none⟩) one with | .next t => decide (t.regAt 1 3 = 0xFFFFFFFFFFFFFFFF) | _ => false) = true := by decide +kernel
theorem witness_EncodeDecode : (Instr.addi ⟨false, 3, 4, 0xFF, none⟩).wellFormed = true ∧ reads [0x060184FF] (.addi ⟨false, 3, 4, 0xFF, none⟩) = true := by decide +kernel
/-- The word of `ADDI s3, s4, #-1`, placed where the machine fetches next, runs as the first step. -/
def first : State := State.reset.withFetchWord 32 0x060184FF
theorem witness_StepKeepsInv : first.canonical = true ∧ (match step first with | .next t => decide (t.regAt 1 3 = 0xFFFFFFFFFFFFFFFF) && decide ((t.ctx 1).pc = 4) | _ => false) = true := by decide +kernel

/-- The context in the slot of core 0 is the only one of the cycle. -/
def turn (f : Ctx → Ctx) : State := { one.updCtx 1 f with sched := { one.sched with slots := [1], choices := [] } }
def key0 : SpecKey := { code := 0, version := 0, tenant := 0, config := 0, mask := 0, seeds := [] }
def addiCode : List Byte := [0xFF, 0x84, 0x01, 0x06]
def entry0 : SpecEntry := { index := 0, key := key0, reads := [], generic := false, code := addiCode, map := [{ off := 0, len := 4, cont := false, orig := 0, iters := [] }] }
def resolved : State := (turn fun c => { c with pc := 0x8000000000000000 }).updDie 0 fun d => { d with spec := [entry0] }
theorem witness_StepRunsDecoded : (turn id).sched.choices = [] ∧ (turn id).sched.slots = [1] ∧ ((turn id).ctx 1).stop = .none ∧ ((turn id).ctx 1).mode = .ready ∧ ((turn id).core (coreOf 1)).halted = false ∧
    ((turn id).ctx 1).again = [] ∧ isResidual ((turn id).ctx 1).pc = false ∧ (match (turn id).fetchGeneric 1 0 with | .ok ws => decide (ws = [0]) | _ => false) = true ∧
    (match decode [0x11C00000] with | .error e => decide (e = .opcode) | _ => false) = true ∧ (match (turn id).fetchGeneric 1 0x200000 with | .error e => decide (e = (0x08, 0x200000)) | _ => false) = true ∧
    ((turn fun c => { c with mode := .parked }).ctx 1).mode ≠ .ready ∧ ((turn fun c => { c with stop := .cancel }).ctx 1).stop ≠ .none ∧
    ((turn fun c => { c with again := [0x060184FF] }).ctx 1).again = [0x060184FF] ∧ reads [0x060184FF] (.addi ⟨false, 3, 4, 0xFF, none⟩) = true ∧ isResidual (resolved.ctx 1).pc = true ∧
    (match resolved.fetchResidual 1 0x8000000000000000 with | .ok (.words ws) => decide (ws = [0x060184FF]) | _ => false) = true ∧
    ({ turn id with sched := { (turn id).sched with slots := [], agenda := [{ due := 0, ev := .eventRecordWrite }] } } : State).firstEligible [] 0 [{ due := 0, ev := .eventRecordWrite }] = some 0 ∧
    ({ turn id with sched := { (turn id).sched with slots := [], agenda := [] } } : State).firstEligible [] 0 [] = none := by decide +kernel
theorem witness_ResetState : (1 ≤ 1 ∧ 1 ≤ 15) ∧ (1 ≤ 15 ∧ 15 ≤ 15) ∧ State.reset.canonical = true := by decide +kernel

/-- A parked LK.ACQ that a cancel marks, a row of stream 3 on its way to its parent, remap tables that keep to R332 and that do not, a stop in transit, a handler
entered from a parked context 0, a core of a coupled pair that can be used. -/
theorem witness_changed_clauses : ({ entryAt false false with req := ask .lkAcq } : Parked).req.src.gen? = some 0 ∧ (ask .lkAcq).kind = .lkAcq ∧
    takeFirst (fun x : Nat × Bool => decide (x.1 = 1)) ({ stream1 with sent := [(1, true)] } : Stream).sent = some ((1, true), []) ∧
    one.tenant? 1 = none ∧ one.tenant? 0 = some placedTenant ∧
    ((spSet 0 placedTenant.remap 1023 0x8000000000000000).filterMap fun e => remapPhys e.2).contains one.fw.params.physid = true ∧
    ((spSet 0 placedTenant.remap 0 0x8000000000000001).filterMap fun e => remapPhys e.2).contains one.fw.params.physid = false ∧
    ((turn fun c => { c with stop := .cancel, mode := .inTransit }).ctx 1).mode = .inTransit ∧ (inHandler.core 0).savedPark = .firmware ∧
    (coupled running).coreUsable 0 = true := by decide +kernel

/-- Two accesses that R134 admits and two that it does not; a request to a dead module and a misaligned one; context 1 of a coupled pair, whose partner's
message is not there. -/
theorem witness_issue_clauses : State.reset.inScope 0 false 4 (.context 1) (.sluice 31) = true ∧ State.reset.inScope 0 false 4 (.context 1) (.sluice 32) = false ∧
    State.reset.inScope 0 false 4 (.context 1) (.launchUnit 1) = false ∧ Agent.scanner.isHost = false ∧ (one.core one.here).paired = false ∧
    dead1.served (dead1.tenantOf dead1.here) 0x8020000000000100 = .dead ∧ (!malformed 0x104#64 && decide ((0x104#64).toNat % 8 = 0)) = false ∧
    (!malformed 0x108#64 && decide ((0x108#64).toNat % 8 = 0)) = true ∧ (one.setEmpty (one.regKey 1 4) true).emptyAt one.gid 4 = true ∧
    ((coupled one).core one.here).paired = true ∧ (((coupled one).core (partnerOf one.here)).pairOut.all fun x => decide (x.2.1 ≠ ctxNo one.gid)) = true ∧
    ¬((0x102#64).toNat % 4 = 0 ∧ ((0x102#64).getLsbD 63 = true ∨ malformed 0x102#64 = false)) ∧ malformed 0x0010000000000000#64 = true ∧
    ((0x3F00000000000001#64).getLsbD 63 == false && (0x3F00000000000001#64).getLsbD 62 == false && decide (((0x3F00000000000001#64).extractLsb' 56 6).toNat = 63) &&
      decide (((0x3F00000000000001#64).extractLsb' 21 35).toNat = 0) && decide (((0x3F00000000000001#64).extractLsb' 16 5).toNat < 24) &&
      decide (((0x3F00000000000001#64).extractLsb' 12 4).toNat = 0)) = true ∧ decide (((0x3F00000000180001#64).extractLsb' 16 5).toNat < 24) = false := by decide +kernel
/-- Context 0 of a coupled core: nothing runs on the pair, so it can be uncoupled; a context of it is Stopped; one core is halted. -/
theorem witness_coupled_clauses : isCtx0 sup.gid = true ∧ ((coupled sup).core sup.here).paired = true ∧ ((coupled sup).core (partnerOf sup.here)).paired = true ∧
    (let quiet := (coupled sup).setCtx 1 (Ctx.rest 1); quiet.pairFree 0 && quiet.pairFree 1) = true ∧ ((coupled sup).pairFree 0 && (coupled sup).pairFree 1) = false ∧
    startOk 0x1001 = true ∧ startOk 0x30001 = false ∧ (((coupled sup).setCtx 1 { sup.ctx 1 with mode := .stopped }).ctx 1).mode = .stopped ∧
    ((coupled one).core one.here).paired = true ∧ isCtx0 one.gid = false ∧ (((coupled sup).setCtx 1 (Ctx.rest 1)).ctx 1).mode = .idle ∧
    ((coupled one).core (coreOf 1)).paired = true ∧ idX (coreOf 1) % 2 = 0 := by decide +kernel
/-- A LAYOUT on its way and one that has arrived; a copy that fills no buffer elsewhere; sums at E = 511 that pass with either sign. -/
theorem witness_engine_clauses : (opOf (.layout 0 (.ab 0) 0 0 0) (.counter 1)).arrived = false ∧ ({ opOf (.layout 0 (.ab 0) 0 0 0) (.counter 1) with arrived := true } : EngOp).arrived = true ∧
    one.fillsMove (opOf (.copy .linear (.global 0x200) (.global 0x400) 8 0 false []) (.counter 1)) = false ∧ (one.core (opOf (.mzero 0 0) .barrier).abCore).fwd = none ∧
    2 ^ 46 < (2 ^ 46 : Int).natAbs + (alignTo 511 (.fin false 1 1 511)).1.natAbs ∧ 2 ^ 46 < (-2 ^ 46 : Int).natAbs + (alignTo 511 (.fin true 1 1 511)).1.natAbs ∧
    (-2 ^ 46 + (alignTo 511 (.fin true 1 1 511)).1 : Int) < 0 ∧ ¬((2 ^ 46 + (alignTo 511 (.fin false 1 1 511)).1 : Int) < 0) ∧
    dpitMove ((movingPage.setMoved page0 [0, 1]).dpit page0) = true := by decide +kernel
/-- A member of module 5 dies: its BAR.SYNC is parked, and room is on the list; no such request is parked. -/
def goneSync : State := waited 10 0x0000000300010000 [{ waiter 0 .barSync 0 with req := { ask .barSync with core := 3, src := .remote ⟨5, .other, 0, 4⟩ } }]
theorem witness_SluicesPark_gone : ({ ask .barWdraw with kind := .memberGone 5 3 } : Request).kind = .memberGone 5 3 ∧ (goneSync.open (placedPage + 0x100)).memType (placedPage + 0x100) = 2 ∧
    ((goneSync.open (placedPage + 0x100)).sluice.parked.map fun p => (p.dp, p.req.kind, p.req.core)) = [(placedPage + 0x100, .barSync, 3)] ∧
    (found 10 0x0000000300010000).sluice.parked = [] ∧ (one.parkPlace (homeSlice (placedPage + 0x100)) 0 false).isSome = true ∧ isWord 14 0x208 6 true = true := by decide +kernel
/-- Commands of Table 16.1 that fail one check each: a reserved bit, a counter not aligned to 8. -/
theorem witness_TenantCommands_rejected : reservedSet (cmd70 [0x110, 0x200000, 2, 1]) [(0, 0xFF#64), (0x70, -1), (0x08, -1), (0x10, 0x3FFFFFFFF#64), (0x18, 0xFFFFFF#64)] = true ∧
    cmdOf (cmd70 [0x110]) = 0x10 ∧ reservedSet (cmd70 [0x11, 0x200000, 0x400000000]) [(0, 0xFF#64), (0x70, -1), (0x08, -1), (0x10, 0x3FFFFFFFF#64)] = true ∧
    reservedSet (cmd70 [0x12, 0x10]) [(0, 0xFF#64), (0x70, -1), (0x08, 0xF#64), (0x10, 0xF00FFFFFFFFF0001#64), (0x18, 0xFFFFFFFFF0000#64), (0x20, 0xFFFFFFFFFFFF8#64)] = true ∧
    reservedSet (cmd70 [0x13, 0x1000, 0x40]) [(0, 0xFF#64), (0x70, -1), (0x08, -1), (0x10, 0x3F#64)] = true ∧
    reservedSet (cmd70 [0x15, 0x400]) [(0, 0xFF#64), (0x70, -1), (0x08, 0x3FF#64), (0x10, 0x80000000000003FF#64)] = true ∧
    reservedSet (cmd70 [0x16, 0, 0, 1]) [(0, 0xFF#64), (0x70, -1), (0x08, -1), (0x10, -1)] = true ∧ reservedSet (cmd70 [0x17, 0, 0, 1]) [(0, 0xFF#64), (0x70, -1), (0x08, -1), (0x10, -1)] = true ∧
    (let c := cmd ((([0x14, 0, 1] : List W64) ++ List.replicate 14 0).take 14 ++ [0x804])
     reservedSet c [(0, 0xFF#64), (0x70, -1), (0x10, 0x3F#64)] = false ∧ (c.words.getD 14 0).toNat % 8 ≠ 0) ∧
    (2 ^ 20 : Nat) < (0x100001#64).toNat ∧ (0x100000#64).toNat ≤ 2 ^ 20 := by decide +kernel
/-- A mapping command of the tenant is being served, or none; a record crosses the firewall, or not; a block of rows complete, late and not yet late. -/
theorem witness_machine_clauses : ((run (cmd70 [0x15])).fw.serving = true ∧ (run (cmd70 [0x15])).fw.command.tenant = 0 ∧ cmdOf (run (cmd70 [0x15])).fw.command ∈ [0x10, 0x11, 0x12, 0x13, 0x14, 0x15]) ∧
    one.fw.serving = false ∧ ((spSet 0 placedTenant.remap 1023 0x8000000000000000).filterMap fun e => remapPhys e.2).Nodup ∧
    (open_ (one.writeRecord 0 rec2)).admits true 5 0x6000000 = true ∧ (one.writeRecord 0 rec2).admits true 5 0x6000000 = false ∧
    (let b : RowBlock := { num := 0, rows := [some [1], some [2]], named := some (2, crc32c [1, 2], 50) }
     b.rows.length = 2 ∧ (∀ r ∈ b.rows, r ≠ none) ∧ crc32c (b.rows.flatMap fun r => r.getD []) = crc32c [1, 2]) ∧
    ¬((losing 50).sched.now < 50 + (losing 50).fw.params.losswin) ∧ (losing 51).sched.now < 51 + (losing 51).fw.params.losswin ∧
    ((coupled running).ctx 1).mode ≠ .idle ∧ (((coupled running).setCtx 1 (Ctx.rest 1)).ctx 1).mode = .idle ∧ isCtx0 0 = true ∧
    stream1.feeds 0 1 0 = true ∧ (stream1.credits.filter fun c => decide (c.entry = 1) && decide (c.port = 0)).length < 2 ∧
    (one.updCore 0 fun k => { k with upsets := 3 }).canonical = true ∧ ((one.updCore 0 fun k => { k with upsets := 3 }).core 0).upsets ≠ 0 ∧
    (one.ctx 1).rot = 0 ∧ (one.cyclesOf 0).toNat % 16 = 0 := by decide +kernel
/-- The state on its way to core 1 can be captured, and core 1 is free; an operation still reads the source's AB, and a context runs on core 1. -/
theorem witness_Migration_installed : (sent false).canonical = true ∧ (sent false).cpu.cores.filter (fun x => x.2.fwd.isSome) = [(0, (sent false).core 0)] ∧
    (sent false).capturable 0 = true ∧ (sent false).landingFree 1 = true ∧ (entryOf false 0).dst ≠ 0 ∧ ((sent false).setCtx 17 { one.ctx 1 with mode := .ready }).landingFree 1 = false ∧
    ((entryOf true 0).now 0 = some 17 ∧ (entryOf true 0).now 1 = none) ∧ ((one.core 1).fwd = none ∧ (one.core 1).halted = false) ∧ (sent false).landingAt 1 = some 0 := by decide +kernel
/-- Three requests that come in; a tier prefetch of a page that lies near, of one that lies far and of none; a lossy fetch; RDMA of an unknown key. -/
theorem witness_OtherModulesAndHosts_in : one.fab.stationDown.contains 0 = false ∧ (one.prefPages (stationDie 0) 0 (localAddr 0x8020000000000000) 1).2 = .ok [page0] ∧
    ((one.prefPages (stationDie 0) 0 (localAddr 0x8020000000000000) 1).1.promoteAll [page0]).2 = 0 ∧ (farPage.promoteAll [page0]).2 ≠ 0 ∧
    (one.prefPages (stationDie 0) 0 (localAddr 0x8020000000010000) 1).2 = .error 0x10000 ∧
    (one.engineWords (stationDie 0) 0 (localAddr 0x8020000000010000) 32).2 = .error (0x21, 0x10000) ∧
    (match (one.engineWords (stationDie 0) 0 (localAddr 0x8020000000000200) 32).2 with | .ok ws => decide (ws.length = 32) | _ => false) = true ∧
    one.window? 8 = none ∧ (rdma 0 1).port < 4 ∧ (windowed.fw.tenants.all fun t => decide (t.held ≠ [])) = true ∧ ¬((0x1000#64).toNat ≤ (0xFFF#64).toNat) := by decide +kernel

theorem witness_NopAndZeroWord : reads [0x1FC00000] (.nop ⟨false⟩) = true ∧ one.sched.slot.len = 4 := by decide +kernel

/-! ### One step each: expected values from the spec's worked tables, or computed by hand from its rules -/

/-- A register, the flags or the PC of the context in the slot after an instruction. -/
def after (i : Instr) (s : State) (n : Nat) (v : W64) : Bool := match exec i s with | .next t => decide (t.regAt s.gid n = v) | _ => false
def flagsAfter (i : Instr) (s : State) (v : BitVec 5) : Bool := match exec i s with | .next t => decide ((t.ctx s.gid).flags = v) | _ => false
def pcAfter (i : Instr) (s : State) (v : W64) : Bool := match exec i s with | .next t => decide ((t.ctx s.gid).pc = v) | _ => false
def rrr (d a b : BitVec 7) : RegFmt := ⟨false, d, a, b, none⟩
def two (x y : W64) : State := put (put one 3 x) 4 y

/-- spec/08 R187-R193: division corners, the product's high half, a shift count of 64, the destination that is also a source. -/
theorem test_step_integer : after (.div (rrr 5 3 4)) (two 7 0) 5 0xFFFFFFFFFFFFFFFF = true ∧ after (.rem (rrr 5 3 4)) (two 7 0) 5 7 = true ∧
    after (.div (rrr 5 3 4)) (two 0x8000000000000000 0xFFFFFFFFFFFFFFFF) 5 0x8000000000000000 = true ∧ after (.rem (rrr 5 3 4)) (two 0xFFFFFFFFFFFFFFF9 2) 5 0xFFFFFFFFFFFFFFFF = true ∧
    after (.mulh (rrr 5 3 4)) (two 0xFFFFFFFFFFFFFFFF 2) 5 0xFFFFFFFFFFFFFFFF = true ∧ after (.mulhu (rrr 5 3 4)) (two 0xFFFFFFFFFFFFFFFF 2) 5 1 = true ∧
    after (.shl (rrr 5 3 4)) (two 1 64) 5 1 = true ∧ after (.sar (rrr 5 3 4)) (two 0x8000000000000000 4) 5 0xF800000000000000 = true ∧ after (.sub (rrr 4 3 4)) (two 3 5) 4 0xFFFFFFFFFFFFFFFE = true := by decide +kernel

/-- spec/06 Table 6.3, by FCVT from FP32 (code 2): -2.5 in BF16, 65,504 in FP16, 448 and 0.5 in E4M3, 57,344 in E5M2, -3 in E2M1. -/
def fcvtOf (imm : BitVec 8) (v : W64) (out : W64) : Bool := after (.fcvt ⟨false, 5, 3, imm, none⟩) (put one 3 v) 5 out
theorem test_step_fcvt : fcvtOf 0x23 0xC0200000 0xC020 = true ∧ fcvtOf 0x24 0x477FE000 0x7BFF = true ∧ fcvtOf 0x25 0x43E00000 0x7E = true ∧ fcvtOf 0x25 0x3F000000 0x30 = true ∧
    fcvtOf 0x26 0x47600000 0x7B = true ∧ fcvtOf 0x27 0xC0400000 0xD = true ∧ fcvtOf 0x52 0x30 0x3F000000 = true ∧ fcvtOf 0x32 0xC020 0xC0200000 = true := by decide +kernel
/-- spec/06 R152-R155, spec/08 Table 8.2: 1 / 0 is an infinity with DZ, 0 / 0 the default NaN with NV. -/
theorem test_step_float : after (.fdiv (rrr 5 3 4)) (two 0x3F800000 0) 5 0x7F800000 = true ∧ flagsAfter (.fdiv (rrr 5 3 4)) (two 0x3F800000 0) 2 = true ∧
    after (.fdiv (rrr 5 3 4)) (two 0 0) 5 0x7FC00000 = true ∧ flagsAfter (.fdiv (rrr 5 3 4)) (two 0 0) 1 = true ∧ after (.fadd (rrr 5 3 4)) (two 0x3F800000 0xBF800000) 5 0 = true ∧
    after (.fma (rrr 4 3 3)) (two 0x40000000 0x3F800000) 4 0x40A00000 = true ∧ after (.fsqrt (rrr 5 3 0)) (two 0x40800000 0) 5 0x40000000 = true ∧
    after (.ftoi (rrr 5 3 0)) (two 0x40200000 0) 5 2 = true := by decide +kernel

/-- spec/06 Table 6.9: E = -4, chunk sums 101/32 and 2^42, then a drain to FP32; and the same chunks from E = 0. -/
def worked (e : Int) : Accum :=
  ((({ e, xs := [{ spec := 0, m := 0 }], renorms := 0, bits := 0 } : Accum).chunk [(.fin false 101 1 (-5), false)]).chunk [(.fin false 1 1 42, false)])
theorem test_worked_accumulation : ((({ e := -4, xs := [{ spec := 0, m := 0 }], renorms := 0, bits := 0 } : Accum).chunk [(.fin false 101 1 (-5), false)]).xs = [{ spec := 0, m := 50 }]) ∧
    (worked (-4)).xs = [{ spec := 0, m := 2 ^ 38 }] ∧ (worked (-4)).e = 4 ∧ (worked (-4)).renorms = 1 ∧ (worked (-4)).bits = 0x30 ∧
    drainElem 2 (.fin false (2 ^ 38) 1 4) = (0x54800000, 0) ∧ (worked 0).xs = [{ spec := 0, m := 2 ^ 42 + 3 }] ∧ (worked 0).renorms = 0 ∧
    drainElem 2 (.fin false (2 ^ 42 + 3) 1 0) = (0x54800000, 0x100) := by decide +kernel

/-- spec/08 R199, R200, R203, R216: a backward branch, a call, a LOOP that ends, a software trap without a handler. -/
theorem test_step_control : pcAfter (.br ⟨false, 0, false, 0x3FFFE⟩) (cur one fun c => { c with pc := 0x100 }) 0xF8 = true ∧
    pcAfter (.call ⟨false, 0, false, 2⟩) one 8 = true ∧ pcAfter (.loop ⟨false, 3, 0x7FFF⟩) (two 1 0) 4 = true ∧
    pcAfter (.loop ⟨false, 3, 0x7FFF⟩) (cur (two 2 0) fun c => { c with pc := 0x100 }) 0xFC = true ∧
    (match exec (.trap ⟨false, 0, 3, 0x44, none⟩) one with | .next t => decide ((t.ctx 1).mode = .idle) && decide ((t.die 0).w = 1) | _ => false) = true := by decide +kernel

/-- spec/05 Table 5.4: the agents of its message passing, on dies 0 and 3, lie in each other's scope module, not in scope die (R134, R137);
Table 5.7: a relaxed observation counts with scope system. -/
theorem test_scopes : State.reset.admitsPair 0 (.context 1) (.context (16 * 4352 * 3 + 1)) 5 5 = true ∧
    State.reset.admitsPair 0 (.context 1) (.context (16 * 4352 * 3 + 1)) 5 4 = false ∧ State.reset.admitsPair 0 (.context 1) (.context (16 * 4352 * 3 + 1)) 4 5 = false ∧
    State.reset.admitsPair 0 (.context 1) (.context (16 * 4352 * 3 + 1)) (scopeOf true 0) (scopeOf true 0) = true ∧
    State.reset.inScope 0 false 1 (.context 1) (.operation 1 0 false) = false ∧ State.reset.inScope 0 false 2 (.context 1) (.operation 1 0 false) = true ∧
    State.reset.inScope 0 false 2 (.context 1) (.operation 1 0 true) = false ∧ State.reset.inScope 0 false 3 (.context 1) (.operation 1 0 true) = true ∧
    State.reset.inScope 0 false 5 (.context 1) (.remote 1 (.context 0)) = false ∧ State.reset.inScope 0 true 6 (.context 1) (.remote 1 (.context 0)) = true ∧
    State.reset.inScope 0 false 8 (.context 1) (.host 0) = false ∧ State.reset.inScope 0 false 9 (.context 1) (.host 0) = true := by decide +kernel

/-- spec/04 Table 4.4: the join records, then the slices' overflow areas, fill the polder's 64 MiB. -/
theorem test_polder_layout : polderJoin Config.joinRecords = polderOverflow 0 0 ∧ polderOverflow 0 Config.overflow = polderOverflow 1 0 ∧
    polderOverflow 31 Config.overflow = 64 * 2 ^ 20 := by decide +kernel

end Sys2Proof.Tests
end

section
/-!
SUPPORT. The DPIT register (spec/03 Table 3.7): what a write of the firmware column leaves in an entry. In canonical form the entry reads
back as it was written. A storage that lists a page twice loses one listing only when the entry goes back to its value at reset, so the
read-back clause, stated over all states, fails there.
-/

namespace Sys2Proof.Machine

/-- The two reserved fields of an entry, 58 and 31:26, are ignored; the entry of the page is set and nothing else. -/
theorem exec_registerWrite_dpit (s : State) (die page : Nat) (v : W64) :
    exec (.registerWrite (.dpit die page) v) s = .next (s.setDpit (die * 2 ^ 27 + page) (v &&& 0xFBFFFFFF03FFFFFF#64)) := rfl

theorem State.dpit_setDpit_same {s : State} (h : s.Canon) (page : Nat) (e : W64) : (s.setDpit page e).dpit page = e := by
  simp only [State.dpit, State.setDpit, spGet_spSet_same h.dpit, BitVec.xor_assoc, BitVec.xor_self, BitVec.xor_zero]

/-- The state after reset, but for page 4096, the first that no structure holds: its entry is listed twice. -/
def listsPageTwice : State := { State.reset with mem := { State.reset.mem with dpit := [(4096, 1), (4096, 1)] } }

theorem listsPageTwice_dpit_setDpit : (listsPageTwice.setDpit 4096 0).dpit 4096 = 1 := by decide

/-- The form that reset has and every step keeps is not this state's. -/
theorem listsPageTwice_not_canonical : ¬ listsPageTwice.canonical = true := by
  intro h
  have hback : (listsPageTwice.setDpit 4096 0).dpit 4096 = 0 := State.dpit_setDpit_same (State.canonical_iff.mp h) 4096 0
  rw [listsPageTwice_dpit_setDpit] at hback
  exact absurd hback (by decide)

/-- Refutes O54: its DPIT clause asks for the read-back in every state, canonical or not. In `listsPageTwice` a write of zero to page 4096
takes the first listing away and the page then reads 1, from the second. -/
theorem not_deviceRegisters : ¬ Obligations.DeviceRegisters := by
  unfold Obligations.DeviceRegisters
  intro h
  obtain ⟨-, -, -, -, -, -, -, hdpit, -⟩ := h listsPageTwice
  obtain ⟨u, hu, hread, -, -⟩ := hdpit 0 4096 0
  rw [exec_registerWrite_dpit] at hu
  cases hu
  exact absurd (listsPageTwice_dpit_setDpit.symm.trans hread) (by decide)

end Sys2Proof.Machine
end

section
/-!
SUPPORT. An instruction of a program (spec/07) answers a next state, and that state has the global memory from before (spec/01 R28, spec/09
R220, spec/11 R268). Nearly all of them end in `State.perform`, whose four outcomes are next states (spec/20 R393).
-/

namespace Sys2Proof.Machine

open Sys2Proof

/-- The outcome is a next state, neither a fault nor a refusal. -/
def Answers (r : Result) : Prop := ∃ t, r = .next t

theorem Answers.next {s : State} : Answers (.next s) := ⟨s, rfl⟩

theorem State.perform_answers {s : State} {cs : List Check} {effect : State → State} : Answers (s.perform cs effect) := Answers.next

/-! ### The instructions that choose between forms before their checks -/

theorem execRet_answers (f : NoneFmt) (s : State) : Answers (execRet f s) := by
  unfold execRet
  dsimp only
  split
  · exact State.perform_answers
  · exact State.perform_answers

theorem repeatable_answers {i : Instr} {run : State → Result} (e : repeatable i = some run) (s : State) : Answers (run s) := by
  unfold repeatable at e
  split at e <;> cases e <;> exact Answers.next

/-- A repetition passes on its body's outcome, so it answers where its body does. -/
theorem State.repeatOnce_answers {s : State} {d : BitVec 7} {ws : List W32} {body : Option (State → Result)}
    (hb : ∀ run, body = some run → ∀ u, Answers (run u)) : Answers (s.repeatOnce d ws body) := by
  unfold State.repeatOnce
  dsimp only
  split
  · exact Answers.next
  · generalize s.withSlot _ = u
    cases body with
    | none => exact Answers.next
    | some run =>
      obtain ⟨t, ht⟩ := hb run rfl u
      dsimp only
      rw [ht]
      exact Answers.next

theorem execRep_answers {f : RegFmt} {s : State} : Answers (execRep f s) := by
  unfold execRep
  split
  · exact Answers.next
  · dsimp only
    split
    · refine State.repeatOnce_answers fun run e => ?_
      split at e
      · exact repeatable_answers e
      · cases e
    · exact Answers.next
    · exact Answers.next
    · exact Answers.next

/-! ### Every instruction with an encoding -/

/-- All but RET and REP answer by `State.perform` or, NOP, outright: a next state by definition. -/
theorem exec_answers {i : Instr} {s : State} (h : encode i ≠ none) : Answers (exec i s) := by
  cases i with
  | rep f => exact execRep_answers
  | ret f => exact execRet_answers f s
  | nop f => exact Answers.next
  | add f | sub f | mul f | mulh f | mulhu f | div f | divu f | rem f | remu f | and f | or f | xor f | andn f | shl f | shr f | sar f | rol f
  | min f | max f | minu f | maxu f | clz f | ctz f | popc f | addi f | andi f | ori f | xori f | shli f | shri f | sari f | movi f | mov f | cmpeq f
  | cmpne f | cmplt f | cmpltu f | cmple f | cmpleu f | cmov f | fadd f | fsub f | fmul f | fdiv f | fma f | fsqrt f | fmin f | fmax f | fcmpeq f
  | fcmplt f | fcmple f | fcvt f | ftoi f | itof f | fabs f | fneg f | br f | call f | callr f | jmpr f | loop f | blk f | spawn f | callat f
  | fork f | join f | cancel f | cancelu f | tstb f | ldGlobal f | ldsGlobal f | stGlobal f | ldLocal f | ldsLocal f | stLocal f | ldFe f | stEf f
  | amoAdd f | amoAnd f | amoOr f | amoXor f | amoMin f | amoMax f | amoMinu f | amoMaxu f | amoSwap f | amoCas f | mkobj f | rmobj f | qpushT f
  | qpopT f | ldtag f | ctrAdd f | ctrTake f | ctrWait f | barArrive f | barSync f | barWait f | barJoin f | barWdraw f | lkAcq f | lkTry f | lkRel f
  | qpush f | qpop f | cndWait f | cndSignal f | cndBcast f | sysr f | sysw f | start f | reap f | pair f | trap f | rett f | vadd f | vsub f
  | vmul f | vfma f | vdiv f | vsqrt f | vmin f | vmax f | vabs f | vneg f | vrcp f | vrsq f | vexp2 f | vlog2 f | vadds f | vsubs f | vand f | vor f
  | vxor f | vshl f | vshr f | vsar f | vcmpeq f | vcmplt f | vcmple f | vsel f | vshuf f | vbcast f | vmov f | vcvt f | vqmx f | vqb4 f | vredsum f
  | vredmin f | vredmax f | vredmSum f | vredmMean f | mzero f | mma f | mmaS f | mdrain f | copy f | copyStr f | copyGth f | copySct f | copyTrg f
  | copyStrTrg f | copyGthTrg f | copySctTrg f | prefTier f | layout f | layoutAb f | collOpen f | collPut f | collGet f | collMark f => exact Answers.next
  | _ => exact absurd rfl h

theorem exec_mem {m : Mem} {i : Instr} {s : State} (h : encode i ≠ none) (hs : s.HasMem m) : OutHasMem m (exec i s) := by
  cases i with
  | add f => exact execAdd_mem hs
  | sub f => exact execSub_mem hs
  | mul f => exact execMul_mem hs
  | mulh f => exact execMulh_mem hs
  | mulhu f => exact execMulhu_mem hs
  | div f => exact execDiv_mem hs
  | divu f => exact execDivu_mem hs
  | rem f => exact execRem_mem hs
  | remu f => exact execRemu_mem hs
  | and f => exact execAnd_mem hs
  | or f => exact execOr_mem hs
  | xor f => exact execXor_mem hs
  | andn f => exact execAndn_mem hs
  | shl f => exact execShl_mem hs
  | shr f => exact execShr_mem hs
  | sar f => exact execSar_mem hs
  | rol f => exact execRol_mem hs
  | min f => exact execMin_mem hs
  | max f => exact execMax_mem hs
  | minu f => exact execMinu_mem hs
  | maxu f => exact execMaxu_mem hs
  | clz f => exact execClz_mem hs
  | ctz f => exact execCtz_mem hs
  | popc f => exact execPopc_mem hs
  | addi f => exact execAddi_mem hs
  | andi f => exact execAndi_mem hs
  | ori f => exact execOri_mem hs
  | xori f => exact execXori_mem hs
  | shli f => exact execShli_mem hs
  | shri f => exact execShri_mem hs
  | sari f => exact execSari_mem hs
  | movi f => exact execMovi_mem hs
  | mov f => exact execMov_mem hs
  | cmpeq f => exact execCmpeq_mem hs
  | cmpne f => exact execCmpne_mem hs
  | cmplt f => exact execCmplt_mem hs
  | cmpltu f => exact execCmpltu_mem hs
  | cmple f => exact execCmple_mem hs
  | cmpleu f => exact execCmpleu_mem hs
  | cmov f => exact execCmov_mem hs
  | fadd f => exact execFadd_mem hs
  | fsub f => exact execFsub_mem hs
  | fmul f => exact execFmul_mem hs
  | fdiv f => exact execFdiv_mem hs
  | fma f => exact execFma_mem hs
  | fsqrt f => exact execFsqrt_mem hs
  | fmin f => exact execFmin_mem hs
  | fmax f => exact execFmax_mem hs
  | fcmpeq f => exact execFcmpeq_mem hs
  | fcmplt f => exact execFcmplt_mem hs
  | fcmple f => exact execFcmple_mem hs
  | fcvt f => exact execFcvt_mem hs
  | ftoi f => exact execFtoi_mem hs
  | itof f => exact execItof_mem hs
  | fabs f => exact execFabs_mem hs
  | fneg f => exact execFneg_mem hs
  | br f => exact execBr_mem hs
  | call f => exact execCall_mem hs
  | callr f => exact execCallr_mem hs
  | jmpr f => exact execJmpr_mem hs
  | ret f => exact execRet_mem (u0 := f) hs
  | loop f => exact execLoop_mem hs
  | rep f => exact execRep_mem hs
  | blk f => exact execBlk_mem hs
  | spawn f => exact execSpawn_mem hs
  | callat f => exact execCallat_mem hs
  | fork f => exact execFork_mem hs
  | join f => exact execJoin_mem hs
  | cancel f => exact execCancel_mem hs
  | cancelu f => exact execCancelu_mem hs
  | tstb f => exact execTstb_mem hs
  | ldGlobal f => exact execLdGlobal_mem hs
  | ldsGlobal f => exact execLdsGlobal_mem hs
  | stGlobal f => exact execStGlobal_mem hs
  | ldLocal f => exact execLdLocal_mem hs
  | ldsLocal f => exact execLdsLocal_mem hs
  | stLocal f => exact execStLocal_mem hs
  | ldFe f => exact execLdFe_mem hs
  | stEf f => exact execStEf_mem hs
  | amoAdd f => exact execAmoAdd_mem hs
  | amoAnd f => exact execAmoAnd_mem hs
  | amoOr f => exact execAmoOr_mem hs
  | amoXor f => exact execAmoXor_mem hs
  | amoMin f => exact execAmoMin_mem hs
  | amoMax f => exact execAmoMax_mem hs
  | amoMinu f => exact execAmoMinu_mem hs
  | amoMaxu f => exact execAmoMaxu_mem hs
  | amoSwap f => exact execAmoSwap_mem hs
  | amoCas f => exact execAmoCas_mem hs
  | mkobj f => exact execMkobj_mem hs
  | rmobj f => exact execRmobj_mem hs
  | qpushT f => exact execQpushT_mem hs
  | qpopT f => exact execQpopT_mem hs
  | ldtag f => exact execLdtag_mem hs
  | ctrAdd f => exact execCtrAdd_mem hs
  | ctrTake f => exact execCtrTake_mem hs
  | ctrWait f => exact execCtrWait_mem hs
  | barArrive f => exact execBarArrive_mem hs
  | barSync f => exact execBarSync_mem hs
  | barWait f => exact execBarWait_mem hs
  | barJoin f => exact execBarJoin_mem hs
  | barWdraw f => exact execBarWdraw_mem hs
  | lkAcq f => exact execLkAcq_mem hs
  | lkTry f => exact execLkTry_mem hs
  | lkRel f => exact execLkRel_mem hs
  | qpush f => exact execQpush_mem hs
  | qpop f => exact execQpop_mem hs
  | cndWait f => exact execCndWait_mem hs
  | cndSignal f => exact execCndSignal_mem hs
  | cndBcast f => exact execCndBcast_mem hs
  | sysr f => exact execSysr_mem hs
  | sysw f => exact execSysw_mem hs
  | start f => exact execStart_mem hs
  | reap f => exact execReap_mem hs
  | pair f => exact execPair_mem hs
  | trap f => exact execTrap_mem hs
  | rett f => exact execRett_mem (u0 := f) hs
  | nop f => exact execNop_mem (u0 := f) hs
  | vadd f => exact execVadd_mem hs
  | vsub f => exact execVsub_mem hs
  | vmul f => exact execVmul_mem hs
  | vfma f => exact execVfma_mem hs
  | vdiv f => exact execVdiv_mem hs
  | vsqrt f => exact execVsqrt_mem hs
  | vmin f => exact execVmin_mem hs
  | vmax f => exact execVmax_mem hs
  | vabs f => exact execVabs_mem hs
  | vneg f => exact execVneg_mem hs
  | vrcp f => exact execVrcp_mem hs
  | vrsq f => exact execVrsq_mem hs
  | vexp2 f => exact execVexp2_mem hs
  | vlog2 f => exact execVlog2_mem hs
  | vadds f => exact execVadds_mem hs
  | vsubs f => exact execVsubs_mem hs
  | vand f => exact execVand_mem hs
  | vor f => exact execVor_mem hs
  | vxor f => exact execVxor_mem hs
  | vshl f => exact execVshl_mem hs
  | vshr f => exact execVshr_mem hs
  | vsar f => exact execVsar_mem hs
  | vcmpeq f => exact execVcmpeq_mem hs
  | vcmplt f => exact execVcmplt_mem hs
  | vcmple f => exact execVcmple_mem hs
  | vsel f => exact execVsel_mem hs
  | vshuf f => exact execVshuf_mem hs
  | vbcast f => exact execVbcast_mem hs
  | vmov f => exact execVmov_mem hs
  | vcvt f => exact execVcvt_mem hs
  | vqmx f => exact execVqmx_mem hs
  | vqb4 f => exact execVqb4_mem hs
  | vredsum f => exact execVredsum_mem hs
  | vredmin f => exact execVredmin_mem hs
  | vredmax f => exact execVredmax_mem hs
  | vredmSum f => exact execVredmSum_mem hs
  | vredmMean f => exact execVredmMean_mem hs
  | mzero f => exact execMzero_mem hs
  | mma f => exact execMma_mem hs
  | mmaS f => exact execMmaS_mem hs
  | mdrain f => exact execMdrain_mem hs
  | copy f => exact execCopy_mem hs
  | copyStr f => exact execCopyStr_mem hs
  | copyGth f => exact execCopyGth_mem hs
  | copySct f => exact execCopySct_mem hs
  | copyTrg f => exact execCopyTrg_mem hs
  | copyStrTrg f => exact execCopyStrTrg_mem hs
  | copyGthTrg f => exact execCopyGthTrg_mem hs
  | copySctTrg f => exact execCopySctTrg_mem hs
  | prefTier f => exact execPrefTier_mem hs
  | layout f => exact execLayout_mem hs
  | layoutAb f => exact execLayoutAb_mem hs
  | collOpen f => exact execCollOpen_mem hs
  | collPut f => exact execCollPut_mem hs
  | collGet f => exact execCollGet_mem hs
  | collMark f => exact execCollMark_mem hs
  | _ => exact absurd rfl h

/-- Settles O55: the instruction answers a next state (`exec_answers`), and a next state keeps memory (`exec_mem`). -/
theorem programKeepsMemory : Obligations.ProgramKeepsMemory := by
  unfold Obligations.ProgramKeepsMemory
  intro i s h
  obtain ⟨t, ht⟩ := exec_answers (s := s) h
  exact ⟨t, ht, exec_mem h s.hasMem_self t ht⟩

end Sys2Proof.Machine
end


section
/-!
SUPPORT. The state after reset (spec/16 R355): every storage lists nothing, so it reads as its reset value everywhere.
-/

namespace Sys2Proof.Machine

open Sys2Proof

/-! ### What each storage reads as after reset -/

theorem reset_ctx (g : Nat) : State.reset.ctx g = Ctx.rest g := rfl
theorem reset_core (c : Nat) : State.reset.core c = Core.init := rfl
theorem reset_die (d : Nat) : State.reset.die d = Die.init := rfl

/-- A word that nothing has written reads 0, plain and full (spec/16 Table 16.4). -/
theorem reset_memWord (a : Nat) : State.reset.memWord a = 0 := rfl
theorem reset_memTag (a : Nat) : State.reset.memTag a = 8#4 := rfl
theorem reset_memType (a : Nat) : State.reset.memType a = 0 := by rw [State.memType, reset_memTag]; decide
theorem reset_memFull (a : Nat) : State.reset.memFull a = true := by rw [State.memFull, reset_memTag]; decide

theorem Ctx.rest_supervisor (k : Nat) : (Ctx.rest (16 * k)).mode = .parked ∧ (Ctx.rest (16 * k)).park = .firmware ∧
    (Ctx.rest (16 * k)).base = 0 ∧ (Ctx.rest (16 * k)).limit = 32 := by
  simp [Ctx.rest]

theorem Ctx.rest_idle {g : Nat} (h : isCtx0 g = false) : (Ctx.rest g).mode = .idle := by
  have hg : ¬g % 16 = 0 := by simpa [isCtx0] using h
  simp [Ctx.rest, hg]

theorem isCtx0_add {k i : Nat} (h1 : 1 ≤ i) (h2 : i ≤ 15) : isCtx0 (16 * k + i) = false := by
  simp only [isCtx0, decide_eq_false_iff_not]
  omega

/-- Settles O58: contexts, cores, dies and memory by what an empty storage reads as, the lists by computation. -/
theorem resetState : Obligations.ResetState := by
  unfold Obligations.ResetState
  refine ⟨rfl, fun k => ?_, fun _ _ => ⟨rfl, rfl⟩, fun _ _ => rfl, fun c => ?_, fun d => ?_,
    fun a => ⟨reset_memWord a, reset_memType a, reset_memFull a⟩, rfl, rfl, rfl, rfl, rfl, rfl, rfl, rfl, rfl, rfl, rfl⟩
  · obtain ⟨hmode, hpark, hbase, hlimit⟩ := Ctx.rest_supervisor k
    exact ⟨hmode, hpark, hbase, hlimit, fun i h1 h2 => Ctx.rest_idle (isCtx0_add h1 h2)⟩
  · rw [reset_core]
    exact ⟨rfl, rfl, rfl, rfl, rfl⟩
  · rw [reset_die]
    exact ⟨rfl, rfl, rfl, rfl⟩

end Sys2Proof.Machine
end


section
/-!
SUPPORT. The bits that one rounding delivers fit the width of the format (spec/06 R152, Tables 6.2 and 6.5): the quotient has at most one
bit more than the mantissa field, and what does not exceed the largest finite value has an exponent field of the format.
-/

namespace Sys2Proof.Machine

open Sys2Proof

theorem bitAt_le (b : Bool) (i : Nat) : bitAt b i ≤ 2 ^ i := by cases b <;> simp [bitAt]

/-! ### The quotient -/

/-- A quotient below 2^k rounds to at most 2^k; a denominator of 0 counts as a remainder, and rounds to 1. -/
theorem divRound_le {num den k : Nat} {sh : Int} (h : den ≠ 0 → (num : ℚ) * 2 ^ sh < den * 2 ^ k) : (divRound num den sh).1 ≤ 2 ^ k := by
  have hq : ∀ n d : Nat, (d ≠ 0 → n < d * 2 ^ k) → (if 2 * (n % d) > d || (2 * (n % d) = d && n / d % 2 = 1) then n / d + 1 else n / d) ≤ 2 ^ k := by
    intro n d hd
    have hk : 1 ≤ 2 ^ k := Nat.one_le_two_pow
    have : n / d < 2 ^ k := by
      rcases Nat.eq_zero_or_pos d with rfl | hpos
      · simp
      · exact Nat.div_lt_of_lt_mul (hd hpos.ne')
    split <;> omega
  unfold divRound
  dsimp only
  apply hq
  rcases le_or_gt 0 sh with hs | hs
  · rw [if_pos hs, if_pos hs]
    intro hd
    obtain ⟨t, rfl⟩ := Int.eq_ofNat_of_zero_le hs
    have := h hd
    rw [zpow_natCast] at this
    exact_mod_cast this
  · rw [if_neg hs.not_ge, if_neg hs.not_ge]
    intro hd
    obtain ⟨t, ht⟩ := Int.eq_ofNat_of_zero_le (show 0 ≤ -sh by omega)
    have h1 := h (by rintro rfl; simp at hd)
    rw [show sh = -(t : Int) by omega, zpow_neg, zpow_natCast, ← div_eq_mul_inv, div_lt_iff₀ (by positivity)] at h1
    rw [ht, Int.toNat_natCast, mul_right_comm]
    exact_mod_cast h1

theorem lt_ratLog2 {num den : Nat} (hd : den ≠ 0) : (num : ℚ) < den * 2 ^ (ratLog2 num den + 1) := by
  have hn : (num : ℚ) < 2 ^ (Nat.log2 num + 1) := by exact_mod_cast Nat.lt_log2_self
  have hd' : (2 : ℚ) ^ (Nat.log2 den) ≤ den := by exact_mod_cast Nat.log2_self_le hd
  set a : Int := (Nat.log2 num : Int) - Nat.log2 den with ha
  have hwide : (num : ℚ) < den * 2 ^ (a + 1) := by
    calc (num : ℚ) < 2 ^ (Nat.log2 num + 1) := hn
      _ = 2 ^ (Nat.log2 den) * (2 : ℚ) ^ (a + 1) := by
        rw [← zpow_natCast, ← zpow_natCast, ← zpow_add₀ two_ne_zero]
        congr 1
        push_cast
        omega
      _ ≤ den * 2 ^ (a + 1) := by gcongr
  unfold ratLog2
  dsimp only
  rw [← ha]
  split_ifs with h0 h h
  · exact hwide
  · obtain ⟨t, ht⟩ := Int.eq_ofNat_of_zero_le h0
    rw [ht, Int.toNat_natCast, not_le] at h
    rw [ht, sub_add_cancel, zpow_natCast]
    exact_mod_cast h
  · exact hwide
  · obtain ⟨t, ht⟩ := Int.eq_ofNat_of_zero_le (show 0 ≤ -a by omega)
    rw [ht, Int.toNat_natCast, not_le] at h
    rw [sub_add_cancel, show a = -(t : Int) by omega, zpow_neg, zpow_natCast, ← div_eq_mul_inv, lt_div_iff₀ (by positivity)]
    exact_mod_cast h

/-- The quotient of a rounding to `m` mantissa bits: the exponent of the unit is at least that of the value less `m`. -/
theorem divRound_ratLog2_le {num den m : Nat} {exp u : Int} (hu : ratLog2 num den + exp - m ≤ u) : (divRound num den (exp - u)).1 ≤ 2 ^ (m + 1) := by
  refine divRound_le fun hd => ?_
  calc (num : ℚ) * 2 ^ (exp - u) ≤ num * 2 ^ ((m : Int) - ratLog2 num den) := by
        exact mul_le_mul_of_nonneg_left (zpow_le_zpow_right₀ one_le_two (by omega)) (Nat.cast_nonneg num)
    _ < den * 2 ^ (ratLog2 num den + 1) * 2 ^ ((m : Int) - ratLog2 num den) := by
        gcongr
        exact lt_ratLog2 hd
    _ = den * 2 ^ (m + 1) := by
        rw [mul_assoc, ← zpow_add₀ two_ne_zero, ← zpow_natCast]
        congr 2
        push_cast
        omega

/-! ### The packed bits -/

/-- The codes of a format lie in its width: its largest finite magnitude has a mantissa and an exponent field of the format, and its NaN is one
of its codes. -/
structure FpFormat.Sound (p : FpFormat) : Prop where
  top : ∃ neg m den e, fpDecode p p.maxBits = .fin neg m den e ∧ m < 2 ^ (p.manBits + 1) ∧ (e + p.manBits + p.bias).toNat < 2 ^ p.expBits
  max : p.maxBits < 2 ^ (p.manBits + p.expBits)
  nan : (p.nan.getD 0) < 2 ^ p.width

theorem fp32_sound : fp32.Sound := ⟨⟨_, _, _, _, rfl, by decide, by decide⟩, by decide, by decide⟩

/-- The formats of the codes 2 to 7 are sound and at most 32 bits wide. -/
theorem fpOf_sound {c : Nat} (h : isFp c = true) : (fpOf c).Sound ∧ (fpOf c).width ≤ 32 ∧ fmtBits c ≤ 32 := by
  have h27 : 2 ≤ c ∧ c ≤ 7 := by simpa [isFp] using h
  obtain ⟨h2, h7⟩ := h27
  interval_cases c <;> exact ⟨⟨⟨_, _, _, _, rfl, by decide, by decide⟩, by decide, by decide⟩, by decide, by decide⟩

/-- An exponent and a mantissa in their fields, with a sign, lie in the width. -/
theorem FpFormat.fields_lt (p : FpFormat) {sign e m : Nat} (hs : sign ≤ 2 ^ (p.manBits + p.expBits)) (he : e < 2 ^ p.expBits) (hm : m < 2 ^ p.manBits) :
    sign + e * 2 ^ p.manBits + m < 2 ^ p.width := by
  have h1 : (e + 1) * 2 ^ p.manBits ≤ 2 ^ p.expBits * 2 ^ p.manBits := Nat.mul_le_mul_right _ he
  have h2 : 2 ^ p.width = 2 ^ (p.manBits + p.expBits) + 2 ^ p.expBits * 2 ^ p.manBits := by
    rw [FpFormat.width]
    ring
  rw [h2]
  linarith [add_mul e 1 (2 ^ p.manBits)]

theorem FpFormat.sign_lt (p : FpFormat) {sign x : Nat} (hs : sign ≤ 2 ^ (p.manBits + p.expBits)) (hx : x < 2 ^ (p.manBits + p.expBits)) :
    sign + x < 2 ^ p.width := by
  have : 2 ^ p.width = 2 ^ (p.manBits + p.expBits) + 2 ^ (p.manBits + p.expBits) := by
    rw [FpFormat.width]
    ring
  omega

/-- A quotient with a mantissa bit above `m`'s, which does not exceed the largest finite value, has a unit no greater than its. -/
theorem unit_le_of_not_exceeds {p : FpFormat} {neg : Bool} {m den q : Nat} {e u : Int} (ht : fpDecode p p.maxBits = .fin neg m den e)
    (hm : m < 2 ^ (p.manBits + 1)) (hx : exceeds p q u = false) :
    (2 ^ p.manBits ≤ q → u ≤ e) ∧ (2 ^ (p.manBits + 1) ≤ q → u + 1 ≤ e) := by
  simp only [exceeds, ht] at hx
  have hlow : 2 ^ p.manBits ≤ q → u ≤ e := by
    intro hq
    by_contra hu
    rw [if_neg hu, decide_eq_false_iff_not, not_lt] at hx
    have h2 : 2 ≤ 2 ^ (u - e).toNat := Nat.le_self_pow (by omega) 2
    have : 2 ^ p.manBits * 2 ≤ q * 2 ^ (u - e).toNat := Nat.mul_le_mul hq h2
    rw [pow_succ] at hm
    omega
  refine ⟨hlow, fun hq => ?_⟩
  have hue : u ≤ e := hlow (le_trans (Nat.pow_le_pow_right (by norm_num) (Nat.le_succ _)) hq)
  by_contra hu
  rw [if_pos hue, decide_eq_false_iff_not, not_lt, show (e - u).toNat = 0 by omega] at hx
  omega

theorem fpPack_lt {p : FpFormat} (hp : p.Sound) {neg : Bool} {q : Nat} {u : Int} (hq : q ≤ 2 ^ (p.manBits + 1)) (hx : exceeds p q u = false) :
    fpPack p neg q u < 2 ^ p.width := by
  obtain ⟨tneg, m, den, e, ht, hm, he⟩ := hp.top
  have hs := bitAt_le neg (p.manBits + p.expBits)
  have hman : 2 ^ (p.manBits + 1) = 2 * 2 ^ p.manBits := by ring
  obtain ⟨hlow, hhigh⟩ := unit_le_of_not_exceeds ht hm hx
  have hfield : ∀ v : Int, v ≤ e → (v + p.manBits + p.bias).toNat < 2 ^ p.expBits := fun v hv => lt_of_le_of_lt (by omega) he
  unfold fpPack
  dsimp only
  by_cases h0 : q = 0
  · rw [if_pos h0]
    exact p.sign_lt hs (Nat.two_pow_pos _)
  · rw [if_neg h0]
    by_cases htop : 2 ^ (p.manBits + 1) ≤ q
    · rw [if_pos htop]
      dsimp only
      rw [if_neg (by omega)]
      exact p.fields_lt hs (hfield _ (hhigh htop)) (by omega)
    · rw [if_neg htop]
      dsimp only
      split
      · next hlt =>
        have := p.fields_lt hs (Nat.two_pow_pos _) hlt
        omega
      · next hge => exact p.fields_lt hs (hfield _ (hlow (by omega))) (by omega)

theorem roundTo_lt {p : FpFormat} (hp : p.Sound) (v : Val) : (roundTo p v).1 < 2 ^ p.width := by
  cases v with
  | nan sig =>
    have := hp.nan
    unfold roundTo fpNan
    cases h : p.nan with
    | none => exact Nat.two_pow_pos _
    | some n => rw [h] at this; exact this
  | inf neg =>
    have hs := bitAt_le neg (p.manBits + p.expBits)
    unfold roundTo fpInf
    dsimp only
    split
    · exact p.fields_lt hs (Nat.sub_lt (Nat.two_pow_pos _) one_pos) (Nat.two_pow_pos _)
    · exact p.sign_lt hs hp.max
  | fin neg num den exp =>
    have hs := bitAt_le neg (p.manBits + p.expBits)
    unfold roundTo
    dsimp only
    split
    · exact p.sign_lt hs (Nat.two_pow_pos _)
    · split
      · unfold fpOver
        dsimp only
        split
        · exact p.sign_lt hs hp.max
        · exact p.fields_lt hs (Nat.sub_lt (Nat.two_pow_pos _) one_pos) (Nat.two_pow_pos _)
      · next hx =>
        exact fpPack_lt hp (divRound_ratLog2_le (by omega)) (by simpa using hx)

end Sys2Proof.Machine
end


section
/-!
SUPPORT. A register write and the step past the instruction (spec/02 R46, R49; spec/08 R190), and the 32-bit results of the scalar floating-point
instructions (spec/08 R195-R197).
-/

namespace Sys2Proof.Machine

open Sys2Proof

/-! ### The frame of a register write -/

theorem State.regKey_updCtx {s : State} (h : s.Canon) {g : Nat} {f : Ctx → Ctx} (hf : ∀ c, (f c).base = c.base) (k n : Nat) :
    (s.updCtx g f).regKey k n = s.regKey k n := by
  rw [State.regKey, State.ctx_updCtx h]
  split
  · next hk => rw [hf, hk, State.regKey]
  · rfl

theorem State.regKey_next {s : State} (h : s.Canon) (k n : Nat) : s.next.regKey k n = s.regKey k n := 
  State.regKey_updCtx (f := fun c => { c with pc := c.pc + wordOfNat s.sched.slot.len }) h (fun _ => rfl) k n

theorem State.reg_next {s : State} (h : s.Canon) (r : BitVec 7) : s.next.reg r = s.reg r := by
  rw [State.reg, State.regAt, State.regKey_next h, State.regs_next, State.gid_next]
  rfl

theorem State.cur_next {s : State} (h : s.Canon) : s.next.cur = { s.cur with pc := s.cur.pc + wordOfNat s.sched.slot.len } :=
  State.cur_updCur h _

theorem State.ctx_next_other {s : State} (h : s.Canon) {g : Nat} (hg : g ≠ s.gid) : s.next.ctx g = s.ctx g := by
  rw [State.next, State.ctx_updCur h, if_neg hg]

/-! ### 32-bit results -/

theorem low32_lt (x : W64) : low32 x < 2 ^ 32 := Nat.mod_lt _ (by norm_num)

theorem finish_lt (r : Val × Flags) : (finish fp32 r).1 < 2 ^ 32 := roundTo_lt fp32_sound r.1

theorem fpFma_lt (a b c : Nat) : (fpFma fp32 a b c).1 < 2 ^ 32 := finish_lt _

theorem fpNan_lt : (fpNan fp32).1 < 2 ^ 32 := by decide

theorem fpMinMax_lt {larger : Bool} {a b : Nat} (ha : a < 2 ^ 32) (hb : b < 2 ^ 32) : (fpMinMax fp32 larger a b).1 < 2 ^ 32 := by
  unfold fpMinMax
  dsimp only
  split
  · exact fpNan_lt
  · split <;> dsimp only <;> split <;> assumption

theorem fpAbs_lt {a : Nat} : (fpAbs fp32 a).1 < 2 ^ 32 := by
  unfold fpAbs
  dsimp only
  split
  · exact fpNan_lt
  · exact lt_trans (Nat.mod_lt _ (Nat.two_pow_pos _)) (by decide)

theorem fpNeg_lt {a : Nat} : (fpNeg fp32 a).1 < 2 ^ 32 := by
  have hm : a % 2 ^ (fp32.width - 1) < 2 ^ 31 := Nat.mod_lt _ (Nat.two_pow_pos _)
  have hw : (2 : Nat) ^ (fp32.width - 1) = 2 ^ 31 := by decide
  unfold fpNeg
  dsimp only
  split
  · exact fpNan_lt
  · dsimp only
    split <;> omega

theorem i64ToFp_lt (a : W64) : (i64ToFp a).1 < 2 ^ 32 := roundTo_lt fp32_sound _

theorem convert_lt {dst src a : Nat} (hd : isFp dst = true) (hs : isFp src = true) : (convert dst src (a % 2 ^ fmtBits src)).1 < 2 ^ 32 := by
  obtain ⟨-, -, hbits⟩ := fpOf_sound hs
  obtain ⟨hsound, hwidth, -⟩ := fpOf_sound hd
  unfold convert
  split
  · exact lt_of_lt_of_le (Nat.mod_lt _ (Nat.two_pow_pos _)) (Nat.pow_le_pow_right (by norm_num) hbits)
  · dsimp only
    split
    · exact absurd hd (by decide)
    · exact absurd hd (by decide)
    · exact lt_of_lt_of_le (roundTo_lt hsound _) (Nat.pow_le_pow_right (by norm_num) hwidth)

theorem fcvt_formats {f : ImmFmt} (h : (Instr.fcvt f).wellFormed = true) : isFp (f.imm.toNat % 16) = true ∧ isFp (f.imm.toNat / 16) = true := by
  have h : firstError [f.check true true false, reject .formatCode (!(isFp (f.imm.toNat / 16) && isFp (f.imm.toNat % 16)))] = none := by
    simpa [Instr.wellFormed, Instr.check] using h
  cases hc : f.check true true false with
  | some e => rw [hc] at h; exact nomatch h
  | none =>
    rw [hc] at h
    cases hsrc : isFp (f.imm.toNat / 16) <;> cases hdst : isFp (f.imm.toNat % 16) <;> simp [hsrc, hdst, firstError, reject] at h ⊢

/-! ### Floating-point results in the state -/

/-- The state after an instruction that puts 32 bits into register `d`, the rest zero, and ORs flags. -/
def State.wroteFp (s : State) (d : BitVec 7) (v : W32) (fl : Flags) : State :=
  ((s.writeReg d (v.zeroExtend 64)).updCur fun c => { c with flags := c.flags ||| fl }).next

theorem State.writeFp_next {s : State} {d : BitVec 7} {r : Nat × Flags} (h : r.1 < 2 ^ 32) :
    (s.writeFp d r).next = s.wroteFp d (BitVec.ofNat 32 r.1) r.2 := by
  have hv : wordOfNat r.1 = (BitVec.ofNat 32 r.1).zeroExtend 64 := by
    apply BitVec.eq_of_toNat_eq
    simp only [wordOfNat, BitVec.toNat_ofNat, BitVec.truncate_eq_setWidth, BitVec.toNat_setWidth, Nat.mod_eq_of_lt h]
  rw [State.writeFp, hv]
  rfl

theorem State.fpBinary_wrote {s : State} {f : RegFmt} {g : Nat → Nat → Nat × Flags} (hu : s.usable (f.d :: f.a :: regB f.b f.lit) = true)
    (hg : ∀ a b, a < 2 ^ 32 → b < 2 ^ 32 → (g a b).1 < 2 ^ 32) : ∃ v fl, s.fpBinary f g = .next (s.wroteFp f.d v fl) :=
  ⟨_, _, by rw [State.fpBinary_ok hu, State.writeFp_next (hg _ _ (low32_lt _) (low32_lt _))]⟩

theorem State.fpUnary_wrote {s : State} {f : RegFmt} {g : Nat → Nat × Flags} (hu : s.usable [f.d, f.a] = true)
    (hg : ∀ a, (g a).1 < 2 ^ 32) : ∃ v fl, s.fpUnary f g = .next (s.wroteFp f.d v fl) :=
  ⟨_, _, by rw [State.fpUnary_ok hu, State.writeFp_next (hg _)]⟩

theorem execFma_wrote {s : State} {f : RegFmt} (hu : s.usable (f.d :: f.a :: regB f.b f.lit) = true) :
    ∃ v fl, execFma f s = .next (s.wroteFp f.d v fl) := by
  have hu' : s.usable ([f.d] ++ (f.a :: f.d :: regB f.b f.lit)) = true := State.has_sub hu fun q hq => by
    simp only [nums, List.cons_append, List.nil_append, List.map_cons, List.mem_cons] at hq ⊢
    tauto
  exact ⟨_, _, by rw [execFma, State.registerOp_ok hu', State.writeFp_next (fpFma_lt _ _ _)]⟩

theorem execItof_wrote {s : State} {f : RegFmt} (hu : s.usable [f.d, f.a] = true) : ∃ v fl, execItof f s = .next (s.wroteFp f.d v fl) :=
  ⟨_, _, by rw [execItof, State.registerOp_ok (dsts := [f.d]) (srcs := [f.a]) hu, State.writeFp_next (i64ToFp_lt _)]⟩

theorem execFcvt_wrote {s : State} {f : ImmFmt} (hf : (Instr.fcvt f).wellFormed = true) (hu : s.usable [f.d, f.a] = true) :
    ∃ v fl, execFcvt f s = .next (s.wroteFp f.d v fl) := by
  obtain ⟨hdst, hsrc⟩ := fcvt_formats hf
  exact ⟨_, _, by rw [execFcvt, State.registerOp_ok (dsts := [f.d]) (srcs := [f.a]) hu, State.writeFp_next (convert_lt hdst hsrc)]⟩

theorem execFtoi_ok {s : State} {f : RegFmt} (hu : s.usable [f.d, f.a] = true) :
    execFtoi f s = .next ((s.writeReg f.d (fpToI64 (low32 (s.reg f.a))).1).updCur fun c =>
      { c with flags := c.flags ||| (fpToI64 (low32 (s.reg f.a))).2 }).next := State.registerOp_ok (dsts := [f.d]) (srcs := [f.a]) hu

theorem State.fpCompare_wrote {s : State} {f : CmpFmt} {g : Nat → Nat → Bool × Flags} (hu : s.usable (f.a :: regB f.b f.lit) = true) :
    ∃ (r : Bool) (fl : Flags), s.fpCompare f g =
      .next (((s.updCur fun c => c.setPred f.q r).updCur fun c => { c with flags := c.flags ||| fl }).next) :=
  ⟨_, _, State.registerOp_ok (dsts := []) hu⟩

/-- Settles O4: read after write for the frame of a register, and for the floating-point forms that each result fits 32 bits. -/
theorem registerWrites : Obligations.RegisterWrites := by
  unfold Obligations.RegisterWrites
  refine ⟨fun s d v hs => ?_, fun s => ?_⟩
  · have h := State.canonical_iff.1 hs
    have hw : (s.writeReg d v).Canon := State.setPhys_canon h
    refine ⟨fun r => ?_, fun k => spGet_spSet h.regs k, State.cur_next hw, fun g hg => State.ctx_next_other hw hg, rfl⟩
    rw [State.reg_next hw, State.reg_writeReg h]
  · refine ⟨fun f hu => ⟨?_, ?_, ?_, ?_, execFma_wrote hu, ?_, ?_⟩, fun f hu => ⟨?_, ?_, ?_, execItof_wrote hu, ?_⟩,
      fun f hf hu => execFcvt_wrote hf hu, fun f hu i hi => ?_⟩
    · exact State.fpBinary_wrote (g := fpAdd fp32) hu fun _ _ _ _ => finish_lt _
    · exact State.fpBinary_wrote (g := fpSub fp32) hu fun _ _ _ _ => finish_lt _
    · exact State.fpBinary_wrote (g := fpMul fp32) hu fun _ _ _ _ => finish_lt _
    · exact State.fpBinary_wrote (g := fpDiv fp32) hu fun _ _ _ _ => finish_lt _
    · exact State.fpBinary_wrote (g := fpMinMax fp32 false) hu fun _ _ => fpMinMax_lt
    · exact State.fpBinary_wrote (g := fpMinMax fp32 true) hu fun _ _ => fpMinMax_lt
    · exact State.fpUnary_wrote (g := fpSqrt fp32) hu fun _ => finish_lt _
    · exact State.fpUnary_wrote (g := fpAbs fp32) hu fun _ => fpAbs_lt
    · exact State.fpUnary_wrote (g := fpNeg fp32) hu fun _ => fpNeg_lt
    · exact ⟨_, _, execFtoi_ok hu⟩
    · simp only [List.mem_cons, List.not_mem_nil, or_false] at hi
      rcases hi with rfl | rfl | rfl
      · exact State.fpCompare_wrote (g := fpCmpEq fp32) hu
      · exact State.fpCompare_wrote (g := fpCmpLt fp32) hu
      · exact State.fpCompare_wrote (g := fpCmpLe fp32) hu

end Sys2Proof.Machine
end


section
/-!
SUPPORT. What a started context holds (spec/02 R48): its registers, its own state, and the frame around it.
-/

namespace Sys2Proof

theorem spGet_spFill {α : Type} [DecidableEq α] {d v : α} {m : Sparse α} {k n : Nat} (h : spWf d m = true) (j : Nat) :
    spGet d (spFill d m k v n) j = if k ≤ j ∧ j < k + n then v else spGet d m j := by
  induction n generalizing m k with
  | zero => rw [if_neg (by omega)]; rfl
  | succ n ih =>
    rw [spFill, ih (spSet_wf h), spGet_spSet h]
    by_cases hj : j = k
    · subst hj
      rw [if_neg (by omega), if_pos rfl, if_pos (by omega)]
    · simp only [if_neg hj]
      exact if_congr (by omega) rfl rfl

end Sys2Proof

namespace Sys2Proof.Machine

open Sys2Proof

/-- The context that `startOne` leaves. -/
def startedCtx (g b n : Nat) (pc : W64) (w : Work) (id : Ident) (gen : Nat) : Ctx :=
  { Ctx.rest g with mode := .ready, park := .nothing, pc, base := b, limit := b + n, unit := id.unit, launch := id.launch, o := id.o
                    e := id.e, lid := id.lid, work := w, gen }

section
variable {s : State} (h : s.Canon) (g b n : Nat) (pc : W64) (seeds : List W64) (w : Work) (id : Ident)
include h

theorem State.ctx_startOne (k : Nat) : (s.startOne g b n pc seeds w id).ctx k = if k = g then startedCtx g b n pc w id s.sched.gens else s.ctx k := by
  have hc : State.Canon { s with
      sched := { s.sched with gens := s.sched.gens + 1 }
      cpu := { s.cpu with
        regs := spSetList 0 (spFill 0 s.cpu.regs (1024 * coreOf g + b) 0 n) (1024 * coreOf g + b) (seeds.take n)
        regEmpty := spFill false s.cpu.regEmpty (1024 * coreOf g + b) false n } } :=
    { h with regs := spSetList_wf (spFill_wf h.regs), regEmpty := spFill_wf h.regEmpty }
  exact State.ctx_setCtx hc g _ k

theorem State.regs_startOne (k : Nat) : spGet 0 (s.startOne g b n pc seeds w id).cpu.regs k =
    if 1024 * coreOf g + b ≤ k ∧ k < 1024 * coreOf g + b + n then seeds.getD (k - (1024 * coreOf g + b)) 0 else spGet 0 s.cpu.regs k := by
  set m := 1024 * coreOf g + b
  have hm : spGet 0 (s.startOne g b n pc seeds w id).cpu.regs k = spGet 0 (spSetList 0 (spFill 0 s.cpu.regs m 0 n) m (seeds.take n)) k := rfl
  rw [hm, spGet_spSetList (spFill_wf h.regs), spGet_spFill h.regs, List.length_take]
  by_cases hk : m ≤ k ∧ k < m + n
  · rw [if_pos hk, if_pos hk]
    split
    · rw [List.getD_eq_getElem?_getD, List.getD_eq_getElem?_getD, List.getElem?_take, if_pos (by omega)]
    · rw [List.getD_eq_default _ _ (by omega)]
  · rw [if_neg hk, if_neg hk, if_neg (by omega)]

theorem State.regEmpty_startOne (k : Nat) : spGet false (s.startOne g b n pc seeds w id).cpu.regEmpty k =
    if 1024 * coreOf g + b ≤ k ∧ k < 1024 * coreOf g + b + n then false else spGet false s.cpu.regEmpty k := spGet_spFill h.regEmpty k

end

/-- Settles O18: the started context by `ctx_startOne`, its block by what the two runs of writes leave. -/
theorem startedContext : Obligations.StartedContext := by
  unfold Obligations.StartedContext
  refine ⟨fun s g b n pc seeds w id hs => ?_, fun s g b n pc seeds w id => rfl⟩
  have h := State.canonical_iff.1 hs
  have hctx : (s.startOne g b n pc seeds w id).ctx g = startedCtx g b n pc w id s.sched.gens := by rw [State.ctx_startOne h, if_pos rfl]
  dsimp only
  rw [hctx]
  refine ⟨rfl, rfl, rfl, rfl, rfl, rfl, rfl, rfl, rfl, rfl, rfl, rfl, rfl, rfl, rfl, fun r hr => ?_, fun k hk => ?_, fun k hk => ?_,
    rfl, rfl, rfl, rfl, rfl, rfl⟩
  · have hkey : (s.startOne g b n pc seeds w id).regKey g r = 1024 * coreOf g + b + r := by rw [State.regKey, hctx]; rfl
    rw [State.regAt, State.emptyAt, hkey, State.regs_startOne h, State.regEmpty_startOne h, if_pos (by omega), if_pos (by omega), Nat.add_sub_cancel_left]
    exact ⟨rfl, rfl⟩
  · rw [State.regs_startOne h, State.regEmpty_startOne h, if_neg (by omega), if_neg (by omega)]
    exact ⟨rfl, rfl⟩
  · rw [State.ctx_startOne h, if_neg hk]

end Sys2Proof.Machine
end


section
/-!
SUPPORT. The agents that a scope takes in (spec/05 R129, R134, Table 5.3), and the issue of a request (spec/02 R42, R49; spec/09 R222).
-/

namespace Sys2Proof.Machine

open Sys2Proof

/-! ### Scopes -/

/-- What holds of every scope code, written as a number, holds of a scope. -/
theorem scope_cases {P : BitVec 4 → Prop} (h : ∀ n, n < 16 → P (BitVec.ofNat 4 n)) (sc : BitVec 4) : P sc := by
  have := h sc.toNat sc.isLt
  rwa [BitVec.ofNat_toNat, BitVec.setWidth_eq] at this

section
set_option linter.unusedSimpArgs false
variable (s : State) (tenant : Nat) (wide : Bool) (sc : BitVec 4)

theorem State.inScope_context (g h : Nat) : s.inScope tenant wide sc (.context g) (.context h) = true ↔
    (sc = 0 → g = h) ∧ (sc = 1 → coreOf g = coreOf h) ∧ (sc = 2 → clusterOf (coreOf g) = clusterOf (coreOf h)) ∧
      (sc = 3 → quadrantOf (coreOf g) = quadrantOf (coreOf h)) ∧ (sc = 4 → dieOf (coreOf g) = dieOf (coreOf h)) := by
  have himp : ∀ f : Nat → Nat, (g = h ∨ f (coreOf g) = f (coreOf h)) ↔ f (coreOf g) = f (coreOf h) := fun f => or_iff_right_of_imp fun e => by rw [e]
  induction sc using scope_cases with
  | h n hn => 
    interval_cases n <;> simp [State.inScope, samePart, sameModule, Agent.own, Agent.core, Agent.die, Agent.inCore, Agent.inCluster, Agent.isHost, Agent.away, himp, himp (fun c => c)]

theorem State.inScope_operation (g op core : Nat) (layout : Bool) : s.inScope tenant wide sc (.context g) (.operation op core layout) = true ↔
    sc ≠ 0 ∧ sc ≠ 1 ∧ (sc = 2 → layout = false ∧ clusterOf (coreOf g) = clusterOf core) ∧ (sc = 3 → quadrantOf (coreOf g) = quadrantOf core) ∧
      (sc = 4 → dieOf (coreOf g) = dieOf core) := by
  induction sc using scope_cases with
  | h n hn =>
    interval_cases n <;> simp [State.inScope, samePart, sameModule, Agent.own, Agent.core, Agent.die, Agent.inCore, Agent.inCluster, Agent.isHost, Agent.away]

theorem State.inScope_router (g op core : Nat) : s.inScope tenant wide sc (.context g) (.router op core) = true ↔
    sc ≠ 0 ∧ (sc = 1 → coreOf g = core) ∧ (sc = 2 → clusterOf (coreOf g) = clusterOf core) ∧ (sc = 3 → quadrantOf (coreOf g) = quadrantOf core) ∧
      (sc = 4 → dieOf (coreOf g) = dieOf core) := by
  induction sc using scope_cases with
  | h n hn =>
    interval_cases n <;> simp [State.inScope, samePart, sameModule, Agent.own, Agent.core, Agent.die, Agent.inCore, Agent.inCluster, Agent.isHost, Agent.away]

theorem State.inScope_die (g die : Nat) {b : Agent} (hb : b ∈ [Agent.launchUnit die, .specialiser die, .tierEngine die]) :
    s.inScope tenant wide sc (.context g) b = true ↔ 4 ≤ sc.toNat ∧ (sc = 4 → dieOf (coreOf g) = die) := by
  simp only [List.mem_cons, List.not_mem_nil, or_false] at hb
  induction sc using scope_cases with
  | h n hn =>
    rcases hb with rfl | rfl | rfl <;> interval_cases n <;> simp [State.inScope, samePart, sameModule, Agent.own, Agent.core, Agent.die, Agent.inCore, Agent.inCluster, Agent.isHost, Agent.away]

theorem State.inScope_sluice (g m : Nat) : s.inScope tenant wide sc (.context g) (.sluice m) = true ↔
    4 ≤ sc.toNat ∧ (sc = 4 → dieOf (coreOf g) = m / 32) := by
  induction sc using scope_cases with
  | h n hn =>
    interval_cases n <;> simp [State.inScope, samePart, sameModule, Agent.own, Agent.core, Agent.die, Agent.inCore, Agent.inCluster, Agent.isHost, Agent.away]

theorem State.inScope_module (g : Nat) {b : Agent} (hb : b ∈ [Agent.scanner, .firmware]) :
    s.inScope tenant wide sc (.context g) b = true ↔ 5 ≤ sc.toNat := by
  simp only [List.mem_cons, List.not_mem_nil, or_false] at hb
  induction sc using scope_cases with
  | h n hn =>
    rcases hb with rfl | rfl <;> interval_cases n <;> simp [State.inScope, samePart, sameModule, Agent.own, Agent.core, Agent.die, Agent.inCore, Agent.inCluster, Agent.isHost, Agent.away]

theorem State.inScope_remote (g p : Nat) (b : Agent) : s.inScope tenant wide sc (.context g) (.remote p b) = true ↔
    (sc = 6 ∧ wide = true) ∨ (sc = 7 ∧ s.maps tenant p = true) ∨ 8 ≤ sc.toNat := by
  induction sc using scope_cases with
  | h n hn =>
    interval_cases n <;> simp [State.inScope, samePart, sameModule, Agent.here, Agent.isHost, Agent.away]

theorem State.inScope_host (g t : Nat) : s.inScope tenant wide sc (.context g) (.host t) = true ↔ (sc = 9 ∧ t = tenant) ∨ 10 ≤ sc.toNat := by
  induction sc using scope_cases with
  | h n hn =>
    interval_cases n <;> simp [State.inScope, samePart, sameModule, Agent.own, Agent.core, Agent.inCore, Agent.inCluster, Agent.here, Agent.isHost, Agent.away]

variable {s tenant wide sc}

/-- An agent that no other module's name hides is its own. -/
theorem Agent.own_of_not_remote {a : Agent} (h : ∀ q x, a ≠ .remote q x) : a.own = a ∧ a.away = none := by
  cases a with
  | remote q x => exact absurd rfl (h q x)
  | _ => exact ⟨rfl, rfl⟩

/-- Two agents of another module are to each other what they are in this one. -/
theorem State.inScope_remote_remote (p : Nat) {a b : Agent} (ha : a.isHost = false) (hb : b.isHost = false) (ha' : ∀ q x, a ≠ .remote q x)
    (hb' : ∀ q x, b ≠ .remote q x) (hsc : sc.toNat ≤ 5) :
    s.inScope tenant wide sc (.remote p a) (.remote p b) = s.inScope tenant wide sc a b := by
  obtain ⟨hao, haa⟩ := Agent.own_of_not_remote ha'
  obtain ⟨hbo, hba⟩ := Agent.own_of_not_remote hb'
  have hra : ∀ x, (Agent.remote p x).own = x := fun _ => rfl
  have hrh : ∀ x, (Agent.remote p x).isHost = false := fun _ => rfl
  have hraway : ∀ x, (Agent.remote p x).away = some p := fun _ => rfl
  have hsame : sameModule (.remote p a) (.remote p b) = sameModule a b := by simp [sameModule, ha, hb, haa, hba, hrh, hraway]
  have hcore : ∀ x : Agent, x.own = x → (Agent.remote p x).core = x.core := fun x hx => by rw [Agent.core, Agent.core, hra, hx]
  have hdie : ∀ x : Agent, x.own = x → (Agent.remote p x).die = x.die := fun x hx => by rw [Agent.die, Agent.die, hra, hx, hcore x hx]
  have hin : ∀ x : Agent, x.own = x → (Agent.remote p x).inCore = x.inCore := fun x hx => by rw [Agent.inCore, Agent.inCore, hra, hx]
  have hcl : ∀ x : Agent, x.own = x → (Agent.remote p x).inCluster = x.inCluster := fun x hx => by rw [Agent.inCluster, Agent.inCluster, hra, hx, hin x hx]
  induction sc using scope_cases with
  | h n hn =>
    have h5 : n ≤ 5 := by simpa [Nat.mod_eq_of_lt hn] using hsc
    interval_cases n <;> simp [State.inScope, samePart, hsame, hcore, hdie, hin, hcl, hao, hbo]

/-- Scope system takes in every agent; a relaxed access is measured by it (R134). -/
theorem State.inScope_scopeOf (s : State) (tenant : Nat) (wide rel : Bool) (sc : BitVec 4) (a b : Agent) :
    s.inScope tenant wide (scopeOf rel sc) a b = true ↔ rel = true ∨ s.inScope tenant wide sc a b = true := by
  cases rel with
  | true => simp [scopeOf, State.inScope]
  | false => simp [scopeOf]

theorem wide_scopeOf (rel : Bool) (sc : BitVec 4) : decide (6 ≤ (scopeOf rel sc).toNat) = (rel || decide (6 ≤ sc.toNat)) := by
  cases rel <;> simp [scopeOf]

end

/-! ### The issue of a request -/

/-- A run of registers marked empty, and nothing else. -/
theorem State.foldl_markEmpty (ds : List Nat) (s : State) : ds.foldl (fun u d => u.markEmpty u.gid d) s =
    { s with cpu := { s.cpu with regEmpty := (ds.map (s.regKey s.gid)).foldl (fun m k => spSet false m k true) s.cpu.regEmpty } } := by
  induction ds generalizing s with
  | nil => rfl
  | cons d ds ih => rw [List.foldl_cons, ih]; rfl

theorem spGet_foldl_spSet {α : Type} [DecidableEq α] {d v : α} {m : Sparse α} (h : spWf d m = true) (ks : List Nat) (k : Nat) :
    spGet d (ks.foldl (fun m j => spSet d m j v) m) k = if k ∈ ks then v else spGet d m k := by
  induction ks generalizing m with
  | nil => simp
  | cons j ks ih =>
    rw [List.foldl_cons, ih (spSet_wf h), spGet_spSet h]
    by_cases hk : k = j <;> by_cases hm : k ∈ ks <;> simp [hk, hm]

/-- The message by which a request leaves: to the translation slice, to a station, or back as a refusal. -/
def State.routed (s : State) (r : Request) : Instr :=
  match s.served r.tenant r.va with
  | .here => .translationLookup r
  | .peer _ => .stationHandoff r
  | .dead => .faultReply r 0x0C r.va

theorem State.route_eq {s : State} {r : Request} (h : r.join = none) : s.route r = s.post (s.routed r) := by
  rw [State.route, h, State.routed]
  dsimp only
  cases s.served r.tenant r.va <;> rfl

theorem State.sendOut_alone {s : State} {g : Nat} {o : Outbound} (h : (s.core (coreOf g)).paired = false ∨ isCtx0 g = true) :
    s.sendOut g o = s.deliver o := by
  rw [State.sendOut, if_neg]
  rcases h with h | h <;> simp [h]

/-- The registers that the request's reply will write are empty. -/
def State.emptied (s : State) (use : Use) : State :=
  { s with cpu := { s.cpu with regEmpty := ((regsOfUse use).map (s.regKey s.gid)).foldl (fun m k => spSet false m k true) s.cpu.regEmpty }
           sched := { s.sched with rids := s.sched.rids + 1 } }

theorem State.emptied_canon {s : State} (h : s.Canon) {use : Use} : (s.emptied use).Canon :=
  { h with regEmpty := List.foldlRecOn (motive := fun m => spWf false m = true) _ _ h.regEmpty fun _ hm _ _ => spSet_wf hm }

theorem State.ctx_parkOn {s : State} (h : s.Canon) (p : Park) (g : Nat) : (s.parkOn p).ctx g =
    if g = s.gid then { s.cur with mode := .parked, park := p, again := p.keeps s.sched.slot.words } else s.ctx g :=
  State.ctx_updCur (f := fun c => { c with mode := .parked, park := p, again := p.keeps s.sched.slot.words }) h g

/-- The request that the context in the slot sends. -/
def State.requestOut (s : State) (kind : ReqKind) (va data cmp : W64) (ord : BitVec 2) (scope : BitVec 4) (use : Use) : Request :=
  { kind, tenant := s.tenantOf s.here, va, dp := 0, join := none, data, cmp, ord, scope, src := .ctx s.gid s.cur.gen, use
    die := dieOf s.here, core := s.here, pc := s.cur.pc, next := s.cur.pc + wordOfNat s.sched.slot.len, rid := s.sched.rids
    early := false, fence := false, hops := 0 }

theorem State.issueRequest_alone {s : State} {kind : ReqKind} {va data cmp : W64} {ord : BitVec 2} {scope : BitVec 4} {use : Use}
    (h : (s.core s.here).paired = false ∨ isCtx0 s.gid = true) :
    s.issueRequest kind va data cmp ord scope use none = ((s.emptied use).parkOn (.reply s.sched.rids)).post
      (s.routed (s.requestOut kind va data cmp ord scope use)) := by
  rw [State.issueRequest]
  dsimp only [State.newRid]
  rw [State.foldl_markEmpty, State.send]
  dsimp only
  rw [State.sendOut_alone]
  · exact State.route_eq (r := s.requestOut kind va data cmp ord scope use) rfl
  · exact h

/-- Settles O7: the scopes code by code; an issued request as `issueRequest_alone` gives it. -/
theorem requestIssue : Obligations.RequestIssue := by
  unfold Obligations.RequestIssue
  refine ⟨fun s tenant wide sc => ⟨s.inScope_context tenant wide sc, s.inScope_operation tenant wide sc, s.inScope_router tenant wide sc,
    fun g die b hb => s.inScope_die tenant wide sc g die hb, s.inScope_sluice tenant wide sc, fun g b hb => s.inScope_module tenant wide sc g hb,
    fun g p b _ _ => s.inScope_remote tenant wide sc g p b, s.inScope_host tenant wide sc,
    fun p a b ha hb ha' hb' hsc => State.inScope_remote_remote p ha hb ha' hb' hsc⟩, fun s tenant w v sw sv rw_ rv => ?_, ?_⟩
  · rw [State.admitsPair, Bool.and_eq_true, State.inScope_scopeOf, State.inScope_scopeOf, wide_scopeOf, wide_scopeOf]
  · intro s kind va data cmp ord scope use hs halone
    have h := State.canonical_iff.1 hs
    have he : (s.emptied use).Canon := State.emptied_canon h
    dsimp only
    rw [State.issueRequest_alone halone]
    refine ⟨(State.ctx_parkOn he _ _).trans (if_pos rfl), fun g hg => (State.ctx_parkOn he _ g).trans (if_neg hg), fun k => ?_, ?_, rfl⟩
    · refine (spGet_foldl_spSet h.regEmpty _ k).trans ?_
      split <;> simp_all
    · rfl

end Sys2Proof.Machine
end


section
/-!
SUPPORT. What one step runs (spec/02 R38-R42, spec/20 R396) where the schedule names nothing (log 4): the slot at the head of the cycle's slots,
else the first step in flight that may be taken, else the next cycle.
-/

namespace Sys2Proof.Machine

open Sys2Proof

/-! ### What the turn brings -/

/-- The slot at the head of the cycle's slots has been taken. -/
def State.slotTaken (s : State) (rest : List Nat) : State := { s with sched := { s.sched with slots := rest } }

/-- The outcome of what a step begins. -/
def Begin.outcome : Begin → Host.Outcome State Fault Refusal
  | .run i s => exec i s
  | .done s => .next s

theorem step_eq (s : State) : step s = s.begin.outcome := by
  unfold step
  cases s.begin <;> rfl

theorem State.drop_choices {s : State} (h : s.sched.choices = []) : { s with sched := { s.sched with choices := s.sched.choices.drop 1 } } = s := by
  rw [h, List.drop_nil, ← h]

theorem step_slot {s : State} {g : Nat} {rest : List Nat} (hc : s.sched.choices = []) (hs : s.sched.slots = g :: rest) :
    step s = ((s.slotTaken rest).runSlot g).outcome := by
  have hturn : s.turn = .slot 0 := by simp [State.turn, hc, hs]
  rw [step_eq, State.begin, hturn, State.drop_choices hc]
  dsimp only
  rw [hs]
  rfl

theorem step_event {s : State} {i : Nat} {p : Pending} (hc : s.sched.choices = []) (hs : s.sched.slots = [])
    (hi : s.firstEligible [] 0 s.sched.agenda = some i) (hp : s.sched.agenda[i]? = some p) :
    step s = exec p.ev { s with sched := { s.sched with agenda := s.sched.agenda.eraseIdx i, used := s.portsOf p.ev ++ s.sched.used } } := by
  have hturn : s.turn = .event i := by simp [State.turn, hc, hs, hi]
  rw [step_eq, State.begin, hturn, State.drop_choices hc]
  dsimp only
  rw [hp]
  rfl

theorem step_cycle {s : State} (hc : s.sched.choices = []) (hs : s.sched.slots = []) (hi : s.firstEligible [] 0 s.sched.agenda = none) :
    step s = exec .issueSlot s := by
  have hturn : s.turn = .cycle := by simp [State.turn, hc, hs, hi]
  rw [step_eq, State.begin, hturn, State.drop_choices hc]
  rfl

/-! ### The slot of a context -/

theorem Ctx.stopDue_iff (c : Ctx) : c.stopDue = true ↔ (c.stop ≠ .none ∨ c.late ≠ []) ∧ c.mode ≠ .inTransit ∧ c.mode ≠ .idle := by
  simp [Ctx.stopDue, and_assoc]

theorem State.runSlot_stop {s : State} {g : Nat} (h : (s.ctx g).stopDue = true) : s.runSlot g = .done (s.takeStop g) := by
  rw [State.runSlot, if_pos h]

theorem State.runSlot_idle {s : State} {g : Nat} (h : (s.ctx g).stopDue = false) (hm : (s.ctx g).mode ≠ .ready ∨ (s.core (coreOf g)).halted = true) :
    s.runSlot g = .done s := by
  rw [State.runSlot, if_neg (by simp [h]), if_pos (by simpa using hm)]

theorem State.runSlot_issue {s : State} {g : Nat} (h : (s.ctx g).stopDue = false) (hm : (s.ctx g).mode = .ready)
    (hh : (s.core (coreOf g)).halted = false) : s.runSlot g = s.issue g := by
  rw [State.runSlot, if_neg (by simp [h]), if_neg (by simp [hm, hh])]

theorem State.runWords_ok {s : State} {g n : Nat} {ws : List W32} {again : Bool} {i : Instr} (h : decode ws = .ok (i, n)) :
    s.runWords g ws again = .run i (s.withSlot (slotOf g ws again)) := by
  rw [State.runWords, h]

theorem State.runWords_error {s : State} {g : Nat} {ws : List W32} {again : Bool} {e : DecodeError} (h : decode ws = .error e) :
    s.runWords g ws again = .run .illegalInstruction (s.withSlot (slotOf g ws again)) := by
  rw [State.runWords, h]

theorem State.issue_again {s : State} {g : Nat} (h : (s.ctx g).again ≠ []) :
    s.issue g = (s.setCtx g { s.ctx g with again := [] }).runWords g (s.ctx g).again true := by
  rw [State.issue, if_pos h]

theorem State.issue_words {s : State} {g : Nat} {ws : List W32} (h : (s.ctx g).again = [])
    (hf : (s.openCode g (s.ctx g).pc).fetch g (s.ctx g).pc = .ok (.words ws)) : s.issue g = (s.openCode g (s.ctx g).pc).runWords g ws false := by
  rw [State.issue, if_neg (by simp [h])]
  dsimp only
  rw [hf]

theorem State.issue_fault {s : State} {g : Nat} {e : Nat × W64} (h : (s.ctx g).again = [])
    (hf : (s.openCode g (s.ctx g).pc).fetch g (s.ctx g).pc = .error e) : s.issue g = .done ((s.openCode g (s.ctx g).pc).fetchFault g e) := by
  rw [State.issue, if_neg (by simp [h])]
  dsimp only
  rw [hf]

theorem State.fetch_generic {s : State} {g : Nat} {pc : W64} (h : isResidual pc = false) : s.fetch g pc = (s.fetchGeneric g pc).map .words := by
  rw [State.fetch, if_neg (by simp [h])]
  cases s.fetchGeneric g pc <;> rfl

theorem State.openCode_residual {s : State} {g : Nat} {pc : W64} (h : isResidual pc = true) : s.openCode g pc = s := by
  rw [State.openCode, if_pos (by simp [h])]

theorem exec_illegalInstruction (s : State) : exec .illegalInstruction s = .next (s.raise 0x01 (s.sched.slot.w0.zeroExtend 64)) := by
  have hw : s.word0 = s.sched.slot.w0.zeroExtend 64 := by
    apply BitVec.eq_of_toNat_eq
    simp [State.word0, wordOfNat]
  rw [← hw]
  rfl

/-! ### The next cycle (spec/02 R38, R40; spec/21 R407) -/

/-- A fold of steps that each leave what `f` reads leaves it. -/
theorem State.foldl_same {α β : Type} (f : State → β) {step : State → α → State} (h : ∀ s a, f (step s a) = f s) (l : List α) (s : State) :
    f (l.foldl step s) = f s := by
  induction l generalizing s with
  | nil => rfl
  | cons a l ih => rw [List.foldl_cons, ih, h]

/-- The clock has moved on, and no port has served. -/
def State.ticked (s : State) : State := { s with sched := { s.sched with now := s.sched.now + 1, used := [] } }
/-- The cores have counted their corrected words. -/
def State.counted (s : State) : State := (s.cpu.cores.filter (·.2.upsets ≠ 0)).foldl (fun s k => s.updCore k.1 Core.corrected) s
/-- The contexts that own the cycle and issue in it, or have a stop due. -/
def State.dueSlots (s : State) : List Nat := (s.cpu.ctxs.map (·.1)).filter s.ownsCycle
/-- The contexts that owe a rotation have passed it. -/
def State.rotated (s : State) : State :=
  ((s.cpu.ctxs.map (·.1)).filter fun g => (s.ctx g).mode = .ready && (s.ctx g).rot ≠ 0 && (s.cyclesOf (coreOf g)).toNat % 16 = ctxNo g).foldl
    (fun s g => s.updCtx g fun c => { c with rot := c.rot - 1 }) s
/-- The state of the next cycle. -/
def State.nextCycle (s : State) : State :=
  let u := s.ticked.counted
  { u.rotated with sched := { u.rotated.sched with slots := u.rotated.sched.slots ++ u.dueSlots } }

theorem exec_issueSlot (s : State) : exec .issueSlot s = .next s.nextCycle := rfl

theorem Core.corrected_corrected (k : Core) : k.corrected.corrected = k.corrected := by simp [Core.corrected]
theorem Core.corrected_of_none {k : Core} (h : k.upsets = 0) (hl : k.lbecc ≤ 2 ^ 32 - 1) : k.corrected = k := by
  cases k
  simp_all [Core.corrected]

theorem State.counted_canon {s : State} (h : s.Canon) : s.counted.Canon := h.foldl fun _ _ h => State.updCore_canon h

/-- A change that does nothing more the second time, made on the cores of a list in turn. -/
theorem State.core_foldl_updCore {α : Type} {f : Core → Core} (hf : ∀ k, f (f k) = f k) (key : α → Nat) {s : State} (h : s.Canon) (l : List α) (k : Nat) :
    (l.foldl (fun s x => s.updCore (key x) f) s).core k = if k ∈ l.map key then f (s.core k) else s.core k := by
  induction l generalizing s with
  | nil => rfl
  | cons x l ih =>
    rw [List.foldl_cons, ih (State.updCore_canon h), State.core_updCore h]
    by_cases hk : k = key x
    · simp [← hk, hf]
    · simp [hk]

/-- The cores that count a corrected word are those with an upset. -/
theorem State.mem_upset {s : State} (h : s.Canon) (k : Nat) : k ∈ (s.cpu.cores.filter (·.2.upsets ≠ 0)).map (·.1) ↔ (s.core k).upsets ≠ 0 := by
  simp only [List.mem_map, List.mem_filter, decide_eq_true_eq]
  constructor
  · rintro ⟨⟨j, c⟩, ⟨hm, hu⟩, rfl⟩
    rwa [State.core, spGet_mem h.cores hm]
  · intro hu
    by_cases hk : k ∈ s.cpu.cores.map (·.1)
    · obtain ⟨⟨j, c⟩, hm, rfl⟩ := List.mem_map.1 hk
      exact ⟨(j, c), ⟨hm, by rwa [State.core, spGet_mem h.cores hm] at hu⟩, rfl⟩
    · rw [State.core, spGet_none hk] at hu
      exact absurd rfl hu

theorem State.core_counted {s : State} (h : s.Canon) (k : Nat) :
    s.counted.core k = if (s.core k).upsets ≠ 0 then (s.core k).corrected else s.core k := by
  rw [State.counted, State.core_foldl_updCore Core.corrected_corrected Prod.fst h]
  exact if_congr (State.mem_upset h k) rfl rfl

theorem State.counted_kept {α : Type} (f : State → α) (h : ∀ s k g, f (State.updCore s k g) = f s) (s : State) : f s.counted = f s :=
  State.foldl_same f (fun _ _ => h _ _ _) _ s
theorem State.rotated_kept {α : Type} (f : State → α) (h : ∀ s g c, f (State.updCtx s g c) = f s) (s : State) : f s.rotated = f s :=
  State.foldl_same f (fun _ _ => h _ _ _) _ s

@[simp] theorem State.ctx_counted (s : State) (g : Nat) : s.counted.ctx g = s.ctx g :=
  State.counted_kept (fun s => s.ctx g) (fun _ _ _ => rfl) s

theorem State.nextCycle_now (s : State) : s.nextCycle.sched.now = s.sched.now + 1 := by
  show s.ticked.counted.rotated.sched.now = _
  rw [State.rotated_kept (·.sched.now) fun _ _ _ => rfl, State.counted_kept (·.sched.now) fun _ _ _ => rfl]
  rfl
theorem State.nextCycle_used (s : State) : s.nextCycle.sched.used = [] := by
  show s.ticked.counted.rotated.sched.used = _
  rw [State.rotated_kept (·.sched.used) fun _ _ _ => rfl, State.counted_kept (·.sched.used) fun _ _ _ => rfl]
  rfl
theorem State.nextCycle_mem (s : State) : s.nextCycle.mem = s.mem := by
  show s.ticked.counted.rotated.mem = _
  rw [State.rotated_kept (·.mem) fun _ _ _ => rfl, State.counted_kept (·.mem) fun _ _ _ => rfl]
  rfl
theorem State.nextCycle_regs (s : State) : s.nextCycle.cpu.regs = s.cpu.regs := by
  show s.ticked.counted.rotated.cpu.regs = _
  rw [State.rotated_kept (·.cpu.regs) fun _ _ _ => rfl, State.counted_kept (·.cpu.regs) fun _ _ _ => rfl]
  rfl
theorem State.nextCycle_slots (s : State) : s.nextCycle.sched.slots = s.sched.slots ++ s.ticked.counted.dueSlots := by
  show s.ticked.counted.rotated.sched.slots ++ _ = _
  rw [State.rotated_kept (·.sched.slots) fun _ _ _ => rfl, State.counted_kept (·.sched.slots) fun _ _ _ => rfl]
  rfl
theorem State.nextCycle_core (s : State) (k : Nat) : s.nextCycle.core k = s.ticked.counted.core k :=
  State.rotated_kept (fun s => s.core k) (fun _ _ _ => rfl) s.ticked.counted

/-- A context that owns the cycle has a stop due or is Ready. -/
theorem State.ownsCycle_cases {s : State} {g : Nat} (h : s.ownsCycle g = true) :
    (s.ctx g).stop ≠ .none ∨ (s.ctx g).late ≠ [] ∨ (s.ctx g).mode = .ready := by
  simp only [State.ownsCycle, Bool.and_eq_true, Bool.or_eq_true, Ctx.stopDue_iff, decide_eq_true_eq] at h
  obtain ⟨-, ⟨hdue, -⟩ | ⟨hready, -⟩⟩ := h
  · exact hdue.elim .inl fun hl => .inr (.inl hl)
  · exact .inr (.inr hready)

theorem State.mem_dueSlots {s : State} {g : Nat} (h : g ∈ s.ticked.counted.dueSlots) :
    (s.ctx g).stop ≠ .none ∨ (s.ctx g).late ≠ [] ∨ (s.ctx g).mode = .ready := by
  have hc : s.ticked.counted.ctx g = s.ctx g := State.ctx_counted s.ticked g
  rw [← hc]
  exact State.ownsCycle_cases (List.mem_filter.1 h).2

/-- After reset no context is Ready, so a Ready one is listed. -/
theorem State.listed_of_ready {s : State} {g : Nat} (h : (s.ctx g).mode = .ready) : g ∈ s.cpu.ctxs.map (·.1) := by
  by_contra hg
  have hr : (Ctx.rest g).mode = .ready := by rwa [State.ctx, spGet_none hg] at h
  unfold Ctx.rest at hr
  split at hr <;> cases hr

/-- Counting moves no clock and halts no core. -/
theorem State.counted_clock {s : State} (h : s.Canon) (k : Nat) :
    s.counted.cyclesOf k = s.cyclesOf k ∧ (s.counted.core k).halted = (s.core k).halted ∧ s.counted.rotationOpen k = s.rotationOpen k := by
  have hk : (s.counted.core k).skew = (s.core k).skew ∧ (s.counted.core k).halted = (s.core k).halted := by
    rw [State.core_counted h]
    split <;> exact ⟨rfl, rfl⟩
  have hn : s.counted.sched.now = s.sched.now := State.counted_kept (·.sched.now) (fun _ _ _ => rfl) s
  have hd : ∀ d, s.counted.die d = s.die d := fun d => State.counted_kept (·.die d) (fun _ _ _ => rfl) s
  have hcyc : s.counted.cyclesOf k = s.cyclesOf k := by rw [State.cyclesOf, State.cyclesOf, hn, hk.1]
  exact ⟨hcyc, hk.2, by rw [State.rotationOpen, State.rotationOpen, hcyc, hd]⟩

theorem State.dueSlots_of_ready {s : State} (h : s.Canon) {g : Nat} (hm : (s.ctx g).mode = .ready) (hr : (s.ctx g).rot = 0)
    (hc : (s.ticked.cyclesOf (coreOf g)).toNat % 16 = ctxNo g) (hh : (s.core (coreOf g)).halted = false)
    (ho : s.ticked.rotationOpen (coreOf g) = true) : g ∈ s.ticked.counted.dueSlots := by
  have hctx : s.ticked.counted.ctx g = s.ctx g := State.ctx_counted s.ticked g
  have hticked : s.ticked.Canon := h.other
  obtain ⟨hcyc, hhalt, hopen⟩ := State.counted_clock hticked (coreOf g)
  have hl : s.ticked.counted.cpu.ctxs = s.cpu.ctxs := State.counted_kept (·.cpu.ctxs) (fun _ _ _ => rfl) s.ticked
  have hh' : (s.ticked.core (coreOf g)).halted = false := hh
  refine List.mem_filter.2 ⟨hl ▸ State.listed_of_ready hm, ?_⟩
  simp only [State.ownsCycle, hctx, hcyc, hhalt, hopen, hc, ho, hh', hm, hr]
  simp

theorem State.nextCycle_core_eq {s : State} (h : s.Canon) (k : Nat) :
    ((s.core k).upsets = 0 → s.nextCycle.core k = s.core k) ∧ ((s.core k).upsets ≠ 0 → s.nextCycle.core k = (s.core k).corrected) := by
  rw [State.nextCycle_core, State.core_counted (s := s.ticked) h.other]
  exact ⟨fun hu => if_neg (not_not.2 hu), fun hu => if_pos hu⟩

/-! ### What a slot runs -/

theorem State.not_stopDue {s : State} {g : Nat}
    (h : ¬(((s.ctx g).stop ≠ .none ∨ (s.ctx g).late ≠ []) ∧ (s.ctx g).mode ≠ .inTransit ∧ (s.ctx g).mode ≠ .idle)) : (s.ctx g).stopDue = false := by
  rwa [← Ctx.stopDue_iff, Bool.not_eq_true] at h

/-- The step that takes the slot of a context that issues. -/
theorem step_issue {s : State} {g : Nat} {rest : List Nat} (hc : s.sched.choices = []) (hs : s.sched.slots = g :: rest)
    (hdue : ¬(((s.ctx g).stop ≠ .none ∨ (s.ctx g).late ≠ []) ∧ (s.ctx g).mode ≠ .inTransit ∧ (s.ctx g).mode ≠ .idle))
    (hm : (s.ctx g).mode = .ready) (hh : (s.core (coreOf g)).halted = false) : step s = ((s.slotTaken rest).issue g).outcome := by
  rw [step_slot hc hs, State.runSlot_issue (s := s.slotTaken rest) (State.not_stopDue hdue) hm hh]

/-- The words that the cluster holds for generic code, in the slot of their context. -/
theorem issue_generic {u : State} {g : Nat} (ha : (u.ctx g).again = []) (hr : isResidual (u.ctx g).pc = false) {ws : List W32}
    (hf : (u.openCode g (u.ctx g).pc).fetchGeneric g (u.ctx g).pc = .ok ws) :
    u.issue g = (u.openCode g (u.ctx g).pc).runWords g ws false := by
  refine State.issue_words ha ?_
  rw [State.fetch_generic hr, hf]
  rfl

/-- Settles O60: what the schedule brings (a slot, a step in flight, the next cycle), then what the slot's context runs, then what the next cycle leaves. -/
theorem stepRunsDecoded : Obligations.StepRunsDecoded := by
  intro s hc
  refine ⟨fun g rest hs => ⟨?_, ?_, fun hdue hm hh ha hr => ⟨?_, ?_, ?_⟩, ?_, ?_⟩, fun hs => ⟨fun i p hi hp => step_event hc hs hi hp, step_cycle hc hs⟩, ?_⟩
  · intro hdue hidle
    rw [step_slot hc hs, State.runSlot_idle (s := s.slotTaken rest) (State.not_stopDue hdue) hidle]
    rfl
  · intro hdue
    rw [step_slot hc hs, State.runSlot_stop (s := s.slotTaken rest) ((Ctx.stopDue_iff _).2 hdue)]
    rfl
  · intro ws i n hf hd
    rw [step_issue hc hs hdue hm hh, issue_generic (u := s.slotTaken rest) ha hr hf, State.runWords_ok hd]
    rfl
  · intro ws e hf hd
    refine ⟨?_, exec_illegalInstruction _⟩
    rw [step_issue hc hs hdue hm hh, issue_generic (u := s.slotTaken rest) ha hr hf, State.runWords_error hd]
    rfl
  · intro cause a hf
    rw [step_issue hc hs hdue hm hh, State.issue_fault (s := s.slotTaken rest) (e := (cause, a)) ha ((State.fetch_generic hr).trans (congrArg _ hf))]
    rfl
  · intro i n hdue hm hh ha hd
    rw [step_issue hc hs hdue hm hh, State.issue_again (s := s.slotTaken rest) ha, State.runWords_ok (ws := ((s.slotTaken rest).ctx g).again) hd]
    rfl
  · intro ws i n hdue hm hh ha hr hf hd
    have ho : (s.slotTaken rest).openCode g (s.ctx g).pc = s.slotTaken rest := State.openCode_residual hr
    have hi : (s.slotTaken rest).issue g = ((s.slotTaken rest).openCode g (s.ctx g).pc).runWords g ws false :=
      State.issue_words ha (by rw [show ((s.slotTaken rest).ctx g).pc = (s.ctx g).pc from rfl, ho, State.fetch, if_pos hr]; exact hf)
    rw [step_issue hc hs hdue hm hh, hi, ho, State.runWords_ok hd]
    rfl
  · refine ⟨s.nextCycle, exec_issueSlot s, s.nextCycle_now, s.nextCycle_used, s.nextCycle_mem, s.nextCycle_regs, fun g hg => ?_, fun hcan => ⟨?_, ?_⟩⟩
    · rw [State.nextCycle_slots] at hg
      exact (List.mem_append.1 hg).imp_right State.mem_dueSlots
    · intro g hm hr hcyc hh ho
      rw [State.nextCycle_slots]
      exact List.mem_append_right _ (State.dueSlots_of_ready (State.canonical_iff.1 hcan) hm hr hcyc hh ho)
    · exact State.nextCycle_core_eq (State.canonical_iff.1 hcan)

end Sys2Proof.Machine
end


section
/-!
SUPPORT. Children and tasks (spec/02 R63-R65): what an offer, a task queue and a slot-free notice do, case by case.
-/

namespace Sys2Proof.Machine

open Sys2Proof

/-! ### The first element that a condition picks -/

theorem takeFirst_head {α : Type} {p : α → Bool} {x : α} {xs : List α} (h : p x = true) : takeFirst p (x :: xs) = some (x, xs) := if_pos h

theorem takeFirst_append {α : Type} {p : α → Bool} {x : α} {pre rest : List α} (hpre : pre.any p = false) (h : p x = true) :
    takeFirst p (pre ++ x :: rest) = some (x, pre ++ rest) := by
  induction pre with
  | nil => exact takeFirst_head h
  | cons y pre ih =>
    rw [List.any_cons, Bool.or_eq_false_iff] at hpre
    rw [List.cons_append, takeFirst, if_neg (by simp [hpre.1]), ih hpre.2]
    rfl

/-! ### Offers of a child (R63) -/

/-- Where a core takes work: its free context and base. -/
def State.place? (s : State) (core n : Nat) : Option (Nat × Nat) := if s.takesWork core then s.roomFor core n else none

theorem State.place?_some {s : State} {core n : Nat} {p : Nat × Nat} (ht : s.takesWork core = true) (hr : s.roomFor core n = some p) :
    s.place? core n = some p := by rw [State.place?, if_pos ht, hr]
theorem State.place?_none {s : State} {core n : Nat} (h : s.takesWork core = false ∨ s.roomFor core n = none) : s.place? core n = none := by
  unfold State.place?
  split
  · exact h.resolve_left (by simp_all)
  · rfl

/-- What an offer to a core does. -/
theorem exec_spawnRequest {s : State} {m : SpawnMsg} {c : Nat} {cs : List Nat} (hl : s.launchCancelled m.task.launch = false) (hc : m.cores = c :: cs) :
    exec (.spawnRequest m) s = .next (match s.place? c m.regs with
      | some (g, b) => ((s.startCtx g b m.regs m.task.pc [m.task.s0, m.task.s1, m.task.s2, m.task.s3] .child (taskIdent m.task)).liveUp m.task.launch 1).post
          (.deposit (placedReply m true))
      | none => s.post (.spawnRequest { m with cores := cs })) := by
  show execSpawnRequest m s = _
  rw [execSpawnRequest, if_neg (by simp [hl]), hc]
  rfl

theorem exec_spawnRequest_nil {s : State} {m : SpawnMsg} (hl : s.launchCancelled m.task.launch = false) :
    exec (.spawnRequest { m with cores := [] }) s = .next (s.post (.deposit (placedReply m false))) := by
  show execSpawnRequest { m with cores := [] } s = _
  rw [execSpawnRequest, if_neg (by simp [hl])]
  rfl

/-! ### Tasks (R64, R65) -/

/-- A task reaches the queue of an uncoupled core that neither moved nor halted. -/
theorem exec_callatTaskArrival {s : State} {core : Nat} {t : Task} (hl : s.launchCancelled t.launch = false) (hf : (s.core core).fwd = none)
    (hh : (s.core core).halted = false) (hp : (s.core core).paired = false) : exec (.callatTaskArrival core t) s = .next (s.queueTask core t) := by
  show execCallatTaskArrival core t s = _
  have hc : s.taskCore core = core := if_neg (by simp [hp])
  unfold execCallatTaskArrival
  dsimp only
  rw [hc, if_neg (by simp [hl]), if_neg (by simp [hf]), if_neg (by simp [hh])]

/-- What the start of the oldest task does. -/
theorem exec_taskStart {s : State} {core : Nat} {t : Task} {rest : List Task} (h : (s.core core).tasks = t :: rest) :
    exec (.taskStart core) s = .next (match s.place? core 32 with
      | none => s
      | some (g, b) =>
        let u := (((s.updCore core fun k => { k with tasks := rest }).startCtx g b 32 t.pc [t.s0, t.s1, t.s2, t.s3] (.task t.gid t.gen t.d) (taskIdent t)).liveUp
          t.launch 1).slotFreeNotice core
        if rest = [] then u else u.post (.taskStart core)) := by
  show execTaskStart core s = _
  rw [execTaskStart, h]
  rfl

theorem exec_taskStart_nil {s : State} {core : Nat} (h : (s.core core).tasks = []) : exec (.taskStart core) s = .next s := by
  show execTaskStart core s = _
  rw [execTaskStart, h]

theorem State.slotFreeNotice_cons {s : State} {core : Nat} {t : Task} {rest : List Task} (h : (s.core core).callers = t :: rest) (ht : t.rid = 0) :
    s.slotFreeNotice core = (s.updCore core fun k => { k with callers := { t with rid := 1 } :: rest }).post (.taskQueueSlotFree t.gid t.gen) := by
  rw [State.slotFreeNotice, h, takeFirst_head (by simp [ht])]

/-- The caller that a notice is for, as its core has recorded it. -/
def toldCaller (gid gen : Nat) (y : Task) : Bool := y.gid = gid && y.gen = gen && y.rid = 1

theorem State.resend_found {s : State} {core : Nat} {k : Core} {t : Task} {pre rest : List Task} (hl : s.lives t.gid t.gen = true)
    (ht : t.rid = 1) (hk : s.cpu.cores.find? (fun x => x.2.callers.any (toldCaller t.gid t.gen)) = some (core, k)) (hc : k.callers = pre ++ t :: rest)
    (hpre : pre.any (toldCaller t.gid t.gen) = false) :
    s.resend t.gid t.gen = (s.updCore core fun k => { k with callers := pre ++ rest }).post (.callatTaskArrival core { t with rid := 0 }) := by
  have hmine : takeFirst (toldCaller t.gid t.gen) k.callers = some (t, pre ++ rest) := by
    rw [hc]
    exact takeFirst_append hpre (by simp [toldCaller, ht])
  unfold State.resend
  unfold toldCaller at hk hmine
  dsimp only
  rw [hk]
  dsimp only
  rw [hmine]
  exact if_pos hl

/-- Settles O45: offers, arrivals, starts and notices, each by what its step does. -/
theorem childrenAndTasks : Obligations.ChildrenAndTasks := by
  refine ⟨fun m c cs s hl hc => ⟨fun g b ht hr => ?_, fun hn => ?_, exec_spawnRequest_nil hl⟩,
    fun core t s hl hf hh hp => ⟨fun hroom => ?_, fun hfull => ?_⟩,
    fun core t rest s h => ⟨fun g b ht hr => ?_, fun hn => ?_⟩,
    fun core s h => exec_taskStart_nil h, fun core t rest s h ht => State.slotFreeNotice_cons h ht, ?_⟩
  · rw [exec_spawnRequest hl hc, State.place?_some ht hr]
    rfl
  · rw [exec_spawnRequest hl hc, State.place?_none hn]
  · rw [exec_callatTaskArrival hl hf hh hp, State.queueTask, if_pos hroom]
  · rw [exec_callatTaskArrival hl hf hh hp, State.queueTask, if_neg (Nat.not_lt.2 hfull)]
  · rw [exec_taskStart h, State.place?_some ht hr]
  · rw [exec_taskStart h, State.place?_none hn]
  · intro core k t pre rest s hm hl ht mine hk hc hpre
    have hmine : mine = toldCaller t.gid t.gen := by
      funext y
      simp [mine, toldCaller, Bool.and_assoc]
    rw [hmine] at hk hpre
    show execTaskQueueSlotFree t.gid t.gen s = _
    rw [execTaskQueueSlotFree, if_neg (by simp [hm]), State.resend_found hl ht hk hc hpre]

end Sys2Proof.Machine
end


section
/-!
SUPPORT. What a read of a word leaves as it is (spec/03 R95, spec/21 R405-R412): a slice that opens a word, or an agent that walks the tables to it,
changes memory, the record of retired frames and what is in flight, and nothing else of the module.
-/

namespace Sys2Proof.Machine

open Sys2Proof

/-- The module beside its memory and what is in flight. -/
def State.offMem (s : State) : Cpu × Sluices × Engines × Sparse Die × Firmware × Fabric × Boot × Nat :=
  (s.cpu, s.sluice, s.eng, s.dies, { s.fw with lastRetire := [] }, s.fab, s.boot, s.sched.now)

theorem State.offMem_cpu {s t : State} (h : t.offMem = s.offMem) : t.cpu = s.cpu := congrArg (·.1) h
theorem State.offMem_eng {s t : State} (h : t.offMem = s.offMem) : t.eng = s.eng := congrArg (·.2.2.1) h
theorem State.offMem_dies {s t : State} (h : t.offMem = s.offMem) : t.dies = s.dies := congrArg (·.2.2.2.1) h
theorem State.offMem_launches {s t : State} (h : t.offMem = s.offMem) : t.fw.launches = s.fw.launches := congrArg (·.2.2.2.2.1.launches) h
theorem State.offMem_tenants {s t : State} (h : t.offMem = s.offMem) : t.fw.tenants = s.fw.tenants := congrArg (·.2.2.2.2.1.tenants) h
theorem State.offMem_now {s t : State} (h : t.offMem = s.offMem) : t.sched.now = s.sched.now := congrArg (·.2.2.2.2.2.2.2) h
theorem State.offMem_params {s t : State} (h : t.offMem = s.offMem) : t.fw.params = s.fw.params := congrArg (·.2.2.2.2.1.params) h

/-! ### Slices -/

@[simp] theorem State.offMem_post (s : State) (ev : Instr) : (s.post ev).offMem = s.offMem := rfl
@[simp] theorem State.offMem_countEcc (s : State) (dp a b : Nat) : (s.countEcc dp a b).offMem = s.offMem := rfl
@[simp] theorem State.offMem_mendWord (s : State) (dp : Nat) : (s.mendWord dp).offMem = s.offMem := rfl
@[simp] theorem State.offMem_clearUpset (s : State) (dp : Nat) : (s.clearUpset dp).offMem = s.offMem := rfl
@[simp] theorem State.offMem_putWord (s : State) (dp : Nat) (v : W64) (t : BitVec 4) : (s.putWord dp v t).offMem = s.offMem := rfl
@[simp] theorem State.offMem_countAccess (s : State) (dp : Nat) : (s.countAccess dp).offMem = s.offMem := by
  unfold State.countAccess
  dsimp only
  split
  · split <;> rfl
  · rfl
@[simp] theorem State.offMem_reportFrame (s : State) (dp : Nat) : (s.reportFrame dp).offMem = s.offMem := by
  unfold State.reportFrame
  dsimp only
  split <;> rfl
@[simp] theorem State.offMem_switchToClean (s : State) (dp : Nat) : (s.switchToClean dp).offMem = s.offMem := by
  unfold State.switchToClean State.retireFrame
  dsimp only
  split <;> rfl
@[simp] theorem State.offMem_readStructure (s : State) (dp : Nat) : (s.readStructure dp).offMem = s.offMem := by
  unfold State.readStructure
  split
  · rfl
  · rfl
  · dsimp only
    split
    · rw [State.offMem_reportFrame]; rfl
    · rfl
@[simp] theorem State.offMem_decodeWord (s : State) (dp : Nat) : (s.decodeWord dp).offMem = s.offMem := by
  unfold State.decodeWord
  split
  · simp
  · split
    · rfl
    · rfl
    · dsimp only
      split <;> simp
    · rfl
@[simp] theorem State.offMem_open (s : State) (dp : Nat) : (s.open dp).offMem = s.offMem := by simp [State.open]

/-! ### Tables -/

@[simp] theorem State.offMem_entryAt (s : State) (a : Nat) : (s.entryAt a).1.offMem = s.offMem := State.offMem_open s a
@[simp] theorem State.offMem_walk3 (s : State) (table va : Nat) : (s.walk3 table va).1.offMem = s.offMem := State.offMem_entryAt s _
@[simp] theorem State.offMem_walk2 (s : State) (table va : Nat) : (s.walk2 table va).1.offMem = s.offMem := by
  have h := State.offMem_entryAt s (table + 8 * (va / 2 ^ 21 % 2 ^ 16))
  unfold State.walk2
  dsimp only
  split
  · exact h
  · split
    · rw [State.offMem_walk3, h]
    · exact h
    · exact h
@[simp] theorem State.offMem_walk (s : State) (tenant va : Nat) : (s.walk tenant va).1.offMem = s.offMem := by
  unfold State.walk
  split
  · rfl
  · dsimp only
    split
    · rw [State.offMem_walk2, State.offMem_entryAt]
    · exact State.offMem_entryAt s _
theorem State.offMem_tlbHit {s t : State} {sl tenant vpn : Nat} {e : TlbEntry} (h : s.tlbHit sl tenant vpn = some (e, t)) : t.offMem = s.offMem := by
  unfold State.tlbHit at h
  split at h
  · exact nomatch h
  · cases h; rfl
@[simp] theorem State.offMem_lookup (s : State) (sl tenant : Nat) (a : W64) : (s.lookup sl tenant a).2.offMem = s.offMem := by
  unfold State.lookup
  dsimp only
  split
  · exact State.offMem_tlbHit ‹_›
  · have hw := State.offMem_walk s tenant (vaOf a)
    split <;> rename_i he <;> rw [he] at hw <;> exact hw
@[simp] theorem State.offMem_xlat (s : State) (die tenant : Nat) (a : W64) (write : Bool) : (s.xlat die tenant a write).1.offMem = s.offMem := by
  have hl := State.offMem_lookup s (xlatSlice die a) tenant a
  unfold State.xlat
  split <;> rename_i he <;> rw [he] at hl <;> exact hl
@[simp] theorem State.offMem_look (s : State) (die tenant : Nat) (a : W64) : (s.look die tenant a).1.offMem = s.offMem := by
  have hx := State.offMem_xlat s die tenant a false
  unfold State.look
  split <;> rename_i he <;> rw [he] at hx
  · exact hx
  · exact (State.offMem_open _ _).trans hx

end Sys2Proof.Machine
end


section
/-!
SUPPORT. The specialiser's evaluation (spec/13 R308) changes the module only as it reads the static window: cores, registers, engines and launches
stay as they are.
-/

namespace Sys2Proof.Machine

open Sys2Proof

/-- The state that a window read leaves differs from `s` in memory alone. -/
def WindowRead.Keeps (s : State) : WindowRead → Prop
  | .value e _ | .stop e => e.s.offMem = s.offMem
  | .full => True

theorem Symbolic.window_keeps (e : Symbolic) (k : Kernel) (tenant : Nat) (a : W64) (n : Nat) (sg : Bool) : (e.window k tenant a n sg).Keeps e.s := by
  have hx := State.offMem_xlat e.s e.die tenant a false
  unfold Symbolic.window
  dsimp only
  split
  · rfl
  · generalize e.s.xlat e.die tenant a false = q at hx
    obtain ⟨s', _ | dp⟩ := q
    · exact hx
    · have ho : (s'.open (wordAt dp)).offMem = e.s.offMem := (State.offMem_open _ _).trans hx
      dsimp only
      split
      · exact ho
      · split
        · exact ho
        · split
          · trivial
          · exact ho

theorem Walk.load_keeps {w : Walk} {k : Kernel} {tenant : Nat} {st : SymState} {ws : List W32} {i : Instr} {f : GmFmt} {signed : Bool}
    {r : Walk × Option SymState × Option SymState} (h : w.load k tenant st ws i f signed = .ok r) : r.1.e.s.offMem = w.e.s.offMem := by
  unfold Walk.load at h
  dsimp only at h
  split at h
  · cases h; rw [Walk.pass_s]
  split at h
  · cases h; rw [Walk.pass_s]
  split at h
  · cases h; rw [Walk.pass_s]
  next v _ =>
    split at h
    · cases h; rw [Walk.pass_s]
    · have hw := Symbolic.window_keeps w.e k tenant (v + f.lit.getD 0) (sizeOf2 f.sz) signed
      generalize w.e.window _ _ _ _ _ = q at h hw
      cases q with
      | full => exact nomatch h
      | stop e => cases h; rw [Walk.pass_s]; exact hw
      | value e x => cases h; exact hw

theorem Walk.step_keeps {w : Walk} {k : Kernel} {tenant : Nat} {st : SymState} {ws : List W32} {r : Walk × Option SymState × Option SymState}
    (h : w.step k tenant st ws = .ok r) : r.1.e.s.offMem = w.e.s.offMem := by
  unfold Walk.step at h
  dsimp only at h
  split at h
  · cases h; rw [Walk.pass_s]
  · split at h
    case h_1 => cases h; rw [Symbolic.continue_s]
    case h_2 =>
      split at h
      · split at h
        · exact nomatch h
        · cases h; rw [Symbolic.resolve_s ‹_›]
      · rw [Walk.branch_s h]
    case h_3 =>
      split at h
      · split at h
        · split at h
          · exact nomatch h
          · cases h; rw [Symbolic.resolve_s ‹_›]
        · rw [Walk.branch_s h]
      · rw [Walk.branch_s h]
    case h_4 => rw [Walk.branch_s h]
    case h_5 => cases h; rw [Walk.rep_s]
    case h_6 => exact Walk.load_keeps h
    case h_7 => exact Walk.load_keeps h
    case h_8 =>
      split at h
      · cases h; rw [Walk.pass_s]
      · split at h
        · cases h; rfl
        · cases h; rw [Walk.pass_s]
        · cases h; rw [Walk.pass_s]

/-- The walk, whether it ends or falls back. -/
theorem Walk.run_keeps {s : State} {k : Kernel} {tenant n : Nat} {st : Option SymState} {rest : List SymState} {w : Walk} (hs : w.e.s.offMem = s.offMem) :
    (Walk.run k tenant n st rest w).2.e.s.offMem = s.offMem ∧
      ∀ w', (Walk.run k tenant n st rest w).1 = .ok w' → w'.e.s.offMem = s.offMem := by
  induction n generalizing st rest w with
  | zero => exact ⟨hs, fun _ e => nomatch e⟩
  | succ n ih =>
    cases st with
    | none =>
      cases rest with
      | nil =>
        rw [Walk.run]
        refine ⟨hs, fun w' e => ?_⟩
        dsimp only at e
        split at e
        · exact nomatch e
        · cases e; exact hs
      | cons st rest =>
        rw [Walk.run]
        split <;> exact ih hs
    | some st =>
      rw [Walk.run]
      split
      · exact ⟨hs, fun _ e => nomatch e⟩
      · split
        · exact ih ((congrArg State.offMem (Walk.idOf_s w st)).trans hs)
        · dsimp only
          split
          · exact ih ((congrArg State.offMem ((Symbolic.endPath_s _).trans (Symbolic.continue_s _ _))).trans hs)
          · split
            · exact ⟨hs, fun _ e => nomatch e⟩
            · split
              · exact ⟨hs, fun _ e => nomatch e⟩
              · next w1 next later hstep =>
                have h1 : w1.e.s.offMem = s.offMem := (Walk.step_keeps hstep).trans hs
                split <;> exact ih h1

theorem Kernel.evaluate_keeps (k : Kernel) (die tenant : Nat) (seeds : List W64) (s : State) :
    (k.evaluate die tenant seeds s).s.offMem = s.offMem := by
  unfold Kernel.evaluate
  dsimp only
  have h := Walk.run_keeps (s := s) (k := k) (tenant := tenant) (n := 5000000) (st := some (SymState.entry k seeds)) (rest := [])
    (w := { e := { s, die, pieces := [], bytes := 0, labels := [], reads := [], taken := [], steps := 0, kept := 0 }, targets := [] }) rfl
  generalize Walk.run _ _ _ _ _ _ = p at h ⊢
  split
  · exact h.1
  · have := h.2 _ ‹_›
    split <;> exact this

end Sys2Proof.Machine
end


section
/-!
SUPPORT. Where units start (spec/02 R61, R62; spec/13 R308-R310; spec/14 R323): packets, retries, the spans of a unit, launch packets, evaluations.
-/

namespace Sys2Proof.Machine

open Sys2Proof

/-! ### A core that takes a unit -/

theorem State.mem_both_self (s : State) (g : Nat) : g ∈ s.both g := by
  unfold State.both
  split <;> simp

/-- The context that a core has room in is one of its contexts 1 to 15, and Idle. -/
theorem State.roomFor_some {s : State} {c n : Nat} {p : Nat × Nat} (h : s.roomFor c n = some p) :
    ∃ i b, p = (16 * c + i, b) ∧ 1 ≤ i ∧ i ≤ 15 ∧ (s.ctx (16 * c + i)).mode = .idle ∧ lowestBase (s.blocks c) n = some b := by
  unfold State.roomFor at h
  split at h
  · next i is b hi hb =>
    cases h
    have hmem : i ∈ s.idleCtxs c := hi ▸ List.mem_cons_self
    obtain ⟨hrange, hidle⟩ := List.mem_filter.1 hmem
    rw [List.mem_range'_1] at hrange
    exact ⟨i, b, rfl, hrange.1, by omega, of_decide_eq_true (List.all_eq_true.1 hidle _ (s.mem_both_self _)), hb⟩
  · exact nomatch h

theorem State.takesUnit_room {s : State} {l : Launch} {k : Kernel} {hx hy c : Nat} (h : s.takesUnit l k hx hy c = true) :
    ∃ p, s.roomFor c (8 * k.regs8) = some p := by
  simp only [State.takesUnit, Bool.and_eq_true] at h
  exact Option.isSome_iff_exists.1 h.2

theorem Launch.share?_die {l : Launch} {die : Nat} {sh : Share} (h : l.share? die = some sh) : sh.die = die := by
  unfold Launch.share? at h
  simpa using List.find?_some h

/-- The core that the walk of a unit finds. -/
def State.walkFinds (s : State) (l : Launch) (sh : Share) (u : Nat) : Option Nat :=
  let hint := s.hintOf l sh.die (u - sh.base)
  (walkCores sh.die hint.1 hint.2 l.radius).find? (s.takesUnit l (l.kernel sh) hint.1 hint.2)

theorem State.walkUnit_eq {s : State} {l : Launch} {sh : Share} {u : Nat} (hr : l.replaced.contains u = false) :
    s.walkUnit l sh u = (s.walkFinds l sh u).map fun c => s.startUnit l (l.kernel sh) (sh.entry.getD (l.kernel sh).entry) u c := by
  unfold State.walkUnit State.walkFinds
  simp only [hr, Bool.false_eq_true, if_false]
  cases List.find? _ _ <;> rfl

theorem State.startUnit_eq {s : State} {l : Launch} {k : Kernel} {pc : W64} {u c g b : Nat} (hk : l.skip.contains u = false)
    (h : s.roomFor c (8 * k.regs8) = some (g, b)) :
    s.startUnit l k pc u c = (s.startCtx g b (8 * k.regs8) pc l.seeds .unit (l.ident u)).liveUp (some l.lid) 1 := by
  rw [State.startUnit, if_neg (by rw [hk]; exact Bool.false_ne_true), h]

/-- A packet whose unit is not yet placed: it starts on the core that its walk finds, or waits; then the next unit leaves. -/
theorem exec_placementPacket {s : State} {p : UnitPacket} {l : Launch} {sh : Share} (hl : s.launch? p.lid = some l) (hs : l.share? p.die = some sh)
    (hc : l.cancelled = false) (hk : l.skip.contains p.unit = false) (hr : l.replaced.contains p.unit = false) (hh : s.heldAt l p.die = false) :
    exec (.placementPacket p) s = .next ((match s.walkFinds l sh p.unit with
      | some c => s.startUnit l (l.kernel sh) (sh.entry.getD (l.kernel sh).entry) p.unit c
      | none => s.updDie p.die fun d => { d with waiting := d.waiting ++ [p] }).nextUnit p.lid p.die) := by
  show execPlacementPacket p s = _
  unfold execPlacementPacket
  rw [hl]
  dsimp only
  rw [hs]
  dsimp only
  rw [if_neg (by rw [hc]; exact Bool.false_ne_true), if_neg (by rw [hk]; exact Bool.false_ne_true), if_neg (by rw [hh]; exact Bool.false_ne_true),
    State.walkUnit_eq hr]
  cases s.walkFinds l sh p.unit <;> rfl

/-! ### A retry -/

/-- A change to a die that takes it neither out of service nor back. -/
theorem State.coreUsable_updDie {s : State} (h : s.Canon) {d : Nat} {f : Die → Die} (hh : (f (s.die d)).removedHeat = (s.die d).removedHeat)
    (hl : (f (s.die d)).removedLink = (s.die d).removedLink) (c : Nat) : (s.updDie d f).coreUsable c = s.coreUsable c := by
  unfold State.coreUsable
  rw [State.die_updDie h]
  split
  · next e => rw [hh, hl, e]
  · rfl

theorem State.inPartition_of_usable {s t : State} (ht : t.fw.tenants = s.fw.tenants) (hu : ∀ c, t.coreUsable c = s.coreUsable c) (tenant c : Nat) :
    t.inPartition tenant c = s.inPartition tenant c := by
  simp only [State.inPartition, State.tenant?, ht, hu]

/-- The room of a core rests on the cores alone. -/
theorem State.roomFor_of_cpu {s t : State} (h : t.cpu = s.cpu) (c n : Nat) : t.roomFor c n = s.roomFor c n := by
  obtain ⟨cpu, _⟩ := s
  obtain ⟨_, _⟩ := t
  subst h
  rfl
theorem State.unitsOn_of_cpu {s t : State} (h : t.cpu = s.cpu) (lid c : Nat) : t.unitsOn lid c = s.unitsOn lid c := by
  obtain ⟨cpu, _⟩ := s
  obtain ⟨_, _⟩ := t
  subst h
  rfl

/-- The walk of a unit rests on the cores, the tenants and the dies in service. -/
theorem State.walkFinds_of_usable {s t : State} (hcpu : t.cpu = s.cpu) (ht : t.fw.tenants = s.fw.tenants) (hu : ∀ c, t.coreUsable c = s.coreUsable c)
    (l : Launch) (sh : Share) (u : Nat) : t.walkFinds l sh u = s.walkFinds l sh u := by
  have hp : t.inPartition = s.inPartition := funext fun n => funext fun c => State.inPartition_of_usable ht hu n c
  have hhint : t.hintOf l sh.die (u - sh.base) = s.hintOf l sh.die (u - sh.base) := by simp only [State.hintOf, State.coresOn, hp]
  have htakes : ∀ hx hy, t.takesUnit l (l.kernel sh) hx hy = s.takesUnit l (l.kernel sh) hx hy := fun hx hy => funext fun c => by
    have hw : t.takesWork c = s.takesWork c := by simp only [State.takesWork, State.core, State.receives, hcpu, hu]
    rw [State.takesUnit, State.takesUnit, hw, hp, State.roomFor_of_cpu hcpu, State.unitsOn_of_cpu hcpu]
  simp only [State.walkFinds, hhint, htakes]

/-- The unit that alone waits at a die walks again. -/
theorem exec_placementRetry {s : State} {p : UnitPacket} {l : Launch} {sh : Share} (hcan : s.Canon) (hw : (s.die p.die).waiting = [p])
    (hl : s.launch? p.lid = some l) (hs : l.share? p.die = some sh) (hr : l.replaced.contains p.unit = false) (hh : s.heldAt l p.die = false) :
    exec (.placementRetry p.die) s = .next (match s.walkFinds l sh p.unit with
      | some c => (s.updDie p.die fun d => { d with waiting := [] }).startUnit l (l.kernel sh) (sh.entry.getD (l.kernel sh).entry) p.unit c
      | none => (s.updDie p.die fun d => { d with waiting := [] }).updDie p.die fun d => { d with waiting := d.waiting ++ [p] }) := by
  have hfinds : (s.updDie p.die fun d => { d with waiting := [] }).walkFinds l sh p.unit = s.walkFinds l sh p.unit :=
    State.walkFinds_of_usable (s := s) (t := s.updDie p.die fun d => { d with waiting := [] }) rfl rfl (fun c => State.coreUsable_updDie hcan rfl rfl c) l sh p.unit
  have hl' : (s.updDie p.die fun d => { d with waiting := [] }).launch? p.lid = some l := hl
  have hh' : (s.updDie p.die fun d => { d with waiting := [] }).heldAt l p.die = false := hh
  show execPlacementRetry p.die s = _
  unfold execPlacementRetry
  dsimp only
  rw [hw, State.retryUnits, State.retryUnits, hl']
  dsimp only
  rw [hs]
  dsimp only
  rw [if_neg (by rw [hh']; exact Bool.false_ne_true), State.walkUnit_eq hr, hfinds]
  cases s.walkFinds l sh p.unit <;> rfl

/-! ### The spans of a unit (R323) -/

/-- The place and extent of the tile with coordinate `c` along a dimension. -/
theorem tileSpan_eq (x t c : Nat) : tileSpan x t c = (if t = 0 then 0 else c * t, if t = 0 then x else min t (x - c * t)) := by
  unfold tileSpan
  split <;> rfl

/-- Tiles along the first `n` dimensions. -/
def tilesBefore (ds : List (Nat × Nat)) (n : Nat) : Nat := ((ds.take n).map fun d => tilesAlong d.1 d.2).foldl (· * ·) 1

theorem foldl_mul (l : List Nat) (a : Nat) : l.foldl (· * ·) a = a * l.prod := by
  induction l generalizing a with
  | nil => simp
  | cons x l ih => rw [List.foldl_cons, ih, List.prod_cons, Nat.mul_assoc]

theorem tilesBefore_cons (d : Nat × Nat) (ds : List (Nat × Nat)) (n : Nat) : tilesBefore (d :: ds) (n + 1) = tilesAlong d.1 d.2 * tilesBefore ds n := by
  simp only [tilesBefore, List.take_succ_cons, List.map_cons, foldl_mul, List.prod_cons, Nat.one_mul]

/-- Coordinate `d` of unit `u` is what is left of `u` past the tiles of the dimensions before. -/
theorem tileSpans_get (ds : List (Nat × Nat)) (u d : Nat) (h : d < ds.length) :
    (tileSpans u ds)[d]? = some (tileSpan (ds[d]).1 (ds[d]).2 (u / tilesBefore ds d % tilesAlong (ds[d]).1 (ds[d]).2)) := by
  induction ds generalizing u d with
  | nil => exact absurd h (Nat.not_lt_zero _)
  | cons x ds ih =>
    cases d with
    | zero => simp [tileSpans, tilesBefore]
    | succ d =>
      rw [tileSpans, List.getElem?_cons_succ, ih _ _ (Nat.lt_of_succ_lt_succ h), tilesBefore_cons, Nat.div_div_eq_div_mul]
      rfl

theorem Launch.ident_inside {l : Launch} {u d : Nat} (hd : d < 4) (hu : u < tilesBefore l.dims 4) :
    (l.ident u).o[d]? = some (BitVec.ofNat 32 (tileSpan (l.dims.getD d (0, 0)).1 (l.dims.getD d (0, 0)).2
        (u / tilesBefore l.dims d % tilesAlong (l.dims.getD d (0, 0)).1 (l.dims.getD d (0, 0)).2)).1) ∧
      (l.ident u).e[d]? = some (BitVec.ofNat 32 (tileSpan (l.dims.getD d (0, 0)).1 (l.dims.getD d (0, 0)).2
        (u / tilesBefore l.dims d % tilesAlong (l.dims.getD d (0, 0)).1 (l.dims.getD d (0, 0)).2)).2) := by
  have hlen : d < l.dims.length := hd
  have hall : tilesBefore l.dims 4 = (l.dims.map fun d => tilesAlong d.1 d.2).foldl (· * ·) 1 := rfl
  have hget : l.dims.getD d (0, 0) = l.dims[d] := List.getD_eq_getElem _ _ hlen
  rw [hall] at hu
  simp only [Launch.ident, if_pos hu, List.getElem?_map, tileSpans_get l.dims u d hlen, hget, Option.map_some, and_self]

theorem Launch.ident_inside_spans {l : Launch} {u d : Nat} (hd : d < 4) (hu : u < tilesBefore l.dims 4) :
    let x := l.dims.getD d (0, 0)
    let c := u / tilesBefore l.dims d % tilesAlong x.1 x.2
    (l.ident u).o[d]? = some (BitVec.ofNat 32 (if x.2 = 0 then 0 else c * x.2)) ∧
      (l.ident u).e[d]? = some (BitVec.ofNat 32 (if x.2 = 0 then x.1 else min x.2 (x.1 - c * x.2))) := by
  have h := Launch.ident_inside hd hu
  rwa [tileSpan_eq] at h

theorem Launch.ident_outside {l : Launch} {u d : Nat} (hd : d < 4) (hu : tilesBefore l.dims 4 ≤ u) : (l.ident u).o[d]? = some 0 ∧ (l.ident u).e[d]? = some 0 := by
  have hall : tilesBefore l.dims 4 = (l.dims.map fun d => tilesAlong d.1 d.2).foldl (· * ·) 1 := rfl
  rw [hall] at hu
  simp only [Launch.ident, if_neg (Nat.not_lt.2 hu)]
  interval_cases d <;> exact ⟨rfl, rfl⟩

/-! ### Launch packets and evaluations (R308) -/

theorem exec_launchPacket {s u : State} {die lid : Nat} {l : Launch} {sh : Share} {k : Kernel} (hl : s.launch? lid = some l) (hs : l.share? die = some sh)
    (hc : l.cancelled = false) (hk : s.readKernel die l.tenant l.kernelAddr = (k, u)) :
    exec (.launchPacket die lid) s = .next ((u.updShare lid die fun sh => { sh with code := k.code }).askSpec die lid (u.keyOf l k) k) := by
  show execLaunchPacket die lid s = _
  unfold execLaunchPacket
  rw [hl]
  dsimp only
  rw [if_neg (by rw [hc]; exact Bool.false_ne_true), hs]
  dsimp only
  rw [hk]
  rfl

theorem State.askSpec_found {s v : State} {die lid : Nat} {key : SpecKey} {k : Kernel} {e : SpecEntry} (h : s.specLookup die key = (v, some e)) :
    s.askSpec die lid key k = v.specAnswer die lid (e.start die k) := by
  rw [State.askSpec, h]

theorem State.askSpec_absent {s v : State} {die lid : Nat} {key : SpecKey} {k : Kernel} (h : s.specLookup die key = (v, none)) :
    s.askSpec die lid key k =
      (let w := v.updDie die fun d => { d with evaluating := d.evaluating ++ [(key, lid)] }
       if (v.die die).evaluating.any (fun p => p.1 = key) then w else w.post (.specialiserEvaluation die lid)) := by
  rw [State.askSpec, h]

/-- The evaluation of a launch that has its entry already ends nothing. -/
theorem exec_specialiserEvaluation_entered {s : State} {die lid : Nat} {l : Launch} {sh : Share} (hl : s.launch? lid = some l) (hs : l.share? die = some sh)
    (he : sh.entry ≠ none) : exec (.specialiserEvaluation die lid) s = .next s := by
  show execSpecialiserEvaluation die lid s = _
  have hsh : s.share? lid die = some sh := by rw [State.share?, hl]; exact hs
  rw [execSpecialiserEvaluation, hsh, if_neg]
  simpa using he

/-- The evaluation that alone is under way at a die. -/
theorem exec_specialiserEvaluation {s v : State} {die lid : Nat} {l : Launch} {sh : Share} (hl : s.launch? lid = some l) (hs : l.share? die = some sh)
    (he : sh.entry = none) (hev : (s.die die).evaluating = [(s.keyOf l (l.kernel sh), lid)])
    (hf : (s.updDie die fun x => { x with evaluating := [] }).specLookup die (s.keyOf l (l.kernel sh)) = (v, none)) :
    exec (.specialiserEvaluation die lid) s = .next ((v.evaluateKernel die (s.keyOf l (l.kernel sh)) (l.kernel sh) l.seeds).2.specAnswer die lid
      (v.evaluateKernel die (s.keyOf l (l.kernel sh)) (l.kernel sh) l.seeds).1) := by
  have hsh : s.share? lid die = some sh := by rw [State.share?, hl]; exact hs
  have hout : (s.updDie die fun d => { d with evaluating := d.evaluating.filter fun p => p.1 ≠ s.keyOf l (l.kernel sh) }) =
      s.updDie die fun x => { x with evaluating := [] } := by
    rw [State.updDie, State.updDie, hev]
    simp
  have hspec : (s.updDie die fun x => { x with evaluating := [] }).specialise die (s.keyOf l (l.kernel sh)) (l.kernel sh) l.seeds =
      v.evaluateKernel die (s.keyOf l (l.kernel sh)) (l.kernel sh) l.seeds := by rw [State.specialise, hf]
  show execSpecialiserEvaluation die lid s = _
  rw [execSpecialiserEvaluation, hsh, if_pos (by simp [he]), State.endEvaluation, hl]
  dsimp only
  rw [hs]
  dsimp only
  rw [hout, hspec, hev]
  simp [State.postAll]

/-! ### What an evaluation leaves and enters (R308, R309) -/

theorem State.updDie_keeps (s : State) (die : Nat) (f : Die → Die) :
    (s.updDie die f).cpu = s.cpu ∧ (s.updDie die f).fw.launches = s.fw.launches ∧ (s.updDie die f).eng = s.eng := ⟨rfl, rfl, rfl⟩

/-- An entry that is put into a die's cache has the lowest free index, and stands in the list. -/
theorem State.specInsert_some {s t : State} {die idx : Nat} {e : SpecEntry} (h : s.specInsert die e = some (idx, t)) :
    (t.cpu = s.cpu ∧ t.fw.launches = s.fw.launches ∧ t.eng = s.eng) ∧ { e with index := idx } ∈ (t.die die).spec := by
  unfold State.specInsert at h
  split at h
  · exact nomatch h
  · next lru _ =>
    cases h
    refine ⟨State.updDie_keeps .., ?_⟩
    rw [State.die, State.updDie, spGet_spSet_listed (fun he => by simpa [Die.init] using congrArg Die.spec he)]
    exact List.mem_cons_self

/-- A fallback is entered into the cache if it has room. -/
theorem State.evaluateKernel_error {s : State} {die : Nat} {key : SpecKey} {k : Kernel} {seeds : List W64} {r : Evaluated} {why : Fallback}
    (hr : k.evaluate die key.tenant seeds s = r) (h : r.result = .error why) :
    s.evaluateKernel die key k seeds = (k.entry, (((r.s.countSpec die r.kept (some why.code)).specInsert die
      { index := 0, key, reads := r.reads, generic := true, code := [], map := [] }).map (·.2)).getD (r.s.countSpec die r.kept (some why.code))) := by
  unfold State.evaluateKernel
  dsimp only
  rw [hr, h]
  dsimp only
  cases State.specInsert _ _ _ <;> rfl

/-- So is residual code, which the units then start at. -/
theorem State.evaluateKernel_ok {s : State} {die : Nat} {key : SpecKey} {k : Kernel} {seeds : List W64} {r : Evaluated} {x : List Byte × List BackMap}
    (hr : k.evaluate die key.tenant seeds s = r) (h : r.result = .ok x) :
    s.evaluateKernel die key k seeds = (((r.s.countSpec die r.kept none).specInsert die
      { index := 0, key, reads := r.reads, generic := false, code := x.1, map := x.2 }).map fun p => (residualPc die p.1 0, p.2)).getD
        (k.entry, r.s.countSpec die r.kept none) := by
  unfold State.evaluateKernel
  dsimp only
  rw [hr, h]
  dsimp only
  cases State.specInsert _ _ _ <;> rfl

theorem State.countSpec_keeps {s u : State} (h : u.offMem = s.offMem) (die kept : Nat) (fall : Option Nat) :
    (u.countSpec die kept fall).cpu = s.cpu ∧ (u.countSpec die kept fall).fw.launches = s.fw.launches ∧ (u.countSpec die kept fall).eng = s.eng :=
  ⟨State.offMem_cpu (t := u) h, State.offMem_launches (t := u) h, State.offMem_eng (t := u) h⟩

/-- Cores, launches and engines through an evaluation and its entry. -/
theorem State.evaluateKernel_keeps (s : State) (die : Nat) (key : SpecKey) (k : Kernel) (seeds : List W64) :
    (s.evaluateKernel die key k seeds).2.cpu = s.cpu ∧ (s.evaluateKernel die key k seeds).2.fw.launches = s.fw.launches ∧
      (s.evaluateKernel die key k seeds).2.eng = s.eng := by
  have hoff := Kernel.evaluate_keeps k die key.tenant seeds s
  generalize hr : k.evaluate die key.tenant seeds s = r at hoff
  cases hres : r.result with
  | error why =>
    obtain ⟨hcpu, hl, he⟩ := State.countSpec_keeps hoff die r.kept (some why.code)
    rw [State.evaluateKernel_error hr hres]
    cases hi : State.specInsert _ _ _ with
    | none => exact ⟨hcpu, hl, he⟩
    | some p =>
      obtain ⟨⟨icpu, il, ie⟩, -⟩ := State.specInsert_some hi
      exact ⟨icpu.trans hcpu, il.trans hl, ie.trans he⟩
  | ok x =>
    obtain ⟨hcpu, hl, he⟩ := State.countSpec_keeps hoff die r.kept none
    rw [State.evaluateKernel_ok hr hres]
    cases hi : State.specInsert _ _ _ with
    | none => exact ⟨hcpu, hl, he⟩
    | some p =>
      obtain ⟨⟨icpu, il, ie⟩, -⟩ := State.specInsert_some hi
      exact ⟨icpu.trans hcpu, il.trans hl, ie.trans he⟩

theorem State.evaluateKernel_fallback {s : State} {die : Nat} {key : SpecKey} {k : Kernel} {seeds : List W64} {why : Fallback}
    (h : (k.evaluate die key.tenant seeds s).result = .error why) : (s.evaluateKernel die key k seeds).1 = k.entry := by
  rw [State.evaluateKernel_error rfl h]

/-- Residual code that is entered starts at offset 0 of its entry; without room for it the units run the generic code. -/
theorem State.evaluateKernel_entry {s : State} {die : Nat} {key : SpecKey} {k : Kernel} {seeds : List W64} {x : List Byte × List BackMap}
    (h : (k.evaluate die key.tenant seeds s).result = .ok x) :
    (s.evaluateKernel die key k seeds).1 = k.entry ∨ ∃ e ∈ ((s.evaluateKernel die key k seeds).2.die die).spec, e.key = key ∧ e.code = x.1 ∧ e.map = x.2 ∧
      (s.evaluateKernel die key k seeds).1 = residualPc die e.index 0 := by
  generalize hr : k.evaluate die key.tenant seeds s = r at h
  rw [State.evaluateKernel_ok hr h]
  cases hi : State.specInsert _ _ _ with
  | none => exact .inl rfl
  | some p =>
    obtain ⟨-, hmem⟩ := State.specInsert_some hi
    exact .inr ⟨_, hmem, rfl, rfl, rfl, rfl⟩

/-- Settles O44: the packet and the retry by what the walk finds, then spans, launch packets, evaluations. -/
theorem unitsPlaced : Obligations.UnitsPlaced := by
  refine ⟨fun p l sh s hl hs hc hk hr hh => ?_, fun l u d hd => ?_, fun die lid l sh s hl hs hc => ?_, fun die lid l sh s hl hs => ?_, fun die key k seeds s => ?_⟩
  · have hfound : s.walkFinds l sh p.unit = (walkCores p.die (s.hintOf l p.die (p.unit - sh.base)).1 (s.hintOf l p.die (p.unit - sh.base)).2 l.radius).find?
        (s.takesUnit l (l.kernel sh) (s.hintOf l p.die (p.unit - sh.base)).1 (s.hintOf l p.die (p.unit - sh.base)).2) := by
      rw [State.walkFinds, Launch.share?_die hs]
    intro k hint found waits
    have hf : found = s.walkFinds l sh p.unit := hfound.symm
    rw [hf]
    refine ⟨fun c hw => ?_, fun hn => ?_, fun hcan hwait hn => ?_, fun c hcan hwait hw => ?_⟩
    · obtain ⟨q, hroom⟩ := State.takesUnit_room (List.find?_some hw)
      obtain ⟨i, b, rfl, h1, h15, hidle, -⟩ := State.roomFor_some hroom
      refine ⟨i, b, hroom, h1, h15, hidle, ?_⟩
      rw [exec_placementPacket hl hs hc hk hr hh, hw]
      dsimp only
      rw [State.startUnit_eq hk hroom]
    · rw [exec_placementPacket hl hs hc hk hr hh, hn]
    · rw [exec_placementRetry (State.canonical_iff.1 hcan) hwait hl hs hr hh, hn]
    · rw [exec_placementRetry (State.canonical_iff.1 hcan) hwait hl hs hr hh, hw]
  · exact ⟨rfl, rfl, rfl, fun hu => Launch.ident_inside_spans hd hu, fun hu => Launch.ident_outside hd hu⟩
  · generalize hk : s.readKernel die l.tenant l.kernelAddr = q
    obtain ⟨k, u⟩ := q
    dsimp only
    generalize hv : (u.updShare lid die fun sh => { sh with code := k.code }).specLookup die (u.keyOf l k) = q
    obtain ⟨v, found⟩ := q
    dsimp only
    rw [exec_launchPacket hl hs hc hk]
    refine ⟨fun e he => ?_, fun hn => ?_⟩
    · subst he
      rw [State.askSpec_found hv, SpecEntry.start]
    · subst hn
      rw [State.askSpec_absent hv]
  · refine ⟨exec_specialiserEvaluation_entered hl hs, fun he hev hn => ?_⟩
    have h := exec_specialiserEvaluation hl hs he hev (Prod.ext rfl hn)
    dsimp only at h ⊢
    exact h
  · have hkeeps := s.evaluateKernel_keeps die key k seeds
    have hfall := fun why => State.evaluateKernel_fallback (s := s) (die := die) (key := key) (k := k) (seeds := seeds) (why := why)
    have hentry := fun x => State.evaluateKernel_entry (s := s) (die := die) (key := key) (k := k) (seeds := seeds) (x := x)
    generalize s.evaluateKernel die key k seeds = q at hkeeps hfall hentry ⊢
    obtain ⟨hcpu, hlaunches, heng⟩ := hkeeps
    exact ⟨hcpu, hlaunches, heng, hfall, hentry⟩

end Sys2Proof.Machine
end


section
/-!
SUPPORT. What lets a launch begin (spec/02 R52, R54; spec/14 R316, R322, R324, R438): idle reports, counter waits, members that have advanced,
dispatch passes with their shares, the queue scanner.
-/

namespace Sys2Proof.Machine

open Sys2Proof

/-! ### Messages of the firmware column -/

theorem State.cross_admitted {s : State} {into : Bool} {cls dp : Nat} {f : State → State} (h : s.admits into cls dp = true) : s.cross into cls dp f = f s :=
  if_pos h
theorem State.cross_dropped {s : State} {into : Bool} {cls dp : Nat} {f : State → State} (h : s.admits into cls dp = false) :
    s.cross into cls dp f = s.firewallDrop := if_neg (by rw [h]; exact Bool.false_ne_true)

/-- A drop at the boundary tells the tenants and changes no launch. -/
theorem State.launches_firewallDrop (s : State) : s.firewallDrop.fw.launches = s.fw.launches := by
  unfold State.firewallDrop
  apply State.foldl_same fun s => s.fw.launches
  intro s t
  rfl
theorem State.launches_fwOpen (s : State) (dp : Nat) : (s.fwOpen dp).1.fw.launches = s.fw.launches := by
  have ho : (s.open (wordAt dp)).fw.launches = s.fw.launches := State.offMem_launches (State.offMem_open s _)
  unfold State.fwOpen
  split
  · exact s.launches_firewallDrop
  · dsimp only
    split
    · exact (State.launches_firewallDrop _).trans ho
    · exact ho
theorem State.launches_fwRead (s : State) (tenant : Nat) (a : W64) : (s.fwRead tenant a).1.fw.launches = s.fw.launches := by
  have hx := State.offMem_launches (State.offMem_xlat s 0 tenant a false)
  unfold State.fwRead State.fwLook
  dsimp only
  split <;> rename_i he <;> rw [he] at hx
  · exact hx
  · exact (State.launches_fwOpen _ _).trans hx

/-! ### Idle reports (R324) -/

/-- A report that a rule lets in starts a pass, or, within 1,024 cycles of the last, one when they are over. -/
theorem State.idleReport_eq {s : State} {tenant : Nat} {t : Tenant} (h : s.tenant? tenant = some t) :
    s.idleReport tenant = if s.admits true 3 0 then
      (match t.lastIdle with
        | some l => if s.sched.now < l + 1024 then
            (if t.deferred then s else (s.updTenant tenant fun t => { t with deferred := true }).postIn (l + 1024 - s.sched.now) .idleReportDeferralEnd)
          else (s.updTenant tenant fun t => { t with lastIdle := some s.sched.now }).post (.dispatchPass tenant)
        | none => (s.updTenant tenant fun t => { t with lastIdle := some s.sched.now }).post (.dispatchPass tenant))
      else s.firewallDrop := by
  rw [State.idleReport, h]
  rfl

theorem State.idleReport_now {s : State} {tenant : Nat} {t : Tenant} (h : s.tenant? tenant = some t) (ha : s.admits true 3 0 = true)
    (hl : t.lastIdle = none ∨ ∃ l, t.lastIdle = some l ∧ l + 1024 ≤ s.sched.now) :
    s.idleReport tenant = (s.updTenant tenant fun t => { t with lastIdle := some s.sched.now }).post (.dispatchPass tenant) := by
  rw [State.idleReport_eq h, if_pos ha]
  obtain hl | ⟨l, hl, hle⟩ := hl
  · rw [hl]
  · rw [hl]
    exact if_neg (Nat.not_lt.2 hle)

/-- A tenant's deferred reports start their pass. -/
def State.endDeferral (s : State) (t : Tenant) : State :=
  (s.updTenant t.num fun t => { t with deferred := false, lastIdle := some s.sched.now }).post (.dispatchPass t.num)

/-- One pass for each tenant whose deferral ends. -/
theorem State.foldl_endDeferral (l : List Tenant) (s : State) :
    (l.foldl State.endDeferral s).mem = s.mem ∧ (l.foldl State.endDeferral s).cpu = s.cpu ∧
      (l.foldl State.endDeferral s).sched.agenda = s.sched.agenda ++ l.map fun x => { due := s.sched.now, ev := Instr.dispatchPass x.num } := by
  induction l generalizing s with
  | nil => exact ⟨rfl, rfl, (List.append_nil _).symm⟩
  | cons t l ih =>
    obtain ⟨hm, hc, ha⟩ := ih (s.endDeferral t)
    refine ⟨hm, hc, ha.trans ?_⟩
    show (s.sched.agenda ++ [_]) ++ _ = _
    rw [List.append_assoc]
    rfl

/-! ### Grants of the column's own waits cross the boundary (R318) -/

theorem exec_grant_admitted {s : State} {w : FwWait} (hw : crossesIn w = true) (ha : s.admits true 1 0 = true) :
    exec (.firmwareCounterWaitGrant w) s = .next (s.takeWait w) := by
  show Host.Outcome.next (if crossesIn w then s.cross true 1 0 fun s => s.takeWait w else s.takeWait w) = _
  rw [if_pos hw, State.cross_admitted ha]
theorem exec_grant_dropped {s : State} {w : FwWait} (hw : crossesIn w = true) (ha : s.admits true 1 0 = false) :
    exec (.firmwareCounterWaitGrant w) s = .next s.firewallDrop := by
  show Host.Outcome.next (if crossesIn w then s.cross true 1 0 fun s => s.takeWait w else s.takeWait w) = _
  rw [if_pos hw, State.cross_dropped ha]

/-! ### The grant of a predecessor (R438) -/

/-- A launch whose last predecessor has advanced enters the pending list. -/
theorem State.takeWait_pred {s u : State} {lid k : Nat} {l : Launch} {v : W64} (hl : s.launch? lid = some l)
    (hr : s.fwRead l.tenant (l.word (0x60 + 8 * k) + 8) = (u, v)) :
    s.takeWait (.pred lid k) = if v.getLsbD 0 then u.cancelLaunch lid else ((u.updLaunch lid fun l => { l with waits := l.waits - 1 }).tryBegin lid).passFor l.tenant u := by
  have hbits : s.statusBits l.tenant (l.word (0x60 + 8 * k)) = (u, v.getLsbD 0, v.getLsbD 1, v.getLsbD 2) := by
    rw [State.statusBits, hr]
    rfl
  rw [State.takeWait, hl]
  dsimp only
  rw [hbits]
  cases v.getLsbD 0 <;> rfl

theorem State.launch?_updLaunch {s : State} {lid : Nat} {l : Launch} {f : Launch → Launch} (hf : ∀ x, (f x).lid = x.lid) (h : s.launch? lid = some l) :
    (s.updLaunch lid f).launch? lid = some (f l) := by
  show (mapWhere (fun l : Launch => l.lid = lid) f s.fw.launches).find? (fun l => l.lid = lid) = _
  unfold State.launch? at h
  revert h
  induction s.fw.launches with
  | nil => intro h; cases h
  | cons x xs ih =>
    intro h
    by_cases hx : x.lid = lid
    · rw [List.find?_cons_of_pos (by simpa using hx)] at h
      cases h
      simp [mapWhere, hx, hf]
    · rw [List.find?_cons_of_neg (by simpa using hx)] at h
      have := ih h
      simpa [mapWhere, hx] using this

/-- A launch of units that waits for nothing more, in a phase that has begun. -/
theorem State.tryBegin_pending {s : State} {lid : Nat} {l : Launch} (h : s.launch? lid = some l) (hs : l.state = .blocked) (hw : l.waits = 0)
    (hg : s.graphBegun l.tenant l.graph = true) (hn : l.n ≠ 0) : s.tryBegin lid = s.updLaunch lid fun l => { l with state := .pending } := by
  rw [State.tryBegin, h]
  dsimp only
  rw [if_pos (by simp [hs, hw, hg]), if_neg hn]

theorem State.tryBegin_empty {s : State} {lid : Nat} {l : Launch} (h : s.launch? lid = some l) (hs : l.state = .blocked) (hw : l.waits = 0) (hn : l.n = 0) :
    s.tryBegin lid = (s.updLaunch lid fun l => { l with state := .released }).checkLaunch none lid := by
  rw [State.tryBegin, h]
  dsimp only
  rw [if_pos (by simp [hs, hw, hn]), if_pos hn]

/-- A pass that follows changes nothing but what is in flight. -/
theorem State.passFor_keeps (s : State) (tenant : Nat) (before : State) :
    (s.passFor tenant before).cpu = s.cpu ∧ (s.passFor tenant before).mem = s.mem ∧ (s.passFor tenant before).dies = s.dies ∧
      (s.passFor tenant before).fw = s.fw := by
  unfold State.passFor
  dsimp only
  split <;> exact ⟨rfl, rfl, rfl, rfl⟩

theorem mapWhere_mapWhere {α : Type} {p : α → Bool} {f g : α → α} (hf : ∀ x, p (f x) = p x) (l : List α) :
    mapWhere p g (mapWhere p f l) = mapWhere p (fun x => g (f x)) l := by
  unfold mapWhere
  rw [List.map_map]
  refine List.map_congr_left fun x _ => ?_
  by_cases hx : p x = true
  · simp [hx, hf]
  · simp [hx]

/-- The launch becomes pending once its last predecessor's grant has come. -/
theorem State.grant_pending {u : State} {lid : Nat} {l : Launch} (h : u.launch? lid = some l) (hw : l.waits = 1) (hs : l.state = .blocked)
    (hg : u.graphBegun l.tenant l.graph = true) (hn : l.n ≠ 0) :
    (u.updLaunch lid fun l => { l with waits := l.waits - 1 }).tryBegin lid = u.updLaunch lid fun l => { l with waits := l.waits - 1, state := .pending } := by
  have hl := State.launch?_updLaunch (f := fun l => { l with waits := l.waits - 1 }) (fun _ => rfl) h
  rw [State.tryBegin_pending hl hs (by simp [hw]) hg hn]
  unfold State.updLaunch
  dsimp only
  rw [mapWhere_mapWhere (f := fun l : Launch => { l with waits := l.waits - 1 }) fun _ => rfl]

theorem mapWhere_if {α : Type} {p : α → Prop} [DecidablePred p] {f : α → α} (l : List α) :
    mapWhere (fun x => decide (p x)) f l = l.map fun x => if p x then f x else x := by simp [mapWhere]

theorem State.fw_updLaunch (s : State) (lid : Nat) (f : Launch → Launch) :
    (s.updLaunch lid f).fw = { s.fw with launches := s.fw.launches.map fun x => if x.lid = lid then f x else x } := by
  rw [State.updLaunch, mapWhere_if]

/-! ### A member has advanced (R52) -/

theorem State.obj?_updObj {s : State} {tenant : Nat} {ctr : W64} {o n : Obj} (h : s.obj? tenant ctr = some o) (hn : n.is tenant ctr = true) :
    (s.updObj tenant ctr fun _ => n).obj? tenant ctr = some n := by
  show (mapWhere (fun o : Obj => o.is tenant ctr) (fun _ => n) s.fw.objs).find? (fun o => o.is tenant ctr) = _
  unfold State.obj? at h
  revert h
  induction s.fw.objs with
  | nil => intro h; cases h
  | cons x xs ih =>
    intro h
    by_cases hx : x.is tenant ctr = true
    · simp [mapWhere, hx, hn]
    · rw [List.find?_cons_of_neg (by simpa using hx)] at h
      simpa [mapWhere, hx] using ih h

/-- Where one object alone answers to a counter, a change to it is its replacement. -/
theorem State.updObj_unique {s : State} {tenant : Nat} {ctr : W64} {o : Obj} {f : Obj → Obj} (h : s.obj? tenant ctr = some o)
    (hu : s.fw.objs.Pairwise fun x y => ¬(x.is tenant ctr = true ∧ y.is tenant ctr = true)) :
    s.updObj tenant ctr f = s.updObj tenant ctr fun _ => f o := by
  have hmap : ∀ xs : List Obj, (xs.find? fun o => o.is tenant ctr) = some o → (xs.Pairwise fun x y => ¬(x.is tenant ctr = true ∧ y.is tenant ctr = true)) →
      mapWhere (fun o : Obj => o.is tenant ctr) f xs = mapWhere (fun o : Obj => o.is tenant ctr) (fun _ => f o) xs := by
    intro xs
    induction xs with
    | nil => intros; rfl
    | cons x xs ih =>
      intro hf hp
      rw [List.pairwise_cons] at hp
      by_cases hx : x.is tenant ctr = true
      · simp only [List.find?_cons, hx, Option.some.injEq] at hf
        subst hf
        have hrest : ∀ y ∈ xs, y.is tenant ctr = false := fun y hy => by simpa [hx] using hp.1 y hy
        simp only [mapWhere, List.map_cons, hx, if_true]
        exact congrArg _ (List.map_congr_left fun y hy => by simp [hrest y hy])
      · simp only [List.find?_cons, hx] at hf
        simpa [mapWhere, hx] using ih hf hp.2
  unfold State.updObj
  rw [hmap s.fw.objs h hu]

/-- The object with one more member that has advanced. -/
def Obj.plusMember (o : Obj) (part reaped : Bool) : Obj :=
  { o with done := o.done + 1, partialDone := o.partialDone || part, reaped := o.reaped || reaped }

/-- A graph that counts one more member advances once that was the last. -/
theorem State.memberDone_graph {s : State} {tenant : Nat} {ctr : W64} {o : Obj} {part reaped : Bool} (h : s.obj? tenant ctr = some o)
    (hc : o.cancelled = false) (hb : o.begun = true) (hl : o.level = .graph)
    (hu : s.fw.objs.Pairwise fun x y => ¬(x.is tenant ctr = true ∧ y.is tenant ctr = true)) :
    s.memberDone tenant ctr part reaped = if o.members ≤ o.done + 1 then
        ((s.updObj tenant ctr fun _ => o.plusMember part reaped).updObj tenant ctr fun o => { o with advanced := true }).advanceCounter tenant ctr
          (statusWord 0 (o.plusMember part reaped).partialDone (o.plusMember part reaped).reaped false)
      else s.updObj tenant ctr fun _ => o.plusMember part reaped := by
  have hone : s.memberDone tenant ctr part reaped = (s.updObj tenant ctr fun _ => o.plusMember part reaped).checkObj tenant ctr :=
    congrArg (State.checkObj · tenant ctr) (State.updObj_unique h hu)
  have his : (o.plusMember part reaped).is tenant ctr = true := (List.find?_some (p := fun o : Obj => o.is tenant ctr) h :)
  have hlevel : (o.plusMember part reaped).level = .graph := hl
  have hcancelled : (o.plusMember part reaped).cancelled = false := hc
  have hcomplete : (s.updObj tenant ctr fun _ => o.plusMember part reaped).objComplete (o.plusMember part reaped) = decide (o.members ≤ o.done + 1) := by
    have hbegun : (o.plusMember part reaped).begun = true := hb
    rw [State.objComplete, hcancelled, if_neg Bool.false_ne_true, hbegun, Bool.and_true]
    rfl
  rw [hone, State.checkObj, State.obj?_updObj h his]
  dsimp only
  rw [hcomplete, hlevel, hcancelled]
  simp only [decide_eq_true_eq]

/-! ### A dispatch pass (R324, R325) -/

theorem Launch.prio_lt (l : Launch) : l.prio < 4 := Nat.mod_lt _ (by decide)

/-- The pending launches of a tenant, as a pass orders them. -/
theorem State.pendingOf_eq (s : State) (tenant : Nat) :
    s.pendingOf tenant = [3, 2, 1, 0].flatMap fun p =>
      ((s.fw.launches.filter fun x => decide (x.tenant = tenant ∧ x.state = .pending)).filter fun x => x.prio = p).map (·.lid) := by
  unfold State.pendingOf
  refine congrArg (List.flatMap · _) (funext fun p => ?_)
  rw [List.filter_filter]
  refine congrArg _ (List.filter_congr fun x _ => ?_)
  simp [Bool.and_comm]

theorem State.pendingOf_single {s : State} {tenant : Nat} {l : Launch}
    (h : s.fw.launches.filter (fun x => decide (x.tenant = tenant ∧ x.state = .pending)) = [l]) : s.pendingOf tenant = [l.lid] := by
  have hp := l.prio_lt
  rw [State.pendingOf_eq, h]
  generalize hk : l.prio = k at hp
  interval_cases k <;> simp [hk]

theorem State.visit_ordinary {s : State} {lid : Nat} {l : Launch} (h : s.launch? lid = some l) (hs : l.state = .pending) (hg : l.groups = 0)
    (hh : s.held l = false) : s.visit lid = s.release l := by
  rw [State.visit, h]
  dsimp only
  rw [if_neg (by simp [hs]), if_pos hg, if_neg (by rw [hh]; exact Bool.false_ne_true)]

/-! ### The shares of a launch (R322) -/

/-- The units of the dies before die `i`, the first `n % m` dies taking one more than the others. -/
def shareBase (n m i : Nat) : Nat := i * (n / m) + min i (n % m)
/-- The units of die `i`. -/
def shareCount (n m i : Nat) : Nat := n / m + (if i < n % m then 1 else 0)

theorem shareBase_succ (n m i : Nat) : shareBase n m (i + 1) = shareBase n m i + shareCount n m i := by
  unfold shareBase shareCount
  rw [Nat.add_mul, Nat.one_mul]
  split <;> omega
theorem shareBase_all {n m : Nat} (h : 0 < m) : shareBase n m m = n := by
  have hlt := Nat.mod_lt n h
  rw [shareBase, Nat.min_eq_right (Nat.le_of_lt hlt)]
  exact Nat.div_add_mod n m

theorem sharesOf_cons (n m die i : Nat) (ds : List (Nat × Nat)) :
    sharesOf n m ((die, i) :: ds) = if shareCount n m i = 0 then sharesOf n m ds else
      { die, base := shareBase n m i, count := shareCount n m i, next := 0, entry := none, code := [] } :: sharesOf n m ds := rfl

theorem mem_sharesOf {n m : Nat} {ds : List (Nat × Nat)} {sh : Share} (h : sh ∈ sharesOf n m ds) :
    ∃ i, (sh.die, i) ∈ ds ∧ sh.count = shareCount n m i ∧ sh.count ≠ 0 ∧ sh.next = 0 := by
  induction ds with
  | nil => cases h
  | cons d ds ih =>
    obtain ⟨die, i⟩ := d
    rw [sharesOf_cons] at h
    have hrest : sh ∈ sharesOf n m ds → ∃ i', (sh.die, i') ∈ (die, i) :: ds ∧ sh.count = shareCount n m i' ∧ sh.count ≠ 0 ∧ sh.next = 0 := fun hm => by
      obtain ⟨i', hi, hc⟩ := ih hm
      exact ⟨i', List.mem_cons_of_mem _ hi, hc⟩
    split at h
    · exact hrest h
    · next hc =>
      obtain rfl | hm := List.mem_cons.1 h
      · exact ⟨i, List.mem_cons_self, rfl, hc, rfl⟩
      · exact hrest hm

/-- The shares of the dies from `k` on take the units from that die's base on, each once. -/
theorem sharesOf_cover (n m : Nat) (ds : List Nat) (k : Nat) :
    ((sharesOf n m (ds.zipIdx k)).map fun sh => sh.count).sum + shareBase n m k = shareBase n m (k + ds.length) ∧
      ∀ u, (∃ sh ∈ sharesOf n m (ds.zipIdx k), sh.base ≤ u ∧ u < sh.base + sh.count) ↔ shareBase n m k ≤ u ∧ u < shareBase n m (k + ds.length) := by
  induction ds generalizing k with
  | nil => exact ⟨by simp [sharesOf], fun u => by simp [sharesOf]⟩
  | cons d ds ih =>
    obtain ⟨hsum, hcover⟩ := ih (k + 1)
    have hbase := shareBase_succ n m k
    have hlen : k + (d :: ds).length = k + 1 + ds.length := by rw [List.length_cons]; omega
    rw [List.zipIdx_cons, sharesOf_cons, hlen]
    split
    · next hc =>
      rw [hc, Nat.add_zero] at hbase
      rw [hbase] at hsum hcover
      exact ⟨hsum, hcover⟩
    · refine ⟨by simp only [List.map_cons, List.sum_cons]; omega, fun u => ?_⟩
      simp only [List.mem_cons, exists_eq_or_imp, hcover u]
      omega

theorem State.postAll_eq (s : State) (evs : List Instr) :
    s.postAll evs = { s with sched := { s.sched with agenda := s.sched.agenda ++ evs.map fun ev => { due := s.sched.now, ev } } } := by
  induction evs generalizing s with
  | nil => rw [State.postAll, List.map_nil, List.append_nil]; rfl
  | cons ev evs ih =>
    show (s.post ev).postAll evs = _
    rw [ih, List.map_cons, ← List.singleton_append, ← List.append_assoc]
    rfl

/-! ### The scanner (R316) -/

theorem exec_queueScan (s : State) :
    exec .queueScan s = .next (match firstQueue (s.fw.queues.filter fun q => q.lastRead + q.interval ≤ s.sched.now) with
      | none => s
      | some q => (s.scanQueue q).serveNext) := rfl

/-- WIDX of a queue, as the scanner makes it out. -/
def scannedIndex : Option (W64 × BitVec 4) → Nat
  | some (v, _) => (v.extractLsb' 0 32).toNat
  | none => 0

theorem scannedIndex_eq (x : Option (W64 × BitVec 4)) : (x.map fun p => slice p.1 31 0).getD 0 = scannedIndex x := by
  cases x with
  | none => rfl
  | some p => simp [slice, scannedIndex]

theorem State.scanQueue_eq {s u : State} {q : Queue} {x : Option (W64 × BitVec 4)} (h : s.look (entryDie 0) q.tenant q.block = (u, x)) :
    let w := scannedIndex x
    let i := if w ≠ q.widx then 800 else min (2 * q.interval) 800000
    s.scanQueue q = ({ u with fw := { u.fw with queues := u.fw.queues.map fun x => if x.tenant = q.tenant ∧ x.num = q.num
      then { x with widx := w, interval := i, lastRead := s.sched.now, ready := x.ready || decide (w ≠ x.widx) } else x } } : State).postIn i .queueScan := by
  have hnow : u.sched.now = s.sched.now := State.offMem_now (by rw [← State.offMem_look s (entryDie 0) q.tenant q.block, h])
  intro w i
  unfold State.scanQueue
  rw [h]
  dsimp only
  rw [scannedIndex_eq x, hnow]
  unfold State.updQueue mapWhere
  simp only [Bool.and_eq_true, decide_eq_true_eq]
  rfl

/-! ### The clauses of release and grant -/

theorem exec_grantPred {s u : State} {lid k : Nat} {l : Launch} {v : W64} (hl : s.launch? lid = some l) (ha : s.admits true 1 0 = true)
    (hr : s.fwRead l.tenant (l.word (0x60 + 8 * k) + 8) = (u, v)) :
    exec (.firmwareCounterWaitGrant (.pred lid k)) s = .next (if v.getLsbD 0 then u.cancelLaunch lid
      else ((u.updLaunch lid fun l => { l with waits := l.waits - 1 }).tryBegin lid).passFor l.tenant u) := by
  rw [exec_grant_admitted rfl ha, State.takeWait_pred hl hr]

/-- The last predecessor's grant, of one that was not cancelled. -/
theorem exec_grantPred_last {s u : State} {lid k : Nat} {l : Launch} {v : W64} (hl : s.launch? lid = some l) (ha : s.admits true 1 0 = true)
    (hr : s.fwRead l.tenant (l.word (0x60 + 8 * k) + 8) = (u, v)) (hv : v.getLsbD 0 = false) (hw : l.waits = 1) (hs : l.state = .blocked)
    (hg : u.graphBegun l.tenant l.graph = true) (hn : l.n ≠ 0) :
    ∃ t : State, exec (.firmwareCounterWaitGrant (.pred lid k)) s = .next t ∧ t.cpu = u.cpu ∧ t.mem = u.mem ∧ t.dies = u.dies ∧
      t.fw = { u.fw with launches := u.fw.launches.map fun x => if x.lid = lid then { x with waits := x.waits - 1, state := .pending } else x } := by
  have hu : u.launch? lid = some l := by
    have hkept := State.launches_fwRead s l.tenant (l.word (0x60 + 8 * k) + 8)
    rw [hr] at hkept
    rw [State.launch?, hkept]
    exact hl
  obtain ⟨hcpu, hmem, hdies, hfw⟩ := State.passFor_keeps ((u.updLaunch lid fun l => { l with waits := l.waits - 1 }).tryBegin lid) l.tenant u
  have hgrant := State.grant_pending hu hw hs hg hn
  refine ⟨_, exec_grantPred hl ha hr, ?_⟩
  rw [if_neg (by rw [hv]; exact Bool.false_ne_true)]
  rw [hgrant] at hcpu hmem hdies hfw ⊢
  exact ⟨hcpu, hmem, hdies, hfw.trans (State.fw_updLaunch u lid _)⟩

/-- What a release leaves where a rule lets its packets pass. -/
theorem State.release_passes {s : State} (h : s.packetsPass = true) (l : Launch) :
    s.release l = (s.updLaunch l.lid fun x => { x with state := .released, shares := sharesOf l.n l.dies.length l.dies.zipIdx }).postAll
      ((sharesOf l.n l.dies.length l.dies.zipIdx).map fun sh => .launchPacket sh.die l.lid) := if_pos h
theorem State.release_drops {s : State} (h : s.packetsPass = false) (l : Launch) :
    s.release l = (sharesOf l.n l.dies.length l.dies.zipIdx).foldl (fun u _ => u.firewallDrop)
      (s.updLaunch l.lid fun x => { x with state := .released, shares := sharesOf l.n l.dies.length l.dies.zipIdx }) :=
  if_neg (by rw [State.packetsPass] at h; rw [State.packetsPass]; exact (Bool.eq_false_iff.1 h))

/-- A share is of a die of the launch, with the units of its place in the order. -/
theorem mem_sharesOf_dies {n : Nat} {dies : List Nat} {sh : Share} (h : sh ∈ sharesOf n dies.length dies.zipIdx) :
    0 < sh.count ∧ sh.next = 0 ∧ ∃ i : Nat, i < dies.length ∧ dies[i]? = some sh.die ∧
      sh.count = (if i < n % dies.length then n / dies.length + 1 else n / dies.length) := by
  obtain ⟨i, hi, hc, hne, hnext⟩ := mem_sharesOf h
  have hget : dies[i]? = some sh.die := List.mem_zipIdx_iff_getElem?.1 hi
  refine ⟨Nat.pos_of_ne_zero hne, hnext, i, (List.getElem?_eq_some_iff.1 hget).1, hget, hc.trans ?_⟩
  unfold shareCount
  split <;> rfl

/-- The shares of a launch together are its units, each once. -/
theorem sharesOf_all {n : Nat} {dies : List Nat} (h : dies ≠ []) :
    (∀ u : Nat, u < n ↔ ∃ sh ∈ sharesOf n dies.length dies.zipIdx, sh.base ≤ u ∧ u < sh.base + sh.count) ∧
      ((sharesOf n dies.length dies.zipIdx).map fun sh => sh.count).sum = n := by
  obtain ⟨hsum, hcover⟩ := sharesOf_cover n dies.length dies 0
  have hzero : shareBase n dies.length 0 = 0 := by simp [shareBase]
  have hall : shareBase n dies.length (0 + dies.length) = n := by
    rw [Nat.zero_add]
    exact shareBase_all (List.length_pos_iff.2 h)
  rw [hzero, hall] at hsum hcover
  exact ⟨fun u => ((hcover u).trans ⟨fun h => h.2, fun h => ⟨Nat.zero_le _, h⟩⟩).symm, hsum⟩

/-- Settles O43, clause by clause: reports, grants, members, passes, shares, scanner, deferrals. -/
theorem launchesBegin : Obligations.LaunchesBegin := by
  refine ⟨fun tenant t s ht => ⟨fun ha => ?_, fun ha hl => State.idleReport_now ht ha hl, fun ha l hl hlt => ?_⟩,
    fun lid k l s hl ha => ?_, fun s ha => ⟨fun lid k => ?_, fun t p => ?_, fun t g p => ?_⟩, fun tenant graph phase s ha => ?_,
    fun tenant ctr o part reaped s ho hc hb hg hu => ⟨fun hlt => ?_, fun hle => ?_⟩, fun lid l s hl hs hw hn => State.tryBegin_empty hl hs hw hn,
    fun tenant s => ⟨fun hnone => ?_, fun l hone hl hg hh => ?_⟩, fun l s hd => ⟨fun hp => ?_, fun hp => State.release_drops hp l, ?_, sharesOf_all hd⟩,
    fun s hnone => ?_, fun q s hq => ?_, fun q s => ?_, fun s => ?_⟩
  · rw [State.idleReport_eq ht, if_neg (by rw [ha]; exact Bool.false_ne_true)]
  · rw [State.idleReport_eq ht, if_pos ha, hl]
    exact if_pos hlt
  · generalize hr : s.fwRead l.tenant (l.word (0x60 + 8 * k) + 8) = q
    obtain ⟨u, v⟩ := q
    refine ⟨fun hv => ?_, fun hv hw hs hg hn => exec_grantPred_last hl ha hr hv hw hs hg hn⟩
    rw [exec_grantPred hl ha hr, if_pos hv]
  · exact exec_grant_dropped rfl ha
  · exact exec_grant_dropped rfl ha
  · exact exec_grant_dropped rfl ha
  · rw [exec_grant_admitted rfl ha, State.takeWait, State.statusBits]
    generalize s.fwRead tenant (graph + 8) = q
    rfl
  · rw [State.memberDone_graph ho hc hb hg hu, if_neg (Nat.not_le.2 hlt)]
    rfl
  · rw [State.memberDone_graph ho hc hb hg hu, if_pos hle]
    rfl
  · have hempty : s.fw.launches.filter (fun x => decide (x.tenant = tenant ∧ x.state = .pending)) = [] :=
      List.filter_eq_nil_iff.2 fun x hx => by simpa using hnone x hx
    show Host.Outcome.next ((s.pendingOf tenant).foldl State.visit s) = _
    rw [State.pendingOf_eq, hempty]
    rfl
  · have hmem : l ∈ s.fw.launches.filter (fun x => decide (x.tenant = tenant ∧ x.state = .pending)) := hone ▸ List.mem_cons_self
    have hs : l.state = .pending := (of_decide_eq_true (List.mem_filter.1 hmem).2).2
    show Host.Outcome.next ((s.pendingOf tenant).foldl State.visit s) = _
    rw [State.pendingOf_single hone]
    exact congrArg _ (State.visit_ordinary hl hs hg hh)
  · rw [State.release_passes hp, State.postAll_eq]
    refine ⟨rfl, ?_, ?_⟩
    · exact State.fw_updLaunch s l.lid _
    · show s.sched.agenda ++ List.map _ (List.map _ _) = _
      rw [List.map_map]
      rfl
  · exact fun sh hsh => mem_sharesOf_dies hsh
  · have hempty : s.fw.queues.filter (fun q => decide (q.lastRead + q.interval ≤ s.sched.now)) = [] :=
      List.filter_eq_nil_iff.2 fun q hq => by simpa using hnone q hq
    rw [exec_queueScan, hempty]
    rfl
  · rw [exec_queueScan, hq]
  · generalize hx : s.look (entryDie 0) q.tenant q.block = p
    obtain ⟨u, x⟩ := p
    exact State.scanQueue_eq hx
  · exact ⟨_, rfl, State.foldl_endDeferral _ s⟩

end Sys2Proof.Machine
end


section
/-!
SUPPORT. What comes back to a context (spec/02 R42, R49, R63-R67; spec/08 R204-R209; spec/09 R235, R236): a message at hand for its incarnation,
the deposits by their use, acknowledgements, acceptances, resumptions.
-/

namespace Sys2Proof.Machine

open Sys2Proof

/-! ### A parked context reads back as it is set -/

/-- After reset a parked context awaits the firmware column. -/
theorem Ctx.ne_rest_of_parked {c : Ctx} {g : Nat} (hm : c.mode = .parked) (hp : c.park ≠ .firmware) : c ≠ Ctx.rest g := by
  rintro rfl
  unfold Ctx.rest at hm hp
  dsimp only at hm hp
  split at hp
  · exact hp rfl
  · simp_all

theorem State.ctx_setCtx_parked {s : State} {g : Nat} {c : Ctx} (hm : c.mode = .parked) (hp : c.park ≠ .firmware) : (s.setCtx g c).ctx g = c :=
  spGet_spSet_listed (Ctx.ne_rest_of_parked hm hp)

/-- A context whose event has come goes on. -/
theorem State.rejoin_parked {s : State} {g : Nat} {awaits : Park → Bool} (hm : (s.ctx g).mode = .parked) (ha : awaits (s.ctx g).park = true) (next : W64) :
    s.rejoin g awaits next = s.readyAt g next := by
  rw [State.rejoin, if_pos (by simp [hm, ha])]
  rfl

/-- The same after a change that leaves the context parked as it is. -/
theorem State.rejoin_setCtx {s : State} {g : Nat} {c : Ctx} {awaits : Park → Bool} (hm : c.mode = .parked) (hp : c.park ≠ .firmware)
    (ha : awaits c.park = true) (next : W64) : (s.setCtx g c).rejoin g awaits next = (s.setCtx g c).readyAt g next := by
  have hc := State.ctx_setCtx_parked (s := s) (g := g) hm hp
  exact State.rejoin_parked (by rw [hc]; exact hm) (by rw [hc]; exact ha) next

/-! ### A message at hand -/

/-- The message's incarnation holds its context, on a core that has not moved, is not halted and is not coupled; no request is out at a station. -/
structure State.Holds (s : State) (g n : Nat) : Prop where
  away : s.movedAway g n = false
  halted : (s.core (coreOf g)).halted = false
  gen : (s.ctx g).gen = n
  paired : (s.core (coreOf g)).paired = false

theorem State.atHand_iff {s : State} {g n : Nat} : s.atHand g n = true ↔ s.fab.waiting = [] ∧ s.Holds g n := by
  simp only [State.atHand, Bool.and_eq_true, decide_eq_true_eq, Bool.not_eq_true']
  exact ⟨fun ⟨⟨⟨⟨hw, ha⟩, hh⟩, hg⟩, hp⟩ => ⟨hw, ha, hh, hg, hp⟩, fun ⟨hw, ha, hh, hg, hp⟩ => ⟨⟨⟨⟨hw, ha⟩, hh⟩, hg⟩, hp⟩⟩

/-- Whether a message is at hand rests on the cores alone. -/
theorem State.Holds.of_cpu {s t : State} {g n : Nat} (h : s.Holds g n) (hc : t.cpu = s.cpu) : t.Holds g n := by
  obtain ⟨cpu, _⟩ := s
  obtain ⟨_, _⟩ := t
  subst hc
  exact ⟨h.away, h.halted, h.gen, h.paired⟩

theorem State.toContext_holds {s : State} {g n : Nat} (h : s.Holds g n) (item : Item) (f : State → State) : s.toContext g n item f = f s := by
  rw [State.toContext, if_neg (by rw [h.away]; exact Bool.false_ne_true), if_neg (by rw [h.halted]; exact Bool.false_ne_true), if_neg (not_not.2 h.gen)]

theorem State.both_alone {s : State} {g : Nat} (h : (s.core (coreOf g)).paired = false) : s.both g = [g] := by
  rw [State.both, if_neg (by simp [h])]

theorem State.stationDone_none {s : State} (h : s.fab.waiting = []) (src : Origin) (rid : Nat) : s.stationDone src rid = s := by
  rw [State.stationDone, h]

/-! ### A deposit for a context -/

/-- The parts of a reply's way that its use does not enter: no station holds it, it is not too late, it is for a context. -/
theorem exec_deposit_context {s : State} {m : Reply} (hw : s.fab.waiting = []) (hd : m.dest = none) (hl : s.tooLate m = false)
    (hn : ∀ op, m.use ≠ .number op) : exec (.deposit m) s = .next (s.takeDeposit m.gid m) := by
  show execDeposit m s = _
  unfold execDeposit
  dsimp only
  rw [State.stationDone_none hw, if_neg (by rw [hl]; exact Bool.false_ne_true), hd]
  cases hu : m.use with
  | number op => exact absurd hu (hn op)
  | _ => rfl

theorem exec_deposit_number {s : State} {m : Reply} {op : Nat} (hw : s.fab.waiting = []) (hd : m.dest = none) (hl : s.tooLate m = false)
    (hu : m.use = .number op) : exec (.deposit m) s = .next (s.bindAnswer op m) := by
  show execDeposit m s = _
  unfold execDeposit
  dsimp only
  rw [State.stationDone_none hw, if_neg (by rw [hl]; exact Bool.false_ne_true), hd, hu]

theorem exec_deposit_remote {s : State} {m : Reply} {q : Requester} (hw : s.fab.waiting = []) (hl : s.tooLate m = false) (hd : m.dest = some (.remote q)) :
    exec (.deposit m) s = .next (s.emit (.reply q m.data m.ok)) := by
  show execDeposit m s = _
  unfold execDeposit
  dsimp only
  rw [State.stationDone_none hw, if_neg (by rw [hl]; exact Bool.false_ne_true), hd]

theorem exec_deposit_fwWait {s : State} {m : Reply} {w : FwWait} (hw : s.fab.waiting = []) (hl : s.tooLate m = false) (hd : m.dest = some (.fwWait w)) :
    exec (.deposit m) s = .next (s.post (.firmwareCounterWaitGrant w)) := by
  show execDeposit m s = _
  unfold execDeposit
  dsimp only
  rw [State.stationDone_none hw, if_neg (by rw [hl]; exact Bool.false_ne_true), hd]

theorem exec_deposit_late {s : State} {m : Reply} (hw : s.fab.waiting = []) (hl : s.tooLate m = true) : exec (.deposit m) s = .next s := by
  show execDeposit m s = _
  unfold execDeposit
  dsimp only
  rw [State.stationDone_none hw, if_pos hl]

/-- A reply that is at hand is taken; then what ends with it has ended. -/
theorem State.takeDeposit_holds {s : State} {m : Reply} (h : s.Holds m.gid m.gen) : s.takeDeposit m.gid m = (s.takeReply m).writeEnds m.use := by
  rw [State.takeDeposit, if_neg (by rw [h.away]; exact Bool.false_ne_true), State.toContext_holds h]

/-- What follows the writing of a reply (spec/09 R235; spec/08 R204, R208). -/
def State.afterFill (s : State) (m : Reply) : State :=
  match m.use with
  | .pair d => s.postIn 1 (.deposit { m with use := .pairHigh d })
  | .blkLoad d a b => s.blkStore m d a b
  | .join key w0 => s.joinReply m key w0
  | _ => s

theorem State.takeReply_holds {s : State} {m : Reply} (hp : (s.core (coreOf m.gid)).paired = false) (he : s.expects m.gid m = true) :
    s.takeReply m = (s.fillAt m.gid m).afterFill m := by
  unfold State.takeReply
  rw [if_neg (by rw [he]; exact Bool.false_ne_true), State.both_alone hp]
  dsimp only [List.foldl]
  rw [State.depositAt, if_pos he]
  rfl

/-- A reply that its context waits for is expected. -/
theorem State.expects_reply {s : State} {m : Reply} (hp : (s.ctx m.gid).park = .reply m.rid) (ht : ∀ op d, m.use ≠ .trigger op d) : s.expects m.gid m = true := by
  have ha : s.awaits m.gid m.rid (decide (m.gid = m.gid)) = true := by simp [State.awaits, hp, awaitsReply]
  unfold State.expects
  cases hu : m.use with
  | trigger op d => exact absurd hu (ht op d)
  | reg | regFlags | pair | pairHigh | blkLoad | blkStore | join => exact ha
  | _ => rfl

/-- A deposit fills its register; what waits for the register, or for the context's last deposit, is looked at again. -/
theorem State.fillReg_eq (s : State) (g d : Nat) (v : W64) :
    s.fillReg g d v = if (s.ctx g).park = .register (s.regKey g d) ∨ ((s.ctx g).park = .deposits ∧ (s.filled g d v).awaitsDeposit g = false) ∨
        (isCtx0 g = true ∧ (s.core (coreOf g)).savedPark = .register (s.regKey g d))
      then (s.filled g d v).post (.parkedInstructionResume g) else s.filled g d v := by
  have h : s.fillReg g d v =
      if (s.ctx g).park = .register (s.regKey g d) || (isCtx0 g && (s.core (coreOf g)).savedPark = .register (s.regKey g d)) then
        (s.filled g d v).post (.parkedInstructionResume g)
      else if (s.ctx g).park = .deposits && !(s.filled g d v).awaitsDeposit g then (s.filled g d v).post (.parkedInstructionResume g)
      else s.filled g d v := rfl
  rw [h]
  simp only [Bool.or_eq_true, Bool.and_eq_true, decide_eq_true_eq, Bool.not_eq_true']
  by_cases h1 : (s.ctx g).park = .register (s.regKey g d) ∨ (isCtx0 g = true ∧ (s.core (coreOf g)).savedPark = .register (s.regKey g d))
  · rw [if_pos h1, if_pos (h1.imp_right .inr)]
  · rw [if_neg h1]
    refine if_congr ⟨fun h2 => .inr (.inl h2), fun h2 => ?_⟩ rfl rfl
    rcases h2 with h2 | h2 | h2
    · exact absurd (.inl h2) h1
    · exact h2
    · exact absurd (.inr h2) h1

/-- A deposit to a context that waits for a reply only fills its register. -/
theorem State.fillReg_reply {s : State} {g d rid : Nat} {v : W64} (hp : (s.ctx g).park = .reply rid)
    (hs : isCtx0 g = true → ∀ k, (s.core (coreOf g)).savedPark ≠ .register k) : s.fillReg g d v = s.filled g d v := by
  rw [State.fillReg_eq, if_neg]
  rintro (h | ⟨h, -⟩ | ⟨h0, h⟩)
  · rw [hp] at h; cases h
  · rw [hp] at h; cases h
  · exact hs h0 _ h

/-! ### BLK and JOIN -/

/-- The load half of BLK: the store leaves under a number of its own, which the context waits for. -/
theorem State.blkStore_alone {s : State} {m : Reply} {d a b : Nat} (hpair : (s.core (coreOf m.gid)).paired = false) (hp : (s.ctx m.gid).park = .reply m.rid) :
    s.blkStore m d a b = (({ s with sched := { s.sched with rids := s.sched.rids + 1 } } : State).setCtx m.gid
        { s.ctx m.gid with park := .reply s.sched.rids }).route
      { kind := .store 8, tenant := s.tenantOf (coreOf m.gid), va := s.regAt m.gid d, dp := 0, join := none, data := m.data, cmp := 0, ord := 0, scope := 0
        src := .ctx m.gid (s.ctx m.gid).gen, use := .blkStore d a b, die := dieOf (coreOf m.gid), core := coreOf m.gid, pc := m.next, next := m.next
        rid := s.sched.rids, early := false, fence := false, hops := 0 } := by
  have hown : awaitsReply m.rid (decide (m.gid = m.gid)) ((s.newRid.2).ctx m.gid).park = true := by
    show awaitsReply m.rid (decide (m.gid = m.gid)) (s.ctx m.gid).park = true
    simp [hp, awaitsReply]
  rw [State.blkStore, State.both_alone hpair]
  dsimp only [List.foldl]
  unfold State.blkStoreAt State.awaitNow
  dsimp only
  rw [if_pos hown]
  exact State.sendOut_alone (.inl hpair)

theorem State.anyEmpty_saved (s : State) (g : Nat) :
    (List.range' 4 4).any (fun n => s.emptyAt g n) = (s.emptyAt g 4 || s.emptyAt g 5 || s.emptyAt g 6 || s.emptyAt g 7) := by
  simp [List.range', Bool.or_assoc]

/-- The last participant takes up the unit's work again. -/
theorem State.joinLast_eq {s : State} {g rid : Nat} {j : JoinRec} {v4 v5 v6 v7 : W64} (hm : (s.ctx g).mode = .parked) (hp : (s.ctx g).park = .reply rid)
    (hj : j.saved = [v4, v5, v6, v7]) :
    s.joinLast g rid true j = (((((s.setRegAt g 4 v4).setRegAt g 5 v5).setRegAt g 6 v6).setRegAt g 7 v7).updCtx g fun c =>
      { c with link := j.link, work := j.work }).readyAt g j.pc := by
  unfold State.joinLast
  rw [hj]
  refine State.rejoin_setCtx (g := g) ?_ ?_ ?_ _
  · exact hm
  · show (s.ctx g).park ≠ .firmware
    rw [hp]
    exact Park.noConfusion
  · show awaitsReply rid true (s.ctx g).park = true
    simp [hp, awaitsReply]

/-! ### A reply for a parked context, by its use -/

/-- The context that waits for a reply goes on with it, what the reply writes leaving the context itself as it is. -/
theorem State.rejoin_reply {s t : State} {g rid : Nat} (hm : (s.ctx g).mode = .parked) (hp : (s.ctx g).park = .reply rid) (hc : t.ctx g = s.ctx g) (next : W64) :
    t.rejoin g (awaitsReply rid (decide (g = g))) next = t.readyAt g next :=
  State.rejoin_parked (by rw [hc]; exact hm) (by rw [hc, hp]; simp [awaitsReply]) next

section
variable {s : State} {m : Reply} (hw : s.fab.waiting = []) (hh : s.Holds m.gid m.gen) (hd : m.dest = none) (hl : s.tooLate m = false)
include hw hh hd hl

/-- A reply that its context expects. -/
theorem exec_deposit_expected (he : s.expects m.gid m = true) (hn : ∀ op, m.use ≠ .number op) :
    exec (.deposit m) s = .next (((s.fillAt m.gid m).afterFill m).writeEnds m.use) := by
  rw [exec_deposit_context hw hd hl hn, State.takeDeposit_holds hh, State.takeReply_holds hh.paired he]

theorem exec_deposit_value {d : Nat} (hu : m.use = .value d) : exec (.deposit m) s = .next (s.fillReg m.gid d m.data) := by
  rw [exec_deposit_expected hw hh hd hl (by rw [State.expects, hu]) (by simp [hu])]
  unfold State.fillAt State.afterFill State.writeEnds
  rw [hu]

theorem exec_deposit_drainFlags {op : Nat} (hu : m.use = .drainFlags op) :
    exec (.deposit m) s = .next ((s.orFlags m.gid (m.data.extractLsb' 0 5)).drainEnd op) := by
  rw [exec_deposit_expected hw hh hd hl (by rw [State.expects, hu]) (by simp [hu])]
  unfold State.fillAt State.afterFill State.writeEnds
  rw [hu]

/-- The answer to a SPAWN. -/
theorem exec_deposit_placed {q : Nat} {childPc : W64} (hm : (s.ctx m.gid).mode = .parked) (hp : (s.ctx m.gid).park = .placement)
    (hr : isResidual (s.ctx m.gid).pc = false) (hu : m.use = .placed q childPc) :
    exec (.deposit m) s = .next (
      let t := s.setCtx m.gid ((s.ctx m.gid).setPred (BitVec.ofNat 3 q) m.ok)
      if m.ok then t.readyAt m.gid m.next else (t.updCtx m.gid fun c => { c with link := m.next }).readyAt m.gid childPc) := by
  have hsm : ((s.ctx m.gid).setPred (BitVec.ofNat 3 q) m.ok).mode = .parked := by unfold Ctx.setPred; split <;> exact hm
  have hsp : ((s.ctx m.gid).setPred (BitVec.ofNat 3 q) m.ok).park = .placement := by unfold Ctx.setPred; split <;> exact hp
  have hne : ((s.ctx m.gid).setPred (BitVec.ofNat 3 q) m.ok).park ≠ .firmware := by rw [hsp]; exact Park.noConfusion
  have hlink : (s.origin (s.ctx m.gid).pc).1 + (m.next - (s.ctx m.gid).pc) = m.next := by
    rw [State.origin, if_neg (by rw [hr]; exact Bool.false_ne_true), add_sub_cancel]
  rw [exec_deposit_expected hw hh hd hl (by rw [State.expects, hu]) (by simp [hu])]
  unfold State.fillAt State.afterFill State.writeEnds
  rw [hu]
  dsimp only
  rw [hlink]
  split
  · rw [State.rejoin_setCtx hsm hne (by simp [hsp])]
  · have hctx := State.ctx_setCtx_parked (s := s) (g := m.gid) hsm hne
    rw [State.updCtx, hctx]
    refine congrArg _ (State.rejoin_setCtx (g := m.gid) ?_ ?_ ?_ _)
    · exact hsm
    · exact hne
    · exact decide_eq_true hsp

variable (hm : (s.ctx m.gid).mode = .parked) (hp : (s.ctx m.gid).park = .reply m.rid)
include hm hp

omit hm in
theorem exec_deposit_awaited (hn : ∀ op, m.use ≠ .number op) (ht : ∀ op d, m.use ≠ .trigger op d) :
    exec (.deposit m) s = .next (((s.fillAt m.gid m).afterFill m).writeEnds m.use) :=
  exec_deposit_expected hw hh hd hl (State.expects_reply hp ht) hn

theorem exec_deposit_ack (hu : m.use = .ack) (hrid : m.rid ≠ 0) : exec (.deposit m) s = .next (s.readyAt m.gid m.next) := by
  rw [exec_deposit_awaited hw hh hd hl hp (by simp [hu]) (by simp [hu])]
  unfold State.fillAt State.afterFill State.writeEnds
  rw [hu]
  dsimp only
  rw [if_neg hrid, State.rejoin_reply hm hp rfl]

theorem exec_deposit_blkStore {d a b : Nat} (hu : m.use = .blkStore d a b) :
    exec (.deposit m) s = .next ((s.blkNext m.gid d a b).readyAt m.gid m.next) := by
  rw [exec_deposit_awaited hw hh hd hl hp (by simp [hu]) (by simp [hu])]
  unfold State.fillAt State.afterFill State.writeEnds
  rw [hu]
  dsimp only
  exact congrArg _ (State.rejoin_reply hm hp (by rfl) _)

omit hm in
theorem exec_deposit_blkLoad {d a b : Nat} (hu : m.use = .blkLoad d a b) : exec (.deposit m) s = .next (s.blkStore m d a b) := by
  rw [exec_deposit_awaited hw hh hd hl hp (by simp [hu]) (by simp [hu])]
  unfold State.fillAt State.afterFill State.writeEnds
  rw [hu]

omit hm in
theorem exec_deposit_join {key : Nat} {w0 : W64} (hu : m.use = .join key w0) : exec (.deposit m) s = .next (s.joinReply m key w0) := by
  rw [exec_deposit_awaited hw hh hd hl hp (by simp [hu]) (by simp [hu])]
  unfold State.fillAt State.afterFill State.writeEnds
  rw [hu]

variable (hs : isCtx0 m.gid = true → ∀ k, (s.core (coreOf m.gid)).savedPark ≠ .register k)
include hs

theorem exec_deposit_reg {d : Nat} (hu : m.use = .reg d) : exec (.deposit m) s = .next ((s.filled m.gid d m.data).readyAt m.gid m.next) := by
  rw [exec_deposit_awaited hw hh hd hl hp (by simp [hu]) (by simp [hu])]
  unfold State.fillAt State.afterFill State.writeEnds
  rw [hu]
  dsimp only
  rw [State.fillReg_reply hp hs]
  exact congrArg _ (State.rejoin_reply hm hp (by rfl) _)

theorem exec_deposit_regFlags {d : Nat} (hu : m.use = .regFlags d) :
    exec (.deposit m) s = .next (((s.filled m.gid d m.data).orFlags m.gid (m.data.extractLsb' 0 5)).readyAt m.gid m.next) := by
  have hne : (s.ctx m.gid).park ≠ .firmware := by rw [hp]; exact Park.noConfusion
  rw [exec_deposit_awaited hw hh hd hl hp (by simp [hu]) (by simp [hu])]
  unfold State.fillAt State.afterFill State.writeEnds
  rw [hu]
  dsimp only
  rw [State.fillReg_reply hp hs]
  refine congrArg _ (State.rejoin_setCtx (g := m.gid) ?_ ?_ ?_ _)
  · exact hm
  · exact hne
  · show awaitsReply m.rid (decide (m.gid = m.gid)) (s.ctx m.gid).park = true
    simp [hp, awaitsReply]

omit hm in
theorem exec_deposit_pair {d : Nat} (hu : m.use = .pair d) :
    exec (.deposit m) s = .next ((s.filled m.gid d m.data).postIn 1 (.deposit { m with use := .pairHigh d })) := by
  rw [exec_deposit_awaited hw hh hd hl hp (by simp [hu]) (by simp [hu])]
  unfold State.fillAt State.afterFill State.writeEnds
  rw [hu]
  dsimp only
  rw [State.fillReg_reply hp hs]

theorem exec_deposit_pairHigh {d : Nat} (hu : m.use = .pairHigh d) :
    exec (.deposit m) s = .next ((s.filled m.gid (d + 1) (if m.ok then 1 else 0)).readyAt m.gid m.next) := by
  rw [exec_deposit_awaited hw hh hd hl hp (by simp [hu]) (by simp [hu])]
  unfold State.fillAt State.afterFill State.writeEnds
  rw [hu]
  dsimp only
  rw [State.fillReg_reply hp hs]
  exact congrArg _ (State.rejoin_reply hm hp (by rfl) _)

end

/-! ### The reply to JOIN, by what it brings -/

section
variable {s : State} {m : Reply} {key : Nat} {w0 : W64} {j : JoinRec} (hpair : (s.core (coreOf m.gid)).paired = false)
  (hp : (s.ctx m.gid).park = .reply m.rid) (hj : spGet none (s.die (key / 4096)).joins (key % 4096) = some j)
include hpair hp hj

/-- Not the last participant. -/
theorem State.joinReply_other (hv : m.data ≠ 1) : s.joinReply m key w0 =
    if isCtx0 m.gid then s.joinTrap m.gid 0x01 w0
    else (s.setCtx m.gid { s.ctx m.gid with park := .deposits, work := .participant }).post (.parkedInstructionResume m.gid) := by
  have hown : decide (m.gid = m.gid) = true := decide_eq_true rfl
  have hawaits : awaitsReply m.rid true (s.ctx m.gid).park = true := by simp [hp, awaitsReply]
  rw [State.joinReply, hj]
  dsimp only
  rw [if_pos hv, State.both_alone hpair]
  dsimp only [List.foldl]
  rw [hown, State.joinOther, if_neg (by simp [hawaits])]

omit hp in
/-- The last one, where one of `s4` to `s7` awaits a deposit. -/
theorem State.joinReply_collides (hv : m.data = 1)
    (he : (s.emptyAt m.gid 4 || s.emptyAt m.gid 5 || s.emptyAt m.gid 6 || s.emptyAt m.gid 7) = true) :
    s.joinReply m key w0 = (s.setJoin key (some { j with value := 1 })).joinTrap m.gid 0x03 w0 := by
  rw [State.joinReply, hj]
  dsimp only
  rw [if_neg (not_not.2 hv), State.both_alone hpair, if_pos]
  · rfl
  · simpa [State.anyEmpty_saved] using he

/-- The last one. -/
theorem State.joinReply_last (hm : (s.ctx m.gid).mode = .parked) (hv : m.data = 1)
    (he : (s.emptyAt m.gid 4 || s.emptyAt m.gid 5 || s.emptyAt m.gid 6 || s.emptyAt m.gid 7) = false)
    {v4 v5 v6 v7 : W64} (hsaved : j.saved = [v4, v5, v6, v7]) :
    s.joinReply m key w0 = ((((((s.setJoin key none).setRegAt m.gid 4 v4).setRegAt m.gid 5 v5).setRegAt m.gid 6 v6).setRegAt m.gid 7 v7).updCtx m.gid fun c =>
      { c with link := j.link, work := j.work }).readyAt m.gid j.pc := by
  have hown : decide (m.gid = m.gid) = true := decide_eq_true rfl
  rw [State.joinReply, hj]
  dsimp only
  rw [if_neg (not_not.2 hv), State.both_alone hpair, if_neg]
  · dsimp only [List.foldl]
    rw [hown]
    exact State.joinLast_eq hm hp hsaved
  · simpa [State.anyEmpty_saved] using he

end

/-! ### A reply whose context is gone -/

/-- To work that is gone a reply brings nothing, but what ends with it has ended. -/
theorem exec_deposit_lost {s t : State} {m : Reply} (hw : s.fab.waiting = []) (hd : m.dest = none) (hl : s.tooLate m = false)
    (ha : s.movedAway m.gid m.gen = false) (hn : ∀ op, m.use ≠ .number op)
    (ht : ∀ item f, s.toContext m.gid m.gen item f = t) : exec (.deposit m) s = .next (t.writeEnds m.use) := by
  rw [exec_deposit_context hw hd hl hn, State.takeDeposit, if_neg (by rw [ha]; exact Bool.false_ne_true), ht]

theorem State.toContext_gone {s : State} {g n : Nat} (ha : s.movedAway g n = false) (hh : (s.core (coreOf g)).halted = false) (hg : (s.ctx g).gen ≠ n)
    (item : Item) (f : State → State) : s.toContext g n item f = s := by
  rw [State.toContext, if_neg (by rw [ha]; exact Bool.false_ne_true), if_neg (by rw [hh]; exact Bool.false_ne_true), if_pos hg]
theorem State.toContext_halted {s : State} {g n : Nat} (ha : s.movedAway g n = false) (hh : (s.core (coreOf g)).halted = true)
    (item : Item) (f : State → State) : s.toContext g n item f = s.updCore (coreOf g) fun k => { k with dropped := k.dropped + 1 } := by
  rw [State.toContext, if_neg (by rw [ha]; exact Bool.false_ne_true), if_pos hh]

/-- What ends with a reply, by its use. -/
theorem State.writeEnds_cases (t : State) (u : Use) :
    ((∀ op, u ≠ .drainFlags op ∧ ∀ d, u ≠ .getWord op d) → t.writeEnds u = t) ∧
    (∀ op, u = .drainFlags op → t.writeEnds u = t.drainEnd op) ∧
    (∀ op d, u = .getWord op d → ∀ o, t.op? op = some o → t.writeEnds u = t.finishOp o) := by
  refine ⟨fun h => ?_, ?_, ?_⟩
  · cases u with
    | drainFlags op => exact absurd rfl (h op).1
    | getWord op d => exact absurd rfl ((h op).2 d)
    | _ => rfl
  · rintro op rfl
    rfl
  · rintro op d rfl o ho
    rw [State.writeEnds, ho]

/-! ### Acknowledgements and acceptances -/

theorem exec_storeAcknowledgement {s : State} {r : Request} {g n : Nat} (hr : r.src = .ctx g n) (hw : s.fab.waiting = []) (hh : s.Holds g n)
    (hm : (s.ctx g).mode = .parked) (hp : (s.ctx g).park = .reply r.rid) : exec (.storeAcknowledgement r) s = .next (s.readyAt g r.next) := by
  have hack : s.takeAck g r = s.readyAt g r.next := by
    rw [State.takeAck, State.both_alone hh.paired]
    exact State.rejoin_parked hm (by simp [hp, awaitsReply]) _
  show execStoreAcknowledgement r s = _
  unfold execStoreAcknowledgement
  dsimp only
  rw [State.stationDone_none hw, hr]
  dsimp only
  rw [State.toContext_holds hh, hack]

/-- The acceptance of a task or of a cancel: the context that waits for it goes on. -/
theorem State.takeReply_accept {s : State} {g n : Nat} {pc : W64} (hp : (s.core (coreOf g)).paired = false) (hm : (s.ctx g).mode = .parked)
    (ha : awaitsAnswer (s.ctx g).park = some pc) (hi : ¬(isCtx0 g = true ∧ (s.ctx g).inh = true)) :
    s.takeReply (acceptReply g n) = s.readyAt g pc := by
  have hanswer : s.rejoinAnswer g = s.readyAt g pc := by
    unfold State.rejoinAnswer
    dsimp only
    rw [if_neg (by simpa using hi), ha]
    exact State.rejoin_parked hm (by simp [ha]) pc
  rw [State.takeReply_holds (m := acceptReply g n) hp rfl]
  exact hanswer

theorem exec_callatAcceptance {s : State} {g n : Nat} {pc : W64} (hh : s.Holds g n) (hm : (s.ctx g).mode = .parked) (hp : (s.ctx g).park = .callat pc)
    (hi : ¬(isCtx0 g = true ∧ (s.ctx g).inh = true)) : exec (.callatAcceptance g n) s = .next (s.readyAt g pc) := by
  show Host.Outcome.next (s.toContext g n (.reply (acceptReply g n)) fun s => s.takeReply (acceptReply g n)) = _
  rw [State.toContext_holds hh, State.takeReply_accept hh.paired hm (by rw [hp]; rfl) hi]

/-- A cancel is accepted, and goes to every die. -/
theorem exec_cancelAcceptance {s u : State} {g n : Nat} {pc : W64} {x : CancelTarget} (hh : s.Holds g n) (hm : (s.ctx g).mode = .parked)
    (hp : (s.ctx g).park = .cancel pc) (hi : ¬(isCtx0 g = true ∧ (s.ctx g).inh = true))
    (hx : s.isCompletion (dieOf (coreOf g)) x.tenant x.ctr = (u, true)) :
    exec (.cancelAcceptance g n x) s = .next ((u.post (.cancelApply { x with ctr := localAddr x.ctr })).readyAt g pc) := by
  have hcpu : (u.post (.cancelApply { x with ctr := localAddr x.ctr })).cpu = s.cpu :=
    by
    have hu : u.HasCpu s.cpu := State.isCompletion_cpu hx rfl
    exact hu
  have hctx : (u.post (.cancelApply { x with ctr := localAddr x.ctr })).ctx g = s.ctx g := by rw [State.ctx, hcpu]; rfl
  have hholds := hh.of_cpu hcpu
  show execCancelAcceptance g n x s = _
  unfold execCancelAcceptance
  rw [hx]
  dsimp only
  rw [State.toContext_holds hholds, State.takeReply_accept hholds.paired (by rw [hctx]; exact hm) (by rw [hctx, hp]; rfl) (by rw [hctx]; exact hi)]

theorem exec_cancelAcceptance_refused {s u : State} {g n : Nat} {x : CancelTarget} (hx : s.isCompletion (dieOf (coreOf g)) x.tenant x.ctr = (u, false)) :
    exec (.cancelAcceptance g n x) s =
      .next (u.post (.faultReply { fwRequest 0 x.tenant .ctrAdd x.ctr 0 with src := .ctx g n } 0x0B x.ctr)) := by
  show execCancelAcceptance g n x s = _
  unfold execCancelAcceptance
  rw [hx]

/-- What a parked instruction waits for has come, or has not. -/
theorem exec_parkedInstructionResume {s : State} {g : Nat} (hm : (s.ctx g).mode = .parked) :
    let issues : State := s.setCtx g { s.ctx g with mode := .ready, park := .nothing }
    (∀ k, (s.ctx g).park = .register k → exec (.parkedInstructionResume g) s = .next (if spGet false s.cpu.regEmpty k then s else issues)) ∧
    (∀ l, (s.ctx g).park = .line l → exec (.parkedInstructionResume g) s = .next (if s.lineHolders (coreOf g) l = [] then issues else s)) ∧
    ((s.ctx g).park = .deposits → exec (.parkedInstructionResume g) s = .next (if s.awaitsDeposit g then s else s.retire g)) := by
  refine ⟨fun k hp => ?_, fun l hp => ?_, fun hp => ?_⟩ <;>
  · show execParkedInstructionResume g s = _
    unfold execParkedInstructionResume
    dsimp only
    rw [hm, hp]

/-! ### The statement's clauses -/

theorem exec_deposit_joined {s : State} {m : Reply} (hw : s.fab.waiting = []) (hh : s.Holds m.gid m.gen) (hd : m.dest = none) (hl : s.tooLate m = false)
    (hm : (s.ctx m.gid).mode = .parked) (hp : (s.ctx m.gid).park = .reply m.rid) {key : Nat} {w0 : W64} {j : JoinRec} (hu : m.use = .join key w0)
    (hj : spGet none (s.die (key / 4096)).joins (key % 4096) = some j) :
    (m.data ≠ 1 → exec (.deposit m) s = .next (if isCtx0 m.gid then s.joinTrap m.gid 0x01 w0
      else (s.setCtx m.gid { s.ctx m.gid with park := .deposits, work := .participant }).post (.parkedInstructionResume m.gid))) ∧
    (m.data = 1 → (s.emptyAt m.gid 4 || s.emptyAt m.gid 5 || s.emptyAt m.gid 6 || s.emptyAt m.gid 7) = true →
      exec (.deposit m) s = .next ((s.setJoin key (some { j with value := 1 })).joinTrap m.gid 0x03 w0)) ∧
    (m.data = 1 → (s.emptyAt m.gid 4 || s.emptyAt m.gid 5 || s.emptyAt m.gid 6 || s.emptyAt m.gid 7) = false → ∀ v4 v5 v6 v7 : W64, j.saved = [v4, v5, v6, v7] →
      exec (.deposit m) s = .next (((((((s.setJoin key none).setRegAt m.gid 4 v4).setRegAt m.gid 5 v5).setRegAt m.gid 6 v6).setRegAt m.gid 7 v7).updCtx m.gid
        fun c => { c with link := j.link, work := j.work }).readyAt m.gid j.pc)) := by
  rw [exec_deposit_join hw hh hd hl hp hu]
  refine ⟨fun hv => ?_, fun hv he => ?_, fun hv he v4 v5 v6 v7 hsaved => ?_⟩
  · rw [State.joinReply_other hh.paired hp hj hv]
  · rw [State.joinReply_collides hh.paired hj hv he]
  · rw [State.joinReply_last hh.paired hp hj hm hv he hsaved]

/-- Settles O40: the deposits by their use, then replies that meet no context, acknowledgements, acceptances, resumptions. -/
theorem replies : Obligations.Replies := by
  refine ⟨fun m s hat hd hl => ?_, fun m s hw hd hl ha hn => ⟨fun hh hg => ?_, fun hh => ?_⟩, fun m op s hw hd hl hu => ?_,
    fun m s hw hl => ⟨fun q hd => exec_deposit_remote hw hl hd, fun w hd => exec_deposit_fwWait hw hl hd⟩, fun m s hw hl => exec_deposit_late hw hl,
    fun r g n s hr hat hm hp => ?_, fun g n pc s hat hm hp hi => exec_callatAcceptance (State.atHand_iff.1 hat).2 hm hp hi,
    fun g n pc x s hat hm hp hi => ?_, fun g n x s => ?_, fun g s hm => exec_parkedInstructionResume hm⟩
  · obtain ⟨hw, hh⟩ := State.atHand_iff.1 hat
    refine ⟨fun hm hp hs => ⟨fun d hu => exec_deposit_reg hw hh hd hl hm hp hs hu, fun d hu => exec_deposit_regFlags hw hh hd hl hm hp hs hu,
      fun d hu => exec_deposit_pair hw hh hd hl hp hs hu, fun d hu => exec_deposit_pairHigh hw hh hd hl hm hp hs hu,
      fun d a b hu => exec_deposit_blkStore hw hh hd hl hm hp hu, fun d a b hu => ?_, fun hu hrid => exec_deposit_ack hw hh hd hl hm hp hu hrid,
      fun key w0 j hu hj => ?_⟩, fun d hu => ?_, fun op hu => exec_deposit_drainFlags hw hh hd hl hu,
      fun hm hp hr q childPc hu => exec_deposit_placed hw hh hd hl hm hp hr hu⟩
    · rw [exec_deposit_blkLoad hw hh hd hl hp hu, State.blkStore_alone hh.paired hp]
    · obtain ⟨hother, hcollides, hlast⟩ := exec_deposit_joined hw hh hd hl hm hp hu hj
      exact ⟨fun hv h0 => by rw [hother hv, if_neg (by rw [h0]; exact Bool.false_ne_true)], fun hv h0 => by rw [hother hv, if_pos h0]; rfl, hcollides, hlast⟩
    · rw [exec_deposit_value hw hh hd hl hu, State.fillReg_eq]
  · rw [exec_deposit_lost hw hd hl ha hn (State.toContext_gone ha hh hg)]
    obtain ⟨hnone, hdrain, hget⟩ := s.writeEnds_cases m.use
    exact ⟨fun h => by rw [hnone h], fun op h => by rw [hdrain op h], fun op d h o ho => by rw [hget op d h o ho]⟩
  · rw [exec_deposit_lost hw hd hl ha hn (State.toContext_halted ha hh)]
    obtain ⟨hnone, hdrain, hget⟩ := (s.updCore (coreOf m.gid) fun k => { k with dropped := k.dropped + 1 }).writeEnds_cases m.use
    exact ⟨fun h => by rw [hnone h], fun op h => by rw [hdrain op h], fun op d h o ho => by rw [hget op d h o ho]⟩
  · rw [exec_deposit_number hw hd hl hu, State.bindAnswer]
    cases m.ok <;> rfl
  · obtain ⟨hw, hh⟩ := State.atHand_iff.1 hat
    exact exec_storeAcknowledgement hr hw hh hm hp
  · generalize hx : s.isCompletion (dieOf (coreOf g)) x.tenant x.ctr = q
    obtain ⟨u, yes⟩ := q
    rintro rfl
    exact exec_cancelAcceptance (State.atHand_iff.1 hat).2 hm hp hi hx
  · generalize hx : s.isCompletion (dieOf (coreOf g)) x.tenant x.ctr = q
    obtain ⟨u, yes⟩ := q
    rintro rfl
    exact ⟨_, rfl, rfl, rfl, exec_cancelAcceptance_refused hx⟩

end Sys2Proof.Machine
end


section
/-!
SUPPORT. Live migration (spec/02 R69-R74; spec/22 R431; log 21): spans of a storage that move, contexts that leave, items on their way, the
installation, the entry's end.
-/

namespace Sys2Proof

theorem spGetList_getD {α : Type} {d : α} {m : Sparse α} {k n i : Nat} (h : i < n) : (spGetList d m k n).getD i d = spGet d m (k + i) := by
  induction n generalizing k i with
  | zero => exact absurd h (Nat.not_lt_zero _)
  | succ n ih =>
    cases i with
    | zero => rfl
    | succ i =>
      rw [spGetList, List.getD_cons_succ, ih (Nat.lt_of_succ_lt_succ h)]
      exact congrArg _ (by omega)

end Sys2Proof

namespace Sys2Proof.Machine

open Sys2Proof

/-! ### A span that moves -/

/-- A span reads at its new place as it did at the old one, where the two places lie apart. -/
theorem spGet_moveSpan {α : Type} [DecidableEq α] {d : α} {m : Sparse α} {src dst n i : Nat} (h : spWf d m = true) (hi : i < n)
    (hd : src + n ≤ dst ∨ dst + n ≤ src) : spGet d (moveSpan d m src dst n) (dst + i) = spGet d m (src + i) := by
  rw [moveSpan, spGet_spFill (spSetList_wf h), if_neg (by omega), spGet_spSetList h, spGetList_length, if_pos (by omega), Nat.add_sub_cancel_left,
    spGetList_getD hi]

/-! ### Contexts that leave (R69, R70) -/

theorem State.mem_movers {s : State} {src g : Nat} : g ∈ s.movers src ↔ (∃ i, 1 ≤ i ∧ i ≤ 15 ∧ g = 16 * src + i) ∧ (s.ctx g).mode ≠ .idle := by
  simp only [State.movers, List.mem_filter, List.mem_map, List.mem_range'_1, decide_eq_true_eq, ne_eq]
  refine and_congr_left fun _ => ⟨?_, ?_⟩
  · rintro ⟨i, ⟨h1, h2⟩, rfl⟩
    exact ⟨i, h1, by omega, rfl⟩
  · rintro ⟨i, h1, h2, rfl⟩
    exact ⟨i, ⟨h1, by omega⟩, rfl⟩

/-- A change to a context that does nothing more the second time, made on the contexts of a list in turn. -/
theorem State.ctx_foldl_updCtx {f : Ctx → Ctx} (hf : ∀ c, f (f c) = f c) {s : State} (h : s.Canon) (l : List Nat) (k : Nat) :
    (l.foldl (fun s g => s.updCtx g f) s).ctx k = if k ∈ l then f (s.ctx k) else s.ctx k := by
  induction l generalizing s with
  | nil => rfl
  | cons g l ih =>
    rw [List.foldl_cons, ih (State.updCtx_canon h), State.ctx_updCtx h]
    by_cases hk : k = g
    · simp [← hk, hf]
    · simp [hk]

/-- The contexts of a list are in transit. -/
def State.stopped (s : State) (gs : List Nat) : State := gs.foldl (fun s g => s.updCtx g fun c => { c with mode := .inTransit }) s

theorem State.stopped_kept {α : Type} (f : State → α) (h : ∀ s g c, f (State.updCtx s g c) = f s) (s : State) (gs : List Nat) : f (s.stopped gs) = f s :=
  State.foldl_same f (fun _ _ => h _ _ _) gs s
theorem State.stopped_canon {s : State} (h : s.Canon) (gs : List Nat) : (s.stopped gs).Canon := h.foldl fun _ _ h => State.updCtx_canon h
theorem State.ctx_stopped {s : State} (h : s.Canon) (gs : List Nat) (k : Nat) :
    (s.stopped gs).ctx k = if k ∈ gs then { s.ctx k with mode := .inTransit } else s.ctx k :=
  State.ctx_foldl_updCtx (f := fun c => { c with mode := .inTransit }) (fun _ => rfl) h gs k

/-- The entry that a departure sets up. -/
def State.departure (s : State) (src dst : Nat) : Forward :=
  { dst, installed := false, moved := (s.movers src).map fun g => ((s.ctx g).gen, g, 16 * dst + ctxNo g, (s.ctx g).mode), owedOps := [], held := [] }

theorem State.depart_eq (s : State) (src dst : Nat) :
    s.depart src dst = (s.stopped (s.movers src)).updCore src fun k => { k with fwd := some (s.departure src dst) } := rfl

/-- What a departure leaves in the cores, and what it leaves as it is. -/
theorem State.depart_cores {s : State} (h : s.Canon) (src dst : Nat) :
    (s.depart src dst).core src = { s.core src with fwd := some (s.departure src dst) } ∧ (∀ k, k ≠ src → (s.depart src dst).core k = s.core k) ∧
      (s.depart src dst).cpu.regs = s.cpu.regs ∧ (s.depart src dst).cpu.regEmpty = s.cpu.regEmpty ∧ (s.depart src dst).mem = s.mem := by
  have hcore : ∀ k, (s.stopped (s.movers src)).core k = s.core k := fun k => State.stopped_kept (fun s => s.core k) (fun _ _ _ => rfl) s _
  have hc := State.stopped_canon h (s.movers src)
  rw [State.depart_eq]
  refine ⟨?_, fun k hk => ?_, ?_, ?_, ?_⟩
  · rw [State.core_updCore hc, if_pos rfl, hcore]
  · rw [State.core_updCore hc, if_neg hk, hcore]
  · exact State.stopped_kept (·.cpu.regs) (fun _ _ _ => rfl) s _
  · exact State.stopped_kept (·.cpu.regEmpty) (fun _ _ _ => rfl) s _
  · exact State.stopped_kept (·.mem) (fun _ _ _ => rfl) s _

theorem State.depart_ctx {s : State} (h : s.Canon) (src dst k : Nat) :
    (s.depart src dst).ctx k = if k ∈ s.movers src then { s.ctx k with mode := .inTransit } else s.ctx k := State.ctx_stopped h _ k

theorem State.not_mem_movers {s : State} {src g : Nat} (h : coreOf g ≠ src ∨ isCtx0 g = true ∨ (s.ctx g).mode = .idle) : g ∉ s.movers src := by
  rw [State.mem_movers]
  rintro ⟨⟨i, h1, h2, rfl⟩, hm⟩
  rcases h with h | h | h
  · exact h (by simp only [coreOf]; omega)
  · simp only [isCtx0, decide_eq_true_eq] at h
    omega
  · exact hm h

/-- The step that looks at the entries is in flight; nothing else has changed. -/
theorem State.watch_eq (s : State) : ∃ agenda, s.watch = { s with sched := { s.sched with agenda } } ∧ ∃ p ∈ agenda, p.ev = .migrationInstalled := by
  unfold State.watch
  split
  · next h =>
    obtain ⟨p, hp, he⟩ := List.any_eq_true.1 h
    exact ⟨s.sched.agenda, rfl, p, hp, of_decide_eq_true he⟩
  · exact ⟨_, rfl, _, List.mem_append_right _ List.mem_cons_self, rfl⟩

theorem State.moveCores_alone {s : State} {src : Nat} (h : (s.core src).paired = false) (dst : Nat) : s.moveCores src dst = [(src, dst)] :=
  if_neg (by rw [h]; exact Bool.false_ne_true)

theorem exec_migrationStart_refused {s : State} {src dst : Nat} (h : s.mayMove src dst = false) : exec (.migrationStart src dst) s = .next s := by
  show execMigrationStart src dst s = _
  rw [execMigrationStart, if_neg (by rw [h]; exact Bool.false_ne_true)]
theorem exec_migrationStart {s : State} {src dst : Nat} (h : s.mayMove src dst = true) (hp : (s.core src).paired = false) :
    exec (.migrationStart src dst) s = .next (s.depart src dst).watch := by
  show execMigrationStart src dst s = _
  rw [execMigrationStart, if_pos h, State.moveCores_alone hp]
  rfl

/-! ### Items (R72, R73) -/

/-- What an entry does with an item, by whether the state is installed. -/
theorem exec_forwardedItem (core : Nat) (item : Item) (s : State) :
    ((s.core core).fwd = none → exec (.forwardedItem core item) s = .next (s.applyHere core item)) ∧
    (∀ f, (s.core core).fwd = some f → f.installed = false →
      exec (.forwardedItem core item) s = .next (s.updCore core fun k => { k with fwd := some { f with held := f.held ++ [item] } })) ∧
    (∀ f, (s.core core).fwd = some f → f.installed = true → exec (.forwardedItem core item) s = .next ((s.forward f item).dropEntry core)) := by
  refine ⟨fun h => ?_, fun f h hi => ?_, fun f h hi => ?_⟩ <;> show execForwardedItem core item s = _ <;> rw [execForwardedItem, h]
  · dsimp only
    rw [if_neg (by rw [hi]; exact Bool.false_ne_true)]
  · dsimp only
    rw [if_pos hi]

/-- An item for an incarnation goes to where that is now, or nowhere. -/
theorem State.forward_reply {s : State} {f : Forward} {m : Reply} :
    (∀ g, f.now m.gen = some g → s.forward f (.reply m) = s.takeDeposit g m) ∧ (f.now m.gen = none → s.forward f (.reply m) = s) := by
  refine ⟨fun g h => ?_, fun h => ?_⟩ <;> unfold State.forward <;> dsimp only <;> rw [h]
  rfl
theorem State.forward_request {s : State} {f : Forward} {r : Request} {g₀ n g : Nat} (hr : r.src = .ctx g₀ n) (h : f.now n = some g) :
    s.forward f (.ack r) = (s.toContext g n (.ack r) fun s => s.takeAck g r) ∧
      ∀ c a, s.forward f (.fault r c a) = (s.toContext g n (.fault r c a) fun s => s.takeFault g n r c a) := by
  refine ⟨?_, fun c a => ?_⟩ <;> unfold State.forward <;> dsimp only <;> rw [hr] <;> dsimp only <;> rw [h] <;> rfl
theorem State.forward_task {s : State} {f : Forward} {t : Task} (hl : s.launchCancelled t.launch = false) :
    ((s.core f.dst).fwd ≠ none → s.forward f (.task t) = s.post (.forwardedItem f.dst (.task t))) ∧
      ((s.core f.dst).fwd = none → (s.core f.dst).halted = false → s.forward f (.task t) = s.queueTask f.dst t) := by
  refine ⟨fun h => ?_, fun h hh => ?_⟩ <;> unfold State.forward <;> dsimp only <;> rw [if_neg (by rw [hl]; exact Bool.false_ne_true)]
  · rw [if_pos (Option.isSome_iff_ne_none.2 h)]
  · rw [if_neg (by simp [h]), if_neg (by rw [hh]; exact Bool.false_ne_true)]

/-! ### A context that moves -/

theorem State.cpu_fireGranted (s : State) (g : Nat) : (s.fireGranted g).cpu = s.cpu := by rw [State.fireGranted, State.postAll_eq]
theorem State.mem_fireGranted (s : State) (g : Nat) : (s.fireGranted g).mem = s.mem := by rw [State.fireGranted, State.postAll_eq]

/-- A base at which a block is placed lies with the block inside the register file. -/
theorem lowestBase_fits {bs : List (Nat × Nat)} {n b : Nat} (h : lowestBase bs n = some b) : b + n ≤ 1024 := by
  have hstep : ∀ (l : List Nat) (best : Option Nat), (∀ x, best = some x → x + n ≤ 1024) →
      ∀ x, l.foldl (fun best b => if fits bs b n then (match best with | none => some b | some x => some (min x b)) else best) best = some x → x + n ≤ 1024 := by
    intro l
    induction l with
    | nil => exact fun best hb => hb
    | cons y l ih =>
      intro best hb
      rw [List.foldl_cons]
      refine ih _ fun x hx => ?_
      split at hx
      · next hfits =>
        have hy : y + n ≤ 1024 := by
          simp only [fits, Bool.and_eq_true, decide_eq_true_eq] at hfits
          exact hfits.1
        cases best with
        | none => cases hx; exact hy
        | some z =>
          cases hx
          have := hb z rfl
          omega
      · exact hb x hx
  exact hstep _ none (fun _ e => nomatch e) b h

/-- The context as it stands at its new place. -/
def landedCtx (s : State) (src dst b : Nat) (m : Mode) : Ctx :=
  { s.ctx src with mode := landedMode m (s.ctx src).park
                   park := landedPark (1024 * coreOf src + (s.ctx src).base) (1024 * coreOf dst + b) (s.ctx src).park
                   base := b, limit := b + (s.ctx src).count }

section
variable {s : State} (h : s.Canon) {src dst b : Nat} (m : Mode) (hne : coreOf src ≠ coreOf dst)
  (hb : lowestBase (s.blocks (coreOf dst)) (s.ctx src).count = some b)
include h hne hb

omit h hne in
theorem State.moveCtx_cpu :
    (s.moveCtx src dst m).cpu = (((s.moveRegs (1024 * coreOf src + (s.ctx src).base) (1024 * coreOf dst + b) (s.ctx src).count).setCtx src
      (Ctx.rest src)).setCtx dst (landedCtx s src dst b m)).cpu := by
  unfold State.moveCtx
  dsimp only
  rw [hb, State.cpu_fireGranted]
  rfl

omit hne in
theorem State.moveCtx_ctx (k : Nat) :
    (s.moveCtx src dst m).ctx k = if k = dst then landedCtx s src dst b m else if k = src then Ctx.rest src else s.ctx k := by
  have hr := State.moveRegs_canon (k := 1024 * coreOf src + (s.ctx src).base) (k' := 1024 * coreOf dst + b) (n := (s.ctx src).count) h
  rw [State.ctx, State.moveCtx_cpu m hb]
  exact (State.ctx_setCtx (State.setCtx_canon hr) dst _ k).trans (if_congr Iff.rfl rfl (State.ctx_setCtx hr src _ k))

/-- Its registers read at the new place as they did, with their full/empty bits. -/
theorem State.moveCtx_regs (hle : (s.ctx src).base ≤ (s.ctx src).limit) (hlim : (s.ctx src).limit ≤ 1024) {r : Nat} (hr : r < (s.ctx src).count) :
    spGet 0 (s.moveCtx src dst m).cpu.regs (1024 * coreOf dst + b + r) = s.regAt src r ∧
      spGet false (s.moveCtx src dst m).cpu.regEmpty (1024 * coreOf dst + b + r) = s.emptyAt src r := by
  have hfits := lowestBase_fits hb
  have hcount : (s.ctx src).base + (s.ctx src).count ≤ 1024 := by
    unfold Ctx.count
    omega
  have happart : 1024 * coreOf src + (s.ctx src).base + (s.ctx src).count ≤ 1024 * coreOf dst + b ∨
      1024 * coreOf dst + b + (s.ctx src).count ≤ 1024 * coreOf src + (s.ctx src).base := by omega
  rw [State.moveCtx_cpu m hb]
  exact ⟨spGet_moveSpan h.regs hr happart, spGet_moveSpan h.regEmpty hr happart⟩

end

/-! ### The end of a move -/

/-- A core that is not as after reset is listed, as it stands. -/
theorem State.core_listed {s : State} (h : s.Canon) {k : Nat} (hne : s.core k ≠ Core.init) : (k, s.core k) ∈ s.cpu.cores := by
  by_cases hk : k ∈ s.cpu.cores.map (·.1)
  · obtain ⟨⟨j, c⟩, hm, rfl⟩ := List.mem_map.1 hk
    rwa [State.core, spGet_mem h.cores hm]
  · exact absurd (spGet_none hk) hne

/-- Some core holds an entry. -/
def State.anyEntry (s : State) : Bool := s.cpu.cores.any fun k => k.2.fwd.isSome

theorem State.anyEntry_iff {s : State} (h : s.Canon) : s.anyEntry = true ↔ ∃ k, (s.core k).fwd ≠ none := by
  unfold State.anyEntry
  rw [List.any_eq_true]
  constructor
  · rintro ⟨⟨k, c⟩, hm, hf⟩
    exact ⟨k, by rw [State.core, spGet_mem h.cores hm]; exact Option.isSome_iff_ne_none.1 hf⟩
  · rintro ⟨k, hf⟩
    refine ⟨(k, s.core k), State.core_listed h fun e => hf (by rw [e]; rfl), Option.isSome_iff_ne_none.2 hf⟩

theorem exec_migrationInstalled (s : State) :
    exec .migrationInstalled s = .next (
      let t := ((s.cpu.cores.filter fun k => k.2.fwd.isSome).map (·.1)).foldl State.lookAt s
      if t.anyEntry then t.watch else t) := rfl

/-- One core alone holds an entry. -/
theorem State.only_entry {s : State} (h : s.Canon) {src : Nat} {k : Core} (hk : s.cpu.cores.filter (fun x => x.2.fwd.isSome) = [(src, k)]) :
    s.core src = k ∧ ∀ j, j ≠ src → (s.core j).fwd = none := by
  have hmem : (src, k) ∈ s.cpu.cores := (List.mem_filter.1 (hk ▸ List.mem_cons_self : (src, k) ∈ s.cpu.cores.filter fun x => x.2.fwd.isSome)).1
  refine ⟨spGet_mem h.cores hmem, fun j hj => ?_⟩
  by_contra hf
  have hlisted : (j, s.core j) ∈ s.cpu.cores.filter fun x => x.2.fwd.isSome :=
    List.mem_filter.2 ⟨State.core_listed h fun e => hf (by rw [e]; rfl), Option.isSome_iff_ne_none.2 hf⟩
  rw [hk, List.mem_singleton] at hlisted
  exact hj (congrArg Prod.fst hlisted)

/-- With one entry, its source is looked at. -/
theorem exec_migrationInstalled_one {s : State} {src : Nat} {k : Core} (hk : s.cpu.cores.filter (fun x => x.2.fwd.isSome) = [(src, k)]) :
    exec .migrationInstalled s = .next (if (s.lookAt src).anyEntry then (s.lookAt src).watch else s.lookAt src) := by
  rw [exec_migrationInstalled, hk]
  rfl

/-! ### Installation (R69, R70, R73) -/

/-- What an operation keeps and what it takes along where the core that it belongs to moves. -/
def State.opMoved (s : State) (src : Nat) (f : Forward) (o : EngOp) : EngOp :=
  { o with gid := movedGid f o, core := if (s.unsentOps src).contains o.id then f.dst else o.core
           abCore := if o.abCore = src && (o.pending || (s.unsentOps src).contains o.id) then f.dst else o.abCore
           got := match o.work with
             | .collPut _ off len => if o.abCore = src && o.got.isNone then some (s.putRows o off len) else o.got
             | _ => o.got }
/-- The buffers and the operations have moved. -/
def State.carried (s : State) (src : Nat) (f : Forward) : State :=
  { s.moveBuffers src f.dst with eng := { s.eng with ops := s.eng.ops.map (s.opMoved src f) } }
/-- The destination as it stands once everything but the contexts has moved. -/
def State.landed (s : State) (src : Nat) (f : Forward) : State :=
  let u := s.carried src f
  (u.updCore f.dst fun d => { d with tasks := d.tasks ++ (u.core src).tasks, callers := d.callers ++ (u.core src).callers
                                     pairOut := (u.core src).pairOut.map fun x => (x.1, x.2.1, landedMsg f.dst x.2.2), paired := (u.core src).paired }).updCore
    src fun d => { d with tasks := [], callers := [], pairOut := [] }

theorem State.moveCore_eq (s : State) (src : Nat) (f : Forward) : s.moveCore src f = f.moved.foldl (fun s m => s.moveCtx m.2.1 m.2.2.1 m.2.2.2) (s.landed src f) := by
  unfold State.moveCore State.landed
  rfl

theorem State.carried_canon {s : State} (h : s.Canon) (src : Nat) (f : Forward) : (s.carried src f).Canon := (State.moveBuffers_canon h).other
/-- The state with other buffers and engines. -/
def State.withBuffers (s : State) (ab : Sparse Byte) (abEmpty : Sparse (List Nat)) (ps : Sparse Byte) (tiles : Sparse Tile) (eng : Engines) : State :=
  { s with cpu := { s.cpu with ab, abEmpty, ps, tiles }, eng }
theorem State.moveBuffers_eq (s : State) (src dst : Nat) :
    s.moveBuffers src dst = s.withBuffers (moveSpan 0 s.cpu.ab (24576 * src) (24576 * dst) 24576) (moveSpan [] s.cpu.abEmpty (192 * src) (192 * dst) 192)
      (moveSpan 0 s.cpu.ps (8192 * src + 512) (8192 * dst + 512) 7680) (moveSpan Tile.init s.cpu.tiles (2 * src) (2 * dst) 2) s.eng := rfl
theorem State.eng_withBuffers (s : State) (ab : Sparse Byte) (abEmpty : Sparse (List Nat)) (ps : Sparse Byte) (tiles : Sparse Tile) (e e' : Engines) :
    { s.withBuffers ab abEmpty ps tiles e with eng := e' } = s.withBuffers ab abEmpty ps tiles e' := rfl
theorem State.core_withBuffers (s : State) (ab : Sparse Byte) (abEmpty : Sparse (List Nat)) (ps : Sparse Byte) (tiles : Sparse Tile) (e : Engines) (c : Nat) :
    (s.withBuffers ab abEmpty ps tiles e).core c = s.core c := rfl
theorem State.carried_eq (s : State) (src : Nat) (f : Forward) :
    s.carried src f = s.withBuffers (moveSpan 0 s.cpu.ab (24576 * src) (24576 * f.dst) 24576) (moveSpan [] s.cpu.abEmpty (192 * src) (192 * f.dst) 192)
      (moveSpan 0 s.cpu.ps (8192 * src + 512) (8192 * f.dst + 512) 7680) (moveSpan Tile.init s.cpu.tiles (2 * src) (2 * f.dst) 2)
      { s.eng with ops := s.eng.ops.map (s.opMoved src f) } := by
  rw [State.carried, State.moveBuffers_eq, State.eng_withBuffers]
theorem State.core_carried (s : State) (src : Nat) (f : Forward) (c : Nat) : (s.carried src f).core c = s.core c := by
  rw [State.carried_eq, State.core_withBuffers]
/-- Setting core records keeps the buffers, the contexts, the registers and the memory. -/
theorem State.kept_updCore (s : State) (c : Nat) (k : Core → Core) :
    (s.updCore c k).cpu.ab = s.cpu.ab ∧ (s.updCore c k).cpu.abEmpty = s.cpu.abEmpty ∧ (s.updCore c k).cpu.ps = s.cpu.ps ∧
      (s.updCore c k).cpu.tiles = s.cpu.tiles ∧ (s.updCore c k).cpu.ctxs = s.cpu.ctxs ∧ (s.updCore c k).cpu.regs = s.cpu.regs ∧
      (s.updCore c k).cpu.regEmpty = s.cpu.regEmpty ∧ (s.updCore c k).mem = s.mem := ⟨rfl, rfl, rfl, rfl, rfl, rfl, rfl, rfl⟩
theorem State.kept_withBuffers (s : State) (ab : Sparse Byte) (abEmpty : Sparse (List Nat)) (ps : Sparse Byte) (tiles : Sparse Tile) (e : Engines) :
    (s.withBuffers ab abEmpty ps tiles e).cpu.ab = ab ∧ (s.withBuffers ab abEmpty ps tiles e).cpu.abEmpty = abEmpty ∧
      (s.withBuffers ab abEmpty ps tiles e).cpu.ps = ps ∧ (s.withBuffers ab abEmpty ps tiles e).cpu.tiles = tiles ∧
      (s.withBuffers ab abEmpty ps tiles e).cpu.ctxs = s.cpu.ctxs ∧ (s.withBuffers ab abEmpty ps tiles e).cpu.regs = s.cpu.regs ∧
      (s.withBuffers ab abEmpty ps tiles e).cpu.regEmpty = s.cpu.regEmpty ∧ (s.withBuffers ab abEmpty ps tiles e).mem = s.mem :=
  ⟨rfl, rfl, rfl, rfl, rfl, rfl, rfl, rfl⟩
/-- The buffers have moved; contexts, registers and memory have not. -/
theorem State.landed_kept (s : State) (src : Nat) (f : Forward) :
    (s.landed src f).cpu.ab = moveSpan 0 s.cpu.ab (24576 * src) (24576 * f.dst) 24576 ∧
      (s.landed src f).cpu.abEmpty = moveSpan [] s.cpu.abEmpty (192 * src) (192 * f.dst) 192 ∧
      (s.landed src f).cpu.ps = moveSpan 0 s.cpu.ps (8192 * src + 512) (8192 * f.dst + 512) 7680 ∧
      (s.landed src f).cpu.tiles = moveSpan Tile.init s.cpu.tiles (2 * src) (2 * f.dst) 2 ∧
      (s.landed src f).cpu.ctxs = s.cpu.ctxs ∧ (s.landed src f).cpu.regs = s.cpu.regs ∧ (s.landed src f).cpu.regEmpty = s.cpu.regEmpty ∧
      (s.landed src f).mem = s.mem := by
  rw [State.landed]
  simp only [State.kept_updCore, State.carried_eq, State.kept_withBuffers, and_self]

/-- The cores of the two places and the others, once the queues have moved. -/
theorem State.landed_cores {s : State} (h : s.Canon) {src : Nat} {f : Forward} (hne : f.dst ≠ src) :
    ((s.landed src f).core f.dst).tasks = (s.core f.dst).tasks ++ (s.core src).tasks ∧
      ((s.landed src f).core f.dst).callers = (s.core f.dst).callers ++ (s.core src).callers ∧
      ((s.landed src f).core f.dst).paired = (s.core src).paired ∧ ((s.landed src f).core src).tasks = [] ∧ ((s.landed src f).core src).callers = [] ∧
      ∀ c, c ≠ src → c ≠ f.dst → (s.landed src f).core c = s.core c := by
  have hc := State.carried_canon h src f
  have hcore : ∀ c, (s.landed src f).core c = if c = src then { (s.carried src f).core src with tasks := [], callers := [], pairOut := [] }
      else if c = f.dst then { s.core f.dst with
        tasks := (s.core f.dst).tasks ++ (s.core src).tasks, callers := (s.core f.dst).callers ++ (s.core src).callers
        pairOut := (s.core src).pairOut.map fun x => (x.1, x.2.1, landedMsg f.dst x.2.2), paired := (s.core src).paired }
      else s.core c := fun c => by
    rw [State.landed, State.core_updCore (State.updCore_canon hc), State.core_updCore hc, State.core_updCore hc, if_neg hne.symm]
    simp only [State.core_carried]
  refine ⟨?_, ?_, ?_, ?_, ?_, fun c h1 h2 => by rw [hcore, if_neg h1, if_neg h2]⟩
  · rw [hcore, if_neg hne, if_pos rfl]
  · rw [hcore, if_neg hne, if_pos rfl]
  · rw [hcore, if_neg hne, if_pos rfl]
  · rw [hcore, if_pos rfl]
  · rw [hcore, if_pos rfl]

/-- The buffers at their new place read as they did at the old one. -/
theorem State.landed_buffers {s : State} (h : s.Canon) {src : Nat} {f : Forward} (hne : f.dst ≠ src) :
    (∀ i, i < 24576 → spGet 0 (s.landed src f).cpu.ab (24576 * f.dst + i) = spGet 0 s.cpu.ab (24576 * src + i)) ∧
      (∀ i, i < 192 → spGet [] (s.landed src f).cpu.abEmpty (192 * f.dst + i) = spGet [] s.cpu.abEmpty (192 * src + i)) ∧
      (∀ i, i < 7680 → spGet 0 (s.landed src f).cpu.ps (8192 * f.dst + 512 + i) = spGet 0 s.cpu.ps (8192 * src + 512 + i)) ∧
      ∀ i, i < 2 → spGet Tile.init (s.landed src f).cpu.tiles (2 * f.dst + i) = spGet Tile.init s.cpu.tiles (2 * src + i) := by
  obtain ⟨hab, hempty, hps, htiles, -⟩ := s.landed_kept src f
  rw [hab, hempty, hps, htiles]
  exact ⟨fun _ hi => spGet_moveSpan h.ab hi (by omega), fun _ hi => spGet_moveSpan h.abEmpty hi (by omega),
    fun _ hi => spGet_moveSpan h.ps hi (by omega), fun _ hi => spGet_moveSpan h.tiles hi (by omega)⟩

/-- The entry once the state is installed. -/
def Forward.open_ (f : Forward) (fills : List Nat) : Forward := { f with installed := true, owedOps := fills, held := [] }

theorem State.install_eq {s : State} {src : Nat} {f : Forward} (h : (s.core src).fwd = some f) :
    s.install src = ((f.moved.foldl (fun s m => s.moveCtx m.2.1 m.2.2.1 m.2.2.2) (s.landed src f)).updCore src fun k =>
      { k with fwd := some (f.open_ (s.fillersOf src)) }).postHeld src f.held := by
  rw [State.install, h]
  dsimp only
  rw [State.moveCore_eq]
  rfl

theorem State.sources_alone {s : State} {src : Nat} (h : (s.core src).paired = false) : s.sources src = [src] := by
  unfold State.sources
  split
  · split
    · rw [State.bothCores, if_neg (by rw [h]; exact Bool.false_ne_true)]
    · rfl
  · rfl

section
variable {s : State} {src : Nat} {f : Forward} (hf : (s.core src).fwd = some f)
include hf

/-- The look at a source that leaves alone, before installation. -/
theorem State.lookAt_leaving (hp : (s.core src).paired = false) (hi : f.installed = false) :
    s.lookAt src = if s.capturable src && s.landingFree f.dst then (s.install src).post (.taskStart f.dst) else s := by
  unfold State.lookAt
  rw [hf]
  dsimp only
  rw [State.sources_alone hp, if_neg (by rw [hi]; exact Bool.false_ne_true)]
  simp only [List.all_cons, List.all_nil, Bool.and_true, hf]
  rfl

/-- The look at a source whose state is installed. -/
theorem State.lookAt_installed (hi : f.installed = true) : s.lookAt src = if s.owes src f then s
    else ((s.updCore src fun k => { k with fwd := none }).post (.placementRetry (dieOf src))).post (.taskStart src) := by
  unfold State.lookAt
  rw [hf]
  dsimp only
  rw [if_pos hi]
  unfold State.dropEntry
  rw [hf]
  dsimp only
  rw [hi]
  rfl

theorem exec_migrationAbandon (hp : (s.core src).paired = false) (hi : f.installed = false) :
    exec (.migrationAbandon src) s = .next ((((f.moved.foldl State.goBack (s.updCore src fun k => { k with fwd := none })).postHeld src f.held).post
      (.taskStart src)).post (.placementRetry (dieOf src))) := by
  show execMigrationAbandon src s = _
  rw [execMigrationAbandon, State.abandonMigration, State.sources_alone hp]
  dsimp only [List.foldl]
  rw [hf]
  dsimp only
  rw [if_neg (by rw [hi]; exact Bool.false_ne_true)]

/-- The entry is there as long as the state has not been installed and cannot be, or something is owed. -/
theorem State.anyEntry_of (h : s.Canon) : s.anyEntry = true := (State.anyEntry_iff h).2 ⟨src, by rw [hf]; exact Option.some_ne_none f⟩

end

theorem exec_migrationAbandon_none {s : State} {src : Nat} (h : (s.core src).fwd = none) : exec (.migrationAbandon src) s = .next s := by
  show execMigrationAbandon src s = _
  have hs : s.sources src = [src] := by rw [State.sources, h]
  rw [execMigrationAbandon, State.abandonMigration, hs]
  dsimp only [List.foldl]
  rw [h]

/-- After an installation the entry stands. -/
theorem State.anyEntry_install {s : State} (h : s.Canon) {src : Nat} {f : Forward} (hf : (s.core src).fwd = some f) (ev : Instr) :
    ((s.install src).post ev).anyEntry = true := by
  refine (State.anyEntry_iff (State.post_canon (State.install_canon h))).2 ⟨src, ?_⟩
  have hc : (f.moved.foldl (fun s m => s.moveCtx m.2.1 m.2.2.1 m.2.2.2) (s.landed src f)).Canon := by
    rw [← State.moveCore_eq]
    exact State.moveCore_canon h
  have hcore : ((s.install src).core src).fwd = some (f.open_ (s.fillersOf src)) := by
    rw [State.install_eq hf]
    exact (congrArg Core.fwd (State.core_updCore hc src (fun k => { k with fwd := some (f.open_ (s.fillersOf src)) }) src)).trans (by rw [if_pos rfl])
  show ((s.install src).core src).fwd ≠ none
  rw [hcore]
  exact Option.some_ne_none _

/-- Once its one entry is dropped no core holds one. -/
theorem State.anyEntry_dropped {s : State} (h : s.Canon) {src : Nat} (hother : ∀ j, j ≠ src → (s.core j).fwd = none) (e1 e2 : Instr) :
    (((s.updCore src fun k => { k with fwd := none }).post e1).post e2).anyEntry = false := by
  rw [Bool.eq_false_iff]
  intro hany
  obtain ⟨j, hj⟩ := (State.anyEntry_iff (State.post_canon (State.post_canon (State.updCore_canon h)))).1 hany
  refine hj ?_
  have hcore := State.core_updCore h src (fun k => { k with fwd := none }) j
  refine (congrArg Core.fwd hcore).trans ?_
  split
  · rfl
  · next hne => exact hother j hne

/-- Settles O52: starts, items, contexts that move, abandoned moves, installation, the entry's end. -/
theorem migration : Obligations.Migration := by
  refine ⟨fun src dst s h => exec_migrationStart_refused h, fun src dst s hcan h hp => ?_, fun core item s => ?_, fun f s => ?_,
    fun src dst b m s hcan hne hle hlim hb => ?_, fun src f s hf hp hi => exec_migrationAbandon hf hp hi, fun src s h => exec_migrationAbandon_none h,
    fun s hnone => ?_, fun src k f s hcan hk hkf hi hp hdst => ?_, fun src k f s hcan hk hkf hi => ?_⟩
  · have hc := State.canonical_iff.1 hcan
    obtain ⟨hsrc, hother, hregs, hempty, hmem⟩ := State.depart_cores hc src dst
    obtain ⟨agenda, hw, hev⟩ := (s.depart src dst).watch_eq
    refine ⟨_, exec_migrationStart h hp, ?_⟩
    rw [hw]
    refine ⟨fun i h1 h15 hm => ?_, fun g hg => ?_, hsrc, hother, hregs, hempty, hmem, hev⟩
    · exact (State.depart_ctx hc src dst _).trans (if_pos (State.mem_movers.2 ⟨⟨i, h1, h15, rfl⟩, hm⟩))
    · exact (State.depart_ctx hc src dst g).trans (if_neg (State.not_mem_movers hg))
  · obtain ⟨hhere, hheld, hon⟩ := exec_forwardedItem core item s
    refine ⟨fun h => ⟨?_, fun r g n hr => ⟨?_, ?_, ?_⟩, ?_, ?_, ?_⟩, hheld, hon⟩ <;> rw [hhere h]
    · rintro m rfl
      rfl
    · rintro rfl
      rw [State.applyHere, hr]
      rfl
    · rintro c a rfl
      rw [State.applyHere, hr]
      rfl
    · rintro rfl
      rw [State.applyHere, hr]
      rfl
    · rintro op line data last rfl
      rfl
    · rintro t rfl
      rfl
    · rintro g n rfl
      rfl
  · exact ⟨fun m g h => State.forward_reply.1 g h, fun m h => State.forward_reply.2 h, fun r g₀ n g hr h => State.forward_request hr h,
      fun t hl => State.forward_task hl⟩
  · have hc := State.canonical_iff.1 hcan
    have hctx := State.moveCtx_ctx hc m hb
    have hds : src ≠ dst := fun e => hne (congrArg coreOf e)
    have hdst : (s.moveCtx src dst m).ctx dst = landedCtx s src dst b m := by rw [hctx, if_pos rfl]
    refine ⟨fun r hr => State.moveCtx_regs hc m hne hb hle hlim hr, by rw [hctx, if_neg hds, if_pos rfl], ?_⟩
    rw [hdst]
    refine ⟨rfl, rfl, rfl, rfl, rfl, rfl, rfl, rfl, rfl, rfl, ?_, fun g h1 h2 => by rw [hctx, if_neg h2, if_neg h1], State.mem_fireGranted _ _⟩
    show landedMode m (s.ctx src).park = _
    simp only [landedMode, Bool.and_eq_true, decide_eq_true_eq]
  · have hempty : s.cpu.cores.filter (fun k => k.2.fwd.isSome) = [] := List.filter_eq_nil_iff.2 fun k hk => by simp [hnone k hk]
    have hany : s.anyEntry = false := by
      rw [State.anyEntry, Bool.eq_false_iff]
      intro h
      obtain ⟨k, hk, hf⟩ := List.any_eq_true.1 h
      rw [hnone k hk] at hf
      cases hf
    rw [exec_migrationInstalled, hempty]
    exact congrArg _ (if_neg (by rw [List.map_nil, List.foldl_nil, hany]; exact Bool.false_ne_true))
  · have hc := State.canonical_iff.1 hcan
    obtain ⟨hcore, -⟩ := State.only_entry hc hk
    have hf : (s.core src).fwd = some f := by rw [hcore, hkf]
    rw [exec_migrationInstalled_one hk, State.lookAt_leaving hf hp hi]
    refine ⟨fun hnot => ?_, fun hcap hfree => ?_⟩
    · have hcond : (s.capturable src && s.landingFree f.dst) = false := by rcases hnot with h | h <;> simp [h]
      rw [hcond, if_neg Bool.false_ne_true, State.anyEntry_of hf hc, if_pos rfl]
    · obtain ⟨htasks, hcallers, hpaired, hnotasks, hnocallers, hothers⟩ := State.landed_cores hc hdst
      obtain ⟨hab, hempty, hps, htiles⟩ := State.landed_buffers hc hdst
      obtain ⟨-, -, -, -, hctxs, hregs, hregEmpty, hmem⟩ := s.landed_kept src f
      refine ⟨s.landed src f, hab, hempty, hps, htiles, htasks, hcallers, hpaired, hnotasks, hnocallers, hothers, hctxs, hregs, hregEmpty, hmem, ?_⟩
      rw [hcap, hfree, Bool.and_true, if_pos rfl, State.anyEntry_install hc hf, if_pos rfl, State.install_eq hf]
      rfl
  · have hc := State.canonical_iff.1 hcan
    obtain ⟨hcore, hother⟩ := State.only_entry hc hk
    have hf : (s.core src).fwd = some f := by rw [hcore, hkf]
    rw [exec_migrationInstalled_one hk, State.lookAt_installed hf hi]
    refine ⟨fun ho => ?_, fun ho => ?_⟩
    · rw [ho, if_pos rfl, State.anyEntry_of hf hc, if_pos rfl]
    · rw [ho, if_neg Bool.false_ne_true, State.anyEntry_dropped hc hother, if_neg Bool.false_ne_true]

end Sys2Proof.Machine
end


section
/-!
SUPPORT. What stopping work sends, and what it leaves as it stands (spec/02 R56, R58; spec/19 R382-R384): records, counter advances and withdrawals
change memory, the lists of parked requests and what is in flight; contexts, engines, launches and objects stay.
-/

namespace Sys2Proof.Machine

open Sys2Proof

/-- The cores, the engines, the launches and objects, which cores each tenant holds, and the time. -/
def State.holdings (s : State) : Cpu × Engines × List Launch × List Obj × List (Nat × List Nat) × Nat :=
  (s.cpu, s.eng, s.fw.launches, s.fw.objs, s.fw.tenants.map fun t => (t.num, t.clusters), s.sched.now)
/-- What no message of the module changes: all this and the dies. -/
def State.standing (s : State) : (Cpu × Engines × List Launch × List Obj × List (Nat × List Nat) × Nat) × Sparse Die := (s.holdings, s.dies)

theorem State.standing_holdings {s t : State} (h : t.standing = s.standing) : t.holdings = s.holdings := congrArg Prod.fst h
theorem State.standing_dies {s t : State} (h : t.standing = s.standing) : t.dies = s.dies := congrArg Prod.snd h
theorem State.holdings_cpu {s t : State} (h : t.holdings = s.holdings) : t.cpu = s.cpu := congrArg (·.1) h
theorem State.holdings_eng {s t : State} (h : t.holdings = s.holdings) : t.eng = s.eng := congrArg (·.2.1) h
theorem State.holdings_launches {s t : State} (h : t.holdings = s.holdings) : t.fw.launches = s.fw.launches := congrArg (·.2.2.1) h
theorem State.holdings_objs {s t : State} (h : t.holdings = s.holdings) : t.fw.objs = s.fw.objs := congrArg (·.2.2.2.1) h
theorem State.holdings_now {s t : State} (h : t.holdings = s.holdings) : t.sched.now = s.sched.now := congrArg (·.2.2.2.2.2) h

/-- The tenant of a core is found by the clusters that the tenants hold. -/
theorem find_holder (l : List Tenant) (c : Nat) :
    (l.find? fun t => t.clusters.contains c).map (·.num) = ((l.map fun t => (t.num, t.clusters)).find? fun x => x.2.contains c).map (·.1) := by
  rw [List.find?_map, Option.map_map]
  rfl
theorem State.tenantOf_eq (s : State) (core : Nat) :
    s.tenantOf core = ((s.fw.tenants.find? fun t => t.clusters.contains (clusterOf core)).map (·.num)).getD 16 := by
  unfold State.tenantOf
  split <;> next e => rw [e]; rfl
theorem State.holdings_tenantOf {s t : State} (h : t.holdings = s.holdings) (c : Nat) : t.tenantOf c = s.tenantOf c := by
  have e : t.fw.tenants.map (fun t => (t.num, t.clusters)) = s.fw.tenants.map fun t => (t.num, t.clusters) := congrArg (·.2.2.2.2.1) h
  rw [State.tenantOf_eq, State.tenantOf_eq, find_holder, find_holder, e]

/-- A fold of steps that keep a reading of the state keeps it. -/
theorem foldl_keeps {α σ β : Type} (r : σ → β) {f : σ → α → σ} (l : List α) (hf : ∀ s, ∀ a ∈ l, r (f s a) = r s) (s : σ) : r (l.foldl f s) = r s := by
  induction l generalizing s with
  | nil => rfl
  | cons a l ih =>
    rw [List.foldl_cons, ih fun s b hb => hf s b (List.mem_cons_of_mem _ hb)]
    exact hf s a List.mem_cons_self

/-! ### Messages -/

@[simp] theorem State.standing_post (s : State) (ev : Instr) : (s.post ev).standing = s.standing := rfl
@[simp] theorem State.standing_postIn (s : State) (n : Nat) (ev : Instr) : (s.postIn n ev).standing = s.standing := rfl
@[simp] theorem State.standing_postAll (s : State) (evs : List Instr) : (s.postAll evs).standing = s.standing :=
  foldl_keeps State.standing (f := State.post) evs (fun _ _ _ => rfl) s
@[simp] theorem State.standing_emit (s : State) (o : Outward) : (s.emit o).standing = s.standing := rfl
theorem State.standing_updTenant {s : State} {n : Nat} {f : Tenant → Tenant} (hf : ∀ t, ((f t).num, (f t).clusters) = (t.num, t.clusters)) :
    (s.updTenant n f).standing = s.standing := by
  have e : (mapWhere (fun x : Tenant => decide (x.num = n)) f s.fw.tenants).map (fun t => (t.num, t.clusters)) =
      s.fw.tenants.map fun t => (t.num, t.clusters) := by
    rw [mapWhere_if, List.map_map]
    refine List.map_congr_left fun x _ => ?_
    rw [Function.comp]
    split
    · exact hf x
    · rfl
  unfold State.standing State.holdings State.updTenant
  rw [e]
@[simp] theorem State.standing_event (s : State) (tenant kind : Nat) (ctr st : W64) (ws : List W64) : (s.event tenant kind ctr st ws).standing = s.standing :=
  (State.standing_post _ _).trans (State.standing_updTenant fun _ => rfl)
@[simp] theorem State.standing_firewallDrop (s : State) : s.firewallDrop.standing = s.standing :=
  foldl_keeps State.standing _ (fun s _ _ => s.standing_event ..) s
@[simp] theorem State.standing_fwPost (s : State) (r : Request) : (s.fwPost r).standing = s.standing := by
  unfold State.fwPost
  split <;> simp
@[simp] theorem State.standing_agentPost (s : State) (unit : Option Nat) (r : Request) : (s.agentPost unit r).standing = s.standing := by
  unfold State.agentPost
  split <;> simp
@[simp] theorem State.standing_advanceBy (s : State) (unit : Option Nat) (tenant : Nat) (ctr st : W64) :
    (s.advanceBy unit tenant ctr st).standing = s.standing := by
  unfold State.advanceBy
  simp
  rfl
@[simp] theorem State.standing_advanceRetire (s : State) (die tenant : Nat) (ctr : W64) : (s.advanceRetire die tenant ctr).standing = s.standing := by
  unfold State.advanceRetire
  simp
  rfl
@[simp] theorem State.standing_idleReport (s : State) (tenant : Nat) : (s.idleReport tenant).standing = s.standing := by
  unfold State.idleReport State.cross
  split
  · rfl
  · dsimp only
    split
    · split
      · split
        · split
          · rfl
          · exact (State.standing_postIn _ _ _).trans (State.standing_updTenant fun _ => rfl)
        · exact (State.standing_post _ _).trans (State.standing_updTenant fun _ => rfl)
      · exact (State.standing_post _ _).trans (State.standing_updTenant fun _ => rfl)
    · exact s.standing_firewallDrop
@[simp] theorem State.standing_nowIdle (s : State) (g : Nat) : (s.nowIdle g).standing = s.standing := by
  unfold State.nowIdle
  simp only [State.standing_idleReport, State.standing_postAll]
  split <;> rfl

/-! ### Requests that leave their lists -/

@[simp] theorem State.standing_unpark (s : State) (p : Parked) : (s.unpark p).standing = s.standing := by
  unfold State.unpark
  dsimp only
  split <;> rfl
/-- A commit changes memory alone. -/
theorem State.commit_eq (s : State) (dp : Nat) (v : W64) (t : BitVec 4) : ∃ m, s.commit dp v t = { s with mem := m } := by
  have hr : ∃ m, s.releaseClean dp = { s with mem := m } := by
    unfold State.releaseClean
    dsimp only
    split
    · split
      · exact ⟨s.mem, rfl⟩
      · exact ⟨_, rfl⟩
    · split
      · exact ⟨_, rfl⟩
      · exact ⟨s.mem, rfl⟩
  obtain ⟨m, hm⟩ := hr
  rw [State.commit, hm]
  exact ⟨_, rfl⟩
/-- A condition's request that is withdrawn leaves its list, and memory may change. -/
theorem State.withdraw_eq (s : State) (p : Parked) (h : p.req.kind ≠ .lkAcq) : ∃ m, s.withdraw p = { s.unpark p with mem := m } := by
  unfold State.withdraw
  split
  · next e => exact absurd e h
  · dsimp only
    split
    · exact State.commit_eq _ _ _ _
    · exact ⟨_, rfl⟩
  · exact ⟨_, rfl⟩
theorem State.withdraw_lkAcq (s : State) (p : Parked) (h : p.req.kind = .lkAcq) : s.withdraw p = { s with sluice := { s.sluice with
    parked := mapWhere (fun q : Parked => decide (q.slice = p.slice) && decide (q.seq = p.seq) && decide (q.dp = p.dp)) (fun q => { q with abandoned := true })
      s.sluice.parked } } := by
  unfold State.withdraw
  rw [h]
@[simp] theorem State.standing_withdraw (s : State) (p : Parked) : (s.withdraw p).standing = s.standing := by
  by_cases h : p.req.kind = .lkAcq
  · rw [State.withdraw_lkAcq s p h]
    rfl
  · obtain ⟨m, hm⟩ := s.withdraw_eq p h
    rw [hm]
    exact s.standing_unpark p
@[simp] theorem State.standing_withdrawAll (s : State) (f : Parked → Bool) : (s.withdrawAll f).standing = s.standing :=
  foldl_keeps State.standing _ (fun s p _ => s.standing_withdraw p) s
/-- A withdrawal leaves for another module. -/
def State.sendWithdrawal (s : State) (w : Nat × Nat × Request) : State := s.emit (.withdraw (s.stationFor w.2.2.va) w.2.1 w.2.2)
theorem State.withdrawAway_eq (s : State) (f : Request → Bool) : ∃ fab, s.withdrawAway f =
    { (s.fab.waiting.filter fun w => w.2.2.kind.parks && f w.2.2).foldl State.sendWithdrawal s with fab := fab } := ⟨_, rfl⟩
@[simp] theorem State.standing_withdrawAway (s : State) (f : Request → Bool) : (s.withdrawAway f).standing = s.standing := by
  obtain ⟨fab, hfab⟩ := s.withdrawAway_eq f
  rw [hfab]
  exact foldl_keeps State.standing (f := State.sendWithdrawal) _ (fun s w _ => s.standing_emit _) s
/-- The request is one of these incarnations'. -/
def ofGens (gens : List Nat) (r : Request) : Bool := match r.src.gen? with | some n => gens.contains n | none => false
theorem ofGens_iff {gens : List Nat} {r : Request} : ofGens gens r = true ↔ ∃ n ∈ gens, r.src.gen? = some n := by
  unfold ofGens
  split
  · next n e => simp [e]
  · next e => simp [e]
theorem State.withdrawOf_eq (s : State) (gens : List Nat) : s.withdrawOf gens =
    { (s.withdrawAll fun p => ofGens gens p.req).withdrawAway (ofGens gens) with
      sluice := { ((s.withdrawAll fun p => ofGens gens p.req).withdrawAway (ofGens gens)).sluice with
        cancelled := gens ++ ((s.withdrawAll fun p => ofGens gens p.req).withdrawAway (ofGens gens)).sluice.cancelled } } := rfl
@[simp] theorem State.standing_withdrawOf (s : State) (gens : List Nat) : (s.withdrawOf gens).standing = s.standing := by
  rw [State.withdrawOf_eq]
  exact (State.standing_withdrawAway _ _).trans (State.standing_withdrawAll _ _)

/-! ### Parked requests (spec/02 R58; spec/04 R114) -/

/-- Two parked requests stand at one place of one list. -/
def Parked.at (p q : Parked) : Bool := decide (q.slice = p.slice) && decide (q.seq = p.seq) && decide (q.dp = p.dp)
theorem Parked.at_self (p : Parked) : p.at p = true := by simp [Parked.at]
/-- The mark of a withdrawn ticket. -/
def Parked.marked (p : Parked) : Parked := { p with abandoned := true }

theorem State.parked_unpark (s : State) (p : Parked) : (s.unpark p).sluice.parked = s.sluice.parked.filter fun q => !p.at q := by
  unfold State.unpark
  dsimp only
  split <;> rfl
/-- A request withdrawn at a place: a ticket is marked where it stands, any other leaves its list. -/
theorem State.parked_withdraw (s : State) (p : Parked) :
    (s.withdraw p).sluice.parked = if p.req.kind = .lkAcq then mapWhere p.at Parked.marked s.sluice.parked else s.sluice.parked.filter fun q => !p.at q := by
  split
  · next h => rw [State.withdraw_lkAcq s p h]; rfl
  · next h =>
    obtain ⟨m, hm⟩ := s.withdraw_eq p h
    rw [hm]
    exact s.parked_unpark p

theorem State.mem_parked_withdraw {s : State} {p x : Parked} (h : x ∈ (s.withdraw p).sluice.parked) (hx : x.abandoned = false) :
    x ∈ s.sluice.parked ∧ p.at x = false := by
  rw [State.parked_withdraw] at h
  split at h
  · obtain ⟨q, hq, rfl⟩ := List.mem_map.1 h
    cases hp : p.at q
    · rw [if_neg (by simp)]
      exact ⟨hq, hp⟩
    · simp [hp, Parked.marked] at hx
  · obtain ⟨hq, hn⟩ := List.mem_filter.1 h
    exact ⟨hq, by simpa using hn⟩
/-- A request that is not marked after the withdrawals was there before, and none of its place has been withdrawn. -/
theorem State.mem_parked_withdrawn {ps : List Parked} {s : State} {x : Parked} (h : x ∈ (ps.foldl State.withdraw s).sluice.parked) (hx : x.abandoned = false) :
    x ∈ s.sluice.parked ∧ ∀ p ∈ ps, p.at x = false := by
  induction ps generalizing s with
  | nil => exact ⟨h, fun _ hp => absurd hp List.not_mem_nil⟩
  | cons p ps ih =>
    obtain ⟨hm, hps⟩ := ih h
    obtain ⟨hs, hp⟩ := State.mem_parked_withdraw hm hx
    exact ⟨hs, fun q hq => by rcases List.mem_cons.1 hq with rfl | hq; exacts [hp, hps q hq]⟩

theorem State.parked_withdraw_other {s : State} {p x : Parked} (h : x ∈ s.sluice.parked) (hp : p.at x = false) : x ∈ (s.withdraw p).sluice.parked := by
  rw [State.parked_withdraw]
  split
  · exact List.mem_map.2 ⟨x, h, if_neg (by simp [hp])⟩
  · exact List.mem_filter.2 ⟨h, by simp [hp]⟩
theorem State.parked_withdraw_ticket {s : State} {p x : Parked} (h : x ∈ s.sluice.parked) (hp : p.at x = true) (hk : p.req.kind = .lkAcq) :
    x.marked ∈ (s.withdraw p).sluice.parked := by
  rw [State.parked_withdraw, if_pos hk]
  exact List.mem_map.2 ⟨x, h, if_pos hp⟩
/-- A ticket of a place that no other request shares is marked once it is among those withdrawn, and its mark stays. -/
theorem State.parked_withdrawn_ticket {x : Parked} {ps : List Parked} {s : State} (hk : ∀ p ∈ ps, p.at x = true → p.req.kind = .lkAcq)
    (h : x.marked ∈ s.sluice.parked ∨ (x ∈ s.sluice.parked ∧ x ∈ ps)) : x.marked ∈ (ps.foldl State.withdraw s).sluice.parked := by
  induction ps generalizing s with
  | nil => exact h.elim id fun h => absurd h.2 List.not_mem_nil
  | cons p ps ih =>
    refine ih (fun q hq => hk q (List.mem_cons_of_mem _ hq)) ?_
    cases hp : p.at x
    · refine h.imp (fun h => State.parked_withdraw_other h hp) fun h => ⟨State.parked_withdraw_other h.1 hp, ?_⟩
      refine (List.mem_cons.1 h.2).resolve_left fun e => ?_
      rw [e, Parked.at_self] at hp
      cases hp
    · have hkp := hk p List.mem_cons_self hp
      exact .inl (h.elim (fun h => State.parked_withdraw_ticket (x := x.marked) h hp hkp) fun h => State.parked_withdraw_ticket h.1 hp hkp)

theorem State.sluice_withdrawAway (s : State) (f : Request → Bool) : (s.withdrawAway f).sluice = s.sluice := by
  obtain ⟨fab, hfab⟩ := s.withdrawAway_eq f
  rw [hfab]
  exact foldl_keeps State.sluice (f := State.sendWithdrawal) _ (fun _ _ _ => rfl) s
theorem State.cancelled_unpark (s : State) (p : Parked) : (s.unpark p).sluice.cancelled = s.sluice.cancelled := by
  unfold State.unpark
  dsimp only
  split <;> rfl
theorem State.cancelled_withdraw (s : State) (p : Parked) : (s.withdraw p).sluice.cancelled = s.sluice.cancelled := by
  by_cases h : p.req.kind = .lkAcq
  · rw [State.withdraw_lkAcq s p h]
  · obtain ⟨m, hm⟩ := s.withdraw_eq p h
    rw [hm]
    exact s.cancelled_unpark p
theorem State.parked_withdrawOf (s : State) (gens : List Nat) :
    (s.withdrawOf gens).sluice.parked = ((s.sluice.parked.filter fun p => !p.abandoned && ofGens gens p.req).foldl State.withdraw s).sluice.parked := by
  show ((s.withdrawAll fun p => ofGens gens p.req).withdrawAway (ofGens gens)).sluice.parked = _
  rw [State.sluice_withdrawAway]
  rfl
theorem State.cancelled_withdrawOf (s : State) (gens : List Nat) : (s.withdrawOf gens).sluice.cancelled = gens ++ s.sluice.cancelled := by
  rw [State.withdrawOf_eq]
  dsimp only
  rw [State.sluice_withdrawAway]
  exact congrArg (gens ++ ·) (foldl_keeps (fun t : State => t.sluice.cancelled) _ (fun s p _ => s.cancelled_withdraw p) s)

/-- What a withdrawal of incarnations' requests does to the lists (R58): none of theirs stays unmarked, and a ticket stays, marked. -/
theorem State.withdrawOf_parked (s : State) (gens : List Nat) :
    (∀ p ∈ (s.withdrawOf gens).sluice.parked, (∃ n ∈ gens, p.req.src.gen? = some n) → p.abandoned = true) ∧
      ∀ p ∈ s.sluice.parked, p.req.kind = .lkAcq → p.abandoned = false → (∃ n ∈ gens, p.req.src.gen? = some n) →
        (∀ q ∈ s.sluice.parked, q.slice = p.slice → q.seq = p.seq → q.dp = p.dp → q = p) → p.marked ∈ (s.withdrawOf gens).sluice.parked := by
  rw [State.parked_withdrawOf]
  refine ⟨fun p hp hg => ?_, fun p hp hk ha hg hu => ?_⟩
  · by_contra hx
    have hx : p.abandoned = false := Bool.eq_false_iff.2 hx
    obtain ⟨hm, hps⟩ := State.mem_parked_withdrawn hp hx
    have h := hps p (List.mem_filter.2 ⟨hm, by rw [hx, ofGens_iff.2 hg]; rfl⟩)
    rw [Parked.at_self] at h
    cases h
  · refine State.parked_withdrawn_ticket (fun q hq hat => ?_) (.inr ⟨hp, List.mem_filter.2 ⟨hp, by rw [ha, ofGens_iff.2 hg]; rfl⟩⟩)
    simp only [Parked.at, Bool.and_eq_true, decide_eq_true_eq, and_assoc] at hat
    obtain ⟨h1, h2, h3⟩ := hat
    rw [hu q (List.mem_filter.1 hq).1 h1.symm h2.symm h3.symm]
    exact hk

end Sys2Proof.Machine
end


section
/-!
SUPPORT. Cancels (spec/02 R57, R58): what a cancel names, how a context's work is taken away, and what ending work leaves alone.
-/

namespace Sys2Proof.Machine

open Sys2Proof

/-! ### What a cancel names -/

/-- The launch that a cancel's counter names. -/
def State.cancelled? (s : State) (x : CancelTarget) : Option Launch :=
  s.fw.launches.find? fun l => decide (l.tenant = x.tenant) && decide (l.lctr = x.ctr) && decide (l.state ≠ .advanced)
theorem State.applyCancel_launch {s : State} {x : CancelTarget} {l : Launch} (h : s.cancelled? x = some l) (hu : x.unit = none) :
    s.applyCancel x = s.cancelLaunch l.lid := by
  rw [State.cancelled?] at h
  simp only [State.applyCancel, h, hu]
theorem State.applyCancel_unit {s : State} {x : CancelTarget} {l : Launch} (h : s.cancelled? x = some l) {u : Nat} (hu : x.unit = some u) :
    s.applyCancel x = s.cancelUnit l.lid u := by
  rw [State.cancelled?] at h
  simp only [State.applyCancel, h, hu]
theorem State.applyCancel_object {s : State} {x : CancelTarget} (h : s.cancelled? x = none) (hu : x.unit = none) {o : Obj}
    (ho : s.obj? x.tenant x.ctr = some o) :
    s.applyCancel x = match o.level with
      | .graph => s.cancelGraph x.tenant x.ctr
      | .phase => s.cancelPhase x.tenant x.ctr
      | .job => s.cancelJob x.tenant x.ctr := by
  rw [State.cancelled?] at h
  cases hl : o.level <;> simp only [State.applyCancel, h, hu, ho, hl, Option.isSome_none, Bool.false_eq_true, if_false]
theorem State.applyCancel_nothing {s : State} {x : CancelTarget} (h : s.cancelled? x = none) (hn : x.unit ≠ none ∨ s.obj? x.tenant x.ctr = none) :
    s.applyCancel x = s := by
  rw [State.cancelled?] at h
  cases hu : x.unit with
  | none =>
    simp only [State.applyCancel, h, hu, hn.resolve_left fun hne => hne hu]
    exact if_neg Bool.false_ne_true
  | some u =>
    simp only [State.applyCancel, h, hu]
    exact if_pos rfl

/-! ### A context's work -/

theorem State.cancelCtx_parked {s : State} {g : Nat} (hp : (s.core (coreOf g)).paired = false) (hm : (s.ctx g).mode = .parked) :
    s.cancelCtx g = (s.withdrawOf [(s.ctx g).gen]).endWork g .cancelled := by
  simp only [State.cancelCtx, State.both_alone hp, List.all_cons, List.all_nil, hm, decide_true, Bool.and_self, if_true, List.map_cons, List.map_nil,
    List.foldl_cons, List.foldl_nil]
theorem State.cancelCtx_other {s : State} {g : Nat} (hp : (s.core (coreOf g)).paired = false) (hm : (s.ctx g).mode ≠ .parked) :
    s.cancelCtx g = s.updCtx g fun c => { c with stop := .cancel } := by
  unfold State.cancelCtx
  rw [State.both_alone hp]
  dsimp only
  rw [if_neg (by simp [hm]), List.foldl_cons, if_neg hm, List.foldl_nil]
theorem State.runSlot_cancel {s : State} {g : Nat} (hp : (s.core (coreOf g)).paired = false) (hs : (s.ctx g).stop = .cancel)
    (ht : (s.ctx g).mode ≠ .inTransit) (hi : (s.ctx g).mode ≠ .idle) :
    s.runSlot g = .done ((s.withdrawOf [(s.ctx g).gen]).endWork g .cancelled) := by
  have hdue : (s.ctx g).stopDue = true := by simp [Ctx.stopDue, hs, ht, hi]
  rw [State.runSlot, if_pos hdue, State.takeStop]
  dsimp only
  rw [hs]
  dsimp only
  rw [State.both_alone hp]
  rfl

/-! ### What ending work leaves alone -/

/-- Every launch of a number is cancelled. -/
def State.allCancelled (lid : Nat) (s : State) : Prop := ∀ x ∈ s.fw.launches, x.lid = lid → x.cancelled = true
/-- A step that leaves registers and array buffers alone, and cancelled launches cancelled. -/
def State.Spares (lid : Nat) (s t : State) : Prop := t.cpu.regs = s.cpu.regs ∧ t.cpu.ab = s.cpu.ab ∧ (s.allCancelled lid → t.allCancelled lid)

theorem State.Spares.refl {lid : Nat} (s : State) : s.Spares lid s := ⟨rfl, rfl, id⟩
theorem State.Spares.trans {lid : Nat} {s t u : State} (h : s.Spares lid t) (h' : t.Spares lid u) : s.Spares lid u :=
  ⟨h'.1.trans h.1, h'.2.1.trans h.2.1, fun hc => h'.2.2 (h.2.2 hc)⟩
theorem State.Spares.foldl {α : Type} {lid : Nat} {f : State → α → State} (hf : ∀ s a, State.Spares lid s (f s a)) (l : List α) (s : State) :
    s.Spares lid (l.foldl f s) := by
  induction l generalizing s with
  | nil => exact .refl s
  | cons a l ih => exact (hf s a).trans (ih (f s a))
theorem State.Spares.of_standing {lid : Nat} {s t : State} (h : t.standing = s.standing) : s.Spares lid t := by
  refine ⟨by rw [State.holdings_cpu (State.standing_holdings h)], by rw [State.holdings_cpu (State.standing_holdings h)], fun hc => ?_⟩
  rw [State.allCancelled, State.holdings_launches (State.standing_holdings h)]
  exact hc
theorem State.spares_updLaunch {lid : Nat} (s : State) (n : Nat) {f : Launch → Launch} (hf : ∀ x, (f x).lid = x.lid ∧ (f x).cancelled = x.cancelled) :
    s.Spares lid (s.updLaunch n f) := by
  refine ⟨rfl, rfl, fun hc x hx hl => ?_⟩
  obtain ⟨y, hy, rfl⟩ := List.mem_map.1 hx
  dsimp only at hl ⊢
  split
  · next h =>
    rw [if_pos h] at hl
    rw [(hf y).2]
    exact hc y hy ((hf y).1.symm.trans hl)
  · next h =>
    rw [if_neg h] at hl
    exact hc y hy hl

theorem State.spares_checkLaunch {lid : Nat} (s : State) (unit : Option Nat) (n : Nat) : s.Spares lid (s.checkLaunch unit n) := by
  unfold State.checkLaunch
  split
  · exact .refl s
  · next l _ =>
    split
    · have h : s.Spares lid (s.updLaunch n fun l => { l with state := .advanced }) := State.spares_updLaunch s n fun _ => ⟨rfl, rfl⟩
      have h := h.trans (.of_standing (State.standing_advanceBy _ unit l.tenant l.lctr (statusWord l.retired l.partialDone l.reaped l.cancelled)))
      dsimp only
      split
      · exact h
      · exact h.trans (.of_standing (State.standing_post _ _))
    · exact .refl s
/-- A launch with one live piece of work fewer. -/
def Launch.fewer (unit : Bool) (how : EndKind) (x : Launch) : Launch :=
  { x with live := x.live - 1, retired := x.retired + (if unit && how = .retired then 1 else 0), reaped := x.reaped || (unit && how = .reaped) }
theorem State.liveDown_eq {s t : State} {die : Nat} {c : Ctx} {how : EndKind} {lid : Nat} (h : c.lid = some lid)
    (ht : s.updLaunch lid (Launch.fewer (decide (c.work = .unit)) how) = t) :
    s.liveDown die c how = (((t.launch? lid).map fun l => if decide (c.work = .unit) && l.rctr then t.advanceRetire die l.tenant (l.lctr + 16) else t).getD
      t).checkLaunch (some die) lid := by
  unfold State.liveDown
  rw [h]
  change State.checkLaunch (match (s.updLaunch lid (Launch.fewer (decide (c.work = .unit)) how)).launch? lid with
    | none => s.updLaunch lid (Launch.fewer (decide (c.work = .unit)) how)
    | some l => if decide (c.work = .unit) && l.rctr
      then (s.updLaunch lid (Launch.fewer (decide (c.work = .unit)) how)).advanceRetire die l.tenant (l.lctr + 16)
      else s.updLaunch lid (Launch.fewer (decide (c.work = .unit)) how)) (some die) lid = _
  rw [ht]
  cases t.launch? lid <;> rfl
theorem State.spares_liveDown {lid : Nat} (s : State) (die : Nat) (c : Ctx) (how : EndKind) : s.Spares lid (s.liveDown die c how) := by
  cases h : c.lid with
  | none =>
    rw [State.liveDown, h]
    exact .refl s
  | some n =>
    generalize ht : s.updLaunch n (Launch.fewer (decide (c.work = .unit)) how) = t
    have hs : s.Spares lid t := ht ▸ State.spares_updLaunch s n fun _ => ⟨rfl, rfl⟩
    rw [State.liveDown_eq h ht]
    refine .trans (hs.trans ?_) (State.spares_checkLaunch _ _ _)
    cases t.launch? n with
    | none => exact .refl _
    | some l =>
      rw [Option.map_some, Option.getD_some]
      split
      · exact .of_standing (State.standing_advanceRetire _ _ _ _)
      · exact .refl _
theorem State.spares_fireTriggers {lid : Nat} (s : State) (g gen : Nat) : s.Spares lid (s.fireTriggers g gen) := by
  unfold State.fireTriggers
  dsimp only
  refine .trans ?_ (.foldl ?_ _ _)
  rotate_left
  · exact fun s o => ⟨rfl, rfl, id⟩
  split
  · exact .refl s
  · exact .of_standing ((State.standing_withdrawAway _ _).trans (foldl_keeps State.standing _ (fun s p _ => s.standing_unpark p) s))
theorem State.spares_dropUnsent {lid : Nat} (s : State) (g : Nat) : s.Spares lid (s.dropUnsent g) := by
  unfold State.dropUnsent
  dsimp only
  split
  · exact ⟨rfl, rfl, id⟩
  · refine .trans ?_ (.of_standing (State.standing_postAll _ _))
    exact ⟨rfl, rfl, id⟩
theorem State.spares_toIdle {lid : Nat} (s : State) (g : Nat) : s.Spares lid (s.toIdle g) := by
  unfold State.toIdle
  refine .trans ?_ (.of_standing (State.standing_nowIdle _ g))
  exact ⟨rfl, rfl, id⟩
theorem State.spares_endWork {lid : Nat} (s : State) (g : Nat) : s.Spares lid (s.endWork g .cancelled) :=
  (((State.spares_fireTriggers s g _).trans (State.spares_dropUnsent _ g)).trans (State.spares_liveDown _ _ _ _)).trans (State.spares_toIdle _ g)
theorem State.spares_cancelCtx {lid : Nat} (s : State) (g : Nat) : s.Spares lid (s.cancelCtx g) := by
  unfold State.cancelCtx
  dsimp only
  split
  · exact .trans (.of_standing (State.standing_withdrawOf _ _)) (.foldl (fun s g => State.spares_endWork s g) _ _)
  · refine .foldl (fun s g => ?_) _ _
    split
    · exact .refl s
    · exact ⟨rfl, rfl, id⟩
theorem State.spares_slotFreeNotice {lid : Nat} (s : State) (c : Nat) : s.Spares lid (s.slotFreeNotice c) := by
  unfold State.slotFreeNotice
  split
  · exact .refl s
  · exact ⟨rfl, rfl, id⟩
theorem State.spares_dropTasks {lid : Nat} (s : State) (n c : Nat) : s.Spares lid (s.dropTasks n c) :=
  .trans ⟨rfl, rfl, id⟩ (.foldl (fun s _ => State.spares_slotFreeNotice s c) _ _)
theorem State.spares_dropWaiting {lid : Nat} (s : State) (p : UnitPacket → Bool) : s.Spares lid (s.dropWaiting p) := by
  unfold State.dropWaiting
  refine .foldl ?_ _ _
  exact fun _ _ => ⟨rfl, rfl, id⟩
theorem State.spares_endHold {lid : Nat} (s : State) (l : Launch) : s.Spares lid (s.endHold l) := by
  unfold State.endHold
  split
  · exact .of_standing (State.standing_postAll _ _)
  · exact .refl s

/-- A launch as a cancel marks it. -/
def Launch.cancelMark (started : Bool) (l : Launch) : Launch :=
  { l with cancelled := true, state := .released, shares := if started then l.shares.map fun sh => { sh with next := sh.count } else [] }
theorem State.cancelLaunch_eq {s : State} {lid : Nat} {l : Launch} (h : s.launch? lid = some l) (ha : l.state ≠ .advanced) (hc : l.cancelled = false) :
    s.cancelLaunch lid =
      let marked := s.updLaunch lid (Launch.cancelMark (decide (l.state = .released)))
      let idle := ((if decide (l.state = .released) then marked else marked.endHold l).dropWaiting fun u => u.lid = lid)
      let free := (idle.cpu.cores.map (·.1)).foldl (fun s c => s.dropTasks lid c) idle
      ((free.ctxsOf lid).foldl State.cancelCtx free).checkLaunch (if decide (l.state = .released) then l.dies.head? else none) lid := by
  unfold State.cancelLaunch
  rw [h]
  exact if_neg (by simp [ha, hc])
/-- A cancel of a launch that runs marks it, and leaves registers and array buffers alone (R58). -/
theorem State.cancelLaunch_spares {s : State} {lid : Nat} {l : Launch} (h : s.launch? lid = some l) (ha : l.state ≠ .advanced) (hc : l.cancelled = false) :
    (s.cancelLaunch lid).allCancelled lid ∧ (s.cancelLaunch lid).cpu.regs = s.cpu.regs ∧ (s.cancelLaunch lid).cpu.ab = s.cpu.ab := by
  have hmark : (s.updLaunch lid (Launch.cancelMark (decide (l.state = .released)))).allCancelled lid := fun x hx hl => by
    obtain ⟨y, _, rfl⟩ := List.mem_map.1 hx
    dsimp only at hl ⊢
    split
    · rfl
    · next hn =>
      rw [if_neg hn] at hl
      exact absurd (decide_eq_true hl) hn
  have hsp : (s.updLaunch lid (Launch.cancelMark (decide (l.state = .released)))).Spares lid (s.cancelLaunch lid) := by
    rw [State.cancelLaunch_eq h ha hc]
    dsimp only
    refine .trans (.trans (.trans (.trans ?_ (State.spares_dropWaiting _ _)) (.foldl (fun s c => State.spares_dropTasks s lid c) _ _))
      (.foldl (fun s g => State.spares_cancelCtx s g) _ _)) (State.spares_checkLaunch _ _ _)
    split
    · exact .refl _
    · exact State.spares_endHold _ l
  obtain ⟨hregs, hab, hall⟩ := hsp
  exact ⟨hall hmark, hregs, hab⟩

end Sys2Proof.Machine
end


section
/-!
SUPPORT. Gang stops (spec/19 R382, R383): which parts of the module each of its steps touches, and what the partition then holds.
-/

namespace Sys2Proof.Machine

open Sys2Proof

/-! ### The cores and contexts of the partition -/

/-- A core that stops, with the counts of what is dropped, withdrawn and stopped. -/
def Core.stopMark (now : Nat) (msgs reqs : List Nat) (ops : List EngOp) (c : Nat) (k : Core) : Core :=
  { k with halted := true, haltCyc := wordOfNat now + k.skew, dropped := msgs.count c, withdrawn := reqs.count c
           stoppedOps := ops.countP fun o => o.core = c }
/-- One core of the partition stops. -/
def State.stopCore (msgs reqs : List Nat) (ops : List EngOp) (s : State) (c : Nat) : State :=
  s.updCore c (Core.stopMark s.sched.now msgs reqs ops c)
theorem State.core_stopCores {msgs reqs : List Nat} {ops : List EngOp} {s : State} (h : s.Canon) (l : List Nat) (c : Nat) :
    (l.foldl (State.stopCore msgs reqs ops) s).core c = if c ∈ l then Core.stopMark s.sched.now msgs reqs ops c (s.core c) else s.core c := by
  induction l generalizing s with
  | nil => rfl
  | cons x l ih =>
    have hx : (s.stopCore msgs reqs ops x).core c = if c = x then Core.stopMark s.sched.now msgs reqs ops x (s.core x) else s.core c :=
      State.core_updCore h ..
    have hcan : (s.stopCore msgs reqs ops x).Canon := State.updCore_canon h
    rw [List.foldl_cons, ih hcan, hx]
    by_cases hc : c = x
    · subst hc
      simp only [if_true, List.mem_cons, true_or]
      split <;> rfl
    · simp only [hc, if_false, List.mem_cons, false_or]
      rfl
/-- Stopping cores changes their own records alone. -/
theorem State.stopCores_eq (msgs reqs : List Nat) (ops : List EngOp) (l : List Nat) (s : State) :
    ∃ cores, l.foldl (State.stopCore msgs reqs ops) s = { s with cpu := { s.cpu with cores } } := by
  induction l generalizing s with
  | nil => exact ⟨s.cpu.cores, rfl⟩
  | cons c l ih =>
    obtain ⟨cores, hc⟩ := ih (s.stopCore msgs reqs ops c)
    exact ⟨cores, hc⟩

/-- A context that stops keeps all that it holds. -/
def Ctx.stopMark (c : Ctx) : Ctx := { c with mode := .stopped, stop := .none }
/-- The contexts of cores that hold work. -/
def State.liveOn (s : State) (on : Nat → Bool) : List (Nat × Ctx) := s.cpu.ctxs.filter fun c => on (coreOf c.1) && c.2.mode ≠ .idle
theorem State.stopCtxs_eq (l : List (Nat × Ctx)) (s : State) :
    ∃ ctxs, l.foldl (fun s c => s.updCtx c.1 Ctx.stopMark) s = { s with cpu := { s.cpu with ctxs } } := by
  induction l generalizing s with
  | nil => exact ⟨s.cpu.ctxs, rfl⟩
  | cons c l ih =>
    obtain ⟨ctxs, hc⟩ := ih (s.updCtx c.1 Ctx.stopMark)
    exact ⟨ctxs, hc⟩
theorem State.ctx_listed {s : State} {g : Nat} (hne : s.ctx g ≠ Ctx.rest g) (h : s.Canon) : (g, s.ctx g) ∈ s.cpu.ctxs := by
  by_cases hk : g ∈ s.cpu.ctxs.map (·.1)
  · obtain ⟨⟨j, c⟩, hm, rfl⟩ := List.mem_map.1 hk
    rwa [State.ctx, spGet_mem h.ctxs hm]
  · exact absurd (spGet_none hk) hne
theorem State.ctx_stopCtxs {s : State} (h : s.Canon) (on : Nat → Bool) (g : Nat) :
    (on (coreOf g) = true → (s.ctx g).mode ≠ .idle → s.ctx g ≠ Ctx.rest g →
      ((s.liveOn on).foldl (fun s c => s.updCtx c.1 Ctx.stopMark) s).ctx g = (s.ctx g).stopMark) ∧
    (on (coreOf g) = false → ((s.liveOn on).foldl (fun s c => s.updCtx c.1 Ctx.stopMark) s).ctx g = s.ctx g) := by
  have hread : ((s.liveOn on).foldl (fun s c => s.updCtx c.1 Ctx.stopMark) s).ctx g =
      if g ∈ (s.liveOn on).map (·.1) then (s.ctx g).stopMark else s.ctx g := by
    rw [← State.ctx_foldl_updCtx (f := Ctx.stopMark) (fun _ => rfl) h, List.foldl_map]
  rw [hread]
  refine ⟨fun hon hm hr => if_pos ?_, fun hoff => if_neg fun hg => ?_⟩
  · exact List.mem_map.2 ⟨(g, s.ctx g), List.mem_filter.2 ⟨State.ctx_listed hr h, by simp [hon, hm]⟩, rfl⟩
  · obtain ⟨x, hx, rfl⟩ := List.mem_map.1 hg
    have := (List.mem_filter.1 hx).2
    simp [hoff] at this

/-! ### What is on its way -/

/-- Nothing in flight is addressed to the stopped cores. -/
def State.Calm (on : Nat → Bool) (s : State) : Prop := ∀ p ∈ s.sched.agenda, droppedBy on p.ev = none
theorem State.Calm.post {on : Nat → Bool} {s : State} (h : s.Calm on) {ev : Instr} (he : droppedBy on ev = none) : (s.post ev).Calm on := by
  intro p hp
  rcases List.mem_append.1 hp with hp | hp
  · exact h p hp
  · rw [List.mem_singleton.1 hp]
    exact he
/-- A fold of steps that keep a property keeps it. -/
theorem foldl_holds {α σ : Type} {P : σ → Prop} {f : σ → α → σ} (hf : ∀ s a, P s → P (f s a)) (l : List α) {s : σ} (hs : P s) : P (l.foldl f s) := by
  induction l generalizing s with
  | nil => exact hs
  | cons a l ih => exact ih (hf s a hs)
theorem State.Calm.unpark {on : Nat → Bool} {s : State} (h : s.Calm on) (p : Parked) : (s.unpark p).Calm on := by
  unfold State.unpark
  dsimp only
  split
  · exact State.Calm.post (s := { s with sluice := _ }) h rfl
  · exact h
theorem State.Calm.withdraw {on : Nat → Bool} {s : State} (h : s.Calm on) (p : Parked) : (s.withdraw p).Calm on := by
  by_cases hk : p.req.kind = .lkAcq
  · rw [State.withdraw_lkAcq s p hk]
    exact h
  · obtain ⟨m, hm⟩ := s.withdraw_eq p hk
    rw [hm]
    exact h.unpark p
theorem State.Calm.withdrawAll {on : Nat → Bool} {s : State} (h : s.Calm on) (f : Parked → Bool) : (s.withdrawAll f).Calm on :=
  foldl_holds (P := State.Calm on) (fun _ p h => h.withdraw p) _ h
theorem State.Calm.withdrawAway {on : Nat → Bool} {s : State} (h : s.Calm on) (f : Request → Bool) : (s.withdrawAway f).Calm on := by
  obtain ⟨fab, hfab⟩ := s.withdrawAway_eq f
  rw [hfab]
  exact foldl_holds (P := State.Calm on) (f := State.sendWithdrawal) (fun _ _ h => h) _ h

/-! ### Operations and routers -/

theorem State.stopOps_eq (s : State) (on : Nat → Bool) (ops : List EngOp) :
    ∃ abEmpty eng, s.stopOps on ops = { s with cpu := { s.cpu with abEmpty }, eng } := ⟨_, _, rfl⟩
theorem State.Calm.stopOps {on : Nat → Bool} {s : State} (h : s.Calm on) (which : Nat → Bool) (ops : List EngOp) : (s.stopOps which ops).Calm on := h
/-- The operations of the stopped cores are gone. -/
theorem State.stopOps_ops (s : State) (on : Nat → Bool) : ∀ o ∈ (s.stopOps on (s.eng.ops.filter fun o => on o.core)).eng.ops, on o.core = false := by
  intro o ho
  obtain ⟨hm, hn⟩ := List.mem_filter.1 ho
  by_contra h
  have hid : ((s.eng.ops.filter fun o => on o.core).map (·.id)).contains o.id = true :=
    List.contains_iff_mem.2 (List.mem_map.2 ⟨o, List.mem_filter.2 ⟨hm, by simpa using h⟩, rfl⟩)
  rw [hid] at hn
  cases hn

/-- A live router hears of the death of one that it exchanged rows with. -/
def State.tellNeighbour (on : Nat → Bool) (st : Stream) (s : State) (e : Nat) : State :=
  if (st.entry e).phys ≠ s.fw.params.physid then s.emit (.memberDeath (st.entry e).phys (st.entry e).core st.vsn st.me)
  else if on (st.entry e).core then s
  else s.post (.routerMemberDeath (st.entry e).core st.vsn st.me)
theorem State.stopRouters_eq (s : State) (on : Nat → Bool) :
    s.stopRouters on = (s.eng.streams.filter fun st => on st.core).foldl (fun s st => st.neighbours.foldl (State.tellNeighbour on st) s)
      { s with eng := { s.eng with streams := s.eng.streams.filter fun st => !on st.core } } := rfl
/-- What the news of a router's death leaves alone. -/
def State.besideRouters (s : State) : Cpu × List EngOp × Nat := (s.cpu, s.eng.ops, s.sched.now)
theorem State.stopRouters_keeps (s : State) (on : Nat → Bool) :
    (s.stopRouters on).cpu = s.cpu ∧ (s.stopRouters on).eng.ops = s.eng.ops ∧ (s.stopRouters on).sched.now = s.sched.now := by
  have htell : ∀ (t : State) (st : Stream) (e : Nat), (t.tellNeighbour on st e).besideRouters = t.besideRouters := fun t st e => by
    unfold State.tellNeighbour
    split
    · rfl
    · split <;> rfl
  have h : (s.stopRouters on).besideRouters = s.besideRouters := by
    rw [State.stopRouters_eq]
    refine foldl_keeps State.besideRouters _ (fun t st _ => ?_) _
    exact foldl_keeps State.besideRouters (f := State.tellNeighbour on st) _ (fun t e _ => htell t st e) t
  simp only [State.besideRouters, Prod.mk.injEq] at h
  exact h
theorem State.Calm.stopRouters {on : Nat → Bool} {s : State} (h : s.Calm on) : (s.stopRouters on).Calm on := by
  rw [State.stopRouters_eq]
  refine foldl_holds (P := State.Calm on) (fun t st ht => foldl_holds (P := State.Calm on) (fun t e ht => ?_) _ ht) _ h
  unfold State.tellNeighbour
  split
  · exact ht
  · split
    · exact ht
    · exact ht.post rfl

/-! ### The gang stop -/

/-- The partition once its cores and contexts have stopped, and nothing is on its way to them. -/
def State.gangHalted (s : State) (t : Tenant) : State :=
  let on (core : Nat) : Bool := s.tenantOf core = t.num
  let u := t.cores.foldl (State.stopCore (s.sched.agenda.filterMap fun p => droppedBy on p.ev) (s.sluice.parked.filterMap fun p => Origin.ofCore on p.req.src)
    (s.eng.ops.filter fun o => on o.core)) s
  let v := (u.liveOn on).foldl (fun s c => s.updCtx c.1 Ctx.stopMark) u
  { v with sched := { v.sched with agenda := v.sched.agenda.filter fun p => (droppedBy on p.ev).isNone } }
theorem State.gangHalted_eq (s : State) (t : Tenant) : ∃ cores ctxs agenda, s.gangHalted t =
    { s with cpu := { s.cpu with cores, ctxs }, sched := { s.sched with agenda } } := by
  unfold State.gangHalted
  dsimp only
  obtain ⟨cores, hcores⟩ := State.stopCores_eq (s.sched.agenda.filterMap fun p => droppedBy (fun core => s.tenantOf core = t.num) p.ev)
    (s.sluice.parked.filterMap fun p => Origin.ofCore (fun core => s.tenantOf core = t.num) p.req.src)
    (s.eng.ops.filter fun o => s.tenantOf o.core = t.num) t.cores s
  rw [hcores]
  obtain ⟨ctxs, hctxs⟩ := State.stopCtxs_eq (State.liveOn { s with cpu := { s.cpu with cores } } fun core => s.tenantOf core = t.num)
    { s with cpu := { s.cpu with cores } }
  rw [hctxs]
  exact ⟨cores, ctxs, _, rfl⟩
theorem State.calm_gangHalted (s : State) (t : Tenant) : (s.gangHalted t).Calm fun core => s.tenantOf core = t.num :=
  fun _ hp => Option.isNone_iff_eq_none.1 (List.mem_filter.1 hp).2

/-- The partition with what its contexts had asked for withdrawn. -/
def State.gangWithdrawn (s : State) (t : Tenant) : State :=
  let on (core : Nat) : Bool := s.tenantOf core = t.num
  ((s.gangHalted t).withdrawAll fun p => (Origin.ofCore on p.req.src).isSome).withdrawAway fun r => (Origin.ofCore on r.src).isSome
theorem State.holdings_gangWithdrawn (s : State) (t : Tenant) : (s.gangWithdrawn t).holdings = (s.gangHalted t).holdings :=
  State.standing_holdings ((State.standing_withdrawAway _ _).trans (State.standing_withdrawAll _ _))
theorem State.gangStop_eq (s : State) (t : Tenant) :
    s.gangStop t = ((s.gangWithdrawn t).stopOps (fun core => s.tenantOf core = t.num) (s.eng.ops.filter fun o => s.tenantOf o.core = t.num)).stopRouters
      fun core => s.tenantOf core = t.num := rfl
theorem State.calm_gangStop (s : State) (t : Tenant) : (s.gangStop t).Calm fun core => s.tenantOf core = t.num := by
  rw [State.gangStop_eq]
  refine State.Calm.stopRouters (State.Calm.stopOps ?_ _ _)
  exact ((s.calm_gangHalted t).withdrawAll _).withdrawAway _
theorem State.ops_gangStop (s : State) (t : Tenant) : ∀ o ∈ (s.gangStop t).eng.ops, decide (s.tenantOf o.core = t.num) = false := by
  have heng : (s.gangWithdrawn t).eng = s.eng := by
    obtain ⟨cores, ctxs, agenda, h⟩ := s.gangHalted_eq t
    rw [State.holdings_eng (s.holdings_gangWithdrawn t), h]
  rw [State.gangStop_eq, (State.stopRouters_keeps _ _).2.1, ← heng]
  exact (s.gangWithdrawn t).stopOps_ops fun core => s.tenantOf core = t.num
/-- The cores' storages but for the marks of empty lines, and the time, are as they stood once the contexts had stopped. -/
theorem State.gangStop_cpu (s : State) (t : Tenant) :
    (∃ abEmpty, (s.gangStop t).cpu = { (s.gangHalted t).cpu with abEmpty }) ∧ (s.gangStop t).sched.now = s.sched.now := by
  obtain ⟨abEmpty, eng, hops⟩ := (s.gangWithdrawn t).stopOps_eq (fun core => s.tenantOf core = t.num) (s.eng.ops.filter fun o => s.tenantOf o.core = t.num)
  obtain ⟨hcpu, -, hnow⟩ := State.stopRouters_keeps ((s.gangWithdrawn t).stopOps (fun core => s.tenantOf core = t.num)
    (s.eng.ops.filter fun o => s.tenantOf o.core = t.num)) fun core => s.tenantOf core = t.num
  rw [State.gangStop_eq, hcpu, hnow, hops]
  refine ⟨⟨abEmpty, by rw [State.holdings_cpu (s.holdings_gangWithdrawn t)]⟩, ?_⟩
  obtain ⟨cores, ctxs, agenda, h⟩ := s.gangHalted_eq t
  exact (State.holdings_now (s.holdings_gangWithdrawn t)).trans (by rw [h])

theorem State.gangStop_buffers (s : State) (t : Tenant) : (s.gangStop t).cpu.regs = s.cpu.regs ∧ (s.gangStop t).cpu.ab = s.cpu.ab ∧
    (s.gangStop t).cpu.ps = s.cpu.ps ∧ (s.gangStop t).cpu.wb = s.cpu.wb ∧ (s.gangStop t).cpu.tiles = s.cpu.tiles := by
  obtain ⟨⟨abEmpty, hcpu⟩, -⟩ := s.gangStop_cpu t
  obtain ⟨cores, ctxs, agenda, hhalt⟩ := s.gangHalted_eq t
  rw [hcpu, hhalt]
  exact ⟨rfl, rfl, rfl, rfl, rfl⟩

/-- Each core of a stopped partition holds the counts of its stop. -/
theorem State.core_gangStop {s : State} (h : s.Canon) (t : Tenant) {c : Nat} (hc : c ∈ t.cores) :
    (s.gangStop t).core c = Core.stopMark s.sched.now (s.sched.agenda.filterMap fun p => droppedBy (fun core => s.tenantOf core = t.num) p.ev)
      (s.sluice.parked.filterMap fun p => Origin.ofCore (fun core => s.tenantOf core = t.num) p.req.src)
      (s.eng.ops.filter fun o => s.tenantOf o.core = t.num) c (s.core c) := by
  obtain ⟨⟨abEmpty, hcpu⟩, -⟩ := s.gangStop_cpu t
  have hgang : (s.gangStop t).core c = (s.gangHalted t).core c := by
    unfold State.core
    rw [hcpu]
  rw [hgang]
  refine Eq.trans ?_ ((State.core_stopCores h t.cores c).trans (if_pos hc))
  unfold State.gangHalted
  dsimp only
  generalize t.cores.foldl _ s = u
  obtain ⟨ctxs, hctxs⟩ := State.stopCtxs_eq (u.liveOn fun core => s.tenantOf core = t.num) u
  rw [hctxs]
  rfl
/-- Contexts of the partition that hold work are Stopped; those of other partitions are as they were. -/
theorem State.ctx_gangStop {s : State} (h : s.Canon) (t : Tenant) (g : Nat) :
    (s.tenantOf (coreOf g) = t.num → (s.ctx g).mode ≠ .idle → s.ctx g ≠ Ctx.rest g → (s.gangStop t).ctx g = (s.ctx g).stopMark) ∧
      (s.tenantOf (coreOf g) ≠ t.num → (s.gangStop t).ctx g = s.ctx g) := by
  obtain ⟨⟨abEmpty, hcpu⟩, -⟩ := s.gangStop_cpu t
  have hgang : (s.gangStop t).ctx g = (s.gangHalted t).ctx g := by
    unfold State.ctx
    rw [hcpu]
  rw [hgang]
  unfold State.gangHalted
  dsimp only
  generalize hu : t.cores.foldl _ s = u
  have hcan : u.Canon := hu ▸ State.Canon.foldl (fun _ _ h => State.updCore_canon h) h
  have hsame : u.ctx g = s.ctx g := by
    obtain ⟨cores, hc⟩ := State.stopCores_eq (s.sched.agenda.filterMap fun p => droppedBy (fun core => s.tenantOf core = t.num) p.ev)
      (s.sluice.parked.filterMap fun p => Origin.ofCore (fun core => s.tenantOf core = t.num) p.req.src)
      (s.eng.ops.filter fun o => s.tenantOf o.core = t.num) t.cores s
    rw [← hu, hc]
    rfl
  obtain ⟨hin, hout⟩ := State.ctx_stopCtxs hcan (fun core => s.tenantOf core = t.num) g
  rw [hsame] at hin hout
  exact ⟨fun ht => hin (decide_eq_true ht), fun ht => hout (decide_eq_false ht)⟩

end Sys2Proof.Machine
end


section
/-!
SUPPORT. Partition faults (spec/19 R384): the records of the stop, the reap of every context, and the advance of every launch and object.
-/

namespace Sys2Proof.Machine

open Sys2Proof

/-! ### Records -/

theorem State.holdings_clearUpset (s : State) (dp : Nat) : (s.clearUpset dp).holdings = s.holdings := rfl
theorem State.holdings_writeRecord (s : State) (die : Nat) (t : TrapRec) : (s.writeRecord die t).holdings = s.holdings := by
  unfold State.writeRecord
  have hclear : ∀ s : State, ((trapWords die (s.die die).w).foldl State.clearUpset s).holdings = s.holdings :=
    fun s => foldl_keeps State.holdings _ (fun s dp _ => s.holdings_clearUpset dp) s
  dsimp only
  split
  · exact (State.standing_holdings (State.standing_event ..)).trans (hclear s)
  · exact hclear s
theorem State.holdings_bermRecord (s : State) (die : Nat) (t : TrapRec) : (s.bermRecord die t).holdings = s.holdings := by
  unfold State.bermRecord
  split
  · exact s.holdings_writeRecord die t
  · refine (State.standing_holdings (State.standing_event ..)).trans ?_
    split <;> rfl
theorem State.holdings_stopRecord (s : State) (tenant cause die : Nat) (cores : List Nat) : (s.stopRecord tenant cause die cores).holdings = s.holdings :=
  (State.holdings_bermRecord _ _ _).trans rfl
theorem State.holdings_stopRecords (s : State) (t : Tenant) (cause : Nat) : (s.stopRecords t cause).holdings = s.holdings :=
  foldl_keeps State.holdings _ (fun s d _ => s.holdings_stopRecord _ _ d _) s

/-- A state whose dies are in the partitions as those of another are. -/
def State.SameUse (s t : State) : Prop := ∀ c, t.coreUsable c = s.coreUsable c
theorem State.SameUse.of_dies {s t : State} (h : t.dies = s.dies) : s.SameUse t := fun c => by
  unfold State.coreUsable State.die
  rw [h]
theorem State.SameUse.trans {s t u : State} (h : s.SameUse t) (h' : t.SameUse u) : s.SameUse u := fun c => (h' c).trans (h c)
theorem State.SameUse.foldl {α : Type} {f : State → α → State} (hc : ∀ s a, s.Canon → (f s a).Canon) (hf : ∀ s a, s.Canon → State.SameUse s (f s a))
    (l : List α) {s : State} (h : s.Canon) : s.SameUse (l.foldl f s) := by
  induction l generalizing s with
  | nil => exact fun _ => rfl
  | cons a l ih => exact (hf s a h).trans (ih (hc s a h))
theorem State.sameUse_updDie {s : State} (h : s.Canon) (d : Nat) {f : Die → Die}
    (hf : (f (s.die d)).removedHeat = (s.die d).removedHeat ∧ (f (s.die d)).removedLink = (s.die d).removedLink) : s.SameUse (s.updDie d f) :=
  State.coreUsable_updDie h hf.1 hf.2
theorem State.sameUse_writeRecord {s : State} (h : s.Canon) (die : Nat) (t : TrapRec) : s.SameUse (s.writeRecord die t) := by
  unfold State.writeRecord
  have hclear : s.SameUse ((trapWords die (s.die die).w).foldl State.clearUpset s) := .of_dies (foldl_keeps State.dies (f := State.clearUpset) _ (fun _ _ _ => rfl) s)
  have hcan : ((trapWords die (s.die die).w).foldl State.clearUpset s).Canon := State.Canon.foldl (fun _ _ h => State.clearUpset_canon h) h
  dsimp only
  split
  · refine .trans (hclear.trans ?_) (.of_dies (State.standing_dies (State.standing_event ..)))
    exact State.sameUse_updDie hcan die ⟨rfl, rfl⟩
  · refine hclear.trans ?_
    exact State.sameUse_updDie hcan die ⟨rfl, rfl⟩
theorem State.sameUse_bermRecord {s : State} (h : s.Canon) (die : Nat) (t : TrapRec) : s.SameUse (s.bermRecord die t) := by
  unfold State.bermRecord
  split
  · exact State.sameUse_writeRecord h die t
  · refine .trans ?_ (.of_dies (State.standing_dies (State.standing_event ..)))
    split
    · exact fun _ => rfl
    · exact State.sameUse_updDie h die ⟨rfl, rfl⟩
theorem State.sameUse_stopRecord {s : State} (h : s.Canon) (tenant cause die : Nat) (cores : List Nat) : s.SameUse (s.stopRecord tenant cause die cores) := by
  have hopen : s.SameUse (s.openRecord tenant 0x20).2 := .of_dies rfl
  unfold State.stopRecord
  exact hopen.trans (State.sameUse_bermRecord (State.openRecord_canon (Prod.eta (s.openRecord tenant 0x20)).symm h) _ _)
theorem State.sameUse_stopRecords {s : State} (h : s.Canon) (t : Tenant) (cause : Nat) : s.SameUse (s.stopRecords t cause) :=
  .foldl (fun _ _ h => State.stopRecord_canon h) (fun _ _ h => State.sameUse_stopRecord h _ _ _ _) _ h

/-! ### The reap of the partition -/

/-- A context of the partition goes Idle, and its registers are free. -/
def State.reapCtx (s : State) (c : Nat × Ctx) : State :=
  { s.setCtx c.1 c.2.idled with cpu := { (s.setCtx c.1 c.2.idled).cpu with
      regEmpty := spFill false s.cpu.regEmpty (1024 * coreOf c.1 + c.2.base) false c.2.count } }
theorem State.reapCtx_canon {s : State} (h : s.Canon) (c : Nat × Ctx) : (s.reapCtx c).Canon :=
  { (State.setCtx_canon h : (s.setCtx c.1 c.2.idled).Canon) with regEmpty := spFill_wf h.regEmpty }
theorem State.ctx_reapCtxs {l : List (Nat × Ctx)} {s : State} (h : s.Canon) {g : Nat} (hg : g ∈ l.map (·.1) ∨ (s.ctx g).mode = .idle) :
    ((l.foldl State.reapCtx s).ctx g).mode = .idle := by
  induction l generalizing s with
  | nil => exact hg.elim (fun h => absurd h List.not_mem_nil) id
  | cons c l ih =>
    have hread : (s.reapCtx c).ctx g = if g = c.1 then c.2.idled else s.ctx g := State.ctx_setCtx h c.1 c.2.idled g
    refine ih (State.reapCtx_canon h c) ?_
    by_cases hc : g = c.1
    · rw [hread, if_pos hc]
      exact .inr rfl
    · rw [hread, if_neg hc]
      exact hg.imp_left fun hm => (List.mem_cons.1 hm).resolve_left hc

/-- A core as a partition fault leaves it. -/
def Core.faulted (k : Core) : Core :=
  { Core.init with skew := k.skew, paired := k.paired, lbecc := k.lbecc, upsets := k.upsets, pending := k.pending.filter fun p => p.trap.noEntry }
/-- Context 0 of a core returns to its state after reset, and the core is as after the fault. -/
def State.faultCore (s : State) (c : Nat) : State := (s.setCtx (16 * c) (Ctx.rest (16 * c))).updCore c Core.faulted
theorem State.faultCore_canon {s : State} (h : s.Canon) (c : Nat) : (s.faultCore c).Canon := State.updCore_canon (State.setCtx_canon h)
theorem State.ctx_faultCore {s : State} (h : s.Canon) (c g : Nat) : (s.faultCore c).ctx g = if g = 16 * c then Ctx.rest (16 * c) else s.ctx g :=
  State.ctx_setCtx h (16 * c) _ g
theorem State.faultCores {l : List Nat} {s : State} (h : s.Canon) :
    (∀ c, c ∈ l ∨ (s.ctx (16 * c)) = Ctx.rest (16 * c) → (l.foldl State.faultCore s).ctx (16 * c) = Ctx.rest (16 * c)) ∧
      (∀ c, c ∈ l ∨ (s.core c).halted = false → ((l.foldl State.faultCore s).core c).halted = false) ∧
      ∀ g, isCtx0 g = false → (l.foldl State.faultCore s).ctx g = s.ctx g := by
  induction l generalizing s with
  | nil => exact ⟨fun _ h => h.elim (fun h => absurd h List.not_mem_nil) id, fun _ h => h.elim (fun h => absurd h List.not_mem_nil) id, fun _ _ => rfl⟩
  | cons x l ih =>
    obtain ⟨hrest, hhalt, hother⟩ := ih (State.faultCore_canon h x)
    have hcore : ∀ c, (s.faultCore x).core c = if c = x then Core.faulted (s.core x) else s.core c :=
      fun c => State.core_updCore (State.setCtx_canon h) ..
    refine ⟨fun c hc => hrest c ?_, fun c hc => hhalt c ?_, fun g hg => (hother g hg).trans ?_⟩
    · rw [State.ctx_faultCore h]
      by_cases hx : c = x
      · exact .inr (by rw [hx, if_pos rfl])
      · rw [if_neg fun e => hx (Nat.eq_of_mul_eq_mul_left (by decide) e)]
        exact hc.imp_left fun hm => (List.mem_cons.1 hm).resolve_left hx
    · rw [hcore]
      by_cases hx : c = x
      · exact .inr (by rw [if_pos hx]; rfl)
      · rw [if_neg hx]
        exact hc.imp_left fun hm => (List.mem_cons.1 hm).resolve_left hx
    · rw [State.ctx_faultCore h, if_neg]
      rintro rfl
      simp [isCtx0] at hg

/-- The launches, the objects and the dies. -/
def State.offCpu (s : State) : List Launch × List Obj × Sparse Die := (s.fw.launches, s.fw.objs, s.dies)

/-- The contexts of a partition that hold work, context 0 of each core apart. -/
def State.liveWork (s : State) (t : Tenant) : List (Nat × Ctx) :=
  s.cpu.ctxs.filter fun c => decide (s.tenantOf (coreOf c.1) = t.num) && !isCtx0 c.1 && c.2.mode ≠ .idle
/-- The launches of units that a partition fault takes away, with their dies. -/
def State.liveUnits (s : State) (t : Tenant) : List (Nat × Launch) :=
  (s.liveWork t).filterMap fun c => if c.2.work = .unit then (c.2.lid.bind s.launch?).map fun l => (dieOf (coreOf c.1), l) else none
/-- A unit that is taken away advances the retire counter of its launch. -/
def State.retireUnit (s : State) (x : Nat × Launch) : State := if x.2.rctr then s.advanceRetire x.1 x.2.tenant (x.2.lctr + 16) else s
/-- A die where some units wait no more; one where the joins and evaluations of a tenant are gone. -/
def Die.unwaited (p : UnitPacket → Bool) (d : Die) : Die := { d with waiting := d.waiting.filter fun u => !p u }
def Die.unjoined (tenant : Nat) (d : Die) : Die :=
  { d with joins := d.joins.filter (fun j => match j.2 with | some r => r.tenant ≠ tenant | none => false)
           evaluating := d.evaluating.filter fun e => e.1.tenant ≠ tenant }
theorem State.dropWaiting_eq (s : State) (p : UnitPacket → Bool) :
    s.dropWaiting p = (s.dies.map (·.1)).foldl (fun s d => s.updDie d (Die.unwaited p)) s := rfl
/-- What is under way for a partition is gone: units that wait, joins, evaluations, parked requests, transfers and steps in flight. -/
def State.forgotten (s : State) (t : Tenant) (on : Nat → Bool) : State :=
  let s := s.dropWaiting fun p => match s.launch? p.lid with | some l => l.tenant = t.num | none => true
  let s := (s.dies.map (·.1)).foldl (fun s d => s.updDie d (Die.unjoined t.num)) s
  let s := s.withdrawAll fun p => (match p.req.src with
    | .ctx g _ => on (coreOf g)
    | .fwWait _ => p.req.tenant = t.num
    | _ => false)
  { s with
    eng := { s.eng with lossy := s.eng.lossy.filter fun x => !ofCores on x }
    sched := { s.sched with agenda := s.sched.agenda.filter fun p => !s.ofPartition t.num on p.ev } }
theorem State.reapAll_eq (s : State) (t : Tenant) :
    s.reapAll t = (t.cores.foldl State.faultCore ((s.liveWork t).foldl State.reapCtx ((s.liveUnits t).foldl State.retireUnit s))).forgotten t
      fun core => s.tenantOf core = t.num := rfl

theorem State.standing_retireUnit (s : State) (x : Nat × Launch) : (s.retireUnit x).standing = s.standing := by
  unfold State.retireUnit
  split
  · exact s.standing_advanceRetire ..
  · rfl
/-- Changes to dies that take none out of use, and touch nothing else. -/
theorem State.updDies_keeps {f : Die → Die} (hf : ∀ d, (f d).removedHeat = d.removedHeat ∧ (f d).removedLink = d.removedLink) (l : List Nat) {s : State}
    (h : s.Canon) : (l.foldl (fun s d => s.updDie d f) s).holdings = s.holdings ∧ s.SameUse (l.foldl (fun s d => s.updDie d f) s) :=
  ⟨foldl_keeps State.holdings (f := fun s d => s.updDie d f) l (fun _ _ _ => rfl) s,
    .foldl (fun _ _ h => State.updDie_canon h) (fun s d h => State.sameUse_updDie h d (hf (s.die d))) l h⟩
/-- What is forgotten of a partition leaves the cores, the launches and objects, and which dies are in use. -/
theorem State.forgotten_keeps {s : State} (h : s.Canon) (t : Tenant) (on : Nat → Bool) :
    (s.forgotten t on).cpu = s.cpu ∧ (s.forgotten t on).fw.launches = s.fw.launches ∧ (s.forgotten t on).fw.objs = s.fw.objs ∧
      s.SameUse (s.forgotten t on) ∧ ∀ x ∈ (s.forgotten t on).eng.lossy, ofCores on x = false := by
  unfold State.forgotten
  dsimp only
  generalize hu : s.dropWaiting _ = u
  have hwait : u.holdings = s.holdings ∧ s.SameUse u := by
    rw [← hu, State.dropWaiting_eq]
    exact State.updDies_keeps (f := Die.unwaited _) (fun _ => ⟨rfl, rfl⟩) (s.dies.map (·.1)) h
  have hcan : u.Canon := hu ▸ State.dropWaiting_canon h
  generalize hv : (u.dies.map (·.1)).foldl _ u = v
  have hjoin : v.holdings = u.holdings ∧ u.SameUse v := hv ▸ State.updDies_keeps (f := Die.unjoined t.num) (fun _ => ⟨rfl, rfl⟩) (u.dies.map (·.1)) hcan
  generalize hw : v.withdrawAll _ = w
  have hgone : w.standing = v.standing := hw ▸ State.standing_withdrawAll v _
  have hall : w.holdings = s.holdings := (State.standing_holdings hgone).trans (hjoin.1.trans hwait.1)
  refine ⟨State.holdings_cpu hall, State.holdings_launches hall, State.holdings_objs hall,
    (hwait.2.trans hjoin.2).trans (.of_dies (State.standing_dies hgone : w.dies = v.dies)), fun x hx => ?_⟩
  simpa using (List.mem_filter.1 hx).2

theorem Ctx.rest_mode {g : Nat} (h : isCtx0 g = false) : (Ctx.rest g).mode = .idle := if_neg (of_decide_eq_false h)
/-- What a partition fault's reap leaves: contexts Idle, cores running, and no transfer of theirs. -/
theorem State.reapAll_leaves {s : State} (h : s.Canon) (t : Tenant) :
    (∀ c ∈ t.cores, ((s.reapAll t).core c).halted = false ∧ (s.reapAll t).ctx (16 * c) = Ctx.rest (16 * c)) ∧
      (∀ g, isCtx0 g = false → s.tenantOf (coreOf g) = t.num → ((s.reapAll t).ctx g).mode = .idle) ∧
      (s.reapAll t).fw.launches = s.fw.launches ∧ (s.reapAll t).fw.objs = s.fw.objs ∧ s.SameUse (s.reapAll t) ∧
      ∀ x ∈ (s.reapAll t).eng.lossy, ofCores (fun core => s.tenantOf core = t.num) x = false := by
  rw [State.reapAll_eq]
  generalize hu : (s.liveUnits t).foldl State.retireUnit s = u
  have hstand : u.standing = s.standing := hu ▸ foldl_keeps State.standing _ (fun s x _ => s.standing_retireUnit x) s
  have hucan : u.Canon := hu ▸ State.Canon.foldl (fun s x h => by
    unfold State.retireUnit
    split
    · exact State.advanceRetire_canon h
    · exact h) h
  generalize hv : (s.liveWork t).foldl State.reapCtx u = v
  have hvcan : v.Canon := hv ▸ State.Canon.foldl (fun s c h => State.reapCtx_canon h c) hucan
  have hvoff : v.offCpu = u.offCpu := hv ▸ foldl_keeps State.offCpu (f := State.reapCtx) _ (fun _ _ _ => rfl) u
  generalize hw : t.cores.foldl State.faultCore v = w
  have hwcan : w.Canon := hw ▸ State.Canon.foldl (fun s c h => State.faultCore_canon h c) hvcan
  have hwoff : w.offCpu = v.offCpu := hw ▸ foldl_keeps State.offCpu (f := State.faultCore) _ (fun _ _ _ => rfl) v
  obtain ⟨hrest, hhalt, hother⟩ := State.faultCores (l := t.cores) hvcan
  rw [hw] at hrest hhalt hother
  obtain ⟨hcpu, hlaunch, hobj, huse, hlossy⟩ := State.forgotten_keeps hwcan t fun core => s.tenantOf core = t.num
  have hoff : w.offCpu = u.offCpu := hwoff.trans hvoff
  have hhold := State.standing_holdings hstand
  have hcore : ∀ c, (w.forgotten t fun core => s.tenantOf core = t.num).core c = w.core c := fun c => by rw [State.core, hcpu, State.core]
  have hctx : ∀ g, (w.forgotten t fun core => s.tenantOf core = t.num).ctx g = w.ctx g := fun g => by rw [State.ctx, hcpu, State.ctx]
  have hdies : s.SameUse w := .of_dies ((congrArg (·.2.2) hoff : w.dies = u.dies).trans (State.standing_dies hstand))
  refine ⟨fun c hc => ⟨(congrArg Core.halted (hcore c)).trans (hhalt c (.inl hc)), (hctx _).trans (hrest c (.inl hc))⟩, fun g h0 ht => ?_,
    hlaunch.trans ((congrArg (·.1) hoff).trans (State.holdings_launches hhold)),
    hobj.trans ((congrArg (·.2.1) hoff).trans (State.holdings_objs hhold)), hdies.trans huse, hlossy⟩
  rw [hctx, hother g h0, ← hv]
  refine State.ctx_reapCtxs hucan ?_
  have hsame : u.ctx g = s.ctx g := by rw [State.ctx, State.holdings_cpu hhold, State.ctx]
  rw [hsame]
  by_cases hm : (s.ctx g).mode = .idle
  · exact .inr hm
  · refine .inl (List.mem_map.2 ⟨(g, s.ctx g), List.mem_filter.2 ⟨State.ctx_listed (fun e => hm ?_) h, by simp [ht, h0, hm]⟩, rfl⟩)
    rw [e, Ctx.rest_mode h0]

/-! ### The advance of what the partition held -/

/-- An incomplete launch of the partition is over. -/
def Launch.faulted (l : Launch) : Launch := { l with state := .advanced, cancelled := true }
/-- One launch of the partition is over, and its counter advances. -/
def State.faultLaunch (tenant : Nat) (s : State) (l : Launch) : State :=
  (s.updLaunch l.lid Launch.faulted).advanceCounter tenant l.lctr (statusWord l.retired l.partialDone l.reaped true)
/-- One object of the partition is over, and its counter advances. -/
def State.faultObj (tenant : Nat) (s : State) (o : Obj) : State :=
  (s.updObj tenant o.ctr fun _ => { o with advanced := true }).advanceCounter tenant o.ctr (statusWord 0 o.partialDone o.reaped true)
theorem State.cancelAll_eq (s : State) (t : Tenant) (ws : List FwWait) :
    ∃ os : List Obj, (∀ o ∈ s.fw.objs, o.tenant = t.num → o.advanced = true ∨ o.ctr ∈ os.map (·.ctr)) ∧
      (s.cancelAll t ws).1 = os.foldl (State.faultObj t.num)
        ((s.fw.launches.filter fun l => l.tenant = t.num && l.state ≠ .advanced).foldl (State.faultLaunch t.num) s) := by
  refine ⟨_, fun o ho ht => ?_, rfl⟩
  by_cases ha : o.advanced = true
  · exact .inl ha
  · refine .inr ?_
    rw [List.map_map]
    exact List.mem_map.2 ⟨o, List.mem_filter.2 ⟨ho, by simp [ht, ha]⟩, rfl⟩

/-- What the end of launches and objects leaves alone. -/
def State.offObjects (s : State) : Cpu × Engines × Sparse Die := (s.cpu, s.eng, s.dies)
theorem State.offObjects_of_standing {s t : State} (h : t.standing = s.standing) : t.offObjects = s.offObjects :=
  congrArg (fun x => (x.1.1, x.1.2.1, x.2)) h
theorem State.offObjects_faultLaunch (tenant : Nat) (s : State) (l : Launch) : (s.faultLaunch tenant l).offObjects = s.offObjects :=
  (State.offObjects_of_standing (State.standing_advanceBy ..)).trans rfl
theorem State.offObjects_faultObj (tenant : Nat) (s : State) (o : Obj) : (s.faultObj tenant o).offObjects = s.offObjects :=
  (State.offObjects_of_standing (State.standing_advanceBy ..)).trans rfl
theorem State.launches_faultLaunch (tenant : Nat) (s : State) (l : Launch) :
    (s.faultLaunch tenant l).fw.launches = s.fw.launches.map (fun x => if x.lid = l.lid then x.faulted else x) ∧
      (s.faultLaunch tenant l).fw.objs = s.fw.objs := by
  have h := State.standing_holdings (State.standing_advanceBy (s.updLaunch l.lid Launch.faulted) none tenant l.lctr
    (statusWord l.retired l.partialDone l.reaped true))
  exact ⟨(State.holdings_launches h).trans (mapWhere_if _), (State.holdings_objs h).trans rfl⟩
theorem State.objs_faultObj (tenant : Nat) (s : State) (o : Obj) :
    (s.faultObj tenant o).fw.objs = mapWhere (fun x : Obj => x.is tenant o.ctr) (fun _ => { o with advanced := true }) s.fw.objs ∧
      (s.faultObj tenant o).fw.launches = s.fw.launches := by
  have h := State.standing_holdings (State.standing_advanceBy (s.updObj tenant o.ctr fun _ => { o with advanced := true }) none tenant o.ctr
    (statusWord 0 o.partialDone o.reaped true))
  exact ⟨State.holdings_objs h, (State.holdings_launches h).trans rfl⟩

/-- Every launch of a tenant is over once those that were not have been ended. -/
theorem State.faultLaunches {tenant : Nat} {ls : List Launch} {s : State}
    (h : ∀ l ∈ s.fw.launches, l.tenant = tenant → l.state = .advanced ∨ l.lid ∈ ls.map (·.lid)) :
    (∀ l ∈ (ls.foldl (State.faultLaunch tenant) s).fw.launches, l.tenant = tenant → l.state = .advanced) ∧
      (ls.foldl (State.faultLaunch tenant) s).fw.objs = s.fw.objs := by
  induction ls generalizing s with
  | nil => exact ⟨fun l hl ht => (h l hl ht).resolve_right List.not_mem_nil, rfl⟩
  | cons x ls ih =>
    obtain ⟨hl, ho⟩ := s.launches_faultLaunch tenant x
    obtain ⟨hall, hobjs⟩ := ih (s := s.faultLaunch tenant x) fun l hm ht => by
      rw [hl] at hm
      obtain ⟨y, hy, rfl⟩ := List.mem_map.1 hm
      by_cases he : y.lid = x.lid
      · rw [if_pos he]
        exact .inl rfl
      · rw [if_neg he] at ht ⊢
        exact (h y hy ht).imp_right fun hm => (List.mem_cons.1 hm).resolve_left he
    exact ⟨hall, hobjs.trans ho⟩
/-- Every object of a tenant is over once those that were not have been ended. -/
theorem State.faultObjs {tenant : Nat} {os : List Obj} {s : State}
    (h : ∀ o ∈ s.fw.objs, o.tenant = tenant → o.advanced = true ∨ o.ctr ∈ os.map (·.ctr)) :
    (∀ o ∈ (os.foldl (State.faultObj tenant) s).fw.objs, o.tenant = tenant → o.advanced = true) ∧
      (os.foldl (State.faultObj tenant) s).fw.launches = s.fw.launches := by
  induction os generalizing s with
  | nil => exact ⟨fun o ho ht => (h o ho ht).resolve_right List.not_mem_nil, rfl⟩
  | cons x os ih =>
    obtain ⟨ho, hl⟩ := s.objs_faultObj tenant x
    obtain ⟨hall, hlaunches⟩ := ih (s := s.faultObj tenant x) fun o hm ht => by
      rw [ho] at hm
      obtain ⟨y, hy, rfl⟩ := List.mem_map.1 hm
      cases he : y.is tenant x.ctr
      · simp only [he, Bool.false_eq_true, if_false] at ht ⊢
        by_cases ha : y.advanced = true
        · exact .inl ha
        · refine (h y hy ht).imp_right fun hm => (List.mem_cons.1 hm).resolve_left fun e => ?_
          simp [Obj.is, ht, e, ha] at he
      · simp only [he, if_true]
        exact .inl trivial
    exact ⟨hall, hlaunches.trans hl⟩
/-- After the advance every launch and object of the partition is over; the cores, the engines and the dies are as before. -/
theorem State.cancelAll_over (s : State) (t : Tenant) (ws : List FwWait) :
    (∀ l ∈ (s.cancelAll t ws).1.fw.launches, l.tenant = t.num → l.state = .advanced) ∧
      (∀ o ∈ (s.cancelAll t ws).1.fw.objs, o.tenant = t.num → o.advanced = true) ∧ (s.cancelAll t ws).1.offObjects = s.offObjects := by
  obtain ⟨os, hos, heq⟩ := s.cancelAll_eq t ws
  rw [heq]
  generalize hls : (s.fw.launches.filter fun l => l.tenant = t.num && l.state ≠ .advanced) = ls
  obtain ⟨hl, ho⟩ := State.faultLaunches (tenant := t.num) (ls := ls) (s := s) fun l hm ht => by
    by_cases ha : l.state = .advanced
    · exact .inl ha
    · exact .inr (hls ▸ List.mem_map.2 ⟨l, List.mem_filter.2 ⟨hm, by simp [ht, ha]⟩, rfl⟩)
  obtain ⟨ho', hl'⟩ := State.faultObjs (tenant := t.num) (os := os) (s := ls.foldl (State.faultLaunch t.num) s) fun o hm ht => hos o (ho ▸ hm) ht
  refine ⟨fun l hm => hl l (hl' ▸ hm), ho', ?_⟩
  exact (foldl_keeps State.offObjects os (fun s o _ => s.offObjects_faultObj t.num o) _).trans
    (foldl_keeps State.offObjects ls (fun s l _ => s.offObjects_faultLaunch t.num l) s)

/-! ### The supervisor starts -/

/-- Context 0 of a core runs at the supervisor entry. -/
def Ctx.Supervises (pc : W64) (c : Ctx) : Prop := c.mode = .ready ∧ c.pc = pc ∧ c.inh = false
/-- A run of registers is zero and full. -/
def State.freshRegs (s : State) (k n : Nat) : State :=
  { s with cpu := { s.cpu with regs := spFill 0 s.cpu.regs k 0 n, regEmpty := spFill false s.cpu.regEmpty k false n } }
theorem State.freshRegs_canon {s : State} (h : s.Canon) (k n : Nat) : (s.freshRegs k n).Canon :=
  { h with regs := spFill_wf h.regs, regEmpty := spFill_wf h.regEmpty }
theorem State.ctx_freshRegs (s : State) (k n g : Nat) : (s.freshRegs k n).ctx g = s.ctx g := rfl
theorem State.startSupervisor_eq (s : State) (pc : W64) (core : Nat) : s.startSupervisor pc core =
    (s.newGen.2.freshRegs (1024 * core) 32).setCtx (16 * core) { Ctx.rest (16 * core) with mode := .ready, park := .nothing, pc, gen := s.sched.gens } := rfl
theorem State.ctx_startSupervisor {s : State} (h : s.Canon) (pc : W64) (c g : Nat) :
    (g = 16 * c → ((s.startSupervisor pc c).ctx g).Supervises pc) ∧ (g ≠ 16 * c → (s.startSupervisor pc c).ctx g = s.ctx g) := by
  have hgen : s.newGen.2.Canon := State.Canon.other h
  rw [State.startSupervisor_eq, State.ctx_setCtx (State.freshRegs_canon hgen (1024 * c) 32), State.ctx_freshRegs]
  exact ⟨fun e => by rw [if_pos e]; exact ⟨rfl, rfl, rfl⟩, fun e => if_neg e⟩
/-- What the start of supervisors leaves alone. -/
def State.offStarts (s : State) : List (Nat × Core) × Engines × List Launch × List Obj := (s.cpu.cores, s.eng, s.fw.launches, s.fw.objs)
theorem State.startSupervisors {pc : W64} {l : List Nat} {s : State} (h : s.Canon) :
    (∀ c, c ∈ l ∨ (s.ctx (16 * c)).Supervises pc → ((l.foldl (fun s c => s.startSupervisor pc c) s).ctx (16 * c)).Supervises pc) ∧
      (∀ g, (∀ c ∈ l, g ≠ 16 * c) → (l.foldl (fun s c => s.startSupervisor pc c) s).ctx g = s.ctx g) ∧
      (l.foldl (fun s c => s.startSupervisor pc c) s).offStarts = s.offStarts := by
  induction l generalizing s with
  | nil => exact ⟨fun _ h => h.elim (fun h => absurd h List.not_mem_nil) id, fun _ _ => rfl, rfl⟩
  | cons x l ih =>
    obtain ⟨hrun, hother, hoff⟩ := ih (State.startSupervisor_canon (pc := pc) (core := x) h)
    refine ⟨fun c hc => hrun c ?_, fun g hg => (hother g fun c hc => hg c (List.mem_cons_of_mem _ hc)).trans
      ((State.ctx_startSupervisor h pc x g).2 (hg x List.mem_cons_self)), hoff.trans rfl⟩
    by_cases hx : c = x
    · exact .inr ((State.ctx_startSupervisor h pc x _).1 (by rw [hx]))
    · rw [(State.ctx_startSupervisor h pc x _).2 fun e => hx (Nat.eq_of_mul_eq_mul_left (by decide) e)]
      exact hc.imp_left fun hm => (List.mem_cons.1 hm).resolve_left hx

/-! ### The partition fault -/

theorem execPartitionFault_eq {tn cause : Nat} {t : Tenant} {s r a : State} (ht : s.tenant? tn = some t) (hr : (s.stopRecords t cause).reapAll t = r)
    (ha : (r.cancelAll t s.waitsOf).1 = a) :
    execPartitionFault tn cause s = .next (((t.cores.filter a.coreUsable).foldl (fun s c => s.startSupervisor t.supervisor c) a).event tn 0x03 0 0
      [wordOfNat cause, wordOfNat (r.cancelAll t s.waitsOf).2]) := by
  subst hr ha
  unfold execPartitionFault
  rw [ht]
/-- What a partition fault leaves of the partition (R384). -/
theorem State.partitionFault_leaves {tn cause : Nat} {t : Tenant} {s : State} (h : s.Canon) (ht : s.tenant? tn = some t) :
    ∃ u : State, exec (.partitionFault tn cause) s = .next u ∧
      (∀ c ∈ t.cores, (u.core c).halted = false ∧ (s.coreUsable c = true → (u.ctx (16 * c)).Supervises t.supervisor) ∧
        (s.coreUsable c = false → u.ctx (16 * c) = Ctx.rest (16 * c))) ∧
      (∀ x ∈ u.eng.lossy, ofCores (fun core => s.tenantOf core = t.num) x = false) ∧
      (∀ g, isCtx0 g = false → s.tenantOf (coreOf g) = t.num → (u.ctx g).mode = .idle) ∧
      (∀ l ∈ u.fw.launches, l.tenant = t.num → l.state = .advanced) ∧ (∀ o ∈ u.fw.objs, o.tenant = t.num → o.advanced = true) := by
  have hrec := s.holdings_stopRecords t cause
  have hreccan : (s.stopRecords t cause).Canon := State.stopRecords_canon h
  obtain ⟨hcores, hidle, -, -, huse, hlossy⟩ := State.reapAll_leaves hreccan t
  have hrcan : ((s.stopRecords t cause).reapAll t).Canon := State.reapAll_canon hreccan
  have huse : s.SameUse ((s.stopRecords t cause).reapAll t) := (State.sameUse_stopRecords h t cause).trans huse
  simp only [State.holdings_tenantOf hrec] at hidle hlossy
  generalize hr : (s.stopRecords t cause).reapAll t = r at hcores hidle huse hlossy hrcan
  obtain ⟨hlaunches, hobjs, hoff⟩ := r.cancelAll_over t s.waitsOf
  have hacan : (r.cancelAll t s.waitsOf).1.Canon := State.cancelAll_canon (Prod.eta _).symm hrcan
  generalize ha : (r.cancelAll t s.waitsOf).1 = a at hlaunches hobjs hoff hacan
  have hcpu : a.cpu = r.cpu := congrArg (·.1) hoff
  have heng : a.eng = r.eng := congrArg (·.2.1) hoff
  have huse : s.SameUse a := huse.trans (.of_dies (congrArg (·.2.2) hoff))
  obtain ⟨hrun, hother, hstart⟩ := State.startSupervisors (pc := t.supervisor) (l := t.cores.filter a.coreUsable) hacan
  refine ⟨_, execPartitionFault_eq ht hr ha, ?_⟩
  generalize hb : (t.cores.filter a.coreUsable).foldl (fun s c => s.startSupervisor t.supervisor c) a = b at hrun hother hstart
  have hend := State.standing_holdings (b.standing_event tn 0x03 0 0 [wordOfNat cause, wordOfNat (r.cancelAll t s.waitsOf).2])
  generalize b.event tn 0x03 0 0 [wordOfNat cause, wordOfNat (r.cancelAll t s.waitsOf).2] = u at hend
  have huctx : ∀ g, u.ctx g = b.ctx g := fun g => by rw [State.ctx, State.holdings_cpu hend, State.ctx]
  have hactx : ∀ g, a.ctx g = r.ctx g := fun g => by rw [State.ctx, hcpu, State.ctx]
  have hucore : ∀ c, u.core c = r.core c := fun c => by
    rw [State.core, State.holdings_cpu hend, show b.cpu.cores = a.cpu.cores from congrArg (·.1) hstart, hcpu, State.core]
  refine ⟨fun c hc => ⟨by rw [hucore]; exact (hcores c hc).1, fun hu => ?_, fun hu => ?_⟩, fun x hx => ?_, fun g h0 hg => ?_, fun l hl => ?_, fun o ho => ?_⟩
  · rw [huctx]
    exact hrun c (.inl (List.mem_filter.2 ⟨hc, (huse c).trans hu⟩))
  · rw [huctx, hother _ fun c' hc' e => ?_, hactx, (hcores c hc).2]
    have hcc : c = c' := Nat.eq_of_mul_eq_mul_left (by decide) e
    rw [← hcc, List.mem_filter, huse c, hu] at hc'
    exact Bool.false_ne_true hc'.2
  · rw [State.holdings_eng hend, show b.eng = a.eng from congrArg (·.2.1) hstart, heng] at hx
    exact hlossy x hx
  · rw [huctx, hother g fun c _ e => ?_, hactx]
    · exact hidle g h0 hg
    · rw [e] at h0
      simp [isCtx0] at h0
  · rw [State.holdings_launches hend, show b.fw.launches = a.fw.launches from congrArg (·.2.2.1) hstart] at hl
    exact hlaunches l hl
  · rw [State.holdings_objs hend, show b.fw.objs = a.fw.objs from congrArg (·.2.2.2) hstart] at ho
    exact hobjs o ho

end Sys2Proof.Machine
end


section
/-!
SUPPORT. Checked pairs (spec/19 R385): what a mismatch does to a unit, to other work, and to messages that waited too long.
-/

namespace Sys2Proof.Machine

open Sys2Proof

/-! ### Records leave pairs coupled -/

/-- A core where one more record waits. -/
def Core.waitsWith (k : Core) (p : PendingTrap) : Core := { k with pending := k.pending ++ [p] }
theorem State.core_post (s : State) (ev : Instr) (c : Nat) : (s.post ev).core c = s.core c := rfl
theorem State.core_updCore_listed {s : State} {c : Nat} {f : Core → Core} (h : f (s.core c) ≠ Core.init) : (s.updCore c f).core c = f (s.core c) :=
  spGet_spSet_listed h
theorem State.paired_asyncRecord (s : State) (die : Nat) (t : TrapRec) (c : Nat) : ((s.asyncRecord die t).core c).paired = (s.core c).paired := by
  unfold State.asyncRecord
  split
  · rw [State.core, State.holdings_cpu (s.holdings_writeRecord die t), State.core]
  · have hne : (s.core t.core).waitsWith { trap := t, die, written := false } ≠ Core.init := fun e =>
      List.append_ne_nil_of_right_ne_nil _ (List.cons_ne_nil _ _) (congrArg Core.pending e)
    by_cases hc : c = t.core
    · subst hc
      exact (congrArg Core.paired (State.core_updCore_listed (f := fun k => k.waitsWith { trap := t, die, written := false }) hne)).trans rfl
    · exact congrArg Core.paired (spGet_spSet_apart hc)
theorem State.both_of_paired {s t : State} (h : ∀ c, (t.core c).paired = (s.core c).paired) (g : Nat) : t.both g = s.both g := by
  unfold State.both
  rw [h]
theorem State.both_mismatchRecords (l : List Nat) (s : State) (g : Nat) : (l.foldl State.mismatchRecord s).both g = s.both g :=
  State.both_of_paired (fun c => foldl_keeps (fun t : State => (t.core c).paired) l (fun t _ _ => t.paired_asyncRecord _ _ c) s) g

/-! ### A gang stop that is taken -/

theorem execGangStop_stopped {tn cause die : Nat} {t : Tenant} {s : State} (ht : s.tenant? tn = some t) (h : ∃ c ∈ t.cores, (s.core c).halted = true) :
    exec (.gangStop tn cause die) s = .next s := by
  change execGangStop tn cause die s = _
  simp only [execGangStop, ht, List.any_eq_true.2 h, if_true]
theorem execGangStop_running {tn cause die : Nat} {t : Tenant} {s : State} (ht : s.tenant? tn = some t) (h : ∀ c ∈ t.cores, (s.core c).halted = false) :
    exec (.gangStop tn cause die) s = .next ((s.gangStop t).post (.partitionFault tn cause)) := by
  have hn : (t.cores.any fun c => (s.core c).halted) = false := List.any_eq_false.2 fun c hc => by simp [h c hc]
  change execGangStop tn cause die s = _
  simp only [execGangStop, ht, hn, Bool.false_eq_true, if_false]

/-! ### A mismatch -/

/-- The other messages of the pair about the same work are gone. -/
def State.unmatched (s : State) (g : Nat) : State :=
  { s with sched := { s.sched with agenda := s.sched.agenda.filter fun p =>
      match p.ev with | .checkedPairMismatch x => !(s.both g).contains x | _ => true } }
/-- What a mismatch does to work that is there. -/
def State.mismatch (s : State) (g : Nat) : State :=
  match (s.ctx g).lid.bind s.launch? with
  | none => (s.both g).foldl (fun s h => (s.mismatchRecord h).endWork h .cancelled) s
  | some l =>
    if l.replaced.contains (s.ctx g).unit.toNat then s.post (.gangStop l.tenant 0x11 (dieOf (coreOf g)))
    else
      let r := (s.both g).foldl State.mismatchRecord s
      if (s.ctx g).work = .unit || (s.ctx g).work = .participant then r.firstMismatch l (s.ctx g).unit.toNat
      else (r.both g).foldl (fun s h => s.endWork h .cancelled) r
theorem execCheckedPairMismatch_off {g : Nat} {s : State} (h : (s.core (coreOf g)).paired = false ∨ isCtx0 g = true) :
    exec (.checkedPairMismatch g) s = .next s := by
  refine congrArg Host.Outcome.next (if_pos ?_)
  rcases h with h | h <;> simp [h]
theorem execCheckedPairMismatch_idle {g : Nat} {s : State} (hp : (s.core (coreOf g)).paired = true) (h0 : isCtx0 g = false)
    (hx : idX (coreOf g) % 2 = 0) (hm : (s.ctx g).mode = .idle) :
    exec (.checkedPairMismatch g) s = .next ((s.both g).foldl State.dropUnsent s) := by
  change execCheckedPairMismatch g s = _
  unfold execCheckedPairMismatch
  dsimp only
  rw [if_pos hx, if_neg (by simp [hp, h0]), if_pos hm]
theorem execCheckedPairMismatch_work {g : Nat} {s : State} (hp : (s.core (coreOf g)).paired = true) (h0 : isCtx0 g = false)
    (hx : idX (coreOf g) % 2 = 0) (hm : (s.ctx g).mode ≠ .idle) : exec (.checkedPairMismatch g) s = .next ((s.unmatched g).mismatch g) := by
  change execCheckedPairMismatch g s = _
  unfold execCheckedPairMismatch
  dsimp only
  rw [if_pos hx, if_neg (by simp [hp, h0]), if_neg hm]
  rfl
theorem State.mismatch_unlaunched {s : State} {g : Nat} (h : (s.ctx g).lid.bind s.launch? = none) :
    s.mismatch g = (s.both g).foldl (fun s h => (s.mismatchRecord h).endWork h .cancelled) s := by
  simp only [State.mismatch, h]
theorem State.mismatch_second {s : State} {g : Nat} {l : Launch} (h : (s.ctx g).lid.bind s.launch? = some l)
    (hr : l.replaced.contains (s.ctx g).unit.toNat = true) : s.mismatch g = s.post (.gangStop l.tenant 0x11 (dieOf (coreOf g))) := by
  simp only [State.mismatch, h, hr, if_true]
theorem State.mismatch_unit {s : State} {g : Nat} {l : Launch} (h : (s.ctx g).lid.bind s.launch? = some l)
    (hr : l.replaced.contains (s.ctx g).unit.toNat = false) (hw : (s.ctx g).work = .unit ∨ (s.ctx g).work = .participant) :
    s.mismatch g = ((s.both g).foldl State.mismatchRecord s).firstMismatch l (s.ctx g).unit.toNat := by
  have hw : (decide ((s.ctx g).work = .unit) || decide ((s.ctx g).work = .participant)) = true := by simpa using hw
  simp only [State.mismatch, h, hr, hw, if_true, Bool.false_eq_true, if_false]
theorem State.mismatch_other {s : State} {g : Nat} {l : Launch} (h : (s.ctx g).lid.bind s.launch? = some l)
    (hr : l.replaced.contains (s.ctx g).unit.toNat = false) (hu : (s.ctx g).work ≠ .unit) (hp : (s.ctx g).work ≠ .participant) :
    s.mismatch g = (s.both g).foldl (fun s h => s.endWork h .cancelled) ((s.both g).foldl State.mismatchRecord s) := by
  have hw : (decide ((s.ctx g).work = .unit) || decide ((s.ctx g).work = .participant)) = false := by simp [hu, hp]
  simp only [State.mismatch, h, hr, hw, Bool.false_eq_true, if_false, State.both_mismatchRecords]

/-! ### Messages that waited too long -/

/-- The mismatches of a core's messages that have waited for more than 1,024 cycles. -/
def lateMessages (now : Nat) (k : Nat × Core) : List Instr :=
  (k.2.pairOut.filter fun x => decide (x.1 + 1024 < now)).map fun x => .checkedPairMismatch (16 * k.1 + x.2.1)
theorem execCheckedPairTimeout_eq (s : State) :
    exec .checkedPairTimeout s = .next (s.cpu.cores.foldl (fun s k => s.postAll (lateMessages s.sched.now k)) s) := by
  refine congrArg Host.Outcome.next (congrArg (fun f => s.cpu.cores.foldl f s) ?_)
  funext s k
  rw [State.postAll, lateMessages, List.foldl_map]
theorem State.postLate (l : List (Nat × Core)) (s : State) :
    l.foldl (fun s k => s.postAll (lateMessages s.sched.now k)) s = { s with sched := { s.sched with
      agenda := s.sched.agenda ++ l.flatMap fun k => (lateMessages s.sched.now k).map fun ev => { due := s.sched.now, ev } } } := by
  induction l generalizing s with
  | nil => simp
  | cons k l ih =>
    rw [List.foldl_cons, ih, State.postAll_eq]
    simp [List.append_assoc]

/-! ### The obligation -/

/-- Settles O48. A cancel is applied to what its counter names, and a cancelled launch stays marked through the ends of its work; a gang stop is
read step by step, and each step touches its own storage; a partition fault leaves the state that its reap, its advances and the starts leave. -/
theorem stops : Obligations.Stops := by
  unfold Obligations.Stops
  refine ⟨fun x s => ⟨fun l h hu => ?_, fun l u h hu => ?_, fun o h hu ho => ?_, fun h hn => ?_⟩,
    fun g s hp => ⟨State.cancelCtx_other hp, State.cancelCtx_parked hp, State.runSlot_cancel hp⟩,
    fun s gens => ⟨s.cancelled_withdrawOf gens, s.withdrawOf_parked gens⟩,
    fun l s hl hc ha => State.cancelLaunch_spares hl ha hc,
    fun tn cause die t s hcan ht => ⟨fun h => ?_, fun h => ?_⟩,
    fun tn cause t s hcan ht => ?_,
    fun g s hp h0 hx hm => ⟨fun hl => ?_, fun l hl hr => ?_, fun l hl hr => ⟨fun hw => ?_, fun hu hw => ?_⟩⟩,
    fun g s => execCheckedPairMismatch_idle, fun g s => execCheckedPairMismatch_off, fun s => ?_⟩
  · exact congrArg Host.Outcome.next (State.applyCancel_launch h hu)
  · exact congrArg Host.Outcome.next (State.applyCancel_unit h hu)
  · exact congrArg Host.Outcome.next (State.applyCancel_object h hu ho)
  · exact congrArg Host.Outcome.next (State.applyCancel_nothing h hn)
  · exact execGangStop_stopped ht h
  · have hc := State.canonical_iff.1 hcan
    have hnow := (s.gangStop_cpu t).2
    obtain ⟨hregs, hab, hps, hwb, htiles⟩ := s.gangStop_buffers t
    have hcores := fun c => State.core_gangStop hc t (c := c)
    have hctx := State.ctx_gangStop hc t
    have hcalm := s.calm_gangStop t
    have hops := s.ops_gangStop t
    have hrun := execGangStop_running (cause := cause) (die := die) ht h
    generalize s.gangStop t = u at hregs hab hps hwb htiles hnow hcores hctx hcalm hops hrun
    refine ⟨u.post (.partitionFault tn cause), hrun, fun c hm => ?_, hcalm.post rfl, hops, fun g => (hctx g).1, fun g => (hctx g).2,
      hregs, hab, hps, hwb, htiles, ?_⟩
    · rw [State.core_post, hcores c hm]
      exact ⟨rfl, rfl, rfl, rfl, rfl⟩
    · rw [← hnow]
      exact List.mem_append_right _ List.mem_cons_self
  · obtain ⟨u, hu, hcores, hlossy, hrest⟩ := State.partitionFault_leaves (cause := cause) (State.canonical_iff.1 hcan) ht
    refine ⟨u, hu, hcores, fun x hx => ?_, hrest⟩
    simpa [ofCores, or_iff_not_imp_left] using hlossy x hx
  · rw [execCheckedPairMismatch_work hp h0 hx hm]
    exact congrArg Host.Outcome.next (State.mismatch_unlaunched (s := s.unmatched g) hl)
  · rw [execCheckedPairMismatch_work hp h0 hx hm]
    exact congrArg Host.Outcome.next (State.mismatch_second (s := s.unmatched g) hl hr)
  · rw [execCheckedPairMismatch_work hp h0 hx hm]
    exact congrArg Host.Outcome.next (State.mismatch_unit (s := s.unmatched g) hl hr hw)
  · rw [execCheckedPairMismatch_work hp h0 hx hm]
    exact congrArg Host.Outcome.next (State.mismatch_other (s := s.unmatched g) hl hr hu hw)
  · refine ⟨_, execCheckedPairTimeout_eq s, ?_⟩
    rw [State.postLate]
    refine ⟨rfl, rfl, ?_⟩
    simp only [lateMessages, List.map_map]
    rfl

end Sys2Proof.Machine
end

section
/-!
SUPPORT. The words of sluice objects (spec/04 Table 4.1), in the terms of the statements: each is its fields side by side, and a field is the
bits of the word that it names.
-/

namespace Sys2Proof.Machine

open Sys2Proof

/-! ### Halves and quarters of a word -/

theorem slice_half1 (v : W64) : slice v 63 32 = (v.extractLsb' 32 32).toNat := slice_eq v 63 32
theorem slice_half0 (v : W64) : slice v 31 0 = (v.extractLsb' 0 32).toNat := slice_eq v 31 0
theorem slice_quarter3 (v : W64) : slice v 63 48 = (v.extractLsb' 48 16).toNat := slice_eq v 63 48
theorem slice_quarter2 (v : W64) : slice v 47 32 = (v.extractLsb' 32 16).toNat := slice_eq v 47 32
theorem slice_quarter1 (v : W64) : slice v 31 16 = (v.extractLsb' 16 16).toNat := slice_eq v 31 16
theorem slice_quarter0 (v : W64) : slice v 15 0 = (v.extractLsb' 0 16).toNat := slice_eq v 15 0

/-! ### Fields side by side -/

theorem toNat_append_add {m n : Nat} (x : BitVec m) (y : BitVec n) : (x ++ y).toNat = x.toNat * 2 ^ n + y.toNat := by
  rw [BitVec.toNat_append, Nat.shiftLeft_eq, Nat.mul_comm, Nat.two_pow_add_eq_or_of_lt y.isLt]
theorem wordOfNat_toNat {n : Nat} (x : BitVec n) : wordOfNat x.toNat = x.zeroExtend 64 := BitVec.ofNat_toNat 64 x

/-- A barrier with these fields. -/
def barFields (phase expected arrived flags : Nat) : W64 :=
  (BitVec.ofNat 16 phase ++ BitVec.ofNat 16 expected ++ BitVec.ofNat 16 arrived ++ BitVec.ofNat 16 flags : BitVec 64)
theorem barFields_toNat (phase expected arrived flags : Nat) : (barFields phase expected arrived flags).toNat =
    phase % 2 ^ 16 * 2 ^ 48 + expected % 2 ^ 16 * 2 ^ 32 + arrived % 2 ^ 16 * 2 ^ 16 + flags % 2 ^ 16 := by
  simp only [barFields, BitVec.toNat_ofNat, toNat_append_add]
  omega
theorem barWord_eq (phase expected arrived flags : Nat) : barWord phase expected arrived flags = barFields phase expected arrived flags := by
  refine BitVec.eq_of_toNat_eq ?_
  rw [barFields_toNat]
  simp only [barWord, wordOfNat, BitVec.toNat_ofNat]
  omega
theorem pairWord_eq (hi lo : Nat) : pairWord hi lo = (BitVec.ofNat 32 hi ++ BitVec.ofNat 32 lo : BitVec 64) := by
  refine BitVec.eq_of_toNat_eq ?_
  simp only [pairWord, wordOfNat, BitVec.toNat_ofNat, toNat_append_add]
  omega
theorem ofNat_succ_toNat {n : Nat} (x : BitVec n) : BitVec.ofNat n (x.toNat + 1) = x + 1 := by
  rw [BitVec.ofNat_add, BitVec.ofNat_toNat, BitVec.setWidth_eq]
  rfl
/-- A count that goes down and stays at 0. -/
theorem ofNat_sub_min_one (x : W32) : BitVec.ofNat 32 (x.toNat - min x.toNat 1) = if x = 0 then 0 else x - 1 := by
  split
  · next h => rw [h]; rfl
  · next h =>
    have hx : x.toNat ≠ 0 := fun e => h (BitVec.eq_of_toNat_eq e)
    refine BitVec.eq_of_toNat_eq ?_
    have := x.isLt
    rw [BitVec.toNat_sub, BitVec.toNat_ofNat, show (1 : W32).toNat = 1 from rfl]
    omega
theorem wordOfNat_succ_mod (x : W32) : wordOfNat ((x.toNat + 1) % 2 ^ 32) = (x + 1).zeroExtend 64 := by
  rw [← wordOfNat_toNat, BitVec.toNat_add]
  rfl
theorem queueWord_eq (cap tail head : Nat) : queueWord cap tail head =
    (BitVec.ofNat 5 cap ++ 0#3 ++ BitVec.ofNat 28 tail ++ BitVec.ofNat 28 head : BitVec 64) := by
  refine BitVec.eq_of_toNat_eq ?_
  simp only [queueWord, wordOfNat, BitVec.toNat_ofNat, toNat_append_add]
  omega

/-- A word with its low three bits clear, as a target or a multiple of 8. -/
theorem wordOfNat_slice3 (v : W64) : wordOfNat (slice v 63 3 * 8) = v &&& ~~~7#64 := by
  refine BitVec.eq_of_getLsbD_eq fun i hi => ?_
  have h7 : (7#64).getLsbD i = decide (i < 3) := by
    rw [show (7#64 : W64) = BitVec.ofNat 64 (2 ^ 3 - 1) from rfl, BitVec.getLsbD_ofNat, Nat.testBit_two_pow_sub_one]
    simp [hi]
  have hs : slice v 63 3 * 8 = v.toNat / 2 ^ 3 * 2 ^ 3 := by
    have := v.isLt
    simp only [slice]
    omega
  rw [hs, wordOfNat, BitVec.getLsbD_ofNat, BitVec.getLsbD_and, BitVec.getLsbD_not, h7, Nat.testBit_mul_two_pow, Nat.testBit_div_two_pow]
  by_cases h : i < 3
  · simp [h, show ¬3 ≤ i by omega]
  · simp [h, hi, show 3 ≤ i by omega, show i - 3 + 3 = i by omega, BitVec.getLsbD]
/-- Bits 51:0 of a word. -/
theorem wordOfNat_vaOf (a : W64) : wordOfNat (vaOf a) = a &&& 0xFFFFFFFFFFFFF#64 := by
  refine BitVec.eq_of_toNat_eq ?_
  have h := a.isLt
  rw [BitVec.toNat_and, show (0xFFFFFFFFFFFFF#64).toNat = 2 ^ 52 - 1 from rfl, Nat.and_two_pow_sub_one_eq_mod]
  simp only [vaOf, wordOfNat, slice, BitVec.toNat_ofNat]
  omega

/-! ### Queues and barriers -/

theorem queueCap_eq (v : W64) : queueCap v = (v.extractLsb' 59 5).toNat := slice_eq v 63 59
theorem queueTail_eq (v : W64) : queueTail v = (v.extractLsb' 28 28).toNat := slice_eq v 55 28
theorem queueHead_eq (v : W64) : queueHead v = (v.extractLsb' 0 28).toNat := slice_eq v 27 0
theorem queueLen_eq (v : W64) : queueLen v = ((v.extractLsb' 28 28).toNat + 2 ^ 28 - (v.extractLsb' 0 28).toNat) % 2 ^ 28 := by
  rw [queueLen, queueTail_eq, queueHead_eq]
theorem queueLen_eq_sub (v : W64) : queueLen v = (v.extractLsb' 28 28 - v.extractLsb' 0 28 : BitVec 28).toNat := by
  rw [queueLen_eq, BitVec.toNat_sub]
  congr 1
  have := (v.extractLsb' 0 28).isLt
  omega
/-- TAIL or HEAD after one more push or pop. -/
theorem advanced_eq (push : Bool) (v : W64) : advanced push v =
    if push then (v.extractLsb' 59 5 ++ 0#3 ++ (v.extractLsb' 28 28 + 1) ++ v.extractLsb' 0 28 : BitVec 64)
    else (v.extractLsb' 59 5 ++ 0#3 ++ v.extractLsb' 28 28 ++ (v.extractLsb' 0 28 + 1) : BitVec 64) := by
  simp only [advanced, queueWord_eq, queueCap_eq, queueTail_eq, queueHead_eq, BitVec.ofNat_add, BitVec.ofNat_toNat, BitVec.setWidth_eq]
  rfl

/-- A barrier after `arr` arrivals and `wd` withdrawals, its phase complete once no participant is missing (spec/04 R111). -/
def barAfter (v : W64) (wd arr flags : Nat) : W64 :=
  let a := ((v.extractLsb' 16 16).toNat + arr) % 65536
  if (v.extractLsb' 32 16).toNat - wd ≤ a then barFields ((v.extractLsb' 48 16).toNat + 1) ((v.extractLsb' 32 16).toNat - wd) 0 0
  else barFields (v.extractLsb' 48 16).toNat ((v.extractLsb' 32 16).toNat - wd) a ((v.extractLsb' 0 16).toNat ||| flags)
theorem barrierStep_eq {v : W64} {wd : Nat} (arr flags : Nat) (h : wd ≤ (v.extractLsb' 32 16).toNat) : barrierStep v arr wd flags =
    (barAfter v wd arr flags, if (v.extractLsb' 32 16).toNat - wd ≤ ((v.extractLsb' 16 16).toNat + arr) % 65536 then
      some ((v.extractLsb' 0 16).toNat ||| flags) else none) := by
  have hlt := (v.extractLsb' 32 16).isLt
  have he : ((v.extractLsb' 32 16).toNat + 65536 - wd) % 65536 = (v.extractLsb' 32 16).toNat - wd := by omega
  simp only [barrierStep, barAfter, slice_quarter3, slice_quarter2, slice_quarter1, slice_quarter0, Nat.reducePow, he, barWord_eq]
  split <;> rfl
theorem barrierStep_last {v : W64} (flags : Nat) (h : (v.extractLsb' 32 16).toNat ≤ ((v.extractLsb' 16 16).toNat + 1) % 65536) :
    barrierStep v 1 0 flags = (barAfter v 0 1 flags, some ((v.extractLsb' 0 16).toNat ||| flags)) := by
  rw [barrierStep_eq 1 flags (Nat.zero_le _), if_pos (by rwa [Nat.sub_zero])]
theorem barrierStep_early {v : W64} (flags : Nat) (h : ((v.extractLsb' 16 16).toNat + 1) % 65536 < (v.extractLsb' 32 16).toNat) :
    barrierStep v 1 0 flags = (barAfter v 0 1 flags, none) := by
  rw [barrierStep_eq 1 flags (Nat.zero_le _), if_neg (by rw [Nat.sub_zero]; exact Nat.not_le.2 h)]
/-- A barrier that an arrival leaves short of its last participant. -/
theorem barAfter_early {v : W64} (flags : Nat) (h : ((v.extractLsb' 16 16).toNat + 1) % 65536 < (v.extractLsb' 32 16).toNat) : barAfter v 0 1 flags =
    (v.extractLsb' 32 32 ++ BitVec.ofNat 16 ((v.extractLsb' 16 16).toNat + 1) ++ BitVec.ofNat 16 ((v.extractLsb' 0 16).toNat ||| flags) : BitVec 64) := by
  unfold barAfter
  dsimp only
  rw [if_neg (by rw [Nat.sub_zero]; exact Nat.not_le.2 h)]
  refine BitVec.eq_of_toNat_eq ?_
  generalize (v.extractLsb' 0 16).toNat ||| flags = acc
  rw [barFields_toNat]
  simp only [toNat_append_add, BitVec.toNat_ofNat, BitVec.extractLsb'_toNat, Nat.shiftRight_eq_div_pow]
  omega
/-- One participant more (spec/04 R112). -/
theorem barFields_join {v : W64} (h : (v.extractLsb' 32 16).toNat ≠ 65535) : v + wordOfNat (2 ^ 32) =
    barFields (v.extractLsb' 48 16).toNat ((v.extractLsb' 32 16).toNat + 1) (v.extractLsb' 16 16).toNat (v.extractLsb' 0 16).toNat := by
  refine BitVec.eq_of_toNat_eq ?_
  rw [barFields_toNat, BitVec.toNat_add, wordOfNat, BitVec.toNat_ofNat]
  simp only [BitVec.extractLsb'_toNat, Nat.shiftRight_eq_div_pow] at h ⊢
  have := v.isLt
  omega
theorem requestFlags_eq (n : W64) : requestFlags n = (n.extractLsb' 0 16).toNat := slice_quarter0 n
/-- The word of a phase alone, and with flags. -/
theorem phaseWord_eq (v : W64) : wordOfNat (slice v 63 48 * 2 ^ 48) = barFields (v.extractLsb' 48 16).toNat 0 0 0 := by
  have h := (v.extractLsb' 48 16).isLt
  rw [slice_quarter3]
  refine BitVec.eq_of_toNat_eq ?_
  rw [barFields_toNat, wordOfNat, BitVec.toNat_ofNat]
  omega
theorem phaseWord_add (v : W64) {flags : Nat} (h : flags < 2 ^ 16) : wordOfNat (slice v 63 48 * 2 ^ 48) + wordOfNat flags =
    barFields (v.extractLsb' 48 16).toNat 0 0 0 ||| BitVec.ofNat 64 flags := by
  have hp := (v.extractLsb' 48 16).isLt
  have hor := Nat.two_pow_add_eq_or_of_lt (lt_of_lt_of_le h (by norm_num : 2 ^ 16 ≤ 2 ^ 48)) (v.extractLsb' 48 16).toNat
  have hb : (barFields (v.extractLsb' 48 16).toNat 0 0 0).toNat = 2 ^ 48 * (v.extractLsb' 48 16).toNat := by
    rw [barFields_toNat]
    omega
  rw [phaseWord_eq]
  refine BitVec.eq_of_toNat_eq ?_
  rw [BitVec.toNat_add, BitVec.toNat_or, wordOfNat, BitVec.toNat_ofNat, Nat.mod_eq_of_lt (lt_of_lt_of_le h (by norm_num)), hb, ← hor]
  omega

end Sys2Proof.Machine
end

section
/-!
SUPPORT. What a sluice makes of a request on a word of its type (spec/04 R110-R115, Table 4.2): the decision on each operation in the fields of the
word, and the step that carries it out.
-/

namespace Sys2Proof.Machine

open Sys2Proof

/-! ### The decision on each operation (Table 4.2) -/

section
variable {s : State} {dp : Nat} {r : Request}

theorem State.judge_ldFe (h : r.kind = .ldFe) :
    s.judge dp r = if s.memFull dp = true then .perform (s.memWord dp) false (s.memWord dp) true else .park (s.memWord dp) := by
  simp only [State.judge, h]
theorem State.judge_stEf (h : r.kind = .stEf) :
    s.judge dp r = if s.memFull dp = true then .park (s.memWord dp) else .perform r.data true 0 true := by
  simp only [State.judge, h]
theorem State.judge_ctrAdd (h : r.kind = .ctrAdd) : s.judge dp r = .perform (s.memWord dp + r.data) true (s.memWord dp) true := by
  simp only [State.judge, h]
theorem State.judge_ctrTake (h : r.kind = .ctrTake) : s.judge dp r =
    if r.data.toNat ≤ (s.memWord dp).toNat then .perform (s.memWord dp - r.data) true (s.memWord dp) true else .park (s.memWord dp) := by
  simp only [State.judge, h]
theorem State.judge_ctrWait (h : r.kind = .ctrWait) : s.judge dp r =
    if r.data.toNat ≤ (s.memWord dp).toNat then .perform (s.memWord dp) true (s.memWord dp) true else .park (s.memWord dp) := by
  simp only [State.judge, h]
theorem State.judge_barArrive (h : r.kind = .barArrive) : s.judge dp r =
    .perform (barAfter (s.memWord dp) 0 1 (r.data.extractLsb' 0 16).toNat) true (barFields ((s.memWord dp).extractLsb' 48 16).toNat 0 0 0) true := by
  simp only [State.judge, h, barrierStep_eq 1 _ (Nat.zero_le _), phaseWord_eq, requestFlags_eq]
theorem State.judge_barSync_last (h : r.kind = .barSync)
    (hl : ((s.memWord dp).extractLsb' 32 16).toNat ≤ (((s.memWord dp).extractLsb' 16 16).toNat + 1) % 65536) : s.judge dp r =
    .perform (barAfter (s.memWord dp) 0 1 (r.data.extractLsb' 0 16).toNat) true (barFields ((s.memWord dp).extractLsb' 48 16).toNat 0 0 0 |||
      BitVec.ofNat 64 (((s.memWord dp).extractLsb' 0 16).toNat ||| (r.data.extractLsb' 0 16).toNat)) true := by
  rw [← phaseWord_add _ (Nat.or_lt_two_pow ((s.memWord dp).extractLsb' 0 16).isLt (r.data.extractLsb' 0 16).isLt)]
  unfold State.judge
  dsimp only
  rw [barrierStep_last _ hl, h, requestFlags_eq]
theorem State.judge_barSync_early (h : r.kind = .barSync)
    (hl : (((s.memWord dp).extractLsb' 16 16).toNat + 1) % 65536 < ((s.memWord dp).extractLsb' 32 16).toNat) : s.judge dp r =
    .park ((s.memWord dp).extractLsb' 32 32 ++ BitVec.ofNat 16 (((s.memWord dp).extractLsb' 16 16).toNat + 1) ++
      BitVec.ofNat 16 (((s.memWord dp).extractLsb' 0 16).toNat ||| (r.data.extractLsb' 0 16).toNat) : BitVec 64) := by
  unfold State.judge
  dsimp only
  rw [barrierStep_early _ hl, h, requestFlags_eq, barAfter_early _ hl]
theorem State.judge_barWait (h : r.kind = .barWait) : s.judge dp r =
    if ((s.memWord dp).extractLsb' 48 16).toNat ≠ (r.data.extractLsb' 0 16).toNat then .perform (s.memWord dp) true (s.memWord dp) true
    else .park (s.memWord dp) := by
  simp only [State.judge, h, slice_quarter3, slice_quarter0]
theorem State.judge_barJoin (h : r.kind = .barJoin) : s.judge dp r =
    if ((s.memWord dp).extractLsb' 32 16).toNat = 65535 then .misuse
    else .perform (barFields ((s.memWord dp).extractLsb' 48 16).toNat (((s.memWord dp).extractLsb' 32 16).toNat + 1) ((s.memWord dp).extractLsb' 16 16).toNat
      ((s.memWord dp).extractLsb' 0 16).toNat) true (s.memWord dp) true := by
  simp only [State.judge, h, slice_quarter2]
  by_cases hf : ((s.memWord dp).extractLsb' 32 16).toNat = 65535
  · rw [if_pos hf, if_pos hf]
  · rw [if_neg hf, if_neg hf, barFields_join hf]
theorem State.judge_barWdraw (h : r.kind = .barWdraw) : s.judge dp r =
    if ((s.memWord dp).extractLsb' 32 16).toNat = 0 then .misuse
    else .perform (barAfter (s.memWord dp) 1 0 (r.data.extractLsb' 0 16).toNat) true (s.memWord dp) true := by
  simp only [State.judge, h, slice_quarter2]
  by_cases hz : ((s.memWord dp).extractLsb' 32 16).toNat = 0
  · rw [if_pos hz, if_pos hz]
  · rw [if_neg hz, if_neg hz, barrierStep_eq 0 _ (Nat.one_le_iff_ne_zero.2 hz), requestFlags_eq]

theorem State.judge_lkAcq (h : r.kind = .lkAcq) : s.judge dp r =
    if (s.memWord dp).extractLsb' 32 32 = (s.memWord dp).extractLsb' 0 32 then
      .perform ((s.memWord dp).extractLsb' 32 32 + 1 ++ (s.memWord dp).extractLsb' 0 32 : BitVec 64) true (((s.memWord dp).extractLsb' 32 32).zeroExtend 64) true
    else .park ((s.memWord dp).extractLsb' 32 32 + 1 ++ (s.memWord dp).extractLsb' 0 32 : BitVec 64) := by
  simp only [State.judge, h, slice_half1, slice_half0, pairWord_eq, ofNat_succ_toNat, BitVec.ofNat_toNat, BitVec.setWidth_eq, wordOfNat_toNat, BitVec.toNat_inj]
theorem State.judge_lkTry (h : r.kind = .lkTry) : s.judge dp r =
    if (s.memWord dp).extractLsb' 32 32 = (s.memWord dp).extractLsb' 0 32 then
      .perform ((s.memWord dp).extractLsb' 32 32 + 1 ++ (s.memWord dp).extractLsb' 0 32 : BitVec 64) true (((s.memWord dp).extractLsb' 32 32).zeroExtend 64) true
    else .perform (s.memWord dp) true (s.memWord dp) false := by
  simp only [State.judge, h, slice_half1, slice_half0, pairWord_eq, ofNat_succ_toNat, BitVec.ofNat_toNat, BitVec.setWidth_eq, wordOfNat_toNat, BitVec.toNat_inj]

theorem State.judge_qpush (h : r.kind = .qpush) :
    s.judge dp r = if queueLen (s.memWord dp) < 2 ^ queueCap (s.memWord dp) then .ring true else .park (s.memWord dp) := by
  simp only [State.judge, h]
theorem State.judge_qpop (h : r.kind = .qpop) : s.judge dp r = if 0 < queueLen (s.memWord dp) then .ring false else .park (s.memWord dp) := by
  simp only [State.judge, h]
theorem State.judge_qpushT (h : r.kind = .qpushT) : s.judge dp r =
    if queueLen (s.memWord dp) < 2 ^ queueCap (s.memWord dp) then .ring true else .perform (s.memWord dp) true (s.memWord dp) false := by
  simp only [State.judge, h]
theorem State.judge_qpopT (h : r.kind = .qpopT) :
    s.judge dp r = if 0 < queueLen (s.memWord dp) then .ring false else .perform (s.memWord dp) true (s.memWord dp) false := by
  simp only [State.judge, h]

theorem State.judge_cndWait (h : r.kind = .cndWait) : s.judge dp r =
    if (s.memWord dp).extractLsb' 32 32 ≠ r.data.extractLsb' 0 32 then
      .perform (s.memWord dp) true (((s.memWord dp).extractLsb' 32 32).zeroExtend 64) true
    else .park ((s.memWord dp).extractLsb' 32 32 ++ ((s.memWord dp).extractLsb' 0 32 + 1) : BitVec 64) := by
  simp only [State.judge, h, slice_half1, slice_half0, pairWord_eq, ofNat_succ_toNat, BitVec.ofNat_toNat, BitVec.setWidth_eq, wordOfNat_toNat, ne_eq, BitVec.toNat_inj]
theorem State.judge_cndSignal (h : r.kind = .cndSignal) : s.judge dp r =
    .perform ((s.memWord dp).extractLsb' 32 32 + 1 ++
        (if (s.memWord dp).extractLsb' 0 32 = 0 then 0 else (s.memWord dp).extractLsb' 0 32 - 1) : BitVec 64) true
      (((s.memWord dp).extractLsb' 32 32 + 1).zeroExtend 64) true := by
  simp only [State.judge, h, slice_half1, slice_half0, pairWord_eq, ofNat_succ_toNat, ofNat_sub_min_one, wordOfNat_succ_mod]
theorem State.judge_cndBcast (h : r.kind = .cndBcast) : s.judge dp r =
    .perform ((s.memWord dp).extractLsb' 32 32 + 1 ++ 0#32 : BitVec 64) true (((s.memWord dp).extractLsb' 32 32 + 1).zeroExtend 64) true := by
  simp only [State.judge, h, slice_half1, pairWord_eq, ofNat_succ_toNat, wordOfNat_succ_mod]

/-- SERVING goes past the tickets of `abandoned` to the first that is not one of them (R114). -/
theorem skipTickets_eq {ab : List W32} {n : Nat} {t : W32} {k : Nat} (hin : ∀ j < k, t + BitVec.ofNat 32 j ∈ ab) (hout : t + BitVec.ofNat 32 k ∉ ab)
    (hk : k ≤ n) : skipTickets ab n t = t + BitVec.ofNat 32 k := by
  induction n generalizing t k with
  | zero => simp [skipTickets, Nat.le_zero.1 hk]
  | succ n ih =>
    cases k with
    | zero =>
      rw [BitVec.add_zero] at hout ⊢
      simp [skipTickets, hout]
    | succ k =>
      have hstep (j : Nat) : t + 1 + BitVec.ofNat 32 j = t + BitVec.ofNat 32 (j + 1) := by rw [BitVec.ofNat_add, add_assoc, add_comm (1 : W32)]; rfl
      have h0 : t ∈ ab := by simpa using hin 0 (Nat.succ_pos k)
      rw [skipTickets, if_pos (by simpa using h0), ih (fun j hj => hstep j ▸ hin (j + 1) (Nat.succ_lt_succ hj)) (hstep k ▸ hout) (Nat.le_of_succ_le_succ hk),
        hstep]
/-- Tickets in a row are different, so a list that holds them all is as long. -/
theorem length_of_tickets {ab : List W32} {t : W32} {k : Nat} (hk : k ≤ 2 ^ 32) (hin : ∀ j < k, t + BitVec.ofNat 32 j ∈ ab) : k ≤ ab.length := by
  have hn : ((List.range k).map fun j => t + BitVec.ofNat 32 j).Nodup := by
    refine List.nodup_range.map_on fun i hi j hj e => ?_
    have h := congrArg BitVec.toNat (add_left_cancel e)
    rw [BitVec.toNat_ofNat, BitVec.toNat_ofNat] at h
    have := List.mem_range.1 hi
    have := List.mem_range.1 hj
    omega
  have hs : ((List.range k).map fun j => t + BitVec.ofNat 32 j) ⊆ ab := fun x hx => by
    obtain ⟨j, hj, rfl⟩ := List.mem_map.1 hx
    exact hin j (List.mem_range.1 hj)
  simpa using (List.subperm_of_subset hn hs).length_le

theorem State.judge_lkRel_free (h : r.kind = .lkRel) (he : (s.memWord dp).extractLsb' 32 32 = (s.memWord dp).extractLsb' 0 32) : s.judge dp r = .misuse := by
  simp only [State.judge, h, slice_half1, slice_half0, he, if_true]
/-- The tickets at a lock whose requests a cancel has taken back. -/
def State.abandonedAt (s : State) (dp : Nat) : List W32 := (s.sluice.parked.filter fun p => decide (p.dp = dp) && p.abandoned).map (·.ticket)
theorem State.judge_lkRel (h : r.kind = .lkRel) (hne : (s.memWord dp).extractLsb' 32 32 ≠ (s.memWord dp).extractLsb' 0 32) {k : Nat}
    (hin : ∀ j, 0 < j → j < k → (s.memWord dp).extractLsb' 0 32 + BitVec.ofNat 32 j ∈ s.abandonedAt dp) (h0 : 0 < k) (hk : k < 2 ^ 32)
    (hout : (s.memWord dp).extractLsb' 0 32 + BitVec.ofNat 32 k ∉ s.abandonedAt dp) : s.judge dp r =
    .perform ((s.memWord dp).extractLsb' 32 32 ++ ((s.memWord dp).extractLsb' 0 32 + BitVec.ofNat 32 k) : BitVec 64) true
      (((s.memWord dp).extractLsb' 0 32 + BitVec.ofNat 32 k).zeroExtend 64) true := by
  obtain ⟨m, rfl⟩ : ∃ m, k = m + 1 := ⟨k - 1, by omega⟩
  have hnext (j : Nat) : (s.memWord dp).extractLsb' 0 32 + BitVec.ofNat 32 (j + 1) = (s.memWord dp).extractLsb' 0 32 + 1 + BitVec.ofNat 32 j := by
    rw [Nat.add_comm, BitVec.ofNat_add, ← add_assoc]
    rfl
  have hpast : ∀ j < m, (s.memWord dp).extractLsb' 0 32 + 1 + BitVec.ofNat 32 j ∈ s.abandonedAt dp := fun j hj =>
    hnext j ▸ hin (j + 1) (Nat.succ_pos j) (Nat.succ_lt_succ hj)
  have hskip := skipTickets_eq hpast (hnext m ▸ hout) (length_of_tickets (by omega) hpast)
  rw [← hnext, State.abandonedAt] at hskip
  simp only [State.judge, h, slice_half1, slice_half0, BitVec.toNat_inj, if_neg hne, ofNat_succ_toNat, hskip, pairWord_eq, BitVec.ofNat_toNat, BitVec.setWidth_eq,
    wordOfNat_toNat]
end

end Sys2Proof.Machine
end

section
/-!
SUPPORT. A request served at its home slice (spec/04 R110, R116-R118; spec/22 R418): on a word of its type it is performed, parks, or goes on to a
ring word; on a word of another type it is refused, or sent on by a forwarding word.
-/

namespace Sys2Proof.Machine

open Sys2Proof

/-! ### What the sluice decides is done -/

section
variable {s : State} {dp : Nat} {r : Request}

theorem State.carryOut_perform {v : W64} {full : Bool} {reply : W64} {ok : Bool} (h : s.judge dp r = .perform v full reply ok) :
    s.carryOut dp r = s.performAt dp r v full reply ok := by
  unfold State.carryOut
  rw [h]
theorem State.carryOut_park {v : W64} (h : s.judge dp r = .park v) :
    s.carryOut dp r = if v = s.memWord dp then s.parkAt dp r v else (s.parkAt dp r v).changed dp none 0 := by
  unfold State.carryOut
  rw [h]
  by_cases hv : v = s.memWord dp <;> simp [hv]
theorem State.carryOut_ring {push : Bool} (h : s.judge dp r = .ring push) : s.carryOut dp r = s.ringAccess dp r push false := by
  unfold State.carryOut
  rw [h]
theorem State.carryOut_misuse (h : s.judge dp r = .misuse) : s.carryOut dp r = s.refuse r 0x0B r.va := by
  unfold State.carryOut
  rw [h]
end

/-! ### By the type of the word -/

/-- Five types have operations of their own. -/
theorem typeOf_le (k : ReqKind) : typeOf k ≤ 5 := by
  unfold typeOf
  split <;> decide

section
variable {s : State} {r : Request}

theorem State.sluiceStep_eq (hd : dpValid r.dp = true) : s.sluiceStep r = .next (s.serve (wordAt r.dp) r) := if_pos hd

theorem State.serve_typed {w : Nat} (ht : (s.open w).memType w = typeOf r.kind) (hk : ∀ p c, r.kind ≠ .memberGone p c) :
    s.serve w r = (s.open w).carryOut w r := by
  have h5 := typeOf_le r.kind
  unfold State.serve
  dsimp only
  rw [ht, if_neg (by simp; omega), if_neg (by simp; omega), if_neg (not_not_intro rfl)]
  split
  · next e => exact absurd e (hk _ _)
  · rfl
theorem State.serve_gone {w phys core : Nat} (ht : (s.open w).memType w = 2) (hk : r.kind = .memberGone phys core) :
    s.serve w r = (s.open w).memberGone w r phys core := by
  unfold State.serve
  dsimp only
  rw [ht, hk]
  rfl
theorem State.serve_other {w : Nat} (ht : (s.open w).memType w ≠ typeOf r.kind) (h6 : typeOf r.kind ≠ 0 → (s.open w).memType w ≠ 6)
    (h7 : typeOf r.kind = 0 → (s.open w).memType w ≠ 7) : s.serve w r = (s.open w).refuse r 0x0B r.va := by
  unfold State.serve
  dsimp only
  rw [if_neg (by simpa using fun a b => h6 b a), if_neg (by simpa using fun a b => h7 b a), if_pos ht]
theorem State.serve_forwarding {w : Nat} (ht : (s.open w).memType w = 6) (hk : typeOf r.kind ≠ 0) : s.serve w r = (s.open w).post (.sluiceForward r) := by
  unfold State.serve
  dsimp only
  rw [ht, if_pos (by simpa using hk)]
theorem State.serve_poisoned {w : Nat} (ht : (s.open w).memType w = 7) (hk : typeOf r.kind = 0) : s.serve w r = (s.open w).refuse r 0x0A r.va := by
  unfold State.serve
  dsimp only
  rw [ht, hk]
  rfl
end

/-! ### The step of an operation -/

section
variable {s : State} {q : Request}

theorem State.sluice_performs {v : W64} {full : Bool} {reply : W64} {ok : Bool} (hd : dpValid q.dp = true)
    (ht : (s.open (wordAt q.dp)).memType (wordAt q.dp) = typeOf q.kind)
    (hj : (s.open (wordAt q.dp)).judge (wordAt q.dp) q = .perform v full reply ok) (hk : ∀ p c, q.kind ≠ .memberGone p c := by nofun) :
    s.sluiceStep q = .next ((s.open (wordAt q.dp)).performAt (wordAt q.dp) q v full reply ok) := by
  rw [State.sluiceStep_eq hd, State.serve_typed ht hk, State.carryOut_perform hj]
theorem State.sluice_rings {push : Bool} (hd : dpValid q.dp = true) (ht : (s.open (wordAt q.dp)).memType (wordAt q.dp) = typeOf q.kind)
    (hj : (s.open (wordAt q.dp)).judge (wordAt q.dp) q = .ring push) (hk : ∀ p c, q.kind ≠ .memberGone p c := by nofun) :
    s.sluiceStep q = .next ((s.open (wordAt q.dp)).ringAccess (wordAt q.dp) q push false) := by
  rw [State.sluiceStep_eq hd, State.serve_typed ht hk, State.carryOut_ring hj]
theorem State.sluice_parks {v : W64} (hd : dpValid q.dp = true) (ht : (s.open (wordAt q.dp)).memType (wordAt q.dp) = typeOf q.kind)
    (hj : (s.open (wordAt q.dp)).judge (wordAt q.dp) q = .park v) (hk : ∀ p c, q.kind ≠ .memberGone p c := by nofun) :
    s.sluiceStep q = .next (let t := (s.open (wordAt q.dp)).parkAt (wordAt q.dp) q v
      if v = (s.open (wordAt q.dp)).memWord (wordAt q.dp) then t else t.changed (wordAt q.dp) none 0) := by
  rw [State.sluiceStep_eq hd, State.serve_typed ht hk, State.carryOut_park hj]
theorem State.sluice_misused (hd : dpValid q.dp = true) (ht : (s.open (wordAt q.dp)).memType (wordAt q.dp) = typeOf q.kind)
    (hj : (s.open (wordAt q.dp)).judge (wordAt q.dp) q = .misuse) (hk : ∀ p c, q.kind ≠ .memberGone p c := by nofun) :
    s.sluiceStep q = .next ((s.open (wordAt q.dp)).refuse q 0x0B q.va) := by
  rw [State.sluiceStep_eq hd, State.serve_typed ht hk, State.carryOut_misuse hj]
end

/-- BAR.WDRAW is served as its own kind, unless it withdraws a dead member (spec/22 R429). -/
theorem execSluiceBarWdraw_plain {r : Request} {s : State} (h : ∀ p c, r.kind ≠ .memberGone p c) :
    execSluiceBarWdraw r s = s.sluiceStep { r with kind := .barWdraw } := by
  unfold execSluiceBarWdraw
  split
  · next e => exact absurd e (h _ _)
  · rfl

theorem execSluiceBarWdraw_own {r : Request} {s : State} (h : r.kind = .barWdraw ∨ ∃ p c, r.kind = .memberGone p c) :
    execSluiceBarWdraw r s = s.sluiceStep r := by
  unfold execSluiceBarWdraw
  obtain hk | ⟨p, c, hk⟩ := h <;> rw [hk] <;> dsimp only <;> rw [← hk]
theorem execSluiceBarWdraw_typed {r : Request} {s : State} (hd : dpValid r.dp = true) (ht : (s.open (wordAt r.dp)).memType (wordAt r.dp) = 2)
    (hk : r.kind = .barWdraw) : execSluiceBarWdraw r s = .next ((s.open (wordAt r.dp)).carryOut (wordAt r.dp) r) := by
  rw [execSluiceBarWdraw_own (.inl hk), State.sluiceStep_eq hd, State.serve_typed (by rw [ht, hk]; rfl) (by rw [hk]; nofun)]
theorem execSluiceBarWdraw_gone {r : Request} {s : State} {phys core : Nat} (hd : dpValid r.dp = true)
    (ht : (s.open (wordAt r.dp)).memType (wordAt r.dp) = 2) (hk : r.kind = .memberGone phys core) :
    execSluiceBarWdraw r s = .next ((s.open (wordAt r.dp)).memberGone (wordAt r.dp) r phys core) := by
  rw [execSluiceBarWdraw_own (.inr ⟨phys, core, hk⟩), State.sluiceStep_eq hd, State.serve_gone ht hk]

/-! ### A fork's counter (spec/02 R66-R68) -/

theorem State.serveJoin_live {s : State} {r : Request} {key : Nat} {j : JoinRec} (h : spGet none (s.die (key / 4096)).joins (key % 4096) = some j)
    (ht : j.tenant = r.tenant) : s.serveJoin r key =
      (s.updDie (key / 4096) fun d => { d with joins := spSet none d.joins (key % 4096) (some { j with value := j.value - 1 }) }).answer r j.value true := by
  unfold State.serveJoin
  dsimp only
  rw [h]
  exact if_neg (not_not_intro ht)
theorem State.serveJoin_dead {s : State} {r : Request} {key : Nat}
    (h : ∀ j, spGet none (s.die (key / 4096)).joins (key % 4096) = some j → j.tenant ≠ r.tenant) : s.serveJoin r key = s.refuse r 0x0B r.va := by
  unfold State.serveJoin
  dsimp only
  split
  · rfl
  · next j e => exact if_pos (h j e)
theorem execSluiceCtrAdd_join {s : State} {r : Request} {key : Nat} (h : r.join = some key) : execSluiceCtrAdd r s = .next (s.serveJoin r key) := by
  unfold execSluiceCtrAdd
  rw [h]
theorem execSluiceCtrAdd_word {s : State} {r : Request} (h : r.join = none) : execSluiceCtrAdd r s = s.sluiceStep { r with kind := .ctrAdd } := by
  unfold execSluiceCtrAdd
  rw [h]

/-- Settles O37. On a word of the operation's type the step is the decision of Table 4.2 carried out, and the decision is read operation by
operation; a decrement that names a join record acts on the record. -/
theorem sluicesPerform : Obligations.SluicesPerform := by
  unfold Obligations.SluicesPerform
  refine ⟨fun r s hd => ?_, fun r s key hj => ⟨fun j hl ht => ?_, fun h => ?_⟩⟩
  · intro w u v ty n fld bar two hi lo flags arrived phase abandoned does
    refine ⟨fun ht hf => ?_, fun ht hf => ?_, fun ht hn => ?_, fun ht hn => ⟨?_, ?_⟩, fun ht => ⟨?_, fun hl => ?_⟩, fun ht hp => ?_, fun ht hl => ?_, fun ht hp hk => ?_,
      fun ht he => ⟨?_, ?_⟩, fun ht hne => ⟨?_, fun k hin h0 hk hout => ?_⟩, fun ht => ?_, fun ht hne => ?_, fun ht => ⟨?_, ?_⟩⟩
    · exact State.sluice_performs (q := { r with kind := .ldFe }) hd ht ((State.judge_ldFe rfl).trans (if_pos hf))
    · exact State.sluice_performs (q := { r with kind := .stEf }) hd ht ((State.judge_stEf rfl).trans (if_neg (by rw [hf]; nofun)))
    · exact (execSluiceCtrAdd_word hn).trans (State.sluice_performs (q := { r with kind := .ctrAdd }) hd ht (State.judge_ctrAdd rfl))
    · exact State.sluice_performs (q := { r with kind := .ctrTake }) hd ht ((State.judge_ctrTake rfl).trans (if_pos hn))
    · exact State.sluice_performs (q := { r with kind := .ctrWait }) hd ht ((State.judge_ctrWait rfl).trans (if_pos hn))
    · exact State.sluice_performs (q := { r with kind := .barArrive }) hd ht (State.judge_barArrive rfl)
    · exact State.sluice_performs (q := { r with kind := .barSync }) hd ht (State.judge_barSync_last rfl hl)
    · exact State.sluice_performs (q := { r with kind := .barWait }) hd ht ((State.judge_barWait rfl).trans (if_pos hp))
    · exact State.sluice_performs (q := { r with kind := .barJoin }) hd ht ((State.judge_barJoin rfl).trans (if_neg (Nat.ne_of_lt hl)))
    · exact (execSluiceBarWdraw_plain hk).trans
        (State.sluice_performs (q := { r with kind := .barWdraw }) hd ht ((State.judge_barWdraw rfl).trans (if_neg (Nat.ne_of_gt hp))))
    · exact State.sluice_performs (q := { r with kind := .lkAcq }) hd ht ((State.judge_lkAcq rfl).trans (if_pos he))
    · exact State.sluice_performs (q := { r with kind := .lkTry }) hd ht ((State.judge_lkTry rfl).trans (if_pos he))
    · exact State.sluice_performs (q := { r with kind := .lkTry }) hd ht ((State.judge_lkTry rfl).trans (if_neg hne))
    · exact State.sluice_performs (q := { r with kind := .lkRel }) hd ht (State.judge_lkRel rfl hne hin h0 hk hout)
    · intro len ring
      have hlen : queueLen v = len := queueLen_eq v
      have hcap : queueCap v = fld 59 5 := queueCap_eq v
      refine ⟨fun hl => ⟨?_, ?_⟩, fun hl => ⟨?_, ?_⟩, fun hl => ?_, fun hl => ?_⟩
      · exact State.sluice_rings (q := { r with kind := .qpush }) hd ht ((State.judge_qpush rfl).trans (if_pos (by rwa [hlen, hcap])))
      · exact State.sluice_rings (q := { r with kind := .qpushT }) hd ht ((State.judge_qpushT rfl).trans (if_pos (by rwa [hlen, hcap])))
      · exact State.sluice_rings (q := { r with kind := .qpop }) hd ht ((State.judge_qpop rfl).trans (if_pos (by rwa [hlen])))
      · exact State.sluice_rings (q := { r with kind := .qpopT }) hd ht ((State.judge_qpopT rfl).trans (if_pos (by rwa [hlen])))
      · exact State.sluice_performs (q := { r with kind := .qpushT }) hd ht ((State.judge_qpushT rfl).trans (if_neg (by rw [hlen, hcap]; exact Nat.not_lt.2 hl)))
      · exact State.sluice_performs (q := { r with kind := .qpopT }) hd ht ((State.judge_qpopT rfl).trans (if_neg (by rw [hlen, hl]; exact Nat.lt_irrefl 0)))
    · exact State.sluice_performs (q := { r with kind := .cndWait }) hd ht ((State.judge_cndWait rfl).trans (if_pos hne))
    · exact State.sluice_performs (q := { r with kind := .cndSignal }) hd ht (State.judge_cndSignal rfl)
    · exact State.sluice_performs (q := { r with kind := .cndBcast }) hd ht (State.judge_cndBcast rfl)
  · exact (execSluiceCtrAdd_join hj).trans (congrArg Host.Outcome.next (State.serveJoin_live hl ht))
  · exact (execSluiceCtrAdd_join hj).trans (congrArg Host.Outcome.next (State.serveJoin_dead h))

end Sys2Proof.Machine
end

section
/-!
SUPPORT. What parks and what is refused (spec/04 R107, R113, R117, R123, R124; spec/22 R418, R422, R429): the place of a request that parks, the
withdrawal of a dead member, and operations on words of another type.
-/

namespace Sys2Proof.Machine

open Sys2Proof

/-! ### Where a request parks (R123, R124, R422) -/

section
variable {s : State} {sl tenant w : Nat} {r : Request} {x : W64}

theorem State.parkPlace_list (h : s.listRoom sl tenant = true) (notice : Bool) : s.parkPlace sl tenant notice = some false := if_pos h
theorem State.parkPlace_polder (h : s.listRoom sl tenant = false)
    (hp : (s.sluice.parked.countP fun p => decide (p.slice = sl) && p.polder) < Config.overflowOthers) : s.parkPlace sl tenant false = some true := by
  rw [State.parkPlace, if_neg (by rw [h]; nofun)]
  exact if_pos hp
theorem State.parkPlace_full (h : s.listRoom sl tenant = false)
    (hp : Config.overflowOthers ≤ s.sluice.parked.countP fun p => decide (p.slice = sl) && p.polder) : s.parkPlace sl tenant false = none := by
  rw [State.parkPlace, if_neg (by rw [h]; nofun)]
  exact if_neg (Nat.not_lt.2 hp)

/-- A request with a place is listed there; that of cancelled work leaves again, what it wrote staying. -/
theorem State.parkAt_placed {polder : Bool} (h : s.parkPlace (homeSlice w) r.tenant false = some polder) : s.parkAt w r x =
    let sl := homeSlice w
    let written := if x = s.memWord w then s else s.commit w x (s.memTag w)
    let t : State := { written with sluice := { written.sluice with
      parked := written.sluice.parked ++ [{ slice := sl, dp := w, seq := spGet 0 s.sluice.seqs sl, req := r, ticket := (s.memWord w).extractLsb' 32 32
                                            phase := (s.memWord w).extractLsb' 48 16, polder, notice := none }]
      seqs := spSet 0 written.sluice.seqs sl (spGet 0 s.sluice.seqs sl + 1) } }
    if s.takenBack r then (t.withdrawAll fun p => decide (p.dp = w) && decide (p.seq = spGet 0 s.sluice.seqs sl)).countWithdrawn r else t := by
  have hw : ∃ m, (if x = s.memWord w then s else s.commit w x (s.memTag w)) = { s with mem := m } := by
    split
    · exact ⟨s.mem, rfl⟩
    · exact s.commit_eq w x (s.memTag w)
  obtain ⟨m, hm⟩ := hw
  unfold State.parkAt
  dsimp only
  rw [h, hm, slice_half1, slice_quarter3, BitVec.ofNat_toNat, BitVec.ofNat_toNat, BitVec.setWidth_eq, BitVec.setWidth_eq]
  rfl
theorem State.parkAt_full (h : s.parkPlace (homeSlice w) r.tenant false = none) : s.parkAt w r x = s.noRoom r := by
  unfold State.parkAt
  dsimp only
  rw [h]

theorem State.noRoom_trigger {op d : Nat} (h : r.use = .trigger op d) : s.noRoom r = s.refuse r 0x0B r.va := by
  unfold State.noRoom
  rw [h]
theorem State.noRoom_other (h : ∀ op d, r.use ≠ .trigger op d) : s.noRoom r = (s.sliceRecord r 0x0B 0x50 r.va).refuse r 0x0B r.va := by
  unfold State.noRoom
  split
  · next e => exact absurd e (h _ _)
  · rfl
end

/-! ### A dead member of a plan (R429) -/

section
variable {s : State} {dp phys core : Nat} {r : Request}

theorem State.memberGone_none (h : s.sluice.parked.find? (s.syncOf dp phys core) = none) :
    s.memberGone dp r phys core = s.carryOut dp { r with kind := .barWdraw, data := 0 } := by
  unfold State.memberGone
  dsimp only
  rw [h]
theorem State.memberGone_parked {p : Parked} {polder : Bool} (h : s.sluice.parked.find? (s.syncOf dp phys core) = some p)
    (hp : (s.unpark p).parkPlace (homeSlice dp) r.tenant false = some polder) : s.memberGone dp r phys core =
      (s.unpark p).enlist dp { r with kind := .barWait, data := p.phase.zeroExtend 64, src := .withdrawal, dp } polder 0 0 none := by
  have hk : p.req.kind = .barSync := by
    have := List.find?_some h
    simp only [State.syncOf, Bool.and_eq_true, decide_eq_true_eq] at this
    exact this.1.1.2
  have hw : s.withdraw p = s.unpark p := by
    unfold State.withdraw
    rw [hk]
  unfold State.memberGone
  dsimp only
  rw [h]
  dsimp only
  rw [hw, hp, wordOfNat_toNat]
end

/-! ### Words of another type (R107, R418) -/

/-- The operations of the typed words that JOIN and R429 leave as they are: the type, the operation, its step. -/
def typedOps (r : Request) : List (Nat × ReqKind × Instr) :=
  [(1, ReqKind.ctrTake, Instr.sluiceCtrTake r), (1, .ctrWait, .sluiceCtrWait r), (2, .barArrive, .sluiceBarArrive r), (2, .barSync, .sluiceBarSync r),
    (2, .barWait, .sluiceBarWait r), (2, .barJoin, .sluiceBarJoin r), (3, .lkAcq, .sluiceLkAcq r), (3, .lkTry, .sluiceLkTry r), (3, .lkRel, .sluiceLkRel r),
    (4, .qpush, .sluiceQpush r), (4, .qpop, .sluiceQpop r), (4, .qpushT, .sluiceQpushT r), (4, .qpopT, .sluiceQpopT r), (5, .cndWait, .sluiceCndWait r),
    (5, .cndSignal, .sluiceCndSignal r), (5, .cndBcast, .sluiceCndBcast r)]
theorem typedOps_step {r : Request} (s : State) : ∀ y ∈ typedOps r, exec y.2.2 s = s.sluiceStep { r with kind := y.2.1 } := by
  simp only [typedOps, List.forall_mem_cons]
  exact ⟨rfl, rfl, rfl, rfl, rfl, rfl, rfl, rfl, rfl, rfl, rfl, rfl, rfl, rfl, rfl, rfl, fun _ h => absurd h List.not_mem_nil⟩
theorem typedOps_type {r : Request} : ∀ y ∈ typedOps r, typeOf y.2.1 = y.1 ∧ typeOf y.2.1 ≠ 0 := by
  simp [typedOps, typeOf]

theorem State.sluice_untyped {s : State} {q : Request} (hd : dpValid q.dp = true) (ht : (s.open (wordAt q.dp)).memType (wordAt q.dp) ≠ typeOf q.kind)
    (h0 : typeOf q.kind ≠ 0) (h6 : (s.open (wordAt q.dp)).memType (wordAt q.dp) ≠ 6) : s.sluiceStep q = .next ((s.open (wordAt q.dp)).refuse q 0x0B q.va) := by
  rw [State.sluiceStep_eq hd, State.serve_other ht (fun _ => h6) (fun h => absurd h h0)]
theorem State.sluice_forwards {s : State} {q : Request} (hd : dpValid q.dp = true) (ht : (s.open (wordAt q.dp)).memType (wordAt q.dp) = 6)
    (h0 : typeOf q.kind ≠ 0) : s.sluiceStep q = .next ((s.open (wordAt q.dp)).post (.sluiceForward q)) := by
  rw [State.sluiceStep_eq hd, State.serve_forwarding ht h0]
/-- The full/empty pair acts on plain words alone. -/
theorem State.sluice_not_plain {s : State} {q : Request} (hd : dpValid q.dp = true) (hk : typeOf q.kind = 0)
    (ht : (s.open (wordAt q.dp)).memType (wordAt q.dp) ≠ 0) (h7 : (s.open (wordAt q.dp)).memType (wordAt q.dp) ≠ 7) :
    s.sluiceStep q = .next ((s.open (wordAt q.dp)).refuse q 0x0B q.va) := by
  rw [State.sluiceStep_eq hd, State.serve_other (hk ▸ ht) (fun h => absurd hk h) (fun _ => h7)]
theorem State.sluice_poisoned {s : State} {q : Request} (hd : dpValid q.dp = true) (hk : typeOf q.kind = 0)
    (ht : (s.open (wordAt q.dp)).memType (wordAt q.dp) = 7) : s.sluiceStep q = .next ((s.open (wordAt q.dp)).refuse q 0x0A q.va) := by
  rw [State.sluiceStep_eq hd, State.serve_poisoned ht hk]

/-- Settles O38. A word of the operation's type parks or refuses it as Table 4.2 decides, the type decides for any other word, and a request that parks
goes where there is room. -/
theorem sluicesPark : Obligations.SluicesPark := by
  unfold Obligations.SluicesPark
  refine ⟨fun r s hd => ?_, fun s w r x => ?_⟩
  · intro w u v ty n fld parks
    refine ⟨fun ht hf => ?_, fun ht hf => ?_, fun ht hn => ⟨?_, ?_⟩, fun ht hl => ?_, fun ht hp => ?_, fun ht hne => ?_, fun ht hl => ?_, fun ht hl => ?_, fun ht he => ?_,
      fun ht hl => ?_, fun ht hl hk => ?_, fun ht he => ?_, fun y hy ht h6 => ?_, fun ht h6 hn => ?_, fun ht h6 hk => ?_, fun phys core hk ht => ?_,
      fun h0 h7 => ⟨?_, ?_⟩, fun y hy ht => ?_, fun ht => ⟨?_, ?_⟩⟩
    · exact State.sluice_parks (q := { r with kind := .ldFe }) hd ht ((State.judge_ldFe rfl).trans (if_neg (by rw [hf]; nofun)))
    · exact State.sluice_parks (q := { r with kind := .stEf }) hd ht ((State.judge_stEf rfl).trans (if_pos hf))
    · exact State.sluice_parks (q := { r with kind := .ctrTake }) hd ht ((State.judge_ctrTake rfl).trans (if_neg (Nat.not_le.2 hn)))
    · exact State.sluice_parks (q := { r with kind := .ctrWait }) hd ht ((State.judge_ctrWait rfl).trans (if_neg (Nat.not_le.2 hn)))
    · exact State.sluice_parks (q := { r with kind := .barSync }) hd ht (State.judge_barSync_early rfl hl)
    · exact State.sluice_parks (q := { r with kind := .barWait }) hd ht ((State.judge_barWait rfl).trans (if_neg (not_not_intro hp)))
    · rw [ofNat_succ_toNat, BitVec.ofNat_toNat, BitVec.setWidth_eq]
      exact State.sluice_parks (q := { r with kind := .lkAcq }) hd ht ((State.judge_lkAcq rfl).trans (if_neg (fun e => hne (congrArg BitVec.toNat e))))
    · have hlen : ¬queueLen v < 2 ^ queueCap v := by
        rw [queueLen_eq, queueCap_eq]
        exact Nat.not_lt.2 hl
      exact State.sluice_parks (q := { r with kind := .qpush }) hd ht ((State.judge_qpush rfl).trans (if_neg hlen))
    · have hlen : ¬0 < queueLen v := by
        rw [queueLen_eq_sub, BitVec.eq_of_toNat_eq hl, BitVec.sub_self]
        exact Nat.lt_irrefl 0
      exact State.sluice_parks (q := { r with kind := .qpop }) hd ht ((State.judge_qpop rfl).trans (if_neg hlen))
    · rw [ofNat_succ_toNat, BitVec.ofNat_toNat, BitVec.setWidth_eq]
      exact State.sluice_parks (q := { r with kind := .cndWait }) hd ht ((State.judge_cndWait rfl).trans (if_neg (not_not_intro (BitVec.eq_of_toNat_eq he))))
    · exact State.sluice_misused (q := { r with kind := .barJoin }) hd ht ((State.judge_barJoin rfl).trans (if_pos hl))
    · exact (execSluiceBarWdraw_plain hk).trans (State.sluice_misused (q := { r with kind := .barWdraw }) hd ht ((State.judge_barWdraw rfl).trans (if_pos hl)))
    · exact State.sluice_misused (q := { r with kind := .lkRel }) hd ht (State.judge_lkRel_free rfl (BitVec.eq_of_toNat_eq he))
    · obtain ⟨hty, h0⟩ := typedOps_type (r := r) y hy
      exact (typedOps_step s y hy).trans (State.sluice_untyped (q := { r with kind := y.2.1 }) hd (hty ▸ ht) h0 h6)
    · exact (execSluiceCtrAdd_word hn).trans (State.sluice_untyped (q := { r with kind := .ctrAdd }) hd ht nofun h6)
    · exact (execSluiceBarWdraw_plain hk).trans (State.sluice_untyped (q := { r with kind := .barWdraw }) hd ht nofun h6)
    · intro bye itsSync
      have hsync : u.syncOf w phys core = itsSync := by
        funext p
        simp only [State.syncOf, State.offMem_params (State.offMem_open s w), u]
        rfl
      have hserve : exec (.sluiceBarWdraw r) s = .next (u.memberGone w r phys core) := execSluiceBarWdraw_gone hd ht hk
      have hbye : exec (.sluiceBarWdraw bye) s = .next (u.carryOut w bye) := execSluiceBarWdraw_typed (r := bye) hd ht rfl
      refine ⟨fun hf => ?_, fun q pol hf hp => ?_⟩
      · rw [hserve, hbye, State.memberGone_none (hsync ▸ hf)]
      · rw [hserve, State.memberGone_parked (hsync ▸ hf) hp]
    · exact State.sluice_not_plain (q := { r with kind := .ldFe }) hd rfl h0 h7
    · exact State.sluice_not_plain (q := { r with kind := .stEf }) hd rfl h0 h7
    · obtain ⟨z, hz, rfl⟩ := List.mem_map.1 (show y ∈ (typedOps r).map (·.2) from hy)
      exact (typedOps_step s z hz).trans (State.sluice_forwards (q := { r with kind := z.2.1 }) hd ht (typedOps_type z hz).2)
    · exact State.sluice_poisoned (q := { r with kind := .ldFe }) hd rfl ht
    · exact State.sluice_poisoned (q := { r with kind := .stEf }) hd rfl ht
  · intro sl mine listed moved written entry put room stays
    exact ⟨fun h => State.parkAt_placed (State.parkPlace_list h false), fun h hm => State.parkAt_placed (State.parkPlace_polder h hm),
      fun h hm => State.parkAt_full (State.parkPlace_full h hm), fun h => State.noRoom_other h, fun op d h => State.noRoom_trigger h⟩

end Sys2Proof.Machine
end

section
/-!
SUPPORT. Objects made and removed, forwarding words, ring words and the polder (spec/04 R106, R115, R116, R118, R119, R126; spec/21 R409; spec/22 R423):
what each step leaves, and the words that it does not touch.
-/

namespace Sys2Proof

variable {α : Type} [DecidableEq α] {d : α}

/-- Setting a run of keys leaves every other key as it reads, whatever the map. -/
theorem spGet_spSetList_apart {m : Sparse α} {k j : Nat} {vs : List α} (h : j < k ∨ k + vs.length ≤ j) : spGet d (spSetList d m k vs) j = spGet d m j := by
  induction vs generalizing m k with
  | nil => rfl
  | cons v vs ih =>
    rw [List.length_cons] at h
    rw [spSetList, ih (by omega), spGet_spSet_apart (by omega)]
omit [DecidableEq α] in
theorem spGetList_congr {m m' : Sparse α} {k n : Nat} (h : ∀ j, k ≤ j → j < k + n → spGet d m j = spGet d m' j) : spGetList d m k n = spGetList d m' k n := by
  induction n generalizing k with
  | zero => rfl
  | succ n ih => rw [spGetList, spGetList, h k (Nat.le_refl k) (by omega), ih fun j h1 h2 => h j (by omega) (by omega)]

end Sys2Proof

namespace Sys2Proof.Machine

open Sys2Proof

theorem bytesOfNat_length (x n : Nat) : (bytesOfNat x n).length = n := by
  induction n generalizing x with
  | zero => rfl
  | succ n ih => rw [bytesOfNat, List.length_cons, ih]
theorem natOfBytes_bytesOfNat (x n : Nat) : natOfBytes (bytesOfNat x n) = x % 256 ^ n := by
  induction n generalizing x with
  | zero => rw [bytesOfNat, natOfBytes, pow_zero, Nat.mod_one]
  | succ n ih => rw [bytesOfNat, natOfBytes, ih, BitVec.toNat_ofNat, pow_succ' 256 n, Nat.mod_mul]

/-! ### Words that a step leaves as they are -/

theorem State.memWord_congr {s t : State} {a : Nat} (h : ∀ j, a ≤ j → j < a + 8 → t.memByte j = s.memByte j) : t.memWord a = s.memWord a := by
  rw [State.memWord, State.memWord, State.memBytes, State.memBytes, spGetList_congr h]
theorem State.memWord_of_bytes {s t : State} (h : t.mem.bytes = s.mem.bytes) (a : Nat) : t.memWord a = s.memWord a := by
  rw [State.memWord, State.memWord, State.memBytes, State.memBytes, h]
theorem State.memTag_of_tags {s t : State} (h : t.mem.tags = s.mem.tags) (a : Nat) : t.memTag a = s.memTag a := by rw [State.memTag, State.memTag, h]

/-- Global memory's data and tags. -/
def State.words (s : State) : List Host.Cell × Sparse (BitVec 4) := (s.mem.bytes, s.mem.tags)
theorem State.memWord_words {s t : State} (h : t.words = s.words) (a : Nat) : t.memWord a = s.memWord a := State.memWord_of_bytes (congrArg Prod.fst h) a
theorem State.memTag_words {s t : State} (h : t.words = s.words) (a : Nat) : t.memTag a = s.memTag a := State.memTag_of_tags (congrArg Prod.snd h) a
theorem State.memType_words {s t : State} (h : t.words = s.words) (a : Nat) : t.memType a = s.memType a := by
  rw [State.memType, State.memType, State.memTag_words h]
theorem State.memFull_words {s t : State} (h : t.words = s.words) (a : Nat) : t.memFull a = s.memFull a := by
  rw [State.memFull, State.memFull, State.memTag_words h]

@[simp] theorem State.words_countAccess (s : State) (dp : Nat) : (s.countAccess dp).words = s.words := by
  unfold State.countAccess
  dsimp only
  split
  · split <;> rfl
  · rfl
@[simp] theorem State.words_reportFrame (s : State) (dp : Nat) : (s.reportFrame dp).words = s.words := by
  unfold State.reportFrame
  dsimp only
  split <;> rfl
@[simp] theorem State.words_switchToClean (s : State) (dp : Nat) : (s.switchToClean dp).words = s.words := by
  unfold State.switchToClean State.retireFrame
  dsimp only
  split <;> rfl
@[simp] theorem State.words_clearUpset (s : State) (dp : Nat) : (s.clearUpset dp).words = s.words := rfl
@[simp] theorem State.words_countEcc (s : State) (dp a b : Nat) : (s.countEcc dp a b).words = s.words := rfl
@[simp] theorem State.words_readStructure (s : State) (dp : Nat) : (s.readStructure dp).words = s.words := by
  unfold State.readStructure
  split
  · rfl
  · rfl
  · dsimp only
    split
    · rw [State.words_reportFrame]; rfl
    · rfl
@[simp] theorem State.words_releaseClean (s : State) (dp : Nat) : (s.releaseClean dp).words = s.words := by
  unfold State.releaseClean
  dsimp only
  split
  · split <;> rfl
  · split <;> rfl

theorem State.memWord_putWord_apart {s : State} {a b : Nat} (v : W64) (t : BitVec 4) (h : a + 8 ≤ b ∨ b + 8 ≤ a) : (s.putWord b v t).memWord a = s.memWord a :=
  State.memWord_congr fun j h1 h2 => spGet_spSetList_apart (by rw [bytesOfNat_length]; omega)
/-- A slice that decodes a word leaves the data of every other word. -/
theorem State.memWord_decodeWord_apart {s : State} {a b : Nat} (h : a + 8 ≤ b ∨ b + 8 ≤ a) : (s.decodeWord b).memWord a = s.memWord a := by
  unfold State.decodeWord
  split
  · exact State.memWord_words (s.words_readStructure b) a
  · split
    · rfl
    · rfl
    · dsimp only
      split
      · exact State.memWord_words (by simp) a
      · refine (State.memWord_words (State.words_reportFrame _ b) a).trans ?_
        exact State.memWord_putWord_apart (s := s.countEcc b 0 1) 0 (mkTag 7 true) h
    · exact State.memWord_putWord_apart (s := { s with sched := { s.sched with fresh := s.sched.fresh + 1 } }) (Config.freeWord s.sched.fresh)
        (Config.freeTag s.sched.fresh) h
theorem State.memWord_open_apart {s : State} {a b : Nat} (h : a + 8 ≤ b ∨ b + 8 ≤ a) : (s.open b).memWord a = s.memWord a :=
  (State.memWord_decodeWord_apart h).trans (State.memWord_words (by simp) a)

/-! ### Objects (R106) -/

theorem initialWord_eq {t : Nat} (n : W64) (h1 : 1 ≤ t) (h6 : t ≤ 6) : initialWord t n =
    if t = 1 then n else if t = 2 then (0#16 ++ n.extractLsb' 0 16 ++ 0#32 : BitVec 64) else if t = 4 then (n.extractLsb' 0 5 ++ 0#59 : BitVec 64)
    else if t = 6 then n &&& ~~~7#64 else 0 := by
  have hbar : barWord 0 (slice n 15 0) 0 0 = (0#16 ++ n.extractLsb' 0 16 ++ 0#32 : BitVec 64) := by
    refine BitVec.eq_of_toNat_eq ?_
    have := (n.extractLsb' 0 16).isLt
    rw [slice_quarter0, barWord_eq, barFields_toNat]
    simp only [toNat_append_add, BitVec.toNat_ofNat]
    omega
  have hqueue : queueWord (slice n 4 0) 0 0 = (n.extractLsb' 0 5 ++ 0#59 : BitVec 64) := by
    refine BitVec.eq_of_toNat_eq ?_
    rw [show slice n 4 0 = (n.extractLsb' 0 5).toNat from slice_eq n 4 0, queueWord_eq]
    simp only [toNat_append_add, BitVec.toNat_ofNat]
    omega
  interval_cases t
  · rfl
  · exact hbar
  · rfl
  · exact hqueue
  · rfl
  · exact wordOfNat_slice3 n
theorem mkTag_full {t : Nat} (h : t < 8) : mkTag t true = BitVec.ofNat 4 (8 + t) := by
  rw [mkTag, Nat.mod_eq_of_lt h, Nat.add_comm]
  rfl

section
variable {r : Request} {s : State}

theorem execSluiceMkobj_eq {t : Nat} (hd : dpValid r.dp = true) (hk : r.kind = .mkobj t) : execSluiceMkobj r s =
    .next (if ((s.open (wordAt r.dp)).memType (wordAt r.dp) ≠ 0 ∨ t = 4 ∧ 16 < (r.data.extractLsb' 0 5).toNat) then
      (s.open (wordAt r.dp)).refuse r 0x0B r.va
    else ((s.open (wordAt r.dp)).commit (wordAt r.dp) (initialWord t r.data) (mkTag t true)).answer r 0 true) := by
  unfold execSluiceMkobj
  dsimp only
  rw [atHome, if_pos hd, hk]
  dsimp only
  rw [show slice r.data 4 0 = (r.data.extractLsb' 0 5).toNat from slice_eq r.data 4 0]
  simp only [Bool.or_eq_true, Bool.and_eq_true, decide_eq_true_eq]

theorem execSluiceRmobj_refused (hd : dpValid r.dp = true) (h : (s.open (wordAt r.dp)).memType (wordAt r.dp) = 0 ∨
    (s.open (wordAt r.dp)).memType (wordAt r.dp) = 7 ∨ ∃ p ∈ (s.open (wordAt r.dp)).sluice.parked, p.dp = wordAt r.dp ∧ p.abandoned = false) :
    execSluiceRmobj r s = .next ((s.open (wordAt r.dp)).refuse r 0x0B r.va) := by
  have hc : ((s.open (wordAt r.dp)).memType (wordAt r.dp) = 0 || (s.open (wordAt r.dp)).memType (wordAt r.dp) = 7 ||
      ((s.open (wordAt r.dp)).parkedAt (wordAt r.dp)).any (!·.abandoned)) = true := by
    simpa [State.parkedAt, or_assoc, and_assoc] using h
  unfold execSluiceRmobj
  dsimp only
  rw [atHome, if_pos hd, if_pos hc]
theorem execSluiceRmobj_removed (hd : dpValid r.dp = true) (h0 : (s.open (wordAt r.dp)).memType (wordAt r.dp) ≠ 0)
    (h7 : (s.open (wordAt r.dp)).memType (wordAt r.dp) ≠ 7) (h : ∀ p ∈ (s.open (wordAt r.dp)).sluice.parked, p.dp = wordAt r.dp → p.abandoned = true) :
    execSluiceRmobj r s = .next (((((s.open (wordAt r.dp)).parkedAt (wordAt r.dp)).foldl State.unpark (s.open (wordAt r.dp))).commit (wordAt r.dp)
      ((s.open (wordAt r.dp)).memWord (wordAt r.dp)) 8#4).answer r ((s.open (wordAt r.dp)).memWord (wordAt r.dp)) true) := by
  have hc : ¬((s.open (wordAt r.dp)).memType (wordAt r.dp) = 0 || (s.open (wordAt r.dp)).memType (wordAt r.dp) = 7 ||
      ((s.open (wordAt r.dp)).parkedAt (wordAt r.dp)).any (!·.abandoned)) = true := by
    simpa [State.parkedAt, h0, h7] using h
  unfold execSluiceRmobj
  dsimp only
  rw [atHome, if_pos hd, if_neg hc]
  rfl
end

/-! ### Parked requests that leave together -/

/-- What an unparked request does not touch. -/
def State.besideSluice (s : State) : Cpu × Mem × Engines × Sparse Die × Firmware × Fabric × Boot := (s.cpu, s.mem, s.eng, s.dies, s.fw, s.fab, s.boot)
theorem State.eq_of_besideSluice {s t : State} (h : t.besideSluice = s.besideSluice) : t = { s with sluice := t.sluice, sched := t.sched } := by
  simp only [State.besideSluice, Prod.mk.injEq] at h
  obtain ⟨h1, h2, h3, h4, h5, h6, h7⟩ := h
  rw [← h1, ← h2, ← h3, ← h4, ← h5, ← h6, ← h7]
theorem State.besideSluice_unpark (s : State) (p : Parked) : (s.unpark p).besideSluice = s.besideSluice := by
  unfold State.unpark
  dsimp only
  split <;> rfl
/-- Steps that each take one request away take them all away. -/
theorem parked_foldl {f : State → Parked → State} (hf : ∀ s p, (f s p).sluice.parked = s.sluice.parked.filter fun q => !p.at q) (ps : List Parked) (s : State) :
    (ps.foldl f s).sluice.parked = s.sluice.parked.filter fun q => !ps.any fun p => p.at q := by
  induction ps generalizing s with
  | nil => exact (List.filter_eq_self.2 fun _ _ => rfl).symm
  | cons p ps ih =>
    rw [List.foldl_cons, ih, hf, List.filter_filter]
    refine List.filter_congr fun q _ => ?_
    rw [List.any_cons, Bool.not_or, Bool.and_comm]
/-- When all of a word's requests leave, those of other words stay. -/
theorem parked_leave (ps : List Parked) (w : Nat) : (ps.filter fun q => !(ps.filter fun p => decide (p.dp = w)).any fun p => p.at q) =
    ps.filter fun p => decide (p.dp ≠ w) := by
  refine List.filter_congr fun q hq => ?_
  by_cases h : q.dp = w
  · have : (ps.filter fun p => decide (p.dp = w)).any (fun p => p.at q) = true :=
      List.any_eq_true.2 ⟨q, List.mem_filter.2 ⟨hq, decide_eq_true h⟩, Parked.at_self q⟩
    simp [this, h]
  · have : (ps.filter fun p => decide (p.dp = w)).any (fun p => p.at q) = false := by
      simp only [List.any_eq_false, List.mem_filter, decide_eq_true_eq, Parked.at, Bool.and_eq_true, not_and]
      exact fun p hp _ e => h (e.trans hp.2)
    simp [this, h]

end Sys2Proof.Machine
end

section
/-!
SUPPORT. Forwarding words, ring words and the polder (spec/04 R115, R116, R118, R119, R126; spec/22 R418, R423): what each step leaves.
-/

namespace Sys2Proof.Machine

open Sys2Proof

/-! ### Forwarding words (R116) -/

section
variable {r : Request} {s : State}

/-- The request that a forwarding word sends on. -/
def forwarded (r : Request) (target : W64) : Request := { r with va := target, dp := 0, hops := r.hops + 1, via := some r.va }

theorem execSluiceForward_eq {t : W64} (hd : dpValid r.dp = true) (h6 : s.memType (wordAt r.dp) = 6) (ht : s.memWord (wordAt r.dp) &&& ~~~7#64 = t) :
    execSluiceForward r s = .next (if 4 ≤ r.hops then s.refuse r 0x0B r.va
      else if malformed t then s.refuse r 0x04 t
      else match s.served r.tenant t with
        | .dead => s.refuse r 0x0C r.va
        | .peer _ => s.post (.stationHandoff (forwarded r t))
        | .here => s.post (.translationLookup { forwarded r t with die := homeDie (wordAt r.dp) })) := by
  unfold execSluiceForward
  dsimp only
  rw [atHome, if_pos hd, if_neg (not_not_intro h6), wordOfNat_slice3, ht]
  rfl
theorem execSluiceForward_far (hd : dpValid r.dp = true) (h6 : s.memType (wordAt r.dp) = 6) (h4 : 4 ≤ r.hops) :
    execSluiceForward r s = .next (s.refuse r 0x0B r.va) := by
  rw [execSluiceForward_eq hd h6 rfl, if_pos h4]

section
variable {t : W64} (hd : dpValid r.dp = true) (h6 : s.memType (wordAt r.dp) = 6) (h4 : r.hops < 4) (ht : s.memWord (wordAt r.dp) &&& ~~~7#64 = t)
include hd h6 h4 ht

theorem execSluiceForward_malformed (hm : malformed t = true) : execSluiceForward r s = .next (s.refuse r 0x04 t) := by
  rw [execSluiceForward_eq hd h6 ht, if_neg (Nat.not_le.2 h4), if_pos hm]
theorem execSluiceForward_here (hm : malformed t = false) (hs : s.served r.tenant t = .here) :
    execSluiceForward r s = .next (s.post (.translationLookup { forwarded r t with die := homeDie (wordAt r.dp) })) := by
  rw [execSluiceForward_eq hd h6 ht, if_neg (Nat.not_le.2 h4), if_neg (by rw [hm]; nofun), hs]
theorem execSluiceForward_peer {p : Nat} (hm : malformed t = false) (hs : s.served r.tenant t = .peer p) :
    execSluiceForward r s = .next (s.post (.stationHandoff (forwarded r t))) := by
  rw [execSluiceForward_eq hd h6 ht, if_neg (Nat.not_le.2 h4), if_neg (by rw [hm]; nofun), hs]
theorem execSluiceForward_dead (hm : malformed t = false) (hs : s.served r.tenant t = .dead) :
    execSluiceForward r s = .next (s.refuse r 0x0C r.va) := by
  rw [execSluiceForward_eq hd h6 ht, if_neg (Nat.not_le.2 h4), if_neg (by rw [hm]; nofun), hs]
end
end

/-! ### Ring words (R115, R423) -/

section
variable {ra : RingAccess} {s u : State}

theorem execRingWordAccess_fault (hd : dpValid ra.req.dp = true)
    (h : s.lookup (xlatSlice (homeDie (wordAt ra.req.dp)) ra.ring) ra.req.tenant ra.ring = (.fault, u)) :
    execRingWordAccess ra s = .next ((u.refuse ra.req 0x08 ra.ring).ringDone (wordAt ra.req.dp)) := by
  unfold execRingWordAccess
  dsimp only
  rw [h, atHome, if_pos hd]
theorem execRingWordAccess_mapped {dp : Nat} {wr : Bool} (hd : dpValid ra.req.dp = true)
    (h : s.lookup (xlatSlice (homeDie (wordAt ra.req.dp)) ra.ring) ra.req.tenant ra.ring = (.ok dp wr, u)) : execRingWordAccess ra s =
      .next (if ra.push && !wr then (u.refuse ra.req 0x09 ra.ring).ringDone (wordAt ra.req.dp) else u.ringPerform ra dp) := by
  unfold execRingWordAccess
  dsimp only
  rw [h, atHome, if_pos hd]

/-- The header after the access. -/
def ringHead (ra : RingAccess) (s : State) : State :=
  let v := ra.header
  s.commit (wordAt ra.req.dp) (if ra.push then (v.extractLsb' 59 5 ++ 0#3 ++ (v.extractLsb' 28 28 + 1) ++ v.extractLsb' 0 28 : BitVec 64)
    else (v.extractLsb' 59 5 ++ 0#3 ++ v.extractLsb' 28 28 ++ (v.extractLsb' 0 28 + 1) : BitVec 64)) 0xC#4
theorem ringHead_eq (ra : RingAccess) (s : State) : s.commit (wordAt ra.req.dp) (advanced ra.push ra.header) (mkTag 4 true) = ringHead ra s := by
  rw [advanced_eq]
  rfl

theorem State.ringPerform_push {dp : Nat} (hp : ra.push = true)
    (ht : (s.open (wordAt dp)).memType (wordAt dp) = 0 ∨ (s.open (wordAt dp)).memType (wordAt dp) = 7) : s.ringPerform ra dp =
      ((ringHead ra ((s.open (wordAt dp)).commit (wordAt dp) ra.req.data (if (s.open (wordAt dp)).memType (wordAt dp) = 0 then (s.open (wordAt dp)).memTag (wordAt dp)
        else 8#4))).grant (wordAt ra.req.dp) ra.polder ra.req 0 true).ringDone (wordAt ra.req.dp) := by
  unfold State.ringPerform
  dsimp only
  rw [if_pos hp, if_neg (by simpa using or_iff_not_imp_left.1 ht), ringHead_eq]
  rfl
theorem State.ringPerform_push_typed {dp : Nat} (hp : ra.push = true) (h0 : (s.open (wordAt dp)).memType (wordAt dp) ≠ 0)
    (h7 : (s.open (wordAt dp)).memType (wordAt dp) ≠ 7) :
    s.ringPerform ra dp = ((s.open (wordAt dp)).refuse ra.req 0x0B ra.ring).ringDone (wordAt ra.req.dp) := by
  unfold State.ringPerform
  dsimp only
  rw [if_pos hp, if_pos (by simpa using ⟨h0, h7⟩)]
theorem State.ringPerform_pop {dp : Nat} (hp : ra.push = false) (h7 : (s.open (wordAt dp)).memType (wordAt dp) ≠ 7) : s.ringPerform ra dp =
    ((ringHead ra (s.open (wordAt dp))).grant (wordAt ra.req.dp) ra.polder ra.req ((s.open (wordAt dp)).memWord (wordAt dp)) true).ringDone (wordAt ra.req.dp) := by
  unfold State.ringPerform
  dsimp only
  rw [if_neg (by rw [hp]; nofun), if_neg h7, ringHead_eq]
theorem State.ringPerform_pop_poisoned {dp : Nat} (hp : ra.push = false) (h7 : (s.open (wordAt dp)).memType (wordAt dp) = 7) :
    s.ringPerform ra dp = ((ringHead ra (s.open (wordAt dp))).refuse ra.req 0x0A ra.ring).ringDone (wordAt ra.req.dp) := by
  unfold State.ringPerform
  dsimp only
  rw [if_neg (by rw [hp]; nofun), if_pos h7, ringHead_eq]
end

section
variable {s : State} {w : Nat} {r : Request} {push polder : Bool}

theorem State.ringAccess_poisoned (h : (s.open (w + 8)).memType (w + 8) = 7) : s.ringAccess w r push polder = (s.open (w + 8)).refuse r 0x0B (r.va + 8) := by
  unfold State.ringAccess
  dsimp only
  rw [if_pos h]
theorem State.ringAccess_sent (h : (s.open (w + 8)).memType (w + 8) ≠ 7) : s.ringAccess w r push polder =
    let u := s.open (w + 8)
    let i := (if push then ((s.memWord w).extractLsb' 28 28).toNat else ((s.memWord w).extractLsb' 0 28).toNat) % 2 ^ ((s.memWord w).extractLsb' 59 5).toNat
    { u with sluice := { u.sluice with busy := w :: u.sluice.busy } }.post (.ringWordAccess
      { req := { r with dp := w }, ring := (u.memWord (w + 8) + BitVec.ofNat 64 (8 * i)) &&& 0xFFFFFFFFFFFFF#64, push, header := s.memWord w, polder }) := by
  have hw : (s.open (w + 8)).memWord w = s.memWord w := State.memWord_open_apart (.inl (Nat.le_refl _))
  unfold State.ringAccess
  dsimp only
  rw [if_neg h, hw, queueTail_eq, queueHead_eq, queueCap_eq, wordOfNat_vaOf]
  rfl
end

/-! ### The polder (R119, R126) -/

section
variable {s : State} {sl tenant : Nat}

/-- One element among others that a condition does not pick. -/
theorem mapWhere_one {α : Type} {p : α → Bool} {g : α → α} {pre post : List α} {x : α} (hx : p x = true) (h : ∀ y ∈ pre ++ post, p y = false) :
    mapWhere p g (pre ++ x :: post) = pre ++ g x :: post := by
  have hkeep (l : List α) (hl : ∀ y ∈ l, p y = false) : l.map (fun y => if p y then g y else y) = l :=
    (List.map_congr_left fun y hy => if_neg (by rw [hl y hy]; nofun)).trans (List.map_id' l)
  rw [mapWhere, List.map_append, List.map_cons, if_pos hx, hkeep pre fun y hy => h y (List.mem_append_left _ hy),
    hkeep post fun y hy => h y (List.mem_append_right _ hy)]
/-- The request is one of the tenant's in the polder of the slice. -/
def Parked.inPolder (sl tenant : Nat) (p : Parked) : Bool := p.polder && decide (p.slice = sl) && decide (p.req.tenant = tenant)

theorem takeFirst_eq_none {α : Type} {p : α → Bool} {l : List α} (h : ∀ x ∈ l, p x = false) : takeFirst p l = none := by
  induction l with
  | nil => rfl
  | cons x l ih =>
    rw [takeFirst, if_neg (by rw [h x List.mem_cons_self]; nofun), ih fun y hy => h y (List.mem_cons_of_mem _ hy)]
theorem State.polderEntryMoves_none (h : s.listRoom sl tenant = false ∨ ∀ p ∈ s.sluice.parked, p.inPolder sl tenant = false) : s.polderEntryMoves sl tenant = s := by
  unfold State.polderEntryMoves
  obtain h | h := h
  · split
    · exact if_neg (by rw [h]; nofun)
    · rfl
  · rw [show takeFirst (fun p : Parked => p.polder && decide (p.slice = sl) && decide (p.req.tenant = tenant)) s.sluice.parked = none from takeFirst_eq_none h]
theorem State.polderEntryMoves_oldest {older younger : List Parked} {p : Parked} (hr : s.listRoom sl tenant = true)
    (hs : s.sluice.parked = older ++ p :: younger) (hp : p.inPolder sl tenant = true) (ho : ∀ q ∈ older, q.inPolder sl tenant = false)
    (hu : ∀ q ∈ older ++ younger, ¬(q.slice = sl ∧ q.seq = p.seq ∧ q.dp = p.dp)) : s.polderEntryMoves sl tenant =
      { s with sluice := { s.sluice with parked := older ++ { p with polder := false } :: younger } } := by
  have hf : takeFirst (Parked.inPolder sl tenant) s.sluice.parked = some (p, older ++ younger) := by
    rw [hs]
    exact takeFirst_append (List.any_eq_false.2 fun q hq => by rw [ho q hq]; nofun) hp
  have hsl : p.slice = sl := by
    simp only [Parked.inPolder, Bool.and_eq_true, decide_eq_true_eq] at hp
    exact hp.1.2
  unfold State.polderEntryMoves
  rw [show takeFirst (fun p : Parked => p.polder && decide (p.slice = sl) && decide (p.req.tenant = tenant)) s.sluice.parked = _ from hf]
  dsimp only
  rw [if_pos hr, hs, mapWhere_one (by simp [hsl]) fun q hq => by simpa [and_assoc] using hu q hq]
end

end Sys2Proof.Machine
end

section
/-!
SUPPORT. How a performed operation serves the requests parked on its object (spec/04 R118): a pass over them in sequence order, each of which stays, is
granted, or goes on to a ring word, and the word that each grant leaves for the next.
-/

namespace Sys2Proof.Machine

open Sys2Proof

/-! ### Answers and grants keep memory and the lists -/

/-- What no reply of a sluice touches. -/
def State.atSluices (s : State) : Mem × Sluices := (s.mem, s.sluice)
theorem State.sluice_atSluices {s t : State} (h : t.atSluices = s.atSluices) : t.sluice = s.sluice := congrArg Prod.snd h
theorem State.words_atSluices {s t : State} (h : t.atSluices = s.atSluices) : t.words = s.words := by
  have hm : t.mem = s.mem := congrArg Prod.fst h
  rw [State.words, State.words, hm]
theorem State.atSluices_firewallDrop (s : State) : s.firewallDrop.atSluices = s.atSluices := by
  unfold State.firewallDrop
  refine foldl_keeps State.atSluices _ (fun s t _ => ?_) s
  rfl
theorem State.atSluices_answer (s : State) (r : Request) (v : W64) (ok : Bool) : (s.answer r v ok).atSluices = s.atSluices := by
  unfold State.answer
  split
  · split
    · rfl
    · split <;> rfl
  · rfl
  · rfl
  · unfold State.cross
    split
    · rfl
    · exact s.atSluices_firewallDrop
  · rfl
  · rfl
  · rfl
  · rfl
theorem State.grant_withdrawal {s : State} {w : Nat} {polder : Bool} {r : Request} {v : W64} {ok : Bool} (h : r.src = .withdrawal) :
    s.grant w polder r v ok = s.withdrawNow r := if_pos h
/-- A grant's reply leaves after those of the object's earlier grants (R118); of an entry in the polder, once it has been read (R119). -/
theorem State.grant_reply {s : State} {w : Nat} {polder : Bool} {r : Request} {v : W64} {ok : Bool} (h : r.src ≠ .withdrawal) : s.grant w polder r v ok =
    let before := s.sched.agenda.countP fun p => match grantOf p.ev with | some (o, _) => decide (o = w) | none => false
    let m := { grantReply r v ok with grant := some (w, s.sched.rids) }
    { s with sched := { s.sched with rids := s.sched.rids + 1, agenda := s.sched.agenda ++
      [{ due := s.sched.now + before, ev := if polder then .polderEntryRead m else .deposit m }] } } := by
  unfold State.grant
  rw [if_neg h]
  rfl
theorem State.atSluices_grant (s : State) (w : Nat) (polder : Bool) (r : Request) (v : W64) (ok : Bool) : (s.grant w polder r v ok).atSluices = s.atSluices := by
  by_cases h : r.src = .withdrawal
  · rw [State.grant_withdrawal h]; rfl
  · rw [State.grant_reply h]; rfl

/-! ### The word that an operation leaves -/

theorem mkTag_fields {ty : Nat} (h : ty < 8) (f : Bool) : (mkTag ty f).toNat % 8 = ty ∧ (mkTag ty f).getLsbD 3 = f := by
  interval_cases ty <;> cases f <;> decide

/-- A canonical state in which the object at `w` has this type, data and full/empty bit, and no ring access outstanding. -/
structure State.Shows (s : State) (w ty : Nat) (x : W64) (f : Bool) : Prop where
  canon : s.Canon
  idle : w ∉ s.sluice.busy
  type : s.memType w = ty
  word : s.memWord w = x
  full : s.memFull w = f

section
variable {s t : State} {w ty : Nat} {x : W64} {f : Bool}

theorem State.Shows.of_words (h : s.Shows w ty x f) (hc : t.Canon) (hw : t.words = s.words) (hb : t.sluice.busy = s.sluice.busy) : t.Shows w ty x f :=
  ⟨hc, hb ▸ h.idle, (State.memType_words hw w).trans h.type, (State.memWord_words hw w).trans h.word, (State.memFull_words hw w).trans h.full⟩
theorem State.sluice_commit (s : State) (a : Nat) (v : W64) (tag : BitVec 4) : (s.commit a v tag).sluice = s.sluice := by
  obtain ⟨m, hm⟩ := s.commit_eq a v tag
  rw [hm]
theorem State.memWord_commit (h : s.Canon) (a : Nat) (v : W64) (tag : BitVec 4) : (s.commit a v tag).memWord a = v := by
  have hb : spWf (0 : Byte) (s.releaseClean a).mem.bytes = true := by
    rw [show (s.releaseClean a).mem.bytes = s.mem.bytes from congrArg Prod.fst (s.words_releaseClean a)]
    exact h.bytes
  have hr := spGetList_spSetList (k := a) (vs := bytesOfNat v.toNat 8) hb
  rw [bytesOfNat_length] at hr
  rw [show (s.commit a v tag).memWord a = wordOfNat (natOfBytes (spGetList 0 (spSetList 0 (s.releaseClean a).mem.bytes a (bytesOfNat v.toNat 8)) a 8)) from rfl,
    hr, natOfBytes_bytesOfNat, show 256 ^ 8 = 2 ^ 64 by norm_num, Nat.mod_eq_of_lt v.isLt, wordOfNat, BitVec.ofNat_toNat, BitVec.setWidth_eq]
theorem State.memTag_commit (h : s.Canon) (a : Nat) (v : W64) (tag : BitVec 4) : (s.commit a v tag).memTag a = tag := by
  have hb : spWf 8#4 (s.releaseClean a).mem.tags = true := by
    rw [show (s.releaseClean a).mem.tags = s.mem.tags from congrArg Prod.snd (s.words_releaseClean a)]
    exact h.tags
  exact spGet_spSet_same hb
theorem State.Shows.commit (h : s.Shows w ty x f) (y : W64) (g : Bool) : (s.commit w y (mkTag ty g)).Shows w ty y g := by
  have hty : ty < 8 := h.type ▸ Nat.mod_lt _ (by norm_num)
  obtain ⟨h1, h2⟩ := mkTag_fields hty g
  refine ⟨State.commit_canon h.canon, ?_, ?_, State.memWord_commit h.canon w y _, ?_⟩
  · rw [State.sluice_commit]
    exact h.idle
  · rw [State.memType, State.memTag_commit h.canon, h1]
  · rw [State.memFull, State.memTag_commit h.canon, h2]
theorem State.words_unpark (s : State) (p : Parked) : (s.unpark p).words = s.words := by
  unfold State.unpark
  dsimp only
  split <;> rfl
theorem State.busy_unpark (s : State) (p : Parked) : (s.unpark p).sluice.busy = s.sluice.busy := by
  unfold State.unpark
  dsimp only
  split <;> rfl
theorem State.sluice_countAccess (s : State) (a : Nat) : (s.countAccess a).sluice = s.sluice := congrArg (·.2.1) (s.offMem_countAccess a)
end

/-! ### A parked request is served -/

/-- A parked request leaves its list, the word changes to `x`, and the reply is `answer`. -/
def serveParked (w ty : Nat) (x : W64) (f : Bool) (answer : W64) (t : State) (p : Parked) : State :=
  let u := (t.unpark p).countAccess w
  (if x = t.memWord w ∧ f = t.memFull w then u else u.commit w x (mkTag ty f)).grant w p.polder p.req answer true

section
variable {t : State} {w ty : Nat} {x0 x : W64} {f0 f : Bool}

theorem State.Shows.served (h : t.Shows w ty x0 f0) (x : W64) (f : Bool) (answer : W64) (p : Parked) : (serveParked w ty x f answer t p).Shows w ty x f := by
  have hu : ((t.unpark p).countAccess w).Shows w ty x0 f0 := h.of_words (State.countAccess_canon (State.unpark_canon h.canon))
    ((State.words_countAccess _ w).trans (t.words_unpark p)) ((congrArg Sluices.busy (State.sluice_countAccess _ w)).trans (t.busy_unpark p))
  have hg {u : State} (hu : u.Shows w ty x f) : (u.grant w p.polder p.req answer true).Shows w ty x f :=
    hu.of_words (State.grant_canon hu.canon) (State.words_atSluices (State.atSluices_grant ..)) (congrArg Sluices.busy (State.sluice_atSluices (State.atSluices_grant ..)))
  refine hg ?_
  split
  · next e =>
    rw [e.1, e.2, h.word, h.full]
    exact hu
  · exact hu.commit x f
theorem parked_serveParked (x : W64) (f : Bool) (answer : W64) (t : State) (p : Parked) :
    (serveParked w ty x f answer t p).sluice.parked = t.sluice.parked.filter fun q => !p.at q := by
  unfold serveParked
  rw [State.sluice_atSluices (State.atSluices_grant ..)]
  split
  · rw [State.sluice_countAccess, State.parked_unpark]
  · rw [State.sluice_commit, State.sluice_countAccess, State.parked_unpark]
end

/-! ### One pass, request by request -/

section
variable {s : State} {fin : Option (Nat × Nat)} {p : Parked} {ps : List Parked} {b : List ReqKind} {sig : Nat} {ch : Bool}

theorem wakePass_skip (h : ∀ p ∈ ps, (p.abandoned || b.contains p.req.kind || s.sluice.busy.contains p.dp) = true) :
    State.wakePass fin ps b sig ch s = (s, ch) := by
  induction ps with
  | nil => rfl
  | cons p ps ih =>
    rw [State.wakePass, if_pos (h p List.mem_cons_self)]
    exact ih fun q hq => h q (List.mem_cons_of_mem _ hq)

/-- The pass comes to this request. -/
def Parked.heard (s : State) (b : List ReqKind) (p : Parked) : Prop := p.abandoned = false ∧ p.req.kind ∉ b ∧ p.dp ∉ s.sluice.busy
theorem Parked.heard_iff : ¬(p.abandoned || b.contains p.req.kind || s.sluice.busy.contains p.dp) = true ↔ p.heard s b := by
  simp [Parked.heard, and_assoc]

theorem wakePass_still (hp : p.heard s b) (hw : s.wakeOf fin sig p = .still) : State.wakePass fin (p :: ps) b sig ch s =
    State.wakePass fin ps (if fifoKind p.req.kind then p.req.kind :: b else b) sig ch s := by
  rw [State.wakePass, if_neg (Parked.heard_iff.2 hp), hw]
theorem wakePass_ring {push : Bool} (hp : p.heard s b) (hw : s.wakeOf fin sig p = .ring push) : State.wakePass fin (p :: ps) b sig ch s =
    State.wakePass fin ps b sig ch ((s.unpark p).ringAccess p.dp p.req push p.polder) := by
  rw [State.wakePass, if_neg (Parked.heard_iff.2 hp), hw]
theorem moved_iff {v a : W64} {f c : Bool} : (decide (v ≠ a) || decide (f ≠ c)) = true ↔ ¬(v = a ∧ f = c) := by
  rw [Bool.or_eq_true, decide_eq_true_eq, decide_eq_true_eq, not_and_or]
theorem wakePass_grant {w ty : Nat} {v reply : W64} {full : Bool} (hp : p.heard s b) (hn : p.notice = none) (hd : p.dp = w) (ht : s.memType w = ty)
    (hw : s.wakeOf fin sig p = .grant v full reply) : State.wakePass fin (p :: ps) b sig ch s =
      State.wakePass fin ps b (if p.req.kind = .cndWait then sig - 1 else sig) (ch || (decide (v ≠ s.memWord w) || decide (full ≠ s.memFull w)))
        (serveParked w ty v full reply s p) := by
  subst hd
  have hu : ((s.unpark p).countAccess p.dp).words = s.words := (State.words_countAccess _ _).trans (s.words_unpark p)
  rw [State.wakePass, if_neg (Parked.heard_iff.2 hp), hw]
  dsimp only
  rw [State.memFull_words hu, State.memType_words hu, ht, hn, serveParked]
  rw [Option.isSome_none, if_neg Bool.false_ne_true]
  by_cases e : v = s.memWord p.dp ∧ full = s.memFull p.dp
  · rw [if_neg fun hm => moved_iff.1 hm e, if_pos e]
  · rw [if_pos (moved_iff.2 e), if_neg e]
end

/-! ### What a parked request comes to -/

section
variable {s : State} {fin : Option (Nat × Nat)} {p : Parked} {sig : Nat}

/-- The kinds that are decided anew, as a request that arrives is. -/
def judgedAgain : ReqKind → Bool
  | .barSync | .cndWait | .lkAcq => false
  | _ => true

/-- What the decision means for a request that has waited. -/
def Verdict.wake : Verdict → Wake
  | .perform v full reply _ => .grant v full reply
  | .ring push => .ring push
  | .discard => .discard
  | .park _ | .misuse => .still

theorem State.wakeOf_judged (ht : s.memType p.dp = typeOf p.req.kind) (hk : judgedAgain p.req.kind = true) :
    s.wakeOf fin sig p = (s.judge p.dp p.req).wake := by
  unfold State.wakeOf
  rw [if_neg (not_not_intro ht)]
  split
  · next e => exact absurd hk (by rw [e]; nofun)
  · next e => exact absurd hk (by rw [e]; nofun)
  · next e => exact absurd hk (by rw [e]; nofun)
  · generalize s.judge p.dp p.req = d
    cases d <;> rfl
/-- A BAR.SYNC waits for the phase in which it arrived. -/
theorem State.wakeOf_barSync {ph acc : Nat} (ht : s.memType p.dp = typeOf p.req.kind) (hk : p.req.kind = .barSync) : s.wakeOf (some (ph, acc)) sig p =
    if p.phase.toNat = ph then .grant (s.memWord p.dp) true (wordOfNat (ph * 2 ^ 48 + acc)) else .still := by
  unfold State.wakeOf
  rw [if_neg (not_not_intro ht), hk]
theorem State.wakeOf_cndWait (ht : s.memType p.dp = typeOf p.req.kind) (hk : p.req.kind = .cndWait) : s.wakeOf fin sig p =
    if 0 < sig then .grant (s.memWord p.dp) true (((s.memWord p.dp).extractLsb' 32 32).zeroExtend 64) else .still := by
  unfold State.wakeOf
  rw [if_neg (not_not_intro ht), hk, slice_half1, wordOfNat_toNat]
theorem State.wakeOf_lkAcq (ht : s.memType p.dp = typeOf p.req.kind) (hk : p.req.kind = .lkAcq) : s.wakeOf fin sig p =
    if p.ticket = (s.memWord p.dp).extractLsb' 0 32 then .grant (s.memWord p.dp) true (((s.memWord p.dp).extractLsb' 0 32).zeroExtend 64) else .still := by
  unfold State.wakeOf
  rw [if_neg (not_not_intro ht), hk, slice_half0]
  dsimp only
  by_cases h : p.ticket = (s.memWord p.dp).extractLsb' 0 32
  · rw [if_pos h, if_pos (congrArg BitVec.toNat h.symm), h, wordOfNat_toNat]
  · rw [if_neg h, if_neg fun e => h (BitVec.eq_of_toNat_eq e.symm)]
end

end Sys2Proof.Machine
end

section
/-!
SUPPORT. What a changed object makes of the requests parked on it (spec/04 R118, R119): passes that leave the word as it is, and operations of which a
younger one waits for an older one.
-/

namespace Sys2Proof.Machine

open Sys2Proof

/-! ### Requests that wait -/

/-- A request parked at `w` that awaits its grant: neither abandoned nor a notice. -/
structure Parked.Waits (w : Nat) (p : Parked) : Prop where
  here : p.dp = w
  live : p.abandoned = false
  asks : p.notice = none

section
variable {s t : State} {w ty : Nat} {x y reply : W64} {f g : Bool} {fin : Option (Nat × Nat)} {sig : Nat} {ch : Bool} {p : Parked} {ps : List Parked}
  {b : List ReqKind}

theorem Parked.Waits.heard (hp : p.Waits w) (hs : s.Shows w ty x f) (hb : p.req.kind ∉ b) : p.heard s b := ⟨hp.live, hb, hp.here ▸ hs.idle⟩
theorem wakePass_waits (hp : p.Waits w) (hs : s.Shows w ty x f) (hb : p.req.kind ∉ b) (hw : s.wakeOf fin sig p = .grant y g reply) :
    State.wakePass fin (p :: ps) b sig ch s = State.wakePass fin ps b (if p.req.kind = .cndWait then sig - 1 else sig) (ch || (decide (y ≠ x) || decide (g ≠ f)))
      (serveParked w ty y g reply s p) := by
  rw [wakePass_grant (hp.heard hs hb) hp.asks hp.here hs.type hw, hs.word, hs.full]
/-- A grant that leaves the word. -/
theorem wakePass_waits_same (hp : p.Waits w) (hs : s.Shows w ty x f) (hb : p.req.kind ∉ b) (hw : s.wakeOf fin sig p = .grant x f reply) :
    State.wakePass fin (p :: ps) b sig ch s = State.wakePass fin ps b (if p.req.kind = .cndWait then sig - 1 else sig) ch (serveParked w ty x f reply s p) := by
  rw [wakePass_waits hp hs hb hw, decide_eq_false (not_not_intro rfl), decide_eq_false (not_not_intro rfl), Bool.or_false, Bool.or_false]

/-! ### What each waits for -/

theorem State.Shows.wakeOf_judged (hs : s.Shows w (typeOf p.req.kind) x f) (hp : p.Waits w) (hk : judgedAgain p.req.kind = true) :
    s.wakeOf fin sig p = (s.judge w p.req).wake := by
  rw [State.wakeOf_judged (by rw [hp.here, hs.type]) hk, hp.here]
theorem wakeOf_ctrWait (hs : s.Shows w 1 x true) (hp : p.Waits w) (hk : p.req.kind = .ctrWait) :
    s.wakeOf fin sig p = if p.req.data.toNat ≤ x.toNat then .grant x true x else .still := by
  rw [State.Shows.wakeOf_judged (by rw [hk]; exact hs) hp (by rw [hk]; rfl), State.judge_ctrWait hk, hs.word, apply_ite Verdict.wake]
  rfl
theorem wakeOf_ctrTake (hs : s.Shows w 1 x true) (hp : p.Waits w) (hk : p.req.kind = .ctrTake) :
    s.wakeOf fin sig p = if p.req.data.toNat ≤ x.toNat then .grant (x - p.req.data) true x else .still := by
  rw [State.Shows.wakeOf_judged (by rw [hk]; exact hs) hp (by rw [hk]; rfl), State.judge_ctrTake hk, hs.word, apply_ite Verdict.wake]
  rfl
theorem wakeOf_barWait (hs : s.Shows w 2 x f) (hp : p.Waits w) (hk : p.req.kind = .barWait) :
    s.wakeOf fin sig p = if x.extractLsb' 48 16 ≠ p.req.data.extractLsb' 0 16 then .grant x true x else .still := by
  rw [State.Shows.wakeOf_judged (by rw [hk]; exact hs) hp (by rw [hk]; rfl), State.judge_barWait hk, hs.word, apply_ite Verdict.wake]
  simp only [ne_eq, BitVec.toNat_inj]
  rfl
theorem wakeOf_ldFe (hs : s.Shows w 0 x f) (hp : p.Waits w) (hk : p.req.kind = .ldFe) :
    s.wakeOf fin sig p = if f = true then .grant x false x else .still := by
  rw [State.Shows.wakeOf_judged (by rw [hk]; exact hs) hp (by rw [hk]; rfl), State.judge_ldFe hk, hs.word, hs.full, apply_ite Verdict.wake]
  rfl
theorem wakeOf_stEf (hs : s.Shows w 0 x f) (hp : p.Waits w) (hk : p.req.kind = .stEf) :
    s.wakeOf fin sig p = if f = true then .still else .grant p.req.data true 0 := by
  rw [State.Shows.wakeOf_judged (by rw [hk]; exact hs) hp (by rw [hk]; rfl), State.judge_stEf hk, hs.full, apply_ite Verdict.wake]
  rfl

/-! ### Passes that leave the word -/

/-- Every request that a condition picks is granted, with the word as it is; the others stay. -/
theorem wakePass_steady {keep : Parked → Bool} {out : Parked → W64} (hps : ∀ p ∈ ps, p.Waits w) (hk : ∀ p ∈ ps, fifoKind p.req.kind = false)
    (hw : ∀ p ∈ ps, ∀ (t : State) (sig : Nat), t.Shows w ty x f → t.wakeOf fin sig p = if keep p = true then .grant x f (out p) else .still) (hs : s.Shows w ty x f) :
    State.wakePass fin ps [] sig false s = ((ps.filter keep).foldl (fun t p => serveParked w ty x f (out p) t p) s, false) := by
  induction ps generalizing s sig with
  | nil => rfl
  | cons p ps ih =>
    have hp := hps p List.mem_cons_self
    have hd := hw p List.mem_cons_self s sig hs
    have ih {t : State} {n : Nat} (ht : t.Shows w ty x f) := ih (s := t) (sig := n) (fun q hq => hps q (List.mem_cons_of_mem _ hq))
      (fun q hq => hk q (List.mem_cons_of_mem _ hq)) (fun q hq => hw q (List.mem_cons_of_mem _ hq)) ht
    by_cases hkeep : keep p = true
    · rw [wakePass_waits_same hp hs List.not_mem_nil (hd.trans (if_pos hkeep)), ih (hs.served x f _ p), List.filter_cons_of_pos hkeep, List.foldl_cons]
    · rw [wakePass_still (hp.heard hs List.not_mem_nil) (hd.trans (if_neg hkeep)), hk p List.mem_cons_self, if_neg Bool.false_ne_true, ih hs,
        List.filter_cons_of_neg hkeep]
/-- A condition grants its oldest waits, one for each signal. -/
theorem wakePass_signals (hps : ∀ p ∈ ps, p.Waits w) (hk : ∀ p ∈ ps, p.req.kind = .cndWait) (hs : s.Shows w 5 x true) :
    State.wakePass fin ps [] sig false s = ((ps.take sig).foldl (serveParked w 5 x true ((x.extractLsb' 32 32).zeroExtend 64)) s, false) := by
  induction ps generalizing s sig with
  | nil => rw [List.take_nil]; rfl
  | cons p ps ih =>
    have hp := hps p List.mem_cons_self
    have hkp := hk p List.mem_cons_self
    have hd := State.wakeOf_cndWait (fin := fin) (sig := sig) (by rw [hp.here, hs.type, hkp]; rfl) hkp
    rw [hp.here, hs.word] at hd
    have ih {t : State} {n : Nat} (ht : t.Shows w 5 x true) := ih (s := t) (sig := n) (fun q hq => hps q (List.mem_cons_of_mem _ hq))
      (fun q hq => hk q (List.mem_cons_of_mem _ hq)) ht
    cases sig with
    | zero =>
      rw [wakePass_still (hp.heard hs List.not_mem_nil) hd, hkp, if_neg (show ¬fifoKind .cndWait = true from Bool.false_ne_true), ih hs]
      rfl
    | succ n =>
      rw [wakePass_waits_same hp hs List.not_mem_nil (hd.trans (if_pos (Nat.succ_pos n))), if_pos hkp, Nat.add_sub_cancel, ih (hs.served x true _ p),
        List.take_succ_cons, List.foldl_cons]

/-! ### Operations of which a younger one waits for an older one -/

/-- Where the oldest stays, all stay. -/
theorem wakePass_stuck {k : ReqKind} (hk : fifoKind k = true) (hps : ∀ p ∈ ps, p.Waits w ∧ p.req.kind = k) (hs : s.Shows w ty x f)
    (hw : ∀ p, ps.head? = some p → s.wakeOf fin sig p = .still) : State.wakePass fin ps [] sig ch s = (s, ch) := by
  cases ps with
  | nil => rfl
  | cons p ps =>
    obtain ⟨hp, hkp⟩ := hps p List.mem_cons_self
    rw [wakePass_still (hp.heard hs List.not_mem_nil) (hw p rfl), hkp, if_pos hk]
    refine wakePass_skip fun q hq => ?_
    rw [(hps q (List.mem_cons_of_mem _ hq)).2]
    simp

/-- The passes end once one of them leaves the word. -/
theorem State.changed_of_pass (h1 : State.wakePass fin (s.parkedAt w) [] sig false s = (t, ch)) (hne : ch = true → s.parkedAt w ≠ [])
    (h2 : ch = true → State.wakePass none (t.parkedAt w) [] 0 false t = (t, false)) : s.changed w fin sig = t := by
  rw [State.changed, State.wake, h1]
  cases ch with
  | false => rfl
  | true =>
    dsimp only
    cases hp : s.parkedAt w with
    | nil => exact absurd hp (hne rfl)
    | cons p ps => rw [List.length_cons, State.wake, h2 rfl]
theorem parkedAt_foldl {F : State → Parked → State} (hF : ∀ s p, (F s p).sluice.parked = s.sluice.parked.filter fun q => !p.at q) {now later : List Parked}
    (hs : s.parkedAt w = now ++ later) (hd : (now ++ later).Pairwise fun p q => p.seq ≠ q.seq) : (now.foldl F s).parkedAt w = later := by
  have hnow : now.filter (fun q => !now.any fun p => p.at q) = [] :=
    List.filter_eq_nil_iff.2 fun q hq => by simpa using ⟨q, hq, Parked.at_self q⟩
  have hlater : later.filter (fun q => !now.any fun p => p.at q) = later :=
    List.filter_eq_self.2 fun q hq => by
      simpa [Parked.at] using fun p hp _ e => absurd e.symm ((List.pairwise_append.1 hd).2.2 p hp q hq)
  rw [State.parkedAt, parked_foldl hF, List.filter_comm, show s.sluice.parked.filter (fun p => decide (p.dp = w)) = now ++ later from hs, List.filter_append, hnow, hlater, List.nil_append]
/-- The oldest requests are granted; where the next one stays, the rest do. -/
theorem State.changed_fifo {F : State → Parked → State} (hF : ∀ s p, (F s p).sluice.parked = s.sluice.parked.filter fun q => !p.at q) {now later : List Parked}
    (hs : s.parkedAt w = now ++ later) (hd : (now ++ later).Pairwise fun p q => p.seq ≠ q.seq)
    (h1 : State.wakePass fin (now ++ later) [] sig false s = (now.foldl F s, ch)) (hne : ch = true → now ≠ [])
    (h2 : State.wakePass none later [] 0 false (now.foldl F s) = (now.foldl F s, false)) : s.changed w fin sig = now.foldl F s := by
  refine State.changed_of_pass (hs ▸ h1) (fun h e => ?_) fun _ => ?_
  · rw [hs] at e
    exact hne h (List.append_eq_nil_iff.1 e).1
  · rw [parkedAt_foldl hF hs hd]
    exact h2
end

end Sys2Proof.Machine
end

section
/-!
SUPPORT. An operation performed on an object with parked requests (spec/04 R118, Table 4.2), type by type.
-/

namespace Sys2Proof.Machine

open Sys2Proof

/-! ### The operation -/

section
variable {s : State} {w : Nat} {r : Request} {v : W64} {full : Bool} {reply : W64} {ok : Bool}

theorem State.changed_alone {fin : Option (Nat × Nat)} {sig : Nat} (h : s.parkedAt w = []) : s.changed w fin sig = s :=
  State.changed_of_pass (ch := false) (by rw [h]; rfl) nofun nofun

/-- The object after the operation, its requester answered. -/
def State.performed (s : State) (w : Nat) (r : Request) (v : W64) (full : Bool) (reply : W64) (ok : Bool) : State :=
  (s.commit w v (mkTag (s.memType w) full)).answer r reply ok
theorem State.sluice_performed : (s.performed w r v full reply ok).sluice = s.sluice :=
  (State.sluice_atSluices (State.atSluices_answer ..)).trans (s.sluice_commit ..)
theorem State.shows_performed (hc : s.Canon) (hb : w ∉ s.sluice.busy) : (s.performed w r v full reply ok).Shows w (s.memType w) v full := by
  have h : s.Shows w (s.memType w) (s.memWord w) (s.memFull w) := ⟨hc, hb, rfl, rfl, rfl⟩
  have hset := h.commit v full
  exact hset.of_words (State.answer_canon hset.canon) (State.words_atSluices (State.atSluices_answer ..))
    (congrArg Sluices.busy (State.sluice_atSluices (State.atSluices_answer ..)))
theorem State.parkedAt_performed : (s.performed w r v full reply ok).parkedAt w = s.parkedAt w := by rw [State.parkedAt, State.sluice_performed]; rfl

theorem State.performAt_moved (hm : v ≠ s.memWord w ∨ full ≠ s.memFull w) (hk : r.kind ≠ .lkRel) : s.performAt w r v full reply ok =
    (s.performed w r v full reply ok).changed w (completed r.kind (s.memWord w) r.data) (signals r.kind (s.memWord w)) := by
  have hc : (decide (v ≠ s.memWord w) || decide (full ≠ s.memFull w)) = true := moved_iff.2 (not_and_or.2 hm)
  unfold State.performAt
  dsimp only
  rw [if_pos hc, if_neg hk, if_pos hc]
  rfl
theorem State.performAt_same (hm : v = s.memWord w ∧ full = s.memFull w) (hk : r.kind ≠ .lkRel) : s.performAt w r v full reply ok = s.answer r reply ok := by
  have hc : ¬(decide (v ≠ s.memWord w) || decide (full ≠ s.memFull w)) = true := fun h => moved_iff.1 h hm
  unfold State.performAt
  dsimp only
  rw [if_neg hc, if_neg hk, if_neg hc]
/-- A lock that is released, with no abandoned ticket on its list. -/
theorem State.performAt_released (hm : v ≠ s.memWord w ∨ full ≠ s.memFull w) (hk : r.kind = .lkRel) (ha : ∀ p ∈ s.parkedAt w, p.abandoned = false) :
    s.performAt w r v full reply ok = (s.performed w r v full reply ok).changed w none 0 := by
  have hc : (decide (v ≠ s.memWord w) || decide (full ≠ s.memFull w)) = true := moved_iff.2 (not_and_or.2 hm)
  have ht : (s.commit w v (mkTag (s.memType w) full)).clearTickets w (s.memWord w) v = s.commit w v (mkTag (s.memType w) full) := by
    unfold State.clearTickets
    dsimp only
    rw [s.sluice_commit, List.filter_eq_nil_iff.2]
    · rfl
    · intro p hp h
      simp only [Bool.and_eq_true, decide_eq_true_eq] at h
      have := ha p (List.mem_filter.2 ⟨hp, decide_eq_true h.1.1⟩)
      rw [this] at h
      exact Bool.false_ne_true h.1.2
  unfold State.performAt
  dsimp only
  rw [if_pos hc, if_pos hk, if_pos hc, ht, hk]
  rfl
/-- No request is parked on the object. -/
theorem State.performAt_alone (h : ∀ p ∈ s.sluice.parked, p.dp ≠ w) (hk : r.kind ≠ .lkRel) : s.performAt w r v full reply ok =
    (if v = s.memWord w ∧ full = s.memFull w then s else s.commit w v (mkTag (s.memType w) full)).answer r reply ok := by
  have hp : s.parkedAt w = [] := List.filter_eq_nil_iff.2 fun p hp => by simpa using h p hp
  by_cases hm : v = s.memWord w ∧ full = s.memFull w
  · rw [State.performAt_same hm hk, if_pos hm]
  · rw [State.performAt_moved (not_and_or.1 hm) hk, State.changed_alone (State.parkedAt_performed.trans hp), if_neg hm]
    rfl
end

/-! ### What it serves, by type -/

section
variable {s t : State} {w ty : Nat} {x : W64} {f : Bool} {fin : Option (Nat × Nat)} {sig : Nat} {p : Parked} {now later : List Parked}

/-- Every CTR.WAIT that the new VALUE meets. -/
theorem State.changed_ctrWait (hs : t.Shows w ty x f) (hty : ty = 1) (hf : f = true) (hw : ∀ p ∈ t.parkedAt w, p.Waits w)
    (hk : ∀ p ∈ t.parkedAt w, p.req.kind = .ctrWait) : t.changed w fin sig =
      ((t.parkedAt w).filter fun p => decide (p.req.data.toNat ≤ x.toNat)).foldl (serveParked w ty x true x) t := by
  subst hty hf
  refine State.changed_of_pass (ch := false) (wakePass_steady hw (fun p hp => by rw [hk p hp]; rfl) (fun p hp u n hu => ?_) hs) nofun nofun
  rw [wakeOf_ctrWait hu (hw p hp) (hk p hp)]
  simp only [decide_eq_true_eq]

/-- The CTR.TAKEs in their order whose sum VALUE covers. -/
def takeServed (w ty : Nat) (t : State) (p : Parked) : State := serveParked w ty (t.memWord w - p.req.data) true (t.memWord w) t p
theorem State.Shows.takes (hs : s.Shows w 1 x true) (hn : (now.map fun p => p.req.data.toNat).sum ≤ x.toNat) :
    ∃ y : W64, (now.foldl (takeServed w 1) s).Shows w 1 y true ∧ y.toNat + (now.map fun p => p.req.data.toNat).sum = x.toNat := by
  induction now generalizing s x with
  | nil => exact ⟨x, hs, rfl⟩
  | cons p now ih =>
    rw [List.map_cons, List.sum_cons] at hn
    have hx : (x - p.req.data).toNat = x.toNat - p.req.data.toNat := BitVec.toNat_sub_of_le (by rw [BitVec.le_def]; omega)
    have h1 : (takeServed w 1 s p).Shows w 1 (x - p.req.data) true := by
      rw [takeServed, hs.word]
      exact hs.served _ _ _ p
    obtain ⟨y, hy, hsum⟩ := ih h1 (by omega)
    refine ⟨y, hy, ?_⟩
    rw [List.map_cons, List.sum_cons]
    omega
theorem wakePass_takes {ch : Bool} (hs : s.Shows w 1 x true) (hw : ∀ p ∈ now ++ later, p.Waits w ∧ p.req.kind = .ctrTake)
    (hn : (now.map fun p => p.req.data.toNat).sum ≤ x.toNat)
    (hl : ∀ p, later.head? = some p → x.toNat < (now.map fun p => p.req.data.toNat).sum + p.req.data.toNat) :
    ∃ ch', State.wakePass fin (now ++ later) [] sig ch s = (now.foldl (takeServed w 1) s, ch') ∧ (ch' = true → ch = true ∨ now ≠ []) := by
  induction now generalizing s x ch with
  | nil =>
    refine ⟨ch, wakePass_stuck (k := .ctrTake) rfl hw hs fun p hp => ?_, .inl⟩
    have hlt := hl p hp
    rw [List.map_nil, List.sum_nil, Nat.zero_add] at hlt
    have hq := hw p (List.mem_of_mem_head? hp)
    rw [wakeOf_ctrTake hs hq.1 hq.2, if_neg (Nat.not_le.2 hlt)]
  | cons p now ih =>
    rw [List.map_cons, List.sum_cons] at hn hl
    obtain ⟨hp, hk⟩ := hw p List.mem_cons_self
    have hx : (x - p.req.data).toNat = x.toNat - p.req.data.toNat := BitVec.toNat_sub_of_le (by rw [BitVec.le_def]; omega)
    have hg : s.wakeOf fin sig p = .grant (x - p.req.data) true x := by rw [wakeOf_ctrTake hs hp hk, if_pos (by omega)]
    have hstep : serveParked w 1 (x - p.req.data) true x s p = takeServed w 1 s p := by rw [takeServed, hs.word]
    rw [List.cons_append, wakePass_waits hp hs List.not_mem_nil hg, hk, if_neg nofun, hstep]
    obtain ⟨ch', h1, -⟩ := @ih (takeServed w 1 s p) (x - p.req.data) (ch || (decide (x - p.req.data ≠ x) || decide (true ≠ true)))
      (hstep ▸ hs.served _ _ _ p) (fun q hq => hw q (List.mem_cons_of_mem _ hq)) (by omega) (fun q hq => by have := hl q hq; omega)
    exact ⟨ch', h1, fun _ => .inr (List.cons_ne_nil p now)⟩
theorem State.changed_ctrTake (hs : t.Shows w ty x f) (hty : ty = 1) (hf : f = true) (hw : ∀ p ∈ t.parkedAt w, p.Waits w)
    (hk : ∀ p ∈ t.parkedAt w, p.req.kind = .ctrTake) (hps : t.parkedAt w = now ++ later) (hd : (now ++ later).Pairwise fun p q => p.seq ≠ q.seq)
    (hn : (now.map fun p => p.req.data.toNat).sum ≤ x.toNat)
    (hl : ∀ p, later.head? = some p → x.toNat < (now.map fun p => p.req.data.toNat).sum + p.req.data.toNat) :
    t.changed w fin sig = now.foldl (takeServed w ty) t := by
  subst hty hf
  have hall : ∀ p ∈ now ++ later, p.Waits w ∧ p.req.kind = .ctrTake := fun p hp => ⟨hw p (hps ▸ hp), hk p (hps ▸ hp)⟩
  obtain ⟨ch, h1, hne⟩ := wakePass_takes (fin := fin) (sig := sig) (ch := false) hs hall hn hl
  obtain ⟨y, hy, hsum⟩ := hs.takes hn
  refine State.changed_fifo (F := takeServed w 1) (fun s p => parked_serveParked _ _ _ s p) hps hd h1 (fun h => (hne h).resolve_left Bool.false_ne_true) ?_
  refine wakePass_stuck (k := .ctrTake) rfl (fun p hp => hall p (List.mem_append_right _ hp)) hy fun p hp => ?_
  have hq := hall p (List.mem_append_right _ (List.mem_of_mem_head? hp))
  have := hl p hp
  rw [wakeOf_ctrTake hy hq.1 hq.2, if_neg (by omega)]

/-- The oldest of the pair's requests, which changes the full/empty bit under the others. -/
theorem State.changed_pair {k : ReqKind} {y answer : W64} (hs : t.Shows w 0 x f) (hfifo : fifoKind k = true)
    (hw : ∀ p ∈ t.parkedAt w, p.Waits w) (hk : ∀ p ∈ t.parkedAt w, p.req.kind = k) (hps : t.parkedAt w = p :: later)
    (hd : (p :: later).Pairwise fun p q => p.seq ≠ q.seq) (hg : t.wakeOf fin sig p = .grant y (!f) answer)
    (hstay : ∀ q ∈ later, ∀ (u : State) (fin : Option (Nat × Nat)) (sig : Nat), u.Shows w 0 y (!f) → u.wakeOf fin sig q = .still) :
    t.changed w fin sig = serveParked w 0 y (!f) answer t p := by
  have hall : ∀ q ∈ p :: later, q.Waits w ∧ q.req.kind = k := fun q hq => ⟨hw q (hps ▸ hq), hk q (hps ▸ hq)⟩
  have h1 := hs.served y (!f) answer p
  have hstuck (fin : Option (Nat × Nat)) (sig : Nat) (ch : Bool) : State.wakePass fin later [] sig ch (serveParked w 0 y (!f) answer t p) =
      (serveParked w 0 y (!f) answer t p, ch) :=
    wakePass_stuck hfifo (fun q hq => hall q (List.mem_cons_of_mem _ hq)) h1 fun q hq => hstay q (List.mem_of_mem_head? hq) _ fin sig h1
  refine State.changed_fifo (F := serveParked w 0 y (!f) answer) (now := [p]) (fun s q => parked_serveParked _ _ _ s q) hps hd (ch := true) ?_ (fun _ => nofun)
    (hstuck none 0 false)
  have hp := hall p List.mem_cons_self
  rw [List.singleton_append, wakePass_waits hp.1 hs List.not_mem_nil hg, hstuck]
  cases f <;> simp
theorem State.changed_ldFe (hs : t.Shows w ty x f) (hty : ty = 0) (hf : f = true) (hw : ∀ p ∈ t.parkedAt w, p.Waits w)
    (hk : ∀ p ∈ t.parkedAt w, p.req.kind = .ldFe) (hps : t.parkedAt w = p :: later) (hd : (p :: later).Pairwise fun p q => p.seq ≠ q.seq) :
    t.changed w fin sig = serveParked w ty x false x t p := by
  subst hty hf
  have hin : ∀ q ∈ p :: later, q.Waits w ∧ q.req.kind = .ldFe := fun q hq => ⟨hw q (hps ▸ hq), hk q (hps ▸ hq)⟩
  have hp := hin p List.mem_cons_self
  refine State.changed_pair hs rfl hw hk hps hd ((wakeOf_ldFe hs hp.1 hp.2).trans (if_pos rfl)) fun q hq u fin sig hu => ?_
  have hq := hin q (List.mem_cons_of_mem _ hq)
  exact (wakeOf_ldFe hu hq.1 hq.2).trans (if_neg Bool.false_ne_true)
theorem State.changed_stEf (hs : t.Shows w ty x f) (hty : ty = 0) (hf : f = false) (hw : ∀ p ∈ t.parkedAt w, p.Waits w)
    (hk : ∀ p ∈ t.parkedAt w, p.req.kind = .stEf) (hps : t.parkedAt w = p :: later) (hd : (p :: later).Pairwise fun p q => p.seq ≠ q.seq) :
    t.changed w fin sig = serveParked w ty p.req.data true 0 t p := by
  subst hty hf
  have hin : ∀ q ∈ p :: later, q.Waits w ∧ q.req.kind = .stEf := fun q hq => ⟨hw q (hps ▸ hq), hk q (hps ▸ hq)⟩
  have hp := hin p List.mem_cons_self
  refine State.changed_pair hs rfl hw hk hps hd ((wakeOf_stEf hs hp.1 hp.2).trans (if_neg Bool.false_ne_true)) fun q hq u fin sig hu => ?_
  have hq := hin q (List.mem_cons_of_mem _ hq)
  exact (wakeOf_stEf hu hq.1 hq.2).trans (if_pos rfl)

/-- What a request on a barrier gets: a BAR.SYNC its completed phase with the flags, a BAR.WAIT the word. -/
def barAnswer (ph acc : BitVec 16) (x : W64) (p : Parked) : W64 := if p.req.kind = .barSync then (ph ++ 0#32 ++ acc : BitVec 64) else x
theorem wordOfNat_phase_acc (ph a b : BitVec 16) : wordOfNat (ph.toNat * 2 ^ 48 + (a.toNat ||| b.toNat)) = (ph ++ 0#32 ++ (a ||| b) : BitVec 64) := by
  refine BitVec.eq_of_toNat_eq ?_
  have h := (a ||| b).isLt
  rw [← BitVec.toNat_or, wordOfNat, BitVec.toNat_ofNat, toNat_append_add, toNat_append_add, BitVec.toNat_ofNat]
  have := ph.isLt
  omega
theorem completed_last {k : ReqKind} {v n : W64} (hk : k = .barArrive ∨ k = .barSync)
    (hl : (v.extractLsb' 32 16).toNat ≤ ((v.extractLsb' 16 16).toNat + 1) % 65536) :
    completed k v n = some ((v.extractLsb' 48 16).toNat, (v.extractLsb' 0 16).toNat ||| (n.extractLsb' 0 16).toNat) := by
  unfold completed
  rw [barrierStep_last _ hl, slice_quarter3, requestFlags_eq]
  obtain rfl | rfl := hk <;> rfl
/-- Every BAR.SYNC of the completed phase, and every BAR.WAIT for another phase than the new one. -/
theorem State.changed_barrier {ph a b : BitVec 16} (hs : t.Shows w ty x f) (hty : ty = 2) (hf : f = true) (hw : ∀ p ∈ t.parkedAt w, p.Waits w)
    (hk : ∀ p ∈ t.parkedAt w, p.req.kind = .barSync ∨ p.req.kind = .barWait) :
    t.changed w (some (ph.toNat, a.toNat ||| b.toNat)) sig = ((t.parkedAt w).filter fun p =>
        decide (if p.req.kind = .barSync then p.phase = ph else x.extractLsb' 48 16 ≠ p.req.data.extractLsb' 0 16)).foldl
      (fun t p => serveParked w ty x true (barAnswer ph (a ||| b) x p) t p) t := by
  subst hty hf
  refine State.changed_of_pass (ch := false) (wakePass_steady hw (fun p hp => ?_) (fun p hp u n hu => ?_) hs) nofun nofun
  · obtain e | e := hk p hp <;> rw [e] <;> rfl
  · simp only [decide_eq_true_eq, barAnswer]
    obtain e | e := hk p hp
    · have hp := hw p hp
      rw [State.wakeOf_barSync (by rw [hp.here, hu.type, e]; rfl) e, hp.here, hu.word, wordOfNat_phase_acc]
      simp only [e, if_true, BitVec.toNat_inj]
    · have hne : p.req.kind ≠ .barSync := by rw [e]; nofun
      rw [wakeOf_barWait hu (hw p hp) e]
      simp only [hne, if_false]

/-- The waits that a signal or a broadcast grants. -/
theorem State.changed_condition (hs : t.Shows w ty x f) (hty : ty = 5) (hf : f = true) (hw : ∀ p ∈ t.parkedAt w, p.Waits w)
    (hk : ∀ p ∈ t.parkedAt w, p.req.kind = .cndWait) : t.changed w fin sig =
      ((t.parkedAt w).take sig).foldl (serveParked w ty x true ((x.extractLsb' 32 32).zeroExtend 64)) t := by
  subst hty hf
  exact State.changed_of_pass (ch := false) (wakePass_signals hw hk hs) nofun nofun
theorem signals_eq {k : ReqKind} {v : W64} (hk : k = .cndSignal ∨ k = .cndBcast) :
    signals k v = if k = .cndSignal then 1 else (v.extractLsb' 0 32).toNat := by
  obtain rfl | rfl := hk
  · rfl
  · exact slice_half0 v
/-- The LK.ACQ whose ticket SERVING has come to. -/
theorem State.changed_lock (hs : t.Shows w ty x f) (hty : ty = 3) (hf : f = true) (hw : ∀ p ∈ t.parkedAt w, p.Waits w)
    (hk : ∀ p ∈ t.parkedAt w, p.req.kind = .lkAcq) : t.changed w fin sig = ((t.parkedAt w).filter fun p => decide (p.ticket = x.extractLsb' 0 32)).foldl
      (serveParked w ty x true ((x.extractLsb' 0 32).zeroExtend 64)) t := by
  subst hty hf
  refine State.changed_of_pass (ch := false) (wakePass_steady hw (fun p hp => by rw [hk p hp]; rfl) (fun p hp u n hu => ?_) hs) nofun nofun
  have hp' := hw p hp
  rw [State.wakeOf_lkAcq (by rw [hp'.here, hu.type, hk p hp]; rfl) (hk p hp), hp'.here, hu.word]
  simp only [decide_eq_true_eq]
end

end Sys2Proof.Machine
end

section
/-!
SUPPORT. A queue is served again (spec/04 R115), and the statement of objects and rings.
-/

namespace Sys2Proof.Machine

open Sys2Proof

/-! ### A queue is served again -/

section
variable {s : State} {h : Nat} {p : Parked} {later : List Parked} {push : Bool}

theorem State.busy_ringAccess {w : Nat} {r : Request} {push polder : Bool} (hr : (s.open (w + 8)).memType (w + 8) ≠ 7) :
    w ∈ (s.ringAccess w r push polder).sluice.busy := by
  rw [State.ringAccess_sent hr]
  exact List.mem_cons_self
/-- The oldest request that the ring lets go on occupies the queue until its access has completed. -/
theorem State.changed_queue (hb : h ∉ s.sluice.busy) (hps : s.parkedAt h = p :: later) (ha : p.abandoned = false) (hw : s.wakeOf none 0 p = .ring push)
    (ho : ((s.unpark p).open (h + 8)).memType (h + 8) ≠ 7) : s.changed h none 0 = (s.unpark p).ringAccess h p.req push p.polder := by
  have hdp : ∀ q ∈ p :: later, q.dp = h := fun q hq => of_decide_eq_true (List.mem_filter.1 (hps ▸ hq : q ∈ s.parkedAt h)).2
  have hheard : p.heard s [] := ⟨ha, List.not_mem_nil, by rw [hdp p List.mem_cons_self]; exact hb⟩
  refine State.changed_of_pass (ch := false) ?_ nofun nofun
  rw [hps, wakePass_ring hheard hw, hdp p List.mem_cons_self]
  refine wakePass_skip fun q hq => ?_
  rw [hdp q (List.mem_cons_of_mem _ hq)]
  simp [State.busy_ringAccess ho]
theorem State.wakeOf_qpop {fin : Option (Nat × Nat)} {sig : Nat} (ht : s.memType p.dp = 4) (hk : p.req.kind = .qpop) :
    s.wakeOf fin sig p = if 0 < queueLen (s.memWord p.dp) then .ring false else .still := by
  rw [State.wakeOf_judged (by rw [ht, hk]; rfl) (by rw [hk]; rfl), State.judge_qpop hk, apply_ite Verdict.wake]
  rfl
theorem State.wakeOf_qpush {fin : Option (Nat × Nat)} {sig : Nat} (ht : s.memType p.dp = 4) (hk : p.req.kind = .qpush) :
    s.wakeOf fin sig p = if queueLen (s.memWord p.dp) < 2 ^ queueCap (s.memWord p.dp) then .ring true else .still := by
  rw [State.wakeOf_judged (by rw [ht, hk]; rfl) (by rw [hk]; rfl), State.judge_qpush hk, apply_ite Verdict.wake]
  rfl
end

/-- Settles O39. A pass over the requests parked on a changed object grants them one by one with the word that the one before left: where no grant
changes it (counters' waits, barriers, conditions, locks), those that the word lets go; where one does (CTR.TAKE, LD.FE, ST.EF), the oldest ones until the
first that must stay, after which every later pass finds nothing more to grant. -/
theorem objectsAndRings : Obligations.ObjectsAndRings := by
  unfold Obligations.ObjectsAndRings
  refine ⟨fun r s hd => ?_, fun ra s hd => ?_, fun m s => rfl, fun s => ?_, fun s w polder r v ok => ?_, fun s w r push polder => ?_,
    fun s w r v full reply ok h hk => State.performAt_alone h hk, fun s w r v full reply ok hc hb hm => ?_, fun s h p later => ?_⟩
  · intro w u
    refine ⟨fun t n h1 h6 hk hn => ?_, fun h0 h7 ha => ?_, fun h => execSluiceRmobj_refused hd h, fun h6 => ?_⟩
    · intro init
      have hinit : initialWord t r.data = init := initialWord_eq r.data h1 h6
      have hmk := execSluiceMkobj_eq (s := s) hd hk
      rw [hinit, mkTag_full (by omega)] at hmk
      subst hn
      exact ⟨fun h0 hcap => hmk.trans (congrArg Host.Outcome.next (if_neg (not_or.2 ⟨not_not_intro h0, fun h => Nat.not_le.2 h.2 (hcap h.1)⟩))),
        fun h => hmk.trans (congrArg Host.Outcome.next (if_pos h))⟩
    · refine ⟨(u.parkedAt w).foldl State.unpark u, execSluiceRmobj_removed hd h0 h7 ha, ?_, ?_, fun h => ?_⟩
      · rw [parked_foldl State.parked_unpark]
        exact parked_leave u.sluice.parked w
      · exact State.eq_of_besideSluice (foldl_keeps State.besideSluice _ (fun s p _ => s.besideSluice_unpark p) u)
      · rw [show u.parkedAt w = [] from List.filter_eq_nil_iff.2 fun p hp => by simpa using h p hp]
        rfl
    · intro t q
      exact ⟨fun h4 => execSluiceForward_far hd h6 h4, fun h4 hm hs => execSluiceForward_here hd h6 h4 rfl hm hs,
        fun h4 hm p hs => execSluiceForward_peer hd h6 h4 rfl hm hs, fun h4 hm hs => execSluiceForward_dead hd h6 h4 rfl hm hs,
        fun h4 hm => execSluiceForward_malformed hd h6 h4 rfl hm⟩
  · intro h
    generalize hx : s.lookup (xlatSlice (homeDie h) ra.ring) ra.req.tenant ra.ring = l
    obtain ⟨x, u⟩ := l
    refine ⟨fun hf => execRingWordAccess_fault hd (hf ▸ hx), fun dp wr ho => ?_⟩
    intro v ty
    have hstep := execRingWordAccess_mapped hd (ho ▸ hx)
    have hon {t : State} (hn : ¬(ra.push && !wr) = true) (ht : u.ringPerform ra dp = t) : exec (.ringWordAccess ra) s = .next t :=
      hstep.trans (congrArg Host.Outcome.next ((if_neg hn).trans ht))
    exact ⟨fun hp hw => hstep.trans (congrArg Host.Outcome.next (if_pos (by rw [hp, hw]; rfl))),
      fun hp hw ht => hon (by rw [hw]; simp) (State.ringPerform_push hp ht),
      fun hp hw h0 h7 => hon (by rw [hw]; simp) (State.ringPerform_push_typed hp h0 h7),
      fun hp h7 => hon (by rw [hp]; nofun) (State.ringPerform_pop hp h7),
      fun hp h7 => hon (by rw [hp]; nofun) (State.ringPerform_pop_poisoned hp h7)⟩
  · refine ⟨fun h => ?_, fun sl n ms h => ?_⟩
    · unfold exec execPolderMove
      rw [h]
    · intro left own
      have hown (p : Parked) : p.inPolder sl n = true ↔ own p := by simp [Parked.inPolder, own, and_assoc]
      have hfar {ps : List Parked} (ho : ∀ q ∈ ps, ¬own q) : ∀ q ∈ ps, q.inPolder sl n = false := fun q hq =>
        Bool.eq_false_iff.2 fun hin => ho q hq ((hown q).1 hin)
      have hmove : exec .polderMove s = .next (({ s with sluice := { s.sluice with moves := ms } } : State).polderEntryMoves sl n) := by
        unfold exec execPolderMove
        rw [h]
      exact ⟨fun hno => hmove.trans (congrArg Host.Outcome.next (State.polderEntryMoves_none (hno.imp id hfar))),
        fun older p younger hroom hs hp ho hu => hmove.trans (congrArg Host.Outcome.next (State.polderEntryMoves_oldest hroom hs ((hown p).2 hp) (hfar ho) hu))⟩
  · intro before m
    exact ⟨State.grant_withdrawal, State.grant_reply⟩
  · intro u i a
    exact ⟨State.ringAccess_poisoned, State.ringAccess_sent⟩
  · intro ty old set base perf ps served all hq hd
    have hs : base.Shows w ty v full := State.shows_performed (State.canonical_iff.1 hc) hb
    have hps : base.parkedAt w = ps := State.parkedAt_performed
    have hwait : ∀ p ∈ base.parkedAt w, p.Waits w := fun p hp => by
      rw [hps] at hp
      exact ⟨of_decide_eq_true (List.mem_filter.1 hp).2, (hq p hp).1, (hq p hp).2⟩
    refine ⟨fun hk => ?_, fun hk h3 hf ha => ?_⟩
    · have hperf : perf = base.changed w (completed r.kind old r.data) (signals r.kind old) := State.performAt_moved hm hk
      refine ⟨fun h1 hf ha => ?_, fun h1 hf ha now later hsplit hn hl => ?_, fun h0 hf ha p later hsplit => ?_, fun h0 hf ha p later hsplit => ?_,
        fun h2 hf hkind ha => ?_, fun h5 hf ha hkind => ?_⟩
      · rw [hperf, State.changed_ctrWait hs h1 hf hwait (hps ▸ ha), hps]
        rfl
      · rw [hperf, State.changed_ctrTake hs h1 hf hwait (hps ▸ ha) (hps.trans hsplit) (hsplit ▸ hd) hn hl]
        rfl
      · rw [hperf, State.changed_ldFe hs h0 hf hwait (hps ▸ ha) (hps.trans hsplit) (hsplit ▸ hd)]
        rfl
      · rw [hperf, State.changed_stEf hs h0 hf hwait (hps ▸ ha) (hps.trans hsplit) (hsplit ▸ hd)]
        rfl
      · intro ph hlast acc out
        rw [hperf, completed_last hkind hlast, State.changed_barrier hs h2 hf hwait (hps ▸ ha), hps]
        rfl
      · rw [hperf, signals_eq hkind, State.changed_condition hs h5 hf hwait (hps ▸ ha), hps]
        rfl
    · have hperf : perf = base.changed w none 0 := State.performAt_released hm hk fun p hp => (hq p hp).1
      rw [hperf, State.changed_lock hs h3 hf hwait (hps ▸ ha), hps]
      rfl
  · intro u len hb hty hps ha ho
    have hdp : p.dp = h := of_decide_eq_true (List.mem_filter.1 (hps ▸ List.mem_cons_self : p ∈ s.parkedAt h)).2
    have hty : u.memType p.dp = 4 := by rw [hdp]; exact hty
    have hlen : queueLen (u.memWord p.dp) = len := by rw [hdp]; exact queueLen_eq_sub _
    have hcap : queueCap (u.memWord p.dp) = ((s.memWord h).extractLsb' 59 5).toNat := by rw [hdp]; exact queueCap_eq _
    exact ⟨fun hk hl => State.changed_queue hb hps ha ((State.wakeOf_qpop hty hk).trans (if_pos (hlen ▸ hl))) ho,
      fun hk hl => State.changed_queue hb hps ha ((State.wakeOf_qpush hty hk).trans (if_pos (by rw [hlen, hcap]; exact hl))) ho⟩

end Sys2Proof.Machine
end

section
/-!
SUPPORT. One chunk of an accumulation (spec/06 R164): a finite sum and one element, a chunk that renormalises and a chunk that is added, and
the statement of chunk accumulation.
-/

namespace Sys2Proof.Machine

open Sys2Proof

/-! ### A finite sum and one element -/

/-- What an element becomes with a finite sum in units of 2^E: infinite where it passes the limit, else higher by the sum, unless it was special. -/
def Elem.take (x : Elem) (t : Int) : Elem :=
  let y := x.overflow t
  if y.spec = 0 then { y with m := y.m + t } else y

theorem Elem.add_finite (x : Elem) {v : Val} (t : Int) (hnan : v.isNan = false) (hinf : v.isInf = false) :
    x.add v t = (if x.spec = 0 then { x with m := x.m + t } else x, false) := by
  cases v with
  | fin => rfl
  | nan => cases hnan
  | inf => cases hinf

/-- An element that has become infinite does not rise. -/
theorem Elem.take_eq (x : Elem) (t : Int) :
    x.take t = if x.over t then { x with spec := if x.m + t < 0 then 2 else 1 } else if x.spec = 0 then { x with m := x.m + t } else x := by
  split
  · next h =>
    have hx : x.overflow t = { x with spec := if x.m + t < 0 then 2 else 1 } := if_pos h
    have hspec : (if x.m + t < 0 then 2 else 1 : BitVec 2) ≠ 0 := by split <;> decide
    simp only [Elem.take, hx, if_neg hspec]
  · next h =>
    have hx : x.overflow t = x := if_neg h
    simp only [Elem.take, hx]

/-! ### One chunk -/

/-- Some element would pass the limit of R164 with its sum. -/
def Accum.overAny (vs : List Val) (t : Accum) : Bool := (t.xs.zip (vs.map (alignTo t.e))).any fun p => p.1.over p.2.1

/-- A flag that is not raised leaves the status bits. -/
@[simp] theorem or_tileIf_false (bits f : BitVec 11) : bits ||| tileIf false f = bits := BitVec.or_zero

theorem Accum.apply_renormalises {vs : List Val} (n : Nat) {t : Accum} (h : t.overAny vs = true) (he : t.e ≠ 511) :
    Accum.apply vs (n + 1) t = Accum.apply vs n
      { e := t.e + satInt (511 - t.e) 1 8, xs := (t.xs.map (·.shift (satInt (511 - t.e) 1 8))).map (·.1), renorms := min (t.renorms + 1) 0xFFFF
        bits := t.bits ||| tileRENORM ||| tileIf ((t.xs.map (·.shift (satInt (511 - t.e) 1 8))).any (·.2)) tileINX } := by
  have hc : (t.overAny vs && decide (t.e ≠ 511)) = true := by simp [h, he]
  exact if_pos hc

/-- Each element takes its sum, and none meets an infinity of the other sign, since the sums are finite. -/
theorem overflow_add_finite {vs : List Val} (hfin : ∀ v ∈ vs, v.isNan = false ∧ v.isInf = false) (e : Int) (xs : List Elem) :
    ((((xs.zip (vs.map (alignTo e))).map fun p => p.1.overflow p.2.1).zip (vs.zip (vs.map (alignTo e)))).map fun p => p.1.add p.2.1 p.2.2.1) =
      (xs.zip (vs.map (alignTo e))).map fun p => (p.1.take p.2.1, false) := by
  induction xs generalizing vs with
  | nil => rfl
  | cons x xs ih =>
    cases vs with
    | nil => rfl
    | cons v vs =>
      obtain ⟨⟨hnan, hinf⟩, hrest⟩ := List.forall_mem_cons.1 hfin
      exact congrArg₂ List.cons (Elem.add_finite _ _ hnan hinf) (ih hrest)

theorem Accum.apply_adds {vs : List Val} (hfin : ∀ v ∈ vs, v.isNan = false ∧ v.isInf = false) (n : Nat) {t : Accum} (h : t.overAny vs = false ∨ t.e = 511) :
    Accum.apply vs (n + 1) t = { t with
      xs := (t.xs.zip (vs.map (alignTo t.e))).map fun p => p.1.take p.2.1
      bits := t.bits ||| tileIf (t.overAny vs) tileOVF ||| tileIf ((vs.map (alignTo t.e)).any (·.2)) tileINX } := by
  have hc : ¬(t.overAny vs && decide (t.e ≠ 511)) = true := by rcases h with h | h <;> simp [h]
  have hnv (ps : List (Elem × Int × Bool)) : (ps.map fun p => (p.1.take p.2.1, false)).any (·.2) = false := by simp
  refine (if_neg hc).trans ?_
  simp only [overflow_add_finite hfin, hnv, or_tileIf_false, List.map_map]
  rfl

/-- Settles O32: a chunk renormalises (`apply_renormalises`) or is added (`apply_adds`), and an added sum is what each element takes (`take_eq`). -/
theorem chunkAccumulation : Obligations.ChunkAccumulation := by
  unfold Obligations.ChunkAccumulation
  intro t vs n _ hfin ts passes any
  refine ⟨fun hany => ?_, fun hany he => ?_, fun hany he => ?_⟩
  · have hover : t.overAny vs = false := hany
    have hrise : ∀ p ∈ t.xs.zip ts, p.1.take p.2.1 = if p.1.spec = 0 then { p.1 with m := p.1.m + p.2.1 } else p.1 := fun p hp =>
      (Elem.take_eq _ _).trans (if_neg (List.any_eq_false.1 hover p hp))
    rw [Accum.apply_adds hfin n (.inl hover), List.map_congr_left hrise, hover, or_tileIf_false, ← List.map_uncurry_zip_eq_zipWith]
    rfl
  · intro t1 ys
    have ht1 : satInt (511 - t.e) 1 8 = t1 := by simp only [satInt, t1]; omega
    rw [Accum.apply_renormalises n hany he.ne, ht1]
    rfl
  · have hover : t.overAny vs = true := hany
    rw [Accum.apply_adds hfin n (.inr he), List.map_congr_left fun p _ => Elem.take_eq p.1 p.2.1, hover, ← List.map_uncurry_zip_eq_zipWith]
    rfl

end Sys2Proof.Machine
end

section
/-!
SUPPORT. The decoder reads back what the encoder writes (spec/07 R169-R180): the fields of an encoded word, the formats that are made of them, and the
maps of opcodes. Whatever words follow, the words of an instruction decode to it, and then its encoding checks decide.
-/

namespace Sys2Proof

/-! ### Fields of a word -/

/-- A flag is a field of one bit. -/
theorem flag_eq_field (w : W32) (i : Nat) : flag w i = (field w i 1).getLsbD 0 := by
  simp [flag, field]

/-- Fields side by side, read one by one: those below a field are passed over, the lowest is taken, and a bit is what it encodes. -/
theorem fields_of_append :
    (∀ {m n lo k : Nat} {x : BitVec m} {y : BitVec n}, n ≤ lo → (x ++ y).extractLsb' lo k = x.extractLsb' (lo - n) k) ∧
    (∀ {m n : Nat} {x : BitVec m} {y : BitVec n}, (x ++ y).extractLsb' 0 n = y) ∧
    (∀ {n : Nat} {x : BitVec n}, x.extractLsb' 0 n = x) ∧ ∀ b : Bool, (bit1 b).getLsbD 0 = b :=
  ⟨BitVec.extractLsb'_append_eq_of_le, BitVec.extractLsb'_append_eq_right, BitVec.extractLsb'_eq_self, fun b => by cases b <;> rfl⟩

/-- The halves of a literal, the low one first (R169). -/
theorem literal_halves (v : W64) : v.extractLsb' 32 32 ++ v.extractLsb' 0 32 = v :=
  (BitVec.extractLsb'_append_extractLsb'_eq_extractLsb' rfl).trans BitVec.extractLsb'_eq_self

/-! ### Decoding by LEN (Table 7.1) -/

/-- A base instruction: `c` is what OP makes of its format, whose value its word 0 holds. -/
theorem decode_base {α : Type} {c : α → Instr} {ofWord : W32 → Option W64 → Except DecodeError α} {w : W32} {lit : Option W64} {op : BitVec 7}
    {f : α} (hc : ∀ w lit, decodeBase op.toNat w lit = c <$> ofWord w lit) (hlen : field w 30 2 = baseLen lit) (hop : field w 22 7 = op)
    (hf : ofWord w lit = .ok f) (rest : List W32) :
    decode ((w :: litWords lit) ++ rest) = checked (w :: litWords lit).length (.ok (c f)) := by
  have hx : decodeBase op.toNat w lit = .ok (c f) := (hc w lit).trans (congrArg (c <$> ·) hf)
  cases lit with
  | none =>
    have hl : (field w 30 2).toNat = 0 := congrArg BitVec.toNat hlen
    simp only [litWords, List.cons_append, decode, hl, hop, hx]
    rfl
  | some v =>
    have hl : (field w 30 2).toNat = 1 := congrArg BitVec.toNat hlen
    simp only [litWords, List.cons_append, decode, hl, hop, literal_halves, hx]
    rfl

/-! ### The base formats (Table 7.3) -/

section
variable {op : BitVec 7} (rest : List W32)

theorem RegFmt.decode_words (f : RegFmt) {c : RegFmt → Instr} (hc : ∀ w lit, decodeBase op.toNat w lit = c <$> RegFmt.ofWord w lit) :
    decode (f.words op ++ rest) = checked (f.words op).length (.ok (c f)) := by
  refine decode_base hc ?_ ?_ ?_ rest
  all_goals simp only [RegFmt.ofWord, flag_eq_field, field, fields_of_append, Nat.reduceLeDiff, Nat.reduceSub]
  all_goals rfl

theorem ImmFmt.decode_words (f : ImmFmt) {c : ImmFmt → Instr} (hc : ∀ w lit, decodeBase op.toNat w lit = c <$> ImmFmt.ofWord w lit) :
    decode (f.words op ++ rest) = checked (f.words op).length (.ok (c f)) := by
  refine decode_base hc ?_ ?_ ?_ rest
  all_goals simp only [ImmFmt.ofWord, flag_eq_field, field, fields_of_append, Nat.reduceLeDiff, Nat.reduceSub]

theorem CmpFmt.decode_words (f : CmpFmt) {c : CmpFmt → Instr} (hc : ∀ w lit, decodeBase op.toNat w lit = c <$> CmpFmt.ofWord w lit) :
    decode (f.words op ++ rest) = checked (f.words op).length (.ok (c f)) := by
  refine decode_base hc ?_ ?_ ?_ rest
  all_goals simp only [CmpFmt.ofWord, flag_eq_field, field, fields_of_append, Nat.reduceLeDiff, Nat.reduceSub]
  all_goals rfl

theorem BrFmt.decode_words (f : BrFmt) {c : BrFmt → Instr} (hc : ∀ w lit, decodeBase op.toNat w lit = c <$> BrFmt.ofWord w lit) :
    decode (f.words op ++ rest) = checked (f.words op).length (.ok (c f)) := by
  refine decode_base (lit := none) hc ?_ ?_ ?_ rest
  all_goals simp only [BrFmt.ofWord, noLiteral, flag_eq_field, field, fields_of_append, Nat.reduceLeDiff, Nat.reduceSub]
  all_goals rfl

theorem LoopFmt.decode_words (f : LoopFmt) {c : LoopFmt → Instr} (hc : ∀ w lit, decodeBase op.toNat w lit = c <$> LoopFmt.ofWord w lit) :
    decode (f.words op ++ rest) = checked (f.words op).length (.ok (c f)) := by
  refine decode_base (lit := none) hc ?_ ?_ ?_ rest
  all_goals simp only [LoopFmt.ofWord, noLiteral, flag_eq_field, field, fields_of_append, Nat.reduceLeDiff, Nat.reduceSub]
  all_goals rfl

theorem TestFmt.decode_words (f : TestFmt) {c : TestFmt → Instr} (hc : ∀ w lit, decodeBase op.toNat w lit = c <$> TestFmt.ofWord w lit) :
    decode (f.words op ++ rest) = checked (f.words op).length (.ok (c f)) := by
  refine decode_base (lit := none) hc ?_ ?_ ?_ rest
  all_goals simp only [TestFmt.ofWord, noLiteral, flag_eq_field, field, fields_of_append, Nat.reduceLeDiff, Nat.reduceSub]
  all_goals rfl

theorem GmFmt.decode_words (f : GmFmt) {c : GmFmt → Instr} (hc : ∀ w lit, decodeBase op.toNat w lit = c <$> GmFmt.ofWord w lit) :
    decode (f.words op ++ rest) = checked (f.words op).length (.ok (c f)) := by
  refine decode_base hc ?_ ?_ ?_ rest
  all_goals simp only [GmFmt.ofWord, flag_eq_field, field, fields_of_append, Nat.reduceLeDiff, Nat.reduceSub]

theorem LmFmt.decode_words (f : LmFmt) {c : LmFmt → Instr} (hc : ∀ w lit, decodeBase op.toNat w lit = c <$> LmFmt.ofWord w lit) :
    decode (f.words op ++ rest) = checked (f.words op).length (.ok (c f)) := by
  refine decode_base (lit := none) hc ?_ ?_ ?_ rest
  all_goals simp only [LmFmt.ofWord, noLiteral, flag_eq_field, field, fields_of_append, Nat.reduceLeDiff, Nat.reduceSub]
  all_goals rfl

theorem ReqFmt.decode_words (f : ReqFmt) {c : ReqFmt → Instr} (hc : ∀ w lit, decodeBase op.toNat w lit = c <$> ReqFmt.ofWord w lit) :
    decode (f.words op ++ rest) = checked (f.words op).length (.ok (c f)) := by
  refine decode_base hc ?_ ?_ ?_ rest
  all_goals simp only [ReqFmt.ofWord, flag_eq_field, field, fields_of_append, Nat.reduceLeDiff, Nat.reduceSub]

theorem NoneFmt.decode_words (f : NoneFmt) {c : NoneFmt → Instr} (hc : ∀ w lit, decodeBase op.toNat w lit = c <$> NoneFmt.ofWord w lit) :
    decode (f.words op ++ rest) = checked (f.words op).length (.ok (c f)) := by
  refine decode_base (lit := none) hc ?_ ?_ ?_ rest
  all_goals simp only [NoneFmt.ofWord, noLiteral, flag_eq_field, field, fields_of_append, Nat.reduceLeDiff, Nat.reduceSub]
  all_goals rfl

end

/-! ### The extended formats (Table 7.5) -/

section
variable (lit : Option W64) (u neg : Bool) (op rd ra rb : BitVec 7) (minor : BitVec 12) (scope : BitVec 4) (pred : BitVec 3) (low : BitVec 10)

theorem extWord0_fields : let w := extWord0 lit u op rd ra rb
    field w 30 2 = extLen lit ∧ field w 29 1 = bit1 u ∧ field w 22 7 = op ∧ field w 15 7 = rd ∧ field w 8 7 = ra ∧ field w 1 7 = rb ∧
      field w 0 1 = 0#1 := by
  simp only [extWord0, field, fields_of_append, Nat.reduceLeDiff, Nat.reduceSub, and_self]

theorem extWord1_fields : let w := extWord1 minor scope pred neg low
    field w 20 12 = minor ∧ field w 16 4 = scope ∧ field w 14 2 = 0#2 ∧ field w 11 3 = pred ∧ field w 10 1 = bit1 neg := by
  simp only [extWord1, field, fields_of_append, Nat.reduceLeDiff, Nat.reduceSub, and_self]

/-- The low ten bits of word 1 are the format's own. -/
theorem extWord1_low (lo n : Nat) (hlo : lo ≤ 10) (hn : n ≤ 10 - lo) : field (extWord1 minor scope pred neg low) lo n = low.extractLsb' lo n :=
  BitVec.extractLsb'_append_eq_of_add_le (by omega)

/-- An extended instruction: `c` is what OP and MINOR make of its format, whose value its words 0 to 2 hold. -/
theorem decode_ext {α : Type} {c : α → Instr} {ofWords : W32 → W32 → W32 → Option W64 → Except DecodeError α} {w2 : W32} {f : α}
    (hc : ∀ w0 w1 w2 lit, decodeExt op.toNat minor.toNat w0 w1 w2 lit = c <$> ofWords w0 w1 w2 lit)
    (hf : ofWords (extWord0 lit u op rd ra rb) (extWord1 minor scope pred neg low) w2 lit = .ok f) (rest : List W32) :
    let ws := extWord0 lit u op rd ra rb :: extWord1 minor scope pred neg low :: w2 :: litWords lit
    decode (ws ++ rest) = checked ws.length (.ok (c f)) := by
  obtain ⟨hlen, -, hop, -⟩ := extWord0_fields lit u op rd ra rb
  obtain ⟨hminor, -⟩ := extWord1_fields neg minor scope pred low
  have hx := (hc (extWord0 lit u op rd ra rb) (extWord1 minor scope pred neg low) w2 lit).trans (congrArg (c <$> ·) hf)
  cases lit with
  | none =>
    have hl : (field (extWord0 none u op rd ra rb) 30 2).toNat = 2 := congrArg BitVec.toNat hlen
    simp only [litWords, List.cons_append, decode, hl, hop, hminor, hx]
    rfl
  | some v =>
    have hl : (field (extWord0 (some v) u op rd ra rb) 30 2).toNat = 3 := congrArg BitVec.toNat hlen
    simp only [litWords, List.cons_append, decode, hl, hop, hminor, literal_halves, hx]
    rfl

end

section
variable {op : BitVec 7} {minor : BitVec 12} (rest : List W32)

theorem VecFmt.decode_words (f : VecFmt) {c : VecFmt → Instr}
    (hc : ∀ w0 w1 w2 lit, decodeExt op.toNat (0#12).toNat w0 w1 w2 lit = c <$> VecFmt.ofWords w0 w1 w2 lit) :
    decode (f.words op ++ rest) = checked (f.words op).length (.ok (c f)) := by
  refine decode_ext (hc := hc) (rest := rest) (hf := ?_) ..
  simp only [VecFmt.ofWords, flag_eq_field, extWord0_fields, extWord1_fields, extWord1_low, Nat.reduceSub, Nat.reduceLeDiff]
  simp only [field, fields_of_append, Nat.reduceLeDiff, Nat.reduceSub]
  rfl

theorem MatFmt.decode_words (f : MatFmt) {c : MatFmt → Instr}
    (hc : ∀ w0 w1 w2 lit, decodeExt op.toNat (0#12).toNat w0 w1 w2 lit = c <$> MatFmt.ofWords w0 w1 w2 lit) :
    decode (f.words op ++ rest) = checked (f.words op).length (.ok (c f)) := by
  refine decode_ext (hc := hc) (rest := rest) (hf := ?_) ..
  simp only [MatFmt.ofWords, flag_eq_field, extWord0_fields, extWord1_fields, extWord1_low, Nat.reduceSub, Nat.reduceLeDiff]
  simp only [field, fields_of_append, Nat.reduceLeDiff, Nat.reduceSub]
  rfl

theorem CopyFmt.decode_words (f : CopyFmt) {c : CopyFmt → Instr}
    (hc : ∀ w0 w1 w2 lit, decodeExt op.toNat minor.toNat w0 w1 w2 lit = c <$> CopyFmt.ofWords w0 w1 w2 lit) :
    decode (f.words op minor ++ rest) = checked (f.words op minor).length (.ok (c f)) := by
  refine decode_ext (hc := hc) (rest := rest) (hf := ?_) ..
  simp only [CopyFmt.ofWords, flag_eq_field, extWord0_fields, extWord1_fields, extWord1_low, Nat.reduceSub, Nat.reduceLeDiff]
  simp only [field, fields_of_append, Nat.reduceLeDiff, Nat.reduceSub]
  rfl

theorem LayFmt.decode_words (f : LayFmt) {c : LayFmt → Instr}
    (hc : ∀ w0 w1 w2 lit, decodeExt op.toNat minor.toNat w0 w1 w2 lit = c <$> LayFmt.ofWords w0 w1 w2 lit) :
    decode (f.words op minor ++ rest) = checked (f.words op minor).length (.ok (c f)) := by
  refine decode_ext (hc := hc) (rest := rest) (hf := ?_) ..
  simp only [LayFmt.ofWords, flag_eq_field, extWord0_fields, extWord1_fields, extWord1_low, Nat.reduceSub, Nat.reduceLeDiff]
  simp only [field, fields_of_append, Nat.reduceLeDiff, Nat.reduceSub]
  rfl

theorem ColFmt.decode_words (f : ColFmt) {c : ColFmt → Instr}
    (hc : ∀ w0 w1 w2 lit, decodeExt op.toNat (0#12).toNat w0 w1 w2 lit = c <$> ColFmt.ofWords w0 w1 w2 lit) :
    decode (f.words op ++ rest) = checked (f.words op).length (.ok (c f)) := by
  refine decode_ext (hc := hc) (rest := rest) (hf := ?_) ..
  simp only [ColFmt.ofWords, flag_eq_field, extWord0_fields, extWord1_fields, extWord1_low, Nat.reduceSub, Nat.reduceLeDiff]
  simp only [field, fields_of_append, Nat.reduceLeDiff, Nat.reduceSub]
  rfl

end

/-! ### Every instruction with an encoding (Tables 7.6 and 7.7) -/

/-- A row of the machine is an event, or has words which, whatever follows them, are read as it and nothing else; its checks then decide. -/
theorem decode_encode (i : Instr) :
    i.check = some .event ∨ ∃ ws, encode i = some ws ∧ ∀ rest, decode (ws ++ rest) = checked ws.length (.ok i) := by
  cases i with
  | add f | sub f | mul f | mulh f | mulhu f | div f | divu f | rem f | remu f | and f | or f | xor f | andn f | shl f | shr f | sar f | rol f
  | min f | max f | minu f | maxu f | clz f | ctz f | popc f | addi f | andi f | ori f | xori f | shli f | shri f | sari f | movi f | mov f
  | cmpeq f | cmpne f | cmplt f | cmpltu f | cmple f | cmpleu f | cmov f | fadd f | fsub f | fmul f | fdiv f | fma f | fsqrt f | fmin f | fmax f
  | fcmpeq f | fcmplt f | fcmple f | fcvt f | ftoi f | itof f | fabs f | fneg f | br f | call f | callr f | jmpr f | ret f | loop f | rep f | blk f
  | spawn f | callat f | fork f | join f | cancel f | cancelu f | tstb f | ldGlobal f | ldsGlobal f | stGlobal f | ldLocal f | ldsLocal f
  | stLocal f | ldFe f | stEf f | amoAdd f | amoAnd f | amoOr f | amoXor f | amoMin f | amoMax f | amoMinu f | amoMaxu f | amoSwap f | amoCas f
  | mkobj f | rmobj f | qpushT f | qpopT f | ldtag f | ctrAdd f | ctrTake f | ctrWait f | barArrive f | barSync f | barWait f | barJoin f
  | barWdraw f | lkAcq f | lkTry f | lkRel f | qpush f | qpop f | cndWait f | cndSignal f | cndBcast f | sysr f | sysw f | start f | reap f
  | pair f | trap f | rett f | nop f =>
    exact .inr ⟨_, rfl, fun rest => f.decode_words rest fun _ _ => rfl⟩
  | vadd f | vsub f | vmul f | vfma f | vdiv f | vsqrt f | vmin f | vmax f | vabs f | vneg f | vrcp f | vrsq f | vexp2 f | vlog2 f | vadds f
  | vsubs f | vand f | vor f | vxor f | vshl f | vshr f | vsar f | vcmpeq f | vcmplt f | vcmple f | vsel f | vshuf f | vbcast f | vmov f | vcvt f
  | vqmx f | vqb4 f | vredsum f | vredmin f | vredmax f | vredmSum f | vredmMean f | mzero f | mma f | mmaS f | mdrain f | copy f | copyStr f
  | copyGth f | copySct f | copyTrg f | copyStrTrg f | copyGthTrg f | copySctTrg f | prefTier f | layout f | layoutAb f | collOpen f | collPut f
  | collGet f | collMark f =>
    exact .inr ⟨_, rfl, fun rest => f.decode_words rest fun _ _ _ _ => rfl⟩
  | _ => exact .inl rfl

theorem Instr.check_of_wellFormed {i : Instr} (h : i.wellFormed = true) : i.check = none := Option.isNone_iff_eq_none.1 h

theorem checked_of_wellFormed {i : Instr} (n : Nat) (h : i.wellFormed = true) : checked n (.ok i) = .ok (i, n) := by
  simp only [checked, Instr.check_of_wellFormed h]

/-! ### What the decoder answers -/

theorem checked_ok {n m : Nat} {x : Except DecodeError Instr} {i : Instr} (h : checked n x = .ok (i, m)) : i.wellFormed = true ∧ m = n := by
  cases x with
  | error e => exact nomatch h
  | ok j =>
    cases hj : j.check with
    | some e => simp only [checked, hj, reduceCtorEq] at h
    | none =>
      simp only [checked, hj] at h
      cases h
      exact ⟨Option.isNone_iff_eq_none.2 hj, rfl⟩

theorem decode_ok {ws : List W32} {i : Instr} {n : Nat} (h : decode ws = .ok (i, n)) : i.wellFormed = true ∧ n ≤ ws.length := by
  unfold decode at h
  split at h
  · exact nomatch h
  · dsimp only at h
    split at h
    case h_5 => exact nomatch h
    all_goals
      obtain ⟨hi, rfl⟩ := checked_ok h
      exact ⟨hi, by simp⟩

/-- Settles O56: an instruction's words decode to it (`decode_encode`) and its checks pass; what the decoder answers has passed them (`decode_ok`). -/
theorem encodeDecode : Obligations.EncodeDecode := by
  unfold Obligations.EncodeDecode
  refine ⟨fun i rest h => ?_, fun ws i n h => decode_ok h⟩
  obtain hevent | ⟨ws, hws, hread⟩ := decode_encode i
  · exact nomatch hevent.symm.trans (Instr.check_of_wellFormed h)
  · exact ⟨ws, hws, (hread rest).trans (checked_of_wellFormed _ h)⟩

/-! ### Words of the tables -/

/-- Settles O57: each word is closed, so the decoder runs on it; it reads the fields of Tables 7.1 to 7.7 or names the reason of R391. -/
theorem specWords : Obligations.SpecWords := by
  unfold Obligations.SpecWords
  and_intros <;> rfl

end Sys2Proof
end

section
/-!
SUPPORT. Words as their fields side by side: what a mask keeps of a word, and the SYS registers that are made of fields (spec/07 Tables 7.9, 7.10 and
7.16; spec/03 Table 3.2; spec/19 Table 19.2).
-/

namespace Sys2Proof.Machine

open Sys2Proof

/-! ### Masks -/

theorem zeroExtend_eq_append {m n : Nat} (x : BitVec n) : x.zeroExtend (m + n) = 0#m ++ x := by
  refine BitVec.eq_of_toNat_eq ?_
  rw [toNat_append_add, BitVec.toNat_setWidth, Nat.mod_eq_of_lt (x.isLt.trans_le (Nat.pow_le_pow_right (by decide) (Nat.le_add_left n m)))]
  simp

theorem zeroExtend_and_high {m n : Nat} (x : BitVec n) (y : BitVec m) : x.zeroExtend (m + n) &&& (y ++ 0#n) = 0 := by
  rw [zeroExtend_eq_append, BitVec.and_append, BitVec.zero_and, BitVec.and_zero]
  exact BitVec.zero_append_zero

theorem and_lowMask (v : W64) {k : Nat} (hk : k ≤ 64) : v &&& BitVec.ofNat 64 (2 ^ k - 1) = (v.extractLsb' 0 k).zeroExtend 64 := by
  refine BitVec.eq_of_toNat_eq ?_
  have hpow : 2 ^ k ≤ 2 ^ 64 := Nat.pow_le_pow_right (by decide) hk
  have hmask : (2 ^ k - 1) % 2 ^ 64 = 2 ^ k - 1 := Nat.mod_eq_of_lt (by have := Nat.two_pow_pos k; omega)
  have hlow : v.toNat % 2 ^ k < 2 ^ 64 := (Nat.mod_lt _ (Nat.two_pow_pos k)).trans_le hpow
  rw [BitVec.toNat_and, BitVec.toNat_ofNat, hmask, Nat.and_two_pow_sub_one_eq_mod, BitVec.toNat_setWidth, BitVec.extractLsb'_toNat,
    Nat.shiftRight_zero, Nat.mod_eq_of_lt hlow]

theorem wordOfNat_slice_low (v : W64) {hi : Nat} (h : hi < 64) : wordOfNat (slice v hi 0) = v &&& BitVec.ofNat 64 (2 ^ (hi + 1) - 1) := by
  rw [slice_eq, wordOfNat_toNat]
  exact (and_lowMask v h).symm

/-! ### `STATUS` and `PREDS` (Tables 7.9 and 7.10) -/

theorem Ctx.statusWord_eq (c : Ctx) : c.statusWord = c.flags.zeroExtend 64 ||| (if c.inh then 0x100#64 else 0#64) := by
  unfold Ctx.statusWord
  generalize c.flags = flags, c.inh = inh
  revert flags inh
  decide

/-- A write sets FLAGS alone: INH stays (R182). -/
theorem Ctx.statusWord_setFlags (c : Ctx) (v : W64) :
    { c with flags := v.extractLsb' 0 5 }.statusWord = (c.statusWord &&& 0x100#64) ||| (v &&& 0x1F#64) := by
  have hinh : c.statusWord &&& 0x100#64 = if c.inh then 0x100#64 else 0#64 := by
    have hflags : c.flags.zeroExtend 64 &&& 0x100#64 = 0 := zeroExtend_and_high c.flags 8#59
    rw [Ctx.statusWord_eq, BitVec.and_or_distrib_right, hflags]
    cases c.inh <;> rfl
  have hflags : v &&& 0x1F#64 = (v.extractLsb' 0 5).zeroExtend 64 := and_lowMask v (k := 5) (by decide)
  rw [hinh, hflags, Ctx.statusWord_eq, BitVec.or_comm]

theorem Ctx.predsWord_eq (c : Ctx) : c.predsWord = (c.preds ||| 1#8).zeroExtend 64 := by
  unfold Ctx.predsWord
  generalize c.preds = preds
  revert preds
  decide

theorem Ctx.predsWord_setPreds (c : Ctx) (v : W64) :
    { c with preds := v.extractLsb' 0 8 &&& 0xFE#8 }.predsWord = (v &&& 0xFE#64) ||| 1#64 := by
  have hbyte : v &&& 0xFF#64 = (v.extractLsb' 0 8).zeroExtend 64 := and_lowMask v (k := 8) (by decide)
  have hlow : (v.extractLsb' 0 8 &&& 0xFE#8).zeroExtend 64 = v &&& 0xFE#64 := by
    refine BitVec.setWidth_and.trans ?_
    rw [← BitVec.zeroExtend, ← hbyte, BitVec.and_assoc]
    rfl
  rw [Ctx.predsWord_eq, ← hlow]
  exact BitVec.setWidth_or

/-! ### `XSEL` (Table 7.16) -/

theorem Core.xsel_eq (k : Core) : k.xsel =
    (if k.xerr then 0x20000#64 else 0#64) ||| (if k.xempty then 0x10000#64 else 0#64) ||| (k.xclass ++ k.xnum).zeroExtend 64 := by
  have herr : (if k.xerr then 0x20000#64 else 0#64) = (0#46 ++ BitVec.ofBool k.xerr ++ 0#1 ++ 0#6 ++ 0#10 : W64) := by cases k.xerr <;> rfl
  have hempty : (if k.xempty then 0x10000#64 else 0#64) = (0#46 ++ 0#1 ++ BitVec.ofBool k.xempty ++ 0#6 ++ 0#10 : W64) := by cases k.xempty <;> rfl
  have hnum : (k.xclass ++ k.xnum).zeroExtend 64 = (0#46 ++ 0#1 ++ 0#1 ++ 0#6 ++ (k.xclass ++ k.xnum) : W64) :=
    zeroExtend_eq_append (m := 54) (k.xclass ++ k.xnum)
  have hsel : k.xsel = (0#46 ++ BitVec.ofBool k.xerr ++ BitVec.ofBool k.xempty ++ 0#6 ++ (k.xclass ++ k.xnum) : W64) := by
    refine BitVec.eq_of_toNat_eq ?_
    simp only [Core.xsel, wordOfNat, toNat_append_add, BitVec.toNat_ofNat]
    cases k.xerr <;> cases k.xempty <;> simp [bitAt] <;> omega
  rw [hsel, herr, hempty, hnum, BitVec.or_append, BitVec.or_append, BitVec.or_append, BitVec.or_append, BitVec.or_append, BitVec.or_append,
    BitVec.or_append, BitVec.or_append]
  simp only [BitVec.zero_or, BitVec.or_zero]

/-- A write sets CLASS and NUM: ERR and EMPTY stay (R183). -/
theorem Core.xsel_select (k : Core) (v : W64) :
    { k with xclass := v.extractLsb' 8 2, xnum := v.extractLsb' 0 8 }.xsel = (k.xsel &&& 0x30000#64) ||| (v &&& 0x3FF#64) := by
  have hmarks : k.xsel &&& 0x30000#64 = (if k.xerr then 0x20000#64 else 0#64) ||| (if k.xempty then 0x10000#64 else 0#64) := by
    have hnum : (k.xclass ++ k.xnum).zeroExtend 64 &&& 0x30000#64 = 0 := zeroExtend_and_high (k.xclass ++ k.xnum) 0xC0#54
    rw [Core.xsel_eq, BitVec.and_or_distrib_right, hnum]
    cases k.xerr <;> cases k.xempty <;> rfl
  have hnew : v.extractLsb' 8 2 ++ v.extractLsb' 0 8 = v.extractLsb' 0 10 := BitVec.extractLsb'_append_extractLsb'_eq_extractLsb' rfl
  have hlow : v &&& 0x3FF#64 = (v.extractLsb' 0 10).zeroExtend 64 := and_lowMask v (k := 10) (by decide)
  rw [hmarks, hlow, ← hnew, Core.xsel_eq]

/-! ### Pointers and `TRAPCAUSE` (Tables 3.2 and 19.2) -/

theorem pointerBits_eq (v : W64) : pointerBits v = v &&& 0xE000FFFF0003FFFF#64 := by
  have hv : v = (v.extractLsb' 61 3 ++ v.extractLsb' 48 13 ++ v.extractLsb' 32 16 ++ v.extractLsb' 18 14 ++ v.extractLsb' 0 18 : W64) := by
    refine BitVec.eq_of_toNat_eq ?_
    have h := v.isLt
    simp only [toNat_append_add, BitVec.extractLsb'_toNat, Nat.shiftRight_eq_div_pow]
    omega
  have hmask : 0xE000FFFF0003FFFF#64 = (BitVec.allOnes 3 ++ 0#13 ++ BitVec.allOnes 16 ++ 0#14 ++ BitVec.allOnes 18 : W64) := rfl
  have hbits : pointerBits v = (v.extractLsb' 61 3 ++ 0#13 ++ v.extractLsb' 32 16 ++ 0#14 ++ v.extractLsb' 0 18 : W64) := by
    refine BitVec.eq_of_toNat_eq ?_
    simp only [pointerBits, wordOfNat, slice, toNat_append_add, BitVec.toNat_ofNat, BitVec.extractLsb'_toNat, Nat.shiftRight_eq_div_pow]
    omega
  conv_rhs => rw [hv, hmask]
  rw [hbits, BitVec.and_append, BitVec.and_append, BitVec.and_append, BitVec.and_append]
  simp only [BitVec.and_allOnes, BitVec.and_zero]

theorem trapCauseBits_eq (v : W64) : trapCauseBits v = v &&& 0xFFFFFFFFFE00FFFF#64 := by
  have hv : v = (v.extractLsb' 25 39 ++ v.extractLsb' 16 9 ++ v.extractLsb' 0 16 : W64) := by
    refine BitVec.eq_of_toNat_eq ?_
    have h := v.isLt
    simp only [toNat_append_add, BitVec.extractLsb'_toNat, Nat.shiftRight_eq_div_pow]
    omega
  have hmask : 0xFFFFFFFFFE00FFFF#64 = (BitVec.allOnes 39 ++ 0#9 ++ BitVec.allOnes 16 : W64) := rfl
  have hbits : trapCauseBits v = (v.extractLsb' 25 39 ++ 0#9 ++ v.extractLsb' 0 16 : W64) := by
    refine BitVec.eq_of_toNat_eq ?_
    simp only [trapCauseBits, wordOfNat, slice, toNat_append_add, BitVec.toNat_ofNat, BitVec.extractLsb'_toNat, Nat.shiftRight_eq_div_pow]
    omega
  conv_rhs => rw [hv, hmask]
  rw [hbits, BitVec.and_append, BitVec.and_append]
  simp only [BitVec.and_allOnes, BitVec.and_zero]

end Sys2Proof.Machine
end

section
/-!
SUPPORT. SYSR, SYSW and `XVAL` (spec/07 R181-R184; spec/08 R211): what each SYS register reads, what a write leaves in it and in the others, and the
registers of a Stopped context.
-/

namespace Sys2Proof.Machine

open Sys2Proof

/-! ### The instructions -/

theorem State.chkSys_ok {s : State} {n : Nat} (h : isCtx0 s.gid = true ∨ sysPrivileged n = false) : s.chkSys n = .ok := by
  rcases h with h | h <;> simp [State.chkSys, h]

theorem State.chkSys_trap {s : State} {n : Nat} (h0 : isCtx0 s.gid = false) (hn : sysPrivileged n = true) : s.chkSys n = .trap 0x06 s.word0 := by
  simp [State.chkSys, h0, hn]

theorem exec_sysr_ok {s : State} {f : ImmFmt} (hu : s.usable [f.d] = true) (hn : isCtx0 s.gid = true ∨ sysPrivileged f.imm.toNat = false) :
    exec (.sysr f) s = .next
      (if f.imm.toNat = 0x32 then (s.xvalRead.2.writeReg f.d s.xvalRead.1).next else (s.writeReg f.d (s.sysRead s.gid f.imm.toNat)).next) := by
  have hchecks : ∀ c ∈ [s.chkAllot (nums [f.d]), s.chkSys f.imm.toNat, s.chkDest (nums [f.d])], c = .ok := by
    simp only [List.forall_mem_cons, List.not_mem_nil, false_imp_iff, implies_true, and_true]
    exact ⟨State.chkAllot_ok hu fun _ m => m, State.chkSys_ok hn, State.chkDest_ok hu fun _ m => m⟩
  show execSysr f s = _
  unfold execSysr
  exact State.perform_ok hchecks

theorem exec_sysr_trap {s : State} {f : ImmFmt} (hu : s.usable [f.d] = true) (h0 : isCtx0 s.gid = false) (hn : sysPrivileged f.imm.toNat = true) :
    exec (.sysr f) s = .next (s.raise 0x06 s.word0) := by
  show execSysr f s = _
  unfold execSysr
  refine State.perform_trap ?_
  rw [State.chkAllot_ok hu fun _ m => m, State.chkSys_trap h0 hn]
  rfl

theorem exec_sysw_ok {s : State} {f : ImmFmt} (hu : s.usable [f.a] = true) (hn : isCtx0 s.gid = true ∨ sysPrivileged f.imm.toNat = false) :
    exec (.sysw f) s = .next (if f.imm.toNat = 0x32 then s.xvalWrite (s.reg f.a) else s.sysWrite s.gid f.imm.toNat (s.reg f.a)).next := by
  have hchecks : ∀ c ∈ [s.chkAllot (nums [f.a]), s.chkSys f.imm.toNat, s.chkFull (nums [f.a])], c = .ok := by
    simp only [List.forall_mem_cons, List.not_mem_nil, false_imp_iff, implies_true, and_true]
    exact ⟨State.chkAllot_ok hu fun _ m => m, State.chkSys_ok hn, State.chkFull_ok hu fun _ m => m⟩
  show execSysw f s = _
  unfold execSysw
  exact State.perform_ok hchecks

theorem exec_sysw_trap {s : State} {f : ImmFmt} (hu : s.usable [f.a] = true) (h0 : isCtx0 s.gid = false) (hn : sysPrivileged f.imm.toNat = true) :
    exec (.sysw f) s = .next (s.raise 0x06 s.word0) := by
  show execSysw f s = _
  unfold execSysw
  refine State.perform_trap ?_
  rw [State.chkAllot_ok hu fun _ m => m, State.chkSys_trap h0 hn]
  rfl

theorem exec_xvalRead_ok {s : State} {d : BitVec 7} (hu : s.usable [d] = true) :
    exec (.xvalRead d) s = .next (s.xvalRead.2.writeReg d s.xvalRead.1).next := by
  have hchecks : ∀ c ∈ [s.chkAllot (nums [d]), s.chkDest (nums [d])], c = .ok := by
    simp only [List.forall_mem_cons, List.not_mem_nil, false_imp_iff, implies_true, and_true]
    exact ⟨State.chkAllot_ok hu fun _ m => m, State.chkDest_ok hu fun _ m => m⟩
  show execXvalRead d s = _
  unfold execXvalRead
  exact State.perform_ok hchecks

/-! ### Reads (Table 7.9) -/

/-- Settles O14: a register of Table 7.9 reads as its fields give it; the access check decides the trap. -/
theorem sysRegisterReads : Obligations.SysRegisterReads := by
  unfold Obligations.SysRegisterReads
  intro f s hu n c k core hidden
  refine ⟨fun h0 hn => exec_sysr_trap hu h0 hn, fun hn => ?_⟩
  have read {m : Nat} {v : W64} (hv : s.sysRead s.gid m = v) (hm : m ≠ 0x32 := by decide) (e : m = n) :
      exec (.sysr f) s = .next (s.writeReg f.d v).next := by
    subst e hv
    rw [exec_sysr_ok hu hn, if_neg hm]
  simp only [List.forall_mem_cons, List.not_mem_nil, false_imp_iff, implies_true, and_true]
  exact ⟨read c.statusWord_eq, read rfl, read rfl, read rfl, read rfl, read rfl, read rfl, read rfl, read rfl, read rfl, read rfl,
    read (wordOfNat_toNat _), read (wordOfNat_toNat _), read rfl, read rfl, read rfl, read rfl,
    read (wordOfNat_toNat _), read (wordOfNat_toNat _), read (wordOfNat_toNat _), read (wordOfNat_toNat _),
    read (wordOfNat_toNat _), read (wordOfNat_toNat _), read (wordOfNat_toNat _), read (wordOfNat_toNat _),
    read rfl, read rfl, read rfl, read rfl, read rfl, read rfl, read rfl, read rfl,
    read c.predsWord_eq, read (wordOfNat_toNat _), read k.xsel_eq⟩

/-! ### Writes (Table 7.9) -/

/-- What a register that held `old` holds once `v` has been written to it: its writable bits are those of `v`. -/
def sysWritten (n : Nat) (old v : W64) : W64 :=
  if n = 0x00 then (old &&& 0x100#64) ||| (v &&& 0x1F#64)
  else if n = 0x0A then v &&& 0xFFFFFFFFFE00FFFF#64
  else if n = 0x01 ∨ (0x08 ≤ n ∧ n ≤ 0x0D) then v
  else if 0x20 ≤ n ∧ n ≤ 0x27 then v &&& 0xE000FFFF0003FFFF#64
  else if n = 0x28 then (v &&& 0xFE#64) ||| 1#64
  else if n = 0x30 then v &&& 0xF#64
  else if n = 0x31 then (old &&& 0x30000#64) ||| (v &&& 0x3FF#64)
  else old

theorem State.ctx_updCtx_same {s : State} (h : s.Canon) (g : Nat) (f : Ctx → Ctx) : (s.updCtx g f).ctx g = f (s.ctx g) :=
  (State.ctx_updCtx h g f g).trans (if_pos rfl)

theorem State.core_updCore_same {s : State} (h : s.Canon) (c : Nat) (f : Core → Core) : (s.updCore c f).core c = f (s.core c) :=
  (State.core_updCore h c f c).trans (if_pos rfl)

/-- A context after a write of `v` to its SYS register `n`. -/
def Ctx.sysSet (c : Ctx) (n : Nat) (v : W64) : Ctx :=
  { c with
    flags := if n = 0x00 then v.extractLsb' 0 5 else c.flags
    link := if n = 0x01 then v else c.link
    ptrs := if 0x20 ≤ n ∧ n ≤ 0x27 then c.ptrs.set ((n - 0x20) % 8) (pointerBits v) else c.ptrs
    preds := if n = 0x28 then v.extractLsb' 0 8 &&& 0xFE#8 else c.preds }

/-- A core after a write of `v` to SYS register `n` of one of its contexts. -/
def Core.sysSet (k : Core) (n : Nat) (v : W64) : Core :=
  { k with
    handler := if n = 0x08 then v else k.handler
    trapPc := if n = 0x09 then v else k.trapPc
    trapCause := if n = 0x0A then trapCauseBits v else k.trapCause
    trapAddr := if n = 0x0B then v else k.trapAddr
    trapOrig := if n = 0x0C then v else k.trapOrig
    trapIter := if n = 0x0D then v else k.trapIter
    xctx := if n = 0x30 then v.extractLsb' 0 4 else k.xctx
    xclass := if n = 0x31 then v.extractLsb' 8 2 else k.xclass
    xnum := if n = 0x31 then v.extractLsb' 0 8 else k.xnum }

/-- A write reaches the context, its core, or nothing. -/
theorem State.sysWrite_cases (s : State) (g n : Nat) (v : W64) :
    (∃ f, s.sysWrite g n v = s.updCtx g f) ∨ (∃ f, s.sysWrite g n v = s.updCore (coreOf g) f) ∨ s.sysWrite g n v = s := by
  unfold State.sysWrite
  split
  all_goals first | exact .inl ⟨_, rfl⟩ | exact .inr (.inl ⟨_, rfl⟩) | exact .inr (.inr rfl)

theorem State.sysWrite_frame {s : State} (h : s.Canon) (g n : Nat) (v : W64) :
    (∀ k, k ≠ g → (s.sysWrite g n v).ctx k = s.ctx k) ∧ (∀ k, k ≠ coreOf g → (s.sysWrite g n v).core k = s.core k) ∧
      (s.sysWrite g n v).cpu.regs = s.cpu.regs ∧ (s.sysWrite g n v).cpu.regEmpty = s.cpu.regEmpty ∧ (s.sysWrite g n v).mem = s.mem ∧
      (s.sysWrite g n v).sched = s.sched := by
  obtain ⟨f, hf⟩ | ⟨f, hf⟩ | hf := s.sysWrite_cases g n v
  · rw [hf]
    exact ⟨fun k hk => (State.ctx_updCtx h g f k).trans (if_neg hk), fun _ _ => rfl, rfl, rfl, rfl, rfl⟩
  · rw [hf]
    exact ⟨fun _ _ => rfl, fun k hk => (State.core_updCore h _ f k).trans (if_neg hk), rfl, rfl, rfl, rfl⟩
  · rw [hf]
    exact ⟨fun _ _ => rfl, fun _ _ => rfl, rfl, rfl, rfl, rfl⟩

/-- What the context and its core hold after the write. -/
theorem State.sysWrite_set {s : State} (h : s.Canon) (g n : Nat) (v : W64) :
    (s.sysWrite g n v).ctx g = (s.ctx g).sysSet n v ∧ (s.sysWrite g n v).core (coreOf g) = (s.core (coreOf g)).sysSet n v := by
  unfold State.sysWrite
  split
  case h_20 =>
    simp only [imp_false] at *
    have hptr : ¬(0x20 ≤ n ∧ n ≤ 0x27) := by omega
    simp [Ctx.sysSet, Core.sysSet, *]
  all_goals first
    | exact ⟨State.ctx_updCtx_same h g _, rfl⟩
    | exact ⟨rfl, State.core_updCore_same h _ _⟩

theorem Ctx.statusWord_sysSet (c : Ctx) (n : Nat) (v : W64) :
    (c.sysSet n v).statusWord = if n = 0x00 then (c.statusWord &&& 0x100#64) ||| (v &&& 0x1F#64) else c.statusWord := by
  split
  · next e => subst e; exact c.statusWord_setFlags v
  · next e => simp only [Ctx.statusWord, Ctx.sysSet, if_neg e]

theorem Ctx.predsWord_sysSet (c : Ctx) (n : Nat) (v : W64) :
    (c.sysSet n v).predsWord = if n = 0x28 then (v &&& 0xFE#64) ||| 1#64 else c.predsWord := by
  split
  · next e => subst e; exact c.predsWord_setPreds v
  · next e => simp only [Ctx.predsWord, Ctx.sysSet, if_neg e]

theorem Ctx.ptrAt_sysSet (c : Ctx) (n : Nat) (v : W64) {k : Nat} (hk : k < 8) :
    (c.sysSet n v).ptrAt k = if n = 0x20 + k then v &&& 0xE000FFFF0003FFFF#64 else c.ptrAt k := by
  rw [← pointerBits_eq]
  by_cases hn : 0x20 ≤ n ∧ n ≤ 0x27
  · have hset : (c.sysSet n v).ptrs = c.ptrs.set ((n - 0x20) % 8) (pointerBits v) := if_pos hn
    have hk : (n - 0x20) % 8 = k % 8 ↔ n = 0x20 + k := by omega
    simp only [Ctx.ptrAt, hset, Vector.getElem_set, hk]
  · have hset : (c.sysSet n v).ptrs = c.ptrs := if_neg hn
    simp only [Ctx.ptrAt, hset]
    rw [if_neg (by omega)]

theorem Core.xsel_sysSet (k : Core) (n : Nat) (v : W64) :
    (k.sysSet n v).xsel = if n = 0x31 then (k.xsel &&& 0x30000#64) ||| (v &&& 0x3FF#64) else k.xsel := by
  split
  · next e => subst e; exact k.xsel_select v
  · next e => simp only [Core.xsel, Core.sysSet, if_neg e]

theorem Core.xctx_sysSet (k : Core) (n : Nat) (v : W64) :
    wordOfNat (k.sysSet n v).xctx.toNat = if n = 0x30 then v &&& 0xF#64 else wordOfNat k.xctx.toNat := by
  split
  · next e => subst e; exact (wordOfNat_toNat _).trans (and_lowMask v (k := 4) (by decide)).symm
  · next e => simp only [Core.sysSet, if_neg e]

theorem Core.trapCause_sysSet (k : Core) (n : Nat) (v : W64) :
    (k.sysSet n v).trapCause = if n = 0x0A then v &&& 0xFFFFFFFFFE00FFFF#64 else k.trapCause := by
  rw [← trapCauseBits_eq]
  rfl

/-- A written register reads as written, and every other register of the context as before (R211). -/
theorem State.sysRead_sysWrite {s : State} (h : s.Canon) (g n m : Nat) (v : W64) :
    (s.sysWrite g n v).sysRead g m = if n = m then sysWritten m (s.sysRead g m) v else s.sysRead g m := by
  obtain ⟨hctx, hcore⟩ := State.sysWrite_set h g n v
  obtain ⟨-, -, -, -, -, hsched⟩ := State.sysWrite_frame h g n v
  have hseen : (s.sysWrite g n v).seenCore g = s.seenCore g := by
    simp only [State.seenCore, hcore]
    rfl
  have hcycles : (s.sysWrite g n v).cyclesOf (coreOf g) = s.cyclesOf (coreOf g) := by
    simp only [State.cyclesOf, hcore, hsched]
    rfl
  simp only [State.sysRead, hctx, hcore, hseen, hcycles]
  split
  case h_37 =>
    simp only [imp_false] at *
    have htrap : ¬(0x08 ≤ m ∧ m ≤ 0x0D) := by omega
    have hptr : ¬(0x20 ≤ m ∧ m ≤ 0x27) := by omega
    simp [sysWritten, *]
  case h_1 => exact Ctx.statusWord_sysSet _ n v
  case h_8 => exact Core.trapCause_sysSet _ n v
  case h_26 | h_27 | h_28 | h_29 | h_30 | h_31 | h_32 | h_33 => exact Ctx.ptrAt_sysSet _ n v (by decide)
  case h_34 => exact Ctx.predsWord_sysSet _ n v
  case h_35 => exact Core.xctx_sysSet _ n v
  case h_36 => exact Core.xsel_sysSet _ n v
  case h_2 | h_6 | h_7 | h_9 | h_10 | h_11 => rfl
  all_goals exact (ite_self _).symm

/-- Settles O15: `sysRead_sysWrite` is what reads back, `sysWrite_frame` what stays; the access check decides the trap. -/
theorem sysRegisterWrites : Obligations.SysRegisterWrites := by
  unfold Obligations.SysRegisterWrites
  intro f s hcanon hu n v old hidden
  have hs : s.Canon := State.canonical_iff.mp hcanon
  refine ⟨fun h0 hn => exec_sysw_trap hu h0 hn, fun hn hx => ⟨s.sysWrite s.gid n v, ?_, fun m => ?_, State.sysWrite_frame hs s.gid n v⟩⟩
  · rw [exec_sysw_ok hu hn, if_neg hx]
  · rw [State.sysRead_sysWrite hs]
    by_cases hm : m = n
    · subst hm
      rw [if_pos rfl, if_neg (not_not.2 rfl)]
      rfl
    · rw [if_neg (Ne.symm hm), if_pos hm]

/-! ### The registers of a Stopped context (R183) -/

theorem State.xrefused_iff (s : State) : s.xrefused = true ↔
    (s.core s.here).xctx = 0 ∨ (s.ctx s.xtarget).mode ≠ .stopped ∨
      ((s.core s.here).xclass = 0 ∧ (s.ctx s.xtarget).count ≤ (s.core s.here).xnum.toNat) ∨
      ((s.core s.here).xclass = 1 ∧ 7 < (s.core s.here).xnum.toNat) ∨
      ((s.core s.here).xclass = 3 ∧ (sysAssigned (s.core s.here).xnum.toNat = false ∨ sysPrivileged (s.core s.here).xnum.toNat = true)) := by
  simp only [State.xrefused]
  generalize (s.core s.here).xclass = cls
  obtain rfl | rfl | rfl | rfl : cls = 0 ∨ cls = 1 ∨ cls = 2 ∨ cls = 3 := by revert cls; decide
  all_goals simp [or_assoc]

theorem State.xvalRead_refused {s : State} (h : s.xrefused = true) : s.xvalRead = (0, s.xflags true false) := if_pos h

theorem State.xvalWrite_refused {s : State} (v : W64)
    (h : s.xrefused = true ∨ ((s.core s.here).xclass = 0 ∧ s.emptyAt s.xtarget (s.core s.here).xnum.toNat = true)) :
    s.xvalWrite v = s.xflags true false := by
  obtain h | ⟨hc, he⟩ := h
  · simp only [State.xvalWrite, h, Bool.true_or, if_true]
  · simp only [State.xvalWrite, hc, he]
    simp

section
variable {s : State} (h : ¬s.xrefused = true)
include h

theorem State.xvalRead_scalar (hc : (s.core s.here).xclass = 0) : s.xvalRead =
    (s.regAt s.xtarget (s.core s.here).xnum.toNat, s.xflags false (s.emptyAt s.xtarget (s.core s.here).xnum.toNat)) := by
  simp only [State.xvalRead, if_neg h, hc]
  rfl

theorem State.xvalRead_pointer (hc : (s.core s.here).xclass = 1) :
    s.xvalRead = ((s.ctx s.xtarget).ptrAt (s.core s.here).xnum.toNat, s.xflags false false) := by
  simp only [State.xvalRead, if_neg h, hc]
  rfl

theorem State.xvalRead_preds (hc : (s.core s.here).xclass = 2) : s.xvalRead = ((s.ctx s.xtarget).predsWord, s.xflags false false) := by
  simp only [State.xvalRead, if_neg h, hc]
  rfl

theorem State.xvalRead_sys (hc : (s.core s.here).xclass = 3) :
    s.xvalRead = (s.sysRead s.xtarget (s.core s.here).xnum.toNat, s.xflags false false) := by
  simp only [State.xvalRead, if_neg h, hc]
  rfl

variable (v : W64)

theorem State.xvalWrite_scalar (hc : (s.core s.here).xclass = 0) (he : s.emptyAt s.xtarget (s.core s.here).xnum.toNat = false) :
    s.xvalWrite v = (s.setRegAt s.xtarget (s.core s.here).xnum.toNat v).xflags false false := by
  simp only [State.xvalWrite, h, hc, he]
  rfl

theorem State.xvalWrite_pointer (hc : (s.core s.here).xclass = 1) :
    s.xvalWrite v = (s.sysWrite s.xtarget (0x20 + (s.core s.here).xnum.toNat) v).xflags false false := by
  simp only [State.xvalWrite, h, hc]
  rfl

theorem State.xvalWrite_preds (hc : (s.core s.here).xclass = 2) : s.xvalWrite v = (s.sysWrite s.xtarget 0x28 v).xflags false false := by
  simp only [State.xvalWrite, h, hc]
  rfl

theorem State.xvalWrite_sys (hc : (s.core s.here).xclass = 3) :
    s.xvalWrite v = (s.sysWrite s.xtarget (s.core s.here).xnum.toNat v).xflags false false := by
  simp only [State.xvalWrite, h, hc]
  rfl

end

/-- Settles O16: an access is refused as `xrefused_iff` says, and otherwise reaches the register of its class. -/
theorem throughXval : Obligations.ThroughXval := by
  unfold Obligations.ThroughXval
  intro s d v _ h0 k g n hidden refused flags
  have href : s.xrefused = true ↔ refused := s.xrefused_iff
  have read {t : State} {w : W64} (hu : s.usable [d] = true) (hx : s.xvalRead = (w, t)) : exec (.xvalRead d) s = .next (t.writeReg d w).next := by
    rw [exec_xvalRead_ok hu, hx]
  have write {t : State} (hx : s.xvalWrite v = t) : exec (.xvalWrite v) s = .next t.next := by
    subst hx
    rfl
  have hptr : (s.ctx g).ptr n = (s.ctx g).ptrAt n := by simp [Ctx.ptr, Ctx.ptrAt]
  rw [← href, hptr, ← Ctx.predsWord_eq]
  refine ⟨fun hu => ⟨fun h => read hu (State.xvalRead_refused h), fun h hc => read hu (State.xvalRead_scalar h hc),
      fun h hc => read hu (State.xvalRead_pointer h hc), fun h hc => read hu (State.xvalRead_preds h hc),
      fun h hc => read hu (State.xvalRead_sys h hc)⟩,
    fun h => write (State.xvalWrite_refused v h), fun h hc he => write (State.xvalWrite_scalar h v hc he),
    fun h hc => write (State.xvalWrite_pointer h v hc), fun h hc => write (State.xvalWrite_preds h v hc),
    fun h hc => write (State.xvalWrite_sys h v hc), fun f hf => ?_⟩
  have hn : f.imm.toNat = 0x32 := congrArg BitVec.toNat hf
  refine ⟨fun hu => ?_, fun hu => ?_⟩
  · rw [exec_sysr_ok hu (.inl h0), exec_xvalRead_ok hu, if_pos hn]
  · rw [exec_sysw_ok hu (.inl h0), if_pos hn]
    rfl

end Sys2Proof.Machine
end

section
/-!
SUPPORT. Requests on one word (spec/07 R174; spec/09 R229-R236): the operand and the annotation that the format gives them, and the request that each
instruction sends.
-/

namespace Sys2Proof.Machine

open Sys2Proof

/-! ### The request format in the terms of the statements (R174) -/

/-- The immediate is bits 63:8 of the literal, sign-extended. -/
theorem wordOfInt_litImm (l : W64) : wordOfInt (sext (litImm l) 56) = l.sshiftRight 8 := by
  have hl := l.isLt
  have himm : sext (litImm l) 56 = l.toInt / 2 ^ 8 := by
    simp only [sext, litImm, slice, BitVec.toInt_eq_toNat_cond]
    omega
  rw [himm, BitVec.sshiftRight_eq, Int.shiftRight_eq_div_pow]
  rfl

theorem State.reqOperand_eq (s : State) (f : ReqFmt) :
    s.reqOperand f = if f.l && f.lit.isSome then (f.lit.getD 0).sshiftRight 8 else s.reg f.b := by
  unfold State.reqOperand
  cases f.lit with
  | none => simp
  | some l => cases f.l <;> simp [wordOfInt_litImm]

theorem reqOrd_eq (f : ReqFmt) : reqOrd f = (f.lit.getD 0).extractLsb' 6 2 := by
  unfold reqOrd
  cases f.lit <;> rfl

theorem reqScope_eq (f : ReqFmt) : reqScope f = (f.lit.getD 0).extractLsb' 2 4 := by
  unfold reqScope
  cases f.lit <;> rfl

theorem reqSrc_operand (f : ReqFmt) : reqSrc true f = if f.l then [] else [f.b] := by
  unfold reqSrc
  cases f.l <;> rfl

/-- With FLAGS = 1 the sticky flags join the arrival (R236). -/
theorem State.barOperand_eq (s : State) (f : ReqFmt) : s.barOperand f =
    if (s.reqOperand f).getLsbD 16 then (s.reqOperand f &&& 0x1FFFF#64) ||| s.cur.flags.zeroExtend 64 else s.reqOperand f &&& 0xFFFF#64 := by
  simp only [State.barOperand, wordOfNat_slice_low _ (by decide : 16 < 64), wordOfNat_slice_low _ (by decide : 15 < 64), wordOfNat_toNat]
  rfl

/-! ### The instructions -/

theorem execAmoCas_ok {s : State} {f : ReqFmt} (h : s.usable (f.d :: f.a :: reqSrc true f) = true) (ha : s.goodAddr (s.reg f.a) 8 = true) :
    execAmoCas f s =
      .next (s.issueRequest .cas (s.reg f.a) (s.reqOperand f) (s.reg f.d) (reqOrd f) (reqScope f) (.reg f.d.toNat) none) := by
  unfold execAmoCas
  exact State.perform_ok (State.globalChecks_ok h ha (fun q m => m) (by simp [nums]; tauto) (by simp [nums]))

theorem execMkobj_ok {s : State} {f : ReqFmt} (h : s.usable (f.a :: reqSrc true f) = true)
    (ha : s.goodAddr (s.reg f.a) (if f.d.toNat % 8 = 4 then 16 else 8) = true) : execMkobj f s =
      .next (s.issueRequest (.mkobj (f.d.toNat % 8)) (s.reg f.a) (s.reqOperand f) 0 (reqOrd f) (reqScope f) .ack none) := by
  unfold execMkobj
  exact State.perform_ok (State.globalChecks_ok h ha (fun q m => m) (fun q m => m) (by simp))

/-- Settles O6: the request format's operand and annotation, then each form's request where its checks pass. -/
theorem wordRequests : Obligations.WordRequests := by
  unfold Obligations.WordRequests
  refine ⟨fun f s => ?_, fun f s ha => ?_⟩
  · simp only [← reqOrd_eq, ← reqScope_eq, ← State.reqOperand_eq, ← reqSrc_operand]
    refine ⟨fun hu ha => ⟨?_, execAmoCas_ok hu ha⟩, fun hu ha => ?_, execMkobj_ok⟩
    · have sends (kind : ReqKind) : s.wordRequest f kind true =
          .next (s.issueRequest kind (s.reg f.a) (s.reqOperand f) 0 (reqOrd f) (reqScope f) (.reg f.d.toNat) none) := State.wordRequest_ok hu ha
      simp only [List.forall_mem_cons, List.not_mem_nil, false_imp_iff, implies_true, and_true]
      and_intros
      all_goals exact sends _
    · have sends (kind : ReqKind) : s.wordRequest f kind false =
          .next (s.issueRequest kind (s.reg f.a) 0 0 (reqOrd f) (reqScope f) (.reg f.d.toNat) none) := State.wordRequest_ok hu ha
      simp only [List.forall_mem_cons, List.not_mem_nil, false_imp_iff, implies_true, and_true]
      and_intros
      all_goals exact sends _
  · have hsrc : (if f.l then [] else [f.b.toNat]) = nums (reqSrc true f) := by
      rw [reqSrc_operand]
      cases f.l <;> rfl
    simp only [← reqOrd_eq, ← reqScope_eq, ← State.reqOperand_eq, ← State.barOperand_eq, hsrc]
    exact ⟨fun h => State.tryRequest_ok h ha, fun h => ⟨State.tryRequest_ok h ha, State.tryRequest_ok h ha⟩,
      fun h => ⟨State.barRequest_ok h ha, State.barRequest_ok h ha, State.barRequest_ok h ha⟩⟩

end Sys2Proof.Machine
end

section
/-!
SUPPORT. Integer instructions, compares and CMOV (spec/08 R192-R194): the functions of Table 8.1 in the terms of the statements, immediates, and
predicates.
-/

namespace Sys2Proof

/-- Two's complement of a whole bit vector. -/
theorem sext_toNat {n : Nat} (x : BitVec n) : sext x.toNat n = x.toInt := by
  have hx := x.isLt
  rw [sext, Nat.mod_eq_of_lt hx, BitVec.toInt_eq_toNat_cond]
  cases n with
  | zero => simp [BitVec.eq_nil x]
  | succ n => split <;> split <;> grind

theorem wordOfInt_sext {n : Nat} (x : BitVec n) : wordOfInt (sext x.toNat n) = x.signExtend 64 := by
  rw [sext_toNat]
  rfl

end Sys2Proof

namespace Sys2Proof.Machine

open Sys2Proof

/-! ### The forms, with the value that they write -/

theorem State.binary_writes {s : State} {f : RegFmt} {g : W64 → W64 → W64} {v : W64} (hu : s.usable (f.d :: f.a :: regB f.b f.lit) = true)
    (hv : g (s.reg f.a) (s.opB f.b f.lit) = v) : s.binary f g = .next (s.writeReg f.d v).next :=
  hv ▸ State.binary_ok hu

theorem State.unary_writes {s : State} {f : RegFmt} {g : W64 → W64} {v : W64} (hu : s.usable [f.d, f.a] = true) (hv : g (s.reg f.a) = v) :
    s.unary f g = .next (s.writeReg f.d v).next :=
  hv ▸ State.unary_ok hu

theorem immValue_eq (imm : BitVec 8) (lit : Option W64) : immValue imm lit = lit.getD (imm.signExtend 64) := by
  cases lit with
  | none => exact wordOfInt_sext imm
  | some l => rfl

theorem State.immediate_writes {s : State} {f : ImmFmt} {g : W64 → W64 → W64} {v : W64} (hu : s.usable [f.d, f.a] = true)
    (hv : g (s.reg f.a) (f.lit.getD (f.imm.signExtend 64)) = v) : s.immediate f g = .next (s.writeReg f.d v).next := by
  rw [State.immediate_ok hu, immValue_eq, hv]

theorem State.compare_writes {s : State} {f : CmpFmt} {g : W64 → W64 → Bool} {r : Bool} (hu : s.usable (f.a :: regB f.b f.lit) = true)
    (hr : g (s.reg f.a) (s.opB f.b f.lit) = r) : s.compare f g = .next (s.updCur fun c => c.setPred f.q r).next :=
  hr ▸ State.compare_ok hu

/-! ### Products and quotients (R193) -/

theorem add_eq_ofNat (a b : W64) : a + b = BitVec.ofNat 64 (a.toNat + b.toNat) := by simp [BitVec.ofNat_add]

theorem sub_eq_ofInt (a b : W64) : a - b = BitVec.ofInt 64 ((a.toNat : Int) - b.toNat) := by
  refine BitVec.eq_of_toNat_eq ?_
  have hb := b.isLt
  rw [BitVec.toNat_sub, BitVec.toNat_ofInt]
  omega

theorem mul_eq_ofNat (a b : W64) : a * b = BitVec.ofNat 64 (a.toNat * b.toNat) := by simp [BitVec.ofNat_mul]

theorem mulHigh_eq (a b : W64) : mulHigh a b = (BitVec.ofInt 128 (a.toInt * b.toInt)).extractLsb' 64 64 := by
  refine BitVec.eq_of_toNat_eq ?_
  rw [mulHigh, wordOfInt, BitVec.toNat_ofInt, BitVec.extractLsb'_toNat, BitVec.toNat_ofInt, Nat.shiftRight_eq_div_pow]
  generalize a.toInt * b.toInt = p
  omega

theorem mulHighU_eq (a b : W64) : mulHighU a b = (BitVec.ofNat 128 (a.toNat * b.toNat)).extractLsb' 64 64 := by
  refine BitVec.eq_of_toNat_eq ?_
  rw [mulHighU, wordOfNat, BitVec.toNat_ofNat, BitVec.extractLsb'_toNat, BitVec.toNat_ofNat, Nat.shiftRight_eq_div_pow]
  generalize a.toNat * b.toNat = p
  omega

/-- The quotient 2^63 of the one overflow wraps to −2^63, and leaves no remainder. -/
theorem divRem_eq (a b : W64) :
    wordOfInt (divRem a b).1 = BitVec.ofInt 64 (if b.toInt = 0 then -1 else if a.toInt = -2 ^ 63 ∧ b.toInt = -1 then -2 ^ 63 else a.toInt.tdiv b.toInt) ∧
    wordOfInt (divRem a b).2 = BitVec.ofInt 64 (if b.toInt = 0 then a.toInt else if a.toInt = -2 ^ 63 ∧ b.toInt = -1 then 0
      else a.toInt - a.toInt.tdiv b.toInt * b.toInt) := by
  simp only [divRem]
  by_cases hb : b.toInt = 0
  · simp only [if_pos hb]
    exact ⟨rfl, rfl⟩
  · simp only [if_neg hb]
    by_cases ho : a.toInt = -2 ^ 63 ∧ b.toInt = -1
    · rw [ho.1, ho.2]
      decide
    · simp only [if_neg ho, Int.tmod_def, Int.mul_comm b.toInt]
      exact ⟨rfl, rfl⟩

theorem divU_eq (a b : W64) : divU a b = if b.toNat = 0 then BitVec.ofNat 64 (2 ^ 64 - 1) else BitVec.ofNat 64 (a.toNat / b.toNat) := by
  have hb : b = 0 ↔ b.toNat = 0 := BitVec.toNat_eq
  simp only [divU, hb, BitVec.udiv_def]
  rfl

theorem remU_eq (a b : W64) : remU a b = if b.toNat = 0 then a else BitVec.ofNat 64 (a.toNat % b.toNat) := by
  have hb : b = 0 ↔ b.toNat = 0 := BitVec.toNat_eq
  simp only [remU, hb, BitVec.umod_def]

/-! ### Shifts -/

theorem shiftLeft_eq_ofNat (a : W64) (c : Nat) : a <<< c = BitVec.ofNat 64 (a.toNat * 2 ^ c) := by
  refine BitVec.eq_of_toNat_eq ?_
  rw [BitVec.toNat_shiftLeft, Nat.shiftLeft_eq, BitVec.toNat_ofNat]

theorem shiftRight_eq_ofNat (a : W64) (c : Nat) : a >>> c = BitVec.ofNat 64 (a.toNat / 2 ^ c) := by
  refine BitVec.eq_of_toNat_eq ?_
  rw [BitVec.toNat_ushiftRight, Nat.shiftRight_eq_div_pow, BitVec.toNat_ofNat, Nat.mod_eq_of_lt ((Nat.div_le_self _ _).trans_lt a.isLt)]

theorem sshiftRight_eq_ofInt (a : W64) (c : Nat) : a.sshiftRight c = BitVec.ofInt 64 (a.toInt / 2 ^ c) := by
  rw [BitVec.sshiftRight_eq, Int.shiftRight_eq_div_pow]
  rfl

/-- The bits that leave at the top come in below, where the shift has put zeros. -/
theorem rotateLeft_eq_ofNat (a : W64) {c : Nat} (hc : c < 64) : a.rotateLeft c = BitVec.ofNat 64 (a.toNat * 2 ^ c + a.toNat / 2 ^ (64 - c)) := by
  refine BitVec.eq_of_toNat_eq ?_
  have hlow : a.toNat / 2 ^ (64 - c) < 2 ^ c := by
    rw [Nat.div_lt_iff_lt_mul (Nat.two_pow_pos _), ← pow_add, Nat.add_sub_cancel' hc.le]
    exact a.isLt
  have hhigh : a.toNat * 2 ^ c % 2 ^ 64 = a.toNat % 2 ^ (64 - c) * 2 ^ c := by
    rw [← Nat.mul_mod_mul_right, ← pow_add, Nat.sub_add_cancel hc.le]
  have hsum : a.toNat % 2 ^ (64 - c) * 2 ^ c + a.toNat / 2 ^ (64 - c) < 2 ^ 64 := by
    calc a.toNat % 2 ^ (64 - c) * 2 ^ c + a.toNat / 2 ^ (64 - c) < (a.toNat % 2 ^ (64 - c) + 1) * 2 ^ c := by linarith
      _ ≤ 2 ^ (64 - c) * 2 ^ c := Nat.mul_le_mul_right _ (Nat.mod_lt _ (Nat.two_pow_pos _))
      _ = 2 ^ 64 := by rw [← pow_add, Nat.sub_add_cancel hc.le]
  rw [BitVec.toNat_rotateLeft, Nat.mod_eq_of_lt hc, Nat.shiftLeft_eq, Nat.shiftRight_eq_div_pow, hhigh, Nat.mul_comm _ (2 ^ c),
    ← Nat.two_pow_add_eq_or_of_lt hlow, BitVec.toNat_ofNat, Nat.mul_comm (2 ^ c), Nat.add_mod, hhigh, Nat.mod_eq_of_lt (hlow.trans_le ?_), Nat.mod_eq_of_lt hsum]
  exact Nat.pow_le_pow_right (by decide) hc.le

/-! ### Smaller and larger -/

theorem minS_eq (a b : W64) : minS a b = if b.toInt < a.toInt then b else a := by
  simp only [minS, ← not_lt, ite_not]
theorem maxS_eq (a b : W64) : maxS a b = if b.toInt < a.toInt then a else b := by
  simp only [maxS, ← not_lt, ite_not]
theorem minU_eq (a b : W64) : minU a b = if b.toNat < a.toNat then b else a := by
  simp only [minU, ← not_lt, ite_not]
theorem maxU_eq (a b : W64) : maxU a b = if b.toNat < a.toNat then a else b := by
  simp only [maxU, ← not_lt, ite_not]

/-! ### Counts of bits -/

/-- The highest one of the low `n` bits is that of the number they make. -/
theorem leadingZeros_eq (a : W64) (n : Nat) :
    leadingZeros a n = if a.toNat % 2 ^ n = 0 then n else n - 1 - Nat.log2 (a.toNat % 2 ^ n) := by
  induction n with
  | zero => simp [leadingZeros, Nat.mod_one]
  | succ n ih =>
    have hlow : a.toNat % 2 ^ n < 2 ^ n := Nat.mod_lt _ (Nat.two_pow_pos n)
    rw [leadingZeros, Nat.mod_pow_succ, ← Nat.toNat_testBit, bit, BitVec.getLsbD]
    cases a.toNat.testBit n with
    | true =>
      have hlog : Nat.log2 (a.toNat % 2 ^ n + 2 ^ n * true.toNat) = n := by
        rw [Nat.log2_eq_iff (by simp), pow_succ]
        simp
        omega
      rw [hlog, if_pos rfl, if_neg (by simp)]
      omega
    | false =>
      have hlog : a.toNat % 2 ^ n ≠ 0 → Nat.log2 (a.toNat % 2 ^ n) < n := fun h => (Nat.log2_lt h).2 hlow
      simp only [Bool.toNat_false, Nat.mul_zero, Nat.add_zero, Bool.false_eq_true, if_false, ih]
      split
      · omega
      · next h => have := hlog h; omega

theorem leadingZeros_word (a : W64) : leadingZeros a 64 = if a.toNat = 0 then 64 else 63 - Nat.log2 a.toNat := by
  rw [leadingZeros_eq, Nat.mod_eq_of_lt a.isLt]

theorem trailingZeros_eq (a : W64) (i n : Nat) : i + trailingZeros a i n = ((List.range' i n).find? fun j => a.getLsbD j).getD (i + n) := by
  induction n generalizing i with
  | zero => rfl
  | succ n ih =>
    rw [trailingZeros, List.range'_succ, List.find?_cons, bit_eq]
    cases a.getLsbD i with
    | true => rfl
    | false =>
      simp only [Bool.false_eq_true, if_false]
      rw [← Nat.add_assoc, ih (i + 1), Nat.add_assoc i 1 n, Nat.add_comm 1 n]

theorem trailingZeros_word (a : W64) : trailingZeros a 0 64 = ((List.range 64).find? fun j => a.getLsbD j).getD 64 := by
  have h := trailingZeros_eq a 0 64
  rwa [Nat.zero_add, Nat.zero_add, ← List.range_eq_range'] at h

theorem popCount_eq (a : W64) : popCount a = (List.range 64).countP fun i => a.getLsbD i := List.countP_eq_length_filter.symm

/-! ### Predicates (R194) -/

theorem Ctx.setPred_zero (c : Ctx) (r : Bool) : c.setPred 0 r = c := rfl

theorem Ctx.pred_zero (c : Ctx) : c.pred 0 = true := rfl

/-- A written predicate reads back, `q0` as true, and every other one as before. -/
theorem Ctx.pred_setPred (c : Ctx) (q k : BitVec 3) (r : Bool) : (c.setPred q r).pred k = if k = q ∧ q ≠ 0 then r else c.pred k := by
  by_cases h0 : q = 0
  · rw [h0, Ctx.setPred_zero, if_neg fun h => h.2 rfl]
  · have hq : ¬q.toNat = 0 := fun h => h0 (BitVec.toNat_eq.2 h)
    have hk8 : k.toNat < 8 := k.isLt
    have hbit : (1#8 <<< q.toNat).getLsbD k.toNat = decide (k = q) := by
      simp only [BitVec.getLsbD_shiftLeft, BitVec.getLsbD_one, BitVec.toNat_eq]
      grind
    have hset : (if r then c.preds ||| (1#8 <<< q.toNat) else c.preds &&& ~~~(1#8 <<< q.toNat)).getLsbD k.toNat =
        if k = q then r else c.preds.getLsbD k.toNat := by
      cases r
      · simp only [Bool.false_eq_true, if_false, BitVec.getLsbD_and, BitVec.getLsbD_not, hbit, hk8, decide_true, Bool.true_and]
        by_cases hk : k = q <;> simp [hk]
      · simp only [if_true, BitVec.getLsbD_or, hbit]
        by_cases hk : k = q <;> simp [hk]
    simp only [Ctx.setPred, Ctx.pred, if_neg hq, hset, h0, ne_eq, not_false_eq_true, and_true]
    by_cases hk : k = q
    · simp [hk, hq]
    · simp [hk]

/-! ### The instructions -/

/-- Settles O1: each form writes the value of its function (`binary_writes` and its fellows), and each function is that of Table 8.1. -/
theorem integerInstructions : Obligations.IntegerInstructions := by
  unfold Obligations.IntegerInstructions
  intro s
  refine ⟨fun f hu => ?_, fun f hu => ?_, fun f hu => ?_, fun f hu => ?_⟩
  · have hc : count6 (s.opB f.b f.lit) < 64 := Nat.mod_lt _ (by decide)
    exact ⟨State.binary_writes (g := (· + ·)) hu (add_eq_ofNat _ _), State.binary_writes (g := (· - ·)) hu (sub_eq_ofInt _ _),
      State.binary_writes (g := (· * ·)) hu (mul_eq_ofNat _ _), State.binary_writes (g := mulHigh) hu (mulHigh_eq _ _),
      State.binary_writes (g := mulHighU) hu (mulHighU_eq _ _), State.binary_writes (g := fun a b => wordOfInt (divRem a b).1) hu (divRem_eq _ _).1,
      State.binary_writes (g := divU) hu (divU_eq _ _), State.binary_writes (g := fun a b => wordOfInt (divRem a b).2) hu (divRem_eq _ _).2,
      State.binary_writes (g := remU) hu (remU_eq _ _), State.binary_ok (g := (· &&& ·)) hu, State.binary_ok (g := (· ||| ·)) hu,
      State.binary_ok (g := (· ^^^ ·)) hu, State.binary_ok (g := (· &&& ~~~·)) hu,
      State.binary_writes (g := fun a b => a <<< count6 b) hu (shiftLeft_eq_ofNat _ _),
      State.binary_writes (g := fun a b => a >>> count6 b) hu (shiftRight_eq_ofNat _ _),
      State.binary_writes (g := fun a b => a.sshiftRight (count6 b)) hu (sshiftRight_eq_ofInt _ _),
      State.binary_writes (g := fun a b => a.rotateLeft (count6 b)) hu (rotateLeft_eq_ofNat _ hc),
      State.binary_writes (g := minS) hu (minS_eq _ _), State.binary_writes (g := maxS) hu (maxS_eq _ _),
      State.binary_writes (g := minU) hu (minU_eq _ _), State.binary_writes (g := maxU) hu (maxU_eq _ _)⟩
  · exact ⟨State.unary_writes (g := fun a => wordOfNat (leadingZeros a 64)) hu (congrArg wordOfNat (leadingZeros_word _)),
      State.unary_writes (g := fun a => wordOfNat (trailingZeros a 0 64)) hu (congrArg wordOfNat (trailingZeros_word _)),
      State.unary_writes (g := fun a => wordOfNat (popCount a)) hu (congrArg wordOfNat (popCount_eq _)), State.unary_ok (g := id) hu⟩
  · exact ⟨State.immediate_writes (g := (· + ·)) hu (add_eq_ofNat _ _), State.immediate_writes (g := (· &&& ·)) hu rfl,
      State.immediate_writes (g := (· ||| ·)) hu rfl, State.immediate_writes (g := (· ^^^ ·)) hu rfl,
      State.immediate_writes (g := fun a _ => a <<< (f.imm.toNat % 64)) hu (shiftLeft_eq_ofNat _ _),
      State.immediate_writes (g := fun a _ => a >>> (f.imm.toNat % 64)) hu (shiftRight_eq_ofNat _ _),
      State.immediate_writes (g := fun a _ => a.sshiftRight (f.imm.toNat % 64)) hu (sshiftRight_eq_ofInt _ _)⟩
  · rw [← immValue_eq]
    exact State.registerOp_ok (dsts := [f.d]) (srcs := []) (f := fun s => s.writeReg f.d (immValue f.imm f.lit)) hu

theorem execCmov_ok {s : State} {f : ImmFmt} (hu : s.usable [f.d, f.a] = true)
    (hc : (s.cur.pred (f.imm.extractLsb' 0 3) != f.imm.getLsbD 3) = true) : execCmov f s = .next (s.writeReg f.d (s.reg f.a)).next := by
  unfold execCmov
  simp only [hc, if_true]
  refine State.perform_ok ?_
  simp only [List.forall_mem_cons, List.not_mem_nil, false_imp_iff, implies_true, and_true]
  exact ⟨State.chkAllot_ok hu fun _ m => m, State.chkFull_ok hu (by simp [nums]), State.chkDest_ok hu (by simp [nums])⟩

theorem execCmov_idle {s : State} {f : ImmFmt} (hu : s.usable [f.a] = true) (hd : f.d.toNat < s.cur.count)
    (hc : (s.cur.pred (f.imm.extractLsb' 0 3) != f.imm.getLsbD 3) = false) : execCmov f s = .next s.next := by
  have ha : f.a.toNat < s.cur.count := (State.has_mem hu (List.mem_cons_self ..)).1
  unfold execCmov
  simp only [hc, if_neg Bool.false_ne_true]
  refine State.perform_ok ?_
  simp only [List.forall_mem_cons, List.not_mem_nil, false_imp_iff, implies_true, and_true]
  exact ⟨by simp [State.chkAllot, nums, ha, hd], State.chkFull_ok hu fun _ m => m⟩

theorem cmov_reserved {f : ImmFmt} (h : 16 ≤ f.imm.toNat) : (Instr.cmov f).wellFormed = false := by
  have hcheck : (Instr.cmov f).check = firstError [f.check true true false, reject .reservedField (decide (16 ≤ f.imm.toNat))] := rfl
  rw [Instr.wellFormed, hcheck, decide_eq_true h]
  cases f.check true true false <;> rfl

/-- Settles O2: compares by `compare_writes`, predicates by `pred_setPred`, CMOV by its condition. -/
theorem compareAndSelect : Obligations.CompareAndSelect := by
  unfold Obligations.CompareAndSelect
  refine ⟨fun f s hu => ?_, fun c q k r => ⟨c.setPred_zero r, c.pred_zero, c.pred_setPred q k r⟩,
    fun f s => ⟨fun hc hu => execCmov_ok hu hc, fun hc hu hd => execCmov_idle hu hd hc⟩, fun f hf => cmov_reserved hf⟩
  exact ⟨State.compare_writes (g := fun a b => decide (a = b)) hu rfl, State.compare_writes (g := fun a b => decide (a ≠ b)) hu (decide_not.trans (congrArg Bool.not rfl)),
    State.compare_ok (g := fun a b => decide (a.toInt < b.toInt)) hu, State.compare_ok (g := fun a b => decide (a.toNat < b.toNat)) hu,
    State.compare_ok (g := fun a b => decide (a.toInt ≤ b.toInt)) hu, State.compare_ok (g := fun a b => decide (a.toNat ≤ b.toNat)) hu⟩

/-- Settles O19: NOP is the step past itself, and the two words are closed, so the decoder runs on them. -/
theorem nopAndZeroWord : Obligations.NopAndZeroWord := by
  unfold Obligations.NopAndZeroWord
  exact ⟨fun _ _ => rfl, rfl, rfl, nofun⟩

end Sys2Proof.Machine
end

section
/-!
SUPPORT. Transfers of control (spec/08 R198-R201, R210; spec/20 R394): targets and the addresses that a bad one traps with.
-/

namespace Sys2Proof.Machine

open Sys2Proof

/-! ### Checks in front of the last one -/

theorem Check.first_append {cs : List Check} (h : ∀ c ∈ cs, c = .ok) (ds : List Check) : Check.first (cs ++ ds) = Check.first ds := by
  induction cs with
  | nil => rfl
  | cons c cs ih =>
    obtain ⟨rfl, hrest⟩ := List.forall_mem_cons.1 h
    exact ih hrest

/-- Where the checks before the last one pass, it decides alone. -/
theorem State.perform_last {s : State} {cs : List Check} (h : ∀ c ∈ cs, c = .ok) (d : Check) (f : State → State) :
    s.perform (cs ++ [d]) f = s.perform [d] f := by
  simp only [State.perform, Check.first_append h]

theorem State.perform_need (s : State) (b : Bool) (n : Nat) (a : W64) (f : State → State) :
    s.perform [Check.need b n a] f = .next (if b then f s else s.raise n a) := by
  cases b <;> rfl

/-- The register of a target is allotted and full. -/
theorem State.sourceChecks_ok {s : State} {rs : List (BitVec 7)} (hu : s.usable rs = true) :
    ∀ c ∈ [s.chkAllot (nums rs), s.chkFull (nums rs)], c = .ok := by
  simp only [List.forall_mem_cons, List.not_mem_nil, false_imp_iff, implies_true, and_true]
  exact ⟨State.chkAllot_ok hu fun _ m => m, State.chkFull_ok hu fun _ m => m⟩

/-! ### Targets (R394) -/

theorem relTarget_eq (pc : W64) {w : Nat} (off : BitVec w) : relTarget pc off = pc + off.signExtend 64 * 4 := by
  rw [relTarget, sext_toNat, wordOfInt, BitVec.ofInt_mul, BitVec.mul_comm]
  rfl

/-- The address with which a relative target traps, if it does. -/
def State.badTarget (s : State) (t : W64) : Option W64 :=
  if isResidual s.cur.pc then (match s.backMap t with | some b => if b.orig.getLsbD 63 then some b.orig else none | none => none)
  else if decide (t.toNat % 4 = 0) && !t.getLsbD 63 && !malformed t then none else some t

/-- The context goes to `t` in state `u`, or the target traps in `s`. -/
def State.goOrTrap (s u : State) (t : W64) : State :=
  match s.badTarget t with
  | none => u.jump t
  | some a => s.raise 0x04 a

theorem State.chkRel_eq (s : State) (t : W64) :
    s.chkRel t = match s.badTarget t with | none => .ok | some a => .trap 0x04 a := by
  unfold State.chkRel State.badTarget
  split
  · cases s.backMap t with
    | none => rfl
    | some b =>
      dsimp only
      rw [bit_eq]
      cases hbit : b.orig.getLsbD 63 with
      | false => rfl
      | true => simp only [chkTarget, bit_eq, hbit, Bool.not_true, Bool.and_false, Bool.false_and, Check.need_false, if_true]
  · rw [chkTarget, bit_eq]
    cases decide (t.toNat % 4 = 0) && !t.getLsbD 63 && !malformed t <;> rfl

theorem State.perform_rel (s : State) (t : W64) (u : State → State) :
    s.perform [s.chkRel t] (fun s => (u s).jump t) = .next (s.goOrTrap (u s) t) := by
  rw [State.chkRel_eq, State.goOrTrap]
  cases s.badTarget t <;> rfl

/-! ### The instructions -/

theorem execBr_taken {s : State} {f : BrFmt} (h : (s.cur.pred f.pred != f.neg) = true) : execBr f s = .next (s.goOrTrap s (relTarget s.cur.pc f.off)) := by
  simp only [execBr, h, if_true]
  exact s.perform_rel _ id

theorem execBr_idle {s : State} {f : BrFmt} (h : (s.cur.pred f.pred != f.neg) = false) : execBr f s = .next s.next := by
  simp only [execBr, h]
  rfl

theorem execTstb_hit {s : State} {f : TestFmt} (h : ((s.tile s.here f.tile.toNat).status.getLsbD f.bitNo.toNat == f.sense) = true) :
    execTstb f s = .next (s.goOrTrap s (relTarget s.cur.pc f.off)) := by
  simp only [execTstb, bit_eq, h, if_true]
  exact s.perform_rel _ id

theorem execTstb_miss {s : State} {f : TestFmt} (h : ((s.tile s.here f.tile.toNat).status.getLsbD f.bitNo.toNat == f.sense) = false) :
    execTstb f s = .next s.next := by
  simp only [execTstb, bit_eq, h]
  rfl

theorem execCall_eq (f : BrFmt) (s : State) : execCall f s = .next (s.goOrTrap s.link (relTarget s.cur.pc f.off)) := s.perform_rel _ State.link

theorem State.perform_target (s : State) (t : W64) (f : State → State) : s.perform [chkTarget t] f =
    .next (if decide (t.toNat % 4 = 0) && !t.getLsbD 63 && !malformed t then f s else s.raise 0x04 t) :=
  s.perform_need _ _ _ _

theorem State.perform_register {s : State} {r : BitVec 7} (hu : s.usable [r] = true) (f : State → State) :
    s.perform [s.chkAllot (nums [r]), s.chkFull (nums [r]), chkTarget (s.reg r)] f = .next
      (if decide ((s.reg r).toNat % 4 = 0) && !(s.reg r).getLsbD 63 && !malformed (s.reg r) then f s else s.raise 0x04 (s.reg r)) :=
  (State.perform_last (State.sourceChecks_ok hu) _ _).trans (s.perform_target _ _)

theorem execRet_link {s : State} {f : NoneFmt} (h : s.cur.link ≠ 0) :
    execRet f s = s.perform [chkTarget s.cur.link] fun s' => s'.jump s.cur.link := if_pos h

theorem execLoop_again {s : State} {f : LoopFmt} (hu : s.usable [f.c] = true) (h : 1 < (s.reg f.c).toNat) :
    execLoop f s = .next (s.goOrTrap (s.writeReg f.c (BitVec.ofNat 64 ((s.reg f.c).toNat - 1))) (relTarget s.cur.pc f.off)) := by
  have hn : s.reg f.c - 1 = BitVec.ofNat 64 ((s.reg f.c).toNat - 1) := by
    have hlt := (s.reg f.c).isLt
    refine BitVec.eq_of_toNat_eq ?_
    rw [BitVec.toNat_sub, BitVec.toNat_ofNat, show (1 : W64).toNat = 1 from rfl]
    omega
  simp only [execLoop, h, if_true, hn]
  exact (State.perform_last (State.sourceChecks_ok hu) _ _).trans (s.perform_rel _ fun s => s.writeReg f.c _)

theorem execLoop_done {s : State} {f : LoopFmt} (hu : s.usable [f.c] = true) (h : (s.reg f.c).toNat ≤ 1) :
    execLoop f s = .next (s.writeReg f.c 0).next := by
  simp only [execLoop, if_neg h.not_gt]
  exact State.perform_last (State.sourceChecks_ok hu) .ok _

/-- Settles O10: a relative target by `perform_rel`, a target in a register by its check; where no transfer is made nothing is checked. -/
theorem branchesAndCalls : Obligations.BranchesAndCalls := by
  unfold Obligations.BranchesAndCalls
  intro s good bad goTo rel linked
  simp only [← relTarget_eq]
  refine ⟨fun f => ⟨execBr_idle, execBr_taken, execCall_eq f s⟩, fun f hu => ⟨State.perform_register hu fun u => u.link.jump (s.reg f.a), State.perform_register hu fun u => u.jump (s.reg f.a)⟩,
    fun f => ⟨execTstb_miss, execTstb_hit⟩, fun f hl => ?_, fun f hu => ⟨execLoop_again hu, execLoop_done hu⟩, fun hr => ?_⟩
  · exact (execRet_link (f := f) hl).trans (s.perform_target _ _)
  · rw [State.genericPc, State.origin, hr]
    rfl

end Sys2Proof.Machine
end

section
/-!
SUPPORT. The creation of work, its join and its cancel (spec/08 R205-R209; spec/20 R394): PCs that a child or body may have, join handles, and what each
instruction sends.
-/

namespace Sys2Proof.Machine

open Sys2Proof

/-! ### Operands -/

theorem chkPc_ok {a : W64} (h : a.toNat % 4 = 0 ∧ (a.getLsbD 63 = true ∨ malformed a = false)) : chkPc a = .ok := by
  rw [chkPc, Check.need_eq_ok, bit_eq]
  simpa using h

theorem chkPc_trap {a : W64} (h : ¬(a.toNat % 4 = 0 ∧ (a.getLsbD 63 = true ∨ malformed a = false))) : chkPc a = .trap 0x04 a := by
  have hbad : (decide (a.toNat % 4 = 0) && (bit a 63 || !malformed a)) = false := by
    rw [bit_eq, ← Bool.not_eq_true]
    simpa using h
  rw [chkPc, hbad, Check.need_false]

theorem chkAddr_trap {a : W64} {w : Nat} (h : ¬(malformed a = false ∧ a.toNat % w = 0)) : chkAddr a w = .trap 0x04 a := by
  have hbad : (!malformed a && decide (a.toNat % w = 0)) = false := by
    rw [← Bool.not_eq_true]
    simpa using h
  rw [chkAddr, hbad, Check.need_false]

theorem chkAddr_ok {a : W64} {w : Nat} (h : malformed a = false ∧ a.toNat % w = 0) : chkAddr a w = .ok := by
  rw [chkAddr, Check.need_eq_ok]
  simpa using h

theorem State.goodAddr_checks {s : State} {a : W64} {w : Nat} (h : s.goodAddr a w = true) : chkAddr a w = .ok ∧ s.chkPeer a = .ok := by
  simp only [State.goodAddr, Bool.and_eq_true, decide_eq_true_eq, Bool.not_eq_true'] at h
  obtain ⟨hform, hpeer⟩ := h
  exact ⟨chkAddr_ok hform, by rw [State.chkPeer, Check.need_eq_ok, decide_eq_true hpeer]⟩

/-- The body of a FORK is an address of 52 bits. -/
theorem malformed_low52 (b : W64) : malformed ((b.extractLsb' 0 52).zeroExtend 64) = false := by
  have hlt : (wordOfNat (slice b 51 0)).toNat < 2 ^ 52 := (Nat.mod_le _ _).trans_lt (slice_lt b 51 0)
  rw [← wordOfNat_toNat, ← slice_eq b 51 0]
  generalize wordOfNat (slice b 51 0) = x at hlt
  have hbit : bit x 52 = false := by rw [bit, BitVec.getLsbD, Nat.testBit_eq_decide_div_mod_eq, decide_eq_false_iff_not]; omega
  have hnode : slice x 62 53 = 0 := by simp only [slice]; omega
  simp [malformed, hbit, hnode]

/-- A join handle as Table 2.8 gives it. -/
theorem handleOk_eq (a : W64) : handleOk a = (a.getLsbD 63 == false && a.getLsbD 62 == false && decide ((a.extractLsb' 56 6).toNat = 63) &&
    decide ((a.extractLsb' 21 35).toNat = 0) && decide ((a.extractLsb' 16 5).toNat < 24) && decide ((a.extractLsb' 12 4).toNat = 0)) := by
  have htop : decide (slice a 63 56 = 0x3F) = (a.getLsbD 63 == false && a.getLsbD 62 == false && decide ((a.extractLsb' 56 6).toNat = 63)) := by
    have hlt := a.isLt
    rw [Bool.eq_iff_iff]
    simp only [Bool.and_eq_true, beq_iff_eq, decide_eq_true_eq]
    simp only [slice, BitVec.getLsbD, Nat.testBit_eq_decide_div_mod_eq, BitVec.extractLsb'_toNat, Nat.shiftRight_eq_div_pow, decide_eq_false_iff_not]
    generalize a.toNat = n at hlt ⊢
    omega
  rw [handleOk, htop, slice_eq a 55 21, slice_eq a 20 16, slice_eq a 15 12]
  rfl

/-! ### The instructions -/

section
variable {s : State} {f : RegFmt}

theorem nums_seeded : nums (f.a :: regB f.b f.lit ++ [0, 1, 2, 3]) = nums (f.a :: regB f.b f.lit) ++ [0, 1, 2, 3] := by
  simp [nums]

theorem execSpawn_ok (hu : s.usable (f.a :: regB f.b f.lit ++ [0, 1, 2, 3]) = true) (ha : chkPc (s.reg f.a) = .ok)
    (hb : s.spawnFits (s.opB f.b f.lit) = true) : execSpawn f s = .next ((s.parkOn .placement).sendOut s.gid
      (.spawn { place := s.opB f.b f.lit, cores := s.spawnCores (s.opB f.b f.lit), regs := s.cur.count, q := f.d.toNat % 8, task := s.taskOf (s.reg f.a) 0
                next := s.cur.pc + wordOfNat s.sched.slot.len })) := by
  unfold execSpawn
  refine State.perform_ok ?_
  simp only [List.forall_mem_cons, List.not_mem_nil, false_imp_iff, implies_true, and_true, ← nums_seeded]
  exact ⟨State.chkAllot_ok hu fun _ m => m, State.chkFull_ok hu fun _ m => m, ha, Check.need_eq_ok.2 hb⟩

theorem execSpawn_trap (hu : s.usable (f.a :: regB f.b f.lit ++ [0, 1, 2, 3]) = true) (ha : chkPc (s.reg f.a) = .trap 0x04 (s.reg f.a)) :
    execSpawn f s = .next (s.raise 0x04 (s.reg f.a)) := by
  unfold execSpawn
  refine State.perform_trap ?_
  simp only [← nums_seeded, State.chkAllot_ok hu fun _ m => m, State.chkFull_ok hu fun _ m => m, ha, Check.first_ok, Check.first_trap]

theorem execCallat_ok (hu : s.usable (f.d :: (f.a :: regB f.b f.lit ++ [0, 1, 2, 3])) = true) (ha : chkPc (s.reg f.a) = .ok)
    (hb : s.inPartition (s.tenantOf s.here) (s.opB f.b f.lit).toNat = true) : execCallat f s = .next
      (((s.markEmpty s.gid f.d.toNat).parkOn (.callat (s.cur.pc + wordOfNat s.sched.slot.len))).sendOut s.gid
        (.task (s.opB f.b f.lit).toNat (s.taskOf (s.reg f.a) f.d.toNat))) := by
  unfold execCallat
  refine State.perform_ok ?_
  simp only [List.forall_mem_cons, List.not_mem_nil, false_imp_iff, implies_true, and_true, ← nums_seeded]
  exact ⟨State.chkAllot_ok hu fun _ m => m, State.chkFull_ok hu fun _ m => List.mem_cons_of_mem _ m, ha, Check.need_eq_ok.2 hb,
    State.chkDest_ok hu (by simp [nums])⟩

theorem execCallat_trap (hu : s.usable (f.d :: (f.a :: regB f.b f.lit ++ [0, 1, 2, 3])) = true) (ha : chkPc (s.reg f.a) = .trap 0x04 (s.reg f.a)) :
    execCallat f s = .next (s.raise 0x04 (s.reg f.a)) := by
  unfold execCallat
  refine State.perform_trap ?_
  have hallot : s.chkAllot (f.d.toNat :: nums (f.a :: regB f.b f.lit ++ [0, 1, 2, 3])) = .ok := State.chkAllot_ok hu fun _ m => m
  simp only [← nums_seeded]
  rw [hallot, State.chkFull_ok (qs := nums (f.a :: regB f.b f.lit ++ [0, 1, 2, 3])) hu fun _ m => List.mem_cons_of_mem _ m, ha]
  rfl

end

/-! ### FORK -/

section
variable {s : State} {f : RegFmt} (hu : s.usable (f.a :: regB f.b f.lit) = true) (hbody : chkPc (wordOfNat (slice (s.opB f.b f.lit) 51 0)) = .ok)
include hu hbody

theorem execFork_grain0 (hg : slice (s.opB f.b f.lit) 63 56 = 0) : execFork f s = .next (s.raise 0x01 s.word0) := by
  have hk : ceilDiv (slice (s.reg f.a) 31 0) 0 = 0 := by simp [ceilDiv]
  unfold execFork
  refine State.perform_trap ?_
  simp only [hg, hk, hbody, State.chkAllot_ok hu fun _ m => m, State.chkFull_ok hu fun _ m => m]
  rfl

theorem execFork_none (hg : slice (s.opB f.b f.lit) 63 56 ≠ 0) (ht : slice (s.reg f.a) 31 0 = 0) :
    execFork f s = .next (s.jump (s.genericPc + wordOfNat s.sched.slot.len)) := by
  have hk : ceilDiv 0 (slice (s.opB f.b f.lit) 63 56) = 0 := by simp only [ceilDiv]; exact Nat.div_eq_of_lt (by omega)
  unfold execFork
  simp only [ht, hk, hbody, State.chkAllot_ok hu fun _ m => m, State.chkFull_ok hu fun _ m => m]
  refine State.perform_ok ?_
  simp [State.chkValue, hg, State.chkFull, State.chkDest]

theorem execFork_divides (hg : slice (s.opB f.b f.lit) 63 56 ≠ 0) (ht : slice (s.reg f.a) 31 0 ≠ 0) (hs : s.usable [0, 1, 2, 4, 5, 6, 7] = true)
    (hst : s.storing s.gid = false) : execFork f s = .next ((s.parkOn .placement).sendOut s.gid
      (.fork s.gid (slice (s.reg f.a) 31 0) (ceilDiv (slice (s.reg f.a) 31 0) (slice (s.opB f.b f.lit) 63 56) - 1)
        (wordOfNat (slice (s.opB f.b f.lit) 51 0)) (s.genericPc + wordOfNat s.sched.slot.len))) := by
  have hsaved (b : Prop) [Decidable b] : s.chkFull (if b then [4, 5, 6, 7] else []) = .ok := State.chkFull_ok hs (by split <;> simp [nums])
  have hdest : s.chkDest [0, 1, 2] = .ok := State.chkDest_ok hs (by simp [nums])
  unfold execFork
  simp only [hsaved, hdest, hbody, State.chkAllot_ok hu fun _ m => m, State.chkFull_ok hu fun _ m => m, if_neg ht]
  refine (State.perform_ok ?_).trans ?_
  · simp [State.chkValue, hg]
  · rw [if_neg (by simp [hst])]

end

/-! ### JOIN -/

theorem execJoin_eq {s : State} {f : RegFmt} (hu : s.usable [f.a] = true) : execJoin f s = .next (if handleOk (s.reg f.a)
    then s.issueRequest .ctrAdd (s.reg f.a) (-1) 0 0b11#2 5#4 (.join (slice (s.reg f.a) 20 16 * 4096 + slice (s.reg f.a) 11 0) s.word0)
      (some (slice (s.reg f.a) 20 16 * 4096 + slice (s.reg f.a) 11 0))
    else s.raise 0x04 (s.reg f.a)) := by
  have hone : BitVec.allOnes 64 = -1 := rfl
  simp only [execJoin, hone]
  exact (State.perform_last (State.sourceChecks_ok hu) _ _).trans (s.perform_need _ _ _ _)

/-! ### CANCEL and CANCELU -/

/-- CANCEL and CANCELU: registers allotted and full, then the counter's address. -/
def State.cancelForm (s : State) (rs : List (BitVec 7)) (a : W64) (unit : Option Nat) : Result :=
  s.perform [s.chkAllot (nums rs), s.chkFull (nums rs), chkAddr a 8, s.chkPeer a] fun s => s.sendCancel a unit

section
variable {s : State} {rs : List (BitVec 7)} {a : W64} {unit : Option Nat} (hu : s.usable rs = true)
include hu

theorem State.cancelForm_ok (ha : s.goodAddr a 8 = true) : s.cancelForm rs a unit = .next (s.sendCancel a unit) := by
  obtain ⟨haddr, hpeer⟩ := State.goodAddr_checks ha
  rw [State.cancelForm, haddr, hpeer]
  exact State.perform_ok (by simpa using State.sourceChecks_ok hu)

theorem State.cancelForm_malformed (ha : ¬(malformed a = false ∧ a.toNat % 8 = 0)) : s.cancelForm rs a unit = .next (s.raise 0x04 a) := by
  refine State.perform_trap ?_
  rw [State.chkAllot_ok hu fun _ m => m, State.chkFull_ok hu fun _ m => m, chkAddr_trap ha]
  rfl

theorem State.cancelForm_dead (ha : malformed a = false ∧ a.toNat % 8 = 0) (hd : s.served (s.tenantOf s.here) a = .dead) :
    s.cancelForm rs a unit = .next (s.raise 0x0C a) := by
  refine State.perform_trap ?_
  rw [State.chkAllot_ok hu fun _ m => m, State.chkFull_ok hu fun _ m => m, chkAddr_ok ha, State.chkPeer, decide_eq_false (not_not.2 hd)]
  rfl

end

/-- Settles O13: the checks of each form, and where they pass what it sends. -/
theorem workCreation : Obligations.WorkCreation := by
  unfold Obligations.WorkCreation
  intro f s a b after seeded pcGood
  have hbody : wordOfNat (slice b 51 0) = (b.extractLsb' 0 52).zeroExtend 64 := by rw [slice_eq b 51 0, wordOfNat_toNat]
  refine ⟨fun hu ha hb => execSpawn_ok hu (chkPc_ok ha) hb, fun hu ha hb => execCallat_ok hu (chkPc_ok ha) hb, fun hu ha => ?_, ?_, ?_⟩
  · exact ⟨execSpawn_trap (State.has_sub hu fun _ m => List.mem_cons_of_mem _ m) (chkPc_trap ha), execCallat_trap hu (chkPc_trap ha)⟩
  · intro t g body cont hu h4
    have hpc : chkPc (wordOfNat (slice b 51 0)) = .ok := hbody ▸ chkPc_ok ⟨h4, .inr (malformed_low52 b)⟩
    have hg : slice b 63 56 = g := slice_eq b 63 56
    have ht : slice a 31 0 = t := slice_eq a 31 0
    refine ⟨fun h _ => execFork_grain0 hu hpc (hg.trans h), fun h h0 => execFork_none hu hpc (hg ▸ h) (ht.trans h0), fun h h0 hs hst => ?_⟩
    rw [← hg, ← ht, show body = wordOfNat (slice b 51 0) from hbody.symm]
    exact execFork_divides hu hpc (hg ▸ h) (ht ▸ h0) hs hst
  · intro good cancels formed
    have hcancel (unit : Option Nat) : s.sendCancel a unit = cancels unit := rfl
    refine ⟨fun hu => ?_, fun hu ha => State.cancelForm_ok hu ha, fun hu => ⟨fun ha => ?_, fun ha => ?_, fun ha hd => ?_⟩⟩
    · have hk : slice a 20 16 * 4096 + slice a 11 0 = (a.extractLsb' 16 5).toNat * 4096 + (a.extractLsb' 0 12).toNat := by
        rw [slice_eq a 20 16, slice_eq a 11 0]
      have hgood : handleOk a = good := handleOk_eq a
      rw [← hgood, ← hk]
      exact execJoin_eq hu
    · rw [← slice_eq b 23 0]
      exact State.cancelForm_ok hu ha
    · exact ⟨State.cancelForm_malformed (State.has_sub hu (by simp [nums])) ha, State.cancelForm_malformed hu ha⟩
    · exact ⟨State.cancelForm_dead (State.has_sub hu (by simp [nums])) ha hd, State.cancelForm_dead hu ha hd⟩

end Sys2Proof.Machine
end

section
/-!
SUPPORT. Context 0's instructions on the other contexts of its core (spec/08 R212-R215): which contexts START and REAP name, what each finds and does.
-/

namespace Sys2Proof.Machine

open Sys2Proof

/-! ### The contexts that are named -/

theorem coreOf_add {core n : Nat} (h : n < 16) : coreOf (16 * core + n) = core := by
  simp only [coreOf]
  omega

theorem ctxNo_add {core n : Nat} (h : n < 16) : ctxNo (16 * core + n) = n := by
  simp only [ctxNo]
  omega

theorem isCtx0_add_iff {core n : Nat} (h : n < 16) : isCtx0 (16 * core + n) = decide (n = 0) := by
  simp only [isCtx0, decide_eq_decide]
  omega

theorem State.sibling_eq (s : State) (n : Nat) :
    s.sibling n = 16 * (if (s.core s.here).paired && decide (idX s.here % 2 = 1) then partnerOf s.here else s.here) + n := by
  simp only [State.sibling]
  split <;> rfl

theorem State.both_add (s : State) {core n : Nat} (h : n < 16) :
    s.both (16 * core + n) = if (s.core core).paired && decide (n ≠ 0) then [16 * core + n, 16 * partnerOf core + n] else [16 * core + n] := by
  rw [State.both, coreOf_add h, ctxNo_add h, isCtx0_add_iff h, decide_not]

/-! ### The instructions -/

theorem State.chkCtx0_ok {s : State} (h : isCtx0 s.gid = true) : s.chkCtx0 = .ok := Check.need_eq_ok.2 h

theorem State.chkCtx0_trap {s : State} (h : isCtx0 s.gid = false) : s.chkCtx0 = .trap 0x06 s.word0 := by
  rw [State.chkCtx0, h, Check.need_false]

section
variable {s : State} {f : RegFmt} (hu : s.usable [f.d, f.a, f.b] = true)
include hu

theorem execStart_trap (h : isCtx0 s.gid = false) : execStart f s = .next (s.raise 0x06 s.word0) := by
  unfold execStart
  refine State.perform_trap ?_
  rw [State.chkAllot_ok hu fun _ m => m, State.chkCtx0_trap h]
  rfl

theorem execReap_trap (h : isCtx0 s.gid = false) : execReap f s = .next (s.raise 0x06 s.word0) := by
  unfold execReap
  refine State.perform_trap ?_
  rw [State.chkAllot_ok hu (by simp [nums]), State.chkCtx0_trap h]
  rfl

theorem execStart_illegal (h : isCtx0 s.gid = true) (ha : startOk (s.reg f.a) = false) : execStart f s = .next (s.raise 0x01 s.word0) := by
  unfold execStart
  refine State.perform_trap ?_
  rw [State.chkAllot_ok hu fun _ m => m, State.chkCtx0_ok h, State.chkFull_ok hu (by simp [nums]), State.chkFull_ok hu (by split <;> simp [nums]),
    ha]
  rfl

theorem execStart_ok (h : isCtx0 s.gid = true) (ha : startOk (s.reg f.a) = true) {v : W64} {t : State} (hact : s.startAction (s.reg f.a) (s.reg f.b) = (v, t)) :
    execStart f s = .next (t.writeReg f.d v).next := by
  unfold execStart
  refine (State.perform_ok ?_).trans ?_
  · simp only [List.forall_mem_cons, List.not_mem_nil, false_imp_iff, implies_true, and_true]
    exact ⟨State.chkAllot_ok hu fun _ m => m, State.chkCtx0_ok h, State.chkFull_ok hu (by simp [nums]), State.chkFull_ok hu (by split <;> simp [nums]),
      Check.need_eq_ok.2 ha, State.chkDest_ok hu (by simp [nums])⟩
  · rw [hact]

theorem execReap_eq (h : isCtx0 s.gid = true) : execReap f s = .next
    (if (s.ctx (s.sibling (slice (s.reg f.a) 3 0))).mode = .stopped && !isCtx0 (s.sibling (slice (s.reg f.a) 3 0))
      then (((s.both (s.sibling (slice (s.reg f.a) 3 0))).foldl (fun u g => u.endWork g .reaped) s).writeReg f.d 0).next
      else (s.writeReg f.d 1).next) := by
  unfold execReap
  refine State.perform_ok ?_
  simp only [List.forall_mem_cons, List.not_mem_nil, false_imp_iff, implies_true, and_true]
  exact ⟨State.chkAllot_ok hu (by simp [nums]), State.chkCtx0_ok h, State.chkFull_ok hu (by simp [nums]), State.chkDest_ok hu (by simp [nums])⟩

end

section
variable {s : State} {f : ImmFmt} (hu : s.usable [f.d] = true)
include hu

theorem execPair_trap (h : isCtx0 s.gid = false) : execPair f s = .next (s.raise 0x06 s.word0) := by
  unfold execPair
  refine State.perform_trap ?_
  rw [State.chkAllot_ok hu fun _ m => m, State.chkCtx0_trap h]
  rfl

theorem execPair_eq (h : isCtx0 s.gid = true) : execPair f s = .next
    (if (s.core s.here).paired = f.imm.getLsbD 0 then (s.writeReg f.d 0).next
      else if s.pairFree s.here && s.pairFree (partnerOf s.here) then
        (((s.updCore s.here fun k => { k with paired := f.imm.getLsbD 0 }).updCore (partnerOf s.here) fun k =>
          { k with paired := f.imm.getLsbD 0 }).writeReg f.d 0).next
      else (s.writeReg f.d 1).next) := by
  unfold execPair
  refine State.perform_ok ?_
  simp only [List.forall_mem_cons, List.not_mem_nil, false_imp_iff, implies_true, and_true]
  exact ⟨State.chkAllot_ok hu fun _ m => m, State.chkCtx0_ok h, State.chkDest_ok hu fun _ m => m⟩

end

/-! ### What START finds and does (R213) -/

section
variable {s : State} {a b : W64}

theorem State.startAction_starts (hm : slice a 17 16 = 0) : s.startAction a b =
    if (s.ctx (s.sibling (slice a 3 0))).mode ≠ .idle then ((1 : W64), s)
    else match lowestBase (s.blocks (coreOf (s.sibling (slice a 3 0)))) (8 * slice a 12 8) with
      | none => (2, s)
      | some base => (0, s.startCtx (s.sibling (slice a 3 0)) base (8 * slice a 12 8) b [] .started .none) := by
  simp only [State.startAction, hm] <;> rfl

theorem State.startAction_resumes (hm : slice a 17 16 = 1) : s.startAction a b =
    if (s.ctx (s.sibling (slice a 3 0))).mode ≠ .stopped then ((1 : W64), s)
    else (0, (s.both (s.sibling (slice a 3 0))).foldl State.resume s) := by
  simp only [State.startAction, hm]

/-- A context is to stop at its next slot, unless it is to stop for another reason already. -/
def State.haltNext (s : State) (g : Nat) : State := s.updCtx g fun c => { c with stop := if c.stop = .none then .halt else c.stop }

theorem State.startAction_stops (hm : slice a 17 16 = 2) : s.startAction a b =
    if (s.ctx (s.sibling (slice a 3 0))).mode ≠ .ready && (s.ctx (s.sibling (slice a 3 0))).mode ≠ .parked then ((1 : W64), s)
    else (0, (s.both (s.sibling (slice a 3 0))).foldl State.haltNext s) := by
  simp only [State.startAction, hm]
  rfl

end

/-- Settles O17: the named context by `sibling_eq` and `both_add`, then each instruction by what it finds. -/
theorem contextControl : Obligations.ContextControl := by
  unfold Obligations.ContextControl
  intro s wrote
  refine ⟨fun h => ⟨fun f hu => ⟨execStart_trap hu h, execReap_trap hu h⟩, fun f hu => execPair_trap hu h⟩, fun h => ?_⟩
  intro k p
  refine ⟨fun f hu => ?_, fun f hu => ?_⟩
  · intro a n core g both regs hpaired
    have hn16 : n < 16 := (a.extractLsb' 0 4).isLt
    have hn : slice a 3 0 = n := slice_eq a 3 0
    have hg : s.sibling (slice a 3 0) = g := (s.sibling_eq _).trans (by rw [hn])
    have hboth : s.both g = both := by rw [s.both_add hn16, hpaired]
    have hcore : coreOf g = core := coreOf_add hn16
    have hregs : 8 * slice a 12 8 = regs := by rw [slice_eq a 12 8]
    have hmode : slice a 17 16 = (a.extractLsb' 16 2).toNat := slice_eq a 17 16
    have hreap := execReap_eq hu h
    rw [show s.sibling (slice (s.reg f.a) 3 0) = g from hg, hboth, show isCtx0 g = decide (n = 0) from isCtx0_add_iff hn16] at hreap
    refine ⟨fun ha => ⟨fun hm => ?_, fun hm => ?_, fun hm => ?_⟩, fun ha => execStart_illegal hu h ha, fun h0 hs => ?_, fun hs => ?_⟩
    · have hact := State.startAction_starts (s := s) (b := s.reg f.b) (hmode.trans hm)
      rw [hg, hcore, hregs] at hact
      refine ⟨fun hi => ?_, fun hi hb => ?_, fun b hi hb => ?_⟩
      · exact execStart_ok hu h ha (hact.trans (if_pos hi))
      · exact execStart_ok hu h ha (hact.trans (by rw [if_neg (not_not.2 hi), hb]))
      · exact execStart_ok hu h ha (hact.trans (by rw [if_neg (not_not.2 hi), hb]))
    · have hact := State.startAction_resumes (s := s) (b := s.reg f.b) (hmode.trans hm)
      rw [hg, hboth] at hact
      exact ⟨fun hi => execStart_ok hu h ha (hact.trans (if_pos hi)), fun hi => execStart_ok hu h ha (hact.trans (if_neg (not_not.2 hi)))⟩
    · have hact := State.startAction_stops (s := s) (b := s.reg f.b) (hmode.trans hm)
      rw [hg, hboth] at hact
      refine ⟨fun hi => execStart_ok hu h ha (hact.trans (if_pos ?_)), fun hi => execStart_ok hu h ha (hact.trans (if_neg ?_))⟩
      · simpa using hi
      · simpa [or_iff_not_imp_left] using hi
    · exact hreap.trans (by rw [if_pos (by simp [hs, h0])])
    · have hfound : ¬(decide ((s.ctx g).mode = .stopped) && !decide (n = 0)) = true := by
        rcases hs with h0 | hs
        · simp [h0]
        · simp [hs]
      exact hreap.trans (by rw [if_neg hfound])
  · intro want set
    refine ⟨fun hw => ?_, fun hw hf => ?_, fun hw hf => ?_⟩
    · exact (execPair_eq hu h).trans (by rw [if_pos hw.symm])
    · exact (execPair_eq hu h).trans (by rw [if_neg (Ne.symm hw), hf]; rfl)
    · exact (execPair_eq hu h).trans (by rw [if_neg (Ne.symm hw), if_pos hf])

end Sys2Proof.Machine
end

section
/-!
SUPPORT. What messages leave as it is (spec/02 R49, R52-R55; spec/19 R385): a step that posts messages and marks launches and tenants keeps the cores,
memory and the dies, and everything that was on its way. Then the requests and results that a context sends, alone or from a coupled pair.
-/

namespace Sys2Proof.Machine

open Sys2Proof

/-- The second state has the cores, memory and dies of the first, and all that was in flight in the first is still in flight. -/
structure State.Posts (s t : State) : Prop where
  cpu : t.cpu = s.cpu
  mem : t.mem = s.mem
  dies : t.dies = s.dies
  agenda : ∀ e ∈ s.sched.agenda, e ∈ t.sched.agenda

theorem State.Posts.refl (s : State) : s.Posts s := ⟨rfl, rfl, rfl, fun _ h => h⟩
theorem State.Posts.trans {s t u : State} (h : s.Posts t) (h' : t.Posts u) : s.Posts u :=
  ⟨h'.cpu.trans h.cpu, h'.mem.trans h.mem, h'.dies.trans h.dies, fun e he => h'.agenda e (h.agenda e he)⟩
theorem State.Posts.foldl {α : Type} {f : State → α → State} (hf : ∀ s a, State.Posts s (f s a)) (l : List α) (s : State) : s.Posts (l.foldl f s) := by
  induction l generalizing s with
  | nil => exact .refl s
  | cons a l ih => exact (hf s a).trans (ih (f s a))

/-! ### Messages -/

theorem State.posts_postIn (s : State) (n : Nat) (ev : Instr) : s.Posts (s.postIn n ev) :=
  ⟨rfl, rfl, rfl, fun _ h => List.mem_append_left _ h⟩
theorem State.posts_post (s : State) (ev : Instr) : s.Posts (s.post ev) := s.posts_postIn 0 ev
theorem State.posts_postAll (s : State) (evs : List Instr) : s.Posts (s.postAll evs) := .foldl State.posts_post evs s
theorem State.posts_event (s : State) (tenant kind : Nat) (ctr st : W64) (ws : List W64) : s.Posts (s.event tenant kind ctr st ws) :=
  ⟨rfl, rfl, rfl, fun _ h => List.mem_append_left _ h⟩
theorem State.posts_firewallDrop (s : State) : s.Posts s.firewallDrop := .foldl (fun s _ => s.posts_event ..) _ s
theorem State.posts_fwPost (s : State) (r : Request) : s.Posts (s.fwPost r) := by
  unfold State.fwPost
  split
  · exact s.posts_post _
  · exact s.posts_firewallDrop
theorem State.posts_agentPost (s : State) (unit : Option Nat) (r : Request) : s.Posts (s.agentPost unit r) := by
  cases unit with
  | none => exact s.posts_fwPost r
  | some die => exact s.posts_post _
/-- A counter advances by two requests under one tag. -/
theorem State.posts_advanceBy (s : State) (unit : Option Nat) (tenant : Nat) (ctr st : W64) : s.Posts (s.advanceBy unit tenant ctr st) := by
  have htag : s.Posts s.newTag.2 := ⟨rfl, rfl, rfl, fun _ h => h⟩
  exact ((htag.trans (State.posts_agentPost _ unit _)).trans (State.posts_agentPost _ unit _)).trans (State.posts_post _ _)
theorem State.posts_advanceRetire (s : State) (die tenant : Nat) (ctr : W64) : s.Posts (s.advanceRetire die tenant ctr) := by
  have htag : s.Posts s.newTag.2 := ⟨rfl, rfl, rfl, fun _ h => h⟩
  exact (htag.trans (State.posts_agentPost _ (some die) _)).trans (State.posts_post _ _)

/-! ### The end of work -/

theorem State.posts_updLaunch (s : State) (lid : Nat) (f : Launch → Launch) : s.Posts (s.updLaunch lid f) := ⟨rfl, rfl, rfl, fun _ h => h⟩
theorem State.posts_checkLaunch (s : State) (unit : Option Nat) (lid : Nat) : s.Posts (s.checkLaunch unit lid) := by
  unfold State.checkLaunch
  split
  · exact .refl s
  · next l _ =>
    split
    · dsimp only
      have h := (s.posts_updLaunch lid fun l => { l with state := .advanced }).trans (State.posts_advanceBy _ unit l.tenant l.lctr
        (statusWord l.retired l.partialDone l.reaped l.cancelled))
      split
      · exact h
      · exact h.trans (State.posts_post _ _)
    · exact .refl s
theorem State.posts_liveDown (s : State) (die : Nat) (c : Ctx) (how : EndKind) : s.Posts (s.liveDown die c how) := by
  cases hl : c.lid with
  | none =>
    rw [State.liveDown, hl]
    exact .refl s
  | some lid =>
    rw [State.liveDown_eq hl rfl]
    refine ((s.posts_updLaunch lid (Launch.fewer (decide (c.work = .unit)) how)).trans ?_).trans (State.posts_checkLaunch _ _ _)
    cases State.launch? _ lid with
    | none => exact .refl _
    | some l =>
      rw [Option.map_some, Option.getD_some]
      split
      · exact State.posts_advanceRetire _ _ _ _
      · exact .refl _
theorem State.posts_idleReport (s : State) (tenant : Nat) : s.Posts (s.idleReport tenant) := by
  have hmark (n : Nat) (f : Tenant → Tenant) : s.Posts (s.updTenant n f) := ⟨rfl, rfl, rfl, fun _ h => h⟩
  unfold State.idleReport State.cross
  split
  · exact .refl s
  · split
    · dsimp only
      split
      · split
        · split
          · exact .refl s
          · exact (hmark _ _).trans (State.posts_postIn _ _ _)
        · exact (hmark _ _).trans (State.posts_post _ _)
      · exact (hmark _ _).trans (State.posts_post _ _)
    · exact s.posts_firewallDrop
theorem State.posts_nowIdle (s : State) (g : Nat) : s.Posts (s.nowIdle g) := by
  unfold State.nowIdle
  refine .trans (.trans ?_ (State.posts_postAll _ _)) (State.posts_idleReport _ _)
  split
  · exact .refl s
  · exact s.posts_post _

/-- Work that retires leaves its context Idle and its registers full, and nothing else of the cores changed. -/
theorem State.endWork_retired (s : State) (g : Nat) : State.Posts
    ({ s with cpu := { s.cpu with regEmpty := spFill false s.cpu.regEmpty (1024 * coreOf g + (s.ctx g).base) false (s.ctx g).count } }.setCtx g (s.ctx g).idled)
    (s.endWork g .retired) := by
  have h := s.posts_liveDown (dieOf (coreOf g)) (s.ctx g) .retired
  unfold State.endWork State.toIdle
  dsimp only
  generalize s.liveDown (dieOf (coreOf g)) (s.ctx g) .retired = u at h ⊢
  have hctx : u.ctx g = s.ctx g := by rw [State.ctx, h.cpu]; rfl
  rw [hctx]
  refine State.Posts.trans ?_ (State.posts_nowIdle _ g)
  refine ⟨?_, h.mem, h.dies, h.agenda⟩
  simp only [State.setCtx, h.cpu]

/-! ### Requests and results that leave a core (R385) -/

end Sys2Proof.Machine

namespace Sys2Proof

/-- A message that is a request or a result. -/
def Outbound.light : Outbound → Bool
  | .request _ | .result _ => true
  | _ => false

theorem Outbound.light_cases {o : Outbound} (h : o.light = true) : (∃ r, o = .request r) ∨ ∃ m, o = .result m := by
  cases o with
  | request r => exact .inl ⟨r, rfl⟩
  | result m => exact .inr ⟨m, rfl⟩
  | spawn | task | cancel | fork | engine => exact nomatch h

end Sys2Proof

namespace Sys2Proof.Machine

open Sys2Proof

theorem State.posts_route (s : State) (r : Request) : s.Posts (s.route r) := by
  unfold State.route
  split
  · exact s.posts_post _
  · split <;> exact s.posts_post _

theorem State.posts_deliver {s : State} {o : Outbound} (h : o.light = true) : s.Posts (s.deliver o) := by
  obtain ⟨r, rfl⟩ | ⟨m, rfl⟩ := Outbound.light_cases h
  · exact s.posts_route r
  · exact s.posts_post _

/-- Equal messages are of one kind. -/
theorem State.sameOut_light {s : State} {o q : Outbound} (ho : o.light = true) (h : s.sameOut o q = true) : q.light = true := by
  obtain ⟨r, rfl⟩ | ⟨m, rfl⟩ := Outbound.light_cases ho
  · cases q with
    | request => rfl
    | result | spawn | task | cancel | fork | engine => exact nomatch h
  · cases q with
    | result => rfl
    | request | spawn | task | cancel | fork | engine => exact nomatch h

/-- A request or a result that a context sends leaves its core at once, or waits there for its partner's. -/
theorem State.sendOut_light {s : State} {g : Nat} {o : Outbound} (ho : o.light = true) :
    ∃ cores, State.Posts { s with cpu := { s.cpu with cores := cores } } (s.sendOut g o) := by
  unfold State.sendOut State.sendPaired
  split
  · dsimp only
    split
    · next since _ q rest _ =>
      split
      · next h =>
        have hq : q.light = true := State.sameOut_light ho (Bool.and_eq_true_iff.1 h).2
        have hp : (if idX (coreOf g) % 2 = 0 then (o, q) else (q, o)).1.light = true := by split <;> assumption
        generalize (if idX (coreOf g) % 2 = 0 then (o, q) else (q, o)) = p at hp ⊢
        obtain ⟨even, odd⟩ := p
        dsimp only at hp ⊢
        split
        · exact nomatch hp
        · exact ⟨_, State.posts_deliver hp⟩
      · exact ⟨_, State.posts_post _ _⟩
    · exact ⟨_, State.posts_postIn _ _ _⟩
  · exact ⟨s.cpu.cores, State.posts_deliver ho⟩

theorem State.issueRequest_sends (s : State) (kind : ReqKind) (va data cmp : W64) (ord : BitVec 2) (scope : BitVec 4) (use : Use) (join : Option Nat) :
    s.issueRequest kind va data cmp ord scope use join =
      ((s.emptied use).parkOn (.reply s.sched.rids)).sendOut s.gid (.request { s.requestOut kind va data cmp ord scope use with join := join }) := by
  rw [State.issueRequest]
  dsimp only [State.newRid]
  rw [State.foldl_markEmpty]
  rfl

/-- When a request is issued registers keep their values, and memory its contents. -/
theorem State.issueRequest_keeps (s : State) (kind : ReqKind) (va data cmp : W64) (ord : BitVec 2) (scope : BitVec 4) (use : Use) (join : Option Nat) :
    (s.issueRequest kind va data cmp ord scope use join).cpu.regs = s.cpu.regs ∧ (s.issueRequest kind va data cmp ord scope use join).mem = s.mem := by
  rw [State.issueRequest_sends]
  obtain ⟨cores, hcpu, hmem, -, -⟩ := State.sendOut_light (s := (s.emptied use).parkOn (.reply s.sched.rids)) (g := s.gid)
    (o := .request { s.requestOut kind va data cmp ord scope use with join := join }) rfl
  have hregs := congrArg Cpu.regs hcpu
  exact ⟨hregs, hmem⟩

end Sys2Proof.Machine
end

section
/-!
SUPPORT. REP and BLK (spec/08 R202-R204; spec/20 R397), and the RET that ends work (spec/08 R200; spec/02 R55, R65; spec/19 R385).
-/

namespace Sys2Proof.Machine

open Sys2Proof

/-! ### One issue of REP -/

/-- What REP runs is the instruction's own meaning. -/
theorem repeatable_exec {i : Instr} {run : State → Result} (h : repeatable i = some run) (u : State) : run u = exec i u := by
  unfold repeatable at h
  split at h <;> cases h <;> rfl

section
variable {s : State} {f : RegFmt} {ws : List W32} {i : Instr} {rest : Nat} {run : State → Result} (hws : s.bodyWords = .ok ws)
  (hi : decode ws = .ok (i, rest)) (hrun : repeatable i = some run) (hdest : bodyDest i ≠ some f.d) (hop : bodyOpcode (ws.headD 0) = true)
  (hu : s.usable [f.d] = true)
include hws hi hrun hdest hop hu

theorem execRep_eq : execRep f s = s.repeatOnce f.d ws (some run) := by
  have hvalue : s.chkValue (bodyOpcode (ws.headD 0) && decide (bodyDest i ≠ some f.d)) = .ok :=
    Check.need_eq_ok.2 (by rw [hop, decide_eq_true hdest]; rfl)
  simp only [execRep, hws, hi, hrun, hvalue, State.chkAllot_ok hu fun _ m => m, State.chkFull_ok hu fun _ m => m, Check.first_ok, Check.first_nil]

end

/-- The slot while REP's body runs: the PC stays, and the body's words are kept where it parks. -/
def Slot.body (x : Slot) (ws : List W32) : Slot :=
  { x with len := 0, w0 := ws.headD 0, words := x.words.take 1 ++ ws, again := x.again && decide (x.words.drop 1 ≠ []) }

theorem State.repeatOnce_zero {s : State} {d : BitVec 7} (ws : List W32) (body : Option (State → Result)) (h : s.reg d = 0) :
    s.repeatOnce d ws body = .next (s.pastBody ws) := if_pos h

theorem State.repeatOnce_next {s t : State} {d : BitVec 7} {ws : List W32} {run : State → Result} (h : s.reg d ≠ 0)
    (ht : run (s.withSlot (s.sched.slot.body ws)) = .next t) : s.repeatOnce d ws (some run) = .next (t.repDone d (s.reg d) ws) := by
  have hrun : s.repeatOnce d ws (some run) = match run (s.withSlot (s.sched.slot.body ws)) with
      | .next s' => .next (s'.repDone d (s.reg d) ws)
      | .fault r => .fault r
      | .refused r => .refused r := if_neg h
  rw [hrun, ht]

theorem State.repDone_eq (t : State) (d : BitVec 7) (n : W64) (ws : List W32) : t.repDone d n ws =
    if t.cur.mode = .ready then (if n = 1 then (t.writeReg d 0).pastBody ws else t.writeReg d (n - 1)) else t := by
  unfold State.repDone
  by_cases hn : n = 1
  · subst hn
    rfl
  · simp only [if_neg hn]

/-! ### One issue of BLK -/

section
variable {s : State} {f : RegFmt} (hu : s.usable [f.d, f.a, f.b] = true)
include hu

theorem execBlk_done (hb : s.reg f.b = 0) : execBlk f s = .next s.next := by
  simp only [execBlk, hb, if_true]
  refine State.perform_ok ?_
  simpa using State.sourceChecks_ok hu

theorem execBlk_word (hb : s.reg f.b ≠ 0) (ha : s.goodAddr (s.reg f.a) 8 = true) (hd : s.goodAddr (s.reg f.d) 8 = true) :
    execBlk f s = .next (s.blkWord f) := by
  obtain ⟨haddr, hapeer⟩ := State.goodAddr_checks ha
  obtain ⟨hdaddr, hdpeer⟩ := State.goodAddr_checks hd
  simp only [execBlk, haddr, hapeer, hdaddr, hdpeer, ite_self]
  refine (State.perform_ok ?_).trans (by rw [if_neg hb])
  simpa using State.sourceChecks_ok hu

theorem execBlk_trap (hb : s.reg f.b ≠ 0) (ha : ¬(malformed (s.reg f.a) = false ∧ (s.reg f.a).toNat % 8 = 0)) :
    execBlk f s = .next (s.raise 0x04 (s.reg f.a)) := by
  simp only [execBlk, if_neg hb, chkAddr_trap ha]
  refine State.perform_trap ?_
  rw [State.chkAllot_ok hu fun _ m => m, State.chkFull_ok hu fun _ m => m]
  rfl

end

/-- Settles O11: one repetition as `repeatOnce` and `repDone_eq` give it, and the three ends of an issue of BLK. -/
theorem repeatsAndBlocks : Obligations.RepeatsAndBlocks := by
  unfold Obligations.RepeatsAndBlocks
  refine ⟨fun f s ws i rest run hws hi hrun hdest hop hu => ?_, fun f s hu => ⟨execBlk_done hu, fun hb ha hd => ?_, fun hb ha => ?_⟩⟩
  · intro past
    have hrep := execRep_eq hws hi hrun hdest hop hu
    refine ⟨fun h0 => hrep.trans (State.repeatOnce_zero ws _ h0), fun h0 => ⟨repeatable_exec hrun _, fun t ht => ?_⟩⟩
    refine (hrep.trans (State.repeatOnce_next h0 ((repeatable_exec hrun _).trans ht))).trans ?_
    rw [State.repDone_eq]
    rfl
  · refine ⟨s.blkWord f, execBlk_word hu hb ha hd, ?_⟩
    obtain ⟨hregs, hmem⟩ := State.issueRequest_keeps (s.withSlot { s.sched.slot with len := 0 }) (.load 8 false) (s.reg f.a) 0 0 0 0
      (.blkLoad f.d.toNat f.a.toNat f.b.toNat) none
    exact ⟨hregs, hmem, rfl⟩
  · refine execBlk_trap hu hb fun h => ?_
    rcases ha with ha | ha
    · exact absurd h.1 (by simp [ha])
    · exact ha h.2

/-! ### RET that ends work -/

/-- What a retiring task sends to its caller. -/
def State.sendResult (s : State) (g : Nat) : State :=
  match resultFor (s.ctx g) (s.regAt g 0) with
  | some m => s.sendOut g (.result m)
  | none => s

theorem State.retire_eq (s : State) (g : Nat) : s.retire g = (s.sendResult g).endWork g .retired := by
  unfold State.retire State.sendResult
  cases resultFor (s.ctx g) (s.regAt g 0) <;> rfl

theorem State.sendResult_keeps (s : State) (g : Nat) : ∃ cores, State.Posts { s with cpu := { s.cpu with cores := cores } } (s.sendResult g) := by
  unfold State.sendResult
  split
  · exact State.sendOut_light rfl
  · exact ⟨s.cpu.cores, .refl s⟩

/-- A task's result from a core of its own is on its way to the caller. -/
theorem State.sendResult_alone {s : State} {m : Reply} (h : resultFor (s.ctx s.gid) (s.regAt s.gid 0) = some m)
    (hp : (s.core s.here).paired = false) : s.sendResult s.gid = s.post (.deposit m) := by
  rw [State.sendResult, h]
  exact State.sendOut_alone (.inl hp)

/-- A task's result from a coupled core waits there, where the partner has sent nothing of that context. -/
theorem State.sendResult_paired {s : State} {m : Reply} (h : resultFor (s.ctx s.gid) (s.regAt s.gid 0) = some m)
    (hp : (s.core s.here).paired = true) (h0 : isCtx0 s.gid = false) (hnone : ∀ x ∈ (s.core (partnerOf s.here)).pairOut, x.2.1 ≠ ctxNo s.gid) :
    s.sendResult s.gid =
      (s.updCore s.here fun k => { k with pairOut := k.pairOut ++ [(s.sched.now, ctxNo s.gid, .result m)] }).postIn 1025 .checkedPairTimeout := by
  have hsend : ((s.core (coreOf s.gid)).paired && !isCtx0 s.gid) = true := by
    rw [h0, show (s.core (coreOf s.gid)).paired = true from hp]
    rfl
  have htake : takeFirst (fun x : Nat × Nat × Outbound => decide (x.2.1 = ctxNo s.gid)) (s.core (partnerOf (coreOf s.gid))).pairOut = none :=
    takeFirst_eq_none fun x hx => decide_eq_false (hnone x hx)
  rw [State.sendResult, h]
  dsimp only
  rw [State.sendOut, if_pos hsend, State.sendPaired]
  dsimp only
  rw [htake]
  rfl

/-- Retiring leaves the context Idle and its registers full; cores aside, the rest of the contexts' state stays. -/
theorem State.retire_keeps {s : State} (hs : s.Canon) (g : Nat) :
    (s.retire g).ctx g = (s.ctx g).idled ∧ (∀ n, n < (s.ctx g).count → spGet false (s.retire g).cpu.regEmpty (s.regKey g n) = false) ∧
      (s.retire g).cpu.regs = s.cpu.regs ∧ (s.retire g).mem = s.mem ∧ (s.retire g).cpu.ab = s.cpu.ab ∧ (s.retire g).cpu.ps = s.cpu.ps ∧
      (s.retire g).cpu.wb = s.cpu.wb ∧ (s.retire g).cpu.tiles = s.cpu.tiles ∧ (s.retire g).dies = s.dies := by
  obtain ⟨cores, hcpu, hmem, hdies, -⟩ := s.sendResult_keeps g
  obtain ⟨tcpu, tmem, tdies, -⟩ := (s.sendResult g).endWork_retired g
  have hctx : (s.sendResult g).ctx g = s.ctx g := by rw [State.ctx, hcpu]; rfl
  rw [hctx] at tcpu
  simp only [State.setCtx, hcpu] at tcpu
  rw [State.retire_eq]
  refine ⟨?_, fun n hn => ?_, by rw [tcpu], tmem.trans hmem, by rw [tcpu], by rw [tcpu], by rw [tcpu], by rw [tcpu], tdies.trans hdies⟩
  · rw [State.ctx, congrArg Cpu.ctxs tcpu]
    exact (State.ctx_setCtx hs g _ g).trans (if_pos rfl)
  · rw [congrArg Cpu.regEmpty tcpu]
    exact (spGet_spFill hs.regEmpty _).trans (if_pos (by simp only [State.regKey]; omega))

/-- Settles O12: RET ends the work by `retire_keeps`, and a task's result leaves or waits before that. -/
theorem workEnds : Obligations.WorkEnds := by
  unfold Obligations.WorkEnds
  intro f s hcanon hlink
  have hs : s.Canon := State.canonical_iff.mp hcanon
  have hret : exec (.ret f) s = s.perform [s.chkValue (!isCtx0 s.gid)] State.finishWork := if_neg (not_not.2 hlink)
  refine ⟨fun h0 => ?_, fun h0 hst => ?_⟩
  · rw [hret, h0]
    rfl
  · have hfinish : exec (.ret f) s = .next (if s.awaitsDeposit s.gid then s.parkOn .deposits else s.retire s.gid) := by
      have hstores : s.finishWork = if s.awaitsDeposit s.gid then s.parkOn .deposits else s.retire s.gid := if_neg (by simp [hst])
      rw [hret, h0, ← hstores]
      rfl
    refine ⟨fun hd => by rw [hfinish, if_pos hd], fun hd => ⟨s.retire s.gid, by rw [hfinish, if_neg (by simp [hd])], ?_⟩⟩
    obtain ⟨hctx, hempty, hregs, hmem, hab, hps, hwb, htiles, hdies⟩ := State.retire_keeps hs s.gid
    obtain ⟨tcpu, -, -, tagenda⟩ := (s.sendResult s.gid).endWork_retired s.gid
    refine ⟨hctx, hempty, hregs, hmem, hab, hps, hwb, htiles, hdies, fun g gen d hw => ?_⟩
    intro m
    have hm : resultFor (s.ctx s.gid) (s.regAt s.gid 0) = some m := by
      rw [resultFor, show (s.ctx s.gid).work = .task g gen d from hw]
    rw [State.retire_eq]
    refine ⟨fun hp => ?_, fun hp hnone => ?_⟩
    · refine tagenda _ ?_
      rw [State.sendResult_alone hm hp]
      exact List.mem_append_right _ (List.mem_singleton_self _)
    · rw [State.core, congrArg Cpu.cores tcpu, State.sendResult_paired hm hp h0 hnone]
      have hcore := State.core_updCore_same hs s.here fun k => { k with pairOut := k.pairOut ++ [(s.sched.now, ctxNo s.gid, .result m)] }
      exact congrArg Core.pairOut hcore

end Sys2Proof.Machine
end


section
/-!
SUPPORT. A rounded quotient is the nearest integer, the even one of two (spec/06 R152): what `roundsToInt` gives, and that `divRound`
gives it.
-/

namespace Sys2Proof.Machine

open Sys2Proof

/-! ### The nearest integer -/

variable {x : ℚ} {i j : ℤ}

theorem roundsToInt_neg (h : roundsToInt x i) : roundsToInt (-x) (-i) := by
  obtain ⟨hle, heven⟩ := h
  have habs : |-x - ((-i : ℤ) : ℚ)| = |x - i| := by rw [Int.cast_neg, ← neg_sub', abs_neg]
  rw [roundsToInt, habs]
  exact ⟨hle, fun h => by have := heven h; omega⟩

/-- No integer is nearer, and where another is as near the rounded one is even. -/
theorem roundsToInt_nearest (h : roundsToInt x i) (k : ℤ) : |x - i| ≤ |x - k| ∧ (|x - i| = |x - k| → k ≠ i → i % 2 = 0) := by
  obtain ⟨hle, heven⟩ := h
  rcases eq_or_ne k i with rfl | hk
  · exact ⟨le_rfl, fun _ hne => absurd rfl hne⟩
  · have hone : (1 : ℚ) ≤ |(i : ℚ) - k| := by exact_mod_cast Int.one_le_abs (sub_ne_zero.2 hk.symm)
    have htri : |(i : ℚ) - k| ≤ |x - i| + |x - k| := by
      rw [abs_sub_comm x i]
      exact abs_sub_le _ _ _
    exact ⟨by linarith, fun heq _ => heven (by linarith)⟩

theorem roundsToInt_unique (hi : roundsToInt x i) (hj : roundsToInt x j) : i = j := by
  by_contra hne
  obtain ⟨hij, hieven⟩ := roundsToInt_nearest hi j
  obtain ⟨hji, hjeven⟩ := roundsToInt_nearest hj i
  have heq := le_antisymm hij hji
  have hi2 := hieven heq (Ne.symm hne)
  have hj2 := hjeven heq.symm hne
  have hnear : |(i : ℚ) - j| ≤ 1 := by
    have := abs_sub_le (i : ℚ) x j
    rw [abs_sub_comm (i : ℚ) x] at this
    linarith [hi.1, hj.1]
  have : |i - j| ≤ 1 := by exact_mod_cast hnear
  rw [abs_le] at this
  omega

/-- Where the rounded integer is above `k`: from the middle on where `k` is odd, and past the middle where it is even. -/
theorem lt_roundsToInt_iff (h : roundsToInt x i) (k : ℤ) : k < i ↔ if k % 2 = 1 then (k : ℚ) + 1 / 2 ≤ x else (k : ℚ) + 1 / 2 < x := by
  obtain ⟨hle, heven⟩ := h
  obtain ⟨hlow, hhigh⟩ := abs_le.1 hle
  constructor
  · intro hki
    have hki' : (k : ℚ) + 1 ≤ i := by exact_mod_cast hki
    split
    · linarith
    · next hk =>
      refine lt_of_le_of_ne (by linarith) fun heq => ?_
      have hi : (i : ℚ) = k + 1 := by linarith
      have hi2 := heven (by rw [← heq, hi]; norm_num)
      have : i = k + 1 := by exact_mod_cast hi
      omega
  · intro hk
    by_contra hik
    have hik' : (i : ℚ) ≤ k := by exact_mod_cast not_lt.1 hik
    split at hk
    · next hodd =>
      have hi : (i : ℚ) = k := by linarith
      have hi2 := heven (by rw [hi, abs_of_nonneg] <;> linarith)
      have : i = k := by exact_mod_cast hi
      omega
    · linarith

/-- An integer at most the number is at most its rounding. -/
theorem le_roundsToInt (h : roundsToInt x i) {k : ℤ} (hk : (k : ℚ) ≤ x) : k ≤ i := by
  by_contra hik
  have hik' : (i : ℚ) + 1 ≤ k := by exact_mod_cast not_le.1 hik
  have := (abs_le.1 h.1).2
  linarith

theorem roundsToInt_le (h : roundsToInt x i) {k : ℤ} (hk : x ≤ k) : i ≤ k := by
  have := le_roundsToInt (roundsToInt_neg h) (k := -k) (by push_cast; linarith)
  omega

/-! ### The rounded quotient -/

theorem natDiv_roundsToInt (n : Nat) {d : Nat} (hd : d ≠ 0) :
    roundsToInt ((n : ℚ) / d) ((if 2 * (n % d) > d || (2 * (n % d) = d && n / d % 2 = 1) then n / d + 1 else n / d : Nat) : ℤ) := by
  have hpos : (0 : ℚ) < d := by exact_mod_cast Nat.pos_of_ne_zero hd
  have hn : (n : ℚ) / d = (n / d : Nat) + (n % d : Nat) / d := by
    rw [eq_comm, ← eq_sub_iff_add_eq', div_eq_iff hpos.ne', sub_mul, div_mul_cancel₀ _ hpos.ne', eq_sub_iff_add_eq]
    exact_mod_cast Nat.mod_add_div' n d
  have hlt : ((n % d : Nat) : ℚ) / d < 1 := by
    rw [div_lt_one hpos]
    exact_mod_cast Nat.mod_lt n (Nat.pos_of_ne_zero hd)
  have h0 : (0 : ℚ) ≤ ((n % d : Nat) : ℚ) / d := by positivity
  have hhalf : ((n % d : Nat) : ℚ) / d = 1 / 2 ↔ 2 * (n % d) = d := by
    rw [div_eq_div_iff hpos.ne' two_ne_zero, one_mul, mul_comm]
    exact_mod_cast Iff.rfl
  have hmore : 1 / 2 < ((n % d : Nat) : ℚ) / d ↔ d < 2 * (n % d) := by
    rw [div_lt_div_iff₀ two_pos hpos, one_mul, mul_comm]
    exact_mod_cast Iff.rfl
  rw [hn, roundsToInt, Int.cast_natCast]
  set r := ((n % d : Nat) : ℚ) / d
  by_cases hup : 2 * (n % d) > d || (2 * (n % d) = d && n / d % 2 = 1)
  · rw [if_pos hup]
    simp only [Bool.or_eq_true, Bool.and_eq_true, decide_eq_true_eq, gt_iff_lt, ← hmore, ← hhalf] at hup
    have hge : 1 / 2 ≤ r := hup.elim le_of_lt fun h => h.1.ge
    have habs : |((n / d : Nat) : ℚ) + r - ((n / d + 1 : Nat) : ℚ)| = 1 - r := by
      rw [Nat.cast_add_one, abs_sub_comm, abs_of_nonneg] <;> linarith
    rw [habs]
    refine ⟨by linarith, fun h => ?_⟩
    obtain h' | ⟨-, hodd⟩ := hup
    · linarith
    · omega
  · rw [if_neg hup]
    simp only [Bool.or_eq_true, Bool.and_eq_true, decide_eq_true_eq, gt_iff_lt, ← hmore, ← hhalf, not_or, not_lt, not_and] at hup
    have habs : |((n / d : Nat) : ℚ) + r - ((n / d : Nat) : ℚ)| = r := by rw [add_sub_cancel_left, abs_of_nonneg h0]
    rw [habs]
    refine ⟨hup.1, fun h => ?_⟩
    have := hup.2 h
    omega

theorem natDiv_inexact_iff (n : Nat) {d : Nat} (hd : d ≠ 0) :
    n % d ≠ 0 ↔ ((if 2 * (n % d) > d || (2 * (n % d) = d && n / d % 2 = 1) then n / d + 1 else n / d : Nat) : ℚ) ≠ (n : ℚ) / d := by
  have hpos : (d : ℚ) ≠ 0 := by exact_mod_cast hd
  refine not_congr ⟨fun h => ?_, fun h => ?_⟩
  · rw [h, if_neg (by simp [Ne.symm hd])]
    exact Nat.cast_div (Nat.dvd_of_mod_eq_zero h) hpos
  · rw [eq_div_iff hpos] at h
    rw [← Nat.cast_mul, Nat.cast_inj] at h
    rw [← h]
    exact Nat.mul_mod_left _ _

/-- The numerator and denominator that `divRound` divides have the quotient num/den · 2^sh. -/
theorem shifted_quotient (num : Nat) {den : Nat} (hd : den ≠ 0) (sh : Int) :
    ∃ n d : Nat, d ≠ 0 ∧ (num / den * 2 ^ sh : ℚ) = n / d ∧
      divRound num den sh = (if 2 * (n % d) > d || (2 * (n % d) = d && n / d % 2 = 1) then n / d + 1 else n / d, decide (n % d ≠ 0)) := by
  rcases le_or_gt 0 sh with h | h
  · obtain ⟨t, rfl⟩ := Int.eq_ofNat_of_zero_le h
    refine ⟨num * 2 ^ t, den, hd, ?_, ?_⟩
    · rw [zpow_natCast]
      push_cast
      ring
    · simp only [divRound, if_pos h, Int.toNat_natCast]
  · obtain ⟨t, ht⟩ := Int.eq_ofNat_of_zero_le (show 0 ≤ -sh by omega)
    refine ⟨num, den * 2 ^ t, mul_ne_zero hd (by positivity), ?_, ?_⟩
    · rw [show sh = -(t : Int) by omega, zpow_neg, zpow_natCast, ← div_eq_mul_inv, div_div]
      push_cast
      rfl
    · simp only [divRound, if_neg h.not_ge, ht, Int.toNat_natCast]

theorem divRound_rounds {num den : Nat} (hd : den ≠ 0) (sh : Int) : roundsToInt (num / den * 2 ^ sh) (divRound num den sh).1 := by
  obtain ⟨n, d, hd', hx, hdr⟩ := shifted_quotient num hd sh
  rw [hx, hdr]
  exact natDiv_roundsToInt n hd'

theorem divRound_inexact {num den : Nat} (hd : den ≠ 0) (sh : Int) :
    (divRound num den sh).2 = decide (((divRound num den sh).1 : ℚ) ≠ num / den * 2 ^ sh) := by
  obtain ⟨n, d, hd', hx, hdr⟩ := shifted_quotient num hd sh
  rw [hx, hdr]
  exact decide_eq_decide.2 (natDiv_inexact_iff n hd')

/-! ### The binary logarithm -/

theorem ratLog2_le {num den : Nat} (hn : num ≠ 0) (hd : den ≠ 0) : (2 : ℚ) ^ ratLog2 num den ≤ num / den := by
  have hn' : (2 : ℚ) ^ (Nat.log2 num) ≤ num := by exact_mod_cast Nat.log2_self_le hn
  have hd' : (den : ℚ) < 2 ^ (Nat.log2 den + 1) := by exact_mod_cast Nat.lt_log2_self
  have hpos : (0 : ℚ) < den := by exact_mod_cast Nat.pos_of_ne_zero hd
  rw [le_div_iff₀ hpos]
  set a : Int := (Nat.log2 num : Int) - Nat.log2 den with ha
  have hwide : (2 : ℚ) ^ (a - 1) * den ≤ num := by
    calc (2 : ℚ) ^ (a - 1) * den ≤ 2 ^ (a - 1) * 2 ^ (Nat.log2 den + 1) := by gcongr
      _ = 2 ^ (Nat.log2 num) := by
        rw [← zpow_natCast, ← zpow_natCast, ← zpow_add₀ two_ne_zero]
        congr 1
        push_cast
        omega
      _ ≤ num := hn'
  unfold ratLog2
  dsimp only
  rw [← ha]
  split_ifs with h0 h h
  · obtain ⟨t, ht⟩ := Int.eq_ofNat_of_zero_le h0
    rw [ht, Int.toNat_natCast] at h
    rw [ht, zpow_natCast, mul_comm]
    exact_mod_cast h
  · exact hwide
  · obtain ⟨t, ht⟩ := Int.eq_ofNat_of_zero_le (show 0 ≤ -a by omega)
    rw [ht, Int.toNat_natCast] at h
    rw [show a = -(t : Int) by omega, zpow_neg, zpow_natCast, inv_mul_le_iff₀ (by positivity), mul_comm]
    exact_mod_cast h
  · exact hwide

end Sys2Proof.Machine
end


section
/-!
SUPPORT. The formats with a regular layout, and the value of their bits (spec/06 R148, Table 6.2): sign, exponent and mantissa fields of a number,
the unit of a magnitude and the largest one.
-/

namespace Sys2Proof.Machine

open Sys2Proof

/-- A magnitude with a sign. -/
def signed (neg : Bool) (t : ℚ) : ℚ := if neg then -t else t

theorem signed_neg (t : ℚ) : signed true t = -t := rfl

theorem signed_pos (t : ℚ) : signed false t = t := rfl

theorem abs_signed (neg : Bool) {t : ℚ} (ht : 0 ≤ t) : |signed neg t| = t := by
  cases neg
  · exact abs_of_nonneg ht
  · rw [signed_neg, abs_neg, abs_of_nonneg ht]

theorem signed_lt_zero (neg : Bool) {t : ℚ} (ht : 0 < t) : signed neg t < 0 ↔ neg = true := by
  cases neg
  · simp [signed_pos, ht.le]
  · simp [signed_neg, ht]

theorem signed_eq_zero (neg : Bool) (t : ℚ) : signed neg t = 0 ↔ t = 0 := by
  cases neg
  · exact Iff.rfl
  · exact neg_eq_zero

theorem abs_signed_sub (neg : Bool) (a t : ℚ) : |signed neg a - signed neg t| = |a - t| := by
  cases neg
  · rfl
  · rw [signed_neg, signed_neg, neg_sub_neg, abs_sub_comm]

theorem signed_signed (neg : Bool) (t : ℚ) : signed neg (signed neg t) = t := by
  cases neg
  · rfl
  · exact neg_neg t

theorem signed_eq_iff (neg : Bool) (a t : ℚ) : signed neg a = signed neg t ↔ a = t := by
  cases neg
  · exact Iff.rfl
  · exact neg_inj

theorem abs_sub_signed (neg : Bool) (y t : ℚ) : |y - signed neg t| = |signed neg y - t| := by
  conv_lhs => rw [← signed_signed neg y]
  exact abs_signed_sub neg _ t

/-! ### Fields -/

namespace FpFormat

variable {p : FpFormat}

/-- The bits of a sign, an exponent field and a mantissa field. -/
def bits (p : FpFormat) (neg : Bool) (e m : Nat) : Nat := bitAt neg (p.manBits + p.expBits) + e * 2 ^ p.manBits + m

theorem width_pred (p : FpFormat) : p.width - 1 = p.manBits + p.expBits := by
  rw [FpFormat.width]
  omega

theorem bits_eq (p : FpFormat) (neg : Bool) (e m : Nat) : p.bits neg e m = neg.toNat * 2 ^ (p.manBits + p.expBits) + (e * 2 ^ p.manBits + m) := by
  cases neg
  · simp [bits, bitAt]
  · simp [bits, bitAt]
    ring

section
variable {neg : Bool} {e m : Nat}

theorem bits_mantissa (hm : m < 2 ^ p.manBits) : p.bits neg e m % 2 ^ p.manBits = m := by
  have : p.bits neg e m = 2 ^ p.manBits * (neg.toNat * 2 ^ p.expBits + e) + m := by
    rw [bits_eq, pow_add]
    ring
  rw [this, Nat.mul_add_mod, Nat.mod_eq_of_lt hm]

variable (he : e < 2 ^ p.expBits) (hm : m < 2 ^ p.manBits)
include he hm

theorem magnitude_lt : e * 2 ^ p.manBits + m < 2 ^ (p.manBits + p.expBits) := by
  have h1 : (e + 1) * 2 ^ p.manBits ≤ 2 ^ p.expBits * 2 ^ p.manBits := Nat.mul_le_mul_right _ he
  rw [pow_add, mul_comm (2 ^ p.manBits)]
  linarith [add_mul e 1 (2 ^ p.manBits)]

theorem bits_magnitude : p.bits neg e m % 2 ^ (p.width - 1) = e * 2 ^ p.manBits + m := by
  rw [bits_eq, p.width_pred, Nat.mul_comm, Nat.mul_add_mod, Nat.mod_eq_of_lt (magnitude_lt he hm)]

theorem bits_sign : (p.bits neg e m).testBit (p.width - 1) = neg := by
  rw [bits_eq, p.width_pred, Nat.testBit_eq_decide_div_mod_eq, Nat.mul_comm, Nat.mul_add_div (Nat.two_pow_pos _),
    Nat.div_eq_of_lt (magnitude_lt he hm)]
  cases neg <;> rfl

theorem bits_lt : p.bits neg e m < 2 ^ p.width := p.fields_lt (bitAt_le _ _) he hm

theorem bits_exponent : p.bits neg e m / 2 ^ p.manBits % 2 ^ p.expBits = e := by
  have : p.bits neg e m = 2 ^ p.manBits * (2 ^ p.expBits * neg.toNat + e) + m := by
    rw [bits_eq, pow_add]
    ring
  rw [this, Nat.mul_add_div (Nat.two_pow_pos _), Nat.div_eq_of_lt hm, Nat.add_zero, Nat.mul_add_mod, Nat.mod_eq_of_lt he]

end

/-- Bits in the width are those of their fields. -/
theorem eq_bits {x : Nat} (hx : x < 2 ^ p.width) :
    x = p.bits (x.testBit (p.width - 1)) (x / 2 ^ p.manBits % 2 ^ p.expBits) (x % 2 ^ p.manBits) := by
  have hsign : (x.testBit (p.width - 1)).toNat = x / 2 ^ (p.manBits + p.expBits) := by
    have hlt : x / 2 ^ (p.manBits + p.expBits) < 2 := by
      rw [Nat.div_lt_iff_lt_mul (Nat.two_pow_pos _), ← pow_succ']
      exact lt_of_lt_of_eq hx (by rw [FpFormat.width]; ring)
    rw [p.width_pred, Nat.toNat_testBit, Nat.mod_eq_of_lt hlt]
  rw [bits_eq, hsign]
  have h1 := Nat.div_add_mod x (2 ^ p.manBits)
  have h2 := Nat.div_add_mod (x / 2 ^ p.manBits) (2 ^ p.expBits)
  rw [Nat.div_div_eq_div_mul, ← pow_add] at h2
  calc x = 2 ^ p.manBits * (2 ^ p.expBits * (x / 2 ^ (p.manBits + p.expBits)) + x / 2 ^ p.manBits % 2 ^ p.expBits) + x % 2 ^ p.manBits := by rw [h2, h1]
    _ = _ := by
      rw [pow_add]
      ring

/-! ### The value of fields -/

/-- The exponent of the least unit of a format. -/
def low (p : FpFormat) : Int := 1 - p.bias - p.manBits

/-- The significand and the exponent of the unit of an exponent field and a mantissa field. -/
def significand (p : FpFormat) (e m : Nat) : Nat := if e = 0 then m else 2 ^ p.manBits + m
def unit (p : FpFormat) (e : Nat) : Int := if e = 0 then p.low else e - p.bias - p.manBits

/-- The exponent field and the mantissa field of a number. -/
def exponentOf (p : FpFormat) (x : Nat) : Nat := x / 2 ^ p.manBits % 2 ^ p.expBits
def mantissaOf (p : FpFormat) (x : Nat) : Nat := x % 2 ^ p.manBits

theorem exponentOf_lt (p : FpFormat) (x : Nat) : p.exponentOf x < 2 ^ p.expBits := Nat.mod_lt _ (Nat.two_pow_pos _)

theorem mantissaOf_lt (p : FpFormat) (x : Nat) : p.mantissaOf x < 2 ^ p.manBits := Nat.mod_lt _ (Nat.two_pow_pos _)

theorem significand_lt {e m : Nat} (hm : m < 2 ^ p.manBits) : p.significand e m < 2 ^ (p.manBits + 1) := by
  rw [significand, pow_succ]
  split <;> omega

theorem low_le_unit (p : FpFormat) (e : Nat) : p.low ≤ p.unit e := by
  rw [unit]
  split
  · exact le_rfl
  · rw [low]
    omega

/-- The magnitude of a number, as its significand and its unit. -/
def size (p : FpFormat) (x : Nat) : ℚ := p.significand (p.exponentOf x) (p.mantissaOf x) * 2 ^ p.unit (p.exponentOf x)

theorem size_nonneg (p : FpFormat) (x : Nat) : 0 ≤ p.size x := by
  rw [size]
  positivity

theorem size_of_exponent_zero {x : Nat} (h : p.exponentOf x = 0) : p.size x = p.mantissaOf x * 2 ^ (1 - p.bias - p.manBits) := by
  rw [size, significand, unit, if_pos h, if_pos h, low]

theorem size_of_exponent_pos {x : Nat} (h : p.exponentOf x ≠ 0) :
    p.size x = (2 ^ p.manBits + p.mantissaOf x) * 2 ^ (p.exponentOf x - p.bias - p.manBits) := by
  rw [size, significand, unit, if_neg h, if_neg h, Nat.cast_add, Nat.cast_pow, Nat.cast_ofNat]

theorem value_eq (p : FpFormat) (x : Nat) : p.value x = signed (x.testBit (p.width - 1)) (p.size x) := by
  by_cases h : p.exponentOf x = 0
  · rw [size_of_exponent_zero h]
    exact congrArg (signed _) (if_pos h)
  · rw [size_of_exponent_pos h]
    exact congrArg (signed _) (if_neg h)

theorem size_bits {neg : Bool} {e m : Nat} (he : e < 2 ^ p.expBits) (hm : m < 2 ^ p.manBits) :
    p.size (p.bits neg e m) = p.significand e m * 2 ^ p.unit e := by
  rw [size, exponentOf, mantissaOf, bits_exponent he hm, bits_mantissa hm]

theorem value_bits {neg : Bool} {e m : Nat} (he : e < 2 ^ p.expBits) (hm : m < 2 ^ p.manBits) :
    p.value (p.bits neg e m) = signed neg (p.significand e m * 2 ^ p.unit e) := by
  rw [value_eq, bits_sign he hm, size_bits he hm]

/-- Every value is a multiple of a unit 2^u, or is smaller than what has that unit. -/
theorem value_grid (p : FpFormat) (neg : Bool) (y : Nat) (u : Int) :
    (∃ k : ℤ, signed neg (p.value y) = k * 2 ^ u) ∨ (|p.value y| < 2 ^ (u + p.manBits) ∧ p.low < u) := by
  rw [value_eq]
  set n := p.significand (p.exponentOf y) (p.mantissaOf y)
  have hn : n < 2 ^ (p.manBits + 1) := significand_lt (p.mantissaOf_lt y)
  set v := p.unit (p.exponentOf y)
  have hsize : p.size y = n * 2 ^ v := rfl
  rcases le_or_gt u v with huv | huv
  · obtain ⟨t, ht⟩ := Int.eq_ofNat_of_zero_le (sub_nonneg.2 huv)
    have hmul : p.size y = ((n * 2 ^ t : Nat) : ℤ) * 2 ^ u := by
      rw [hsize, show v = t + u by omega, zpow_add₀ two_ne_zero, zpow_natCast]
      push_cast
      ring
    left
    have hneg : -p.size y = ((-(n * 2 ^ t : Nat) : ℤ) : ℚ) * 2 ^ u := by
      rw [hmul, Int.cast_neg, neg_mul]
    cases neg <;> cases y.testBit (p.width - 1)
    · exact ⟨_, hmul⟩
    · exact ⟨_, hneg⟩
    · exact ⟨_, hneg⟩
    · exact ⟨_, (neg_neg _).trans hmul⟩
  · right
    refine ⟨?_, lt_of_le_of_lt (p.low_le_unit _) huv⟩
    rw [abs_signed _ (p.size_nonneg y), hsize]
    calc (n : ℚ) * 2 ^ v < 2 ^ (p.manBits + 1) * 2 ^ v := by
          gcongr
          exact_mod_cast hn
      _ = 2 ^ (v + 1 + p.manBits) := by
          rw [← zpow_natCast, ← zpow_add₀ two_ne_zero]
          congr 1
          push_cast
          ring
      _ ≤ 2 ^ (u + p.manBits) := zpow_le_zpow_right₀ one_le_two (by omega)

/-! ### Regular formats -/

/-- The exponent and the mantissa field of the largest finite magnitude. -/
def topExp (p : FpFormat) : Nat := p.exponentOf p.maxBits
def topMan (p : FpFormat) : Nat := p.mantissaOf p.maxBits

/-- A format has a mantissa; its largest finite magnitude lies below its codes of infinities and NaNs, and is no power of two; where it has no
infinities it saturates. -/
structure Regular (p : FpFormat) : Prop where
  man : 1 ≤ p.manBits
  max : p.maxBits < 2 ^ (p.manBits + p.expBits)
  below : p.ieee = true → p.topExp < 2 ^ p.expBits - 1
  nan : p.nanTop = true → p.maxBits < 2 ^ (p.manBits + p.expBits) - 1
  normal : 1 ≤ p.topExp
  wide : 1 ≤ p.topMan
  saturate : p.ieee = false → p.saturates = true
  top : 0 ≤ p.unit p.topExp

theorem regular_fpOf {c : Nat} (h2 : 2 ≤ c) (h7 : c ≤ 7) : (fpOf c).Regular := by
  interval_cases c <;> exact ⟨by decide, by decide, by decide, by decide, by decide, by decide, by decide, by decide⟩

theorem max_eq (hp : p.Regular) : p.maxBits = p.topExp * 2 ^ p.manBits + p.topMan := by
  have hexp : p.topExp = p.maxBits / 2 ^ p.manBits := by
    refine Nat.mod_eq_of_lt ?_
    rw [Nat.div_lt_iff_lt_mul (Nat.two_pow_pos _), mul_comm, ← pow_add]
    exact hp.max
  rw [hexp]
  exact (Nat.div_add_mod' _ _).symm

theorem max_bits (hp : p.Regular) : p.maxBits = p.bits false p.topExp p.topMan := by
  rw [bits_eq, ← max_eq hp]
  simp

theorem topMan_lt (p : FpFormat) : p.topMan < 2 ^ p.manBits := p.mantissaOf_lt _
theorem topExp_lt (p : FpFormat) : p.topExp < 2 ^ p.expBits := p.exponentOf_lt _

/-- The significand of the largest finite magnitude. -/
def topSig (p : FpFormat) : Nat := 2 ^ p.manBits + p.topMan

theorem topSig_lt (p : FpFormat) : p.topSig < 2 ^ (p.manBits + 1) := by
  have := p.topMan_lt
  rw [topSig, pow_succ]
  omega

theorem significand_top (hp : p.Regular) : p.significand p.topExp p.topMan = p.topSig := if_neg (Nat.ne_of_gt hp.normal)

/-- The largest finite value. -/
theorem value_max (hp : p.Regular) : p.value p.maxBits = p.topSig * 2 ^ p.unit p.topExp := by
  rw [max_bits hp, value_bits p.topExp_lt p.topMan_lt, significand_top hp]
  rfl

/-- The one below it has the same unit. -/
theorem value_max_pred (hp : p.Regular) : p.value (p.maxBits - 1) = (p.topSig - 1) * 2 ^ p.unit p.topExp := by
  have hwide := hp.wide
  have hpred : p.maxBits - 1 = p.bits false p.topExp (p.topMan - 1) := by
    rw [bits_eq, max_eq hp]
    simp only [Bool.toNat_false]
    omega
  rw [hpred, value_bits p.topExp_lt (lt_of_le_of_lt (Nat.sub_le _ _) p.topMan_lt), significand, if_neg (Nat.ne_of_gt hp.normal), signed_pos, topSig]
  push_cast [hwide]
  ring

/-- The largest finite magnitude is odd as its significand. -/
theorem maxBits_odd_iff (hp : p.Regular) : p.maxBits % 2 = p.topSig % 2 := by
  have h2 : 2 ∣ 2 ^ p.manBits := dvd_pow_self 2 (Nat.ne_of_gt hp.man)
  rw [max_eq hp, topSig, Nat.add_mod, Nat.mod_eq_zero_of_dvd (h2.mul_left _), Nat.add_mod (2 ^ p.manBits), Nat.mod_eq_zero_of_dvd h2]

/-- Fields of a magnitude that is at most the largest finite value. -/
theorem magnitude_le_max (hp : p.Regular) {e m : Nat} (hm : m < 2 ^ p.manBits)
    (h : (p.significand e m : ℚ) * 2 ^ p.unit e ≤ p.topSig * 2 ^ p.unit p.topExp) : e * 2 ^ p.manBits + m ≤ p.maxBits := by
  have htop := p.topSig_lt
  have hunit : p.unit p.topExp = p.topExp - p.bias - p.manBits := if_neg (Nat.ne_of_gt hp.normal)
  have hnormal := hp.normal
  rw [max_eq hp]
  rcases lt_trichotomy e p.topExp with he | rfl | he
  · have : (e + 1) * 2 ^ p.manBits ≤ p.topExp * 2 ^ p.manBits := Nat.mul_le_mul_right _ he
    linarith [add_mul e 1 (2 ^ p.manBits)]
  · rw [significand, if_neg (Nat.ne_of_gt hnormal), mul_le_mul_iff_left₀ (by positivity), Nat.cast_le, topSig] at h
    omega
  · exfalso
    have he0 : e ≠ 0 := by omega
    rw [significand, if_neg he0, show p.unit e = e - p.bias - p.manBits from if_neg he0] at h
    have hlt : (p.topSig : ℚ) * 2 ^ p.unit p.topExp < 2 ^ (p.manBits + 1) * 2 ^ p.unit p.topExp := by
      gcongr
      exact_mod_cast htop
    have hge : (2 : ℚ) ^ (p.manBits + 1) * 2 ^ p.unit p.topExp ≤ (2 ^ p.manBits + m : Nat) * 2 ^ ((e : Int) - p.bias - p.manBits) := by
      rw [pow_succ, mul_assoc, ← zpow_one_add₀ two_ne_zero]
      gcongr
      · exact_mod_cast Nat.le_add_right _ _
      · norm_num
      · rw [hunit]
        omega
    linarith

end FpFormat

end Sys2Proof.Machine
end


section
/-!
SUPPORT. The one rounding delivers the nearest value of the format, with the flags of Tables 6.4 and 6.5 (spec/06 R152): the quotient in the
unit of the magnitude, the bits that hold it, and where the range and the normal numbers end.
-/

namespace Sys2Proof.Machine

open Sys2Proof

namespace FpFormat

variable {p : FpFormat}

/-! ### Decoding and packing -/

theorem magnitude_eq {x : Nat} (hx : x < 2 ^ p.width) : x % 2 ^ (p.width - 1) = p.exponentOf x * 2 ^ p.manBits + p.mantissaOf x := by
  conv_lhs => rw [p.eq_bits hx]
  exact bits_magnitude (p.exponentOf_lt x) (p.mantissaOf_lt x)

theorem exponentOf_le (hp : p.Regular) {x : Nat} (h : p.finite x) : p.exponentOf x ≤ p.topExp := by
  obtain ⟨hx, hle⟩ := h
  rw [magnitude_eq hx, max_eq hp] at hle
  by_contra hlt
  have : (p.topExp + 1) * 2 ^ p.manBits ≤ p.exponentOf x * 2 ^ p.manBits := Nat.mul_le_mul_right _ (not_le.1 hlt)
  linarith [add_mul p.topExp 1 (2 ^ p.manBits), p.topMan_lt]

theorem fpDecode_finite (hp : p.Regular) {x : Nat} (h : p.finite x) :
    fpDecode p x = .fin (x.testBit (p.width - 1)) (p.significand (p.exponentOf x) (p.mantissaOf x)) 1 (p.unit (p.exponentOf x)) := by
  have hexp := exponentOf_le hp h
  obtain ⟨hx, hle⟩ := h
  have hinf : (p.ieee && p.exponentOf x = 2 ^ p.expBits - 1) = false := by
    by_contra hne
    simp only [Bool.not_eq_false, Bool.and_eq_true, decide_eq_true_eq] at hne
    have := hp.below hne.1
    omega
  have hnan : (p.nanTop && x % 2 ^ (p.manBits + p.expBits) = 2 ^ (p.manBits + p.expBits) - 1) = false := by
    by_contra hne
    simp only [Bool.not_eq_false, Bool.and_eq_true, decide_eq_true_eq] at hne
    rw [p.width_pred, hne.2] at hle
    exact absurd (hp.nan hne.1) (not_lt.2 hle)
  have hsign : x.testBit (p.width - 1) = decide (x / 2 ^ (p.manBits + p.expBits) % 2 = 1) := by
    rw [p.width_pred, Nat.testBit_eq_decide_div_mod_eq]
  rw [exponentOf] at hinf
  unfold fpDecode
  dsimp only
  rw [hinf, hnan, hsign, if_neg Bool.false_ne_true, if_neg Bool.false_ne_true, significand, unit, exponentOf, mantissaOf]
  split
  · rfl
  · rfl

theorem finite_max (hp : p.Regular) : p.finite p.maxBits := by
  refine ⟨?_, Nat.mod_le _ _⟩
  rw [max_bits hp]
  exact bits_lt p.topExp_lt p.topMan_lt

theorem exceeds_iff (hp : p.Regular) (q : Nat) (u : Int) : exceeds p q u = true ↔ p.value p.maxBits < q * 2 ^ u := by
  have hdec := fpDecode_finite hp (finite_max hp)
  rw [show p.exponentOf p.maxBits = p.topExp from rfl, show p.mantissaOf p.maxBits = p.topMan from rfl, significand_top hp] at hdec
  rw [value_max hp]
  set e := p.unit p.topExp
  simp only [exceeds, hdec]
  split_ifs with hue
  · obtain ⟨t, ht⟩ := Int.eq_ofNat_of_zero_le (sub_nonneg.2 hue)
    rw [ht, Int.toNat_natCast, decide_eq_true_eq, show e = t + u by omega, zpow_add₀ two_ne_zero, zpow_natCast, ← mul_assoc,
      mul_lt_mul_iff_left₀ (by positivity)]
    exact_mod_cast Iff.rfl
  · obtain ⟨t, ht⟩ := Int.eq_ofNat_of_zero_le (show 0 ≤ u - e by omega)
    rw [ht, Int.toNat_natCast, decide_eq_true_eq, show u = t + e by omega, zpow_add₀ two_ne_zero, zpow_natCast, ← mul_assoc,
      mul_lt_mul_iff_left₀ (by positivity)]
    exact_mod_cast Iff.rfl

/-- A significand with its leading bit and a unit, as an exponent field and a mantissa field. -/
theorem normal_fields {q : Nat} {u : Int} (hlow : p.low ≤ u) (hq : 2 ^ p.manBits ≤ q) :
    p.significand (u + p.manBits + p.bias).toNat (q - 2 ^ p.manBits) = q ∧ p.unit (u + p.manBits + p.bias).toNat = u := by
  rw [low] at hlow
  have he : (u + p.manBits + p.bias).toNat ≠ 0 := by omega
  rw [significand, unit, if_neg he, if_neg he]
  omega

theorem fpPack_eq_bits (hp : p.Regular) (neg : Bool) {q : Nat} {u : Int} (hlow : p.low ≤ u) (hq : q ≤ 2 ^ (p.manBits + 1)) (hu : u = p.low ∨ 2 ^ p.manBits ≤ q) :
    ∃ e m, fpPack p neg q u = p.bits neg e m ∧ m < 2 ^ p.manBits ∧ (p.significand e m * 2 ^ p.unit e : ℚ) = q * 2 ^ u ∧ (q % 2 = 0 → m % 2 = 0) := by
  have hpow : 2 ^ (p.manBits + 1) = 2 * 2 ^ p.manBits := pow_succ' 2 _
  have hpos : 0 < 2 ^ p.manBits := Nat.two_pow_pos _
  have heven : 2 ^ p.manBits % 2 = 0 := Nat.mod_eq_zero_of_dvd (dvd_pow_self 2 (Nat.ne_of_gt hp.man))
  unfold fpPack
  dsimp only
  by_cases h0 : q = 0
  · subst h0
    exact ⟨0, 0, by simp [bits], hpos, by simp [significand], fun h => h⟩
  rw [if_neg h0]
  by_cases htop : 2 ^ (p.manBits + 1) ≤ q
  · have hhalf : q / 2 = 2 ^ p.manBits := by omega
    obtain ⟨hsig, hunit⟩ := normal_fields (p := p) (show p.low ≤ u + 1 by omega) (le_refl (2 ^ p.manBits))
    rw [if_pos htop]
    dsimp only
    rw [hhalf, if_neg (lt_irrefl _)]
    refine ⟨_, _, rfl, by omega, ?_, fun _ => by omega⟩
    rw [hsig, hunit, show q = 2 * 2 ^ p.manBits by omega, zpow_add_one₀ two_ne_zero]
    push_cast
    ring
  · rw [if_neg htop]
    dsimp only
    by_cases hsub : q < 2 ^ p.manBits
    · rw [if_pos hsub, hu.resolve_right (by omega)]
      refine ⟨0, q, by simp [bits], hsub, ?_, fun h => h⟩
      rw [significand, unit, if_pos rfl, if_pos rfl]
    · obtain ⟨hsig, hunit⟩ := normal_fields hlow (not_lt.1 hsub)
      rw [if_neg hsub]
      refine ⟨_, _, rfl, by omega, ?_, fun _ => by omega⟩
      rw [hsig, hunit]

theorem bits_even (hp : p.Regular) (neg : Bool) (e : Nat) {m : Nat} (hm : m % 2 = 0) : p.bits neg e m % 2 = 0 := by
  have heven : 2 ^ p.manBits % 2 = 0 := Nat.mod_eq_zero_of_dvd (dvd_pow_self 2 (Nat.ne_of_gt hp.man))
  rw [bits_eq, pow_add, Nat.add_mod, Nat.mul_mod, Nat.mul_mod (2 ^ p.manBits), heven, Nat.add_mod (e * _), Nat.mul_mod e, heven, hm]
  simp

/-- The packed bits hold q · 2^u: finite, with the sign, and even where q is. -/
theorem fpPack_spec (hp : p.Regular) (neg : Bool) {q : Nat} {u : Int} (hlow : p.low ≤ u) (hq : q ≤ 2 ^ (p.manBits + 1)) (hu : u = p.low ∨ 2 ^ p.manBits ≤ q)
    (hx : q * 2 ^ u ≤ p.value p.maxBits) :
    p.finite (fpPack p neg q u) ∧ (fpPack p neg q u).testBit (p.width - 1) = neg ∧ p.value (fpPack p neg q u) = signed neg (q * 2 ^ u) ∧
      (q % 2 = 0 → fpPack p neg q u % 2 = 0) := by
  obtain ⟨e, m, hbits, hm, hsize, heven⟩ := fpPack_eq_bits hp neg hlow hq hu
  rw [← hsize, value_max hp] at hx
  have hmag := magnitude_le_max hp hm hx
  have he : e < 2 ^ p.expBits := by
    refine Nat.lt_of_mul_lt_mul_right (a := 2 ^ p.manBits) ?_
    have := hp.max
    rw [pow_add, mul_comm (2 ^ p.manBits)] at this
    omega
  rw [hbits, ← hsize]
  exact ⟨⟨bits_lt he hm, (bits_magnitude he hm).trans_le hmag⟩, bits_sign he hm, value_bits he hm, fun h => bits_even hp neg e (heven h)⟩

/-! ### The rounded quotient in a unit -/

/-- `q` is the magnitude `t` in units of 2^u, rounded, and 2^u is the unit of `t` in the format: the least one, or that of `t`'s leading bit. -/
structure Quotient (p : FpFormat) (t : ℚ) (q : Nat) (u : Int) : Prop where
  low : p.low ≤ u
  least : u = p.low ∨ 2 ^ (u + p.manBits) ≤ t
  lt : t < 2 ^ (u + p.manBits + 1)
  near : roundsToInt (t / 2 ^ u) q

variable {t : ℚ} {q : Nat} {u : Int}

theorem zpow_unit (u : Int) (k : Nat) : (2 : ℚ) ^ (u + k) = 2 ^ k * 2 ^ u := by
  rw [zpow_add₀ two_ne_zero, zpow_natCast, mul_comm]

namespace Quotient

variable (h : p.Quotient t q u)
include h

theorem le : q ≤ 2 ^ (p.manBits + 1) := by
  have hlt := h.lt
  rw [show u + p.manBits + 1 = u + (p.manBits + 1 : Nat) by push_cast; ring, zpow_unit, ← div_lt_iff₀ (by positivity)] at hlt
  exact_mod_cast roundsToInt_le h.near (k := 2 ^ (p.manBits + 1)) (by push_cast; linarith)

theorem leading : u = p.low ∨ 2 ^ p.manBits ≤ q := h.least.imp_right fun hge => by
  rw [zpow_unit, ← le_div_iff₀ (by positivity)] at hge
  exact_mod_cast le_roundsToInt h.near (k := 2 ^ p.manBits) (by push_cast; exact hge)

omit h in
theorem scaled (t : ℚ) (u : ℤ) (w : ℚ) : |w * 2 ^ u - t| = |t / 2 ^ u - w| * 2 ^ u := by
  rw [abs_sub_comm, ← abs_of_pos (show (0 : ℚ) < 2 ^ u by positivity), ← abs_mul, sub_mul, abs_of_pos (show (0 : ℚ) < 2 ^ u by positivity),
    div_mul_cancel₀ _ (by positivity)]

/-- No multiple of the unit is nearer. -/
theorem nearest_multiple (k : ℤ) : |q * 2 ^ u - t| ≤ |k * 2 ^ u - t| ∧ (|q * 2 ^ u - t| = |k * 2 ^ u - t| → (k : ℚ) * 2 ^ u ≠ q * 2 ^ u → q % 2 = 0) := by
  obtain ⟨hle, heven⟩ := roundsToInt_nearest h.near k
  rw [Int.cast_natCast] at hle heven
  rw [scaled, scaled]
  refine ⟨by gcongr, fun heq hne => ?_⟩
  have := heven (mul_right_cancel₀ (by positivity) heq) (by rintro rfl; exact hne rfl)
  omega

/-- What is below the leading bit of `t` is not nearer than the power of two of that bit. -/
theorem nearer_than_small {w : ℚ} (hw : |w| < 2 ^ (u + p.manBits)) (hlow : p.low < u) : |q * 2 ^ u - t| < |w - t| := by
  have ht := h.least.resolve_left hlow.ne'
  obtain ⟨hnear, -⟩ := h.nearest_multiple (2 ^ p.manBits)
  rw [Int.cast_pow, Int.cast_ofNat, ← zpow_unit, abs_sub_comm (2 ^ (u + (p.manBits : Int))), abs_of_nonneg (sub_nonneg.2 ht)] at hnear
  have hwt : w < 2 ^ (u + p.manBits) := (abs_lt.1 hw).2
  calc |q * 2 ^ u - t| ≤ t - 2 ^ (u + p.manBits) := hnear
    _ < t - w := by linarith
    _ ≤ |w - t| := by
      rw [abs_sub_comm]
      exact le_abs_self _

/-- No finite value of the format is nearer. -/
theorem nearest (neg : Bool) (y : Nat) :
    |q * 2 ^ u - t| ≤ |signed neg (p.value y) - t| ∧
      (|q * 2 ^ u - t| = |signed neg (p.value y) - t| → signed neg (p.value y) ≠ q * 2 ^ u → q % 2 = 0) := by
  obtain ⟨k, hk⟩ | ⟨hsmall, hlow⟩ := p.value_grid neg y u
  · rw [hk]
    exact h.nearest_multiple k
  · have habs : |signed neg (p.value y)| = |p.value y| := by
      cases neg
      · rfl
      · exact abs_neg _
    have hlt := h.nearer_than_small (habs.trans_lt hsmall) hlow
    exact ⟨hlt.le, fun heq => absurd heq hlt.ne⟩

/-! ### The end of the range -/

/-- The rounded magnitude is beyond the largest finite value exactly where the exact one is past the middle to the next multiple of its unit, or at
it where the largest is odd. -/
theorem beyond_iff (hp : p.Regular) :
    p.value p.maxBits < q * 2 ^ u ↔
      if p.maxBits % 2 = 1 then p.value p.maxBits + (p.value p.maxBits - p.value (p.maxBits - 1)) / 2 ≤ t
        else p.value p.maxBits + (p.value p.maxBits - p.value (p.maxBits - 1)) / 2 < t := by
  have hhalf : p.value p.maxBits + (p.value p.maxBits - p.value (p.maxBits - 1)) / 2 = (p.topSig + 1 / 2) * 2 ^ p.unit p.topExp := by
    rw [value_max hp, value_max_pred hp]
    ring
  have htop := p.topSig_lt
  have hlt := h.lt
  rw [hhalf, value_max hp, maxBits_odd_iff hp]
  set U := p.unit p.topExp
  set M := p.topSig
  rcases lt_trichotomy u U with hu | rfl | hu
  · have hM : (2 : ℚ) ^ (u + p.manBits + 1) ≤ M * 2 ^ U := by
      calc (2 : ℚ) ^ (u + p.manBits + 1) ≤ 2 ^ (U + p.manBits) := zpow_le_zpow_right₀ one_le_two (by omega)
        _ = 2 ^ p.manBits * 2 ^ U := zpow_unit _ _
        _ ≤ M * 2 ^ U := by
          gcongr
          exact_mod_cast Nat.le_add_right (2 ^ p.manBits) p.topMan
    have hq : (q : ℚ) * 2 ^ u ≤ 2 ^ (u + p.manBits + 1) := by
      rw [show u + p.manBits + 1 = u + (p.manBits + 1 : Nat) by push_cast; ring, zpow_unit]
      gcongr
      exact_mod_cast h.le
    have hpos : (0 : ℚ) < 2 ^ U := by positivity
    refine ⟨fun hx => by linarith, fun hx => ?_⟩
    split at hx <;> linarith
  · rw [mul_lt_mul_iff_left₀ (by positivity), Nat.cast_lt, ← Int.ofNat_lt]
    have hiff := lt_roundsToInt_iff h.near M
    rw [← le_div_iff₀ (by positivity), ← lt_div_iff₀ (by positivity), hiff]
    exact_mod_cast Iff.rfl
  · have hge := h.least.resolve_left (lt_of_le_of_lt (p.low_le_unit _) hu).ne'
    have hM : (M + 1 : ℚ) * 2 ^ U ≤ 2 ^ (u + p.manBits) := by
      calc (M + 1 : ℚ) * 2 ^ U ≤ 2 ^ (p.manBits + 1) * 2 ^ U := by
            gcongr
            exact_mod_cast htop
        _ = 2 ^ (U + (p.manBits + 1 : Nat)) := (zpow_unit _ _).symm
        _ ≤ 2 ^ (u + p.manBits) := zpow_le_zpow_right₀ one_le_two (by push_cast; omega)
    have hq : (2 : ℚ) ^ (u + p.manBits) ≤ q * 2 ^ u := by
      rw [zpow_unit]
      gcongr
      exact_mod_cast h.leading.resolve_left (lt_of_le_of_lt (p.low_le_unit _) hu).ne'
    have hpos : (0 : ℚ) < 2 ^ U := by positivity
    refine ⟨fun _ => ?_, fun _ => by linarith⟩
    split <;> linarith

end Quotient

/-! ### The rounding -/

section
variable {num den : Nat} (hn : num ≠ 0) (hd : den ≠ 0) (exp : Int)
include hd

theorem divRound_quotient (u : Int) : roundsToInt (num / den * 2 ^ exp / 2 ^ u) (divRound num den (exp - u)).1 := by
  rw [mul_div_assoc, ← zpow_sub₀ two_ne_zero]
  exact divRound_rounds hd (exp - u)

theorem divRound_unit_inexact (u : Int) :
    (divRound num den (exp - u)).2 = decide (((divRound num den (exp - u)).1 : ℚ) * 2 ^ u ≠ num / den * 2 ^ exp) := by
  rw [divRound_inexact hd, decide_eq_decide, not_iff_not, ← eq_div_iff (by positivity), mul_div_assoc, ← zpow_sub₀ two_ne_zero]

theorem lt_ratLog2_exp : (num / den * 2 ^ exp : ℚ) < 2 ^ (ratLog2 num den + exp + 1) := by
  have hpos : (0 : ℚ) < den := by exact_mod_cast Nat.pos_of_ne_zero hd
  rw [show ratLog2 num den + exp + 1 = ratLog2 num den + 1 + exp by ring, zpow_add₀ two_ne_zero _ exp, mul_lt_mul_iff_left₀ (by positivity),
    div_lt_iff₀ hpos, mul_comm]
  exact lt_ratLog2 hd

include hn

theorem ratLog2_exp_le : (2 : ℚ) ^ (ratLog2 num den + exp) ≤ num / den * 2 ^ exp := by
  rw [zpow_add₀ two_ne_zero]
  gcongr
  exact ratLog2_le hn hd

theorem roundTo_quotient (p : FpFormat) :
    p.Quotient (num / den * 2 ^ exp) (divRound num den (exp - (max (ratLog2 num den + exp) (1 - p.bias) - p.manBits))).1
      (max (ratLog2 num den + exp) (1 - p.bias) - p.manBits) where
  low := by
    rw [low]
    omega
  least := by
    rw [low, sub_add_cancel]
    rcases le_total (ratLog2 num den + exp) (1 - p.bias) with h | h
    · exact .inl (by rw [max_eq_right h])
    · exact .inr (by rw [max_eq_left h]; exact ratLog2_exp_le hn hd exp)
  lt := by
    refine (lt_ratLog2_exp hd exp).trans_le (zpow_le_zpow_right₀ one_le_two ?_)
    omega
  near := divRound_quotient hd exp _

end

/-- Where a magnitude, rounded with no bound on its exponent, is below the least normal number (Table 6.4, UF). -/
theorem tiny_iff {t : ℚ} {e : Int} {q : Nat} (h1 : 2 ^ e ≤ t) (h2 : t < 2 ^ (e + 1)) (hq : roundsToInt (t / 2 ^ (e - p.manBits)) q) :
    (e < 1 - p.bias ∧ ¬(e = 1 - p.bias - 1 ∧ q = 2 ^ (p.manBits + 1))) ↔ t < 2 ^ (1 - p.bias) - 2 ^ (1 - p.bias) / 2 ^ (p.manBits + 2) := by
  set E := 1 - p.bias
  have hpos : (0 : ℚ) < 2 ^ E := by positivity
  have hpart : (0 : ℚ) < 2 ^ E / 2 ^ (p.manBits + 2) := by positivity
  rcases lt_trichotomy e (E - 1) with he | rfl | he
  · have hlt : (2 : ℚ) ^ (e + 1) ≤ 2 ^ E / 2 := by
      rw [div_eq_mul_inv, ← zpow_sub_one₀ two_ne_zero]
      exact zpow_le_zpow_right₀ one_le_two (by omega)
    have hfour : (2 : ℚ) ^ E / 2 ^ (p.manBits + 2) ≤ 2 ^ E / 2 := by
      gcongr
      exact le_self_pow₀ one_le_two (by omega)
    refine ⟨fun _ => by linarith, fun _ => by omega⟩
  · have hK : (2 : ℚ) ^ E = 2 ^ (p.manBits + 1) * 2 ^ (E - 1 - p.manBits) := by
      rw [← zpow_unit]
      congr 1
      push_cast
      ring
    have hbound : (2 : ℚ) ^ E - 2 ^ E / 2 ^ (p.manBits + 2) = (((2 ^ (p.manBits + 1) - 1 : ℤ) : ℚ) + 1 / 2) * 2 ^ (E - 1 - p.manBits) := by
      rw [hK, mul_comm, mul_div_assoc, pow_succ _ (p.manBits + 1), ← div_div, div_self (by positivity)]
      push_cast
      ring
    have hodd : (2 ^ (p.manBits + 1) - 1 : ℤ) % 2 = 1 := by
      rw [pow_succ]
      omega
    have hle : q ≤ 2 ^ (p.manBits + 1) := by
      rw [sub_add_cancel, hK, ← div_lt_iff₀ (by positivity)] at h2
      exact_mod_cast roundsToInt_le hq (k := 2 ^ (p.manBits + 1)) (by push_cast; linarith)
    have hiff := lt_roundsToInt_iff hq (2 ^ (p.manBits + 1) - 1)
    rw [if_pos hodd, le_div_iff₀ (by positivity), ← hbound, Int.sub_one_lt_iff] at hiff
    rw [← not_le (b := t), ← hiff]
    have : ((2 : ℤ) ^ (p.manBits + 1) ≤ q) ↔ 2 ^ (p.manBits + 1) ≤ q := by exact_mod_cast Iff.rfl
    rw [this]
    omega
  · refine ⟨fun h => by omega, fun h => absurd h (not_lt.2 ?_)⟩
    have : (2 : ℚ) ^ E ≤ 2 ^ e := zpow_le_zpow_right₀ one_le_two (by omega)
    linarith

/-- The rounding of a magnitude that is not zero, in its unit. -/
theorem roundTo_eq (hp : p.Regular) (neg : Bool) {num den : Nat} (hn : num ≠ 0) (hd : den ≠ 0) (exp : Int) : ∃ q u,
    p.Quotient (num / den * 2 ^ exp) q u ∧
      roundTo p (.fin neg num den exp) =
        if p.value p.maxBits < q * 2 ^ u then fpOver p neg
        else (fpPack p neg q u, flagIf (decide ((q : ℚ) * 2 ^ u ≠ num / den * 2 ^ exp)) flagNX |||
          flagIf (decide ((q : ℚ) * 2 ^ u ≠ num / den * 2 ^ exp ∧
            (num / den * 2 ^ exp : ℚ) < 2 ^ (1 - p.bias) - 2 ^ (1 - p.bias) / 2 ^ (p.manBits + 2))) flagUF) := by
  refine ⟨_, _, roundTo_quotient hn hd exp p, ?_⟩
  have htiny := tiny_iff (p := p) (ratLog2_exp_le hn hd exp) (lt_ratLog2_exp hd exp) (divRound_quotient hd exp _)
  simp only [roundTo, if_neg hn, exceeds_iff hp, divRound_unit_inexact hd, ← htiny]
  congr 3
  rw [Bool.and_comm]
  simp only [Bool.decide_and, decide_not]

theorem fpOver_eq (p : FpFormat) (neg : Bool) : fpOver p neg = (p.past neg, flagOF ||| flagNX) := by
  rw [fpOver, FpFormat.past, FpFormat.infinity, p.width_pred]

theorem roundTo_zero (p : FpFormat) (neg : Bool) (den : Nat) (exp : Int) : roundTo p (.fin neg 0 den exp) = (bitAt neg (p.width - 1), 0) := by
  rw [p.width_pred]
  rfl

/-- The rounding of a magnitude that is not zero is `Rounds`. -/
theorem roundTo_rounds (hp : p.Regular) (neg z : Bool) {num den : Nat} (hn : num ≠ 0) (hd : den ≠ 0) (exp : Int) :
    p.Rounds (signed neg (num / den * 2 ^ exp)) z (roundTo p (.fin neg num den exp)) := by
  obtain ⟨q, u, hq, hround⟩ := roundTo_eq hp neg hn hd exp
  have ht : (0 : ℚ) < num / den * 2 ^ exp := by positivity
  rw [hround]
  set t : ℚ := num / den * 2 ^ exp
  have hsign : decide (signed neg t < 0) = neg := by
    rw [Bool.eq_iff_iff, decide_eq_true_iff]
    exact signed_lt_zero neg ht
  unfold FpFormat.Rounds
  dsimp only
  rw [if_neg (mt (signed_eq_zero neg t).1 ht.ne'), hsign, abs_signed neg ht.le]
  by_cases hover : p.value p.maxBits < q * 2 ^ u
  · rw [if_pos ((hq.beyond_iff hp).1 hover), if_pos hover, fpOver_eq]
  · rw [if_neg (mt (hq.beyond_iff hp).2 hover), if_neg hover]
    obtain ⟨hfin, hbit, hval, heven⟩ := fpPack_spec hp neg hq.low hq.le hq.leading (not_lt.1 hover)
    dsimp only
    refine ⟨hfin, hbit, fun y _ => ?_, ?_⟩
    · obtain ⟨hle, htie⟩ := hq.nearest neg y
      rw [hval, abs_signed_sub, abs_sub_signed]
      refine ⟨hle, fun heq hne => heven (htie heq fun h => hne ?_)⟩
      rw [← h, signed_signed]
    · simp only [hval, ne_eq, signed_eq_iff]

end FpFormat

end Sys2Proof.Machine
end


section
/-!
SUPPORT. The exact results of the operations (spec/06 R152-R154): of finite operands the value before the one rounding, and the results of
NaNs, infinities and zeros.
-/

namespace Sys2Proof.Machine

open Sys2Proof

/-! ### Exact values -/

/-- The finite value `x`, whose zero has the sign `z`. -/
def Val.Exact (v : Val) (x : ℚ) (z : Bool) : Prop :=
  ∃ neg num den exp, v = .fin neg num den exp ∧ den ≠ 0 ∧ x = signed neg (num / den * 2 ^ exp) ∧ (num = 0 → neg = z)

variable {p : FpFormat}

theorem Val.Exact.rounds (hp : p.Regular) {v : Val} {x : ℚ} {z : Bool} (h : v.Exact x z) : p.Rounds x z (roundTo p v) := by
  obtain ⟨neg, num, den, exp, rfl, hd, rfl, hz⟩ := h
  rcases eq_or_ne num 0 with rfl | hn
  · have hx : signed neg ((0 : Nat) / den * 2 ^ exp : ℚ) = 0 := (signed_eq_zero neg _).2 (by simp)
    rw [FpFormat.roundTo_zero, hx, hz rfl]
    unfold FpFormat.Rounds
    dsimp only
    rw [if_pos rfl]
  · exact FpFormat.roundTo_rounds hp neg z hn hd exp

theorem finish_none (v : Val) : finish p (v, 0) = roundTo p v := Prod.ext rfl (BitVec.zero_or ..)

theorem signed_mul (neg : Bool) (a t : ℚ) : signed neg (a * t) = signed neg a * t := by
  cases neg
  · rfl
  · exact neg_mul_eq_neg_mul _ _

theorem signed_mul_signed (m n : Bool) (a t : ℚ) : signed m a * signed n t = signed (m != n) (a * t) := by
  cases m <;> cases n <;> simp [signed]

theorem signed_div_signed (m n : Bool) (a t : ℚ) : signed m a / signed n t = signed (m != n) (a / t) := by
  cases m <;> cases n <;> simp [signed, div_neg, neg_div]

theorem signed_natAbs (t : ℤ) : signed (decide (t < 0)) (t.natAbs : ℚ) = t := by
  rw [Nat.cast_natAbs, Int.cast_abs]
  by_cases h : t < 0
  · rw [decide_eq_true h, signed_neg, abs_of_neg (by exact_mod_cast h), neg_neg]
  · rw [decide_eq_false h, signed_pos, abs_of_nonneg (by exact_mod_cast not_lt.1 h)]

/-- A magnitude in a common unit and over a common denominator. -/
theorem common_unit (neg : Bool) {a d d' : Nat} {e e' : Int} (hd : d ≠ 0) (hd' : d' ≠ 0) (he : e' ≤ e) :
    (((if neg then -((a * 2 ^ (e - e').toNat * d' : Nat) : ℤ) else ((a * 2 ^ (e - e').toNat * d' : Nat) : ℤ)) : ℤ) : ℚ) / (d * d' : Nat) * 2 ^ e' =
      signed neg (a / d * 2 ^ e) := by
  obtain ⟨t, ht⟩ := Int.eq_ofNat_of_zero_le (sub_nonneg.2 he)
  have hd : (d : ℚ) ≠ 0 := by exact_mod_cast hd
  have hd' : (d' : ℚ) ≠ 0 := by exact_mod_cast hd'
  rw [ht, Int.toNat_natCast, show e = t + e' by omega, zpow_add₀ two_ne_zero, zpow_natCast]
  cases neg
  · rw [signed_pos, if_neg Bool.false_ne_true]
    push_cast
    field_simp
  · rw [signed_neg, if_pos rfl]
    push_cast
    field_simp

/-! ### Sums and orders -/

section
variable {n1 n2 : Bool} {a1 d1 a2 d2 : Nat} {e1 e2 : Int} (h1 : d1 ≠ 0) (h2 : d2 ≠ 0)
include h1 h2

theorem addFin_exact : (addFin n1 a1 d1 e1 n2 a2 d2 e2).Exact (signed n1 (a1 / d1 * 2 ^ e1) + signed n2 (a2 / d2 * 2 ^ e2)) (n1 && n2) := by
  have hx := common_unit n1 (a := a1) h1 h2 (min_le_left e1 e2)
  have hy := common_unit n2 (a := a2) h2 h1 (min_le_right e1 e2)
  rw [mul_comm d2] at hy
  unfold addFin
  dsimp only
  rw [← hx, ← hy, ← add_mul, ← add_div, ← Int.cast_add]
  set t : ℤ := _ + _
  by_cases ht : t = 0
  · rw [if_pos ht, ht]
    exact ⟨_, _, _, _, rfl, one_ne_zero, by simp [signed], fun _ => rfl⟩
  · rw [if_neg ht]
    refine ⟨_, _, _, _, rfl, mul_ne_zero h1 h2, ?_, fun h => absurd (Int.natAbs_eq_zero.1 h) ht⟩
    rw [signed_mul, div_eq_mul_inv (t.natAbs : ℚ), signed_mul, signed_natAbs, div_eq_mul_inv]

theorem valLt_fin : valLt (.fin n1 a1 d1 e1) (.fin n2 a2 d2 e2) = decide (signed n1 (a1 / d1 * 2 ^ e1) < signed n2 (a2 / d2 * 2 ^ e2)) := by
  have hx := common_unit n1 (a := a1) h1 h2 (min_le_left e1 e2)
  have hy := common_unit n2 (a := a2) h2 h1 (min_le_right e1 e2)
  have hpos : (0 : ℚ) < (d1 * d2 : Nat) := by exact_mod_cast Nat.pos_of_ne_zero (mul_ne_zero h1 h2)
  rw [mul_comm d2] at hy
  rw [← hx, ← hy]
  exact decide_eq_decide.2 (Int.cast_lt.symm.trans ((div_lt_div_iff_of_pos_right hpos).symm.trans (mul_lt_mul_iff_left₀ (by positivity)).symm))

end

/-! ### Products and quotients -/

section
variable {n1 n2 : Bool} {a1 d1 a2 d2 : Nat} {e1 e2 : Int}

theorem mulFin_value : signed n1 (a1 / d1 * 2 ^ e1) * signed n2 (a2 / d2 * 2 ^ e2) =
    signed (n1 != n2) ((a1 * a2 : Nat) / (d1 * d2 : Nat) * 2 ^ (e1 + e2)) := by
  rw [signed_mul_signed, zpow_add₀ two_ne_zero]
  push_cast
  congr 1
  ring

theorem mulFin_exact (h1 : d1 ≠ 0) (h2 : d2 ≠ 0) :
    (Val.fin (n1 != n2) (a1 * a2) (d1 * d2) (e1 + e2)).Exact (signed n1 (a1 / d1 * 2 ^ e1) * signed n2 (a2 / d2 * 2 ^ e2)) (n1 != n2) :=
  ⟨_, _, _, _, rfl, mul_ne_zero h1 h2, mulFin_value, fun _ => rfl⟩

theorem divFin_exact (h1 : d1 ≠ 0) (ha : a2 ≠ 0) :
    (Val.fin (n1 != n2) (a1 * d2) (d1 * a2) (e1 - e2)).Exact (signed n1 (a1 / d1 * 2 ^ e1) / signed n2 (a2 / d2 * 2 ^ e2)) (n1 != n2) := by
  refine ⟨_, _, _, _, rfl, mul_ne_zero h1 ha, ?_, fun _ => rfl⟩
  rw [signed_div_signed, zpow_sub₀ two_ne_zero]
  push_cast
  congr 1
  simp only [div_eq_mul_inv, mul_inv, inv_inv]
  ring

end

/-! ### Operations on finite operands -/

/-- The sign of a number's bits. -/
def FpFormat.negative (p : FpFormat) (x : Nat) : Bool := x.testBit (p.width - 1)

section
variable {a b c : Nat} (hp : p.Regular) (ha : p.finite a)
include hp ha

/-- A finite number as the operations see it. -/
theorem finite_fin : ∃ n e, fpDecode p a = .fin (p.negative a) n 1 e ∧ p.value a = signed (p.negative a) (n / (1 : Nat) * 2 ^ e) := by
  refine ⟨_, _, FpFormat.fpDecode_finite hp ha, ?_⟩
  rw [FpFormat.value_eq, Nat.cast_one, div_one]
  rfl

variable (hb : p.finite b)
include hb

theorem fpAdd_rounds : p.Rounds (p.value a + p.value b) (p.negative a && p.negative b) (fpAdd p a b) := by
  obtain ⟨n, e, hda, hva⟩ := finite_fin hp ha
  obtain ⟨m, k, hdb, hvb⟩ := finite_fin hp hb
  rw [fpAdd, hda, hdb, hva, hvb, valAdd, finish_none]
  exact (addFin_exact one_ne_zero one_ne_zero).rounds hp

theorem fpSub_rounds : p.Rounds (p.value a - p.value b) (p.negative a && !p.negative b) (fpSub p a b) := by
  obtain ⟨n, e, hda, hva⟩ := finite_fin hp ha
  obtain ⟨m, k, hdb, hvb⟩ := finite_fin hp hb
  have hneg : -p.value b = signed (!p.negative b) (m / (1 : Nat) * 2 ^ k) := by
    rw [hvb]
    cases p.negative b
    · rfl
    · exact neg_neg _
  rw [fpSub, hda, hdb, valSub, valNeg, valAdd, finish_none, sub_eq_add_neg, hneg, hva]
  exact (addFin_exact one_ne_zero one_ne_zero).rounds hp

theorem fpMul_rounds : p.Rounds (p.value a * p.value b) (p.negative a != p.negative b) (fpMul p a b) := by
  obtain ⟨n, e, hda, hva⟩ := finite_fin hp ha
  obtain ⟨m, k, hdb, hvb⟩ := finite_fin hp hb
  rw [fpMul, hda, hdb, hva, hvb, valMul, finish_none]
  exact (mulFin_exact one_ne_zero one_ne_zero).rounds hp

theorem fpDiv_rounds (h0 : p.value b ≠ 0) : p.Rounds (p.value a / p.value b) (p.negative a != p.negative b) (fpDiv p a b) := by
  obtain ⟨n, e, hda, hva⟩ := finite_fin hp ha
  obtain ⟨m, k, hdb, hvb⟩ := finite_fin hp hb
  have hm : m ≠ 0 := by
    rintro rfl
    exact h0 (hvb.trans ((signed_eq_zero _ _).2 (by simp)))
  rw [fpDiv, hda, hdb, hva, hvb, valDiv, if_neg hm, finish_none]
  exact (divFin_exact one_ne_zero hm).rounds hp

theorem fpFma_rounds (hc : p.finite c) :
    p.Rounds (p.value a * p.value b + p.value c) ((p.negative a != p.negative b) && p.negative c) (fpFma p a b c) := by
  obtain ⟨n, e, hda, hva⟩ := finite_fin hp ha
  obtain ⟨m, k, hdb, hvb⟩ := finite_fin hp hb
  obtain ⟨l, j, hdc, hvc⟩ := finite_fin hp hc
  have hfma : valFma (.fin (p.negative a) n 1 e) (.fin (p.negative b) m 1 k) (.fin (p.negative c) l 1 j) =
      (addFin (p.negative a != p.negative b) (n * m) (1 * 1) (e + k) (p.negative c) l 1 j, 0) := rfl
  rw [fpFma, hda, hdb, hdc, hva, hvb, hvc, hfma, finish_none, mulFin_value]
  exact (addFin_exact (mul_ne_zero one_ne_zero one_ne_zero) one_ne_zero).rounds hp

theorem valLt_finite : valLt (fpDecode p a) (fpDecode p b) = decide (p.value a < p.value b) := by
  obtain ⟨n, e, hda, hva⟩ := finite_fin hp ha
  obtain ⟨m, k, hdb, hvb⟩ := finite_fin hp hb
  rw [hda, hdb, hva, hvb]
  exact valLt_fin one_ne_zero one_ne_zero

theorem valEq_finite : valEq (fpDecode p a) (fpDecode p b) = decide (p.value a = p.value b) := by
  have hlt := valLt_finite hp ha hb
  have hgt := valLt_finite hp hb ha
  obtain ⟨n, e, hda, -⟩ := finite_fin hp ha
  obtain ⟨m, k, hdb, -⟩ := finite_fin hp hb
  rw [valEq, hlt, hgt, hda, hdb]
  rcases lt_trichotomy (p.value a) (p.value b) with h | h | h
  · simp [Val.isNan, h, h.ne]
  · simp [Val.isNan, h]
  · simp [Val.isNan, h, h.ne']

/-! ### Minimum, maximum and compares -/

theorem fpBefore_finite : fpBefore (fpDecode p a) (fpDecode p b) =
    decide (p.value a < p.value b ∨ p.value a = p.value b ∧ p.negative a = true ∧ p.negative b = false) := by
  have hlt := valLt_finite hp ha hb
  have heq := valEq_finite hp ha hb
  obtain ⟨n, e, hda, -⟩ := finite_fin hp ha
  obtain ⟨m, k, hdb, -⟩ := finite_fin hp hb
  rw [fpBefore, hlt, heq, hda, hdb]
  simp only [Val.neg, Bool.decide_or, Bool.decide_and, Bool.decide_eq_true, Bool.decide_eq_false, Bool.and_assoc]

theorem fpMinMax_finite (larger : Bool) : fpMinMax p larger a b =
    (if larger then if fpBefore (fpDecode p a) (fpDecode p b) then b else a else if fpBefore (fpDecode p b) (fpDecode p a) then b else a, 0) := by
  obtain ⟨n, e, hda, -⟩ := finite_fin hp ha
  obtain ⟨m, k, hdb, -⟩ := finite_fin hp hb
  have hnan : ((fpDecode p a).isNan || (fpDecode p b).isNan) = false := by
    rw [hda, hdb]
    rfl
  rw [fpMinMax]
  rw [hnan, if_neg Bool.false_ne_true]
  cases larger <;> rfl

theorem fpBefore_true (h : fpBefore (fpDecode p a) (fpDecode p b) = true) :
    p.value a ≤ p.value b ∧ (p.value a = p.value b → p.negative a = true ∧ p.negative b = false) := by
  rw [fpBefore_finite hp ha hb, decide_eq_true_iff] at h
  exact ⟨h.elim le_of_lt fun h => h.1.le, fun heq => (h.resolve_left heq.not_lt).2⟩

theorem fpBefore_false (h : ¬fpBefore (fpDecode p a) (fpDecode p b) = true) :
    p.value b ≤ p.value a ∧ (p.value a = p.value b → p.negative a = true → p.negative b = true) := by
  rw [fpBefore_finite hp ha hb, decide_eq_true_iff, not_or, not_lt, not_and, not_and, Bool.not_eq_false] at h
  exact h

theorem fpMinMax_spec (larger : Bool) : (fpMinMax p larger a b = (a, 0) ∨ fpMinMax p larger a b = (b, 0)) ∧
    p.value (fpMinMax p larger a b).1 = (if larger then max (p.value a) (p.value b) else min (p.value a) (p.value b)) ∧
    (p.value a = p.value b → p.negative (fpMinMax p larger a b).1 = if larger then p.negative a && p.negative b else p.negative a || p.negative b) := by
  rw [fpMinMax_finite hp ha hb]
  cases larger
  · rw [if_neg Bool.false_ne_true, if_neg Bool.false_ne_true, if_neg Bool.false_ne_true]
    by_cases h : fpBefore (fpDecode p b) (fpDecode p a) = true
    · obtain ⟨hle, hneg⟩ := fpBefore_true hp hb ha h
      rw [if_pos h]
      exact ⟨.inr rfl, (min_eq_right hle).symm, fun heq => by rw [(hneg heq.symm).1, Bool.or_true]⟩
    · obtain ⟨hle, hneg⟩ := fpBefore_false hp hb ha h
      rw [if_neg h]
      exact ⟨.inl rfl, (min_eq_left hle).symm, fun heq => (Bool.or_eq_left_iff_imp.2 (hneg heq.symm)).symm⟩
  · rw [if_pos rfl, if_pos rfl, if_pos rfl]
    by_cases h : fpBefore (fpDecode p a) (fpDecode p b) = true
    · obtain ⟨hle, hneg⟩ := fpBefore_true hp ha hb h
      rw [if_pos h]
      exact ⟨.inr rfl, (max_eq_right hle).symm, fun heq => by rw [(hneg heq).2, Bool.and_false]⟩
    · obtain ⟨hle, hneg⟩ := fpBefore_false hp ha hb h
      rw [if_neg h]
      exact ⟨.inl rfl, (max_eq_left hle).symm, fun heq => (Bool.and_eq_left_iff_imp.2 (hneg heq)).symm⟩

theorem signals_finite : ((fpDecode p a).isSig || (fpDecode p b).isSig) = false ∧ ((fpDecode p a).isNan || (fpDecode p b).isNan) = false := by
  obtain ⟨n, e, hda, -⟩ := finite_fin hp ha
  obtain ⟨m, k, hdb, -⟩ := finite_fin hp hb
  rw [hda, hdb]
  exact ⟨rfl, rfl⟩

theorem fpCmpEq_finite : fpCmpEq p a b = (decide (p.value a = p.value b), 0) := by
  obtain ⟨hsig, -⟩ := signals_finite hp ha hb
  rw [fpCmpEq]
  rw [valEq_finite hp ha hb, hsig]
  rfl

theorem fpCmpLt_finite : fpCmpLt p a b = (decide (p.value a < p.value b), 0) := by
  obtain ⟨-, hnan⟩ := signals_finite hp ha hb
  rw [fpCmpLt]
  rw [valLt_finite hp ha hb, hnan]
  rfl

theorem fpCmpLe_finite : fpCmpLe p a b = (decide (p.value a ≤ p.value b), 0) := by
  obtain ⟨-, hnan⟩ := signals_finite hp ha hb
  rw [fpCmpLe]
  rw [valLt_finite hp ha hb, valEq_finite hp ha hb, hnan, ← Bool.decide_or, decide_eq_decide.2 le_iff_lt_or_eq.symm]
  rfl

end

end Sys2Proof.Machine
end


section
/-!
SUPPORT. The square root (spec/08 R195): `isqrt` is the integer root, the root with 64 bits below its leading one lies on the exact root's side of
every number of that many bits, and so rounds as the exact root does.
-/

namespace Sys2Proof.Machine

open Sys2Proof

/-! ### The integer root -/

theorem isqrtFrom_spec (n k r : Nat) (h1 : r * r ≤ n) (h2 : n < (r + 2 ^ k) * (r + 2 ^ k)) :
    isqrtFrom n k r * isqrtFrom n k r ≤ n ∧ n < (isqrtFrom n k r + 1) * (isqrtFrom n k r + 1) := by
  induction k generalizing r with
  | zero => exact ⟨h1, h2⟩
  | succ k ih =>
    rw [isqrtFrom]
    by_cases ht : (r + 2 ^ k) * (r + 2 ^ k) ≤ n
    · rw [if_pos ht]
      refine ih _ ht ?_
      rwa [add_assoc, ← two_mul, ← pow_succ']
    · rw [if_neg ht]
      exact ih _ h1 (not_le.1 ht)

theorem isqrt_spec (n : Nat) : isqrt n * isqrt n ≤ n ∧ n < (isqrt n + 1) * (isqrt n + 1) := by
  refine isqrtFrom_spec n _ 0 (Nat.zero_le _) ?_
  rw [Nat.zero_add, ← pow_add]
  exact lt_of_lt_of_le Nat.lt_log2_self (Nat.pow_le_pow_right two_pos (by omega))

theorem le_isqrt_iff (n j : Nat) : j ≤ isqrt n ↔ j * j ≤ n := by
  obtain ⟨h1, h2⟩ := isqrt_spec n
  refine ⟨fun h => (Nat.mul_le_mul h h).trans h1, fun h => ?_⟩
  by_contra hj
  exact absurd (h.trans_lt h2) (not_lt.2 (Nat.mul_le_mul (not_le.1 hj) (not_le.1 hj)))

/-! ### The root before its rounding -/

/-- The root of `X` in units of 2^`h`: exact, or the middle of the two integers around it. -/
def rootValue (X : Nat) (h : Int) : ℚ := if isqrt X * isqrt X = X then isqrt X * 2 ^ h else (isqrt X + 1 / 2) * 2 ^ h

section
variable (X : Nat) (h : Int)

theorem natMul_le_rootValue_iff (j : Nat) : (j : ℚ) * 2 ^ h ≤ rootValue X h ↔ j * j ≤ X := by
  rw [← le_isqrt_iff, rootValue]
  split
  · rw [mul_le_mul_iff_left₀ (by positivity), Nat.cast_le]
  · rw [mul_le_mul_iff_left₀ (by positivity)]
    refine ⟨fun hj => ?_, fun hj => ?_⟩
    · by_contra hlt
      have : (isqrt X : ℚ) + 1 ≤ j := by exact_mod_cast not_le.1 hlt
      linarith
    · have : (j : ℚ) ≤ isqrt X := by exact_mod_cast hj
      linarith

theorem rootValue_le_natMul_iff (j : Nat) : rootValue X h ≤ (j : ℚ) * 2 ^ h ↔ X ≤ j * j := by
  obtain ⟨h1, h2⟩ := isqrt_spec X
  rw [rootValue]
  split
  · next hX =>
    rw [mul_le_mul_iff_left₀ (by positivity), Nat.cast_le]
    conv_rhs => rw [← hX]
    exact Nat.mul_self_le_mul_self_iff.symm
  · next hX =>
    rw [mul_le_mul_iff_left₀ (by positivity)]
    refine ⟨fun hj => ?_, fun hj => ?_⟩
    · have : (isqrt X : ℚ) < j := by linarith
      have : isqrt X + 1 ≤ j := by exact_mod_cast this
      exact h2.le.trans (Nat.mul_le_mul this this)
    · have hlt : isqrt X < j := Nat.mul_self_lt_mul_self_iff.1 (lt_of_lt_of_le (lt_of_le_of_ne h1 hX) hj)
      have : (isqrt X : ℚ) + 1 ≤ j := by exact_mod_cast hlt
      linarith

variable {X h} {c : ℚ}

/-- A multiple of the unit is at most the root exactly where its square is at most the number, and at least it likewise. -/
theorem le_rootValue_iff (hc : ∃ j : Nat, c = j * 2 ^ h) : c ≤ rootValue X h ↔ c ^ 2 ≤ X * 2 ^ h * 2 ^ h := by
  obtain ⟨j, rfl⟩ := hc
  rw [natMul_le_rootValue_iff, show ((j : ℚ) * 2 ^ h) ^ 2 = (j * j : Nat) * 2 ^ h * 2 ^ h by push_cast; ring,
    mul_le_mul_iff_left₀ (by positivity), mul_le_mul_iff_left₀ (by positivity), Nat.cast_le]

theorem rootValue_le_iff (hc : ∃ j : Nat, c = j * 2 ^ h) : rootValue X h ≤ c ↔ X * 2 ^ h * 2 ^ h ≤ c ^ 2 := by
  obtain ⟨j, rfl⟩ := hc
  rw [rootValue_le_natMul_iff, show ((j : ℚ) * 2 ^ h) ^ 2 = (j * j : Nat) * 2 ^ h * 2 ^ h by push_cast; ring,
    mul_le_mul_iff_left₀ (by positivity), mul_le_mul_iff_left₀ (by positivity), Nat.cast_le]

theorem eq_rootValue_iff (hc : ∃ j : Nat, c = j * 2 ^ h) : c = rootValue X h ↔ c ^ 2 = X * 2 ^ h * 2 ^ h := by
  rw [le_antisymm_iff, le_rootValue_iff hc, rootValue_le_iff hc, ← le_antisymm_iff]

/-- A multiple of a greater power of two is one of the unit. -/
theorem multiple_of_le {k : Int} (hk : h ≤ k) (j : Nat) : ∃ i : Nat, (j : ℚ) * 2 ^ k = i * 2 ^ h := by
  obtain ⟨t, ht⟩ := Int.eq_ofNat_of_zero_le (sub_nonneg.2 hk)
  refine ⟨j * 2 ^ t, ?_⟩
  rw [show k = t + h by omega, zpow_add₀ two_ne_zero, zpow_natCast]
  push_cast
  ring

end

theorem radicand_eq (a : Nat) (k : Int) : (a : ℚ) * 2 ^ (2 * k) = (a * 2 ^ 128 : Nat) * 2 ^ (k - 64) * 2 ^ (k - 64) := by
  rw [Nat.cast_mul, Nat.cast_pow, Nat.cast_ofNat, ← zpow_natCast, mul_assoc, mul_assoc, ← zpow_add₀ two_ne_zero, ← zpow_add₀ two_ne_zero]
  congr 2
  push_cast
  ring

/-- The radicand of a positive value: it has 128 bits below its own, and an even power of two beside it. -/
theorem valSqrt_fin {n : Nat} (hn : n ≠ 0) (e : Int) : ∃ (X : Nat) (h : Int), 2 ^ 128 ≤ X ∧ (n : ℚ) * 2 ^ e = X * 2 ^ h * 2 ^ h ∧
    valSqrt (.fin false n 1 e) = (sticky false (isqrt X) (decide (isqrt X * isqrt X = X)) h, 0) := by
  have hpos : 1 ≤ n := Nat.one_le_iff_ne_zero.2 hn
  rw [valSqrt, if_neg hn, if_neg Bool.false_ne_true]
  dsimp only [rootBits]
  by_cases he : e % 2 = 0
  · rw [if_pos he]
    refine ⟨n * 2 ^ 128, e / 2 - 64, Nat.le_mul_of_pos_left _ hpos, ?_, rfl⟩
    rw [← radicand_eq, show 2 * (e / 2) = e by omega]
  · rw [if_neg he]
    refine ⟨2 * n * 2 ^ 128, (e - 1) / 2 - 64, Nat.le_mul_of_pos_left _ (Nat.mul_pos two_pos hpos), ?_, rfl⟩
    rw [← radicand_eq, show 2 * ((e - 1) / 2) = e - 1 by omega, Nat.cast_mul, Nat.cast_ofNat, mul_comm 2, mul_assoc, ← zpow_one_add₀ two_ne_zero,
      add_sub_cancel]

/-! ### The rounding of the root -/

namespace FpFormat

variable {p : FpFormat}

theorem roundTo_root (hp : p.Regular) {X : Nat} (hX : X ≠ 0) (h : Int) : ∃ q u, p.Quotient (rootValue X h) q u ∧
    roundTo p (sticky false (isqrt X) (decide (isqrt X * isqrt X = X)) h) =
      if p.value p.maxBits < q * 2 ^ u then fpOver p false
      else (fpPack p false q u, flagIf (decide ((q : ℚ) * 2 ^ u ≠ rootValue X h)) flagNX |||
        flagIf (decide ((q : ℚ) * 2 ^ u ≠ rootValue X h ∧
          rootValue X h < 2 ^ (1 - p.bias) - 2 ^ (1 - p.bias) / 2 ^ (p.manBits + 2))) flagUF) := by
  rw [sticky]
  by_cases hs : isqrt X * isqrt X = X
  · have hval : rootValue X h = isqrt X / (1 : Nat) * 2 ^ h := by rw [rootValue, if_pos hs, Nat.cast_one, div_one]
    rw [decide_eq_true hs, if_pos rfl, hval]
    exact roundTo_eq hp false (fun h0 => hX (by rw [← hs, h0])) one_ne_zero h
  · have hval : rootValue X h = (2 * isqrt X + 1 : Nat) / (1 : Nat) * 2 ^ (h - 1) := by
      rw [rootValue, if_neg hs, zpow_sub_one₀ two_ne_zero]
      push_cast
      ring
    rw [decide_eq_false hs, if_neg Bool.false_ne_true, hval]
    exact roundTo_eq hp false (Nat.succ_ne_zero _) one_ne_zero (h - 1)

/-! ### Middles -/

section
variable {t : ℚ} {q : Nat} {u : Int} (hq : p.Quotient t q u) (k : ℤ)
include hq

/-- The middle of the rounded magnitude and a lesser multiple of its unit is at most the exact one. -/
theorem Quotient.middle_le (hk : (k : ℚ) * 2 ^ u < q * 2 ^ u) : (k * 2 ^ u + q * 2 ^ u) / 2 ≤ t := by
  obtain ⟨hle, -⟩ := hq.nearest_multiple k
  by_contra hlt
  have h1 := (le_abs_self _).trans hle
  rcases abs_cases ((k : ℚ) * 2 ^ u - t) with ⟨habs, -⟩ | ⟨habs, -⟩ <;> rw [habs] at h1 <;> linarith

theorem Quotient.le_middle (hk : (q : ℚ) * 2 ^ u < k * 2 ^ u) : t ≤ (k * 2 ^ u + q * 2 ^ u) / 2 := by
  obtain ⟨hle, -⟩ := hq.nearest_multiple k
  by_contra hlt
  have h1 := (neg_le_abs _).trans hle
  rcases abs_cases ((k : ℚ) * 2 ^ u - t) with ⟨habs, -⟩ | ⟨habs, -⟩ <;> rw [habs] at h1 <;> linarith

end

/-- The root of every positive number of the format is a normal number, and 64 bits below its leading one lie below its unit. -/
structure Radical (p : FpFormat) : Prop where
  man : p.manBits ≤ 62
  bias : p.manBits + 1 ≤ p.bias

/-- The root of a positive finite number of the format: its radicand, and the root's quotient in its unit. -/
structure Root (p : FpFormat) (x : ℚ) (X : Nat) (h : Int) (q : Nat) (u : Int) : Prop where
  radicand : x = X * 2 ^ h * 2 ^ h
  wide : 2 ^ 128 ≤ X
  least : 2 ^ p.low ≤ x
  most : x < 2 ^ (p.unit p.topExp + p.manBits + 1)
  quotient : p.Quotient (rootValue X h) q u

namespace Root

variable {x : ℚ} {X : Nat} {h : Int} {q : Nat} {u : Int} (hr : p.Radical) (hR : p.Root x X h q u)

include hR in
theorem unit_le_root : (2 : ℚ) ^ (h + 64) ≤ rootValue X h := by
  rw [show (2 : ℚ) ^ (h + 64) = (2 ^ 64 : Nat) * 2 ^ h by rw [zpow_add₀ two_ne_zero]; push_cast; ring]
  exact (natMul_le_rootValue_iff X h _).2 (le_trans (by norm_num) hR.wide)

include hR hr in
/-- The unit of the quotient is a multiple of twice the unit of the root. -/
theorem lt_unit : h < u := by
  have hlt := hR.unit_le_root.trans_lt hR.quotient.lt
  have := (zpow_lt_zpow_iff_right₀ one_lt_two).1 hlt
  have := hr.man
  omega

include hR hr in
/-- The root is a normal number. -/
theorem normal : 2 ^ (1 - p.bias) ≤ rootValue X h := by
  have hbias := hr.bias
  rcases le_total h (1 - p.bias) with hh | hh
  · obtain ⟨i, hi⟩ := multiple_of_le hh 1
    rw [Nat.cast_one, one_mul] at hi
    rw [le_rootValue_iff ⟨i, hi⟩, ← hR.radicand]
    refine le_trans ?_ hR.least
    rw [← zpow_natCast, ← zpow_mul]
    refine zpow_le_zpow_right₀ one_le_two ?_
    rw [low]
    push_cast
    omega
  · exact (zpow_le_zpow_right₀ one_le_two (by omega)).trans hR.unit_le_root

include hR hr in
theorem leading : 2 ^ (u + p.manBits) ≤ rootValue X h ∧ 2 ^ p.manBits ≤ q := by
  have hge : 2 ^ (u + p.manBits) ≤ rootValue X h := by
    obtain hlow | hge := hR.quotient.least
    · rw [hlow, low, sub_add_cancel]
      exact hR.normal hr
    · exact hge
  refine ⟨hge, ?_⟩
  rw [zpow_unit, ← le_div_iff₀ (by positivity)] at hge
  exact_mod_cast le_roundsToInt hR.quotient.near (k := 2 ^ p.manBits) (by push_cast; exact hge)

include hR hr in
theorem le_topUnit (hp : p.Regular) : h ≤ p.unit p.topExp := by
  have hwide : (2 : ℚ) ^ (128 + h + h) ≤ x := by
    rw [hR.radicand, zpow_add₀ two_ne_zero, zpow_add₀ two_ne_zero]
    gcongr
    exact_mod_cast hR.wide
  have := (zpow_lt_zpow_iff_right₀ one_lt_two).1 (hwide.trans_lt hR.most)
  have := hr.man
  have := hp.top
  omega

include hR hr in
theorem le_max (hp : p.Regular) : rootValue X h ≤ p.value p.maxBits := by
  have hunit := hp.top
  have hman := hp.man
  have hsig : (2 : ℚ) ^ (p.unit p.topExp + p.manBits) ≤ p.topSig * 2 ^ p.unit p.topExp := by
    rw [zpow_unit]
    gcongr
    exact_mod_cast Nat.le_add_right (2 ^ p.manBits) p.topMan
  rw [value_max hp, rootValue_le_iff (multiple_of_le (hR.le_topUnit hr hp) _), ← hR.radicand]
  calc x ≤ 2 ^ (p.unit p.topExp + p.manBits + 1) := hR.most.le
    _ ≤ 2 ^ ((p.unit p.topExp + p.manBits) * (2 : Nat)) := zpow_le_zpow_right₀ one_le_two (by push_cast; omega)
    _ = (2 ^ (p.unit p.topExp + p.manBits)) ^ 2 := by rw [zpow_mul, zpow_natCast]
    _ ≤ _ := by gcongr

include hR hr in
/-- The root is not beyond the range. -/
theorem within (hp : p.Regular) : ¬p.value p.maxBits < q * 2 ^ u := by
  have hle := hR.le_max hr hp
  have hhalf : 0 < (p.value p.maxBits - p.value (p.maxBits - 1)) / 2 := by
    rw [value_max hp, value_max_pred hp, ← sub_mul, sub_sub_cancel, one_mul]
    positivity
  rw [hR.quotient.beyond_iff hp]
  split <;> linarith

/-- A multiple of half the quotient's unit is one of the root's unit. -/
theorem middle_multiple (hr : p.Radical) (hR : p.Root x X h q u) (k : ℕ) : ∃ j : Nat, ((k : ℚ) * 2 ^ u + q * 2 ^ u) / 2 = j * 2 ^ h := by
  obtain ⟨j, hj⟩ := multiple_of_le (show h ≤ u - 1 by have := hR.lt_unit hr; omega) (k + q)
  refine ⟨j, ?_⟩
  rw [← hj, zpow_sub_one₀ two_ne_zero]
  push_cast
  ring

include hR hr in
/-- A lesser value of the format: the square of the middle is at most the radicand. -/
theorem middle_sq_le {y : Nat} (hy0 : 0 ≤ p.value y) (hy : p.value y < q * 2 ^ u) : ((p.value y + q * 2 ^ u) / 2) ^ 2 ≤ x := by
  obtain ⟨hge, hlead⟩ := hR.leading hr
  have hsq : ∀ k : Nat, p.value y ≤ k * 2 ^ u → (k * 2 ^ u + q * 2 ^ u) / 2 ≤ rootValue X h → ((p.value y + q * 2 ^ u) / 2) ^ 2 ≤ x := by
    intro k hyk hmid
    rw [le_rootValue_iff (middle_multiple hr hR k), ← hR.radicand] at hmid
    refine le_trans ?_ hmid
    gcongr
  obtain ⟨k, hk⟩ | ⟨hsmall, -⟩ := p.value_grid false y u
  · rw [signed_pos] at hk
    rw [hk] at hy0
    obtain ⟨j, rfl⟩ := Int.eq_ofNat_of_zero_le (show 0 ≤ k by exact_mod_cast nonneg_of_mul_nonneg_left hy0 (by positivity))
    exact hsq j hk.le (hR.quotient.middle_le j (by rwa [← hk]))
  · rw [zpow_unit] at hsmall hge
    refine hsq (2 ^ p.manBits) (by push_cast; exact ((le_abs_self _).trans_lt hsmall).le) ?_
    rcases hlead.lt_or_eq with hlt | heq
    · have := hR.quotient.middle_le (2 ^ p.manBits) (by push_cast; gcongr; exact_mod_cast hlt)
      exact_mod_cast this
    · rw [← heq, add_self_div_two]
      exact_mod_cast hge

include hR hr in
/-- A greater value of the format: the square of the middle is at least the radicand. -/
theorem le_middle_sq {y : Nat} (hy : q * 2 ^ u < p.value y) : x ≤ ((p.value y + q * 2 ^ u) / 2) ^ 2 := by
  obtain ⟨hge, hlead⟩ := hR.leading hr
  obtain ⟨k, hk⟩ | ⟨hsmall, -⟩ := p.value_grid false y u
  · rw [signed_pos] at hk
    have hmid := hR.quotient.le_middle k (by rwa [← hk])
    rw [hk] at hy
    have hqk : (q : ℤ) < k := by exact_mod_cast (mul_lt_mul_iff_left₀ (show (0 : ℚ) < 2 ^ u by positivity)).1 hy
    obtain ⟨j, rfl⟩ := Int.eq_ofNat_of_zero_le (show 0 ≤ k by omega)
    rw [hk]
    rw [Int.cast_natCast] at hmid ⊢
    rwa [rootValue_le_iff (middle_multiple hr hR j), ← hR.radicand] at hmid
  · refine absurd ((le_abs_self _).trans_lt hsmall) (not_lt.2 (le_trans ?_ hy.le))
    rw [zpow_unit]
    gcongr
    exact_mod_cast hlead

include hR hr in
/-- The rounded root is exact where its square is the radicand. -/
theorem exact_iff : (q : ℚ) * 2 ^ u = rootValue X h ↔ ((q : ℚ) * 2 ^ u) ^ 2 = x := by
  rw [eq_rootValue_iff (multiple_of_le (hR.lt_unit hr).le q), ← hR.radicand]

end Root

end FpFormat

namespace FpFormat

variable {p : FpFormat}

theorem unit_le_unit {e k : Nat} (h : e ≤ k) : p.unit e ≤ p.unit k := by
  rw [unit, unit, low]
  split <;> split <;> omega

/-- The bounds of a positive finite value. -/
theorem value_bounds (hp : p.Regular) {a : Nat} (ha : p.finite a) (h0 : 0 < p.size a) :
    2 ^ p.low ≤ p.size a ∧ p.size a < 2 ^ (p.unit p.topExp + p.manBits + 1) := by
  have hsig := p.significand_lt (e := p.exponentOf a) (p.mantissaOf_lt a)
  rw [size] at h0 ⊢
  set n := p.significand (p.exponentOf a) (p.mantissaOf a)
  have hn : (1 : ℚ) ≤ n := by exact_mod_cast Nat.cast_pos.1 (pos_of_mul_pos_left h0 (by positivity))
  constructor
  · calc (2 : ℚ) ^ p.low ≤ 2 ^ p.unit (p.exponentOf a) := zpow_le_zpow_right₀ one_le_two (p.low_le_unit _)
      _ ≤ n * 2 ^ p.unit (p.exponentOf a) := le_mul_of_one_le_left (by positivity) hn
  · calc (n : ℚ) * 2 ^ p.unit (p.exponentOf a) < 2 ^ (p.manBits + 1) * 2 ^ p.unit (p.exponentOf a) := by
          gcongr
          exact_mod_cast hsig
      _ ≤ 2 ^ (p.manBits + 1) * 2 ^ p.unit p.topExp := by
          gcongr
          · exact one_le_two
          · exact unit_le_unit (exponentOf_le hp ha)
      _ = 2 ^ (p.unit p.topExp + p.manBits + 1) := by
          rw [← zpow_unit]
          congr 1
          push_cast
          ring

/-- What the square root of a positive finite number delivers: the rounded root, exact or not, and no other flag. -/
theorem fpSqrt_root (hp : p.Regular) (hr : p.Radical) {a : Nat} (ha : p.finite a) (h0 : 0 < p.value a) : ∃ X h q u, p.Root (p.value a) X h q u ∧
    fpSqrt p a = (fpPack p false q u, flagIf (decide (((q : ℚ) * 2 ^ u) ^ 2 ≠ p.value a)) flagNX) := by
  have hsign : a.testBit (p.width - 1) = false := by
    by_contra hneg
    rw [value_eq, eq_true_of_ne_false hneg, signed_neg] at h0
    linarith [p.size_nonneg a]
  have hval : p.value a = p.size a := by rw [value_eq, hsign, signed_pos]
  rw [hval] at h0 ⊢
  obtain ⟨hleast, hmost⟩ := value_bounds hp ha h0
  have hn : p.significand (p.exponentOf a) (p.mantissaOf a) ≠ 0 := by
    intro hn
    rw [size, hn] at h0
    simp at h0
  obtain ⟨X, h, hwide, hradicand, hsqrt⟩ := valSqrt_fin hn (p.unit (p.exponentOf a))
  obtain ⟨q, u, hq, hround⟩ := roundTo_root hp (show X ≠ 0 by rintro rfl; simp at hwide) h
  have hR : p.Root (p.size a) X h q u := ⟨hradicand, hwide, hleast, hmost, hq⟩
  have htiny : ¬((q : ℚ) * 2 ^ u ≠ rootValue X h ∧ rootValue X h < 2 ^ (1 - p.bias) - 2 ^ (1 - p.bias) / 2 ^ (p.manBits + 2)) := by
    have hpos : (0 : ℚ) < 2 ^ (1 - p.bias) / 2 ^ (p.manBits + 2) := by positivity
    exact fun hx => absurd hx.2 (not_lt.2 (by linarith [hR.normal hr]))
  refine ⟨X, h, q, u, hR, ?_⟩
  rw [fpSqrt, fpDecode_finite hp ha, hsign, hsqrt, finish_none, hround, if_neg (hR.within hr hp), decide_eq_false htiny,
    decide_eq_decide.2 (not_congr (hR.exact_iff hr))]
  exact Prod.ext rfl (BitVec.or_zero ..)

theorem fpSqrt_pos (hp : p.Regular) (hr : p.Radical) {a : Nat} (ha : p.finite a) (h0 : 0 < p.value a) :
    p.finite (fpSqrt p a).1 ∧ 0 < p.value (fpSqrt p a).1 ∧ (fpSqrt p a).2 = flagIf (decide (p.value (fpSqrt p a).1 ^ 2 ≠ p.value a)) flagNX ∧
      ∀ y : Nat, p.finite y → 0 ≤ p.value y →
        (p.value y < p.value (fpSqrt p a).1 → ((p.value y + p.value (fpSqrt p a).1) / 2) ^ 2 ≤ p.value a) ∧
        (p.value (fpSqrt p a).1 < p.value y → p.value a ≤ ((p.value y + p.value (fpSqrt p a).1) / 2) ^ 2) := by
  obtain ⟨X, h, q, u, hR, hsqrt⟩ := fpSqrt_root hp hr ha h0
  have hq := hR.quotient
  obtain ⟨-, hlead⟩ := hR.leading hr
  have hq0 : (0 : ℚ) < q := by exact_mod_cast lt_of_lt_of_le (Nat.two_pow_pos _) hlead
  obtain ⟨hfin, -, hval, -⟩ := fpPack_spec hp false hq.low hq.le hq.leading (not_lt.1 (hR.within hr hp))
  rw [signed_pos] at hval
  rw [hsqrt]
  dsimp only
  rw [hval]
  exact ⟨hfin, by positivity, rfl, fun y _ hy0 => ⟨hR.middle_sq_le hr hy0, hR.le_middle_sq hr⟩⟩

end FpFormat

end Sys2Proof.Machine
end


section
/-!
SUPPORT. NaNs, infinities and zeros in the operations, and the conversions (spec/06 R152, R153, R155; spec/08 R195-R197; Table 6.5).
-/

namespace Sys2Proof.Machine

open Sys2Proof

/-! ### NaN operands (R153) -/

/-- A binary operation on values that gives the NaN for a NaN operand, with NV where an operand signals. -/
structure NanRule (f : Val → Val → Val × Flags) : Prop where
  left : ∀ s b, f (.nan s) b = (.nan false, flagIf (s || b.isSig) flagNV)
  right : ∀ a s, a.isNan = false → f a (.nan s) = (.nan false, flagIf s flagNV)

theorem isSig_of_not_nan {v : Val} (h : v.isNan = false) : v.isSig = false := by
  cases v with
  | nan s => exact nomatch h
  | inf | fin => rfl

theorem NanRule.nan {f : Val → Val → Val × Flags} (hf : NanRule f) {a b : Val} (h : (a.isNan || b.isNan) = true) :
    f a b = (.nan false, flagIf (a.isSig || b.isSig) flagNV) := by
  cases ha : a.isNan
  · rw [ha, Bool.false_or] at h
    cases b with
    | nan s => rw [hf.right a s ha, isSig_of_not_nan ha, Bool.false_or, Val.isSig]
    | inf | fin => exact nomatch h
  · cases a with
    | nan s => exact hf.left s b
    | inf | fin => exact nomatch ha

theorem valAdd_nanRule : NanRule valAdd where
  left _ _ := rfl
  right a _ h := by
    cases a with
    | nan => exact nomatch h
    | inf | fin => rfl

theorem valMul_nanRule : NanRule valMul where
  left _ _ := rfl
  right a _ h := by
    cases a with
    | nan => exact nomatch h
    | inf | fin => rfl

theorem valDiv_nanRule : NanRule valDiv where
  left _ _ := rfl
  right a _ h := by
    cases a with
    | nan => exact nomatch h
    | inf | fin => rfl

theorem valNeg_nan (v : Val) : (valNeg v).isNan = v.isNan ∧ (valNeg v).isSig = v.isSig := by
  cases v <;> exact ⟨rfl, rfl⟩

theorem valSub_nan {a b : Val} (h : (a.isNan || b.isNan) = true) : valSub a b = (.nan false, flagIf (a.isSig || b.isSig) flagNV) := by
  obtain ⟨hnan, hsig⟩ := valNeg_nan b
  rw [valSub, valAdd_nanRule.nan (by rwa [hnan]), hsig]

/-- A product of an infinity and a zero. -/
def infTimesZero (a b : Val) : Bool := (a.isInf && b.isZero) || (a.isZero && b.isInf)

theorem infTimesZero_nan {a b : Val} (h : (a.isNan || b.isNan) = true) : infTimesZero a b = false := by
  cases a <;> cases b <;> simp [infTimesZero, Val.isInf, Val.isZero, Val.isNan] at h ⊢

/-- A product of values that are no NaNs: it does not signal, and NV is for an infinity times a zero. -/
theorem valMul_not_nan {a b : Val} (ha : a.isNan = false) (hb : b.isNan = false) :
    (valMul a b).1.isSig = false ∧ (valMul a b).2 = flagIf (infTimesZero a b) flagNV := by
  have hzero (n : Nat) (v : Val) (hv : v.isSig = false) :
      (if n = 0 then (Val.nan false, flagNV) else (v, 0)).1.isSig = false ∧
        (if n = 0 then (Val.nan false, flagNV) else (v, 0)).2 = flagIf (decide (n = 0)) flagNV := by
    by_cases h : n = 0
    · rw [if_pos h, decide_eq_true h]
      exact ⟨rfl, rfl⟩
    · rw [if_neg h, decide_eq_false h]
      exact ⟨hv, rfl⟩
  cases a with
  | nan => exact nomatch ha
  | inf m =>
    cases b with
    | nan => exact nomatch hb
    | inf n => exact ⟨rfl, rfl⟩
    | fin n x d e =>
      rw [show infTimesZero (.inf m) (.fin n x d e) = decide (x = 0) from Bool.or_false _]
      exact hzero x _ rfl
  | fin n x d e =>
    cases b with
    | nan => exact nomatch hb
    | inf m =>
      rw [show infTimesZero (.fin n x d e) (.inf m) = decide (x = 0) from Bool.and_true _]
      exact hzero x _ rfl
    | fin =>
      rw [show infTimesZero (.fin n x d e) (.fin ..) = false from Bool.and_false _]
      exact ⟨rfl, rfl⟩

theorem flagIf_or (b c : Bool) (f : Flags) : flagIf b f ||| flagIf c f = flagIf (b || c) f := by
  cases b <;> cases c <;> simp [flagIf]

theorem valFma_nan {a b c : Val} (h : (a.isNan || b.isNan || c.isNan) = true) :
    valFma a b c = (.nan false, flagIf (a.isSig || b.isSig || c.isSig || infTimesZero a b) flagNV) := by
  have hsplit : valFma a b c = ((valAdd (valMul a b).1 c).1, (valMul a b).2 ||| (valAdd (valMul a b).1 c).2) := rfl
  cases hab : a.isNan || b.isNan
  · obtain ⟨ha, hb⟩ := Bool.or_eq_false_iff.1 hab
    obtain ⟨hsig, hnv⟩ := valMul_not_nan ha hb
    rw [hab, Bool.false_or] at h
    rw [hsplit, valAdd_nanRule.nan (by rw [h, Bool.or_true]), hsig, hnv, flagIf_or, isSig_of_not_nan ha, isSig_of_not_nan hb,
      Bool.or_comm (infTimesZero a b)]
    rfl
  · rw [hsplit, valMul_nanRule.nan hab, valAdd_nanRule.nan rfl, flagIf_or, infTimesZero_nan hab, Bool.or_false]
    rfl

theorem valLt_nan {a b : Val} (h : (a.isNan || b.isNan) = true) : valLt a b = false := by
  cases a with
  | nan => rfl
  | inf | fin =>
    cases b with
    | nan => rfl
    | inf | fin => exact nomatch h

theorem valEq_nan {a b : Val} (h : (a.isNan || b.isNan) = true) : valEq a b = false := by
  rw [valEq, ← Bool.not_or, h]
  rfl

section
variable {p : FpFormat} {code : Nat} (hn : p.nan = some code)
include hn

theorem finish_nan (s : Bool) (fl : Flags) : finish p (.nan s, fl) = (code, fl) := by
  have : roundTo p (.nan s) = (code, 0) := by rw [roundTo, fpNan, hn]
  rw [finish]
  dsimp only
  rw [this]
  exact Prod.ext rfl (BitVec.or_zero ..)

variable {a b c : Nat}

/-- The binary operations and compares with a NaN operand. -/
theorem fpBinary_nan (h : ((fpDecode p a).isNan || (fpDecode p b).isNan) = true) :
    let nv := flagIf ((fpDecode p a).isSig || (fpDecode p b).isSig) flagNV
    fpAdd p a b = (code, nv) ∧ fpSub p a b = (code, nv) ∧ fpMul p a b = (code, nv) ∧ fpDiv p a b = (code, nv) ∧
      fpMinMax p false a b = (code, nv) ∧ fpMinMax p true a b = (code, nv) ∧
      fpCmpEq p a b = (false, nv) ∧ fpCmpLt p a b = (false, flagNV) ∧ fpCmpLe p a b = (false, flagNV) := by
  have hnan : (fpNan p).1 = code := by rw [fpNan, hn]
  have hminmax (larger : Bool) : fpMinMax p larger a b = (code, flagIf ((fpDecode p a).isSig || (fpDecode p b).isSig) flagNV) := by
    rw [← hnan]
    exact if_pos h
  refine ⟨?_, ?_, ?_, ?_, hminmax false, hminmax true, ?_, ?_, ?_⟩
  · rw [fpAdd, valAdd_nanRule.nan h, finish_nan hn]
  · rw [fpSub, valSub_nan h, finish_nan hn]
  · rw [fpMul, valMul_nanRule.nan h, finish_nan hn]
  · rw [fpDiv, valDiv_nanRule.nan h, finish_nan hn]
  · rw [fpCmpEq, valEq_nan h]
  · rw [fpCmpLt, valLt_nan h, h]
    rfl
  · rw [fpCmpLe, valLt_nan h, valEq_nan h, h]
    rfl

theorem fpFma_nan (h : ((fpDecode p a).isNan || (fpDecode p b).isNan || (fpDecode p c).isNan) = true) :
    fpFma p a b c = (code, flagIf ((fpDecode p a).isSig || (fpDecode p b).isSig || (fpDecode p c).isSig ||
      infTimesZero (fpDecode p a) (fpDecode p b)) flagNV) := by
  rw [fpFma, valFma_nan h, finish_nan hn]

/-- The unary operations of a NaN. -/
theorem fpUnary_nan (h : (fpDecode p a).isNan = true) :
    let nv := flagIf (fpDecode p a).isSig flagNV
    fpSqrt p a = (code, nv) ∧ fpAbs p a = (code, nv) ∧ fpNeg p a = (code, nv) := by
  have hnan : (fpNan p).1 = code := by rw [fpNan, hn]
  refine ⟨?_, ?_, ?_⟩
  · have hsqrt : valSqrt (fpDecode p a) = (.nan false, flagIf (fpDecode p a).isSig flagNV) := by
      cases hv : fpDecode p a with
      | nan s => rfl
      | inf | fin => exact nomatch hv ▸ h
    rw [fpSqrt, hsqrt, finish_nan hn]
  · rw [← hnan]
    exact if_pos h
  · rw [← hnan]
    exact if_pos h

end

/-! ### Infinities and zeros (R152) -/

section
variable {p : FpFormat} {a b : Nat}

theorem fpDecode_infinity (hi : p.ieee = true) (neg : Bool) : fpDecode p (p.infinity neg) = .inf neg := by
  have hexp : 2 ^ p.expBits - 1 < 2 ^ p.expBits := Nat.sub_lt (Nat.two_pow_pos _) one_pos
  have hbits : p.infinity neg = p.bits neg (2 ^ p.expBits - 1) 0 := by
    rw [FpFormat.infinity, p.width_pred]
    rfl
  have hsign := FpFormat.bits_sign (neg := neg) hexp (Nat.two_pow_pos p.manBits)
  rw [p.width_pred, Nat.testBit_eq_decide_div_mod_eq] at hsign
  rw [hbits]
  unfold fpDecode
  dsimp only
  rw [FpFormat.bits_exponent hexp (Nat.two_pow_pos _), FpFormat.bits_mantissa (Nat.two_pow_pos _), hi, decide_eq_true rfl, Bool.and_self, if_pos rfl, if_pos rfl,
    hsign]

theorem roundTo_infinity (hi : p.ieee = true) (neg : Bool) : roundTo p (.inf neg) = (p.infinity neg, 0) := by
  rw [roundTo, fpInf, FpFormat.infinity, p.width_pred]
  exact if_pos hi

theorem finish_infinity (hi : p.ieee = true) (neg : Bool) (fl : Flags) : finish p (.inf neg, fl) = (p.infinity neg, fl) := by
  rw [finish]
  dsimp only
  rw [roundTo_infinity hi]
  exact Prod.ext rfl (BitVec.or_zero ..)

theorem finish_zero (neg : Bool) : finish p (.zero neg, 0) = (bitAt neg (p.width - 1), 0) := by
  rw [finish_none, Val.zero, FpFormat.roundTo_zero]

/-- A number's top bit, flipped. -/
theorem flip_top {x k : Nat} (hx : x < 2 ^ (k + 1)) : (if x / 2 ^ k % 2 = 1 then x % 2 ^ k else x % 2 ^ k + 2 ^ k) = x ^^^ 2 ^ k := by
  have hpos : 0 < 2 ^ k := Nat.two_pow_pos k
  have hlt : x / 2 ^ k < 2 := by
    rw [Nat.div_lt_iff_lt_mul hpos, ← pow_succ']
    exact hx
  have hmod : (x ^^^ 2 ^ k) % 2 ^ k = x % 2 ^ k := by rw [Nat.xor_mod_two_pow, Nat.mod_self, Nat.xor_zero]
  have hdiv : (x ^^^ 2 ^ k) / 2 ^ k = x / 2 ^ k ^^^ 1 := by rw [Nat.xor_div_two_pow, Nat.div_self hpos]
  rw [← Nat.div_add_mod (x ^^^ 2 ^ k) (2 ^ k), hmod, hdiv]
  obtain h | h := Nat.le_one_iff_eq_zero_or_eq_one.1 (Nat.lt_succ_iff.1 hlt)
  · rw [h, if_neg (by norm_num), Nat.zero_xor, mul_one, add_comm]
  · rw [h, if_pos rfl, Nat.xor_self, mul_zero, zero_add]

/-- A finite number as the operations see it, with its zeros. -/
theorem finite_fin_zero (hp : p.Regular) (ha : p.finite a) : ∃ n e, fpDecode p a = .fin (p.negative a) n 1 e ∧ (n = 0 ↔ p.value a = 0) := by
  obtain ⟨n, e, hdec, hval⟩ := finite_fin hp ha
  refine ⟨n, e, hdec, ?_⟩
  rw [hval, signed_eq_zero, Nat.cast_one, div_one, mul_eq_zero, or_iff_left (by positivity), Nat.cast_eq_zero]

/-- A zero is its sign bit. -/
theorem eq_of_value_zero (ha : p.finite a) (h0 : p.value a = 0) : a = bitAt (p.negative a) (p.width - 1) := by
  have hsig : p.significand (p.exponentOf a) (p.mantissaOf a) = 0 := by
    rw [FpFormat.value_eq, signed_eq_zero, FpFormat.size, mul_eq_zero, or_iff_left (by positivity)] at h0
    exact_mod_cast h0
  have hfields : p.exponentOf a = 0 ∧ p.mantissaOf a = 0 := by
    rw [FpFormat.significand] at hsig
    split at hsig
    · next he => exact ⟨he, hsig⟩
    · exact absurd hsig (Nat.ne_of_gt (Nat.add_pos_left (Nat.two_pow_pos _) _))
  obtain ⟨he, hm⟩ := hfields
  have hbits := FpFormat.eq_bits ha.1
  rw [show a / 2 ^ p.manBits % 2 ^ p.expBits = 0 from he, show a % 2 ^ p.manBits = 0 from hm, FpFormat.bits, Nat.zero_mul, Nat.add_zero,
    ← p.width_pred] at hbits
  exact hbits

variable (hp : p.Regular)
include hp

theorem fpDiv_zero {code : Nat} (hn : p.nan = some code) (ha : p.finite a) (hb : p.finite b) (hb0 : p.value b = 0) (ha0 : p.value a = 0) :
    fpDiv p a b = (code, flagNV) := by
  obtain ⟨n, e, hda, hna⟩ := finite_fin_zero hp ha
  obtain ⟨m, k, hdb, hnb⟩ := finite_fin_zero hp hb
  rw [fpDiv, hda, hdb, valDiv, if_pos (hnb.2 hb0), if_pos (hna.2 ha0), finish_nan hn]

theorem fpDiv_by_zero (hi : p.ieee = true) (ha : p.finite a) (hb : p.finite b) (hb0 : p.value b = 0) (ha0 : p.value a ≠ 0) :
    fpDiv p a b = (p.infinity (p.negative a != p.negative b), flagDZ) := by
  obtain ⟨n, e, hda, hna⟩ := finite_fin_zero hp ha
  obtain ⟨m, k, hdb, hnb⟩ := finite_fin_zero hp hb
  rw [fpDiv, hda, hdb, valDiv, if_pos (hnb.2 hb0), if_neg (mt hna.1 ha0), finish_infinity hi]

theorem fpSqrt_zero (ha : p.finite a) (h0 : p.value a = 0) : fpSqrt p a = (a, 0) := by
  obtain ⟨n, e, hda, hna⟩ := finite_fin_zero hp ha
  rw [fpSqrt, hda, valSqrt, if_pos (hna.2 h0), finish_zero, ← eq_of_value_zero ha h0]

theorem fpSqrt_negative {code : Nat} (hn : p.nan = some code) (ha : p.finite a) (h0 : p.value a < 0) : fpSqrt p a = (code, flagNV) := by
  obtain ⟨n, e, hda, hna⟩ := finite_fin_zero hp ha
  have hneg : p.negative a = true := by
    by_contra hpos
    rw [FpFormat.value_eq, show a.testBit (p.width - 1) = false from eq_false_of_ne_true hpos, signed_pos] at h0
    exact absurd h0 (not_lt.2 (p.size_nonneg a))
  rw [fpSqrt, hda, valSqrt, if_neg (mt hna.1 h0.ne), if_pos hneg, finish_nan hn]

theorem fpAbs_finite (ha : p.finite a) : fpAbs p a = (a % 2 ^ (p.width - 1), 0) := by
  obtain ⟨n, e, hda, -⟩ := finite_fin_zero hp ha
  rw [fpAbs, hda]
  rfl

theorem fpNeg_finite (ha : p.finite a) : fpNeg p a = (a ^^^ 2 ^ (p.width - 1), 0) := by
  obtain ⟨n, e, hda, -⟩ := finite_fin_zero hp ha
  have hwidth : p.width - 1 + 1 = p.width := by
    rw [FpFormat.width]
    omega
  rw [fpNeg, hda, ← flip_top (by rw [hwidth]; exact ha.1)]
  rfl

/-- An infinity and a finite number. -/
theorem infinity_finite {code : Nat} (hn : p.nan = some code) (hi : p.ieee = true) (m : Bool) (hb : p.finite b) :
    fpAdd p (p.infinity m) b = (p.infinity m, 0) ∧ fpSub p b (p.infinity m) = (p.infinity !m, 0) ∧
      fpMul p (p.infinity m) b = (if p.value b = 0 then (code, flagNV) else (p.infinity (m != p.negative b), 0)) ∧
      fpDiv p (p.infinity m) b = (p.infinity (m != p.negative b), 0) ∧
      fpDiv p b (p.infinity m) = (bitAt (p.negative b != m) (p.width - 1), 0) := by
  obtain ⟨n, e, hdb, hnb⟩ := finite_fin_zero hp hb
  have hdi := fpDecode_infinity hi m
  refine ⟨?_, ?_, ?_, ?_, ?_⟩
  · rw [fpAdd, hdi, hdb, valAdd, finish_infinity hi]
  · rw [fpSub, hdi, hdb, valSub, valNeg, valAdd, finish_infinity hi]
  · rw [fpMul, hdi, hdb, valMul]
    by_cases h0 : n = 0
    · rw [if_pos h0, if_pos (hnb.1 h0), finish_nan hn]
    · rw [if_neg h0, if_neg (mt hnb.2 h0), finish_infinity hi]
  · rw [fpDiv, hdi, hdb, valDiv, finish_infinity hi]
  · rw [fpDiv, hdi, hdb, valDiv, finish_zero]

omit hp in
/-- Two infinities. -/
theorem infinity_infinity {code : Nat} (hn : p.nan = some code) (hi : p.ieee = true) (m n : Bool) :
    fpAdd p (p.infinity m) (p.infinity n) = (if m = n then (p.infinity m, 0) else (code, flagNV)) ∧
      fpMul p (p.infinity m) (p.infinity n) = (p.infinity (m != n), 0) ∧ fpDiv p (p.infinity m) (p.infinity n) = (code, flagNV) := by
  have hdm := fpDecode_infinity hi m
  have hdn := fpDecode_infinity hi n
  refine ⟨?_, ?_, ?_⟩
  · rw [fpAdd, hdm, hdn, valAdd]
    split
    · rw [finish_infinity hi]
    · rw [finish_nan hn]
  · rw [fpMul, hdm, hdn, valMul, finish_infinity hi]
  · rw [fpDiv, hdm, hdn, valDiv, finish_nan hn]

end

/-! ### Conversions (R155, R197) -/

theorem fp32_regular : fp32.Regular := FpFormat.regular_fpOf (c := 2) le_rfl (by norm_num)

theorem roundInt_rounds (neg : Bool) (num : Nat) {den : Nat} (hd : den ≠ 0) (exp : Int) :
    roundsToInt (signed neg (num / den * 2 ^ exp)) (roundInt neg num den exp).1 := by
  have h := divRound_rounds (num := num) hd exp
  cases neg
  · exact h
  · exact roundsToInt_neg h

theorem roundInt_inexact (neg : Bool) (num : Nat) {den : Nat} (hd : den ≠ 0) (exp : Int) :
    (roundInt neg num den exp).2 = decide (signed neg (num / den * 2 ^ exp) ≠ (roundInt neg num den exp).1) := by
  have h := divRound_inexact (num := num) hd exp
  have hcast : ((roundInt neg num den exp).1 : ℚ) = signed neg (divRound num den exp).1 := by
    cases neg
    · exact Int.cast_natCast _
    · exact (Int.cast_neg _).trans (congrArg _ (Int.cast_natCast _))
  rw [hcast, decide_eq_decide.2 (not_congr ((signed_eq_iff neg _ _).trans eq_comm))]
  exact h

theorem fpToI64_finite {a : Nat} (ha : fp32.finite a) {i : ℤ} (hi : roundsToInt (fp32.value a) i) :
    fpToI64 a = if i < -2 ^ 63 then (BitVec.ofInt 64 (-2 ^ 63), flagNV) else if 2 ^ 63 - 1 < i then (BitVec.ofInt 64 (2 ^ 63 - 1), flagNV)
      else (BitVec.ofInt 64 i, flagIf (decide (fp32.value a ≠ i)) flagNX) := by
  obtain ⟨n, e, hdec, hval⟩ := finite_fin fp32_regular ha
  have hint : i = (roundInt (fp32.negative a) n 1 e).1 := roundsToInt_unique hi (hval ▸ roundInt_rounds _ n one_ne_zero e)
  have hinexact : (roundInt (fp32.negative a) n 1 e).2 = decide (fp32.value a ≠ i) := by
    rw [hint, hval]
    exact roundInt_inexact _ n one_ne_zero e
  rw [fpToI64, hdec, toIntRange]
  dsimp only
  rw [← hint, hinexact]
  split
  · rfl
  · split <;> rfl

theorem fpToI64_nan {a : Nat} (h : (fpDecode fp32 a).isNan = true) : fpToI64 a = (0, flagNV) := by
  rw [fpToI64]
  cases hv : fpDecode fp32 a with
  | nan s => rfl
  | inf | fin => exact nomatch hv ▸ h

theorem fpToI64_infinity (m : Bool) : fpToI64 (fp32.infinity m) = (BitVec.ofInt 64 (if m then -2 ^ 63 else 2 ^ 63 - 1), flagNV) := by
  rw [fpToI64, fpDecode_infinity rfl]
  rfl

theorem i64ToFp_rounds (a : W64) : fp32.Rounds a.toInt false (i64ToFp a) := by
  have hexact : (Val.ofInt a.toInt).Exact a.toInt false := by
    refine ⟨_, _, _, _, rfl, one_ne_zero, ?_, fun h => decide_eq_false (by omega)⟩
    rw [Nat.cast_one, div_one, zpow_zero, mul_one, signed_natAbs]
  rw [i64ToFp, sext_toNat]
  exact hexact.rounds fp32_regular

theorem convert_fp {dst src : Nat} (hd : 2 ≤ dst) (hs : 2 ≤ src) (hne : dst ≠ src) (a : Nat) :
    convert dst src a = ((roundTo (fpOf dst) (fpDecode (fpOf src) a)).1,
      (roundTo (fpOf dst) (fpDecode (fpOf src) a)).2 ||| flagIf (fpDecode (fpOf src) a).isSig flagNV) := by
  obtain ⟨d, rfl⟩ := Nat.exists_eq_add_of_le' hd
  obtain ⟨k, rfl⟩ := Nat.exists_eq_add_of_le' hs
  exact if_neg hne

theorem eq_inf_of_isInf {p : FpFormat} {a : Nat} (h : (fpDecode p a).isInf = true) : fpDecode p a = .inf (p.negative a) := by
  rw [FpFormat.negative, p.width_pred, Nat.testBit_eq_decide_div_mod_eq]
  unfold fpDecode at h ⊢
  dsimp only at h ⊢
  split_ifs at h ⊢ with h1 h2
  · rfl
  all_goals exact nomatch h

section
variable {dst src a : Nat} (hd : 2 ≤ dst) (hs : 2 ≤ src) (hne : dst ≠ src)
include hd hs hne

theorem convert_finite (hp : (fpOf dst).Regular) (hq : (fpOf src).Regular) (ha : (fpOf src).finite a) :
    (fpOf dst).Rounds ((fpOf src).value a) ((fpOf src).negative a) (convert dst src a) := by
  obtain ⟨n, e, hdec, hval⟩ := finite_fin hq ha
  have hconv : convert dst src a = roundTo (fpOf dst) (fpDecode (fpOf src) a) := by
    rw [convert_fp hd hs hne, hdec]
    exact Prod.ext rfl (BitVec.or_zero ..)
  rw [hconv, hdec, hval]
  exact Val.Exact.rounds hp ⟨_, _, _, _, rfl, one_ne_zero, rfl, fun _ => rfl⟩

theorem convert_inf (hp : (fpOf dst).Regular) (hinf : (fpDecode (fpOf src) a).isInf = true) : convert dst src a =
    if (fpOf dst).ieee then ((fpOf dst).infinity ((fpOf src).negative a), 0) else ((fpOf dst).past ((fpOf src).negative a), flagOF ||| flagNX) := by
  have hdec : fpDecode (fpOf src) a = .inf ((fpOf src).negative a) := eq_inf_of_isInf hinf
  rw [convert_fp hd hs hne, hdec]
  by_cases hi : (fpOf dst).ieee = true
  · rw [if_pos hi, roundTo_infinity hi]
    exact Prod.ext rfl (BitVec.or_zero ..)
  · have hsat := hp.saturate (eq_false_of_ne_true hi)
    rw [if_neg hi, FpFormat.past, if_pos hsat, roundTo, fpInf, ← FpFormat.width_pred, if_neg hi]
    exact Prod.ext rfl (BitVec.or_zero ..)

theorem convert_nan (h7 : dst ≤ 7) (hnan : (fpDecode (fpOf src) a).isNan = true) :
    convert dst src a = ((fpOf dst).nan.getD 0, flagIf ((fpDecode (fpOf src) a).isSig || dst = 7) flagNV) := by
  cases hv : fpDecode (fpOf src) a with
  | inf | fin => exact nomatch hv ▸ hnan
  | nan s =>
    have hround : roundTo (fpOf dst) (.nan s) = ((fpOf dst).nan.getD 0, flagIf (decide (dst = 7)) flagNV) := by
      interval_cases dst <;> rfl
    rw [convert_fp hd hs hne, hv, hround, flagIf_or, Bool.or_comm]

end

end Sys2Proof.Machine
end


section
/-!
SUPPORT. The scalar floating-point instructions write what the operations on the low 32 bits give (spec/08 R195-R197).
-/

namespace Sys2Proof.Machine

open Sys2Proof

theorem low32_eq (x : W64) : low32 x = (x.extractLsb' 0 32).toNat := by
  rw [low32, BitVec.extractLsb'_toNat, Nat.shiftRight_zero]

/-- The state after an instruction ORs flags and moves on. -/
def State.raised (s : State) (fl : Flags) : State := (s.updCur fun c => { c with flags := c.flags ||| fl }).next

section
variable {s : State} {f : RegFmt}

theorem fpBinary_writes {g : Nat → Nat → Nat × Flags} (hu : s.usable (f.d :: f.a :: regB f.b f.lit) = true) :
    let r := g ((s.reg f.a).extractLsb' 0 32).toNat ((s.opB f.b f.lit).extractLsb' 0 32).toNat
    s.fpBinary f g = .next ((s.writeReg f.d (BitVec.ofNat 64 r.1)).raised r.2) := by
  rw [State.fpBinary_ok hu, low32_eq, low32_eq]
  rfl

theorem fpUnary_writes {g : Nat → Nat × Flags} (hu : s.usable [f.d, f.a] = true) :
    let r := g ((s.reg f.a).extractLsb' 0 32).toNat
    s.fpUnary f g = .next ((s.writeReg f.d (BitVec.ofNat 64 r.1)).raised r.2) := by
  rw [State.fpUnary_ok hu, low32_eq]
  rfl

theorem execFma_writes (hu : s.usable (f.d :: f.a :: regB f.b f.lit) = true) :
    let r := fpFma fp32 ((s.reg f.a).extractLsb' 0 32).toNat ((s.opB f.b f.lit).extractLsb' 0 32).toNat ((s.reg f.d).extractLsb' 0 32).toNat
    execFma f s = .next ((s.writeReg f.d (BitVec.ofNat 64 r.1)).raised r.2) := by
  have hu' : s.usable ([f.d] ++ (f.a :: f.d :: regB f.b f.lit)) = true := State.has_sub hu fun q hq => by
    simp only [nums, List.cons_append, List.nil_append, List.map_cons, List.mem_cons] at hq ⊢
    tauto
  rw [execFma, State.registerOp_ok hu', low32_eq, low32_eq, low32_eq]
  rfl

theorem execFtoi_writes (hu : s.usable [f.d, f.a] = true) :
    let r := fpToI64 ((s.reg f.a).extractLsb' 0 32).toNat
    execFtoi f s = .next ((s.writeReg f.d r.1).raised r.2) := by
  rw [execFtoi_ok hu, low32_eq]
  rfl

theorem execItof_writes (hu : s.usable [f.d, f.a] = true) :
    execItof f s = .next ((s.writeReg f.d (BitVec.ofNat 64 (i64ToFp (s.reg f.a)).1)).raised (i64ToFp (s.reg f.a)).2) :=
  State.registerOp_ok (dsts := [f.d]) (srcs := [f.a]) hu

end

theorem fpCompare_writes {s : State} {f : CmpFmt} {g : Nat → Nat → Bool × Flags} (hu : s.usable (f.a :: regB f.b f.lit) = true) :
    let r := g ((s.reg f.a).extractLsb' 0 32).toNat ((s.opB f.b f.lit).extractLsb' 0 32).toNat
    s.fpCompare f g = .next ((s.updCur fun c => c.setPred f.q r.1).raised r.2) := by
  rw [State.fpCompare, State.registerOp_ok (dsts := []) (srcs := f.a :: regB f.b f.lit) hu]
  dsimp only
  rw [low32_eq, low32_eq]
  rfl

theorem execFcvt_writes {s : State} {f : ImmFmt} (hu : s.usable [f.d, f.a] = true) :
    let r := convert (f.imm.toNat % 16) (f.imm.toNat / 16) ((s.reg f.a).toNat % 2 ^ fmtBits (f.imm.toNat / 16))
    execFcvt f s = .next ((s.writeReg f.d (BitVec.ofNat 64 r.1)).raised r.2) :=
  State.registerOp_ok (dsts := [f.d]) (srcs := [f.a]) hu

/-! ### The formats with NaNs -/

/-- The formats with NaNs and their default NaN. -/
theorem nanFormat_regular {x : FpFormat × Nat} (hx : x ∈ [(fp32, 0x7FC00000), (bf16, 0x7FC0), (fp16, 0x7E00), (e4m3, 0x7F), (e5m2, 0x7E)]) :
    x.1.Regular ∧ x.1.Radical ∧ x.1.nan = some x.2 := by
  simp only [List.mem_cons, List.not_mem_nil, or_false] at hx
  obtain rfl | rfl | rfl | rfl | rfl := hx
  · exact ⟨FpFormat.regular_fpOf (c := 2) (by norm_num) (by norm_num), ⟨by decide, by decide⟩, rfl⟩
  · exact ⟨FpFormat.regular_fpOf (c := 3) (by norm_num) (by norm_num), ⟨by decide, by decide⟩, rfl⟩
  · exact ⟨FpFormat.regular_fpOf (c := 4) (by norm_num) (by norm_num), ⟨by decide, by decide⟩, rfl⟩
  · exact ⟨FpFormat.regular_fpOf (c := 5) (by norm_num) (by norm_num), ⟨by decide, by decide⟩, rfl⟩
  · exact ⟨FpFormat.regular_fpOf (c := 6) (by norm_num) (by norm_num), ⟨by decide, by decide⟩, rfl⟩

/-- Settles O3: finite results by the one rounding to the nearest, the root by its 64 further bits, and NaNs and infinities by cases. -/
theorem floatInstructions : Obligations.FloatInstructions := by
  unfold Obligations.FloatInstructions
  refine ⟨fun s => ⟨fun f hu => ?_, fun f hu => ?_, fun f hu => ?_, fun f hu => execFcvt_writes hu⟩, fun x hx a b c => ?_,
    fun a ha i hi => fpToI64_finite ha hi, fun a h => ?_, fun m => ?_, i64ToFp_rounds, fun dst src a h2 h7 h2' h7' => ?_⟩
  · exact ⟨fpBinary_writes (g := fpAdd fp32) hu, fpBinary_writes (g := fpSub fp32) hu, fpBinary_writes (g := fpMul fp32) hu,
      fpBinary_writes (g := fpDiv fp32) hu, execFma_writes hu, fpBinary_writes (g := fpMinMax fp32 false) hu,
      fpBinary_writes (g := fpMinMax fp32 true) hu⟩
  · exact ⟨fpUnary_writes (g := fpSqrt fp32) hu, fpUnary_writes (g := fpAbs fp32) hu, fpUnary_writes (g := fpNeg fp32) hu, execFtoi_writes hu,
      execItof_writes hu⟩
  · exact ⟨fpCompare_writes (g := fpCmpEq fp32) hu, fpCompare_writes (g := fpCmpLt fp32) hu, fpCompare_writes (g := fpCmpLe fp32) hu⟩
  · obtain ⟨hp, hr, hn⟩ := nanFormat_regular hx
    refine ⟨fpBinary_nan hn, fpFma_nan hn, fpUnary_nan hn, fun ha hb => ?_, FpFormat.fpSqrt_pos hp hr, fpSqrt_zero hp, fpSqrt_negative hp hn,
      fun ha => ⟨fpAbs_finite hp ha, fpNeg_finite hp ha⟩, fun hi m n => ⟨infinity_finite hp hn hi m, infinity_infinity hn hi m n⟩⟩
    exact ⟨fpAdd_rounds hp ha hb, fpSub_rounds hp ha hb, fpMul_rounds hp ha hb, fpDiv_rounds hp ha hb, fpDiv_zero hp hn ha hb,
      fun hb0 ha0 hi => fpDiv_by_zero hp hi ha hb hb0 ha0, fpFma_rounds hp ha hb, fpMinMax_spec hp ha hb, fpCmpEq_finite hp ha hb,
      fpCmpLt_finite hp ha hb, fpCmpLe_finite hp ha hb⟩
  · exact fpToI64_nan h
  · exact fpToI64_infinity m
  · have hp := FpFormat.regular_fpOf h2 h7
    have hq := FpFormat.regular_fpOf h2' h7'
    exact ⟨if_pos rfl, fun hne ha => convert_finite h2 h2' hne hp hq ha, fun hne hinf _ => convert_inf h2 h2' hne hp hinf,
      fun hne hnan => convert_nan h2 h2' hne h7 hnan⟩

end Sys2Proof.Machine
end

section
/-!
SUPPORT. Global accesses (spec/09 R220-R224, R227, R228) and local accesses (spec/09 R225, R226; spec/03 R77, R78): the pointer and the bytes of a word in
the terms of the statements.
-/

namespace Sys2Proof

/-- The bytes of a number, one by one. -/
theorem bytesOfNat_eq_map (x n : Nat) : bytesOfNat x n = (List.range n).map fun i => BitVec.ofNat 8 (x / 256 ^ i) := by
  induction n generalizing x with
  | zero => rfl
  | succ n ih =>
    rw [bytesOfNat, ih, List.range_succ_eq_map, List.map_cons, List.map_map, pow_zero, Nat.div_one]
    refine congrArg _ (List.map_congr_left fun i _ => ?_)
    rw [Function.comp_apply, Nat.succ_eq_add_one, pow_succ', Nat.div_div_eq_div_mul]

/-- The bytes of a word are its eight-bit fields. -/
theorem bytesOfNat_toNat (x : W64) (n : Nat) : bytesOfNat x.toNat n = (List.range n).map fun i => x.extractLsb' (8 * i) 8 := by
  rw [bytesOfNat_eq_map]
  refine List.map_congr_left fun i _ => BitVec.eq_of_toNat_eq ?_
  rw [BitVec.toNat_ofNat, BitVec.extractLsb'_toNat, Nat.shiftRight_eq_div_pow, pow_mul]
  rfl

/-- The sign-extension of a number's low bits. -/
theorem wordOfInt_sext_ofNat (v n : Nat) : wordOfInt (sext v n) = (BitVec.ofNat n v).signExtend 64 := by
  rw [← wordOfInt_sext, BitVec.toNat_ofNat, sext, sext, Nat.mod_mod]

end Sys2Proof

namespace Sys2Proof.Machine

open Sys2Proof

/-! ### Pointers (Table 3.2; spec/03 R78) -/

theorem ptrOffset_eq (p : W64) : ptrOffset p = (p.extractLsb' 0 18).toNat := slice_eq p 17 0
theorem ptrBuf_eq (p : W64) : ptrBuf p = (p.extractLsb' 61 3).toNat := slice_eq p 63 61

theorem wordOfInt_emod (i : Int) (n : Nat) : wordOfInt (i % (2 ^ n : Nat)) = (BitVec.ofInt n i).zeroExtend 64 := by
  have hpow : ((2 ^ n : Nat) : Int) ≠ 0 := by positivity
  rw [← wordOfNat_toNat, BitVec.toNat_ofInt, wordOfNat, ← BitVec.ofInt_natCast, Int.toNat_of_nonneg (Int.emod_nonneg i hpow), wordOfInt]

/-- The pointer after one `+`: its OFFSET is stepped by the sign-extended STRIDE modulo 2^18, its other fields stand. -/
theorem ptrNext_eq (p : W64) : ptrNext p =
    (p &&& 0xFFFFFFFFFFFC0000#64) ||| ((p.extractLsb' 0 18 + (p.extractLsb' 32 16).signExtend 18).zeroExtend 64) := by
  have hstep : BitVec.ofInt 18 ((ptrOffset p : Int) + sext (slice p 47 32) 16) =
      p.extractLsb' 0 18 + (p.extractLsb' 32 16).signExtend 18 := by
    rw [BitVec.ofInt_add, ptrOffset_eq, slice_eq, sext_toNat, BitVec.ofInt_natCast, BitVec.ofNat_toNat, BitVec.setWidth_eq]
    rfl
  rw [← hstep, ← wordOfInt_emod]
  rfl

/-- The state after the pointer of a local access is stepped. -/
def State.stepped (s : State) (f : LmFmt) (t : State) : State :=
  t.updCur fun c => if f.inc then c.setPtr f.ptr.toNat (ptrNext (s.cur.ptr f.ptr)) else c

/-- After an effect that leaves the context alone, `+` steps the pointer that the access was made at. -/
theorem State.updCur_advancePtr {s t : State} {f : LmFmt} (h : t.cur = s.cur) : (t.updCur fun c => c.advancePtr f.ptr f.inc) = s.stepped f t :=
  congrArg (t.setCtx t.gid) (by rw [← h]; rfl)

/-- A local store leaves the contexts as they are. -/
theorem State.cur_localWrite (s : State) (buf off : Nat) (bs : List Byte) : (s.localWrite buf off bs).cur = s.cur := by
  unfold State.localWrite
  split <;> rfl

/-! ### Local accesses whose checks pass (R225) -/

/-- The access is aligned and lies in its buffer, whose lines are full. -/
structure State.LocalFits (s : State) (f : LmFmt) : Prop where
  aligned : ptrOffset (s.cur.ptr f.ptr) % sizeOf2 f.sz = 0
  inBuffer : (ptrBuf (s.cur.ptr f.ptr) = 0 ∧ ptrOffset (s.cur.ptr f.ptr) + sizeOf2 f.sz ≤ 24576) ∨
    (ptrBuf (s.cur.ptr f.ptr) = 1 ∧ ptrOffset (s.cur.ptr f.ptr) + sizeOf2 f.sz ≤ 512)
  full : ptrBuf (s.cur.ptr f.ptr) = 0 → s.linesFull (linesOf (ptrOffset (s.cur.ptr f.ptr)) (sizeOf2 f.sz)) = true

theorem chkBuffer_ok {buf off w : Nat} (h : (buf = 0 ∧ off + w ≤ Config.abBytes) ∨ (buf = 1 ∧ off + w ≤ Config.psWindow)) : chkBuffer buf off w = .ok :=
  Check.need_eq_ok.2 (by simpa using h)

theorem State.linesFull_bufLines {s : State} {buf off w : Nat} (h : buf = 0 → s.linesFull (linesOf off w) = true) : s.linesFull (bufLines buf off w) = true := by
  unfold bufLines
  split
  · next hb => exact h hb
  · rfl

section
variable {s : State} {f : LmFmt}

theorem State.localChecks_ok {srcs dsts : List Nat} (hu : s.usable [f.d] = true) (hf : s.LocalFits f) (hs : ∀ q ∈ srcs, q ∈ nums [f.d])
    (hd : ∀ q ∈ dsts, q ∈ nums [f.d]) : ∀ c ∈ s.localChecks f srcs dsts, c = .ok := by
  intro c hc
  simp only [State.localChecks, List.mem_cons, List.not_mem_nil, or_false] at hc
  rcases hc with rfl | rfl | rfl | rfl | rfl | rfl
  · exact State.chkAllot_ok hu fun _ m => m
  · exact State.chkFull_ok hu hs
  · exact Check.need_eq_ok.2 (decide_eq_true hf.aligned)
  · exact chkBuffer_ok hf.inBuffer
  · exact State.chkDest_ok hu hd
  · exact State.chkLines_ok (State.linesFull_bufLines hf.full)

theorem State.localLoad_ok (hu : s.usable [f.d] = true) (hf : s.LocalFits f) (signed : Bool) :
    s.localLoad f signed =
      let v := natOfBytes (s.localRead (ptrBuf (s.cur.ptr f.ptr)) (ptrOffset (s.cur.ptr f.ptr)) (sizeOf2 f.sz))
      .next (s.stepped f (s.writeReg f.d (if signed then wordOfInt (sext v (8 * sizeOf2 f.sz)) else wordOfNat v))).next :=
  (State.perform_ok (State.localChecks_ok hu hf (by nofun) fun _ m => m)).trans
    (congrArg (fun t => Host.Outcome.next t.next) (State.updCur_advancePtr (State.cur_writeReg ..)))

theorem execStLocal_ok (hu : s.usable [f.d] = true) (hf : s.LocalFits f) :
    execStLocal f s = .next (s.stepped f (s.localWrite (ptrBuf (s.cur.ptr f.ptr)) (ptrOffset (s.cur.ptr f.ptr))
      (bytesOfNat (s.reg f.d).toNat (sizeOf2 f.sz)))).next :=
  (State.perform_ok (State.localChecks_ok hu hf (fun _ m => m) (by nofun))).trans
    (congrArg (fun t => Host.Outcome.next t.next) (State.updCur_advancePtr (State.cur_localWrite ..)))

end

/-- Settles O5: the form of a global load or store where its checks pass. -/
theorem globalAccesses : Obligations.GlobalAccesses := by
  unfold Obligations.GlobalAccesses
  intro f s hu
  exact ⟨fun ha => ⟨State.gmLoad_ok hu ha, State.gmLoad_ok hu ha, State.gmStore_ok hu ha⟩,
    fun ha => ⟨State.gmLoad_ok hu ha, State.gmStore_ok hu ha, State.gmLoad_ok hu ha⟩⟩

/-- Settles O9: a local access whose checks pass does what R225 says at its pointer (`localLoad_ok`, `execStLocal_ok`, `ptrNext_eq`); a run of bytes that
was written reads back, and every other byte reads as before. -/
theorem localAccesses : Obligations.LocalAccesses := by
  unfold Obligations.LocalAccesses
  refine ⟨fun f s => ?_, fun s k off bs hc => ?_⟩
  · simp only [← ptrOffset_eq, ← ptrBuf_eq, ← ptrNext_eq, ← bytesOfNat_toNat, ← wordOfInt_sext_ofNat]
    intro hu ha hb hl
    have hf : s.LocalFits f := ⟨ha, hb, hl⟩
    exact ⟨State.localLoad_ok hu hf false, State.localLoad_ok hu hf true, execStLocal_ok hu hf⟩
  · have hs : s.Canon := State.canonical_iff.mp hc
    exact ⟨fun c o => spGet_spSetList hs.ab _, fun n => spGet_spSetList hs.ps _, rfl, rfl, spGetList_spSetList hs.ab⟩

end Sys2Proof.Machine
end

section
/-!
SUPPORT. Ordinary accesses at home slices (spec/09 R224, R228-R230; spec/03 R90; spec/21 R409, R410): the bytes of a word in the terms of the statements,
then one equation for each step and each type of the word.
-/

namespace Sys2Proof.Machine

open Sys2Proof

/-! ### Bytes of a word -/

theorem extractWord_eq (v : W64) (o n : Nat) (signed : Bool) : extractWord v o n signed =
    let x : BitVec (8 * n) := BitVec.ofNat (8 * n) (v.toNat / 2 ^ (8 * o))
    if signed then x.signExtend 64 else x.zeroExtend 64 := by
  dsimp only [extractWord]
  rw [wordOfInt_sext_ofNat, ← wordOfNat_toNat, BitVec.toNat_ofNat]
  congr 2
  exact BitVec.eq_of_toNat_eq (by rw [BitVec.toNat_ofNat, BitVec.toNat_ofNat, Nat.mod_mod])

/-- `m` is `old` with `n` bytes at offset `o` replaced by the low bytes of `data` (spec/03 R90). -/
def Merges (m old data : W64) (o n : Nat) : Prop :=
  ∀ i, i < 8 → m.extractLsb' (8 * i) 8 = if o ≤ i ∧ i < o + n then data.extractLsb' (8 * (i - o)) 8 else old.extractLsb' (8 * i) 8

/-- The eight bytes of a word make the word. -/
theorem wordOfNat_bytes (m : W64) : wordOfNat (natOfBytes (bytesOfNat m.toNat 8)) = m := by
  rw [natOfBytes_bytesOfNat, show 256 ^ 8 = 2 ^ 64 by norm_num, Nat.mod_eq_of_lt m.isLt, wordOfNat_toNat, BitVec.zeroExtend, BitVec.setWidth_eq]

theorem eq_of_bytes {m d : W64} (h : ∀ i, i < 8 → m.extractLsb' (8 * i) 8 = d.extractLsb' (8 * i) 8) : m = d := by
  have hbytes : bytesOfNat m.toNat 8 = bytesOfNat d.toNat 8 := by
    rw [bytesOfNat_toNat, bytesOfNat_toNat]
    exact List.map_congr_left fun i hi => h i (List.mem_range.1 hi)
  rw [← wordOfNat_bytes m, hbytes, wordOfNat_bytes]

theorem mergeWord_eq {m old data : W64} {o n : Nat} (h : Merges m old data o n) (ho : o + n ≤ 8) : mergeWord old o n data = m := by
  have hbytes : (bytesOfNat old.toNat 8).take o ++ bytesOfNat data.toNat n ++ (bytesOfNat old.toNat 8).drop (o + n) = bytesOfNat m.toNat 8 := by
    simp only [bytesOfNat_toNat]
    refine List.ext_getElem (by simp; omega) fun i h1 h2 => ?_
    have hi : i < 8 := by simpa using h2
    simp only [List.getElem_map, List.getElem_range, h i hi]
    grind
  rw [mergeWord, hbytes, wordOfNat_bytes]

/-- A merge of all eight bytes is the data. -/
theorem Merges.whole {m old data : W64} (h : Merges m old data 0 8) : m = data :=
  eq_of_bytes fun i hi => (h i hi).trans (if_pos ⟨Nat.zero_le i, by omega⟩)

/-! ### The results of an AMO (Table 9.3) -/

/-- At a tie the two operands are one, so a maximum may be read with either comparison. -/
theorem ite_le_eq_ite_lt {κ : Type} [LinearOrder κ] {key : W64 → κ} (hkey : Function.Injective key) (v n : W64) :
    (if key v ≤ key n then n else v) = if key v < key n then n else v := by
  obtain h | h | h := lt_trichotomy (key v) (key n)
  · rw [if_pos h.le, if_pos h]
  · rw [hkey h, ite_self, ite_self]
  · rw [if_neg h.not_ge, if_neg h.not_gt]

theorem amoResult_eq (op : AmoOp) (v n : W64) : amoResult op v n = match op with
    | .add => v + n
    | .and => v &&& n
    | .or => v ||| n
    | .xor => v ^^^ n
    | .min => if n.slt v then n else v
    | .max => if v.slt n then n else v
    | .minu => if n.ult v then n else v
    | .maxu => if v.ult n then n else v
    | .swap => n := by
  cases op with
  | min => simp only [amoResult, BitVec.slt, decide_eq_true_eq, ← not_le, ite_not]
  | max => simpa [amoResult, BitVec.slt] using ite_le_eq_ite_lt (fun _ _ => BitVec.toInt_inj.1) v n
  | minu => simp only [amoResult, BitVec.ult, decide_eq_true_eq, ← not_le, ite_not]
  | maxu => simpa [amoResult, BitVec.ult] using ite_le_eq_ite_lt (fun _ _ => BitVec.toNat_inj.1) v n
  | _ => rfl

/-! ### Accesses to a word with a home -/

section
variable {r : Request} {s : State}

theorem execHomeSliceLoad_poisoned {n : Nat} {signed : Bool} (hd : dpValid r.dp = true) (hk : r.kind = .load n signed)
    (ht : (s.open (wordAt r.dp)).memType (wordAt r.dp) = 7) : execHomeSliceLoad r s = .next ((s.open (wordAt r.dp)).refuse r 0x0A r.va) := by
  simp only [execHomeSliceLoad, atHome, hd, hk, if_pos ht, if_true]

theorem execHomeSliceLoad_answers {n : Nat} {signed : Bool} (hd : dpValid r.dp = true) (hk : r.kind = .load n signed)
    (ht : (s.open (wordAt r.dp)).memType (wordAt r.dp) ≠ 7) : execHomeSliceLoad r s =
      .next ((s.open (wordAt r.dp)).answer r (extractWord ((s.open (wordAt r.dp)).memWord (wordAt r.dp)) (r.dp % 8) n signed) true) := by
  simp only [execHomeSliceLoad, atHome, hd, hk, if_neg ht, if_true]

end

section
variable {r : Request} {u : State} {n : Nat} {m : W64}

theorem State.storeWord_plain (hm : Merges m (u.memWord (wordAt r.dp)) r.data (r.dp % 8) n) (ho : r.dp % 8 + n ≤ 8) (ht : u.memType (wordAt r.dp) = 0) :
    u.storeWord r n = (u.commit (wordAt r.dp) m (u.memTag (wordAt r.dp))).answer r 0 true := by
  simp only [State.storeWord, ht, mergeWord_eq hm ho]

theorem State.storeWord_cures (ht : u.memType (wordAt r.dp) = 7) : u.storeWord r 8 = (u.commit (wordAt r.dp) r.data 8#4).answer r 0 true := by
  simp only [State.storeWord, ht]
  rfl

theorem State.storeWord_poisoned (hm : Merges m 0 r.data (r.dp % 8) n) (ho : r.dp % 8 + n ≤ 8) (hn : n ≠ 8) (ht : u.memType (wordAt r.dp) = 7) :
    u.storeWord r n = ((u.commit (wordAt r.dp) m 15#4).sliceRecord r 0x0A 0x30 (r.va &&& 0xFFFFFFFFFFFFFFF8#64)).answer r 0 true := by
  simp only [State.storeWord, ht, if_neg hn, mergeWord_eq hm ho]
  rfl

theorem State.storeWord_typed (h0 : u.memType (wordAt r.dp) ≠ 0) (h7 : u.memType (wordAt r.dp) ≠ 7) :
    u.storeWord r n = u.refuse r 0x0B (r.va &&& 0xFFFFFFFFFFFFFFF8#64) := by
  simp only [State.storeWord] -- `h0` and `h7` exclude the first two arms
  rfl

theorem execHomeSliceStore_eq {s : State} (hd : dpValid r.dp = true) (hk : r.kind = .store n) :
    execHomeSliceStore r s = .next ((s.open (wordAt r.dp)).storeWord r n) := by
  simp only [execHomeSliceStore, atHome, hd, hk, if_true]

/-- A store at a word with a home, by the type of the word. -/
theorem execHomeSliceStore_word {s : State} (hd : dpValid r.dp = true) (hk : r.kind = .store n) (ho : r.dp % 8 + n ≤ 8) :
    let w := wordAt r.dp
    let u := s.open w
    let a := r.va &&& 0xFFFFFFFFFFFFFFF8#64
    Merges m (if u.memType w = 7 then 0 else u.memWord w) r.data (r.dp % 8) n →
      (u.memType w = 0 → execHomeSliceStore r s = .next ((u.commit w m (u.memTag w)).answer r 0 true)) ∧
      (u.memType w = 7 → execHomeSliceStore r s = .next (if n = 8 then (u.commit w m 8#4).answer r 0 true
        else ((u.commit w m 15#4).sliceRecord r 0x0A 0x30 a).answer r 0 true)) ∧
      (u.memType w ≠ 0 → u.memType w ≠ 7 → execHomeSliceStore r s = .next (u.refuse r 0x0B a)) := by
  intro w u a hm
  rw [execHomeSliceStore_eq hd hk]
  refine ⟨fun ht => ?_, fun ht => ?_, fun h0 h7 => congrArg _ (State.storeWord_typed h0 h7)⟩
  · rw [if_neg (by omega)] at hm
    rw [State.storeWord_plain hm ho ht]
  · rw [if_pos ht] at hm
    split
    · next hn =>
      subst hn
      rw [show r.dp % 8 = 0 by omega] at hm
      rw [State.storeWord_cures ht, hm.whole]
    · next hn => rw [State.storeWord_poisoned hm ho hn ht]

end

section
variable {r : Request} {s : State}

theorem execHomeSliceAmo_plain {op : AmoOp} (hd : dpValid r.dp = true) (hk : r.kind = .amo op) (ht : (s.open (wordAt r.dp)).memType (wordAt r.dp) = 0) :
    execHomeSliceAmo r s =
      let u := s.open (wordAt r.dp)
      let v := u.memWord (wordAt r.dp)
      .next ((u.commit (wordAt r.dp) (amoResult op v r.data) (u.memTag (wordAt r.dp))).answer r v true) := by
  simp only [execHomeSliceAmo, atHome, hd, hk, ht, if_true]

theorem execHomeSliceAmo_cas (hd : dpValid r.dp = true) (hk : r.kind = .cas) (ht : (s.open (wordAt r.dp)).memType (wordAt r.dp) = 0) :
    execHomeSliceAmo r s =
      let u := s.open (wordAt r.dp)
      let v := u.memWord (wordAt r.dp)
      .next ((if v = r.cmp then u.commit (wordAt r.dp) r.data (u.memTag (wordAt r.dp)) else u).answer r v true) := by
  simp only [execHomeSliceAmo, atHome, hd, hk, ht, if_true]

theorem execHomeSliceAmo_poisoned (hd : dpValid r.dp = true) (ht : (s.open (wordAt r.dp)).memType (wordAt r.dp) = 7) :
    execHomeSliceAmo r s = .next ((s.open (wordAt r.dp)).refuse r 0x0A r.va) := by
  simp only [execHomeSliceAmo, atHome, hd, ht, if_true]

theorem execHomeSliceAmo_typed (hd : dpValid r.dp = true) (h0 : (s.open (wordAt r.dp)).memType (wordAt r.dp) ≠ 0)
    (h7 : (s.open (wordAt r.dp)).memType (wordAt r.dp) ≠ 7) : execHomeSliceAmo r s = .next ((s.open (wordAt r.dp)).refuse r 0x0B r.va) := by
  simp only [execHomeSliceAmo, atHome, hd, if_true] -- `h0` and `h7` exclude the first two arms

theorem execHomeSliceLdtag_eq (hd : dpValid r.dp = true) (hk : r.kind = .ldtag) : execHomeSliceLdtag r s =
    .next ((s.open (wordAt r.dp)).answer r (((s.open (wordAt r.dp)).memTag (wordAt r.dp)).zeroExtend 64) true) := by
  simp only [execHomeSliceLdtag, atHome, hd, hk, wordOfNat_toNat, if_true]

end

/-! ### Addresses without a home (spec/03 R93) -/

theorem atHome_homeless {dp : Nat} (hd : dpValid dp = false) (t : State) : atHome dp t = .fault .noHomeSlice := if_neg (by rw [hd]; nofun)

theorem State.sluiceStep_homeless {q : Request} (hd : dpValid q.dp = false) (s : State) : s.sluiceStep q = .fault .noHomeSlice := atHome_homeless hd _

/-- Settles O34: each step on a word with a home by the type of the word, and without a home every one of them stops before it acts. -/
theorem sliceAccesses : Obligations.SliceAccesses := by
  unfold Obligations.SliceAccesses
  intro r s w o u v ty
  refine ⟨fun hd => ⟨fun n sg hk _ => ⟨execHomeSliceLoad_poisoned hd hk, fun ht => ?_⟩, fun n hk ho => ?_, fun op hk ht => ?_,
    execHomeSliceAmo_cas hd, execHomeSliceAmo_poisoned hd, execHomeSliceAmo_typed hd, execHomeSliceLdtag_eq hd⟩, fun hd => ?_⟩
  · exact (execHomeSliceLoad_answers hd hk ht).trans (by rw [extractWord_eq])
  · intro byte m hm
    have hmerge : Merges m (if ty = 7 then 0 else v) r.data o n := fun i hi => (hm i hi).trans (by split_ifs <;> simp [byte])
    exact execHomeSliceStore_word hd hk ho hmerge
  · exact (execHomeSliceAmo_plain hd hk ht).trans
      (congrArg (fun x => Host.Outcome.next ((u.commit w x (u.memTag w)).answer r v true)) (amoResult_eq op v r.data))
  · have stops {q : Request} (hq : q.dp = r.dp) : s.sluiceStep q = .fault .noHomeSlice := State.sluiceStep_homeless (hq ▸ hd) s
    simp only [List.forall_mem_cons, List.not_mem_nil, false_imp_iff, implies_true, and_true]
    and_intros
    iterate 6 exact atHome_homeless hd _
    iterate 19 exact stops rfl
    exact atHome_homeless hd _

end Sys2Proof.Machine
end


section
/-!
SUPPORT. Rows and elements of the AB (spec/10 R241, R243): elements of a row, the row of a list of elements, and the formats' widths.
-/

namespace Sys2Proof.Machine

open Sys2Proof

/-! ### Elements of a row -/

/-- Element `i` of a row of elements of width `w`. -/
def lane (w x i : Nat) : Nat := x / 2 ^ (w * i) % 2 ^ w

theorem lane_lt (w x i : Nat) : lane w x i < 2 ^ w := Nat.mod_lt _ (Nat.two_pow_pos w)

theorem rowElems_eq (w n x : Nat) : rowElems w n x = (List.range n).map (lane w x) := rfl

theorem rowElems_getD {w n x i : Nat} (hi : i < n) (d : Nat) : (rowElems w n x).getD i d = lane w x i := by
  simp [rowElems_eq, List.getD_eq_getElem?_getD, hi]

theorem rowOf_lt (w : Nat) (xs : List Nat) : rowOf w xs < 2 ^ (w * xs.length) := by
  induction xs with
  | nil => simp [rowOf]
  | cons x xs ih =>
    have hx : x % 2 ^ w + 1 ≤ 2 ^ w := Nat.mod_lt x (Nat.two_pow_pos w)
    have hxs : 2 ^ w * (rowOf w xs + 1) ≤ 2 ^ w * 2 ^ (w * xs.length) := Nat.mul_le_mul_left _ ih
    rw [rowOf, List.length_cons, mul_add_one, add_comm, pow_add, mul_comm (2 ^ (w * _))]
    linarith [mul_add_one (2 ^ w) (rowOf w xs)]

/-- The elements of the row of a list are those of the list. -/
theorem lane_rowOf (w : Nat) (xs : List Nat) (i : Nat) : lane w (rowOf w xs) i = xs.getD i 0 % 2 ^ w := by
  induction xs generalizing i with
  | nil => simp [rowOf, lane]
  | cons x xs ih =>
    cases i with
    | zero => simp [rowOf, lane]
    | succ i =>
      have hx : (x % 2 ^ w + 2 ^ w * rowOf w xs) / 2 ^ w = rowOf w xs := by
        rw [Nat.add_mul_div_left _ _ (Nat.two_pow_pos w), Nat.div_eq_of_lt (Nat.mod_lt x (Nat.two_pow_pos w)), Nat.zero_add]
      rw [List.getD_cons_succ, ← ih, lane, rowOf, mul_add_one, add_comm (w * i), pow_add, ← Nat.div_div_eq_div_mul, hx, lane]

theorem lane_rowOf_of_lt {w : Nat} {xs : List Nat} {i : Nat} (h : xs.getD i 0 < 2 ^ w) : lane w (rowOf w xs) i = xs.getD i 0 := by
  rw [lane_rowOf, Nat.mod_eq_of_lt h]

theorem range_map_getD {α : Type} (f : Nat → α) {n i : Nat} (hi : i < n) (d : α) : ((List.range n).map f).getD i d = f i := by
  simp [List.getD_eq_getElem?_getD, hi]

/-! ### Rows of the AB -/

theorem natOfBytes_lt (bs : List Byte) : natOfBytes bs < 256 ^ bs.length := by
  induction bs with
  | nil => simp [natOfBytes]
  | cons b bs ih =>
    rw [natOfBytes, List.length_cons, pow_succ']
    have := b.isLt
    omega

theorem State.rows_lt (s : State) (off n : Nat) : s.rows off n < 2 ^ (256 * n) := by
  have h := natOfBytes_lt (s.abBytes s.here off (32 * n))
  rw [State.abBytes, spGetList_length, show 256 = 2 ^ 8 by norm_num, ← pow_mul, show 8 * (32 * n) = 256 * n by ring] at h
  exact h

theorem State.row_lt (s : State) (off : Nat) : s.rows off 1 < 2 ^ 256 := s.rows_lt off 1

/-! ### Widths (Table 10.1) -/

theorem elemWidth_cases (c : Nat) : elemWidth c = 4 ∨ elemWidth c = 8 ∨ elemWidth c = 16 ∨ elemWidth c = 32 := by
  unfold elemWidth fmtBits
  split <;> decide

/-- The elements of a format fill a row. -/
theorem elemWidth_mul (c : Nat) : elemWidth c * (256 / elemWidth c) = 256 := by
  obtain h | h | h | h := elemWidth_cases c <;> rw [h]

/-- The bits of a floating-point code are those of its format. -/
theorem elemWidth_fp {c : Nat} (h : isFp c = true) : elemWidth c = (fpOf c).width := by
  have h27 : 2 ≤ c ∧ c ≤ 7 := by simpa [isFp] using h
  obtain ⟨h2, h7⟩ := h27
  interval_cases c <;> rfl

/-! ### Element numbers in two's complement -/

theorem sext_ofNat (w x : Nat) : sext x w = (BitVec.ofNat w x).toInt := by
  rw [← sext_toNat, BitVec.toNat_ofNat, sext, sext, Nat.mod_mod]

theorem wrapTo_ofInt (w : Nat) (i : Int) : wrapTo w i = (BitVec.ofInt w i).toNat := by
  rw [wrapTo, BitVec.toNat_ofInt]

theorem wrapTo_sext {w x : Nat} (hx : x < 2 ^ w) : wrapTo w (sext x w) = x := by
  rw [wrapTo_ofInt, sext_ofNat, BitVec.ofInt_toInt, BitVec.toNat_ofNat, Nat.mod_eq_of_lt hx]

theorem sext_inj {w x y : Nat} (hx : x < 2 ^ w) (hy : y < 2 ^ w) : sext x w = sext y w ↔ x = y :=
  ⟨fun h => by rw [← wrapTo_sext hx, h, wrapTo_sext hy], fun h => by rw [h]⟩

/-! ### The formats of a well-formed instruction -/

theorem reject_eq_none {e : DecodeError} {b : Bool} : reject e b = none ↔ b = false := by
  cases b <;> simp [reject]

theorem firstError_eq_none {cs : List (Option DecodeError)} : firstError cs = none ↔ ∀ c ∈ cs, c = none := by
  induction cs with
  | nil => simp [firstError]
  | cons c cs ih => cases c <;> simp [firstError, ih]

/-- A vector instruction is well-formed only with the formats that it accepts. -/
theorem VecFmt.formats_of_check {f : VecFmt} {rd ra rb pd pa pb : Bool} {fs gs : Nat → Bool} (h : f.check rd ra rb pd pa pb fs gs = none) :
    fs f.fmt.toNat = true ∧ gs f.fmt2.toNat = true := by
  rw [VecFmt.check, firstError_eq_none] at h
  have hf : reject .formatCode (!fs f.fmt.toNat) = none := h _ (by simp)
  have hg : reject .formatCode (!gs f.fmt2.toNat) = none := h _ (by simp)
  rw [reject_eq_none, Bool.not_eq_false'] at hf hg
  exact ⟨hf, hg⟩

theorem Instr.check_of_wellFormed {i : Instr} (h : i.wellFormed = true) : i.check = none := by
  rw [← Option.isNone_iff_eq_none]
  exact h

end Sys2Proof.Machine
end


section
/-!
SUPPORT. Vector instructions where their predicate and rows allow them (spec/10 R242, R245, R246; spec/20 R393, R394, R401): the checks, and the effect of
an instruction whose checks pass.
-/

namespace Sys2Proof.Machine

open Sys2Proof

section
variable {s : State} {f : VecFmt} {ps : List RowPtr}

/-- What `vecReady` says of the predicate, of every pointer and of the lines. -/
theorem State.vecReady_iff : s.vecReady f ps = true ↔ s.allows f.pred f.neg = true ∧
    (∀ p ∈ ps, p.off s.cur % 32 = 0 ∧ ptrBuf (s.cur.ptr p.ptr) = 0 ∧ p.off s.cur + 32 * p.rows ≤ Config.abBytes) ∧
    s.linesFull ((ps.flatMap fun p => p.rowList s.cur).map (· / 4)) = true := by
  simp only [State.vecReady, State.linesFull, Bool.and_eq_true, List.all_eq_true, decide_eq_true_eq, and_assoc]

theorem State.chkRows_ok {p : RowPtr} (hb : ptrBuf (s.cur.ptr p.ptr) = 0) (ho : p.rows = 0 ∨ p.off s.cur + 32 * p.rows ≤ Config.abBytes) : s.chkRows p = .ok := by
  rw [State.chkRows, Check.need_eq_ok]
  simpa [hb] using ho

variable {dsts srcs : List (BitVec 7)}

/-- The checks of a ready instruction that come before that of its value. -/
theorem State.vecChecks_ok (hu : s.usable (dsts ++ srcs) = true) (hr : s.vecReady f ps = true) :
    ∀ c ∈ [s.chkAllot (nums (dsts ++ srcs)), s.chkPred f.pred f.neg, s.chkFull (nums srcs)] ++ ps.map s.chkAlign ++ ps.map s.chkRows, c = .ok := by
  obtain ⟨hpred, hptr, -⟩ := State.vecReady_iff.1 hr
  simp only [List.forall_mem_append, List.forall_mem_cons, List.forall_mem_map, List.not_mem_nil, false_imp_iff, implies_true, and_true]
  refine ⟨⟨⟨State.chkAllot_ok hu fun _ m => m, State.chkPred_ok hpred, State.chkFull_ok hu fun q m => ?_⟩, fun p hp => ?_⟩, fun p hp => ?_⟩
  · rw [nums, List.map_append]
    exact List.mem_append_right _ m
  · exact State.chkAlign_ok (hptr p hp).1
  · obtain ⟨-, hbuf, hend⟩ := hptr p hp
    exact State.chkRows_ok hbuf (.inr hend)

variable (hu : s.usable (dsts ++ srcs) = true) (hr : s.vecReady f ps = true)
include hu hr

/-- A ready vector instruction has its effect. -/
theorem State.vecOp_ok (out : State → VecOut) :
    s.vecOp f dsts srcs ps true out = .next (s.vecEffect f.rd f.pd ps (ps.flatMap fun p => p.rowList s.cur) (out s)) := by
  obtain ⟨-, -, hfull⟩ := State.vecReady_iff.1 hr
  unfold State.vecOp
  refine State.perform_ok ?_
  rw [List.forall_mem_append]
  refine ⟨State.vecChecks_ok hu hr, ?_⟩
  simp only [List.forall_mem_cons, List.not_mem_nil, false_imp_iff, implies_true, and_true]
  refine ⟨rfl, State.chkDest_ok hu fun q m => ?_, State.chkLines_ok hfull⟩
  rw [nums, List.map_append]
  exact List.mem_append_left _ m

/-- A ready instruction with a bad operand value traps. -/
theorem State.vecOp_bad (out : State → VecOut) : s.vecOp f dsts srcs ps false out = .next (s.raise 0x01 s.word0) := by
  unfold State.vecOp
  refine State.perform_trap ?_
  rw [Check.first_append (State.vecChecks_ok hu hr)]
  rfl

end

/-! ### Element-wise forms -/

/-- The outcome of an instruction that writes the row of elements `g` and ORs their flags. -/
def State.WritesElems (s : State) (f : VecFmt) (ps : List RowPtr) (r : Result) (g : Nat → Nat × Flags) : Prop :=
  ∃ x : Nat, x < 2 ^ 256 ∧ (∀ k, k < 256 / elemWidth f.fmt.toNat → lane (elemWidth f.fmt.toNat) x k = (g k).1) ∧
    r = .next (s.vecEffect f.rd f.pd ps (ps.flatMap fun p => p.rowList s.cur)
      { row := some x, scalar := none, flags := (List.range (256 / elemWidth f.fmt.toNat)).foldl (fun fl k => fl ||| (g k).2) 0 })

/-- Elements that fit their width, joined to a row. -/
theorem joinElems_range {c : Nat} {g : Nat → Nat × Flags} (hg : ∀ k, k < 256 / elemWidth c → (g k).1 < 2 ^ elemWidth c) :
    ∃ x : Nat, x < 2 ^ 256 ∧ (∀ k, k < 256 / elemWidth c → lane (elemWidth c) x k = (g k).1) ∧
      joinElems (elemWidth c) ((List.range (256 / elemWidth c)).map g) =
        { row := some x, scalar := none, flags := (List.range (256 / elemWidth c)).foldl (fun fl k => fl ||| (g k).2) 0 } := by
  refine ⟨rowOf (elemWidth c) (((List.range (256 / elemWidth c)).map g).map (·.1)), ?_, fun k hk => ?_, ?_⟩
  · have h := rowOf_lt (elemWidth c) (((List.range (256 / elemWidth c)).map g).map (·.1))
    rwa [List.length_map, List.length_map, List.length_range, elemWidth_mul] at h
  · have hget : (((List.range (256 / elemWidth c)).map g).map (·.1)).getD k 0 = (g k).1 := by
      rw [List.map_map, range_map_getD _ hk]
      rfl
    rw [← hget]
    exact lane_rowOf_of_lt (by rw [hget]; exact hg k hk)
  · rw [joinElems, List.foldl_map]

section
variable {s : State} {f : VecFmt} {e : Nat → Nat × Flags}

/-- A ready instruction that joins the elements `e` writes them. -/
theorem State.vecOp_joins {srcs : List (BitVec 7)} {ps : List RowPtr} (hu : s.usable srcs = true) (hr : s.vecReady f ps = true) {out : State → VecOut}
    (hout : out s = joinElems (elemWidth f.fmt.toNat) ((List.range (256 / elemWidth f.fmt.toNat)).map e))
    (he : ∀ k, k < 256 / elemWidth f.fmt.toNat → (e k).1 < 2 ^ elemWidth f.fmt.toNat) : s.WritesElems f ps (s.vecOp f [] srcs ps true out) e := by
  obtain ⟨x, hx, hlane, hjoin⟩ := joinElems_range he
  exact ⟨x, hx, hlane, by rw [State.vecOp_ok (dsts := []) hu hr, hout, hjoin]⟩

/-- d[i] := g(a[i]). -/
theorem State.vec1_writes {srcs : List (BitVec 7)} (hu : s.usable srcs = true) (hr : s.vecReady f [ptrD f, ptrA f] = true) {g : State → Nat → Nat × Flags}
    (he : ∀ k, g s (lane (elemWidth f.fmt.toNat) (s.rowA f) k) = e k ∧ (e k).1 < 2 ^ elemWidth f.fmt.toNat) :
    s.WritesElems f [ptrD f, ptrA f] (s.vec1 f srcs g) e := by
  refine State.vecOp_joins hu hr ?_ fun k _ => (he k).2
  rw [elemsOf, rowElems_eq, List.map_map]
  exact congrArg _ (List.map_congr_left fun k _ => (he k).1)

/-- d[i] := g(a[i], b[i]). -/
theorem State.vec2_writes (hr : s.vecReady f [ptrD f, ptrA f, ptrB f] = true) {g : Nat → Nat → Nat × Flags}
    (he : ∀ k, g (lane (elemWidth f.fmt.toNat) (s.rowA f) k) (lane (elemWidth f.fmt.toNat) (s.rowB f) k) = e k ∧ (e k).1 < 2 ^ elemWidth f.fmt.toNat) :
    s.WritesElems f [ptrD f, ptrA f, ptrB f] (s.vec2 f g) e := by
  refine State.vecOp_joins rfl hr ?_ fun k _ => (he k).2
  rw [elemsOf, elemsOf, rowElems_eq, rowElems_eq, List.zipWith_map, List.zipWith_self]
  exact congrArg _ (List.map_congr_left fun k _ => (he k).1)

end

end Sys2Proof.Machine
end

section
/-!
SUPPORT. Instructions on whole rows (spec/10 R246, R247).
-/

namespace Sys2Proof.Machine

open Sys2Proof

section
variable {s : State} {f : VecFmt}

theorem State.vecRow_ok {ps : List RowPtr} (hr : s.vecReady f ps = true) (g : State → Nat) : s.vecRow f ps g =
    .next (s.vecEffect f.rd f.pd ps (ps.flatMap fun p => p.rowList s.cur) { row := some (g s), scalar := none, flags := 0 }) :=
  State.vecOp_ok (dsts := []) (srcs := []) rfl hr _

theorem execVbcast_ok (hu : s.usable (regB f.ra f.lit) = true) (hr : s.vecReady f [ptrD f] = true) : execVbcast f s =
    .next (s.vecEffect f.rd f.pd [ptrD f] ([ptrD f].flatMap fun p => p.rowList s.cur)
      { row := some (rowOf (elemWidth f.fmt.toNat) (List.replicate (256 / elemWidth f.fmt.toNat) (s.opB f.ra f.lit).toNat)), scalar := none, flags := 0 }) :=
  State.vecOp_ok (dsts := []) hu hr _

end

/-- A row of as many elements as a format has. -/
theorem rowOf_lt_row {c : Nat} {xs : List Nat} (h : xs.length = 256 / elemWidth c) : rowOf (elemWidth c) xs < 2 ^ 256 := by
  have hlt := rowOf_lt (elemWidth c) xs
  rwa [h, elemWidth_mul] at hlt

/-- The bit-wise selection by the old row. -/
theorem select_testBit (d a b i : Nat) (hi : i < 256) :
    ((d &&& a) ||| ((d ^^^ (2 ^ 256 - 1)) &&& b)).testBit i = if d.testBit i then a.testBit i else b.testBit i := by
  rw [Nat.testBit_or, Nat.testBit_and, Nat.testBit_and, Nat.testBit_xor, Nat.testBit_two_pow_sub_one, decide_eq_true hi]
  cases d.testBit i <;> simp

theorem select_lt {d a b : Nat} (hd : d < 2 ^ 256) (hb : b < 2 ^ 256) : (d &&& a) ||| ((d ^^^ (2 ^ 256 - 1)) &&& b) < 2 ^ 256 :=
  Nat.or_lt_two_pow (Nat.and_le_left.trans_lt hd) (Nat.and_le_right.trans_lt hb)

/-- The row of VSHUF, element by element. -/
theorem lane_shufRow {c a b i : Nat} (hi : i < 256 / elemWidth c) :
    lane (elemWidth c) (rowOf (elemWidth c) ((elemsOf c b).map (shufElem (elemWidth c) (elemsOf c a)))) i =
      if 2 ^ (elemWidth c - 1) ≤ lane (elemWidth c) b i then 0 else lane (elemWidth c) a (lane (elemWidth c) b i % (256 / elemWidth c)) := by
  have helem : ((elemsOf c b).map (shufElem (elemWidth c) (elemsOf c a))).getD i 0 =
      if 2 ^ (elemWidth c - 1) ≤ lane (elemWidth c) b i then 0 else lane (elemWidth c) a (lane (elemWidth c) b i % (256 / elemWidth c)) := by
    rw [elemsOf, elemsOf, rowElems_eq _ _ b, List.map_map, range_map_getD _ hi, Function.comp_apply, shufElem, rowElems_getD (Nat.mod_lt _ (by omega))]
  refine (lane_rowOf_of_lt ?_).trans helem
  rw [helem]
  split
  · exact Nat.two_pow_pos _
  · exact lane_lt ..

/-- The outcome of an instruction that writes one row, and nothing else. -/
def State.WritesRow (s : State) (f : VecFmt) (ps : List RowPtr) (r : Result) (good : Nat → Prop) : Prop :=
  ∃ x : Nat, x < 2 ^ 256 ∧ good x ∧
    r = .next (s.vecEffect f.rd f.pd ps (ps.flatMap fun p => p.rowList s.cur) { row := some x, scalar := none, flags := 0 })

section
variable {s : State} {f : VecFmt}

theorem State.vecRow_writes {ps : List RowPtr} {g : State → Nat} {good : Nat → Prop} (hr : s.vecReady f ps = true) (hlt : g s < 2 ^ 256)
    (hg : good (g s)) : s.WritesRow f ps (s.vecRow f ps g) good := ⟨g s, hlt, hg, State.vecRow_ok hr g⟩

theorem execVand_writes (hr : s.vecReady f [ptrD f, ptrA f, ptrB f] = true) : s.WritesRow f [ptrD f, ptrA f, ptrB f] (execVand f s)
    fun x => ∀ i, i < 256 → x.testBit i = ((s.rowA f).testBit i && (s.rowB f).testBit i) :=
  State.vecRow_writes hr (Nat.and_le_left.trans_lt (s.row_lt _)) fun _ _ => Nat.testBit_and ..

theorem execVor_writes (hr : s.vecReady f [ptrD f, ptrA f, ptrB f] = true) : s.WritesRow f [ptrD f, ptrA f, ptrB f] (execVor f s)
    fun x => ∀ i, i < 256 → x.testBit i = ((s.rowA f).testBit i || (s.rowB f).testBit i) :=
  State.vecRow_writes hr (Nat.or_lt_two_pow (s.row_lt _) (s.row_lt _)) fun _ _ => Nat.testBit_or ..

theorem execVxor_writes (hr : s.vecReady f [ptrD f, ptrA f, ptrB f] = true) : s.WritesRow f [ptrD f, ptrA f, ptrB f] (execVxor f s)
    fun x => ∀ i, i < 256 → x.testBit i = ((s.rowA f).testBit i ^^ (s.rowB f).testBit i) :=
  State.vecRow_writes hr (Nat.xor_lt_two_pow (s.row_lt _) (s.row_lt _)) fun _ _ => Nat.testBit_xor ..

theorem execVsel_writes (hr : s.vecReady f [ptrD f, ptrA f, ptrB f] = true) : s.WritesRow f [ptrD f, ptrA f, ptrB f] (execVsel f s)
    fun x => ∀ i, i < 256 → x.testBit i = if (s.rowD f).testBit i then (s.rowA f).testBit i else (s.rowB f).testBit i :=
  State.vecRow_writes hr (select_lt (s.row_lt _) (s.row_lt _)) fun i hi => select_testBit _ _ _ i hi

theorem execVmov_writes (hr : s.vecReady f [ptrD f, ptrA f] = true) :
    s.WritesRow f [ptrD f, ptrA f] (execVmov f s) fun x => ∀ i, i < 256 → x.testBit i = (s.rowA f).testBit i :=
  State.vecRow_writes hr (s.row_lt _) fun _ _ => rfl

theorem execVshuf_writes (hr : s.vecReady f [ptrD f, ptrA f, ptrB f] = true) :
    s.WritesRow f [ptrD f, ptrA f, ptrB f] (execVshuf f s) fun x => ∀ i, i < 256 / elemWidth f.fmt.toNat → lane (elemWidth f.fmt.toNat) x i =
      if 2 ^ (elemWidth f.fmt.toNat - 1) ≤ lane (elemWidth f.fmt.toNat) (s.rowB f) i then 0
      else lane (elemWidth f.fmt.toNat) (s.rowA f) (lane (elemWidth f.fmt.toNat) (s.rowB f) i % (256 / elemWidth f.fmt.toNat)) := by
  exact State.vecRow_writes hr (rowOf_lt_row (by simp [elemsOf, rowElems])) fun i hi => lane_shufRow hi

theorem execVbcast_writes (hu : s.usable (regB f.ra f.lit) = true) (hr : s.vecReady f [ptrD f] = true) :
    s.WritesRow f [ptrD f] (execVbcast f s) fun x => ∀ i, i < 256 / elemWidth f.fmt.toNat →
      lane (elemWidth f.fmt.toNat) x i = (s.opB f.ra f.lit).toNat % 2 ^ elemWidth f.fmt.toNat := by
  refine ⟨_, rowOf_lt_row (List.length_replicate ..), fun i hi => ?_, execVbcast_ok hu hr⟩
  rw [lane_rowOf, List.getD_eq_getElem?_getD, List.getElem?_replicate, if_pos hi, Option.getD_some]

end

/-- Settles O23: each row is the instruction's own, bit by bit, or the row of a list of elements, element by element. -/
theorem vectorRows : Obligations.VectorRows := by
  unfold Obligations.VectorRows
  intro f s
  exact ⟨fun _ hr _ => execVand_writes hr, fun _ hr _ => execVor_writes hr, fun _ hr _ => execVxor_writes hr, fun _ hr _ => execVsel_writes hr,
    fun _ hr _ => execVmov_writes hr, fun _ hr _ => execVshuf_writes hr, fun _ hr hu => execVbcast_writes hu hr⟩

end Sys2Proof.Machine
end


section
/-!
SUPPORT. The effect of a vector instruction, field by field, and the step of a pointer (spec/10 R242, R245, R246; spec/03 R78, R80).
-/

namespace Sys2Proof.Machine

open Sys2Proof

/-! ### Pointers -/

theorem Ctx.ptr_setPtr (c : Ctx) (k j : BitVec 3) (v : W64) : (c.setPtr k.toNat v).ptr j = if j = k then v else c.ptr j := by
  have hk : k.toNat % 8 = k.toNat := Nat.mod_eq_of_lt k.isLt
  have hj : j.toNat % 8 = j.toNat := Nat.mod_eq_of_lt j.isLt
  simp only [Ctx.ptr, Ctx.ptrAt, Ctx.setPtr, hk, hj, Vector.getElem_set, BitVec.toNat_inj, eq_comm (a := k)]

theorem Ctx.ptr_advancePtr (c : Ctx) (k j : BitVec 3) : (c.advancePtr k true).ptr j = if j = k then ptrNext (c.ptr k) else c.ptr j :=
  c.ptr_setPtr k j _

/-- Advancing pointers touches the pointers alone, and does not see the flags. -/
theorem foldl_advancePtr (ps : List RowPtr) (c : Ctx) (fl : BitVec 5) :
    ps.foldl (fun c p => c.advancePtr p.ptr p.inc) { c with flags := fl } =
      { c with flags := fl, ptrs := (ps.foldl (fun c p => c.advancePtr p.ptr p.inc) c).ptrs } := by
  induction ps generalizing c with
  | nil => rfl
  | cons p ps ih =>
    have hstep : Ctx.advancePtr { c with flags := fl } p.ptr p.inc = { c.advancePtr p.ptr p.inc with flags := fl } := by
      cases p.inc <;> rfl
    have hrest : c.advancePtr p.ptr p.inc = { c with ptrs := (c.advancePtr p.ptr p.inc).ptrs } := by
      cases p.inc <;> rfl
    rw [List.foldl_cons, hstep, ih, List.foldl_cons, hrest]

/-! ### The row and the scalar result -/

/-- The state with the bytes of the result row at PD, and with the scalar result in RD. -/
def State.wroteRow (s : State) (pd : BitVec 3) : Option (List Byte) → State
  | some bs => s.setAb s.here (ptrOffset (s.cur.ptr pd)) bs
  | none => s
def State.wroteScalar (s : State) (rd : BitVec 7) : Option W64 → State
  | some v => s.writeReg rd v
  | none => s

/-- The bytes of the row of a result. -/
def VecOut.bytes (out : VecOut) : Option (List Byte) := out.row.map fun x => bytesOfNat x 32

theorem State.vecEffect_eq (s : State) (rd : BitVec 7) (pd : BitVec 3) (ps : List RowPtr) (rows : List Nat) (out : VecOut) :
    s.vecEffect rd pd ps rows out =
      ((((s.wroteRow pd out.bytes).wroteScalar rd out.scalar).orFlags s.gid out.flags).updCur fun c =>
        { ps.foldl (fun c p => c.advancePtr p.ptr p.inc) c with rot := extraRotations rows }).next := by
  obtain ⟨row, scalar, flags⟩ := out
  cases row with
  | none => cases scalar <;> rfl
  | some x =>
    unfold State.vecEffect VecOut.bytes
    dsimp only [Option.map_some]
    generalize bytesOfNat x 32 = bs -- the bytes themselves play no part, and would be computed
    cases scalar <;> rfl

section
variable {s : State}

theorem State.wroteRow_canon (h : s.Canon) (pd : BitVec 3) (bytes : Option (List Byte)) : (s.wroteRow pd bytes).Canon := by
  cases bytes with
  | none => exact h
  | some bs => exact State.setAb_canon h

theorem State.wroteScalar_canon (h : s.Canon) (rd : BitVec 7) (scalar : Option W64) : (s.wroteScalar rd scalar).Canon := by
  cases scalar with
  | none => exact h
  | some v => exact State.setPhys_canon h

/-- They touch the AB and the registers alone. -/
theorem State.wrote_frame (s : State) (pd : BitVec 3) (rd : BitVec 7) (bytes : Option (List Byte)) (scalar : Option W64) :
    (s.wroteRow pd bytes).wroteScalar rd scalar =
      { s with cpu := { s.cpu with ab := (s.wroteRow pd bytes).cpu.ab, regs := (s.wroteScalar rd scalar).cpu.regs } } := by
  cases bytes <;> cases scalar <;> rfl

theorem State.ab_wroteRow (h : s.Canon) (pd : BitVec 3) (bytes : Option (List Byte)) (k : Nat) :
    let off := 24576 * s.here + ptrOffset (s.cur.ptr pd)
    spGet 0 (s.wroteRow pd bytes).cpu.ab k = match bytes with
      | some bs => if off ≤ k ∧ k < off + bs.length then bs.getD (k - off) 0 else spGet 0 s.cpu.ab k
      | none => spGet 0 s.cpu.ab k := by
  cases bytes with
  | none => rfl
  | some bs => exact spGet_spSetList h.ab k

theorem State.regs_wroteScalar (h : s.Canon) (rd : BitVec 7) (scalar : Option W64) (k : Nat) :
    spGet 0 (s.wroteScalar rd scalar).cpu.regs k = match scalar with
      | some v => if k = s.regKey s.gid rd.toNat then v else spGet 0 s.cpu.regs k
      | none => spGet 0 s.cpu.regs k := by
  cases scalar with
  | none => rfl
  | some v => exact spGet_spSet h.regs k

end

section
variable {s : State} (h : s.Canon) (rd : BitVec 7) (pd : BitVec 3) (ps : List RowPtr) (rows : List Nat) (out : VecOut)

theorem State.ab_vecEffect : (s.vecEffect rd pd ps rows out).cpu.ab = (s.wroteRow pd out.bytes).cpu.ab := by
  rw [State.vecEffect_eq, State.wrote_frame]
  rfl

theorem State.regs_vecEffect : (s.vecEffect rd pd ps rows out).cpu.regs = (s.wroteScalar rd out.scalar).cpu.regs := by
  rw [State.vecEffect_eq, State.wrote_frame]
  rfl

/-- Beside the contexts, the AB and the registers nothing changes. -/
theorem State.vecEffect_frame : { s.vecEffect rd pd ps rows out with
      cpu := { (s.vecEffect rd pd ps rows out).cpu with ctxs := [], ab := [], regs := [] } } =
    { s with cpu := { s.cpu with ctxs := [], ab := [], regs := [] } } := by
  rw [State.vecEffect_eq, State.wrote_frame]
  rfl

include h

/-- The AB holds the row at PD, little-endian. -/
theorem State.get_ab_vecEffect (k : Nat) :
    let off := 24576 * s.here + ptrOffset (s.cur.ptr pd)
    spGet 0 (s.vecEffect rd pd ps rows out).cpu.ab k = match out.row with
      | some x => if off ≤ k ∧ k < off + 32 then BitVec.ofNat 8 (x / 256 ^ (k - off)) else spGet 0 s.cpu.ab k
      | none => spGet 0 s.cpu.ab k := by
  intro off
  rw [State.ab_vecEffect, State.ab_wroteRow h, VecOut.bytes]
  cases out.row with
  | none => rfl
  | some x =>
    rw [Option.map_some]
    dsimp only
    rw [bytesOfNat_length, bytesOfNat_eq_map]
    split
    · next hk => exact range_map_getD _ (by omega) 0
    · rfl

/-- The state after the row, the scalar result and the flags: canonical, with the contexts as before but for the flags. -/
theorem State.wrote_flags (fl : Flags) : let t := ((s.wroteRow pd out.bytes).wroteScalar rd out.scalar).orFlags s.gid fl
    t.Canon ∧ t.gid = s.gid ∧ t.sched = s.sched ∧ t.cur = { s.cur with flags := s.cur.flags ||| fl } ∧ ∀ g, g ≠ s.gid → t.ctx g = s.ctx g := by
  have hcanon := State.wroteScalar_canon (State.wroteRow_canon h pd out.bytes) rd out.scalar
  rw [State.wrote_frame] at hcanon ⊢
  exact ⟨State.setCtx_canon hcanon, rfl, rfl, State.cur_updCur hcanon _, fun g hg => (State.ctx_updCur hcanon _ g).trans (if_neg hg)⟩

theorem State.cur_vecEffect : (s.vecEffect rd pd ps rows out).cur = { s.cur with
    flags := s.cur.flags ||| out.flags
    ptrs := (ps.foldl (fun c p => c.advancePtr p.ptr p.inc) s.cur).ptrs
    rot := extraRotations rows
    pc := s.cur.pc + wordOfNat s.sched.slot.len } := by
  obtain ⟨hcanon, -, hsched, hcur, -⟩ := State.wrote_flags h rd pd out out.flags
  rw [State.vecEffect_eq, State.cur_next (State.updCur_canon hcanon), State.cur_updCur hcanon, hcur, foldl_advancePtr, State.sched_updCur, hsched]

theorem State.ctx_vecEffect_other {g : Nat} (hg : g ≠ s.gid) : (s.vecEffect rd pd ps rows out).ctx g = s.ctx g := by
  obtain ⟨hcanon, hgid, -, -, hctx⟩ := State.wrote_flags h rd pd out out.flags
  have hg' := hgid ▸ hg
  rw [State.vecEffect_eq, State.ctx_next_other (State.updCur_canon hcanon) hg', State.ctx_updCur hcanon, if_neg hg', hctx g hg]

end

/-! ### Completion -/

/-- A ready instruction with a row and no scalar result completes. -/
def State.Completes (s : State) (f : VecFmt) (ps : List RowPtr) (r : Result) : Prop :=
  ∃ (x : Nat) (fl : Flags), r = .next (s.vecEffect f.rd f.pd ps (ps.flatMap fun p => p.rowList s.cur) { row := some x, scalar := none, flags := fl })

section
variable {s : State} {f : VecFmt} {ps : List RowPtr}

theorem State.vecOp_completes {srcs : List (BitVec 7)} (hu : s.usable srcs = true) (hr : s.vecReady f ps = true) {out : State → VecOut} {x : Nat}
    {fl : Flags} (hout : out s = { row := some x, scalar := none, flags := fl }) : s.Completes f ps (s.vecOp f [] srcs ps true out) :=
  ⟨x, fl, by rw [State.vecOp_ok (dsts := []) hu hr, hout]⟩

theorem State.vec1_completes {srcs : List (BitVec 7)} (hu : s.usable srcs = true) (hr : s.vecReady f [ptrD f, ptrA f] = true)
    (g : State → Nat → Nat × Flags) : s.Completes f [ptrD f, ptrA f] (s.vec1 f srcs g) := State.vecOp_completes hu hr rfl

theorem State.vec2_completes (hr : s.vecReady f [ptrD f, ptrA f, ptrB f] = true) (g : Nat → Nat → Nat × Flags) :
    s.Completes f [ptrD f, ptrA f, ptrB f] (s.vec2 f g) := State.vecOp_completes rfl hr rfl

theorem State.vecRow_completes (hr : s.vecReady f ps = true) (g : State → Nat) : s.Completes f ps (s.vecRow f ps g) :=
  State.vecOp_completes rfl hr rfl

end

section
variable {s : State} {f : VecFmt}

theorem three_rows_complete (hr : s.vecReady f [ptrD f, ptrA f, ptrB f] = true) :
    ∀ r ∈ [execVadd f s, execVsub f s, execVmul f s, execVfma f s, execVdiv f s, execVmin f s, execVmax f s, execVadds f s, execVsubs f s, execVcmpeq f s,
      execVcmplt f s, execVcmple f s, execVand f s, execVor f s, execVxor f s, execVsel f s, execVshuf f s],
      s.Completes f [ptrD f, ptrA f, ptrB f] r := by
  have helem (g) := State.vec2_completes hr g
  have hrow (g) := State.vecRow_completes hr g
  simp only [List.forall_mem_cons, List.not_mem_nil, false_imp_iff, implies_true, and_true]
  exact ⟨helem _, helem _, helem _, State.vecOp_completes rfl hr rfl, helem _, helem _, helem _, helem _, helem _, helem _, helem _, helem _,
    hrow _, hrow _, hrow _, hrow _, hrow _⟩

theorem two_rows_complete (hr : s.vecReady f [ptrD f, ptrA f] = true) :
    ∀ r ∈ [execVsqrt f s, execVabs f s, execVneg f s, execVrcp f s, execVrsq f s, execVexp2 f s, execVlog2 f s, execVmov f s],
      s.Completes f [ptrD f, ptrA f] r := by
  have helem (g) := State.vec1_completes (srcs := []) rfl hr g
  simp only [List.forall_mem_cons, List.not_mem_nil, false_imp_iff, implies_true, and_true]
  exact ⟨helem _, helem _, helem _, helem _, helem _, helem _, helem _, State.vecRow_completes hr _⟩

theorem shifts_complete (hu : s.usable (regB f.ra f.lit) = true) (hr : s.vecReady f [ptrD f, ptrA f] = true) :
    ∀ r ∈ [execVshl f s, execVshr f s, execVsar f s], s.Completes f [ptrD f, ptrA f] r := by
  have helem (g) := State.vec1_completes hu hr g
  simp only [List.forall_mem_cons, List.not_mem_nil, false_imp_iff, implies_true, and_true]
  exact ⟨helem _, helem _, helem _⟩

end

/-- Settles O24: the AB by the run of bytes that is written, the registers by the one, the context by its four fields; and every instruction without a
scalar result completes so. -/
theorem vectorEffect : Obligations.VectorEffect := by
  unfold Obligations.VectorEffect
  refine ⟨fun s rd pd ps rows out hc => ?_, fun c k j => ⟨rfl, ?_⟩, fun f s => ?_⟩
  · have h := State.canonical_iff.1 hc
    refine ⟨State.get_ab_vecEffect h rd pd ps rows out, fun k => ?_, State.cur_vecEffect h rd pd ps rows out, fun g hg => State.ctx_vecEffect_other h rd pd ps rows out hg,
      State.vecEffect_frame rd pd ps rows out⟩
    rw [State.regs_vecEffect, State.regs_wroteScalar h] <;> rfl
  · rw [← ptrNext_eq]
    exact c.ptr_advancePtr k j
  · refine ⟨fun hr => ?_, fun hr => ?_, fun hu => ⟨fun hr => ?_, fun hr => ?_⟩⟩
    · exact (List.forall_mem_map (f := fun i => exec i s) (P := s.Completes f _)).1 (three_rows_complete hr)
    · exact (List.forall_mem_map (f := fun i => exec i s) (P := s.Completes f _)).1 (two_rows_complete hr)
    · exact (List.forall_mem_map (f := fun i => exec i s) (P := s.Completes f _)).1 (shifts_complete hu hr)
    · rw [List.forall_mem_singleton]
      exact ⟨_, _, execVbcast_ok hu hr⟩

end Sys2Proof.Machine
end


section
/-!
SUPPORT. Element-wise vector instructions (spec/10 R246, R247): each element in the terms of the statement, and that it fits its format.
-/

namespace Sys2Proof.Machine

open Sys2Proof

/-! ### Results fit their format -/

section
variable {c : Nat} (hc : isFp c = true)
include hc

theorem roundTo_lt_elem (v : Val) : (roundTo (fpOf c) v).1 < 2 ^ elemWidth c := by
  rw [elemWidth_fp hc]
  exact roundTo_lt (fpOf_sound hc).1 v

theorem finish_lt_elem (r : Val × Flags) : (finish (fpOf c) r).1 < 2 ^ elemWidth c := roundTo_lt_elem hc r.1

theorem fpNan_lt_elem : (fpNan (fpOf c)).1 < 2 ^ elemWidth c := roundTo_lt_elem hc (.nan false)

theorem fpMinMax_lt_elem (larger : Bool) {a b : Nat} (ha : a < 2 ^ elemWidth c) (hb : b < 2 ^ elemWidth c) :
    (fpMinMax (fpOf c) larger a b).1 < 2 ^ elemWidth c := by
  unfold fpMinMax
  dsimp only
  split
  · exact fpNan_lt_elem hc
  · split <;> dsimp only <;> split <;> assumption

theorem half_width : 2 ^ elemWidth c = 2 ^ ((fpOf c).width - 1) + 2 ^ ((fpOf c).width - 1) := by
  rw [elemWidth_fp hc, ← two_mul, ← pow_succ']
  congr 1
  rw [FpFormat.width]
  omega

theorem fpAbs_lt_elem (a : Nat) : (fpAbs (fpOf c) a).1 < 2 ^ elemWidth c := by
  have hmod := Nat.mod_lt a (Nat.two_pow_pos ((fpOf c).width - 1))
  unfold fpAbs
  dsimp only
  split
  · exact fpNan_lt_elem hc
  · rw [half_width hc]
    exact Nat.lt_add_left _ hmod

theorem fpNeg_lt_elem (a : Nat) : (fpNeg (fpOf c) a).1 < 2 ^ elemWidth c := by
  have hmod := Nat.mod_lt a (Nat.two_pow_pos ((fpOf c).width - 1))
  unfold fpNeg
  dsimp only
  split
  · exact fpNan_lt_elem hc
  · rw [half_width hc]
    dsimp only
    split <;> omega

end

/-- What FP32 rounds fits its 32 bits. -/
theorem finish_fp32_lt {c : Nat} (hc : isFP32 c = true) (r : Val × Flags) : (finish fp32 r).1 < 2 ^ elemWidth c := by
  obtain rfl : c = 2 := by simpa [isFP32] using hc
  exact finish_lt_elem (c := 2) rfl r

/-- The codes of most element-wise instructions are integer or floating-point. -/
theorem isFp_of_isF7 {c : Nat} (hc : isF7 c = true) (h2 : ¬c < 2) : isFp c = true := by
  have h6 : c ≤ 6 := by simpa [isF7] using hc
  rw [isFp, Bool.and_eq_true, decide_eq_true_eq, decide_eq_true_eq]
  omega

theorem isFp_of_isFP5 {c : Nat} (hc : isFP5 c = true) : isFp c = true := by
  have h26 : 2 ≤ c ∧ c ≤ 6 := by simpa [isFP5] using hc
  rw [isFp, Bool.and_eq_true, decide_eq_true_eq, decide_eq_true_eq]
  omega

/-! ### Elements -/

/-- A pattern of all ones or all zeros. -/
theorem ones_lt (w : Nat) (r : Bool) : (if r then 2 ^ w - 1 else 0) < 2 ^ w := by
  have := Nat.two_pow_pos w
  split <;> omega

/-- The lesser and the greater of two integer elements are elements themselves. -/
theorem wrapTo_min {w a b : Nat} (ha : a < 2 ^ w) (hb : b < 2 ^ w) :
    wrapTo w (min (sext a w) (sext b w)) = if sext b w < sext a w then b else a := by
  split
  · next h => rw [min_eq_right h.le, wrapTo_sext hb]
  · next h => rw [min_eq_left (not_lt.1 h), wrapTo_sext ha]

theorem wrapTo_max {w a b : Nat} (ha : a < 2 ^ w) (hb : b < 2 ^ w) :
    wrapTo w (max (sext a w) (sext b w)) = if sext a w < sext b w then b else a := by
  split
  · next h => rw [max_eq_right h.le, wrapTo_sext hb]
  · next h => rw [max_eq_left (not_lt.1 h), wrapTo_sext ha]

section
variable {s : State} {f : VecFmt}

/-- The two source elements, and the old one of PD. -/
def State.laneA (s : State) (f : VecFmt) (k : Nat) : Nat := lane (elemWidth f.fmt.toNat) (s.rowA f) k
def State.laneB (s : State) (f : VecFmt) (k : Nat) : Nat := lane (elemWidth f.fmt.toNat) (s.rowB f) k
def State.laneD (s : State) (f : VecFmt) (k : Nat) : Nat := lane (elemWidth f.fmt.toNat) (s.rowD f) k

theorem State.laneA_lt (k : Nat) : s.laneA f k < 2 ^ elemWidth f.fmt.toNat := lane_lt ..
theorem State.laneB_lt (k : Nat) : s.laneB f k < 2 ^ elemWidth f.fmt.toNat := lane_lt ..

/-- An element's number in two's complement, and the element of a number. -/
def elemInt (f : VecFmt) (x : Nat) : Int := (BitVec.ofNat (elemWidth f.fmt.toNat) x).toInt
def elemBits (f : VecFmt) (i : Int) : Nat := (BitVec.ofInt (elemWidth f.fmt.toNat) i).toNat

theorem elemBits_lt (i : Int) : elemBits f i < 2 ^ elemWidth f.fmt.toNat := BitVec.isLt _
theorem sext_eq_elemInt (x : Nat) : sext x (elemWidth f.fmt.toNat) = elemInt f x := sext_ofNat _ _
theorem wrapTo_eq_elemBits (i : Int) : wrapTo (elemWidth f.fmt.toNat) i = elemBits f i := wrapTo_ofInt _ _

/-- The integer result in the integer codes, the floating-point one in the others. -/
def byCode (f : VecFmt) (i r : Nat × Flags) : Nat × Flags := if f.fmt.toNat < 2 then i else r

theorem byCode_lt {i r : Nat × Flags} (hc : isF7 f.fmt.toNat = true) (hi : i.1 < 2 ^ elemWidth f.fmt.toNat)
    (hr : isFp f.fmt.toNat = true → r.1 < 2 ^ elemWidth f.fmt.toNat) : (byCode f i r).1 < 2 ^ elemWidth f.fmt.toNat := by
  rw [byCode]
  split
  · exact hi
  · next h => exact hr (isFp_of_isF7 hc h)

theorem byKind_eq (g : Int → Int → Int) (h : FpFormat → Nat → Nat → Nat × Flags) (a b : Nat) :
    byKind f.fmt.toNat g h a b = byCode f (elemBits f (g (elemInt f a) (elemInt f b)), 0) (h (fpOf f.fmt.toNat) a b) := by
  simp only [byKind, byCode, sext_eq_elemInt, wrapTo_eq_elemBits]

theorem byKind1_eq (g : Int → Int) (h : FpFormat → Nat → Nat × Flags) (a : Nat) :
    byKind1 f.fmt.toNat g h a = byCode f (elemBits f (g (elemInt f a)), 0) (h (fpOf f.fmt.toNat) a) := by
  simp only [byKind1, byCode, sext_eq_elemInt, wrapTo_eq_elemBits]

/-! ### Instructions of two rows -/

section
variable (hr : s.vecReady f [ptrD f, ptrA f, ptrB f] = true)
include hr

/-- Integer elements that wrap, or floating-point ones. -/
theorem byKind_writes {g : Int → Int → Int} {h : FpFormat → Nat → Nat → Nat × Flags} (hc : isF7 f.fmt.toNat = true)
    (hh : ∀ a b, isFp f.fmt.toNat = true → (h (fpOf f.fmt.toNat) a b).1 < 2 ^ elemWidth f.fmt.toNat) :
    s.WritesElems f [ptrD f, ptrA f, ptrB f] (s.vec2 f (byKind f.fmt.toNat g h)) fun k =>
      byCode f (elemBits f (g (elemInt f (s.laneA f k)) (elemInt f (s.laneB f k))), 0) (h (fpOf f.fmt.toNat) (s.laneA f k) (s.laneB f k)) :=
  State.vec2_writes hr fun _ => ⟨byKind_eq .., byCode_lt hc (elemBits_lt _) (hh _ _)⟩

theorem execVmin_writes (hc : isF7 f.fmt.toNat = true) : s.WritesElems f [ptrD f, ptrA f, ptrB f] (execVmin f s) fun k =>
    byCode f (if elemInt f (s.laneB f k) < elemInt f (s.laneA f k) then s.laneB f k else s.laneA f k, 0)
      (fpMinMax (fpOf f.fmt.toNat) false (s.laneA f k) (s.laneB f k)) := by
  refine State.vec2_writes hr fun k => ⟨?_, byCode_lt hc ?_ fun hfp => fpMinMax_lt_elem hfp _ (State.laneA_lt k) (State.laneB_lt k)⟩
  · rw [byKind_eq, ← wrapTo_eq_elemBits, ← sext_eq_elemInt, ← sext_eq_elemInt, wrapTo_min (lane_lt ..) (lane_lt ..), sext_eq_elemInt, sext_eq_elemInt]
    rfl
  · dsimp only
    split
    · exact State.laneB_lt k
    · exact State.laneA_lt k

theorem execVmax_writes (hc : isF7 f.fmt.toNat = true) : s.WritesElems f [ptrD f, ptrA f, ptrB f] (execVmax f s) fun k =>
    byCode f (if elemInt f (s.laneA f k) < elemInt f (s.laneB f k) then s.laneB f k else s.laneA f k, 0)
      (fpMinMax (fpOf f.fmt.toNat) true (s.laneA f k) (s.laneB f k)) := by
  refine State.vec2_writes hr fun k => ⟨?_, byCode_lt hc ?_ fun hfp => fpMinMax_lt_elem hfp _ (State.laneA_lt k) (State.laneB_lt k)⟩
  · rw [byKind_eq, ← wrapTo_eq_elemBits, ← sext_eq_elemInt, ← sext_eq_elemInt, wrapTo_max (lane_lt ..) (lane_lt ..), sext_eq_elemInt, sext_eq_elemInt]
    rfl
  · dsimp only
    split
    · exact State.laneB_lt k
    · exact State.laneA_lt k

theorem execVfma_writes (hc : isF7 f.fmt.toNat = true) : s.WritesElems f [ptrD f, ptrA f, ptrB f] (execVfma f s) fun k =>
    byCode f (elemBits f (elemInt f (s.laneA f k) * elemInt f (s.laneB f k) + elemInt f (s.laneD f k)), 0)
      (fpFma (fpOf f.fmt.toNat) (s.laneA f k) (s.laneB f k) (s.laneD f k)) := by
  refine State.vecOp_joins rfl hr ?_ fun k _ => byCode_lt hc (elemBits_lt _) fun hfp => finish_lt_elem hfp _
  dsimp only
  simp only [elemsOf, rowElems_eq, List.zip_map', List.zipWith_map, List.zipWith_self]
  refine congrArg _ (List.map_congr_left fun k _ => ?_)
  simp only [byCode, sext_eq_elemInt, wrapTo_eq_elemBits]
  rfl

theorem execVdiv_writes (hc : isFP5 f.fmt.toNat = true) : s.WritesElems f [ptrD f, ptrA f, ptrB f] (execVdiv f s) fun k =>
    fpDiv (fpOf f.fmt.toNat) (s.laneA f k) (s.laneB f k) :=
  State.vec2_writes hr fun _ => ⟨rfl, finish_lt_elem (isFp_of_isFP5 hc) _⟩

/-- Integer elements that saturate. -/
theorem satElem_writes (g : Int → Int → Int) : s.WritesElems f [ptrD f, ptrA f, ptrB f] (s.vec2 f (satElem f.fmt.toNat g)) fun k =>
    let i := g (elemInt f (s.laneA f k)) (elemInt f (s.laneB f k))
    let m : Int := 2 ^ (elemWidth f.fmt.toNat - 1)
    (elemBits f (if i < -m then -m else if m - 1 < i then m - 1 else i), 0) := by
  refine State.vec2_writes hr fun k => ⟨?_, elemBits_lt _⟩
  simp only [satElem, satInt, sext_eq_elemInt, wrapTo_eq_elemBits]
  push_cast
  rfl

/-- All ones where a compare holds, of integers or of floating-point elements. -/
theorem cmpElem_writes {g : Int → Int → Bool} {h : FpFormat → Nat → Nat → Bool × Flags} {i : Nat → Bool}
    (hi : ∀ k, g (elemInt f (s.laneA f k)) (elemInt f (s.laneB f k)) = i k) (hc : isF7 f.fmt.toNat = true) :
    s.WritesElems f [ptrD f, ptrA f, ptrB f] (s.vec2 f (cmpElem f.fmt.toNat g h)) fun k =>
      let r := h (fpOf f.fmt.toNat) (s.laneA f k) (s.laneB f k)
      byCode f (if i k then 2 ^ elemWidth f.fmt.toNat - 1 else 0, 0) (if r.1 then 2 ^ elemWidth f.fmt.toNat - 1 else 0, r.2) := by
  refine State.vec2_writes hr fun k => ⟨?_, byCode_lt hc (ones_lt ..) fun _ => ones_lt ..⟩
  rw [← hi k]
  simp only [cmpElem, byCode, sext_eq_elemInt]
  split <;> rfl

theorem execVcmpeq_writes (hc : isF7 f.fmt.toNat = true) : s.WritesElems f [ptrD f, ptrA f, ptrB f] (execVcmpeq f s) fun k =>
    let r := fpCmpEq (fpOf f.fmt.toNat) (s.laneA f k) (s.laneB f k)
    byCode f (if s.laneA f k == s.laneB f k then 2 ^ elemWidth f.fmt.toNat - 1 else 0, 0) (if r.1 then 2 ^ elemWidth f.fmt.toNat - 1 else 0, r.2) := by
  refine cmpElem_writes hr (fun k => ?_) hc
  rw [← sext_eq_elemInt, ← sext_eq_elemInt, Bool.eq_iff_iff, decide_eq_true_iff, beq_iff_eq]
  exact sext_inj (State.laneA_lt k) (State.laneB_lt k)

end

/-! ### Instructions of one row -/

section
variable (hr : s.vecReady f [ptrD f, ptrA f] = true)
include hr

theorem execVsqrt_writes (hc : isFP5 f.fmt.toNat = true) :
    s.WritesElems f [ptrD f, ptrA f] (execVsqrt f s) fun k => fpSqrt (fpOf f.fmt.toNat) (s.laneA f k) :=
  State.vec1_writes rfl hr fun _ => ⟨rfl, finish_lt_elem (isFp_of_isFP5 hc) _⟩

theorem execVabs_writes (hc : isF7 f.fmt.toNat = true) : s.WritesElems f [ptrD f, ptrA f] (execVabs f s) fun k =>
    byCode f (elemBits f (Int.natAbs (elemInt f (s.laneA f k))), 0) (fpAbs (fpOf f.fmt.toNat) (s.laneA f k)) := by
  have habs (i : Int) : (if i < 0 then -i else i) = Int.natAbs i := by
    split <;> omega
  refine State.vec1_writes rfl hr fun k => ⟨?_, byCode_lt hc ?_ fun hfp => fpAbs_lt_elem hfp _⟩
  · rw [byKind1_eq, habs]
    rfl
  · dsimp only
    exact elemBits_lt _

theorem execVneg_writes (hc : isF7 f.fmt.toNat = true) : s.WritesElems f [ptrD f, ptrA f] (execVneg f s) fun k =>
    byCode f (elemBits f (-elemInt f (s.laneA f k)), 0) (fpNeg (fpOf f.fmt.toNat) (s.laneA f k)) :=
  State.vec1_writes rfl hr fun _ => ⟨byKind1_eq .., byCode_lt hc (elemBits_lt _) fun hfp => fpNeg_lt_elem hfp _⟩

/-- An operation of FP32 alone. -/
theorem fp32_writes (hc : isFP32 f.fmt.toNat = true) (v : Val → Val × Flags) :
    s.WritesElems f [ptrD f, ptrA f] (s.vec1 f [] fun _ a => finish fp32 (v (fpDecode fp32 a))) fun k =>
      finish fp32 (v (fpDecode fp32 (s.laneA f k))) :=
  State.vec1_writes rfl hr fun _ => ⟨rfl, finish_fp32_lt hc _⟩

/-! ### Shifts -/

omit hr in
theorem State.vecCount_eq : s.vecCount f = ((s.opB f.ra f.lit).extractLsb' 0 6).toNat := by
  rw [State.vecCount, State.vecA, slice_eq]

variable (hu : s.usable (regB f.ra f.lit) = true)
include hu

theorem execVshl_writes : s.WritesElems f [ptrD f, ptrA f] (execVshl f s) fun k =>
    (s.laneA f k * 2 ^ ((s.opB f.ra f.lit).extractLsb' 0 6).toNat % 2 ^ elemWidth f.fmt.toNat, 0) :=
  State.vec1_writes hu hr fun _ => ⟨by rw [State.vecCount_eq]; rfl, Nat.mod_lt _ (Nat.two_pow_pos _)⟩

theorem execVshr_writes : s.WritesElems f [ptrD f, ptrA f] (execVshr f s) fun k =>
    (s.laneA f k / 2 ^ ((s.opB f.ra f.lit).extractLsb' 0 6).toNat, 0) :=
  State.vec1_writes hu hr fun k => ⟨by rw [State.vecCount_eq]; rfl, (Nat.div_le_self ..).trans_lt (State.laneA_lt k)⟩

theorem execVsar_writes : s.WritesElems f [ptrD f, ptrA f] (execVsar f s) fun k =>
    (elemBits f (elemInt f (s.laneA f k) / 2 ^ ((s.opB f.ra f.lit).extractLsb' 0 6).toNat), 0) := by
  refine State.vec1_writes hu hr fun k => ⟨?_, elemBits_lt _⟩
  rw [sext_eq_elemInt, wrapTo_eq_elemBits, State.vecCount_eq]
  push_cast
  rfl

end

end

end Sys2Proof.Machine
end


section
/-!
SUPPORT. Roots in place of their exact values (spec/06 R160): a number that lies on a root's side of every multiple of a unit, and its rounding.
-/

namespace Sys2Proof.Machine

open Sys2Proof

/-- The number that `sticky` gives: `r` units of 2^`h`, or the middle above them. -/
def stickyValue (r : Nat) (whole : Bool) (h : Int) : ℚ := if whole then r * 2 ^ h else (r + 1 / 2) * 2 ^ h

/-- `r` units of 2^`h` are the root of `z` rounded down, and exact where `whole` says so. -/
structure FloorRoot (z : ℚ) (r : Nat) (whole : Bool) (h : Int) : Prop where
  le_iff : ∀ j : Nat, j ≤ r ↔ ((j : ℚ) * 2 ^ h) ^ 2 ≤ z
  exact_iff : whole = true ↔ ((r : ℚ) * 2 ^ h) ^ 2 = z

namespace FloorRoot

variable {z : ℚ} {r : Nat} {whole : Bool} {h : Int} (hf : FloorRoot z r whole h)
include hf

/-- A multiple of the unit is at most `stickyValue` exactly where it is at most the root. -/
theorem le_sticky_iff (j : Nat) : (j : ℚ) * 2 ^ h ≤ stickyValue r whole h ↔ ((j : ℚ) * 2 ^ h) ^ 2 ≤ z := by
  rw [← hf.le_iff, stickyValue]
  split
  · rw [mul_le_mul_iff_left₀ (by positivity), Nat.cast_le]
  · rw [mul_le_mul_iff_left₀ (by positivity)]
    refine ⟨fun hj => ?_, fun hj => ?_⟩
    · by_contra hlt
      have : (r : ℚ) + 1 ≤ j := by exact_mod_cast not_le.1 hlt
      linarith
    · have : (j : ℚ) ≤ r := by exact_mod_cast hj
      linarith

/-- A multiple of the unit is at least `stickyValue` exactly where it is at least the root. -/
theorem sticky_le_iff (j : Nat) : stickyValue r whole h ≤ (j : ℚ) * 2 ^ h ↔ z ≤ ((j : ℚ) * 2 ^ h) ^ 2 := by
  have hpos : (0 : ℚ) < 2 ^ h := by positivity
  cases whole
  · have hne : ((r : ℚ) * 2 ^ h) ^ 2 ≠ z := fun heq => nomatch hf.exact_iff.2 heq
    rw [stickyValue, if_neg Bool.false_ne_true, mul_le_mul_iff_left₀ hpos]
    refine ⟨fun hj => (not_le.1 fun hz => ?_).le, fun hz => ?_⟩
    · have hjr : (j : ℚ) ≤ r := by exact_mod_cast (hf.le_iff j).2 hz
      linarith
    · have hrj : r < j := by
        by_contra hle
        have hjr := (hf.le_iff r).1 le_rfl
        have hsq : ((j : ℚ) * 2 ^ h) ^ 2 ≤ ((r : ℚ) * 2 ^ h) ^ 2 := by
          gcongr
          exact not_lt.1 hle
        exact hne (le_antisymm hjr (hz.trans hsq))
      have : (r : ℚ) + 1 ≤ j := by exact_mod_cast hrj
      linarith
  · rw [stickyValue, if_pos rfl, ← hf.exact_iff.1 rfl, mul_le_mul_iff_left₀ hpos, pow_le_pow_iff_left₀ (by positivity) (by positivity) two_ne_zero,
      mul_le_mul_iff_left₀ hpos]

variable {c : ℚ} (hc : ∃ j : Nat, c = j * 2 ^ h)
include hc

theorem le_iff_sq_le : c ≤ stickyValue r whole h ↔ c ^ 2 ≤ z := by
  obtain ⟨j, rfl⟩ := hc
  exact hf.le_sticky_iff j

theorem le_iff_le_sq : stickyValue r whole h ≤ c ↔ z ≤ c ^ 2 := by
  obtain ⟨j, rfl⟩ := hc
  exact hf.sticky_le_iff j

theorem eq_iff_sq_eq : c = stickyValue r whole h ↔ c ^ 2 = z := by
  rw [le_antisymm_iff, hf.le_iff_sq_le hc, hf.le_iff_le_sq hc, ← le_antisymm_iff]

end FloorRoot

namespace FpFormat

variable {p : FpFormat}

/-- The rounding of a sticky magnitude is that of `stickyValue`. -/
theorem roundTo_sticky (hp : p.Regular) {r : Nat} (hr : r ≠ 0) (whole : Bool) (h : Int) : ∃ q u, p.Quotient (stickyValue r whole h) q u ∧
    roundTo p (sticky false r whole h) =
      if p.value p.maxBits < q * 2 ^ u then fpOver p false
      else (fpPack p false q u, flagIf (decide ((q : ℚ) * 2 ^ u ≠ stickyValue r whole h)) flagNX |||
        flagIf (decide ((q : ℚ) * 2 ^ u ≠ stickyValue r whole h ∧
          stickyValue r whole h < 2 ^ (1 - p.bias) - 2 ^ (1 - p.bias) / 2 ^ (p.manBits + 2))) flagUF) := by
  cases whole
  · have hval : stickyValue r false h = (2 * r + 1 : Nat) / (1 : Nat) * 2 ^ (h - 1) := by
      rw [stickyValue, if_neg Bool.false_ne_true, zpow_sub_one₀ two_ne_zero]
      push_cast
      ring
    rw [hval]
    exact roundTo_eq hp false (Nat.succ_ne_zero _) one_ne_zero (h - 1)
  · have hval : stickyValue r true h = r / (1 : Nat) * 2 ^ h := by rw [stickyValue, if_pos rfl, Nat.cast_one, div_one]
    rw [hval]
    exact roundTo_eq hp false hr one_ne_zero h

/-- A sticky root in the format: its unit lies below the quotient's, it is a normal number, and not beyond the range. -/
structure NormalRoot (p : FpFormat) (z : ℚ) (r : Nat) (whole : Bool) (h : Int) : Prop where
  floor : FloorRoot z r whole h
  wide : 2 ^ (p.manBits + 1) ≤ r
  normal : 2 ^ (1 - p.bias) ≤ stickyValue r whole h
  within : stickyValue r whole h ≤ p.value p.maxBits

/-- `v` is the value of the format nearest to the root of `z`: the squares of the middles between it and the other values lie on its far side. -/
def NearestRoot (p : FpFormat) (z : ℚ) (v : Nat × Flags) : Prop :=
  p.finite v.1 ∧ 0 < p.value v.1 ∧ v.2 = flagIf (p.value v.1 ^ 2 ≠ z) flagNX ∧
    ∀ y : Nat, p.finite y → 0 ≤ p.value y →
      (p.value y < p.value v.1 → ((p.value y + p.value v.1) / 2) ^ 2 ≤ z) ∧ (p.value v.1 < p.value y → z ≤ ((p.value y + p.value v.1) / 2) ^ 2)

namespace NormalRoot

variable {z : ℚ} {r : Nat} {whole : Bool} {h : Int} (hn : p.NormalRoot z r whole h) {q : Nat} {u : Int} (hq : p.Quotient (stickyValue r whole h) q u)
include hn

theorem unit_le : (2 : ℚ) ^ (p.manBits + 1) * 2 ^ h ≤ stickyValue r whole h := by
  have := (hn.floor.le_sticky_iff (2 ^ (p.manBits + 1))).2 ((hn.floor.le_iff _).1 hn.wide)
  exact_mod_cast this

include hq

theorem lt_unit : h < u := by
  have hlt := hn.unit_le.trans_lt hq.lt
  rw [← zpow_unit] at hlt
  have := (zpow_lt_zpow_iff_right₀ one_lt_two).1 hlt
  push_cast at this
  omega

theorem leading : 2 ^ (u + p.manBits) ≤ stickyValue r whole h ∧ 2 ^ p.manBits ≤ q := by
  have hge : 2 ^ (u + p.manBits) ≤ stickyValue r whole h := by
    obtain hlow | hge := hq.least
    · rw [hlow, low, sub_add_cancel]
      exact hn.normal
    · exact hge
  refine ⟨hge, ?_⟩
  rw [zpow_unit, ← le_div_iff₀ (by positivity)] at hge
  exact_mod_cast le_roundsToInt hq.near (k := 2 ^ p.manBits) (by push_cast; exact hge)

theorem not_beyond (hp : p.Regular) : ¬p.value p.maxBits < q * 2 ^ u := by
  have hle := hn.within
  have hhalf : 0 < (p.value p.maxBits - p.value (p.maxBits - 1)) / 2 := by
    rw [value_max hp, value_max_pred hp, ← sub_mul, sub_sub_cancel, one_mul]
    positivity
  rw [hq.beyond_iff hp]
  split <;> linarith

/-- The middle of the quotient and another multiple of its unit is a multiple of the root's unit. -/
theorem middle_multiple (k : ℕ) : ∃ j : Nat, ((k : ℚ) * 2 ^ u + q * 2 ^ u) / 2 = j * 2 ^ h := by
  obtain ⟨j, hj⟩ := multiple_of_le (show h ≤ u - 1 by have := hn.lt_unit hq; omega) (k + q)
  refine ⟨j, ?_⟩
  rw [← hj, zpow_sub_one₀ two_ne_zero]
  push_cast
  ring

theorem middle_sq_le {y : Nat} (hy0 : 0 ≤ p.value y) (hy : p.value y < q * 2 ^ u) : ((p.value y + q * 2 ^ u) / 2) ^ 2 ≤ z := by
  obtain ⟨hge, hlead⟩ := hn.leading hq
  have hsq : ∀ k : Nat, p.value y ≤ k * 2 ^ u → (k * 2 ^ u + q * 2 ^ u) / 2 ≤ stickyValue r whole h → ((p.value y + q * 2 ^ u) / 2) ^ 2 ≤ z := by
    intro k hyk hmid
    rw [hn.floor.le_iff_sq_le (hn.middle_multiple hq k)] at hmid
    refine le_trans ?_ hmid
    gcongr
  obtain ⟨k, hk⟩ | ⟨hsmall, -⟩ := p.value_grid false y u
  · rw [signed_pos] at hk
    rw [hk] at hy0
    obtain ⟨j, rfl⟩ := Int.eq_ofNat_of_zero_le (show 0 ≤ k by exact_mod_cast nonneg_of_mul_nonneg_left hy0 (by positivity))
    exact hsq j hk.le (hq.middle_le j (by rwa [← hk]))
  · rw [zpow_unit] at hsmall hge
    refine hsq (2 ^ p.manBits) (by push_cast; exact ((le_abs_self _).trans_lt hsmall).le) ?_
    rcases hlead.lt_or_eq with hlt | heq
    · have := hq.middle_le (2 ^ p.manBits) (by push_cast; gcongr; exact_mod_cast hlt)
      exact_mod_cast this
    · rw [← heq, add_self_div_two]
      exact_mod_cast hge

theorem le_middle_sq {y : Nat} (hy : q * 2 ^ u < p.value y) : z ≤ ((p.value y + q * 2 ^ u) / 2) ^ 2 := by
  obtain ⟨hge, hlead⟩ := hn.leading hq
  obtain ⟨k, hk⟩ | ⟨hsmall, -⟩ := p.value_grid false y u
  · rw [signed_pos] at hk
    have hmid := hq.le_middle k (by rwa [← hk])
    rw [hk] at hy
    have hqk : (q : ℤ) < k := by exact_mod_cast (mul_lt_mul_iff_left₀ (show (0 : ℚ) < 2 ^ u by positivity)).1 hy
    obtain ⟨j, rfl⟩ := Int.eq_ofNat_of_zero_le (show 0 ≤ k by omega)
    rw [hk]
    rw [Int.cast_natCast] at hmid ⊢
    rwa [hn.floor.le_iff_le_sq (hn.middle_multiple hq j)] at hmid
  · refine absurd ((le_abs_self _).trans_lt hsmall) (not_lt.2 (le_trans ?_ hy.le))
    rw [zpow_unit]
    gcongr
    exact_mod_cast hlead

omit hq in
/-- A sticky root rounds to the value nearest to the root. -/
theorem nearest (hp : p.Regular) : p.NearestRoot z (roundTo p (sticky false r whole h)) := by
  have hr : r ≠ 0 := (lt_of_lt_of_le (Nat.two_pow_pos _) hn.wide).ne'
  obtain ⟨q, u, hq, hround⟩ := roundTo_sticky hp hr whole h
  obtain ⟨-, hlead⟩ := hn.leading hq
  have hq0 : (0 : ℚ) < q := by exact_mod_cast lt_of_lt_of_le (Nat.two_pow_pos _) hlead
  have htiny : ¬((q : ℚ) * 2 ^ u ≠ stickyValue r whole h ∧ stickyValue r whole h < 2 ^ (1 - p.bias) - 2 ^ (1 - p.bias) / 2 ^ (p.manBits + 2)) := by
    have hpos : (0 : ℚ) < 2 ^ (1 - p.bias) / 2 ^ (p.manBits + 2) := by positivity
    exact fun hx => absurd hx.2 (not_lt.2 (by linarith [hn.normal]))
  obtain ⟨hfin, -, hval, -⟩ := fpPack_spec hp false hq.low hq.le hq.leading (not_lt.1 (hn.not_beyond hq hp))
  rw [signed_pos] at hval
  rw [hround, if_neg (hn.not_beyond hq hp), decide_eq_false htiny,
    decide_eq_decide.2 (not_congr (hn.floor.eq_iff_sq_eq (multiple_of_le (hn.lt_unit hq).le q)))]
  unfold NearestRoot
  dsimp only
  rw [hval]
  exact ⟨hfin, by positivity, BitVec.or_zero .., fun y _ hy0 => ⟨hn.middle_sq_le hq hy0, hn.le_middle_sq hq⟩⟩

end NormalRoot

end FpFormat

end Sys2Proof.Machine
end


section
/-!
SUPPORT. VRCP, VRSQ, VEXP2 and VLOG2 (spec/06 R160, Table 6.6): their special values, the reciprocal and its root, and the exact powers and logarithms.
-/

namespace Sys2Proof.Machine

open Sys2Proof

/-! ### Special values -/

section
variable {a : Nat}

/-- Each of the four gives the default NaN for a NaN, with NV where it signals. -/
theorem transcendental_nan (h : (fpDecode fp32 a).isNan = true) {g : Nat → Nat × Flags} (hg : g ∈ [fpRcp, fpRsq, fpExp2, fpLog2]) :
    g a = (0x7FC00000, flagIf (fpDecode fp32 a).isSig flagNV) := by
  cases hv : fpDecode fp32 a with
  | inf | fin => exact nomatch hv ▸ h
  | nan sig =>
    have hfin := finish_nan (p := fp32) rfl false (flagIf sig flagNV)
    simp only [List.mem_cons, List.not_mem_nil, or_false] at hg
    obtain rfl | rfl | rfl | rfl := hg
    · rw [fpRcp, hv]; exact hfin
    · rw [fpRsq, hv]; exact hfin
    · rw [fpExp2, hv]; exact hfin
    · rw [fpLog2, hv]; exact hfin

end

theorem fpDecode_signed_zero (m : Bool) : fpDecode fp32 (bitAt m 31) = .fin m 0 1 (-149) := by
  cases m <;> rfl

/-- 2^0 is 1. -/
theorem finish_one : finish fp32 (.fin false 1 1 0, 0) = (0x3F800000, 0) := by decide

theorem transcendental_zero (m : Bool) : fpRcp (bitAt m 31) = (fp32.infinity m, flagDZ) ∧ fpRsq (bitAt m 31) = (fp32.infinity m, flagDZ) ∧
    fpExp2 (bitAt m 31) = (0x3F800000, 0) ∧ fpLog2 (bitAt m 31) = (fp32.infinity true, flagDZ) := by
  have hdec := fpDecode_signed_zero m
  refine ⟨?_, ?_, ?_, ?_⟩
  · rw [fpRcp, hdec]
    exact finish_infinity rfl m flagDZ
  · rw [fpRsq, hdec]
    exact finish_infinity rfl m flagDZ
  · have hexp : valExp2 (.fin m 0 1 (-149)) = (.fin false 1 1 0, 0) := by cases m <;> rfl
    rw [fpExp2, hdec, hexp, finish_one]
  · rw [fpLog2, hdec]
    exact finish_infinity rfl true flagDZ

theorem transcendental_infinity (m : Bool) : fpRcp (fp32.infinity m) = (bitAt m 31, 0) ∧
    fpRsq (fp32.infinity m) = (if m then (0x7FC00000, flagNV) else (0, 0)) ∧ fpExp2 (fp32.infinity m) = (if m then (0, 0) else (fp32.infinity m, 0)) ∧
    fpLog2 (fp32.infinity m) = if m then (0x7FC00000, flagNV) else (fp32.infinity m, 0) := by
  have hdec := fpDecode_infinity (p := fp32) rfl m
  refine ⟨?_, ?_, ?_, ?_⟩
  · rw [fpRcp, hdec]
    exact finish_zero m
  · rw [fpRsq, hdec]
    cases m
    · exact finish_zero false
    · exact finish_nan rfl false flagNV
  · rw [fpExp2, hdec]
    cases m
    · exact finish_infinity rfl false 0
    · exact finish_zero false
  · rw [fpLog2, hdec]
    cases m
    · exact finish_infinity rfl false 0
    · exact finish_nan rfl false flagNV

/-! ### Finite operands -/

section
variable {a : Nat} (ha : fp32.finite a)
include ha

/-- A finite operand as the four see it: its number, not over a denominator. -/
theorem finite_fp32 : ∃ n e, fpDecode fp32 a = .fin (fp32.negative a) n 1 e ∧ fp32.value a = signed (fp32.negative a) (n * 2 ^ e) := by
  obtain ⟨n, e, hdec, hval⟩ := finite_fin fp32_regular ha
  exact ⟨n, e, hdec, by rw [hval, Nat.cast_one, div_one]⟩

theorem negative_of_value_neg (h0 : fp32.value a < 0) : fp32.negative a = true := by
  obtain ⟨n, e, -, hval⟩ := finite_fp32 ha
  by_contra hneg
  rw [hval, eq_false_of_ne_true hneg, signed_pos] at h0
  exact absurd h0 (not_lt.2 (by positivity))

/-- A positive operand: its number is not 0, and it has no sign. -/
theorem positive_fp32 (h0 : 0 < fp32.value a) : ∃ n e, n ≠ 0 ∧ fpDecode fp32 a = .fin false n 1 e ∧ fp32.value a = n * 2 ^ e := by
  obtain ⟨n, e, hdec, hval⟩ := finite_fp32 ha
  have hneg : fp32.negative a = false := by
    by_contra hneg
    rw [hval, eq_true_of_ne_false hneg, signed_neg] at h0
    exact absurd h0 (not_lt.2 (neg_nonpos.2 (by positivity)))
  rw [hneg, signed_pos] at hval
  refine ⟨n, e, ?_, by rw [hdec, hneg], hval⟩
  rintro rfl
  simp [hval] at h0

theorem fpRcp_rounds (h0 : fp32.value a ≠ 0) : fp32.Rounds (1 / fp32.value a) (decide (fp32.value a < 0)) (fpRcp a) := by
  obtain ⟨n, e, hdec, hval⟩ := finite_fp32 ha
  have hn : n ≠ 0 := by
    rintro rfl
    exact h0 (hval.trans ((signed_eq_zero _ _).2 (by simp)))
  have hexact : 1 / fp32.value a = signed (fp32.negative a) ((1 : Nat) / n * 2 ^ (-e)) := by
    rw [hval, ← signed_pos 1, signed_div_signed, Bool.false_bne, zpow_neg, Nat.cast_one, one_div, one_div, mul_inv]
  rw [fpRcp, hdec, valRcp, if_neg hn, finish_none, hexact]
  exact FpFormat.roundTo_rounds fp32_regular _ _ one_ne_zero hn _

theorem fpRsq_negative (h0 : fp32.value a < 0) : fpRsq a = (0x7FC00000, flagNV) := by
  obtain ⟨n, e, hdec, hval⟩ := finite_fp32 ha
  have hn : n ≠ 0 := by
    rintro rfl
    exact h0.ne (hval.trans ((signed_eq_zero _ _).2 (by simp)))
  rw [fpRsq, hdec, valRsq, if_neg hn, if_pos (negative_of_value_neg ha h0), finish_nan rfl]

theorem fpLog2_negative (h0 : fp32.value a < 0) : fpLog2 a = (0x7FC00000, flagNV) := by
  obtain ⟨n, e, hdec, hval⟩ := finite_fp32 ha
  have hn : n ≠ 0 := by
    rintro rfl
    exact h0.ne (hval.trans ((signed_eq_zero _ _).2 (by simp)))
  rw [fpLog2, hdec, valLog2, if_neg hn, if_pos (negative_of_value_neg ha h0), finish_nan rfl]

end

/-! ### The logarithm of a power of two -/

theorem ofInt_exact (i : Int) : (Val.ofInt i).Exact i false := by
  refine ⟨_, _, _, _, rfl, one_ne_zero, ?_, fun h => decide_eq_false (by omega)⟩
  rw [Nat.cast_one, div_one, zpow_zero, mul_one, signed_natAbs]

/-- A number whose product with a power of two is a power of two is one itself. -/
theorem eq_two_pow_of_mul {n : Nat} (hn : n ≠ 0) {e i : Int} (h : (n : ℚ) * 2 ^ e = 2 ^ i) : n = 2 ^ Nat.log2 n ∧ (Nat.log2 n : Int) + e = i := by
  have hdiv : (n : ℚ) = 2 ^ (i - e) := by rw [zpow_sub₀ two_ne_zero, ← h, mul_div_cancel_right₀ _ (by positivity)]
  have hge : (2 : ℚ) ^ (0 : Int) ≤ 2 ^ (i - e) := by
    rw [← hdiv, zpow_zero]
    exact_mod_cast Nat.one_le_iff_ne_zero.2 hn
  obtain ⟨t, ht⟩ := Int.eq_ofNat_of_zero_le ((zpow_le_zpow_iff_right₀ one_lt_two).1 hge)
  rw [ht, zpow_natCast] at hdiv
  have hpow : n = 2 ^ t := by exact_mod_cast hdiv
  rw [hpow, Nat.log2_two_pow]
  exact ⟨rfl, by omega⟩

theorem fpLog2_power {a : Nat} (ha : fp32.finite a) {i : Int} (h : fp32.value a = 2 ^ i) : fp32.Rounds i false (fpLog2 a) := by
  obtain ⟨n, e, hn, hdec, hval⟩ := positive_fp32 ha (by rw [h]; positivity)
  obtain ⟨hpow, hlog⟩ := eq_two_pow_of_mul hn (hval.symm.trans h)
  rw [fpLog2, hdec, valLog2, if_neg hn, if_neg Bool.false_ne_true]
  dsimp only
  rw [if_pos hpow, hlog, finish_none]
  exact (ofInt_exact i).rounds fp32_regular

/-! ### Powers of two with an integer exponent -/

/-- The largest finite value of FP32: its significand and its unit; it is odd. -/
theorem fp32_top : fp32.topSig = 16777215 ∧ fp32.unit fp32.topExp = 104 ∧ fp32.maxBits % 2 = 1 := by decide +kernel

/-- Where a positive value is beyond the range of FP32. -/
theorem fp32_beyond_iff {x : ℚ} (h0 : 0 < x) :
    (if fp32.maxBits % 2 = 1 then fp32.value fp32.maxBits + (fp32.value fp32.maxBits - fp32.value (fp32.maxBits - 1)) / 2 ≤ |x|
      else fp32.value fp32.maxBits + (fp32.value fp32.maxBits - fp32.value (fp32.maxBits - 1)) / 2 < |x|) ↔ (16777215 + 1 / 2) * 2 ^ (104 : Int) ≤ x := by
  obtain ⟨hsig, hunit, hodd⟩ := fp32_top
  rw [if_pos hodd, abs_of_pos h0, FpFormat.value_max fp32_regular, FpFormat.value_max_pred fp32_regular, hsig, hunit]
  norm_num

theorem size_of_value_pos {p : FpFormat} {y : Nat} (h0 : 0 < p.value y) : p.value y = p.size y := by
  rw [FpFormat.value_eq] at h0 ⊢
  cases hs : y.testBit (p.width - 1)
  · rfl
  · rw [hs, signed_neg] at h0
    linarith [p.size_nonneg y]

/-- The bounds of a positive value of FP32. -/
theorem fp32_bounds {y : Nat} (hy : fp32.finite y) (h0 : 0 < fp32.value y) :
    (2 : ℚ) ^ (-149 : Int) ≤ fp32.value y ∧ fp32.value y < 2 ^ (128 : Int) := by
  have hsize := size_of_value_pos h0
  rw [hsize] at h0 ⊢
  have hbounds := FpFormat.value_bounds fp32_regular hy h0
  rwa [fp32_top.2.1] at hbounds

/-- A positive value below half the least one of FP32 rounds to 0. -/
theorem rounds_tiny {x : ℚ} (h0 : 0 < x) (h : x < 2 ^ (-150 : Int)) (z : Bool) : fp32.Rounds x z (0, flagNX ||| flagUF) := by
  have hvalue : fp32.value 0 = 0 := by simp [FpFormat.value]
  have hsmall : ¬(16777215 + 1 / 2) * 2 ^ (104 : Int) ≤ x := not_le.2 (h.trans (by norm_num))
  have hleast : x < 2 ^ (1 - fp32.bias) - 2 ^ (1 - fp32.bias) / 2 ^ (fp32.manBits + 2) := h.trans (by norm_num [fp32])
  have hhalf : (2 : ℚ) ^ (-149 : Int) = 2 * 2 ^ (-150 : Int) := by norm_num
  unfold FpFormat.Rounds
  dsimp only
  rw [if_neg h0.ne', if_neg (mt (fp32_beyond_iff h0).1 hsmall), hvalue, decide_eq_false h0.not_gt, zero_sub, abs_neg, abs_of_pos h0, decide_eq_true h0.ne,
    decide_eq_true ⟨h0.ne, hleast⟩]
  refine ⟨⟨by decide, by decide⟩, rfl, fun y hy => ⟨?_, fun _ _ => rfl⟩, rfl⟩
  obtain hneg | hpos := le_or_gt (fp32.value y) 0
  · rw [abs_of_neg] <;> linarith
  · obtain ⟨hge, -⟩ := fp32_bounds hy hpos
    rw [abs_of_pos] <;> linarith

/-- A value past the range of FP32 is beyond it. -/
theorem rounds_past {x : ℚ} (h : 2 ^ (128 : Int) ≤ x) (z : Bool) : fp32.Rounds x z (fp32.past false, flagOF ||| flagNX) := by
  have h0 : 0 < x := lt_of_lt_of_le (by positivity) h
  have hlarge : (16777215 + 1 / 2) * 2 ^ (104 : Int) ≤ x := le_trans (by norm_num) h
  unfold FpFormat.Rounds
  dsimp only
  rw [if_neg h0.ne', if_pos ((fp32_beyond_iff h0).2 hlarge), decide_eq_false h0.not_gt]

/-- The exponent that VEXP2 keeps: no power of two past ±1000 is in FP32's range. -/
def clampExp (i : Int) : Int := if i < -1000 then -1000 else if 1000 < i then 1000 else i

theorem roundTo_power_clamped : roundTo fp32 (.fin false 1 1 (-1000)) = (0, flagNX ||| flagUF) ∧
    roundTo fp32 (.fin false 1 1 1000) = (fp32.past false, flagOF ||| flagNX) := by decide +kernel

theorem roundTo_power (i : Int) : fp32.Rounds (2 ^ i) false (roundTo fp32 (.fin false 1 1 (clampExp i))) := by
  obtain ⟨hlow, hhigh⟩ := roundTo_power_clamped
  rw [clampExp]
  split
  · next h =>
    have : (2 : ℚ) ^ i < 2 ^ (-150 : Int) := zpow_lt_zpow_right₀ one_lt_two (by omega)
    rw [hlow]
    exact rounds_tiny (by positivity) this false
  · split
    · next h =>
      have : (2 : ℚ) ^ (128 : Int) ≤ 2 ^ i := zpow_le_zpow_right₀ one_le_two (by omega)
      rw [hhigh]
      exact rounds_past this false
    · have hexact : (Val.fin false 1 1 i).Exact (2 ^ i) false := ⟨_, _, _, _, rfl, one_ne_zero, by simp [signed_pos], fun _ => rfl⟩
      exact hexact.rounds fp32_regular

/-- An integer with a sign and a magnitude. -/
def signedInt (neg : Bool) (m : Nat) : Int := if neg then -(m : Int) else m

theorem clampExp_signed (neg : Bool) {m k : Nat} (h : m = k ∨ 1000 < m ∧ 1000 < k) : clampExp (signedInt neg m) = clampExp (signedInt neg k) := by
  obtain rfl | ⟨hm, hk⟩ := h
  · rfl
  · cases neg
    · simp only [clampExp, signedInt, Bool.false_eq_true, if_false]
      split_ifs <;> omega
    · simp only [clampExp, signedInt, if_true]
      split_ifs <;> omega

/-- VEXP2 of a multiple of 2^k in units of 2^−k. -/
theorem valExp2_whole (neg : Bool) (n : Nat) (e : Int) (m : Nat) (h : (if 0 ≤ e then n * 2 ^ (min e.toNat 16) else n) = m * 2 ^ (-e).toNat) :
    valExp2 (.fin neg n 1 e) = (.fin false 1 1 (clampExp (signedInt neg m)), 0) := by
  have hpos := Nat.two_pow_pos (-e).toNat
  have hup : (m * 2 ^ (-e).toNat + 2 ^ (-e).toNat - 1) / 2 ^ (-e).toNat = m := by
    rw [Nat.add_sub_assoc hpos, Nat.mul_comm, Nat.mul_add_div hpos, Nat.div_eq_of_lt (by omega), Nat.add_zero]
  have hdown : m * 2 ^ (-e).toNat / 2 ^ (-e).toNat = m := Nat.mul_div_cancel _ hpos
  unfold valExp2
  dsimp only
  rw [h, hup, hdown, Nat.mul_mod_left, Nat.sub_self, if_pos (by split <;> rfl)]
  rfl

/-- The magnitude of a number with an integer value. -/
theorem magnitude_of_int {neg : Bool} {n : Nat} {e i : Int} (h : signed neg (n * 2 ^ e) = i) : (n : ℚ) * 2 ^ e = i.natAbs ∧ i = signedInt neg i.natAbs := by
  have h0 : (0 : ℚ) ≤ n * 2 ^ e := by positivity
  refine ⟨by rw [Nat.cast_natAbs, Int.cast_abs, ← h, abs_signed neg h0], ?_⟩
  cases neg
  · have hi : 0 ≤ i := by exact_mod_cast h0.trans_eq h
    exact (Int.natAbs_of_nonneg hi).symm
  · have hi : i ≤ 0 := by exact_mod_cast h.symm.trans_le (neg_nonpos.2 h0)
    rw [signedInt, if_pos rfl]
    omega

/-- Multiples of 2^16 and above stay past the exponents kept. -/
theorem shifted_large (n t : Nat) : n * 2 ^ min t 16 = n * 2 ^ t ∨ 1000 < n * 2 ^ min t 16 ∧ 1000 < n * 2 ^ t := by
  rcases le_or_gt t 16 with ht | ht
  · exact .inl (by rw [min_eq_left ht])
  · rcases Nat.eq_zero_or_pos n with rfl | hn
    · exact .inl (by simp)
    · have hle : 2 ^ 16 ≤ 2 ^ t := Nat.pow_le_pow_right two_pos ht.le
      have h1 : 2 ^ 16 ≤ n * 2 ^ 16 := Nat.le_mul_of_pos_left _ hn
      have h2 : n * 2 ^ 16 ≤ n * 2 ^ t := Nat.mul_le_mul_left n hle
      rw [min_eq_right ht.le]
      omega

/-- 2 to a finite integer is a power of two. -/
theorem valExp2_int {neg : Bool} {n : Nat} {e i : Int} (h : signed neg (n * 2 ^ e) = i) :
    valExp2 (.fin neg n 1 e) = (.fin false 1 1 (clampExp i), 0) := by
  obtain ⟨hmag, hi⟩ := magnitude_of_int h
  rcases le_or_gt 0 e with he | he
  · obtain ⟨t, rfl⟩ := Int.eq_ofNat_of_zero_le he
    rw [zpow_natCast] at hmag
    have hm : n * 2 ^ t = i.natAbs := by exact_mod_cast hmag
    rw [valExp2_whole neg n t (n * 2 ^ min t 16) (by simp), hi, ← hm]
    rw [clampExp_signed neg (shifted_large n t)]
  · obtain ⟨t, ht⟩ := Int.eq_ofNat_of_zero_le (show 0 ≤ -e by omega)
    rw [show e = -(t : Int) by omega, zpow_neg, zpow_natCast, ← div_eq_mul_inv, div_eq_iff (by positivity)] at hmag
    have hm : n = i.natAbs * 2 ^ t := by exact_mod_cast hmag
    rw [valExp2_whole neg n e i.natAbs (by rw [if_neg he.not_ge, ht]; exact hm), ← hi]

theorem fpExp2_int {a : Nat} (ha : fp32.finite a) {i : Int} (h : fp32.value a = i) : fp32.Rounds (2 ^ i) false (fpExp2 a) := by
  obtain ⟨n, e, hdec, hval⟩ := finite_fp32 ha
  rw [fpExp2, hdec, valExp2_int (hval.symm.trans h), finish_none]
  exact roundTo_power i

/-! ### The reciprocal of a root -/

/-- The integer root of 2^(2c) over `a` is that of the reciprocal of a · 2^(2b), rounded down. -/
theorem floorRoot_reciprocal {a : Nat} (ha : a ≠ 0) (b : Int) (c : Nat) :
    FloorRoot (1 / (a * 2 ^ (2 * b))) (isqrt (2 ^ (2 * c) / a)) (decide (isqrt (2 ^ (2 * c) / a) * isqrt (2 ^ (2 * c) / a) * a = 2 ^ (2 * c))) (-b - c) := by
  have ha' : (0 : ℚ) < a := by exact_mod_cast Nat.pos_of_ne_zero ha
  have hpos : (0 : ℚ) < 1 / (a * 2 ^ (2 * b)) := by positivity
  have hsq (j : Nat) : ((j : ℚ) * 2 ^ (-b - c)) ^ 2 = (j * j * a : Nat) / (2 ^ (2 * c) : Nat) * (1 / (a * 2 ^ (2 * b))) := by
    rw [mul_pow, ← zpow_natCast (2 ^ (-b - c : Int) : ℚ), ← zpow_mul, show (-b - c) * ((2 : Nat) : Int) = -(2 * b) - (2 * c : Nat) by push_cast; ring,
      zpow_sub₀ two_ne_zero, zpow_neg, zpow_natCast]
    push_cast
    field_simp
  have hunit : (0 : ℚ) < (2 ^ (2 * c) : Nat) := by positivity
  constructor
  · intro j
    rw [le_isqrt_iff, Nat.le_div_iff_mul_le (Nat.pos_of_ne_zero ha), hsq, mul_le_iff_le_one_left hpos, div_le_one hunit, Nat.cast_le]
  · rw [decide_eq_true_iff, hsq, mul_eq_right₀ hpos.ne', div_eq_one_iff_eq hunit.ne', Nat.cast_inj]

/-- With 128 bits above those of the operand the integer root has 64 bits below its leading one. -/
theorem two_pow_le_isqrt {a : Nat} (ha : a ≠ 0) : 2 ^ 64 ≤ isqrt (2 ^ (2 * (64 + (Nat.log2 a / 2 + 1))) / a) := by
  have hlog : a ≤ 2 ^ (2 * (Nat.log2 a / 2 + 1)) := Nat.lt_log2_self.le.trans (Nat.pow_le_pow_right two_pos (by omega))
  rw [le_isqrt_iff, Nat.le_div_iff_mul_le (Nat.pos_of_ne_zero ha), mul_add, pow_add]
  exact Nat.mul_le_mul (by norm_num) hlog

/-- VRSQ of a positive value before its rounding. -/
theorem valRsq_fin {n : Nat} (hn : n ≠ 0) (e : Int) : ∃ r whole h, FloorRoot (1 / (n * 2 ^ e)) r whole h ∧ 2 ^ 64 ≤ r ∧
    valRsq (.fin false n 1 e) = (sticky false r whole h, 0) := by
  have hhalf (l : Nat) : (2 * 64 + 2 * (l / 2 + 1)) / 2 = 64 + (l / 2 + 1) := by omega
  have hdouble (l : Nat) : 2 * 64 + 2 * (l / 2 + 1) = 2 * (64 + (l / 2 + 1)) := by omega
  rw [valRsq, if_neg hn, if_neg Bool.false_ne_true]
  dsimp only [rootBits]
  by_cases he : e % 2 = 0
  · have hroot := floorRoot_reciprocal hn (e / 2) (64 + (Nat.log2 n / 2 + 1))
    rw [show 2 * (e / 2) = e by omega] at hroot
    rw [if_pos he]
    dsimp only
    rw [hhalf, hdouble]
    exact ⟨_, _, _, hroot, two_pow_le_isqrt hn, rfl⟩
  · have h2n : 2 * n ≠ 0 := mul_ne_zero two_ne_zero hn
    have hroot := floorRoot_reciprocal h2n ((e - 1) / 2) (64 + (Nat.log2 (2 * n) / 2 + 1))
    rw [show 2 * ((e - 1) / 2) = e - 1 by omega, Nat.cast_mul, Nat.cast_ofNat, mul_comm (2 : ℚ), mul_assoc, ← zpow_one_add₀ two_ne_zero,
      add_sub_cancel] at hroot
    rw [if_neg he]
    dsimp only
    rw [hhalf, hdouble]
    exact ⟨_, _, _, hroot, two_pow_le_isqrt h2n, rfl⟩

/-- A root of the reciprocal of a positive number of FP32 is a normal number, within the range. -/
theorem normalRoot_fp32 {z : ℚ} (hz : 2 ^ (-128 : Int) ≤ z) (hz' : z ≤ 2 ^ (149 : Int)) {r : Nat} {whole : Bool} {h : Int} (hf : FloorRoot z r whole h)
    (hr : 2 ^ 64 ≤ r) : fp32.NormalRoot z r whole h := by
  obtain ⟨hsig, hunit, -⟩ := fp32_top
  have hsq := (hf.le_iff (2 ^ 64)).1 hr
  have hwide := (hf.le_sticky_iff (2 ^ 64)).2 hsq
  rw [show ((2 ^ 64 : Nat) : ℚ) * 2 ^ h = 2 ^ (64 + h) by rw [zpow_add₀ two_ne_zero]; norm_num] at hsq hwide
  have hh : h ≤ 10 := by
    rw [← zpow_natCast, ← zpow_mul] at hsq
    have := (zpow_le_zpow_iff_right₀ one_lt_two).1 (hsq.trans hz')
    push_cast at this
    omega
  refine ⟨hf, le_trans (by decide) hr, ?_, ?_⟩
  · rw [show 1 - fp32.bias = -126 from rfl]
    rcases le_or_gt h (-126) with hlow | hhigh
    · rw [← one_mul (2 ^ (-126 : Int) : ℚ), ← Nat.cast_one, hf.le_iff_sq_le (multiple_of_le hlow 1)]
      exact le_trans (by norm_num) hz
    · exact (zpow_le_zpow_right₀ one_le_two (by omega)).trans hwide
  · rw [FpFormat.value_max fp32_regular, hsig, hunit, hf.le_iff_le_sq (multiple_of_le (by omega) _)]
    exact hz'.trans (by norm_num)

theorem fpRsq_nearest {a : Nat} (ha : fp32.finite a) (h0 : 0 < fp32.value a) : fp32.NearestRoot (1 / fp32.value a) (fpRsq a) := by
  obtain ⟨n, e, hn, hdec, hval⟩ := positive_fp32 ha h0
  obtain ⟨r, whole, h, hf, hr, hrsq⟩ := valRsq_fin hn e
  rw [← hval] at hf
  obtain ⟨hlow, hhigh⟩ := fp32_bounds ha h0
  rw [fpRsq, hdec, hrsq, finish_none]
  refine (normalRoot_fp32 ?_ ?_ hf hr).nearest fp32_regular
  · rw [le_div_iff₀ h0, zpow_neg, inv_mul_le_iff₀ (by positivity), mul_one]
    exact hhigh.le
  · rw [div_le_iff₀ h0, ← div_le_iff₀' (by positivity), one_div, ← zpow_neg]
    exact hlow

end Sys2Proof.Machine
end


section
/-!
SUPPORT. The element-wise vector instructions, all of them (spec/10 R246, R247; spec/06 R160).
-/

namespace Sys2Proof.Machine

open Sys2Proof

/-- VRSQ of a positive value, its middles compared with the operand itself. -/
theorem fpRsq_positive {a : Nat} (ha : fp32.finite a) (h0 : 0 < fp32.value a) :
    fp32.finite (fpRsq a).1 ∧ 0 < fp32.value (fpRsq a).1 ∧ (fpRsq a).2 = flagIf (fp32.value (fpRsq a).1 ^ 2 * fp32.value a ≠ 1) flagNX ∧
      ∀ y : Nat, fp32.finite y → 0 ≤ fp32.value y →
        (fp32.value y < fp32.value (fpRsq a).1 → ((fp32.value y + fp32.value (fpRsq a).1) / 2) ^ 2 * fp32.value a ≤ 1) ∧
        (fp32.value (fpRsq a).1 < fp32.value y → 1 ≤ ((fp32.value y + fp32.value (fpRsq a).1) / 2) ^ 2 * fp32.value a) := by
  obtain ⟨hfin, hpos, hflag, hmid⟩ := fpRsq_nearest ha h0
  refine ⟨hfin, hpos, ?_, fun y hy hy0 => ?_⟩
  · rw [hflag, decide_eq_decide.2 (not_congr (eq_div_iff h0.ne'))]
  · rw [← le_div_iff₀ h0, ← div_le_iff₀ h0]
    exact hmid y hy hy0

/-- Of a well-formed instruction, the check of its format. -/
theorem VecFmt.fmt_of_wellFormed {f : VecFmt} {i : Instr} {rd ra rb pd pa pb : Bool} {fs gs : Nat → Bool}
    (h : i.wellFormed = true) (hi : i.check = f.check rd ra rb pd pa pb fs gs) : fs f.fmt.toNat = true :=
  (VecFmt.formats_of_check (hi.symm.trans (Instr.check_of_wellFormed h))).1

/-- Settles O22: each element is the operation on the elements of the sources, in integers or in floating point; the reciprocal rounds an exact quotient, its
root lies on the exact one's side of every middle, and an integer power or logarithm is exact before its rounding. -/
theorem vectorElements : Obligations.VectorElements := by
  unfold Obligations.VectorElements
  refine ⟨fun f s => ?_, fun a h g hg => transcendental_nan h hg, fun m => ?_, fun a ha => ?_⟩
  · refine ⟨fun hw hr _ => ?_, fun hw hr _ => ?_, fun hw hr _ => ?_, fun hw hr _ => ?_, fun hw hr _ => ?_, fun hw hr _ => ?_, fun hw hr _ => ?_,
      fun hw hr _ => ?_, fun hw hr _ => ?_, fun hw hr _ => ?_, fun hw hr _ => ?_, fun hw hr _ => ?_, fun hw hr _ => ?_, fun hw hr _ => ?_,
      fun hw hr _ => ?_, fun hw hr _ => ?_, fun hw hr _ => ?_, fun hw hr _ => ?_, fun hw hr _ => ?_, fun _ hr hu => ?_, fun _ hr hu => ?_,
      fun _ hr hu => ?_⟩
    · exact byKind_writes (g := (· + ·)) (h := fpAdd) hr (VecFmt.fmt_of_wellFormed hw rfl) fun _ _ hfp => finish_lt_elem hfp _
    · exact byKind_writes (g := (· - ·)) (h := fpSub) hr (VecFmt.fmt_of_wellFormed hw rfl) fun _ _ hfp => finish_lt_elem hfp _
    · exact byKind_writes (g := (· * ·)) (h := fpMul) hr (VecFmt.fmt_of_wellFormed hw rfl) fun _ _ hfp => finish_lt_elem hfp _
    · exact execVmin_writes hr (VecFmt.fmt_of_wellFormed hw rfl)
    · exact execVmax_writes hr (VecFmt.fmt_of_wellFormed hw rfl)
    · exact execVfma_writes hr (VecFmt.fmt_of_wellFormed hw rfl)
    · exact execVdiv_writes hr (VecFmt.fmt_of_wellFormed hw rfl)
    · exact satElem_writes hr (· + ·)
    · exact satElem_writes hr (· - ·)
    · exact execVcmpeq_writes hr (VecFmt.fmt_of_wellFormed hw rfl)
    · exact cmpElem_writes (g := fun a b => a < b) (h := fpCmpLt) hr (fun _ => rfl) (VecFmt.fmt_of_wellFormed hw rfl)
    · exact cmpElem_writes (g := fun a b => a ≤ b) (h := fpCmpLe) hr (fun _ => rfl) (VecFmt.fmt_of_wellFormed hw rfl)
    · exact execVsqrt_writes hr (VecFmt.fmt_of_wellFormed hw rfl)
    · exact execVabs_writes hr (VecFmt.fmt_of_wellFormed hw rfl)
    · exact execVneg_writes hr (VecFmt.fmt_of_wellFormed hw rfl)
    · exact fp32_writes hr (VecFmt.fmt_of_wellFormed hw rfl) valRcp
    · exact fp32_writes hr (VecFmt.fmt_of_wellFormed hw rfl) valRsq
    · exact fp32_writes hr (VecFmt.fmt_of_wellFormed hw rfl) valExp2
    · exact fp32_writes hr (VecFmt.fmt_of_wellFormed hw rfl) valLog2
    · exact execVshl_writes hr hu
    · exact execVshr_writes hr hu
    · exact execVsar_writes hr hu
  · obtain ⟨hrcp0, hrsq0, hexp0, hlog0⟩ := transcendental_zero m
    obtain ⟨hrcp, hrsq, hexp, hlog⟩ := transcendental_infinity m
    exact ⟨hrcp0, hrsq0, hexp0, hlog0, hrcp, hrsq, hexp, hlog⟩
  · exact ⟨fpRcp_rounds ha, fun h0 => ⟨fpRsq_negative ha h0, fpLog2_negative ha h0⟩, fpRsq_positive ha,
      fun i => ⟨fpExp2_int ha, fpLog2_power ha⟩⟩

end Sys2Proof.Machine
end


section
/-!
SUPPORT. VCVT (spec/10 R248; spec/06 R155): the elements of its row, wider, as wide, or narrower than those of the source.
-/

namespace Sys2Proof.Machine

open Sys2Proof

/-- A converted element fits the format it is converted to. -/
theorem convert_lt_elem {dst src b : Nat} (hd : dst ≤ 7) (hb : b < 2 ^ elemWidth src) : (convert dst src b).1 < 2 ^ elemWidth dst := by
  unfold convert
  split
  · next h =>
    rw [h]
    exact hb
  · have hmod (i m : Int) (hm : 0 < m) : ((i % m).toNat : Int) < m := by
      rw [Int.toNat_of_nonneg (Int.emod_nonneg _ hm.ne')]
      exact Int.emod_lt_of_pos _ hm
    obtain _ | _ | d := dst
    · exact_mod_cast hmod _ 256 (by norm_num)
    · exact_mod_cast hmod _ 4294967296 (by norm_num)
    · have hfp : isFp (d + 2) = true := by
        rw [isFp, Bool.and_eq_true, decide_eq_true_eq, decide_eq_true_eq]
        omega
      exact roundTo_lt_elem hfp _

/-- The elements of a list that are replaced from `p` on. -/
theorem getD_replaced {olds rs : List Nat} {p k i : Nat} (hk : rs.length = k) (hp : p + k ≤ olds.length) :
    (olds.take p ++ rs ++ olds.drop (p + k)).getD i 0 = if p ≤ i ∧ i < p + k then rs.getD (i - p) 0 else olds.getD i 0 := by
  subst hk
  have htake : (olds.take p).length = p := List.length_take_of_le (by omega)
  simp only [List.getD_eq_getElem?_getD, List.append_assoc]
  rcases lt_or_ge i p with h | h
  · rw [List.getElem?_append_left (by omega), List.getElem?_take_of_lt h, if_neg (by omega)]
  · rw [List.getElem?_append_right (by omega), htake]
    rcases lt_or_ge i (p + rs.length) with h' | h'
    · rw [List.getElem?_append_left (by omega), if_pos ⟨h, h'⟩]
    · rw [List.getElem?_append_right (by omega), List.getElem?_drop, if_neg (by omega)]
      congr 2
      omega

/-- The parts of a row: as many as the narrower elements are in a wider one, and together a row. -/
theorem cvtRatio_mul (c d : Nat) : cvtRatio c d * (256 / max (elemWidth d) (elemWidth c)) = 256 / min (elemWidth d) (elemWidth c) := by
  rw [cvtRatio, ← elemWidth, ← elemWidth]
  obtain h | h | h | h := elemWidth_cases c <;> obtain h' | h' | h' | h' := elemWidth_cases d <;> rw [h, h'] <;> rfl

/-- A part of a row lies in it. -/
theorem part_le {c d part : Nat} (h : part < cvtRatio c d) :
    part * (256 / max (elemWidth d) (elemWidth c)) + 256 / max (elemWidth d) (elemWidth c) ≤ 256 / min (elemWidth d) (elemWidth c) := by
  rw [← cvtRatio_mul c d, ← Nat.succ_mul]
  exact Nat.mul_le_mul_right _ h

/-- A row in which elements replace those from `p` on. -/
theorem replaced_row {c p k : Nat} {rs : List Nat} (hk : rs.length = k) (hp : p + k ≤ 256 / elemWidth c) (hrs : ∀ i, i < k → rs.getD i 0 < 2 ^ elemWidth c)
    (old : Nat) :
    let new := (rowElems (elemWidth c) (256 / elemWidth c) old).take p ++ rs ++ (rowElems (elemWidth c) (256 / elemWidth c) old).drop (p + k)
    rowOf (elemWidth c) new < 2 ^ 256 ∧ ∀ i, i < 256 / elemWidth c → lane (elemWidth c) (rowOf (elemWidth c) new) i =
      if p ≤ i ∧ i < p + k then rs.getD (i - p) 0 else lane (elemWidth c) old i := by
  have hlen : (rowElems (elemWidth c) (256 / elemWidth c) old).length = 256 / elemWidth c := by simp [rowElems]
  intro new
  refine ⟨rowOf_lt_row ?_, fun i hi => ?_⟩
  · rw [List.length_append, List.length_append, List.length_take, List.length_drop, hlen, hk, min_eq_left (by omega)]
    omega
  · have helem := getD_replaced (i := i) hk (hp.trans_eq hlen.symm)
    rw [rowElems_getD hi] at helem
    rw [← helem]
    refine lane_rowOf_of_lt ?_
    rw [helem]
    split
    · exact hrs _ (by omega)
    · exact lane_lt ..

/-- Converted elements of a row. -/
theorem map_convert_rowElems (dst src ws k a : Nat) :
    (rowElems ws k a).map (convert dst src) = (List.range k).map fun i => convert dst src (lane ws a i) := by
  rw [rowElems_eq, List.map_map]
  rfl

section
variable {dst src part : Nat} (hd : dst ≤ 7) (hpart : part < cvtRatio dst src) (old a : Nat)
include hd hpart

/-- Narrower elements take a part of the row, and the other elements stay. -/
theorem cvtRow_narrow (hw : elemWidth dst < elemWidth src) :
    ∃ x : Nat, x < 2 ^ 256 ∧
      (∀ i, i < 256 / elemWidth dst → lane (elemWidth dst) x i =
        if part * (256 / elemWidth src) ≤ i ∧ i < part * (256 / elemWidth src) + 256 / elemWidth src
        then (convert dst src (lane (elemWidth src) a (i - part * (256 / elemWidth src)))).1 else lane (elemWidth dst) old i) ∧
      cvtRow (elemWidth dst) (elemWidth src) dst src part old a =
        { row := some x, scalar := none
          flags := (List.range (256 / elemWidth src)).foldl (fun fl i => fl ||| (convert dst src (lane (elemWidth src) a i)).2) 0 } := by
  have hle := part_le hpart
  rw [max_eq_left hw.le, min_eq_right hw.le] at hle
  have hconv : ∀ i, i < 256 / elemWidth src → (((List.range (256 / elemWidth src)).map fun i => convert dst src (lane (elemWidth src) a i)).map (·.1)).getD i 0 =
      (convert dst src (lane (elemWidth src) a i)).1 := fun i hi => by
    rw [List.map_map, range_map_getD _ hi]
    rfl
  obtain ⟨hlt, hlane⟩ := replaced_row (by simp) hle (fun i hi => (hconv i hi).trans_lt (convert_lt_elem hd (lane_lt ..))) old
  refine ⟨_, hlt, fun i hi => ?_, ?_⟩
  · rw [hlane i hi]
    split
    · exact hconv _ (by omega)
    · rfl
  · rw [cvtRow]
    dsimp only
    rw [if_pos hw, max_eq_left hw.le, map_convert_rowElems, List.foldl_map]

/-- Elements as wide or wider are those of a part of the source. -/
theorem cvtRow_widen (hw : ¬elemWidth dst < elemWidth src) :
    ∃ x : Nat, x < 2 ^ 256 ∧
      (∀ i, i < 256 / elemWidth dst → lane (elemWidth dst) x i = (convert dst src (lane (elemWidth src) a (part * (256 / elemWidth dst) + i))).1) ∧
      cvtRow (elemWidth dst) (elemWidth src) dst src part old a =
        { row := some x, scalar := none
          flags := (List.range (256 / elemWidth dst)).foldl (fun fl i => fl ||| (convert dst src (lane (elemWidth src) a (part * (256 / elemWidth dst) + i))).2) 0 } := by
  have hle := part_le hpart
  rw [max_eq_right (not_lt.1 hw), min_eq_left (not_lt.1 hw)] at hle
  have htake : ((rowElems (elemWidth src) (256 / elemWidth src) a).drop (part * (256 / elemWidth dst))).take (256 / elemWidth dst) =
      (List.range (256 / elemWidth dst)).map fun i => lane (elemWidth src) a (part * (256 / elemWidth dst) + i) := by
    refine List.ext_getElem (by simp [rowElems]; omega) fun i h1 h2 => ?_
    simp [rowElems_eq]
  obtain ⟨x, hx, hlane, hjoin⟩ := joinElems_range (c := dst)
    (g := fun i => convert dst src (lane (elemWidth src) a (part * (256 / elemWidth dst) + i))) fun i _ => convert_lt_elem hd (lane_lt ..)
  refine ⟨x, hx, hlane, ?_⟩
  rw [cvtRow]
  dsimp only
  rw [if_neg hw, max_eq_right (not_lt.1 hw), htake, List.map_map]
  exact hjoin

end

/-- A well-formed VCVT: the codes of both formats, and its part. -/
theorem vcvt_wellFormed {f : VecFmt} (h : (Instr.vcvt f).wellFormed = true) :
    f.fmt.toNat ≤ 7 ∧ f.rd.toNat < 8 ∧ f.rd.toNat < cvtRatio f.fmt.toNat f.fmt2.toNat := by
  have hcheck := Instr.check_of_wellFormed h
  rw [Instr.check, firstError_eq_none] at hcheck
  have hfmt := (VecFmt.formats_of_check (hcheck _ (List.mem_cons_self ..))).1
  have hreserved : reject .reservedField (8 ≤ f.rd.toNat) = none := hcheck _ (by simp)
  have hpart : reject .part (cvtRatio f.fmt.toNat f.fmt2.toNat ≤ f.rd.toNat) = none := hcheck _ (by simp)
  rw [reject_eq_none, decide_eq_false_iff_not, not_le] at hreserved hpart
  exact ⟨by simpa [isConv] using hfmt, hreserved, hpart⟩

end Sys2Proof.Machine
end


section
/-!
SUPPORT. Conversions and quantisations as instructions (spec/10 R248-R250; spec/06 R155-R157): their rows and scalars.
-/

namespace Sys2Proof.Machine

open Sys2Proof

/-- The element that VCVT converts for place `i`. -/
def cvtFrom (dst src part a i : Nat) : Nat × Flags :=
  convert dst src (lane (elemWidth src) a (if elemWidth dst < elemWidth src then i else part * (256 / max (elemWidth src) (elemWidth dst)) + i))

/-- The row of VCVT. -/
theorem cvtRow_spec {dst src part : Nat} (hd : dst ≤ 7) (hpart : part < cvtRatio dst src) (old a : Nat) :
    let k := 256 / max (elemWidth src) (elemWidth dst)
    ∃ x : Nat, x < 2 ^ 256 ∧
      (∀ i, i < 256 / elemWidth dst → lane (elemWidth dst) x i =
        if elemWidth dst < elemWidth src then
          (if part * k ≤ i ∧ i < part * k + k then (cvtFrom dst src part a (i - part * k)).1 else lane (elemWidth dst) old i) else (cvtFrom dst src part a i).1) ∧
      cvtRow (elemWidth dst) (elemWidth src) dst src part old a =
        { row := some x, scalar := none, flags := (List.range k).foldl (fun fl i => fl ||| (cvtFrom dst src part a i).2) 0 } := by
  dsimp only
  by_cases h : elemWidth dst < elemWidth src
  · simp only [cvtFrom, if_pos h, max_eq_left h.le]
    exact cvtRow_narrow hd hpart old a h
  · simp only [cvtFrom, if_neg h, max_eq_right (not_lt.1 h)]
    exact cvtRow_widen hd hpart old a h

theorem execVcvt_ok {s : State} {f : VecFmt} (hrd : f.rd.toNat < 8) (hr : s.vecReady f [ptrD f, ptrA f] = true) :
    execVcvt f s = .next (s.vecEffect f.rd f.pd [ptrD f, ptrA f] ([ptrD f, ptrA f].flatMap fun p => p.rowList s.cur)
      (cvtRow (elemWidth f.fmt.toNat) (elemWidth f.fmt2.toNat) f.fmt.toNat f.fmt2.toNat f.rd.toNat (s.rowD f) (s.rowA f))) := by
  have hexec := State.vecOp_ok (dsts := []) (srcs := []) rfl hr fun s =>
    cvtRow (elemWidth f.fmt.toNat) (elemWidth f.fmt2.toNat) f.fmt.toNat f.fmt2.toNat (cvtPart f) (s.rowD f) (s.rowA f)
  rw [cvtPart, Nat.mod_eq_of_lt hrd] at hexec
  rw [execVcvt, cvtPart, Nat.mod_eq_of_lt hrd]
  exact hexec

/-! ### Blocks in an MX format (R249) -/

/-- The codes of MX formats have sound formats, of their width. -/
theorem mx_format {c : Nat} (hc : Sys2Proof.isMx c = true) : (fpOf c).Sound ∧ (fpOf c).width = elemWidth c ∧
    elemWidth c * (32 * if c = 10 then 2 else 1) = 256 := by
  have h : 8 ≤ c ∧ c ≤ 10 := by simpa [Sys2Proof.isMx] using hc
  obtain ⟨h8, h10⟩ := h
  interval_cases c
  · exact ⟨(fpOf_sound (c := 5) rfl).1, rfl, rfl⟩
  · exact ⟨(fpOf_sound (c := 6) rfl).1, rfl, rfl⟩
  · exact ⟨(fpOf_sound (c := 7) rfl).1, rfl, rfl⟩

theorem quantMx_length (c : Nat) (vs : List Val) : (quantMx c vs).2.1.length = vs.length := by
  unfold quantMx
  dsimp only
  split <;> simp

theorem satInt_byte (i : Int) : (satInt i 0 254).toNat < 256 := by
  unfold satInt
  split_ifs <;> omega

/-- The scale of a block is a byte. -/
theorem quantMx_scale_lt (c : Nat) (vs : List Val) : (quantMx c vs).1 < 256 := by
  unfold quantMx
  split
  · exact show 255 < 256 by norm_num
  · show mxScale c vs < 256
    unfold mxScale
    dsimp only
    split
    · decide
    · exact satInt_byte _

/-- The codes of a block fit their width. -/
theorem quantMx_code_lt {c : Nat} (hc : Sys2Proof.isMx c = true) (vs : List Val) : ∀ x ∈ (quantMx c vs).2.1, x < 2 ^ elemWidth c := by
  obtain ⟨hsound, hwidth, -⟩ := mx_format hc
  unfold quantMx
  split
  · intro x hx
    obtain ⟨v, -, rfl⟩ := List.mem_map.1 hx
    exact Nat.two_pow_pos _
  · intro x hx
    simp only [List.map_map, List.mem_map] at hx
    obtain ⟨v, -, rfl⟩ := hx
    rw [← hwidth]
    exact roundTo_lt hsound _

section
variable {b : Nat → List Nat} {m n : Nat} (hb : ∀ j, j < n → (b j).length = m)
include hb

theorem length_flatMap_range : ((List.range n).flatMap b).length = m * n := by
  have hmap : (List.range n).map (fun j => (b j).length) = List.replicate n m :=
    List.eq_replicate_iff.2 ⟨by simp, by simpa using hb⟩
  rw [List.length_flatMap, hmap, List.sum_replicate, smul_eq_mul, mul_comm]

/-- The elements of blocks of equal length, side by side. -/
theorem getD_flatMap_range {j i : Nat} (hj : j < n) (hi : i < m) : ((List.range n).flatMap b).getD (m * j + i) 0 = (b j).getD i 0 := by
  induction n with
  | zero => exact absurd hj (Nat.not_lt_zero j)
  | succ n ih =>
    have hlen := length_flatMap_range fun j hj => hb j (Nat.lt_succ_of_lt hj)
    specialize ih fun j hj => hb j (Nat.lt_succ_of_lt hj)
    simp only [List.range_succ, List.flatMap_append, List.flatMap_singleton, List.getD_eq_getElem?_getD] at ih ⊢
    rcases Nat.lt_succ_iff_lt_or_eq.1 hj with h | rfl
    · have : m * (j + 1) ≤ m * n := Nat.mul_le_mul_left m h
      rw [List.getElem?_append_left (by rw [hlen]; linarith [mul_add_one m j]), ih h]
    · rw [List.getElem?_append_right (by omega), hlen, Nat.add_sub_cancel_left]

end

theorem getD_lt {xs : List Nat} {m : Nat} (hm : 0 < m) (h : ∀ x ∈ xs, x < m) (i : Nat) : xs.getD i 0 < m := by
  rw [List.getD_eq_getElem?_getD]
  cases hx : xs[i]? with
  | none => exact hm
  | some x => exact h x (List.mem_of_getElem? hx)

section
variable {s : State} {f : VecFmt}

theorem State.valuesAt_length (n : Nat) : (s.valuesAt f n).length = n := by simp [State.valuesAt, rowElems]

/-- Block `j` of the values that VQMX quantises. -/
def State.mxBlock (s : State) (f : VecFmt) (blocks j : Nat) : Nat × List Nat × Flags :=
  quantMx f.fmt.toNat (((s.valuesAt f (32 * blocks)).drop (32 * j)).take 32)

theorem State.mxBlock_length {blocks j : Nat} (hj : j < blocks) : (s.mxBlock f blocks j).2.1.length = 32 := by
  rw [State.mxBlock, quantMx_length, List.length_take, List.length_drop, State.valuesAt_length]
  omega

/-- VQMX writes the codes of its blocks, and their scales. -/
theorem execVqmx_writes (hw : (Instr.vqmx f).wellFormed = true) (hu : s.usable [f.rd] = true) :
    let blocks := if f.fmt.toNat = 10 then 2 else 1
    let ps := [ptrD f, { ptrA f with rows := blocks * elemWidth f.fmt2.toNat / 8 }]
    s.vecReady f ps = true →
    ∃ x v : Nat, x < 2 ^ 256 ∧ v < 256 ^ blocks ∧
      (∀ j i, j < blocks → i < 32 → lane 8 v j = (s.mxBlock f blocks j).1 ∧
        lane (elemWidth f.fmt.toNat) x (32 * j + i) = (s.mxBlock f blocks j).2.1.getD i 0) ∧
      execVqmx f s = .next (s.vecEffect f.rd f.pd ps (ps.flatMap fun p => p.rowList s.cur)
        { row := some x, scalar := some (BitVec.ofNat 64 v), flags := (List.range blocks).foldl (fun fl j => fl ||| (s.mxBlock f blocks j).2.2) 0 }) := by
  have hmx : Sys2Proof.isMx f.fmt.toNat = true := VecFmt.fmt_of_wellFormed hw rfl
  obtain ⟨-, -, hrow⟩ := mx_format hmx
  intro blocks ps hr
  have hrows : 32 * blocks * elemWidth f.fmt2.toNat / 256 = blocks * elemWidth f.fmt2.toNat / 8 := by
    rw [mul_assoc, show 256 = 32 * 8 by norm_num, Nat.mul_div_mul_left _ _ (by norm_num)]
  have hlength : ∀ j, j < blocks → (s.mxBlock f blocks j).2.1.length = 32 := fun j hj => State.mxBlock_length hj
  refine ⟨rowOf (elemWidth f.fmt.toNat) ((List.range blocks).flatMap fun j => (s.mxBlock f blocks j).2.1),
    rowOf 8 ((List.range blocks).map fun j => (s.mxBlock f blocks j).1), ?_, ?_, fun j i hj hi => ⟨?_, ?_⟩, ?_⟩
  · have h := rowOf_lt (elemWidth f.fmt.toNat) ((List.range blocks).flatMap fun j => (s.mxBlock f blocks j).2.1)
    rwa [length_flatMap_range hlength, hrow] at h
  · have h := rowOf_lt 8 ((List.range blocks).map fun j => (s.mxBlock f blocks j).1)
    rwa [List.length_map, List.length_range, pow_mul] at h
  · rw [lane_rowOf_of_lt] <;> rw [range_map_getD _ hj]
    exact quantMx_scale_lt ..
  · rw [lane_rowOf_of_lt] <;> rw [getD_flatMap_range hlength hj hi]
    exact getD_lt (Nat.two_pow_pos _) (quantMx_code_lt hmx _) i
  · rw [execVqmx]
    dsimp only
    rw [hrows]
    refine (State.vecOp_ok (dsts := [f.rd]) (srcs := []) hu hr _).trans (congrArg (fun out => Host.Outcome.next (s.vecEffect f.rd f.pd ps _ out)) ?_)
    rw [List.flatMap_map, List.map_map, List.foldl_map]
    rfl

end

/-! ### Blocks in QB4 (R250) -/

/-- The magnitudes of QB4 are eight. -/
theorem qb4Nearest_lt (a u : Nat) : qb4Nearest a u < 8 := by
  unfold qb4Nearest
  refine List.foldlRecOn (motive := fun b => b < 8) (List.range 8) _ (by norm_num) fun b hb i hi => ?_
  dsimp only
  split
  · exact List.mem_range.1 hi
  · exact hb

theorem qb4_code_lt (n : Bool) {i : Nat} (hi : i < 8) : bitAt n 3 + i < 2 ^ 4 := by
  have := bitAt_le n 3
  omega

theorem quantQb4_codes (S : Val) (vs : List Val) : (quantQb4 S vs).2.1.length = vs.length ∧ ∀ x ∈ (quantQb4 S vs).2.1, x < 2 ^ 4 := by
  unfold quantQb4
  dsimp only
  refine ⟨by simp, fun x hx => ?_⟩
  simp only [List.map_map, List.mem_map] at hx
  obtain ⟨v, -, rfl⟩ := hx
  cases v with
  | nan => exact show 7 < 2 ^ 4 by norm_num
  | inf n => exact qb4_code_lt n (by norm_num)
  | fin n => exact qb4_code_lt n (qb4Nearest_lt _ _)

section
variable {s : State} {f : VecFmt}

/-- A group scale that VQB4 takes: finite and above 0. -/
def goodScale (S : Val) : Bool := match S with | .fin n a _ _ => !n && a ≠ 0 | _ => false

/-- The group scale of VQB4. -/
def State.groupScale (s : State) (f : VecFmt) : Val := fpDecode fp32 ((s.opB f.ra f.lit).toNat % 2 ^ 32)

theorem execVqb4_eq : execVqb4 f s = s.vecOp f [f.rd] (regB f.ra f.lit) [ptrD f, { ptrA f with rows := elemWidth f.fmt2.toNat / 4 }] (goodScale (s.groupScale f))
    fun s => { row := some (rowOf 4 (quantQb4 (s.groupScale f) (s.valuesAt f 64)).2.1), scalar := some (wordOfNat (quantQb4 (s.groupScale f) (s.valuesAt f 64)).1),
               flags := (quantQb4 (s.groupScale f) (s.valuesAt f 64)).2.2 } := by
  rw [show elemWidth f.fmt2.toNat / 4 = 64 * elemWidth f.fmt2.toNat / 256 by omega]
  unfold execVqb4 State.groupScale State.vecA low32
  dsimp only [vecSrcA]
  rfl

/-- VQB4 writes its codes and q, or traps under a bad group scale. -/
theorem execVqb4_outcome (hu : s.usable (f.rd :: regB f.ra f.lit) = true) :
    let ps := [ptrD f, { ptrA f with rows := elemWidth f.fmt2.toNat / 4 }]
    let q := quantQb4 (s.groupScale f) (s.valuesAt f 64)
    s.vecReady f ps = true →
    (goodScale (s.groupScale f) = true → ∃ x : Nat, x < 2 ^ 256 ∧ (∀ i, i < 64 → lane 4 x i = q.2.1.getD i 0) ∧
      execVqb4 f s = .next (s.vecEffect f.rd f.pd ps (ps.flatMap fun p => p.rowList s.cur)
        { row := some x, scalar := some (BitVec.ofNat 64 q.1), flags := q.2.2 })) ∧
    (goodScale (s.groupScale f) = false → execVqb4 f s = .next (s.raise 0x01 s.word0)) := by
  intro ps q hr
  obtain ⟨hlen, hcode⟩ := quantQb4_codes (s.groupScale f) (s.valuesAt f 64)
  refine ⟨fun hgood => ⟨rowOf 4 q.2.1, ?_, fun i _ => ?_, ?_⟩, fun hbad => ?_⟩
  · have h := rowOf_lt 4 q.2.1
    rwa [show q.2.1.length = 64 from hlen.trans (State.valuesAt_length _)] at h
  · exact lane_rowOf_of_lt (getD_lt (by norm_num) hcode i)
  · rw [execVqb4_eq, hgood]
    exact State.vecOp_ok (dsts := [f.rd]) hu hr _
  · rw [execVqb4_eq, hbad]
    exact State.vecOp_bad (dsts := [f.rd]) hu hr _

end

end Sys2Proof.Machine
end


section
/-!
SUPPORT. Reductions of a row, and masked reductions of several (spec/10 R251, R252; spec/06 R159, R161).
-/

namespace Sys2Proof.Machine

open Sys2Proof

/-! ### Reductions of a row (R251) -/

/-- An integer result, wrapped and sign-extended. -/
theorem redInt_eq (w : Nat) (i : Int) : redInt w i = (BitVec.ofInt w i).signExtend 64 := by
  rw [redInt, wordOfInt_sext_ofNat, wrapTo_ofInt, BitVec.ofNat_toNat, BitVec.setWidth_eq]

/-- The least of a list of integers. -/
theorem foldl_min_spec {xs : List Int} (h : xs ≠ []) : xs.foldl min (xs.headD 0) ∈ xs ∧ ∀ i ∈ xs, xs.foldl min (xs.headD 0) ≤ i := by
  obtain ⟨x, xs, rfl⟩ := List.exists_cons_of_ne_nil h
  rw [List.headD_cons, List.foldl_cons, min_self]
  exact List.min?_eq_some_iff.1 List.min?_cons'

/-- The greatest of a list of integers. -/
theorem foldl_max_spec {xs : List Int} (h : xs ≠ []) : xs.foldl max (xs.headD 0) ∈ xs ∧ ∀ i ∈ xs, i ≤ xs.foldl max (xs.headD 0) := by
  obtain ⟨x, xs, rfl⟩ := List.exists_cons_of_ne_nil h
  rw [List.headD_cons, List.foldl_cons, max_self]
  exact List.max?_eq_some_iff.1 List.max?_cons'

section
variable {s : State} {f : VecFmt}

/-- The elements of the row at PA in the source format, as integers and as values. -/
def State.redElems (s : State) (f : VecFmt) : List Nat :=
  (List.range (256 / elemWidth f.fmt2.toNat)).map fun i => lane (elemWidth f.fmt2.toNat) (s.rowA f) i
def State.redInts (s : State) (f : VecFmt) : List Int := (s.redElems f).map fun x => (BitVec.ofNat (elemWidth f.fmt2.toNat) x).toInt
def State.redVals (s : State) (f : VecFmt) : List Val := (s.redElems f).map (elemDecode f.fmt2.toNat)

theorem State.redInts_ne_nil : s.redInts f ≠ [] := by
  have hpos : 256 / elemWidth f.fmt2.toNat ≠ 0 := by
    obtain h | h | h | h := elemWidth_cases f.fmt2.toNat <;> rw [h] <;> norm_num
  rw [State.redInts, State.redElems, Ne, List.map_eq_nil_iff, List.map_eq_nil_iff, List.range_eq_nil]
  exact hpos

/-- The state after a reduction with an integer result, and with a floating-point one. -/
def State.reducedInt (s : State) (f : VecFmt) (i : Int) : State :=
  s.vecEffect f.rd f.pd [ptrA f] ((ptrA f).rowList s.cur) { row := none, scalar := some ((BitVec.ofInt (elemWidth f.fmt.toNat) i).signExtend 64), flags := 0 }
def State.reducedVal (s : State) (f : VecFmt) (g : Val → Val → Val × Flags) : State :=
  let r := redTree g (s.redVals f)
  let o := roundTo (fpOf f.fmt.toNat) r.1
  s.vecEffect f.rd f.pd [ptrA f] ((ptrA f).rowList s.cur) { row := none, scalar := some (BitVec.ofNat 64 o.1), flags := r.2 ||| o.2 }

/-- A reduction has the result of its kind. -/
theorem State.reduce_ok (hu : s.usable [f.rd] = true) (hr : s.vecReady f [ptrA f] = true) (gi : List Int → Int) (g : FpFormat → Val → Val → Val × Flags) :
    s.reduce f gi g = .next (if f.fmt.toNat < 2 then s.reducedInt f (gi (s.redInts f)) else s.reducedVal f (g (fpOf f.fmt.toNat))) := by
  have hints : (rowElems (elemWidth f.fmt2.toNat) (256 / elemWidth f.fmt2.toNat) (s.rowA f)).map (fun x => sext x (elemWidth f.fmt2.toNat)) = s.redInts f := by
    simp only [State.redInts, State.redElems, rowElems_eq, sext_ofNat]
  unfold State.reduce
  refine (State.vecOp_ok (dsts := [f.rd]) (srcs := []) hu hr _).trans ?_
  dsimp only
  rw [hints, redInt_eq, List.flatMap_singleton]
  split
  · rfl
  · rfl

section
variable (hu : s.usable [f.rd] = true) (hr : s.vecReady f [ptrA f] = true)
include hu hr

theorem execVredsum_ok : execVredsum f s =
    .next (if f.fmt.toNat < 2 then s.reducedInt f (s.redInts f).sum else s.reducedVal f (redAdd (fpOf f.fmt.toNat))) := State.reduce_ok hu hr _ _

theorem execVredmin_int (h : f.fmt.toNat < 2) : execVredmin f s = .next (s.reducedInt f ((s.redInts f).foldl min ((s.redInts f).headD 0))) := by
  rw [execVredmin, State.reduce_ok hu hr, if_pos h]

theorem execVredmin_val (h : ¬f.fmt.toNat < 2) : execVredmin f s = .next (s.reducedVal f (redPick false)) := by
  rw [execVredmin, State.reduce_ok hu hr, if_neg h]

theorem execVredmax_int (h : f.fmt.toNat < 2) : execVredmax f s = .next (s.reducedInt f ((s.redInts f).foldl max ((s.redInts f).headD 0))) := by
  rw [execVredmax, State.reduce_ok hu hr, if_pos h]

theorem execVredmax_val (h : ¬f.fmt.toNat < 2) : execVredmax f s = .next (s.reducedVal f (redPick true)) := by
  rw [execVredmax, State.reduce_ok hu hr, if_neg h]

end

end

/-! ### Masked reductions (R252) -/

section
variable {s : State} {f : VecFmt}

/-- The count, the stride and the contributors of a masked reduction. -/
def State.maskCount (s : State) (f : VecFmt) : Nat := ((s.opB f.ra f.lit).extractLsb' 0 7).toNat
def State.maskStride (s : State) (f : VecFmt) : Nat := ((s.opB f.ra f.lit).extractLsb' 16 16).toNat
def State.maskOffs (s : State) (f : VecFmt) : List Nat :=
  ((List.range (s.maskCount f)).filter fun j => (s.reg f.rb).getLsbD j).map fun j => ptrOffset (s.cur.ptr f.pa) + j * s.maskStride f
/-- The rows it covers, and an element of its result. -/
def State.maskRows (s : State) (f : VecFmt) : List Nat := ptrOffset (s.cur.ptr f.pd) / 32 :: (s.maskOffs f).map (· / 32)
def State.maskElem (s : State) (f : VecFmt) (mean : Bool) (i : Nat) : Nat × Flags :=
  maskedReduce (fpOf f.fmt.toNat) mean (s.maskCount f)
    ((s.maskOffs f).map fun o => elemDecode f.fmt.toNat (lane (elemWidth f.fmt.toNat) (s.rows o 1) i))

/-- What a masked reduction asks of its operands. -/
structure State.MaskReady (s : State) (f : VecFmt) : Prop where
  usable : s.usable (f.rd :: f.rb :: regB f.ra f.lit) = true
  allows : s.allows f.pred f.neg = true
  alignD : ptrOffset (s.cur.ptr f.pd) % 32 = 0
  alignA : ptrOffset (s.cur.ptr f.pa) % 32 = 0
  bufD : ptrBuf (s.cur.ptr f.pd) = 0
  bufA : ptrBuf (s.cur.ptr f.pa) = 0
  endD : ptrOffset (s.cur.ptr f.pd) + 32 ≤ Config.abBytes
  count : s.maskCount f ≤ 64
  stride : s.maskStride f % 32 = 0
  ends : ∀ o ∈ s.maskOffs f, o + 32 ≤ Config.abBytes
  full : s.linesFull ((s.maskRows f).map (· / 4)) = true

theorem maskedReduce_lt {c : Nat} (hc : isFp c = true) (mean : Bool) (n : Nat) (xs : List Val) : (maskedReduce (fpOf c) mean n xs).1 < 2 ^ elemWidth c := by
  unfold maskedReduce
  split
  · exact Nat.two_pow_pos _
  · exact finish_lt_elem hc _

theorem find?_beyond_none {offs : List Nat} (h : ∀ o ∈ offs, o + 32 ≤ Config.abBytes) : offs.find? (fun o => Config.abBytes < o + 32) = none :=
  List.find?_eq_none.2 fun o ho => by
    rw [decide_eq_true_iff, not_lt]
    exact h o ho

/-- The elements of a masked reduction, from the rows of its contributors. -/
theorem State.maskElems_eq (s : State) (f : VecFmt) (mean : Bool) :
    ((List.range (256 / elemWidth f.fmt.toNat)).map fun i => maskedReduce (fpOf f.fmt.toNat) mean (s.maskCount f)
      (((s.maskOffs f).map fun o => rowElems (elemWidth f.fmt.toNat) (256 / elemWidth f.fmt.toNat) (s.rows o 1)).map
        fun es => elemDecode f.fmt.toNat (es.getD i 0))) =
      (List.range (256 / elemWidth f.fmt.toNat)).map (s.maskElem f mean) := by
  refine List.map_congr_left fun i hi => ?_
  have hget (x : Nat) : (rowElems (elemWidth f.fmt.toNat) (256 / elemWidth f.fmt.toNat) x).getD i 0 = lane (elemWidth f.fmt.toNat) x i :=
    rowElems_getD (List.mem_range.1 hi) 0
  simp only [State.maskElem, List.map_map, Function.comp_def, hget]

/-- A masked reduction whose operands are ready has its effect. -/
theorem State.maskedOp_ok (h : s.MaskReady f) (mean : Bool) : s.maskedOp f mean =
    .next (s.vecEffect f.rd f.pd [ptrD f, ptrA f] (s.maskRows f)
      { joinElems (elemWidth f.fmt.toNat) ((List.range (256 / elemWidth f.fmt.toNat)).map (s.maskElem f mean)) with
        scalar := some (BitVec.ofNat 64 ((s.maskOffs f).length * 256 + if s.maskOffs f = [] then 0 else 1)) }) := by
  have hn : slice (s.vecA f) 6 0 = s.maskCount f := slice_eq _ 6 0
  have hcs : slice (s.vecA f) 31 16 = s.maskStride f := slice_eq _ 31 16
  have hoffs : (((List.range (s.maskCount f)).filter fun j => bit (s.reg f.rb) j).map fun j => ptrOffset (s.cur.ptr f.pa) + j * s.maskStride f) =
    s.maskOffs f := rfl
  have hcount : ((List.range (s.maskCount f)).filter fun j => bit (s.reg f.rb) j).length = (s.maskOffs f).length := by rw [← hoffs, List.length_map]
  have hsrcs : ∀ q ∈ nums (f.rb :: vecSrcA f), q ∈ nums (f.rd :: f.rb :: vecSrcA f) := fun q hq => List.mem_cons_of_mem _ hq
  unfold State.maskedOp
  dsimp only
  rw [hn, hcs, hoffs]
  refine (State.perform_ok ?_).trans ?_
  · simp only [List.forall_mem_cons, List.not_mem_nil, false_imp_iff, implies_true, and_true]
    refine ⟨State.chkAllot_ok h.usable fun _ m => m, State.chkPred_ok h.allows, State.chkFull_ok h.usable hsrcs, State.chkAlign_ok h.alignD,
      State.chkAlign_ok h.alignA, State.chkRows_ok h.bufD (.inr h.endD), State.chkRows_ok h.bufA (.inl rfl), ?_, ?_, ?_, ?_, State.chkLines_ok h.full⟩
    · exact Check.need_eq_ok.2 (decide_eq_true h.count)
    · exact Check.need_eq_ok.2 (decide_eq_true h.stride)
    · rw [find?_beyond_none h.ends]
    · exact State.chkDest_ok h.usable fun q m => by
        rw [List.mem_singleton.1 m]
        exact List.mem_cons_self ..
  · rw [hcount, s.maskElems_eq f mean]
    simp only [List.length_eq_zero_iff]
    rfl

/-- The outcome of a masked reduction. -/
theorem State.maskedOp_writes (h : s.MaskReady f) (hc : isFp f.fmt.toNat = true) (mean : Bool) :
    ∃ x : Nat, x < 2 ^ 256 ∧ (∀ i, i < 256 / elemWidth f.fmt.toNat → lane (elemWidth f.fmt.toNat) x i = (s.maskElem f mean i).1) ∧
      s.maskedOp f mean = .next (s.vecEffect f.rd f.pd [ptrD f, ptrA f] (s.maskRows f)
        { row := some x, scalar := some (BitVec.ofNat 64 ((s.maskOffs f).length * 256 + if s.maskOffs f = [] then 0 else 1))
          flags := (List.range (256 / elemWidth f.fmt.toNat)).foldl (fun fl i => fl ||| (s.maskElem f mean i).2) 0 }) := by
  obtain ⟨x, hx, hlane, hjoin⟩ := joinElems_range (c := f.fmt.toNat) (g := s.maskElem f mean) fun i _ => maskedReduce_lt hc ..
  refine ⟨x, hx, hlane, ?_⟩
  rw [State.maskedOp_ok h, hjoin]

end

/-- The formats of a masked reduction are floating-point ones. -/
theorem isFp_of_isFp3 {c : Nat} (h : isFp3 c = true) : isFp c = true := by
  have h24 : 2 ≤ c ∧ c ≤ 4 := by simpa [isFp3] using h
  rw [isFp, Bool.and_eq_true, decide_eq_true_eq, decide_eq_true_eq]
  omega

/-- A group scale that is good, and one that is not. -/
theorem goodScale_iff {S : Val} : goodScale S = true ↔ ∃ m d e, S = .fin false m d e ∧ m ≠ 0 := by
  cases S with
  | nan | inf => simp [goodScale]
  | fin n m d e => cases n <;> simp [goodScale]

/-- Settles O25: VCVT by the width of its two formats, VQMX and VQB4 by their blocks, and the reductions by the kind of their result. -/
theorem vectorConversions : Obligations.VectorConversions := by
  unfold Obligations.VectorConversions
  intro f s
  refine ⟨fun hw hr => ?_, execVqmx_writes, fun _ hu hr => ?_, fun hu hr => ?_, fun hu hp halignD halignA hbufD hbufA hendD hcount hstride hends hfull => ?_⟩
  · obtain ⟨hd, hrd, hpart⟩ := vcvt_wellFormed hw
    obtain ⟨x, hx, hlane, hrow⟩ := cvtRow_spec hd hpart (s.rowD f) (s.rowA f)
    exact ⟨x, hx, hlane, (execVcvt_ok hrd hr).trans (by rw [hrow]; rfl)⟩
  · obtain ⟨hgood, hbad⟩ := execVqb4_outcome hu hr
    refine ⟨fun m d e hS hm => ?_, fun h => hbad (eq_false_of_ne_true fun hS => ?_)⟩
    · obtain ⟨x, hx, hlane, hexec⟩ := hgood (goodScale_iff.2 ⟨m, d, e, hS, hm⟩)
      exact ⟨x, hx, hlane, hexec⟩
    · obtain ⟨m, d, e, hfin, hm⟩ := goodScale_iff.1 hS
      exact hm (h m d e hfin)
  · obtain ⟨hmin, hle⟩ := foldl_min_spec (State.redInts_ne_nil (s := s) (f := f))
    obtain ⟨hmax, hge⟩ := foldl_max_spec (State.redInts_ne_nil (s := s) (f := f))
    exact ⟨fun _ => execVredsum_ok hu hr, fun _ => ⟨fun h => ⟨_, hmin, hle, execVredmin_int hu hr h⟩, execVredmin_val hu hr⟩,
      fun _ => ⟨fun h => ⟨_, hmax, hge, execVredmax_int hu hr h⟩, execVredmax_val hu hr⟩⟩
  · have hready : s.MaskReady f := ⟨hu, hp, halignD, halignA, hbufD, hbufA, hendD, hcount, hstride, hends, hfull⟩
    constructor
    · intro hw
      obtain ⟨x, hx, hlane, hexec⟩ := State.maskedOp_writes hready (isFp_of_isFp3 (VecFmt.fmt_of_wellFormed hw rfl)) false
      exact ⟨x, hx, hlane, hexec⟩
    · intro hw
      obtain ⟨x, hx, hlane, hexec⟩ := State.maskedOp_writes hready (isFp_of_isFp3 (VecFmt.fmt_of_wellFormed hw rfl)) true
      exact ⟨x, hx, hlane, hexec⟩

end Sys2Proof.Machine
end


section
/-!
SUPPORT. The issue of matrix instructions (spec/10 R254-R261): the checks of their operands, and the operation handed over.
-/

namespace Sys2Proof.Machine

open Sys2Proof

/-! ### Checks of offsets -/

theorem chkOff_ok {off w : Nat} (h : off % w = 0) : chkOff off w = .ok := by rw [chkOff, Check.need_eq_ok, decide_eq_true h]

theorem chkPtrAb_ok {p : W64} {n : Nat} (hb : ptrBuf p = 0) (h : n = 0 ∨ ptrOffset p + n ≤ Config.abBytes) : chkPtrAb p n = .ok := by
  rw [chkPtrAb, Check.need_eq_ok, decide_eq_true hb, Bool.true_and, ← Bool.decide_or, decide_eq_true h]

theorem chkWb_ok {off n : Nat} (h : n = 0 ∨ off + n ≤ Config.wbBytes) : chkWb off n = .ok := by
  rw [chkWb, Check.need_eq_ok, ← Bool.decide_or, decide_eq_true h]

/-! ### The operands of an MMA (R255, R256) -/

theorem ceilDiv_zero_left {b : Nat} (hb : 0 < b) : ceilDiv 0 b = 0 := by
  rw [ceilDiv, Nat.div_eq_zero_iff]
  omega

theorem perRow_pos (c : Nat) : 0 < perRow c := by
  obtain h | h | h | h := elemWidth_cases c <;> rw [perRow, ← elemWidth, h] <;> norm_num

/-- Operands of no elements take no bytes. -/
theorem spanA_zero (c : Nat) : spanA c 0 = 0 := by
  rw [spanA, ceilDiv_zero_left (perRow_pos c), ceilDiv_zero_left (by norm_num), Nat.zero_mul, ite_self]

theorem spanB_zero (c : Nat) : spanB c 0 = 0 := if_pos rfl

/-- The bits above K are clear exactly where the value is below 2^16. -/
theorem slice_high_eq_zero {a : W64} : slice a 63 16 = 0 ↔ a.toNat < 2 ^ 16 := by
  have := a.isLt
  rw [slice]
  omega

section
variable {s : State} {f : MatFmt}

theorem execMzero_ok (hp : s.allows f.pred f.neg = true) : execMzero f s =
    .next (((s.newOp (.mzero (if f.t then 1 else 0) f.expi.toInt) 0 0 .unbound [] none).2.handOver s.eng.nextOp).next) := by
  unfold execMzero
  refine (State.perform_ok ?_).trans ?_
  · rw [List.forall_mem_singleton]
    exact State.chkPred_ok hp
  · rw [sext_toNat]
    rfl

/-- K of an MMA. -/
def State.mmaK (s : State) (f : MatFmt) : Nat := ((s.opB f.ra f.lit).extractLsb' 0 16).toNat

theorem State.mmaK_eq : slice (s.opB f.ra f.lit) 15 0 = s.mmaK f := slice_quarter0 _

/-- What an MMA asks of its operands; `skip` is the register of its bitmap. -/
structure State.MmaReady (s : State) (f : MatFmt) (skip : List (BitVec 7)) : Prop where
  usable : s.usable (regB f.ra f.lit ++ f.rb :: skip) = true
  allows : s.allows f.pred f.neg = true
  alignA : ptrOffset (s.cur.ptr f.pa) % 32 = 0
  alignB : (s.reg f.rb).toNat % 64 = 0
  buf : ptrBuf (s.cur.ptr f.pa) = 0
  ends : s.mmaK f ≠ 0 → ptrOffset (s.cur.ptr f.pa) + spanA f.fmta.toNat (s.mmaK f) ≤ Config.abBytes ∧
    (s.reg f.rb).toNat + spanB f.fmtb.toNat (s.mmaK f) ≤ Config.wbBytes
  bitmap : ∀ r ∈ skip, s.mmaK f ≠ 0 → (s.reg r).toNat + ceilDiv (s.mmaK f) 8 ≤ Config.wbBytes
  full : s.linesFull (linesOf (ptrOffset (s.cur.ptr f.pa)) (spanA f.fmta.toNat (s.mmaK f))) = true

/-- The state after an MMA has handed its operation over: its context waits for it. -/
def State.mmaAsked (s : State) (f : MatFmt) (skip : Option Nat) : State :=
  let x := s.newOp (.mma (if f.t then 1 else 0) (ptrOffset (s.cur.ptr f.pa)) f.fmta.toNat f.fmtb.toNat (s.mmaK f) (s.reg f.rb).toNat skip
    (s.cur.pc + wordOfNat s.sched.slot.len)) 0 0 .unbound [] none
  (x.2.parkOn (.matrix x.1)).handOver x.1

variable {skip : List (BitVec 7)} (h : s.MmaReady f skip)
include h

/-- The checks of a ready MMA that come before that of its value. -/
theorem State.mmaChecks_ok :
    ∀ c ∈ [s.chkAllot (nums (regB f.ra f.lit ++ f.rb :: skip)), s.chkPred f.pred f.neg, s.chkFull (nums (regB f.ra f.lit ++ f.rb :: skip)),
        chkOff (ptrOffset (s.cur.ptr f.pa)) 32, chkOff (s.reg f.rb).toNat 64, chkPtrAb (s.cur.ptr f.pa) (spanA f.fmta.toNat (s.mmaK f)),
        chkWb (s.reg f.rb).toNat (spanB f.fmtb.toNat (s.mmaK f))] ++ (skip.map fun r => (s.reg r).toNat).map (fun o => chkWb o (ceilDiv (s.mmaK f) 8)),
      c = .ok := by
  simp only [List.forall_mem_append, List.forall_mem_cons, List.forall_mem_map, List.not_mem_nil, false_imp_iff, implies_true, and_true]
  refine ⟨⟨State.chkAllot_ok h.usable fun _ m => m, State.chkPred_ok h.allows, State.chkFull_ok h.usable fun _ m => m, chkOff_ok h.alignA, chkOff_ok h.alignB,
    chkPtrAb_ok h.buf ?_, chkWb_ok ?_⟩, fun r hr => chkWb_ok ?_⟩ <;> rcases eq_or_ne (s.mmaK f) 0 with hk | hk
  · exact .inl (by rw [hk, spanA_zero])
  · exact .inr (h.ends hk).1
  · exact .inl (by rw [hk, spanB_zero])
  · exact .inr (h.ends hk).2
  · exact .inl (by rw [hk, ceilDiv_zero_left (by norm_num)])
  · exact .inr (h.bitmap r hr hk)

theorem State.mmaIssue_ok (ha : (s.opB f.ra f.lit).toNat < 2 ^ 16) :
    s.mmaIssue f skip = .next (s.mmaAsked f (skip.map fun r => (s.reg r).toNat).head?) := by
  unfold State.mmaIssue
  dsimp only
  rw [State.mmaK_eq]
  refine (State.perform_ok ?_).trans rfl
  rw [List.forall_mem_append]
  refine ⟨State.mmaChecks_ok h, ?_⟩
  simp only [List.forall_mem_cons, List.not_mem_nil, false_imp_iff, implies_true, and_true]
  exact ⟨Check.need_eq_ok.2 (decide_eq_true (slice_high_eq_zero.2 ha)), State.chkLines_ok h.full⟩

theorem State.mmaIssue_bad (ha : 2 ^ 16 ≤ (s.opB f.ra f.lit).toNat) : s.mmaIssue f skip = .next (s.raise 0x01 s.word0) := by
  have hbad : s.chkValue (slice (s.opB f.ra f.lit) 63 16 = 0) = .trap 0x01 s.word0 := by
    rw [State.chkValue, decide_eq_false (mt slice_high_eq_zero.1 (not_lt.2 ha)), Check.need_false]
  unfold State.mmaIssue
  dsimp only
  rw [State.mmaK_eq]
  refine State.perform_trap ?_
  rw [Check.first_append (State.mmaChecks_ok h), hbad]
  rfl

end

/-- A drain whose operands are ready is issued. -/
theorem execMdrain_ok {s : State} {f : MatFmt} (hp : s.allows f.pred f.neg = true) (hu : s.usable (regB f.ra f.lit) = true)
    (halign : ptrOffset (s.cur.ptr f.pa) % 128 = 0) (hbuf : ptrBuf (s.cur.ptr f.pa) = 0)
    (hend : ptrOffset (s.cur.ptr f.pa) + 256 * fmtBits f.fmta.toNat ≤ Config.abBytes) (ha : s.goodAddr (s.opB f.ra f.lit) 8 = true) : execMdrain f s =
    .next (s.issueOp (.drain (if f.t then 1 else 0) (ptrOffset (s.cur.ptr f.pa)) f.fmta.toNat) f.scope (s.opB f.ra f.lit)
      (linesOf (ptrOffset (s.cur.ptr f.pa)) (256 * fmtBits f.fmta.toNat))).next := by
  obtain ⟨haddr, hpeer⟩ := State.goodAddr_checks ha
  unfold execMdrain
  dsimp only
  rw [haddr, hpeer]
  refine (State.perform_ok ?_).trans rfl
  simp only [List.forall_mem_cons, List.not_mem_nil, false_imp_iff, implies_true, and_true, true_and]
  exact ⟨State.chkAllot_ok hu fun _ m => m, State.chkPred_ok hp, State.chkFull_ok hu fun _ m => m, chkOff_ok halign, chkPtrAb_ok hbuf (.inr hend)⟩

/-- Settles O26: the checks of ready operands pass in their order, and K alone can refuse an MMA. -/
theorem matrixIssue : Obligations.MatrixIssue := by
  unfold Obligations.MatrixIssue
  intro f s hp
  refine ⟨execMzero_ok hp, fun hu hfits hfull => ?_, fun hu hfits hskip hfull => ?_, fun hu halign hbuf hend ha => execMdrain_ok hp hu halign hbuf hend ha⟩
  · obtain ⟨halignA, halignB, hbuf, hends⟩ := hfits
    have hready : s.MmaReady f [] := ⟨hu, hp, halignA, halignB, hbuf, hends, List.forall_mem_nil _, hfull⟩
    exact ⟨State.mmaIssue_ok hready, State.mmaIssue_bad hready⟩
  · obtain ⟨halignA, halignB, hbuf, hends⟩ := hfits
    have hready : s.MmaReady f [f.rd] := ⟨hu, hp, halignA, halignB, hbuf, hends, List.forall_mem_singleton.2 hskip, hfull⟩
    exact ⟨State.mmaIssue_ok hready, State.mmaIssue_bad hready⟩

end Sys2Proof.Machine
end


section
/-!
SUPPORT. Engines perform their operations (spec/10 R253-R261, spec/11 R272, R278, spec/12 R292): an operation taken over, and each engine's work on it.
-/

namespace Sys2Proof.Machine

open Sys2Proof

section
variable {s : State} {o : EngOp} (hop : s.op? o.id = some o) (hlive : o.state ≠ .ended)
include hop hlive

/-- An operation whose binding has been refused fails with that reason. -/
theorem State.takeOp_refused {sw : Nat} (hb : o.binding = .refused sw) (f : EngOp → State → State) : s.takeOp o.id f = s.failOp o sw o.bindVa := by
  rw [State.takeOp, hop]
  dsimp only
  rw [if_neg hlive, hb]

/-- Every engine fails an operation whose binding has been refused. -/
theorem engines_refused {sw : Nat} (hb : o.binding = .refused sw) (remote : List (Option W64)) :
    ∀ i ∈ [Instr.matrixMzeroPerform o.id, .matrixMmaPerform o.id, .matrixDrainPerform o.id, .copyOperation o.id remote, .prefTierOperation o.id,
        .layoutOperation o.id remote, .routerInstall o.id], exec i s = .next (s.failOp o sw o.bindVa) := by
  have htake (f : EngOp → State → State) : Host.Outcome.next (s.takeOp o.id f) = (.next (s.failOp o sw o.bindVa) : Result) :=
    congrArg _ (State.takeOp_refused hop hlive hb f)
  simp only [List.forall_mem_cons, List.not_mem_nil, false_imp_iff, implies_true, and_true]
  exact ⟨htake _, htake _, htake _, htake _, htake _, htake _, htake _⟩

variable (hb : ∀ sw, o.binding ≠ .refused sw)
include hb

/-- An engine takes over an operation with a sound binding. -/
theorem State.takeOp_ok (f : EngOp → State → State) : s.takeOp o.id f = f o s := by
  rw [State.takeOp, hop]
  dsimp only
  rw [if_neg hlive]
  cases h : o.binding with
  | refused sw => exact absurd h (hb sw)
  | unbound | pending | counter | barrier => rfl

/-! ### The matrix engine -/

theorem execMatrixMzeroPerform_ok {t : Nat} {e : Int} (hw : o.work = .mzero t e) :
    execMatrixMzeroPerform o.id s = .next ((s.setTile o.core t { Tile.init with exp := e }).endOp o) := by
  rw [execMatrixMzeroPerform, State.takeOp_ok hop hlive hb, hw]

theorem execMatrixMmaPerform_ok {t a0 fa fb k b0 : Nat} {skip : Option Nat} {next : W64} (hw : o.work = .mma t a0 fa fb k b0 skip next) :
    let done := (s.setTile o.core t (s.mmaTile { core := o.core, a0, fa, fb, k, b0, skip } (s.tile o.core t))).endOp o
    execMatrixMmaPerform o.id s = .next (if (done.ctx o.gid).gen = o.gen then done.rejoin o.gid (fun p => p = .matrix o.id) next else done) := by
  rw [execMatrixMmaPerform, State.takeOp_ok hop hlive hb, hw]

omit hop hlive hb in
/-- The elements of a tile with their places. -/
theorem zipIdx_spGetList {α : Type} (d : α) (m : Sparse α) (n : Nat) : (spGetList d m 0 n).zipIdx = (List.range n).map fun i => (spGet d m i, i) := by
  refine List.ext_getElem (by rw [List.length_zipIdx, spGetList_length, List.length_map, List.length_range]) fun i h1 h2 => ?_
  have hi : i < n := by rwa [List.length_map, List.length_range] at h2
  have hget := spGetList_getD (d := d) (m := m) (k := 0) hi
  rw [List.getD_eq_getElem _ _ (by rwa [spGetList_length]), Nat.zero_add] at hget
  rw [List.getElem_zipIdx, List.getElem_map, List.getElem_range, hget, Nat.zero_add]

theorem execMatrixDrainPerform_ok {t d0 code : Nat} (hw : o.work = .drain t d0 code) :
    let x := s.tile o.core t
    let rs := (List.range 2048).map fun i => drainElem code (x.value (i % 64) (spGet { spec := 0, m := 0 } x.elems i))
    let bits := x.bits ||| rs.foldl (fun b r => b ||| r.2) 0
    execMatrixDrainPerform o.id s = .next ((((s.bothCores o.core).foldl (fun s c => s.setTile c t { s.tile c t with bits }) s).post
      (.deposit { gid := o.gid, gen := o.gen, rid := 0, use := .drainFlags o.id, data := BitVec.ofNat 64 (tileFlags bits).toNat, ok := true, next := 0 })).deliverAb o
        [(d0, rs.flatMap fun r => bytesOfNat r.1 (fmtBits code / 8))]) := by
  rw [execMatrixDrainPerform, State.takeOp_ok hop hlive hb, hw]
  dsimp only
  rw [zipIdx_spGetList, List.map_map]
  rfl

end

/-! ### The tier prefetch -/

/-- Pages that have nothing left to do are promoted at once. -/
theorem State.promoteAll_done {s : State} {ps : List Nat} (h : ∀ q ∈ ps, s.promote q = (s, true)) : s.promoteAll ps = (s, 0) := by
  rw [State.promoteAll]
  induction ps with
  | nil => rfl
  | cons p ps ih =>
    rw [List.foldl_cons, h p (List.mem_cons_self ..)]
    exact ih fun q hq => h q (List.mem_cons_of_mem _ hq)

/-- What a tier prefetch in this module does with its pages, or with the address that has no mapping. -/
def prefetched (r : State × Except W64 (List Nat)) (o : EngOp) : State :=
  match r with
  | (s, .error b) => s.failOp o 0x21 b
  | (s, .ok ps) =>
    match s.promoteAll (ps.filter fun p => !(o.got.getD []).contains p) with
    | (s, 0) => s.finishOp o
    | (s, _) => s.postIn 1 (.prefTierOperation o.id)

section
variable {r : State × Except W64 (List Nat)} {o : EngOp}

theorem prefetched_error {b : W64} (h : r.2 = .error b) : prefetched r o = r.1.failOp o 0x21 b := by
  obtain ⟨t, x⟩ := r
  subst h
  rfl

variable {ps : List Nat} (h : r.2 = .ok ps)
include h

theorem prefetched_done (hdone : ∀ q ∈ ps.filter fun p => !(o.got.getD []).contains p, r.1.promote q = (r.1, true)) :
    prefetched r o = r.1.finishOp o := by
  obtain ⟨t, x⟩ := r
  subst h
  rw [prefetched, State.promoteAll_done hdone]
  rfl

theorem prefetched_left (hleft : (r.1.promoteAll (ps.filter fun p => !(o.got.getD []).contains p)).2 ≠ 0) :
    prefetched r o = (r.1.promoteAll (ps.filter fun p => !(o.got.getD []).contains p)).1.postIn 1 (.prefTierOperation o.id) := by
  obtain ⟨t, x⟩ := r
  subst h
  rw [prefetched]
  dsimp only at hleft ⊢
  generalize t.promoteAll (ps.filter fun p => !(o.got.getD []).contains p) = y at hleft ⊢
  obtain ⟨u, n⟩ := y
  cases n with
  | zero => exact absurd rfl hleft
  | succ n => rfl

end

section
variable {s : State} {o : EngOp} (hop : s.op? o.id = some o) (hlive : o.state ≠ .ended) (hb : ∀ sw, o.binding ≠ .refused sw)
include hop hlive hb

theorem execPrefTierOperation_here {va : W64} {n : Nat} (hw : o.work = .prefTier va n) (hs : n = 0 ∨ s.served o.tenant va = .here) :
    execPrefTierOperation o.id s = .next (prefetched (s.prefPages (dieOf o.core) o.tenant (va &&& 0xFFFFFFFFFFFF0000#64) n) o) := by
  have hhere : (if n = 0 then Served.here else s.served o.tenant va) = .here := by
    split
    · rfl
    · next hn => exact hs.resolve_left hn
  have hmask : 0xFFFFFFFFFFFF0000#64 = ~~~0xFFFF#64 := by decide
  rw [hmask, execPrefTierOperation, State.takeOp_ok hop hlive hb, hw]
  dsimp only
  rw [hhere]
  rfl

end

end Sys2Proof.Machine
end


section
/-!
SUPPORT. The copy unit and the layout engine in this module (spec/11 R272, spec/12 R292), and the settlement of the engines' obligation.
-/

namespace Sys2Proof.Machine

open Sys2Proof

/-! ### The copy unit -/

/-- The words that have come from another module, where some have. -/
def givenWords (remote : List (Option W64)) : Option (List (Option W64)) := if remote = [] then none else some remote

/-- A copy with its source at hand and its destination in this module: it moves its words and ends, or completes at once. -/
def State.copied (s : State) (o : EngOp) (scales : List (W64 × Nat × Nat)) (remote : List (Option W64)) (p : CopyPlan) : State :=
  if p.units = [] then s.finishOp o else (s.moveAll o (p.moves ++ scaleMoves scales) false (givenWords remote)).finish o p none

section
variable {s : State} {o : EngOp} {dst src : CopyEnd} {remote : List (Option W64)} (hdst : s.endAt o.tenant dst = .here)
include hdst

theorem State.copyMoves_here (x : W64) (scales : List (W64 × Nat × Nat)) (p : CopyPlan) (given : Option (List (Option W64))) :
    s.copyMoves o dst src x false scales p given = (s.moveAll o (p.moves ++ scaleMoves scales) false given).finish o p none := by
  rw [State.copyMoves, hdst]
  rfl

variable (htrig : o.trigReg = 0) (hsrc : remote = [] → s.endAt o.tenant src = .here)
include htrig hsrc

/-- An untriggered copy with its source at hand. -/
theorem State.copyWith_here (form : CopyForm) (len x : W64) (scales : List (W64 × Nat × Nat)) (idx : List Nat) :
    s.copyWith o form dst src len x false scales idx remote = s.copied o scales remote (copyPlan form dst src len x idx) := by
  unfold State.copyWith State.copied
  dsimp only
  rw [if_pos htrig, decide_eq_false (not_not.2 htrig)]
  simp only [Bool.false_and, Bool.false_eq_true, if_false, ne_eq, not_true_eq_false]
  by_cases hunits : (copyPlan form dst src len x idx).units = []
  · rw [if_pos hunits, if_pos hunits]
  · rw [if_neg hunits, if_neg hunits]
    by_cases hremote : remote = []
    · rw [if_neg (not_not.2 hremote), hsrc hremote, givenWords, if_pos hremote]
      exact State.copyMoves_here hdst ..
    · rw [if_pos hremote, givenWords, if_neg hremote]
      exact State.copyMoves_here hdst ..

end

section
variable {s : State} {o : EngOp} (hop : s.op? o.id = some o) (hlive : o.state ≠ .ended) (hb : ∀ sw, o.binding ≠ .refused sw)
include hop hlive hb

section
variable {form : CopyForm} {dst src : CopyEnd} {len x : W64} {scales : List (W64 × Nat × Nat)} (hw : o.work = .copy form dst src len x false scales)
include hw

/-- A copy whose AB source lines are not full is tried again. -/
theorem execCopyOperation_wait (remote : List (Option W64))
    (hfull : s.sourceFull o src (copyPlan form dst src len x (List.range (slice len 31 0))) = false) :
    execCopyOperation o.id remote s = .next (s.postIn 1 (.copyOperation o.id remote)) := by
  rw [execCopyOperation, State.takeOp_ok hop hlive hb, hw]
  dsimp only
  rw [hfull]
  rfl

variable {remote : List (Option W64)} (htrig : o.trigReg = 0) (hdst : s.endAt o.tenant dst = .here) (hsrc : remote = [] → s.endAt o.tenant src = .here)
  (hfull : s.sourceFull o src (copyPlan form dst src len x (List.range (slice len 31 0))) = true)
include htrig hdst hsrc hfull

theorem execCopyOperation_plain (hform : form = .linear ∨ form = .strided) :
    execCopyOperation o.id remote s = .next (s.copied o scales remote (copyPlan form dst src len x [])) := by
  rw [← State.copyWith_here hdst htrig hsrc, execCopyOperation, State.takeOp_ok hop hlive hb, hw]
  dsimp only
  rw [hfull]
  obtain rfl | rfl := hform <;> rfl

theorem execCopyOperation_indexed (hform : form = .gather ∨ form = .scatter) {idx : List Nat} (hgot : o.got = some idx) :
    execCopyOperation o.id remote s = .next (s.copied o scales remote (copyPlan form dst src len x idx)) := by
  have hindices : (s.copyIndices o len x remote fun idx given s => s.copyWith o form dst src len x false scales idx given) =
      s.copyWith o form dst src len x false scales idx remote := by
    rw [State.copyIndices, hgot]
  rw [← State.copyWith_here hdst htrig hsrc, execCopyOperation, State.takeOp_ok hop hlive hb, hw]
  dsimp only
  rw [hfull]
  obtain rfl | rfl := hform <;> exact congrArg Host.Outcome.next hindices

end

/-! ### The layout engine -/

section
variable {dst ext desc : W64} {src : CopyEnd} {len : Nat} (hw : o.work = .layout dst src len ext desc)
include hw

theorem execLayoutOperation_arrives (remote : List (Option W64)) (hnew : o.arrived = false) :
    execLayoutOperation o.id remote s =
      .next ((s.updOp o.id fun o => { o with arrived := true, cycle := s.sched.now }).post (.layoutOperation o.id [])) := by
  rw [execLayoutOperation, State.takeOp_ok hop hlive hb, hw]
  dsimp only
  rw [hnew]
  rfl

theorem execLayoutOperation_misaligned (remote : List (Option W64)) (hcame : o.arrived = true) (hdesc : desc.toNat % 32 ≠ 0) :
    execLayoutOperation o.id remote s = .next (s.failOp o 0x01 desc) := by
  rw [execLayoutOperation, State.takeOp_ok hop hlive hb, hw]
  dsimp only
  rw [hcame, if_neg (by decide), if_pos hdesc]

theorem execLayoutOperation_described (remote : List (Option W64)) (hcame : o.arrived = true) (hdesc : desc.toNat % 32 = 0) {ws : List Nat}
    (hgot : o.got = some ws) : execLayoutOperation o.id remote s = .next (s.layoutWith o dst src len ext desc (ws.map wordOfNat) remote) := by
  rw [execLayoutOperation, State.takeOp_ok hop hlive hb, hw]
  dsimp only
  rw [hcame, if_neg (by decide), if_neg (not_not.2 hdesc), hgot]

end

end

/-! ### A layout with its descriptor at hand -/

section
variable {s : State} {o : EngOp} {dst ext desc : W64} {src : CopyEnd} {len : Nat} {ws : List W64} {remote : List (Option W64)}

/-- The extents of a descriptor, its elements, their width and the words they fill. -/
def layoutExtents (ws : List W64) (ext : W64) : List Nat := (extentsOf ext).take (slice (ws.getD 0 0) 6 4)
def layoutCount (ws : List W64) (ext : W64) : Nat := (layoutExtents ws ext).foldl (· * ·) 1
def layoutWidth (ws : List W64) : Nat := fmtBits (slice (ws.getD 0 0) 3 0)
def layoutWords (ws : List W64) (ext : W64) : Nat := (layoutCount ws ext * layoutWidth ws + 63) / 64
/-- Why it is not performed. -/
def layoutFault (ws : List W64) (ext : W64) (src : CopyEnd) (len : Nat) : Option Nat :=
  layoutReason ws ext (match src with | .ab _ => some len | _ => none)
/-- The words permuted. -/
def State.layoutPermuted (s : State) (o : EngOp) (dst : W64) (ws : List W64) (ext : W64) (xs : List (W64 × Bool)) : State :=
  s.layoutMove o dst (ws.getD 1 0) (layoutExtents ws ext) (layoutWidth ws) (layoutCount ws ext) xs

theorem layoutWith_fault {sw : Nat} (h : layoutFault ws ext src len = some sw) : s.layoutWith o dst src len ext desc ws remote = s.failOp o sw desc := by
  unfold layoutFault at h
  unfold State.layoutWith
  cases src <;> dsimp only at h ⊢ <;> rw [h]

variable (h : layoutFault ws ext src len = none)
include h

theorem layoutWith_empty (hn : layoutCount ws ext = 0) : s.layoutWith o dst src len ext desc ws remote = s.finishOp o := by
  unfold layoutFault at h
  unfold State.layoutWith
  cases src <;> dsimp only at h ⊢ <;> rw [h] <;> exact if_pos hn

theorem layoutWith_ab (hn : layoutCount ws ext ≠ 0) {off : Nat} (hsrc : src = .ab off) : s.layoutWith o dst src len ext desc ws remote =
    s.layoutPermuted o dst ws ext
      ((List.range (layoutWords ws ext)).map fun k => (BitVec.ofNat 64 (natOfBytes (s.abBytes o.abCore (off + 8 * k) 8)), false)) := by
  subst hsrc
  unfold layoutFault at h
  unfold State.layoutWith
  dsimp only at h ⊢
  rw [h]
  exact if_neg hn

theorem layoutWith_global (hn : layoutCount ws ext ≠ 0) {va : W64} (hsrc : src = .global va) (hremote : remote = []) (hhere : s.served o.tenant va = .here)
    {t : State} {xs : List (W64 × Bool)} (hread : s.layoutSource o va (layoutWords ws ext) = (t, .ok xs)) :
    s.layoutWith o dst src len ext desc ws remote = t.layoutPermuted o dst ws ext xs := by
  have hwords : s.layoutSource o va (ceilDiv (layoutCount ws ext * layoutWidth ws) 64) = (t, .ok xs) := hread
  subst hsrc hremote
  unfold layoutFault at h
  unfold State.layoutWith
  dsimp only at h ⊢
  rw [h]
  refine (if_neg hn).trans ?_
  rw [if_neg (not_not.2 rfl), hhere]
  dsimp only
  rw [← layoutExtents, ← layoutCount, ← layoutWidth, hwords]
  rfl

end

end Sys2Proof.Machine
end


section
/-!
SUPPORT. The engines' obligation, settled engine by engine (spec/10 R253-R261, spec/11 R272, R278, spec/12 R292, spec/20 R403).
-/

namespace Sys2Proof.Machine

open Sys2Proof

/-- A failed operation's record, of a LAYOUT with its descriptor's address. -/
theorem State.failOp_here {s : State} {o : EngOp} (h : s.fillsMove o = false) (sw : Nat) (a : W64) :
    s.failOp o sw a = (s.endOp o).engineFault o 0x10 sw (recordAddr o a) := by
  rw [State.failOp, h]
  rfl

/-- K = 0 changes nothing in a tile. -/
theorem State.mmaTile_zero (s : State) {m : MmaArgs} (hk : m.k = 0) (t : Tile) : s.mmaTile m t = t := by
  rw [State.mmaTile, if_pos hk]

/-- The plan of a copy without an index list. -/
theorem copyPlan_unindexed {form : CopyForm} (hform : form = .linear ∨ form = .strided) {dst src : CopyEnd} {len x : W64} (idx : List Nat) :
    copyPlan form dst src len x idx = copyPlan form dst src len x [] := by
  obtain rfl | rfl := hform <;> rfl

/-- Settles O30: an operation whose binding was refused fails; any other is taken over by its engine, whose work is followed for each kind. -/
theorem enginesPerform : Obligations.EnginesPerform := by
  unfold Obligations.EnginesPerform
  refine ⟨fun s o sw a h => State.failOp_here h sw a, fun s o remote hop hlive => ⟨fun sw hb => engines_refused hop hlive hb remote, fun hb =>
    ⟨fun t e hw => execMatrixMzeroPerform_ok hop hlive hb hw, fun t a0 fa fb k b0 skip next hw => ?_, fun t d0 code hw => ?_,
      fun form dst src len x scales hw htrig hdst hsrc => ?_, fun va n hw hs => ?_, fun dst src len ext desc hw hnew => ?_,
      fun dst src len ext desc hw hcame => ?_⟩⟩⟩
  · exact ⟨fun hk => State.mmaTile_zero s hk _, execMatrixMmaPerform_ok hop hlive hb hw⟩
  · exact execMatrixDrainPerform_ok hop hlive hb hw
  · refine ⟨fun hform => ⟨fun hfull => ?_, fun hfull => ?_⟩, fun idx hform hgot hfull => ?_⟩
    · rw [← copyPlan_unindexed hform (List.range (slice len 31 0))] at hfull
      exact execCopyOperation_wait hop hlive hb hw remote hfull
    · rw [← copyPlan_unindexed hform (List.range (slice len 31 0))] at hfull
      exact execCopyOperation_plain hop hlive hb hw htrig hdst hsrc hfull hform
    · exact execCopyOperation_indexed hop hlive hb hw htrig hdst hsrc hfull hform hgot
  · have hexec := execPrefTierOperation_here hop hlive hb hw hs
    exact ⟨fun b hr => hexec.trans (congrArg _ (prefetched_error hr)), fun ps hr hdone => hexec.trans (congrArg _ (prefetched_done hr hdone)),
      fun ps hr hleft => hexec.trans (congrArg _ (prefetched_left hr hleft))⟩
  · exact execLayoutOperation_arrives hop hlive hb hw remote hnew
  · refine ⟨fun hdesc => execLayoutOperation_misaligned hop hlive hb hw remote hcame hdesc, fun ws hdesc hgot => ?_⟩
    have hexec := execLayoutOperation_described hop hlive hb hw remote hcame hdesc hgot
    exact ⟨fun sw hr => hexec.trans (congrArg _ (layoutWith_fault hr)), fun hr hn => hexec.trans (congrArg _ (layoutWith_empty hr hn)),
      fun off hr hn hsrc => hexec.trans (congrArg _ (layoutWith_ab hr hn hsrc)),
      fun va xs t hr hn hsrc hremote hhere hread => hexec.trans (congrArg _ (layoutWith_global hr hn hsrc hremote hhere hread))⟩

end Sys2Proof.Machine
end
